-- ==== Sys2Proof/Word.lean ====
section
/-!
DEFINITION. The byte and the plainest names of the model's data. Wire fields are natural numbers whose width
`WellFormed` checks; bytes of memory and of frames are bit vectors.
-/

namespace Sys2Proof

/-- One byte, as memory and frames hold it. -/
abbrev Byte := BitVec 8

/-- A string of bytes, the lowest address or the first byte sent at the head. -/
abbrev Bytes := List Byte

/-- A client of the field network, by its U16 client number (R48). -/
abbrev Client := Nat

end Sys2Proof
end

