-- ==== Sys2Proof/Terms.lean ====
section
/-!
DEFINITION. The types of the commands' operands: receivers, identities, messages and readings, as the tables of
the spec lay them out. They are plain data.
-/

namespace Sys2Proof

/-- A receiver whose recovered clock can lose lock (R34). -/
inductive Receiver where
  | drive (b : Fin 16)
  | pod (j : Fin 16)
  | lane (link lane : Nat)
  | probe (x : Fin 256)
  | timePort (t : Fin 2)
  deriving DecidableEq, Repr

/-- Where a control word comes from: the process data, or an SDO write of a client (R61). -/
inductive CmdSrc where
  | processData
  | sdo (c : Client)
  deriving DecidableEq, Repr

/-- The SDO information services (R52), and the upload of an object, of one subindex or with complete access (R44), for which
the table has no row of its own (log 12). -/
inductive InfoKind where | list | object | entry | upload (complete : Bool)
  deriving DecidableEq, Repr

/-- Permit priorities (R373), highest first. -/
inductive Prio where | fault | reserved | normal | background
  deriving DecidableEq, Repr

/-- An Orbit definition (R115, R116). -/
structure OrbitDef where
  epoch : Nat := 0
  period : Nat := 1000000
  seq : Nat := 0
  /-- ORBIT_DEF_FROM. -/
  validFrom : Nat := 0
  deriving DecidableEq, Repr

/-- What an Announce message tells of its grandmaster (R109, R110). -/
structure PtpAnn where
  gm : Nat
  clockClass : Nat
  steps : Nat
  utc : Int
  ptpScale : Bool
  prio1 : Nat
  accuracy : Nat
  variance : Nat
  prio2 : Nat
  /-- logAnnounceInterval of the message. -/
  interval : Int
  /-- Whether a word of it carries a poison mark (R25). -/
  poison : Bool
  deriving DecidableEq, Repr

/-- What a Sync tells of itself: whether a Follow_Up comes, its logSyncInterval (Table 4.4), and whether a word of it carries a poison
mark (R25). -/
structure SyncKind where
  twoStep : Bool
  interval : Int
  poison : Bool
  deriving DecidableEq, Repr

/-- What a Delay_Resp tells beside its stamp: its correction and its logMinDelayReqInterval (Table 4.4), and whether a word of it
carries a poison mark (R25). -/
structure DelayAns where
  corr : Int
  interval : Int
  poison : Bool
  deriving DecidableEq, Repr

/-- A board identity record as it arrives (R258, Table 9.10): its BOARD, and the aligned lanes over which the board stripes it. -/
structure BoardRec where
  number : Nat
  lanes : Nat
  deriving DecidableEq, Repr

/-- A sensor frame of a driver board (R148): positions and applied outputs of its 256 axes, its fault bits. -/
structure SensorF where
  board : Nat
  seq : Nat
  cycle : Nat
  status : Nat
  pos : List Int
  applied : List Int
  /-- Axes whose SENSOR_FAULT bit is set. -/
  faults : List Nat
  /-- Axes whose word arrived with a poison mark. -/
  poisoned : List Nat
  crcOk : Bool
  /-- The aligned lanes over which the board stripes it (R258). -/
  lanes : Nat
  deriving DecidableEq, Repr

/-- A word of a slice that its cycle reads with a poison mark (R25, R311): of a coefficient set of an axis, of the axis's stage
states, trajectory reference or OPT_CORR, or of the heater loop of a ring, 176 × pod + ring: its shift, matrix record or state. -/
inductive SliceWord where
  | coef (axis set : Nat)
  | axis (axis : Nat)
  | heater (ring : Nat)
  deriving DecidableEq, Repr

/-- What the slices show at a compute deadline (R129, R311): the peak times of the four, and the words read poisoned. -/
structure SliceEnds where
  peaks : List Nat
  poison : List SliceWord
  deriving DecidableEq, Repr

/-- The light of a pilot reading (R140, R229): the comet of its signature, whether the local oscillator was valid, and the poison
mark of its word (R25). -/
structure PilotLight where
  comet : Nat
  loOk : Bool
  poison : Bool
  deriving DecidableEq, Repr

/-- The tap powers of a TAP_REPORT (R162), planes A and B of each local port, and the ports whose words carry a poison mark (R25). -/
structure TapPowers where
  taps : List (Int × Int)
  poison : List Nat
  deriving DecidableEq, Repr

/-- What a pod's report shows of its frame: whether the CRC holds (R174), and whether a word of it carries a poison mark (R25). -/
structure FrameCheck where
  crcOk : Bool
  poison : Bool
  deriving DecidableEq, Repr

/-- The resonance offsets of a HEATER_REPORT (R166), and the rings whose offset carries a poison mark (R25). -/
structure RingOffsets where
  eps : List (Option Int)
  poison : List Nat
  deriving DecidableEq, Repr

/-- The fields of a block header that place it (Table 8.6): SYNC, and the word at which the first frame of the block begins. -/
structure BlockPlace where
  sync : Nat
  first : Nat
  deriving DecidableEq, Repr

/-- One write of a TUNER_WRITE frame (R164): ring, bank and code. -/
structure TunerWrite where
  ring : Nat
  bank : Nat
  code : Nat
  deriving DecidableEq, Repr

/-- One action of a STROBE_DESC frame (R174): bank, undo, and the pods it names with this pod's delay. -/
structure DescAct where
  bank : Nat
  undo : Bool
  podMask : Nat
  delay : Nat
  deriving DecidableEq, Repr

/-- One port of a MONITOR_SET frame (R162). -/
structure MonitorSet where
  mask : Nat
  flags : Nat
  threshold : Int
  deriving DecidableEq, Repr

/-- The calibration store of a pod as discovery reads it (R177, R178, R259). -/
structure PodStore where
  serial : Bytes
  matrix : Bytes
  tempCoef : List Int
  drop : List Nat
  through : List Nat
  shutter : List Nat
  flipOffset : Int
  crcOk : Bool
  deriving DecidableEq, Repr

/-- What the fit of a calibration sweep found at one end (R172). -/
structure Fit where
  port : Nat
  /-- Peak drop fraction against the ring's factory peak, in 0.01 dB. -/
  peak : Int
  /-- Fitted width, in MHz. -/
  width : Nat
  /-- Drop and through codes that the fit gives the ring's rows. -/
  drop : List Nat
  through : List Nat
  deriving DecidableEq, Repr

/-- The header of a commit message (Table 7.4) with its reason. -/
structure CMsg where
  tag : Nat
  entry : Nat
  zenith : Nat
  crc : Nat
  sender : Nat
  leader : Nat
  epoch : Nat
  reason : Nat
  deriving DecidableEq, Repr

/-- What a transmit command asks of the optics (R215): a link frame, a training or test frame of one lane of a link, or a probe frame
of a port. -/
inductive TxCmd where
  | lane (link lane type : Nat) (payload : Bytes)
  | frame (link type cls dest : Nat) (payload : Bytes)
  | probe (port type : Nat) (payload : Bytes)
  deriving DecidableEq, Repr

/-- Where a link frame comes from: the lane that carries its header, and the chip number of its originator (R218); and whether a word
of it was marked as poisoned on its way (R25). -/
structure FrameFrom where
  lane : Nat
  chip : Nat
  poison : Bool
  deriving DecidableEq, Repr

/-- The NAK byte of a LINK_ACK, with the lane that carries its header (R220). -/
structure AckFrom where
  lane : Nat
  nak : Nat
  deriving DecidableEq, Repr

/-- LINK_TRAIN (R221), with the lane that carries its header. -/
structure Train where
  lane : Nat
  cls : Nat
  mask : Nat
  maxPayload : Nat
  sender : Nat
  twin : Nat
  trainId : Nat
  echo : Nat
  deriving DecidableEq, Repr

/-- The header of a Mapen frame from an endpoint (R234): source chip, its port, SEQ and ECHO; and whether a word of the frame was marked
as poisoned on its way (R25). -/
structure Mapen where
  source : Nat
  port : Nat
  seq : Nat
  echo : Nat
  poison : Bool
  deriving DecidableEq, Repr

/-- The identity that an IDENT carries (R236). -/
structure Ident where
  chip : Nat
  link : Nat
  profile : Nat
  vendor : Nat
  serial : Bytes
  caps : Nat
  lanes : Nat
  nonce : Nat
  deriving DecidableEq, Repr

/-- DISC_HELLO (Table 9.9). -/
structure DiscHello where
  chip : Nat
  twin : Nat
  variant : Nat
  port : Nat
  state : Nat
  flags : Nat
  serial : Bytes
  image : Nat
  deriving DecidableEq, Repr

/-- DISC_STATE with its originator (Table 9.9). -/
structure DiscState where
  source : Nat
  twin : Nat
  state : Nat
  flags : Nat
  seq : Nat
  mask : Nat
  since : Nat
  id : Nat
  deriving DecidableEq, Repr

/-- The service header (Table 10.2). -/
structure SvcHdr where
  format : Nat
  flags : Nat
  gen : Nat
  tag : Nat
  token : Nat
  /-- SCALE, as the bits of a REAL32. -/
  scale : Nat
  addr : Nat
  group : Nat
  deriving DecidableEq, Repr

/-- A CLIP as received, sent or retained (R277): RESULT, CLIP as FP32 bits and NORM as FP64 bits. -/
structure Clip where
  tag : Nat
  gen : Nat
  step : Nat
  result : Nat
  clip : Nat
  norm : Nat
  deriving DecidableEq, Repr

/-- A STORE_COPY frame (R353). -/
structure StoreMsg where
  item : Nat
  flags : Nat
  index : Nat
  version : Nat
  offset : Nat
  total : Nat
  data : Bytes
  deriving DecidableEq, Repr

/-- A page of the flash that a read may find in error (R312): the page of a log that holds a record, a page of a slot of the
settings journal, or a page pair of a slot of RETIRE (slot 2s for A of stack s, 2s + 1 for B). -/
inductive FlashPage where
  | log (prot : Bool) (seq : Nat)
  | settings (slot page : Nat)
  | retire (slot pair : Nat)
  deriving DecidableEq, Repr

/-- What the devices show at the poll of their error counts (R295, R312): the count of each stack, and the errors that their cells
have taken since the last one: symbols of an HBM code word (stack, word, symbols), bits of an SRAM word (array, word, bits), and bits
of the worst sector of a flash page. -/
structure EccPoll where
  counts : List Nat
  hbm : List (Nat × Nat × Nat)
  sram : List (Nat × Nat × Nat)
  flash : List (FlashPage × Nat)
  deriving DecidableEq, Repr

end Sys2Proof
end

