-- ==== Sys2Proof/Syntax.lean ====
section
/-!
DEFINITION. The commands of the block: one constructor per row of the opcode table, in the table's order.
Indices of parts of the machine are `Fin`; fields of frames are `Nat`, their widths checked by `WellFormed`.
-/

namespace Sys2Proof

/-- A command of the Director: a request of a client, a frame or an edge from outside, or a timer of its own. -/
inductive Instr where
  /-- R389. Both supplies in range with cold reset released: PD0 latches the straps and runs the cold start sequence towards STANDBY. -/
  | coldStart (straps : Fin 128) (timeRef : Fin 3)
  /-- R442. The hold-up store reaches full charge, and the ROM verification that waited for it may begin. -/
  | holdupCharged
  /-- R441. The main input is out of range for 20 µs: the flash gate closes, both grants drop and every domain except PD0 and PD15 switches off at once. -/
  | mainInputFail
  /-- R441. The main input has been back in range for 100 ms after a failure, and a cold start follows. -/
  | mainInputRestored
  /-- R443. COLD_RESET_N is held low for at least 1 ms and acts as a main-input failure while it is held. -/
  | coldReset
  /-- R443. VAUX falls below 3.0 V for 10 µs: the whole module loses power, the grant nets fall and the next start is cold. -/
  | vauxLoss
  /-- R437. TWIN_PRESENT_N or TWIN_ID changes, which lifts or sets the grant block for equal STRAP_TWIN. -/
  | twinPresentChange (low : Bool) (id : Fin 2)
  /-- R342. A PLL of CK_CORE or CK_CTRL loses lock: PD0 drops both grants within 1 µs while the boards and pods hold. -/
  | refclkALost (core ctrl : Bool)
  /-- R439. TIME_REF is absent or changes: TIME_REF_STATE reads 2, CK_TIME runs in holdover and event 0x0901 is raised. -/
  | timeRefLost
  /-- R34. A recovered clock loses lock: its crossing queues are flushed, the partial frame is discarded and the receiver is flagged. -/
  | lossOfLock (r : Receiver) (words : Nat)
  /-- R369. DOMAIN_REQUEST with ACTION ON: the switch-on is checked against the required domains and requests DOMAIN_UP. -/
  | domainOn (c : Client) (d : Fin 16) (rsvd : Fin 16)
  /-- R369. DOMAIN_REQUEST with ACTION OFF: the Director checks the guards, then quiesces the domain and its dependants and switches them off in order. -/
  | domainOff (c : Client) (d : Fin 16) (rsvd : Fin 16)
  /-- R367. A domain's rails have stayed in tolerance for its whole ramp time, so it is ON and its parts are loaded again. -/
  | domainRampDone (d : Fin 16) (bad : List (Nat × Nat))
  /-- R29. 10 µs pass while a crossing is being quiesced: the words still queued are discarded and counted, and the domain is isolated. -/
  | quiesceTimeout (x : Fin 20) (words : Nat)
  /-- R56. An SDO write to an object that has no row of its own passes the two-stage checks and, if accepted, takes effect. -/
  | objectWrite (c : Client) (index sub : Nat) (complete : Bool) (data : Bytes)
  /-- R42. A segment of a segmented SDO transfer arrives, is checked and is added to the transfer. -/
  | sdoSegment (c : Client) (index sub total : Nat) (toggle last : Bool) (data : Bytes)
  /-- R42. 1 s passes with no next segment: the transfer is aborted with 0x0504_0000 and its data is discarded. -/
  | sdoSegmentTimeout
  /-- R52. An SDO information request returns the object list or descriptions, filtered by what the session may read. -/
  | sdoInfo (c : Client) (k : InfoKind) (index sub : Nat)
  /-- R37. A mailbox request of an unsupported protocol is answered with mailbox error 0x0002. -/
  | unsupportedProtocol (c : Client) (protocol : Nat)
  /-- R57. 2.000 ms after handling began, the first-stage refusal is placed in the mailbox and REFUSAL_COUNT increments. -/
  | refusalResponse
  /-- R39. The MainDevice requests Init: sessions end and process data stops, with no effect on the Director state. -/
  | requestInit
  /-- R39. The MainDevice requests Pre-Op, which is accepted or refused with an AL status code. -/
  | requestPreOp
  /-- R39. The MainDevice requests Safe-Op, and the PDO mapping and DC cycle are checked. -/
  | requestSafeOp (cycle : Option Nat)
  /-- R39. The MainDevice requests Op, which is accepted or refused with an AL status code. -/
  | requestOp
  /-- R40. Bootstrap is requested from Init and accepted only in BOOT without a verified image, or in MAINTENANCE with no grant. -/
  | requestBootstrap
  /-- R38. The process-data watchdog expires and the SubDevice falls to Safe-Op with AL status 0x001B. -/
  | processDataWatchdog
  /-- R46. At a SYNC0 edge the RxPDO data is latched, a TxPDO snapshot is taken and the DC time is recorded for correlation. -/
  | sync0 (dcTime : Nat)
  /-- R54. A read of SESSION_CHALLENGE returns 16 fresh random bytes bound to the client and valid for 10 s. -/
  | sessionChallenge (c : Client)
  /-- R54. A challenge reaches its 10 s lifetime and becomes void. -/
  | challengeExpiry (c : Client)
  /-- R54. A write of SESSION_RESPONSE consumes the challenge and opens the session if the MAC matches. -/
  | sessionResponse (c : Client) (data : Bytes)
  /-- R53. A write of 0x01 to SESSION_END ends the client's session. -/
  | sessionEnd (c : Client) (data : Bytes)
  /-- R53. A session has had no request for SESSION_IDLE_TIMEOUT and ends. -/
  | sessionIdleTimeout (c : Client)
  /-- R55. A role key is written, which ends the open sessions of that role. -/
  | roleKey (c : Client) (role : Fin 4) (data : Bytes)
  /-- R62. Command ARM takes STANDBY to ARMED under its guards and begins pre-steer. -/
  | arm (src : CmdSrc)
  /-- R62. Command SERVE takes ARMED to SERVING, and the almanacs of RUNNING jobs advance. -/
  | serve (src : CmdSrc)
  /-- R62. Command HOLD freezes SERVING at the next entry whose Go is not yet acknowledged. -/
  | hold (src : CmdSrc)
  /-- R62. Command RESUME returns from HOLD to SERVING at the first uncommitted entry. -/
  | resume (src : CmdSrc)
  /-- R62. Command DISARM aborts the comets and returns to STANDBY. -/
  | disarm (src : CmdSrc)
  /-- R62. Command ENTER_MAINTENANCE, from a Maintainer over SDO, enters MAINTENANCE under its guard. -/
  | enterMaintenance (src : CmdSrc)
  /-- R62. Command EXIT_MAINTENANCE returns to STANDBY when no tune or calibration round is open. -/
  | exitMaintenance (src : CmdSrc)
  /-- R62. Command ENTER_REPLAY stops drive and pod frames and enters REPLAY when neither grant is held. -/
  | enterReplay (src : CmdSrc)
  /-- R62. Command EXIT_REPLAY returns to STANDBY. -/
  | exitReplay (src : CmdSrc)
  /-- R390. Command WARM_RESTART sends HOLD frames and GOODBYEs, ends the sessions and runs the warm restart. -/
  | warmRestart (src : CmdSrc)
  /-- R320. A 0-to-1 change of FAULT_ACK removes the inactive latched faults, clears LOST_MARKER and acknowledges the faulted axes. -/
  | faultAck (src : CmdSrc)
  /-- R60. A control word with CMD 11–15 or a reserved bit set is acknowledged and ends with CMD_RESULT 5 and no effect. -/
  | cmdUnlisted (word : Fin 65536)
  /-- R60. A command in progress completes: CMD_RESULT is set and TOGGLE is compared again, so a command given meanwhile is taken. -/
  | commandComplete
  /-- R392. The loader has verified and loaded an image, and the Director goes from BOOT to SELFTEST. -/
  | imageVerified (region : Fin 2) (manifest : Bytes)
  /-- R62. The self-tests complete, the held positions are adopted and the Director enters STANDBY, or FAULT on a class 3 failure. -/
  | selftestPassed (bad : List (Nat × Nat))
  /-- R65. JOB_COMMAND START puts a LOADED or STOPPED job in RUNNING after validation and its guards. -/
  | jobStart (c : Client) (j : Fin 16)
  /-- R65. JOB_COMMAND STOP puts a RUNNING job in STOPPED after the last acknowledged Zenith. -/
  | jobStop (c : Client) (j : Fin 16)
  /-- R65. JOB_COMMAND CLEAR puts the job in EMPTY and releases its ports, whose circuits stay lit. -/
  | jobClear (c : Client) (j : Fin 16)
  /-- R64. A PORT_MAP write assigns the job's ports, sets DEFINED or EMPTY and runs validation again. -/
  | portMap (c : Client) (j : Fin 16) (data : Bytes)
  /-- R82. A constellation slot is written or emptied, with structural checks, ownership checks and revalidation of the referencing almanacs. -/
  | constellation (c : Client) (slot : Fin 1024) (data : Bytes)
  /-- R83. An almanac is written or emptied, with structural and sequence validation and the job state updated. -/
  | almanac (c : Client) (j : Fin 16) (data : Bytes)
  /-- R71. A SHARD_MAP write assigns the job's collective shards, and a duplicate shard is refused. -/
  | shardMap (c : Client) (j : Fin 16) (data : Bytes)
  /-- R85. Almanac validation completes: ALMANAC_REPORT and VALIDATED_PERIOD are updated and the waiting SDO response leaves. -/
  | validationDone
  /-- R353. A store item is not confirmed by the twin within 100 ms: it enters the stale set, STORE_STALE is set and the SDO response leaves. -/
  | storeConfirmTimeout
  /-- R128. The axis-cycle trigger at each 50 µs multiple starts a control cycle, and commands and permits are sampled. -/
  | cycleStart
  /-- R35. At cycle start + 5 µs, sensor frames, pilot readings, tap powers and the cycle's Array time are latched for computation. -/
  | inputLatch
  /-- R129. At cycle start + 35 µs the command frames are handed over, with KEEP for missed axes, and the twin and recorder snapshots are taken. -/
  | computeDeadline (late : List Nat) (ends : SliceEnds)
  /-- R166. The heater trigger at each 200 µs multiple runs the heater loops of every pod and sends the codes. -/
  | heaterTrigger
  /-- R103. Each TRANSFER_INTERVAL the module sends TIME_REQ to its parent and counts unanswered exchanges. -/
  | transferInterval
  /-- R114. A TIME_REQ from a child is stamped and answered with TIME_RESP, which carries T2, T3, the flags and the Orbit definition. -/
  | timeReq (port : Fin 7) (seq flags twin sender : Nat) (t2 residence : Nat)
  /-- R103. A TIME_RESP is matched and stamped: θ and the delay are computed, the filter and time state are updated and the Orbit definition is adopted. -/
  | timeResp (port : Fin 7) (seq flags depth leader : Nat) (utc : Int) (t2 t3 t4 : Nat) (o : OrbitDef)
  /-- R106. HOLDOVER_LIMIT elapses in HOLDOVER and the module enters FREE. -/
  | holdoverLimit
  /-- R110. A PTP Sync sample from a slot is judged against its prediction and updates the slot state, and at the root it feeds the servo. -/
  | ptpSync (d : Fin 2) (gm : Nat) (k : SyncKind) (t1 t2 : Nat) (corr : Int)
  /-- R108. A two-step Follow_Up completes its Sync sample. -/
  | ptpFollowUp (d : Fin 2) (t1 : Nat) (corr : Int)
  /-- R109. An Announce updates the best time transmitter and the qualification of the slot. -/
  | ptpAnnounce (d : Fin 2) (a : PtpAnn)
  /-- R108. The slot's delay-request interval elapses and Delay_Req or Pdelay_Req is sent. -/
  | ptpDelayReqInterval (d : Fin 2)
  /-- R108. A Delay_Resp completes the path-delay measurement of a slot. -/
  | ptpDelayResp (d : Fin 2) (t4 : Nat) (r : DelayAns)
  /-- R108. A Pdelay_Req from the link peer is answered with Pdelay_Resp. -/
  | ptpPdelayReq (t : Fin 2) (t2 residence : Nat)
  /-- R108. A Pdelay_Resp completes the slot's peer delay. -/
  | ptpPdelayResp (d : Fin 2) (t2 t3 t4 : Nat) (corr : Int)
  /-- R110. A write of REQUALIFY returns a DISQUALIFIED slot to TRACKING. -/
  | requalify (c : Client) (d : Fin 2) (data : Bytes)
  /-- R113. The 100 ms STEP_PENDING notice ends, and the root steps if ANY_ARMED stayed clear or otherwise abandons the step. -/
  | rootStepNoticeEnd
  /-- R115. A write of ORBIT_EPOCH on the root creates a new Orbit definition effective 200 ms later. -/
  | orbitEpoch (c : Client) (data : Bytes)
  /-- R115. A write of ORBIT_PERIOD on the root creates a new Orbit definition effective 200 ms later. -/
  | orbitPeriod (c : Client) (data : Bytes)
  /-- R116. A known Orbit definition takes effect at its ORBIT_DEF_FROM, and jobs with another validated period stop. -/
  | orbitDefFrom
  /-- R117. Each ORBIT_SYNC_INTERVAL, ORBIT_SYNC is queued to every IDENTIFIED port. -/
  | orbitSyncInterval
  /-- R118. The commit path arms a strobe with its Zenith, pod mask and tags, and it is refused if late or if the table is full. -/
  | strobeArm (z : Nat) (pods : List (Fin 64)) (tag : Fin 16)
  /-- R119. The counter reaches Z − Ej and the MARK leaves on the pod link. -/
  | strobeEmit (j : Fin 16)
  /-- R119. Once a minute, or at training, a loopback marker is sent to measure Lq. -/
  | podLatencyMeasure (j : Fin 16)
  /-- R177. A loopback echo arrives: Lq is derived and the pod delay and emission lead are rewritten when no strobe is armed. -/
  | lbkEcho (q : Fin 64) (rtt : Nat)
  /-- R124. A PPS_IN rising edge is compared with the nearest whole second, and PPS_IN_OFFSET is reported. -/
  | ppsIn (stamp : Nat)
  /-- R124. Array time reaches a whole second and PPS_OUT rises while enabled. -/
  | ppsOut
  /-- R148. A sensor frame from a board arrives, is checked and is queued for the input latch. -/
  | sensorFrame (b : Fin 16) (f : SensorF)
  /-- R148. A board receives a command frame and accepts it only with a good CRC, its BOARD, the granted TWIN and the right CYCLE, otherwise it holds. -/
  | boardCommandFrame (b : Fin 16) (board seq cycle twin : Nat) (outs : List (Int × Bool)) (crcOk : Bool)
  /-- R149. A board receives a HOLD frame, holds every output and sets HOLDING. -/
  | boardHoldFrame (b : Fin 16) (board seq cycle twin : Nat) (crcOk : Bool)
  /-- R137. The last cycle of a slew is reached and the axis enters ACQUIRE with its pilot loop. -/
  | trajectoryEnd (a : Fin 4096)
  /-- R139. The last cycle of a jerk-limited stop is reached and the axis enters HOLD_CLOSED. -/
  | stopEnd (a : Fin 4096)
  /-- R140. A 100 µs pilot reading completes and, if valid, corrects OPT_CORR of the head. -/
  | pilotReading (h : Fin 2048) (ex ey level : Int) (light : PilotLight)
  /-- R142. A four-cycle dither group ends and the tap-power gradient corrects OPT_CORR. -/
  | ditherGroupEnd (h : Fin 2048)
  /-- R144. A spiral search reaches SEARCH_RADIUS without a valid reading. -/
  | searchEnd (h : Fin 2048)
  /-- R145. An L1 reacquire try reaches its time, and the next try starts or the level fails. -/
  | reacquireTryEnd (north : Fin 512) (plane : Fin 2)
  /-- R136. OPEN_REQUEST opens or releases axes of a head in MAINTENANCE. -/
  | openRequest (c : Client) (h : Fin 2048) (data : Bytes)
  /-- R136. An open axis reaches OPEN_HOLD_LIMIT and closes by cold adoption. -/
  | openHoldLimit (h : Fin 2048)
  /-- R147. AUTOTUNE_COMMAND starts a relay tune of one axis in HOLD_CLOSED. -/
  | autotuneCommand (c : Client) (h : Fin 2048) (data : Bytes)
  /-- R147. The relay tune completes its periods, and the result is computed and written to set 3 if valid. -/
  | autotuneEnd (a : Fin 4096)
  /-- R147. TUNE_TIMEOUT elapses before the tune completes, and the axis returns to HOLD_CLOSED with the cause reported. -/
  | tuneTimeout (a : Fin 4096)
  /-- R150. After the HOLD frames, each axis is adopted warm or cold and the first COMMAND frame is sent. -/
  | adoption
  /-- R151. BOARD_COMMAND DRAIN moves a board with no circuit to DRAINED and sends HOLD frames. -/
  | drain (c : Client) (b : Fin 16)
  /-- R151. BOARD_COMMAND RETURN adopts a rediscovered board's axes cold. -/
  | returnBoard (c : Client) (b : Fin 16)
  /-- R258. A board identity record arrives, and with a valid CRC and BOARD the board goes to ADOPTING. -/
  | boardIdentity (b : Fin 16) (board : BoardRec) (serial firmware : Bytes) (hv : Int) (crcOk : Bool)
  /-- R258. All lanes of a board have been unaligned for 3 cycles and the board is lost. -/
  | boardLost (b : Fin 16)
  /-- R163. An urgent lane-lost event arrives, and lane and circuit states move to DEGRADED or LOST with fault events. -/
  | laneLost (p : Fin 1024) (lanes : Fin 256)
  /-- R163. An urgent lane-restored event arrives, the lane rejoins the monitor mask and the circuit may return to LIVE. -/
  | laneRestored (p : Fin 1024) (lanes : Fin 256)
  /-- R202. An urgent pilot-crossing event is logged, counted and opens a tentative-probe watch on the port. -/
  | pilotCrossing (p : Fin 1024)
  /-- R175. A TAP_REPORT with the latched tap powers arrives from a pod chain. -/
  | tapReport (q : Fin 64) (cycle : Nat) (powers : TapPowers) (crcOk : Bool)
  /-- R166. A HEATER_REPORT with the resonance offsets, lane powers and pod temperature arrives. -/
  | heaterReport (q : Fin 64) (offsets : RingOffsets) (powers : List Int) (temp : Int) (crcOk : Bool)
  /-- R200. A BANK_ACK reports banks applied and settled, which restores the monitor masks and verifies the commit. -/
  | bankAck (q : Fin 64) (id : Nat) (applied : Fin 65536) (settled : Bool) (chk : FrameCheck)
  /-- R171. A calibration sweep result arrives from a pod. -/
  | sweepResult (q : Fin 64) (loc : Fin 16) (lane : Fin 8) (offset : Int) (points : List (Int × Int)) (chk : FrameCheck)
  /-- R164. A pod receives TUNER_WRITE and stages codes in a bank, or applies them at once. -/
  | podTunerWrite (q : Fin 64) (writes : List TunerWrite) (crcOk : Bool)
  /-- R176. A pod receives a STROBE_DESC and keeps it pending. -/
  | podStrobeDesc (q : Fin 64) (id : Nat) (acts : List DescAct) (crcOk : Bool)
  /-- R164. A pod matches a MARK to its pending descriptor and applies or undoes banks after its delay. -/
  | podMark (q : Fin 64) (low : Fin 256)
  /-- R175. A pod applies its received heater codes at the next HCYC. -/
  | podHeaterSet (q : Fin 64) (codes : List (Fin 4096)) (crcOk : Bool)
  /-- R162. A pod receives MONITOR_SET and updates its monitor masks and thresholds. -/
  | podMonitorSet (q : Fin 64) (ports : List MonitorSet) (crcOk : Bool)
  /-- R119. A pod receives DELAY_SET and sets its strobe delay. -/
  | podDelaySet (q : Fin 64) (delay : Fin 256) (crcOk : Bool)
  /-- R171. A pod receives CAL_SWEEP and sweeps a lane ring. -/
  | podCalSweep (q : Fin 64) (loc : Fin 16) (lane : Fin 8) (first step points : Nat) (crcOk : Bool)
  /-- R177. A pod named by LBK returns the echo upstream after 4 ns. -/
  | podLbk (q : Fin 64) (position : Fin 4)
  /-- R176. A pod's receiver has lost code-group lock for 10 µs, so it discards pending descriptors and unapplied banks. -/
  | podLockLoss (q : Fin 64)
  /-- R259. The loopback is measured and the calibration store accepted, and the pod becomes IN_SERVICE. -/
  | podDiscovered (q : Fin 64) (store : PodStore)
  /-- R259. A pod's lock has been lost for 10 ms or its store fails: it leaves IN_SERVICE and its ports go OUT_OF_SERVICE. -/
  | podLost (q : Fin 64) (storeBad : Bool)
  /-- R167. A CROSSTALK write in MAINTENANCE is checked and used from the next heater cycle. -/
  | crosstalk (c : Client) (q : Fin 64) (data : Bytes)
  /-- R170. CAL_REQUEST names lanes of a port to be calibrated first. -/
  | calRequest (c : Client) (p : Fin 1024) (data : Bytes)
  /-- R170. Once a second a background calibration round is due and requests a CAL permit. -/
  | calBackgroundTimer
  /-- R171. A round starts at a cycle start under its permit: a lane-out strobe at both ends and the sweep ordered. -/
  | calRoundStart (p : Fin 1024) (k : Fin 8)
  /-- R172. At R + 650 µs the Director fits the tables, judges acceptance and computes LANE_EQ. -/
  | calFit (p : Fin 1024) (k : Fin 8) (fits : List Fit)
  /-- R171. At R + 700 µs a lane-in strobe returns the lane with the new or old tables. -/
  | calLaneIn (p : Fin 1024) (k : Fin 8)
  /-- R171. At R + 750 µs the lane rejoins the monitor masks. -/
  | calLaneRejoin (p : Fin 1024) (k : Fin 8)
  /-- R180. An entry reaches Z − LAUNCH_LEAD: comets are created and planned, permits are requested and prefetch starts. -/
  | launchWindow (j : Fin 16)
  /-- R180. A comet is admitted at the latest of its instants and launches its slew with the pilot on. -/
  | cometLaunch (north : Fin 512) (plane : Fin 2) (waypoint : Nat)
  /-- R190. A VOTE reaches the leader, or is forwarded up the tree, and the leader sends GO once every member is READY. -/
  | vote (port : Fin 6) (m : CMsg) (members ready notReady : Nat)
  /-- R188. At Z − 1,000 µs a member that has not voted votes NOT_READY. -/
  | voteDeadline (j : Fin 16)
  /-- R190. At Z − 800 µs, if GO has not been sent, the leader sends HOLD. -/
  | decisionInstant (tag z : Nat)
  /-- R192. GO reaches a member, which stages banks, arms strobes and sends ACK or FAIL. -/
  | goMsg (port : Fin 6) (m : CMsg)
  /-- R192. A commit HOLD reaches a member, which aborts the entry's comets and keeps the entry. -/
  | commitHold (port : Fin 6) (m : CMsg)
  /-- R193. An ACK reaches the leader, which sends CONFIRM once every member has acknowledged without FAIL. -/
  | commitAck (port : Fin 6) (m : CMsg) (ack fail : Nat)
  /-- R195. CONFIRM reaches a member and is recorded for the outcome. -/
  | commitConfirm (port : Fin 6) (m : CMsg)
  /-- R194. RETRACT reaches a member: before the cancel limit it cancels the strobes, otherwise it forces a revert. -/
  | retract (port : Fin 6) (m : CMsg)
  /-- R196. An OUTCOME reaches the leader, which sends VOID on the first reverted bit. -/
  | outcome (port : Fin 6) (m : CMsg) (kept reverted : Nat)
  /-- R205. VOID reaches a member, which sends VOID_STEP to the job's ports and voids the step in the engine. -/
  | voidStep (port : Fin 6) (m : CMsg) (step : Nat)
  /-- R185. Every 50 µs a sender repeats its latest commit message until its reply arrives. -/
  | commitRepeat
  /-- R193. At Z − 200 µs the leader sends RETRACT if an acknowledgement is missing or failed. -/
  | guard (tag z : Nat)
  /-- R194. At a strobe's cancel limit the member sends its STROBE_DESC, and the strobe can no longer be cancelled. -/
  | cancelLimit (j : Fin 16) (k : Fin 8)
  /-- R197. At Z the commit takes effect: circuits change state, heads change axis state, NEXT_ENTRY advances and service contexts close or retrain. -/
  | zenith (j : Fin 16)
  /-- R198. At Z + 50 µs × k lane k moves to the new circuit, and the outgoing circuits end at step 7. -/
  | gradedStep (j : Fin 16) (k : Fin 8)
  /-- R200. A bank is not reported by 30 µs after its instant, so a catch-up strobe is armed and logged. -/
  | bankAckDeadline (j : Fin 16) (k : Fin 8)
  /-- R200. The verification window ends and the entry is judged verified or failed. -/
  | verificationEnd (j : Fin 16)
  /-- R195. At Z + 950 µs a member that flipped fixes keep or revert and sends OUTCOME. -/
  | outcomeFix (j : Fin 16)
  /-- R204. At Z + 1 ms the UNDO strobes restore the old circuits and NEXT_ENTRY and COMMIT_COUNT revert. -/
  | revert (j : Fin 16)
  /-- R196. At Z + 2 ms the leader raises a class 4 fault if the outcomes are divided. -/
  | outcomeCheck (tag z : Nat)
  /-- R202. A port's tentative-probe watch runs out. -/
  | tentativeWatch (p : Fin 1024)
  /-- R328. An out-of-schedule detour is decided locally at Zd, or abandoned if its comets are not READY. -/
  | detourZenith (j : Fin 16)
  /-- R209. An ELSFP module is inserted and checked, and becomes PRESENT or REFUSED. -/
  | laserModuleInserted (s : Fin 4) (vendor part serial : Bytes) (freqOk powerOk mgmtOk : Bool)
  /-- R212. An ELSFP module is removed: its lanes drop and its lease is released. -/
  | laserModuleRemoved (s : Fin 4)
  /-- R211. SLOT_COMMAND ENABLE requests LASER_UP to light the slot. -/
  | slotEnable (c : Client) (s : Fin 4)
  /-- R212. SLOT_COMMAND DISABLE ramps the lasers down and the slot enters SAFE. -/
  | slotDisable (c : Client) (s : Fin 4)
  /-- R211. The slot's 20 ms ramp completes and it is LIT. -/
  | laserRampDone (s : Fin 4) (short : Fin 256)
  /-- R212. A laser's output stays 3 dB below its set-point for 100 µs and it is disabled as dead. -/
  | laserDead (s : Fin 4) (m : Fin 8)
  /-- R212. A module interrupt reports a laser alarm, and the laser is declared dead. -/
  | laserAlarm (s : Fin 4) (m : Fin 8)
  /-- R209. Every 10 ms the laser monitors are polled. -/
  | laserMonitorPoll (s : Fin 4) (power : List Int) (temp : Int)
  /-- R213. Every 20 µs a synthesiser samples its offset, locks or loses lock, and gates its lane. -/
  | synthSample (l : Fin 295) (k : Fin 8) (offset : Int) (powerOk : Bool)
  /-- R214. MOD_CAL_INTERVAL elapses for a lane and its modulator calibration starts with the gate closed. -/
  | modCalDue (l : Fin 295) (k : Fin 8)
  /-- R214. A modulator calibration completes and the lane returns through ALIGNING. -/
  | modCalDone (l : Fin 295) (k : Fin 8)
  /-- R215. SETTLE_WAIT elapses for a settling lane: it is removed from ACTIVE and the held frames go on the other lanes. -/
  | settleWait (l : Fin 295) (k : Fin 8)
  /-- R215. A link frame or single-lane probe is submitted for transmission and is held, sent or refused NOT_LOCKED. -/
  | transmitCommand (t : TxCmd)
  /-- R217. A lane's block header is received: alignment, ACTIVE and RX_ALIGNED are updated and lanes join or drop. -/
  | blockHeader (l : Fin 39) (k : Fin 8) (place : BlockPlace) (active rxAligned : Nat) (hcrcOk : Bool)
  /-- R218. A link frame is received, checked and delivered in class order to its block. -/
  | linkFrame (l : Fin 39) (type cls seq : Nat) (source : FrameFrom) (dest : Nat) (payload : Bytes) (hcrcOk crcOk : Bool)
  /-- R220. A LINK_ACK advances acknowledgement or triggers a resend on NAK. -/
  | linkAck (l : Fin 39) (ack1 ack2 : Nat) (nak : AckFrom)
  /-- R220. 20 µs pass without progress and the frames from the first unacknowledged one are resent. -/
  | retryTimeout (l : Fin 39)
  /-- R221. A LINK_TRAIN is received, and the side goes UP when ECHO_ID matches its TRAIN_ID. -/
  | linkTrain (l : Fin 39) (t : Train)
  /-- R221. Every 10 µs, or 2 µs in fast retrain, LINK_TRAIN is sent until the link is UP. -/
  | linkTrainInterval (l : Fin 39)
  /-- R221. 100 ms pass without UP and a new full training attempt starts. -/
  | trainingRetry (l : Fin 39)
  /-- R228. A port's probe activity detector flags endpoint light, or clears. -/
  | probeLightFlag (p : Fin 1024) (light : Bool)
  /-- R228. A transceiver's 200 µs dwell ends and it attaches to its next port by priority. -/
  | probeDwellEnd (x : Fin 256)
  /-- R237. The 60 µs reply window closes and the frame counts as unanswered. -/
  | replyWindowEnd (p : Fin 1024)
  /-- R237. A probe refused NOT_LOCKED is retried every 100 µs. -/
  | probeRetry (p : Fin 1024)
  /-- R247. An endpoint HELLO is taken as an attach request or re-identification, or as a tentative probe. -/
  | mapenHello (p : Fin 1024) (f : Mapen) (twin profileMax attempt nonce : Nat)
  /-- R249. An IDENT is checked and the port goes to TRAINING with ACK, or is refused with NAK. -/
  | ident (p : Fin 1024) (f : Mapen) (i : Ident)
  /-- R247. An endpoint ACK completes identification, or a WITHDRAW, VOID_STEP or GOODBYE. -/
  | mapenAck (p : Fin 1024) (f : Mapen) (acked : Nat)
  /-- R253. A NAK from an endpoint is counted and logged as class 0. -/
  | mapenNak (p : Fin 1024) (f : Mapen) (naked code detail : Nat)
  /-- R251. An endpoint KEEPALIVE answer clears the miss count. -/
  | mapenKeepalive (p : Fin 1024) (f : Mapen) (defSeq status : Nat)
  /-- R247. An endpoint GOODBYE is acknowledged and the port detaches. -/
  | mapenGoodbye (p : Fin 1024) (f : Mapen) (cause : Nat)
  /-- R248. Each HELLO_INTERVAL of an attempt sends a HELLO, or repeats the ACK in TRAINING. -/
  | helloInterval (p : Fin 1024)
  /-- R248. An attempt ends without identification: backoff, or ABSENT after the last attempt. -/
  | attemptEnd (p : Fin 1024)
  /-- R248. The backoff ends and the next attempt starts. -/
  | backoffEnd (p : Fin 1024)
  /-- R248. Each SLOW_PROBE_INTERVAL in ABSENT sends a HELLO with ATTEMPT 0. -/
  | slowProbe (p : Fin 1024)
  /-- R247. A port has been dark for DETACH_TIME and detaches, or abandons its attempt. -/
  | detachTime (p : Fin 1024)
  /-- R251. Each KEEPALIVE_INTERVAL sends a KEEPALIVE and counts misses, detaching at KEEPALIVE_MISS. -/
  | keepaliveInterval (p : Fin 1024)
  /-- R253. QUARANTINE_TIME elapses, the violation window is cleared and attempt 1 starts. -/
  | quarantineEnd (p : Fin 1024)
  /-- R238. Every 2 ms an unacknowledged WITHDRAW, VOID_STEP or GOODBYE is repeated, up to 5 sends. -/
  | mapenRepeat (p : Fin 1024)
  /-- R261. A PORT_PROBE write enables or disables probing of the port. -/
  | portProbe (c : Client) (p : Fin 1024) (data : Bytes)
  /-- R256. A DISC_HELLO confirms or miswires a peer port, or admits the twin. -/
  | discHello (i : Fin 7) (h : DiscHello)
  /-- R255. A newer DISC_STATE is stored and forwarded, and updates the live set, the graph and duplicate checks. -/
  | discState (i : Fin 7) (d : DiscState)
  /-- R257. A DISC_CONFLICT is received and counted. -/
  | discConflict (i : Fin 7) (kind port seen expected : Nat)
  /-- R255. Every 100 ms DISC_HELLO is sent on each peer port and the twin link. -/
  | discHelloInterval
  /-- R255. Every 50 ms DISC_STATE is originated. -/
  | discStateInterval
  /-- R255. A DISC_STATE entry not refreshed for 200 ms expires. -/
  | discEntryExpiry (chip : Nat) (twin : Fin 2)
  /-- R453. No DISC_HELLO for 200 ms and the peer is detached. -/
  | discHelloAbsent (i : Fin 7)
  /-- R274. A GRAD_IN frame is checked, stored and its granule squared and summed. -/
  | gradIn (n : Fin 32) (h : SvcHdr) (data : Bytes)
  /-- R271. A MASTER_IN frame writes master granules in LOADING. -/
  | masterIn (n : Fin 32) (h : SvcHdr) (data : Bytes)
  /-- R284. An ACT_PUSH writes an activation extent and records it. -/
  | actPush (n : Fin 32) (h : SvcHdr) (data : Bytes)
  /-- R287. A WEIGHT_IN frame fills a FILLING model slot. -/
  | weightIn (n : Fin 32) (h : SvcHdr) (data : Bytes)
  /-- R270. A collective plan is written, validated and moves COLL_STATE to PLANNED. -/
  | collPlan (c : Client) (j : Fin 16) (data : Bytes)
  /-- R271. COLL_COMMAND LOAD zeroes the moments and enters LOADING. -/
  | loadJob (c : Client) (j : Fin 16)
  /-- R271. COLL_COMMAND COMMIT_LOAD enters READY once every master granule has been written. -/
  | commitLoad (c : Client) (j : Fin 16)
  /-- R271. COLL_COMMAND RESET returns the job's collective state to PLANNED. -/
  | collReset (c : Client) (j : Fin 16)
  /-- R275. The shard is fully covered, and the partial is formed and sent as NORM_PARTIAL. -/
  | partialFormed (j : Fin 16)
  /-- R275. Every 1 ms the partial is repeated until CLIP or NORM_RESTART arrives. -/
  | partialRepeat (j : Fin 16)
  /-- R277. The leader collects a partial, and sends CLIP once it holds all of them. -/
  | normPartial (port : Fin 6) (tag gen shard flags step sum : Nat)
  /-- R277. NORM_TIMEOUT elapses with a partial missing, and the leader sends CLIP SKIP_TIMEOUT. -/
  | normTimeout (tag step gen : Nat)
  /-- R280. A CLIP reaches the engine, which applies or skips the step's update. -/
  | clipMsg (port : Fin 6) (m : Clip)
  /-- R279. NORM_RESTART clears the step's coverage and sets the new GEN. -/
  | normRestart (port : Fin 6) (tag gen step : Nat)
  /-- R280. The step's update ends: UPDATED_STEP and ES advance and the working copies leave. -/
  | updateComplete (j : Fin 16)
  /-- R287. A FETCH_REQ is routed or answered from a VALID slot with FETCH_DATA. -/
  | fetchReq (i : Fin 6) (source dest slot len offset destSlot : Nat)
  /-- R287. FETCH_DATA is routed, or written into a FETCHING slot. -/
  | fetchData (i : Fin 6) (source dest slot flags offset : Nat) (data : Bytes)
  /-- R287. A MODEL_TABLE write replaces slot records and puts them in EMPTY. -/
  | modelTable (c : Client) (data : Bytes)
  /-- R287. MODEL_COMMAND FILL puts a slot in FILLING. -/
  | modelFill (c : Client) (slot : Fin 256)
  /-- R287. MODEL_COMMAND FETCH puts a slot in FETCHING and issues FETCH_REQs. -/
  | modelFetch (c : Client) (slot : Fin 256)
  /-- R287. MODEL_COMMAND CLEAR empties a slot. -/
  | modelClear (c : Client) (slot : Fin 256)
  /-- R303. In an idle cycle the scrubber reads a valid code word and writes back or poisons it. -/
  | scrubRead (a : Fin 31) (symbols : Nat) (queued : Bool)
  /-- R300. The filler writes zero code words into a queued block. -/
  | zeroFill (s : Fin 8)
  /-- R304. A lap exceeds SCRUB_LAP_LIMIT and is logged once. -/
  | scrubLapOverLimit (a : Fin 31)
  /-- R302. The remap table reload from RETIRE completes and the stack resumes. -/
  | remapReloadDone (s : Fin 8)
  /-- R308. RETIRE_REQUEST copies a page to a spare and remaps it. -/
  | retireRequest (c : Client) (data : Bytes)
  /-- R309. The retire record reaches flash and the SDO response leaves. -/
  | retireRecordWritten (ok : Bool)
  /-- R295. Once a second the device error counts are read into DEVICE_ECC. -/
  | deviceEccPoll (poll : EccPoll)
  /-- R316. A class 1–4 event enters the handler queue, merged or superseding, or pre-empts the handling in progress. -/
  | faultEvent (code cls scope index : Nat) (active : Bool) (detail : Bytes)
  /-- R316. A handling step completes: log, latch, emergency or recovery, and the next one follows. -/
  | handlerStep
  /-- R322. A recovery level's budget expires and event 0x0103 starts the next level. -/
  | levelTimeout (n : Nat)
  /-- R325. A stall reaches onset + L3 or L4_BUDGET and event 0x0405 is raised. -/
  | stallDeadline (j : Fin 16)
  /-- R320. FAULT_ACKNOWLEDGE removes the named inactive latched faults. -/
  | faultAcknowledge (c : Client) (data : Bytes)
  /-- R323. A recovery budget write is accepted only if every level keeps the 1.25 rule. -/
  | recoveryBudgetWrite (c : Client) (sub : Nat) (complete : Bool) (data : Bytes)
  /-- R330. DETOUR_RELEASE names a detour record to deactivate at its next BASE_SLOT Zenith. -/
  | detourRelease (c : Client) (j : Fin 16) (data : Bytes)
  /-- R332. RESTART_ORDER picks a variant to run or stop for a RESTARTING job. -/
  | restartOrder (c : Client) (j : Fin 16) (data : Bytes)
  /-- R332. At Zr every circuit of the job is released and the variant starts. -/
  | restartRelease (j : Fin 16)
  /-- R332. No order by onset + L5_BUDGET and the job stops, with 0x0104 logged. -/
  | restartOrderTimeout (j : Fin 16)
  /-- R338. 100 ms after a page's first record, it is padded and programmed. -/
  | logFlushTimer (prot : Bool)
  /-- R338. A log page completes programming and frees its buffer records. -/
  | logPageProgrammed (prot : Bool)
  /-- R337. A read of LOG_BLOCK returns records from the cursor, withheld by scope, and advances the cursor. -/
  | logBlock (c : Client)
  /-- R337. A Maintainer read of PROT_BLOCK returns protected log records and advances the cursor. -/
  | protBlock (c : Client)
  /-- R342. Every 5 µs the management cluster writes the heartbeat through X19. -/
  | heartbeatWrite
  /-- R342. 20 µs without a heartbeat and PD0 drops both grants. -/
  | heartbeatStopped
  /-- R342. A counted edge of a twin grant line moves the roles, or makes twin 1 withdraw on a contrary assertion. -/
  | twinGrantEdge (coll high : Bool)
  /-- R342. The twin line has been low for the guard time and a requested grant is asserted. -/
  | grantGuardElapsed (coll : Bool)
  /-- R346. The twin's line has been low for 1 s and an unsynchronised module takes the role. -/
  | coldTakeoverWait (coll : Bool)
  /-- R348. A TWIN_STATE fragment arrives and completes the record or is discarded. -/
  | twinState (cycle frag frags offset : Nat) (data : Bytes)
  /-- R354. 3 consecutive records missing and the standby returns to SYNCING. -/
  | twinRecordsMissed
  /-- R353. A STORE_COPY stores an item, or confirms or summarises one. -/
  | storeCopy (m : StoreMsg)
  /-- R360. A MIRROR frame writes an epoch bank or restores state. -/
  | mirror (job bank region flags step offset : Nat) (data : Bytes)
  /-- R355. HANDOVER_COMMAND 1 announces a planned DRIVE hand-over. -/
  | driveHandover (c : Client)
  /-- R363. HANDOVER_COMMAND 2 moves the COLL role to the twin. -/
  | collHandover (c : Client)
  /-- R355. HANDOVER_COMMAND 3 aborts a hand-over before HANDOVER_CYCLE. -/
  | handoverAbort (c : Client)
  /-- R355. At cycle n + 2 start + 10 µs the holder drops DRIVE_GRANT. -/
  | handoverGrantDrop
  /-- R357. ROLE_SWAP_INTERVAL elapses and a planned swap is sought. -/
  | roleSwapDue
  /-- R360. HEALTH_INTERVAL elapses and the standby requests BIST to test the engine. -/
  | healthTestDue
  /-- R360. The health test ends and the HEALTH item is sent. -/
  | healthTestDone (passed failed : Fin 16) (ueCount lapEnd : Nat)
  /-- R362. COLL_RESTORE returns a job's optimizer state to an epoch. -/
  | collRestore (c : Client) (j : Fin 16) (data : Bytes)
  /-- R362. The restore completes and COLL_STATE becomes READY. -/
  | collRestoreDone (j : Fin 16)
  /-- R22. The service selector settles after a COLL_GRANT hand-over. -/
  | selectorSettled
  /-- R361. The engine self-test passes and ENGINE_STATE is READY. -/
  | engineReady (ok : Bool)
  /-- R373. A permit request is granted, deferred or denied. -/
  | permitRequest (cls : Fin 7) (prio : Prio) (amount holder : Nat)
  /-- R374. A holder renews a renewable lease. -/
  | permitRenew (cls : Fin 7) (holder : Nat)
  /-- R374. A holder releases its grant. -/
  | permitRelease (cls : Fin 7) (holder : Nat)
  /-- R374. A lease ends unrenewed and its class acts. -/
  | leaseEnd (cls : Fin 7) (holder : Nat)
  /-- R371. INPUT_POWER has been over POWER_LIMIT for 10 ms and HBM_BURST is revoked. -/
  | powerOverLimit (mw : Nat)
  /-- R371. INPUT_POWER has been below the limit for 100 ms and grants resume. -/
  | powerRecovered (mw : Nat)
  /-- R380. A HEATER_CAP write is checked against HEATER_SUPPLY. -/
  | heaterCap (c : Client) (q : Fin 64) (data : Bytes)
  /-- R380. A HEATER_SUPPLY write is checked against the caps. -/
  | heaterSupply (c : Client) (data : Bytes)
  /-- R381. Every 100 µs the die sensors are sampled and thermal levels declared or cleared. -/
  | dieSensorSample (temps : List Int)
  /-- R383. The Director enters FAULT with cause thermal after the HOLD frames, and both grants drop. -/
  | thermalFaultEntry
  /-- R383. By S + 2 ms the armed strobes are placed and PD8 and PD3 go off. -/
  | shutdownDeadline
  /-- R384. The last permitted flash operations end and PD15 goes off. -/
  | flashOperationsEnd
  /-- R385. The trip comparator fires and PD0 cuts every domain. -/
  | tTrip (sensor : Fin 16) (temp : Int)
  /-- R386. Sensors at or below T_RESUME for 60 s and PD0 begins a cold start. -/
  | thermalRestart (straps : Fin 128) (timeRef : Fin 3)
  /-- R402. An FoE write of MANIFEST is checked and programmed into STAGING. -/
  | manifest (c : Client) (data : Bytes) (sigOk : Bool)
  /-- R402. An FoE write of SEG_hhhh is checked and queued for a staging slot. -/
  | segmentFile (c : Client) (name : Nat) (data : Bytes)
  /-- R403. A segment's receipt page completes, the bitmap advances and the FoE answer leaves. -/
  | segmentProgrammed (ok : Bool)
  /-- R410. An FoE write of RECOVERY in Bootstrap stages an image and writes ACTIVE. -/
  | recovery (c : Client) (data : Bytes) (sigOk : Bool)
  /-- R401. 1 s passes without the next FoE packet and the write is aborted. -/
  | foePacketTimeout
  /-- R405. The STAGING scan completes and UPDATE_STATE is derived. -/
  | stagingScanDone
  /-- R406. UPDATE_COMMAND ACTIVATE copies the staged image into ACTIVE. -/
  | activate (c : Client)
  /-- R406. Activation steps complete, a TRIAL record is written and a warm restart follows, or it fails. -/
  | activationDone (ok : Bool)
  /-- R411. UPDATE_COMMAND CLEAR erases STAGING. -/
  | updateClear (c : Client)
  /-- R411. The STAGING erase completes and a scan starts. -/
  | clearEraseDone
  /-- R407. HEALTH_SOAK elapses with health held and the trial image confirms itself. -/
  | healthSoakElapsed
  /-- R408. 30 min pass without confirmation and a watchdog restart is ordered. -/
  | healthWindowEnd
  /-- R408. HEALTH_CONFIRM = 2 in TRIAL orders a watchdog restart. -/
  | healthReject (c : Client)
  /-- R408. After its deferral the watchdog restart runs and the loader starts FALLBACK. -/
  | watchdogRestart
  /-- R397. A settings record's marker is written and the SDO response leaves. -/
  | settingsRecordCommitted
  /-- R424. A RECORDER_ENABLE write starts or abandons the ring. -/
  | recorderEnable (c : Client) (data : Bytes)
  /-- R422. A trigger writes a MARK and puts the recorder in POST. -/
  | recorderTrigger (c : Client)
  /-- R423. RECORDER_COMMAND FREEZE ends the capture and freezes it. -/
  | freeze (c : Client)
  /-- R424. RECORDER_COMMAND RELEASE restarts the ring. -/
  | releaseCapture (c : Client)
  /-- R423. POST_WINDOW elapses after the trigger and the capture freezes. -/
  | postWindow
  /-- R425. An FoE read of CAPTURE exports the frozen capture. -/
  | capture (c : Client)
  /-- R426. An FoE write of CAPTURE loads a lab capture in REPLAY. -/
  | captureWrite (c : Client) (data : Bytes)
  /-- R426. A REPLAY_DATA frame from the twin is stored into the ring. -/
  | replayData (offset total flags : Nat) (data : Bytes)
  /-- R426. REPLAY_COMMAND FETCH copies the twin's frozen capture. -/
  | replayFetch (c : Client)
  /-- R427. REPLAY_COMMAND RUN starts replay at REPLAY_FROM after its checks. -/
  | replayRun (c : Client)
  /-- R429. REPLAY_COMMAND ABORT stops a replay. -/
  | replayAbort (c : Client)
  /-- R426. REPLAY_COMMAND CLEAR discards the loaded capture. -/
  | replayClear (c : Client)
  /-- R446. PMBus PAGE selects the main or AUX input. -/
  | page (write : Option (Fin 256)) (pec : Option (Fin 256))
  /-- R446. PMBus CAPABILITY returns 0xB0. -/
  | capability (pec : Bool)
  /-- R446. PMBus STATUS_WORD returns the summary status bits. -/
  | statusWord (pec : Bool)
  /-- R446. PMBus STATUS_INPUT returns the page's input faults. -/
  | statusInput (pec : Bool)
  /-- R446. PMBus STATUS_TEMPERATURE returns the temperature bits. -/
  | statusTemperature (pec : Bool)
  /-- R446. PMBus READ_VIN returns the page's input voltage. -/
  | readVin (pec : Bool)
  /-- R446. PMBus READ_IIN returns the page's input current. -/
  | readIin (pec : Bool)
  /-- R446. PMBus READ_TEMPERATURE_1 returns DIE_TEMP. -/
  | readTemperature1 (pec : Bool)
  /-- R446. PMBus READ_TEMPERATURE_2 returns the hottest HBM stack temperature. -/
  | readTemperature2 (pec : Bool)
  /-- R446. PMBus READ_PIN returns the page's input power. -/
  | readPin (pec : Bool)
  /-- R446. PMBus PMBUS_REVISION returns 0x33. -/
  | pmbusRevision (pec : Bool)
  /-- R446. PMBus MFR_ID returns VALPEANE. -/
  | mfrId (pec : Bool)
  /-- R446. PMBus MFR_MODEL returns the ordering code. -/
  | mfrModel (pec : Bool)
  /-- R446. PMBus MFR_REVISION returns C1 and the module revision. -/
  | mfrRevision (pec : Bool)
  /-- R446. PMBus MFR_SERIAL returns MODULE_SERIAL. -/
  | mfrSerial (pec : Bool)
  /-- R446. An unlisted PMBus command byte or a forbidden write is not acknowledged. -/
  | pmbusUnsupported (code : Fin 256) (write : Bool)
  /-- R446. The module answers the alert response address while a status bit is set. -/
  | alertResponse (pec : Bool)
  /-- R446. Every 10 ms the PMBus readings and status are refreshed. -/
  | pmbusRefresh (mv ma : List Nat) (mw : Nat) (hbm : List Int)
  /-- R234. A Mapen frame with a bad CRC is discarded and counted in CRC_ERRORS, and 64 within 1 s raise a class 1 fault. -/
  | mapenCrcError (p : Fin 1024)
  /-- R253. An endpoint frame with an unlisted TYPE, a Director-only type, or a wrong VERSION or LENGTH is NAKed and counted, and quarantines the port at the limit. -/
  | protocolViolation (p : Fin 1024) (f : Mapen) (type version length : Nat)
  /-- R38. Loss of the field network drops the EtherCAT state to Init, which ends sessions and stops process data. -/
  | fieldNetworkLoss
  /-- R46. The MainDevice writes the RxPDO outputs in SM2, which retriggers the process-data watchdog and, in free run or SM-synchronous mode, provides the data taken at the next cycle. -/
  | processDataOutputs (data : Bytes)
  /-- R403. The manifest's receipt page completes programming and UPDATE_STATE becomes RECEIVING. -/
  | manifestReceiptProgrammed (ok : Bool)
  /-- R125. No PPS_IN edge has been seen for 2 s and PPS_IN_PRESENT clears. -/
  | ppsInPresentTimeout
  /-- R252. The position is still unconfirmed 10 s after a peer port came UP, and a class 1 fault is raised. -/
  | positionConfirmTimeout
  /-- R354. No passed health test has come within 2 × HEALTH_INTERVAL, and the COLL standby returns to SYNCING. -/
  | healthOverdue
  /-- R357. A due role swap has found no allowed instant within 24 h and is logged as class 0, while the holder keeps trying. -/
  | roleSwapNotFound
  /-- R442. The main input has been removed for 1 s and the hold-up store is discharged, so a later start must wait for it to charge again. -/
  | holdupDischarged
  /-- R259. A pod site is added or bypassed on a chain, and the Director trains the pod link again and measures Lq of every pod on it. -/
  | podChainChange (q : Fin 64) (added : Bool)
  deriving DecidableEq, Repr

end Sys2Proof
end

