-- ==== Sys2Proof/Decode.lean ====
section
/-!
DEFINITION. The commands that a word of the opcode table spells: none, for no row of the table gives its command any bits.
-/

namespace Sys2Proof

/-- The command that a word spells by the table's bits. No row of the table has bits: no word spells a command. -/
def decodeTableWord (_nbits _w : Nat) : Option Instr := none

end Sys2Proof
end

