-- ==== Sys2Proof/Config.lean ====
section
/-!
DEFINITION. What the spec leaves open and the machine still produces: free values, opaque, drawn with a counter of the
state or from the operands they depend on. Nothing can be proved of them but that they are what they are. The lengths
that rules fix are here too, in nanoseconds.
-/

namespace Sys2Proof.Config

/-- The n-th byte string that the Director draws at random: challenges (R54) and NONCEs (R249). -/
opaque randomByte : Nat → Byte

/-- A result that the spec does not state for some operands: the n-th such number. -/
opaque openNat : Nat → Nat

/-- A result that the spec does not state for some operands: the n-th such integer. -/
opaque openInt : Nat → Int

/-- The angle, in 2^-32 µrad, at which an axis points its head at a port of the other side: part of the module's
calibration (R182), which the spec does not give. -/
opaque aim : Nat → Nat → Int

/-- The n-th waypoint of an axis (R182), of those from which the management cluster chooses. -/
opaque waypoint : Nat → Nat → Int

/-- By how much the angle of a search spiral grows in a cycle, before the bound of R144, in 2^-32 of a turn. -/
opaque spiralPace : Nat → Nat

/-- The direction in which a search spiral starts, in 2^-32 of a turn. -/
opaque spiralStart : Nat

/-- Which way a search spiral runs. -/
opaque spiralLeft : Bool

/-- PATH_DELAY of a core port, in ps: from the reference plane to the port's face (R236), which the spec does not give. -/
opaque pathDelay : Nat → Nat

/-- The measured latency of a drive link, in 2^-32 ns (R122), which the spec does not give. -/
opaque driveLatency : Nat → Nat

/-- Whether an image, by its manifest, lists a lower format of SETTINGS (0) or LIBRARY (1) among those it reads (R398). -/
opaque imageReads : Bytes → Nat → Nat → Bool

/-- The dictionary key of the object that a word of the store SRAM backs (R311), which the spec does not give. -/
opaque storeBacks : Nat → Nat

/-- Whether the copy of an object in LIBRARY passes its check at the n-th reload (R311). -/
opaque libraryGood : Nat → Bool

/-- What a sensor or a counter outside the commands shows at an object, by its key and by the number of the read: supplies,
board temperatures, received powers, flash counters. -/
opaque measured : Nat → Nat → Nat

/-- A value of this one module that the spec gives no rule for: the serial number of the CoE identity object, the MAC
addresses of the time ports. -/
opaque perModule : Nat → Nat

/-- One millisecond. -/
def ms : Nat := 1000000

/-- One microsecond. -/
def us : Nat := 1000

/-- One second. -/
def sec : Nat := 1000000000

/-- The control cycle (R128). -/
def cycle : Nat := 50000

/-- The delay of a first-stage refusal (R57). -/
def refusalDelay : Nat := 2000000

/-- The lifetime of a challenge (R54). -/
def challengeLife : Nat := 10 * sec

end Sys2Proof.Config
end

