-- ==== Sys2Proof/Machine/Data.lean ====
section
/-!
DEFINITION. Sparse tables, little-endian fields (R11), bit masks, checksums, and the hashes of the session MAC and of
the manifests. Every function is structural recursion on a list or on a count.
-/

namespace Sys2Proof.Machine

/-! ### Tables: lists of (key, value) with rising keys -/

/-- The value at a key, or `dflt` where the table lists none. -/
def tget {α : Type} (dflt : α) : List (Nat × α) → Nat → α
  | [], _ => dflt
  | (k, v) :: t, n => if k = n then v else tget dflt t n

/-- The value at a key, if any. -/
def tfind {α : Type} : List (Nat × α) → Nat → Option α
  | [], _ => none
  | (k, v) :: t, n => if k = n then some v else tfind t n

/-- The table with a value at a key, its keys still rising. -/
def tset {α : Type} : List (Nat × α) → Nat → α → List (Nat × α)
  | [], n, x => [(n, x)]
  | (k, v) :: t, n, x =>
    if n < k then (n, x) :: (k, v) :: t
    else if k = n then (n, x) :: t
    else (k, v) :: tset t n x

/-- The table without a key. -/
def tdel {α : Type} (t : List (Nat × α)) (n : Nat) : List (Nat × α) :=
  t.filter (fun e => e.1 != n)

/-- The table with the value at a key changed by `f`. -/
def tmod {α : Type} (dflt : α) (t : List (Nat × α)) (n : Nat) (f : α → α) : List (Nat × α) :=
  tset t n (f (tget dflt t n))

/-- The rising list of numbers with one more member. -/
def sinsert : List Nat → Nat → List Nat
  | [], n => [n]
  | k :: t, n => if n < k then n :: k :: t else if k = n then k :: t else k :: sinsert t n

/-- The list with one element replaced. -/
def lset {α : Type} : List α → Nat → α → List α
  | [], _, _ => []
  | _ :: t, 0, x => x :: t
  | a :: t, n + 1, x => a :: lset t n x

/-- The list with one element changed by `f`. -/
def lmod {α : Type} : List α → Nat → (α → α) → List α
  | [], _, _ => []
  | a :: t, 0, f => f a :: t
  | a :: t, n + 1, f => a :: lmod t n f

/-- The numbers 0 to n − 1. -/
def upto (n : Nat) : List Nat := List.range n

/-- The rising list of the bits set in a mask of `n` bits. -/
def bitsOf (n m : Nat) : List Nat := (upto n).filter (fun k => m.testBit k)

/-- The mask whose bits are the members of a list. -/
def maskOf (l : List Nat) : Nat := l.foldl (fun m k => m ||| (1 <<< k)) 0

/-- One bit of a mask, given a level. -/
def setBit (m k : Nat) (b : Bool) : Nat :=
  if b then m ||| (1 <<< k) else if m.testBit k then m ^^^ (1 <<< k) else m

/-- The bits of `m` that `r` does not have. -/
def maskOut (m r : Nat) : Nat := m ^^^ (m &&& r)

/-- How many of the lowest `n` bits are set. -/
def popCount (n m : Nat) : Nat := (bitsOf n m).length

/-- A truth value as 0 or 1. -/
def b2n (b : Bool) : Nat := if b then 1 else 0

/-- The bits [msb:lsb] of a number. -/
def bits (w msb lsb : Nat) : Nat := (w >>> lsb) % 2 ^ (msb + 1 - lsb)

/-! ### Little-endian fields (R11) -/

/-- A number as `n` bytes, little-endian. -/
def le : Nat → Nat → Bytes
  | 0, _ => []
  | n + 1, x => BitVec.ofNat 8 x :: le n (x / 256)

/-- The number that little-endian bytes spell. -/
def unle : Bytes → Nat
  | [] => 0
  | b :: t => b.toNat + 256 * unle t

/-- `n` bytes of a string from an offset. -/
def slice (b : Bytes) (off n : Nat) : Bytes := (b.drop off).take n

/-- The unsigned field of `n` bytes at an offset. -/
def fld (b : Bytes) (off n : Nat) : Nat := unle (slice b off n)

/-- A number of `n` bits read as two's complement. -/
def signed (n x : Nat) : Int := if x % 2 ^ n < 2 ^ (n - 1) then (x % 2 ^ n : Nat) else (x % 2 ^ n : Nat) - 2 ^ n

/-- The two's complement of an integer in `n` bits, as a number. -/
def unsigned (n : Nat) (x : Int) : Nat := (x % (2 ^ n : Nat)).toNat

/-- An integer as `n` bytes of two's complement. -/
def leI (n : Nat) (x : Int) : Bytes := le n (unsigned (8 * n) x)

/-- The signed field of `n` bytes at an offset. -/
def fldI (b : Bytes) (off n : Nat) : Int := signed (8 * n) (fld b off n)

/-- `n` zero bytes. -/
def zeros (n : Nat) : Bytes := List.replicate n 0

/-- A string cut or padded with 0x00 to `n` bytes (STR(n), OCT(n) of Table 2.5). -/
def padTo (n : Nat) (b : Bytes) : Bytes := b.take n ++ zeros (n - b.length)

/-- ASCII text as bytes. -/
def ascii (s : String) : Bytes := s.toList.map (fun c => BitVec.ofNat 8 c.toNat)

/-- Whether every byte is zero. -/
def allZero (b : Bytes) : Bool := b.all (fun x => x == 0)

/-- Numbers as a string of `n`-byte fields. -/
def leList (n : Nat) (l : List Nat) : Bytes := l.flatMap (le n)

/-- Integers as a string of `n`-byte two's-complement fields. -/
def leIList (n : Nat) (l : List Int) : Bytes := l.flatMap (leI n)

/-- The string with the bytes `x` at an offset, padded with zeros up to it. -/
def patch (b : Bytes) (off : Nat) (x : Bytes) : Bytes :=
  b.take off ++ zeros (off - b.length) ++ x ++ b.drop (off + x.length)


/-! ### Integers -/

/-- Clamp to a range. -/
def clampI (lo hi x : Int) : Int := if x < lo then lo else if hi < x then hi else x

/-- Division rounded to nearest, halves away from zero. -/
def divNear (a : Int) (b : Nat) : Int :=
  if 0 ≤ a then ((2 * a.toNat + b) / (2 * b) : Nat) else -(((2 * (-a).toNat + b) / (2 * b) : Nat) : Int)

/-- One nanosecond in the units of stamps and offsets. -/
def nsUnit : Int := 2 ^ 32

/-- Picoseconds in the units of stamps. -/
def ofPs (x : Int) : Int := divNear (x * nsUnit) 1000

/-- The units of stamps in picoseconds. -/
def toPs (x : Int) : Int := divNear (x * 1000) (2 ^ 32)

/-- The largest of a list, or a default for none. -/
def maxI (dflt : Int) : List Int → Int
  | [] => dflt
  | x :: t => t.foldl (fun a b => if a < b then b else a) x

/-- The sum of a list of numbers. -/
def sumN (l : List Nat) : Nat := l.foldl (· + ·) 0

/-- The sum of a list of integers. -/
def sumI (l : List Int) : Int := l.foldl (· + ·) 0

/-- Insertion into a rising list of integers. -/
def insertI (x : Int) : List Int → List Int
  | [] => [x]
  | y :: t => if x ≤ y then x :: y :: t else y :: insertI x t

/-- A list of integers in rising order. -/
def sortI (l : List Int) : List Int := l.foldl (fun acc x => insertI x acc) []


/-! ### Checksums -/

/-- One bit of a reflected CRC. -/
def crcBit (poly c : Nat) : Nat := if c % 2 = 1 then (c / 2) ^^^ poly else c / 2

/-- One byte of a reflected CRC. -/
def crcByte (poly c b : Nat) : Nat := (upto 8).foldl (fun c _ => crcBit poly c) (c ^^^ b)

/-- CRC-32 of IEEE 802.3 (polynomial 0x04C1_1DB7 reflected, initial and final 0xFFFF_FFFF). -/
def crc32 (b : Bytes) : Nat :=
  (b.foldl (fun c x => crcByte 0xEDB88320 c x.toNat) 0xFFFFFFFF) ^^^ 0xFFFFFFFF

/-- CRC-16, polynomial 0x1021, initial 0xFFFF, most significant bit first (Table 8.7). -/
def crc16 (b : Bytes) : Nat :=
  b.foldl (fun c x => (upto 8).foldl (fun c _ => if 32768 ≤ c then (2 * c % 65536) ^^^ 0x1021 else 2 * c) (c ^^^ x.toNat * 256)) 0xFFFF

/-- The data code groups of 4B/5B, by nibble (R174; PRESUMED from IEEE 802.3 clause 24, log 73). -/
def dataGroup (n : Nat) : Nat :=
  [0b11110, 0b01001, 0b10100, 0b10101, 0b01010, 0b01011, 0b01110, 0b01111,
   0b10010, 0b10011, 0b10110, 0b10111, 0b11010, 0b11011, 0b11100, 0b11101].getD (n % 16) 0

/-- The bytes of a pod-link frame (R175): header, payload and CRC-32. -/
def podFrame (type addr : Nat) (payload : Bytes) : Bytes :=
  let f := le 1 type ++ le 1 addr ++ le 2 payload.length ++ payload
  f ++ le 4 (crc32 f)

/-- The code groups of a MARK, with the low 8 bits of the descriptor ID, low nibble first (Table 6.7). -/
def markGroups (id : Nat) : List Nat := [0b00111, dataGroup id, dataGroup (id / 16)]

/-- The cycle marker: HCYC where it is also a heater trigger, else CYC (Table 6.7). -/
def cycleGroup (heater : Bool) : Nat := if heater then 0b10001 else 0b00100

/-- The code groups of a loopback request, with its chain position, and of the echo (Table 6.7). -/
def lbkGroups (position : Nat) (up : Bool) : List Nat := if up then [0b00110] else [0b00110, dataGroup position]

/-- The code groups of a frame (R175): its start, two data groups a byte with the low nibble first, its end. -/
def podGroups (frame : Bytes) : List Nat :=
  [0b11000, 0b10001] ++ frame.flatMap (fun b => [dataGroup b.toNat, dataGroup (b.toNat / 16)]) ++ [0b01101]

/-- One byte of a CRC-8 with polynomial 0x07, most significant bit first. -/
def crc8Byte (c b : Nat) : Nat :=
  (upto 8).foldl (fun c _ => if 128 ≤ c then (c * 2 % 256) ^^^ 7 else c * 2) (c ^^^ b)

/-- The PEC of SMBus: CRC-8, polynomial 0x07, initial 0. -/
def pec (l : List Nat) : Nat := l.foldl crc8Byte 0

/-! ### Hashes (FIPS 180-4) and the HMAC (FIPS 198-1) -/

/-- The round constants of SHA-384; the upper halves of the first 64 are those of SHA-256. -/
def shaK : List Nat := [
  0x428a2f98d728ae22, 0x7137449123ef65cd, 0xb5c0fbcfec4d3b2f, 0xe9b5dba58189dbbc, 0x3956c25bf348b538,
  0x59f111f1b605d019, 0x923f82a4af194f9b, 0xab1c5ed5da6d8118, 0xd807aa98a3030242, 0x12835b0145706fbe] ++ [
  0x243185be4ee4b28c, 0x550c7dc3d5ffb4e2, 0x72be5d74f27b896f, 0x80deb1fe3b1696b1, 0x9bdc06a725c71235,
  0xc19bf174cf692694, 0xe49b69c19ef14ad2, 0xefbe4786384f25e3, 0x0fc19dc68b8cd5b5, 0x240ca1cc77ac9c65] ++ [
  0x2de92c6f592b0275, 0x4a7484aa6ea6e483, 0x5cb0a9dcbd41fbd4, 0x76f988da831153b5, 0x983e5152ee66dfab,
  0xa831c66d2db43210, 0xb00327c898fb213f, 0xbf597fc7beef0ee4, 0xc6e00bf33da88fc2, 0xd5a79147930aa725] ++ [
  0x06ca6351e003826f, 0x142929670a0e6e70, 0x27b70a8546d22ffc, 0x2e1b21385c26c926, 0x4d2c6dfc5ac42aed,
  0x53380d139d95b3df, 0x650a73548baf63de, 0x766a0abb3c77b2a8, 0x81c2c92e47edaee6, 0x92722c851482353b] ++ [
  0xa2bfe8a14cf10364, 0xa81a664bbc423001, 0xc24b8b70d0f89791, 0xc76c51a30654be30, 0xd192e819d6ef5218,
  0xd69906245565a910, 0xf40e35855771202a, 0x106aa07032bbd1b8, 0x19a4c116b8d2d0c8, 0x1e376c085141ab53] ++ [
  0x2748774cdf8eeb99, 0x34b0bcb5e19b48a8, 0x391c0cb3c5c95a63, 0x4ed8aa4ae3418acb, 0x5b9cca4f7763e373,
  0x682e6ff3d6b2b8a3, 0x748f82ee5defb2fc, 0x78a5636f43172f60, 0x84c87814a1f0ab72, 0x8cc702081a6439ec] ++ [
  0x90befffa23631e28, 0xa4506cebde82bde9, 0xbef9a3f7b2c67915, 0xc67178f2e372532b, 0xca273eceea26619c,
  0xd186b8c721c0c207, 0xeada7dd6cde0eb1e, 0xf57d4f7fee6ed178, 0x06f067aa72176fba, 0x0a637dc5a2c898a6] ++ [
  0x113f9804bef90dae, 0x1b710b35131c471b, 0x28db77f523047d84, 0x32caab7b40c72493, 0x3c9ebe0a15c9bebc,
  0x431d67c49c100d4c, 0x4cc5d4becb3e42b6, 0x597f299cfc657e2a, 0x5fcb6fab3ad6faec, 0x6c44198c4a475817]

/-- Rotation to the right of a word of `w` bits. -/
def rotr (w x n : Nat) : Nat := (x >>> n) ||| (x <<< (w - n)) % 2 ^ w

/-- The six rotation triples of a SHA-2 hash: Σ0, Σ1, σ0, σ1; the last of each σ is a shift. -/
structure ShaParams where
  width : Nat
  rounds : Nat
  bigA : Nat × Nat × Nat
  bigE : Nat × Nat × Nat
  smallA : Nat × Nat × Nat
  smallE : Nat × Nat × Nat
  deriving DecidableEq, Repr

/-- SHA-256. -/
def sha256Params : ShaParams := ⟨32, 64, (2, 13, 22), (6, 11, 25), (7, 18, 3), (17, 19, 10)⟩

/-- SHA-384. -/
def sha384Params : ShaParams := ⟨64, 80, (28, 34, 39), (14, 18, 41), (1, 8, 7), (19, 61, 6)⟩

/-- Σ: three rotations. -/
def shaBig (w : Nat) (p : Nat × Nat × Nat) (x : Nat) : Nat := rotr w x p.1 ^^^ rotr w x p.2.1 ^^^ rotr w x p.2.2

/-- σ: two rotations and a shift. -/
def shaSmall (w : Nat) (p : Nat × Nat × Nat) (x : Nat) : Nat := rotr w x p.1 ^^^ rotr w x p.2.1 ^^^ (x >>> p.2.2)

/-- The message schedule, newest word first, extended by one word per round. -/
def shaSchedule (p : ShaParams) : Nat → List Nat → List Nat
  | 0, w => w
  | n + 1, w =>
    shaSchedule p n
      (((shaSmall p.width p.smallE (w.getD 1 0) + w.getD 6 0 + shaSmall p.width p.smallA (w.getD 14 0) + w.getD 15 0)
        % 2 ^ p.width) :: w)

/-- One round on the eight working words. -/
def shaRound (p : ShaParams) (s : List Nat) (kw : Nat) : List Nat :=
  match s with
  | [a, b, c, d, e, f, g, h] =>
    let m := 2 ^ p.width
    let t1 := h + shaBig p.width p.bigE e + ((e &&& f) ^^^ ((m - 1 - e) &&& g)) + kw
    let t2 := shaBig p.width p.bigA a + ((a &&& b) ^^^ (a &&& c) ^^^ (b &&& c))
    [(t1 + t2) % m, a, b, c, (d + t1) % m, e, f, g]
  | s => s

/-- One block, as its sixteen words. -/
def shaBlock (p : ShaParams) (h : List Nat) (w : List Nat) : List Nat :=
  let sched := (shaSchedule p (p.rounds - 16) w.reverse).reverse
  let ks := shaK.map (fun k => if p.width = 32 then k >>> 32 else k)
  let s := ((ks.take p.rounds).zip sched).foldl (fun s kw => shaRound p s (kw.1 + kw.2)) h
  (h.zip s).map (fun x => (x.1 + x.2) % 2 ^ p.width)

/-- The number that big-endian bytes spell. -/
def unbe (b : Bytes) : Nat := b.foldl (fun n x => n * 256 + x.toNat) 0

/-- A number as `n` bytes, big-endian. -/
def be (n x : Nat) : Bytes := (le n x).reverse

/-- A list cut into pieces of `k`, at most `n` of them. -/
def chunks {α : Type} (k : Nat) : Nat → List α → List (List α)
  | 0, _ => []
  | _, [] => []
  | n + 1, l => l.take k :: chunks k n (l.drop k)

/-- The padded message. -/
def shaPad (p : ShaParams) (b : Bytes) : Bytes :=
  let blk := p.width * 2
  let lenB := p.width / 4
  let z := (2 * blk - 1 - lenB - b.length % blk) % blk
  b ++ [0x80] ++ zeros z ++ be lenB (8 * b.length)

/-- A SHA-2 hash from its initial words, `n` of its words kept. -/
def sha2 (p : ShaParams) (init : List Nat) (n : Nat) (b : Bytes) : Bytes :=
  let m := shaPad p b
  let blocks := chunks (p.width * 2) (m.length / (p.width * 2)) m
  let h := blocks.foldl (fun h blk => shaBlock p h ((chunks (p.width / 8) 16 blk).map unbe)) init
  (h.take n).flatMap (be (p.width / 8))

/-- SHA-256. -/
def sha256 (b : Bytes) : Bytes :=
  sha2 sha256Params [0x6a09e667, 0xbb67ae85, 0x3c6ef372, 0xa54ff53a, 0x510e527f, 0x9b05688c, 0x1f83d9ab, 0x5be0cd19] 8 b

/-- SHA-384. -/
def sha384 (b : Bytes) : Bytes :=
  sha2 sha384Params [0xcbbb9d5dc1059ed8, 0x629a292a367cd507, 0x9159015a3070dd17, 0x152fecd8f70e5939,
    0x67332667ffc00b31, 0x8eb44a8768581511, 0xdb0c2e0d64f98fa7, 0x47b5481dbefa4fa4] 6 b

/-- HMAC-SHA-256. -/
def hmac256 (key msg : Bytes) : Bytes :=
  let k := padTo 64 (if 64 < key.length then sha256 key else key)
  sha256 (k.map (· ^^^ 0x5c) ++ sha256 (k.map (· ^^^ 0x36) ++ msg))

end Sys2Proof.Machine
end

