-- ==== Sys2Proof/Machine/Dictionary.lean ====
section
/-!
DEFINITION. The object dictionary: one row for each line of the spec's object tables (R63, R97, R125, R153, R179,
R207, R232, R260, R261, R291, R313, R340, R366, R387, R412, R430), with its index, subindex, type, access code, roles,
default, range and PDO mark.
-/

namespace Sys2Proof.Machine

/-- The data types of Table 2.5, with their length in bytes (for a DOMAIN its largest length). -/
inductive ObjType where
  | num (n : Nat) | int (n : Nat) | bool | real (n : Nat) | str (n : Nat) | oct (n : Nat) | dom (max : Nat)
  deriving DecidableEq, Repr

/-- The access codes of Table 2.6. -/
inductive Access where | ro | wo | rw | rwc
  deriving DecidableEq, Repr

/-- One line of an object table: `count` indices from `base`, `subs` subindices from `sub`. `readers` and `writers`
are masks: bit 0 no session, bit r the role of code r. A range given by its ends holds the multiples of `mult`. -/
structure ObjRow where
  name : String
  base : Nat
  count : Nat := 1
  sub : Nat
  subs : Nat := 1
  type : ObjType
  access : Access
  readers : Nat
  writers : Nat := 0
  dflt : Int := 0
  range : Option (Int × Int) := none
  mult : Nat := 1
  tx : Bool := false
  rx : Bool := false
  deriving DecidableEq, Repr

/-- The objects of R63. -/
def objects02 : List ObjRow :=
  [
    ⟨"Device type", 0x1000, 1, 0, 1, .num 4, .ro, 31, 0, 0, none, 1, false, false⟩,
    ⟨"Device name", 0x1008, 1, 0, 1, .str 8, .ro, 31, 0, 0, none, 1, false, false⟩,
    ⟨"Hardware version", 0x1009, 1, 0, 1, .str 4, .ro, 31, 0, 0, none, 1, false, false⟩,
    ⟨"Software version", 0x100A, 1, 0, 1, .str 16, .ro, 31, 0, 0, none, 1, false, false⟩,
    ⟨"Vendor ID", 0x1018, 1, 1, 1, .num 4, .ro, 31, 0, 3425, none, 1, false, false⟩,
    ⟨"Product code", 0x1018, 1, 2, 1, .num 4, .ro, 31, 0, 85065795, none, 1, false, false⟩,
    ⟨"Revision number", 0x1018, 1, 3, 1, .num 4, .ro, 31, 0, 12648448, none, 1, false, false⟩,
    ⟨"Serial number", 0x1018, 1, 4, 1, .num 4, .ro, 31, 0, 0, none, 1, false, false⟩,
    ⟨"RxPDO mapping", 0x1600, 4, 1, 32, .num 4, .rwc, 31, 20, 0, none, 1, false, false⟩,
    ⟨"TxPDO mapping", 0x1A00, 4, 1, 32, .num 4, .rwc, 31, 20, 0, none, 1, false, false⟩,
    ⟨"PDO assignment", 0x1C12, 2, 1, 4, .num 2, .rwc, 31, 20, 0, none, 1, false, false⟩,
    ⟨"Cycle time", 0x1C32, 2, 2, 1, .num 4, .rwc, 31, 20, 1000000, some (250000, 10000000), 1, false, false⟩,
    ⟨"VARIANT", 0x2000, 1, 1, 1, .num 1, .ro, 31, 0, 0, none, 1, false, false⟩,
    ⟨"DIE_REVISION", 0x2000, 1, 2, 1, .num 2, .ro, 31, 0, 193, none, 1, false, false⟩,
    ⟨"MODULE_SERIAL", 0x2000, 1, 3, 1, .str 16, .ro, 31, 0, 0, none, 1, false, false⟩,
    ⟨"HBM_CAPACITY", 0x2000, 1, 4, 1, .num 2, .ro, 31, 0, 384, none, 1, false, false⟩,
    ⟨"IMAGE_HASH", 0x2000, 1, 5, 1, .oct 48, .ro, 31, 0, 0, none, 1, false, false⟩,
    ⟨"STRAPS", 0x2001, 1, 1, 1, .num 1, .ro, 31, 0, 0, none, 1, false, false⟩,
    ⟨"CHIP_NUMBER", 0x2001, 1, 2, 1, .num 2, .ro, 31, 0, 0, none, 1, false, false⟩,
    ⟨"DIRECTOR_CONTROL", 0x2010, 1, 0, 1, .num 2, .rw, 31, 20, 0, some (0, 65535), 1, false, true⟩] ++ [
    ⟨"DIRECTOR_STATUS", 0x2011, 1, 0, 1, .num 2, .ro, 31, 0, 0, none, 1, true, false⟩,
    ⟨"STATE_SINCE", 0x2012, 1, 0, 1, .num 8, .ro, 31, 0, 0, none, 1, true, false⟩,
    ⟨"STATE_CAUSE", 0x2013, 1, 0, 1, .num 1, .ro, 31, 0, 0, none, 1, false, false⟩,
    ⟨"SESSION_ROLE", 0x2020, 1, 1, 1, .num 1, .ro, 31, 0, 0, none, 1, false, false⟩,
    ⟨"SESSION_CHALLENGE", 0x2020, 1, 2, 1, .oct 16, .ro, 31, 0, 0, none, 1, false, false⟩,
    ⟨"SESSION_RESPONSE", 0x2020, 1, 3, 1, .oct 20, .wo, 0, 31, 0, none, 1, false, false⟩,
    ⟨"SESSION_END", 0x2020, 1, 4, 1, .num 1, .wo, 0, 31, 0, some (1, 1), 1, false, false⟩,
    ⟨"KEY_STATE", 0x2020, 1, 5, 1, .num 1, .ro, 31, 0, 0, none, 1, false, false⟩,
    ⟨"SESSION_SCOPE", 0x2020, 1, 6, 1, .num 2, .ro, 31, 0, 0, none, 1, false, false⟩,
    ⟨"SESSION_IDLE_TIMEOUT", 0x2021, 1, 1, 1, .num 2, .rw, 31, 16, 300, some (10, 3600), 1, false, false⟩,
    ⟨"ROLE_KEY", 0x2022, 1, 1, 4, .oct 32, .wo, 0, 16, 0, none, 1, false, false⟩,
    ⟨"REFUSAL_COUNT", 0x2030, 1, 1, 1, .num 4, .ro, 31, 0, 0, none, 1, true, false⟩,
    ⟨"JOB_STATE", 0x2080, 16, 1, 1, .num 1, .ro, 30, 0, 0, none, 1, true, false⟩,
    ⟨"JOB_COMMAND", 0x2080, 16, 2, 1, .num 1, .wo, 0, 28, 0, some (1, 3), 1, false, false⟩,
    ⟨"JOB_TAG", 0x2080, 16, 3, 1, .num 4, .rw, 30, 24, 0, none, 1, false, false⟩,
    ⟨"PORT_MAP", 0x2080, 16, 4, 1, .oct 128, .rwc, 30, 24, 0, none, 1, false, false⟩,
    ⟨"PORT_COUNT", 0x2080, 16, 5, 1, .num 2, .ro, 30, 0, 0, none, 1, false, false⟩,
    ⟨"START_ORBIT", 0x2080, 16, 6, 1, .num 8, .rwc, 30, 24, 0, none, 1, false, false⟩,
    ⟨"STOP_CAUSE", 0x2080, 16, 7, 1, .num 1, .ro, 30, 0, 0, none, 1, false, false⟩]

/-- The objects of R97. -/
def objects03 : List ObjRow :=
  [
    ⟨"CONSTELLATION", 0x4400, 1024, 1, 1, .dom 6160, .rwc, 28, 24, 0, none, 1, false, false⟩,
    ⟨"SLOT_JOB", 0x4400, 1024, 2, 1, .num 1, .ro, 28, 0, 255, none, 1, false, false⟩,
    ⟨"SLOT_CRC", 0x4400, 1024, 3, 1, .num 4, .ro, 28, 0, 0, none, 1, false, false⟩,
    ⟨"SLOT_REPORT", 0x4400, 1024, 4, 1, .oct 64, .ro, 28, 0, 0, none, 1, false, false⟩,
    ⟨"ALMANAC", 0x4800, 16, 1, 1, .dom 1050720, .rwc, 28, 24, 0, none, 1, false, false⟩,
    ⟨"ALMANAC_REPORT", 0x4800, 16, 2, 1, .oct 64, .ro, 28, 0, 0, none, 1, false, false⟩,
    ⟨"SHARD_MAP", 0x4800, 16, 3, 1, .oct 64, .rwc, 28, 24, 0, none, 1, false, false⟩,
    ⟨"ACTIVE_VARIANT", 0x4800, 16, 4, 1, .num 1, .ro, 28, 0, 0, none, 1, true, false⟩,
    ⟨"NEXT_ENTRY", 0x4800, 16, 5, 1, .num 4, .ro, 28, 0, 0, none, 1, true, false⟩,
    ⟨"NEXT_ZENITH", 0x4800, 16, 6, 1, .num 8, .ro, 28, 0, 0, none, 1, true, false⟩,
    ⟨"LOOP_COUNT", 0x4800, 16, 7, 1, .num 8, .ro, 28, 0, 0, none, 1, false, false⟩,
    ⟨"COMMIT_COUNT", 0x4800, 16, 8, 1, .num 8, .ro, 28, 0, 0, none, 1, true, false⟩,
    ⟨"DETOUR_ACTIVE", 0x4800, 16, 9, 1, .oct 32, .ro, 28, 0, 0, none, 1, false, false⟩,
    ⟨"CIRCUIT_TABLE", 0x4800, 16, 10, 1, .dom 4096, .ro, 28, 0, 0, none, 1, false, false⟩,
    ⟨"VALIDATED_PERIOD", 0x4800, 16, 11, 1, .num 4, .ro, 28, 0, 0, none, 1, false, false⟩]

/-- The objects of R125. -/
def objects04 : List ObjRow :=
  [
    ⟨"ARRAY_TIME", 0x2200, 1, 1, 1, .num 8, .ro, 31, 0, 0, none, 1, true, false⟩,
    ⟨"TIME_STATE", 0x2200, 1, 2, 1, .num 1, .ro, 31, 0, 0, none, 1, true, false⟩,
    ⟨"TIME_SOURCE", 0x2200, 1, 3, 1, .num 1, .ro, 31, 0, 0, none, 1, false, false⟩,
    ⟨"PARENT_PORT", 0x2200, 1, 4, 1, .num 1, .ro, 31, 0, 255, none, 1, false, false⟩,
    ⟨"DEPTH", 0x2200, 1, 5, 1, .num 1, .ro, 31, 0, 255, none, 1, false, false⟩,
    ⟨"LEADER_CHIP", 0x2200, 1, 6, 1, .num 2, .ro, 31, 0, 0, none, 1, false, false⟩,
    ⟨"PARENT_OFFSET", 0x2200, 1, 7, 1, .int 4, .ro, 31, 0, 0, none, 1, true, false⟩,
    ⟨"PARENT_DELAY", 0x2200, 1, 8, 1, .num 4, .ro, 31, 0, 0, none, 1, false, false⟩,
    ⟨"STEP_COUNT", 0x2200, 1, 9, 1, .num 4, .ro, 31, 0, 0, none, 1, false, false⟩,
    ⟨"HOLDOVER_SINCE", 0x2200, 1, 10, 1, .num 8, .ro, 31, 0, 0, none, 1, false, false⟩,
    ⟨"INCREMENT", 0x2200, 1, 11, 1, .num 8, .ro, 31, 0, 8589934592, none, 1, false, false⟩,
    ⟨"TIME_REF_STATE", 0x2200, 1, 12, 1, .num 1, .ro, 31, 0, 0, none, 1, false, false⟩,
    ⟨"UTC_OFFSET", 0x2200, 1, 13, 1, .int 2, .ro, 31, 0, 0, none, 1, false, false⟩,
    ⟨"PTP_STATUS", 0x2200, 1, 14, 1, .num 1, .ro, 31, 0, 2, none, 1, false, false⟩,
    ⟨"TRANSFER_INTERVAL", 0x2201, 1, 1, 1, .num 4, .rwc, 31, 16, 1000, some (500, 10000), 50, false, false⟩,
    ⟨"HOLDOVER_LIMIT", 0x2201, 1, 2, 1, .num 4, .rw, 31, 16, 1000, some (10, 10000), 1, false, false⟩,
    ⟨"SERVO_KP", 0x2202, 1, 1, 1, .num 2, .rwc, 31, 16, 8192, some (1, 32768), 1, false, false⟩,
    ⟨"SERVO_KI", 0x2202, 1, 2, 1, .num 2, .rwc, 31, 16, 512, some (0, 8192), 1, false, false⟩,
    ⟨"FILTER_LENGTH", 0x2202, 1, 3, 1, .num 1, .rwc, 31, 16, 16, some (1, 64), 1, false, false⟩,
    ⟨"PHASE_CLAMP", 0x2202, 1, 4, 1, .num 4, .rwc, 31, 16, 20000, some (1000, 100000), 1, false, false⟩] ++ [
    ⟨"PTP_ENABLE", 0x2210, 2, 1, 1, .bool, .rwc, 31, 16, 1, none, 1, false, false⟩,
    ⟨"PTP_PORT", 0x2210, 2, 2, 1, .num 1, .rwc, 31, 16, 0, some (0, 1), 1, false, false⟩,
    ⟨"PTP_DOMAIN", 0x2210, 2, 3, 1, .num 1, .rwc, 31, 16, 0, some (0, 127), 1, false, false⟩,
    ⟨"PTP_DELAY_MECH", 0x2210, 2, 4, 1, .num 1, .rwc, 31, 16, 1, some (1, 2), 1, false, false⟩,
    ⟨"PTP_TRANSPORT", 0x2210, 2, 5, 1, .num 1, .rwc, 31, 16, 1, some (1, 2), 1, false, false⟩,
    ⟨"DOMAIN_STATE", 0x2210, 2, 6, 1, .num 1, .ro, 31, 0, 0, none, 1, true, false⟩,
    ⟨"GM_IDENTITY", 0x2210, 2, 7, 1, .oct 8, .ro, 31, 0, 0, none, 1, false, false⟩,
    ⟨"GM_CLOCK_CLASS", 0x2210, 2, 8, 1, .num 1, .ro, 31, 0, 255, none, 1, false, false⟩,
    ⟨"STEPS_REMOVED", 0x2210, 2, 9, 1, .num 2, .ro, 31, 0, 0, none, 1, false, false⟩,
    ⟨"DOMAIN_OFFSET", 0x2210, 2, 10, 1, .int 8, .ro, 31, 0, 0, none, 1, true, false⟩,
    ⟨"MEAN_PATH_DELAY", 0x2210, 2, 11, 1, .num 4, .ro, 31, 0, 0, none, 1, false, false⟩,
    ⟨"JUMP_COUNT", 0x2210, 2, 12, 1, .num 4, .ro, 31, 0, 0, none, 1, false, false⟩,
    ⟨"REQUALIFY", 0x2210, 2, 13, 1, .num 1, .wo, 0, 16, 0, some (1, 1), 1, false, false⟩,
    ⟨"IPV4_ADDRESS", 0x2218, 2, 1, 1, .oct 4, .rw, 31, 16, 0, none, 1, false, false⟩,
    ⟨"IPV4_NETMASK", 0x2218, 2, 2, 1, .oct 4, .rw, 31, 16, 0, none, 1, false, false⟩,
    ⟨"MAC_ADDRESS", 0x2218, 2, 3, 1, .oct 6, .ro, 31, 0, 0, none, 1, false, false⟩,
    ⟨"LINK_UP", 0x2218, 2, 4, 1, .bool, .ro, 31, 0, 0, none, 1, false, false⟩,
    ⟨"PTP_PRIMARY", 0x2220, 1, 1, 1, .num 1, .rw, 31, 16, 0, some (0, 1), 1, false, false⟩,
    ⟨"PTP_SELECTED", 0x2220, 1, 2, 1, .num 1, .ro, 31, 0, 255, none, 1, false, false⟩,
    ⟨"PTP_JUMP_LIMIT", 0x2220, 1, 3, 1, .num 4, .rw, 31, 16, 1000, some (100, 1000000), 1, false, false⟩] ++ [
    ⟨"PTP_SLEW_LIMIT", 0x2220, 1, 4, 1, .num 4, .rw, 31, 16, 100, some (10, 10000), 1, false, false⟩,
    ⟨"DOMAIN_AGREE_LIMIT", 0x2220, 1, 5, 1, .num 4, .rw, 31, 16, 1000, some (100, 1000000), 1, false, false⟩,
    ⟨"PTP_KP", 0x2220, 1, 6, 1, .num 2, .rw, 31, 16, 4096, some (1, 32768), 1, false, false⟩,
    ⟨"PTP_KI", 0x2220, 1, 7, 1, .num 2, .rw, 31, 16, 64, some (0, 8192), 1, false, false⟩,
    ⟨"PTP_CLASS_MAX", 0x2220, 1, 8, 1, .num 1, .rw, 31, 16, 7, some (6, 248), 1, false, false⟩,
    ⟨"ORBIT_EPOCH", 0x2230, 1, 1, 1, .num 8, .rwc, 31, 16, 0, none, 50000, false, false⟩,
    ⟨"ORBIT_PERIOD", 0x2230, 1, 2, 1, .num 4, .rwc, 31, 16, 1000000, some (100000, 100000000), 50000, false, false⟩,
    ⟨"ORBIT_NOW", 0x2230, 1, 3, 1, .num 8, .ro, 31, 0, 0, none, 1, true, false⟩,
    ⟨"ORBIT_DEF_SEQ", 0x2230, 1, 4, 1, .num 4, .ro, 31, 0, 0, none, 1, false, false⟩,
    ⟨"ORBIT_DEF_FROM", 0x2230, 1, 5, 1, .num 8, .ro, 31, 0, 0, none, 1, false, false⟩,
    ⟨"ORBIT_SYNC_INTERVAL", 0x2230, 1, 6, 1, .num 4, .rw, 31, 16, 1000, some (100, 10000), 1, false, false⟩,
    ⟨"CYCLE_INDEX", 0x2230, 1, 7, 1, .num 8, .ro, 31, 0, 0, none, 1, true, false⟩,
    ⟨"STROBES_ARMED", 0x2240, 1, 1, 1, .num 1, .ro, 31, 0, 0, none, 1, false, false⟩,
    ⟨"STROBE_LATE_COUNT", 0x2240, 1, 2, 1, .num 4, .ro, 31, 0, 0, none, 1, false, false⟩,
    ⟨"STROBE_FULL_COUNT", 0x2240, 1, 3, 1, .num 4, .ro, 31, 0, 0, none, 1, false, false⟩,
    ⟨"POD_LATENCY", 0x2241, 1, 1, 64, .num 4, .ro, 31, 0, 0, none, 1, false, false⟩,
    ⟨"POD_STROBE_DELAY", 0x2242, 1, 1, 64, .num 1, .ro, 31, 0, 0, none, 1, false, false⟩,
    ⟨"LINK_ASYMMETRY", 0x2250, 1, 1, 7, .int 4, .rwc, 31, 16, 0, some (-500000, 500000), 1, false, false⟩,
    ⟨"PPS_IN_OFFSET", 0x2260, 1, 1, 1, .int 8, .ro, 31, 0, 0, none, 1, false, false⟩,
    ⟨"PPS_IN_PRESENT", 0x2260, 1, 2, 1, .bool, .ro, 31, 0, 0, none, 1, false, false⟩] ++ [
    ⟨"PPS_OUT_ENABLE", 0x2260, 1, 3, 1, .bool, .rw, 31, 16, 1, none, 1, false, false⟩,
    ⟨"SYNC0_ARRAY_TIME", 0x2270, 1, 1, 1, .num 8, .ro, 31, 0, 0, none, 1, false, false⟩,
    ⟨"SYNC0_DC_TIME", 0x2270, 1, 2, 1, .num 8, .ro, 31, 0, 0, none, 1, false, false⟩]

/-- The objects of R153. -/
def objects05 : List ObjRow :=
  [
    ⟨"SLICE_STATE", 0x2C00, 1, 1, 4, .num 1, .ro, 31, 0, 0, none, 1, true, false⟩,
    ⟨"MISS_COUNT", 0x2C01, 1, 1, 4, .num 4, .ro, 31, 0, 0, none, 1, false, false⟩,
    ⟨"PEAK_COMPUTE", 0x2C01, 1, 5, 4, .num 4, .ro, 31, 0, 0, none, 1, false, false⟩,
    ⟨"V_MAX", 0x2C02, 1, 1, 1, .num 4, .rwc, 31, 16, 20000, some (1000, 40000), 1, false, false⟩,
    ⟨"A_MAX", 0x2C02, 1, 2, 1, .num 4, .rwc, 31, 16, 10000, some (500, 20000), 1, false, false⟩,
    ⟨"J_MAX", 0x2C02, 1, 3, 1, .num 4, .rwc, 31, 16, 20000, some (1000, 40000), 1, false, false⟩,
    ⟨"ACQ_TOL", 0x2C03, 1, 1, 1, .num 4, .rw, 31, 16, 2000, some (500, 10000), 1, false, false⟩,
    ⟨"ACQ_CONFIRM", 0x2C03, 1, 2, 1, .num 1, .rw, 31, 16, 2, some (1, 8), 1, false, false⟩,
    ⟨"OPT_GAIN_ACQ", 0x2C03, 1, 3, 1, .num 2, .rw, 31, 16, 45875, some (0, 65535), 1, false, false⟩,
    ⟨"PILOT_MIN", 0x2C03, 1, 4, 1, .int 2, .rw, 31, 16, -400, some (-600, -100), 1, false, false⟩,
    ⟨"DITHER_AMP", 0x2C03, 1, 5, 1, .num 4, .rw, 31, 16, 300, some (50, 2000), 1, false, false⟩,
    ⟨"OPT_GAIN_TRACK", 0x2C03, 1, 6, 1, .num 4, .rw, 31, 16, 6500, some (0, 50000), 1, false, false⟩,
    ⟨"FE_LIMIT_TRACK", 0x2C04, 1, 1, 1, .num 4, .rw, 31, 16, 5000, some (1000, 50000), 1, false, false⟩,
    ⟨"FE_LIMIT_SLEW", 0x2C04, 1, 2, 1, .num 4, .rw, 31, 16, 5000000, some (100000, 20000000), 1, false, false⟩,
    ⟨"TUNE_RELAY", 0x2C05, 1, 1, 1, .num 4, .rw, 31, 16, 2000000, some (100000, 10000000), 1, false, false⟩,
    ⟨"TUNE_HYSTERESIS", 0x2C05, 1, 2, 1, .num 4, .rw, 31, 16, 200, some (0, 2000), 1, false, false⟩,
    ⟨"TUNE_PERIODS", 0x2C05, 1, 3, 1, .num 1, .rw, 31, 16, 8, some (6, 32), 1, false, false⟩,
    ⟨"TUNE_TIMEOUT", 0x2C05, 1, 4, 1, .num 2, .rw, 31, 16, 50, some (10, 500), 1, false, false⟩,
    ⟨"OPEN_HOLD_LIMIT", 0x2C06, 1, 1, 1, .num 2, .rw, 31, 16, 2000, some (10, 2000), 1, false, false⟩,
    ⟨"COEF_HASH", 0x2C07, 1, 1, 1, .oct 48, .ro, 31, 0, 0, none, 1, false, false⟩] ++ [
    ⟨"SEARCH_STEP", 0x2C08, 1, 1, 1, .num 4, .rw, 31, 16, 2000, some (500, 5000), 1, false, false⟩,
    ⟨"SEARCH_RADIUS", 0x2C08, 1, 2, 1, .num 4, .rw, 31, 16, 20000, some (5000, 50000), 1, false, false⟩,
    ⟨"AXIS_STATE", 0x3000, 2048, 1, 2, .num 1, .ro, 30, 0, 0, none, 1, true, false⟩,
    ⟨"POSITION", 0x3000, 2048, 3, 2, .int 4, .ro, 30, 0, 0, none, 1, true, false⟩,
    ⟨"REFERENCE", 0x3000, 2048, 5, 2, .int 4, .ro, 30, 0, 0, none, 1, false, false⟩,
    ⟨"OUTPUT", 0x3000, 2048, 7, 2, .int 4, .ro, 30, 0, 0, none, 1, true, false⟩,
    ⟨"OPT_CORR", 0x3000, 2048, 9, 2, .int 4, .ro, 30, 0, 0, none, 1, false, false⟩,
    ⟨"AXIS_FLAGS", 0x3000, 2048, 11, 2, .num 2, .ro, 30, 0, 0, none, 1, true, false⟩,
    ⟨"SET_SCHEDULE", 0x3000, 2048, 13, 1, .num 2, .rw, 30, 16, 42148, none, 1, false, false⟩,
    ⟨"ACTIVE_SET", 0x3000, 2048, 14, 1, .num 1, .ro, 30, 0, 0, none, 1, false, false⟩,
    ⟨"COEF_SET_X", 0x3000, 2048, 16, 4, .oct 80, .rwc, 30, 16, 0, none, 1, false, false⟩,
    ⟨"COEF_SET_Y", 0x3000, 2048, 20, 4, .oct 80, .rwc, 30, 16, 0, none, 1, false, false⟩,
    ⟨"OUT_LIMIT", 0x3000, 2048, 24, 1, .num 4, .rwc, 30, 16, 500000, some (1, 524287), 1, false, false⟩,
    ⟨"TRAVEL_LIMIT", 0x3000, 2048, 25, 1, .num 4, .rwc, 30, 16, 35000, some (1000, 35000), 1, false, false⟩,
    ⟨"OPEN_REQUEST", 0x3000, 2048, 27, 1, .num 1, .wo, 0, 16, 0, some (0, 3), 1, false, false⟩,
    ⟨"AUTOTUNE_COMMAND", 0x3000, 2048, 28, 1, .num 1, .wo, 0, 16, 0, some (1, 2), 1, false, false⟩,
    ⟨"AUTOTUNE_RESULT", 0x3000, 2048, 29, 1, .oct 24, .ro, 30, 0, 0, none, 1, false, false⟩,
    ⟨"BOARD_STATE", 0x3D00, 16, 1, 1, .num 1, .ro, 31, 0, 0, none, 1, true, false⟩,
    ⟨"BOARD_COMMAND", 0x3D00, 16, 2, 1, .num 1, .wo, 0, 16, 0, some (1, 2), 1, false, false⟩,
    ⟨"BOARD_SERIAL", 0x3D00, 16, 3, 1, .str 16, .ro, 31, 0, 0, none, 1, false, false⟩] ++ [
    ⟨"BOARD_FIRMWARE", 0x3D00, 16, 4, 1, .str 8, .ro, 31, 0, 0, none, 1, false, false⟩,
    ⟨"HV_RAIL", 0x3D00, 16, 5, 1, .int 4, .ro, 31, 0, 0, none, 1, false, false⟩,
    ⟨"BOARD_TEMP", 0x3D00, 16, 6, 1, .int 2, .ro, 31, 0, 0, none, 1, false, false⟩,
    ⟨"LANES_UP", 0x3D00, 16, 7, 1, .num 2, .ro, 31, 0, 0, none, 1, false, false⟩,
    ⟨"CRC_ERRORS", 0x3D00, 16, 8, 1, .num 4, .ro, 31, 0, 0, none, 1, false, false⟩,
    ⟨"FRAMES_MISSED", 0x3D00, 16, 9, 1, .num 4, .ro, 31, 0, 0, none, 1, false, false⟩,
    ⟨"HOLD_SINCE", 0x3D00, 16, 10, 1, .num 8, .ro, 31, 0, 0, none, 1, false, false⟩]

/-- The objects of R179. -/
def objects06 : List ObjRow :=
  [
    ⟨"SHUTTERS", 0x3800, 1024, 1, 1, .num 1, .ro, 30, 0, 0, none, 1, true, false⟩,
    ⟨"LANE_ROUTE", 0x3800, 1024, 2, 1, .num 1, .ro, 30, 0, 0, none, 1, false, false⟩,
    ⟨"JUNCTION", 0x3800, 1024, 3, 1, .oct 22, .ro, 30, 0, 0, none, 1, false, false⟩,
    ⟨"HEATER", 0x3800, 1024, 4, 1, .oct 22, .ro, 30, 0, 0, none, 1, false, false⟩,
    ⟨"LANE_EQ", 0x3800, 1024, 5, 1, .oct 8, .rwc, 30, 16, 0, none, 1, false, false⟩,
    ⟨"LANE_POWER", 0x3800, 1024, 6, 1, .oct 16, .ro, 30, 0, 0, none, 1, false, false⟩,
    ⟨"TAP_POWER", 0x3800, 1024, 7, 1, .oct 4, .ro, 30, 0, 0, none, 1, true, false⟩,
    ⟨"MONITOR_MASK", 0x3800, 1024, 8, 1, .num 1, .ro, 30, 0, 0, none, 1, false, false⟩,
    ⟨"LANE_LOSS_THRESHOLD", 0x3800, 1024, 9, 1, .int 2, .rw, 30, 16, -1800, some (-3000, -500), 1, false, false⟩,
    ⟨"RESONANCE_OFFSET", 0x3800, 1024, 10, 1, .oct 22, .ro, 30, 0, 0, none, 1, false, false⟩,
    ⟨"DROP_TABLES", 0x3800, 1024, 11, 1, .oct 784, .rwc, 30, 16, 0, none, 1, false, false⟩,
    ⟨"THROUGH_TABLES", 0x3800, 1024, 12, 1, .oct 784, .rwc, 30, 16, 0, none, 1, false, false⟩,
    ⟨"SHUTTER_CODES", 0x3800, 1024, 13, 1, .oct 8, .rwc, 30, 16, 0, none, 1, false, false⟩,
    ⟨"CAL_STATUS", 0x3800, 1024, 14, 1, .oct 16, .ro, 30, 0, 0, none, 1, false, false⟩,
    ⟨"CAL_REQUEST", 0x3800, 1024, 15, 1, .num 1, .rw, 30, 20, 0, some (0, 255), 1, false, false⟩,
    ⟨"PILOT_CROSSINGS", 0x3800, 1024, 16, 1, .num 4, .ro, 30, 0, 0, none, 1, false, false⟩,
    ⟨"CROSSTALK", 0x3C00, 64, 1, 1, .dom 12688, .rwc, 31, 16, 0, none, 1, false, false⟩,
    ⟨"CROSSTALK_REPORT", 0x3C00, 64, 2, 1, .oct 8, .ro, 31, 0, 0, none, 1, false, false⟩,
    ⟨"POD_TEMP", 0x3C00, 64, 3, 1, .int 2, .ro, 31, 0, 0, none, 1, false, false⟩,
    ⟨"HEATER_TOTAL", 0x3C00, 64, 4, 1, .num 4, .ro, 31, 0, 0, none, 1, false, false⟩] ++ [
    ⟨"HEATER_CAP", 0x3C00, 64, 5, 1, .num 4, .rw, 31, 16, 4500, some (1000, 4687), 1, false, false⟩,
    ⟨"HEATER_GAIN", 0x3C00, 64, 6, 1, .num 2, .rw, 31, 16, 16384, some (0, 65535), 1, false, false⟩,
    ⟨"TEMP_COEF", 0x3C00, 64, 7, 1, .oct 352, .ro, 31, 0, 0, none, 1, false, false⟩,
    ⟨"POD_STATE", 0x3C00, 64, 8, 1, .num 1, .ro, 31, 0, 0, none, 1, true, false⟩,
    ⟨"POD_LINK_ERRORS", 0x3C00, 64, 9, 1, .num 4, .ro, 31, 0, 0, none, 1, false, false⟩,
    ⟨"CROSS_THRESHOLD", 0x3C00, 64, 10, 1, .int 2, .rw, 31, 16, -4500, some (-6000, -2000), 1, false, false⟩,
    ⟨"THROUGH_DET", 0x3C00, 64, 11, 1, .num 2, .rwc, 31, 16, 1500, some (1000, 2047), 1, false, false⟩,
    ⟨"CAL_ENABLE", 0x3C00, 64, 12, 1, .bool, .rw, 31, 16, 1, none, 1, false, false⟩]

/-- The objects of R207. -/
def objects07 : List ObjRow :=
  [
    ⟨"LAUNCH_LEAD", 0x2600, 1, 1, 1, .num 4, .rw, 31, 16, 12000, some (4000, 50000), 1, false, false⟩,
    ⟨"CROSS_CLEARANCE", 0x2600, 1, 2, 1, .num 4, .rw, 31, 16, 150, some (50, 1000), 1, false, false⟩,
    ⟨"TENTATIVE_WATCH", 0x2600, 1, 3, 1, .num 2, .rw, 31, 16, 20, some (5, 200), 1, false, false⟩,
    ⟨"WAYPOINT_ENABLE", 0x2600, 1, 4, 1, .bool, .rw, 31, 16, 1, none, 1, false, false⟩,
    ⟨"LIVE_SET", 0x2601, 1, 1, 1, .num 8, .ro, 31, 0, 0, none, 1, true, false⟩,
    ⟨"LEADER_EPOCH", 0x2601, 1, 2, 1, .num 4, .ro, 31, 0, 0, none, 1, false, false⟩,
    ⟨"LEADER_SINCE", 0x2601, 1, 3, 1, .num 8, .ro, 31, 0, 0, none, 1, false, false⟩,
    ⟨"HOLD_COUNT", 0x2602, 1, 1, 1, .num 4, .ro, 31, 0, 0, none, 1, false, false⟩,
    ⟨"RETRACT_COUNT", 0x2602, 1, 2, 1, .num 4, .ro, 31, 0, 0, none, 1, false, false⟩,
    ⟨"REVERT_COUNT", 0x2602, 1, 3, 1, .num 4, .ro, 31, 0, 0, none, 1, false, false⟩,
    ⟨"ISOLATED_COUNT", 0x2602, 1, 4, 1, .num 4, .ro, 31, 0, 0, none, 1, false, false⟩,
    ⟨"CATCHUP_COUNT", 0x2602, 1, 5, 1, .num 4, .ro, 31, 0, 0, none, 1, false, false⟩,
    ⟨"SPLIT_COUNT", 0x2602, 1, 6, 1, .num 4, .ro, 31, 0, 0, none, 1, false, false⟩,
    ⟨"CROSSINGS_PREDICTED", 0x2602, 1, 7, 1, .num 4, .ro, 31, 0, 0, none, 1, false, false⟩,
    ⟨"CROSSINGS_SEEN", 0x2602, 1, 8, 1, .num 4, .ro, 31, 0, 0, none, 1, false, false⟩,
    ⟨"WITHDRAW_COUNT", 0x2602, 1, 9, 1, .num 4, .ro, 31, 0, 0, none, 1, false, false⟩,
    ⟨"VOID_COUNT", 0x2602, 1, 10, 1, .num 4, .ro, 31, 0, 0, none, 1, false, false⟩,
    ⟨"COMET_FAULT_COUNT", 0x2602, 1, 11, 1, .num 4, .ro, 31, 0, 0, none, 1, false, false⟩,
    ⟨"COMMIT_ENTRY", 0x2610, 16, 1, 1, .num 4, .ro, 30, 0, 0, none, 1, true, false⟩,
    ⟨"COMMIT_ZENITH", 0x2610, 16, 2, 1, .num 8, .ro, 30, 0, 0, none, 1, true, false⟩] ++ [
    ⟨"COMMIT_STATE", 0x2610, 16, 3, 1, .num 1, .ro, 30, 0, 0, none, 1, true, false⟩,
    ⟨"COMMIT_REASON", 0x2610, 16, 4, 1, .num 1, .ro, 30, 0, 0, none, 1, false, false⟩,
    ⟨"COMETS", 0x2610, 16, 5, 1, .num 2, .ro, 30, 0, 0, none, 1, false, false⟩,
    ⟨"COMETS_READY", 0x2610, 16, 6, 1, .num 2, .ro, 30, 0, 0, none, 1, true, false⟩,
    ⟨"LAST_OUTCOME", 0x2610, 16, 7, 1, .num 1, .ro, 30, 0, 0, none, 1, false, false⟩,
    ⟨"LAST_RESOLVED_Z", 0x2610, 16, 8, 1, .num 8, .ro, 30, 0, 0, none, 1, false, false⟩,
    ⟨"COMET_TABLE", 0x2620, 1, 1, 1, .dom 8192, .ro, 31, 0, 0, none, 1, false, false⟩]

/-- The objects of R232. -/
def objects08 : List ObjRow :=
  [
    ⟨"SETTLE_WAIT", 0x2A00, 1, 1, 1, .num 4, .rw, 31, 16, 500, some (50, 2000), 1, false, false⟩,
    ⟨"MOD_CAL_INTERVAL", 0x2A00, 1, 2, 1, .num 4, .rw, 31, 16, 600, some (60, 86400), 1, false, false⟩,
    ⟨"NOT_LOCKED_COUNT", 0x2A00, 1, 3, 1, .num 4, .ro, 31, 0, 0, none, 1, false, false⟩,
    ⟨"HELD_COUNT", 0x2A00, 1, 4, 1, .num 4, .ro, 31, 0, 0, none, 1, false, false⟩,
    ⟨"WIDTH_DROP_COUNT", 0x2A00, 1, 5, 1, .num 4, .ro, 31, 0, 0, none, 1, false, false⟩,
    ⟨"SLOT_STATE", 0x2A01, 4, 1, 1, .num 1, .ro, 31, 0, 0, none, 1, true, false⟩,
    ⟨"SLOT_COMMAND", 0x2A01, 4, 2, 1, .num 1, .wo, 0, 16, 0, some (1, 2), 1, false, false⟩,
    ⟨"MODULE_VENDOR, MODULE_PART, MODULE_SERIAL", 0x2A01, 4, 3, 3, .str 16, .ro, 31, 0, 0, none, 1, false, false⟩,
    ⟨"LASER_LIT", 0x2A01, 4, 6, 1, .num 1, .ro, 31, 0, 0, none, 1, true, false⟩,
    ⟨"LASER_POWER", 0x2A01, 4, 7, 1, .oct 16, .ro, 31, 0, 0, none, 1, false, false⟩,
    ⟨"LASER_ALARM", 0x2A01, 4, 8, 1, .num 1, .ro, 31, 0, 0, none, 1, false, false⟩,
    ⟨"MODULE_TEMP", 0x2A01, 4, 9, 1, .int 2, .ro, 31, 0, 0, none, 1, false, false⟩,
    ⟨"LINK_STATE", 0x2A10, 32, 1, 1, .num 1, .ro, 31, 0, 0, none, 1, true, false⟩,
    ⟨"LINK_STATE", 0x2A30, 7, 1, 1, .num 1, .ro, 31, 0, 0, none, 1, true, false⟩,
    ⟨"LANE_STATE", 0x2A10, 32, 2, 1, .oct 8, .ro, 31, 0, 0, none, 1, false, false⟩,
    ⟨"LANE_STATE", 0x2A30, 7, 2, 1, .oct 8, .ro, 31, 0, 0, none, 1, false, false⟩,
    ⟨"ACTIVE_LANES", 0x2A10, 32, 3, 1, .num 1, .ro, 31, 0, 0, none, 1, true, false⟩,
    ⟨"ACTIVE_LANES", 0x2A30, 7, 3, 1, .num 1, .ro, 31, 0, 0, none, 1, true, false⟩,
    ⟨"RX_ALIGNED", 0x2A10, 32, 4, 1, .num 1, .ro, 31, 0, 0, none, 1, false, false⟩,
    ⟨"RX_ALIGNED", 0x2A30, 7, 4, 1, .num 1, .ro, 31, 0, 0, none, 1, false, false⟩] ++ [
    ⟨"PARTNER_CHIP", 0x2A10, 32, 5, 1, .num 2, .ro, 31, 0, 65535, none, 1, false, false⟩,
    ⟨"PARTNER_CHIP", 0x2A30, 7, 5, 1, .num 2, .ro, 31, 0, 65535, none, 1, false, false⟩,
    ⟨"PARTNER_TWIN", 0x2A10, 32, 6, 1, .num 1, .ro, 31, 0, 255, none, 1, false, false⟩,
    ⟨"PARTNER_TWIN", 0x2A30, 7, 6, 1, .num 1, .ro, 31, 0, 255, none, 1, false, false⟩,
    ⟨"RX_POWER", 0x2A10, 32, 7, 1, .oct 16, .ro, 31, 0, 0, none, 1, false, false⟩,
    ⟨"RX_POWER", 0x2A30, 7, 7, 1, .oct 16, .ro, 31, 0, 0, none, 1, false, false⟩,
    ⟨"CRC_ERRORS", 0x2A10, 32, 8, 1, .num 4, .ro, 31, 0, 0, none, 1, false, false⟩,
    ⟨"CRC_ERRORS", 0x2A30, 7, 8, 1, .num 4, .ro, 31, 0, 0, none, 1, false, false⟩,
    ⟨"RETRIES", 0x2A10, 32, 9, 1, .num 4, .ro, 31, 0, 0, none, 1, false, false⟩,
    ⟨"RETRIES", 0x2A30, 7, 9, 1, .num 4, .ro, 31, 0, 0, none, 1, false, false⟩,
    ⟨"VIOLATIONS", 0x2A10, 32, 10, 1, .num 4, .ro, 31, 0, 0, none, 1, false, false⟩,
    ⟨"VIOLATIONS", 0x2A30, 7, 10, 1, .num 4, .ro, 31, 0, 0, none, 1, false, false⟩,
    ⟨"URGENT_DISCARDS", 0x2A10, 32, 11, 1, .num 4, .ro, 31, 0, 0, none, 1, false, false⟩,
    ⟨"URGENT_DISCARDS", 0x2A30, 7, 11, 1, .num 4, .ro, 31, 0, 0, none, 1, false, false⟩,
    ⟨"UP_SINCE", 0x2A10, 32, 12, 1, .num 8, .ro, 31, 0, 0, none, 1, false, false⟩,
    ⟨"UP_SINCE", 0x2A30, 7, 12, 1, .num 8, .ro, 31, 0, 0, none, 1, false, false⟩,
    ⟨"PROBE_LOCKED", 0x2A40, 64, 1, 1, .num 1, .ro, 31, 0, 0, none, 1, false, false⟩,
    ⟨"PROBE_TX_FRAMES", 0x2A40, 64, 2, 1, .num 4, .ro, 31, 0, 0, none, 1, false, false⟩,
    ⟨"PROBE_RX_FRAMES", 0x2A40, 64, 3, 1, .num 4, .ro, 31, 0, 0, none, 1, false, false⟩,
    ⟨"PROBE_NOT_LOCKED", 0x2A40, 64, 4, 1, .num 4, .ro, 31, 0, 0, none, 1, false, false⟩] ++ [
    ⟨"PILOT_LO_POWER", 0x2A40, 64, 5, 1, .oct 8, .ro, 31, 0, 0, none, 1, false, false⟩]

/-- The objects of R260, R261. -/
def objects09 : List ObjRow :=
  [
    ⟨"PORT_STATE", 0x4000, 1024, 1, 1, .num 1, .ro, 30, 0, 0, none, 1, true, false⟩,
    ⟨"PARTNER_CHIP", 0x4000, 1024, 2, 1, .num 2, .ro, 30, 0, 65535, none, 1, false, false⟩,
    ⟨"PARTNER_LINK", 0x4000, 1024, 3, 1, .num 1, .ro, 30, 0, 255, none, 1, false, false⟩,
    ⟨"PARTNER_SERIAL", 0x4000, 1024, 4, 1, .str 16, .ro, 30, 0, 0, none, 1, false, false⟩,
    ⟨"PARTNER_VENDOR", 0x4000, 1024, 5, 1, .num 4, .ro, 30, 0, 0, none, 1, false, false⟩,
    ⟨"PARTNER_CAPS", 0x4000, 1024, 6, 1, .num 2, .ro, 30, 0, 0, none, 1, false, false⟩,
    ⟨"EXPECTED_CHIP", 0x4000, 1024, 7, 1, .num 2, .rw, 30, 16, 65535, none, 1, false, false⟩,
    ⟨"EXPECTED_LINK", 0x4000, 1024, 8, 1, .num 1, .rw, 30, 16, 255, none, 1, false, false⟩,
    ⟨"IDENTIFIED_SINCE", 0x4000, 1024, 9, 1, .num 8, .ro, 30, 0, 0, none, 1, false, false⟩,
    ⟨"LAST_CHIP", 0x4000, 1024, 10, 1, .num 2, .ro, 30, 0, 65535, none, 1, false, false⟩,
    ⟨"LAST_LINK", 0x4000, 1024, 11, 1, .num 1, .ro, 30, 0, 255, none, 1, false, false⟩,
    ⟨"DETACH_CAUSE", 0x4000, 1024, 12, 1, .num 1, .ro, 30, 0, 0, none, 1, false, false⟩,
    ⟨"DETACH_COUNT", 0x4000, 1024, 13, 1, .num 4, .ro, 30, 0, 0, none, 1, false, false⟩,
    ⟨"ATTEMPT", 0x4000, 1024, 14, 1, .num 1, .ro, 30, 0, 0, none, 1, false, false⟩,
    ⟨"LIGHT", 0x4000, 1024, 15, 1, .bool, .ro, 30, 0, 0, none, 1, true, false⟩,
    ⟨"PROBE_RX_POWER", 0x4000, 1024, 16, 1, .int 2, .ro, 30, 0, 0, none, 1, false, false⟩,
    ⟨"VIOLATION_COUNT", 0x4000, 1024, 17, 1, .num 4, .ro, 30, 0, 0, none, 1, false, false⟩,
    ⟨"LAST_VIOLATION", 0x4000, 1024, 18, 1, .num 1, .ro, 30, 0, 0, none, 1, false, false⟩,
    ⟨"QUARANTINE_COUNT", 0x4000, 1024, 19, 1, .num 4, .ro, 30, 0, 0, none, 1, false, false⟩,
    ⟨"CRC_ERRORS", 0x4000, 1024, 20, 1, .num 4, .ro, 30, 0, 0, none, 1, false, false⟩] ++ [
    ⟨"KEEPALIVE_MISSES", 0x4000, 1024, 21, 1, .num 1, .ro, 30, 0, 0, none, 1, false, false⟩,
    ⟨"PORT_PROBE", 0x4000, 1024, 22, 1, .num 1, .rw, 30, 16, 0, some (0, 1), 1, false, false⟩,
    ⟨"HELLO_INTERVAL", 0x2B00, 1, 1, 1, .num 2, .rw, 31, 16, 2, some (1, 10), 1, false, false⟩,
    ⟨"ATTEMPT_LENGTH", 0x2B00, 1, 2, 1, .num 2, .rw, 31, 16, 50, some (10, 500), 1, false, false⟩,
    ⟨"ATTEMPTS", 0x2B00, 1, 3, 1, .num 1, .rw, 31, 16, 3, some (1, 8), 1, false, false⟩,
    ⟨"BACKOFF_BASE", 0x2B00, 1, 4, 1, .num 2, .rw, 31, 16, 100, some (10, 1000), 1, false, false⟩,
    ⟨"SLOW_PROBE_INTERVAL", 0x2B00, 1, 5, 1, .num 2, .rw, 31, 16, 1000, some (100, 60000), 1, false, false⟩,
    ⟨"DETACH_TIME", 0x2B00, 1, 6, 1, .num 2, .rw, 31, 16, 10, some (2, 100), 1, false, false⟩,
    ⟨"KEEPALIVE_INTERVAL", 0x2B00, 1, 7, 1, .num 2, .rw, 31, 16, 100, some (20, 1000), 1, false, false⟩,
    ⟨"KEEPALIVE_MISS", 0x2B00, 1, 8, 1, .num 1, .rw, 31, 16, 5, some (2, 20), 1, false, false⟩,
    ⟨"VIOLATION_LIMIT", 0x2B00, 1, 9, 1, .num 1, .rw, 31, 16, 16, some (4, 64), 1, false, false⟩,
    ⟨"VIOLATION_WINDOW", 0x2B00, 1, 10, 1, .num 2, .rw, 31, 16, 1000, some (100, 10000), 1, false, false⟩,
    ⟨"QUARANTINE_TIME", 0x2B00, 1, 11, 1, .num 2, .rw, 31, 16, 10, some (1, 600), 1, false, false⟩,
    ⟨"PROBE_POLICY", 0x2B00, 1, 12, 1, .num 1, .rw, 31, 16, 0, some (0, 2), 1, false, false⟩,
    ⟨"ID_POLICY", 0x2B00, 1, 13, 1, .num 1, .rw, 31, 16, 1, some (1, 2), 1, false, false⟩,
    ⟨"ATTEMPTS_STARTED", 0x2B01, 1, 1, 1, .num 4, .ro, 31, 0, 0, none, 1, false, false⟩,
    ⟨"IDENTIFICATIONS", 0x2B01, 1, 2, 1, .num 4, .ro, 31, 0, 0, none, 1, false, false⟩,
    ⟨"ID_REFUSALS", 0x2B01, 1, 3, 1, .num 4, .ro, 31, 0, 0, none, 1, false, false⟩,
    ⟨"STALE_IDENTS", 0x2B01, 1, 4, 1, .num 4, .ro, 31, 0, 0, none, 1, false, false⟩,
    ⟨"NAK_RECEIVED", 0x2B01, 1, 5, 1, .num 4, .ro, 31, 0, 0, none, 1, false, false⟩] ++ [
    ⟨"NAK_DROPPED", 0x2B01, 1, 6, 1, .num 4, .ro, 31, 0, 0, none, 1, false, false⟩,
    ⟨"UNDELIVERED", 0x2B01, 1, 7, 1, .num 4, .ro, 31, 0, 0, none, 1, false, false⟩,
    ⟨"ARRAY_EXPECTED", 0x2B10, 1, 1, 1, .num 8, .rw, 31, 16, 18446744073709551615, none, 1, false, false⟩,
    ⟨"POSITION_CONFIRMED", 0x2B10, 1, 2, 1, .bool, .ro, 31, 0, 0, none, 1, true, false⟩,
    ⟨"CONFIRMED_SINCE", 0x2B10, 1, 3, 1, .num 8, .ro, 31, 0, 0, none, 1, false, false⟩,
    ⟨"MODULE_ID", 0x2B10, 1, 4, 1, .num 4, .ro, 31, 0, 0, none, 1, false, false⟩,
    ⟨"NEIGHBOUR", 0x2B11, 1, 1, 7, .num 4, .ro, 31, 0, 65535, none, 1, false, false⟩,
    ⟨"CONFLICT_COUNT", 0x2B12, 1, 1, 1, .num 4, .ro, 31, 0, 0, none, 1, false, false⟩]

/-- The objects of R291. -/
def objects10 : List ObjRow :=
  [
    ⟨"ENGINE_STATE", 0x2900, 1, 1, 1, .num 1, .ro, 31, 0, 0, none, 1, true, false⟩,
    ⟨"NORM_TIMEOUT", 0x2900, 1, 2, 1, .num 4, .rw, 31, 16, 100, some (10, 10000), 1, false, false⟩,
    ⟨"SKIP_LIMIT", 0x2900, 1, 3, 1, .num 1, .rw, 31, 16, 3, some (1, 255), 1, false, false⟩,
    ⟨"SVC_REFUSED", 0x2900, 1, 4, 1, .num 4, .ro, 31, 0, 0, none, 1, false, false⟩,
    ⟨"ERRORS_SUPPRESSED", 0x2900, 1, 5, 1, .num 4, .ro, 31, 0, 0, none, 1, false, false⟩,
    ⟨"DUP_GRANULES", 0x2900, 1, 6, 1, .num 4, .ro, 31, 0, 0, none, 1, false, false⟩,
    ⟨"POISON_IN", 0x2900, 1, 7, 1, .num 4, .ro, 31, 0, 0, none, 1, false, false⟩,
    ⟨"POISON_OUT", 0x2900, 1, 8, 1, .num 4, .ro, 31, 0, 0, none, 1, false, false⟩,
    ⟨"COLL_PLAN", 0x2910, 16, 1, 1, .dom 704, .rwc, 28, 24, 0, none, 1, false, false⟩,
    ⟨"PLAN_REPORT", 0x2910, 16, 2, 1, .oct 16, .ro, 28, 0, 0, none, 1, false, false⟩,
    ⟨"COLL_STATE", 0x2910, 16, 3, 1, .num 1, .ro, 30, 0, 0, none, 1, true, false⟩,
    ⟨"COLL_COMMAND", 0x2910, 16, 4, 1, .num 1, .wo, 0, 24, 0, some (1, 3), 1, false, false⟩,
    ⟨"LR", 0x2910, 16, 5, 1, .real 4, .rw, 30, 24, 0, none, 1, false, true⟩,
    ⟨"STEP_BASE", 0x2910, 16, 6, 1, .num 8, .rwc, 30, 24, 0, none, 1, false, false⟩,
    ⟨"STEP_NOW", 0x2910, 16, 7, 1, .num 8, .ro, 30, 0, 0, none, 1, true, false⟩,
    ⟨"ENGINE_STEP", 0x2910, 16, 8, 1, .num 8, .ro, 30, 0, 0, none, 1, true, false⟩,
    ⟨"UPDATED_STEP", 0x2910, 16, 9, 1, .num 8, .ro, 30, 0, 0, none, 1, false, false⟩,
    ⟨"UPDATE_COUNT", 0x2910, 16, 10, 1, .num 8, .ro, 30, 0, 0, none, 1, false, false⟩,
    ⟨"LAST_NORM", 0x2910, 16, 11, 1, .real 8, .ro, 30, 0, 0, none, 1, true, false⟩,
    ⟨"LAST_CLIP", 0x2910, 16, 12, 1, .real 4, .ro, 30, 0, 0, none, 1, false, false⟩] ++ [
    ⟨"LAST_RESULT", 0x2910, 16, 13, 1, .num 1, .ro, 30, 0, 0, none, 1, false, false⟩,
    ⟨"SKIP_COUNT", 0x2910, 16, 14, 1, .num 4, .ro, 30, 0, 0, none, 1, false, false⟩,
    ⟨"GEN", 0x2910, 16, 15, 1, .num 1, .ro, 30, 0, 0, none, 1, false, false⟩,
    ⟨"COVERAGE", 0x2910, 16, 16, 1, .num 8, .ro, 30, 0, 0, none, 1, true, false⟩,
    ⟨"ACT_BYTES", 0x2910, 16, 17, 1, .num 8, .ro, 30, 0, 0, none, 1, false, false⟩,
    ⟨"SVC_FRAMES_IN", 0x2920, 32, 1, 1, .num 4, .ro, 31, 0, 0, none, 1, false, false⟩,
    ⟨"SVC_FRAMES_OUT", 0x2920, 32, 2, 1, .num 4, .ro, 31, 0, 0, none, 1, false, false⟩,
    ⟨"SVC_QUEUED", 0x2920, 32, 3, 1, .num 4, .ro, 31, 0, 0, none, 1, true, false⟩,
    ⟨"SVC_JOB", 0x2920, 32, 4, 1, .num 1, .ro, 31, 0, 255, none, 1, false, false⟩,
    ⟨"MODEL_TABLE", 0x2940, 1, 1, 1, .dom 2048, .rwc, 28, 24, 0, none, 1, false, false⟩,
    ⟨"MODEL_STATE", 0x2940, 1, 2, 1, .oct 64, .ro, 31, 0, 0, none, 1, false, false⟩,
    ⟨"MODEL_COMMAND", 0x2940, 1, 3, 1, .num 2, .wo, 0, 24, 0, none, 1, false, false⟩,
    ⟨"STORE_BYTES", 0x2940, 1, 4, 1, .num 8, .ro, 31, 0, 0, none, 1, false, false⟩]

/-- The objects of R313. -/
def objects11 : List ObjRow :=
  [
    ⟨"MEM_SELFTEST", 0x2800, 1, 1, 1, .num 4, .ro, 31, 0, 0, none, 1, false, false⟩,
    ⟨"NARROW_REFUSED", 0x2800, 1, 2, 1, .num 4, .ro, 31, 0, 0, none, 1, false, false⟩,
    ⟨"MAP_ERRORS", 0x2800, 1, 3, 1, .num 4, .ro, 31, 0, 0, none, 1, false, false⟩,
    ⟨"REMAP_RELOADS", 0x2800, 1, 4, 1, .num 4, .ro, 31, 0, 0, none, 1, false, false⟩,
    ⟨"SCRUB_ENABLE", 0x2801, 1, 1, 1, .bool, .rw, 31, 16, 1, none, 1, false, false⟩,
    ⟨"SCRUB_RATE_MAX", 0x2801, 1, 2, 1, .num 4, .rw, 31, 16, 256, some (16, 4096), 1, false, false⟩,
    ⟨"SCRUB_LAP_LIMIT", 0x2801, 1, 3, 1, .num 4, .rw, 31, 16, 86400, some (600, 604800), 1, false, false⟩,
    ⟨"REPEAT_LIMIT", 0x2801, 1, 4, 1, .num 1, .rw, 31, 16, 3, some (2, 16), 1, false, false⟩,
    ⟨"STACK_STATE", 0x2810, 8, 1, 1, .num 1, .ro, 31, 0, 0, none, 1, true, false⟩,
    ⟨"VALID_BYTES", 0x2810, 8, 2, 1, .num 8, .ro, 31, 0, 0, none, 1, false, false⟩,
    ⟨"CE_COUNT", 0x2810, 8, 3, 1, .num 4, .ro, 31, 0, 0, none, 1, false, false⟩,
    ⟨"UE_COUNT", 0x2810, 8, 4, 1, .num 4, .ro, 31, 0, 0, none, 1, false, false⟩,
    ⟨"POISON_READS", 0x2810, 8, 5, 1, .num 4, .ro, 31, 0, 0, none, 1, false, false⟩,
    ⟨"RETIRED_PAGES", 0x2810, 8, 6, 1, .num 2, .ro, 31, 0, 0, none, 1, false, false⟩,
    ⟨"SPARES_LEFT", 0x2810, 8, 7, 1, .num 2, .ro, 31, 0, 4096, none, 1, false, false⟩,
    ⟨"SCRUB_LAP_TIME", 0x2810, 8, 8, 1, .num 4, .ro, 31, 0, 0, none, 1, false, false⟩,
    ⟨"SCRUB_LAP_END", 0x2810, 8, 9, 1, .num 8, .ro, 31, 0, 0, none, 1, false, false⟩,
    ⟨"SCRUB_POSITION", 0x2810, 8, 10, 1, .num 4, .ro, 31, 0, 0, none, 1, false, false⟩,
    ⟨"FILL_PEAK", 0x2810, 8, 11, 1, .num 2, .ro, 31, 0, 0, none, 1, false, false⟩,
    ⟨"DEVICE_ECC", 0x2810, 8, 12, 1, .num 4, .ro, 31, 0, 0, none, 1, false, false⟩] ++ [
    ⟨"SRAM_CE_COUNT", 0x2830, 7, 1, 1, .num 4, .ro, 31, 0, 0, none, 1, false, false⟩,
    ⟨"SRAM_UE_COUNT", 0x2830, 7, 2, 1, .num 4, .ro, 31, 0, 0, none, 1, false, false⟩,
    ⟨"SRAM_LAP_TIME", 0x2830, 7, 3, 1, .num 4, .ro, 31, 0, 0, none, 1, false, false⟩,
    ⟨"SRAM_LAP_END", 0x2830, 7, 4, 1, .num 8, .ro, 31, 0, 0, none, 1, false, false⟩,
    ⟨"RETIRE_REQUEST", 0x2840, 1, 1, 1, .oct 8, .wo, 0, 16, 0, none, 1, false, false⟩,
    ⟨"RETIRE_REPORT", 0x2840, 1, 2, 1, .oct 16, .ro, 31, 0, 0, none, 1, false, false⟩,
    ⟨"RETIRE_LIST", 0x2841, 8, 1, 1, .dom 16384, .ro, 31, 0, 0, none, 1, false, false⟩,
    ⟨"FLASH_CE", 0x2850, 1, 1, 1, .num 4, .ro, 31, 0, 0, none, 1, false, false⟩,
    ⟨"FLASH_UE", 0x2850, 1, 2, 1, .num 4, .ro, 31, 0, 0, none, 1, false, false⟩,
    ⟨"FLASH_BAD_BLOCKS", 0x2850, 1, 3, 1, .num 2, .ro, 31, 0, 0, none, 1, false, false⟩,
    ⟨"FLASH_SPARE_BLOCKS", 0x2850, 1, 4, 1, .num 2, .ro, 31, 0, 0, none, 1, false, false⟩,
    ⟨"FLASH_ERASE_MAX", 0x2850, 1, 5, 1, .num 4, .ro, 31, 0, 0, none, 1, false, false⟩]

/-- The objects of R340. -/
def objects12 : List ObjRow :=
  [
    ⟨"HANDLER_STATE", 0x2300, 1, 1, 1, .num 1, .ro, 31, 0, 0, none, 1, true, false⟩,
    ⟨"CURRENT_EVENT", 0x2300, 1, 2, 1, .num 2, .ro, 31, 0, 0, none, 1, false, false⟩,
    ⟨"QUEUE_DEPTH", 0x2300, 1, 3, 1, .num 1, .ro, 31, 0, 0, none, 1, true, false⟩,
    ⟨"QUEUE_PEAK", 0x2300, 1, 4, 1, .num 1, .ro, 31, 0, 0, none, 1, false, false⟩,
    ⟨"LOSS_COUNT", 0x2300, 1, 5, 1, .num 4, .ro, 31, 0, 0, none, 1, false, false⟩,
    ⟨"LOST_MARKER", 0x2300, 1, 6, 1, .bool, .ro, 31, 0, 0, none, 1, false, false⟩,
    ⟨"MERGED_COUNT", 0x2300, 1, 7, 1, .num 4, .ro, 31, 0, 0, none, 1, false, false⟩,
    ⟨"PREEMPT_COUNT", 0x2300, 1, 8, 1, .num 4, .ro, 31, 0, 0, none, 1, false, false⟩,
    ⟨"CANCELLED_COUNT", 0x2300, 1, 9, 1, .num 4, .ro, 31, 0, 0, none, 1, false, false⟩,
    ⟨"RECOVERY_EPOCH", 0x2300, 1, 10, 1, .num 4, .ro, 31, 0, 0, none, 1, false, false⟩,
    ⟨"STALE_RESULTS", 0x2300, 1, 11, 1, .num 4, .ro, 31, 0, 0, none, 1, false, false⟩,
    ⟨"EMERGENCY_DROPPED", 0x2300, 1, 12, 1, .num 4, .ro, 31, 0, 0, none, 1, false, false⟩,
    ⟨"FAULT_LIST", 0x2301, 1, 1, 1, .dom 512, .ro, 31, 0, 0, none, 1, false, false⟩,
    ⟨"FAULT_ACKNOWLEDGE", 0x2301, 1, 2, 1, .num 8, .wo, 0, 20, 0, none, 1, false, false⟩,
    ⟨"L1_TRIES", 0x2310, 1, 1, 1, .num 1, .rw, 31, 16, 3, some (1, 8), 1, false, false⟩,
    ⟨"L1_TRY_TIME", 0x2310, 1, 2, 1, .num 2, .rw, 31, 16, 3, some (1, 20), 1, false, false⟩,
    ⟨"L2_BUDGET", 0x2310, 1, 3, 1, .num 4, .rw, 31, 16, 40, some (2, 60000), 1, false, false⟩,
    ⟨"L3_BUDGET", 0x2310, 1, 4, 1, .num 4, .rw, 31, 16, 100, some (5, 120000), 1, false, false⟩,
    ⟨"L4_BUDGET", 0x2310, 1, 5, 1, .num 4, .rw, 31, 16, 250, some (10, 300000), 1, false, false⟩,
    ⟨"L5_BUDGET", 0x2310, 1, 6, 1, .num 4, .rw, 31, 16, 10000, some (20, 3600000), 1, false, false⟩] ++ [
    ⟨"LEVEL_FIRED", 0x2311, 1, 1, 5, .num 4, .ro, 31, 0, 0, none, 1, false, false⟩,
    ⟨"LEVEL_SUCCEEDED", 0x2311, 1, 6, 5, .num 4, .ro, 31, 0, 0, none, 1, false, false⟩,
    ⟨"REROUTE_POLICY", 0x2320, 16, 1, 1, .num 1, .rw, 28, 24, 0, some (0, 2), 1, false, false⟩,
    ⟨"DETOUR_RELEASE", 0x2320, 16, 2, 1, .num 1, .wo, 0, 20, 0, some (0, 255), 1, false, false⟩,
    ⟨"RESTART_ORDER", 0x2320, 16, 3, 1, .oct 24, .wo, 0, 20, 0, none, 1, false, false⟩,
    ⟨"RESTART_STATE", 0x2320, 16, 4, 1, .num 1, .ro, 30, 0, 0, none, 1, true, false⟩,
    ⟨"REPLANNED", 0x2320, 16, 5, 1, .oct 32, .ro, 28, 0, 0, none, 1, false, false⟩,
    ⟨"LOG_CURSOR", 0x2330, 1, 1, 1, .num 8, .rw, 30, 30, 0, none, 1, false, false⟩,
    ⟨"LOG_BLOCK", 0x2330, 1, 2, 1, .dom 16384, .ro, 30, 0, 0, none, 1, false, false⟩,
    ⟨"LOG_OLDEST", 0x2330, 1, 3, 1, .num 8, .ro, 31, 0, 0, none, 1, false, false⟩,
    ⟨"LOG_NEWEST", 0x2330, 1, 4, 1, .num 8, .ro, 31, 0, 0, none, 1, true, false⟩,
    ⟨"LOG_LOST", 0x2330, 1, 5, 1, .num 4, .ro, 31, 0, 0, none, 1, false, false⟩,
    ⟨"PROT_CURSOR", 0x2331, 1, 1, 1, .num 8, .rw, 16, 16, 0, none, 1, false, false⟩,
    ⟨"PROT_BLOCK", 0x2331, 1, 2, 1, .dom 16384, .ro, 16, 0, 0, none, 1, false, false⟩,
    ⟨"PROT_OLDEST", 0x2331, 1, 3, 1, .num 8, .ro, 16, 0, 0, none, 1, false, false⟩,
    ⟨"PROT_NEWEST", 0x2331, 1, 4, 1, .num 8, .ro, 16, 0, 0, none, 1, false, false⟩,
    ⟨"PROT_LOST", 0x2331, 1, 5, 1, .num 4, .ro, 16, 0, 0, none, 1, false, false⟩]

/-- The objects of R366. -/
def objects13 : List ObjRow :=
  [
    ⟨"TWIN_ID", 0x2500, 1, 1, 1, .num 1, .ro, 31, 0, 0, none, 1, false, false⟩,
    ⟨"DRIVE_ROLE", 0x2500, 1, 2, 1, .num 1, .ro, 31, 0, 0, none, 1, true, false⟩,
    ⟨"COLL_ROLE", 0x2500, 1, 3, 1, .num 1, .ro, 31, 0, 0, none, 1, true, false⟩,
    ⟨"TWIN_DRIVE_ROLE", 0x2500, 1, 4, 1, .num 1, .ro, 31, 0, 0, none, 1, false, false⟩,
    ⟨"TWIN_COLL_ROLE", 0x2500, 1, 5, 1, .num 1, .ro, 31, 0, 0, none, 1, false, false⟩,
    ⟨"GRANT_LINES", 0x2500, 1, 6, 1, .num 1, .ro, 31, 0, 0, none, 1, true, false⟩,
    ⟨"JOIN_RESULT", 0x2500, 1, 7, 1, .num 1, .ro, 31, 0, 0, none, 1, false, false⟩,
    ⟨"SYNC_CAUSE", 0x2500, 1, 8, 1, .num 1, .ro, 31, 0, 0, none, 1, false, false⟩,
    ⟨"DOUBLE_GRANT", 0x2500, 1, 9, 1, .num 4, .ro, 31, 0, 0, none, 1, false, false⟩,
    ⟨"RECORDS_SENT", 0x2501, 1, 1, 1, .num 4, .ro, 31, 0, 0, none, 1, false, false⟩,
    ⟨"RECORDS_RECEIVED", 0x2501, 1, 2, 1, .num 4, .ro, 31, 0, 0, none, 1, false, false⟩,
    ⟨"RECORDS_INCOMPLETE", 0x2501, 1, 3, 1, .num 4, .ro, 31, 0, 0, none, 1, false, false⟩,
    ⟨"LAST_RECORD_CYCLE", 0x2501, 1, 4, 1, .num 8, .ro, 31, 0, 0, none, 1, false, false⟩,
    ⟨"ITEMS_DEFERRED", 0x2501, 1, 5, 1, .num 4, .ro, 31, 0, 0, none, 1, false, false⟩,
    ⟨"STORE_STALE", 0x2502, 1, 1, 1, .bool, .ro, 31, 0, 0, none, 1, false, false⟩,
    ⟨"STALE_ITEMS", 0x2502, 1, 2, 1, .num 4, .ro, 31, 0, 0, none, 1, false, false⟩,
    ⟨"ROLE_SWAP_INTERVAL", 0x2510, 1, 1, 1, .num 2, .rw, 31, 16, 24, some (0, 720), 1, false, false⟩,
    ⟨"LAST_SWAP", 0x2510, 1, 2, 1, .num 8, .ro, 31, 0, 0, none, 1, false, false⟩,
    ⟨"HANDOVER_COMMAND", 0x2510, 1, 3, 1, .num 1, .wo, 0, 16, 0, some (1, 3), 1, false, false⟩,
    ⟨"HANDOVER_STATE", 0x2510, 1, 4, 1, .num 1, .ro, 31, 0, 0, none, 1, false, false⟩] ++ [
    ⟨"SWITCHOVER_COUNT", 0x2510, 1, 5, 1, .num 4, .ro, 31, 0, 0, none, 1, false, false⟩,
    ⟨"LAST_GAP", 0x2510, 1, 6, 1, .num 1, .ro, 31, 0, 0, none, 1, false, false⟩,
    ⟨"MIRROR_RATE_MAX", 0x2520, 1, 1, 1, .num 4, .rw, 31, 16, 40000, some (1000, 40000), 1, false, false⟩,
    ⟨"MIRROR_STALL_TIME", 0x2520, 1, 2, 1, .num 8, .ro, 31, 0, 0, none, 1, false, false⟩,
    ⟨"HEALTH_INTERVAL", 0x2520, 1, 3, 1, .num 4, .rw, 31, 16, 3600, some (600, 86400), 1, false, false⟩,
    ⟨"HEALTH_REPORT", 0x2520, 1, 4, 1, .oct 32, .ro, 31, 0, 0, none, 1, false, false⟩,
    ⟨"MIRROR_STATE", 0x2530, 16, 1, 1, .num 1, .ro, 30, 0, 0, none, 1, true, false⟩,
    ⟨"MIRROR_NEWEST", 0x2530, 16, 2, 1, .num 8, .ro, 30, 0, 0, none, 1, false, false⟩,
    ⟨"MIRROR_OLDER", 0x2530, 16, 3, 1, .num 8, .ro, 30, 0, 0, none, 1, false, false⟩,
    ⟨"MIRROR_BYTES", 0x2530, 16, 4, 1, .num 8, .ro, 30, 0, 0, none, 1, false, false⟩,
    ⟨"MIRROR_PROGRESS", 0x2530, 16, 5, 1, .num 8, .ro, 30, 0, 0, none, 1, false, false⟩,
    ⟨"COLL_RESTORE", 0x2530, 16, 6, 1, .num 8, .wo, 0, 20, 0, none, 1, false, false⟩,
    ⟨"RESTORE_STATE", 0x2530, 16, 7, 1, .num 1, .ro, 30, 0, 0, none, 1, false, false⟩]

/-- The objects of R387. -/
def objects14 : List ObjRow :=
  [
    ⟨"DOMAIN_STATE", 0x2100, 1, 1, 16, .num 1, .ro, 31, 0, 0, none, 1, true, false⟩,
    ⟨"DOMAIN_REQUEST", 0x2100, 1, 17, 1, .num 2, .wo, 0, 16, 0, none, 1, false, false⟩,
    ⟨"DOMAIN_RESULT", 0x2100, 1, 18, 1, .num 1, .ro, 31, 0, 0, none, 1, false, false⟩,
    ⟨"DOMAIN_POWER", 0x2101, 1, 1, 16, .num 2, .ro, 31, 0, 0, none, 1, false, false⟩,
    ⟨"INPUT_POWER", 0x2102, 1, 1, 1, .num 4, .ro, 31, 0, 0, none, 1, true, false⟩,
    ⟨"PEAK_INPUT_POWER", 0x2102, 1, 2, 1, .num 4, .ro, 31, 0, 0, none, 1, false, false⟩,
    ⟨"POWER_LIMIT", 0x2102, 1, 3, 1, .num 2, .rw, 31, 16, 780, some (200, 780), 1, false, false⟩,
    ⟨"OVER_LIMIT_COUNT", 0x2102, 1, 4, 1, .num 4, .ro, 31, 0, 0, none, 1, false, false⟩,
    ⟨"DOMAIN_RAMP_FAILURES", 0x2102, 1, 5, 1, .num 4, .ro, 31, 0, 0, none, 1, false, false⟩,
    ⟨"PERMIT_CAPACITY", 0x2110, 7, 1, 1, .num 4, .ro, 31, 0, 0, none, 1, false, false⟩,
    ⟨"PERMIT_IN_USE", 0x2110, 7, 2, 1, .num 4, .ro, 31, 0, 0, none, 1, true, false⟩,
    ⟨"GRANTS", 0x2110, 7, 3, 1, .num 4, .ro, 31, 0, 0, none, 1, false, false⟩,
    ⟨"DEFERRALS", 0x2110, 7, 4, 1, .num 4, .ro, 31, 0, 0, none, 1, false, false⟩,
    ⟨"DENIALS", 0x2110, 7, 5, 1, .num 4, .ro, 31, 0, 0, none, 1, false, false⟩,
    ⟨"REVOCATIONS", 0x2110, 7, 6, 1, .num 4, .ro, 31, 0, 0, none, 1, false, false⟩,
    ⟨"LEASE_ENDS", 0x2110, 7, 7, 1, .num 4, .ro, 31, 0, 0, none, 1, false, false⟩,
    ⟨"SLEW_CAPACITY", 0x2120, 1, 1, 1, .num 2, .rwc, 31, 16, 2048, some (128, 4096), 1, false, false⟩,
    ⟨"SLEW_IN_FLIGHT", 0x2120, 1, 2, 1, .num 2, .ro, 31, 0, 0, none, 1, true, false⟩,
    ⟨"RESERVATION_SHORT", 0x2120, 1, 3, 1, .num 4, .ro, 31, 0, 0, none, 1, false, false⟩,
    ⟨"CAL_CAPACITY", 0x2120, 1, 4, 1, .num 2, .rwc, 31, 16, 64, some (1, 256), 1, false, false⟩] ++ [
    ⟨"HBM_BURST_POWER", 0x2120, 1, 5, 1, .num 2, .rw, 31, 16, 120, some (20, 300), 1, false, false⟩,
    ⟨"HBM_DEFER_RATE", 0x2120, 1, 6, 1, .num 1, .rw, 31, 16, 25, some (5, 100), 1, false, false⟩,
    ⟨"HEATER_SUPPLY", 0x2120, 1, 7, 1, .num 4, .rw, 31, 16, 300000, some (64000, 300000), 1, false, false⟩,
    ⟨"DIE_TEMP", 0x2130, 1, 1, 1, .int 2, .ro, 31, 0, 0, none, 1, true, false⟩,
    ⟨"DIE_TEMPS", 0x2130, 1, 2, 1, .oct 32, .ro, 31, 0, 0, none, 1, false, false⟩,
    ⟨"THERMAL_LEVEL", 0x2130, 1, 3, 1, .num 1, .ro, 31, 0, 0, none, 1, true, false⟩,
    ⟨"HBM_TEMPS", 0x2130, 1, 4, 1, .oct 16, .ro, 31, 0, 0, none, 1, false, false⟩,
    ⟨"PEAK_DIE_TEMP", 0x2130, 1, 5, 1, .int 2, .ro, 31, 0, 0, none, 1, false, false⟩,
    ⟨"T_RESUME", 0x2130, 1, 6, 1, .int 2, .rw, 31, 16, 850, some (600, 900), 1, false, false⟩,
    ⟨"THERMAL_AUTO_RESTART", 0x2130, 1, 7, 1, .bool, .rw, 31, 16, 1, none, 1, false, false⟩,
    ⟨"SHUTDOWN_COUNT", 0x2130, 1, 8, 1, .num 4, .ro, 31, 0, 0, none, 1, false, false⟩,
    ⟨"TRIP_COUNT", 0x2130, 1, 9, 1, .num 4, .ro, 31, 0, 0, none, 1, false, false⟩,
    ⟨"LAST_SHUTDOWN", 0x2130, 1, 10, 1, .oct 16, .ro, 31, 0, 0, none, 1, false, false⟩,
    ⟨"LEVEL_SINCE", 0x2130, 1, 11, 1, .num 8, .ro, 31, 0, 0, none, 1, false, false⟩]

/-- The objects of R412. -/
def objects15 : List ObjRow :=
  [
    ⟨"UPDATE_STATE", 0x2400, 1, 1, 1, .num 1, .ro, 31, 0, 6, none, 1, true, false⟩,
    ⟨"UPDATE_COMMAND", 0x2400, 1, 2, 1, .num 1, .wo, 0, 16, 0, some (1, 2), 1, false, false⟩,
    ⟨"STAGE_RATE_MAX", 0x2400, 1, 3, 1, .num 4, .rw, 31, 16, 64, some (16, 4096), 1, false, false⟩,
    ⟨"STAGED_MANIFEST", 0x2400, 1, 4, 1, .oct 48, .ro, 31, 0, 0, none, 1, false, false⟩,
    ⟨"STAGED_VERSION", 0x2400, 1, 5, 1, .str 16, .ro, 31, 0, 0, none, 1, false, false⟩,
    ⟨"SEGMENTS_TOTAL", 0x2400, 1, 6, 1, .num 4, .ro, 31, 0, 0, none, 1, false, false⟩,
    ⟨"SEGMENTS_RECEIVED", 0x2400, 1, 7, 1, .num 4, .ro, 31, 0, 0, none, 1, true, false⟩,
    ⟨"SEGMENT_BITMAP", 0x2400, 1, 8, 1, .oct 512, .ro, 31, 0, 0, none, 1, false, false⟩,
    ⟨"NEXT_MISSING", 0x2400, 1, 9, 1, .num 4, .ro, 31, 0, 4294967295, none, 1, false, false⟩,
    ⟨"SLOTS_USED", 0x2400, 1, 10, 1, .num 2, .ro, 31, 0, 0, none, 1, false, false⟩,
    ⟨"DUPLICATE_SEGMENTS", 0x2400, 1, 11, 1, .num 4, .ro, 31, 0, 0, none, 1, false, false⟩,
    ⟨"UPDATE_RESULT", 0x2400, 1, 12, 1, .num 1, .ro, 31, 0, 0, none, 1, false, false⟩,
    ⟨"BOOT_STATE", 0x2401, 1, 1, 1, .num 1, .ro, 31, 0, 0, none, 1, false, false⟩,
    ⟨"RUNNING_REGION", 0x2401, 1, 2, 1, .num 1, .ro, 31, 0, 0, none, 1, false, false⟩,
    ⟨"FALLBACK_VERSION", 0x2401, 1, 3, 1, .str 16, .ro, 31, 0, 0, none, 1, false, false⟩,
    ⟨"FALLBACK_HASH", 0x2401, 1, 4, 1, .oct 48, .ro, 31, 0, 0, none, 1, false, false⟩,
    ⟨"TRIAL_STARTS", 0x2401, 1, 5, 1, .num 1, .ro, 31, 0, 0, none, 1, false, false⟩,
    ⟨"SECURITY_MIN", 0x2401, 1, 6, 1, .num 4, .ro, 31, 0, 0, none, 1, false, false⟩,
    ⟨"START_KIND", 0x2401, 1, 7, 1, .num 1, .ro, 31, 0, 0, none, 1, false, false⟩,
    ⟨"START_DURATION", 0x2401, 1, 8, 1, .num 4, .ro, 31, 0, 0, none, 1, false, false⟩] ++ [
    ⟨"START_COUNT", 0x2401, 1, 9, 1, .num 4, .ro, 31, 0, 0, none, 1, false, false⟩,
    ⟨"FORMATS_READ", 0x2401, 1, 10, 1, .oct 16, .ro, 31, 0, 0, none, 1, false, false⟩,
    ⟨"HEALTH_CONFIRM", 0x2402, 1, 0, 1, .num 1, .rwc, 31, 16, 0, some (0, 2), 1, false, false⟩,
    ⟨"HEALTH_SOAK", 0x2403, 1, 1, 1, .num 2, .rw, 31, 16, 10, some (10, 25), 1, false, false⟩,
    ⟨"HEALTH_REMAINING", 0x2403, 1, 2, 1, .num 4, .ro, 31, 0, 0, none, 1, true, false⟩,
    ⟨"SETTINGS_SEQ", 0x2404, 1, 1, 1, .num 8, .ro, 31, 0, 0, none, 1, false, false⟩,
    ⟨"SETTINGS_RESET", 0x2404, 1, 2, 1, .bool, .ro, 31, 0, 0, none, 1, false, false⟩,
    ⟨"LIBRARY_DISCARDED", 0x2404, 1, 3, 1, .num 2, .ro, 31, 0, 0, none, 1, false, false⟩]

/-- The objects of R430. -/
def objects16 : List ObjRow :=
  [
    ⟨"RECORDER_STATE", 0x2700, 1, 1, 1, .num 1, .ro, 31, 0, 0, none, 1, true, false⟩,
    ⟨"RECORDER_ENABLE", 0x2700, 1, 2, 1, .bool, .rw, 31, 20, 1, none, 1, false, false⟩,
    ⟨"RECORDER_COMMAND", 0x2700, 1, 3, 1, .num 1, .wo, 0, 20, 0, some (1, 3), 1, false, false⟩,
    ⟨"RING_BASE", 0x2701, 1, 1, 1, .num 8, .rwc, 31, 16, 0, none, 1, false, false⟩,
    ⟨"RING_LENGTH", 0x2701, 1, 2, 1, .num 8, .rwc, 31, 16, 8589934592, none, 1, false, false⟩,
    ⟨"RING_WINDOW", 0x2701, 1, 3, 1, .num 4, .ro, 31, 0, 5366, none, 1, false, false⟩,
    ⟨"KEYFRAME_INTERVAL", 0x2701, 1, 4, 1, .num 2, .rwc, 31, 16, 400, some (100, 4000), 1, false, false⟩,
    ⟨"PRE_WINDOW", 0x2702, 1, 1, 1, .num 4, .rw, 31, 20, 4000, none, 1, false, false⟩,
    ⟨"POST_WINDOW", 0x2702, 1, 2, 1, .num 4, .rw, 31, 20, 1000, none, 1, false, false⟩,
    ⟨"TRIGGER_CLASSES", 0x2702, 1, 3, 1, .num 1, .rw, 31, 20, 24, some (0, 30), 1, false, false⟩,
    ⟨"TRIGGER_EVENTS", 0x2702, 1, 4, 1, .oct 16, .rw, 31, 20, 0, none, 1, false, false⟩,
    ⟨"CAPTURE_INFO", 0x2703, 1, 1, 1, .oct 64, .ro, 31, 0, 0, none, 1, false, false⟩,
    ⟨"TRIGGERS_MISSED", 0x2703, 1, 2, 1, .num 4, .ro, 31, 0, 0, none, 1, false, false⟩,
    ⟨"GAP_COUNT", 0x2703, 1, 3, 1, .num 4, .ro, 31, 0, 0, none, 1, false, false⟩,
    ⟨"RECORD_RATE", 0x2703, 1, 4, 1, .num 4, .ro, 31, 0, 0, none, 1, true, false⟩,
    ⟨"PARAM_HASH", 0x2703, 1, 5, 1, .oct 48, .ro, 31, 0, 0, none, 1, false, false⟩,
    ⟨"EXPORT_FIRST", 0x2704, 1, 1, 1, .num 8, .rw, 31, 20, 0, none, 1, false, false⟩,
    ⟨"EXPORT_LAST", 0x2704, 1, 2, 1, .num 8, .rw, 31, 20, 0, none, 1, false, false⟩,
    ⟨"REPLAY_STATE", 0x2710, 1, 1, 1, .num 1, .ro, 31, 0, 0, none, 1, true, false⟩,
    ⟨"REPLAY_COMMAND", 0x2710, 1, 2, 1, .num 1, .wo, 0, 16, 0, some (1, 4), 1, false, false⟩] ++ [
    ⟨"REPLAY_FROM", 0x2710, 1, 3, 1, .num 8, .rw, 31, 16, 0, none, 1, false, false⟩,
    ⟨"REPLAY_TO", 0x2710, 1, 4, 1, .num 8, .rw, 31, 16, 0, none, 1, false, false⟩,
    ⟨"REPLAY_MODE", 0x2710, 1, 5, 1, .num 1, .rw, 31, 16, 0, some (0, 1), 1, false, false⟩,
    ⟨"REPLAY_REPORT", 0x2710, 1, 6, 1, .oct 64, .ro, 31, 0, 0, none, 1, false, false⟩,
    ⟨"REPLAY_PROGRESS", 0x2710, 1, 7, 1, .num 8, .ro, 31, 0, 0, none, 1, true, false⟩]

/-- The whole object dictionary. -/
def dictionary : List ObjRow :=
  objects02 ++ objects03 ++ objects04 ++ objects05 ++ objects06 ++ objects07 ++ objects08 ++ objects09 ++
  objects10 ++ objects11 ++ objects12 ++ objects13 ++ objects14 ++ objects15 ++ objects16

/-- Whether a row names an index. -/
def ObjRow.hasIndex (r : ObjRow) (index : Nat) : Bool := r.base ≤ index && index < r.base + r.count

/-- Whether a row names an index and a subindex. -/
def ObjRow.has (r : ObjRow) (index sub : Nat) : Bool :=
  r.hasIndex index && r.sub ≤ sub && sub < r.sub + r.subs

/-- The row of an object. -/
def objRow (index sub : Nat) : Option ObjRow := dictionary.find? (fun r => r.has index sub)

/-- Whether an index names an object. -/
def indexExists (index : Nat) : Bool := dictionary.any (fun r => r.hasIndex index)

/-- The highest subindex of an object. -/
def topSub (index : Nat) : Nat :=
  (dictionary.filter (fun r => r.hasIndex index)).foldl (fun m r => max m (r.sub + r.subs - 1)) 0

/-- The size of a value of a type; none for a DOMAIN. -/
def ObjType.size : ObjType → Option Nat
  | .num n | .int n | .real n | .str n | .oct n => some n
  | .bool => some 1
  | .dom _ => none

/-- The key of an object in the stores. -/
def objKey (index sub : Nat) : Nat := index * 256 + sub

/-- The default of a number object; PTP_ENABLE and PTP_PORT differ between the slots, POWER_LIMIT and the TIME_REF
default follow their own notes. -/
def objDefault (index sub : Nat) : Int :=
  if index = 0x2211 ∧ sub = 1 then 0 else if index = 0x2211 ∧ sub = 2 then 1
  else match objRow index sub with
    | some r => r.dflt
    | none => 0

end Sys2Proof.Machine
end

