-- ==== Sys2Proof/Machine/State.lean ====
section
/-!
DEFINITION. The machine's state as plain data: one structure per chapter of the spec, collected in `Dev` (everything
but the HBM store and the queue), and `State` = `Dev` + `Hbm` + the queue of waiting commands. Tables are lists of
(key, value) pairs with rising keys; an absent key reads as the default its reader names. Instants are Array time in
nanoseconds unless a docstring says otherwise; quantities marked 2^-32 are 32-bit binary fractions.
-/

namespace Sys2Proof.Machine

/-! ### Chapters 00, 01 and 17: identity, pins and crossings -/

/-- The variants of Table 0.1. -/
inductive Variant where | c | s
  deriving DecidableEq, Repr

/-- Identity, pins and supplies of the module (R1, R434 to R446). -/
structure Module where
  variant : Variant := .c
  revision : Nat := 0
  serial : Bytes := []
  /-- Straps as latched, laid out as 0x2001:01 (R391). -/
  straps : Nat := 0
  /-- 3.3 V AUX present, main input within range, COLD_RESET_N held low. -/
  aux : Bool := false
  main : Bool := false
  coldReset : Bool := false
  mainLostAt : Option Nat := none
  holdup : Bool := false
  timeRef : Nat := 0
  refclk : Bool := true
  /-- PMBus PAGE and the readings of the last refresh: per page V, I and P (LINEAR11 words), status, temperatures. -/
  page : Nat := 0
  vin : List Nat := [0, 0]
  iin : List Nat := [0, 0]
  pin : List Nat := [0, 0]
  /-- Input voltages measured by PD0, in mV, currents in mA. -/
  volts : List Nat := [0, 0]
  amps : List Nat := [0, 0]
  temp1 : Nat := 0
  temp2 : Nat := 0
  statusWord : Nat := 0
  statusInput : List Nat := [0, 0]
  statusTemp : Nat := 0
  /-- Discard counters of the crossings X1 to X19, and receivers flagged loss of lock (R29, R34). -/
  discards : List (Nat × Nat) := []
  unlocked : List Receiver := []
  quiescing : List Nat := []
  ppsOutAt : Nat := 0
  deriving DecidableEq, Repr

/-! ### Chapter 02: the object dictionary and the field network -/

/-- The EtherCAT state machine (R38, Table 2.2). -/
inductive Ecat where | init | preOp | safeOp | op | boot
  deriving DecidableEq, Repr

/-- The access roles of sessions (R50, Table 2.7). -/
inductive Role where | observer | operator | planner | maintainer
  deriving DecidableEq, Repr

/-- A session (R49, R50, R53), with its own log cursors (R337). -/
structure Session where
  client : Nat
  role : Role
  scope : Nat
  /-- SESSION_IDLE_TIMEOUT at the opening, in seconds (0x2021:01). -/
  timeout : Nat
  /-- Instant of the last request. -/
  lastReq : Nat
  logCursor : Nat := 0
  protCursor : Nat := 0
  deriving DecidableEq, Repr

/-- A challenge waiting for its response (R54). -/
structure Challenge where
  client : Nat
  bytes : Bytes
  issued : Nat
  deriving DecidableEq, Repr

/-- A segmented download in progress (R42, R43), one per client. -/
structure Transfer where
  client : Nat
  index : Nat
  sub : Nat
  data : Bytes
  total : Nat
  toggle : Bool
  lastAt : Nat
  deriving DecidableEq, Repr

/-- The nine Director states (Table 2.9). -/
inductive DirState where
  | boot | selftest | standby | armed | serving | hold | maintenance | replay | fault
  deriving DecidableEq, Repr

/-- STATE_CAUSE, 0x2013 (Table 2.14). -/
inductive Cause where | command | startUp | fault | timeLoss | thermal | twin
  deriving DecidableEq, Repr

/-- The commands of DIRECTOR_CONTROL (Table 2.10). -/
inductive Cmd where
  | arm | serve | hold | resume | disarm | enterMaint | exitMaint | enterReplay | exitReplay | warmRestart
  deriving DecidableEq, Repr

/-- JOB_STATE (0x2080 + n:01). -/
inductive JobState where | empty | defined | loaded | running | stopped | restarting
  deriving DecidableEq, Repr

/-- A mailbox request (R41): an SDO write or a segment of one, an information request, an FoE packet or read, a
request of an unsupported protocol. -/
inductive Req where
  | write (c : Client) (index sub : Nat) (complete : Bool) (data : Bytes)
  | segment (c : Client) (index sub total : Nat) (toggle last : Bool) (data : Bytes)
  | read (c : Client) (index sub : Nat) (complete : Bool)
  | info (c : Client) (k : InfoKind) (index sub : Nat)
  | unsupported (c : Client) (protocol : Nat)
  | manifest (c : Client) (data : Bytes) (sigOk : Bool)
  | segmentFile (c : Client) (name : Nat) (data : Bytes)
  | recovery (c : Client) (data : Bytes) (sigOk : Bool)
  | capture (c : Client)
  | captureWrite (c : Client) (data : Bytes)
  deriving DecidableEq, Repr

/-- What the mailbox waits for while the answer of the request being handled has not left (R41). -/
inductive Waiting where
  /-- A first-stage refusal, due 2.000 ms after handling began (R57); `foe` for an FoE request. -/
  | refusal (c : Client) (index sub : Nat) (begun : Nat) (foe : Bool) (cause : Nat)
  /-- The response waits for the settings record of the write (R397). -/
  | settings (c : Client) (index sub : Nat)
  /-- The response waits for the twin's confirmation of a store item (R88, R353). -/
  | store (c : Client) (index sub item since : Nat)
  /-- The response waits for the validation of a constellation or an almanac (R85). -/
  | validation (r : Req) (since : Nat)
  /-- The response waits for the retire record (R309). -/
  | retire (c : Client) (index sub : Nat)
  /-- The response waits until a domain is ON or OFF (R369). -/
  | domain (c : Client) (d : Nat)
  /-- The answer of an FoE file waits for its program operation (R402, R403). -/
  | foe (c : Client) (file : Nat)
  deriving DecidableEq, Repr

/-- The field network: SubDevice controller, mailbox, sessions and process data (R37 to R58). -/
structure Net where
  ecat : Ecat := .init
  al : Nat := 0
  /-- Requests waiting behind the one being handled, first in first out (R41). -/
  mailbox : List Req := []
  waiting : Option Waiting := none
  sessions : List Session := []
  challenges : List Challenge := []
  /-- The four role keys, by role code 1 to 4; absent: unset (R55). -/
  keys : List (Nat × Bytes) := []
  transfers : List Transfer := []
  /-- SM2 as last written by the MainDevice, and the image latched for the next cycle (R46). -/
  rxBuffer : Bytes := []
  rxLatched : Option Bytes := none
  /-- The TxPDO snapshot of the last SYNC0 edge (R46). -/
  txSnapshot : Bytes := []
  /-- What the mapped inputs showed when the last control cycle completed (R46). -/
  txCycle : Bytes := []
  /-- The PDO mappings 0x1600 to 0x1603 and 0x1A00 to 0x1A03 and the assignments 0x1C12 and 0x1C13 (R45). -/
  pdoMaps : List (Nat × List Nat) := []
  /-- Emergencies waiting for the mailbox, at most 8 (R47). -/
  emergencies : List Bytes := []
  /-- Instant of the last process-data output (R38), none: no process data. -/
  pdAt : Option Nat := none
  /-- DC synchronisation in use (R46). -/
  dc : Bool := false
  deriving DecidableEq, Repr

/-- The Director state machine and its control word (R60 to R62). -/
structure Director where
  state : DirState := .boot
  since : Nat := 0
  cause : Cause := .startUp
  control : Nat := 0
  /-- Whether the control word standing came by SDO from a Maintainer session (R61). -/
  byMaintainer : Bool := false
  cmdAck : Bool := false
  cmdResult : Nat := 0
  inProgress : Option Cmd := none
  /-- Whether the command latched last came by SDO from a Maintainer session (R61). -/
  latchedMaintainer : Bool := false
  /-- The control word latched since the last twin state record, 0 for none (LATCHED_CMD, R347). -/
  latched : Nat := 0
  /-- FAULT_ACK of the last control word sampled (Table 2.10). -/
  lastFaultAck : Bool := false
  deriving DecidableEq, Repr

/-! ### Chapter 03: circuits, constellations and almanacs -/

/-- The circuit states (Table 3.2), by code 0 to 5. -/
inductive CState where | none | presteer | ready | live | degraded | lost
  deriving DecidableEq, Repr

/-- One circuit that is not in NONE (R66, R69): its two ports, plane, mask and weights. -/
structure Circuit where
  north : Nat
  south : Nat
  plane : Nat
  state : CState
  lanes : Nat
  weights : List Nat
  /-- The lanes declared lost at the north and at the south end (R163). -/
  lostN : Nat := 0
  lostS : Nat := 0
  /-- The Zenith at which it became LIVE. -/
  liveAt : Nat := 0
  deriving DecidableEq, Repr

/-- The run of a job's almanac: variant, pointer and detours (R79, R90, R96). -/
structure Run where
  variant : Nat := 0
  /-- B of R79, the base Orbit. -/
  base : Nat := 0
  next : Nat := 0
  loop : Nat := 0
  commits : Nat := 0
  /-- Zenith of `next`, 0 while none is placed. -/
  zenith : Nat := 0
  /-- The pointer stands at entry 0 of a written almanac and START takes START_ORBIT (R65, R83). -/
  fresh : Bool := true
  detours : List Nat := []
  replanned : List Nat := []
  deriving DecidableEq, Repr

/-- A job (R64, R65, Table 2.14). -/
structure Job where
  state : JobState := .empty
  tag : Nat := 0
  /-- PORT_MAP as a mask: bit p for port p. -/
  ports : Nat := 0
  startOrbit : Nat := 0
  /-- STOP_CAUSE. -/
  cause : Nat := 0
  /-- STOP was accepted and waits for the last Zenith whose Go was acknowledged. -/
  stopping : Bool := false
  /-- The stored almanac passed its last validation (R85), and VALIDATED_PERIOD. -/
  valid : Bool := false
  period : Nat := 0
  deriving DecidableEq, Repr

/-! ### Chapter 04: Array time, the Orbit counter and PTP. Stamps and offsets count 2⁻³² ns. -/

/-- TIME_STATE (Table 4.2). -/
inductive TState where | free | acquiring | locked | holdover
  deriving DecidableEq, Repr

/-- The states of a PTP slot (R110). -/
inductive PState where | disabled | listening | tracking | qualified | jumped | disqualified
  deriving DecidableEq, Repr

/-- One PTP slot (R108 to R112). -/
structure Ptp where
  state : PState := .disabled
  gm : Nat := 0
  clockClass : Nat := 255
  steps : Nat := 0
  utc : Int := 0
  ptpScale : Bool := false
  /-- Domain time minus Array time at the last accepted sample. -/
  offset : Int := 0
  /-- The slot's frequency estimate: change of the offset in ps per second. -/
  rate : Int := 0
  /-- Local instant of the last accepted sample. -/
  sampleAt : Nat := 0
  delay : Int := 0
  /-- What else the best time transmitter announces, and when it was heard last (R108). -/
  prio1 : Nat := 255
  accuracy : Nat := 255
  variance : Nat := 65535
  prio2 : Nat := 255
  announceAt : Option Nat := none
  /-- logAnnounceInterval of that time transmitter, and the logMinDelayReqInterval that it gives (Table 4.4). -/
  announceLog : Int := 1
  delayLog : Int := 0
  agree : Nat := 0
  back : Nat := 0
  refusedRun : Nat := 0
  /-- A two-step Sync waiting for its Follow_Up: its arrival and correction. -/
  pendingSync : Option (Nat × Int) := none
  /-- The last Sync's t1 and t2, for the path delay. -/
  lastSync : Option (Int × Int) := none
  /-- Departure of the Delay_Req or Pdelay_Req that is open. -/
  reqAt : Option Nat := none
  /-- When the last Delay_Req or Pdelay_Req left. -/
  lastReq : Option Nat := none
  deriving DecidableEq, Repr

/-- An armed strobe (R118, R120): its Zenith, its pods and the tag that each applies. -/
structure Strobe where
  z : Nat
  pods : List Nat
  tag : Nat
  /-- Its STROBE_DESC has gone on some pod link: the strobe can no longer be cancelled (R194). -/
  fixed : Bool := false
  /-- The pod links on which its STROBE_DESC has gone (R120, R176). -/
  sent : List Nat := []
  /-- What the strobe does: commit, graded step k, undo, lane-out or lane-in, catch-up. -/
  kind : Nat := 0
  job : Nat := 16
  deriving DecidableEq, Repr

/-- The time unit and its servo (R98 to R125). -/
structure Time where
  /-- Array time as the 96-bit counter: 64-bit ns and a 32-bit fraction, in 2⁻³² ns (R98). -/
  counter : Nat := 0
  increment : Nat := 0x200000000
  tickOn : Bool := false
  /-- The Array time that PD0 latched at the switch-off of PD3 (R452). -/
  carried : Option Nat := none
  state : TState := .free
  /-- Port of the parent: 0 to 5 peer ports, 6 twin link (R102). -/
  parent : Option Nat := none
  isRoot : Bool := false
  depth : Option Nat := none
  /-- I(n) of R105 in 2⁻³² ppb. -/
  integ : Int := 0
  /-- θ of the answered exchanges since the filter was cleared, newest first. -/
  filter : List Int := []
  /-- A filtered offset waiting for the servo of the next cycle start (R105). -/
  servoInput : Option Int := none
  seq : Nat := 0
  /-- Requests open: sequence number and t1. -/
  reqs : List (Nat × Nat) := []
  unanswered : Nat := 0
  okRun : Nat := 0
  badRun : Nat := 0
  unlockedRun : Nat := 0
  holdoverAt : Nat := 0
  slewLogged : Bool := false
  /-- A step waiting for the next heater trigger (R100). -/
  stepDue : Option Int := none
  /-- Root step notice: its start (R113). -/
  notice : Option Nat := none
  parentNotice : Bool := false
  /-- The last instant at which a child reported ANY_ARMED (Table 4.5), and at which this Director left ARMED, SERVING
  and HOLD (R113, R115). -/
  armedSeen : Option Nat := none
  armedAt : Option Nat := none
  inForce : OrbitDef := {}
  newest : OrbitDef := {}
  ptp : List Ptp := [{}, {}]
  selected : Option Nat := none
  strobes : List Strobe := []
  /-- Markers waiting in a pod link's current 16 ns: their emission instants (R120). -/
  marks : List (Nat × Nat) := []
  /-- Ports to whose next ORBIT_SYNC STEPPED is owed (R100, R117). -/
  stepped : List Nat := []
  ppsAt : Option Nat := none
  deriving DecidableEq, Repr

/-! ### Chapter 05: steering heads and the control engine -/

/-- A block-floating-point word of value `m * 2^(e - 23)` (R130). -/
structure Bfp where
  m : Int := 0
  e : Int := -128
  deriving DecidableEq, Repr

/-- AXIS_STATE (R152), by code 0 to 6. -/
inductive AState where | open | holdClosed | slew | acquire | track | autotune | fault
  deriving DecidableEq, Repr

/-- One segment of a jerk-limited motion: its jerk in 2⁻³² µrad per cycle³ and its length in cycles. -/
structure Seg where
  jerk : Int
  n : Nat
  deriving DecidableEq, Repr

/-- A motion in progress (R137, R139), in units of 2⁻³² µrad: closed form per segment from exact sixths. -/
structure Motion where
  segs : List Seg
  /-- Six times the start position, and the start velocity and acceleration. -/
  p6 : Int
  v : Int := 0
  a : Int := 0
  /-- The target reached exactly in the last cycle; none for a stop. -/
  target : Option Int := none
  /-- Cycle index of the launch (k = 0). -/
  from_ : Nat
  comet : Option Nat := none
  /-- The axes of its gang (R138). -/
  gang : List Nat := []
  deriving DecidableEq, Repr

/-- The nine stages' state words of an axis (R131, R133). -/
structure Stages where
  integ : Bfp := {}
  d : Bfp := {}
  edPrev : Bfp := {}
  n1x1 : Bfp := {}
  n1x2 : Bfp := {}
  n1w1 : Bfp := {}
  n1w2 : Bfp := {}
  n2x1 : Bfp := {}
  n2x2 : Bfp := {}
  n2w1 : Bfp := {}
  n2w2 : Bfp := {}
  deriving DecidableEq, Repr

/-- One axis of the control engine (R126 to R152). -/
structure Axis where
  state : AState := .open
  /-- Opened by command, and the instant at which OPEN_HOLD_LIMIT closes it (R136). -/
  byCommand : Bool := false
  openUntil : Option Nat := none
  /-- The cycle in which an axis that a tune has opened closes again (R147). -/
  closeAt : Option Nat := none
  /-- Adopted, and not yet computed: its first output stays within 2 counts of APPLIED (R150). -/
  seeded : Bool := false
  /-- Latched position in counts of 2⁻⁷ µrad, and the output held at the latch. -/
  y : Int := 0
  applied : Int := 0
  latched : Bool := false
  sensorFault : Bool := false
  /-- The held reference, in 2⁻³² µrad, without correction and dither. -/
  ref : Int := 0
  optCorr : Int := 0
  /-- r of the last cycle, in 2⁻³² µrad. -/
  rLast : Int := 0
  output : Int := 0
  stages : Stages := {}
  motion : Option Motion := none
  /-- Consecutive missed deadlines, and DEADLINE_MISS (R129). -/
  misses : Nat := 0
  missFlag : Bool := false
  intClamp : Bool := false
  outSat : Bool := false
  sat : Bool := false
  feCount : Nat := 0
  faultCause : Nat := 0
  /-- The nine stage checks of the last cycle computed, STAGE_CHECK[26:0] (R416). -/
  check : Nat := 0
  /-- Set in use (R135). -/
  set : Nat := 0
  /-- Sets that hold a poisoned word (R146). -/
  poisonedSets : List Nat := []
  deriving DecidableEq, Repr

/-- A spiral search of one head (R144): cycle of its start, and its number in the alternation. -/
structure Search where
  started : Nat
  cx : Int
  cy : Int
  k : Nat := 0
  /-- Whether it serves a reacquire (R145) or a comet (R141). -/
  reacquire : Bool := false
  deriving DecidableEq, Repr

/-- One head (R140 to R145). -/
structure Head where
  confirm : Nat := 0
  firstRead : Bool := true
  /-- The slot of the rotation in which it was read last, counted from 1 (R140). -/
  readSlot : Nat := 0
  search : Option Search := none
  /-- Tap powers P0 to P3 latched in the running dither group, 0.01 dBm. -/
  taps : List Int := []
  /-- References of x and y at the last valid tap-power group, none before one (R145). -/
  good : Option (Int × Int) := none
  /-- No trajectory before this instant (R143). -/
  noLaunch : Nat := 0
  pilotOn : Bool := false
  /-- When its gate's light began: the signature blocks count from there (R239). -/
  pilotSince : Nat := 0
  deriving DecidableEq, Repr

/-- A relay tune in progress (R147). -/
structure Tune where
  axis : Nat
  began : Nat
  u0 : Int
  side : Bool := true
  /-- Errors e in 2⁻³² µrad, oldest first. -/
  samples : List Int := []
  deriving DecidableEq, Repr

/-- BOARD_STATE (0x3D00 + b:01), by code 0 to 5. -/
inductive BState where | absent | adopting | inService | holding | drained | fault
  deriving DecidableEq, Repr

/-- A sensor frame that passed its checks and waits for the input latch (R148). -/
structure SFrame where
  cycle : Nat
  pos : List Int
  applied : List Int
  faulty : List Nat
  /-- Axes whose word arrived poisoned (R146). -/
  poisoned : List Nat := []
  deriving DecidableEq, Repr

/-- A driver board: what the Director knows of it and what the LA-128 itself holds (R148 to R151). -/
structure Board where
  state : BState := .absent
  txSeq : Nat := 0
  /-- Sensor frame queued for the input latch. -/
  queued : Option SFrame := none
  missed : Nat := 0
  holdFrames : Nat := 0
  /-- The board's own side: outputs held, outputs waiting for a marker, HOLDING, SEQ last accepted. -/
  outs : List (Nat × Int) := []
  next : Option (Nat × List (Nat × Int)) := none
  holding : Bool := true
  rxSeq : Nat := 0
  /-- An identity record was accepted since the board was last lost (R151, R258). -/
  discovered : Bool := false
  /-- The board has accepted a HOLD or COMMAND frame since its link was aligned: it answers with sensor frames (R258). -/
  accepted : Bool := false
  deriving DecidableEq, Repr

/-- SLICE_STATE (0x2C00). -/
inductive SState where | off | running | fault
  deriving DecidableEq, Repr

/-- The control engine. -/
structure Engine where
  /-- Cycle index of the cycle running, and how far it has come: 0 start, 1 latched, 2 computed. -/
  cycle : Nat := 0
  phase : Nat := 0
  /-- Array time latched at the trigger (X2, R35). -/
  latchTime : Nat := 0
  slices : List SState := [.off, .off, .off, .off]
  axes : List (Nat × Axis) := []
  heads : List (Nat × Head) := []
  boards : List (Nat × Board) := []
  tunes : List Tune := []
  /-- Pilot readings completed and not yet latched: head, ex and ey in counts of 2⁻⁷ µrad, level in 0.1 dB; the least level stands
for a reading without a valid local oscillator. -/
  pilots : List (Nat × Int × Int × Int) := []
  /-- The readings latched at the last input latch, and the axes an input word of which was poisoned there (R415). -/
  latchedPilots : List (Nat × Int × Int × Int) := []
  poisonedIn : List Nat := []
  /-- The heads whose waiting pilot reading, and the ports whose tap powers, carry a poison mark (R25). -/
  pilotPoison : List Nat := []
  tapPoison : List Nat := []
  /-- Coefficient sets written over the calibration values: 80 bytes each, by head * 8 + axis * 4 + set. -/
  sets : List (Nat × Bytes) := []
  /-- Reacquires under way: circuit (north, plane), try number, instant of the try's end (R145). -/
  reacquires : List (Nat × Nat × Nat × Nat) := []
  deriving DecidableEq, Repr

/-! ### Chapter 06: port ring banks, heaters and calibration -/

/-- POD_STATE (0x3C00 + q:08). -/
inductive PodState where | absent | inService | outOfService
  deriving DecidableEq, Repr

/-- A staging bank of a pod (R164): its staged codes, the codes saved at application, and its life. -/
structure Bank where
  /-- Codes by ring number. -/
  codes : List (Nat × Nat) := []
  saved : List (Nat × Nat) := []
  /-- 0 free, 1 written, 2 applied, 3 undone. -/
  life : Nat := 0
  deriving DecidableEq, Repr

/-- A strobe descriptor pending at a pod (R175, R176): ID and its (bank, undo, delay) for this pod. -/
structure Desc where
  id : Nat
  acts : List (Nat × Bool × Nat)
  deriving DecidableEq, Repr

/-- A pod chip and what the Director holds for it (R164 to R178). -/
structure Pod where
  state : PodState := .absent
  lock : Bool := false
  serial : Bytes := []
  flipOffset : Int := 0
  /-- POD_TEMP of the last two reports, 0.01 °C (R166). -/
  temp : Int := 0
  tempPrev : Int := 0
  /-- Ring frequency shifts F in GHz and heater powers P in mW, by ring (R166, R168). -/
  f : List (Nat × Bfp) := []
  p : List (Nat × Bfp) := []
  /-- Resonance offsets of the report that the next heater trigger takes, in ring order (R166). -/
  eps : List (Option Int) := []
  /-- The offsets that the last heater trigger took. -/
  used : List (Option Int) := []
  /-- The rings a word of whose next heater cycle carries a poison mark, and those held at their last code for one (R25, R311). -/
  poisoned : List Nat := []
  heldRings : List Nat := []
  /-- Codes sent for the next HCYC (R166), and the pod's own heater codes. -/
  sent : List (Nat × Nat) := []
  heater : List (Nat × Nat) := []
  /-- The pod's heater codes that wait for the next HCYC. -/
  next : List (Nat × Nat) := []
  /-- The pod's own junction codes, by ring. -/
  junction : List (Nat × Nat) := []
  banks : List (Nat × Bank) := []
  descs : List Desc := []
  strobeDelay : Nat := 0
  /-- The stamp of the pod's last bank acknowledgement (Table 4.8). -/
  ackAt : Option Nat := none
  /-- A sweep ordered on the pod: port, lane, first, step, points. -/
  sweep : Option (Nat × Nat × Nat × Nat × Nat) := none
  deriving DecidableEq, Repr

/-- What the Director holds for one port's ring bank (R154 to R173). -/
structure Bankport where
  saOpen : Bool := false
  sbOpen : Bool := false
  /-- Bit k: lane k to plane B. -/
  route : Nat := 0
  /-- Lanes taken out by a calibration round. -/
  calOut : Nat := 0
  /-- The bits of CAL_REQUEST that a Maintainer wrote (R170). -/
  calByMa : Nat := 0
  /-- Lanes this end has declared lost (R163). -/
  lost : Nat := 0
  /-- Lanes held out of the monitor mask around a flip (Table 7.7). -/
  flipOut : Nat := 0
  tapA : Int := -9999
  tapB : Int := -9999
  /-- The tap powers received last have been flushed from their queue (R34). -/
  tapGone : Bool := false
  /-- The pod's own mask and flags from MONITOR_SET (R162). -/
  podMask : Nat := 0
  podPilotExpected : Bool := false
  podThreshold : Int := -1800
  /-- Consecutive rejected rounds per lane ring (R172). -/
  rejects : List (Nat × Nat) := []
  /-- Array time of the last round per lane (R170). -/
  calTimes : List (Nat × Nat) := []
  /-- Lane powers reported in the last second, with their instants, newest first (R158). -/
  powers : List (Nat × List Int) := []
  deriving DecidableEq, Repr

/-- A calibration round (R170 to R172). -/
structure Round where
  north : Nat
  /-- South port, or none for a round on a port with no circuit. -/
  south : Option Nat
  plane : Nat
  lane : Nat
  start : Nat
  /-- 0 out, 1 swept, 2 fitted, 3 lane back. -/
  stage : Nat := 0
  /-- Sweep results by port: offset and 49 drop and through powers. -/
  sweeps : List (Nat × Int × List (Int × Int)) := []
  accepted : Bool := false
  /-- The staging bank that the round uses. -/
  tag : Nat := 0
  background : Bool := true
  /-- The holder of the CAL reservation that the round runs under (R377). -/
  under : Option Nat := none
  /-- R has come: the lane is out. -/
  out : Bool := false
  /-- An aborted round's lane returns at this cycle start (R172). -/
  back : Option Nat := none
  deriving DecidableEq, Repr

/-- A pod link (R119, R174): measured latencies by chain position in ps, emission lead, next strobe ID. -/
structure PodLink where
  lat : List (Nat × Nat) := []
  lead : Nat := 0
  nextId : Nat := 0
  trained : Bool := false
  deriving DecidableEq, Repr

/-- A record of the CALIBRATION region for a pod's serial (R178) that is not the one of a chain position now. -/
structure CalRecord where
  serial : Bytes
  matrix : Bytes
  tempCoef : Bytes
  drop : List Bytes
  through : List Bytes
  shutter : List Bytes
  deriving DecidableEq, Repr

/-- The rings of the core. -/
structure Rings where
  ports : List (Nat × Bankport) := []
  pods : List (Nat × Pod) := []
  links : List (Nat × PodLink) := []
  rounds : List Round := []
  /-- Instant of the last background round, and a background round waiting for its permit. -/
  lastRound : Nat := 0
  due : Bool := false
  /-- CALIBRATION records of pods that are at no chain position (R178). -/
  records : List CalRecord := []
  deriving DecidableEq, Repr

/-! ### Chapter 07: Zenith, committing a constellation -/

/-- The comet states (Table 7.3), by code 0 to 6. -/
inductive CometState where | waiting | slewing | acquiring | ready | staged | aborted | fault
  deriving DecidableEq, Repr

/-- A comet (R180 to R183). -/
structure Comet where
  id : Nat
  job : Nat
  entry : Nat
  north : Nat
  south : Nat
  plane : Nat
  lanes : Nat
  weights : List Nat
  state : CometState := .waiting
  zenith : Nat
  waypoint : Bool := false
  /-- Which waypoint the management cluster has chosen for it (R182). -/
  point : Nat := 0
  /-- Leg of a split slew: 0 to the waypoint, 1 to the target (R182). -/
  leg : Nat := 0
  searching : Bool := false
  crossing : Bool := false
  /-- Alignment complete at the north and at the south end (R141). -/
  okN : Bool := false
  okS : Bool := false
  /-- The angles at which its launch found its two heads: x and y of each, north first (R182). -/
  start : List (Int × Int) := []
  deriving DecidableEq, Repr

/-- COMMIT_STATE (R206), by code 0 to 11. -/
inductive CommitState where
  | idle | presteer | voted | go | acked | confirmed | flipping | verified | held | retracted
  | reverting | reverted
  deriving DecidableEq, Repr

/-- What an entry stages at one instant: its offset from Z in ns, and the pods with their bank. -/
structure Stage where
  /-- The step: 0 for a clean flip or the first graded step, up to 7. -/
  step : Nat
  z : Nat
  pods : List Nat
  tag : Nat
  applied : List Nat := []
  /-- Catch-ups armed (R200). -/
  catchups : Nat := 0
  deriving DecidableEq, Repr

/-- What a circuit was before the flip, kept for the revert (R204). -/
structure Commit where
  state : CommitState := .idle
  entry : Nat := 0
  z : Nat := 0
  slot : Nat := 0
  reason : Nat := 0
  /-- Reason of the last own vote, 0 for READY. -/
  own : Nat := 0
  /-- The last vote sent: none, or READY. -/
  voted : Option Bool := none
  go : Bool := false
  confirm : Bool := false
  retract : Bool := false
  failed : Bool := false
  ackSent : Bool := false
  stages : List Stage := []
  /-- Circuits ended at the flip, whole, and north ports and planes of the circuits that became LIVE. -/
  ended : List Circuit := []
  begun : List (Nat × Nat) := []
  /-- The almanac pointer before Z (R204). -/
  before : Option Run := none
  /-- Bank released for the UNDO or verified (R200). -/
  verified : Bool := false
  windowEnded : Bool := false
  kept : Option Bool := none
  lastOutcome : Nat := 0
  lastZ : Nat := 0
  detour : Option Nat := none
  /-- The instant at which its launch window opened (R180, R207). -/
  opened : Nat := 0
  /-- The entry starts circuits and its comets were not created: the Director was not in ARMED or SERVING (Table 7.3). -/
  bare : Bool := false
  /-- Every strobe of the entry was armed (R192). -/
  armed : Bool := false
  /-- The reason in the FAIL that this member has sent (R192). -/
  failReason : Nat := 0
  /-- The circuits of Keep-lit entries as they stood before Z (R204). -/
  keptLit : List Circuit := []
  /-- The ports at which a lane has been declared lost in the verification window (R200). -/
  darkened : List Nat := []
  /-- A RETRACT has come after Z + 950 µs (R195). -/
  late : Bool := false
  /-- The NOT_READY vote of a member that has left its entry is owed until the leader's HOLD comes (R185, R188). -/
  owed : Bool := false
  /-- The Zenith of the newest entry that has flipped here and has not been reverted (R205). -/
  lastFlip : Nat := 0
  /-- The slot that flipped there (R170). -/
  lastSlot : Nat := 0
  deriving DecidableEq, Repr

/-- A leader's vote group (R189 to R196), by TAG and ZENITH. -/
structure Group where
  tag : Nat
  z : Nat
  entry : Nat
  crc : Nat
  members : Nat
  ready : Nat := 0
  notReady : Nat := 0
  ack : Nat := 0
  fail : Nat := 0
  kept : Nat := 0
  reverted : Nat := 0
  failReasons : List (Nat × Nat) := []
  goSent : Bool := false
  holdSent : Bool := false
  confirmSent : Bool := false
  retractSent : Bool := false
  reason : Nat := 0
  voidSent : Bool := false
  checked : Bool := false
  deriving DecidableEq, Repr

/-- A tentative-probe watch on a port (R202): its end and the crossing comet. -/
structure Watch where
  port : Nat
  till : Nat
  comet : Nat
  deriving DecidableEq, Repr

/-- A detour to be committed outside the almanac's own Zeniths (R328). -/
structure Detour where
  job : Nat
  record : Nat
  zd : Nat
  release : Bool := false
  deriving DecidableEq, Repr

/-- The commit machinery. -/
structure Committer where
  comets : List Comet := []
  nextComet : Nat := 0
  commits : List (Nat × Commit) := []
  groups : List Group := []
  /-- LEADER_EPOCH: own, and the highest seen; the leader this module follows and since when. -/
  epoch : Nat := 0
  seenEpoch : Nat := 0
  leader : Option Nat := none
  leaderSince : Nat := 0
  liveSet : Nat := 0
  watches : List Watch := []
  detours : List Detour := []
  /-- The votes refused or found different, by TAG, ZENITH and sender: a repeat of one is ignored (R185, R189). -/
  named : List (Nat × Nat × Nat) := []
  deriving DecidableEq, Repr

/-! ### Chapter 08: the Director's own optics -/

/-- SLOT_STATE (R211), by code 0 to 6. -/
inductive LaserState where | absent | present | enabling | lit | safe | fault | refused
  deriving DecidableEq, Repr

/-- One laser slot (R209 to R212). -/
structure Laser where
  state : LaserState := .absent
  present : Bool := false
  good : Bool := false
  vendor : Bytes := []
  part : Bytes := []
  serial : Bytes := []
  lit : Nat := 0
  dead : Nat := 0
  alarm : Nat := 0
  /-- Monitored output per laser, 0.01 dBm. -/
  power : List Int := []
  temp : Int := 0
  deriving DecidableEq, Repr

/-- The states of a lane (Table 8.5), by code 0 to 6. -/
inductive LaneState where | dark | locking | aligning | active | settling | calibrating | dropped
  deriving DecidableEq, Repr

/-- One transmit lane and its synthesiser, with its receive side (R213 to R217). -/
structure Lane where
  state : LaneState := .dark
  locked : Bool := false
  okRun : Nat := 0
  /-- Instant at which the lane left LOCKED (R215). -/
  leftAt : Nat := 0
  calAt : Nat := 0
  /-- Consecutive blocks in which the partner's RX_ALIGNED showed, or lacked, the lane. -/
  seen : Nat := 0
  missed : Nat := 0
  rxGood : Nat := 0
  rxBad : Nat := 0
  rxAligned : Bool := false
  /-- Training and test frames of the lane held while it settles or calibrates: TYPE and payload (R215). -/
  held : List (Nat × Bytes) := []
  deriving DecidableEq, Repr

/-- A link frame as the link layer holds it (R218): type, class, originator, destination and payload. -/
structure LFrame where
  type : Nat
  cls : Nat
  source : Nat
  dest : Nat
  payload : Bytes
  deriving DecidableEq, Repr

/-- LINK_STATE. -/
inductive LinkState where | down | training | up | degraded
  deriving DecidableEq, Repr

/-- A service port (0 to 31), a peer port (32 to 37) or the twin link (38) (R217 to R225). -/
structure Link where
  state : LinkState := .down
  lanes : List (Nat × Lane) := []
  /-- ACTIVE announced in the previous block. -/
  active : Nat := 0
  /-- ACTIVE as the partner announces it. -/
  rxActive : Nat := 0
  partnerChip : Nat := 0xFFFF
  partnerTwin : Nat := 0xFF
  partnerMask : Nat := 0
  trainId : Nat := 0
  lastEcho : Nat := 0
  fast : Bool := false
  /-- The lanes the link may use (R223, R224). -/
  mask : Nat := 0
  upSince : Nat := 0
  /-- A context is open: the partner it was opened with (R222). -/
  context : Option (Nat × Nat) := none
  /-- Class 1 and 2: next SEQ to send, frames unacknowledged with their SEQ, next SEQ expected. -/
  tx1 : Nat := 0
  tx2 : Nat := 0
  unacked1 : List (Nat × LFrame) := []
  unacked2 : List (Nat × LFrame) := []
  rx1 : Nat := 0
  rx2 : Nat := 0
  nak : Nat := 0
  /-- Instant of the last progress of the acknowledgements (R220). -/
  progressAt : Nat := 0
  /-- Class 0 frames waiting, at most 64, and class 1 and 2 frames held (R215, R220). -/
  urgent : List LFrame := []
  heldFrames : List LFrame := []
  trainStart : Nat := 0
  /-- ACTIVE and RX_ALIGNED as the last block headers announced them (R217, R223). -/
  said : Nat × Nat := (0, 0)
  /-- A header failed its HCRC: nothing is received before the next FIRST (R218). -/
  resync : Bool := false
  /-- The partner's SENDER is not the partner record's: the context stays DOWN (R225). -/
  wrong : Bool := false
  deriving DecidableEq, Repr

/-- A probe transceiver (R227, R228). -/
structure Probe where
  port : Option Nat := none
  since : Nat := 0
  /-- Its transmitter and synthesiser (R213 to R215). -/
  tx : Lane := {}
  deriving DecidableEq, Repr

/-- The optics. -/
structure Optics where
  lasers : List (Nat × Laser) := []
  links : List (Nat × Link) := []
  probes : List (Nat × Probe) := []
  /-- Pilot gates open: head and comet (R229). -/
  gates : List (Nat × Nat) := []
  deriving DecidableEq, Repr

/-! ### Chapter 09: partners, discovery and the Mapen handshake -/

/-- PORT_STATE (R247), by code 0 to 6. -/
inductive PortState where
  | dark | probing | training | identified | absent | quarantined | outOfService
  deriving DecidableEq, Repr

/-- A WITHDRAW, VOID_STEP or GOODBYE that waits for its ACK (R238). -/
structure Repeat where
  type : Nat
  seq : Nat
  payload : Bytes
  sends : Nat
  lastAt : Nat
  deriving DecidableEq, Repr

/-- A Mapen frame that waits for the port's transceiver (R234): an ORBIT_SYNC is written as it leaves. -/
structure PFrame where
  type : Nat
  seq : Nat
  echo : Nat
  payload : Bytes
  /-- When it was queued, and whether it repeats a frame sent before (R203, R228, R238). -/
  since : Nat := 0
  again : Bool := false
  deriving DecidableEq, Repr

/-- The Director's record of one core port's partner (R247 to R253). -/
structure Port where
  state : PortState := .dark
  partner : Option Ident := none
  /-- The IDENT accepted in TRAINING, written to the record on identification. -/
  training : Option Ident := none
  since : Nat := 0
  lastChip : Nat := 0xFFFF
  lastLink : Nat := 0xFF
  detachCause : Nat := 0
  detachAt : Nat := 0
  attempt : Nat := 0
  /-- An of R248, and the instant at which the running phase (backoff, slow probe, quarantine) began. -/
  attemptAt : Nat := 0
  phaseAt : Nat := 0
  backoff : Bool := false
  reident : Bool := false
  /-- NONCE of the current attempt, and the NONCEs issued with their instants (R249). -/
  nonce : Option Nat := none
  nonces : List (Nat × Nat) := []
  light : Bool := false
  lightSince : Nat := 0
  everLight : Bool := false
  misses : Nat := 0
  violations : List Nat := []
  crcTimes : List Nat := []
  /-- SEQ of the next Director frame; the frame that awaits an answer: its type, SEQ and instant. -/
  seq : Nat := 0
  awaiting : Option (Nat × Nat × Nat) := none
  helloSent : Bool := false
  /-- The endpoint frames answered in the present exchange, the newest first: type, SEQ and answer (R238, log 98). -/
  answered : List (Nat × Nat × PFrame) := []
  /-- SEQs of Director frames whose reply window ended unanswered (R237). -/
  lapsed : List Nat := []
  lastUnsolicited : Option Nat := none
  holdoff : Nat := 0
  repeats : List Repeat := []
  /-- Frames queued for the port's transceiver (R228). -/
  queue : List PFrame := []
  lastKeepalive : Nat := 0
  deriving DecidableEq, Repr

/-- A step voided recently, for a job (R251). -/
structure VoidRec where
  job : Nat
  step : Nat
  zenith : Nat
  at_ : Nat
  deriving DecidableEq, Repr

/-- STATUS of a neighbour entry (0x2B11). -/
inductive NState where | down | waiting | confirmed | miswired | duplicate
  deriving DecidableEq, Repr

/-- A neighbour on a peer port or the twin link (R256). -/
structure Neighbour where
  chip : Nat := 0xFFFF
  twin : Nat := 0
  port : Nat := 7
  status : NState := .down
  helloAt : Nat := 0
  deriving DecidableEq, Repr

/-- A DISC_STATE entry of a module (Table 9.9). -/
structure DiscEntry where
  chip : Nat
  twin : Nat
  state : Nat
  flags : Nat
  seq : Nat
  mask : Nat
  since : Nat
  id : Nat
  at_ : Nat
  deriving DecidableEq, Repr

/-- Discovery. -/
structure Disc where
  ports : List (Nat × Port) := []
  voided : List VoidRec := []
  neighbours : List (Nat × Neighbour) := []
  entries : List DiscEntry := []
  seq : Nat := 0
  confirmed : Bool := false
  confirmedSince : Nat := 0
  /-- Instant at which a peer port came UP with the position unconfirmed (R252). -/
  unconfirmedSince : Option Nat := none
  twinJoin : Nat := 0
  /-- State, flags and LINK_MASK as last announced (R255). -/
  said : Nat × Nat × Nat := (0, 0, 0)
  deriving DecidableEq, Repr

/-! ### Chapter 10: the collective engine -/

/-- ENGINE_STATE (R262). -/
inductive EState where | off | selftest | ready | fault
  deriving DecidableEq, Repr

/-- COLL_STATE (R271). -/
inductive CollState where | none | planned | loading | ready | active | fault
  deriving DecidableEq, Repr

/-- An activation extent (R284). -/
structure Extent where
  addr : Nat
  len : Nat
  group : Nat
  token : Nat
  chip : Nat
  delivered : Bool := false
  deriving DecidableEq, Repr

/-- A prefetch group in staging (R285): the token of its extents, and the frames read of its first 8 MiB, by the extent's address
(offset, data, poison), once they are read. -/
structure Staging where
  group : Nat
  token : Nat
  due : Bool := true
  frames : List (Nat × List (Nat × Bytes × Bool)) := []
  deriving DecidableEq, Repr

/-- A service frame waiting to leave (R264, R267). -/
structure SFrameOut where
  type : Nat
  format : Nat
  flags : Nat
  gen : Nat
  tag : Nat
  token : Nat
  scale : Nat
  addr : Nat
  group : Nat
  data : Bytes
  /-- The chip to which it goes, where the rules name one (ACT_DELIVER, R267). -/
  chip : Option Nat := none
  deriving DecidableEq, Repr

/-- One job in the collective engine (R269 to R290). -/
structure Coll where
  state : CollState := .none
  stepNow : Nat := 0
  es : Nat := 0
  updated : Nat := 0
  count : Nat := 0
  /-- LAST_NORM as FP64 bits, LAST_CLIP as FP32 bits, LAST_RESULT. -/
  norm : Nat := 0
  clip : Nat := 0
  result : Nat := 0
  skips : Nat := 0
  skipRun : Nat := 0
  gen : Nat := 0
  /-- The LR object as FP32 bits. -/
  lr : Nat := 0
  /-- Granules covered, those of them poisoned, and the granule sums as FP64 bits (R274). -/
  covered : List Nat := []
  poisoned : List Nat := []
  sums : List (Nat × Nat) := []
  /-- Master granules written in LOADING. -/
  loaded : List Nat := []
  /-- The partial formed and not yet answered: value as FP64 bits and flags (R275). -/
  partial_ : Option (Nat × Nat) := none
  /-- A CLIP held: its update is in progress (R280). -/
  held : Option Clip := none
  extents : List Extent := []
  /-- The prefetch group in staging (R285). -/
  staged : Option Staging := none
  /-- The WORK_OUT frames sent with the tokens of ES and of the step before, each with its port: a VOID may ask for them again (R286). -/
  sent : List (Nat × SFrameOut) := []
  /-- Steps for which a VOID came and which ES has not passed (R272). -/
  voided : List Nat := []
  /-- Ports that the working copies of a voided token still follow, after their next STEP_MARK (R286). -/
  owed : List (Nat × Nat) := []
  /-- LR as FP32 bits when the update in progress began (R282). -/
  lrNow : Nat := 0
  /-- STOP waits for the update in progress (R271). -/
  stopping : Bool := false
  deriving DecidableEq, Repr

/-- A leader's collection of partials of one (TAG, STEP, GEN) (R277). -/
structure Norm where
  tag : Nat
  step : Nat
  gen : Nat
  first : Nat
  /-- Shard, FP64 bits of the partial, flags. -/
  parts : List (Nat × Nat × Nat) := []
  restarts : Nat := 0
  /-- The step was voided before a partial of it came (R277). -/
  void : Bool := false
  deriving DecidableEq, Repr

/-- State of a model slot (0x2940:02). -/
inductive MState where | empty | filling | fetching | valid | bad
  deriving DecidableEq, Repr

/-- A model slot (R287). -/
structure Model where
  id : Nat := 0
  source : Nat := 0xFFFF
  sourceSlot : Nat := 0
  base : Nat := 0
  len : Nat := 0
  check : Nat := 0
  state : MState := .empty
  /-- Offsets written, in units of 64 B code words. -/
  written : List Nat := []
  /-- FETCH_REQs outstanding: offset and length, and the next offset to ask for. -/
  asked : List (Nat × Nat) := []
  next : Nat := 0
  deriving DecidableEq, Repr

/-- The collective engine. -/
structure CollEngine where
  state : EState := .off
  jobs : List (Nat × Coll) := []
  norms : List Norm := []
  retained : List Clip := []
  /-- Service ports: outbound queues and last SVC_ERROR instants (R266, R267). -/
  queues : List (Nat × List SFrameOut) := []
  errAt : List (Nat × Nat) := []
  /-- ACT_DELIVER frames whose chip no service port of the job reaches now, each with that chip (R267). -/
  adrift : List (Nat × SFrameOut) := []
  models : List (Nat × Model) := []
  /-- Conversions to FP16 that overflowed (Table 10.5). -/
  saturated : Nat := 0
  deriving DecidableEq, Repr

/-! ### Chapter 11: memory, codes and poison -/

/-- A block in the zero-fill queue of a stack: stack-local page and written code words (R300). -/
structure Fill where
  stack : Nat
  page : Nat
  mask : List Nat
  deriving DecidableEq, Repr

/-- STACK_STATE (0x2810 + s:01). -/
inductive StackState where | absent | off | training | ready | failed
  deriving DecidableEq, Repr

/-- An entry of a correction table (R305): array, address, corrections with their times. -/
structure Corr where
  array : Nat
  addr : Nat
  /-- The instants of the corrections of the last 24 h. -/
  times : List Nat
  /-- Kind 7 has been logged. -/
  logged : Bool := false
  deriving DecidableEq, Repr

/-- The HBM as an addressed store (R292 to R303). A byte of a valid block that is not listed reads 0 (the zero-fill
of R300). `cells` lists the others, keyed `stack * 2^36 + stack-local byte address`, in canonical form: keys strictly
rising and no byte 0. Code words are keyed `stack * 2^30 + word`, where `word = page * 64 + index in the page`. -/
structure Hbm where
  cells : List Host.Cell := []
  /-- Code words that hold the poison code (R296), rising. -/
  poison : List Nat := []
  /-- Valid blocks (pages of 4 KiB), keyed `stack * 2^24 + page` (R299), rising. -/
  valid : List Nat := []
  /-- Remap table: retired page to spare page, keyed `stack * 2^24 + page` (R308). -/
  remap : List (Nat × Nat) := []
  /-- Code words whose cells are in error: how many symbols (R295). -/
  flaws : List (Nat × Nat) := []
  deriving DecidableEq, Repr

/-- What the Director holds of its memories beside the HBM contents. -/
structure Mem where
  stackOf : List (Nat × StackState) := []
  /-- The zero-fill queues of the stacks (R300), oldest first. -/
  fills : List Fill := []
  /-- Retired pages per stack in order (R308). -/
  retired : List (Nat × List Nat) := []
  /-- The RETIRE region (R309): the page pairs of each slot in the order of their writing, slot 2s for A of stack s and 2s + 1 for B.
  A record stands here up to the last byte that is not zero; one that was torn is empty. -/
  retireFlash : List (Nat × List Bytes) := []
  corr : List Corr := []
  /-- The scrubber's next word per array (R303), the start of its lap, and the SRAM words that hold the poison code, keyed
  `array * 2^32 + word`. -/
  scrubAt : List (Nat × Nat) := []
  lapStart : List (Nat × Nat) := []
  sramPoison : List Nat := []
  /-- SRAM words whose cells are in error, keyed as above: how many bits (R296). -/
  sramFlaws : List (Nat × Nat) := []
  /-- Flash pages in error: bits of the worst sector; and those that are to be rewritten at the next write of their region (R312). -/
  flashFlaws : List (FlashPage × Nat) := []
  flashWorn : List FlashPage := []
  /-- Objects of the store SRAM whose copy in LIBRARY has failed its check (R311). -/
  badCopies : List Nat := []
  lapLogged : List Nat := []
  /-- Arrays or stacks a remap reload of which is under way (R302). -/
  reloading : List Nat := []
  /-- SRAM arrays that failed their checker (R307). -/
  failed : List Nat := []
  deriving DecidableEq, Repr

/-! ### Chapter 12: faults, recovery levels and the log -/

/-- An event of class 1 to 4 in the fault manager (R316), with what its log record carries (R335). -/
structure Event where
  code : Nat
  cls : Nat
  scope : Nat
  index : Nat
  time : Nat
  count : Nat := 1
  level : Nat := 0
  /-- Whether the event names a condition that persists (R320). -/
  active : Bool := false
  detail : Bytes := []
  /-- Next step of its handling (R316), and its SEQ once written. -/
  step : Nat := 1
  seq : Nat := 0
  epoch : Nat := 0
  /-- The onset of the fault, where it lies before the event, and the budgets in force at it, in ms: L1 to L5 (R322). -/
  onset : Option Nat := none
  budgets : List Nat := []
  /-- The success of a recovery level, which re-enters the queue (R316). -/
  result : Bool := false
  deriving DecidableEq, Repr

/-- A latched fault (R320). -/
structure Latch where
  seq : Nat
  code : Nat
  cls : Nat
  active : Bool
  scope : Nat
  index : Nat
  /-- The first byte of the event's DETAIL: the condition that event 0x0901 names. -/
  note : Nat := 0
  deriving DecidableEq, Repr

/-- A recovery under way (R321 to R324): its level, scope, onset and the event it serves. -/
structure Recovery where
  level : Nat
  /-- 0 a circuit (north, plane), 1 a job, 2 the Director. -/
  scope : Nat
  index : Nat
  plane : Nat := 0
  epoch : Nat
  onset : Nat
  code : Nat
  cls : Nat
  /-- The budgets in force at the onset, in ms: L1 to L5. -/
  budgets : List Nat
  /-- The detour record that serves an L2 recovery (R327). -/
  record : Option Nat := none
  deriving DecidableEq, Repr

/-- A log record (Table 12.7) without its CRC, which is computed at the read. -/
structure LogRec where
  seq : Nat
  time : Nat
  event : Nat
  cls : Nat
  flags : Nat
  scope : Nat
  level : Nat
  index : Nat
  epoch : Nat
  count : Nat
  detail : Bytes
  deriving DecidableEq, Repr

/-- One of the two logs (R334 to R338). -/
structure Log where
  next : Nat := 1
  reserved : Nat := 0
  /-- Records in the RAM buffer, oldest first, and how many of them are in the page being programmed. -/
  buffer : List LogRec := []
  programming : Nat := 0
  /-- Instant of the first record of the unflushed page. -/
  firstAt : Option Nat := none
  flash : List LogRec := []
  oldest : Nat := 1
  lost : Nat := 0
  /-- Records lost since the last stored record: first, last, and their count, none when unknown. -/
  gap : Option (Nat × Nat × Option Nat) := none
  deriving DecidableEq, Repr

/-- A stall of a job (R325): its onset and the reason of the last held or retracted entry. -/
structure Stall where
  job : Nat
  onset : Nat
  ownReason : Nat
  l3Fired : Bool := false
  /-- L3_BUDGET, L4_BUDGET and L5_BUDGET in force at the onset, in ms. -/
  l3 : Nat := 100
  l4 : Nat := 250
  l5 : Nat := 10000
  deriving DecidableEq, Repr

/-- A restart of a job (R331, R332). -/
structure Restart where
  job : Nat
  onset : Nat
  /-- RESTART_STATE 0 to 4. -/
  state : Nat := 1
  order : Bytes := []
  zr : Nat := 0
  /-- L5_BUDGET in force at the onset, in ms. -/
  l5 : Nat := 10000
  deriving DecidableEq, Repr

/-- The fault manager and the logs. -/
structure Faults where
  queue : List Event := []
  overflow : Option Event := none
  current : Option Event := none
  parked : Option Event := none
  latched : List Latch := []
  recoveries : List Recovery := []
  /-- RECOVERY_EPOCH, and the scope epochs: 0 the Director, 1 + j a job, 1000 + 2 n + plane a circuit (R324). -/
  epoch : Nat := 0
  scopeEpochs : List (Nat × Nat) := []
  pub : Log := {}
  prot : Log := {}
  stalls : List Stall := []
  restarts : List Restart := []
  /-- Detour records whose release is pending, by job (R330). -/
  releases : List (Nat × Nat) := []
  deriving DecidableEq, Repr

/-! ### Chapter 13: the twin -/

/-- Role codes (R354). -/
inductive TRole where | none | syncing | standby | active
  deriving DecidableEq, Repr

/-- A twin state record in arrival (R348). -/
structure Intake where
  cycle : Nat
  frags : Nat
  got : List Nat := []
  parts : List (Nat × Bytes) := []
  deriving DecidableEq, Repr

/-- A change item the twin sent, by kind and index (R349). -/
structure Item where
  kind : Nat
  index : Nat
  version : Nat
  body : Bytes
  deriving DecidableEq, Repr

/-- A change item as this module sends it: its content, its VERSION and the repeats still owed (R349, R350). -/
structure Sent where
  kind : Nat
  index : Nat
  version : Nat
  body : Bytes
  /-- REPEAT of the next sending; 3 when none is owed. -/
  next : Nat := 0
  deriving DecidableEq, Repr

/-- One mirror of a job at the COLL standby or its stream at the holder (R358 to R360). -/
structure Mirror where
  /-- MIRROR_STATE: 0 none, 1 no space, 2 streaming, 3 current. -/
  state : Nat := 0
  /-- Step held complete by bank 0 and bank 1, 0 none, with UPDATE_COUNT and LR. -/
  bank0 : Nat × Nat × Nat := (0, 0, 0)
  bank1 : Nat × Nat × Nat := (0, 0, 0)
  bytes : Nat := 0
  /-- The epoch arriving or leaving, its bank and its bytes so far. -/
  epoch : Nat := 0
  into : Nat := 0
  progress : Nat := 0
  base1 : Nat := 0
  restore : Nat := 0
  restoreStep : Nat := 0
  /-- Where a restore comes from: 0 or 1 an own bank, 2 the twin (R361). -/
  restoreFrom : Nat := 0
  /-- The banks hold the own epochs of this module, received or taken over, and not those at the twin. -/
  own : Bool := false
  /-- Mirror steps flagged and not yet streamed (R359). -/
  due : List Nat := []
  deriving DecidableEq, Repr

/-- The twin machine. -/
structure Twin where
  drive : TRole := .none
  coll : TRole := .none
  twinDrive : TRole := .none
  twinColl : TRole := .none
  /-- Own grant outputs, and the twin's lines as counted (R342, R438). -/
  ownDrive : Bool := false
  ownColl : Bool := false
  lineDrive : Bool := false
  lineColl : Bool := false
  /-- Grants requested of PD0 and not yet asserted, and since when the twin's lines are low. -/
  wantDrive : Bool := false
  wantColl : Bool := false
  driveLowSince : Nat := 0
  collLowSince : Nat := 0
  assertedAt : Nat := 0
  collAssertedAt : Nat := 0
  /-- The twin has dropped the role (R346). -/
  driveDropped : Bool := false
  collDropped : Bool := false
  /-- TWIN_PRESENT_N low, and TWIN_ID (R437). -/
  present : Bool := false
  id : Nat := 0
  heartbeat : Nat := 0
  intake : Option Intake := none
  /-- The newest complete record: cycle, bytes; run of complete and of missing records. -/
  newest : Option (Nat × Bytes) := none
  good : Nat := 0
  missing : Nat := 0
  differ : Nat := 0
  fullPass : Bool := false
  /-- The items that came as refresh items since SYNCING began: a full pass is complete once one of them comes round again (R350). -/
  refreshed : List (Nat × Nat) := []
  items : List Item := []
  /-- The items that this module sends, and where the round of refresh items stands (R350). -/
  ledger : List Sent := []
  refresh : Nat := 0
  /-- Store items by ITEM * 2^32 + INDEX: their versions, and the instants at which unconfirmed ones were sent (R353). -/
  versions : List (Nat × Nat) := []
  unconfirmed : List (Nat × Nat) := []
  staleSet : List Nat := []
  stale : Bool := false
  storeParts : List (Nat × Bytes) := []
  /-- HANDOVER_STATE, and the announced cycle (R355). -/
  handover : Nat := 0
  handoverCycle : Nat := 0
  collHandover : Bool := false
  /-- DRIVE_GRANT was taken and the boards are still to be adopted: since when (R356). -/
  takenAt : Option Nat := none
  standbySince : Nat := 0
  swapDue : Nat := 0
  swapWaiting : Option Nat := none
  selfTestSeen : Nat := 0
  mirrors : List (Nat × Mirror) := []
  healthRun : Bool := false
  healthPassed : Option Nat := none
  /-- Selector: the twin it points at, and the one it moves towards (R22). -/
  selector : Nat := 0
  moving : Option Nat := none
  deriving DecidableEq, Repr

/-! ### Chapter 14: power domains, permits and heat -/

/-- DOMAIN_STATE (0x2100), by code 0 to 5. -/
inductive DState where | off | ramping | on | quiescing | failed | absent
  deriving DecidableEq, Repr

/-- A permit grant or a deferred request (R372, R373). `holder` names the job, slot, domain or round. -/
structure Permit where
  cls : Nat
  amount : Nat
  prio : Prio
  holder : Nat
  /-- End of the lease; 0 in a deferred request. -/
  till : Nat := 0
  order : Nat := 0
  deriving DecidableEq, Repr

/-- THERMAL_LEVEL (R381). -/
inductive Therm where | normal | warn | throttle | shut
  deriving DecidableEq, Repr

/-- Power, permits and heat. -/
structure Power where
  domains : List (Nat × DState) := []
  /-- Domains whose ramp began, with the instant. -/
  rampAt : List (Nat × Nat) := []
  grants : List Permit := []
  deferred : List Permit := []
  nextOrder : Nat := 0
  /-- Domains waiting for a switch-on, and domains still to be switched off in order (R27, R369). -/
  toOff : List Nat := []
  inputPower : Nat := 0
  /-- HBM_BURST is revoked for INPUT_POWER over the limit (R371). -/
  overLimit : Bool := false
  temps : List Int := []
  hbmTemps : List Int := []
  level : Therm := .normal
  levelSince : Nat := 0
  /-- Consecutive samples at or above WARN, THROTTLE, SHUT; below the clearing points (R381). -/
  above : List Nat := [0, 0, 0]
  below : List Nat := [0, 0]
  /-- Instant S of a shutdown in progress (R383), and FAULT entered for it. -/
  shutAt : Option Nat := none
  shutDone : Bool := false
  tripLatched : Bool := false
  coolSince : Option Nat := none
  /-- A start waits until every die is below T_RESUME (R386). -/
  startHeld : Bool := false
  /-- The shutdown to be written to LAST_SHUTDOWN at the next start. -/
  lastShut : Option (Nat × Nat × Nat × Int) := none
  flashGate : Bool := true
  /-- Flash programs still running after S (R384): what each is. -/
  flashOps : List Nat := []
  deriving DecidableEq, Repr

/-! ### Chapter 15: start-up, staging and update -/

/-- START_KIND (R388). -/
inductive StartKind where | cold | warm | thermal | watchdog
  deriving DecidableEq, Repr

/-- UPDATE_STATE (R411), by code 0 to 6. -/
inductive UState where | empty | clearing | receiving | staged | activating | trial | scanning
  deriving DecidableEq, Repr

/-- STATE of the boot record (R395). -/
inductive BootState where | normal | activating | trial | fallenBack
  deriving DecidableEq, Repr

/-- A boot record (R395). -/
structure BootRec where
  state : BootState := .normal
  seq : Nat := 0
  activeId : Bytes := []
  fallbackId : Bytes := []
  trialStarts : Nat := 0
  loader : Nat := 0
  securityMin : Nat := 0
  deriving DecidableEq, Repr

/-- A staging slot that has any programmed page (R403): slot number, INDEX and whether its receipt is valid. -/
structure Slot where
  slot : Nat
  index : Nat
  valid : Bool
  data : Bytes := []
  deriving DecidableEq, Repr

/-- A record of the settings journal: FORMAT, SEQ, its values and its byte strings, and where it stands: the slot, its first page and the
number of its data pages, which its marker page follows (R396, R397). -/
structure SettingsRec where
  format : Nat
  seq : Nat
  nums : List (Nat × Int)
  octs : List (Nat × Bytes)
  slot : Nat := 0
  page : Nat := 0
  pages : Nat := 1
  deriving DecidableEq, Repr

/-- The LIBRARY of a format: jobs with their TAG, PORT_MAP and START_ORBIT, values and byte strings (R394, R409). -/
structure LibraryRec where
  format : Nat
  jobs : List (Nat × Job)
  nums : List (Nat × Int)
  octs : List (Nat × Bytes)
  deriving DecidableEq, Repr

/-- Starting and updating. -/
structure Update where
  kind : StartKind := .cold
  startAt : Nat := 0
  startDone : Option Nat := none
  count : Nat := 0
  boot : BootRec := {}
  /-- The boot record slots A (0) and B (1): the programmed pages, each without the zeros that fill it (R395). -/
  bootFlash : List (Nat × List Bytes) := []
  /-- Region running: 1 ACTIVE, 2 FALLBACK; whether an image was verified (R392). -/
  region : Nat := 1
  verified : Bool := false
  activeManifest : Bytes := []
  fallbackManifest : Bytes := []
  state : UState := .scanning
  result : Nat := 0
  staged : Bytes := []
  receipt : Bool := false
  slots : List Slot := []
  /-- A segment held in RAM until its slot is programmed (R403): INDEX and data. -/
  inRam : Option (Nat × Bytes) := none
  /-- Activation steps done (R406), none when no activation runs. -/
  step : Option Nat := none
  newLoader : Bool := false
  soakAt : Nat := 0
  soakBroken : Bool := false
  windowEnd : Nat := 0
  /-- A watchdog restart is ordered (R408). -/
  watchdog : Option Nat := none
  coldOnInit : Bool := false
  settingsSeq : Nat := 0
  /-- Where the settings record in force stands, and the programmed pages of the journal's slots A (0) and B (1) (R397). -/
  settingsAt : Nat × Nat × Nat := (0, 0, 1)
  settingsUsed : List (Nat × Nat) := []
  /-- What SETTINGS holds committed: object values by key; its FORMAT matches the image. -/
  settings : List (Nat × Int) := []
  pendingSettings : Bool := false
  /-- FoE write open: client, file, its packets' bytes and last instant (R401). -/
  foe : Option (Nat × Nat × Bytes × Nat) := none
  /-- Byte strings of SETTINGS, by key (R396). -/
  settingsOct : List (Nat × Bytes) := []
  /-- FORMAT of the records in SETTINGS and in LIBRARY (R396, R407). -/
  settingsFormat : Nat := 1
  libraryFormat : Nat := 1
  /-- The other settings records that stand in the journal, and LIBRARY records of formats that the image did not read (R397, R409). -/
  otherSettings : List SettingsRec := []
  otherLibraries : List LibraryRec := []
  /-- Jobs whose almanac a start has yet to validate (R398). -/
  toValidate : List Nat := []
  deriving DecidableEq, Repr

/-! ### Chapter 16: the recorder and replay -/

/-- RECORDER_STATE (R424). -/
inductive RState where | off | running | post | frozen | unavailable
  deriving DecidableEq, Repr

/-- A record of the ring (R414): its header and its body. -/
structure Rec where
  type : Nat
  flags : Nat
  cycle : Nat
  timeNs : Nat
  timeFrac : Nat
  slices : Nat
  seq : Nat
  body : Bytes
  /-- Position in the record area. -/
  pos : Nat := 0
  /-- A memory error in the ring damages the record (R425, R429). -/
  damaged : Bool := false
  deriving DecidableEq, Repr

/-- CAPTURE_INFO (R423). -/
structure Capture where
  cycle : Nat
  event : Nat
  cut : Bool
  seq : Nat
  first : Nat
  last : Nat
  bytes : Nat
  deriving DecidableEq, Repr

/-- The recorder and replay. -/
structure Recorder where
  state : RState := .off
  ring : List Rec := []
  seq : Nat := 0
  pos : Nat := 0
  needKey : Bool := true
  /-- The next record follows an adoption (R413). -/
  keyDue : Bool := false
  /-- How far the record area has been written, what earlier rings wrote elsewhere (start and end as Director offsets), and the ring
  offsets of its poisoned code words (R425). -/
  top : Nat := 0
  past : List (Nat × Nat) := []
  bad : List Nat := []
  /-- Axes and heads as the last cycle recorded left them (the base of the next record's EVENTS). -/
  base : List (Nat × Axis) := []
  baseHeads : List (Nat × Head) := []
  baseTunes : List Tune := []
  /-- The pods as the heater loops of a cycle found them. -/
  heatBase : Option (Nat × List (Nat × Pod)) := none
  /-- The first trigger: cycle, event, log SEQ, instant (R422). -/
  trigger : Option (Nat × Nat × Nat × Nat) := none
  capture : Option Capture := none
  /-- IMAGE_HASH of the image that wrote the ring (R425). -/
  image : Bytes := []
  /-- REPLAY_STATE 0 to 4, REPLAY_REPORT, and the loaded capture. -/
  replay : Nat := 0
  report : Bytes := []
  loaded : List Rec := []
  loadedImage : Bytes := []
  loadedParam : Bytes := []
  /-- The byte stream of a capture in arrival, and the offsets of its poisoned words (R426). -/
  stream : Bytes := []
  poisoned : List Nat := []
  diverged : Nat := 0
  replayed : Nat := 0
  /-- Axes, heads and pods under replay, the slices that take part, and the next record. -/
  axes : List (Nat × Axis) := []
  heads : List (Nat × Head) := []
  pods : List (Nat × Pod) := []
  tunes : List Tune := []
  slices : List Nat := []
  next : Nat := 0
  deriving DecidableEq, Repr

/-! ### The whole machine -/

/-- Where a PTP frame goes (Table 4.4): its transport, the multicast address (MAC or IPv4), the Ethertype or the UDP port, and its
domainNumber. -/
structure PtpDest where
  layer2 : Bool
  address : Nat
  port : Nat
  domain : Nat
  deriving DecidableEq, Repr

/-- What the block sends. `State.out` lists them, newest first. -/
inductive Output where
  /-- An SDO response: the bytes of an upload, none for a download. -/
  | response (c : Client) (index sub : Nat) (data : Bytes)
  /-- An SDO abort with its code (Table 2.8). -/
  | abort (c : Client) (index sub code : Nat)
  /-- An SDO information response. -/
  | info (c : Client) (data : Bytes)
  /-- A mailbox error reply (R37). -/
  | mailboxError (c : Client) (code : Nat)
  /-- An FoE answer: error code 0 for an acknowledgement, with the bytes of a read. -/
  | foe (c : Client) (error : Nat) (data : Bytes)
  /-- A CoE emergency (R47, R339). -/
  | emergency (data : Bytes)
  /-- A link frame on the payload words of a link: header, padded payload and CRC word (R218). -/
  | frame (link : Nat) (words : Bytes)
  /-- The header of a lane's next block, as ACTIVE or RX_ALIGNED change (R217, R223). -/
  | header (link lane : Nat) (bytes : Bytes)
  /-- The byte offset of the reserved field for which a manifest or segment is refused (R13). -/
  | reservedField (offset : Nat)
  /-- A received link frame handed to the block of its type. -/
  | delivered (link type cls source dest : Nat) (payload : Bytes) (poison : Bool)
  /-- A training or test frame of one lane of a link (R215): its bytes. -/
  | laneFrame (link lane : Nat) (bytes : Bytes)
  /-- A link frame returned to its block as undelivered (R222, R238). -/
  | undelivered (link type : Nat)
  /-- A Mapen frame sent on a port's probe transceiver: its 64b/66b blocks before the scrambler, each with whether it is a control block
(R234). -/
  | probe (port : Nat) (blocks : List (Bool × Bytes))
  /-- A frame on the pod link of a pod as its code groups (R174, R175): to the pod, or to its chain where the header says ALL, or from
it where its TYPE is an upstream one. -/
  | pod (q : Nat) (groups : List Nat)
  /-- A loopback request to a chain position of a pod link, or its echo, with its code groups (Table 6.7, R177). -/
  | lbk (j position : Nat) (up : Bool) (groups : List Nat)
  /-- A MARK placed on a pod link (R118, R120): its tag, its emission instant in 2^-32 ns and its code groups (Table 6.7). -/
  | mark (j tag at_ : Nat) (groups : List Nat)
  /-- A command or hold frame to a driver board, its 788 bytes (Table 5.4). -/
  | board (b : Nat) (frame : Bytes)
  /-- A sensor frame that a driver board sends, its 1,588 bytes (Table 5.5). -/
  | sensor (b : Nat) (frame : Bytes)
  /-- A cycle marker on a drive link, with its emission instant in 2^-32 ns (R122). -/
  | driveMark (b cycle at_ : Nat)
  /-- A cycle marker on the pod links: HCYC, which is also a heater trigger, or CYC, by its code group (Table 6.7). -/
  | podCycle (cycle : Nat) (group : Nat)
  /-- A PTP frame on a time port: 1 Delay_Req, 2 Pdelay_Req, 3 Pdelay_Resp, with where it goes and two stamps. -/
  | ptp (port kind : Nat) (dest : PtpDest) (a b : Nat)
  /-- An edge of PPS_OUT (R124). -/
  | pps (at_ : Nat)
  /-- The own grant line of the DRIVE or COLL role takes a level (R342). -/
  | grant (coll high : Bool)
  /-- The service selector is driven towards a twin (R22). -/
  | selector (twin : Nat)
  /-- A laser slot's command: light the lasers of the mask, or SAFE. -/
  | laser (s : Nat) (mask : Nat) (safe : Bool)
  /-- A pilot gate's light: the signature block that it sends as it begins and at each control cycle, or none as it ends (R229, R239). -/
  | pilot (head : Nat) (block : Option Nat)
  /-- Bytes returned on the PMBus, with the PEC when one was asked. -/
  | pmbus (data : List Nat)
  /-- The PMBus does not acknowledge. -/
  | pmbusNack
  /-- PD0 is ordered to restart the module (R388): the kind. -/
  | restart (kind : StartKind)
  /-- A power domain's supply is switched. -/
  | supply (d : Nat) (on : Bool)
  /-- A flash operation begins (R384): what is programmed or erased. -/
  | flash (what : Nat)
  /-- A flash page is programmed: its address and its content, without the zeros that fill it (R396). -/
  | page (addr : Nat) (data : Bytes)
  /-- The block answers a permit request: 0 granted, 1 deferred, 2 denied, 3 revoked or ended. -/
  | permit (cls holder answer : Nat)
  deriving DecidableEq, Repr

/-- Everything but the HBM store and the queue of waiting commands. -/
structure Dev where
  module : Module := {}
  net : Net := {}
  dir : Director := {}
  jobs : List (Nat × Job) := []
  circuits : List Circuit := []
  runs : List (Nat × Run) := []
  time : Time := {}
  eng : Engine := {}
  rings : Rings := {}
  arr : Committer := {}
  opt : Optics := {}
  disc : Disc := {}
  coll : CollEngine := {}
  mem : Mem := {}
  faults : Faults := {}
  twin : Twin := {}
  power : Power := {}
  upd : Update := {}
  recr : Recorder := {}
  /-- Number objects of the dictionary that differ from their defaults, keyed `index * 256 + subindex`. -/
  od : List (Nat × Int) := []
  /-- Byte-string and domain objects that differ from their defaults, keyed alike. -/
  ob : List (Nat × Bytes) := []
  /-- What the block has sent, newest first (the model's own field). -/
  out : List Output := []
  /-- How many free values have been drawn (the model's own field). -/
  fresh : Nat := 0
  deriving DecidableEq, Repr

/-- The machine: `Dev`, the HBM store, and the commands that wait, first in first out. -/
structure State where
  dev : Dev := {}
  hbm : Hbm := {}
  pending : List Instr := []
  deriving DecidableEq, Repr

/-- Why a command ends the run with a fault: no rule of the spec gives such a reason, so there is none. An unusual
operand, a misplaced address or a refused request has its answer by the spec's own rules (safe). -/
inductive Fault where
  deriving DecidableEq, Repr

/-- Why a command has no meaning. -/
inductive Refusal where
  /-- Raised by an arm of `exec` whose command has no meaning yet (safe: the run stops). -/
  | notModelled (mnemonic : String)
  deriving DecidableEq, Repr

/-- The machine right after reset, before the first COLD_START: PD0 holds only what a 3.3 V AUX power-on gives it.
Every object reads its default, every table is empty, nothing waits. -/
def State.reset : State := {}

end Sys2Proof.Machine
end

