-- ==== Sys2Proof/Machine/Ops.lean ====
section
/-!
DEFINITION. The named operations that every family of commands shares: time, the object stores, what the block sends,
the tables of the state, and the lift of an operation on `Dev` to the whole machine.
-/

namespace Sys2Proof.Machine
open Sys2Proof

/-! ### The lift -/

/-- A command that changes neither the HBM store nor the queue, as an operation on the machine. -/
def State.onDev (s : State) (f : Dev → Dev) : State := { s with dev := f s.dev }

/-! ### Time -/

/-- Array time in whole nanoseconds (R6). -/
def Dev.now (d : Dev) : Nat := d.time.counter / 2 ^ 32

/-- The cycle index of the present instant (R101). -/
def Dev.cycleNow (d : Dev) : Nat := d.now / Config.cycle

/-- Array time brought at least to an instant: a command that the spec ties to a deadline comes no earlier. -/
def Dev.reach (d : Dev) (t : Nat) : Dev :=
  { d with time := { d.time with counter := max d.time.counter (t * 2 ^ 32) } }

/-- A deadline that a rule gives with "by", "within" or "at the latest" closes after its tick of CK_TIME, 2 ns: what falls on the
tick itself has met it (R451). -/
def Dev.closes (d : Dev) (t : Nat) : Dev := d.reach (t + 2)

/-- TIME_LOCKED: 1 exactly in LOCKED and HOLDOVER (R106). -/
def Dev.timeLocked (d : Dev) : Bool := d.time.state == .locked || d.time.state == .holdover

/-! ### The object stores -/

/-- The value of a number object (its default where nothing else was stored). -/
def Dev.num (d : Dev) (index sub : Nat) : Int :=
  match tfind d.od (objKey index sub) with
  | some v => v
  | none => objDefault index sub

/-- The value of an unsigned object. -/
def Dev.nat (d : Dev) (index sub : Nat) : Nat := (d.num index sub).toNat

/-- Whether a BOOL object reads 1. -/
def Dev.flag (d : Dev) (index sub : Nat) : Bool := d.num index sub != 0

/-- A number object takes a value. -/
def Dev.setNum (d : Dev) (index sub : Nat) (v : Int) : Dev := { d with od := tset d.od (objKey index sub) v }

/-- A BOOL object takes a value. -/
def Dev.setFlag (d : Dev) (index sub : Nat) (b : Bool) : Dev := d.setNum index sub (b2n b)

/-- A counter of 32 bits advances; it wraps at 2^32. -/
def Dev.bump (d : Dev) (index sub : Nat) (n : Nat := 1) : Dev :=
  d.setNum index sub (((d.nat index sub + n) % 2 ^ 32 : Nat) : Int)

/-- The content of a byte-string or DOMAIN object; empty where nothing was stored. -/
def Dev.oct (d : Dev) (index sub : Nat) : Bytes := tget [] d.ob (objKey index sub)

/-- A byte-string or DOMAIN object takes a content. -/
def Dev.setOct (d : Dev) (index sub : Nat) (b : Bytes) : Dev := { d with ob := tset d.ob (objKey index sub) b }

/-! ### What the block sends, and free values -/

/-- Send something. -/
def Dev.emit (d : Dev) (o : Output) : Dev := { d with out := o :: d.out }

/-- Send several things, the first of the list first. -/
def Dev.emits (d : Dev) (l : List Output) : Dev := { d with out := l.reverse ++ d.out }

/-- `n` fresh random bytes (R54): free values. -/
def Dev.randomBytes (d : Dev) (n : Nat) : Bytes := (upto n).map (fun k => Config.randomByte (d.fresh + k))

/-- `n` free values have been drawn. -/
def Dev.drawn (d : Dev) (n : Nat) : Dev := { d with fresh := d.fresh + n }

/-! ### Identity -/

/-- The chip number from the straps (R10). -/
def Dev.chip (d : Dev) : Nat := 0xF000 + d.module.straps % 64

/-- The number of the chip's position, 0 to 63: its chip number less 0xF000 (R10). -/
def Dev.pos (d : Dev) : Nat := d.module.straps % 64

/-- TWIN_ID: STRAP_TWIN (R366). -/
def Dev.twinId (d : Dev) : Nat := d.module.straps / 64 % 2

/-- Whether this is an LD-512C: an LD-512S takes no collective work and never asserts COLL_GRANT (R2, R5). -/
def Dev.isC (d : Dev) : Bool := d.module.variant == .c

/-- The number of HBM stacks of the variant (R1). -/
def Dev.stackCount (d : Dev) : Nat := if d.isC then 8 else 2

/-- IMAGE_HASH: the SHA-384 of the running image's manifest (0x2000:05); zero where no image was verified. -/
def Dev.imageHash (d : Dev) : Bytes :=
  let m := if d.upd.region = 1 then d.upd.activeManifest else d.upd.fallbackManifest
  if m.isEmpty then zeros 48 else sha384 m

/-! ### Table access -/

/-- A job of the table. -/
def Dev.job (d : Dev) (j : Nat) : Job := tget {} d.jobs j

/-- A job of the table changes. -/
def Dev.modJob (d : Dev) (j : Nat) (f : Job → Job) : Dev := { d with jobs := tmod {} d.jobs j f }

/-- The run of a job's almanac. -/
def Dev.run (d : Dev) (j : Nat) : Run := tget {} d.runs j

/-- The run of a job's almanac changes. -/
def Dev.modRun (d : Dev) (j : Nat) (f : Run → Run) : Dev := { d with runs := tmod {} d.runs j f }

/-- An axis of the control engine. -/
def Dev.axis (d : Dev) (a : Nat) : Axis := tget {} d.eng.axes a

/-- An axis of the control engine changes. -/
def Dev.modAxis (d : Dev) (a : Nat) (f : Axis → Axis) : Dev :=
  { d with eng := { d.eng with axes := tmod {} d.eng.axes a f } }

/-- A head. -/
def Dev.head (d : Dev) (h : Nat) : Head := tget {} d.eng.heads h

/-- A head changes. -/
def Dev.modHead (d : Dev) (h : Nat) (f : Head → Head) : Dev :=
  { d with eng := { d.eng with heads := tmod {} d.eng.heads h f } }

/-- A driver board. -/
def Dev.board (d : Dev) (b : Nat) : Board := tget {} d.eng.boards b

/-- A driver board changes. -/
def Dev.modBoard (d : Dev) (b : Nat) (f : Board → Board) : Dev :=
  { d with eng := { d.eng with boards := tmod {} d.eng.boards b f } }

/-- What the Director holds for a port's ring bank. -/
def Dev.bank (d : Dev) (p : Nat) : Bankport := tget {} d.rings.ports p

/-- A port's ring bank changes. -/
def Dev.modBank (d : Dev) (p : Nat) (f : Bankport → Bankport) : Dev :=
  { d with rings := { d.rings with ports := tmod {} d.rings.ports p f } }

/-- A pod. -/
def Dev.podAt (d : Dev) (q : Nat) : Pod := tget {} d.rings.pods q

/-- A pod changes. -/
def Dev.modPod (d : Dev) (q : Nat) (f : Pod → Pod) : Dev :=
  { d with rings := { d.rings with pods := tmod {} d.rings.pods q f } }

/-- A pod link. -/
def Dev.podLink (d : Dev) (j : Nat) : PodLink := tget {} d.rings.links j

/-- A pod link changes. -/
def Dev.modPodLink (d : Dev) (j : Nat) (f : PodLink → PodLink) : Dev :=
  { d with rings := { d.rings with links := tmod {} d.rings.links j f } }

/-- The commit record of a job. -/
def Dev.commit (d : Dev) (j : Nat) : Commit := tget {} d.arr.commits j

/-- The commit record of a job changes. -/
def Dev.modCommit (d : Dev) (j : Nat) (f : Commit → Commit) : Dev :=
  { d with arr := { d.arr with commits := tmod {} d.arr.commits j f } }

/-- A laser slot. -/
def Dev.laser (d : Dev) (s : Nat) : Laser := tget {} d.opt.lasers s

/-- A laser slot changes. -/
def Dev.modLaser (d : Dev) (s : Nat) (f : Laser → Laser) : Dev :=
  { d with opt := { d.opt with lasers := tmod {} d.opt.lasers s f } }

/-- A link: service ports 0 to 31, peer ports 32 to 37, the twin link 38. -/
def Dev.link (d : Dev) (l : Nat) : Link := tget {} d.opt.links l

/-- A link changes. -/
def Dev.modLink (d : Dev) (l : Nat) (f : Link → Link) : Dev :=
  { d with opt := { d.opt with links := tmod {} d.opt.links l f } }

/-- A lane of a link. -/
def Dev.lane (d : Dev) (l k : Nat) : Lane := tget {} (d.link l).lanes k

/-- A lane of a link changes. -/
def Dev.modLane (d : Dev) (l k : Nat) (f : Lane → Lane) : Dev :=
  d.modLink l (fun x => { x with lanes := tmod {} x.lanes k f })

/-- A core port's partner record. -/
def Dev.port (d : Dev) (p : Nat) : Port := tget {} d.disc.ports p

/-- A core port's partner record changes. -/
def Dev.modPort (d : Dev) (p : Nat) (f : Port → Port) : Dev :=
  { d with disc := { d.disc with ports := tmod {} d.disc.ports p f } }

/-- A neighbour: peer ports 0 to 5, the twin link 6. -/
def Dev.neighbour (d : Dev) (i : Nat) : Neighbour := tget {} d.disc.neighbours i

/-- A neighbour changes. -/
def Dev.modNeighbour (d : Dev) (i : Nat) (f : Neighbour → Neighbour) : Dev :=
  { d with disc := { d.disc with neighbours := tmod {} d.disc.neighbours i f } }

/-- A job in the collective engine. -/
def Dev.engJob (d : Dev) (j : Nat) : Coll := tget {} d.coll.jobs j

/-- A job in the collective engine changes. -/
def Dev.modEngJob (d : Dev) (j : Nat) (f : Coll → Coll) : Dev :=
  { d with coll := { d.coll with jobs := tmod {} d.coll.jobs j f } }

/-- A model slot. -/
def Dev.model (d : Dev) (m : Nat) : Model := tget {} d.coll.models m

/-- A model slot changes. -/
def Dev.modModel (d : Dev) (m : Nat) (f : Model → Model) : Dev :=
  { d with coll := { d.coll with models := tmod {} d.coll.models m f } }

/-- A mirror of a job. -/
def Dev.mirror (d : Dev) (j : Nat) : Mirror := tget {} d.twin.mirrors j

/-- A mirror of a job changes. -/
def Dev.modMirror (d : Dev) (j : Nat) (f : Mirror → Mirror) : Dev :=
  { d with twin := { d.twin with mirrors := tmod {} d.twin.mirrors j f } }

/-- The state of a power domain (Table 1.7); PD0 is on while 3.3 V AUX is present. -/
def Dev.domain (d : Dev) (k : Nat) : DState :=
  if k = 0 then (if d.module.aux then .on else .off) else tget .off d.power.domains k

/-- A power domain takes a state. -/
def Dev.setDomain (d : Dev) (k : Nat) (x : DState) : Dev :=
  { d with power := { d.power with domains := tset d.power.domains k x } }

/-- Whether a power domain is on. -/
def Dev.isOn (d : Dev) (k : Nat) : Bool := d.domain k == .on

/-- PTP_STATUS as it reads and as frames carry it: a root whose PD4 is off is in PTP holdover (R21). -/
def Dev.ptpStatus (d : Dev) : Nat := if d.time.isRoot && !d.isOn 4 then 1 else d.nat 0x2200 0x0E

/-! ### Names of parts (R9) -/

/-- The pod of a port. -/
def podOf (p : Nat) : Nat := p / 16

/-- The head of a port on a plane. -/
def headOf (p plane : Nat) : Nat := p * 2 + plane

/-- The axis of a head: 0 for x, 1 for y. -/
def axisOf (h xy : Nat) : Nat := h * 2 + xy

/-- The port of a head. -/
def portOfHead (h : Nat) : Nat := h / 2

/-- The board of a head. -/
def boardOfHead (h : Nat) : Nat := h % 2 * 8 + h / 2 / 128

/-- The global port index of a south port. -/
def southPort (s : Nat) : Nat := 512 + s

/-- The job that owns a port, if any (R64). -/
def Dev.owner (d : Dev) (p : Nat) : Option Nat :=
  ((d.jobs.filter (fun e => e.2.ports.testBit p)).map Prod.fst).head?

/-! ### Codes of the tables -/

/-- STATE of Table 2.9. -/
def DirState.code : DirState → Nat
  | .boot => 0 | .selftest => 1 | .standby => 2 | .armed => 3 | .serving => 4 | .hold => 5 | .maintenance => 6
  | .replay => 7 | .fault => 8

/-- STATE_CAUSE (Table 2.14). -/
def Cause.code : Cause → Nat
  | .command => 0 | .startUp => 1 | .fault => 2 | .timeLoss => 3 | .thermal => 4 | .twin => 5

/-- JOB_STATE (Table 2.14). -/
def JobState.code : JobState → Nat
  | .empty => 0 | .defined => 1 | .loaded => 2 | .running => 3 | .stopped => 4 | .restarting => 5

/-- The codes of Table 3.2. -/
def CState.code : CState → Nat
  | .none => 0 | .presteer => 1 | .ready => 2 | .live => 3 | .degraded => 4 | .lost => 5

/-- The role codes of R54. -/
def Role.code : Role → Nat
  | .observer => 1 | .operator => 2 | .planner => 3 | .maintainer => 4

/-- The role of a code (R54). -/
def Role.ofCode : Nat → Option Role
  | 1 => some .observer | 2 => some .operator | 3 => some .planner | 4 => some .maintainer | _ => none

/-- Whether the Director is in one of some states. -/
def Dev.inState (d : Dev) (l : List DirState) : Bool := l.contains d.dir.state

/-- Whether a job is in one of some states. -/
def Dev.jobIn (d : Dev) (j : Nat) (l : List JobState) : Bool := l.contains (d.job j).state

/-! ### Circuits (R66, R67) -/

/-- Whether a circuit is in force: LIVE, DEGRADED or LOST (R67). -/
def Circuit.inForce (c : Circuit) : Bool := c.state == .live || c.state == .degraded || c.state == .lost

/-- Whether a port is an end of a circuit. -/
def Circuit.hasPort (c : Circuit) (p : Nat) : Bool := c.north == p || southPort c.south == p

/-- The circuits in force that have an end at a port. -/
def Dev.forceAt (d : Dev) (p : Nat) : List Circuit := d.circuits.filter (fun c => c.inForce && c.hasPort p)

/-- The circuit of a north port on a plane. -/
def Dev.circuitOf (d : Dev) (north plane : Nat) : Option Circuit :=
  d.circuits.find? (fun c => c.north == north && c.plane == plane)

/-- The circuit that has an end at a port on a plane. -/
def Dev.circuitAt (d : Dev) (p plane : Nat) : Option Circuit :=
  d.circuits.find? (fun c => c.plane == plane && c.hasPort p)

/-- Every circuit that meets a condition changes. -/
def Dev.modCircuits (d : Dev) (sel : Circuit → Bool) (f : Circuit → Circuit) : Dev :=
  { d with circuits := d.circuits.map (fun c => if sel c then f c else c) }

/-- The circuits that meet a condition go to NONE. -/
def Dev.endCircuits (d : Dev) (sel : Circuit → Bool) : Dev :=
  { d with circuits := d.circuits.filter (fun c => !sel c) }

/-- The circuit of a comet or a flip is there, replacing what either of its ports had on its plane: a port takes part in at most
one circuit on each plane (R66). -/
def Dev.putCircuit (d : Dev) (c : Circuit) : Dev :=
  { d with circuits := d.circuits.filter (fun x => !(x.plane == c.plane && (x.north == c.north || x.south == c.south))) ++ [c] }

/-! ### The HBM store -/

/-- The byte that an address reads; 0 where none is listed (R299). -/
def cellGet : List Host.Cell → Nat → Byte
  | [], _ => 0
  | (k, v) :: t, a => if k = a then v else cellGet t a

/-- The store with a byte written, in canonical form: a byte 0 is not listed. -/
def cellSet : List Host.Cell → Nat → Byte → List Host.Cell
  | [], a, b => if b = 0 then [] else [(a, b)]
  | (k, v) :: t, a, b =>
    if a < k then (if b = 0 then (k, v) :: t else (a, b) :: (k, v) :: t)
    else if k = a then (if b = 0 then t else (a, b) :: t)
    else (k, v) :: cellSet t a b

/-- The store with a string written from an address on. -/
def cellWrite : List Host.Cell → Nat → Bytes → List Host.Cell
  | m, _, [] => m
  | m, a, b :: t => cellWrite (cellSet m a b) (a + 1) t

/-- `n` bytes from an address. -/
def cellRead (m : List Host.Cell) (a : Nat) : Nat → Bytes
  | 0 => []
  | n + 1 => cellGet m a :: cellRead m (a + 1) n

/-- The store without the bytes of `n` addresses from `a` (they read 0 again). -/
def cellDrop (m : List Host.Cell) (a n : Nat) : List Host.Cell := m.filter (fun c => c.1 < a || a + n ≤ c.1)

/-- The canonical form of the store: addresses strictly rise and no listed byte is 0. -/
def cellsWf : List Host.Cell → Bool
  | [] => true
  | [c] => c.2 != 0
  | c :: e :: t => c.2 != 0 && decide (c.1 < e.1) && cellsWf (e :: t)

/-- The canonical form of the HBM store. -/
def Memory.wf (h : Hbm) : Bool := cellsWf h.cells

/-- An operation on `Dev` and the HBM store, as an operation on the machine. -/
def State.onMem (s : State) (f : Dev → Hbm → Dev × Hbm) : State :=
  { s with dev := (f s.dev s.hbm).1, hbm := (f s.dev s.hbm).2 }

/-- Whether this Director holds a grant: it asserts its line (R342). -/
def Dev.holdsDrive (d : Dev) : Bool := d.twin.ownDrive

/-! ### Placement in the HBM, and its zero-fill queues (R293, R294, R300) -/

/-- The key of a stack-local byte. -/
def byteKey (s a : Nat) : Nat := s * 2 ^ 36 + a
/-- The key of a stack-local code word. -/
def wordKey (s w : Nat) : Nat := s * 2 ^ 30 + w
/-- The key of a stack-local page. -/
def pageKey (s p : Nat) : Nat := s * 2 ^ 24 + p

/-- The stack-local pages of a stack, spare pool included (R294). -/
def stackPages : Nat := 12582912
/-- The first page of the spare pool. -/
def sparePage : Nat := 12578816


/-- The bytes of one half. -/
def halfSize : Nat := 0x3000000000

/-- Stack and stack-local page of the page that holds a Director offset. -/
def Dev.placePage (d : Dev) (off : Nat) : Nat × Nat :=
  if d.isC then (4 * (off / halfSize) + off % halfSize / 4096 % 4, off % halfSize / 4096 / 4)
  else (off / 4096 % 2, off / 4096 / 2)

/-- The oldest block of a stack's zero-fill queue has been filled. -/
def fillOldest (s : Nat) : List Fill → List Fill
  | [] => []
  | f :: t => if f.stack = s then t else f :: fillOldest s t

/-- How many blocks of a stack wait in the zero-fill queue. -/
def Dev.fillDepth (d : Dev) (s : Nat) : Nat := (d.mem.fills.filter (fun f => f.stack == s)).length

/-- Blocks that became valid join the queues of their stacks; where 256 wait already, the filler frees the oldest first. FILL_PEAK
follows the depth (R300). -/
def Dev.queueBlocks (d : Dev) (l : List Fill) : Dev :=
  (l.map (·.stack)).eraseDups.foldl (fun d s =>
    let all := (d.mem.fills ++ l).filter (fun f => f.stack == s)
    let depth := min 256 all.length
    let d := { d with mem := { d.mem with fills := d.mem.fills.filter (fun f => f.stack != s) ++ all.drop (all.length - 256) } }
    if d.nat (0x2810 + s) 0x0B < depth then d.setNum (0x2810 + s) 0x0B (depth : Nat) else d) d

/-- Code words of a block have been written: where the block waits to be filled, the filler leaves them alone (R300). -/
def Dev.maskWords (d : Dev) (s p : Nat) (ws : List Nat) : Dev :=
  { d with mem := { d.mem with
      fills := d.mem.fills.map (fun f => if f.stack = s && f.page = p then { f with mask := ws.foldl sinsert f.mask } else f) } }

/-- The blocks of a list leave the queues. -/
def Dev.unqueue (d : Dev) (gone : Fill → Bool) : Dev := { d with mem := { d.mem with fills := d.mem.fills.filter (fun f => !gone f) } }

/-! ### The store SRAM (R311) -/

/-- Whether a word of the store SRAM backs an object. -/
def backs (key w : Nat) : Bool := decide (w / 2 ^ 32 = 8) && decide (Config.storeBacks (w % 2 ^ 32) = key)

/-- Whether a word of the store SRAM that backs an object reads poisoned: it holds the poison code, or an error of more than one bit
(R296). -/
def Dev.storePoisoned (d : Dev) (key : Nat) : Bool :=
  d.mem.sramPoison.any (backs key) || d.mem.sramFlaws.any (fun e => backs key e.1 && decide (2 ≤ e.2))

/-- The words that back an object have been written: clean (R310). -/
def Dev.cleanStore (d : Dev) (key : Nat) : Dev :=
  { d with mem := { d.mem with
      sramPoison := d.mem.sramPoison.filter (fun w => !backs key w)
      sramFlaws := d.mem.sramFlaws.filter (fun e => !backs key e.1)
      badCopies := d.mem.badCopies.filter (· != key) } }

end Sys2Proof.Machine
end

