-- ==== Sys2Proof/Machine/Clock.lean ====
section
/-!
DEFINITION. One tick of CK_TIME (R98): what an empty queue does.
-/

namespace Sys2Proof.Machine
open Sys2Proof

/-- While the counter runs, Array time advances by INCREMENT at each tick of CK_TIME (R98, Table 4.1). -/
def Dev.tick (d : Dev) : Dev :=
  if d.isOn 3 then { d with time := { d.time with counter := (d.time.counter + d.time.increment) % 2 ^ 96 } } else d

end Sys2Proof.Machine
end

