-- ==== Sys2Proof/Machine/Float.lean ====
section
/-!
DEFINITION. IEEE 754 arithmetic on bit patterns (R268): exact values, one rounding to nearest with ties to even,
subnormals kept. The same rounding serves binary64 of the management cluster (R137, R147), FP32, FP16, BF16 and the
FP8 formats of the collective engine.
-/

namespace Sys2Proof.Machine

/-- A binary format: exponent bits and fraction bits. -/
structure Fmt where
  eb : Nat
  fb : Nat
  deriving DecidableEq, Repr

/-- binary64. -/
def f64 : Fmt := ⟨11, 52⟩
/-- binary32. -/
def f32 : Fmt := ⟨8, 23⟩
/-- binary16. -/
def f16 : Fmt := ⟨5, 10⟩
/-- BF16. -/
def bf16 : Fmt := ⟨8, 7⟩

/-- The exponent bias. -/
def Fmt.bias (f : Fmt) : Nat := 2 ^ (f.eb - 1) - 1
/-- The exponent of the least subnormal unit. -/
def Fmt.emin (f : Fmt) : Int := 1 - (f.bias : Int) - (f.fb : Int)
/-- The sign bit. -/
def Fmt.signBit (f : Fmt) : Nat := 2 ^ (f.eb + f.fb)
/-- The bits of positive infinity. -/
def Fmt.inf (f : Fmt) : Nat := (2 ^ f.eb - 1) * 2 ^ f.fb
/-- The bits of the quiet NaN. -/
def Fmt.nan (f : Fmt) : Nat := f.inf + 2 ^ (f.fb - 1)

/-- A number of a format: not a number, an infinity, or `(-1)^neg * m * 2^e`. -/
inductive Fl where
  | nan
  | inf (neg : Bool)
  | fin (neg : Bool) (m : Nat) (e : Int)
  deriving DecidableEq, Repr

/-- The number that bits spell. -/
def Fmt.decode (f : Fmt) (w : Nat) : Fl :=
  let neg := (w / f.signBit) % 2 == 1
  let e := (w / 2 ^ f.fb) % 2 ^ f.eb
  let m := w % 2 ^ f.fb
  if e = 2 ^ f.eb - 1 then (if m = 0 then .inf neg else .nan)
  else if e = 0 then .fin neg m f.emin
  else .fin neg (m + 2 ^ f.fb) (f.emin + (e : Int) - 1)

/-- `m / 2^s` rounded to nearest, ties to even. -/
def rneShift (m s : Nat) : Nat :=
  let q := m / 2 ^ s
  let r := m % 2 ^ s
  if 2 * r < 2 ^ s || (2 * r = 2 ^ s && q % 2 = 0) then q else q + 1

/-- The bits of `(-1)^neg * m * 2^e`, rounded once; too large a value is an infinity. -/
def Fmt.encodeFin (f : Fmt) (neg : Bool) (m : Nat) (e : Int) : Nat :=
  let s := if neg then f.signBit else 0
  if m = 0 then s
  else
    let len := Nat.log2 m + 1
    let drop : Int := max ((len : Int) - (f.fb + 1 : Nat)) (f.emin - e)
    let q := if 0 < drop then rneShift m drop.toNat else m * 2 ^ (-drop).toNat
    let e' : Int := e + drop
    -- q has at most fb + 2 bits; a carry to fb + 2 bits is a power of two
    let bits : Int := if q < 2 ^ f.fb then (q : Int) else (e' - f.emin) * 2 ^ f.fb + (q : Int)
    if (f.inf : Int) ≤ bits then s + f.inf else s + bits.toNat

/-- The bits of a number in a format. -/
def Fmt.encode (f : Fmt) : Fl → Nat
  | .nan => f.nan
  | .inf neg => (if neg then f.signBit else 0) + f.inf
  | .fin neg m e => f.encodeFin neg m e

/-- The exact integer that a finite number is at a common exponent. -/
def alignTo (neg : Bool) (m : Nat) (e lo : Int) : Int :=
  let v : Int := (m * 2 ^ (e - lo).toNat : Nat)
  if neg then -v else v

/-- Exact sum. -/
def Fl.add : Fl → Fl → Fl
  | .nan, _ => .nan
  | _, .nan => .nan
  | .inf a, .inf b => if a == b then .inf a else .nan
  | .inf a, _ => .inf a
  | _, .inf b => .inf b
  | .fin na ma ea, .fin nb mb eb =>
    let lo := min ea eb
    let v := alignTo na ma ea lo + alignTo nb mb eb lo
    if v = 0 then .fin (na && nb) 0 lo else .fin (v < 0) v.natAbs lo

/-- The opposite. -/
def Fl.neg : Fl → Fl
  | .nan => .nan
  | .inf a => .inf (!a)
  | .fin a m e => .fin (!a) m e

/-- Exact product. -/
def Fl.mul : Fl → Fl → Fl
  | .nan, _ => .nan
  | _, .nan => .nan
  | .inf a, .inf b => .inf (a != b)
  | .inf a, .fin b m _ => if m = 0 then .nan else .inf (a != b)
  | .fin a m _, .inf b => if m = 0 then .nan else .inf (a != b)
  | .fin a ma ea, .fin b mb eb => .fin (a != b) (ma * mb) (ea + eb)

/-- Quotient with enough bits and a sticky lowest bit, so that one rounding of it is the rounding of the exact one. -/
def Fl.div : Fl → Fl → Fl
  | .nan, _ => .nan
  | _, .nan => .nan
  | .inf _, .inf _ => .nan
  | .inf a, .fin b _ _ => .inf (a != b)
  | .fin a _ e, .inf b => .fin (a != b) 0 e
  | .fin a ma ea, .fin b mb eb =>
    if mb = 0 then (if ma = 0 then .nan else .inf (a != b))
    else
      let k : Nat := 130
      let q := ma * 2 ^ k / mb
      let r := ma * 2 ^ k % mb
      .fin (a != b) (2 * q + (if r = 0 then 0 else 1)) (ea - eb - (k : Int) - 1)

/-- Integer square root, bit by bit: `n` bits of root from the top. -/
def isqrtBits (m : Nat) : Nat → Nat → Nat
  | 0, r => r
  | n + 1, r => let t := r + 2 ^ n; isqrtBits m n (if t * t ≤ m then t else r)

/-- Integer cube root, bit by bit. -/
def icbrtBits (m : Nat) : Nat → Nat → Nat
  | 0, r => r
  | n + 1, r => let t := r + 2 ^ n; icbrtBits m n (if t * t * t ≤ m then t else r)

/-- Square root with a sticky lowest bit. -/
def Fl.sqrt : Fl → Fl
  | .nan => .nan
  | .inf neg => if neg then .nan else .inf false
  | .fin neg m e =>
    if m = 0 then .fin neg 0 e
    else if neg then .nan
    else
      let k : Nat := 140 + (if e % 2 = 0 then 0 else 1)
      let v := m * 2 ^ k
      let r := isqrtBits v (Nat.log2 v / 2 + 1) 0
      .fin false (2 * r + (if r * r = v then 0 else 1)) ((e - (k : Int)) / 2 - 1)

/-- Cube root with a sticky lowest bit. -/
def Fl.cbrt : Fl → Fl
  | .fin neg m e =>
    if m = 0 then .fin neg 0 e
    else
      let k : Nat := 210 + (e % 3).toNat
      let v := m * 2 ^ k
      let r := icbrtBits v (Nat.log2 v / 3 + 1) 0
      .fin neg (2 * r + (if r * r * r = v then 0 else 1)) ((e - (k : Int)) / 3 - 1)
  | x => x

/-- Whether one number is less than another (false where one is NaN). -/
def Fl.lt : Fl → Fl → Bool
  | .nan, _ => false
  | _, .nan => false
  | .inf a, .inf b => a && !b
  | .inf a, .fin _ _ _ => a
  | .fin _ _ _, .inf b => !b
  | .fin na ma ea, .fin nb mb eb => let lo := min ea eb; decide (alignTo na ma ea lo < alignTo nb mb eb lo)

/-- Whether a number is NaN or an infinity. -/
def Fl.nonFinite : Fl → Bool
  | .fin _ _ _ => false
  | _ => true

/-- The least integer not below a finite number; 0 for the others. -/
def Fl.ceil : Fl → Int
  | .fin neg m e =>
    let v : Int := if neg then -(m : Int) else m
    if 0 ≤ e then v * 2 ^ e.toNat else -((-v) / 2 ^ (-e).toNat)
  | _ => 0

/-- A finite number times 2^k, rounded to the nearest integer, halves away from zero. -/
def Fl.nearest (x : Fl) (k : Nat) : Int :=
  match x with
  | .fin neg m e =>
    let e := e + k
    let v : Nat := if 0 ≤ e then m * 2 ^ e.toNat else (2 * m + 2 ^ (-e).toNat) / (2 * 2 ^ (-e).toNat)
    if neg then -(v : Int) else v
  | _ => 0

/-- Round a number into a format and back: one operation's result. -/
def Fmt.round (f : Fmt) (x : Fl) : Fl := f.decode (f.encode x)

/-- A sum in a format, from bits to bits. -/
def Fmt.add (f : Fmt) (a b : Nat) : Nat := f.encode ((f.decode a).add (f.decode b))
/-- A difference in a format. -/
def Fmt.sub (f : Fmt) (a b : Nat) : Nat := f.encode ((f.decode a).add (f.decode b).neg)
/-- A product in a format. -/
def Fmt.mul (f : Fmt) (a b : Nat) : Nat := f.encode ((f.decode a).mul (f.decode b))
/-- A quotient in a format. -/
def Fmt.div (f : Fmt) (a b : Nat) : Nat := f.encode ((f.decode a).div (f.decode b))
/-- A square root in a format. -/
def Fmt.sqrt (f : Fmt) (a : Nat) : Nat := f.encode (f.decode a).sqrt
/-- A conversion between formats: exact when it widens, one rounding when it narrows. -/
def Fmt.to (f g : Fmt) (a : Nat) : Nat := g.encode (f.decode a)

/-- An integer as a number. -/
def Fl.ofInt (x : Int) : Fl := .fin (x < 0) x.natAbs 0

/-- The binary64 value of π. -/
def pi64 : Fl := f64.decode 0x400921FB54442D18

/-! ### Numbers of the management cluster: every operation rounded to binary64 -/

/-- A binary64 sum. -/
def Fl.add64 (a b : Fl) : Fl := f64.round (a.add b)
/-- A binary64 difference. -/
def Fl.sub64 (a b : Fl) : Fl := f64.round (a.add b.neg)
/-- A binary64 product. -/
def Fl.mul64 (a b : Fl) : Fl := f64.round (a.mul b)
/-- A binary64 quotient. -/
def Fl.div64 (a b : Fl) : Fl := f64.round (a.div b)
/-- A binary64 square root. -/
def Fl.sqrt64 (a : Fl) : Fl := f64.round a.sqrt
/-- A binary64 cube root. -/
def Fl.cbrt64 (a : Fl) : Fl := f64.round a.cbrt

end Sys2Proof.Machine
end

