-- ==== Sys2Proof/Machine/Ring.lean ====
section
/-!
DEFINITION. The recorder's ring (R413, R414, R419 to R424): records and their places, triggers, the capture and the
states. What a cycle record holds is in Machine/Recorder.lean.
-/

namespace Sys2Proof.Machine
open Sys2Proof

/-- RECORDER_STATE (R424). -/
def RState.code : RState → Nat
  | .off => 0 | .running => 1 | .post => 2 | .frozen => 3 | .unavailable => 4

/-- LENGTH of a record: header and body, padded to 64 bytes (R414). -/
def Rec.len (r : Rec) : Nat := (48 + r.body.length + 63) / 64 * 64

/-- Where the record area begins in the ring, behind the header and the parameter area (R420). -/
def recordsAt : Nat := 0x410000

/-- The bytes of the record area (R420). -/
def Dev.recArea (d : Dev) : Nat := d.nat 0x2701 2 - recordsAt

/-- A record takes the next SEQ and the next place; what it overwrites leaves the ring. -/
def Recorder.place (r : Recorder) (x : Rec) : Recorder :=
  let hit := fun (o : Rec) => r.pos < o.pos + o.len && o.pos < r.pos + x.len
  { r with
    ring := r.ring.filter (fun o => !hit o) ++ [{ x with seq := r.seq, pos := r.pos }]
    seq := r.seq + 1
    pos := r.pos + x.len
    top := max r.top (r.pos + x.len)
    bad := r.bad.filter (fun o => !(recordsAt + r.pos ≤ o && o < recordsAt + r.pos + x.len)) }

/-- A record follows the last one, or starts at the first place behind a WRAP record (R419). -/
def Recorder.put (r : Recorder) (area : Nat) (x : Rec) : Recorder :=
  if r.pos + x.len ≤ area then r.place x
  else
    let r := if r.pos + 64 ≤ area then
        r.place { type := 5, flags := 0, cycle := x.cycle, timeNs := x.timeNs, timeFrac := x.timeFrac, slices := 0, seq := 0, body := [] }
      else r
    let r := { r with pos := 0 }
    r.place x

/-- The blocks of the ring from one ring offset to another become valid, those from `fresh` on for the first time: they join the
zero-fill queues, with the code words that were written (R300). -/
def Dev.ringWrote (d : Dev) (lo hi fresh : Nat) : Dev :=
  let words := fun (p : Nat) => (upto 64).filter (fun i => decide (lo ≤ 4096 * p + 64 * i) && decide (4096 * p + 64 * i < hi))
  let at_ := fun (p : Nat) => d.placePage (d.nat 0x2701 1 + 4096 * p)
  let first := (fresh + 4095) / 4096
  let d := if lo < 4096 * first then d.maskWords (at_ (lo / 4096)).1 (at_ (lo / 4096)).2 (words (lo / 4096)) else d
  d.queueBlocks ((upto ((hi + 4095) / 4096 - first)).map (fun i =>
    { stack := (at_ (first + i)).1, page := (at_ (first + i)).2, mask := words (first + i) }))

/-- A record of a type for the cycle that runs is written. The header and the parameter area count as written with the first. -/
def Dev.putRecord (d : Dev) (type flags slices : Nat) (body : Bytes) : Dev :=
  let t := d.time.counter
  let x : Rec := { type := type, flags := flags, cycle := d.cycleNow, timeNs := t / 2 ^ 32 % 2 ^ 64, timeFrac := t % 2 ^ 32,
                   slices := slices, seq := 0, body := body }
  let r := d.recr.put d.recArea x
  let was := if d.recr.top = 0 then 0 else recordsAt + d.recr.top
  { d.ringWrote (if was = 0 then 0 else recordsAt + (r.pos - x.len)) (recordsAt + r.pos) was with recr := r }

/-- Whether cycle records are written: the grant is held and the recorder is RUNNING or POST (R413). -/
def Dev.recording (d : Dev) : Bool := d.holdsDrive && (d.recr.state == .running || d.recr.state == .post)

/-- The last cycle that a CYCLE record holds or a GAP record marks as lost. -/
def Rec.last (r : Rec) : Option Nat :=
  if r.type = 1 then some r.cycle else if r.type = 4 then some (fld r.body 0 8 + fld r.body 8 4 - 1) else none

/-- The cycles lost since the last one recorded: the first, and how many (R419). -/
def Dev.lostCycles (d : Dev) : Option (Nat × Nat) :=
  match (d.recr.ring.filterMap Rec.last).getLast? with
  | some c => if d.recording && !d.recr.needKey && c + 1 < d.eng.cycle then some (c + 1, d.eng.cycle - c - 1) else none
  | none => none

/-- Lost cycles are marked by one GAP record and counted (R419). -/
def Dev.markGap (d : Dev) : Dev :=
  match d.lostCycles with
  | some g => (d.putRecord 4 0 0 (le 8 g.1 ++ le 4 g.2 ++ zeros 4)).bump 0x2703 3
  | none => d

/-- Whether an event is a trigger (R422): its class bit, or its code in TRIGGER_EVENTS. -/
def Dev.isTrigger (d : Dev) (code cls : Nat) : Bool :=
  (1 ≤ cls && (d.nat 0x2702 3).testBit cls) ||
  (code != 0 && (upto 8).any (fun k => fld (d.oct 0x2702 4) (2 * k) 2 = code))

/-- A trigger (R422): a MARK record, and POST from RUNNING; one in FROZEN or OFF is counted. `seq` is the SEQ of the
event's public record, 0 while its handling has not written one. -/
def Dev.trigger (d : Dev) (code cls seq : Nat) : Dev :=
  let body := le 2 code ++ le 1 cls ++ zeros 1 ++ le 8 seq ++ zeros 4
  match d.recr.state with
  | .running =>
    let d := if d.isOn 14 then d.markGap.putRecord 3 0 0 body else d
    { d with recr := { d.recr with state := .post, trigger := some (d.cycleNow, code, seq, d.now) } }
  | .post => if d.isOn 14 then d.markGap.putRecord 3 0 0 body else d
  | .unavailable => d
  | _ => d.bump 0x2703 2

/-- An event passes the recorder. -/
def Dev.tripped (d : Dev) (code cls seq : Nat) : Dev := if d.isTrigger code cls then d.trigger code cls seq else d

/-- The record of a triggering event has got its SEQ: the marks that wait for it take it. -/
def Dev.markSeq (d : Dev) (code cls seq : Nat) : Dev :=
  let want := le 2 code ++ le 1 cls ++ zeros 9
  let f := fun (r : Rec) => if r.type = 3 && r.body.take 12 == want then { r with body := patch r.body 4 (le 8 seq) } else r
  { d with recr := { d.recr with
      ring := d.recr.ring.map f
      trigger := d.recr.trigger.map (fun t => if t.2.1 = code && t.2.2.1 = 0 then (t.1, t.2.1, seq, t.2.2.2) else t) } }

/-- The keyframe at which a capture starts (R423): the latest at or before the trigger less PRE_WINDOW, else the oldest
in the ring. -/
def captureFirst (ring : List Rec) (want : Nat) : Nat :=
  let keys := (ring.filter (fun r => r.type = 2)).map (·.cycle)
  match (keys.filter (· ≤ want)).getLast? with
  | some c => c
  | none => keys.head?.getD 0

/-- The records from a keyframe on, WRAP records left out. -/
def recordsFrom (ring : List Rec) (first : Nat) : List Rec :=
  (ring.dropWhile (fun r => !(r.type = 2 && r.cycle = first))).filter (fun r => r.type != 5)

/-- POST ends and the capture is frozen (R423); `cut` unless POST_WINDOW ended it. -/
def Dev.freeze (d : Dev) (cut : Bool) : Dev :=
  match d.recr.state, d.recr.trigger with
  | .post, some t =>
    let first := captureFirst d.recr.ring (t.1 - d.nat 0x2702 1 * 20)
    let rs := recordsFrom d.recr.ring first
    let c : Capture := { cycle := t.1, event := t.2.1, cut := cut, seq := t.2.2.1, first := first,
                         last := (rs.getLast?.map (·.cycle)).getD 0, bytes := sumN (rs.map Rec.len) }
    { d with recr := { d.recr with state := .frozen, capture := some c, trigger := none } }
  | _, _ => d

/-- HBM half 0 is READY (R294): every stack of it. -/
def Dev.halfReady (d : Dev) : Bool :=
  (upto (min 4 d.stackCount)).all (fun s => tget .off d.mem.stackOf s == .ready)

/-- The ring starts, with its header written and SEQ from 0 (R424). -/
def Dev.startRing (d : Dev) : Dev :=
  { d with recr := { d.recr with
      state := .running, ring := [], seq := 0, pos := 0, needKey := true, trigger := none, capture := none
      bad := d.recr.bad.filter (fun o => decide (recordsAt ≤ o)), image := d.imageHash } }

/-- The ring starts where its guard holds: enabled, a length, half 0 READY, PD14 on, not in REPLAY. -/
def Dev.tryRing (d : Dev) : Dev :=
  if d.recr.state == .off && d.flag 0x2700 2 && d.nat 0x2701 2 != 0 && d.halfReady && d.isOn 14 && d.dir.state != .replay then d.startRing
  else d

/-- The ring is abandoned: OFF. -/
def Dev.abandonRing (d : Dev) : Dev :=
  { d with recr := { d.recr with state := .off, ring := [], trigger := none, capture := none } }

/-- Half 0 is lost: UNAVAILABLE; it is READY again: OFF, or RUNNING (R424). -/
def Dev.ringHalf (d : Dev) : Dev :=
  if !d.halfReady && d.recr.state != .unavailable && (upto (min 4 d.stackCount)).any (fun s => tget .off d.mem.stackOf s == .failed) then
    { d with recr := { d.abandonRing.recr with state := .unavailable } }
  else if d.halfReady && d.recr.state == .unavailable then ({ d with recr := { d.recr with state := .off } }).tryRing
  else d

/-- The ring is lost with its memory's power (R424). -/
def Dev.loseRing (d : Dev) : Dev := { d with recr := { d.abandonRing.recr with state := .unavailable, top := 0, past := [], bad := [] } }

/-- What a warm start keeps of the recorder: a frozen ring with its capture (R424). -/
def Recorder.kept (r : Recorder) : Recorder :=
  let n : Recorder := { top := r.top, past := r.past, bad := r.bad }
  if r.state == .frozen then
    { n with state := .frozen, ring := r.ring, seq := r.seq, pos := r.pos, capture := r.capture, image := r.image }
  else n

end Sys2Proof.Machine
end

