-- ==== Sys2Proof/Machine/Events.lean ====
section
/-!
DEFINITION. Events, the fault manager's queue, latched faults, the two logs and the emergencies (R314 to R320, R334 to
R339). `raise` is what every other family calls.
-/

namespace Sys2Proof.Machine
open Sys2Proof

/-! ### The logs (R334 to R338) -/

/-- The number of records of the buffer that no page being programmed holds. -/
def Log.unflushed (l : Log) : Nat := l.buffer.length - l.programming

/-- A number of the log is lost with its record (R336). -/
def Log.lose (l : Log) : Log :=
  { l with
    next := l.next + 1
    lost := (l.lost + 1) % 2 ^ 32
    gap := match l.gap with
      | none => some (l.next, l.next, some 1)
      | some (a, _, c) => some (a, l.next, c.map (· + 1)) }

/-- A record enters the buffer under the next number. -/
def Log.store (l : Log) (now : Nat) (r : LogRec) : Log :=
  { l with
    next := l.next + 1
    buffer := l.buffer ++ [{ r with seq := l.next }]
    firstAt := if l.unflushed = 0 then some now else l.firstAt }

/-- The loss marker over a range of numbers (R336): LOST reads 0xFFFF_FFFF for an unknown count. -/
def lossMarker (seq time a b : Nat) (c : Option Nat) : LogRec :=
  { seq := seq, time := time, event := 0x0102, cls := 0, flags := 0, scope := 0, level := 0, index := 0, epoch := 0,
    count := 1, detail := le 8 a ++ le 8 b ++ le 4 (c.getD 0xFFFFFFFF) ++ zeros 8 }

/-- A log page of 256 records begins programming when it is full, or when `pad` asks for a page (R338); none begins
while the flash gate is closed (R384) or another page is being programmed. -/
def Log.flush (l : Log) (gate pad : Bool) : Log :=
  if gate && l.programming = 0 && (256 ≤ l.buffer.length || (pad && 0 < l.buffer.length)) then
    { l with
      programming := min 256 l.buffer.length
      firstAt := if l.buffer.length ≤ 256 then none else l.firstAt }
  else l

/-- A record is written, or lost with its number (R336): RESERVED_SEQ advances by 4,096 ahead of the numbers, and a
pending loss marker is stored first. -/
def Log.append (l : Log) (gate : Bool) (now : Nat) (r : LogRec) : Log :=
  let need := if l.gap.isSome then 2 else 1
  let l := if l.reserved < l.next + need - 1 && gate then { l with reserved := l.reserved + 4096 } else l
  if 4096 < l.buffer.length + need || l.reserved < l.next + need - 1 then l.lose
  else
    let l := match l.gap with
      | some (a, b, c) => { (l.store now (lossMarker 0 now a b c)) with gap := none }
      | none => l
    (l.store now r).flush gate false

/-- The page in programming is in flash (R338): its records leave the buffer, the page is padded with zero records, a full
ring loses its oldest erase block of 64 pages, and the next full page begins. -/
def Log.programmed (l : Log) (pages : Nat) (gate : Bool) (zero : LogRec) : Log :=
  if l.programming = 0 then l
  else
    let page := l.buffer.take l.programming ++ (upto (256 - l.programming)).map (fun _ => zero)
    let all := l.flash ++ page
    let all := if pages * 256 < all.length then all.drop (64 * 256) else all
    let l := { l with
      flash := all, buffer := l.buffer.drop l.programming, programming := 0
      oldest := ((all.find? (fun (r : LogRec) => r.seq != 0)).map (fun (r : LogRec) => r.seq)).getD l.oldest }
    l.flush gate false

/-- A log record of zeros: what pads a page. -/
def zeroRec : LogRec :=
  { seq := 0, time := 0, event := 0, cls := 0, flags := 0, scope := 0, level := 0, index := 0, epoch := 0, count := 0, detail := [] }

/-- Pages of the public and of the protected part of the LOG region (R334): 960 MiB and 64 MiB of 16 KiB. -/
def logPages (prot : Bool) : Nat := if prot then 4096 else 61440

/-- A log of the two changes. -/
def Dev.modLog (d : Dev) (prot : Bool) (f : Log → Log) : Dev :=
  if prot then { d with faults := { d.faults with prot := f d.faults.prot } }
  else { d with faults := { d.faults with pub := f d.faults.pub } }

/-- Write a record to the public or the protected log (R95). -/
def Dev.write (d : Dev) (prot : Bool) (r : LogRec) : Dev :=
  if prot then { d with faults := { d.faults with prot := d.faults.prot.append d.power.flashGate d.now r } }
  else { d with faults := { d.faults with pub := d.faults.pub.append d.power.flashGate d.now r } }

/-- FLAGS of Table 12.7. -/
def Dev.logFlags (d : Dev) (lost cancelled latched : Bool) : Nat :=
  b2n lost + 2 * b2n d.timeLocked + 4 * b2n cancelled + 8 * b2n latched

/-! ### Scope epochs (R324) -/

/-- The key of a circuit's scope epoch. -/
def circuitScope (north plane : Nat) : Nat := 1000 + 2 * north + plane

/-- The epoch of a scope: its own, or that of a scope it lies in, whichever fired later. -/
def Dev.epochOf (d : Dev) (key : Nat) : Nat :=
  let own := tget 0 d.faults.scopeEpochs key
  let dir := tget 0 d.faults.scopeEpochs 0
  let job := if 1000 ≤ key then
      match d.owner ((key - 1000) / 2) with
      | some j => tget 0 d.faults.scopeEpochs (1 + j)
      | none => 0
    else 0
  max own (max dir job)

/-- A level fires on a scope: RECOVERY_EPOCH increments and the scope takes the new value. The count is held whole; RECOVERY_EPOCH and
the EPOCH of a record show its low 32 bits, so that which of two values is older stays known when they wrap. -/
def Dev.fireEpoch (d : Dev) (key : Nat) : Dev :=
  let e := d.faults.epoch + 1
  { d with faults := { d.faults with epoch := e, scopeEpochs := tset d.faults.scopeEpochs key e } }

/-- The key of the scope of an event of a SCOPE and INDEX: the job; the circuit in force of the port or of the axis's head, else the
job that owns the port; the Director. -/
def Dev.scopeKey (d : Dev) (scope index : Nat) : Nat :=
  let port := if scope = 2 then some index else if scope = 3 then some (index / 4) else none
  if scope = 1 then 1 + index
  else match port with
    | none => 0
    | some p =>
      match (d.forceAt p).find? (fun c => scope = 2 || c.plane = index / 2 % 2) with
      | some c => circuitScope c.north c.plane
      | none => match d.owner p with | some j => 1 + j | none => 0

/-- The scope epoch that an event of a SCOPE and INDEX carries. -/
def Dev.eventEpoch (d : Dev) (scope index : Nat) : Nat := d.epochOf (d.scopeKey scope index)

/-- An event of class 0 is logged at its detection and nothing else (R314). -/
def Dev.info (d : Dev) (code scope index : Nat) (detail : Bytes := []) : Dev :=
  let d := d.write false
    { seq := 0, time := d.now, event := code, cls := 0, flags := d.logFlags false false false, scope := scope,
      level := 0, index := index, epoch := d.eventEpoch scope index, count := 1, detail := padTo 28 detail }
  d.tripped code 0 (d.faults.pub.next - 1)

/-- An event of the protected log (R58, R334): 0x0D01 a first-stage refusal, 0x0D02 a session or key event. -/
def Dev.secret (d : Dev) (code index : Nat) (detail : Bytes := []) : Dev :=
  let d := d.write true
    { seq := 0, time := d.now, event := code, cls := 0, flags := d.logFlags false false false, scope := 10, level := 0,
      index := index, epoch := 0, count := 1, detail := padTo 28 detail }
  d.tripped code 0 0

/-! ### The queue (R316 to R318) -/

/-- Whether a new event of a scope supersedes a queued one of a resource it serves (R316, Table 1.3). -/
def supersedes (scope index : Nat) (e : Event) : Bool :=
  if scope = 11 then
    (e.scope = 3 && e.index / 1024 = index) || (e.scope = 2 && e.index / 256 = index) ||
    (e.scope = 4 && e.index / 16 = index) || (e.scope = 5 && e.index % 8 / 2 = index)
  else if scope = 4 then e.scope = 2 && podOf e.index = index
  else if scope = 5 then e.scope = 3 && boardOfHead (e.index / 2) = index
  else false

/-- Whether two events merge: code, class and scope all equal; a success does not merge with the fault that it ends. -/
def Event.same (a b : Event) : Bool :=
  a.code = b.code && a.cls = b.cls && a.scope = b.scope && a.index = b.index && a.result = b.result

/-- An event takes its place: by class, highest first, and by arrival within a class. -/
def queueInsert (e : Event) : List Event → List Event
  | [] => [e]
  | x :: t => if x.cls < e.cls then e :: x :: t else x :: queueInsert e t

/-- An event takes the head of its class. -/
def queueHead (e : Event) : List Event → List Event
  | [] => [e]
  | x :: t => if x.cls ≤ e.cls then e :: x :: t else x :: queueHead e t

/-- The next event to be handled: the queue's head, but 0x0101 waits at the head of class 3 in a slot of its own. -/
def Faults.pop (f : Faults) : Option Event × Faults :=
  match f.queue, f.overflow with
  | [], none => (none, f)
  | [], some o => (some o, { f with overflow := none })
  | x :: t, none => (some x, { f with queue := t })
  | x :: t, some o => if x.cls = 4 then (some x, { f with queue := t }) else (some o, { f with overflow := none })

/-- The next event to be handled, with the number of handlings before it that a predicate discards (R317). -/
def Faults.popLive (gone : Event → Bool) : Nat → Faults → Option Event × Nat × Faults
  | 0, f => (none, 0, f)
  | n + 1, f =>
    match f.pop with
    | (none, g) => (none, 0, g)
    | (some e, g) =>
      if gone e then
        let r := Faults.popLive gone n g
        (r.1, r.2.1 + 1, r.2.2)
      else (some e, 0, g)

/-- Whether a handling that was pre-empted has been cancelled since: a level has fired on its scope (R317, R324). 0x0101 is always
handled (R318). -/
def Dev.cancelled (d : Dev) (e : Event) : Bool := decide (1 < e.step) && e.code != 0x0101 && d.eventEpoch e.scope e.index != e.epoch

/-- An idle handler takes the head of the queue (Table 12.4); a pre-empted handling that was cancelled meanwhile is discarded and
counted in CANCELLED_COUNT (R317). -/
def Dev.takeHead (d : Dev) : Dev :=
  match d.faults.current with
  | some _ => d
  | none =>
    let r := d.faults.popLive d.cancelled 66
    let d := if r.2.1 = 0 then d else d.bump 0x2300 9 r.2.1
    { d with faults := { r.2.2 with current := r.1 } }

/-- An event of class 3 or 4 breaks the health soak of a trial (R407). -/
def Dev.breakSoak (d : Dev) (cls : Nat) : Dev :=
  if 3 ≤ cls then { d with upd := { d.upd with soakBroken := true } } else d

/-- An event arrives while 64 are queued (R318): the lowest class, newest first, is dropped with its record, and
0x0101 takes its own slot. `place` puts an event that stays into the queue. -/
def Dev.overflow (d : Dev) (place : Event → List Event → List Event) (e : Event) : Dev :=
  let last := d.faults.queue.getLast?
  let dropArrival := match last with | some x => decide (e.cls ≤ x.cls) | none => true
  let dropped := if dropArrival then e else last.getD e
  let queue := if dropArrival then d.faults.queue else place e d.faults.queue.dropLast
  let d := d.write false
    { seq := 0, time := dropped.time, event := dropped.code, cls := dropped.cls, flags := d.logFlags true false false,
      scope := dropped.scope, level := dropped.level, index := dropped.index, epoch := dropped.epoch,
      count := min 65535 dropped.count, detail := padTo 28 dropped.detail }
  let o := match d.faults.overflow with
    | some o => { o with count := o.count + 1 }
    | none => { code := 0x0101, cls := 3, scope := 0, index := 0, time := d.now, epoch := d.epochOf 0 }
  let d := ((d.bump 0x2300 5).setFlag 0x2300 6 true).tripped 0x0101 3 0
  { d.breakSoak 3 with faults := { d.faults with queue := queue, overflow := some o } }

/-- QUEUE_PEAK follows the queue's depth. -/
def Dev.queuePeak (d : Dev) : Dev :=
  d.setNum 0x2300 4 (max (d.num 0x2300 4) (d.faults.queue.length : Nat))

/-- The budgets in force, L1 to L5, in ms. -/
def Dev.budgets (d : Dev) : List Nat :=
  [d.nat 0x2310 1 * d.nat 0x2310 2, d.nat 0x2310 3, d.nat 0x2310 4, d.nat 0x2310 5, d.nat 0x2310 6]

/-- An event of class 1 to 4 enters the queue: it supersedes events that are not in handling yet, merges with one, waits or overflows
(R316, R318). It carries the budgets in force at its onset (R322). One of class 3 or 4
breaks the health soak of a trial (R407). With PD1 off there is no fault manager (Table 1.5). -/
def Dev.enqueue (d : Dev) (e : Event) : Dev :=
  if !d.isOn 1 then d else
  let d := (d.breakSoak e.cls).tripped e.code e.cls 0
  let out := fun (x : Event) => x.step == 1 && supersedes e.scope e.index x
  let gone := d.faults.queue.filter out
  let kept := d.faults.queue.filter (fun x => !out x)
  let e := { e with count := e.count + sumN (gone.map (·.count)), budgets := if e.budgets.isEmpty then d.budgets else e.budgets }
  let d := { d with faults := { d.faults with queue := kept } }
  let joins := fun (x : Event) => x.step == 1 && x.same e
  if kept.any joins then
    let q := kept.map (fun x => if joins x then { x with count := x.count + e.count, active := x.active || e.active } else x)
    ({ d with faults := { d.faults with queue := q } }).bump 0x2300 7
  else if 64 ≤ kept.length then (d.overflow queueInsert e).takeHead
  else (({ d with faults := { d.faults with queue := queueInsert e kept } }).queuePeak).takeHead

/-- The classes 1 to 4 that Table 12.3 and Table 11.3 give the code of an event, but for the events that the fault manager makes
itself (0x0101 to 0x0103); a code with none is never emitted (R315). -/
def eventClasses (code : Nat) : List Nat :=
  if ([0x0202, 0x0A02, 0x0B01] : List Nat).contains code then [3]
  else if ([0x0302, 0x0602] : List Nat).contains code then [2]
  else if ([0x0404, 0x0702, 0x0C01] : List Nat).contains code then [4]
  else if code = 0x0704 then [1, 4]
  else if code = 0x0405 then [3, 4]
  else if code = 0x0C02 || code = 0x0809 || code = 0x0901 then [1, 3]
  else if ([0x0104, 0x0201, 0x0203, 0x0204, 0x0301, 0x0303, 0x0304, 0x0305, 0x0306, 0x0401, 0x0402, 0x0403, 0x0501, 0x0502, 0x0503,
      0x0601, 0x0603, 0x0604, 0x0701, 0x0703, 0x0802, 0x0805, 0x0806, 0x0807, 0x0808, 0x0A01, 0x0B02] : List Nat).contains code then [1]
  else []

/-- Whether an event names a condition that persists in the state of its scope (R320): it may latch with ACTIVE 1. -/
def persists (code cls : Nat) : Bool :=
  cls = 4 || ([0x0201, 0x0202, 0x0301, 0x0302, 0x0303, 0x0304, 0x0305, 0x0306, 0x0405, 0x0501, 0x0502, 0x0503, 0x0603, 0x0604, 0x0901,
    0x0A01, 0x0A02, 0x0B01, 0x0C02] : List Nat).contains code

/-- An event of class 1 to 4 of an instant goes to the fault manager. -/
def Dev.raiseAt (d : Dev) (t code cls scope index : Nat) (active : Bool) (detail : Bytes) : Dev :=
  d.enqueue
    { code := code, cls := cls, scope := scope, index := index, time := t, active := active && persists code cls, detail := detail,
      epoch := d.eventEpoch scope index }

/-- An event: class 0 is logged at once (R314), any other goes to the fault manager. -/
def Dev.raise (d : Dev) (code cls scope index : Nat) (active : Bool := false) (detail : Bytes := []) : Dev :=
  if cls = 0 then d.info code scope index detail else d.raiseAt d.now code cls scope index active detail

/-- Whether a fault of a code, scope and index is latched and active. -/
def Dev.latchedActive (d : Dev) (code scope index : Nat) : Bool :=
  d.faults.latched.any (fun x => x.code = code && x.scope = scope && x.index = index && x.active) ||
  d.faults.queue.any (fun x => x.code = code && x.scope = scope && x.index = index && x.active)

/-! ### Latched faults and emergencies (R320, R339) -/

/-- FAULT_PRESENT (R320). -/
def Dev.faultPresent (d : Dev) : Bool := !d.faults.latched.isEmpty

/-- THERMAL_WARN (Table 2.11). -/
def Dev.thermalWarn (d : Dev) : Bool := d.power.level != .normal

/-- The lowest class among inactive entries. -/
def lowestInactive (l : List Latch) : Option Nat :=
  ((l.filter (fun x => !x.active)).map (·.cls)).min?

/-- The list without its oldest inactive entry of a class. -/
def dropOldest (cls : Nat) : List Latch → List Latch
  | [] => []
  | x :: t => if !x.active && x.cls = cls then t else x :: dropOldest cls t

/-- The CRC errors of a port within the last second (R252). -/
def Dev.crcRecent (d : Dev) (p : Nat) : List Nat := (d.port p).crcTimes.filter (fun t => d.now < t + Config.sec)

/-- The events in the fault manager: in handling, parked and queued. -/
def Faults.handlings (f : Faults) : List Event := f.current.toList ++ f.parked.toList ++ f.queue

/-- Whether the state that a latched event names still lasts (R320), for the states that end without an event of their own;
the others are unlatched where they end. -/
def Dev.lasts (d : Dev) (x : Latch) : Bool :=
  if x.code = 0x0202 then d.eng.slices.getD x.index .off == .fault
  else if x.code = 0x0301 then (d.bank x.index).lost != 0 && !(d.forceAt x.index).isEmpty
  else if x.code = 0x0302 || x.code = 0x0306 then (d.forceAt x.index).any (fun c => c.state == .lost)
  else if x.code = 0x0603 then (d.port x.index).state == .quarantined || decide (64 ≤ (d.crcRecent x.index).length)
  else if x.code = 0x0901 then
    if x.note = 1 then !d.timeLocked else if x.note = 2 then d.time.state == .holdover
    else if x.note = 3 then d.module.timeRef = 2 else d.num 0x2200 0x0E = 1
  else if x.cls = 4 && x.scope = 1 && x.code != 0x0405 then
    -- until its handling has put the job in RESTARTING
    d.jobIn x.index [.restarting] || d.faults.handlings.any (fun e => e.code = x.code && e.cls = 4 && e.scope = 1 && e.index = x.index && !e.result)
  else true

/-- The latched faults with each ACTIVE as the states of their scopes give it now (R320). -/
def Dev.latches (d : Dev) : List Latch := d.faults.latched.map (fun x => { x with active := x.active && d.lasts x })

/-- The latched faults take their ACTIVE. -/
def Dev.settle (d : Dev) : Dev := { d with faults := { d.faults with latched := d.latches } }

/-- An event is latched (R320): a full list gives up its oldest inactive entry of the lowest class, or keeps all and
sets LOST_MARKER. -/
def Dev.latch (d : Dev) (e : Event) : Dev :=
  let d := d.settle
  let x : Latch :=
    { seq := e.seq, code := e.code, cls := e.cls, active := e.active, scope := e.scope, index := e.index, note := fld e.detail 0 1 }
  let x := { x with active := x.active && d.lasts x }
  if d.faults.latched.length < 32 then { d with faults := { d.faults with latched := d.faults.latched ++ [x] } }
  else match lowestInactive d.faults.latched with
    | some c => { d with faults := { d.faults with latched := dropOldest c d.faults.latched ++ [x] } }
    | none => d.setFlag 0x2300 6 true

/-- The state that latched events of a code and scope name has ended: their ACTIVE becomes 0. -/
def Dev.unlatch (d : Dev) (code scope index : Nat) : Dev :=
  let f := fun (x : Latch) => if x.code = code && x.scope = scope && x.index = index then { x with active := false } else x
  let g := fun (e : Event) => if e.code = code && e.scope = scope && e.index = index then { e with active := false } else e
  { d with faults := { d.faults with
      latched := d.faults.latched.map f, queue := d.faults.queue.map g, current := d.faults.current.map g
      parked := d.faults.parked.map g } }

/-- FAULT_ACK and FAULT_ACKNOWLEDGE (R320): the named entries whose ACTIVE is 0 leave the list; all ones name all. -/
def Dev.acknowledge (d : Dev) (seq : Nat) : Dev :=
  { d with faults := { d.faults with
      latched := d.latches.filter (fun x => x.active || !(seq = 2 ^ 64 - 1 || x.seq = seq)) } }

/-- Whether the mailbox is open and no answer is owed (R41, R47). -/
def Dev.mailboxFree (d : Dev) : Bool :=
  d.net.waiting.isNone && (d.net.ecat == .preOp || d.net.ecat == .safeOp || d.net.ecat == .op)

/-- The 8 bytes of an emergency (R339). -/
def Dev.emergencyBytes (d : Dev) (code event seq : Nat) : Bytes :=
  le 2 code ++ le 1 (b2n d.faultPresent + 8 * b2n d.thermalWarn) ++ le 2 event ++ le 3 seq

/-- An emergency leaves at once, waits behind the mailbox, or is dropped behind eight others and counted (R47). -/
def Dev.emergency (d : Dev) (code event seq : Nat) : Dev :=
  let b := d.emergencyBytes code event seq
  if d.mailboxFree && d.net.emergencies.isEmpty then d.emit (.emergency b)
  else if d.net.emergencies.length < 8 then { d with net := { d.net with emergencies := d.net.emergencies ++ [b] } }
  else d.bump 0x2300 12

/-- The emergencies that waited leave once the mailbox is free. -/
def Dev.flushEmergencies (d : Dev) : Dev :=
  if d.mailboxFree then
    ({ d with net := { d.net with emergencies := [] } }).emits (d.net.emergencies.map .emergency)
  else d

/-! ### The Director's state -/

/-- The Director takes a state for a cause (R62); with cause "fault" an emergency 0xFF10 goes out (R339). -/
def Dev.setState (d : Dev) (x : DirState) (c : Cause) : Dev :=
  let armed := d.inState [.armed, .serving, .hold]
  let d := { d with
    dir := { d.dir with state := x, since := d.now, cause := c }
    time := { d.time with armedAt := if armed then some d.now else d.time.armedAt } }
  if c == .fault then
    match d.faults.current with
    | some e => d.emergency 0xFF10 e.code e.seq
    | none => d.emergency 0xFF10 0 0
  else d

end Sys2Proof.Machine
end

