-- ==== Sys2Proof/Machine/Hbm.lean ====
section
/-!
DEFINITION. The HBM as its units see it (R293 to R305): where an offset lies, the checks of code words and of SRAM words, the
correction tables, poison, valid blocks, the remap tables and the zero-fill queues, and the records of memory events. An operation
takes and gives `Dev × Hbm`.
-/

namespace Sys2Proof.Machine
open Sys2Proof

/-! ### Placement (R293, R294) -/

/-- Whether a range of offsets lies in the HBM and clear of the spare pools (R72, R294). -/
def Dev.hbmRange (d : Dev) (off len : Nat) : Bool :=
  let ok := fun (a : Nat) =>
    if d.isC then decide (a < 0x6000000000) && decide (a % halfSize < 0x2FFC000000)
    else decide (a < 0x1800000000) && decide (a < 0x17FE000000)
  len = 0 || (ok off && ok (off + len - 1) && (!d.isC || off / halfSize = (off + len - 1) / halfSize || decide (off + len ≤ halfSize)))

/-- The pages of which a range of offsets has any byte. -/
def pagesOver (off len : Nat) : List Nat :=
  if len = 0 then [] else (upto ((off + len - 1) / 4096 - off / 4096 + 1)).map (fun i => (off / 4096 + i) * 4096)

/-- The pages that lie wholly in a range of offsets. -/
def pagesIn (off len : Nat) : List Nat := (pagesOver off len).filter (fun p => decide (off ≤ p) && decide (p + 4096 ≤ off + len))

/-- The page that serves a stack-local page: its spare where it is retired (R308). -/
def Hbm.phys (h : Hbm) (s p : Nat) : Nat := (tfind h.remap (pageKey s p)).getD p

/-- Whether a range covers whole code words at code-word alignment (R297). -/
def wholeWords (off len : Nat) : Bool := off % 64 = 0 && len % 64 = 0

/-! ### Events (R305) -/

/-- The first 28 bytes of the detail of Table 11.4; the syndrome of a real error is a free value. -/
def memDetail (now kind array source symbols addr syndrome count initiator : Nat) : Bytes :=
  le 1 kind ++ le 1 array ++ le 1 source ++ le 1 symbols ++ le 8 addr ++ le 4 syndrome ++ le 4 count ++ le 2 initiator ++ zeros 2 ++
    le 4 now

/-- A memory event of a kind and class on an array (R315). -/
def Dev.memEvent (d : Dev) (kind cls array source symbols addr syndrome count : Nat) (initiator : Nat := 0xFFFF) : Dev :=
  d.raise (0x0800 + kind) cls 7 array false (memDetail d.now kind array source symbols addr syndrome count initiator)

/-- A checker's self-test has failed: the memory event of kind 9, and event 0x0C02, whose condition lasts while the array is out of
use (R307, R320). -/
def Dev.checkerEvent (d : Dev) (cls array : Nat) : Dev :=
  (d.memEvent 9 cls array 2 0 0 0 1).raise 0x0C02 cls 7 array true

/-- The correction table (R305): COUNT of a word's corrections within 24 h after this one, and whether the word was in the
table and kind 7 was logged for it; the word becomes the most recently corrected, and the 257th of its array is evicted. -/
def Mem.correct (x : Mem) (now array addr : Nat) : Mem × Nat × Bool × Bool :=
  let mine := fun (c : Corr) => c.array = array && c.addr = addr
  let old := x.corr.find? mine
  let times := ((old.map (·.times)).getD []).filter (fun t => now < t + 86400 * Config.sec) ++ [now]
  let c : Corr := { array := array, addr := addr, times := times, logged := (old.map (·.logged)).getD false }
  let rest := x.corr.filter (fun c => !mine c)
  let full := decide (256 ≤ (rest.filter (fun c => c.array = array)).length)
  let rest := if full then
      match rest.find? (fun c => c.array = array) with
      | some o => rest.filter (fun c => !(c.array = array && c.addr = o.addr))
      | none => rest
    else rest
  ({ x with corr := rest ++ [c] }, times.length, old.isSome, c.logged)

/-- A corrected word is logged the first time, and once more when its COUNT reaches REPEAT_LIMIT (R305). -/
def Dev.corrected (d : Dev) (source array addr symbols : Nat) : Dev :=
  let r := d.mem.correct d.now array addr
  let d := { d with mem := r.1, fresh := d.fresh + 1 }
  let syn := Config.openNat (d.fresh - 1) % 2 ^ 32
  if !r.2.2.1 then d.memEvent 1 0 array source symbols addr syn r.2.1
  else if d.nat 0x2801 4 ≤ r.2.1 && !r.2.2.2 then
    let mark := fun (c : Corr) => if c.array = array && c.addr = addr then { c with logged := true } else c
    ({ d with mem := { d.mem with corr := d.mem.corr.map mark } }).memEvent 7 1 array source symbols addr syn r.2.1
  else d

/-- A word that reads uncorrectable is logged with a syndrome that is a free value. -/
def Dev.uncorrectable (d : Dev) (source array addr : Nat) : Dev :=
  (d.drawn 1).memEvent 2 1 array source 0 addr (Config.openNat d.fresh % 2 ^ 32) 0

/-! ### SRAM words (R296) -/

/-- The key of a word of an SRAM array. -/
def sramKey (a w : Nat) : Nat := a * 2 ^ 32 + w

/-- Whether an SRAM word is delivered poisoned: it holds the poison code, or its error is not of a single bit (R296). -/
def Mem.sramBad (x : Mem) (key : Nat) : Bool := x.sramPoison.contains key || decide (2 ≤ tget 0 x.sramFlaws key)

/-- A word of an SRAM array has been written whole and stands clean. -/
def Mem.sramClean (x : Mem) (key : Nat) : Mem :=
  { x with sramPoison := x.sramPoison.filter (· != key), sramFlaws := tdel x.sramFlaws key }

/-- A single-bit error is corrected and counted, and the word is written back (R296, R304). -/
def Dev.sramCorrected (d : Dev) (source a w : Nat) : Dev :=
  let d := if a ≤ 14 then d.bump (0x2830 + (a - 8)) 1 else d
  ({ d with mem := { d.mem with sramFlaws := tdel d.mem.sramFlaws (sramKey a w) } }).corrected source a (w * 8) 1

/-- A word of the program SRAM that reads poisoned is a class 3 fault (Table 11.6). -/
def Dev.programPoison (d : Dev) (a : Nat) : Dev := if a = 9 then d.raise 0x0C02 3 7 9 true else d

/-- A demand read of a word of the arrays 8 to 14, and whether it is delivered poisoned (R296). -/
def Dev.readSram (d : Dev) (a w : Nat) : Dev × Bool :=
  if d.mem.sramPoison.contains (sramKey a w) then ((d.memEvent 3 0 a 0 0 (w * 8) 0xFF 0).programPoison a, true)
  else match tget 0 d.mem.sramFlaws (sramKey a w) with
    | 0 => (d, false)
    | 1 => (d.sramCorrected 0 a w, false)
    | _ => (((d.bump (0x2830 + (a - 8)) 2).uncorrectable 0 a (w * 8)).programPoison a, true)

/-- A demand read of the words of the store that back an object, and whether one of them is delivered poisoned (R296, R311). -/
def Dev.readStore (d : Dev) (key : Nat) : Dev × Bool :=
  let ws := ((d.mem.sramPoison ++ d.mem.sramFlaws.map (·.1)).filter (backs key)).eraseDups
  ws.foldl (fun r w => let x := r.1.readSram 8 (w % 2 ^ 32); (x.1, r.2 || x.2)) (d, false)

/-! ### Code words (R295, R297, R299, R300) -/

/-- What a read of a code word delivers: 64 bytes, and whether they are poisoned. Blocks that are not valid read zero. -/
def Hbm.wordAt (h : Hbm) (s w : Nat) : Bytes × Bool :=
  if !h.valid.contains (pageKey s (w / 64)) then (zeros 64, false)
  else if h.poison.contains (wordKey s w) || decide (2 < tget 0 h.flaws (wordKey s w)) then (zeros 64, true)
  else (cellRead h.cells (byteKey s (w * 64)) 64, false)

/-- Whether a key of a code word lies in a page. -/
def inPage (s p k : Nat) : Bool := decide (wordKey s (p * 64) ≤ k) && decide (k < wordKey s (p * 64) + 64)

/-- The block leaves the valid map, with what it held. -/
def Hbm.dropPage (h : Hbm) (s p : Nat) : Hbm :=
  { h with
    valid := h.valid.filter (· != pageKey s p)
    cells := cellDrop h.cells (byteKey s (p * 4096)) 4096
    poison := h.poison.filter (fun w => !inPage s p w)
    flaws := h.flaws.filter (fun e => !inPage s p e.1) }

/-- A block's bit is set (R300). -/
def Hbm.enterPage (h : Hbm) (s p : Nat) : Hbm := { h with valid := sinsert h.valid (pageKey s p) }

/-- One code word is written whole: data, or the poison code. -/
def Hbm.setWord (h : Hbm) (s w : Nat) (data : Bytes) (poison : Bool) : Hbm :=
  let h := h.enterPage s (w / 64)
  let flaws := tdel h.flaws (wordKey s w)
  if poison then
    { h with flaws := flaws, poison := sinsert h.poison (wordKey s w), cells := cellDrop h.cells (byteKey s (w * 64)) 64 }
  else
    { h with
      flaws := flaws, poison := h.poison.filter (· != wordKey s w)
      cells := cellWrite h.cells (byteKey s (w * 64)) (padTo 64 data) }

/-- A read of a code word, decoded in the order of R295 and counted: stored poison (kind 3), an error of one or two symbols corrected
and written back (R298, R304), a larger one delivered as poisoned (kind 2). -/
def decodeWord (m : Dev × Hbm) (source s w : Nat) : (Dev × Hbm) × Bytes × Bool :=
  let x := m.2.wordAt s w
  let n := tget 0 m.2.flaws (wordKey s w)
  if !m.2.valid.contains (pageKey s (w / 64)) then (m, x)
  else if m.2.poison.contains (wordKey s w) then
    (((m.1.bump (0x2810 + s) 5).memEvent 3 0 s source 0 (w * 64) 0xA5A5A5A5 0, m.2), x)
  else if n = 0 then (m, x)
  else if n ≤ 2 then
    (((m.1.bump (0x2810 + s) 3).corrected source s (w * 64) n, { m.2 with flaws := tdel m.2.flaws (wordKey s w) }), x)
  else (((m.1.bump (0x2810 + s) 4).uncorrectable source s (w * 64), m.2), x)

/-! ### The recorder's ring in the HBM (R420) -/

/-- The recorder ring's range: RING_BASE and RING_LENGTH (R420). -/
def Dev.ringRange (d : Dev) : Nat × Nat := (d.nat 0x2701 1, d.nat 0x2701 2)

/-- The Director offset that a served code word of a stack holds: that of its own page, or of the page whose spare it is (R293, R308). -/
def Dev.offsetOf (d : Dev) (h : Hbm) (s w : Nat) : Nat :=
  let p := match h.remap.find? (fun e => e.1 / 2 ^ 24 = s && e.2 = w / 64) with
    | some e => e.1 % 2 ^ 24
    | none => w / 64
  (if d.isC then s / 4 * halfSize + (4 * p + s % 4) * 4096 else (2 * p + s) * 4096) + w % 64 * 64

/-- The place in the recorder's ring of a served code word, where the recorder has written the ring (R420). -/
def Dev.ringPlace (d : Dev) (h : Hbm) (s w : Nat) : Option Nat :=
  let o := d.offsetOf h s w
  let r := d.ringRange
  if 0 < d.recr.top && r.1 ≤ o && o < r.1 + recordsAt + d.recr.top then some (o - r.1) else none

/-- Code words of the ring are poisoned by a memory error (R425). -/
def Dev.ringPoisoned (d : Dev) (l : List Nat) : Dev := { d with recr := { d.recr with bad := l.foldl sinsert d.recr.bad } }

/-- The ranges of offsets that the recorder has written (start and end): its ring, and what earlier rings left elsewhere. -/
def Dev.ringSpans (d : Dev) : List (Nat × Nat) :=
  d.recr.past ++ (if d.recr.top = 0 then [] else [(d.ringRange.1, d.ringRange.1 + recordsAt + d.recr.top)])

/-- The stack-local pages of a stack that the recorder has written: they are valid (R300). -/
def Dev.ringPages (d : Dev) (s : Nat) : List Nat :=
  (d.ringSpans.flatMap (fun r => ((pagesOver r.1 (r.2 - r.1)).map d.placePage).filter (fun x => x.1 == s))).map (·.2)

/-- The valid blocks of a stack, ascending: those of the valid map, with the recorder's and the spares that serve them in its place. -/
def Dev.validPages (d : Dev) (h : Hbm) (s : Nat) : List Nat :=
  let own := (h.valid.filter (fun k => k / 2 ^ 24 = s)).map (· % 2 ^ 24)
  (d.ringPages s).foldl (fun l p => sinsert (sinsert l p) (h.phys s p)) own

/-! ### Map words and remap tables (R302) -/

/-- A valid-map word is lost (R302): its 64 blocks become valid and every code word of them takes the poison code. -/
def mapLost (m : Dev × Hbm) (source s w : Nat) : Dev × Hbm :=
  let h := (upto 64).foldl (fun (h : Hbm) i =>
    let p := 64 * w + i
    let h := h.dropPage s p
    { h with valid := sinsert h.valid (pageKey s p)
             poison := (upto 64).foldl (fun l k => sinsert l (wordKey s (p * 64 + k))) h.poison }) m.2
  let d := if m.1.recr.top = 0 then m.1 else m.1.ringPoisoned ((upto 4096).filterMap (fun k => m.1.ringPlace m.2 s (4096 * w + k)))
  let d := { d with mem := d.mem.sramClean (sramKey (15 + s) w) }
  let d := d.unqueue (fun f => f.stack == s && f.page / 64 == w)
  ((d.bump 0x2800 3).memEvent 5 1 (15 + s) source 0 (w * 8) (Config.openNat m.1.fresh % 2 ^ 32) 0 |>.drawn 1, h)

/-- A remap-table word is lost: the table is reloaded from RETIRE (R302). -/
def Dev.remapLost (d : Dev) (source s w : Nat) : Dev :=
  let d := { d with mem := { d.mem with reloading := sinsert d.mem.reloading s } }
  ((d.bump 0x2800 4).memEvent 6 1 (23 + s) source 0 (w * 8) (Config.openNat d.fresh % 2 ^ 32) 0).drawn 1

/-! ### Flash reads (R312) -/

/-- The flash address of a page (Table 11.7): a page of a log at its region, one of the settings journal in its slot. -/
def flashAddr : FlashPage → Nat
  | .log prot _ => if prot then 0xB5000000 else 0x79000000
  | .settings slot page => 0x64000000 + slot * 0x2000000 + page * 0x4000
  | .retire slot pair => 0x78000000 + slot * 0x100000 + pair * 0x8000

/-- Whether two pages lie in one region. -/
def sameRegion : FlashPage → FlashPage → Bool
  | .log _ _, .log _ _ | .settings _ _, .settings _ _ | .retire _ _, .retire _ _ => true
  | _, _ => false

/-- A read of the flash pages that a predicate selects, and whether it is good: up to 40 bits of a sector are corrected, and a page with
more than 30 is to be rewritten; one with more fails its read (R312). -/
def Dev.readFlash (d : Dev) (sel : FlashPage → Bool) : Dev × Bool :=
  (d.mem.flashFlaws.filter (fun e => sel e.1 && decide (0 < e.2))).foldl (fun r e =>
    if e.2 ≤ 40 then
      let d := (r.1.bump 0x2850 1).memEvent 1 0 31 0 e.2 (flashAddr e.1) 0 1
      (if 30 < e.2 && !d.mem.flashWorn.contains e.1 then { d with mem := { d.mem with flashWorn := d.mem.flashWorn ++ [e.1] } } else d, r.2)
    else ((r.1.bump 0x2850 2).uncorrectable 0 31 (flashAddr e.1), false)) (d, true)

/-- A write of a region: the pages of it that were to be rewritten are in fresh pages (R312). -/
def Dev.flashWritten (d : Dev) (p : FlashPage) : Dev :=
  let mine := fun (x : FlashPage) => d.mem.flashWorn.contains x && sameRegion x p
  { d with mem := { d.mem with
      flashFlaws := d.mem.flashFlaws.filter (fun e => !mine e.1)
      flashWorn := d.mem.flashWorn.filter (fun x => !sameRegion x p) } }

/-- A program or an erase has failed: the controller replaces the block from the reserved area (R312). -/
def Dev.flashFailed (d : Dev) : Dev := d.setNum 0x2850 3 (min 65535 (d.nat 0x2850 3 + 1) : Nat)

/-! ### Retire records (R309) -/

/-- A retire record without the zeros that fill its 32 KiB. -/
def retireRecord (s seq : Nat) (pages : List Nat) : Bytes :=
  let b := le 2 0x5254 ++ [1] ++ le 1 s ++ le 4 seq ++ le 2 pages.length ++ zeros 22 ++ zeros 4 ++ zeros 28 ++ leList 4 pages
  patch b 32 (le 4 (crc32 (padTo 32768 b)))

/-- Whether a page pair holds a valid record of a stack: its magic, format and stack, and a CRC that matches. -/
def retireGood (s : Nat) (b : Bytes) : Bool :=
  fld b 0 2 = 0x5254 && fld b 2 1 = 1 && fld b 3 1 = s && fld b 32 4 = crc32 (padTo 32768 (patch b 32 (zeros 4)))

/-- The valid records of both slots of a stack, each with its slot and page pair. -/
def Mem.retireRecords (x : Mem) (s : Nat) : List (Nat × Nat × Bytes) :=
  [2 * s, 2 * s + 1].flatMap (fun k =>
    ((tget [] x.retireFlash k).zipIdx.filter (fun e => retireGood s e.1)).map (fun e => (k, e.2, e.1)))

/-- The record of the highest SEQ of a list. -/
def newestRetire (l : List (Nat × Nat × Bytes)) : Option (Nat × Nat × Bytes) :=
  l.foldl (fun m r => match m with | some x => if fld x.2.2 4 4 < fld r.2.2 4 4 then some r else m | none => some r) none

/-- A record goes into the slot that does not hold the newest valid one, in its next free page pair; that slot's block, where it is
full, is erased first (R309). A record that is torn leaves a page pair that holds none. -/
def Dev.writeRetire (d : Dev) (s : Nat) (pages : List Nat) (ok : Bool) : Dev × Nat :=
  let newest := newestRetire (d.mem.retireRecords s)
  let slot := match newest with | some x => if x.1 = 2 * s then 2 * s + 1 else 2 * s | none => 2 * s
  let seq := (newest.map (fun x => fld x.2.2 4 4)).getD 0 + 1
  let held := tget [] d.mem.retireFlash slot
  let held := if 32 ≤ held.length then [] else held
  let d := { d with mem := { d.mem with
      retireFlash := tset d.mem.retireFlash slot (held ++ [if ok then retireRecord s seq pages else []]) } }
  (if ok then d.flashWritten (.retire slot 0) else d.flashFailed, seq)

/-- The remap table of a stack as its retirement list gives it: entry k directs its page to spare k, chains resolved. -/
def remapOf (s : Nat) (pages : List Nat) : List (Nat × Nat) :=
  let direct := pages.zipIdx.map (fun (e : Nat × Nat) => (e.1, sparePage + e.2))
  let follow := fun (p : Nat) => direct.foldl (fun q (e : Nat × Nat) => if e.1 = q then e.2 else q) p
  direct.map (fun e => (pageKey s e.1, follow e.1))

/-- The records of a stack whose pages read good (R312), each read once. -/
def Dev.readRetire (d : Dev) (s : Nat) : Dev × List (Nat × Nat × Bytes) :=
  (d.mem.retireRecords s).foldl (fun r x =>
    let y := r.1.readFlash (fun p => p == .retire x.1 x.2.1)
    (y.1, if y.2 then r.2 ++ [x] else r.2)) (d, [])

/-- The remap table of a stack is loaded from the newest record of either slot whose pages read good and whose CRC matches (R309). -/
def loadRemap (m : Dev × Hbm) (s : Nat) : Dev × Hbm :=
  let r := m.1.readRetire s
  let l := match newestRetire r.2 with
    | some x => (upto (fld x.2.2 8 2)).map (fun k => fld x.2.2 (64 + 4 * k) 4 % 2 ^ 24)
    | none => []
  let mine := fun (k : Nat) => k / 2 ^ 32 == 23 + s
  let d := { r.1 with mem := { r.1.mem with
      retired := tset r.1.mem.retired s l, reloading := r.1.mem.reloading.filter (· != s)
      sramPoison := r.1.mem.sramPoison.filter (fun k => !mine k), sramFlaws := r.1.mem.sramFlaws.filter (fun e => !mine e.1) } }
  let rest := m.2.remap.filter (fun e => e.1 / 2 ^ 24 != s)
  (d, { m.2 with remap := (remapOf s l).foldl (fun t e => tset t e.1 e.2) rest })

/-! ### Demand accesses -/

/-- A request finds the stack's remap table (R302): a word of it in a single-bit error is corrected; after a lost word, and while the table
reloads, the request waits for the reload to end. -/
def tableReady (m : Dev × Hbm) (s : Nat) : Dev × Hbm :=
  let mine := ((m.1.mem.sramPoison ++ m.1.mem.sramFlaws.map (·.1)).filter (fun k => k / 2 ^ 32 == 23 + s)).eraseDups
  let d := (mine.filter (fun k => !m.1.mem.sramBad k)).foldl (fun d k => d.sramCorrected 0 (23 + s) (k % 2 ^ 32)) m.1
  let d := match mine.find? m.1.mem.sramBad with
    | some k => d.remapLost 0 s (k % 2 ^ 32)
    | none => d
  if d.mem.reloading.contains s then loadRemap (d, m.2) s else (d, m.2)

/-- A request reads the valid-map word of a block: in a single-bit error it is corrected, otherwise the word is lost (R302). -/
def mapReady (m : Dev × Hbm) (s p : Nat) : Dev × Hbm :=
  let k := sramKey (15 + s) (p / 64)
  if m.1.mem.sramBad k then mapLost m 0 s (p / 64)
  else if tget 0 m.1.mem.sramFlaws k = 1 then (m.1.sramCorrected 0 (15 + s) (p / 64), m.2)
  else m

/-- Stack and served code word of a 64-byte aligned offset. -/
def placeWord (m : Dev × Hbm) (off : Nat) : Nat × Nat :=
  let sp := m.1.placePage off
  (sp.1, m.2.phys sp.1 sp.2 * 64 + off % 4096 / 64)

/-- A request to a code word, once the tables of its stack can be read: what serves it. -/
def served (m : Dev × Hbm) (off : Nat) : (Dev × Hbm) × Nat × Nat :=
  let m := tableReady m (m.1.placePage off).1
  let a := placeWord m off
  (mapReady m a.1 (a.2 / 64), a)

/-- A demand read of a code word. One outside the HBM or in a spare pool is refused (R294); the unit then has no data, and goes on as
with poison (DESIGN CHOICE, log 105). -/
def readWord (m : Dev × Hbm) (off : Nat) : (Dev × Hbm) × Bytes × Bool :=
  if !m.1.hbmRange off 64 then (m, zeros 64, true)
  else
    let a := served m off
    decodeWord a.1 0 a.2.1 a.2.2

/-- A write of a code word: its block becomes valid and joins the zero-fill queue where it was not (R300). One outside the HBM or in a
spare pool is refused (R294). -/
def writeWord (m : Dev × Hbm) (off : Nat) (data : Bytes) (poison : Bool) : Dev × Hbm :=
  if !m.1.hbmRange off 64 then m
  else
    let a := served m off
    let s := a.2.1
    let w := a.2.2
    let d := if a.1.2.valid.contains (pageKey s (w / 64)) then a.1.1.maskWords s (w / 64) [w % 64]
      else a.1.1.queueBlocks [{ stack := s, page := w / 64, mask := [w % 64] }]
    (d, a.1.2.setWord s w data poison)

/-- `n` code words from an offset: their bytes, and whether any was poisoned. -/
def readWords (m : Dev × Hbm) (off : Nat) : Nat → (Dev × Hbm) × Bytes × Bool
  | 0 => (m, [], false)
  | n + 1 =>
    let a := readWord m off
    let b := readWords a.1 (off + 64) n
    (b.1, a.2.1 ++ b.2.1, a.2.2 || b.2.2)

/-- Code words written one after another. -/
def writeChunks (m : Dev × Hbm) (off : Nat) (poison : Bool) : List Bytes → Dev × Hbm
  | [] => m
  | c :: t => writeChunks (writeWord m off c poison) (off + 64) poison t

/-- A narrow or misaligned write of a unit is answered with an error, counted in NARROW_REFUSED and logged with kind 4 (R297). -/
def Dev.narrowRefused (d : Dev) (off : Nat) : Dev :=
  let x := d.placePage off
  (d.bump 0x2800 2).memEvent 4 0 x.1 5 0 (x.2 * 4096 + off % 4096) 0 0

/-- A string of whole code words is written from an aligned offset; with POISON every word takes the poison code (R310). Any other
write is refused whole (R297). -/
def writeBytes (m : Dev × Hbm) (off : Nat) (data : Bytes) (poison : Bool) : Dev × Hbm :=
  if wholeWords off data.length then writeChunks m off poison (chunks 64 (data.length / 64) data) else (m.1.narrowRefused off, m.2)

/-- The element of `k` bytes at an offset, read from its code word. -/
def readElem (m : Dev × Hbm) (off k : Nat) : (Dev × Hbm) × Nat × Bool :=
  let r := readWord m (off / 64 * 64)
  (r.1, fld r.2.1 (off % 64) k, r.2.2)

/-- An element is written into its code word, which is written whole. -/
def writeElem (m : Dev × Hbm) (off k v : Nat) (poison : Bool) : Dev × Hbm :=
  let a := placeWord m (off / 64 * 64)
  let w := (m.2.wordAt a.1 a.2).1
  writeWord m (off / 64 * 64) (patch w (off % 64) (le k v)) poison

/-- Blocks become invalid (R301): the pages of a list of page offsets. -/
def dropPages (m : Dev × Hbm) (pages : List Nat) : Dev × Hbm :=
  pages.foldl (fun m p =>
    let x := m.1.placePage p
    let q := m.2.phys x.1 x.2
    (m.1.unqueue (fun f => f.stack == x.1 && f.page == q), m.2.dropPage x.1 q)) m

/-- A stack loses every block: its domain was switched on (R299, R301). -/
def Hbm.dropStack (h : Hbm) (s : Nat) : Hbm :=
  { h with
    cells := h.cells.filter (fun c => c.1 / 2 ^ 36 != s)
    poison := h.poison.filter (fun w => w / 2 ^ 30 != s)
    valid := h.valid.filter (fun p => p / 2 ^ 24 != s)
    flaws := h.flaws.filter (fun e => e.1 / 2 ^ 30 != s) }

/-- Whether two ranges (start, length) overlap. -/
def overlaps (a b : Nat × Nat) : Bool := decide (0 < a.2) && decide (0 < b.2) && decide (a.1 < b.1 + b.2) && decide (b.1 < a.1 + a.2)

end Sys2Proof.Machine
end

