-- ==== Sys2Proof/Machine/Power.lean ====
section
/-!
DEFINITION. Power domains, their order and their guards (R27, R29, R367 to R370), the permit arbiter (R371 to R379) and
the thermal ladder's figures (R381). The commands of chapter 14 call these operations.
-/

namespace Sys2Proof.Machine
open Sys2Proof

/-! ### Domains -/

/-- The order in which domains are switched on (Table 14.2). -/
def onOrder : List Nat := [0, 15, 1, 2, 3, 4, 5, 6, 7, 8, 12, 13, 14, 9, 10, 11]

/-- The domains that a domain requires (Table 1.7). -/
def requires : Nat → List Nat
  | 1 => [0] | 2 => [1] | 3 => [1] | 4 => [3] | 5 => [3, 4] | 6 => [3, 4] | 7 => [3, 4] | 8 => [3] | 9 => [1, 3]
  | 10 => [1, 3] | 11 => [9, 10, 12, 13] | 12 => [1] | 13 => [1] | 14 => [12] | 15 => [0] | _ => []

/-- Ramp time of a domain's rails (Table 14.2), in ns. -/
def rampTime : Nat → Nat
  | 15 => Config.ms | 1 => 5 * Config.ms | 2 => 2 * Config.ms | 3 => 10 * Config.ms | 4 => 2 * Config.ms
  | 5 => 2 * Config.ms | 6 => 2 * Config.ms | 7 => 2 * Config.ms | 8 => 5 * Config.ms | 12 => 20 * Config.ms
  | 13 => 20 * Config.ms | 14 => Config.ms | 9 => 3 * Config.ms | 10 => 3 * Config.ms | 11 => 10 * Config.ms | _ => 0

/-- Largest rail power of a domain (Table 14.2), in mW. -/
def Dev.domainPower (d : Dev) (k : Nat) : Nat :=
  if d.isC then
    ([1500, 35000, 3000, 8000, 30000, 30000, 30000, 30000, 40000, 45000, 70000, 180000, 75000, 75000, 15000, 6000] : List Nat).getD k 0
  else
    ([1500, 35000, 3000, 8000, 30000, 30000, 30000, 30000, 40000, 15000, 40000, 0, 38000, 0, 15000, 6000] : List Nat).getD k 0

/-- Whether the variant has a domain: an LD-512S never powers PD11 and PD13 (Table 1.7). -/
def Dev.domainPresent (d : Dev) (k : Nat) : Bool := d.isC || (k != 11 && k != 13)

/-- The domains that require a domain, directly or through others. -/
def dependants (k : Nat) : List Nat :=
  let step := fun (l : List Nat) => l ++ onOrder.filter (fun x => !l.contains x && (requires x).any l.contains)
  ((step (step (step (step [k])))).filter (· != k))

/-- What R27 switches off for a domain, in the reverse of the order of Table 14.2: the dependants that are on or ramping,
then it. -/
def Dev.offList (d : Dev) (k : Nat) : List Nat :=
  (onOrder.reverse.filter (fun x => (dependants k).contains x && (d.isOn x || d.domain x == .ramping))) ++ [k]

/-- The crossings of Table 1.9 that enter or leave a domain (R32): those of PD11 and PD14 are the ways of their words to the optics, the HBM
and the slices (R24, Table 1.5). -/
def crossingsOf : Nat → List Nat
  | 1 => [7, 8, 9, 10, 11, 14, 15, 17, 18, 19] | 2 => [15, 16] | 3 => [1, 2, 8, 9, 12, 13, 14, 16]
  | 4 => [1, 2, 3, 4, 5, 6, 7] | 5 => [1, 2, 3, 4, 5, 6, 7] | 6 => [1, 2, 3, 4, 5, 6, 7] | 7 => [1, 2, 3, 4, 5, 6, 7]
  | 8 => [3, 4, 5, 6] | 9 => [10, 11, 12, 13] | 10 => [10, 11, 12, 13] | 12 => [17] | 13 => [17] | 11 => [10, 11, 17] | 14 => [7, 17] | _ => []

/-- Whether a job of this Director is RUNNING or RESTARTING. -/
def Dev.anyJobUp (d : Dev) : Bool := d.jobs.any (fun e => e.2.state == .running || e.2.state == .restarting)

/-- Whether this Director holds COLL_GRANT. -/
def Dev.holdsColl (d : Dev) : Bool := d.twin.ownColl

/-- The switch-off guard of Table 14.2 for one domain. -/
def Dev.offGuard (d : Dev) (k : Nat) : Bool :=
  let free := !d.inState [.armed, .serving]
  let coll := !(d.holdsColl && d.anyJobUp)
  if k = 0 || k = 15 || k = 1 || k = 2 then false
  else if k = 3 || k = 4 || k = 5 || k = 6 || k = 7 || k = 8 then free
  else if k = 12 || k = 13 || k = 11 then coll
  else if k = 9 || k = 10 then free && coll
  else true

/-- A crossing discards words and counts them (R29, R34). -/
def Dev.discard (d : Dev) (x words : Nat) : Dev :=
  { d with module := { d.module with discards := tmod 0 d.module.discards x (fun n => (n + words) % 2 ^ 32) } }

/-- A domain is isolated with no request that waits for its quiescing (R29): what its crossings still hold after 10 µs is
discarded and counted. How many words that is no command brings: free values (log 17). -/
def Dev.isolate (d : Dev) (k : Nat) : Dev :=
  (crossingsOf k).foldl (fun d x => (d.discard x (Config.openNat d.fresh)).drawn 1) d

/-! ### Permits -/

/-- Unit capacity of a permit class (Table 14.3). -/
def Dev.capacity (d : Dev) (cls : Nat) : Nat :=
  match cls with
  | 1 => d.nat 0x2120 1 - 64
  | 2 => d.nat 0x2120 4
  | 3 => 1 | 4 => 1 | 5 => 1 | 6 => 1 | _ => 0

/-- The amount a request takes of its class: the classes of one unit take 1 whatever they name. -/
def permitUnits (cls amount : Nat) : Nat := if cls ≤ 2 then amount else 1

/-- What the grants of a class hold together. -/
def Dev.inUse (d : Dev) (cls : Nat) : Nat :=
  sumN ((d.power.grants.filter (fun g => g.cls == cls)).map (fun g => permitUnits cls g.amount))

/-- PERMIT objects: 3 GRANTS, 4 DEFERRALS, 5 DENIALS, 6 REVOCATIONS, 7 LEASE_ENDS of a class. -/
def Dev.permitCount (d : Dev) (cls sub : Nat) : Dev := d.bump (0x2110 + cls) sub

/-- POWER_LIMIT in mW; its default is the variant's (Table 14.7). -/
def Dev.powerLimit (d : Dev) : Nat :=
  (match tfind d.od (objKey 0x2102 3) with
    | some v => v.toNat
    | none => if d.isC then 780 else 380) * 1000

/-- Whether the thermal level is below another. -/
def Therm.code : Therm → Nat
  | .normal => 0 | .warn => 1 | .throttle => 2 | .shut => 3

/-- Whether every present HBM stack is below 95 °C (Table 14.4). -/
def Dev.hbmCool (d : Dev) : Bool := d.power.hbmTemps.all (fun t => t = -32768 || t < 950)

/-- Whether a job with a shard at this chip (0x4800 + j:03) has a Zenith within 100 ms (Table 14.4). -/
def Dev.shardZenithNear (d : Dev) : Bool :=
  (upto 16).any (fun j =>
    let b := d.oct (0x4800 + j) 3
    let z := (d.run j).zenith
    !b.isEmpty && fld b d.pos 1 != 0xFF && d.jobIn j [.running] && z != 0 && decide (d.now ≤ z + 100 * Config.ms) &&
      decide (z ≤ d.now + 100 * Config.ms))

/-- The conditions of Table 14.4 under which a class is granted; FAULT priority disregards power and heat below
T_shut (R375), and nothing is granted from the declaration of SHUT on (Table 14.6). A domain is switched on only while
every domain that it requires is on and is not being switched off (R27). -/
def Dev.permitOk (d : Dev) (cls : Nat) (prio : Prio) (holder : Nat) : Bool :=
  let fault := prio == .fault
  let heat := d.power.level.code
  heat < 3 &&
  match cls with
  | 1 => d.inState [.armed, .serving]
  | 2 => heat = 0 || prio == .reserved || fault
  | 3 => fault || (d.power.inputPower + d.nat 0x2120 5 * 1000 ≤ d.powerLimit && heat < 2 && d.hbmCool && !d.power.overLimit)
  | 4 => (d.laser holder).state == .present && (fault || d.power.inputPower + 15000 ≤ d.powerLimit)
  | 5 => (fault || heat = 0) && !d.shardZenithNear
  | 6 => (requires holder).all (fun k => d.isOn k && !d.power.toOff.contains k) &&
      (fault || (d.power.inputPower + d.domainPower holder ≤ d.powerLimit && heat < 2 && !d.power.overLimit))
  | _ => false

/-- The cases in which a request is denied (R373, Table 14.4). -/
def Dev.permitDenied (d : Dev) (cls : Nat) (prio : Prio) (amount holder : Nat) : Bool :=
  d.capacity cls < permitUnits cls amount || (!d.isOn 1 && cls != 6) || d.power.level == .shut ||
  match cls with
  | 1 => !d.inState [.armed, .serving]
  | 2 => prio == .background && d.power.level != .normal
  | 3 => d.isC && d.coll.state != .ready && !d.coll.models.any (fun m => m.2.state == .filling || m.2.state == .fetching)
          && !d.twin.mirrors.any (fun m => m.2.restore = 1)
  | 4 => let l := d.laser holder; l.state == .refused || l.state == .absent || l.state == .safe || !d.isOn 10
  | 5 => !d.isC || d.holdsColl || (prio != .fault && d.power.level != .normal)
  | 6 => !d.domainPresent holder || (requires holder).any (fun k => !d.isOn k)
  | _ => true

/-- The lease of a class (Table 14.3), in ns; 0 where the requester gives the end. -/
def leaseTime (cls holder : Nat) : Nat :=
  match cls with
  | 2 => Config.ms | 3 => 100 * Config.ms | 4 => 30 * Config.ms | 5 => 2 * Config.sec
  | 6 => rampTime holder + 5 * Config.ms | _ => 0

/-- Rank of a priority, highest first. -/
def prioRank : Prio → Nat
  | .fault => 0 | .reserved => 1 | .normal => 2 | .background => 3

/-- A deferred request takes its place by priority and then by arrival (R373). -/
def deferInsert (p : Permit) : List Permit → List Permit
  | [] => [p]
  | x :: t => if prioRank p.prio < prioRank x.prio then p :: x :: t else x :: deferInsert p t

/-- What a grant starts at once: a domain ramps (R367), a laser slot is enabled but for its dead lasers (R211, R212). -/
def Dev.onGrant (d : Dev) (cls holder : Nat) : Dev :=
  match cls with
  | 6 =>
    let d := (d.setDomain holder .ramping).emit (.supply holder true)
    { d with power := { d.power with rampAt := tset d.power.rampAt holder d.now } }
  | 4 =>
    (d.modLaser holder (fun l => { l with state := .enabling })).emit
      (.laser holder (maskOut (2 ^ (if holder = 3 then 4 else 8) - 1) (d.laser holder).dead) false)
  | _ => d

/-- A grant is given: GRANTS counts it and its effect starts. -/
def Dev.grant (d : Dev) (p : Permit) : Dev :=
  let p := { p with till := if p.till = 0 then d.now + leaseTime p.cls p.holder else p.till }
  let d := { d with power := { d.power with grants := d.power.grants ++ [p] } }
  ((d.permitCount p.cls 3).emit (.permit p.cls p.holder 0)).onGrant p.cls p.holder

/-- Whether a request fits and its conditions hold. -/
def Dev.permitFits (d : Dev) (p : Permit) : Bool :=
  d.inUse p.cls + permitUnits p.cls p.amount ≤ d.capacity p.cls && d.permitOk p.cls p.prio p.holder

/-- The grant of a class and holder. -/
def Dev.grantOf (d : Dev) (cls holder : Nat) : Option Permit :=
  d.power.grants.find? (fun g => g.cls == cls && g.holder == holder)

/-- A grant is given back (R374). -/
def Dev.release (d : Dev) (cls holder : Nat) : Dev :=
  { d with power := { d.power with
      grants := d.power.grants.filter (fun g => !(g.cls == cls && g.holder == holder))
      deferred := d.power.deferred.filter (fun g => !(g.cls == cls && g.holder == holder)) } }

/-- Grants and deferred requests of a class end with their requester's domain or role (R374). -/
def Dev.endPermits (d : Dev) (cls : Nat) (sel : Nat → Bool) : Dev :=
  let keep := fun (g : Permit) => !(g.cls == cls && sel g.holder)
  { d with power := { d.power with grants := d.power.grants.filter keep, deferred := d.power.deferred.filter keep } }

/-- The newest grant of a class that a FAULT request may revoke: BACKGROUND before NORMAL (R375). -/
def Dev.revocable (d : Dev) (cls : Nat) : Option Permit :=
  match (d.power.grants.filter (fun g => g.cls == cls && g.prio == .background)).getLast? with
  | some g => some g
  | none => (d.power.grants.filter (fun g => g.cls == cls && g.prio == .normal)).getLast?

/-- A grant is revoked: REVOCATIONS counts it; what the end of its lease does follows in the caller (R375). -/
def Dev.revoke (d : Dev) (g : Permit) : Dev :=
  ((d.release g.cls g.holder).permitCount g.cls 6).emit (.permit g.cls g.holder 3)

/-- Grants are revoked, at most `n`, until a FAULT request fits. -/
def Dev.revokeFor (d : Dev) (p : Permit) : Nat → Dev
  | 0 => d
  | n + 1 =>
    if d.inUse p.cls + permitUnits p.cls p.amount ≤ d.capacity p.cls then d
    else match d.revocable p.cls with
      | some g => (d.revoke g).revokeFor p n
      | none => d

/-- A request is granted, deferred or denied (R373). `till` 0 asks for the class's own lease. -/
def Dev.request (d : Dev) (cls : Nat) (prio : Prio) (amount holder till : Nat) : Dev :=
  let p : Permit := { cls := cls, amount := amount, prio := prio, holder := holder, till := till, order := d.power.nextOrder }
  let d := { d with power := { d.power with nextOrder := d.power.nextOrder + 1 } }
  if d.permitDenied cls prio amount holder then (d.permitCount cls 5).emit (.permit cls holder 2)
  else
    let d := if prio == .fault then d.revokeFor p d.power.grants.length else d
    if d.permitFits p then d.grant p
    else
      (({ d with power := { d.power with deferred := deferInsert p d.power.deferred } }).permitCount cls 4).emit
        (.permit cls holder 1)

/-- The deferred requests are reconsidered in their order at a cycle start (R373); a reserved slew grows by the part
that fits (R376). -/
def Dev.reconsider (d : Dev) : List Permit → Dev
  | [] => d
  | p :: t =>
    if d.permitFits p then
      let d := { d with power := { d.power with
          deferred := d.power.deferred.filter (fun x => x.order != p.order) } }
      (d.grant p).reconsider t
    else
      let free := d.capacity 1 - d.inUse 1
      if p.cls = 1 && 0 < free && d.permitOk 1 p.prio p.holder then
        let rest := fun (x : Permit) => if x.order = p.order then { x with amount := p.amount - free } else x
        let d := { d with power := { d.power with deferred := d.power.deferred.map rest } }
        (d.grant { p with amount := free }).reconsider t
      else d.reconsider t

/-- Every deferred request is reconsidered. -/
def Dev.arbiter (d : Dev) : Dev := d.reconsider d.power.deferred

/-! ### The SLEW class (R376) -/

/-- The SLEW holder that stands for an entry of a job. -/
def slewHolder (job entry : Nat) : Nat := job * 65536 + entry

/-- The holder of the CAL reservation of an entry (R170, R376). -/
def calHolder (job entry : Nat) : Nat := 1000000 + job * 65536 + entry

/-- At its launch window an entry requests its axes at RESERVED priority: the part that fits is granted, the rest
stays deferred, and a short first grant counts in RESERVATION_SHORT. -/
def Dev.requestSlew (d : Dev) (job entry amount till : Nat) : Dev :=
  let h := slewHolder job entry
  let free := d.capacity 1 - d.inUse 1
  if d.permitDenied 1 .reserved (min amount (d.capacity 1)) h then (d.permitCount 1 5).emit (.permit 1 h 2)
  else if amount ≤ free then d.request 1 .reserved amount h till
  else
    let d := if 0 < free then d.request 1 .reserved free h till else d
    let p : Permit := { cls := 1, amount := amount - free, prio := .reserved, holder := h, till := till, order := d.power.nextOrder }
    let d := { d with power := { d.power with nextOrder := d.power.nextOrder + 1, deferred := deferInsert p d.power.deferred } }
    (d.permitCount 1 4).bump 0x2120 3

/-- The axes granted to an entry. -/
def Dev.slewGranted (d : Dev) (job entry : Nat) : Nat :=
  sumN ((d.power.grants.filter (fun g => g.cls == 1 && g.holder == slewHolder job entry)).map (·.amount))

/-- SLEW_IN_FLIGHT: axes in SLEW (R376). -/
def Dev.slewing (d : Dev) : Nat := (d.eng.axes.filter (fun e => e.2.state == .slew)).length

/-! ### Switching a domain on -/

/-- A switch-on is asked of the sequencer: the domain must be present and off, and takes a DOMAIN_UP grant (R368). -/
def Dev.switchOn (d : Dev) (k : Nat) (prio : Prio) : Dev :=
  if d.isOn k || d.domain k == .ramping then d else d.request 6 prio k k 0

/-- DOMAIN_RESULT. -/
def Dev.domainResult (d : Dev) (r : Nat) : Dev := d.setNum 0x2100 0x12 r

/-! ### Heat (R381, Table 14.5), in 0.1 °C -/



/-- The die temperature: the highest sensor. -/
def dieTemp (l : List Int) : Int := maxI 0 l

end Sys2Proof.Machine
end

