-- ==== Sys2Proof/Machine/Almanac.lean ====
section
/-!
DEFINITION. The constellation and almanac formats (R73 to R79), their structural and sequence validation (R82 to R84),
and the load report (R87).
-/

namespace Sys2Proof.Machine
open Sys2Proof

/-! ### Constellations (Tables 3.4 to 3.6) -/

/-- One entry of a constellation (Table 3.5). -/
structure CEntry where
  north : Nat
  south : Nat
  /-- 0 CLEAN, 1 GRADED, 2 KEEP, 3 VACANT. -/
  handover : Nat
  plane : Nat
  lanes : Nat
  weights : List Nat
  /-- MODE[7:3]. -/
  rsvd : Nat
  deriving DecidableEq, Repr

/-- An entry of a constellation, from its twelve bytes (R86). -/
def centryAt (b : Bytes) (n : Nat) : CEntry :=
  let m := fld b 2 1
  { north := n, south := fld b 0 2, handover := m % 4, plane := m / 4 % 2, lanes := fld b 3 1,
    weights := (slice b 4 8).map (·.toNat), rsvd := m / 8 }

/-- The entry of a north port in a constellation (R86). -/
def centry (b : Bytes) (n : Nat) : CEntry := centryAt (b.drop (16 + 12 * n)) n

/-- A number of entries from an entry's bytes on. -/
def centriesFrom : Nat → Nat → Bytes → List CEntry
  | 0, _, _ => []
  | k + 1, n, b => centryAt b n :: centriesFrom k (n + 1) (b.drop 12)

/-- The 512 entries. -/
def centries (b : Bytes) : List CEntry := centriesFrom 512 0 (b.drop 16)

/-- Whether the entry starts a circuit: CLEAN or GRADED with a south port. -/
def CEntry.starts (e : CEntry) : Bool := e.handover < 2 && e.south != 0xFFFF

/-- Whether the entry keeps a lit circuit. -/
def CEntry.keepsLit (e : CEntry) : Bool := e.handover == 2 && e.south != 0xFFFF

/-- Whether the entry is Vacant. -/
def CEntry.vacant (e : CEntry) : Bool := e.handover == 3

/-- Weights of 0 to 200 on mask lanes and 0 elsewhere (Table 3.6). -/
def CEntry.weightsOk (e : CEntry) : Bool :=
  (upto 8).all (fun k => if e.lanes.testBit k then decide (e.weights.getD k 0 ≤ 200) else e.weights.getD k 0 == 0)

/-- The entry forms of Table 3.6. -/
def CEntry.formOk (e : CEntry) : Bool :=
  if e.south = 0xFFFF then e.handover != 1 && e.plane == 0 && e.lanes == 0 && e.weights.all (· == 0)
  else decide (e.south < 512) && e.handover != 3 && e.lanes != 0 && e.weightsOk

/-! ### Load reports (R87) -/

/-- What a validation found: result code, failing entry, offset of the field, conflicting ports. -/
structure Report where
  code : Nat
  entry : Nat := 0xFFFFFFFF
  offset : Nat := 0
  ports : List Nat := []
  deriving DecidableEq, Repr

/-- The 64 bytes of a load report. -/
def Report.bytes (r : Report) : Bytes :=
  le 1 r.code ++ [0] ++ le 4 r.entry ++ le 4 r.offset ++ le 2 r.ports.length ++
    leList 2 ((r.ports ++ List.replicate 26 0xFFFF).take 26)

/-- The report of an accepted load. -/
def Report.accepted : Report := { code := 0 }

/-! ### Structural checks of a constellation (R82) -/

/-- The CRC-32 of an object with its four CRC bytes at an offset read as zero. -/
def crcWithout (b : Bytes) (off : Nat) : Nat := crc32 (patch b off (zeros 4))

/-- The report of a reserved field that is not zero (R13). -/
def reservedReport (entry offset : Nat) : Report := { code := 4, entry := entry, offset := offset }

/-- The first nonzero reserved field: header bytes 5 to 7, then MODE[7:3] of an entry (R13). -/
def constReserved (b : Bytes) : Option Report :=
  match ([5, 6, 7] : List Nat).find? (fun o => fld b o 1 != 0) with
  | some o => some (reservedReport 0xFFFFFFFF o)
  | none => ((centries b).find? (fun e => e.rsvd != 0)).map (fun e => reservedReport e.north (16 + 12 * e.north + 2))

/-- The structural checks of R82, in their order. -/
def constStructure (b : Bytes) : Option Report :=
  if b.length != 6160 then some { code := 1 }
  else if fld b 0 2 != 0x4C43 then some { code := 2, offset := 0 }
  else if fld b 2 1 != 1 then some { code := 2, offset := 2 }
  else if fld b 12 4 != crcWithout b 12 then some { code := 3, offset := 12 }
  else match constReserved b with
    | some r => some r
    | none =>
      if 15 < fld b 3 1 then some { code := 6, offset := 3 }
      else if 2 < fld b 4 1 then some { code := 5, offset := 4 }
      else ((centries b).find? (fun e => !e.formOk)).map
        (fun e => { code := 9, entry := e.north, offset := 16 + 12 * e.north })

/-- The ports at which the entries break the ownership sentences of R75 under a port map. -/
def ownershipPorts (ports : Nat) (es : List CEntry) : List Nat :=
  es.flatMap (fun e =>
    (if ports.testBit e.north == e.vacant then [e.north] else []) ++
    (if e.south != 0xFFFF && !ports.testBit (southPort e.south) then [southPort e.south] else []))

/-- The south ports that two entries name (R75). -/
def southTwice (es : List CEntry) : List Nat :=
  let named := (es.filter (fun e => e.south != 0xFFFF)).map (·.south)
  ((upto 512).filter (fun s => decide (1 < (named.filter (· == s)).length))).map southPort

/-- The first entry that breaks the ownership sentences of R75 under a port map, and the offset of its failing field: MODE
where it is or is not Vacant, else SOUTH. -/
def ownershipFault (ports : Nat) (es : List CEntry) : Option (Nat × Nat) :=
  es.findSome? (fun e =>
    if ports.testBit e.north == e.vacant then some (e.north, 16 + 12 * e.north + 2)
    else if e.south != 0xFFFF && !ports.testBit (southPort e.south) then some (e.north, 16 + 12 * e.north)
    else none)

/-- The first entry that names a south port which an earlier entry names (R75). -/
def twiceFault : List CEntry → List Nat → Option Nat
  | [], _ => none
  | e :: t, seen =>
    if e.south = 0xFFFF then twiceFault t seen
    else if seen.contains e.south then some e.north else twiceFault t (e.south :: seen)

/-- Ownership under R75 against a port map: result 8, then result 7, each at its first failing field (R87). -/
def constOwnership (ports : Nat) (b : Bytes) : Option Report :=
  let es := centries b
  match ownershipFault ports es with
  | some f => some { code := 8, entry := f.1, offset := f.2, ports := ownershipPorts ports es }
  | none => (twiceFault es []).map (fun n => { code := 7, entry := n, offset := 16 + 12 * n, ports := southTwice es })

/-! ### Almanacs (Tables 3.7 to 3.10) -/

/-- ENTRY_COUNT. -/
def almE (b : Bytes) : Nat := fld b 4 4
/-- DETOUR_COUNT. -/
def almD (b : Bytes) : Nat := fld b 8 2
/-- VARIANT_COUNT. -/
def almV (b : Bytes) : Nat := fld b 10 1
/-- TAG. -/
def almTag (b : Bytes) : Nat := fld b 12 4
/-- MEMBERS. -/
def almMembers (b : Bytes) : Nat := fld b 16 8
/-- TIMING_CRC. -/
def almTiming (b : Bytes) : Nat := fld b 24 4

/-- A variant record (Table 3.8). -/
structure Variant3 where
  first : Nat
  count : Nat
  span : Nat
  deriving DecidableEq, Repr

/-- Variant v. -/
def almVariant (b : Bytes) (v : Nat) : Variant3 :=
  let o := 32 + 16 * v
  { first := fld b o 4, count := fld b (o + 4) 4, span := fld b (o + 8) 4 }

/-- An almanac entry (Table 3.9). -/
structure AEntry where
  index : Nat
  orbit : Nat
  sub : Nat
  slot : Nat
  flags : Nat
  cls : Nat
  amount : Nat
  prefetch : Nat
  deriving DecidableEq, Repr

/-- The offset of entry i. -/
def entryOff (b : Bytes) (i : Nat) : Nat := 32 + 16 * almV b + 16 * i

/-- Entry i. -/
def almEntry (b : Bytes) (i : Nat) : AEntry :=
  let o := entryOff b i
  let p := fld b (o + 12) 2
  { index := i, orbit := fld b o 4, sub := fld b (o + 4) 4, slot := fld b (o + 8) 2, flags := fld b (o + 10) 2,
    cls := p / 8192, amount := p % 8192, prefetch := fld b (o + 14) 2 }

/-- STEP_START of an entry. -/
def AEntry.stepStart (e : AEntry) : Bool := e.flags.testBit 0
/-- MIRROR_EPOCH of an entry. -/
def AEntry.mirrorEpoch (e : AEntry) : Bool := e.flags.testBit 1
/-- IDLE_WINDOW of an entry. -/
def AEntry.idleWindow (e : AEntry) : Bool := e.flags.testBit 2

/-- A detour record (Table 3.10). -/
structure DRec where
  index : Nat
  port : Nat
  base : Nat
  slot : Nat
  variant : Nat
  deriving DecidableEq, Repr

/-- The offset of detour record r. -/
def detourOff (b : Bytes) (r : Nat) : Nat := 32 + 16 * almV b + 16 * almE b + 8 * r

/-- Detour record r. -/
def almDetour (b : Bytes) (r : Nat) : DRec :=
  let o := detourOff b r
  { index := r, port := fld b o 2, base := fld b (o + 2) 2, slot := fld b (o + 4) 2, variant := fld b (o + 6) 1 }

/-- The detour records. -/
def almDetours (b : Bytes) : List DRec := (upto (almD b)).map (almDetour b)

/-- The entries of variant v, in order. -/
def variantEntries (b : Bytes) (v : Nat) : List AEntry :=
  let r := almVariant b v
  (upto r.count).map (fun i => almEntry b (r.first + i))

/-- Every slot that an almanac references, as SLOT or in a detour record (R81). -/
def almSlots (b : Bytes) : List Nat :=
  (upto (almE b)).map (fun i => (almEntry b i).slot) ++ (almDetours b).flatMap (fun r => [r.base, r.slot])

/-- The Zenith of an entry of a variant of span `span` with base Orbit `base` in loop k (R79). -/
def zenithOf (o : OrbitDef) (base span k : Nat) (e : AEntry) : Nat :=
  o.epoch + (base + k * span + e.orbit) * o.period + e.sub

/-! ### Structural checks of an almanac (R83) -/

/-- The variant layout of R77: each starts where the previous ends, the last ends at ENTRY_COUNT − 1, every COUNT and
SPAN is at least 1. The answer is the offset of the first field that breaks it: FIRST, COUNT (also of the last record, where
it does not end at ENTRY_COUNT − 1) or SPAN. -/
def layoutFault (b : Bytes) : List Nat → Nat → Option Nat
  | [], at_ => if at_ = almE b then none else some (32 + 16 * (almV b - 1) + 4)
  | v :: t, at_ =>
    let r := almVariant b v
    if r.first != at_ then some (32 + 16 * v)
    else if r.count = 0 || almE b < at_ + r.count then some (32 + 16 * v + 4)
    else if r.span = 0 then some (32 + 16 * v + 8)
    else layoutFault b t (at_ + r.count)

/-- Entries in strictly increasing order of (ORBIT_OFFSET, SUB_ORBIT): the first that is not, with the place of its failing
field in the entry, SUB_ORBIT where the Orbits are equal. -/
def orderFault : List AEntry → Option (AEntry × Nat)
  | [] => none
  | [_] => none
  | x :: y :: t =>
    if x.orbit < y.orbit || (x.orbit = y.orbit && x.sub < y.sub) then orderFault (y :: t)
    else some (y, if x.orbit = y.orbit then 4 else 0)

/-- The first reserved field that is not zero (R13). -/
def almReserved (b : Bytes) : Option Report :=
  let none_ := 0xFFFFFFFF
  if fld b 11 1 != 0 then some (reservedReport none_ 11)
  else match (upto (almV b)).find? (fun v => fld b (32 + 16 * v + 12) 4 != 0) with
    | some v => some (reservedReport none_ (32 + 16 * v + 12))
    | none => match (upto (almE b)).find? (fun i => decide (8 ≤ (almEntry b i).flags)) with
      | some i => some (reservedReport i (entryOff b i + 10))
      | none => ((upto (almD b)).find? (fun r => fld b (detourOff b r + 7) 1 != 0)).map
          (fun r => reservedReport none_ (detourOff b r + 7))

/-- The variant that holds an entry. -/
def variantOf (b : Bytes) (i : Nat) : Variant3 :=
  (((upto (almV b)).map (almVariant b)).find? (fun r => r.first ≤ i && i < r.first + r.count)).getD ⟨0, 0, 0⟩

/-- The field ranges of Table 3.9 for one entry (R83 item 10, R378). -/
def entryRange (period calCap : Nat) (b : Bytes) (i : Nat) : Option Report :=
  let e := almEntry b i
  let o := entryOff b i
  if (variantOf b i).span ≤ e.orbit then some { code := 17, entry := i, offset := o }
  else if e.sub % 2 != 0 || period ≤ e.sub then some { code := 17, entry := i, offset := o + 4 }
  else if 1023 < e.slot then some { code := 14, entry := i, offset := o + 8 }
  else if e.cls != 0 && (e.amount = 0 || (e.cls = 2 && calCap < e.amount)) then
    some { code := 18, entry := i, offset := o + 12 }
  else if 3903 < e.prefetch && e.prefetch != 0xFFFF then some { code := 19, entry := i, offset := o + 14 }
  else none

/-- The field ranges of Table 3.10 for one detour record. -/
def detourRange (b : Bytes) (r : Nat) : Option Report :=
  let x := almDetour b r
  let o := detourOff b r
  if 1023 < x.port then some { code := 16, offset := o }
  else if 1023 < x.base then some { code := 16, offset := o + 2 }
  else if 1023 < x.slot then some { code := 16, offset := o + 4 }
  else if almV b ≤ x.variant then some { code := 16, offset := o + 6 }
  else none

/-- The first report of a list of checks. -/
def firstReport {α : Type} (f : α → Option Report) : List α → Option Report
  | [] => none
  | x :: t => match f x with
    | some r => some r
    | none => firstReport f t

/-- The structural checks of R83, in their order, for job j on a chip. -/
def almStructure (chip j period calCap : Nat) (b : Bytes) : Option Report :=
  if b.length < 32 then some { code := 1 }
  else if fld b 0 2 != 0x4143 then some { code := 2, offset := 0 }
  else if fld b 2 1 != 1 then some { code := 2, offset := 2 }
  else if almE b < 1 || 65536 < almE b then some { code := 13, offset := 4 }
  else if 256 < almD b then some { code := 13, offset := 8 }
  else if almV b < 1 || 4 < almV b then some { code := 13, offset := 10 }
  else if b.length != 32 + 16 * almV b + 16 * almE b + 8 * almD b then some { code := 1 }
  else if fld b 28 4 != crcWithout b 28 then some { code := 3, offset := 28 }
  else match almReserved b with
    | some r => some r
    | none =>
      if fld b 3 1 != j then some { code := 6, offset := 3 }
      else if !(almMembers b).testBit (chip - 0xF000) then some { code := 6, offset := 16 }
      else match (upto (almE b)).find? (fun i => decide (2 < (almEntry b i).cls)) with
        | some i => some { code := 5, entry := i, offset := entryOff b i + 12 }
        | none => match layoutFault b (upto (almV b)) 0 with
          | some o => some { code := 13, offset := o }
          | none => match firstReport (fun v => (orderFault (variantEntries b v)).map
                (fun e => { code := 13, entry := e.1.index, offset := entryOff b e.1.index + e.2 })) (upto (almV b)) with
            | some r => some r
            | none => match firstReport (entryRange period calCap b) (upto (almE b)) with
              | some r => some r
              | none => firstReport (detourRange b) (upto (almD b))

/-! ### Sequence validation (R84) -/

/-- A circuit of the simulation: north, south, plane. -/
structure SimC where
  north : Nat
  south : Nat
  plane : Nat
  deriving DecidableEq, Repr

/-- The simulated circuits of a job, and when each port last moved. -/
structure Sim where
  cs : List SimC := []
  moved : List (Nat × Nat) := []
  deriving DecidableEq, Repr

/-- The circuit that a north port carries. -/
def simNorth (cs : List SimC) (n : Nat) : Option SimC := cs.find? (fun c => c.north == n)

/-- The circuit that a south port carries. -/
def simSouth (cs : List SimC) (s : Nat) : Option SimC := cs.find? (fun c => c.south == s)

/-- Whether a plane is the live plane of a circuit found at a port (R67). -/
def livePlane (c : Option SimC) (plane : Nat) : Bool := match c with | some c => c.plane == plane | none => false

/-- Whether an entry changes a circuit of its port: it ends the one in force or starts one. -/
def CEntry.touches (e : CEntry) : Bool := decide (e.handover < 2)

/-- Whether a constellation keeps the circuit of a north port: it has a Keep-lit entry there. Every other circuit of the job
ends at its Zenith, one at a south port that no entry names among them (R68). -/
def keptAt (es : List CEntry) (n : Nat) : Bool := es.any (fun e => e.north == n && e.keepsLit)

/-- The circuits after the Zenith of a constellation. -/
def simAfter (cs : List SimC) (es : List CEntry) : List SimC :=
  cs.filter (fun c => keptAt es c.north) ++ (es.filter (·.starts)).map (fun e => ⟨e.north, e.south, e.plane⟩)

/-- The ports that move at a Zenith: both ends of every circuit that starts or ends (R84 condition 5). -/
def movedPorts (cs : List SimC) (es : List CEntry) : List Nat :=
  let ended := cs.filter (fun c => !keptAt es c.north)
  (ended.flatMap (fun c => [c.north, southPort c.south]) ++
    (es.filter (·.starts)).flatMap (fun e => [e.north, southPort e.south])).foldl sinsert []

/-- Whether one of the two heads of a new circuit is on a board of a list (R151). -/
def needsBoard (out : List Nat) (e : CEntry) : Bool :=
  out.contains (boardOfHead (headOf e.north e.plane)) || out.contains (boardOfHead (headOf (southPort e.south) e.plane))

/-- Condition 2: the plane of a new circuit is not the shadow at one of its ends, or a head of it is on a board that is
not IN_SERVICE (R151). -/
def planeConflicts (out : List Nat) (cs : List SimC) (es : List CEntry) : List Nat :=
  (es.filter (fun e => e.starts && (needsBoard out e || livePlane (simNorth cs e.north) e.plane ||
    livePlane (simSouth cs e.south) e.plane))).flatMap (fun e => [e.north, southPort e.south])

/-- Condition 3: a Graded entry whose north port has no circuit in force. -/
def gradedDark (cs : List SimC) (es : List CEntry) : List Nat :=
  (es.filter (fun e => e.handover == 1 && (simNorth cs e.north).isNone)).map (·.north)

/-- Condition 4: a Keep that does not match the circuit in force. -/
def keepConflicts (cs : List SimC) (es : List CEntry) : List Nat :=
  (es.filter (fun e => e.handover == 2)).flatMap (fun e =>
    match simNorth cs e.north with
    | some c =>
      if e.south = c.south && e.plane = c.plane then []
      else [e.north, southPort (if e.south = 0xFFFF then c.south else e.south)]
    | none => if e.south = 0xFFFF then [] else [e.north, southPort e.south])

/-- Conditions 2 to 6 of R84 for one constellation at a Zenith, against the circuits before it. -/
def sequenceChecks (out : List Nat) (sim : Sim) (z : Nat) (e : AEntry) (es : List CEntry) (off : Nat) : Option Report :=
  let rep := fun (code : Nat) (ports : List Nat) => some ({ code := code, entry := e.index, offset := off, ports := ports } : Report)
  match planeConflicts out sim.cs es with
  | p :: t => rep 10 (p :: t)
  | [] => match gradedDark sim.cs es with
    | p :: t => rep 20 (p :: t)
    | [] => match keepConflicts sim.cs es with
      | p :: t => rep 12 (p :: t)
      | [] =>
        match (movedPorts sim.cs es).filter (fun p => match tfind sim.moved p with
            | some m => decide (z < m + 10 * Config.ms) | none => false) with
        | p :: t => rep 11 (p :: t)
        | [] =>
          let starts := (es.filter (·.starts)).map (·.north)
          if 64 < 4 * starts.length && !(e.cls = 1 && 4 * starts.length ≤ e.amount) then rep 18 starts
          else none

/-- What the sequence validation of a job needs: its port map, the content of each slot, the Orbit definition. -/
structure SimEnv where
  job : Nat
  ports : Nat
  slots : List (Nat × Bytes)
  orbit : OrbitDef
  alm : Bytes
  /-- The boards that are not IN_SERVICE. -/
  out : List Nat
  /-- DETOUR_SLOT in place of BASE_SLOT, for the run of a detour record. -/
  detour : Option DRec := none
  deriving DecidableEq, Repr

/-- The slot that an entry commits in this run. -/
def SimEnv.slotOf (v : SimEnv) (e : AEntry) : Nat :=
  match v.detour with
  | some r => if e.slot = r.base then r.slot else e.slot
  | none => e.slot

/-- The offset that a failure of an entry reports. -/
def SimEnv.offOf (v : SimEnv) (e : AEntry) : Nat :=
  match v.detour with
  | some r => detourOff v.alm r.index + 4
  | none => entryOff v.alm e.index + 8

/-- Whether a slot is empty or of another job (R84 condition 1). -/
def SimEnv.slotBad (v : SimEnv) (s : Nat) : Bool :=
  let b := tget [] v.slots s
  b.length != 6160 || fld b 3 1 != v.job

/-- One entry of the simulation (R84). -/
def simEntry (v : SimEnv) (base span k : Nat) (sim : Sim) (e : AEntry) : Except Report Sim :=
  let off := v.offOf e
  let b := tget [] v.slots (v.slotOf e)
  if v.slotBad (v.slotOf e) then .error { code := 14, entry := e.index, offset := off }
  else
    let es := centries b
    match ownershipPorts v.ports es ++ southTwice es with
    | p :: t => .error { code := 8, entry := e.index, offset := off, ports := p :: t }
    | [] =>
      let z := zenithOf v.orbit base span k e
      match sequenceChecks v.out sim z e es off with
      | some r => .error r
      | none =>
        .ok { cs := simAfter sim.cs es
              moved := (movedPorts sim.cs es).foldl (fun m p => tset m p z) sim.moved }

/-- One loop of a variant. -/
def simLoop (v : SimEnv) (base span k : Nat) : List AEntry → Sim → Except Report Sim
  | [], sim => .ok sim
  | e :: t, sim => match simEntry v base span k sim e with
    | .error r => .error r
    | .ok sim => simLoop v base span k t sim

/-- Whether two sets of circuits are the same. -/
def sameCircuits (a b : List SimC) : Bool := a.all b.contains && b.all a.contains

/-- Two loops of a variant from given circuits, and the closure of condition 7. -/
def simVariant (v : SimEnv) (n : Nat) (cs : List SimC) : Option Report :=
  let es := variantEntries v.alm n
  let span := (almVariant v.alm n).span
  match simLoop v 0 span 0 es { cs := cs } with
  | .error r => some r
  | .ok s1 => match simLoop v 0 span 1 es s1 with
    | .error r => some r
    | .ok s2 =>
      if sameCircuits s1.cs s2.cs then none
      else
        let last := (es.getLast?.map (·.index)).getD 0
        some { code := 15, entry := last, offset := match v.detour with
          | some r => detourOff v.alm r.index + 4
          | none => entryOff v.alm last + 8 }

/-- The run of one detour record: its slots hold constellations of the job (R81, R82, R84; that a BASE_SLOT which no entry of
the variant names must be filled is DEDUCED, log 65), no circuit stands at TRIGGER_PORT, then its variant runs again (R84). -/
def simDetour (v : SimEnv) (cs : List SimC) (r : DRec) : Option Report :=
  let es := centries (tget [] v.slots r.slot)
  if v.slotBad r.slot || v.slotBad r.base then some { code := 14, offset := detourOff v.alm r.index + (if v.slotBad r.slot then 4 else 2) }
  else if es.any (fun e => e.south != 0xFFFF && (e.north == r.port || southPort e.south == r.port)) then
    some { code := 16, offset := detourOff v.alm r.index + 4 }
  else simVariant { v with detour := some r } r.variant (if r.variant = 0 then cs else [])

/-- Sequence validation of an almanac from the circuits in force (R84). -/
def simAll (v : SimEnv) (cs : List SimC) : Option Report :=
  match firstReport (fun n => simVariant v n (if n = 0 then cs else [])) (upto (almV v.alm)) with
  | some r => some r
  | none => firstReport (simDetour v cs) (almDetours v.alm)

/-! ### The store -/

/-- The content of a constellation slot. -/
def Dev.slot (d : Dev) (s : Nat) : Bytes := d.oct (0x4400 + s) 1

/-- The almanac of a job. -/
def Dev.almanac (d : Dev) (j : Nat) : Bytes := d.oct (0x4800 + j) 1

/-- SLOT_JOB: the job of a slot, 0xFF for an empty one (R80). -/
def Dev.slotJob (d : Dev) (s : Nat) : Nat := if (d.slot s).length = 0 then 0xFF else fld (d.slot s) 3 1

/-- The contents of every slot that an almanac references. -/
def Dev.slotTable (d : Dev) (alm : Bytes) : List (Nat × Bytes) :=
  (almSlots alm).foldl (fun t s => tset t s (d.slot s)) []

/-- Whether a circuit in force has an end at a port of a job: from either side (R68, R84). -/
def Dev.jobCircuit (d : Dev) (j : Nat) (c : Circuit) : Bool :=
  c.inForce && ((d.job j).ports.testBit c.north || (d.job j).ports.testBit (southPort c.south))

/-- The circuits in force on the ports of a job, as the simulation starts from them. -/
def Dev.simCircuits (d : Dev) (j : Nat) : List SimC :=
  (d.circuits.filter (d.jobCircuit j)).map (fun c => ⟨c.north, c.south, c.plane⟩)

/-- The environment of a validation of job j with an almanac and one slot replaced. -/
def Dev.simEnv (d : Dev) (j : Nat) (alm : Bytes) : SimEnv :=
  { job := j, ports := (d.job j).ports, slots := d.slotTable alm, orbit := d.time.inForce, alm := alm
    out := (upto 16).filter (fun b => (d.board b).state != .inService) }

/-- The structural checks for an almanac of a job on this Director. -/
def Dev.almCheck (d : Dev) (j : Nat) (alm : Bytes) : Option Report :=
  almStructure d.chip j d.time.inForce.period (d.nat 0x2120 4) alm

/-- The whole validation of a stored almanac of a job: structural checks (again, R378), then the sequence. -/
def Dev.validate (d : Dev) (j : Nat) (alm : Bytes) : Option Report :=
  match d.almCheck j alm with
  | some r => some r
  | none => simAll (d.simEnv j alm) (d.simCircuits j)

/-! ### The run of an almanac (R79, R90, R96) -/

/-- A sequence number of the job's next entries: the entry and loop that follow an entry of the active variant. -/
def nextOf (alm : Bytes) (v entry loop : Nat) : Nat × Nat :=
  let r := almVariant alm v
  if entry + 1 < r.first + r.count then (entry + 1, loop) else (r.first, loop + 1)

/-- The detour records that are active for an entry of the active variant, lowest first (R90). -/
def Dev.applying (d : Dev) (j slot : Nat) : List DRec :=
  (almDetours (d.almanac j)).filter (fun r =>
    (d.run j).detours.contains r.index && r.variant = (d.run j).variant && r.base = slot)

/-- The slot that an entry of a job commits: its own, or that of a detour record (R89, R90). -/
def Dev.commitSlot (d : Dev) (j : Nat) (e : AEntry) : Nat :=
  match d.applying j e.slot with
  | r :: _ => r.slot
  | [] => e.slot

/-- The Zenith of an entry of the active variant in a loop, under the definition in force. -/
def Dev.zenith (d : Dev) (j entry loop : Nat) : Nat :=
  let alm := d.almanac j
  let r := d.run j
  zenithOf d.time.inForce r.base (almVariant alm r.variant).span loop (almEntry alm entry)

/-- The smallest loop, from one on and within the next `n`, in which an entry's Zenith lies at or after an instant
(R96): loops are counted up by the difference in Orbits. -/
def Dev.loopAt (d : Dev) (j entry loop t : Nat) : Nat :=
  let alm := d.almanac j
  let span := (almVariant alm (d.run j).variant).span * d.time.inForce.period
  let z := d.zenith j entry loop
  if t ≤ z || span = 0 then loop else loop + (t - z + span - 1) / span

end Sys2Proof.Machine
end

