-- ==== Sys2Proof/Machine/Bfp.lean ====
section
/-!
DEFINITION. Block floating-point arithmetic bit for bit (R130 to R132), and the nine stages of the control law (R133).
-/

namespace Sys2Proof.Machine
open Sys2Proof

/-- A term of a stage: the exact product of two mantissas and the sum of their exponents (R131 step 1). -/
structure Term where
  p : Int
  x : Int
  deriving DecidableEq, Repr

/-- The product of two words. -/
def Bfp.term (a b : Bfp) : Term := ⟨a.m * b.m, a.e + b.e⟩

/-- A plain addend: the word times 1.0, which is M = 0x40_0000, E = 1. -/
def Bfp.plain (a : Bfp) : Term := ⟨a.m * 0x400000, a.e + 1⟩

/-- The term with its sign changed. -/
def Term.neg (t : Term) : Term := ⟨-t.p, t.x⟩

/-- An exact value `a * 2^(x - 62)`: an accumulator with its largest term exponent (R131 step 2). -/
structure Acc where
  a : Int
  x : Int
  deriving DecidableEq, Repr

/-- Two's complement of 72 bits. -/
def wrap72 (v : Int) : Int := signed 72 (unsigned 72 v)

/-- The accumulator of a list of terms: each is shifted right by xmax − x, its lost bits discarded. A term of zero
takes part with its exponent like any other. -/
def accumulate (ts : List Term) : Acc :=
  let xmax := maxI (-256) (ts.map (·.x))
  { a := wrap72 (sumI (ts.map (fun t => t.p * 65536 / 2 ^ (xmax - t.x).toNat))), x := xmax }

/-- A word as an exact value. -/
def Bfp.acc (w : Bfp) : Acc := ⟨w.m, w.e + 39⟩

/-- The index of the highest bit that differs from the sign, −1 where none does. -/
def topBit (v : Int) : Int :=
  let n := if 0 ≤ v then v.toNat else (-v - 1).toNat
  if n = 0 then -1 else (Nat.log2 n : Nat)

/-- `v / 2^s` to nearest, ties to even; a negative s is an exact left shift. -/
def rneInt (v : Int) (s : Int) : Int :=
  if s ≤ 0 then v * 2 ^ (-s).toNat
  else
    let d : Int := 2 ^ s.toNat
    let q := v / d
    let r := v % d
    if 2 * r < d || (2 * r = d && q % 2 = 0) then q else q + 1

/-- The exponent at which a value is normalised to 24 bits, after the carry of its rounding (R131 step 3). -/
def Acc.exponent (c : Acc) : Int :=
  if c.a = 0 then -128
  else
    let s := topBit c.a - 22
    let e := c.x - 39 + s
    if e < -128 then -128 else if rneInt c.a s = 0x800000 then e + 1 else e

/-- The mantissa of a value at an exponent, one rounding. -/
def Acc.mantissa (c : Acc) (e : Int) : Int := rneInt c.a (e - c.x + 39)

/-- A value as a word of its own: normalised, saturated, or brought to −128 (R131 steps 3 and 5). -/
def Acc.word (c : Acc) : Bfp :=
  let e := c.exponent
  if c.a = 0 then {}
  else if 127 < e then { m := if 0 < c.a then 0x7FFFFF else -0x800000, e := 127 }
  else { m := c.mantissa e, e := e }

/-- Whether a value saturates as a word (R131 step 5). -/
def Acc.saturates (c : Acc) : Bool := c.a != 0 && decide (127 < c.exponent)

/-- A block: every word at the largest normalised exponent, each rounded once (R131 step 4), and whether one saturated. -/
def block (l : List Acc) : List Bfp × Bool :=
  let e := maxI (-128) (l.map Acc.exponent)
  if 127 < e then
    (l.map (fun c => { m := clampI (-0x800000) 0x7FFFFF (c.mantissa 127), e := 127 }), true)
  else (l.map (fun c => { m := c.mantissa e, e := e }), false)

/-- A sensor count as a word: value count × 2⁻⁷ µrad (R132). -/
def ofCount (n : Int) : Bfp := (⟨n, 16 + 39⟩ : Acc).word

/-- An integer of 2⁻³² µrad as a word (R132, R137). -/
def ofFixed (n : Int) : Bfp := (⟨n, 30⟩ : Acc).word

/-- Half an integer of 2⁻³² units as a word. -/
def ofHalf (n : Int) : Bfp := (⟨n, 29⟩ : Acc).word

/-- The value of a word rounded to an integer, ties to even. -/
def Bfp.toInt (w : Bfp) : Int := rneInt w.m (23 - w.e)

/-- Whether one word's value is less than another's. -/
def Bfp.lt (a b : Bfp) : Bool :=
  let lo := min a.e b.e
  decide (a.m * 2 ^ (a.e - lo).toNat < b.m * 2 ^ (b.e - lo).toNat)

/-- A word with its sign changed. -/
def Bfp.neg (a : Bfp) : Bfp := (⟨-a.m, a.e + 39⟩ : Acc).word

/-- A stored word: M in bytes 0–2, E in byte 3 (R130). -/
def bfpAt (b : Bytes) (i : Nat) : Bfp := { m := fldI b (4 * i) 3, e := fldI b (4 * i + 3) 1 }

/-- The four bytes of a word. -/
def Bfp.bytes (w : Bfp) : Bytes := leI 3 w.m ++ leI 1 w.e

/-- A binary64 number as a word, ties to even. -/
def ofFl (x : Fl) : Bfp :=
  match x with
  | .fin neg m e => (⟨if neg then -(m : Int) else m, e + 62⟩ : Acc).word
  | _ => {}


/-! ### The control law (R133, Table 5.3) -/

/-- The coefficient words of a set, in the order of Table 5.3. -/
def coef (set : Bytes) (i : Nat) : Bfp := bfpAt set i

/-- What one cycle of an axis computes: its new stage states, its output and its flags. -/
structure Law where
  stages : Stages
  output : Int
  intClamp : Bool
  outSat : Bool
  sat : Bool
  /-- The outputs of the nine stages, in the order of R131. -/
  words : List Bfp
  deriving DecidableEq, Repr

/-- The check of one stage output (R416): the XOR of the 3-bit groups of its mantissa and of its exponent. -/
def stageCheck (w : Bfp) : Nat :=
  let m := unsigned 24 w.m
  let e := unsigned 9 w.e
  let g := (upto 8).map (fun k => m / 8 ^ k % 8) ++ (upto 3).map (fun k => e / 8 ^ k % 8)
  g.foldl (fun a x => a ^^^ x) 0

/-- STAGE_CHECK[26:0] of the nine stages. -/
def stageChecks (l : List Bfp) : Nat := (l.map stageCheck).reverse.foldl (fun a x => a * 8 + x) 0

/-- One notch: w = B0·x + B1·x1 + B2·x2 − A1·w1 − A2·w2, the delay lines shifted, one block (R133). The answer is the
words w, x1, x2, w1, w2 after the shift. -/
def notch (set : Bytes) (i : Nat) (x x1 x2 w1 w2 : Bfp) : List Bfp × Bool :=
  let w := accumulate [(coef set i).term x, (coef set (i + 1)).term x1, (coef set (i + 2)).term x2,
    ((coef set (i + 3)).term w1).neg, ((coef set (i + 4)).term w2).neg]
  block [w, x.acc, x1.acc, w, w1.acc]

/-- The nine stages of an axis in one cycle. KD·(ed − ed_prev) enters the accumulation as the exact terms KD·ed and −KD·ed_prev, with
no rounded difference between them (DESIGN CHOICE, log 72: R133 does not say). `r` is the reference and `y` the position as words, `v` and `a` the
trajectory velocity and acceleration, `prev` the previous output code, `lim` OUT_LIMIT. -/
def controlLaw (set : Bytes) (s : Stages) (r y v a : Bfp) (prev lim : Int) : Law :=
  -- error
  let be := block [accumulate [r.plain, y.plain.neg], accumulate [(coef set 3).term r, y.plain.neg],
    accumulate [(coef set 4).term r, y.plain.neg]]
  let e := be.1.getD 0 {}
  let ep := be.1.getD 1 {}
  let ed := be.1.getD 2 {}
  -- P
  let bp := block [accumulate [(coef set 0).term ep]]
  let p := bp.1.getD 0 {}
  -- I
  let inc := (accumulate [(coef set 1).term e]).a
  let frozen := (prev = lim && 0 < inc) || (prev = -lim && inc < 0)
  let ia := accumulate (if frozen then [s.integ.plain] else [s.integ.plain, (coef set 1).term e])
  let i0 := ia.word
  let il := coef set 19
  let clampHi := il.lt i0
  let clampLo := i0.lt il.neg
  let bi := block [if clampHi then il.acc else if clampLo then il.neg.acc else i0.acc]
  let i := bi.1.getD 0 {}
  -- D
  let ta := accumulate [(coef set 2).term ed, ((coef set 2).term s.edPrev).neg, s.d.plain.neg]
  let bd := block [accumulate [s.d.plain, (coef set 5).term ta.word], ed.acc]
  let dd := bd.1.getD 0 {}
  -- notches
  let xa := accumulate [p.plain, i.plain, dd.plain]
  let x := xa.word
  let n1 := notch set 6 x s.n1x1 s.n1x2 s.n1w1 s.n1w2
  let n2 := notch set 11 (n1.1.getD 0 {}) s.n2x1 s.n2x2 s.n2w1 s.n2w2
  -- feed-forward, sum, output
  let bf := block [accumulate [(coef set 16).term r, (coef set 17).term v, (coef set 18).term a]]
  let bu := block [accumulate [(n2.1.getD 0 {}).plain, (bf.1.getD 0 {}).plain]]
  let oa := accumulate [(bu.1.getD 0 {}).term { m := 0x4E2000, e := 13 }]
  let ow := oa.word
  let raw := ow.toInt
  let out := clampI (-lim) lim raw
  { stages :=
      { integ := i, d := dd, edPrev := bd.1.getD 1 {},
        n1x1 := n1.1.getD 1 {}, n1x2 := n1.1.getD 2 {}, n1w1 := n1.1.getD 3 {}, n1w2 := n1.1.getD 4 {},
        n2x1 := n2.1.getD 1 {}, n2x2 := n2.1.getD 2 {}, n2w1 := n2.1.getD 3 {}, n2w2 := n2.1.getD 4 {} }
    output := out
    intClamp := clampHi || clampLo
    outSat := raw != out
    sat := be.2 || bp.2 || bi.2 || bd.2 || n1.2 || n2.2 || bf.2 || bu.2 || ia.saturates || ta.saturates || xa.saturates ||
      oa.saturates
    words := [e, p, i, dd, n1.1.getD 0 {}, n2.1.getD 0 {}, bf.1.getD 0 {}, bu.1.getD 0 {}, ow] }

/-- The stage states of a cold adoption (R150): D 0, the notch delay lines at x = APPLIED / 5,000 − FF(r), I at x − P. -/
def coldSeed (set : Bytes) (r y : Bfp) (applied : Int) : Stages :=
  let ep := (accumulate [(coef set 3).term r, y.plain.neg]).word
  let p := (accumulate [(coef set 0).term ep]).word
  let ff := (accumulate [(coef set 16).term r]).word
  let v := ofFl (f64.round ((Fl.ofInt applied).div (Fl.ofInt 5000)))
  let x := (accumulate [v.plain, ff.plain.neg]).word
  let ed := (accumulate [(coef set 4).term r, y.plain.neg]).word
  { integ := (accumulate [x.plain, p.plain.neg]).word, d := {}, edPrev := ed,
    n1x1 := x, n1x2 := x, n1w1 := x, n1w2 := x, n2x1 := x, n2x2 := x, n2w1 := x, n2w2 := x }

end Sys2Proof.Machine
end

