-- ==== Sys2Proof/Machine/Links.lean ====
section
/-!
DEFINITION. The lanes, the link layer and the laser slots (R208 to R225): what the other families call when they send
a frame, and what closes, opens, narrows and widens a link.
-/

namespace Sys2Proof.Machine
open Sys2Proof

/-! ### Channels (R208, R210) -/

/-- The object of a link: service ports at 0x2A10 + n, peer ports and the twin link at 0x2A30 + i. -/
def linkObj (l : Nat) : Nat := if l < 32 then 0x2A10 + l else 0x2A30 + (l - 32)

/-- A frame that breaks the rules of the wire: discarded, and counted in the link's VIOLATIONS (R15, R219). -/
def Dev.linkViolation (d : Dev) (l : Nat) : Dev := d.bump (linkObj l) 0x0A

/-- Whether a chip number is one of those that the Director never accepts as a destination (R10). -/
def isReservedChip (chip : Nat) : Bool := decide (0xF040 ≤ chip) && decide (chip < 0xFFFF)

/-- The lanes that a link has. -/
def lanesOf (l : Nat) : Nat := if l < 32 then 8 else 4

/-- The laser that feeds a lane (Table 8.4): slot and laser. -/
def laserOf (l k : Nat) : Nat × Nat :=
  if l < 32 then (l / 16, k) else if l < 35 || l = 38 then (2, k) else (2, 4 + k)

/-- The power domain of a link (R24, Table 1.7). -/
def domainOf (l : Nat) : Nat := if l < 16 then 9 else if l < 32 then 10 else if l < 38 then 9 else 10

/-- Whether a laser is lit. -/
def Dev.laserLit (d : Dev) (s m : Nat) : Bool := (d.laser s).lit.testBit m

/-- Whether the laser of a pod's pilot gates, receivers and probe transmitters is lit. -/
def Dev.podLit (d : Dev) (q : Nat) : Bool := d.laserLit 3 (q / 16) && d.isOn 10

/-- Whether a lane has its light and its power. -/
def Dev.laneFed (d : Dev) (l k : Nat) : Bool :=
  d.laserLit (laserOf l k).1 (laserOf l k).2 && d.isOn (domainOf l)

/-- Whether a link may open its gates: service ports only at the holder of COLL_GRANT, on an LD-512C (R224). -/
def Dev.linkEnabled (d : Dev) (l : Nat) : Bool :=
  if l < 32 || 64 ≤ l then d.isC && d.holdsColl && (d.link l).mask != 0 else true

/-- The context that holds a lane of a service port in a graded move: NEW under the key 64 + n, OLD under n (R224). -/
def Dev.ctxOfLane (d : Dev) (l k : Nat) : Nat :=
  if l < 32 && (d.link (64 + l)).mask.testBit k then 64 + l else l

/-- The port of a context. -/
def portOfCtx (l : Nat) : Nat := if 64 ≤ l then l - 64 else l

/-- The lanes that a context may use: the circuit's mask on a service port, all four elsewhere. -/
def Dev.linkLanes (d : Dev) (l : Nat) : Nat := if l < 32 || 64 ≤ l then (d.link l).mask else 15

/-! ### Link state -/

/-- Whether a link is UP or DEGRADED. -/
def Link.isUp (x : Link) : Bool := x.state == .up || x.state == .degraded

/-- Whether a lane of a link is in use: its port enabled, and on a service port in the lane mask of the context (R224). -/
def Dev.laneUsed (d : Dev) (l k : Nat) : Bool := d.linkEnabled l && (d.linkLanes l).testBit k

/-- The receive lanes in alignment. -/
def Link.rxMask (x : Link) : Nat := maskOf ((x.lanes.filter (fun e => e.2.rxAligned)).map Prod.fst)

/-- Whether some lane is ACTIVE. -/
def Link.lit (x : Link) : Bool := x.lanes.any (fun e => e.2.state == .active)

/-- The 8 bytes of a block header (Table 8.6), its HCRC a CRC-8 over the rest. -/
def blockHeader (k active rx first : Nat) : Bytes :=
  let b := le 2 0x5AC3 ++ le 1 k ++ le 1 active ++ le 1 rx ++ le 2 first
  b ++ le 1 (pec (b.map (·.toNat)))

/-- The lane and the payload position of word w of a bonded block, for the ACTIVE mask that the previous block announced (R217). No
command shows the words of a block (log 83). -/
def bondedPlace (active w : Nat) : Nat × Nat :=
  let lanes := bitsOf 8 active
  (lanes.getD (w % lanes.length) 0, w / lanes.length)

/-- One bit through the self-synchronous scrambler x⁵⁸ + x³⁹ + 1 (R217): the state holds the last 58 bits sent, the newest lowest. -/
def scrambleBit (s : Nat) (b : Bool) : Nat × Bool :=
  let o := (b ^^ s.testBit 38) ^^ s.testBit 57
  ((2 * s + b2n o) % 2 ^ 58, o)

/-- A payload word through the scrambler, least significant bit first. -/
def scrambleWord (s w : Nat) : Nat × Nat :=
  (upto 64).foldl (fun acc i => let r := scrambleBit acc.1 (w.testBit i); (r.1, acc.2 + b2n r.2 * 2 ^ i)) (s, 0)

/-- A lane's block (R217): its header as it is, its payload words scrambled; no command shows it (log 83). -/
def laneBlock (header : Bytes) (s : Nat) (words : List Nat) : Nat × Bytes :=
  words.foldl (fun acc w => let r := scrambleWord acc.1 w; (r.1, acc.2 ++ le 8 r.2)) (s, header)

/-- The lanes with their gates open announce ACTIVE and RX_ALIGNED in the block before a change takes effect (R217, R223). The blocks
between two changes, the place of a frame's words in them and with it FIRST follow from time alone, which the model leaves out
(log 97): FIRST reads as in a block in which no frame begins. -/
def Dev.sayHeaders (d : Dev) (l : Nat) : Dev :=
  let x := d.link l
  let now := (x.active, x.rxMask)
  if x.said = now then d
  else
    let open_ := (x.lanes.filter (fun e => e.2.state == .active || e.2.state == .aligning)).map Prod.fst
    (d.modLink l (fun y => { y with said := now })).emits
      (open_.map (fun k => .header (portOfCtx l) k (blockHeader k now.1 now.2 0xFFFF)))

/-- The bytes of a link frame (R218, Table 8.7): header with its CRC-16, payload padded to whole words, CRC-32 and 4 reserved bytes. -/
def linkFrame (type cls seq source dest : Nat) (payload : Bytes) : Bytes :=
  let h := le 1 type ++ le 1 cls ++ le 2 payload.length ++ le 2 seq ++ le 2 source ++ le 2 dest ++ zeros 4
  let b := h ++ le 2 (crc16 h) ++ padTo ((payload.length + 7) / 8 * 8) payload
  b ++ le 4 (crc32 b) ++ zeros 4

/-- The training and test frames held for a lane (R215): they leave as its gate opens, wait while it settles or calibrates, and are
else refused NOT_LOCKED, counted, and go back undelivered. -/
def Dev.serveLane (d : Dev) (l k : Nat) : Dev :=
  let x := d.lane l k
  if x.held.isEmpty || x.state == .settling || x.state == .calibrating then d
  else
    let d := d.modLane l k (fun y => { y with held := [] })
    if x.locked && (x.state == .active || x.state == .aligning) then
      (x.held.foldl (fun d f => d.emit (.laneFrame (portOfCtx l) k (linkFrame f.1 0 0 d.chip 0xFFFF f.2))) d).bump 0x2A00 4
    else x.held.foldl (fun d f => (d.bump 0x2A00 3).emit (.undelivered (portOfCtx l) f.1)) d

/-- The link's state after a change of its lanes: with no lane that is ACTIVE, or with the wrong partner, it is DOWN, and an UP link is
DEGRADED while it has fewer ACTIVE lanes than both LANE_MASKs allow (R215, R221, R225). -/
def Dev.refreshLink (d : Dev) (l : Nat) : Dev :=
  let mine := d.linkLanes l
  let d := d.modLink l (fun x =>
    if !x.lit || x.wrong then { x with state := .down }
    else match x.state with
      | .down => if x.rxMask = 0 then x else { x with state := .training }
      | .training => x
      | _ => { x with state := if popCount 8 x.active < popCount 8 (mine &&& x.partnerMask) then .degraded else .up })
  ((d.link l).lanes.foldl (fun d e => d.serveLane l e.1) d).sayHeaders l

/-- Whether class 1 and 2 frames wait for a lane that left LOCKED (R215). -/
def Link.holding (x : Link) : Bool :=
  (bitsOf 8 x.active).any (fun k => (tget {} x.lanes k).state != .active)

/-- A lane leaves ACTIVE for good: WIDTH_DROP_COUNT and a class 1 fault (Table 8.5). It hunts on, and rejoins as it locks again. -/
def Dev.dropLane (d : Dev) (l k : Nat) : Dev :=
  let d := d.modLane l k (fun x => { x with state := .dropped, locked := false, okRun := 0, seen := 0, missed := 0 })
  let d := d.modLink l (fun x => { x with active := setBit x.active k false })
  let p := portOfCtx l
  ((d.bump 0x2A00 5).raise 0x0502 1 (if p < 32 then 9 else 8) (if p < 32 then p else p - 32) true [BitVec.ofNat 8 k]).refreshLink l

/-- Every lane still out is removed (SETTLE_WAIT elapsed, or an urgent frame): SETTLING and CALIBRATING lanes are
DROPPED, a lane that is aligning again only leaves the mask (R215). -/
def Dev.dropOut (d : Dev) (l : Nat) : Dev :=
  ((bitsOf 8 (d.link l).active).filter (fun k => (d.lane l k).state != .active)).foldl (fun d k =>
    match (d.lane l k).state with
    | .settling => d.dropLane l k
    | .calibrating => d.dropLane l k
    | _ => (d.modLink l (fun x => { x with active := setBit x.active k false })).refreshLink l) d

/-! ### Sending (R215, R218, R220) -/

/-- A link frame as it leaves. -/
def frameOut (link type cls seq source dest : Nat) (payload : Bytes) : Output :=
  .frame link (linkFrame type cls seq source dest payload)

/-- One frame leaves; class 1 and 2 take the next SEQ and wait for their acknowledgement. -/
def Dev.transmit (d : Dev) (l : Nat) (f : LFrame) : Dev :=
  let x := d.link l
  if f.cls = 0 then d.emit (frameOut (portOfCtx l) f.type 0 0 f.source f.dest f.payload)
  else if f.cls = 1 then
    (d.modLink l (fun y =>
      { y with tx1 := (y.tx1 + 1) % 65536, unacked1 := y.unacked1 ++ [(x.tx1, f)]
               progressAt := if y.unacked1.isEmpty && y.unacked2.isEmpty then d.now else y.progressAt })).emit
      (frameOut (portOfCtx l) f.type 1 x.tx1 f.source f.dest f.payload)
  else
    (d.modLink l (fun y =>
      { y with tx2 := (y.tx2 + 1) % 65536, unacked2 := y.unacked2 ++ [(x.tx2, f)]
               progressAt := if y.unacked1.isEmpty && y.unacked2.isEmpty then d.now else y.progressAt })).emit
      (frameOut (portOfCtx l) f.type 2 x.tx2 f.source f.dest f.payload)

/-- Whether a frame may leave now: the window of 2,048 unacknowledged frames of its class has room. -/
def Link.window (x : Link) (cls : Nat) : Bool :=
  cls = 0 || (if cls = 1 then decide (x.unacked1.length < 2048) else decide (x.unacked2.length < 2048))

/-- The frames that waited leave in class order, as far as the windows go. -/
def Dev.drainFrames (d : Dev) (l : Nat) : Dev :=
  let x := d.link l
  if !x.isUp then d
  else
    let d := x.urgent.foldl (fun d f => d.transmit l f) (d.modLink l (fun y => { y with urgent := [] }))
    if (d.link l).holding then d
    else
      let one := x.heldFrames.filter (fun f => f.cls == 1)
      let two := x.heldFrames.filter (fun f => f.cls == 2)
      let room1 := 2048 - x.unacked1.length
      let room2 := 2048 - x.unacked2.length
      let d := d.modLink l (fun y => { y with heldFrames := one.drop room1 ++ two.drop room2 })
      (one.take room1 ++ two.take room2).foldl (fun d f => d.transmit l f) d

/-- A transmit command of a link frame: an urgent frame ends a hold and goes at once, a frame of class 1 or 2 waits for
lanes that may lock again; on a link that is not UP frames wait, 64 of class 0 and the oldest discarded (R215, R220). -/
def Dev.sendFrame (d : Dev) (l type cls dest : Nat) (payload : Bytes) (source : Option Nat := none) : Dev :=
  let f : LFrame := { type := type, cls := cls, source := source.getD d.chip, dest := dest, payload := payload }
  let d := if cls = 0 && (d.link l).isUp && (d.link l).holding then d.dropOut l else d
  let x := d.link l
  if cls = 0 then
    if x.isUp then (d.transmit l f).drainFrames l
    else if x.urgent.length < 64 then d.modLink l (fun y => { y with urgent := y.urgent ++ [f] })
    else (d.modLink l (fun y => { y with urgent := y.urgent.drop 1 ++ [f] })).bump (linkObj (portOfCtx l)) 0x0B
  else if x.isUp && !x.holding && x.window cls && x.heldFrames.all (fun g => g.cls != cls) then d.transmit l f
  else d.modLink l (fun y => { y with heldFrames := y.heldFrames ++ [f] })

/-- The 16 bytes of LINK_TRAIN (R221). -/
def Dev.trainPayload (d : Dev) (l : Nat) : Bytes :=
  let x := d.link l
  let cls := if l < 32 || 64 ≤ l then 1 else if l < 38 then 2 else 3
  le 1 cls ++ le 1 (d.linkLanes l) ++ le 2 9216 ++ le 2 d.chip ++ le 1 d.twinId ++ [0] ++ le 4 x.trainId ++ le 4 x.lastEcho

/-- Once a hold has ended, the frames that it held leave on the lanes that are left (R215). -/
def Dev.drainHeld (d : Dev) (l : Nat) : Dev :=
  if (d.link l).holding || (d.link l).heldFrames.isEmpty then d else d.drainFrames l

/-- A frame of the link layer itself is urgent: it ends a hold, leaves on a lane that is ACTIVE, and the frames held follow it
(R215). -/
def Dev.sendOwn (d : Dev) (l type : Nat) (payload : Bytes) : Dev :=
  let d := if (d.link l).holding then d.dropOut l else d
  let d := if (d.link l).lit then d.emit (frameOut (portOfCtx l) type 0 0 d.chip 0xFFFF payload) else d
  d.drainHeld l

/-- LINK_TRAIN goes to the partner, whatever the link's state. -/
def Dev.sendTrain (d : Dev) (l : Nat) : Dev := d.sendOwn l 0x01 (d.trainPayload l)

/-- LINK_ACK: the next SEQ expected of each class, and the NAK bits. -/
def Dev.sendLinkAck (d : Dev) (l : Nat) : Dev :=
  let x := d.link l
  (d.modLink l (fun y => { y with nak := 0 })).sendOwn l 0x02 (le 2 x.rx1 ++ le 2 x.rx2 ++ le 1 x.nak ++ zeros 3)

/-- A new training attempt begins. -/
def Dev.newAttempt (d : Dev) (l : Nat) : Dev :=
  d.modLink l (fun x => { x with trainId := (x.trainId + 1) % 2 ^ 32, trainStart := d.now })

/-! ### Contexts (R222) -/

/-- The 32 bytes of the service header of a frame that waits (Table 10.2), and its data. -/
def SFrameOut.bytes (f : SFrameOut) : Bytes :=
  le 1 f.format ++ le 1 f.flags ++ le 1 f.gen ++ [0] ++ le 4 f.tag ++ le 4 f.token ++ le 4 f.scale ++ le 8 f.addr ++
    le 2 f.group ++ zeros 6 ++ f.data

/-- A service frame for a partner chip that comes back, as it waited. -/
def svcParse (type dest : Nat) (b : Bytes) : SFrameOut :=
  { type := type, format := fld b 0 1, flags := fld b 1 1, gen := fld b 2 1, tag := fld b 4 4, token := fld b 8 4
    scale := fld b 12 4, addr := fld b 16 8, group := fld b 24 2, data := b.drop 32, chip := if type = 0x55 then some dest else none }

/-- A context closes: the frames still queued or unacknowledged go back undelivered; service frames go back to the head
of their port's queue with their headers unchanged (R267). -/
def Dev.closeContext (d : Dev) (l : Nat) : Dev :=
  let x := d.link l
  let back := x.unacked1.map (·.2) ++ x.unacked2.map (·.2) ++ x.urgent ++ x.heldFrames
  let svc := (back.filter (fun f => 0x50 ≤ f.type && f.type ≤ 0x58)).map (fun f => svcParse f.type f.dest f.payload)
  let d := (d.modLink l (fun y =>
    { y with context := none, tx1 := 0, tx2 := 0, rx1 := 0, rx2 := 0, unacked1 := [], unacked2 := [], urgent := []
             heldFrames := [], nak := 0, partnerChip := 0xFFFF, partnerTwin := 0xFF, partnerMask := 0, wrong := false })).emits
    (back.map (fun f => .undelivered (portOfCtx l) f.type))
  if svc.isEmpty then d
  else { d with coll := { d.coll with queues := tmod [] d.coll.queues (portOfCtx l) (fun q => svc ++ q) } }

/-- Every lane of a link goes DARK. -/
def Dev.darkLink (d : Dev) (l : Nat) : Dev :=
  (d.modLink l (fun x =>
    { x with lanes := x.lanes.map (fun e => (e.1, ({ e.2 with state := .dark, locked := false, okRun := 0, rxAligned := false, rxGood := 0, rxBad := 0, seen := 0, missed := 0 } : Lane)))
             active := 0 })).refreshLink l

/-- A receiver loses clock recovery (R34): its receive lane loses alignment, and counts headers afresh (R217). -/
def Dev.rxLost (d : Dev) (l k : Nat) : Dev := d.modLane l k (fun x => { x with rxAligned := false, rxGood := 0, rxBad := 0 })

/-- One lane goes DARK: its laser or its domain is gone, or its port is disabled (Table 8.5). Where it was the last that frames were
held for, they go on the others (R215). -/
def Dev.darkLane (d : Dev) (l k : Nat) : Dev :=
  let d := d.modLane l k (fun x => { x with state := .dark, locked := false, okRun := 0, seen := 0, missed := 0 })
  ((d.modLink l (fun x => { x with active := setBit x.active k false })).refreshLink l).drainHeld l

/-- A link whose every lane has lost alignment is DOWN and trains again in full (R222). -/
def Dev.alignmentGone (d : Dev) (l : Nat) : Dev := (d.modLink l (fun x => { x with state := .down })).newAttempt l

/-- A lane that is DARK, fed and in use begins to hunt (Table 8.5); one whose synthesiser has stayed locked (R224) opens its gate at
its next sample. -/
def Dev.huntLane (d : Dev) (l k : Nat) : Dev :=
  if (d.lane l k).state == .dark && d.laneFed (portOfCtx l) k && d.laneUsed l k then
    d.modLane l k (fun x => { x with state := .locking, seen := 0, missed := 0 })
  else d

/-- Every fed lane that a link may use hunts. -/
def Dev.huntLink (d : Dev) (l : Nat) : Dev := (upto (lanesOf (portOfCtx l))).foldl (fun d k => d.huntLane l k) d

/-- A port is enabled: its lanes hunt, and a first attempt begins. -/
def Dev.enableLink (d : Dev) (l : Nat) (fast : Bool) : Dev :=
  ((d.newAttempt l).modLink l (fun x => { x with fast := fast })).huntLink l

/-- A lane goes DARK as its port is disabled or its circuit's mask drops it: its synthesiser stays locked (R223, R224). A calibration
under way ends with it. -/
def Lane.shut (x : Lane) : Lane :=
  { x with state := .dark, locked := x.locked && x.state != .calibrating, seen := 0, missed := 0 }

/-- A service port's gates close while its synthesisers stay locked, and its context closes (R224). -/
def Dev.disableService (d : Dev) (n : Nat) : Dev :=
  let shut := fun (x : Lane) => { x.shut with rxAligned := false, rxGood := 0, rxBad := 0 }
  let close := fun (d : Dev) (l : Nat) =>
    ((d.closeContext l).modLink l (fun x =>
      { x with lanes := x.lanes.map (fun e => (e.1, shut e.2)), active := 0, mask := 0, state := .down })).refreshLink l
  close (if (d.link (64 + n)).mask != 0 then close d (64 + n) else d) n

/-! ### Laser slots (R209 to R212) -/

/-- The lanes that a laser feeds, as links and lanes (Table 8.4). -/
def fedBy (s m : Nat) : List (Nat × Nat) :=
  ((upto 39).filter (fun l => (upto (lanesOf l)).any (fun k => laserOf l k == (s, m)))).map
    (fun l => (l, ((upto (lanesOf l)).find? (fun k => laserOf l k == (s, m))).getD 0))

/-- The probe transmitters of a slot 3 laser's sixteen pods go DARK, or hunt again (R210, R213). -/
def Dev.probesTx (d : Dev) (m : Nat) (on : Bool) : Dev :=
  { d with opt := { d.opt with
      probes := (upto 64).foldl (fun t i => tmod {} t (64 * m + i) (fun x => { x with tx := if on then { state := .locking } else {} })) d.opt.probes } }

/-- A laser goes dark: the lanes that it feeds go DARK, on every channel (R210). -/
def Dev.laserOff (d : Dev) (s m : Nat) : Dev :=
  if d.laserLit s m then
    let d := d.modLaser s (fun x => { x with lit := setBit x.lit m false })
    if s = 3 then d.probesTx m false
    else (fedBy s m).foldl (fun d e => (d.darkLane e.1 e.2).darkLane (d.ctxOfLane e.1 e.2) e.2) d
  else d

/-- A laser lights: the lanes that it feeds hunt. -/
def Dev.laserOn (d : Dev) (s m : Nat) : Dev :=
  let d := d.modLaser s (fun x => { x with lit := setBit x.lit m true })
  if s = 3 then d.probesTx m true else (fedBy s m).foldl (fun d e => d.huntLane (d.ctxOfLane e.1 e.2) e.2) d

/-- A laser is declared dead (R23, R212): disabled, whatever the slot's state, and no longer lit. -/
def Dev.laserDie (d : Dev) (s m : Nat) : Dev :=
  let d := d.laserOff s m
  let d := d.modLaser s (fun x => { x with dead := setBit x.dead m true })
  let d := if (d.laser s).state == .lit || (d.laser s).state == .enabling then
      d.emit (.laser s (maskOut (2 ^ (if s = 3 then 4 else 8) - 1) (d.laser s).dead) false)
    else d
  d.raise 0x0501 1 6 s true [BitVec.ofNat 8 m]

/-- The lasers of a slot. -/
def lasersOf (s : Nat) : Nat := if s = 3 then 4 else 8

end Sys2Proof.Machine
end

