-- ==== Sys2Proof/Machine/Axes.lean ====
section
/-!
DEFINITION. Axes as machines: numbering (R9), trajectories and gangs (R137 to R139), the transitions of Table 5.6, the
pilot gates, searches (R144) and adoption (R150).
-/

namespace Sys2Proof.Machine
open Sys2Proof

/-! ### Numbering -/

/-- The head of an axis. -/
def headOfAxis (a : Nat) : Nat := a / 2
/-- The port of an axis. -/
def portOfAxis (a : Nat) : Nat := a / 4
/-- The slice of an axis (Table 1.3). -/
def sliceOfAxis (a : Nat) : Nat := a / 1024
/-- The board of an axis. -/
def boardOfAxis (a : Nat) : Nat := boardOfHead (a / 2)
/-- The slice of a board (Table 1.3). -/
def sliceOfBoard (b : Nat) : Nat := b % 8 / 2
/-- Local axis i of board b (R148). -/
def boardAxis (b i : Nat) : Nat := axisOf (headOf (128 * (b % 8) + i / 2) (b / 8)) (i % 2)
/-- The local index of an axis on its board. -/
def localAxis (a : Nat) : Nat := a / 4 % 128 * 2 + a % 2
/-- The 256 axes of a board, in its own order. -/
def boardAxes (b : Nat) : List Nat := (upto 256).map (boardAxis b)
/-- The two axes of a head. -/
def headAxes (h : Nat) : List Nat := [axisOf h 0, axisOf h 1]
/-- The two heads of a circuit or comet, north first, of one plane at both ends (R17). -/
def pairHeads (north south plane : Nat) : List Nat := [headOf north plane, headOf (southPort south) plane]
/-- Its four axes. -/
def pairAxes (north south plane : Nat) : List Nat := (pairHeads north south plane).flatMap headAxes

/-- A sensor count in 2⁻³² µrad. -/
def countToFixed (y : Int) : Int := y * 2 ^ 25
/-- 2⁻³² µrad in counts of 2⁻⁷ µrad, as the objects show it. -/
def fixedToCount (x : Int) : Int := x / 2 ^ 25
/-- Nanoradians in 2⁻³² µrad. -/
def nradToFixed (x : Int) : Int := divNear (x * 2 ^ 32) 1000

/-! ### Coefficient sets (R134, R135) -/

/-- The key of a coefficient set. -/
def setKey (a k : Nat) : Nat := a * 4 + k

/-- A coefficient set of an axis: as written, or as CALIBRATION gives it (log 3). -/
def Dev.coefSet (d : Dev) (a k : Nat) : Bytes := tget (zeros 80) d.eng.sets (setKey a k)

/-- The byte of SET_SCHEDULE that serves an axis. -/
def Dev.schedule (d : Dev) (a : Nat) : Nat := d.nat (0x3000 + headOfAxis a) 0x0D / 256 ^ (a % 2) % 256

/-- The set that the schedule names for a state; HOLD_CLOSED's for AUTOTUNE. -/
def schedSet (byte : Nat) : AState → Option Nat
  | .holdClosed => some (byte % 4) | .autotune => some (byte % 4) | .slew => some (byte / 4 % 4)
  | .acquire => some (byte / 16 % 4) | .track => some (byte / 64 % 4) | _ => none

/-- OUT_LIMIT of an axis, in counts. -/
def Dev.outLimit (d : Dev) (a : Nat) : Int := d.num (0x3000 + headOfAxis a) 0x18

/-- TRAVEL_LIMIT of an axis, in 2⁻³² µrad. -/
def Dev.travelLimit (d : Dev) (a : Nat) : Int := d.num (0x3000 + headOfAxis a) 0x19 * 2 ^ 32

/-- An axis takes a state: at a change its following-error count restarts (R146) and the schedule names its set (R135). -/
def Dev.setAxis (d : Dev) (a : Nat) (x : AState) : Dev :=
  let k := schedSet (d.schedule a) x
  d.modAxis a (fun s => if s.state = x then s else { s with state := x, feCount := 0, set := k.getD s.set })

/-! ### Motions (R137) -/

/-- A point of a motion: six times the position, twice the velocity, the acceleration. -/
structure MPoint where
  p6 : Int
  v2 : Int
  a : Int
  deriving DecidableEq, Repr

/-- The closed form of one segment after `n` cycles. -/
def MPoint.after (x : MPoint) (jerk : Int) (n : Nat) : MPoint :=
  { p6 := x.p6 + 3 * x.v2 * n + 3 * x.a * n * n + jerk * n * n * n
    v2 := x.v2 + 2 * x.a * n + jerk * n * n
    a := x.a + jerk * n }

/-- The point `k` cycles into a list of segments. -/
def segsAt : List Seg → MPoint → Nat → MPoint
  | [], x, _ => x
  | s :: t, x, k => if k ≤ s.n then x.after s.jerk k else segsAt t (x.after s.jerk s.n) (k - s.n)

/-- The length of a motion in cycles. -/
def Motion.length (m : Motion) : Nat := sumN (m.segs.map (·.n))

/-- The reference of a motion k cycles after its launch, with twice the velocity and the acceleration: the target
exactly from the last cycle on, the position rounded toward −∞ before (R137). -/
def Motion.at_ (m : Motion) (k : Nat) : Int × Int × Int :=
  let x := segsAt m.segs { p6 := m.p6, v2 := m.v, a := m.a } (min k m.length)
  if m.length ≤ k then (m.target.getD (x.p6 / 6), 0, 0) else (x.p6 / 6, x.v2, x.a)

/-- The limits of R137 in µrad per cycle, per cycle² and per cycle³. -/
def Dev.slewLimits (d : Dev) : Fl × Fl × Fl :=
  ((Fl.ofInt (d.num 0x2C02 1)).div64 (Fl.ofInt 20), (Fl.ofInt (d.num 0x2C02 2)).div64 (Fl.ofInt 400),
    (Fl.ofInt (d.num 0x2C02 3)).div64 (Fl.ofInt 8000))

/-- A distance in 2⁻³² µrad as a number of µrad. -/
def flOfFixed (x : Int) : Fl := .fin (x < 0) x.natAbs (-32)

/-- The durations Tj, Ta and Tv of a slew over a distance (R137). -/
def slewTimes (lim : Fl × Fl × Fl) (dist : Fl) : Nat × Nat × Nat :=
  let vm := lim.1
  let am := lim.2.1
  let jm := lim.2.2
  let two := Fl.ofInt 2
  let tj := if (vm.mul64 jm).lt (am.mul64 am) then (vm.div64 jm).sqrt64 else am.div64 jm
  let ta := (vm.div64 (jm.mul64 tj)).sub64 tj
  let base := (jm.mul64 tj).mul64 (tj.add64 ta)
  let side := (two.mul64 tj).add64 ta
  if dist.lt (base.mul64 side) then
    let tj := am.div64 jm
    if !((two.mul64 jm).mul64 ((tj.mul64 tj).mul64 tj)).lt dist then
      ((dist.div64 (two.mul64 jm)).cbrt64.ceil.toNat, 0, 0)
    else
      let root := ((tj.mul64 tj).add64 (((Fl.ofInt 4).mul64 dist).div64 am)).sqrt64
      (tj.ceil.toNat, ((((Fl.ofInt (-3)).mul64 tj).add64 root).div64 two).ceil.toNat, 0)
  else (tj.ceil.toNat, ta.ceil.toNat, ((dist.div64 base).sub64 side).ceil.toNat)

/-- The total duration of a profile. -/
def slewTotal (t : Nat × Nat × Nat) : Nat := 4 * t.1 + 2 * t.2.1 + t.2.2

/-- The jerk of a distance under durations, in 2⁻³² µrad per cycle³ to nearest, with the sign of the move. -/
def slewJerk (t : Nat × Nat × Nat) (dist : Int) : Int :=
  let n := t.1 * (t.1 + t.2.1) * (2 * t.1 + t.2.1 + t.2.2)
  if n = 0 then 0 else ((flOfFixed dist).div64 (Fl.ofInt n)).nearest 32

/-- The seven segments. -/
def slewSegs (t : Nat × Nat × Nat) (j : Int) : List Seg :=
  [⟨j, t.1⟩, ⟨0, t.2.1⟩, ⟨-j, t.1⟩, ⟨0, t.2.2⟩, ⟨-j, t.1⟩, ⟨0, t.2.1⟩, ⟨j, t.1⟩]

/-- Tj of a slew: the length of its first segment (R137). -/
def Motion.tj (m : Motion) : Nat := (m.segs.head?.map (·.n)).getD 0

/-- The stop of R139 of a slew from a velocity and an acceleration: the acceleration returns to zero over the slew's own Tj, in steps
that remove it exactly, and the velocity is removed over the shortest profile within the limits. R139 adds "at most 2 ms from a
full-speed cruise", which its own limits exceed at their defaults (2.5 ms): the limits are kept (DESIGN CHOICE, log 91). -/
def stopSegs (lim : Fl × Fl × Fl) (own : Nat) (v2 a : Int) : List Seg :=
  let am := lim.2.1
  let jm := lim.2.2
  let tj := (am.div64 jm).ceil.toNat
  let n := max own 1
  let q := a / n
  let r := (a % n).toNat
  let first := if a = 0 then [] else [⟨-(q + 1), r⟩, ⟨-q, n - r⟩]
  let x := segsAt first { p6 := 0, v2 := v2, a := a } n
  let v := flOfFixed x.v2.natAbs
  let half := Fl.ofInt 2
  let v := v.div64 half
  let times : Nat × Nat :=
    if ((am.mul64 am).div64 jm).lt v then
      (tj, (((v.div64 am).sub64 (am.div64 jm)).ceil).toNat)
    else ((v.div64 jm).sqrt64.ceil.toNat, 0)
  let m := times.1 * (times.1 + times.2)
  let j : Int := if m = 0 then 0 else divNear x.v2 (2 * m)
  first ++ (if m = 0 then [] else [⟨-j, times.1⟩, ⟨0, times.2⟩, ⟨j, times.1⟩])

/-! ### Pilot gates (R181, R229) -/

/-- Signature block k of a pilot (R239), its 66 bits in the order they leave: the sync header 00, 0x3CA5, COMET, its complement, and
COUNT, which wraps at 65,536. -/
def pilotBlock (comet k : Nat) : Nat :=
  4 * (0x3CA5 + comet % 65536 * 2 ^ 16 + (65535 - comet % 65536) * 2 ^ 32 + k % 65536 * 2 ^ 48)

/-- The blocks that have left by an instant: 66 bits at 10.3125 Gb/s take 6.4 ns (R239). -/
def pilotCount (since now : Nat) : Nat := (now - since) * 5 / 32

/-- The light of a head's gate begins, while its slot 3 laser feeds it (R210), with block 0; the blocks after it follow in time alone
(log 97). -/
def Dev.gateLight (d : Dev) (h comet : Nat) : Dev :=
  if d.podLit (podOf (portOfHead h)) then
    (d.modHead h (fun x => { x with pilotOn := true, pilotSince := d.now })).emit (.pilot h (some (pilotBlock comet 0)))
  else d

/-- The lit gates repeat their signature: the block that each sends now (R239). -/
def Dev.gatesShine (d : Dev) : Dev :=
  d.emits ((d.opt.gates.filter (fun g => (d.head g.1).pilotOn)).map (fun g =>
    .pilot g.1 (some (pilotBlock g.2 (pilotCount (d.head g.1).pilotSince d.now)))))

/-- The light of a head's gate ends. -/
def Dev.gateDark (d : Dev) (h : Nat) : Dev :=
  if (d.head h).pilotOn then (d.modHead h (fun x => { x with pilotOn := false })).emit (.pilot h none) else d

/-- The pilot gate of a head opens for a comet. -/
def Dev.gateOpen (d : Dev) (h comet : Nat) : Dev :=
  ({ d with opt := { d.opt with gates := tset d.opt.gates h comet } }).gateLight h comet

/-- The pilot gate of a head closes. -/
def Dev.gateClose (d : Dev) (h : Nat) : Dev := ({ d with opt := { d.opt with gates := tdel d.opt.gates h } }).gateDark h

/-! ### Leaving a state -/

/-- A tune of an axis ends, its status written to AUTOTUNE_RESULT: 6 aborted (R147). -/
def Dev.endTune (d : Dev) (a : Nat) (result : Bytes) : Dev :=
  let d := { d with eng := { d.eng with tunes := d.eng.tunes.filter (fun t => t.axis != a) } }
  d.setOct (0x3000 + headOfAxis a) 0x1D result

/-- A tune of an axis is aborted: its status 6. -/
def Dev.abortTune (d : Dev) (a : Nat) : Dev :=
  if d.eng.tunes.any (fun t => t.axis == a) then
    d.endTune a ([6, BitVec.ofNat 8 (a % 2)] ++ zeros 14 ++ le 8 d.now)
  else d

/-- An axis freezes its reference, the optical correction folded into it (R143). -/
def Axis.freeze (x : Axis) : Axis := { x with ref := x.ref + x.optCorr, optCorr := 0, motion := none }

/-- An axis goes to HOLD_CLOSED on its frozen reference. -/
def Dev.toHold (d : Dev) (a : Nat) : Dev := (d.modAxis a Axis.freeze).setAxis a .holdClosed

/-- An axis goes to OPEN, whatever had opened it before; a tune on it is reported aborted (Table 5.6, last row). -/
def Dev.openAxis (d : Dev) (a : Nat) : Dev :=
  let shut := fun (x : Axis) => { x with motion := none, byCommand := false, openUntil := none, closeAt := none }
  if (d.axis a).state == .open then d.modAxis a shut
  else ((d.abortTune a).modAxis a shut).setAxis a .open

/-- Every axis that meets a condition goes to OPEN; the searches of their heads end. -/
def Dev.openAxes (d : Dev) (sel : Nat → Bool) : Dev :=
  let d := ((d.eng.axes.map Prod.fst).filter sel).foldl Dev.openAxis d
  { d with eng := { d.eng with
      heads := d.eng.heads.map (fun e => if sel (2 * e.1) then (e.1, { e.2 with search := none }) else e)
      reacquires := d.eng.reacquires.filter (fun r => !sel (axisOf (headOf r.1 r.2.1) 0)) } }

/-- Every axis of the module goes to OPEN: DRIVE_GRANT dropped, REPLAY, FAULT or a warm restart. -/
def Dev.openAll (d : Dev) : Dev := d.openAxes (fun _ => true)

/-- An axis enters FAULT (R146): KEEP from now on, its stages frozen, a class 1 fault; cause 1 FE, 2 SENSOR, 3 POISON. -/
def Dev.faultAxis (d : Dev) (a cause : Nat) : Dev :=
  match (d.axis a).state with
  | .open => d
  | .fault => d
  | _ =>
    let d := d.abortTune a
    let d := (d.modAxis a (fun x => { x with motion := none, faultCause := cause })).setAxis a .fault
    -- a circuit in force on the head becomes DEGRADED (Table 3.2)
    let h := headOfAxis a
    let d := d.modCircuits (fun c => c.state == .live && c.plane == h % 2 && c.hasPort (h / 2)) (fun c => { c with state := .degraded })
    d.raise 0x0201 1 3 a true [BitVec.ofNat 8 cause]

/-! ### Slews, stops and gangs -/

/-- The start of a gang's move: each axis with its target, one set of durations (R138). Of members with equal longest total durations
the first in order governs (DESIGN CHOICE, log 72: R138 does not say). -/
def Dev.launchGang (d : Dev) (comet : Option Nat) (moves : List (Nat × Int)) : Dev :=
  let lim := d.slewLimits
  let start := fun a => (d.axis a).ref + (d.axis a).optCorr
  let times := moves.map (fun m => slewTimes lim (flOfFixed ((m.2 - start m.1).natAbs : Nat)))
  let t := times.foldl (fun best x => if slewTotal best < slewTotal x then x else best) (0, 0, 0)
  moves.foldl (fun d m =>
    let d := d.modAxis m.1 Axis.freeze
    let s := (d.axis m.1).ref
    let mo : Motion :=
      { segs := slewSegs t (slewJerk t (m.2 - s)), p6 := 6 * s, target := some m.2, from_ := d.cycleNow, comet := comet
        gang := moves.map Prod.fst }
    (d.modAxis m.1 (fun x => { x with motion := some mo })).setAxis m.1 .slew) d

/-! ### Searches (R144) -/

/-- An angle in 2^-32 of a turn reduced to the first quarter: the quarter and the rest. -/
def quarter (t : Nat) : Nat × Nat := (t / 2 ^ 30 % 4, t % 2 ^ 30)

/-- The sine of 0 to a quarter turn, given in 2^-32 of a turn, in units of 2^-32: the series up to the eleventh power. -/
def sinQ (t : Nat) : Int :=
  let x : Int := (t : Int) * 26986075409 / 2 ^ 32
  let sq := x * x / 2 ^ 32
  let p := fun (acc n : Int) => 2 ^ 32 - sq * acc / (2 ^ 32 * n)
  x * p (p (p (p (p (2 ^ 32) 110) 72) 42) 20) 6 / 2 ^ 32

/-- The cosine and the sine of an angle in 2^-32 of a turn, in units of 2^-32. -/
def cosSin (t : Nat) : Int × Int :=
  let q := quarter t
  let s := sinQ q.2
  let c := sinQ (2 ^ 30 - q.2)
  match q.1 with
  | 0 => (c, s) | 1 => (-s, c) | 2 => (-c, -s) | _ => (s, -c)

/-- The most by which the angle of a spiral may grow in a cycle, in 2^-32 of a turn: no point is more than 0.5 µrad from the one before
(R144). `step` is the pitch of a turn and `rad` the radius reached, in 2^-32 µrad. -/
def paceLimit (step rad : Nat) : Nat := 2 ^ 63 / (step + 7 * (rad + 2 ^ 31) + 1)

/-- How far a spiral has turned after n cycles, in 2^-32 of a turn: as fast as the pace, a free value, within its limit, and no further
than the radius `far` (R144). -/
def spiralTurn (step far : Nat) : Nat → Nat
  | 0 => 0
  | n + 1 =>
    let t := spiralTurn step far n
    min (t + min (Config.spiralPace n) (paceLimit step (step * t / 2 ^ 32))) (far * 2 ^ 32 / max step 1)

/-- A point of the Archimedean spiral (R144): its radius is the pitch times the turns made; where it starts and which way it runs are
free values. -/
def spiralPoint (step far n : Nat) : Int × Int :=
  let t := spiralTurn step far n
  let r : Int := step * t / 2 ^ 32
  let u := cosSin (Config.spiralStart + (if Config.spiralLeft then t else 2 ^ 32 - t % 2 ^ 32))
  (r * u.1 / 2 ^ 32, r * u.2 / 2 ^ 32)

/-- The offset of an axis from the centre of the spiral that its head runs (R144). -/
def Dev.spiralAt (d : Dev) (a : Nat) : Int :=
  match (d.head (headOfAxis a)).search with
  | some q =>
    let x := spiralPoint (nradToFixed (d.num 0x2C08 1)).toNat (nradToFixed (d.num 0x2C08 2)).toNat (d.eng.cycle - q.started)
    if a % 2 = 0 then x.1 else x.2
  | none => 0

/-- A head's search stops where it is: acquisition resumes from the point reached (R144), or holds it (R139, R145). -/
def Dev.stopSearch (d : Dev) (h : Nat) : Dev :=
  let d := (headAxes h).foldl (fun (e : Dev) a => e.modAxis a (fun x => { x with ref := x.ref + d.spiralAt a })) d
  d.modHead h (fun x => { x with search := none })

/-- One axis stops: a slew is brought to rest (R139), one that rests at its waypoint and an axis in ACQUIRE freeze in HOLD_CLOSED. -/
def Dev.stopAxis (d : Dev) (a : Nat) : Dev :=
  match (d.axis a).state, (d.axis a).motion with
  | .slew, some m =>
    if m.target.isNone then d
    else
      let k := d.cycleNow - m.from_
      let x := segsAt m.segs { p6 := m.p6, v2 := m.v, a := m.a } (min k m.length)
      let stop : Motion :=
        { segs := stopSegs d.slewLimits m.tj x.v2 x.a, p6 := x.p6, v := x.v2, a := x.a, target := none, from_ := d.cycleNow }
      d.modAxis a (fun y => { y with motion := some stop })
  | .slew, none => d.toHold a
  | .acquire, _ => d.toHold a
  | _, _ => d

/-- A full spiral of a head ends: the head is back at its centre (log 22). -/
def Dev.endSearch (d : Dev) (h : Nat) : Dev := d.modHead h (fun x => { x with search := none })

/-- Both heads of a pair stop, their pilot gates closing and their searches stopping where they are. -/
def Dev.stopPair (d : Dev) (north south plane : Nat) : Dev :=
  let d := (pairHeads north south plane).foldl (fun d h => (d.gateClose h).stopSearch h) d
  (pairAxes north south plane).foldl Dev.stopAxis d

/-- A head begins a spiral about its current reference (R144). -/
def Dev.startSearch (d : Dev) (h k : Nat) (reacquire : Bool) : Dev :=
  let s : Search :=
    { started := d.cycleNow, cx := (d.axis (axisOf h 0)).ref, cy := (d.axis (axisOf h 1)).ref, k := k, reacquire := reacquire }
  d.modHead h (fun x => { x with search := some s, confirm := 0 })

/-- An axis enters ACQUIRE at the end of its slew: the pilot loop of its head starts afresh (R140). -/
def Dev.enterAcquire (d : Dev) (a : Nat) : Dev :=
  (d.setAxis a .acquire).modHead (headOfAxis a) (fun x => { x with confirm := 0, firstRead := true })

/-- A head enters TRACK with its optical correction unchanged: dither starts (R142, R143). -/
def Dev.enterTrack (d : Dev) (h : Nat) : Dev :=
  let d := d.modHead h (fun x => { x with taps := [], search := none })
  (headAxes h).foldl (fun d a => if (d.axis a).state == .acquire then d.setAxis a .track else d) d

/-- A head leaves TRACK at a flip: it holds its folded reference, and no trajectory launches on it for 1 ms (R143). A head that a
reacquire has in ACQUIRE holds where it is (DESIGN CHOICE, log 25). -/
def Dev.leaveTrack (d : Dev) (h z : Nat) : Dev :=
  let d := (d.stopSearch h).modHead h (fun x => { x with noLaunch := z + Config.ms })
  (headAxes h).foldl (fun d a =>
    if (d.axis a).state == .track || (d.axis a).state == .acquire then d.toHold a else d) d

/-! ### Adoption (R150) -/

/-- Whether a circuit in force uses a head. -/
def Dev.headLive (d : Dev) (h : Nat) : Bool :=
  d.circuits.any (fun c => c.inForce && c.plane == h % 2 && c.hasPort (h / 2))

/-- Whether a circuit in force, or in PRESTEER or READY, uses a head (R136, R151). -/
def Dev.headUsed (d : Dev) (h : Nat) : Bool := d.circuits.any (fun c => c.plane == h % 2 && c.hasPort (h / 2))

/-- The state into which an axis is adopted. -/
def Dev.adoptState (d : Dev) (a : Nat) : AState := if d.headLive (headOfAxis a) then .track else .holdClosed

/-- Cold adoption of one axis into a state: r is y, OPT_CORR and D are 0, the integrator and the delay lines are seeded
so that the first output is APPLIED. -/
def Dev.coldSeedAxis (d : Dev) (a : Nat) (x : AState) : Dev :=
  let s := d.axis a
  let k := (schedSet (d.schedule a) x).getD s.set
  let y := ofCount s.y
  let st := coldSeed (d.coefSet a k) y y s.applied
  (d.modAxis a (fun s =>
    { s with
      stages := st, ref := countToFixed s.y, optCorr := 0, rLast := countToFixed s.y, output := s.applied
      motion := none, byCommand := false, openUntil := none, closeAt := none, seeded := true, faultCause := 0, misses := 0 })).setAxis a x

/-- Cold adoption of an axis that is OPEN. -/
def Dev.adoptCold (d : Dev) (a : Nat) : Dev :=
  if (d.axis a).state == .open then d.coldSeedAxis a (d.adoptState a) else d

/-- Warm adoption: the stage states, OPT_CORR, reference and motion of the twin's record, the output seeded with
APPLIED; an axis adopted in SLEW is brought to rest from its held position. -/
def Dev.adoptWarm (d : Dev) (a : Nat) (w : Axis) : Dev :=
  if (d.axis a).state == .open then
    let d := d.modAxis a (fun s =>
      { s with
        stages := w.stages, optCorr := w.optCorr, ref := w.ref, rLast := w.rLast, output := s.applied, motion := none
        byCommand := false, openUntil := none, closeAt := none, seeded := true, faultCause := 0, misses := 0 })
    match w.state, w.motion with
    | .slew, some m =>
      let k := d.cycleNow - m.from_
      let x := segsAt m.segs { p6 := m.p6, v2 := m.v, a := m.a } (min k m.length)
      let held := countToFixed (d.axis a).y
      let stop : Motion :=
        { segs := stopSegs d.slewLimits m.tj x.v2 x.a, p6 := 6 * held, v := x.v2, a := x.a, target := none, from_ := d.cycleNow }
      (d.modAxis a (fun y => { y with ref := held, motion := some stop })).setAxis a .slew
    | _, _ => d.setAxis a (d.adoptState a)
  else d

/-! ### Frames to the boards (R148, R149) -/

/-- The state of a board changes; HOLD_SINCE follows the start of HOLDING. -/
def Dev.setBoard (d : Dev) (b : Nat) (x : BState) : Dev := d.modBoard b (fun y => { y with state := x })

/-- A command frame (Table 5.4): OUTPUT of the axes given, KEEP of the others, and CRC-32 over the first 784 bytes. -/
def boardFrame (b cycle seq twin : Nat) (hold : Bool) (outs : List (Nat × Int)) : Bytes :=
  let out := fun (i : Nat) => match outs.find? (fun e => e.1 == i) with
    | some e => le 3 (unsigned 20 e.2)
    | none => le 3 (2 ^ 20)
  let f := le 1 (if hold then 2 else 1) ++ le 1 b ++ le 2 seq ++ le 8 cycle ++ le 1 twin ++ zeros 3 ++ (upto 256).flatMap out
  f ++ le 4 (crc32 f)

/-- The Director sends a frame to a board: a HOLD frame, or a command frame with the outputs that are not KEEP. -/
def Dev.sendBoard (d : Dev) (b : Nat) (hold : Bool) (outs : List (Nat × Int)) : Dev :=
  let seq := ((d.board b).txSeq + 1) % 65536
  (d.modBoard b (fun x => { x with txSeq := seq, holdFrames := if hold then x.holdFrames + 1 else 0 })).emit
    (.board b (boardFrame b (d.cycleNow + 1) seq d.twinId hold outs))

/-- HOLD frames go to every board that is there (R149). -/
def Dev.holdBoards (d : Dev) : Dev :=
  ((d.eng.boards.filter (fun e => e.2.state != .absent)).map Prod.fst).foldl (fun d b => d.sendBoard b true []) d

/-- A slice enters FAULT (R129): its axes open, a class 3 fault. -/
def Dev.faultSlice (d : Dev) (c : Nat) : Dev :=
  if d.eng.slices.getD c .off == .running then
    let d := { d with eng := { d.eng with slices := lset d.eng.slices c .fault } }
    (d.openAxes (fun a => sliceOfAxis a == c)).raise 0x0202 3 11 c true
  else d

end Sys2Proof.Machine
end

