-- ==== Sys2Proof/Machine/Topology.lean ====
section
/-!
DEFINITION. The Array as this module sees it: positions and neighbours (R10, R256), the live set and the leader (R184,
R255), the live peer graph, depths and parents (R102), and the tree of the commit messages (R185).
-/

namespace Sys2Proof.Machine
open Sys2Proof

/-- The chip number of the neighbour on a peer port: PX+, PX−, PY+, PY−, PZ+, PZ− (R256). -/
def neighbourChip (chip i : Nat) : Nat :=
  let n := chip - 0xF000
  let x := n % 4
  let y := n / 4 % 4
  let z := n / 16 % 4
  let step := if i % 2 = 0 then 1 else 3
  let x := if i / 2 = 0 then (x + step) % 4 else x
  let y := if i / 2 = 1 then (y + step) % 4 else y
  let z := if i / 2 = 2 then (z + step) % 4 else z
  0xF000 + x + 4 * y + 16 * z

/-- The port at the neighbour's side. -/
def reciprocal (i : Nat) : Nat := if i % 2 = 0 then i + 1 else i - 1

/-- MODULE_ID: the first four bytes of the SHA-384 of MODULE_SERIAL (0x2B10:04). -/
def Dev.moduleId (d : Dev) : Nat := unle ((sha384 (padTo 16 d.module.serial)).take 4)

/-- LINK_MASK: the peer ports that are CONFIRMED. -/
def Dev.linkMask (d : Dev) : Nat := maskOf ((upto 6).filter (fun i => (d.neighbour i).status == .confirmed))

/-- The flags of this module without ARRAY_MEMBER. -/
def Dev.baseFlags (d : Dev) : Nat := b2n d.disc.confirmed + 2 * b2n d.holdsDrive + 4 * b2n d.holdsColl

/-- What this module says of itself in DISC_STATE. -/
def Dev.ownEntry (d : Dev) : DiscEntry :=
  { chip := d.chip, twin := d.twinId, state := d.dir.state.code, flags := d.baseFlags, seq := d.disc.seq
    mask := d.linkMask, since := d.disc.confirmedSince, id := d.moduleId, at_ := d.now }

/-- Every entry that has not expired, this module's own first. -/
def Dev.entries (d : Dev) : List DiscEntry := d.ownEntry :: d.disc.entries

/-- Whether an entry puts its position into the live set (R184, R255). -/
def DiscEntry.live (e : DiscEntry) : Bool := e.flags.testBit 0 && decide (2 ≤ e.state) && decide (e.state ≤ 6)

/-- LIVE_SET as a mask of positions. -/
def liveMask (l : List DiscEntry) : Nat := maskOf ((l.filter DiscEntry.live).map (fun e => e.chip - 0xF000))

/-- The live set. -/
def Dev.liveSet (d : Dev) : Nat := liveMask d.entries

/-- The Array leader: the lowest chip number of the live set (R184). -/
def Dev.leader (d : Dev) : Option Nat := ((bitsOf 64 d.liveSet).head?).map (0xF000 + ·)

/-- ARRAY_MEMBER: the position is confirmed and in the live set (R256). -/
def Dev.arrayMember (d : Dev) : Bool := d.disc.confirmed && d.liveSet.testBit d.pos

/-- The flags as DISC_HELLO and DISC_STATE carry them. -/
def Dev.discFlags (d : Dev) : Nat := d.baseFlags + 8 * b2n d.arrayMember

/-- The acting module of a position: the twin whose entry shows DRIVE_GRANT, else twin 0 (R102, R184). -/
def actingEntry (l : List DiscEntry) (chip : Nat) : Option DiscEntry :=
  match l.find? (fun e => e.chip == chip && e.flags.testBit 1) with
  | some e => some e
  | none => l.find? (fun e => e.chip == chip && e.twin == 0)

/-- Whether this module acts for its position. -/
def Dev.acts (d : Dev) : Bool :=
  if d.holdsDrive then true
  else if d.disc.entries.any (fun e => e.chip == d.chip && e.flags.testBit 1) || d.twin.lineDrive then false
  else d.twinId == 0

/-- Whether this module is the time root and acts for the leader (R102, R184). -/
def Dev.isRootNow (d : Dev) : Bool := d.leader == some d.chip && d.acts

/-- The LINK_MASK of a position in the live peer graph (R255). -/
def graphMask (l : List DiscEntry) (chip : Nat) : Nat :=
  match actingEntry l chip with
  | some e => e.mask
  | none => 0

/-- Whether the graph has the edge of a position's port. -/
def graphEdge (l : List DiscEntry) (chip i : Nat) : Bool :=
  (graphMask l chip).testBit i && (graphMask l (neighbourChip chip i)).testBit (reciprocal i)

/-- Hop distances from a root, as (chip, distance), found level by level. -/
def hopsFrom (l : List DiscEntry) (root : Nat) : List (Nat × Nat) :=
  let level := fun (acc : List (Nat × Nat)) (n : Nat) =>
    let front := (acc.filter (fun e => e.2 == n)).map Prod.fst
    let next := (front.flatMap (fun c => ((upto 6).filter (graphEdge l c)).map (neighbourChip c))).foldl sinsert []
    acc ++ (next.filter (fun c => acc.all (fun e => e.1 != c))).map (fun c => (c, n + 1))
  (upto 64).foldl level [(root, 0)]

/-- The hop distance of a position. -/
def hopsOf (h : List (Nat × Nat)) (chip : Nat) : Option Nat := (h.find? (fun e => e.1 == chip)).map Prod.snd

/-- The parent port of a position: its first neighbour at depth one less (R102). -/
def parentPort (l : List DiscEntry) (h : List (Nat × Nat)) (chip : Nat) : Option Nat :=
  match hopsOf h chip with
  | some (n + 1) => (upto 6).find? (fun i => graphEdge l chip i && hopsOf h (neighbourChip chip i) == some n)
  | _ => none

/-- The parent and depth that R102 gives this module. -/
def Dev.timeParent (d : Dev) : Option Nat × Option Nat :=
  match d.leader with
  | none => (none, none)
  | some root =>
    let l := d.entries
    let h := hopsFrom l root
    if d.isRootNow then (none, some 0)
    else if d.acts then (parentPort l h d.chip, hopsOf h d.chip)
    else (some 6, (hopsOf h d.chip).map (· + 1))

/-- The peer ports whose neighbours are this module's children in the tree (R185). -/
def Dev.children (d : Dev) : List Nat :=
  match d.leader with
  | none => []
  | some root =>
    let l := d.entries
    let h := hopsFrom l root
    (upto 6).filter (fun i => graphEdge l d.chip i && parentPort l h (neighbourChip d.chip i) == some (reciprocal i))

/-- Whether a peer port carries time, commit and collective messages (R256, R257). -/
def Dev.peerOpen (d : Dev) (i : Nat) : Bool := (d.neighbour i).status == .confirmed

/-- A message goes to the tree's children. -/
def Dev.sendDown (d : Dev) (type cls : Nat) (payload : Bytes) (except : Option Nat := none) : Dev :=
  (d.children.filter (fun i => some i != except && d.peerOpen i)).foldl (fun d i => d.sendFrame (32 + i) type cls 0xFFFF payload) d

/-! ### Announcements (R254, R255) -/

/-- The link of a neighbour: peer ports 0 to 5, the twin link 6. -/
def neighbourLink (i : Nat) : Nat := if i = 6 then 38 else 32 + i

/-- The 32 bytes of DISC_HELLO. -/
def Dev.helloPayload (d : Dev) (i : Nat) : Bytes :=
  le 2 d.chip ++ le 1 d.twinId ++ le 1 (if d.isC then 1 else 2) ++ le 1 i ++ le 1 d.dir.state.code ++ le 1 d.discFlags ++ [0] ++
    padTo 16 d.module.serial ++ d.imageHash.take 8

/-- Whether discovery frames go to a neighbour: its link is UP, or trains again with its context kept, and they wait at the sender
(R222, R453). -/
def Dev.discReaches (d : Dev) (i : Nat) : Bool :=
  let x := d.link (neighbourLink i)
  x.isUp || (x.context.isSome && (d.neighbour i).status != .down)

/-- DISC_HELLO on one link. -/
def Dev.sendDiscHello (d : Dev) (i : Nat) : Dev :=
  if d.discReaches i then d.sendFrame (neighbourLink i) 0x20 1 0xFFFF (d.helloPayload i) else d

/-- DISC_HELLO on every peer port and on the twin link. -/
def Dev.sendDiscHellos (d : Dev) : Dev := (upto 7).foldl Dev.sendDiscHello d

/-- Whether DISC_STATE goes on a link: the twin link, a CONFIRMED or DUPLICATE peer port (R256, R257, R453). -/
def Dev.discOpen (d : Dev) (i : Nat) : Bool :=
  d.discReaches i && (i = 6 || (d.neighbour i).status == .confirmed || (d.neighbour i).status == .duplicate)

/-- The 24 bytes of DISC_STATE from an entry. -/
def DiscEntry.payload (e : DiscEntry) (flags : Nat) : Bytes :=
  le 1 e.twin ++ le 1 e.state ++ le 1 flags ++ [0] ++ le 4 e.seq ++ le 1 e.mask ++ zeros 3 ++ le 8 e.since ++ le 4 e.id

/-- DISC_STATE is originated with the next SEQ. -/
def Dev.sendDiscState (d : Dev) : Dev :=
  let d := { d with disc := { d.disc with seq := (d.disc.seq + 1) % 2 ^ 32 } }
  ((upto 7).filter d.discOpen).foldl (fun d i =>
    d.sendFrame (neighbourLink i) 0x21 1 0xFFFF (d.ownEntry.payload d.discFlags)) d

/-- A change of what DISC_HELLO and DISC_STATE carry is announced at once (R255). -/
def Dev.announce (d : Dev) : Dev :=
  let now := (d.dir.state.code, d.discFlags, d.linkMask)
  if d.disc.said = now then d
  else ({ d with disc := { d.disc with said := now } }.sendDiscHellos).sendDiscState

/-- A message goes to the time parent over a peer port. -/
def Dev.sendUp (d : Dev) (type cls : Nat) (payload : Bytes) : Dev :=
  match d.time.parent with
  | some i => if i < 6 && d.peerOpen i then d.sendFrame (32 + i) type cls 0xFFFF payload else d
  | none => d

/-! ### Strobes (R118 to R120) -/

/-- How the time unit answers an arm. -/
inductive ArmAnswer where
  | placed | late | full | closed
  deriving DecidableEq, Repr

/-- The pod link of a pod (R20). -/
def linkOfPod (q : Nat) : Nat := q / 4

/-- The pod links that a strobe touches. -/
def Strobe.links (s : Strobe) : List Nat := (s.pods.map linkOfPod).foldl sinsert []

/-- The pod links on which a strobe's descriptor has still to go. -/
def Strobe.due (s : Strobe) : List Nat := s.links.filter (fun j => !s.sent.contains j)

/-- The strobes armed on a pod link. -/
def Dev.strobesOn (d : Dev) (j : Nat) : List Strobe :=
  d.time.strobes.filter (fun s => s.pods.any (fun q => linkOfPod q == j))

/-- The markers that a rising list of instants makes (R120): each takes the strobes of 16 ns from its first one; `w` is the instant
of the marker before the list. -/
def markerStarts : Option Nat → List Nat → List Nat
  | _, [] => []
  | none, z :: t => z :: markerStarts (some z) t
  | some w, z :: t => if z ≤ w + 16 then markerStarts (some w) t else z :: markerStarts (some z) t

/-- Whether some 16 ns about an instant would hold five strobes with one more at it (R120). -/
def fiveIn16 (zs : List Nat) (z : Nat) : Bool :=
  (z :: zs).any (fun w => decide (w ≤ z) && decide (z ≤ w + 16) &&
    decide (4 ≤ (zs.filter (fun x => decide (w ≤ x) && decide (x ≤ w + 16))).length))

/-- Whether more than 16 markers would be pending at one instant (R176): a marker's descriptor is pending from its cancel limit,
20 µs before it. -/
def pendingFull (ms : List Nat) : Bool :=
  ms.any (fun e => decide (16 < (ms.filter (fun m => decide (e ≤ m + 20 * Config.us) && decide (m ≤ e))).length))

/-- Whether a pod link has no room for one more tag at an instant: in its 16 ns (R120) or in its descriptors, of which each marker
counts once (R176). -/
def Dev.markerFull (d : Dev) (z : Nat) (pods : List Nat) : Bool :=
  (upto 16).any (fun j =>
    let on := d.strobesOn j
    let waiting := (on.filter (fun s => !s.sent.contains j)).map (·.z)
    let gone := (d.time.marks.filter (fun m => m.1 / 65536 = j)).map (fun m => m.2 + (d.podLink j).lead)
    pods.any (fun q => linkOfPod q == j) &&
    (fiveIn16 (on.map (·.z)) z || pendingFull (gone ++ markerStarts none ((z :: waiting).foldl sinsert []))))

/-- A strobe reaches the time unit (R118): late, full, or armed; from the declaration of SHUT on none is armed (Table 14.6). -/
def Dev.armStrobe (d : Dev) (s : Strobe) : Dev × ArmAnswer :=
  if d.power.shutAt.isSome then (d, .closed)
  else if s.z < d.now + 20 * Config.us then (d.bump 0x2240 2, .late)
  else if 64 ≤ d.time.strobes.length || d.markerFull s.z s.pods then (d.bump 0x2240 3, .full)
  else ({ d with time := { d.time with strobes := d.time.strobes ++ [s] } }, .placed)

/-- The strobes of a job that are not fixed are removed (R194). -/
def Dev.cancelStrobes (d : Dev) (sel : Strobe → Bool) : Dev :=
  { d with time := { d.time with strobes := d.time.strobes.filter (fun s => s.fixed || !sel s) } }

end Sys2Proof.Machine
end

