-- ==== Sys2Proof/Machine/Banks.lean ====
section
/-!
DEFINITION. Ring banks: tuners and their codes (R154 to R159), monitor masks and lost lanes (R162, R163, R173), the
frames of the pod links (R174, R175), staging banks (R164, R165) and calibration rounds (R170 to R172).
-/

namespace Sys2Proof.Machine
open Sys2Proof

/-! ### Tuners and codes -/

/-- The local port of a port on its pod. -/
def localPort (p : Nat) : Nat := p % 16

/-- The RING byte of TUNER_WRITE: local port and tuner (R175). -/
def ringByte (p tuner : Nat) : Nat := localPort p * 16 + tuner


/-- A rounded quotient, ties to even. -/
def rneDiv (a b : Nat) : Nat :=
  let q := a / b
  let r := a % b
  if 2 * r < b || (2 * r = b && q % 2 = 0) then q else q + 1

/-- A code between two table points of 0.5 dB, linear and rounded to the nearest 0.1 GHz, ties to even (R157). -/
def tableCode (table : Bytes) (att : Nat) : Nat :=
  let i := att / 5
  let f := att % 5
  let a := fld table (2 * i) 2
  let b := fld table (2 * (i + 1)) 2
  if f = 0 then a else rneDiv (a * (5 - f) + b * f) 5

/-- The drop (sub 0x0B) or through (sub 0x0C) table of a lane ring. -/
def Dev.laneTable (d : Dev) (p sub k : Nat) : Bytes := slice (d.oct (0x3800 + p) sub) (98 * k) 98

/-- THROUGH_DET of a port's pod. -/
def Dev.throughDet (d : Dev) (p : Nat) : Nat := d.nat (0x3C00 + podOf p) 0x0B

/-- LANE_EQ of a lane: zero on south ports (R158). -/
def Dev.laneEq (d : Dev) (p k : Nat) : Nat := if p < 512 then fld (d.oct (0x3800 + p) 5) k 1 else 0

/-- The code of a lane routed to a plane with a total attenuation in 0.1 dB (R156). -/
def Dev.routeCode (d : Dev) (p k plane att : Nat) : Nat :=
  if plane = 1 then tableCode (d.laneTable p 0x0B k) att
  else if att = 0 then d.throughDet p
  else tableCode (d.laneTable p 0x0C k) att

/-- The total attenuation of a lane: weight and equalisation at the north end, clamped to 23.0 dB; none at the south
end (R157, R158; DEDUCED from the budget of R231, log 20). -/
def Dev.attenuation (d : Dev) (p k weight : Nat) : Nat := if p < 512 then min 230 (weight + d.laneEq p k) else 0

/-- The junction code of a lane at an end of a circuit on a plane: its route when the mask has it, else the other
plane's dark bus (R173). -/
def Dev.laneCode (d : Dev) (p plane lanes : Nat) (weights : List Nat) (k : Nat) : Nat :=
  if lanes.testBit k then d.routeCode p k plane (d.attenuation p k (weights.getD k 0))
  else if plane = 1 then d.throughDet p
  else tableCode (d.laneTable p 0x0B k) 0

/-- The plane to which a lane goes at an end of a circuit. -/
def lanePlane (plane lanes k : Nat) : Nat := if lanes.testBit k then plane else 1 - plane

/-- The code of a shutter, open or dark (0x3800 + p:0D). -/
def Dev.shutterCode (d : Dev) (p plane : Nat) (open_ : Bool) : Nat :=
  fld (d.oct (0x3800 + p) 0x0D) (4 * plane + (if open_ then 0 else 2)) 2

/-- One write of a staging frame: port, tuner, code. -/
structure TWrite where
  port : Nat
  tuner : Nat
  code : Nat
  deriving DecidableEq, Repr

/-- A frame goes down the link of a pod to its chain position (R175). -/
def Dev.podSend (d : Dev) (q type : Nat) (payload : Bytes) : Dev := d.emit (.pod q (podGroups (podFrame type (q % 4) payload)))

/-- TUNER_WRITE to a pod, into a bank. -/
def Dev.sendTuner (d : Dev) (q bank : Nat) (ws : List TWrite) : Dev :=
  d.podSend q 0x11 (ws.flatMap (fun w => le 1 (ringByte w.port w.tuner) ++ le 1 bank ++ le 2 w.code))

/-- The writes of a list, by pod in rising order. -/
def podsOf (ws : List TWrite) : List Nat := (ws.map (fun w => podOf w.port)).foldl sinsert []

/-- Stage writes into one bank at every pod that they touch. -/
def Dev.stageWrites (d : Dev) (bank : Nat) (ws : List TWrite) : Dev :=
  (podsOf ws).foldl (fun d q => d.sendTuner q bank (ws.filter (fun w => podOf w.port == q))) d

/-- The tags that a commit, a round or an armed strobe holds (R164). -/
def Dev.tagsUsed (d : Dev) : List Nat :=
  d.arr.commits.flatMap (fun e => e.2.stages.map (·.tag)) ++ d.rings.rounds.map (·.tag) ++ d.time.strobes.map (·.tag)

/-- `n` free tags, if there are so many. -/
def Dev.freeTags (d : Dev) (n : Nat) : Option (List Nat) :=
  let free := (upto 16).filter (fun t => !d.tagsUsed.contains t)
  if free.length < n then none else some (free.take n)

/-! ### Monitor masks (R162) -/

/-- The lanes of the circuits in force at a port. -/
def Dev.forceLanes (d : Dev) (p : Nat) : Nat := (d.forceAt p).foldl (fun m c => m ||| c.lanes) 0

/-- The monitor mask of a port. -/
def Dev.monitorMask (d : Dev) (p : Nat) : Nat :=
  let b := d.bank p
  maskOut (d.forceLanes p) (b.calOut ||| b.lost ||| b.flipOut)

/-- Whether a port is marked "pilot expected": a head of its own is in ACQUIRE (R161). -/
def Dev.pilotExpected (d : Dev) (p : Nat) : Bool :=
  (upto 2).any (fun pl => (headAxes (headOf p pl)).any (fun a => (d.axis a).state == .acquire))

/-- LANE_LOSS_THRESHOLD of a port, in 0.01 dBm. -/
def Dev.lossThreshold (d : Dev) (p : Nat) : Int := d.num (0x3800 + p) 9

/-- MONITOR_SET to a pod: its sixteen masks, flags and thresholds. -/
def Dev.sendMonitor (d : Dev) (q : Nat) : Dev :=
  d.podSend q 0x14 ((upto 16).flatMap (fun i =>
    let p := 16 * q + i
    le 1 (d.monitorMask p) ++ le 1 (b2n (d.pilotExpected p)) ++ leI 2 (d.lossThreshold p)))

/-- MONITOR_SET to the pods of a list of ports. -/
def Dev.sendMonitors (d : Dev) (ports : List Nat) : Dev :=
  ((ports.map podOf).foldl sinsert []).foldl Dev.sendMonitor d

/-! ### Calibration rounds (R170 to R172) -/

/-- The ports of a round. -/
def Round.ports (r : Round) : List Nat := r.north :: (r.south.map southPort).toList

/-- Whether two rounds are one. -/
def Round.same (r s : Round) : Bool := r.north == s.north && r.lane == s.lane

/-- The holder of a round's CAL permit. -/
def Round.holder (r : Round) : Nat := 100000 + r.north * 8 + r.lane

/-- CAL_STATUS of a port: time, lane and result of its last round, its suspects and its clamps kept, its count. -/
def Dev.calStatus (d : Dev) (p lane result suspect : Nat) (countUp : Bool) : Dev :=
  let o := padTo 16 (d.oct (0x3800 + p) 0x0E)
  let n := fld o 12 4
  let b := le 8 d.now ++ le 1 lane ++ le 1 result ++ le 1 suspect ++ slice o 11 1 ++
    le 4 ((if countUp then n + 1 else n) % 2 ^ 32)
  d.setOct (0x3800 + p) 0x0E b

/-- CAL_SUSPECT of a port. -/
def Dev.calSuspect (d : Dev) (p : Nat) : Nat := fld (d.oct (0x3800 + p) 0x0E) 10 1

/-- A total attenuation above 23.0 dB sets WEIGHT_CLAMP of its lane, another clears it (R157). -/
def Dev.noteClamp (d : Dev) (p k weight : Nat) : Dev :=
  if 512 ≤ p then d
  else
    let o := padTo 16 (d.oct (0x3800 + p) 0x0E)
    let m := setBit (fld o 11 1) k (decide (230 < weight + d.laneEq p k))
    if m = fld o 11 1 then d else d.setOct (0x3800 + p) 0x0E (patch o 11 (le 1 m))

/-- The strobes whose descriptors have still to go on a pod link and that share a marker with one of them (R120), the earliest
first. -/
def Dev.mates (d : Dev) (j : Nat) (s : Strobe) : List Strobe :=
  let waiting := (d.strobesOn j).filter (fun x => !x.sent.contains j)
  let zs := (waiting.map (·.z)).foldl sinsert []
  let w := ((markerStarts none zs).filter (· ≤ s.z)).getLast?.getD s.z
  ((zs.filter (fun z => w ≤ z && z ≤ w + 16)).flatMap (fun z => waiting.filter (fun x => x.z = z))).take 4

/-- Every waiting strobe of one marker on a pod link goes out in one STROBE_DESC (R120, R176): none of them can be cancelled any
more. A strobe armed later on the link has a marker of its own (DESIGN CHOICE, log 71: a descriptor that has gone takes no
more). -/
def Dev.sendDesc (d : Dev) (j : Nat) (s : Strobe) : Dev :=
  let mates := d.mates j s
  let first := (mates.map (·.z)).head?.getD s.z
  let id := (d.podLink j).nextId % 65536
  let act := fun (x : Strobe) =>
    le 1 (x.tag + 16 * b2n (x.kind == 1)) ++
    le 1 (maskOf ((x.pods.filter (fun q => linkOfPod q == j)).map (· % 4))) ++ le 1 ((x.z - first) * 5 / 2) ++ [0]
  let d := d.emit (.pod (4 * j) (podGroups (podFrame 0x12 0x80 (le 2 id ++ le 1 mates.length ++ [0] ++ mates.flatMap act))))
  let d := d.modPodLink j (fun x => { x with nextId := (x.nextId + 1) % 65536 })
  { d with time := { d.time with
      marks := d.time.marks ++ [(j * 65536 + id, first - (d.podLink j).lead)]
      strobes := d.time.strobes.map (fun x => if mates.contains x then { x with fixed := true, sent := sinsert x.sent j } else x) } }

/-- A strobe's cancel limit (R194): its descriptor goes on every pod link on which it has not gone yet. -/
def Dev.fixStrobe (d : Dev) (s : Strobe) : Dev := s.due.foldl (fun d j => d.sendDesc j s) d

/-- Arm a strobe of the Director's own: a catch-up, an UNDO, a lane move. Its descriptor goes at its cancel limit, 20 µs before its
instant, or at once where that is now (R176); no command names that limit, so that it is met as the link's next marker leaves. -/
def Dev.armFixed (d : Dev) (s : Strobe) : Dev :=
  let r := d.armStrobe s
  match r.2 with
  | .placed => if s.z ≤ r.1.now + 20 * Config.us then r.1.fixStrobe s else r.1
  | _ => r.1

/-- The next control-cycle start for which a strobe can still be armed (R118, R194). -/
def Dev.nextCycle (d : Dev) : Nat := ((d.now + 20 * Config.us) / Config.cycle + 1) * Config.cycle

/-- The lane-in strobe of a round at an instant: the lane goes back to the route of its circuit. -/
def Dev.laneIn (d : Dev) (r : Round) (z : Nat) : Dev :=
  let c := d.circuitOf r.north r.plane
  let lanes := (c.map (·.lanes)).getD 0
  let weights := (c.map (·.weights)).getD []
  let ws := r.ports.map (fun p => (⟨p, r.lane, d.laneCode p r.plane lanes weights r.lane⟩ : TWrite))
  let d := d.noteClamp r.north r.lane (weights.getD r.lane 0)
  let d := d.stageWrites r.tag ws
  d.armFixed { z := z, pods := podsOf ws, tag := r.tag, kind := 4 }

/-- The lane routes of an end, as the Director knows them. -/
def Dev.setRoute (d : Dev) (p plane lanes : Nat) (ks : List Nat) : Dev :=
  d.modBank p (fun b => { b with route := ks.foldl (fun r k => setBit r k (lanePlane plane lanes k == 1)) b.route })

/-- A round changes. -/
def Dev.modRound (d : Dev) (r : Round) (f : Round → Round) : Dev :=
  { d with rings := { d.rings with rounds := d.rings.rounds.map (fun x => if x.same r then f x else x) } }

/-- R: lane k goes to the shadow plane's dark bus and leaves the monitor masks, and the sweeps are ordered (Table 6.6). -/
def Dev.laneOut (d : Dev) (r : Round) : Dev :=
  let d := d.modRound r (fun x => { x with out := true })
  let d := r.ports.foldl (fun d p =>
    let d := (d.modBank p (fun b => { b with calOut := setBit b.calOut r.lane true })).setRoute p r.plane 0 [r.lane]
    let n := d.fresh
    (d.drawn 2).podSend (podOf p) 0x15
      ([BitVec.ofNat 8 (localPort p), BitVec.ofNat 8 r.lane] ++ le 2 (Config.openNat n) ++ le 2 (Config.openNat (n + 1)) ++ [49, 0])) d
  d.sendMonitors r.ports

/-- The lane of a round is back on its circuit's route. -/
def Dev.laneBack (d : Dev) (r : Round) : Dev :=
  let lanes := ((d.circuitOf r.north r.plane).map (·.lanes)).getD 0
  r.ports.foldl (fun d p => d.setRoute p r.plane lanes [r.lane]) d

/-- A round is over: its lane is back on its route and in the monitor masks. -/
def Dev.closeRound (d : Dev) (r : Round) : Dev :=
  let d := { d with rings := { d.rings with rounds := d.rings.rounds.filter (fun x => !x.same r) } }
  let d := r.ports.foldl (fun d p => d.modBank p (fun b => { b with calOut := setBit b.calOut r.lane false })) (d.laneBack r)
  d.sendMonitors r.ports

/-- A round ends: its lane is back in the monitor masks, its permit is given back. -/
def Dev.endRound (d : Dev) (r : Round) : Dev := (d.release 2 r.holder).closeRound r

/-- What R and the return of an aborted round's lane bring, for every round whose instant has come. -/
def Dev.calDue (d : Dev) : Dev :=
  let d := (d.rings.rounds.filter (fun r => !r.out && decide (r.start ≤ d.now))).foldl Dev.laneOut d
  (d.rings.rounds.filter (fun r => match r.back with | some z => decide (z ≤ d.now) | none => false)).foldl Dev.closeRound d

/-- A round is aborted (R172), counted unless its fit has counted it: its lane returns at the next cycle start, or has not left its route where the lane-out strobe can
still be cancelled. -/
def Dev.abortRound (d : Dev) (r : Round) : Dev :=
  if r.back.isSome then d
  else
    let d := r.ports.foldl (fun d p => d.calStatus p r.lane 4 (d.calSuspect p) (decide (r.stage < 2))) d
    let d := (d.release 2 r.holder).cancelStrobes (fun s => s.kind == 2 && s.tag == r.tag)
    let gone := r.out || d.time.strobes.any (fun s => s.kind == 2 && s.tag == r.tag)
    if !gone || r.stage = 3 then d.closeRound r
    else if r.stage = 2 then d.modRound r (fun x => { x with back := some (r.start + 700 * Config.us) })
    else
      let z := d.nextCycle
      (d.laneIn r z).modRound r (fun x => { x with back := some z })

/-- Every round that meets a condition is aborted. -/
def Dev.abortRounds (d : Dev) (sel : Round → Bool) : Dev :=
  (d.rings.rounds.filter sel).foldl Dev.abortRound d

/-! ### Lost lanes (R163, R173) -/

/-- The lanes that an end of a circuit has lost. -/
def Circuit.lostAt (c : Circuit) (p : Nat) : Nat := if c.north == p then c.lostN else c.lostS

/-- A circuit takes the lanes lost at an end. -/
def Circuit.setLost (c : Circuit) (p m : Nat) : Circuit := if c.north == p then { c with lostN := m } else { c with lostS := m }

/-- Whether an axis of a circuit's heads is in FAULT. -/
def Dev.circuitAxisFault (d : Dev) (c : Circuit) : Bool :=
  (pairAxes c.north c.south c.plane).any (fun a => (d.axis a).state == .fault)

/-- LIVE or DEGRADED, as the lanes and the axes of a lit circuit give (Table 3.2). -/
def Dev.litState (d : Dev) (c : Circuit) : CState :=
  if c.lostN = 0 && c.lostS = 0 && !d.circuitAxisFault c then .live else .degraded

/-- Whether a graded handover is taking a circuit out (R200's coincidence, event 0x0306). -/
def Dev.outgoing (d : Dev) (c : Circuit) : Bool :=
  d.arr.commits.any (fun e => e.2.state == .flipping && e.2.ended.any (fun x => x.north == c.north && x.plane == c.plane))

/-- The instant of what a pod reports: its arrival less the pod's Lq (Table 4.8). -/
def Dev.podStamp (d : Dev) (q : Nat) : Nat := (d.time.counter - (ofPs (d.nat 0x2241 (q + 1))).toNat) / 2 ^ 32

/-- An event 0x0301 of a port that came within the same 1 µs and is still to be handled: it is handled as one with what follows, and
gives back its lanes (R163). -/
def Dev.together (d : Dev) (p t : Nat) : Dev × Nat :=
  let mine := fun (e : Event) => e.code == 0x0301 && e.scope == 2 && e.index == p && e.seq == 0 && decide (t ≤ e.time + Config.us)
  let took := fun (o : Option Event) => match o with | some e => mine e | none => false
  let all := d.faults.queue ++ d.faults.current.toList ++ d.faults.parked.toList
  ({ d with faults := { d.faults with
      queue := d.faults.queue.filter (fun e => !mine e)
      current := if took d.faults.current then none else d.faults.current
      parked := if took d.faults.parked then none else d.faults.parked } }.takeHead,
    (all.filter mine).foldl (fun m e => m ||| fld e.detail 0 1) 0)

/-- One circuit takes lost lanes at an end (R163): loss of every mask lane at one end is loss of light. Declarations of one port
within the same 1 µs make one event. -/
def Dev.loseLanes (d : Dev) (p lanes : Nat) (c : Circuit) : Dev :=
  let hit := c.lanes &&& lanes
  if hit = 0 then d
  else
    let t := d.podStamp (podOf p)
    let m := c.lostAt p ||| hit
    let dark := m == c.lanes
    let c' := c.setLost p m
    let same := fun (x : Circuit) => x.north == c.north && x.plane == c.plane
    if dark && c.state != .lost then
      let d := d.modCircuits same (fun _ => { c' with state := .lost })
      let r := d.together p t
      let lanes := lanes ||| r.2
      if d.outgoing c then r.1.raiseAt t 0x0306 1 2 p true [BitVec.ofNat 8 lanes]
      else r.1.raiseAt t 0x0302 2 2 p true [BitVec.ofNat 8 lanes]
    else
      let d := d.modCircuits same (fun _ => { c' with state := if c.state == .live then .degraded else c.state })
      if c.state == .lost then d
      else
        let r := d.together p t
        r.1.raiseAt t 0x0301 1 2 p true [BitVec.ofNat 8 (lanes ||| r.2)]

/-- The lanes of a port that are routed to a plane. -/
def Dev.routedTo (d : Dev) (p plane : Nat) : Nat :=
  if plane = 1 then (d.bank p).route else maskOut 255 (d.bank p).route

/-- A lane declared lost in the verification window of an entry counts against it, restored or not (R200). -/
def Dev.noteDark (d : Dev) (p : Nat) : Dev :=
  let open_ := fun (c : Commit) => c.state == .flipping && !c.windowEnded
  { d with arr := { d.arr with commits := d.arr.commits.map (fun e =>
      if open_ e.2 then (e.1, { e.2 with darkened := sinsert e.2.darkened p }) else e) } }

/-- Lanes are declared lost at a port: its circuits are judged, another lane's round is aborted, the lanes leave the
monitor mask. -/
def Dev.lanesLost (d : Dev) (p lanes : Nat) : Dev :=
  let lanes := maskOut (lanes &&& d.forceLanes p) ((d.bank p).calOut ||| (d.bank p).flipOut ||| (d.bank p).lost)
  if lanes = 0 then d
  else
    let d := (d.modBank p (fun b => { b with lost := b.lost ||| lanes })).noteDark p
    let d := (d.forceAt p).foldl (fun d c => d.loseLanes p (lanes &&& d.routedTo p c.plane) c) d
    let touched := (d.forceAt p).flatMap (fun c => [c.north, southPort c.south])
    (d.abortRounds (fun r => r.ports.any (fun x => touched.contains x))).sendMonitors [p]

/-- Lanes are declared restored at a port (R163, R173). A LOST circuit keeps its state until reacquire succeeds. -/
def Dev.lanesRestored (d : Dev) (p lanes : Nat) : Dev :=
  let d := d.modBank p (fun b => { b with lost := maskOut b.lost lanes })
  let d := (d.forceAt p).foldl (fun d c =>
    let c' := c.setLost p (maskOut (c.lostAt p) lanes)
    let same := fun (x : Circuit) => x.north == c.north && x.plane == c.plane
    let d := d.modCircuits same (fun _ => c')
    if c.state == .degraded then d.modCircuits same (fun x => { x with state := d.litState c' }) else d) d
  let d := d.sendMonitors [p]
  if (d.bank p).lost = 0 then d.unlatch 0x0301 2 p else d

/-! ### Pods (R176, R178, R259) -/

/-- A pod discards its pending descriptors and every unapplied bank (R176). -/
def Pod.discardPending (x : Pod) : Pod :=
  { x with descs := [], banks := x.banks.filter (fun e => e.2.life != 1) }

/-- The ports of a pod. -/
def podPorts (q : Nat) : List Nat := (upto 16).map (16 * q + ·)

/-- Whether a port is OUT_OF_SERVICE: its pod is not IN_SERVICE (R178). -/
def Dev.outOfService (d : Dev) (p : Nat) : Bool := (d.podAt (podOf p)).state != .inService

end Sys2Proof.Machine
end

