-- ==== Sys2Proof/Machine/Commits.lean ====
section
/-!
DEFINITION. Comets (R180 to R183), the member's side of a commit (R188 to R195, Table 7.9), the leader's groups (R189 to
R196), and the flip, its graded steps and its revert (R197 to R204).
-/

namespace Sys2Proof.Machine
open Sys2Proof

/-! ### Reason codes (Table 7.6) -/

/-- The lowest reason of a list, 0 for none. -/
def lowestReason (l : List Nat) : Nat := (l.filter (· != 0)).min?.getD 0

/-! ### Comets (R180 to R183) -/

/-- Whether a comet is under way: WAITING to STAGED. -/
def Comet.active (c : Comet) : Bool := c.state != .aborted && c.state != .fault

/-- The comet under way of a north port and plane. -/
def Dev.cometAt (d : Dev) (north plane : Nat) : Option Comet :=
  d.arr.comets.find? (fun c => c.active && c.north == north && c.plane == plane)

/-- The comet under way that uses a head. -/
def Dev.cometOfHead (d : Dev) (h : Nat) : Option Comet :=
  d.arr.comets.find? (fun c => c.active && (pairHeads c.north c.south c.plane).contains h)

/-- Whether two comets are one. -/
def Comet.same (a b : Comet) : Bool := a.north == b.north && a.plane == b.plane && a.job == b.job

/-- A comet changes. -/
def Dev.modComet (d : Dev) (c : Comet) (f : Comet → Comet) : Dev :=
  { d with arr := { d.arr with comets := d.arr.comets.map (fun x => if x.same c then f x else x) } }

/-- The comets of the entry that a job has in progress. -/
def Dev.jobComets (d : Dev) (j : Nat) : List Comet := d.arr.comets.filter (fun c => c.job == j)

/-- The SLEW grant of an entry goes back when its last comet has left SLEWING (Table 14.3). -/
def Dev.slewDone (d : Dev) (j entry : Nat) : Dev :=
  if (d.jobComets j).any (fun c => c.state == .waiting || c.state == .slewing) then d
  else d.release 1 (slewHolder j entry)

/-- The circuit of a comet goes back to NONE. -/
def Dev.dropComet (d : Dev) (c : Comet) : Dev :=
  d.endCircuits (fun x => !x.inForce && x.north == c.north && x.plane == c.plane)

/-- A comet is aborted (Table 7.3): its heads stop, its pilot goes off, its circuit is NONE. -/
def Dev.abortComet (d : Dev) (c : Comet) : Dev :=
  if c.active then
    let d := d.modComet c (fun x => { x with state := .aborted, searching := false })
    (((d.stopPair c.north c.south c.plane).dropComet c).slewDone c.job c.entry).sendMonitors [c.north, southPort c.south]
  else d

/-- A comet faults (Table 7.3): as an abort, with a class 1 fault and COMET_FAULT_COUNT. -/
def Dev.faultComet (d : Dev) (c : Comet) : Dev :=
  if c.active then
    let d := d.modComet c (fun x => { x with state := .fault, searching := false })
    let d := ((d.stopPair c.north c.south c.plane).dropComet c).slewDone c.job c.entry
    ((d.bump 0x2602 0x0B).raise 0x0203 1 2 c.north false (le 2 c.id)).sendMonitors [c.north, southPort c.south]
  else d

/-- Every comet of a job is aborted. -/
def Dev.abortJobComets (d : Dev) (j : Nat) : Dev := (d.jobComets j).foldl Dev.abortComet d

/-- The identifier of a new comet: the position and a serial modulo 1,024 (R239). -/
def Dev.cometId (d : Dev) : Nat := d.pos * 1024 + d.arr.nextComet % 1024

/-- The comets of an entry are created, WAITING (R180). -/
def Dev.createComets (d : Dev) (j entry z : Nat) (es : List CEntry) : Dev :=
  let d := d.abortJobComets j
  let d := { d with arr := { d.arr with comets := d.arr.comets.filter (fun c => c.job != j) } }
  (es.filter (·.starts)).foldl (fun d e =>
    let c : Comet :=
      { id := d.cometId, job := j, entry := entry, north := e.north, south := e.south, plane := e.plane, lanes := e.lanes
        weights := e.weights, zenith := z }
    { d with arr := { d.arr with comets := d.arr.comets ++ [c], nextComet := d.arr.nextComet + 1 } }) d

/-- The axes of a comet point at each other's ports (R182): axis and target. -/
def Comet.moves (c : Comet) : List (Nat × Int) :=
  (headAxes (headOf c.north c.plane)).map (fun a => (a, Config.aim a (southPort c.south))) ++
  (headAxes (headOf (southPort c.south) c.plane)).map (fun a => (a, Config.aim a c.north))

/-! The geometry of paths (R182): points of head-angle space, in 2⁻³² µrad. -/

/-- The square of the distance of a point from a segment, rounded up. -/
def segmentGap (a b p : Int × Int) : Int :=
  let sq := fun (x y : Int) => x * x + y * y
  let dx := b.1 - a.1
  let dy := b.2 - a.2
  let len := sq dx dy
  let t := (p.1 - a.1) * dx + (p.2 - a.2) * dy
  if t ≤ 0 then sq (p.1 - a.1) (p.2 - a.2)
  else if len ≤ t then sq (p.1 - b.1) (p.2 - b.2)
  else
    let c := (p.1 - a.1) * dy - (p.2 - a.2) * dx
    (c * c + len - 1) / len

/-- The square of the distance of a point from a path through some points; none for a path without a point. -/
def pathGap : List (Int × Int) → Int × Int → Option Int
  | [], _ => none
  | [a], p => some (segmentGap a a p)
  | a :: b :: t, p => match pathGap (b :: t) p with
    | some g => some (min (segmentGap a b p) g)
    | none => some (segmentGap a b p)

/-- The angles of the two axes of a head that a function gives. -/
def headAngles (h : Nat) (f : Nat → Int) : Int × Int := (f (axisOf h 0), f (axisOf h 1))

/-- The port at which a head of a comet points. -/
def Comet.targetOf (c : Comet) (h : Nat) : Nat := if h = headOf c.north c.plane then southPort c.south else c.north

/-- The path of a head of a comet from where it stands: straight, or through its waypoint. -/
def Comet.pathOf (c : Comet) (h : Nat) (from_ : Int × Int) (via : Bool) : List (Int × Int) :=
  from_ :: (if via then [headAngles h (fun a => Config.waypoint a c.point)] else []) ++
    [headAngles h (fun a => Config.aim a (c.targetOf h))]

/-- The ports of the other side that carry a circuit in force on a plane: their heads are what a path of a head of that plane
may cross (R182). -/
def Dev.facing (d : Dev) (h : Nat) : List Nat :=
  (d.circuits.filter (fun c => c.inForce && c.plane == h % 2)).map (fun c => if portOfHead h < 512 then southPort c.south else c.north)

/-- Where a head stands: its reference with the optical correction. -/
def Dev.headAt (d : Dev) (h : Nat) : Int × Int := headAngles h (fun a => (d.axis a).ref + (d.axis a).optCorr)

/-- The first head that the path of a head of a comet crosses: it passes within CROSS_CLEARANCE of it (R182). -/
def Dev.crossed (d : Dev) (c : Comet) (via : Bool) (h : Nat) : Option Nat :=
  let clear := d.num 0x2600 2 * 2 ^ 32
  ((d.facing h).find? (fun q => match pathGap (c.pathOf h (d.headAt h) via) (headAngles h (fun a => Config.aim a q)) with
    | some g => decide (g ≤ clear * clear)
    | none => false)).map (fun q => headOf q c.plane)

/-- The same axes with their waypoints. -/
def Comet.viaMoves (c : Comet) : List (Nat × Int) := c.moves.map (fun m => (m.1, Config.waypoint m.1 c.point))

/-- Axes slewing for entries without a SLEW reservation (R201, R376). -/
def Dev.slewingFree (d : Dev) (reserved : Nat → Bool) : Nat :=
  (d.eng.axes.filter (fun e => e.2.state == .slew && !reserved e.1)).length

/-- Whether the entry that a job has in progress carries a SLEW reservation. -/
def Dev.slewReserved (d : Dev) (j : Nat) : Bool :=
  let c := d.commit j
  c.detour.isNone && (almEntry (d.almanac j) c.entry).cls == 1

/-- The axes that slew for the comets of a job. -/
def Dev.jobSlewing (d : Dev) (j : Nat) : Nat :=
  sumN ((d.jobComets j).map (fun c => ((pairAxes c.north c.south c.plane).filter (fun a => (d.axis a).state == .slew)).length))

/-- Whether a comet is admitted (R201, R376): under its entry's grant, or among 64 axes slewing without one,
and not while a hand-over of DRIVE is announced (R355) or once SHUT is declared (Table 14.6). -/
def Dev.admits (d : Dev) (c : Comet) : Bool :=
  if d.twin.handoverCycle != 0 || d.power.shutAt.isSome then false
  else if d.slewReserved c.job then decide (d.jobSlewing c.job + 4 ≤ d.slewGranted c.job c.entry)
  else
    let reserved := fun a => d.arr.comets.any (fun x =>
      x.active && d.slewReserved x.job && (pairAxes x.north x.south x.plane).contains a)
    decide (d.slewingFree reserved + 4 ≤ 64)

/-! ### Messages (R185, R186) -/

/-- LEADER_EPOCH of the leader this module follows. -/
def Dev.leaderEpoch (d : Dev) : Nat := max d.arr.epoch d.arr.seenEpoch

/-- The 32-byte header (Table 7.4). LEADER reads 0xFFFF while this module knows no leader (DESIGN CHOICE, log 88). -/
def Dev.commitHeader (d : Dev) (tag entry z crc reason : Nat) : Bytes :=
  le 4 tag ++ le 4 entry ++ le 8 z ++ le 4 crc ++ le 2 d.chip ++ le 2 ((d.leader).getD 0xFFFF) ++ le 4 d.leaderEpoch ++
    le 1 reason ++ zeros 3

/-- This module's bit in a mask of members. -/
def Dev.ownBit (d : Dev) : Nat := 1 <<< d.pos

/-- MEMBERS of the entry that a job has in progress: a detour out of schedule is decided by this Director alone (R328). -/
def Dev.entryMembers (d : Dev) (j : Nat) : Nat :=
  if (d.commit j).detour.isSome then d.ownBit else almMembers (d.almanac j)

/-- Whether this module decides for the entry in progress: alone, or as the acting leader. -/
def Dev.decides (d : Dev) (j : Nat) : Bool := d.entryMembers j == d.ownBit || d.isRootNow

/-- The job whose almanac carries a TAG and names this Director (R70). -/
def Dev.jobOfTag (d : Dev) (tag : Nat) : Option Nat :=
  (upto 16).find? (fun j =>
    decide (0 < (d.almanac j).length) && almTag (d.almanac j) == tag && (almMembers (d.almanac j)).testBit d.pos)

/-- A message of the leader goes down the tree, but for a job that this Director decides alone (R191): type code,
reason, body. -/
def Dev.leaderSend (d : Dev) (g : Group) (type reason : Nat) (body : Bytes) : Dev :=
  if g.members == d.ownBit then d else d.sendDown type 0 (d.commitHeader g.tag g.entry g.z 0 reason ++ body)

/-! ### Staging an entry (R197 to R199) -/

/-- The circuits in force that an entry of a job ends: those of the job's ports, from either side, that it does not keep
(R68). -/
def Dev.endedBy (d : Dev) (j : Nat) (es : List CEntry) : List Circuit :=
  d.circuits.filter (fun c => d.jobCircuit j c && !keptAt es c.north)

/-- Whether a constellation takes a circuit that it ends out lane by lane: it hands one of the circuit's two ports over graded
(R198). -/
def gradedOut (es : List CEntry) (c : Circuit) : Bool :=
  es.any (fun e => e.starts && e.handover == 1 && (e.north == c.north || e.south == c.south))

/-- The tuner of a plane's shutter. -/
def shutterTuner (plane : Nat) : Nat := 8 + plane

/-- The writes of one step of an entry. -/
def Dev.stepWrites (d : Dev) (j : Nat) (es : List CEntry) (k : Nat) : List TWrite :=
  let lane := fun (p : Nat) (e : CEntry) (plane i : Nat) => (⟨p, i, d.laneCode p plane e.lanes e.weights i⟩ : TWrite)
  let shut := fun (p plane : Nat) (o : Bool) => (⟨p, shutterTuner plane, d.shutterCode p plane o⟩ : TWrite)
  let starts := (es.filter (·.starts)).flatMap (fun e =>
    let ps := [e.north, southPort e.south]
    if e.handover = 1 then
      ps.map (fun p => lane p e e.plane k) ++ (if k = 0 then ps.map (fun p => shut p e.plane true) else [])
    else if k = 0 then
      ps.flatMap (fun p => (upto 8).map (lane p e e.plane)) ++ ps.map (fun p => shut p e.plane true)
    else [])
  let keeps := if k = 0 then (es.filter (·.keepsLit)).flatMap (fun e =>
      [e.north, southPort e.south].flatMap (fun p => (upto 8).map (lane p e e.plane))) else []
  let ends := (d.endedBy j es).flatMap (fun c =>
    if (gradedOut es c && k = 7) || (!gradedOut es c && k = 0) then
      [shut c.north c.plane false, shut (southPort c.south) c.plane false]
    else [])
  starts ++ keeps ++ ends

/-- The steps of an entry: eight where a circuit is handed over graded, else one. -/
def stepsOf (es : List CEntry) : List Nat := if es.any (fun e => e.handover == 1) then upto 8 else [0]

/-- The stages that an entry needs: its steps that touch any pod, with their instants. -/
def Dev.entryStages (d : Dev) (j : Nat) (es : List CEntry) (z : Nat) : List Stage :=
  ((stepsOf es).map (fun k =>
    ({ step := k, z := z + 50 * Config.us * k, pods := podsOf (d.stepWrites j es k), tag := 0 } : Stage))).filter
    (fun s => !s.pods.isEmpty)

/-- Strobe-table entries reserved by commits, those of a possible revert included (R188). -/
def Dev.strobesReserved (d : Dev) : Nat := sumN (d.arr.commits.map (fun e => 2 * e.2.stages.length))

/-- The entry in progress reserves its strobe entries and staging banks, if it can. -/
def Dev.reserve (d : Dev) (j : Nat) : Dev :=
  let c := d.commit j
  if !c.stages.isEmpty then d
  else
    let need := d.entryStages j (centries (d.slot c.slot)) c.z
    match d.freeTags need.length with
    | some tags =>
      if d.strobesReserved + 2 * need.length ≤ 64 then
        d.modCommit j (fun x => { x with stages := (need.zip tags).map (fun p => { p.1 with tag := p.2 }) })
      else d
    | none => d

/-- Whether the entry holds what it needs. -/
def Dev.reserved (d : Dev) (j : Nat) : Bool :=
  let c := d.commit j
  !c.stages.isEmpty || (d.entryStages j (centries (d.slot c.slot)) c.z).isEmpty

/-- Whether the entry of a job needs a constellation or an almanac with a poisoned word, not yet reloaded from LIBRARY (R311). -/
def Dev.copyPoisoned (d : Dev) (j : Nat) : Bool :=
  d.storePoisoned (objKey (0x4400 + (d.commit j).slot) 1) || d.storePoisoned (objKey (0x4800 + j) 1)

/-- The reason for which a member is NOT_READY, 0 when it is READY (R187, R188). A comet that waits for its slew admission
gives reason 5 (R201) and not 1. An entry whose comets were not created gives reason 1 once the Director is in SERVING; before
that it is the Director's state that keeps it, reason 2, as for a member in HOLD. -/
def Dev.verdict (d : Dev) (j : Nat) : Nat :=
  let waits := fun (c : Comet) => c.state == .waiting && !d.admits c
  lowestReason
    [ if !((d.commit j).bare && d.dir.state == .serving) && !(d.copyPoisoned j && d.dir.state != .hold) &&
          (d.jobComets j).all (fun c => c.state == .ready || waits c) then 0 else 1,
      if d.dir.state == .serving then 0 else 2,
      if d.reserved j && !(d.jobComets j).any waits then 0 else 5,
      if (d.job j).state == .running && !(d.job j).stopping then 0 else 8,
      if d.timeLocked then 0 else 9 ]

/-! ### The leader's groups (R189, R190, R193, R196) -/

/-- The group of a TAG and a ZENITH. -/
def Dev.group (d : Dev) (tag z : Nat) : Option Group := d.arr.groups.find? (fun g => g.tag == tag && g.z == z)

/-- A group changes. -/
def Dev.modGroup (d : Dev) (g : Group) (f : Group → Group) : Dev :=
  { d with arr := { d.arr with groups := d.arr.groups.map (fun x => if x.tag == g.tag && x.z == g.z then f x else x) } }

/-- A member falls back to HELD (R192): comets aborted, the entry kept for its next Zenith (R96). -/
def Dev.placeNext (d : Dev) (j t : Nat) : Dev :=
  let r := d.run j
  let k := d.loopAt j r.next r.loop t
  d.modRun j (fun x => { x with loop := k, zenith := d.zenith j r.next k })

/-- The instant from which a held, retracted or reverted entry may come again (R96). -/
def Dev.again (d : Dev) (z : Nat) : Nat := max (d.now + 10 * Config.ms) (z + 1)

/-- A held entry: PRESTEER or VOTED to HELD. -/
def Dev.memberHold (d : Dev) (j reason : Nat) : Dev :=
  let c := d.commit j
  if c.state == .presteer || c.state == .voted then
    let d := (d.abortJobComets j).bump 0x2602 1
    let d := d.modCommit j (fun x =>
      { x with state := .held, reason := reason, stages := [], lastOutcome := 2, lastZ := c.z })
    let d := d.release 1 (slewHolder j c.entry)
    match c.detour with
    | none => d.placeNext j (d.again c.z)
    | some _ => d
  else d

/-- A retracted entry (R194): nothing has reached a pod. -/
def Dev.memberCancel (d : Dev) (j reason : Nat) : Dev :=
  let c := d.commit j
  let d := d.cancelStrobes (fun s => s.job == j && (s.kind == 0 || s.kind == 3))
  let d := (d.abortJobComets j).bump 0x2602 2
  let d := d.modCommit j (fun x =>
    { x with state := .retracted, reason := reason, stages := [], lastOutcome := 3, lastZ := c.z })
  match c.detour with
  | none => d.placeNext j (d.again c.z)
  | some _ => d

/-- The first instant at which a strobe of the entry could no longer be cancelled. -/
def Commit.firstLimit (c : Commit) : Nat := c.z - 20 * Config.us

/-- Arm every strobe of an entry; whether each was placed (R192). -/
def Dev.armAll (d : Dev) (j : Nat) : List Stage → Dev × Bool
  | [] => (d, true)
  | s :: t =>
    let r := d.armStrobe { z := s.z, pods := s.pods, tag := s.tag, kind := 0, job := j }
    match r.2 with
    | .placed => r.1.armAll j t
    | _ => (r.1, false)

/-- The comets of the entry are STAGED. -/
def Dev.stageComets (d : Dev) (j : Nat) : Dev :=
  (d.jobComets j).foldl (fun d c => d.modComet c (fun x => if x.state == .ready then { x with state := .staged } else x)) d

/-- ACK of this member: its own bit in ACK_MASK or FAIL_MASK (R192). -/
def Dev.ackBody (d : Dev) (fail : Bool) : Bytes :=
  le 8 (if fail then 0 else d.ownBit) ++ le 8 (if fail then d.ownBit else 0)

/-- The reason that the lowest-numbered member of a mask gave. -/
def reasonOf (l : List (Nat × Nat)) (mask : Nat) : Option Nat :=
  match (bitsOf 64 mask).head? with
  | some i => tfind l i
  | none => none

/-- A RETRACT that comes after Z + 950 µs is logged and has no effect (R195); a repeat of a RETRACT that has come is ignored
(R185). -/
def Dev.lateRetract (d : Dev) (j : Nat) : Dev :=
  let c := d.commit j
  if c.retract || c.late then d else (d.modCommit j (fun x => { x with late := true })).info 0x0406 1 j

/-- RETRACT reaches a member (R193 to R195): it cancels before the cancel limit, and reverts after it, up to Z + 950 µs. -/
def Dev.memberRetract (d : Dev) (j reason : Nat) : Dev :=
  let c := d.commit j
  if (c.state == .go || c.state == .acked || c.state == .confirmed) && d.now < c.firstLimit then d.memberCancel j reason
  else if c.state == .acked || c.state == .confirmed || c.state == .flipping then
    if d.now ≤ c.z + 950 * Config.us then d.modCommit j (fun x => { x with retract := true, reason := reason })
    else d.lateRetract j
  else if (c.state == .verified || c.state == .reverted || c.state == .reverting) && c.z + 950 * Config.us < d.now then d.lateRetract j
  else d

/-- RETRACT by the leader. -/
def Dev.leaderRetract (d : Dev) (g : Group) (reason : Nat) : Dev :=
  if g.retractSent then d
  else
    let d := d.modGroup g (fun x => { x with retractSent := true, reason := reason })
    let d := d.leaderSend g 0x15 reason []
    match d.jobOfTag g.tag with
    | some j => if (d.commit j).z == g.z then d.memberRetract j reason else d
    | none => d

/-- CONFIRM reaches a member: one that comes after Z + 950 µs does not count (R195, R451). -/
def Dev.memberConfirm (d : Dev) (j : Nat) : Dev :=
  let c := d.commit j
  match c.state with
  | .acked => d.modCommit j (fun x => { x with state := .confirmed, confirm := true })
  | .flipping => if d.now ≤ c.z + 950 * Config.us then d.modCommit j (fun x => { x with confirm := true }) else d
  | _ => d

/-- A group enters the table; groups long past leave it. -/
def Dev.addGroup (d : Dev) (g : Group) : Dev :=
  { d with arr := { d.arr with groups := (d.arr.groups.filter (fun x => d.now < x.z + 5 * Config.ms)) ++ [g] } }

/-- Whether the leader's tenure began after the decision instant of a Zenith (R190). -/
def Dev.lateLeader (d : Dev) (z : Nat) : Bool := decide (z - 800 * Config.us < d.arr.leaderSince)

/-- An acknowledgement counts in its group before the guard (R193). -/
def Dev.tallyAck (d : Dev) (g : Group) (tag z ack fail sender reason : Nat) : Dev :=
  let g' : Group :=
    { g with ack := maskOut (g.ack ||| ack) fail, fail := g.fail ||| fail
             failReasons := if fail != 0 then tset g.failReasons (sender - 0xF000) reason else g.failReasons }
  let d := d.modGroup g (fun _ => g')
  if g'.fail != 0 && g'.confirmSent then d.leaderRetract g' ((reasonOf g'.failReasons g'.fail).getD 1)
  else if g'.ack == g'.members && g'.fail == 0 && g'.goSent && !g'.confirmSent && !g'.retractSent then
    let d := d.modGroup g (fun x => { x with confirmSent := true })
    let d := d.leaderSend g' 0x14 0 []
    match d.jobOfTag tag with
    | some j => if (d.commit j).z == z then d.memberConfirm j else d
    | none => d
  else d

/-- Acknowledgements reach the group (R193): CONFIRM once every member has acknowledged and none failed, RETRACT when a
FAIL follows a CONFIRM, both before the guard: on its very tick an acknowledgement has missed it (R451), and one that comes
later is ignored. A leader without a record of the Zenith whose tenure began too late for it retracts it at once (R190). One whose
tenure began in time opens its record with the acknowledgements of a job of its own: what its forerunner sent GO for is confirmed or
retracted by them (R193; DEDUCED, log 89). -/
def Dev.groupAck (d : Dev) (tag z entry crc ack fail sender reason : Nat) : Dev :=
  match d.group tag z with
  | none =>
    if d.lateLeader z && d.now < z + 900 * Config.us then
      let g : Group := { tag := tag, z := z, entry := entry, crc := crc, members := ((d.jobOfTag tag).map (fun j => almMembers (d.almanac j))).getD 0 }
      (d.addGroup g).leaderRetract g 7
    else
      match d.jobOfTag tag with
      | none => d
      | some j =>
        if z - 200 * Config.us ≤ d.now then d
        else
          let g : Group := { tag := tag, z := z, entry := entry, crc := crc, members := almMembers (d.almanac j), goSent := true }
          (d.addGroup g).tallyAck g tag z ack fail sender reason
  | some g => if z - 200 * Config.us ≤ d.now then d else d.tallyAck g tag z ack fail sender reason

/-- The acknowledgement that stands goes to the leader, or into the own group. -/
def Dev.ackAgain (d : Dev) (j : Nat) : Dev :=
  let c := d.commit j
  let fail := c.failReason != 0
  let tag := almTag (d.almanac j)
  if d.decides j then
    d.groupAck tag c.z c.entry (almTiming (d.almanac j)) (if fail then 0 else d.ownBit) (if fail then d.ownBit else 0) d.chip c.failReason
  else d.sendUp 0x13 0 (d.commitHeader tag c.entry c.z (almTiming (d.almanac j)) c.failReason ++ d.ackBody fail)

/-- The acknowledgement of this member, FAIL with its reason, goes to the leader, or into the own group (R192). -/
def Dev.sendAck (d : Dev) (j reason : Nat) : Dev :=
  (d.modCommit j (fun x => { x with ackSent := true, failed := reason != 0, failReason := reason })).ackAgain j

/-- The banks of an entry are staged, with the clamps of their weights (R157, R192). -/
def Dev.stageEntry (d : Dev) (j : Nat) (es : List CEntry) : Dev :=
  let d := (d.commit j).stages.foldl (fun d s => d.stageWrites s.tag (d.stepWrites j es s.step)) d
  (es.filter (fun e => e.starts || e.keepsLit)).foldl (fun d e =>
    (bitsOf 8 e.lanes).foldl (fun d k => d.noteClamp e.north k (e.weights.getD k 0)) d) d

/-- Arming is done or refused: from GO to ACKED with the acknowledgement (R192, Table 7.9). -/
def Dev.memberAck (d : Dev) (j reason : Nat) : Dev :=
  (d.modCommit j (fun x => { x with state := .acked })).sendAck j reason

/-- GO reaches a member (R192): in GO it stages and arms, and then acknowledges. -/
def Dev.memberGo (d : Dev) (j : Nat) : Dev :=
  let c := d.commit j
  if c.state == .voted && c.voted == some true then
    let es := centries (d.slot c.slot)
    let d := (d.modCommit j (fun x => { x with state := .go, go := true })).stageEntry j es
    if !(d.jobComets j).all (fun x => x.state == .ready) then d.memberAck j 1
    else
      let r := d.armAll j c.stages
      if r.2 then ((r.1.stageComets j).modCommit j (fun x => { x with armed := true, ended := d.endedBy j es })).memberAck j 0
      else (r.1.cancelStrobes (fun s => s.job == j && s.kind == 0)).memberAck j 10
  else d

/-- GO by the leader. -/
def Dev.leaderGo (d : Dev) (g : Group) : Dev :=
  let d := d.modGroup g (fun x => { x with goSent := true })
  let d := d.leaderSend g 0x11 0 []
  match d.jobOfTag g.tag with
  | some j => if (d.commit j).z == g.z then d.memberGo j else d
  | none => d

/-- HOLD by the leader. -/
def Dev.leaderHold (d : Dev) (g : Group) (reason : Nat) : Dev :=
  let d := d.modGroup g (fun x => { x with holdSent := true, reason := reason })
  let d := d.leaderSend g 0x12 reason []
  match d.jobOfTag g.tag with
  | some j => if (d.commit j).z == g.z then d.memberHold j reason else d
  | none => d

/-- A new group of a first vote; a leader whose tenure began after the decision instant retracts it at once (R190). -/
def Dev.openGroup (d : Dev) (g : Group) (soloJob : Bool) : Dev :=
  let d := d.addGroup g
  if !soloJob && d.lateLeader g.z then d.leaderRetract g 7 else d

/-- A sender is named for its votes of a Zenith, once (R185, R189). -/
def Dev.nameOnce (d : Dev) (m : CMsg) (f : Dev → Dev) : Dev :=
  let k := (m.tag, m.zenith, m.sender)
  if d.arr.named.contains k then d
  else f { d with arr := { d.arr with named := d.arr.named.filter (fun x => d.now < x.2.1 + 5 * Config.ms) ++ [k] } }

/-- Votes reach the leader (R189, R190). Event 0x0403 names the leader's own job of the TAG; a leader that is no member of it puts the
index 0xFFFF (DESIGN CHOICE, log 88). -/
def Dev.groupVote (d : Dev) (m : CMsg) (members ready notReady : Nat) : Dev :=
  if !members.testBit (m.sender - 0xF000) || m.sender < 0xF000 then d.nameOnce m (fun d => d.info 0x0403 0 0 (le 2 m.sender))
  else
    let solo := members == d.ownBit
    let g0 : Group := { tag := m.tag, z := m.zenith, entry := m.entry, crc := m.crc, members := members }
    let d := if (d.group m.tag m.zenith).isNone then d.openGroup g0 solo else d
    match d.group m.tag m.zenith with
    | none => d
    | some g =>
      if g.members != members || g.crc != m.crc || g.entry != m.entry then
        let d := d.nameOnce m (fun d => d.raise 0x0403 1 1 ((d.jobOfTag m.tag).getD 0xFFFF) false (le 2 m.sender))
        if g.goSent || g.holdSent || g.retractSent then d else d.leaderHold g 4
      else
        let g' : Group :=
          { g with ready := maskOut (g.ready ||| ready) notReady, notReady := maskOut (g.notReady ||| notReady) ready
                   failReasons := if notReady != 0 then tset g.failReasons (m.sender - 0xF000) m.reason else g.failReasons }
        let d := d.modGroup g (fun _ => g')
        if g'.ready == g'.members && !g'.goSent && !g'.holdSent && !g'.retractSent && d.now ≤ g'.z - 800 * Config.us then
          d.leaderGo g'
        else d

/-- The vote that stands goes to the leader, or into the own group. -/
def Dev.voteAgain (d : Dev) (j : Nat) : Dev :=
  let c := d.commit j
  let ready := c.voted == some true
  let reason := if ready then 0 else c.own
  let alm := d.almanac j
  let rm := if ready then d.ownBit else 0
  let nm := if ready then 0 else d.ownBit
  if d.decides j then
    let m : CMsg :=
      { tag := almTag alm, entry := c.entry, zenith := c.z, crc := almTiming alm, sender := d.chip
        leader := (d.leader).getD 0xFFFF, epoch := d.leaderEpoch, reason := reason }
    d.groupVote m (d.entryMembers j) rm nm
  else d.sendUp 0x10 0 (d.commitHeader (almTag alm) c.entry c.z (almTiming alm) reason ++ le 8 (almMembers alm) ++ le 8 rm ++ le 8 nm)

/-- The vote of this member is cast and goes to the leader, or into the own group. -/
def Dev.sendVote (d : Dev) (j : Nat) (reason : Nat) : Dev :=
  (d.modCommit j (fun x =>
    { x with state := if x.state == .presteer then .voted else x.state, voted := some (reason == 0), reason := reason, own := reason })).voteAgain j

/-- The vote is sent when the conditions first hold, and again whenever the verdict changes, until GO or HOLD (R188). -/
def Dev.revote (d : Dev) (j : Nat) : Dev :=
  let c := d.commit j
  if !d.acts then d
  else if c.state == .presteer then
    let d := d.reserve j
    let v := d.verdict j
    if v = 0 then d.sendVote j 0 else d
  else if c.state == .voted then
    let d := d.reserve j
    let v := d.verdict j
    if c.voted != some (v == 0) then d.sendVote j v else d
  else d

/-- Every job's vote follows the state of the Director. -/
def Dev.revoteAll (d : Dev) : Dev := (upto 16).foldl Dev.revote d

/-- Alignment is lost at a comet (Table 7.3): READY is withdrawn, STAGED fails its acknowledgement, before Z − 200 µs. -/
def Dev.alignmentLost (d : Dev) (c : Comet) : Dev :=
  if d.now < c.zenith - 200 * Config.us then
    let d := d.modComet c (fun x => { x with state := .acquiring, okN := false, okS := false })
    let d := d.modCircuits (fun x => x.state == .ready && x.north == c.north && x.plane == c.plane) (fun x => { x with state := .presteer })
    match c.state with
    | .ready => d.revote c.job
    | .staged => if (d.commit c.job).ackSent then d.sendAck c.job 1 else d
    | _ => d
  else d

/-! ### The flip (R197 to R199) -/

/-- The ports of an entry: both ends of what it starts, keeps lit and ends. -/
def Dev.entryPorts (d : Dev) (j : Nat) (es : List CEntry) : List Nat :=
  ((es.filter (fun e => e.starts || e.keepsLit)).flatMap (fun e => [e.north, southPort e.south]) ++
    (d.endedBy j es).flatMap (fun c => [c.north, southPort c.south])).foldl sinsert []

/-- A plane's shutter of a port is open or dark. -/
def Dev.setShutter (d : Dev) (p plane : Nat) (o : Bool) : Dev :=
  d.modBank p (fun b => if plane = 0 then { b with saOpen := o } else { b with sbOpen := o })

/-- A circuit ends: NONE, its shutters dark, its heads in HOLD_CLOSED (R143, R197). -/
def Dev.endCircuit (d : Dev) (z : Nat) (c : Circuit) : Dev :=
  let d := d.endCircuits (fun x => x.inForce && x.north == c.north && x.plane == c.plane)
  let d := [c.north, southPort c.south].foldl (fun d p => d.setShutter p c.plane false) d
  let d := (pairHeads c.north c.south c.plane).foldl (fun d h => d.leaveTrack h z) d
  d.settle

/-- A comet flips: its circuit is LIVE, its heads TRACK, its pilot is off (Table 7.3). -/
def Dev.beginCircuit (d : Dev) (z : Nat) (e : CEntry) : Dev :=
  let d := d.putCircuit
    { north := e.north, south := e.south, plane := e.plane, state := .live, lanes := e.lanes, weights := e.weights, liveAt := z }
  let d := (pairHeads e.north e.south e.plane).foldl (fun d h => (d.gateClose h).enterTrack h) d
  let d := [e.north, southPort e.south].foldl (fun d p =>
    (d.setShutter p e.plane true).modBank p (fun b => { b with lost := 0 })) d
  { d with arr := { d.arr with comets := d.arr.comets.filter (fun c => !(c.north == e.north && c.plane == e.plane)) } }

/-- One lane of a graded handover moves at its step: the outgoing circuits of its ports lose it (R198). -/
def Dev.moveLane (d : Dev) (e : CEntry) (k : Nat) : Dev :=
  let ports := [e.north, southPort e.south]
  let d := ports.foldl (fun d p => d.setRoute p e.plane e.lanes [k]) d
  d.modCircuits (fun c => c.inForce && c.plane != e.plane && ports.any c.hasPort) (fun c => { c with lanes := setBit c.lanes k false })

/-- The entries whose circuit becomes LIVE at the Zenith: those with a STAGED comet (Table 3.2, Table 7.3). -/
def Dev.flips (d : Dev) (es : List CEntry) : List CEntry :=
  es.filter (fun e => e.starts && (match d.cometAt e.north e.plane with | some c => c.state == .staged | none => false))

/-- The commit takes effect at Z on the circuits (Table 7.7, first row of Table 7.8, R199). Of what an entry starts, only a
READY circuit with its STAGED comet becomes LIVE (Table 3.2). The lanes of the others are routed as the banks say, and their
comets, which have lost their alignment since the ACK, end: DESIGN CHOICE (log 64). -/
def Dev.flip (d : Dev) (j z : Nat) (es live : List CEntry) : Dev :=
  let gone := (d.endedBy j es).filter (fun c => !gradedOut es c)
  let d := gone.foldl (fun d c => d.endCircuit z c) d
  let d := (es.filter (·.starts)).foldl (fun d e =>
    let d := if live.contains e then d.beginCircuit z e else d
    if e.handover = 1 then d.moveLane e 0
    else [e.north, southPort e.south].foldl (fun d p => d.setRoute p e.plane e.lanes (upto 8)) d) d
  (es.filter (·.keepsLit)).foldl (fun d e =>
    let d := d.modCircuits (fun c => c.inForce && c.north == e.north && c.plane == e.plane)
      (fun c => { c with lanes := e.lanes, weights := e.weights, lostN := c.lostN &&& e.lanes, lostS := c.lostS &&& e.lanes })
    [e.north, southPort e.south].foldl (fun d p => d.setRoute p e.plane e.lanes (upto 8)) d) d

/-- The pointer advances past a committed entry (R79). -/
def Dev.advance (d : Dev) (j : Nat) : Dev :=
  let r := d.run j
  let n := nextOf (d.almanac j) r.variant r.next r.loop
  let d := d.modRun j (fun x => { x with next := n.1, loop := n.2, commits := x.commits + 1, fresh := false })
  d.modRun j (fun x => { x with zenith := d.zenith j n.1 n.2 })

/-- Whether the first strobe of an entry has been sent, or the entry needs none. -/
def Dev.strobed (d : Dev) (j : Nat) : Bool :=
  let c := d.commit j
  c.stages.isEmpty || !d.time.strobes.any (fun s => s.job == j && s.kind == 0 && !s.due.isEmpty && s.z == c.z)

/-- The tags of a commit whose bank a pod has not reported. -/
def Stage.missing (s : Stage) : List Nat := s.pods.filter (fun q => !s.applied.contains q)

/-- The restored circuit of a revert: LIVE with every lane, none lost (R204). -/
def Circuit.restored (c : Circuit) : Circuit := { c with state := .live, lostN := 0, lostS := 0 }

/-- The UNDO strobes of a revert (R204): the last-applied first, 2 µs apart, at the pods at which the bank was applied. -/
def Dev.armUndo (d : Dev) (j : Nat) : Dev :=
  let c := d.commit j
  let done := (c.stages.filter (fun s => d.time.strobes.all (fun x => !(x.job == j && x.kind == 0 && x.tag == s.tag && !x.fixed)))).reverse
  let d := d.cancelStrobes (fun s => s.job == j && (s.kind == 0 || s.kind == 3))
  let d := (done.foldl (fun (acc : Dev × Nat) s =>
    (acc.1.armFixed { z := c.z + Config.ms + 2 * Config.us * acc.2, pods := s.pods, tag := s.tag, kind := 1, job := j }, acc.2 + 1)) (d, 0)).1
  d

/-- A Keep-lit circuit takes its old lanes, weights and routes back (R199, R204); what it has lost meanwhile stays lost. -/
def Dev.undoKeep (d : Dev) (x : Circuit) : Dev :=
  let d := d.modCircuits (fun c => c.inForce && c.north == x.north && c.plane == x.plane) (fun c =>
    { c with lanes := x.lanes, weights := x.weights
             lostN := (c.lostN ||| maskOut x.lostN c.lanes) &&& x.lanes, lostS := (c.lostS ||| maskOut x.lostS c.lanes) &&& x.lanes })
  [x.north, southPort x.south].foldl (fun d p => d.setRoute p x.plane x.lanes (upto 8)) d

/-- The circuits return at Z + 1 ms as Table 3.2 and R204 give, and the pointer with them. -/
def Dev.undoFlip (d : Dev) (j : Nat) : Dev :=
  let c := d.commit j
  let d := c.begun.foldl (fun d b =>
    match d.circuitOf b.1 b.2 with
    | some x => if x.inForce then d.endCircuit (c.z + Config.ms) x else d
    | none => d) d
  let d := c.ended.foldl (fun d x =>
    let d := d.putCircuit x.restored
    [x.north, southPort x.south].foldl (fun d p =>
      ((d.setShutter p x.plane true).setRoute p x.plane x.lanes (upto 8)).modBank p (fun b => { b with lost := 0 })) d) d
  let d := c.keptLit.foldl Dev.undoKeep d
  match c.before with
  | some r => d.modRun j (fun _ => r)
  | none => d

/-! ### The leader (R184) -/

/-- A new leader and an entry of its own that is under way (R190): it retracts a Zenith whose decision instant passed before its
tenure at once, and puts its own vote or acknowledgement for another into its record. -/
def Dev.leadOwn (d : Dev) (j : Nat) : Dev :=
  let c := d.commit j
  let flown := c.state == .go || c.state == .acked || c.state == .confirmed || (c.state == .flipping && c.kept.isNone)
  if !d.acts || d.entryMembers j == d.ownBit || !(c.state == .presteer || c.state == .voted || flown) then d
  else if d.lateLeader c.z then
    if d.now < c.z + 900 * Config.us then
      let g : Group :=
        { tag := almTag (d.almanac j), z := c.z, entry := c.entry, crc := almTiming (d.almanac j), members := almMembers (d.almanac j) }
      (d.addGroup g).leaderRetract g 7
    else d
  else if c.state == .voted then d.voteAgain j
  else if c.state == .acked || c.state == .confirmed then d.ackAgain j
  else d

/-- LEADER_EPOCH, LEADER_SINCE and the records of the leader follow a change of leader; a new leader takes over the entries that are
under way (R184, R190). -/
def Dev.updateLeader (d : Dev) : Dev :=
  if d.leader == d.arr.leader then { d with arr := { d.arr with liveSet := d.liveSet } }
  else
    let mine := d.isRootNow
    let d := { d with arr := { d.arr with
        leader := d.leader, leaderSince := d.now, liveSet := d.liveSet
        epoch := if mine then max d.arr.epoch d.arr.seenEpoch + 1 else d.arr.epoch
        groups := d.arr.groups.filter (fun g => g.members == d.ownBit) } }
    if mine then (upto 16).foldl Dev.leadOwn d else d

/-- A commit message's epoch is adopted when it is the highest seen (R184). -/
def Dev.seeEpoch (d : Dev) (e : Nat) : Dev := { d with arr := { d.arr with seenEpoch := max d.arr.seenEpoch e } }

/-! ### The Director freezes its entries -/

/-- A member that goes into HOLD, or receives a DISARM or STOP, votes NOT_READY with reason 2 or 8 and holds its entry (R188,
Table 7.9). Its vote is repeated until the leader's HOLD comes (R185). -/
def Dev.memberQuit (d : Dev) (j reason : Nat) : Dev :=
  let c := d.commit j
  if c.state == .presteer || c.state == .voted then
    if d.acts then ((d.sendVote j reason).memberHold j reason).modCommit j (fun x => { x with owed := true })
    else d.memberHold j reason
  else d

/-- Every entry whose GO is not acknowledged is held (Table 2.12, Table 7.9). -/
def Dev.holdEntries (d : Dev) (reason : Nat) : Dev := (upto 16).foldl (fun d j => d.memberQuit j reason) d

/-- The Director enters HOLD: entries not yet acknowledged are held and the calibration rounds are aborted. -/
def Dev.enterHold (d : Dev) (c : Cause) : Dev :=
  let d := d.setState .hold c
  (((d.holdEntries 2).abortRounds (fun _ => true)).revoteAll).announce

/-- Every comet of a job or of the Director is aborted, and its entries are held: DISARM, STOP, FAULT. -/
def Dev.disarmEntries (d : Dev) : Dev :=
  let d := (d.holdEntries 2).abortRounds (fun _ => true)
  (d.arr.comets.filter (fun c => c.active && c.state != .staged)).foldl Dev.abortComet d

/-- STOP: READY once the update in progress has ended. -/
def Dev.engineStop (d : Dev) (j : Nat) : Dev :=
  d.modEngJob j (fun x =>
    if x.state != .active then x else if x.held.isSome then { x with stopping := true } else { x with state := .ready })

/-- A job reaches STOPPED with a cause: 1 command, 2 fault, 3 order timed out, 4 period (0x2080 + n:07). -/
def Dev.stopJob (d : Dev) (j cause : Nat) : Dev :=
  let d := d.memberQuit j 8
  let d := ({ d with faults := { d.faults with stalls := d.faults.stalls.filter (fun (s : Stall) => s.job != j) } }).unlatch 0x0405 1 j
  let d := { d with arr := { d.arr with detours := d.arr.detours.filter (fun x => x.job != j) } }
  (d.modJob j (fun x => { x with state := .stopped, cause := cause, stopping := false })).engineStop j

/-- A RUNNING job is ordered to stop (R65): at once, or after the Zenith whose GO has been acknowledged. -/
def Dev.orderStop (d : Dev) (j cause : Nat) : Dev :=
  if (d.job j).state != .running then d
  else match (d.commit j).state with
    | .go | .acked | .confirmed => d.modJob j (fun x => { x with stopping := true, cause := cause })
    | _ => d.stopJob j cause

end Sys2Proof.Machine
end

