-- ==== Sys2Proof/Machine/Probes.lean ====
section
/-!
DEFINITION. The probe transceivers and the Mapen frames that the Director sends (R215, R227, R228, R234 to R238), the
port states with their attempts, refusals and detaches (R247 to R253), and ORBIT_SYNC (R117).
-/

namespace Sys2Proof.Machine
open Sys2Proof

/-! ### Transceivers (R227, R228) -/

/-- Transceiver 4 q + r, which serves local ports 4 r to 4 r + 3 of pod q. -/
def xcvrOf (p : Nat) : Nat := p / 4

/-- The ports of a transceiver. -/
def xcvrPorts (x : Nat) : List Nat := (upto 4).map (4 * x + ·)

/-- A probe transceiver. -/
def Dev.probeAt (d : Dev) (x : Nat) : Probe := tget {} d.opt.probes x

/-- Whether a port's transceiver is attached to it. -/
def Dev.attached (d : Dev) (p : Nat) : Bool := (d.probeAt (xcvrOf p)).port == some p

/-- A transceiver attaches to a port. -/
def Dev.attach (d : Dev) (p : Nat) : Dev :=
  if d.attached p then d
  else { d with opt := { d.opt with probes := tset d.opt.probes (xcvrOf p) { d.probeAt (xcvrOf p) with port := some p, since := d.now } } }

/-- Whether a frame opens a reply window (Table 9.4). -/
def PFrame.answered (f : PFrame) : Bool :=
  f.type = 1 || f.type = 5 || f.type = 7 || f.type = 8 || f.type = 9 || (f.type = 3 && fld f.payload 0 1 = 2)

/-- Rank of a queued frame (R228): WITHDRAW, VOID_STEP, ORBIT_SYNC, then the others. -/
def PFrame.rank (f : PFrame) : Nat := if f.type = 7 then 0 else if f.type = 8 then 1 else if f.type = 6 then 2 else 3

/-- Rank of a frame within its port's own queue: WITHDRAW goes first, then VOID_STEP and ORBIT_SYNC as they were queued (R228, R251),
then the others. -/
def PFrame.turn (f : PFrame) : Nat := if f.type = 7 then 0 else if f.type = 8 || f.type = 6 then 1 else 2

/-- The frame of a queue that leaves first. -/
def firstFrame (q : List PFrame) : Option PFrame :=
  q.foldl (fun b f => match b with | none => some f | some g => if f.turn < g.turn then some f else some g) none

/-- JOB and JOB_TAG of a port's owner: 0xFF and 0 where no job owns it. -/
def Dev.ownerTag (d : Dev) (p : Nat) : Nat × Nat :=
  match d.owner p with
  | some j => (j, almTag (d.almanac j))
  | none => (0xFF, 0)

/-- The payload of ORBIT_SYNC as it leaves (Table 9.5): the definition in force, stamped now. -/
def Dev.orbitSync (d : Dev) (p : Nat) : Bytes :=
  let o := d.time.inForce
  let own := d.ownerTag p
  le 8 d.now ++ le 4 (d.time.counter % 2 ^ 32) ++ le 8 o.epoch ++ le 4 o.period ++ le 4 o.seq ++
    le 1 (b2n d.timeLocked + 2 * d.ptpStatus + 8 * b2n (d.time.stepped.contains p)) ++ le 1 own.1 ++ [0, 0] ++
    le 4 own.2 ++ le 4 (Config.pathDelay p)

/-- A Mapen frame (Table 9.3): its 12-byte header, the payload and the CRC-32 over both. -/
def mapenFrame (source port : Nat) (f : PFrame) (payload : Bytes) : Bytes :=
  let b := le 1 f.type ++ [1, 0] ++ le 1 payload.length ++ le 2 source ++ le 2 port ++ le 2 f.seq ++ le 2 f.echo ++ payload
  b ++ le 4 (crc32 b)

/-- The block type of a terminate block after n octets (IEEE 802.3 clause 49; log entry 76). -/
def terminateType (n : Nat) : Byte :=
  match n with
  | 0 => 0x87 | 1 => 0x99 | 2 => 0xAA | 3 => 0xB4 | 4 => 0xCC | 5 => 0xD2 | 6 => 0xE1 | _ => 0xFF

/-- The blocks of the octets after the start block: data blocks of eight, and the terminate block with the rest. -/
def dataBlocks : Nat → Bytes → List (Bool × Bytes)
  | 0, _ => []
  | n + 1, b => if 8 ≤ b.length then (false, b.take 8) :: dataBlocks n (b.drop 8) else [(true, terminateType b.length :: padTo 7 b)]

/-- A frame in 64b/66b blocks (R234): a start block of type 0x78 with its first seven octets, then data, then a terminate block. -/
def mapenBlocks (b : Bytes) : List (Bool × Bytes) := (true, 0x78 :: b.take 7) :: dataBlocks (b.length / 8 + 1) (b.drop 7)

/-- One frame leaves on the transceiver attached to its port. -/
def Dev.emitProbe (d : Dev) (p : Nat) (f : PFrame) : Dev :=
  let body := if f.type = 6 then d.orbitSync p else f.payload
  let d := d.emit (.probe p (mapenBlocks (mapenFrame d.chip p f body)))
  let d := d.bump (0x2A40 + podOf p) 2
  let d := d.modPort p (fun x =>
    { x with queue := x.queue.filter (fun g => g != f)
             awaiting := if f.answered then some (f.type, f.seq, d.now) else x.awaiting
             lapsed := x.lapsed.filter (· != f.seq) })
  -- a WITHDRAW is logged as it leaves, with whether it left within 1 ms (R203)
  let d := if f.type = 7 && !f.again then d.info 0x0608 2 p [BitVec.ofNat 8 (b2n (decide (d.now ≤ f.since + Config.ms)))] else d
  if f.type = 6 then { d with time := { d.time with stepped := d.time.stepped.filter (· != p) } } else d

/-- Whether the transmitter of a port's transceiver is LOCKED, its slot 3 laser lit (R210, R213). -/
def Dev.txReady (d : Dev) (p : Nat) : Bool := d.podLit (podOf p) && (d.probeAt (xcvrOf p)).tx.state == .active

/-- Whether a frame for a port is held for a transmitter that is SETTLING or CALIBRATING (R215). -/
def Dev.txHeld (d : Dev) (p : Nat) : Bool :=
  d.podLit (podOf p) && ((d.probeAt (xcvrOf p)).tx.state == .settling || (d.probeAt (xcvrOf p)).tx.state == .calibrating)

/-- A frame is refused NOT_LOCKED: counted, and with the Mapen sequencer for a retry (R215). -/
def Dev.notLocked (d : Dev) (p : Nat) : Dev := (d.bump (0x2A40 + podOf p) 4).bump 0x2A00 3

/-- The frames of a port leave in their order until one opens a reply window (R237); one is held while its transmitter settles or
calibrates, and refused NOT_LOCKED while it is not locked otherwise (R210, R215). -/
def Dev.drainPort (d : Dev) (p : Nat) : Nat → Dev
  | 0 => d
  | n + 1 =>
    let x := d.port p
    match x.awaiting, firstFrame x.queue with
    | none, some f =>
      if !d.holdsDrive then d
      else if d.txReady p then (d.emitProbe p f).drainPort p n
      else if d.txHeld p then d
      else d.notLocked p
    | _, _ => d

/-- Whether a transceiver has nothing to do on the port to which it is attached. -/
def Dev.xcvrIdle (d : Dev) (x : Nat) : Bool :=
  match (d.probeAt x).port with
  | none => true
  | some p => (d.port p).queue.isEmpty && (d.port p).awaiting.isNone

/-- A port's transceiver attaches if it is free, and the port's frames leave. -/
def Dev.servePort (d : Dev) (p : Nat) : Dev :=
  let d := if !d.attached p && d.xcvrIdle (xcvrOf p) then d.attach p else d
  if d.attached p then d.drainPort p ((d.port p).queue.length) else d

/-- A frame that falls due on a quarantined port is logged as undelivered (R253). -/
def Dev.undelivered (d : Dev) (p type : Nat) : Dev := (d.bump 0x2B01 7).info 0x0609 2 p [BitVec.ofNat 8 type]

/-- A Mapen frame is queued for its port: a new SEQ for a new frame, the original's for a repeat; a HELLO takes the
place of one still waiting (R237). -/
def Dev.queueProbe (d : Dev) (p type echo : Nat) (payload : Bytes) (again : Option Nat := none) : Dev :=
  let x := d.port p
  if x.state == .outOfService || !d.holdsDrive then d
  else if x.state == .quarantined then d.undelivered p type
  else
    let seq := again.getD x.seq
    let f : PFrame := { type := type, seq := seq, echo := echo, payload := payload, since := d.now, again := again.isSome }
    let q := x.queue.filter (fun g => !(g.type = 1 && type = 1))
    let d := d.modPort p (fun y =>
      { y with queue := q ++ [f], seq := if again.isSome then y.seq else (y.seq + 1) % 65536 })
    d.servePort p

/-- A WITHDRAW, VOID_STEP or GOODBYE is sent and will be repeated until its ACK (R238). -/
def Dev.queueRepeated (d : Dev) (p type : Nat) (payload : Bytes) : Dev :=
  let x := d.port p
  if x.state == .outOfService || x.state == .quarantined || !d.holdsDrive then d.queueProbe p type 0xFFFF payload
  else
    let r : Repeat := { type := type, seq := x.seq, payload := payload, sends := 1, lastAt := d.now }
    (d.modPort p (fun y => { y with repeats := y.repeats ++ [r] })).queueProbe p type 0xFFFF payload

/-- GOODBYE to a port (R236). -/
def Dev.goodbye (d : Dev) (p cause : Nat) : Dev := d.queueRepeated p 9 (le 1 cause ++ [0, 0, 0])

/-! ### ORBIT_SYNC (R117) -/

/-- ORBIT_SYNC is queued to a port. -/
def Dev.queueSync (d : Dev) (p : Nat) : Dev :=
  if (d.port p).queue.any (fun f => f.type = 6) then d else d.queueProbe p 6 0xFFFF []

/-- The ports in IDENTIFIED. -/
def Dev.identified (d : Dev) : List Nat :=
  (d.disc.ports.filter (fun e => e.2.state == .identified)).map Prod.fst

/-- ORBIT_SYNC to every port in IDENTIFIED whose slot 3 laser is lit. -/
def Dev.syncAll (d : Dev) : Dev :=
  (d.identified.filter (fun p => d.podLit (podOf p))).foldl Dev.queueSync d

/-! ### VOID_STEP (R205, R251) -/

/-- The payload of VOID_STEP (Table 9.5). -/
def voidPayload (tag step z : Nat) : Bytes := le 4 tag ++ zeros 4 ++ le 8 step ++ le 8 z

/-- VOID_STEP is queued to each IDENTIFIED port of a job, and the step is kept for ports identified later. -/
def Dev.voidStepSend (d : Dev) (j step z : Nat) : Dev :=
  let tag := almTag (d.almanac j)
  let v : VoidRec := { job := j, step := step, zenith := z, at_ := d.now }
  let keep := d.disc.voided.filter (fun w => d.now ≤ w.at_ + 10 * Config.sec)
  let d := { d with disc := { d.disc with voided := keep ++ [v] } }
  (d.identified.filter (fun p => (d.job j).ports.testBit p)).foldl
    (fun d p => d.queueRepeated p 8 (voidPayload tag step z)) d

/-! ### Attempts (R247, R248) -/

/-- Whether probing is enabled for a port (R261). -/
def Dev.probing (d : Dev) (p : Nat) : Bool :=
  d.nat (0x4000 + p) 0x16 == 0 &&
    (d.nat 0x2B00 0x0C == 0 || (d.nat 0x2B00 0x0C == 1 && (d.owner p).isSome))

/-- A fresh NONCE for a port (R249): a free value. -/
def Dev.freshNonce (d : Dev) (p : Nat) : Dev :=
  let n := unle (d.randomBytes 4)
  (d.drawn 4).modPort p (fun x =>
    { x with nonce := some n, nonces := (x.nonces.filter (fun e => d.now ≤ e.2 + 200 * Config.ms)) ++ [(n, d.now)] })

/-- HELLO with an attempt number, 0 for a slow probe (Table 9.5). -/
def Dev.sendHello (d : Dev) (p attempt : Nat) : Dev :=
  let own := d.ownerTag p
  (d.modPort p (fun x => { x with helloSent := true })).queueProbe p 1 0xFFFF
    (le 1 d.twinId ++ [1] ++ le 1 attempt ++ [0] ++ le 4 ((d.port p).nonce.getD 0) ++ le 1 own.1 ++ zeros 3 ++ le 4 own.2)

/-- The reply window of the awaited frame is over: a later answer is not received (R237). The last 64 such frames are known (log 98). -/
def Port.lapse (x : Port) : Port :=
  match x.awaiting with
  | some (_, s, _) => { x with awaiting := none, lapsed := (s :: x.lapsed.filter (· != s)).take 64 }
  | none => x

/-- An endpoint frame has been answered (R238): the last 64 of an exchange are known (log 98). -/
def Port.noteAnswer (x : Port) (inType seq : Nat) (a : PFrame) : Port := { x with answered := ((inType, seq, a) :: x.answered).take 64 }

/-- Attempt n starts on a port: PROBING, its first HELLO at once. -/
def Dev.startAttempt (d : Dev) (p n : Nat) : Dev :=
  let d := (d.bump 0x2B01 1).freshNonce p
  let d := d.modPort p (fun x =>
    { x with state := .probing, attempt := n, attemptAt := d.now, phaseAt := d.now, backoff := false, training := none
             reident := false, answered := [] })
  d.sendHello p n

/-- Re-identification of an identified port starts; the port stays IDENTIFIED (Table 9.6). -/
def Dev.startReident (d : Dev) (p : Nat) : Dev :=
  let d := (d.bump 0x2B01 1).freshNonce p
  let d := d.modPort p (fun x => { x with attempt := 1, attemptAt := d.now, backoff := false, reident := true })
  d.sendHello p 1

/-- Whether a frame belongs to an identification: HELLO, or the ACK of an IDENT. -/
def PFrame.ofIdent (f : PFrame) : Bool := f.type = 1 || (f.type = 3 && fld f.payload 0 1 = 2)

/-- A port enters ABSENT: its slow probes count from now, and frames of its exchange no longer leave. -/
def Dev.enterAbsent (d : Dev) (p : Nat) (cause : Option Nat) : Dev :=
  d.modPort p (fun x =>
    { x.lapse with state := .absent, phaseAt := d.now, backoff := false, training := none, reident := false, helloSent := false
                   detachCause := cause.getD x.detachCause, queue := x.queue.filter (fun f => !f.ofIdent) })

/-! ### Detach (R250, R252) -/

/-- Whether a port is owned by a job in RUNNING or RESTARTING. -/
def Dev.portBusy (d : Dev) (p : Nat) : Bool :=
  match d.owner p with
  | some j => d.jobIn j [.running, .restarting]
  | none => false

/-- Detach (R250): the former identity, if the port held one, goes to LAST_CHIP and LAST_LINK; counted, logged with its cause, and the
class of Table 9.7 raised. `other` for a re-identification of another endpoint, which on a busy port is event 0x0602 besides. -/
def Dev.detach (d : Dev) (p cause : Nat) (other : Bool := false) : Dev :=
  let x := d.port p
  let d := d.modPort p (fun y =>
    { y with partner := none, lastChip := (x.partner.map (·.chip)).getD y.lastChip
             lastLink := (x.partner.map (·.link)).getD y.lastLink, detachCause := cause, detachAt := d.now, misses := 0
             reident := false, helloSent := false })
  let busy := d.portBusy p
  let d := (d.bump (0x4000 + p) 0x0D).raise 0x0601 (b2n busy) 2 p false [BitVec.ofNat 8 cause]
  if other && busy then (d.abortRounds (fun r => r.ports.contains p)).raise 0x0602 2 2 p false [BitVec.ofNat 8 cause] else d

/-- Probing is disabled for a port: GOODBYE cause 4 if IDENTIFIED, detach, DARK (Table 9.6). -/
def Dev.probingOff (d : Dev) (p : Nat) : Dev :=
  let x := d.port p
  if x.state == .outOfService || x.state == .dark then d
  else
    let d := if x.state == .identified then d.goodbye p 4 else d
    (d.detach p 6).modPort p (fun y => { y with state := .dark, training := none, backoff := false, reident := false })

/-- A port's probing follows PORT_PROBE, PROBE_POLICY and its owner (R261). -/
def Dev.refreshProbing (d : Dev) (p : Nat) : Dev :=
  if !d.holdsDrive then d
  else if d.probing p then
    if (d.port p).state == .dark && !d.outOfService p then d.startAttempt p 1 else d
  else d.probingOff p

/-- Every port's probing follows the policy. -/
def Dev.refreshAllProbing (d : Dev) : Dev := (upto 1024).foldl Dev.refreshProbing d

/-- Every port of a pod detaches, OUT_OF_SERVICE, when the pod leaves IN_SERVICE. -/
def Dev.portsOut (d : Dev) (q : Nat) : Dev :=
  (podPorts q).foldl (fun d p =>
    (d.detach p 7).modPort p (fun y =>
      { y with state := .outOfService, training := none, backoff := false, awaiting := none, queue := [], repeats := []
               reident := false })) d

/-- Every port of a pod returns to DARK when the pod is IN_SERVICE, and is probed where probing is enabled. -/
def Dev.portsIn (d : Dev) (q : Nat) : Dev :=
  (podPorts q).foldl (fun d p =>
    (if (d.port p).state == .outOfService then d.modPort p (fun y => { y with state := .dark }) else d).refreshProbing p) d

/-- A slot 3 laser is lit again: attempts in progress start again from their first HELLO, and every identified port gets
ORBIT_SYNC (R210, "Slot 3 laser lost in PROBING or TRAINING"). -/
def Dev.probeLightBack (d : Dev) (m : Nat) : Dev :=
  (d.disc.ports.map Prod.fst).foldl (fun d p =>
    if podOf p / 16 = m then
      match (d.port p).state with
      | .probing => if (d.port p).backoff then d else d.startAttempt p (d.port p).attempt
      | .training => d.startAttempt p (d.port p).attempt
      | .identified => (d.modPort p (fun x => { x with lastKeepalive := d.now })).queueSync p
      | _ => d
    else d) d

/-! ### Violations and quarantine (R253) -/

/-- A frame leaves at once, within the reply window in which its cause arrived. -/
def Dev.sendNow (d : Dev) (p type echo : Nat) (payload : Bytes) : Dev :=
  let f : PFrame := { type := type, seq := (d.port p).seq, echo := echo, payload := payload, since := d.now }
  (d.modPort p (fun x => { x with seq := (x.seq + 1) % 65536 })).emitProbe p f

/-- Whether a frame can leave for a port at once. -/
def Dev.canSend (d : Dev) (p : Nat) : Bool := d.holdsDrive && d.attached p && d.txReady p

/-- NAK of a frame, within the reply window or dropped and counted (R253); a repeat of the frame gets the same one (R238). -/
def Dev.nak (d : Dev) (p type seq code : Nat) : Dev :=
  if d.canSend p then
    let a : PFrame := { type := 4, seq := (d.port p).seq, echo := seq, payload := le 1 type ++ le 1 code ++ zeros 6 }
    (d.modPort p (fun x => x.noteAnswer type seq a)).sendNow p 4 seq a.payload
  else d.bump 0x2B01 6

/-- The same answer again to the repeat of a frame (R238): a NAK at once or not at all (R253), another frame in its turn. -/
def Dev.answerAgain (d : Dev) (p : Nat) (a : PFrame) : Dev :=
  if a.type != 4 then d.queueProbe p a.type a.echo a.payload (some a.seq)
  else if d.canSend p then d.emitProbe p { a with since := d.now, again := true }
  else d.bump 0x2B01 6

/-- A port enters QUARANTINED: GOODBYE cause 5, detach (Table 9.6). -/
def Dev.quarantine (d : Dev) (p : Nat) : Dev :=
  let d := (if d.canSend p then d.sendNow p 9 0xFFFF [5, 0, 0, 0] else d.undelivered p 9).detach p 4
  let d := d.modPort p (fun x =>
    { x with state := .quarantined, phaseAt := d.now, queue := [], repeats := [], awaiting := none, training := none
             backoff := false, reident := false })
  (d.bump (0x4000 + p) 0x13).raise 0x0603 1 2 p true

/-- A violation by an endpoint: counted, stored, answered by NAK, and a quarantine at the limit. -/
def Dev.violation (d : Dev) (p type seq code : Nat) : Dev :=
  let d := (d.bump (0x4000 + p) 0x11).setNum (0x4000 + p) 0x12 code
  let d := d.nak p type seq code
  let win := d.nat 0x2B00 0x0A * Config.ms
  let v := ((d.port p).violations.filter (fun t => d.now < t + win)) ++ [d.now]
  let d := d.modPort p (fun x => { x with violations := v })
  let s := (d.port p).state
  if d.nat 0x2B00 9 ≤ v.length && (s == .probing || s == .training || s == .identified) then d.quarantine p else d

/-! ### Tentative probes (R202, R203) -/

/-- The tentative-probe watch that runs on a port. -/
def Dev.watchOf (d : Dev) (p : Nat) : Option Watch := d.arr.watches.find? (fun w => w.port == p && d.now < w.till)

/-- A tentative probe is answered by WITHDRAW (R203): HOLDOFF is the rest of the watch plus 10 ms (R242). -/
def Dev.withdraw (d : Dev) (p : Nat) (w : Watch) : Dev :=
  let ms := (w.till - d.now + Config.ms - 1) / Config.ms + 10
  let d := d.queueRepeated p 7 (le 2 w.comet ++ le 2 ms ++ [1, 0, 0, 0])
  (d.modPort p (fun x => { x with holdoff := d.now + ms * Config.ms })).bump 0x2602 9

end Sys2Proof.Machine
end

