-- ==== Sys2Proof/Machine/Engine.lean ====
section
/-!
DEFINITION. The collective engine (chapter 10): the plan's fields and checks, service frames and their queues, granules,
the norm at the leader, the update and the working copies, activations, models and deliveries.
-/

namespace Sys2Proof.Machine
open Sys2Proof

/-! ### The plan (R269, R270) -/

/-- The stored plan of a job. -/
def Dev.plan (d : Dev) (j : Nat) : Bytes := d.oct (0x2910 + j) 1
/-- TAG. -/
def planTag (b : Bytes) : Nat := fld b 4 4
/-- Whether MASTER_MODE is SPLIT. -/
def planSplit (b : Bytes) : Bool := fld b 8 1 == 2
/-- Whether OPTIMIZER is ADAMW. -/
def planAdamw (b : Bytes) : Bool := fld b 9 1 == 2
/-- GRAD_FORMAT. -/
def planGrad (b : Bytes) : Nat := fld b 10 1
/-- WORK_FORMAT. -/
def planWork (b : Bytes) : Nat := fld b 11 1
/-- PARAMS. -/
def planN (b : Bytes) : Nat := fld b 16 8
/-- MAX_NORM, GRAD_SCALE, LR, BETA1, BETA2, EPS and WEIGHT_DECAY by number 0 to 6, as FP32 bits. -/
def planReal (b : Bytes) (i : Nat) : Nat := fld b (24 + 4 * i) 4
/-- BASE and LENGTH of the region of a kind 1 to 7. -/
def planRegion (b : Bytes) (k : Nat) : Nat × Nat := (fld b (48 + 16 * k) 8, fld b (56 + 16 * k) 8)
/-- FIRST and COUNT of a port's segment. -/
def planSegment (b : Bytes) (n : Nat) : Nat × Nat := (fld b (192 + 16 * n) 8, fld b (200 + 16 * n) 8)
/-- Bytes of a gradient element. -/
def gradSize (b : Bytes) : Nat := if planGrad b = 3 then 4 else 2
/-- Bytes of a working-copy element. -/
def workSize (b : Bytes) : Nat := if planWork b = 4 then 1 else 2
/-- The least multiple of k that is not below x. -/
def ceilTo (k x : Nat) : Nat := (x + k - 1) / k * k
/-- Bytes of the shard's gradient, whole code words. -/
def gradBytes (b : Bytes) : Nat := ceilTo 64 (planN b * gradSize b)
/-- Granules of the shard's gradient and of its master. -/
def gradGranules (b : Bytes) : Nat := ceilTo 4096 (gradBytes b) / 4096
def masterGranules (b : Bytes) : Nat := ceilTo 4096 (4 * planN b) / 4096

/-- The least LENGTH of each region that a plan requires, by kind (Table 10.7); 0 where it requires none. -/
def regionNeed (b : Bytes) (k : Nat) : Nat :=
  let n := planN b
  match k with
  | 1 => if planSplit b then 0 else 4 * n
  | 2 => if planSplit b then 2 * n else 0
  | 3 => if planSplit b then 2 * n else 0
  | 4 => 4 * n
  | 5 => if planAdamw b then 4 * n else 0
  | 6 => ceilTo 4096 (n * gradSize b)
  | _ => 0

/-- The ranges of model slots that hold a record. -/
def Dev.modelRanges (d : Dev) : List (Nat × Nat) := d.coll.models.map (fun e => (e.2.base, e.2.len))

/-- The regions of every plan but one job's. -/
def Dev.otherRegions (d : Dev) (j : Nat) : List (Nat × Nat) :=
  ((upto 16).filter (fun k => k != j && !(d.plan k).isEmpty)).flatMap (fun k => (upto 7).map (fun i => planRegion (d.plan k) (i + 1)))

/-- Whether a range is free for a plan's region or a model slot: in the HBM, clear of the ring and of the given ranges. -/
def Dev.rangeFree (d : Dev) (r : Nat × Nat) (others : List (Nat × Nat)) : Bool :=
  d.hbmRange r.1 r.2 && !overlaps r d.ringRange && others.all (fun o => !overlaps r o)

/-- The segments of a plan in order of FIRST. -/
def segSort (l : List (Nat × Nat × Nat)) : List (Nat × Nat × Nat) :=
  let ins := fun (acc : List (Nat × Nat × Nat)) (x : Nat × Nat × Nat) =>
    acc.filter (fun y => y.1 ≤ x.1) ++ [x] ++ acc.filter (fun y => x.1 < y.1)
  l.foldl ins []

/-- The first segment that leaves a gap, overlaps or cuts a granule, as (first, count, port). -/
def segFault (esz n : Nat) : Nat → List (Nat × Nat × Nat) → Option Nat
  | at_, [] => if at_ = n then none else some 0
  | at_, s :: t => if s.1 = at_ && s.1 * esz % 4096 = 0 then segFault esz n (at_ + s.2.1) t else some s.2.2

/-- The fault of a plan as PLAN_REPORT gives it: code and offset (R270). -/
def Dev.planFault (d : Dev) (j : Nat) (b : Bytes) : Option (Nat × Nat) :=
  let reserved := (fld b 12 4 != 0) || (fld b 52 8 != 0) || (slice b 176 16).any (· != 0)
  let bad := fun (l : List (Bool × Nat)) => (l.find? Prod.fst).map Prod.snd
  let neg := fun (i : Nat) => 0x80000000 ≤ planReal b i && planReal b i != 0x80000000
  let nan := fun (i : Nat) => 0x7F800000 ≤ planReal b i % 0x80000000
  let one := 0x3F800000
  let unlisted := bad
    [(!([1, 2] : List Nat).contains (fld b 8 1), 8), (!([1, 2] : List Nat).contains (fld b 9 1), 9),
     (!([1, 2, 3] : List Nat).contains (planGrad b), 10), (!([1, 2, 4] : List Nat).contains (planWork b), 11),
     (planN b = 0, 16), (neg 0 || nan 0, 24), (neg 1 || nan 1 || planReal b 1 % 0x80000000 = 0, 28),
     (neg 2 || nan 2 || planReal b 2 % 0x80000000 = 0, 32), (neg 3 || one ≤ planReal b 3 % 0x80000000, 36),
     (neg 4 || one ≤ planReal b 4 % 0x80000000 || (!planAdamw b && planReal b 4 != 0), 40),
     ((if planAdamw b then neg 5 || nan 5 || planReal b 5 % 0x80000000 = 0 else planReal b 5 != 0), 44), (neg 6 || nan 6, 48)]
  let kinds := (upto 7).map (· + 1)
  let present := kinds.filter (fun k => (planRegion b k).2 != 0)
  let place := kinds.find? (fun k =>
    let r := planRegion b k
    r.2 != 0 && (r.1 % 65536 != 0 || r.2 % 65536 != 0 || (k != 7 && regionNeed b k = 0) ||
      !d.rangeFree r ((present.filter (· < k)).map (planRegion b) ++ d.otherRegions j ++ d.modelRanges)))
  let size := kinds.find? (fun k => (planRegion b k).2 < regionNeed b k || (k = 6 && 48 * 2 ^ 30 < (planRegion b k).2))
  let segs := segSort (((upto 32).map (fun n => ((planSegment b n).1, (planSegment b n).2, n))).filter (fun s => s.2.1 != 0))
  if b.length != 704 then some (1, 0)
  else if fld b 0 2 != 0x4350 || fld b 2 1 != 1 then some (2, if fld b 0 2 != 0x4350 then 0 else 2)
  else if crcWithout b 60 != fld b 60 4 then some (3, 60)
  else if reserved then some (4, if fld b 12 4 != 0 then 12 else if fld b 52 8 != 0 then 52 else 176)
  else match unlisted with
    | some o => some (5, o)
    | none =>
      if fld b 3 1 != j then some (6, 3)
      else match place with
        | some k => some (7, 48 + 16 * k)
        | none => match size with
          | some k => some (8, 56 + 16 * k)
          | none => match segFault (gradSize b) (planN b) 0 segs with
            | some n => some (9, 192 + 16 * n)
            | none => if planSplit b && planWork b != 1 then some (10, 11) else none

/-! ### Service ports (R262 to R267) -/

/-- Whether the engine runs (R262), on an LD-512C only (R36). -/
def Dev.engineUp (d : Dev) : Bool := d.isC && d.holdsColl && d.isOn 11 && d.coll.state == .ready

/-- The job that owns the south port of a service port (R263). -/
def Dev.svcJob (d : Dev) (n : Nat) : Option Nat := d.owner (southPort (480 + n))

/-- The service ports of a job. -/
def Dev.svcPorts (d : Dev) (j : Nat) : List Nat := (upto 32).filter (fun n => d.svcJob n == some j)

/-- The context of a service port that is UP: the OLD one, or the NEW one of a graded move. -/
def Dev.svcLink (d : Dev) (n : Nat) : Option Nat :=
  if (d.link n).isUp then some n else if (d.link (64 + n)).isUp then some (64 + n) else none

/-- The queue of a service port. -/
def Dev.svcQueue (d : Dev) (n : Nat) : List SFrameOut := tget [] d.coll.queues n

/-- The class of a service frame (Table 10.3). -/
def svcClass (type : Nat) : Nat := if type = 0x57 || type = 0x58 then 1 else 2

/-- The service port whose north port's partner is a chip (R267). -/
def Dev.portOfChip (d : Dev) (j chip : Nat) : Option Nat :=
  (d.svcPorts j).find? (fun n =>
    d.circuits.any (fun c => c.inForce && c.south == 480 + n && ((d.port c.north).partner.map (·.chip)) == some chip))

/-- JOB_TAG of a job's service frames: the TAG of its plan, or of its almanac where it has no plan. -/
def Dev.jobTag (d : Dev) (j : Nat) : Nat := if (d.plan j).isEmpty then almTag (d.almanac j) else planTag (d.plan j)

/-- JOB_TAG of the job of a service port, 0 where it has none. -/
def Dev.svcTag (d : Dev) (n : Nat) : Nat := match d.svcJob n with | some j => d.jobTag j | none => 0

/-- Whether a delivery for a chip finds it on a service port now (R267). -/
def Dev.svcHome (d : Dev) (n : Nat) (e : Nat × SFrameOut) : Bool :=
  d.svcTag n == e.2.tag && (match d.svcJob n with | some j => d.portOfChip j e.1 == some n | none => false)

/-- Whether a frame belongs to the job of a service port, and to its partner where it goes to one chip, so that it may leave there
(R267). -/
def Dev.svcMine (d : Dev) (n : Nat) (f : SFrameOut) : Bool :=
  match f.chip with
  | some c => d.svcHome n (c, f)
  | none => d.svcTag n == f.tag

/-- The deliveries in a port's queue whose chip is not its partner wait for the port that reaches it (R267). -/
def Dev.dropStrays (d : Dev) (n : Nat) : Dev :=
  let stray := fun (f : SFrameOut) => f.chip.isSome && !d.svcMine n f
  let gone := (d.svcQueue n).filter stray
  if gone.isEmpty then d
  else { d with coll := { d.coll with
      queues := tset d.coll.queues n ((d.svcQueue n).filter (fun f => !stray f))
      adrift := gone.map (fun f => (f.chip.getD 0xFFFF, f)) ++ d.coll.adrift } }

/-- The frames of a service port leave while a context of their job is UP (R267). -/
def Dev.drainSvc (d : Dev) (n : Nat) : Dev :=
  match d.svcLink n with
  | none => d
  | some l =>
    if !d.engineUp then d
    else
      let d := d.dropStrays n
      let q := d.svcQueue n ++ (d.coll.adrift.filter (d.svcHome n)).map (·.2)
      let stay := q.filter (fun f => !d.svcMine n f)
      let go := q.filter (d.svcMine n)
      let d := { d with coll := { d.coll with
          queues := if stay.isEmpty then tdel d.coll.queues n else tset d.coll.queues n stay
          adrift := d.coll.adrift.filter (fun e => !d.svcHome n e) } }
      go.foldl (fun d f =>
        let d := (d.sendFrame l f.type (svcClass f.type) (d.link l).partnerChip f.bytes).bump (0x2920 + n) 2
        if f.flags % 2 = 1 then d.bump 0x2900 8 else d) d

/-- A frame waits in a port's queue, and leaves if it may. -/
def Dev.queueSvc (d : Dev) (n : Nat) (f : SFrameOut) : Dev :=
  ({ d with coll := { d.coll with queues := tmod [] d.coll.queues n (· ++ [f]) } }).drainSvc n

/-- STEP_MARK of a job for one port (R272). -/
def Dev.markFrame (d : Dev) (j : Nat) : SFrameOut :=
  { type := 0x57, format := 0, flags := 0, gen := (d.engJob j).gen, tag := planTag (d.plan j)
    token := (d.engJob j).es % 2 ^ 32, scale := 0, addr := 0, group := 0, data := [] }

/-- STEP_MARK of a job on one port, before or after what waits there; the WORK_OUT frames that were sent there with a voided token
follow it, as they were (R272, R286). -/
def Dev.markPort (d : Dev) (j n : Nat) (first : Bool) : Dev :=
  let x := d.engJob j
  let q := d.svcQueue n
  let owed := fun (f : SFrameOut) => x.owed.any (fun o => o.1 == n && o.2 == f.token)
  let again := (x.sent.filter (fun e => e.1 == n && owed e.2 && !q.contains e.2)).map (·.2)
  let d := d.modEngJob j (fun y => { y with owed := y.owed.filter (fun o => o.1 != n) })
  let q := if first then d.markFrame j :: q ++ again else q ++ d.markFrame j :: again
  ({ d with coll := { d.coll with queues := tset d.coll.queues n q } }).drainSvc n

/-- A context of a job with a plan comes UP: its STEP_MARK goes first (R272). -/
def Dev.svcUp (d : Dev) (n : Nat) : Dev :=
  match d.svcJob n with
  | none => d
  | some j => if (d.plan j).isEmpty then d.drainSvc n else d.markPort j n true

/-- A refused frame: counted, answered with SVC_ERROR at most once per 100 µs and context (R266). -/
def Dev.svcRefuse (d : Dev) (n code type token addr : Nat) : Dev :=
  let d := d.bump 0x2900 4
  match tfind d.coll.errAt n with
  | some t =>
    if d.now < t + 100 * Config.us then d.bump 0x2900 5 else go d
  | none => go d
where
  /-- The answer. -/
  go (d : Dev) : Dev :=
    let tag := d.svcTag n
    ({ d with coll := { d.coll with errAt := tset d.coll.errAt n d.now } }).queueSvc n
      { type := 0x58, format := 0, flags := 0, gen := 0, tag := tag, token := 0, scale := 0, addr := 0, group := 0
        data := le 1 code ++ le 1 type ++ zeros 2 ++ le 4 token ++ le 8 addr }

/-! ### Granules (R273, R274) -/

/-- An element of a format as FP32 bits. -/
def toF32 (fmt v : Nat) : Nat := if fmt = 1 then bf16.to f32 v else if fmt = 2 then f16.to f32 v else v

/-- The elements of a string of bytes. -/
def elems (k n : Nat) (b : Bytes) : List Nat := (upto n).map (fun i => fld b (k * i) k)

/-- The sum of the squares of a granule's elements, in element order, as FP64 bits. -/
def granuleSum (fmt : Nat) (l : List Nat) : Nat :=
  l.foldl (fun acc v => let x := f32.to f64 (toF32 fmt v); f64.add acc (f64.mul x x)) 0

/-- One gradient granule arrives. -/
def takeGranule (m : Dev × Hbm) (j g : Nat) (data : Bytes) (poison : Bool) : Dev × Hbm :=
  let p := m.1.plan j
  let x := m.1.engJob j
  let had := x.covered.contains g
  if had && !(x.poisoned.contains g && !poison && x.partial_.isNone) then (m.1.bump 0x2900 6, m.2)
  else
    let m := writeBytes m ((planRegion p 6).1 + 4096 * g) data poison
    let n := min data.length (planN p * gradSize p - 4096 * g) / gradSize p
    let sum := granuleSum (planGrad p) (elems (gradSize p) n data)
    (m.1.modEngJob j (fun y =>
      { y with covered := sinsert y.covered g
               poisoned := if poison then sinsert y.poisoned g else y.poisoned.filter (· != g)
               sums := tset y.sums g sum }), m.2)

/-- The granules of a frame, one after another. -/
def takeGranules (m : Dev × Hbm) (j : Nat) (poison : Bool) : Nat → List Bytes → Dev × Hbm
  | _, [] => m
  | g, c :: t => takeGranules (takeGranule m j g c poison) j poison (g + 1) t

/-! ### Working copies (R283) -/

/-- FP8 E4M3 of a number already divided by SCALE: nearest, ties to even, saturating at 448. -/
def toE4m3 : Fl → Nat
  | .nan => 0x7F
  | .inf neg => (if neg then 0x80 else 0) + 0x7E
  | .fin neg m e =>
    let s := if neg then 0x80 else 0
    if m = 0 then s
    else
      let top : Int := max (-6) ((Nat.log2 m : Int) + e)
      let drop : Int := top - 3 - e
      let q := if 0 < drop then rneShift m drop.toNat else m * 2 ^ (-drop).toNat
      s + min 0x7E (((top + 6) * 8).toNat + q)

/-- The exponent of SCALE for the largest magnitude of a frame: the least k with amax at most 448 times 2^k. -/
def scaleExp : Fl → Option Int
  | .fin _ m e => if m = 0 then none else
    let k := (Nat.log2 m : Int) + e - 8
    some (if 4 * m ≤ 7 * 2 ^ Nat.log2 m then k else k + 1)
  | _ => none

/-- The magnitude of a number. -/
def Fl.abs : Fl → Fl
  | .fin _ m e => .fin false m e
  | .inf _ => .inf false
  | .nan => .nan

/-- The largest magnitude of a list of FP32 words; not-a-numbers are passed over. -/
def amax (l : List Nat) : Fl :=
  l.foldl (fun acc v => let x := (f32.decode v).abs; if acc.lt x then x else acc) (.fin false 0 0)

/-- FP16 of an FP32 word, saturating. -/
def toF16 (v : Nat) : Nat :=
  let w := f32.to f16 v
  if w % 0x8000 = 0x7C00 then w - 1 else w

/-- SCALE as FP32 bits and the data of one frame of working copies, from its masters as FP32 words. -/
def workData (b : Bytes) (l : List Nat) : Nat × Bytes :=
  if planSplit b then (0, l.flatMap (fun v => le 2 (v / 65536)))
  else if planWork b = 1 then (0, l.flatMap (fun v => le 2 (f32.to bf16 v)))
  else if planWork b = 2 then (0, l.flatMap (fun v => le 2 (toF16 v)))
  else
    let k := scaleExp (amax l)
    let sc : Fl := .fin false 1 (k.getD 0)
    (f32.encode sc, l.flatMap (fun v => le 1 (toE4m3 ((f32.decode v).mul (.fin false 1 (-(k.getD 0)))))))

/-- The FP32 master of an element, and whether a word of it was poisoned (R281). -/
def readMaster (m : Dev × Hbm) (b : Bytes) (i : Nat) : (Dev × Hbm) × Nat × Bool :=
  if planSplit b then
    let h := readElem m ((planRegion b 2).1 + 2 * i) 2
    let l := readElem h.1 ((planRegion b 3).1 + 2 * i) 2
    (l.1, h.2.1 * 65536 + l.2.1, h.2.2 || l.2.2)
  else readElem m ((planRegion b 1).1 + 4 * i) 4

/-- The masters of a run of elements. -/
def readMasters (m : Dev × Hbm) (b : Bytes) (i : Nat) : Nat → (Dev × Hbm) × List Nat × Bool
  | 0 => (m, [], false)
  | n + 1 =>
    let a := readMaster m b i
    let r := readMasters a.1 b (i + 1) n
    (r.1, a.2.1 :: r.2.1, a.2.2 || r.2.2)

/-- Masters beyond the range of FP16 are counted as they are converted (Table 10.5). -/
def Dev.countOverflows (d : Dev) (b : Bytes) (l : List Nat) : Dev :=
  if planSplit b || planWork b != 2 then d
  else
    let n := (l.filter (fun v => f32.to f16 v % 0x8000 = 0x7C00)).length
    { d with coll := { d.coll with saturated := d.coll.saturated + n } }

/-- The WORK_OUT frames of a segment from element `i`, in ascending order; `k` bounds their number. -/
def workFrames (m : Dev × Hbm) (j n last : Nat) : Nat → Nat → Dev × Hbm
  | 0, _ => m
  | k + 1, i =>
    if last ≤ i then m
    else
      let b := m.1.plan j
      let c := min (8192 / workSize b) (last - i)
      let r := readMasters m b i c
      let w := workData b r.2.1
      let f : SFrameOut :=
        { type := 0x54, format := planWork b, flags := b2n r.2.2 + 2 * b2n (decide (last ≤ i + c)), gen := 0, tag := planTag b
          token := (m.1.engJob j).es % 2 ^ 32, scale := w.1, addr := i, group := 0, data := w.2 }
      let d := r.1.1.countOverflows b r.2.1
      let d := d.modEngJob j (fun x => { x with sent := x.sent ++ [(n, f)] })
      workFrames (d.queueSvc n f, r.1.2) j n last k (i + c)

/-- The working copies of every segment leave with TOKEN ES (R280, R283). -/
def workOut (m : Dev × Hbm) (j : Nat) : Dev × Hbm :=
  (upto 32).foldl (fun m n =>
    let s := planSegment (m.1.plan j) n
    if s.2 = 0 then m else workFrames m j n (s.1 + s.2) (s.2 / (8192 / workSize (m.1.plan j)) + 1) s.1) m

/-- STEP_MARK on every UP context of a job (R272). -/
def Dev.stepMarks (d : Dev) (j : Nat) : Dev :=
  (d.svcPorts j).foldl (fun d n => if (d.svcLink n).isSome then d.markPort j n false else d) d

/-! ### Mirrors (R358 to R362) -/

/-- The plan regions that an epoch carries, in the order of a block: the master, MOMENT1 and MOMENT2 (R359). -/
def epochRegions (b : Bytes) : List Nat := (if planSplit b then [2, 3] else [1]) ++ [4] ++ (if planAdamw b then [5] else [])

/-- Bytes of an element of a region kind. -/
def regionElem (k : Nat) : Nat := if k = 2 || k = 3 then 2 else 4

/-- The bytes that one bank takes. -/
def bankLen (b : Bytes) : Nat := sumN ((epochRegions b).map (fun k => (planRegion b k).2))

/-- The first byte of a region in a bank: bank 0 lies at the plan's own regions, bank 1 holds them one after another. -/
def Dev.bankAddr (d : Dev) (j bank k : Nat) : Nat :=
  let b := d.plan j
  if bank = 0 then (planRegion b k).1
  else (d.mirror j).base1 + sumN (((epochRegions b).filter (· < k)).map (fun i => (planRegion b i).2))

/-- The least offset of 64 KiB at which a second bank of a job fits (R358). -/
def Dev.bankPlace (d : Dev) (j : Nat) : Option Nat :=
  let b := d.plan j
  let banks := ((upto 16).filter (fun k => k != j && (d.mirror k).base1 != 0)).map (fun k => ((d.mirror k).base1, bankLen (d.plan k)))
  let taken := (upto 7).map (fun i => planRegion b (i + 1)) ++ d.otherRegions j ++ d.modelRanges ++ banks
  let starts := ((d.ringRange :: taken).map (fun r => ceilTo 65536 (r.1 + r.2))).foldl sinsert [65536]
  let upper := if d.isC then [halfSize] else []
  (starts ++ upper).find? (fun a => d.rangeFree (a, bankLen b) taken)

/-- The mirror of a job is laid out afresh: NONE, or NO_SPACE with a class 1 fault. -/
def Dev.placeMirror (d : Dev) (j : Nat) : Dev :=
  if (d.plan j).isEmpty then d.modMirror j (fun _ => {})
  else match d.bankPlace j with
    | some a => d.modMirror j (fun x => { x with base1 := a, bytes := sumN ((epochRegions (d.plan j)).map (fun k => regionElem k * planN (d.plan j))) })
    | none => (d.modMirror j (fun x => { x with state := 1, base1 := 0 })).raise 0x0704 1 1 j

/-- Whether mirror frames go to the twin: the active holder, joined (R345). -/
def Dev.mirrorOn (d : Dev) : Bool := d.twin.coll == .active && d.disc.twinJoin == 1 && (d.link 38).isUp

/-- One MIRROR frame. -/
def Dev.mirrorFrame (d : Dev) (job bank region flags step off : Nat) (data : Bytes) : Dev :=
  d.sendFrame 38 0x42 2 0xFFFF
    (le 1 job ++ le 1 bank ++ le 1 region ++ le 1 flags ++ le 8 step ++ le 8 off ++ zeros 12 ++ data)

/-- A run of words leaves in one frame, or word by word where one of them is poisoned. -/
def mirrorWords (m : Dev × Hbm) (job bank region flags step addr off n : Nat) : Dev × Hbm :=
  let r := readWords m addr n
  if !r.2.2 then (r.1.1.mirrorFrame job bank region flags step off r.2.1, r.1.2)
  else (upto n).foldl (fun m i =>
    let w := readWord m (addr + 64 * i)
    (w.1.1.mirrorFrame job bank region (flags + b2n w.2.2) step (off + 64 * i) w.2.1, w.1.2)) m

/-- The epoch that a bank holds: step, UPDATE_COUNT and LR. -/
def Mirror.bank (x : Mirror) (b : Nat) : Nat × Nat × Nat := if b = 0 then x.bank0 else x.bank1

/-- A bank takes an epoch. -/
def Mirror.setBank (x : Mirror) (b : Nat) (e : Nat × Nat × Nat) : Mirror := if b = 0 then { x with bank0 := e } else { x with bank1 := e }

/-- The bank that the next epoch overwrites. -/
def Mirror.older (x : Mirror) : Nat := if x.bank0.1 ≤ x.bank1.1 then 0 else 1

/-- A bank or the plan's own regions stream out in blocks of 1,024 elements, then the epoch header with END. -/
def mirrorOut (m : Dev × Hbm) (j from_ into flags : Nat) (e : Nat × Nat × Nat) : Dev × Hbm :=
  let b := m.1.plan j
  let m := (upto ((planN b + 1023) / 1024)).foldl (fun m i =>
    (epochRegions b).foldl (fun m k =>
      let n := min 1024 (planN b - 1024 * i) * regionElem k
      let off := 1024 * regionElem k * i
      mirrorWords m j into k flags e.1 (m.1.bankAddr j from_ k + off) off (ceilTo 64 n / 64)) m) m
  (m.1.mirrorFrame j into 0 (flags + 2) e.1 0 (le 8 e.1 ++ le 8 e.2.1 ++ le 4 e.2.2 ++ zeros 44), m.2)

/-- The optimizer state of the step just updated streams to the twin (R359); the banks' epochs of an earlier role are
forgotten. -/
def mirrorStream (m : Dev × Hbm) (j : Nat) : Dev × Hbm :=
  let x := m.1.engJob j
  let mi := m.1.mirror j
  if !m.1.mirrorOn || mi.base1 = 0 then m
  else
    let e := (x.updated, x.count, x.lr)
    let m := (m.1.modMirror j (fun y => if y.own then { y with own := false, bank0 := (0, 0, 0), bank1 := (0, 0, 0) } else y), m.2)
    let b := (m.1.mirror j).older
    let m := mirrorOut m j 0 b 0 e
    (m.1.modMirror j (fun y =>
      { (y.setBank b e) with state := 3, epoch := x.updated, into := b, progress := y.bytes, due := y.due.filter (x.updated < ·) }), m.2)

/-- UPDATED_STEP reaches a mirror step. -/
def mirrorDue (m : Dev × Hbm) (j : Nat) : Dev × Hbm :=
  if (m.1.mirror j).due.contains (m.1.engJob j).updated then mirrorStream m j else m

/-- A VALID model slot is copied to the twin, at its own base. -/
def mirrorModel (m : Dev × Hbm) (s : Nat) : Dev × Hbm :=
  let x := m.1.model s
  if !m.1.mirrorOn || 128 ≤ s then m
  else (upto (ceilTo 8192 x.len / 8192)).foldl (fun m i =>
    let n := min 8192 (x.len - 8192 * i)
    mirrorWords m 0xFF 0 (0x80 + s) (2 * b2n (decide (x.len ≤ 8192 * (i + 1)))) 0 (x.base + 8192 * i) (8192 * i) (ceilTo 64 n / 64)) m

/-! ### The update (R280 to R282, R290) -/

/-- What is fixed once per step: k, 1 − β1, 1 − β2, a1, a2 and lr as FP32 bits. -/
structure Once where
  k : Nat
  ob1 : Nat
  ob2 : Nat
  a1 : Nat
  a2 : Nat
  lr : Nat
  deriving DecidableEq, Repr

/-- `b^t` of an FP32 word, exact and rounded once to binary64. -/
def powF (b t : Nat) : Nat :=
  match f32.decode b with
  | .fin neg m e => f64.encode (.fin (neg && t % 2 = 1) (m ^ t) (e * t))
  | x => f64.encode x

/-- The figures of a step. -/
def onceOf (b : Bytes) (clip lr count : Nat) : Once :=
  let one := 0x3F800000
  let one64 := f32.to f64 one
  let t := count + 1
  { k := f32.mul clip (planReal b 1), ob1 := f32.sub one (planReal b 3), ob2 := f32.sub one (planReal b 4)
    a1 := f64.to f32 (f64.div one64 (f64.sub one64 (powF (planReal b 3) t)))
    a2 := f64.to f32 (f64.div one64 (f64.sqrt (f64.sub one64 (powF (planReal b 4) t)))), lr := lr }

/-- M, m and v of an element after its update, from G, M, m and v (R282). -/
def updateOf (b : Bytes) (o : Once) (g0 mm m v : Nat) : Nat × Nat × Nat :=
  let g := f32.mul g0 o.k
  let wd := planReal b 6
  if planAdamw b then
    let m := f32.add (f32.mul (planReal b 3) m) (f32.mul o.ob1 g)
    let v := f32.add (f32.mul (planReal b 4) v) (f32.mul o.ob2 (f32.mul g g))
    let dd := f32.add (f32.div (f32.mul m o.a1) (f32.add (f32.mul (f32.sqrt v) o.a2) (planReal b 5))) (f32.mul wd mm)
    (f32.sub mm (f32.mul o.lr dd), m, v)
  else
    let m := f32.add (f32.mul (planReal b 3) m) g
    let dd := f32.add m (f32.mul wd mm)
    (f32.sub mm (f32.mul o.lr dd), m, v)

/-- A master is written, or left poisoned. -/
def writeMaster (m : Dev × Hbm) (b : Bytes) (i v : Nat) (poison : Bool) : Dev × Hbm :=
  if planSplit b then
    writeElem (writeElem m ((planRegion b 2).1 + 2 * i) 2 (v / 65536) poison) ((planRegion b 3).1 + 2 * i) 2 (v % 65536) poison
  else writeElem m ((planRegion b 1).1 + 4 * i) 4 v poison

/-- One element's update; whether a poisoned word was read. -/
def updateElem (m : Dev × Hbm) (b : Bytes) (o : Once) (i : Nat) : (Dev × Hbm) × Bool :=
  let g := readElem m ((planRegion b 6).1 + i * gradSize b) (gradSize b)
  let mm := readMaster g.1 b i
  let m1 := readElem mm.1 ((planRegion b 4).1 + 4 * i) 4
  let v := if planAdamw b then readElem m1.1 ((planRegion b 5).1 + 4 * i) 4 else (m1.1, 0, false)
  if g.2.2 || mm.2.2 || m1.2.2 || v.2.2 then (writeMaster v.1 b i 0 true, true)
  else
    let r := updateOf b o (toF32 (planGrad b) g.2.1) mm.2.1 m1.2.1 v.2.1
    let m := writeMaster v.1 b i r.1 false
    let m := writeElem m ((planRegion b 4).1 + 4 * i) 4 r.2.1 false
    (if planAdamw b then writeElem m ((planRegion b 5).1 + 4 * i) 4 r.2.2 false else m, false)

/-- The update of every element from `i` on. -/
def updateFrom (m : Dev × Hbm) (b : Bytes) (o : Once) (i : Nat) : Nat → (Dev × Hbm) × Bool
  | 0 => (m, false)
  | n + 1 =>
    let a := updateElem m b o i
    let r := updateFrom a.1 b o (i + 1) n
    (r.1, a.2 || r.2)

/-- The update of a step ends: UPDATED_STEP and ES advance, the step's sums are cleared, the copies leave (R94, R280). -/
def updateStep (m : Dev × Hbm) (j : Nat) (c : Clip) : Dev × Hbm :=
  let b := m.1.plan j
  let x := m.1.engJob j
  let apply := c.result == 0
  let r := if apply then updateFrom m b (onceOf b c.clip x.lrNow x.count) 0 (planN b) else (m, false)
  let d := r.1.1.modEngJob j (fun y =>
    { y with updated := y.es, es := y.es + 1, count := if apply then y.count + 1 else y.count
             skips := if apply then y.skips else (y.skips + 1) % 2 ^ 32, skipRun := if apply then 0 else y.skipRun + 1
             covered := [], poisoned := [], sums := [], partial_ := none, held := none
             sent := y.sent.filter (fun e => e.2.token == y.es % 2 ^ 32) })
  let d := d.release 3 j
  let d := if r.2 then d.raise 0x0702 4 1 j true else d
  let d := if !apply && (d.engJob j).skipRun = d.nat 0x2900 3 then d.raise 0x0702 4 1 j true else d
  let was := x.es
  let m := (d, r.1.2)
  let m := if (d.engJob j).voided.contains was then
      ((m.1.modEngJob j (fun y => { y with voided := y.voided.filter (was < ·) })).stepMarks j, m.2) else m
  let m := mirrorDue (workOut m j) j
  (m.1.modEngJob j (fun y => if y.stopping then { y with state := .ready, stopping := false } else y), m.2)

/-! ### The norm (R275 to R279) -/

/-- The shard of this Director in a job, none for 0xFF. -/
def Dev.shardOf (d : Dev) (j : Nat) : Option Nat :=
  let s := fld (d.oct (0x4800 + j) 3) d.pos 1
  if (d.oct (0x4800 + j) 3).isEmpty || s = 0xFF then none else some s

/-- The shards that SHARD_MAP assigns, ascending. -/
def Dev.shards (d : Dev) (j : Nat) : List Nat :=
  ((d.oct (0x4800 + j) 3).filter (· != 0xFF)).foldl (fun l x => sinsert l x.toNat) []

/-- NORM_PARTIAL (24 B). -/
def partialBytes (tag gen shard flags step sum : Nat) : Bytes :=
  le 4 tag ++ le 1 gen ++ le 1 shard ++ le 1 flags ++ [0] ++ le 8 step ++ le 8 sum

/-- CLIP (32 B). -/
def clipBytes (c : Clip) : Bytes :=
  le 4 c.tag ++ le 1 c.gen ++ le 1 c.result ++ [0, 0] ++ le 8 c.step ++ le 4 c.clip ++ zeros 4 ++ le 8 c.norm

/-- NORM_RESTART (16 B). -/
def restartBytes (tag gen step : Nat) : Bytes := le 4 tag ++ le 1 gen ++ zeros 3 ++ le 8 step

/-- Whether g1 is a later generation than g2 (R278). -/
def laterGen (g1 g2 : Nat) : Bool := let x := (g1 + 256 - g2 % 256) % 256; decide (1 ≤ x) && decide (x ≤ 127)

/-- HBM_BURST is asked for by a user of Table 14.3, once (R280): holders 0 to 15 update, 16 to 31 deliver for a job, 32 to 95 fill or
fetch a model slot, 96 to 111 restore a job. -/
def Dev.burst (d : Dev) (holder : Nat) : Dev :=
  let has := fun (l : List Permit) => l.any (fun g => g.cls == 3 && g.holder == holder)
  if has d.power.grants || has d.power.deferred then d else d.request 3 .normal 1 holder 0

/-- A CLIP reaches an engine that expects it: its update may begin, with the LR of that instant (R280, R282). -/
def Dev.engineClip (d : Dev) (c : Clip) : Dev :=
  match (upto 16).find? (fun j => !(d.plan j).isEmpty && planTag (d.plan j) == c.tag && (d.engJob j).state == .active) with
  | none => d
  | some j =>
    let x := d.engJob j
    if x.es = c.step && x.gen = c.gen && x.held.isNone then
      (d.modEngJob j (fun y => { y with held := some c, lrNow := y.lr, norm := c.norm, clip := c.clip, result := c.result })).burst j
    else d

/-- NORM_RESTART reaches the engine (R279). -/
def engineRestart (m : Dev × Hbm) (tag gen step : Nat) : Dev × Hbm :=
  match (upto 16).find? (fun j => !(m.1.plan j).isEmpty && planTag (m.1.plan j) == tag && (m.1.engJob j).state == .active) with
  | none => m
  | some j =>
    let x := m.1.engJob j
    if x.es = step && x.held.isNone then
      ((m.1.modEngJob j (fun y =>
        { y with covered := [], poisoned := [], sums := [], partial_ := none, gen := gen })).stepMarks j, m.2)
    else m

/-- The leader sends a CLIP and keeps it among its last 16 of the TAG (R277). -/
def Dev.sendClip (d : Dev) (c : Clip) : Dev :=
  let mine := (d.coll.retained.filter (fun x => x.tag == c.tag)) ++ [c]
  let rest := d.coll.retained.filter (fun x => x.tag != c.tag)
  let d := { d with coll := { d.coll with
      retained := rest ++ mine.drop (mine.length - 16)
      norms := d.coll.norms.filter (fun n => !(n.tag == c.tag && n.step == c.step)) } }
  (d.sendDown 0x31 1 (clipBytes c)).engineClip c

/-- The leader sends NORM_RESTART for a step, or the CLIP that ends its 64 restarts (R277, R278). -/
def leaderRestart (m : Dev × Hbm) (tag step gen : Nat) : Dev × Hbm :=
  let d := m.1
  let n := (d.coll.norms.find? (fun n => n.tag == tag && n.step == step)).getD { tag := tag, step := step, gen := gen, first := d.now }
  if 64 ≤ n.restarts then
    ((d.sendClip { tag := tag, gen := gen, step := step, result := 4, clip := 0x3F800000, norm := 0 }).raise 0x0701 1 1
      ((d.jobOfTag tag).getD 0xFFFF), m.2)
  else
    let g := (gen + 1) % 256
    let n' : Norm := { tag := tag, step := step, gen := g, first := 0, restarts := n.restarts + 1 }
    let d := { d with coll := { d.coll with
        norms := d.coll.norms.filter (fun (x : Norm) => !(x.tag == tag && x.step == step)) ++ [n'] } }
    engineRestart (d.sendDown 0x32 1 (restartBytes tag g step), m.2) tag g step

/-- The job whose almanac carries a TAG here, whether or not this Director is its member: the leader decides for it (R277). -/
def Dev.tagJob (d : Dev) (tag : Nat) : Option Nat :=
  (upto 16).find? (fun j => decide (0 < (d.almanac j).length) && almTag (d.almanac j) == tag)

/-- Whether this module decides the norm of a job: alone, or as the acting leader (R191, R277). -/
def Dev.decidesNorm (d : Dev) (j : Nat) : Bool := almMembers (d.almanac j) == d.ownBit || d.isRootNow

/-- The CLIP of a complete set of partials (R277). -/
def clipOf (maxNorm : Nat) (n : Norm) : Clip :=
  let ps := (n.parts.foldl (fun (t : List (Nat × Nat × Nat)) p => tset t p.1 p.2) [])
  let s := ps.foldl (fun acc p => f64.add acc p.2.1) 0
  let base : Clip := { tag := n.tag, gen := n.gen, step := n.step, result := 0, clip := 0x3F800000, norm := 0 }
  if ps.any (fun p => p.2.2 % 2 = 1) then { base with result := 2 }
  else if (f64.decode s).nonFinite then { base with result := 1 }
  else
    let norm := f64.sqrt s
    let mx := f32.to f64 maxNorm
    let clip := if (Fl.fin false 0 0).lt (f64.decode mx) && (f64.decode mx).lt (f64.decode norm) then
        f64.to f32 (f64.div mx norm) else 0x3F800000
    { base with norm := norm, clip := clip }

/-- A partial reaches the leader (R277): retained decisions are sent again, generations that differ restart the step, the
last one decides. A leader that holds no almanac of the TAG knows neither its shards nor its MAX_NORM: whether the set is complete
then, and MAX_NORM, are free values (log 102). -/
def normPartial (m : Dev × Hbm) (tag gen shard flags step sum : Nat) : Dev × Hbm :=
  let d := m.1
  let job := d.tagJob tag
  match d.coll.retained.find? (fun c => c.tag == tag && c.step == step && c.gen == gen) with
  | some c => ((d.sendDown 0x31 1 (clipBytes c)).engineClip c, m.2)
  | none =>
    if (match job with | some j => !(d.shards j).contains shard | none => false) ||
        d.coll.retained.any (fun c => c.tag == tag && c.step == step) then m
    else
      let n := (d.coll.norms.find? (fun n => n.tag == tag && n.step == step)).getD
        { tag := tag, step := step, gen := gen, first := d.now }
      if n.void && n.parts.isEmpty then leaderRestart m tag step gen
      else if n.gen != gen then
        if n.restarts = 0 then leaderRestart m tag step (if laterGen gen n.gen then gen else n.gen) else m
      else
        let n := { n with first := if n.parts.isEmpty then d.now else n.first
                          parts := if n.parts.any (fun p => p.1 == shard) then n.parts else n.parts ++ [(shard, sum, flags)] }
        let free := fun (k : Nat) => Config.openNat (d.fresh + k)
        let complete := match job with
          | some j => (d.shards j).all (fun s => n.parts.any (fun p => p.1 == s))
          | none => free 0 % 2 = 1
        let maxNorm := match job with | some j => planReal (d.plan j) 0 | none => free 1 % 2 ^ 32
        let d := if job.isNone then d.drawn 2 else d
        let d := { d with coll := { d.coll with
            norms := d.coll.norms.filter (fun (x : Norm) => !(x.tag == tag && x.step == step)) ++ [n] } }
        if complete then (d.sendClip (clipOf maxNorm n), m.2) else (d, m.2)

/-- The partial of a job goes to the leader, or is collected here (R275). -/
def sendPartial (m : Dev × Hbm) (j : Nat) : Dev × Hbm :=
  let d := m.1
  let x := d.engJob j
  match x.partial_, d.shardOf j with
  | some (sum, flags), some shard =>
    let tag := planTag (d.plan j)
    if d.decidesNorm j then normPartial m tag x.gen shard flags x.es sum
    else (d.sendUp 0x30 1 (partialBytes tag x.gen shard flags x.es sum), m.2)
  | _, _ => m

/-- A step is voided before its CLIP was sent: the leader restarts its norm (R277). Where it knows no generation of the step, it is no
member and has had no partial, it does so at the first one. -/
def leaderVoid (m : Dev × Hbm) (tag step : Nat) : Dev × Hbm :=
  let d := m.1
  let norm := d.coll.norms.find? (fun n => n.tag == tag && n.step == step)
  let own := if (d.jobOfTag tag).isSome then d.tagJob tag else none
  if (match d.tagJob tag with | some j => (d.shards j).isEmpty | none => false) ||
      d.coll.retained.any (fun c => c.tag == tag && c.step == step) then m
  else match norm, own with
    | some n, _ => leaderRestart m tag step n.gen
    | none, some j => leaderRestart m tag step (d.engJob j).gen
    | none, none =>
      ({ d with coll := { d.coll with norms := d.coll.norms ++ [{ tag := tag, step := step, gen := 0, first := d.now, void := true }] } }, m.2)

/-! ### Activations (R284 to R286) -/

/-- Extents of a job that meet a condition are freed, with their blocks. -/
def freeExtents (m : Dev × Hbm) (j : Nat) (sel : Extent → Bool) : Dev × Hbm :=
  let gone := (m.1.engJob j).extents.filter sel
  let d := m.1.modEngJob j (fun x => { x with extents := x.extents.filter (fun e => !sel e) })
  gone.foldl (fun m e => dropPages m (pagesIn e.addr e.len)) (d, m.2)

/-- Data of a delivery in frames of at most 8,192 bytes: (offset, data, poison) each; `k` bounds their number. -/
def readFrames (m : Dev × Hbm) (base step len : Nat) : Nat → Nat → (Dev × Hbm) × List (Nat × Bytes × Bool)
  | 0, _ => (m, [])
  | k + 1, off =>
    if len ≤ off then (m, [])
    else
      let n := min step (len - off)
      let r := readWords m (base + off) (n / 64)
      let t := readFrames r.1 base step len k (off + n)
      (t.1, (off, r.2.1, r.2.2) :: t.2)

/-- A poisoned read of a delivery is a class 1 fault of the job (R290). -/
def Dev.deliveryPoison (d : Dev) (j : Nat) (poison : Bool) : Dev := if poison then d.raise 0x0703 1 1 j else d

/-- The first 8 MiB of the extents that carry the token of STEP_NOW are read into staging (R285): of each extent, in push order, what
the room that is left holds. -/
def stageExtents (m : Dev × Hbm) : Nat → List Extent → (Dev × Hbm) × List (Nat × List (Nat × Bytes × Bool))
  | _, [] => (m, [])
  | room, e :: t =>
    let n := min e.len room
    let r := readFrames m e.addr 8192 n (n / 64 + 1) 0
    let s := stageExtents r.1 (room - n) t
    (s.1, (e.addr, r.2) :: s.2)

/-- The staging that a launch window has begun is read (R285). -/
def stageGroup (m : Dev × Hbm) (j : Nat) : Dev × Hbm :=
  let x := m.1.engJob j
  match x.staged with
  | some s =>
    if s.due then
      let r := stageExtents m (8 * 2 ^ 20) (x.extents.filter (fun e => e.group == s.group && e.token == s.token))
      (r.1.1.modEngJob j (fun y => { y with staged := some { s with due := false, frames := r.2 } }), r.1.2)
    else m
  | none => m

/-- What staging holds of an extent. -/
def Coll.stagedOf (x : Coll) (e : Extent) : List (Nat × Bytes × Bool) :=
  match x.staged with
  | some s => if s.group = e.group && s.token = e.token then tget [] s.frames e.addr else []
  | none => []

/-- ACT_DELIVER of one extent on the port that reaches its chip: what staging holds of it, then the rest; it waits while no port does
(R267, R285). -/
def deliverExtent (m : Dev × Hbm) (j : Nat) (e : Extent) (last : Bool) : Dev × Hbm :=
  let held := (m.1.engJob j).stagedOf e
  let r := readFrames m e.addr 8192 e.len (e.len / 64 + 1) (sumN (held.map (·.2.1.length)))
  let tag := planTag (m.1.plan j)
  let d := (held ++ r.2).foldl (fun d x =>
    let fin := last && decide (e.len ≤ x.1 + x.2.1.length)
    let f : SFrameOut :=
      { type := 0x55, format := 0, flags := b2n x.2.2 + 2 * b2n fin, gen := 0, tag := tag, token := e.token, scale := 0
        addr := d.chip * 2 ^ 48 + e.addr + x.1, group := e.group, data := x.2.1, chip := some e.chip }
    let d := d.deliveryPoison j x.2.2
    match d.portOfChip j e.chip with
    | none => { d with coll := { d.coll with adrift := d.coll.adrift ++ [(e.chip, f)] } }
    | some n => d.queueSvc n f) r.1.1
  (d, r.1.2)

/-- The extents of a prefetch group that were staged or carry the token of STEP_NOW leave in push order; the last frame to each endpoint
carries END (R285). -/
def deliverGroup (m : Dev × Hbm) (j g : Nat) : Dev × Hbm :=
  let x := m.1.engJob j
  let now := x.extents.filter (fun e => e.group == g && (e.token == x.stepNow % 2 ^ 32 || x.staged.map (fun s => (s.group, s.token)) == some (g, e.token)))
  let m := now.zipIdx.foldl (fun m (p : Extent × Nat) =>
    deliverExtent m j p.1 ((now.drop (p.2 + 1)).all (fun e => e.chip != p.1.chip))) m
  let d := m.1.modEngJob j (fun y =>
    { y with staged := none, extents := y.extents.map (fun e => if now.contains e then { e with delivered := true } else e) })
  (d, m.2)

/-- VOID of a step in the engine (R286). -/
def engineVoid (m : Dev × Hbm) (j step : Nat) : Dev × Hbm :=
  let t := step % 2 ^ 32
  let theirs := fun (f : SFrameOut) => f.type == 0x55 && f.token == t && f.tag == planTag (m.1.plan j)
  let d := { m.1 with coll := { m.1.coll with
      queues := m.1.coll.queues.map (fun (e : Nat × List SFrameOut) => (e.1, e.2.filter (fun f => !theirs f)))
      adrift := m.1.coll.adrift.filter (fun e => !theirs e.2) } }
  let m := freeExtents (d, m.2) j (fun e => e.token == t)
  let d := m.1.modEngJob j (fun x => { x with staged := x.staged.filter (fun s => s.token != t) })
  if (d.engJob j).state == .active then
    (d.modEngJob j (fun x => { x with
      voided := if x.es ≤ step then x.voided ++ [step] else x.voided, owed := x.owed ++ (d.svcPorts j).map (fun n => (n, t)) }), m.2)
  else (d, m.2)

/-- A committed STEP_START Zenith: STEP_NOW advances and STEP_MARK leaves (R272). -/
def stepStart (m : Dev × Hbm) (j : Nat) : Dev × Hbm :=
  ((m.1.modEngJob j (fun x => { x with stepNow := x.stepNow + 1 })).stepMarks j, m.2)

/-! ### Models (R287, R288) -/

/-- STORE_BYTES counts the VALID slots. -/
def Dev.storeBytes (d : Dev) : Nat := sumN ((d.coll.models.filter (fun e => e.2.state == .valid)).map (·.2.len))

/-- A model slot is complete: VALID when CHECK matches (R287). -/
def modelDone (m : Dev × Hbm) (s : Nat) : Dev × Hbm :=
  let x := m.1.model s
  if x.written.length * 64 < x.len then m
  else
    let r := readWords m x.base (x.len / 64)
    let ok := !r.2.2 && crc32 r.2.1 == x.check
    let m := (r.1.1.modModel s (fun y => { y with state := if ok then .valid else .bad, asked := [], written := [] }), r.1.2)
    let m := (m.1.release 3 (32 + s), m.2)
    if ok then mirrorModel m s else m

/-- Model bytes arrive for a slot at an offset; poison makes it BAD. -/
def modelWrite (m : Dev × Hbm) (s off : Nat) (data : Bytes) (poison : Bool) : Dev × Hbm :=
  let m := writeBytes m ((m.1.model s).base + off) data poison
  if poison then ((m.1.modModel s (fun y => { y with state := .bad, asked := [], written := [] })).release 3 (32 + s), m.2)
  else
    let d := m.1.modModel s (fun y =>
      { y with written := (upto (data.length / 64)).foldl (fun w i => sinsert w (off / 64 + i)) y.written })
    modelDone (d, m.2) s

/-- WEIGHT_DELIVER of a model at a Zenith: granule i on the (i mod P)-th port with a circuit (R288). TOKEN is STEP_NOW as the entry
leaves it: what a revert voids (R205; DEDUCED, log 103). -/
def deliverModel (m : Dev × Hbm) (j s : Nat) : Dev × Hbm :=
  let x := m.1.model s
  let ports := (m.1.svcPorts j).filter (fun n => m.1.circuits.any (fun c => c.inForce && c.south == 480 + n))
  if x.state != .valid then (m.1.raise 0x0703 1 1 j, m.2)
  else if ports.isEmpty then m
  else
    let r := readFrames m x.base 4096 x.len (x.len / 4096 + 1) 0
    let d := r.2.foldl (fun d p =>
      let i := p.1 / 4096
      let fin := decide (x.len ≤ p.1 + 4096 * ports.length)
      (d.deliveryPoison j p.2.2).queueSvc (ports.getD (i % ports.length) 0)
        { type := 0x56, format := 0, flags := b2n p.2.2 + 2 * b2n fin, gen := 0, tag := d.jobTag j
          token := (d.engJob j).stepNow % 2 ^ 32, scale := 0, addr := p.1, group := s, data := p.2.1 }) r.1.1
    let d := if r.2.any (fun p => p.2.2) then d.modModel s (fun y => { y with state := .bad }) else d
    (d, r.1.2)

/-- Whether a chip number is a Director's (R10). -/
def isDirector (chip : Nat) : Bool := decide (0xF000 ≤ chip) && decide (chip ≤ 0xF03F)

/-- The peer port on the way to a position: along x, then y, then z, the shorter way round, + when both are equal (R276). -/
def Dev.routePort (d : Dev) (dest : Nat) : Option Nat :=
  let a := d.pos
  let b := dest % 64
  let hop := fun (k u v : Nat) => let x := (v + 4 - u) % 4; if x = 0 then none else if x ≤ 2 then some (2 * k) else some (2 * k + 1)
  match hop 0 (a % 4) (b % 4) with
  | some i => some i
  | none => match hop 1 (a / 4 % 4) (b / 4 % 4) with
    | some i => some i
    | none => hop 2 (a / 16 % 4) (b / 16 % 4)

/-- A routed message is sent or forwarded; to a Director only, so that a reserved number is no destination (R10). -/
def Dev.sendRouted (d : Dev) (type cls source dest : Nat) (payload : Bytes) : Dev :=
  match if isDirector dest then d.routePort dest else none with
  | some i => if d.peerOpen i then d.sendFrame (32 + i) type cls dest payload (some source) else d
  | none => d

/-- FETCH_REQs of a slot leave while at most 64 are outstanding (R287). -/
def Dev.fetchMore (d : Dev) (s : Nat) : Nat → Dev
  | 0 => d
  | k + 1 =>
    let x := d.model s
    if x.state != .fetching || x.len ≤ x.next || 64 ≤ x.asked.length then d
    else
      let n := min 8192 (x.len - x.next)
      let d := d.modModel s (fun y => { y with asked := y.asked ++ [(y.next, n)], next := y.next + n })
      (d.sendRouted 0x33 1 d.chip x.source (le 1 x.sourceSlot ++ zeros 3 ++ le 4 n ++ le 8 x.next ++ le 1 s ++ zeros 7)).fetchMore s k

/-! ### Jobs and the engine (R271, R272, R289) -/

/-- START: STEP_NOW counts from STEP_BASE, ES is one more, and a READY job is ACTIVE (R271, R272). -/
def engineStart (m : Dev × Hbm) (j : Nat) : Dev × Hbm :=
  let b := m.1.nat (0x2910 + j) 6
  let d := m.1.modEngJob j (fun x => { x with stepNow := b, es := b + 1 })
  if (d.engJob j).state == .ready then
    (d.modEngJob j (fun x =>
      { x with state := .active, covered := [], poisoned := [], sums := [], partial_ := none, held := none
               voided := [], owed := [], stopping := false, skipRun := 0, sent := [] }), m.2)
  else (d, m.2)

/-- The job restarts: an update whose CLIP is held is completed first, then ES = RESUME_STEP, extents and staging go, every working copy
leaves after its STEP_MARK (R289). -/
def engineResume (m : Dev × Hbm) (j resume : Nat) : Dev × Hbm :=
  let m := match (m.1.engJob j).held with
    | some c => if m.1.engineUp then updateStep m j c else m
    | none => m
  let x := m.1.engJob j
  if x.state != .active && x.state != .ready then m
  else
    let m := freeExtents m j (fun _ => true)
    let d := m.1.modEngJob j (fun y =>
      { y with state := .active, es := resume, stepNow := resume - 1, staged := none, covered := [], poisoned := [], sums := []
               partial_ := none, held := none, voided := [], owed := [], stopping := false, skipRun := 0, sent := [] })
    let d := { d with coll := { d.coll with
        queues := d.coll.queues.filter (fun e => !(d.svcPorts j).contains e.1)
        adrift := d.coll.adrift.filter (fun e => e.2.tag != planTag (d.plan j)) } }
    workOut (d.stepMarks j, m.2) j

/-- The jobs of a lost or taken collective role are PLANNED with their masters undefined (R361). -/
def Dev.enginePlanned (d : Dev) (j : Nat) : Dev :=
  if (d.plan j).isEmpty then d
  else d.modEngJob j (fun x =>
    { x with state := .planned, covered := [], poisoned := [], sums := [], partial_ := none, held := none, loaded := []
             extents := [], staged := none, voided := [], owed := [], stopping := false, sent := [] })

end Sys2Proof.Machine
end

