-- ==== Sys2Proof/Machine/CollectiveFamily.lean ====
section
/-!
DEFINITION. The commands of chapter 10 that carry no SDO request: service frames from endpoints, partials, clips and
restarts, the end of an update, and the fetch of models between Directors.
-/

namespace Sys2Proof.Machine
open Sys2Proof

/-- A service frame arrives (R262 to R266): without the engine or a context it is not received; it is counted, and refused
with code 5 where its JOB_TAG is not that of the port's job. -/
def svcIn (m : Dev × Hbm) (n : Nat) (h : SvcHdr) (type : Nat) (act : Dev × Hbm → Nat → Dev × Hbm) : Dev × Hbm :=
  let d := m.1
  if !d.engineUp || (d.svcLink n).isNone then m
  else
    let d := d.bump (0x2920 + n) 1
    let d := if h.flags % 2 = 1 then d.bump 0x2900 7 else d
    match d.svcJob n with
    | none => (d.svcRefuse n 5 type h.token h.addr, m.2)
    | some j =>
      if (d.plan j).isEmpty || planTag (d.plan j) != h.tag then (d.svcRefuse n 5 type h.token h.addr, m.2)
      else act (d, m.2) j

/-- The first check of a list that fails refuses the frame with its code. -/
def svcChecked (m : Dev × Hbm) (n : Nat) (h : SvcHdr) (type : Nat) (checks : List (Bool × Nat)) (act : Dev × Hbm → Dev × Hbm) :
    Dev × Hbm :=
  match checks.find? Prod.fst with
  | some c => (m.1.svcRefuse n c.2 type h.token h.addr, m.2)
  | none => act m

/-- Whether a run of bytes breaks the granule rule of an array of `total` bytes (R266, R273). -/
def granuleBad (total start len : Nat) : Bool :=
  start % 4096 != 0 || len % 64 != 0 || len = 0 || 8192 < len || !(len % 4096 = 0 || start + len = total)

/-- Whether a run of elements leaves a port's segment. -/
def outsideSegment (b : Bytes) (n first last : Nat) : Bool :=
  let s := planSegment b n
  s.2 = 0 || first < s.1 || s.1 + s.2 < last

/-- GRAD_IN (R273, R274): one or two granules are stored, squared and summed. -/
def execGradIn (n : Fin 32) (h : SvcHdr) (data : Bytes) (s : State) : Host.Outcome State Fault Refusal :=
  .next (s.onMem fun d m => svcIn (d, m) n h 0x50 fun m j =>
    let b := m.1.plan j
    let x := m.1.engJob j
    let start := h.addr * gradSize b
    let last := min (planN b) (h.addr + data.length / gradSize b)
    svcChecked m n h 0x50
      [(x.state != .active, 7), (h.format != planGrad b || h.scale != 0, 4), (h.token != x.es % 2 ^ 32 || h.gen != x.gen, 3),
       (granuleBad (gradBytes b) start data.length, 2),
       (decide (gradBytes b < start + data.length) || outsideSegment b n h.addr last, 1)]
      (fun m => takeGranules m j (h.flags % 2 = 1) (start / 4096) (chunks 4096 data.length data)))

/-- The elements of a master granule reach the master regions: whole in FP32 mode, as halves in SPLIT mode (R281). -/
def writeMasters (m : Dev × Hbm) (b : Bytes) (first : Nat) (data : Bytes) (poison : Bool) : Dev × Hbm :=
  if planSplit b then
    let es := elems 4 (data.length / 4) data
    let hi := es.flatMap (fun v => le 2 (v / 65536))
    let lo := es.flatMap (fun v => le 2 (v % 65536))
    let n := ceilTo 64 hi.length
    writeBytes (writeBytes m ((planRegion b 2).1 + 2 * first) (padTo n hi) poison) ((planRegion b 3).1 + 2 * first) (padTo n lo) poison
  else writeBytes m ((planRegion b 1).1 + 4 * first) data poison

/-- MASTER_IN (R271): granules of the master are written in LOADING. -/
def execMasterIn (n : Fin 32) (h : SvcHdr) (data : Bytes) (s : State) : Host.Outcome State Fault Refusal :=
  .next (s.onMem fun d m => svcIn (d, m) n h 0x51 fun m j =>
    let b := m.1.plan j
    let total := ceilTo 64 (4 * planN b)
    let start := h.addr * 4
    svcChecked m n h 0x51
      [((m.1.engJob j).state != .loading, 7), (h.format != 3 || h.scale != 0, 4), (h.token != 0 || h.gen != 0, 3),
       (granuleBad total start data.length, 2), (decide (total < start + data.length), 1)]
      (fun m =>
        let m := writeMasters m b h.addr data (h.flags % 2 = 1)
        (m.1.modEngJob j (fun x =>
          { x with loaded := (upto ((data.length + 4095) / 4096)).foldl (fun l k => sinsert l (start / 4096 + k)) x.loaded }), m.2)))

/-- ACT_PUSH (R284): an extent of the activation region is written and recorded. -/
def execActPush (n : Fin 32) (h : SvcHdr) (data : Bytes) (s : State) : Host.Outcome State Fault Refusal :=
  .next (s.onMem fun d m => svcIn (d, m) n h 0x52 fun m j =>
    let act := planRegion (m.1.plan j) 7
    let off := h.addr % 2 ^ 48
    let x := m.1.engJob j
    svcChecked m n h 0x52
      [(x.state != .active, 7), (h.format != 0 || h.scale != 0, 4), (h.token != x.stepNow % 2 ^ 32, 3),
       (data.length % 64 != 0 || off % 64 != 0 || data.isEmpty || 8192 < data.length, 2),
       (h.addr / 2 ^ 48 != m.1.chip || off < act.1 || decide (act.1 + act.2 < off + data.length) || decide (3839 < h.group), 1)]
      (fun m =>
        let m := freeExtents m j (fun e => e.group == h.group && e.token != h.token)
        -- what staging holds of a replaced extent goes with it
        let kept := fun (s : Staging) => { s with frames := s.frames.filter (fun f => !(s.group == h.group && f.1 == off)) }
        let m := (m.1.modEngJob j (fun y =>
          { y with staged := (y.staged.filter (fun s => !(s.group == h.group && s.token != h.token))).map kept }), m.2)
        let same := fun (e : Extent) => e.addr == off && e.len == data.length && e.group == h.group
        let held := (m.1.engJob j).extents.filter (fun e => !same e)
        if held.any (fun e => overlaps (e.addr, e.len) (off, data.length)) then
          (m.1.svcRefuse n 6 0x52 h.token h.addr, m.2)
        else
          let m := writeBytes m off data (h.flags % 2 = 1)
          let chip := match m.1.svcLink n with | some l => (m.1.link l).partnerChip | none => 0xFFFF
          let e : Extent := { addr := off, len := data.length, group := h.group, token := h.token, chip := chip }
          (m.1.modEngJob j (fun x => { x with extents := held ++ [e] }), m.2)))

/-- WEIGHT_IN (R287): bytes of a model fill a FILLING slot. -/
def execWeightIn (n : Fin 32) (h : SvcHdr) (data : Bytes) (s : State) : Host.Outcome State Fault Refusal :=
  .next (s.onMem fun d m => svcIn (d, m) n h 0x53 fun m _ =>
    let x := m.1.model h.group
    svcChecked m n h 0x53
      [(decide (63 < h.group), 1), (x.state != .filling, 7), (h.format != 0 || h.scale != 0, 4), (h.token != 0 || h.gen != 0, 3),
       (data.length % 64 != 0 || h.addr % 64 != 0 || data.isEmpty || 8192 < data.length, 2), (decide (x.len < h.addr + data.length), 1)]
      (fun m => modelWrite m h.group h.addr data (h.flags % 2 = 1)))

/-- PARTIAL_FORMED (R275): the granule sums in ascending order, times GRAD_SCALE², go to the leader. -/
def execPartialFormed (j : Fin 16) (s : State) : Host.Outcome State Fault Refusal :=
  .next (s.onMem fun d m =>
    let b := d.plan j
    let x := d.engJob j
    if !d.engineUp || x.state != .active || x.partial_.isSome || x.covered.length < gradGranules b then (d, m)
    else
      let sum := x.sums.foldl (fun acc e => f64.add acc e.2) 0
      let g := f32.to f64 (planReal b 1)
      let total := f64.mul sum (f64.mul g g)
      let flags := b2n (!x.poisoned.isEmpty) + 2 * b2n (f64.decode total).nonFinite
      sendPartial (d.modEngJob j (fun y => { y with partial_ := some (total, flags) }), m) j)

/-- PARTIAL_REPEAT (R275): the partial goes again until its CLIP or NORM_RESTART. -/
def execPartialRepeat (j : Fin 16) (s : State) : Host.Outcome State Fault Refusal :=
  .next (s.onMem fun d m => if d.engineUp && (d.engJob j).held.isNone then sendPartial (d, m) j else (d, m))

/-- NORM_PARTIAL from a peer port (R276, R277): collected by who decides, forwarded up the tree by any other. -/
def execNormPartial (port : Fin 6) (tag gen shard flags step sum : Nat) (s : State) : Host.Outcome State Fault Refusal :=
  .next (s.onMem fun d m =>
    if !d.peerOpen port then (d, m)
    else if d.leader == some d.chip then normPartial (d, m) tag gen shard flags step sum
    else (d.sendUp 0x30 1 (partialBytes tag gen shard flags step sum), m))

/-- NORM_TIMEOUT (R277): a partial is missing NORM_TIMEOUT after the first one. -/
def execNormTimeout (tag step gen : Nat) (s : State) : Host.Outcome State Fault Refusal :=
  .next (s.onDev fun d =>
    match d.coll.norms.find? (fun n => n.tag == tag && n.step == step && n.gen == gen) with
    | none => d
    | some n =>
      if n.parts.isEmpty then d
      else
        let d := d.reach (n.first + d.nat 0x2900 2 * Config.ms)
        (d.sendClip { tag := tag, gen := gen, step := step, result := 3, clip := 0x3F800000, norm := 0 }).raise 0x0701 1 1
          ((d.jobOfTag tag).getD 0xFFFF))

/-- CLIP from a peer port (R276, R280): forwarded down the tree, and taken by the engine that expects it. -/
def execClipMsg (port : Fin 6) (m : Clip) (s : State) : Host.Outcome State Fault Refusal :=
  .next (s.onDev fun d =>
    if !d.peerOpen port then d
    else if 4 < m.result then d.linkViolation (32 + port)
    else (d.sendDown 0x31 1 (clipBytes m) (some port.val)).engineClip m)

/-- NORM_RESTART from a peer port (R279). -/
def execNormRestart (port : Fin 6) (tag gen step : Nat) (s : State) : Host.Outcome State Fault Refusal :=
  .next (s.onMem fun d m =>
    if !d.peerOpen port then (d, m)
    else engineRestart (d.sendDown 0x32 1 (restartBytes tag gen step) (some port.val), m) tag gen step)

/-- UPDATE_COMPLETE (R280): the update of the step whose CLIP is held ends. -/
def execUpdateComplete (j : Fin 16) (s : State) : Host.Outcome State Fault Refusal :=
  .next (s.onMem fun d m =>
    match (d.engJob j).held with
    | some c => if d.engineUp then updateStep (d, m) j c else (d, m)
    | none => (d, m))

/-- Whether this module serves and issues fetches: the engine, or the HBM controllers of an LD-512S (R287). -/
def Dev.fetchUp (d : Dev) : Bool := if d.isC then d.engineUp else d.isOn 12 && d.halfReady

/-- FETCH_REQ (R276, R287): routed on, or answered from a VALID slot. -/
def execFetchReq (iface : Fin 6) (source dest slot len offset destSlot : Nat) (s : State) : Host.Outcome State Fault Refusal :=
  .next (s.onMem fun d m =>
    let payload := le 1 slot ++ zeros 3 ++ le 4 len ++ le 8 offset ++ le 1 destSlot ++ zeros 7
    if !d.peerOpen iface then (d, m)
    else if dest != d.chip then (d.sendRouted 0x33 1 source dest payload, m)
    else
      let x := d.model slot
      if !d.fetchUp || x.state != .valid || 8192 < len || len % 64 != 0 || offset % 64 != 0 || len = 0 || x.len < offset + len then (d, m)
      else
        let r := readWords (d, m) (x.base + offset) (len / 64)
        let flags := b2n r.2.2 + 2 * b2n (decide (x.len ≤ offset + len))
        let e := r.1.1.sendRouted 0x34 2 d.chip source (le 1 destSlot ++ le 1 flags ++ zeros 6 ++ le 8 offset ++ r.2.1)
        (if r.2.2 then (e.bump 0x2900 8).modModel slot (fun y => { y with state := .bad }) else e, r.1.2))

/-- FETCH_DATA (R276, R287): routed on, or written into the FETCHING slot that asked for it. -/
def execFetchData (iface : Fin 6) (source dest slot flags offset : Nat) (data : Bytes) (s : State) :
    Host.Outcome State Fault Refusal :=
  .next (s.onMem fun d m =>
    if !d.peerOpen iface then (d, m)
    else if dest != d.chip then
      (d.sendRouted 0x34 2 source dest (le 1 slot ++ le 1 flags ++ zeros 6 ++ le 8 offset ++ data), m)
    else
      let x := d.model slot
      -- FETCH_DATA of no whole code words is a violation (R297)
      if data.length % 64 != 0 then (d.linkViolation (32 + iface), m)
      else if !d.fetchUp || x.state != .fetching || x.source != source || !x.asked.contains (offset, data.length) then (d, m)
      else
        let d := if flags % 2 = 1 then d.bump 0x2900 7 else d
        let d := d.modModel slot (fun y => { y with asked := y.asked.filter (· != (offset, data.length)) })
        let r := modelWrite (d, m) slot offset data (flags % 2 = 1)
        (r.1.fetchMore slot 64, r.2))

end Sys2Proof.Machine
end

