-- ==== Sys2Proof/Machine/MemoryFamily.lean ====
section
/-!
DEFINITION. The commands of chapter 11 that carry no SDO request: scrub reads, zero fill, laps, the reload of a remap
table and the poll of the device's error counts.
-/

namespace Sys2Proof.Machine
open Sys2Proof

/-! ### The self-test of the checkers (R306, Table 11.5) -/

/-- What a checker makes of a word. -/
inductive Verdict where | clean | corrected | uncorrectable | poison | crcFailure
  deriving DecidableEq, Repr

/-- A pattern of Table 11.5: the symbols (HBM) or bits (SRAM, flash) in error, whether it carries the poison code, whether a data bit is
flipped behind the correction, and the result that the table requires. -/
structure Pattern where
  errors : List Nat
  poison : Bool
  flipped : Bool
  required : Verdict
  deriving DecidableEq, Repr

/-- The decoder of an HBM code word (R295). -/
def hbmVerdict (p : Pattern) : Verdict :=
  if p.poison then .poison else if p.errors.isEmpty then .clean else if p.errors.length ≤ 2 then .corrected else .uncorrectable

/-- The SECDED decoder (R296). -/
def secdedVerdict (p : Pattern) : Verdict :=
  if p.poison then .poison else if p.errors.isEmpty then .clean else if p.errors.length = 1 then .corrected else .uncorrectable

/-- The flash decoder with its page CRC (R312). -/
def flashVerdict (p : Pattern) : Verdict :=
  if 40 < p.errors.length then .uncorrectable else if p.flipped then .crcFailure else if p.errors.isEmpty then .clean else .corrected

/-- A word through the poison path: it arrives as it left. -/
def pathVerdict (p : Pattern) : Verdict := if p.poison then .poison else .clean

/-- The decoder behind a bit of MEM_SELFTEST. -/
def verdictOf (k : Nat) (p : Pattern) : Verdict :=
  if k < 8 then hbmVerdict p else if k = 17 then flashVerdict p else if k = 18 then pathVerdict p else secdedVerdict p

/-- A pattern with errors in some places. -/
def errorsIn (l : List Nat) (v : Verdict) : Pattern := { errors := l, poison := false, flipped := false, required := v }

/-- The poison code. -/
def poisonCode : Pattern := { errors := [], poison := true, flipped := false, required := .poison }

/-- The patterns of the HBM decoder; the table does not name the symbols of its errors of 3 to 6 symbols. -/
def hbmPatterns : List Pattern :=
  errorsIn [] .clean :: (upto 72).map (fun i => errorsIn [i] .corrected) ++
    [errorsIn [0, 71] .corrected, errorsIn [35, 36] .corrected, errorsIn [63, 64] .corrected] ++
    [3, 4, 5, 6].flatMap (fun n => [errorsIn (upto n) .uncorrectable, errorsIn ((upto n).map (36 + ·)) .uncorrectable]) ++ [poisonCode]

/-- The patterns of a SECDED decoder. -/
def secdedPatterns : List Pattern :=
  errorsIn [] .clean :: (upto 72).map (fun i => errorsIn [i] .corrected) ++
    (upto 36).map (fun i => errorsIn [i, 71 - i] .uncorrectable) ++ [poisonCode]

/-- The patterns of the flash decoder. -/
def flashPatterns : List Pattern :=
  [errorsIn (upto 40) .corrected, errorsIn (upto 44) .uncorrectable, { errors := [], poison := false, flipped := true, required := .crcFailure }]

/-- The patterns of the poison path: through each of the 19 crossings of Table 1.9, and back from each of the 8 HBM controllers. -/
def pathPatterns : List Pattern := List.replicate 27 poisonCode

/-- The patterns behind a bit of MEM_SELFTEST. -/
def patternsOf (k : Nat) : List Pattern :=
  if k < 8 then hbmPatterns else if k = 17 then flashPatterns else if k = 18 then pathPatterns else secdedPatterns

/-- A checker passes only when every pattern gives its stated result: what the decoder makes of it, where the checker is sound, and no
stated result where `bad` names the pattern (R306). -/
def checkerPasses (bad : List (Nat × Nat)) (k : Nat) : Bool :=
  (patternsOf k).zipIdx.all (fun e => !bad.contains (k, e.2) && verdictOf k e.1 == e.1.required)

/-! ### Arrays and the scrubber -/

/-- The code words of an SRAM array (Table 11.2). -/
def sramWords (a : Nat) : Nat :=
  if a = 8 then 4194304 else if a = 9 then 2097152 else if a ≤ 13 then 262144 else if a = 14 then 16777216
  else if a ≤ 22 then 196608 else 2048

/-- Whether an array can be read: its domain is on, its stack READY and its table not in reload, its checker good. -/
def Dev.arrayUp (d : Dev) (a : Nat) : Bool :=
  let stack := if a < 8 then some a else if 15 ≤ a && a ≤ 22 then some (a - 15) else if 23 ≤ a then some (a - 23) else none
  match stack with
  | some s => tget .off d.mem.stackOf s == .ready && !d.mem.reloading.contains s
  | none =>
    !d.mem.failed.contains a &&
      d.isOn (if a ≤ 9 then 1 else if a ≤ 13 then a - 6 else 11)

/-- The scrubber's next word of a stack at or after a word: in a valid page that no spare replaces (R303). -/
def scrubWord (d : Dev) (h : Hbm) (s w : Nat) : Option Nat :=
  let pages := (d.validPages h s).filter (fun p => (tfind h.remap (pageKey s p)).isNone)
  if pages.contains (w / 64) then some w else (pages.find? (fun p => w / 64 < p)).map (· * 64)

/-- A lap ends: its duration and its end are recorded, and the next one starts (R304). -/
def Dev.lapEnd (d : Dev) (a : Nat) : Dev :=
  let t := (d.now - tget 0 d.mem.lapStart a) / Config.ms
  let d := if a < 8 then (d.setNum (0x2810 + a) 8 (t : Nat)).setNum (0x2810 + a) 9 (d.now : Nat)
    else if a ≤ 14 then (d.setNum (0x2830 + (a - 8)) 3 (t : Nat)).setNum (0x2830 + (a - 8)) 4 (d.now : Nat)
    else d
  { d with mem := { d.mem with
      lapStart := tset d.mem.lapStart a d.now, lapLogged := d.mem.lapLogged.filter (· != a), scrubAt := tset d.mem.scrubAt a 0 } }

/-- The scrubber's read of one HBM code word (R295, R298, R303): `symbols` is the error that its cells show beyond what is known of
them, and a word that was queued for a write meanwhile is not written back. -/
def scrubStack (m : Dev × Hbm) (s w symbols : Nat) (queued : Bool) : Dev × Hbm :=
  let h := m.2
  let d := { m.1 with mem := { m.1.mem with scrubAt := tset m.1.mem.scrubAt s (w + 1) } }
  let d := d.setNum (0x2810 + s) 0x0A (w / 64 : Nat)
  let ring := d.ringPlace h s w
  let stored := h.poison.contains (wordKey s w) || ring.any d.recr.bad.contains
  let n := max symbols (tget 0 h.flaws (wordKey s w))
  let kept := if queued then tdel h.flaws (wordKey s w) else h.flaws
  if stored && symbols = 0 then ((d.bump (0x2810 + s) 5).memEvent 3 0 s 1 0 (w * 64) 0xA5A5A5A5 0, h)
  else if n = 0 then (d, h)
  else if n ≤ 2 && !stored then
    ((d.bump (0x2810 + s) 3).corrected 1 s (w * 64) n, { h with flaws := tdel h.flaws (wordKey s w) })
  else
    let d := (d.bump (0x2810 + s) 4).uncorrectable 1 s (w * 64)
    if queued then (d, { h with flaws := kept })
    else match ring with
      | some o => (d.ringPoisoned [o], { h with flaws := tdel h.flaws (wordKey s w) })
      | none => (d, h.setWord s w [] true)

/-- The scrubber's read of one word of an SRAM array (R296, R303). -/
def scrubSram (m : Dev × Hbm) (a w symbols : Nat) (queued : Bool) : Dev × Hbm :=
  let key := sramKey a w
  let stored := m.1.mem.sramPoison.contains key
  let d := { m.1 with mem := { m.1.mem with scrubAt := tset m.1.mem.scrubAt a (w + 1) } }
  let n := max symbols (tget 0 d.mem.sramFlaws key)
  if n = 1 && !stored then (d.sramCorrected 1 a w, m.2)
  else if n = 0 && !stored then (d, m.2)
  else if 23 ≤ a then (d.remapLost 1 (a - 23) w, m.2)
  else if 15 ≤ a then mapLost (d, m.2) 1 (a - 15) w
  else if symbols = 0 && stored then ((d.memEvent 3 0 a 1 0 (w * 8) 0xFF 0).programPoison a, m.2)
  else
    let d := ((d.bump (0x2830 + (a - 8)) 2).uncorrectable 1 a (w * 8)).programPoison a
    let x := d.mem.sramClean key
    (if queued then { d with mem := x } else { d with mem := { x with sramPoison := sinsert x.sramPoison key } }, m.2)

/-- Whether the scrubber runs: enabled, its domain on (Table 1.5), and the die below THROTTLE (Table 14.5). -/
def Dev.scrubs (d : Dev) : Bool := d.flag 0x2801 1 && d.isOn 14 && decide (d.power.level.code < 2)

/-- SCRUB_READ (R303): the next valid code word of an array is read in an idle cycle. -/
def execScrubRead (a : Fin 31) (symbols : Nat) (queued : Bool) (s : State) : Host.Outcome State Fault Refusal :=
  .next (s.onMem fun d h =>
    if !d.scrubs || !d.arrayUp a || (a.val < 8 && 0 < d.fillDepth a) then (d, h)
    else
      let at_ := tget 0 d.mem.scrubAt a
      if a.val < 8 then
        match scrubWord d h a at_ with
        | some w => scrubStack (d, h) a w symbols queued
        | none =>
          let d := d.lapEnd a
          match scrubWord d h a 0 with
          | some w => scrubStack (d, h) a w symbols queued
          | none => (d, h)
      else
        let d := if sramWords a ≤ at_ then d.lapEnd a else d
        scrubSram (d, h) a (tget 0 d.mem.scrubAt a) symbols queued)

/-- ZERO_FILL (R300): the oldest queued block of a stack has its remaining words filled with zero. -/
def execZeroFill (sel : Fin 8) (s : State) : Host.Outcome State Fault Refusal :=
  .next (s.onDev fun d => { d with mem := { d.mem with fills := fillOldest sel d.mem.fills } })

/-- SCRUB_LAP_OVER_LIMIT (R304): the lap has exceeded SCRUB_LAP_LIMIT, which is logged once. -/
def execScrubLapOverLimit (a : Fin 31) (s : State) : Host.Outcome State Fault Refusal :=
  .next (s.onDev fun d =>
    if !d.flag 0x2801 1 || !d.arrayUp a || d.mem.lapLogged.contains a.val then d
    else
      let d := d.reach (tget 0 d.mem.lapStart a + d.nat 0x2801 3 * Config.sec)
      { d with mem := { d.mem with lapLogged := sinsert d.mem.lapLogged a } }.memEvent 8 1 a 1 0 0 0 0)

/-- REMAP_RELOAD_DONE (R302): the stack's table stands again and its requests resume. -/
def execRemapReloadDone (sel : Fin 8) (s : State) : Host.Outcome State Fault Refusal :=
  .next (s.onMem fun d h => if d.mem.reloading.contains sel.val then loadRemap (d, h) sel else (d, h))

/-- Errors that cells have taken: the larger count of a word stands. -/
def addFlaws {α : Type} [DecidableEq α] (t : List (α × Nat)) (l : List (α × Nat)) : List (α × Nat) :=
  l.foldl (fun t e =>
    match t.find? (fun x => decide (x.1 = e.1)) with
    | some x => t.map (fun y => if y.1 = e.1 then (e.1, max x.2 e.2) else y)
    | none => if e.2 = 0 then t else t ++ [e]) t

/-- The errors of a poll that lie in code words of READY stacks and of arrays that are up. -/
def Dev.newFlaws (d : Dev) (p : EccPoll) : List (Nat × Nat) × List (Nat × Nat) :=
  ((p.hbm.filter (fun e => tget .off d.mem.stackOf e.1 == .ready && decide (e.2.1 < stackPages * 64))).map (fun e => (wordKey e.1 e.2.1, e.2.2)),
    (p.sram.filter (fun e => 8 ≤ e.1 && e.1 < 31 && d.arrayUp e.1 && e.2.1 < sramWords e.1)).map (fun e => (sramKey e.1 e.2.1, e.2.2)))

/-- DEVICE_ECC_POLL (R295): the error counts of the devices are read, and the errors that cells have taken since the last poll stand
in the arrays until a read finds them (log 104). -/
def execDeviceEccPoll (poll : EccPoll) (s : State) : Host.Outcome State Fault Refusal :=
  .next (s.onMem fun d h =>
    let n := d.newFlaws poll
    let d := (upto d.stackCount).foldl (fun d k =>
      if tget .off d.mem.stackOf k == .ready then d.setNum (0x2810 + k) 0x0C (poll.counts.getD k 0 % 2 ^ 32 : Nat) else d) d
    ({ d with mem := { d.mem with sramFlaws := addFlaws d.mem.sramFlaws n.2, flashFlaws := addFlaws d.mem.flashFlaws poll.flash } },
      { h with flaws := addFlaws h.flaws n.1 }))

end Sys2Proof.Machine
end

