-- ==== Sys2Proof/Machine/TimeUnit.lean ====
section
/-!
DEFINITION. The time unit: time states and the choice of the parent (R102, R106), exchanges and their filter (R103),
servo (R105, R99, R112), steps (R100, R113), the Orbit definition (R115, R116), PTP slots (R109 to R111), strobe
emission and its latencies (R118 to R120).
-/

namespace Sys2Proof.Machine
open Sys2Proof

/-- The record of Array time changes. -/
def Dev.modTime (d : Dev) (f : Time → Time) : Dev := { d with time := f d.time }

/-! ### Figures -/

/-- TRANSFER_INTERVAL in ns. -/
def Dev.transferInterval (d : Dev) : Nat := d.nat 0x2201 1 * Config.us

/-- The nominal INCREMENT, 2.0 ns, and its bounds (R99). -/
def incNominal : Int := 0x200000000
/-- The least INCREMENT. -/
def incMin : Int := 0x1FFE5C91D
/-- The greatest INCREMENT. -/
def incMax : Int := 0x2001A36E3

/-! ### ANY_ARMED (Table 4.5, R113) -/

/-- Whether this module is in ARMED, SERVING or HOLD. -/
def Dev.selfArmed (d : Dev) : Bool := d.inState [.armed, .serving, .hold]

/-- ANY_ARMED: this module, or a child within the last 4 intervals. -/
def Dev.anyArmed (d : Dev) : Bool :=
  d.selfArmed || (match d.time.armedSeen with | some t => decide (d.now ≤ t + 4 * d.transferInterval) | none => false)

/-- Whether ANY_ARMED has been clear since an instant. -/
def Dev.clearSince (d : Dev) (from_ : Nat) : Bool :=
  !d.anyArmed &&
    (match d.time.armedAt with | some t => decide (t < from_) | none => true) &&
    (match d.time.armedSeen with | some t => decide (t + 4 * d.transferInterval < from_) | none => true)

/-- Whether ANY_ARMED has been clear for the last 4 intervals (R113, R115). -/
def Dev.clearLong (d : Dev) : Bool :=
  decide (4 * d.transferInterval ≤ d.now) && d.clearSince (d.now - 4 * d.transferInterval)

/-! ### Time states (R106) -/

/-- Event 0x0901 with the condition named: 1 TIME_LOCKED cleared, 2 holdover, 3 TIME_REF lost, 4 PTP holdover, 5 domain
disagreement. -/
def Dev.timeFault (d : Dev) (what : Nat) (active : Bool) : Dev := d.raise 0x0901 1 0 0 active [BitVec.ofNat 8 what]

/-- The time state changes (Table 4.2), and a step that was due is no longer; a transition that clears TIME_LOCKED in ARMED or
SERVING leads to HOLD. -/
def Dev.setTState (d : Dev) (x : TState) : Dev :=
  let was := d.timeLocked
  let d := d.modTime (fun t =>
    { t with state := x, okRun := 0, badRun := 0, unlockedRun := 0
             filter := if x == .acquiring then [] else t.filter
             servoInput := if x == .holdover || x == .free then none else t.servoInput
             slewLogged := false
             stepDue := none
             holdoverAt := if x == .holdover then d.now else t.holdoverAt })
  let d := if x == .holdover then d.timeFault 2 true else d
  let d := if was && !d.timeLocked then d.timeFault 1 true else d
  let d := d.settle
  if was && !d.timeLocked && d.inState [.armed, .serving] then d.enterHold .timeLoss else d.revoteAll

/-- PTP_STATUS of a root follows its selection; entering PTP holdover is a class 1 fault (R112). -/
def Dev.rootPtpStatus (d : Dev) : Dev :=
  if !d.time.isRoot then d
  else match d.time.selected with
    | some _ => (d.setNum 0x2200 0x0E 0).settle
    | none => if d.num 0x2200 0x0E == 1 then d else (d.setNum 0x2200 0x0E 1).timeFault 4 true

/-- The time parent is chosen again (R102), with what becoming or ceasing to be the root does (Table 4.2). -/
def Dev.reselect (d : Dev) : Dev :=
  let pd := d.timeParent
  let root := d.isRootNow
  let was := d.time.isRoot
  let moved := pd.1 != d.time.parent || root != was
  let d := d.modTime (fun t =>
    { t with parent := pd.1, depth := pd.2, isRoot := root
             filter := if moved then [] else t.filter
             reqs := if moved then [] else t.reqs
             servoInput := if moved then none else t.servoInput
             unanswered := if moved then 0 else t.unanswered
             stepDue := if moved then none else t.stepDue
             notice := if root then t.notice else none
             parentNotice := if moved then false else t.parentNotice })
  if !d.isOn 3 then d
  else
    let d := if root && d.time.state != .locked then d.setTState .locked else d
    let d := if root && !was then d.rootPtpStatus else d
    let d := if !root && was && d.time.state == .locked then d.setTState .holdover else d
    if !root && d.time.state == .locked && (d.time.depth.any (7 < ·)) then d.setTState .acquiring else d

/-- The context of the link to a neighbour closes (R222): a module that takes its time there leaves LOCKED for HOLDOVER
(Table 4.2). -/
def Dev.parentLost (d : Dev) (i : Nat) : Dev :=
  if d.time.parent == some i && d.time.state == .locked && !d.time.isRoot then d.setTState .holdover else d

/-- What follows a change of the live set, the graph or a grant: leader, parent, votes (R102, R184). -/
def Dev.topologyChanged (d : Dev) : Dev := ((d.updateLeader.reselect).revoteAll).announce

/-! ### The Orbit definition (R115, R116, R86) -/

/-- The newest definition takes effect: a settings record is to keep it, jobs that run under another period stop, ORBIT_SYNC goes
out. -/
def Dev.applyDef (d : Dev) : Dev :=
  if d.time.newest == d.time.inForce then d
  else
    let o := d.time.newest
    let d := d.modTime (fun t => { t with inForce := o })
    let d := { d with upd := { d.upd with pendingSettings := true } }
    let d := (upto 16).foldl (fun d j =>
      if (d.job j).state == .running && (d.job j).period != o.period then d.stopJob j 4 else d) d
    let d := (upto 16).foldl (fun d j =>
      if (d.job j).state == .running && (d.run j).zenith != 0 then d.placeNext j (d.now + 10 * Config.ms) else d) d
    d.syncAll

/-- A definition becomes known: in force from its instant, or at once where that has passed. -/
def Dev.learnDef (d : Dev) (o : OrbitDef) : Dev :=
  let d := d.modTime (fun t => { t with newest := o })
  if o.validFrom ≤ d.now then d.applyDef else d

/-- ORBIT_NOW (R8, R116): 0 before ORBIT_EPOCH. -/
def Dev.orbitNow (d : Dev) : Nat :=
  if d.now < d.time.inForce.epoch then 0 else (d.now - d.time.inForce.epoch) / d.time.inForce.period

/-! ### Exchanges (R103, R114) -/

/-- The link that leads to a time parent or child: peer port i or the twin link. -/
def timeLink (i : Nat) : Nat := 32 + i

/-- A time-transfer frame leaves at once, or is discarded on a link that is not UP. -/
def Dev.sendTime (d : Dev) (i type : Nat) (payload : Bytes) : Dev :=
  if (d.link (timeLink i)).isUp && (d.neighbour i).status == .confirmed then
    d.transmit (timeLink i) { type := type, cls := 0, source := d.chip, dest := 0xFFFF, payload := payload }
  else d

/-- LOCKED[2] of TIME_RESP: the root, or TIME_LOCKED with PD4 on. -/
def Dev.respLocked (d : Dev) : Bool := d.time.isRoot || (d.timeLocked && d.isOn 4)

/-- The payload of TIME_RESP (Table 4.6). -/
def Dev.timeResp (d : Dev) (seq t2 t3 : Nat) : Bytes :=
  let pending := d.time.notice.isSome || d.time.parentNotice
  let o := d.time.newest
  le 2 seq ++ le 1 (d.ptpStatus % 4 + 4 * b2n d.respLocked + 8 * b2n pending) ++ le 1 (d.time.depth.getD 0xFF) ++
    le 2 (d.leader.getD 0xFFFF) ++ leI 2 (d.num 0x2200 0x0D) ++ le 8 (t2 / 2 ^ 32) ++ le 4 (t2 % 2 ^ 32) ++
    le 8 (t3 / 2 ^ 32) ++ le 4 (t3 % 2 ^ 32) ++ le 8 o.epoch ++ le 4 o.period ++ le 4 o.seq ++ le 8 o.validFrom

/-- The filtered offset: the mean of the exchanges of the filter. -/
def Dev.filtered (d : Dev) : Int :=
  if d.time.filter.isEmpty then 0 else sumI d.time.filter / (d.time.filter.length : Int)

/-- An exchange enters the filter. -/
def Dev.addSample (d : Dev) (theta : Int) : Dev :=
  d.modTime (fun t => { t with filter := (theta :: t.filter).take (d.nat 0x2202 3) })

/-- The step that R100 would make for an offset: the nearest multiple of 200 µs, ties away from zero. -/
def stepOf (theta : Int) : Int := divNear theta (200000 * 2 ^ 32) * (200000 * 2 ^ 32)

/-- PARENT_OFFSET shows the filtered offset. -/
def Dev.showOffset (d : Dev) : Dev := d.setNum 0x2200 7 (toPs d.filtered)

/-- The servo takes the filtered offset at the next cycle start, and PARENT_OFFSET shows it. -/
def Dev.feedServo (d : Dev) : Dev :=
  let f := d.filtered
  (d.modTime (fun t => { t with servoInput := some f })).showOffset

/-- An answered exchange in ACQUIRING (Table 4.2). -/
def Dev.answerAcquiring (d : Dev) (theta : Int) (locked : Bool) : Dev :=
  let d := (d.addSample theta).feedServo
  let f := d.filtered
  if 1000 * nsUnit < (f.natAbs : Int) then
    if d.selfArmed then
      if d.time.slewLogged then d.modTime (fun t => { t with okRun := 0 })
      else (d.modTime (fun t => { t with okRun := 0, slewLogged := true })).info 0x0901 0 0 [0]
    else d.modTime (fun t => { t with okRun := 0, stepDue := if stepOf f = 0 then none else some f })
  else
    let good := locked && decide ((f.natAbs : Int) ≤ nsUnit) && d.time.depth.any (· ≤ 7)
    let n := if good then d.time.okRun + 1 else 0
    let d := d.modTime (fun t => { t with okRun := n, stepDue := none })
    if 100 ≤ n then d.setTState .locked else d

/-- An answered exchange in LOCKED. -/
def Dev.answerLocked (d : Dev) (theta : Int) (locked pending : Bool) : Dev :=
  let d := (d.addSample theta).feedServo
  let f := d.filtered
  let bad := if 2 * nsUnit < (f.natAbs : Int) then d.time.badRun + 1 else 0
  let un := if locked then 0 else d.time.unlockedRun + 1
  let d := d.modTime (fun t => { t with badRun := bad, unlockedRun := un })
  if 4 ≤ bad || pending || d.time.depth.any (7 < ·) then d.setTState .acquiring
  else if 4 ≤ un then d.setTState .holdover
  else d

/-- The first answer in HOLDOVER, judged on its own θ; one that leaves HOLDOVER standing still enters the filter (R103). -/
def Dev.answerHoldover (d : Dev) (theta : Int) (locked : Bool) : Dev :=
  if !d.isOn 4 then (d.addSample theta).showOffset
  else if (theta.natAbs : Int) ≤ 2 * nsUnit then
    if locked then
      (((d.modTime (fun t => { t with filter := [] })).addSample theta).feedServo).setTState .locked
    else (d.addSample theta).showOffset
  else ((d.setTState .acquiring).addSample theta).feedServo

/-- An answered exchange drives the time state (Table 4.2). -/
def Dev.answered (d : Dev) (theta : Int) (locked pending : Bool) : Dev :=
  match d.time.state with
  | .free => if d.isOn 4 then (d.setTState .acquiring).answerAcquiring theta locked else (d.addSample theta).showOffset
  | .acquiring => d.answerAcquiring theta locked
  | .locked => d.answerLocked theta locked pending
  | .holdover => d.answerHoldover theta locked

/-! ### Servo (R105, R112) and steps (R100) -/

/-- A rounded quotient of an integer, ties to even. -/
def rneQuot (a : Int) (b : Nat) : Int :=
  let q := a / (b : Int)
  let r := a % (b : Int)
  if 2 * r < b || (2 * r = b && q % 2 = 0) then q else q + 1

/-- The servo runs at a cycle start after an exchange: I, P, f and INCREMENT (R105), bounded and counted (R99). -/
def Dev.servo (d : Dev) : Dev :=
  match d.time.servoInput with
  | none => d
  | some theta =>
    let d := d.modTime (fun t => { t with servoInput := none })
    if !d.isOn 4 || d.time.state == .holdover then d
    else
      let root := d.time.isRoot
      let kp : Int := if root then d.num 0x2220 6 else d.num 0x2202 1
      let ki : Int := if root then d.num 0x2220 7 else d.num 0x2202 2
      let lim : Int := (if root && d.anyArmed then d.num 0x2220 4 else d.num 0x2202 4) * nsUnit
      let per := fun (k : Int) => rneQuot (k * theta * 1000000000) (65536 * d.transferInterval)
      let i := clampI (-200000 * nsUnit) (200000 * nsUnit) (d.time.integ + per ki)
      let f := i + clampI (-lim) lim (per kp)
      let raw := incNominal + rneQuot (2 * f) 1000000000
      let inc := clampI incMin incMax raw
      let d := d.modTime (fun t => { t with integ := i, increment := inc.toNat })
      if inc != raw then d.info 0x0901 0 0 [0] else d

/-- An instant or a cycle index after a step of Array time. -/
def stepped (x : Nat) (n : Int) : Nat := ((x : Int) + n).toNat

/-- The cycle indices that the engine holds follow a step of `c` cycles: no control cycle is shorter or longer for it (R100, log
66). -/
def Engine.stepped (e : Engine) (c : Int) : Engine :=
  { e with
    cycle := Machine.stepped e.cycle c
    axes := e.axes.map (fun a => (a.1, { a.2 with motion := a.2.motion.map (fun m => { m with from_ := Machine.stepped m.from_ c }) }))
    heads := e.heads.map (fun h => (h.1, { h.2 with search := h.2.search.map (fun x => { x with started := Machine.stepped x.started c }) }))
    boards := e.boards.map (fun b => (b.1,
      { b.2 with queued := b.2.queued.map (fun f => { f with cycle := Machine.stepped f.cycle c })
                 next := b.2.next.map (fun x => (Machine.stepped x.1 c, x.2)) }))
    tunes := e.tunes.map (fun x => { x with began := Machine.stepped x.began (c * 50000) }) }

/-- The local stamps and the estimate of a slot follow a step (DESIGN CHOICE, log 66: the spec does not say): DOMAIN_OFFSET is
domain time less Array time. -/
def Ptp.stepped (x : Ptp) (n : Int) : Ptp :=
  { x with
    offset := if x.sampleAt = 0 then x.offset else x.offset - n
    sampleAt := if x.sampleAt = 0 then 0 else Machine.stepped x.sampleAt n
    pendingSync := x.pendingSync.map (fun p => (Machine.stepped p.1 n, p.2))
    lastSync := x.lastSync.map (fun p => (p.1, p.2 + n))
    reqAt := x.reqAt.map (fun t => Machine.stepped t n)
    announceAt := x.announceAt.map (fun t => Machine.stepped t (n / 2 ^ 32)) }

/-- A step of Array time at a heater trigger (R100). The stamps of open exchanges and the slots' estimates are local times and
move with it (DESIGN CHOICE, log 66). -/
def Dev.timeStep (d : Dev) : Dev :=
  match d.time.stepDue with
  | none => d
  | some theta =>
    let d := d.modTime (fun t => { t with stepDue := none })
    let n := stepOf theta
    if d.selfArmed || n = 0 then d
    else
      let old := d.now
      let d := d.modTime (fun t =>
        { t with counter := Machine.stepped t.counter n, filter := [], servoInput := none
                 reqs := t.reqs.map (fun r => (r.1, Machine.stepped r.2 n)), ptp := t.ptp.map (fun x => x.stepped n)
                 stepped := (d.disc.ports.map Prod.fst) })
      let d := { d with eng := d.eng.stepped (n / (50000 * 2 ^ 32)) }
      let d := (d.bump 0x2200 9).info 0x0901 0 0 (le 8 old ++ le 8 d.now)
      d.syncAll

/-! ### PTP (R108 to R113) -/

/-- A PTP slot. -/
def Dev.ptp (d : Dev) (k : Nat) : Ptp := d.time.ptp.getD k {}

/-- A PTP slot changes. -/
def Dev.modPtp (d : Dev) (k : Nat) (f : Ptp → Ptp) : Dev := d.modTime (fun t => { t with ptp := lmod t.ptp k f })

/-- Whether a slot's time transmitter may be qualified (R109). -/
def Dev.ptpFit (d : Dev) (k : Nat) : Bool := (d.ptp k).ptpScale && decide ((d.ptp k).clockClass ≤ d.nat 0x2220 8)

/-- Whether a slot has an offset to be compared. -/
def Ptp.measured (x : Ptp) : Bool := x.state != .disabled && x.state != .listening && x.sampleAt != 0

/-- A slot is selected, or none: a step of the root that was announced on another selection is abandoned (R113). -/
def Dev.select (d : Dev) (x : Option Nat) : Dev :=
  (d.modTime (fun t => { t with selected := x, notice := none, stepDue := if t.isRoot then none else t.stepDue })).rootPtpStatus

/-- The selection follows the slots (R111). -/
def Dev.selectPtp (d : Dev) : Dev :=
  let pri := d.nat 0x2220 1
  let want := if (d.ptp pri).state == .qualified then some pri
    else if (d.ptp (1 - pri)).state == .qualified then some (1 - pri) else none
  let cur := d.time.selected
  if want == cur then d
  else match want with
    | none => d.select none
    | some k =>
      let o := d.ptp (1 - k)
      let agree := !o.measured || decide ((((d.ptp k).offset - o.offset).natAbs : Int) ≤ d.num 0x2220 5 * nsUnit)
      if agree then (d.select (some k)).setNum 0x2200 0x0D (d.ptp k).utc
      else
        match cur with
        | some c =>
          let d := d.timeFault 5 false
          if (d.ptp c).state == .qualified then d else d.select none
        | none => d.timeFault 5 false

/-- A PTP slot starts anew: LISTENING while enabled (R110). -/
def Dev.restartPtp (d : Dev) (k : Nat) : Dev :=
  (d.modPtp k (fun _ => { state := if d.flag (0x2210 + k) 1 then .listening else .disabled })).selectPtp

/-- The time unit starts, or its settings are loaded: an enabled slot that does not run yet starts in LISTENING (R110). -/
def Dev.startPtp (d : Dev) : Dev :=
  (upto 2).foldl (fun d k => if d.isOn 3 && (d.ptp k).state == .disabled then d.restartPtp k else d) d

/-- A QUALIFIED slot whose time transmitter no longer meets R109 is so no longer; it goes on in TRACKING (DESIGN CHOICE, log 68:
the spec names no state). -/
def Dev.ptpCheck (d : Dev) (k : Nat) : Dev :=
  d.modPtp k (fun x => if x.state == .qualified && !d.ptpFit k then { x with state := .tracking, agree := 0 } else x)

/-- The figures of an Announce in the order of the default best-master algorithm, lower ones better (R108). -/
def annRank (a : PtpAnn) : List Nat := [a.prio1, a.clockClass, a.accuracy, a.variance, a.prio2, a.gm]

/-- The same figures of a slot's best time transmitter. -/
def Ptp.rank (x : Ptp) : List Nat := [x.prio1, x.clockClass, x.accuracy, x.variance, x.prio2, x.gm]

/-- Whether one list of figures comes before another. -/
def ranksBefore : List Nat → List Nat → Bool
  | a :: s, b :: t => decide (a < b) || (a == b && ranksBefore s t)
  | _, _ => false

/-- The interval in ns that a PTP log interval stands for: 2 to its power, in seconds. -/
def ptpInterval (k : Int) : Nat := if 0 ≤ k then 2 ^ k.toNat * Config.sec else Config.sec / 2 ^ (-k).toNat

/-- The log intervals that the Director supports for Sync and for delay requests (Table 4.4). -/
def syncRate (k : Int) : Bool := -7 ≤ k && k ≤ 1

/-- The log intervals that the Director supports for Announce (Table 4.4). -/
def announceRate (k : Int) : Bool := -3 ≤ k && k ≤ 3

/-- Whether an Announce is taken as that of the slot's best time transmitter (R108): at a supported rate, it is the one followed, or
better, or the one followed has been silent for three of its announce intervals (PRESUMED, log 67). -/
def Ptp.takes (x : Ptp) (a : PtpAnn) (now : Nat) : Bool :=
  announceRate a.interval &&
  match x.announceAt with
  | none => true
  | some t => x.gm == a.gm || ranksBefore (annRank a) x.rank || decide (t + 3 * ptpInterval x.announceLog ≤ now)

/-- What an Announce tells enters the slot. -/
def Ptp.heard (x : Ptp) (a : PtpAnn) (now : Nat) : Ptp :=
  { x with gm := a.gm, clockClass := a.clockClass, steps := a.steps, utc := a.utc, ptpScale := a.ptpScale
           prio1 := a.prio1, accuracy := a.accuracy, variance := a.variance, prio2 := a.prio2, announceAt := some now, announceLog := a.interval }

/-- The prediction of a slot's offset at an instant (R110). -/
def Ptp.predict (x : Ptp) (at_ : Nat) : Int :=
  x.offset + ofPs (x.rate * ((at_ : Int) - x.sampleAt) / (1000000000 * nsUnit))

/-- A sample is accepted: offset, frequency estimate and instant. -/
def Ptp.accept (x : Ptp) (o : Int) (at_ : Nat) : Ptp :=
  let dt := (at_ : Int) - x.sampleAt
  { x with
    rate := if x.sampleAt = 0 || dt ≤ 0 then 0 else toPs (o - x.offset) * (1000000000 * nsUnit) / dt
    offset := o, sampleAt := at_ }

/-- A first sample of a slot in TRACKING. -/
def Ptp.restart (x : Ptp) (o : Int) (at_ : Nat) : Ptp :=
  { x with state := .tracking, agree := 0, back := 0, refusedRun := 0, rate := 0, offset := o, sampleAt := at_ }

/-- One sample of a slot is judged against its prediction (R110). -/
def Dev.ptpJudge (d : Dev) (k : Nat) (o : Int) (at_ : Nat) : Dev :=
  let x := d.ptp k
  let near := decide (((o - x.predict at_).natAbs : Int) ≤ d.num 0x2220 3 * nsUnit)
  match x.state with
  | .disabled => d
  | .listening => d.modPtp k (fun x => x.restart o at_)
  | .disqualified => if d.time.isRoot && !d.anyArmed then d.modPtp k (fun x => x.restart o at_) else d
  | .jumped =>
    if near then
      d.modPtp k (fun x =>
        let y := { x with back := x.back + 1, refusedRun := 0 }
        if 64 ≤ y.back then { (y.accept o at_) with state := if d.ptpFit k then .qualified else .tracking } else y)
    else
      (d.modPtp k (fun x =>
        { x with back := 0, refusedRun := x.refusedRun + 1
                 state := if 8 ≤ x.refusedRun + 1 then .disqualified else .jumped })).bump (0x2210 + k) 0x0C
  | _ =>
    if x.sampleAt = 0 then d.modPtp k (fun x => x.restart o at_)
    else if near then
      d.modPtp k (fun x =>
        let y := { (x.accept o at_) with agree := x.agree + 1 }
        if 16 ≤ y.agree && d.ptpFit k then { y with state := .qualified } else y)
    else
      (d.modPtp k (fun x => { x with state := .jumped, back := 0, refusedRun := 0, agree := 0 })).bump (0x2210 + k) 0x0C

/-- The root's servo and its step notice follow the selected slot (R112, R113). -/
def Dev.ptpFeed (d : Dev) (k : Nat) : Dev :=
  if d.time.isRoot && d.time.selected == some k && (d.ptp k).state == .qualified then
    let o := (d.ptp k).offset
    let d := (d.modTime (fun t => { t with servoInput := some o })).setNum 0x2200 7 (toPs o)
    if 1000 * nsUnit < (o.natAbs : Int) && d.clearLong && d.time.notice.isNone && stepOf o != 0 then
      d.modTime (fun t => { t with notice := some d.now })
    else d
  else d

/-- One complete Sync sample (R108, R110): DOMAIN_OFFSET and the selection. -/
def Dev.ptpSample (d : Dev) (k : Nat) (t1 t2 : Nat) (corr : Int) : Dev :=
  let x := d.ptp k
  if x.state == .disabled then d
  else
    let o := (t1 : Int) + corr + x.delay - t2
    let d := d.modPtp k (fun x => { x with lastSync := some ((t1 : Int) + corr, (t2 : Int)), pendingSync := none })
    ((d.ptpJudge k o t2).selectPtp).ptpFeed k

/-! ### Pod links (R119, R120) -/

/-- The smallest even number not less than a number of ps, in ns. -/
def evenCeil (ps : Nat) : Nat := (ps + 1999) / 2000 * 2

/-- The emission lead and the strobe delays of a link are rewritten, if no strobe is armed on it (R119). On a link whose position 3
has no measured latency the lead follows the greatest one measured (DESIGN CHOICE, log 69: R119 names L3 only). -/
def Dev.rewriteDelays (d : Dev) (j : Nat) : Dev :=
  let x := d.podLink j
  if !(d.strobesOn j).isEmpty || x.lat.isEmpty then d
  else
    let l3 := match tfind x.lat 3 with | some l => l | none => x.lat.foldl (fun m e => max m e.2) 0
    let lead := evenCeil l3
    let d := d.modPodLink j (fun y => { y with lead := lead, trained := true })
    x.lat.foldl (fun d e =>
      let q := 4 * j + e.1
      let v := ((1000 * lead - e.2) + 200) / 400
      if d.nat 0x2242 (q + 1) = v then d
      else (d.setNum 0x2242 (q + 1) v).podSend q 0x13 [BitVec.ofNat 8 v]) d

/-- Loopback requests to the four positions of a link (R177): a control group, given by its code group 00110. -/
def Dev.measureLatency (d : Dev) (j : Nat) : Dev :=
  d.emits ((upto 4).map (fun k => .lbk j k false (lbkGroups k false)))

/-- The first strobe of a list. -/
def firstStrobe : List Strobe → Option Strobe
  | [] => none
  | s :: t => match firstStrobe t with
    | some x => if x.z < s.z then some x else some s
    | none => some s

/-- The descriptors due before a link's next marker go: those of the strobes whose cancel limit no command names, which is any but a
commit's own (R176, R194). -/
def Dev.dueDesc (d : Dev) (j : Nat) : Dev :=
  let waiting := (d.strobesOn j).filter (fun s => !s.sent.contains j)
  match firstStrobe (waiting.filter (fun s => !(s.kind == 0 && decide (s.job < 16)))) with
  | none => d
  | some s =>
    let next := (d.time.marks.filter (fun e => e.1 / 65536 = j)).map (·.2)
    if next.any (fun m => m + (d.podLink j).lead < s.z - 20 * Config.us) then d
    else (d.reach (s.z - 20 * Config.us)).sendDesc j s

/-- The earliest marker due on a pod link leaves (R119, R120). -/
def Dev.emitMark (d : Dev) (j : Nat) : Dev :=
  let d := d.dueDesc j
  let due := d.time.marks.filter (fun e => e.1 / 65536 = j)
  match due with
  | [] => d
  | e :: t =>
    let m := t.foldl (fun b x => if x.2 < b.2 then x else b) e
    let lead := (d.podLink j).lead
    let d := d.reach m.2
    let z := m.2 + lead
    let d := d.emit (.mark j (m.1 % 256) (m.2 * 2 ^ 32) (markGroups (m.1 % 256)))
    let mine := fun (s : Strobe) => s.sent.contains j && decide (z ≤ s.z) && decide (s.z ≤ z + 16)
    let left := fun (s : Strobe) => if mine s then { s with pods := s.pods.filter (fun q => linkOfPod q != j) } else s
    let d := d.modTime (fun t =>
      { t with marks := t.marks.filter (fun x => x != m)
               strobes := (t.strobes.map left).filter (fun s => !s.pods.isEmpty) })
    d.rewriteDelays j

end Sys2Proof.Machine
end

