-- ==== Sys2Proof/Machine/Steering.lean ====
section
/-!
DEFINITION. Steering at work: alignment and searches (R140 to R144), reacquire (R145), tunes (R147), one control cycle
of an axis (R128 to R146), boards (R148, R151) and adoption (R150).
-/

namespace Sys2Proof.Machine
open Sys2Proof

/-! ### Alignment (R141) -/

/-- A comet's alignment is complete: READY, and the vote follows (Table 3.2, Table 7.3, R188). -/
def Dev.cometReady (d : Dev) (c : Comet) : Dev :=
  let d := d.modComet c (fun x => { x with state := .ready, searching := false })
  let d := d.modCircuits (fun x => x.state == .presteer && x.north == c.north && x.plane == c.plane) (fun x => { x with state := .ready })
  d.revote c.job

/-- The end of a comet at a head takes a verdict. -/
def Comet.setOk (c : Comet) (h : Nat) (ok : Bool) : Comet :=
  if h = headOf c.north c.plane then { c with okN := ok } else { c with okS := ok }

/-- The other head of a comet. -/
def Comet.otherHead (c : Comet) (h : Nat) : Nat :=
  if h = headOf c.north c.plane then headOf (southPort c.south) c.plane else headOf c.north c.plane

/-- Whether a head searches. -/
def Dev.searching (d : Dev) (h : Nat) : Bool := (d.head h).search.isSome

/-! ### Reacquire (R145) -/

/-- A plane's shutters at both ends of a circuit are opened or darkened by a strobe (R164, R165). -/
def Dev.strobeShutters (d : Dev) (c : Circuit) (o : Bool) : Dev :=
  let ps := [c.north, southPort c.south]
  let d := ps.foldl (fun d p => d.setShutter p c.plane o) d
  match d.freeTags 1 with
  | some (t :: _) =>
    let ws := ps.map (fun p => (⟨p, shutterTuner c.plane, d.shutterCode p c.plane o⟩ : TWrite))
    (d.stageWrites t ws).armFixed { z := (d.now / 2 + 1) * 2 + 30 * Config.us, pods := podsOf ws, tag := t, kind := 5 }
  | _ => d

/-- The reference of an axis at its head's last valid tap-power group; where none has been valid, the one it holds. The last valid group
may be one of an earlier circuit of the head (DESIGN CHOICE, log 92). -/
def Dev.goodRef (d : Dev) (a : Nat) : Int :=
  match (d.head (headOfAxis a)).good with
  | some g => if a % 2 = 0 then g.1 else g.2
  | none => (d.axis a).ref + (d.axis a).optCorr

/-- One axis of a reacquire goes back to its good reference, in ACQUIRE; a faulted one is first seeded cold (R145, Table 5.6). -/
def Dev.reacquireAxis (d : Dev) (a : Nat) : Dev :=
  let good := d.goodRef a
  let back := fun (d : Dev) => d.modAxis a (fun x => { x with ref := good, optCorr := 0, motion := none })
  match (d.axis a).state with
  | .fault => if (d.axis a).poisonedSets.isEmpty then back (d.coldSeedAxis a .acquire) else d
  | .track => (back d).setAxis a .acquire
  | .acquire => back d
  | _ => d

/-- The heads of a reacquire go back to the reference of their last valid group, in ACQUIRE: a head in HOLD_CLOSED slews there first,
not before 1 ms after a flip (Table 5.6). The first end searches. -/
def Dev.reacquireTry (d : Dev) (c : Circuit) : Dev :=
  let hs := pairHeads c.north c.south c.plane
  let d := hs.foldl (fun d h =>
    let still := (headAxes h).filter (fun a => (d.axis a).state == .holdClosed && (d.head h).noLaunch ≤ d.now)
    let d := (headAxes h).foldl Dev.reacquireAxis d
    let d := if still.isEmpty then d else d.launchGang none (still.map (fun a => (a, d.goodRef a)))
    d.modHead h (fun x => { x with confirm := 0, firstRead := true, search := none, taps := [] })) d
  d.startSearch (headOf c.north c.plane) 0 true

/-- Reacquire starts on a circuit: its shutters dark, its pilots on, its first try (R145). -/
def Dev.startReacquire (d : Dev) (c : Circuit) : Dev :=
  let id := d.cometId
  let d := { d with arr := { d.arr with nextComet := d.arr.nextComet + 1 } }
  let d := d.strobeShutters c false
  let d := (pairHeads c.north c.south c.plane).foldl (fun d h => d.gateOpen h id) d
  let d := d.reacquireTry c
  let r := (c.north, c.plane, 1, d.now + d.nat 0x2310 2 * Config.ms)
  let rest := d.eng.reacquires.filter (fun x => !(x.1 == c.north && x.2.1 == c.plane))
  ({ d with eng := { d.eng with reacquires := rest ++ [r] } }).sendMonitors [c.north, southPort c.south]

/-- A reacquire ends: pilots off, the heads where a search has brought them (R145). -/
def Dev.endReacquire (d : Dev) (c : Circuit) : Dev :=
  let d := { d with eng := { d.eng with
    reacquires := d.eng.reacquires.filter (fun x => !(x.1 == c.north && x.2.1 == c.plane)) } }
  (pairHeads c.north c.south c.plane).foldl (fun d h => (d.gateClose h).stopSearch h) d

/-- The key of a recovery's scope. -/
def Recovery.key (r : Recovery) : Nat :=
  if r.scope = 0 then circuitScope r.index r.plane else if r.scope = 1 then 1 + r.index else 0

/-- Whether a recovery carries an older epoch than its scope's (R324). -/
def Dev.staleRecovery (d : Dev) (r : Recovery) : Bool := d.epochOf r.key != r.epoch

/-- A recovery leaves the table. -/
def Dev.dropRecovery (d : Dev) (r : Recovery) : Dev :=
  { d with faults := { d.faults with recoveries := d.faults.recoveries.filter (· != r) } }

/-- The success of a recovery re-enters the queue as an event of the fault's class, under the code of the fault (R315, R316). -/
def Dev.resultEvent (d : Dev) (r : Recovery) : Dev :=
  let scope := if r.scope = 0 then 2 else if r.scope = 1 then 1 else 0
  let index := if r.scope = 2 then 0 else r.index
  d.enqueue { code := r.code, cls := r.cls, scope := scope, index := index, time := d.now, level := r.level, result := true
              epoch := d.eventEpoch scope index, onset := some r.onset, budgets := r.budgets }

/-- Recoveries of a level succeed: LEVEL_SUCCEEDED counts a success (Table 12.5), and the result of one that carries an older epoch than
its scope's is discarded and counted in STALE_RESULTS (R324). -/
def Dev.recovered (d : Dev) (level : Nat) (sel : Recovery → Bool) : Dev :=
  let mine := d.faults.recoveries.filter (fun r => r.level = level && sel r)
  let stale := mine.filter d.staleRecovery
  let good := mine.filter (fun r => !d.staleRecovery r)
  let d := mine.foldl Dev.dropRecovery d
  let d := if stale.isEmpty then d else d.bump 0x2300 0x0B stale.length
  if good.isEmpty then d else good.foldl Dev.resultEvent (d.bump 0x2311 (level + 5))

/-- Whether a recovery serves a circuit. -/
def Recovery.ofCircuit (north plane : Nat) (r : Recovery) : Bool := r.scope = 0 && r.index = north && r.plane = plane

/-- A reacquire succeeds (R145): TRACK again, the shutters open, the circuit LIVE or DEGRADED, L1 done. -/
def Dev.reacquired (d : Dev) (c : Circuit) : Dev :=
  let d := d.endReacquire c
  let d := (pairHeads c.north c.south c.plane).foldl Dev.enterTrack d
  let d := d.strobeShutters c true
  let d := d.modCircuits (fun x => x.north == c.north && x.plane == c.plane) (fun x => { x with state := d.litState x })
  let d := (d.unlatch 0x0302 2 c.north).unlatch 0x0302 2 (southPort c.south)
  let d := (pairAxes c.north c.south c.plane).foldl (fun d a => d.unlatch 0x0201 3 a) d
  (d.recovered 1 (Recovery.ofCircuit c.north c.plane)).sendMonitors [c.north, southPort c.south]

/-- The circuit that is being reacquired on a head. -/
def Dev.reacquiring (d : Dev) (h : Nat) : Option Circuit :=
  match d.eng.reacquires.find? (fun r => r.2.1 = h % 2 && (match d.circuitOf r.1 r.2.1 with | some c => c.hasPort (h / 2) | none => false)) with
  | some r => d.circuitOf r.1 r.2.1
  | none => none

/-! ### Pilot readings (R140, R141) -/

/-- What a pilot reading does for the comet of its head. -/
def Dev.cometReading (d : Dev) (h : Nat) (c : Comet) (valid near : Bool) : Dev :=
  let full := near && decide (d.nat 0x2C03 2 ≤ (d.head h).confirm)
  if c.state == .acquiring then
    let c' := c.setOk h full
    let d := d.modComet c (fun x => x.setOk h full)
    if c'.okN && c'.okS then d.cometReady c' else d
  else if (c.state == .ready || c.state == .staged) && !(valid && near) then d.alignmentLost c
  else d

/-- Whether the running cycle belongs to a head's slot in the rotation of 16 cycles (R140): two cycles for each of the eight heads of a
receiver, in ascending order. -/
def Dev.pilotSlot (d : Dev) (h : Nat) : Bool := d.eng.cycle % 16 / 2 == h % 8

/-- A pilot reading, one in each slot of its head, is completed and waits for the next input latch (R35, R140): errors in nrad as given, in counts
as held. A head that is not in ACQUIRE is not read, and no receiver reads without its slot 3 laser or its power (R210). Light whose
signature is not that of the comet expected at the head counts at least 20 dB less (R229): how much less is a free value. -/
def Dev.pilotReading (d : Dev) (h : Nat) (ex ey level : Int) (light : PilotLight) : Dev :=
  let count := fun (e : Int) => clampI (-32768) 32767 (divNear (e * 128) 1000)
  let expected := tfind d.opt.gates h == some light.comet
  let level := if expected then level else level - 200 - (Config.openNat d.fresh : Nat)
  let d := if expected then d else d.drawn 1
  let slot := d.eng.cycle / 2 + 1
  if !d.podLit (podOf (portOfHead h)) || !d.pilotSlot h || (d.head h).readSlot == slot || d.eng.pilots.any (fun r => r.1 == h) ||
      !(headAxes h).all (fun a => (d.axis a).state == .acquire) then d
  else
    let d := d.modHead h (fun x => { x with readSlot := slot })
    { d with eng := { d.eng with
        pilots := d.eng.pilots ++ [(h, count ex, count ey, if light.loOk then clampI (-32768) 32767 level else -32768)]
        pilotPoison := if light.poison then d.eng.pilotPoison ++ [h] else d.eng.pilotPoison } }

/-- Whether no other end keeps a head from a search of its own: the two ends search alternately (R144). -/
def Dev.searchFree (d : Dev) (h : Nat) : Bool :=
  match d.cometOfHead h with
  | some c => !d.searching (c.otherHead h)
  | none => match d.reacquiring h with
    | some c => (pairHeads c.north c.south c.plane).all (fun x => !d.searching x)
    | none => true

/-- What a latched reading does for the alignment of its head (R141, R144): counts of 2⁻⁷ µrad, level in 0.1 dB. A search that the other
end's keeps waiting starts with the first reading after it that still asks for one. -/
def Dev.takeReading (d : Dev) (r : Nat × Int × Int × Int) : Dev :=
  let h := r.1
  if !(headAxes h).all (fun a => (d.axis a).state == .acquire) then d
  else
    let hd := d.head h
    let valid := decide (d.num 0x2C03 4 ≤ r.2.2.2)
    let tol := d.nat 0x2C03 1 * 128
    let near := valid && decide (r.2.1.natAbs * 1000 ≤ tol) && decide (r.2.2.1.natAbs * 1000 ≤ tol)
    let inside := valid && decide (r.2.1.natAbs ≤ 1536) && decide (r.2.2.1.natAbs ≤ 1536)
    let wants := hd.search.isNone && (!valid || (hd.firstRead && !inside))
    let d := d.modHead h (fun x =>
      { x with confirm := if near then min 255 (x.confirm + 1) else 0, firstRead := wants && !d.searchFree h })
    let d := if inside then d.stopSearch h else d
    match d.cometOfHead h with
    | some c =>
      let d := d.cometReading h c valid near
      let d := if wants && !d.searching (c.otherHead h) then
          (d.startSearch h 0 false).modComet c (fun x => { x with searching := true })
        else d
      if d.searching h || d.searching (c.otherHead h) then d else d.modComet c (fun x => { x with searching := false })
    | none =>
      match d.reacquiring h with
      | some c =>
        let done := (pairHeads c.north c.south c.plane).all (fun x => decide (d.nat 0x2C03 2 ≤ (d.head x).confirm))
        if done then d.reacquired c
        else if wants && (pairHeads c.north c.south c.plane).all (fun x => !d.searching x) then d.startSearch h 0 true
        else d
      | none => d

/-- The latched readings act on the alignment of their heads. -/
def Dev.takeReadings (d : Dev) : Dev := d.eng.latchedPilots.foldl Dev.takeReading d

/-- A spiral ends without a valid reading (R144): the other end searches; a comet whose two ends have searched in vain
faults, a reacquire searches on for the rest of its try. -/
def Dev.searchEnd (d : Dev) (h : Nat) : Dev :=
  match (d.head h).search with
  | none => d
  | some sr =>
    let d := d.endSearch h
    match d.cometOfHead h with
    | some c => if 0 < sr.k then d.faultComet c else d.startSearch (c.otherHead h) 1 false
    | none =>
      match d.reacquiring h with
      | some c =>
        let other := (pairHeads c.north c.south c.plane).find? (fun x => x != h)
        d.startSearch (other.getD h) (sr.k + 1) true
      | none => d

/-! ### Dither (R142) -/

/-- The dither of an axis in TRACK in a cycle, in 2⁻³² µrad. -/
def Dev.dither (d : Dev) (a cycle : Nat) : Int :=
  let amp := nradToFixed (d.num 0x2C03 5)
  let mine := decide (cycle / 4 % 2 = if portOfAxis a < 512 then 0 else 1)
  if !mine then 0
  else if a % 2 = 0 then (if cycle % 4 = 0 then amp else if cycle % 4 = 2 then -amp else 0)
  else (if cycle % 4 = 1 then amp else if cycle % 4 = 3 then -amp else 0)

/-- A four-cycle group ends: the tap-power gradient corrects OPT_CORR, and the references of the group are kept (R142,
R145). A group of a circuit without light is discarded. -/
def Dev.ditherGroup (d : Dev) (h : Nat) : Dev :=
  let hd := d.head h
  let track := (headAxes h).all (fun a => (d.axis a).state == .track)
  let lit := d.circuits.any (fun c => (c.state == .live || c.state == .degraded) && c.plane == h % 2 && c.hasPort (h / 2))
  match hd.taps with
  | [p0, p1, p2, p3] =>
    let d := d.modHead h (fun x => { x with taps := [] })
    if !track || !lit then d
    else
      let g := d.num 0x2C03 6
      let amp := d.nat 0x2C03 5
      let cor := fun (dp : Int) => divNear (g * dp * 2 ^ 32) (200 * amp)
      let d := d.modAxis (axisOf h 0) (fun x => { x with optCorr := x.optCorr + cor (p0 - p2) })
      let d := d.modAxis (axisOf h 1) (fun x => { x with optCorr := x.optCorr + cor (p1 - p3) })
      d.modHead h (fun x =>
        { x with good := some ((d.axis (axisOf h 0)).ref + (d.axis (axisOf h 0)).optCorr,
                               (d.axis (axisOf h 1)).ref + (d.axis (axisOf h 1)).optCorr) })
  | _ => d.modHead h (fun x => { x with taps := [] })

/-! ### An axis that faults (R138, R146) -/

/-- An axis faults; a comet under way on its head faults with it. A READY or STAGED comet first loses its alignment and
keeps its state from Z − 200 µs on (Table 7.3). The other members of a gang without a comet stop (R138). -/
def Dev.axisFails (d : Dev) (a cause : Nat) : Dev :=
  let d' := d.faultAxis a cause
  let mates := ((d.axis a).motion.map (fun m => m.gang.filter (· != a))).getD []
  if (d.axis a).state == .fault || (d'.axis a).state != .fault then d'
  else
    match d'.cometOfHead (headOfAxis a) with
    | none => mates.foldl Dev.stopAxis d'
    | some c =>
      match c.state with
      | .slewing | .acquiring => d'.faultComet c
      | .ready | .staged => if d'.now < c.zenith - 200 * Config.us then (d'.alignmentLost c).faultComet c else d'
      | _ => d'

/-! ### The input latch (R128, R35) -/

/-- Whether the slice of a board runs: it alone exchanges frames with the board (R19, R24, Table 5.6). -/
def Dev.boardServed (d : Dev) (b : Nat) : Bool := d.eng.slices.getD (sliceOfBoard b) .off == .running

/-- The frame of a board is latched: positions and applied outputs of its axes, its faulty axes fault (R146). -/
def Dev.latchBoard (d : Dev) (b : Nat) (f : SFrame) : Dev :=
  let axes := boardAxes b
  let d := (axes.zip (f.pos.zip f.applied)).foldl (fun d e =>
    d.modAxis e.1 (fun x => { x with y := e.2.1, applied := e.2.2, latched := true, sensorFault := f.faulty.contains (localAxis e.1) })) d
  let d := f.faulty.foldl (fun d i => d.axisFails (boardAxis b i) 2) d
  let d := { d with eng := { d.eng with poisonedIn := d.eng.poisonedIn ++ f.poisoned.map (boardAxis b) } }
  f.poisoned.foldl (fun d i => d.axisFails (boardAxis b i) 3) d

/-- Every board's frame of the running cycle is latched by its slice; a board without one is counted (R129). -/
def Dev.latchBoards (d : Dev) : Dev :=
  let d := { d with eng := { d.eng with
      axes := d.eng.axes.map (fun (e : Nat × Axis) => (e.1, { e.2 with latched := false })), poisonedIn := [] } }
  ((d.eng.boards.filter (fun e => e.2.state != .absent && d.boardServed e.1)).map Prod.fst).foldl (fun d b =>
    match (d.board b).queued with
    | some f =>
      let d := d.modBoard b (fun x => { x with queued := none })
      if f.cycle = d.eng.cycle then (d.modBoard b (fun x => { x with missed := 0 })).latchBoard b f
      else (d.modBoard b (fun x => { x with missed := x.missed + 1 })).bump (0x3D00 + b) 9
    | none => (d.modBoard b (fun x => { x with missed := x.missed + 1 })).bump (0x3D00 + b) 9) d

/-- A head consumes a poisoned input word: both its axes fault (R146, R311). -/
def Dev.headPoison (d : Dev) (h : Nat) : Dev :=
  (headAxes h).foldl (fun d a => d.axisFails a 3) { d with eng := { d.eng with poisonedIn := d.eng.poisonedIn ++ headAxes h } }

/-- The pilot readings completed are latched: a valid one adds OPT_GAIN_ACQ × (ex, ey) to OPT_CORR (R140). -/
def Dev.latchPilots (d : Dev) : Dev :=
  let g := d.num 0x2C03 3
  let add := fun (d : Dev) (a : Nat) (e : Int) =>
    if (d.axis a).state == .acquire then d.modAxis a (fun x => { x with optCorr := x.optCorr + g * e * 512 }) else d
  let valid := d.eng.pilots.filter (fun r => decide (d.num 0x2C03 4 ≤ r.2.2.2) && !d.eng.pilotPoison.contains r.1)
  let d' := valid.foldl (fun d r => add (add d (axisOf r.1 0) r.2.1) (axisOf r.1 1) r.2.2.1) d
  let d' := d.eng.pilotPoison.foldl Dev.headPoison d'
  { d' with eng := { d'.eng with pilots := [], latchedPilots := d.eng.pilots, pilotPoison := [] } }

/-- The tap powers latched at the cycle start join the dither groups of the heads in TRACK (R142, R162). -/
def Dev.latchTaps (d : Dev) : Dev :=
  let n := d.eng.cycle
  (d.eng.heads.map Prod.fst).foldl (fun d h =>
    let mine := decide (n / 4 % 2 = if portOfHead h < 512 then 0 else 1)
    if mine && (d.axis (axisOf h 0)).state == .track && d.eng.tapPoison.contains (portOfHead h) then d.headPoison h
    else if mine && (d.axis (axisOf h 0)).state == .track then
      let b := d.bank (portOfHead h)
      let p := if h % 2 = 0 then b.tapA else b.tapB
      d.modHead h (fun x => { x with taps := if b.tapGone then [] else if n % 4 = 0 then [p] else if x.taps.length = n % 4 then x.taps ++ [p] else [] })
    else d) d

/-! ### One axis in one cycle (R133, R146) -/

/-- The reference of an axis in a cycle with twice the velocity and the acceleration (R133, R137, R142, R144): never beyond
TRAVEL_LIMIT (R126). -/
def Dev.reference (d : Dev) (a : Nat) : Int × Int × Int :=
  let x := d.axis a
  let m := match x.motion with
    | some m => m.at_ (d.eng.cycle - m.from_)
    | none => (x.ref, 0, 0)
  let s := match x.state with
    | .acquire => d.spiralAt a
    | _ => 0
  let di := if x.state == .track then d.dither a d.eng.cycle else 0
  let lim := d.travelLimit a
  (clampI (-lim) lim (m.1 + x.optCorr + di + s), m.2.1, m.2.2)

/-- The limit of the following error in a state, in 2⁻³² µrad, and its count (R146). -/
def Dev.feLimit (d : Dev) (x : AState) : Int × Nat :=
  if x == .slew then (nradToFixed (d.num 0x2C04 2), 200) else (nradToFixed (d.num 0x2C04 1), 40)

/-- The following-error count of an axis after a cycle, and its fault. -/
def Dev.followError (d : Dev) (a : Nat) (err : Int) : Dev :=
  let lim := d.feLimit (d.axis a).state
  let n := if lim.1 < (err.natAbs : Int) then (d.axis a).feCount + 1 else 0
  let d := d.modAxis a (fun x => { x with feCount := n })
  if lim.2 ≤ n then d.axisFails a 1 else d

/-- The relay of a tune (R147): its side, its output, and the error recorded. While e has not left ±ε yet the relay is on its upper side,
and TUNE_RELAY counts as its whole multiples of 200 µV (DESIGN CHOICE, log 72: R147 does not say). -/
def Dev.tuneCycle (d : Dev) (a : Nat) (e : Int) : Dev :=
  match d.eng.tunes.find? (fun t => t.axis == a) with
  | none => d
  | some t =>
    let eps := nradToFixed (d.num 0x2C05 2)
    let side := if eps < e then true else if e < -eps then false else t.side
    let h := d.num 0x2C05 1 / 200
    let out := clampI (-(d.outLimit a)) (d.outLimit a) (if side then t.u0 + h else t.u0 - h)
    let upd := fun (x : Tune) => if x.axis == a then { x with side := side, samples := x.samples ++ [e] } else x
    let d := { d with eng := { d.eng with tunes := d.eng.tunes.map upd } }
    d.modAxis a (fun x => { x with output := out })

/-- One cycle of a closed-loop axis whose computation completed: output and stages, or a fault (R133, R146). The first output after
adoption stays within 2 counts of APPLIED (R150). -/
def Dev.axisCycle (d : Dev) (a : Nat) : Dev :=
  let x := d.axis a
  let rf := d.reference a
  let r := rf.1
  let err := r - countToFixed x.y
  let d := d.modAxis a (fun s => { s with misses := 0, missFlag := false, rLast := r })
  if x.poisonedSets.contains x.set then ({ d with eng := { d.eng with poisonedIn := d.eng.poisonedIn ++ [a] } }).axisFails a 3
  else
    let d :=
      if x.state == .autotune then d.tuneCycle a err
      else
        let law := controlLaw (d.coefSet a x.set) x.stages (ofFixed r) (ofCount x.y) (ofHalf rf.2.1) (ofFixed rf.2.2)
          x.output (d.outLimit a)
        let out := if x.seeded then clampI (x.applied - 2) (x.applied + 2) law.output else law.output
        d.modAxis a (fun s =>
          { s with
            stages := law.stages, output := out, seeded := false, intClamp := law.intClamp, outSat := law.outSat
            sat := law.sat, check := stageChecks law.words })
    d.followError a err

/-- The comets that move or hold an axis of a slice are aborted as the slice loses its power; a READY or STAGED one first
loses its alignment and keeps its state from Z − 200 µs on (Table 7.3). -/
def Dev.dropSliceComets (d : Dev) (c : Nat) : Dev :=
  let uses := fun (x : Comet) => (pairAxes x.north x.south x.plane).any (fun a => sliceOfAxis a = c)
  (d.arr.comets.filter uses).foldl (fun d x =>
    match x.state with
    | .slewing | .acquiring => d.abortComet x
    | .ready | .staged => if d.now < x.zenith - 200 * Config.us then (d.alignmentLost x).abortComet x else d
    | _ => d) d

/-- A slice enters FAULT (R129): the comets on its axes end, so that every gang that loses a member stops (R138, R139). -/
def Dev.sliceFails (d : Dev) (c : Nat) : Dev :=
  if d.eng.slices.getD c .off == .running then (d.dropSliceComets c).faultSlice c else d

/-- A missed deadline (R129): KEEP, MISS_COUNT, and the slice's fault at the third in a row. -/
def Dev.missAxis (d : Dev) (a : Nat) : Dev :=
  let n := (d.axis a).misses + 1
  let c := sliceOfAxis a
  let d := (d.modAxis a (fun x => { x with misses := min 3 n, missFlag := true })).bump 0x2C01 (c + 1)
  if 3 ≤ n then d.sliceFails c else d

/-- The compute of one cycle over every axis of the running slices; the axes that are not KEEP at its end. -/
def Dev.computeAxes (d : Dev) (late : List Nat) : Dev × List Nat :=
  (d.eng.axes.map Prod.fst).foldl (fun (acc : Dev × List Nat) a =>
    let d := acc.1
    let x := d.axis a
    if d.eng.slices.getD (sliceOfAxis a) .off != .running || x.state == .open then acc
    else if late.contains a || !x.latched then (d.missAxis a, acc.2)
    else if x.state == .fault then (d.modAxis a (fun y => { y with misses := 0, missFlag := false }), acc.2)
    else
      let d := d.axisCycle a
      (d, if (d.axis a).state == .open || (d.axis a).state == .fault then acc.2 else acc.2 ++ [a])) (d, [])

/-- The command frames of a cycle (R148): the outputs of the axes that are not KEEP, HOLD frames to boards that are
adopted or drained (R149). The boards of a slice that is off or in FAULT get no frame and hold (R18, R28). -/
def Dev.sendBoards (d : Dev) (live : List Nat) : Dev :=
  if !d.holdsDrive || d.inState [.replay, .boot, .fault] then d
  else
    ((d.eng.boards.filter (fun e => e.2.state != .absent && e.2.state != .fault && d.boardServed e.1)).map Prod.fst).foldl (fun d b =>
      match (d.board b).state with
      | .adopting => d.sendBoard b true []
      | .drained => d.sendBoard b true []
      | _ => d.sendBoard b false ((live.filter (fun a => boardOfAxis a = b)).map (fun a => (localAxis a, (d.axis a).output)))) d

/-! ### Ends of motions -/

/-- The last cycle of a slew (R137, Table 5.6): the next leg of a split slew, or ACQUIRE with the pilot loop. The search of a head that a
reacquire has slewed begins when both its axes are there. -/
def Dev.trajectoryEnd (d : Dev) (a : Nat) : Dev :=
  match (d.axis a).motion with
  | none => d
  | some m =>
    match m.target with
    | none => d
    | some t =>
      let d := d.reach ((m.from_ + m.length) * Config.cycle)
      let d := d.modAxis a (fun x => { x with ref := t, motion := none })
      match d.cometOfHead (headOfAxis a) with
      | none =>
        let d := d.enterAcquire a
        match (d.head (headOfAxis a)).search with
        | some sr =>
          if (headAxes (headOfAxis a)).all (fun x => (d.axis x).state == .acquire) then d.startSearch (headOfAxis a) sr.k sr.reacquire else d
        | none => d
      | some c =>
        let four := pairAxes c.north c.south c.plane
        let done := four.all (fun x => (d.axis x).motion.isNone)
        if c.waypoint && c.leg = 0 then
          if done then (d.modComet c (fun x => { x with leg := 1 })).launchGang (some c.id) c.moves else d
        else
          let d := d.enterAcquire a
          if done then
            ((d.modComet c (fun x => { x with state := .acquiring, okN := false, okS := false })).slewDone c.job c.entry).sendMonitors
              [c.north, southPort c.south]
          else d

/-- The last cycle of a stop (R139): HOLD_CLOSED where it stopped; a comet whose four axes rest is launched again (R150). -/
def Dev.stopEnd (d : Dev) (a : Nat) : Dev :=
  match (d.axis a).motion with
  | none => d
  | some m =>
    if m.target.isSome then d
    else
      let d := d.reach ((m.from_ + m.length) * Config.cycle)
      let d := (d.modAxis a (fun x => { x with ref := (m.at_ m.length).1, motion := none })).setAxis a .holdClosed
      match d.cometOfHead (headOfAxis a) with
      | some c =>
        if c.state == .slewing && (pairAxes c.north c.south c.plane).all (fun x => (d.axis x).state == .holdClosed) then
          d.modComet c (fun x => { x with state := .waiting, leg := 0 })
        else d
      | none => d

/-! ### Tunes (R147) -/

/-- The upward zero crossings of an error record, in cycles, by linear interpolation. -/
def upCrossings : Nat → List Int → List Fl
  | i, x :: y :: t =>
    if x < 0 && 0 ≤ y then
      ((Fl.ofInt i).add64 ((flOfFixed (-x)).div64 (flOfFixed (y - x)))) :: upCrossings (i + 1) (y :: t)
    else upCrossings (i + 1) (y :: t)
  | _, _ => []

/-- The samples at which an upward crossing is complete. -/
def upIndices : Nat → List Int → List Nat
  | i, x :: y :: t => if x < 0 && 0 ≤ y then (i + 1) :: upIndices (i + 1) (y :: t) else upIndices (i + 1) (y :: t)
  | _, _ => []

/-- What the last four periods of a tune give: Tu in cycles and a in µrad; none while too few periods have passed. -/
def tuneFigures (periods : Nat) (s : List Int) : Option (Fl × Fl) :=
  let ups := upCrossings 0 s
  let idx := upIndices 0 s
  if ups.length < periods + 1 then none
  else
    let k := ups.length - 5
    let span := (ups.getD (k + 4) .nan).sub64 (ups.getD k .nan)
    let part := fun (i : Nat) => slice' s (idx.getD (k + i) 0) (idx.getD (k + i + 1) 0)
    let tops := sumI ((upto 4).map (fun i => maxI 0 (part i)))
    let lows := sumI ((upto 4).map (fun i => maxI 0 ((part i).map (fun x => -x))))
    some (span.div64 (Fl.ofInt 4), (flOfFixed (tops + lows)).div64 (Fl.ofInt 8))
where
  /-- The samples from one index up to another. -/
  slice' (s : List Int) (a b : Nat) : List Int := (s.drop a).take (b - a)

/-- AUTOTUNE_RESULT (24 B). -/
def tuneResult (status axis tu amp ku now : Nat) : Bytes :=
  le 1 status ++ le 1 axis ++ [0, 0] ++ le 4 tu ++ le 4 amp ++ le 4 ku ++ le 8 now

/-- The set that a tune writes: KP, KI, KD, BP 0.6, CD 0, DALPHA, the rest copied from the set in use. -/
def tuneSet (old : Bytes) (kp ki kd dalpha : Fl) : Bytes :=
  ([ofFl kp, ofFl ki, ofFl kd, ofFl ((Fl.ofInt 6).div64 (Fl.ofInt 10)), ({} : Bfp), ofFl dalpha]).flatMap Bfp.bytes ++ slice old 24 56

/-- TUNE_TIMEOUT: no oscillation was completed in time. -/
def Dev.tuneTimeout (d : Dev) (a : Nat) : Dev :=
  match d.eng.tunes.find? (fun t => t.axis == a) with
  | none => d
  | some t =>
    let d := d.closes (t.began + d.nat 0x2C05 4 * Config.ms)
    (d.endTune a (tuneResult 3 (a % 2) 0 0 0 d.now)).setAxis a .holdClosed

/-- A tune has its periods, within TUNE_TIMEOUT: evaluated, written to set 3 if valid; the axis is OPEN for one cycle and then closes by
cold adoption (R147). One that has them later has timed out. -/
def Dev.autotuneEnd (d : Dev) (a : Nat) : Dev :=
  match d.eng.tunes.find? (fun t => t.axis == a) with
  | none => d
  | some t =>
    match tuneFigures (d.nat 0x2C05 3) t.samples with
    | none => d
    | some (tu, amp) =>
      if t.began + d.nat 0x2C05 4 * Config.ms < d.now then d.tuneTimeout a else
      let ns := ((tu.mul64 (Fl.ofInt 50000)).nearest 0).toNat
      let nrad := ((amp.mul64 (Fl.ofInt 1000)).nearest 0).toNat
      let h := (Fl.ofInt (d.num 0x2C05 1)).div64 (Fl.ofInt 1000000)
      let eps := (Fl.ofInt (d.num 0x2C05 2)).div64 (Fl.ofInt 1000)
      let ku := ((Fl.ofInt 4).mul64 h).div64 (pi64.mul64 (((amp.mul64 amp).sub64 (eps.mul64 eps)).sqrt64))
      let kuO := ((ku.mul64 (Fl.ofInt 1000000)).nearest 0).toNat
      let bad := if tu.lt (Fl.ofInt 4) || (Fl.ofInt 400).lt tu then 4
        else if amp.lt ((Fl.ofInt 2).div64 (Fl.ofInt 10)) || (Fl.ofInt 20).lt amp then 5 else 0
      if bad != 0 then
        (d.endTune a (tuneResult bad (a % 2) ns nrad kuO d.now)).setAxis a .holdClosed
      else
        let kp := ((Fl.ofInt 35).div64 (Fl.ofInt 100)).mul64 ku
        let ti := ((Fl.ofInt 8).div64 (Fl.ofInt 10)).mul64 tu
        let td := ((Fl.ofInt 12).div64 (Fl.ofInt 100)).mul64 tu
        let one := Fl.ofInt 1
        let ki := kp.div64 ti
        let kd := kp.mul64 td
        let da := one.div64 (one.add64 (td.div64 (Fl.ofInt 8)))
        let set := tuneSet (d.coefSet a (d.axis a).set) kp ki kd da
        let d := d.endTune a (tuneResult 2 (a % 2) ns nrad kuO d.now)
        let d := { d with eng := { d.eng with sets := tset d.eng.sets (setKey a 3) set } }
        let d := d.modAxis a (fun x => { x with poisonedSets := x.poisonedSets.filter (· != 3) })
        (d.setAxis a .open).modAxis a (fun x => { x with closeAt := some (d.eng.cycle + 1) })

/-- A tune of an axis starts (R147). -/
def Dev.startTune (d : Dev) (a : Nat) : Dev :=
  let t : Tune := { axis := a, began := d.now, u0 := (d.axis a).output }
  let d := { d with eng := { d.eng with tunes := d.eng.tunes ++ [t] } }
  (d.setOct (0x3000 + headOfAxis a) 0x1D (tuneResult 1 (a % 2) 0 0 0 0)).setAxis a .autotune

/-- Whether an axis may be opened or tuned (R136, R147). -/
def Dev.mayOpen (d : Dev) (h : Nat) (axes : List Nat) : Bool :=
  d.inState [.maintenance] && !d.headUsed h && axes.all (fun a => (d.axis a).state == .holdClosed)

/-- OPEN_REQUEST opens axes by command (R136). -/
def Dev.openByCommand (d : Dev) (axes : List Nat) : Dev :=
  let t := d.now + d.nat 0x2C06 1 * Config.ms
  axes.foldl (fun d a => (d.setAxis a .open).modAxis a (fun x => { x with byCommand := true, openUntil := some t, motion := none })) d

/-- The axes of a head that are open by command and that a condition selects close by cold adoption (R136, R150). -/
def Dev.closeWhere (d : Dev) (h : Nat) (sel : Axis → Bool) : Dev :=
  (headAxes h).foldl (fun d a => if (d.axis a).byCommand && sel (d.axis a) then d.coldSeedAxis a .holdClosed else d) d

/-- OPEN_REQUEST is released: what is open by command on the head closes (R136). -/
def Dev.closeOpen (d : Dev) (h : Nat) : Dev := d.closeWhere h (fun _ => true)

/-- The first instant at which OPEN_HOLD_LIMIT closes an axis of a head. -/
def Dev.openLimit (d : Dev) (h : Nat) : Option Nat := ((headAxes h).filterMap (fun a => (d.axis a).openUntil)).min?

/-- The axes that a tune has opened close again, one cycle later (R147). -/
def Dev.closeTuned (d : Dev) : Dev :=
  (d.eng.axes.map Prod.fst).foldl (fun d a =>
    match (d.axis a).closeAt with
    | some n => if n ≤ d.eng.cycle then d.coldSeedAxis a .holdClosed else d
    | none => d) d

/-! ### Boards (R148 to R151, R258) -/

/-- A board is drained: its axes OPEN, HOLD frames (R151). -/
def Dev.drainBoard (d : Dev) (b : Nat) : Dev :=
  let d := d.openAxes (fun a => boardOfAxis a = b)
  let d := (d.setBoard b .drained).modBoard b (fun x => { x with discovered := false })
  d.sendBoard b true []

/-- Whether a board carries a circuit, or a RUNNING job's almanac commits one on it (R151). -/
def Dev.boardBusy (d : Dev) (b : Nat) : Bool :=
  d.circuits.any (fun c => (pairHeads c.north c.south c.plane).any (fun h => boardOfHead h = b)) ||
  (upto 16).any (fun j =>
    (d.job j).state == .running &&
    (variantEntries (d.almanac j) (d.run j).variant).any (fun e =>
      (centries (d.slot (d.commitSlot j e))).any (fun c => c.starts && needsBoard [b] c)))

/-- A board's axes are adopted, warm where the twin's record holds them and cold otherwise, and the board is in service
(R150). -/
def Dev.adoptBoard (d : Dev) (b : Nat) (warm : Nat → Option Axis) : Dev :=
  let d := (boardAxes b).foldl (fun d a =>
    if d.eng.slices.getD (sliceOfAxis a) .off == .running && !(d.axis a).byCommand then
      match warm a with
      | some w => d.adoptWarm a w
      | none => d.adoptCold a
    else d) d
  d.setBoard b .inService

/-- Whether a board accepts a frame of a twin: it names the one twin whose DRIVE_GRANT it sees (R148, R343). -/
def Dev.boardTakes (d : Dev) (b board twin : Nat) (crcOk : Bool) : Bool :=
  crcOk && board = b && !(d.holdsDrive && d.twin.lineDrive) &&
    ((d.holdsDrive && twin = d.twinId) || (d.twin.lineDrive && twin = 1 - d.twinId))

end Sys2Proof.Machine
end

