-- ==== Sys2Proof/Machine/Grants.lean ====
section
/-!
DEFINITION. Roles and grants (R341 to R346, R354, R356, R361): what dropping and taking a grant does, joining the twin,
and the copies of store items (R353).
-/

namespace Sys2Proof.Machine
open Sys2Proof

/-- The twin machine changes. -/
def Dev.modTwin (d : Dev) (f : Twin → Twin) : Dev := { d with twin := f d.twin }

/-- Whether the twins are joined (R345). -/
def Dev.joined (d : Dev) : Bool := d.disc.twinJoin == 1 && (d.link 38).isUp

/-- SYNC_CAUSE. -/
def Dev.syncCause (d : Dev) (c : Nat) : Dev := d.setNum 0x2500 8 c

/-! ### Service ports at the holder of COLL_GRANT (R222, R224) -/

/-- The lanes of the circuit in force at a service port's south port. -/
def Dev.serviceLanes (d : Dev) (n : Nat) : Nat :=
  ((d.circuits.find? (fun c => c.inForce && c.south == 480 + n)).map (·.lanes)).getD 0

/-- A service port opens on the lanes of its circuit, once the service selector points at this twin (R22, R224). -/
def Dev.openService (d : Dev) (n : Nat) (fast : Bool) : Dev :=
  let m := d.serviceLanes n
  if m = 0 || !d.isC || !d.holdsColl || d.twin.selector != d.twinId then d
  else (d.modLink n (fun x => { x with mask := m })).enableLink n fast

/-- A lane of a service port passes from the OLD context to the NEW one at its graded step, also one that OLD did not use, and hunts
there (R224). -/
def Dev.moveSvcLane (d : Dev) (n lanes k : Nat) : Dev :=
  let x := d.lane n k
  let d := d.modLink n (fun y => { y with mask := setBit y.mask k false, active := setBit y.active k false })
  let d := (d.modLane n k Lane.shut).refreshLink n
  if !lanes.testBit k then d
  else
    let d := (d.modLink (64 + n) (fun y => { y with mask := setBit y.mask k true })).modLane (64 + n) k (fun _ => x.shut)
    d.huntLane (64 + n) k

/-- The OLD context of a graded move closes at step 7, and the NEW one is the port's (R224). -/
def Dev.endSvcMove (d : Dev) (n : Nat) : Dev :=
  let d := d.closeContext n
  let y := d.link (64 + n)
  let d := d.modLink n (fun x => { y with lanes := x.lanes.foldl (fun t e => if y.mask.testBit e.1 then t else tset t e.1 e.2) y.lanes })
  ({ d with opt := { d.opt with links := tdel d.opt.links (64 + n) } }).huntLink n

/-- The circuits in force that end at a service port, of a list. -/
def svcCircuits (l : List Circuit) (n : Nat) : List Circuit := l.filter (fun c => c.inForce && c.south == 480 + n)

/-- The service ports follow a change of the circuits (R224): a clean move opens a new context in fast retrain, a release
closes the old one, a graded move opens a second context, a change of mask changes the width only. -/
def Dev.retrainService (d : Dev) (old : List Circuit) (n : Nat) : Dev :=
  if !d.isC || !d.holdsColl then d
  else match svcCircuits old n, svcCircuits d.circuits n with
    | [], [] => d
    | [], _ => d.openService n true
    | _, [] => d.disableService n
    | a :: _, [b] =>
      if a.north = b.north && a.plane = b.plane then
        if a.lanes = b.lanes then d
        else
          let d := (bitsOf 8 (maskOut a.lanes b.lanes)).foldl (fun d k => d.modLane n k Lane.shut) d
          let d := (d.modLink n (fun x => { x with mask := b.lanes, active := x.active &&& b.lanes })).refreshLink n
          d.huntLink n
      else (d.disableService n).openService n true
    | a :: _, b =>
      match b.find? (fun c => !(c.north == a.north && c.plane == a.plane)) with
      | none => d
      | some c =>
        let d := (d.moveSvcLane n c.lanes 0).newAttempt (64 + n)
        d.modLink (64 + n) (fun x => { x with fast := true })

/-- Every service port follows a change of the circuits. -/
def Dev.retrainServices (d : Dev) (old : List Circuit) : Dev := (upto 32).foldl (fun d n => d.retrainService old n) d

/-! ### Dropping a grant -/

/-- A commit record without the entry that was in flight. -/
def Commit.idle (c : Commit) : Commit := { lastOutcome := c.lastOutcome, lastZ := c.lastZ, lastFlip := c.lastFlip, lastSlot := c.lastSlot }

/-- DRIVE_GRANT is dropped: every axis OPEN, no comet, round, recovery or unfixed strobe of this module goes on, and the
permits of the role end (R342, R374, Table 13.6). -/
def Dev.dropDrive (d : Dev) (hold : Bool) (r : TRole) : Dev :=
  if d.twin.ownDrive then
    let d := (if hold then d.holdBoards else d).freeze true
    let d := (d.modTwin (fun t =>
      { t with ownDrive := false, wantDrive := false, drive := r, handover := if t.handover = 2 then 4 else t.handover
               takenAt := none })).emit (.grant false false)
    let d := d.openAll
    let d := (d.eng.heads.map Prod.fst).foldl Dev.gateClose d
    let d := d.cancelStrobes (fun _ => true)
    let d := d.endCircuits (fun c => !c.inForce)
    let d := { d with
      arr := { d.arr with
        comets := [], detours := [], watches := [], groups := []
        commits := d.arr.commits.map (fun (e : Nat × Commit) => (e.1, if e.2.state == CommitState.flipping then e.2 else e.2.idle)) }
      rings := { d.rings with
        rounds := [], due := false
        ports := d.rings.ports.map (fun (e : Nat × Bankport) => (e.1, { e.2 with calOut := 0 })) }
      faults := { d.faults with recoveries := [], releases := [], stalls := [] }
      power := { d.power with
        grants := d.power.grants.filter (fun g => !(g.cls == 1 || g.cls == 2))
        deferred := d.power.deferred.filter (fun g => !(g.cls == 1 || g.cls == 2)) }
      disc := { d.disc with ports := d.disc.ports.map (fun (e : Nat × Port) =>
        (e.1, { e.2 with queue := [], awaiting := none, repeats := [] })) } }
    d.topologyChanged
  else d.modTwin (fun t => { t with wantDrive := false })

/-- The service selector follows the counted COLL_GRANT lines (R22, R343): it moves to the twin that alone asserts, and keeps its position
while both or neither do. -/
def Dev.aimSelector (d : Dev) : Dev :=
  d.modTwin (fun t =>
    let want := if t.ownColl && !t.lineColl then some d.twinId else if !t.ownColl && t.lineColl then some (1 - d.twinId) else none
    { t with moving := if want = some t.selector then none else want })

/-- COLL_GRANT is dropped: the service ports close, the engine stops, its jobs are PLANNED (R262, R342, R361). -/
def Dev.dropColl (d : Dev) (r : TRole) : Dev :=
  if d.twin.ownColl then
    let d := (d.modTwin (fun t => { t with ownColl := false, wantColl := false, coll := r, collHandover := false })).emit (.grant true false)
    let d := (upto 32).foldl Dev.disableService d.aimSelector
    let d := (upto 16).foldl Dev.enginePlanned d
    { d with
      coll := { d.coll with state := if d.coll.state == .fault then .fault else .off, queues := [] }
      twin := { d.twin with mirrors := d.twin.mirrors.map (fun (e : Nat × Mirror) =>
        (e.1, { e.2 with state := if e.2.state = 1 then 1 else 0, due := [] })) }
      power := { d.power with
        grants := d.power.grants.filter (fun g => g.cls != 3), deferred := d.power.deferred.filter (fun g => g.cls != 3) } }
  else d.modTwin (fun t => { t with wantColl := false })

/-- The roles that follow the twin end: NONE from SYNCING or STANDBY (Table 13.6). -/
def Dev.leaveRoles (d : Dev) : Dev :=
  d.modTwin (fun t =>
    { t with drive := if t.drive == .active then .active else .none, coll := if t.coll == .active then .active else .none
             intake := none, good := 0, missing := 0, differ := 0, wantDrive := false, wantColl := false })

/-- PD0 drops both grants (R342). -/
def Dev.dropGrants (d : Dev) (hold : Bool) : Dev := ((d.dropDrive hold .none).dropColl .none).leaveRoles

/-- The Director enters FAULT, from any state but BOOT (Table 2.12): a command in progress ends with
CMD_RESULT 2, its entries are disarmed and both grants drop. -/
def Dev.enterFault (d : Dev) (c : Cause) : Dev :=
  if d.inState [.boot, .fault] then d
  else
    let d := if d.dir.inProgress.isSome then { d with dir := { d.dir with inProgress := none, cmdResult := 2 } } else d
    (((d.setState .fault c).disarmEntries).dropGrants true).announce

/-! ### Taking DRIVE_GRANT (R356) -/

/-- An entry that was in flight at the switch-over: staged and armed again before its cancel limit, otherwise applied by a
catch-up strobe at Z + 50 µs or Z + 100 µs, the first that is at least 60 µs away. -/
def Dev.takeEntry (d : Dev) (j : Nat) : Dev :=
  let c := d.commit j
  let es := centries (d.slot c.slot)
  let bare := es.any (·.starts) && (d.jobComets j).isEmpty
  match c.state with
  | .presteer => d.modCommit j (fun x => { x with voted := none, stages := [], bare := bare })
  | .voted => d.modCommit j (fun x => { x with voted := some true, stages := [], bare := bare })
  | .go | .acked | .confirmed =>
    let d := (d.modCommit j (fun x => { x with stages := [] })).reserve j
    let d := (d.commit j).stages.foldl (fun d s => d.stageWrites s.tag (d.stepWrites j es s.step)) d
    let d := d.modCommit j (fun x => { x with ended := d.endedBy j es, armed := true })
    if d.now < c.firstLimit then
      let r := d.armAll j (d.commit j).stages
      r.1.modCommit j (fun x => { x with armed := r.2 })
    else (d.commit j).stages.foldl (fun d s =>
      let at_ := if d.now + 60 * Config.us ≤ s.z + 50 * Config.us then s.z + 50 * Config.us else s.z + 100 * Config.us
      if d.now + 60 * Config.us ≤ at_ then d.armFixed { z := at_, pods := s.pods, tag := s.tag, kind := 3, job := j } else d) d
  | .flipping => d
  | _ => if (d.job j).state == .running then d.placeNext j (d.now + 10 * Config.ms) else d

/-- Fresh events from the states of the circuits (R333). -/
def Dev.freshEvents (d : Dev) : Dev :=
  d.circuits.foldl (fun d c =>
    if c.state == .lost then d.raise 0x0302 2 2 c.north true [BitVec.ofNat 8 c.lanes]
    else if c.state == .degraded && (c.lostN ||| c.lostS) != 0 then d.raise 0x0301 1 2 c.north true [BitVec.ofNat 8 (c.lostN ||| c.lostS)]
    else d) d

/-- A comet that has not flipped begins again from rest. -/
def Comet.again (c : Comet) : Comet :=
  if c.active && c.state != .staged then { c with state := .waiting, leg := 0, searching := false, okN := false, okS := false } else c

/-- The boards are held and adopted by the new holder (R150, R356). -/
def Dev.holdForAdoption (d : Dev) : Dev :=
  { d with eng := { d.eng with boards := d.eng.boards.map (fun (e : Nat × Board) =>
      (e.1, match e.2.state with
        | .inService | .holding | .adopting => { e.2 with state := .adopting, holdFrames := 0 }
        | _ => e.2)) } }

/-- What a module does that takes DRIVE_GRANT (R356). -/
def Dev.takeDrive (d : Dev) : Dev :=
  let unplanned := (d.twin.drive == .standby || d.twin.drive == .syncing) && d.twin.handoverCycle = 0
  let d := d.modTwin (fun t =>
    { t with drive := .active, wantDrive := false, takenAt := some d.now, assertedAt := d.now, handoverCycle := 0
             swapDue := if d.nat 0x2510 1 = 0 then 0 else d.now + d.nat 0x2510 1 * 3600 * Config.sec, swapWaiting := none })
  let d := if unplanned then d.bump 0x2510 5 else d
  let d := (d.endCircuits (fun c => !c.inForce)).holdForAdoption
  let d := { d with
    arr := { d.arr with comets := d.arr.comets.map Comet.again }
    faults := { d.faults with recoveries := [], latched := d.faults.latched.filter (fun x => x.scope != 2) } }
  let d := (d.fireEpoch 0).topologyChanged
  let d := if d.isRootNow then
      { d with arr := { d.arr with epoch := max d.arr.epoch d.arr.seenEpoch + 1, leaderSince := d.now, groups := [] } }
    else d
  let d := (upto 16).foldl Dev.takeEntry d
  ((d.freshEvents).refreshAllProbing).revoteAll

/-! ### Taking COLL_GRANT (R361, R363) -/

/-- An epoch of a bank becomes the optimizer state of its job: from bank 1 the words are copied to the plan's regions
(R362). -/
def restoreBank (m : Dev × Hbm) (j b : Nat) : Dev × Hbm :=
  let p := m.1.plan j
  let e := (m.1.mirror j).bank b
  let m := if b = 0 then m else (epochRegions p).foldl (fun m k =>
    (upto (ceilTo 64 (regionElem k * planN p) / 64)).foldl (fun m i =>
      let r := readWord m (m.1.bankAddr j 1 k + 64 * i)
      writeWord r.1 ((planRegion p k).1 + 64 * i) r.2.1 r.2.2) m) m
  (((m.1.release 3 (96 + j)).modEngJob j (fun x => { x with state := .ready, updated := e.1, count := e.2.1, lr := e.2.2 })).modMirror j
    (fun x => { x with restore := 2, restoreStep := e.1 }), m.2)

/-- Whether a job is RUNNING or RESTARTING. -/
def Dev.jobUp (d : Dev) (j : Nat) : Bool := d.jobIn j [.running, .restarting]

/-- What a module does that takes COLL_GRANT: PD11 at fault priority, the selector, and the jobs of the old holder: each
running job with a plan restarts (event 0x0704); with none running it is the end of a hand-over, and every job takes back
its newest epoch (R361, R363; DEDUCED, log 31). -/
def takeColl (m : Dev × Hbm) : Dev × Hbm :=
  let d := m.1
  let took := d.twin.coll == .standby || d.twin.coll == .syncing
  let jobs := (upto 16).filter (fun j => !(d.plan j).isEmpty)
  let running := jobs.any d.jobUp
  let d := ((d.endPermits 5 (fun _ => true)).modTwin (fun t =>
    { t with coll := .active, wantColl := false, collAssertedAt := d.now, healthRun := false })).aimSelector.emit (.selector d.twinId)
  let d := if took && running then d.bump 0x2510 5 else d
  let d := d.switchOn 11 .fault
  let d := if d.isOn 11 then { d with coll := { d.coll with state := .selftest } } else d
  let d := (upto 32).foldl (fun d n => d.openService n true) d
  let d := if took then jobs.foldl Dev.enginePlanned d else d
  if !took then (d, m.2)
  else if running then
    ((jobs.filter (fun j => (d.shardOf j).isSome)).foldl (fun d j => d.raise 0x0704 4 1 j true) d, m.2)
  else jobs.foldl (fun m j =>
    let x := m.1.mirror j
    let b := 1 - x.older
    if (x.bank b).1 = 0 then m else restoreBank m j b) (d, m.2)

/-! ### Who may assert, and when (R342, R346, R437) -/

/-- The guard of an assertion: 2 µs for twin 0, 4 µs for twin 1. -/
def Dev.grantGuard (d : Dev) : Nat := if d.twinId = 0 then 2 * Config.us else 4 * Config.us

/-- Whether PD0 may assert a grant. -/
def Dev.mayAssert (d : Dev) (coll : Bool) : Bool :=
  !d.inState [.boot, .replay, .fault] && !(d.twin.present && d.twin.id == d.twinId) &&
    (if coll then !d.twin.lineColl && d.isC && d.coll.state != .fault else !d.twin.lineDrive)

/-- The store of this module is stale: in its own stale set or in its twin's word (R353). -/
def Dev.storeStale (d : Dev) : Bool := d.twin.stale || !d.twin.staleSet.isEmpty

/-- A role is claimed at the end of SELFTEST, or its place is taken beside the twin that holds it (R346). -/
def Dev.claim (d : Dev) : Dev :=
  let free := d.twinId = 0 || d.twin.selfTestSeen = 0 || d.twin.selfTestSeen + 5 * Config.sec < d.now
  d.modTwin (fun t =>
    { t with
      wantDrive := free && !t.lineDrive
      wantColl := free && !t.lineColl && d.isC
      drive := if d.joined && !(free && !t.lineDrive) then .syncing else t.drive
      coll := if d.joined && d.isC && !(free && !t.lineColl) then .syncing else t.coll })

/-! ### Joining (R345, Table 13.6) -/

/-- Intake of records begins. -/
def Twin.syncDrive (t : Twin) : Twin :=
  { t with drive := .syncing, intake := none, good := 0, missing := 0, differ := 0, fullPass := false, refreshed := [], items := [] }

/-! ### Store copies (R353, Table 13.5) -/

/-- The key of a store item. -/
def storeKey (item index : Nat) : Nat := item * 2 ^ 32 + index

/-- The shared settings of item 9: index and subindex. -/
def sharedSettings : List (Nat × Nat) :=
  (dictionary.filter (fun r =>
    (r.access == .rw || r.access == .rwc) &&
      (r.base == 0x2310 || r.base == 0x2600 || r.base == 0x2900 || r.base == 0x2A00 || r.base == 0x2B00 || r.base == 0x2520 ||
        (0x2C00 ≤ r.base && r.base ≤ 0x2C08)))).flatMap (fun r => (upto r.subs).map (fun k => (r.base, r.sub + k)))

/-- The byte-string objects of an item of a part: index and subindex. -/
def storeOcts (item index : Nat) : List (Nat × Nat) :=
  match item with
  | 7 => [0x0B, 0x0C, 0x0D, 5].map (fun k => (0x3800 + index, k))
  | 8 => [(0x3C00 + index, 1), (0x3C00 + index, 7)]
  | _ => []

/-- The content of a store item; the layouts of items 3, 4 and 6 to 9 are the model's. -/
def Dev.storeBody (d : Dev) (item index : Nat) : Bytes :=
  match item with
  | 1 => d.slot index
  | 2 => d.almanac index
  | 3 => le 128 (d.job index).ports ++ le 4 (d.job index).tag ++ le 8 (d.job index).startOrbit ++ padTo 64 (d.oct (0x4800 + index) 3)
  | 4 => le 4 (d.engJob index).lr ++ le 8 (d.nat (0x2910 + index) 6) ++ le 1 (d.nat (0x2320 + index) 1) ++ d.plan index
  | 5 => d.oct 0x2940 1
  | 6 => leI 8 (d.num (0x3000 + index) 0x0D) ++ leI 8 (d.num (0x3000 + index) 0x18) ++ leI 8 (d.num (0x3000 + index) 0x19) ++
      (upto 8).flatMap (fun k => d.coefSet (axisOf index (k / 4)) (k % 4))
  | 9 => sharedSettings.flatMap (fun k => leI 8 (d.num k.1 k.2))
  | 12 => d.oct 0x2520 4
  | n => (storeOcts n index).flatMap (fun k => le 4 (d.oct k.1 k.2).length ++ d.oct k.1 k.2)

/-- The byte strings of an item, one after another. -/
def Dev.takeOcts (d : Dev) : List (Nat × Nat) → Bytes → Dev
  | [], _ => d
  | k :: t, b => (d.setOct k.1 k.2 (slice b 4 (fld b 0 4))).takeOcts t (b.drop (4 + fld b 0 4))

/-- The content of an item is taken over from the twin. -/
def Dev.storeTake (d : Dev) (item index : Nat) (b : Bytes) : Dev :=
  match item with
  | 1 => d.setOct (0x4400 + index) 1 b
  | 2 => d.setOct (0x4800 + index) 1 b
  | 3 =>
    (d.modJob index (fun x => { x with ports := fld b 0 128, tag := fld b 128 4, startOrbit := fld b 132 8 })).setOct (0x4800 + index) 3
      (slice b 140 64)
  | 4 =>
    let d := (d.setOct (0x2910 + index) 1 (b.drop 13)).setNum (0x2910 + index) 6 (fld b 4 8 : Nat)
    let d := (d.setNum (0x2320 + index) 1 (fld b 12 1 : Nat)).modEngJob index (fun x =>
      { x with lr := fld b 0 4, state := if (b.drop 13).isEmpty then .none else .planned })
    d.placeMirror index
  | 5 => d.setOct 0x2940 1 b
  | 6 =>
    let d := ((d.setNum (0x3000 + index) 0x0D (fldI b 0 8)).setNum (0x3000 + index) 0x18 (fldI b 8 8)).setNum (0x3000 + index) 0x19 (fldI b 16 8)
    (upto 8).foldl (fun d k =>
      { d with eng := { d.eng with sets := tset d.eng.sets (setKey (axisOf index (k / 4)) (k % 4)) (slice b (24 + 80 * k) 80) } }) d
  | 9 => (sharedSettings.zipIdx).foldl (fun d p => d.setNum p.1.1 p.1.2 (fldI b (8 * p.2) 8)) d
  | 12 => if fld b 9 1 = 0 then d.setOct 0x2520 4 b else (d.setOct 0x2520 4 b).raise 0x0704 1 0 0
  | n => d.takeOcts (storeOcts n index) b

/-- The 24-byte header of a STORE_COPY frame. -/
def storeHeader (item flags index version off total : Nat) : Bytes :=
  le 1 item ++ le 1 flags ++ [0, 0] ++ le 4 index ++ le 8 version ++ le 4 off ++ le 4 total

/-- An item leaves in frames of at most 9,192 bytes of data; FIRST, LAST and DELETE are flags 1, 2 and 4. -/
def Dev.sendItem (d : Dev) (item index version : Nat) (b : Bytes) : Dev :=
  if b.isEmpty then d.sendFrame 38 0x41 1 0xFFFF (storeHeader item 7 index version 0 0)
  else
    let n := (b.length + 9191) / 9192
    (upto n).foldl (fun d i =>
      d.sendFrame 38 0x41 1 0xFFFF
        (storeHeader item (b2n (i == 0) + 2 * b2n (i + 1 == n)) index version (9192 * i) b.length ++ slice b (9192 * i) 9192)) d

/-- A written store item is copied to the twin, and its confirmation awaited (R88, R353). -/
def Dev.copyItem (d : Dev) (item index : Nat) : Dev :=
  let k := storeKey item index
  let v := tget 0 d.twin.versions k + 1
  let d := d.modTwin (fun t => { t with versions := tset t.versions k v })
  if d.joined then
    (d.modTwin (fun t => { t with unconfirmed := tset t.unconfirmed k d.now })).sendItem item index v (d.storeBody item index)
  else d

/-- Whether a confirmation of an item is awaited. DESIGN CHOICE (log 63): with no twin in STANDBY or SYNCING nothing was sent,
R88 names no one who could confirm, and the response leaves at once. -/
def Dev.awaitsCopy (d : Dev) (item index : Nat) : Bool :=
  (tfind d.twin.unconfirmed (storeKey item index)).isSome

/-- STORE_STALE and STALE_ITEMS, with the standby's return to SYNCING (Table 13.6). -/
def Dev.refreshStale (d : Dev) : Dev :=
  let d := (d.setFlag 0x2502 1 d.storeStale).setNum 0x2502 2 (d.twin.staleSet.length : Nat)
  if d.storeStale && d.twin.drive == .standby then (d.modTwin Twin.syncDrive).syncCause 2 else d

/-- Every item with a version, summarised: ITEM, INDEX, VERSION and 8 bytes of its SHA-384. -/
def Dev.summary (d : Dev) : Bytes :=
  d.twin.versions.flatMap (fun e =>
    le 1 (e.1 / 2 ^ 32) ++ zeros 3 ++ le 4 (e.1 % 2 ^ 32) ++ le 8 e.2 ++
      (sha384 (d.storeBody (e.1 / 2 ^ 32) (e.1 % 2 ^ 32))).take 8)

/-- The twin's confirmation of a version arrives: the item leaves the unconfirmed and the stale ones. -/
def Dev.confirmed (d : Dev) (item index version : Nat) : Dev :=
  let k := storeKey item index
  if tget 0 d.twin.versions k = version then
    (d.modTwin (fun t => { t with unconfirmed := tdel t.unconfirmed k, staleSet := t.staleSet.filter (· != k) })).refreshStale
  else d

/-- A complete item from the twin: taken where it is newer, and confirmed. -/
def Dev.itemArrived (d : Dev) (item index version : Nat) (b : Bytes) : Dev :=
  let k := storeKey item index
  let mine := tget 0 d.twin.versions k
  let d := if mine < version || (mine = version && !d.holdsDrive) then
      (d.storeTake item index b).modTwin (fun t => { t with versions := tset t.versions k version })
    else d
  d.sendItem 10 0 version (le 1 item ++ zeros 3 ++ le 4 index ++ le 8 version)

/-- A summary from the twin: every item that differs is sent. -/
def Dev.summaryArrived (d : Dev) (b : Bytes) : Dev :=
  let theirs := (chunks 24 (b.length / 24) b).map (fun e => (storeKey (fld e 0 1) (fld e 4 4), e))
  d.twin.versions.foldl (fun d e =>
    let body := d.storeBody (e.1 / 2 ^ 32) (e.1 % 2 ^ 32)
    let same := match tfind theirs e.1 with
      | some x => fld x 8 8 == e.2 && slice x 16 8 == (sha384 body).take 8
      | none => false
    if same then d
    else (d.modTwin (fun t => { t with unconfirmed := tset t.unconfirmed e.1 d.now })).sendItem (e.1 / 2 ^ 32) (e.1 % 2 ^ 32) e.2 body) d

/-- The twins are joined: a role in NONE begins to follow, the store summary goes out, a holder copies its VALID models
(Table 13.6, R358, R364). -/
def twinJoined (m : Dev × Hbm) : Dev × Hbm :=
  let d := m.1
  if d.inState [.replay, .fault] then m
  else
    let d := d.modTwin (fun t => if t.drive == .none && !t.ownDrive then t.syncDrive else t)
    let d := d.modTwin (fun t => if t.coll == .none && !t.ownColl && d.isC then { t with coll := .syncing } else t)
    let d := if d.isC then (upto 16).foldl (fun d j => if (d.mirror j).base1 = 0 then d.placeMirror j else d) d else d
    let d := d.sendItem 11 0 0 d.summary
    if d.twin.coll == .active then
      (d.coll.models.filter (fun e => e.2.state == .valid)).foldl (fun m e => mirrorModel m e.1) (d, m.2)
    else (d, m.2)

/-- The twin link is DOWN, or the twin is refused: the roles that follow end, a hand-over with it. -/
def Dev.twinGone (d : Dev) : Dev :=
  let following := d.twin.drive == .syncing || d.twin.drive == .standby || d.twin.coll == .syncing || d.twin.coll == .standby
  let d := d.leaveRoles.modTwin (fun t =>
    { t with twinDrive := .none, twinColl := .none, handover := if t.handover = 1 || t.handover = 2 then 5 else t.handover
             handoverCycle := 0, collHandover := false, healthRun := false })
  if following then d.syncCause 6 else d

/-! ### The collective standby (R358, Table 13.6) -/

/-- Whether every mirror is CURRENT, the VALID models are held and a health test passed in time. -/
def Dev.collCurrent (d : Dev) : Bool :=
  ((upto 16).filter (fun j => !(d.plan j).isEmpty)).all (fun j => (d.mirror j).state = 3) &&
    d.coll.models.all (fun e => e.2.state == .valid || e.2.state == .empty)

/-- Whether a health test passed within twice HEALTH_INTERVAL. -/
def Dev.healthy (d : Dev) : Bool :=
  match d.twin.healthPassed with
  | some t => decide (d.now < t + 2 * d.nat 0x2520 3 * Config.sec)
  | none => false

/-- The COLL role follows its mirrors and its health. -/
def Dev.followColl (d : Dev) : Dev :=
  match d.twin.coll with
  | .syncing => if d.collCurrent && d.healthy then d.modTwin (fun t => { t with coll := .standby }) else d
  | .standby =>
    if !d.collCurrent then (d.modTwin (fun t => { t with coll := .syncing })).syncCause 4
    else if !d.healthy then (d.modTwin (fun t => { t with coll := .syncing })).syncCause 5
    else d
  | _ => d

end Sys2Proof.Machine
end

