-- ==== Sys2Proof/Machine/Discovery.lean ====
section
/-!
DEFINITION. Discovery: the commands of the messages DISC_HELLO, DISC_STATE and DISC_CONFLICT (R254 to R257, R453), the
position's confirmation and the twin's admission (R345).
-/

namespace Sys2Proof.Machine
open Sys2Proof

/-- A module of the same SOURCE and TWIN with another MODULE_ID (R257). -/
def Dev.duplicate (d : Dev) : Option DiscEntry :=
  d.disc.entries.find? (fun e => e.chip == d.chip && e.twin == d.twinId && e.id != d.moduleId)

/-- Whether this module keeps its position against a duplicate: the earlier nonzero CONFIRMED_SINCE, then the lower
MODULE_ID; with both zero neither keeps one (R257). -/
def Dev.keepsPosition (d : Dev) (e : DiscEntry) : Bool :=
  let own := d.disc.confirmedSince
  own != 0 && (e.since = 0 || own < e.since || (own = e.since && d.moduleId < e.id))

/-- Whether this module gives its position up to a duplicate: the other's CONFIRMED_SINCE stands and this one does not keep the
position (R257). -/
def Dev.losesPosition (d : Dev) (e : DiscEntry) : Bool := e.since != 0 && !d.keepsPosition e

/-- Whether the position is confirmed (R256). -/
def Dev.positionHolds (d : Dev) : Bool :=
  let free := match d.duplicate with | none => true | some e => d.keepsPosition e
  (free && d.linkMask != 0) || d.nat 0x2B10 1 = d.ownBit

/-- Whether a peer port is UP (R252). -/
def Dev.anyPeerUp (d : Dev) : Bool := (upto 6).any (fun i => (d.link (neighbourLink i)).isUp)

/-- POSITION_CONFIRMED and CONFIRMED_SINCE follow, with the live set and the leader. -/
def Dev.updateConfirmed (d : Dev) : Dev :=
  let c := d.positionHolds
  let d :=
    if c = d.disc.confirmed then d
    else { d with disc := { d.disc with
      confirmed := c, confirmedSince := if c then d.now else 0
      unconfirmedSince := if c || !d.anyPeerUp then none else some d.now } }
  let d := if c then d.unlatch 0x0604 0 0 else d
  d.topologyChanged

/-- DISC_CONFLICT goes out on a link, and counts. -/
def Dev.sendConflict (d : Dev) (i kind seen expected : Nat) : Dev :=
  (d.bump 0x2B12 1).sendFrame (neighbourLink i) 0x22 1 0xFFFF (le 1 kind ++ le 1 i ++ zeros 2 ++ le 2 seen ++ le 2 expected)

/-- A peer or the twin is detached: its context closed, or no DISC_HELLO for 200 ms (R453). -/
def Dev.detachPeer (d : Dev) (i : Nat) : Dev :=
  if (d.neighbour i).status == .down then d
  else
    let d := d.modNeighbour i (fun _ => {})
    let d := if i = 6 then ({ d with disc := { d.disc with twinJoin := 0 } }.setNum 0x2500 7 0).twinGone else d
    let d := if d.anyPeerUp then d else { d with disc := { d.disc with unconfirmedSince := none } }
    (d.unlatch 0x0604 8 i).updateConfirmed

/-- A link is UP: its neighbour is awaited, and DISC_HELLO goes out at once (R252, R255). -/
def Dev.peerUp (d : Dev) (i : Nat) : Dev :=
  let d := d.modNeighbour i (fun x => if x.status == .down then { x with status := .waiting, helloAt := d.now } else x)
  let d := if i < 6 && !d.disc.confirmed && d.disc.unconfirmedSince.isNone then
      { d with disc := { d.disc with unconfirmedSince := some d.now } } else d
  d.sendDiscHello i

/-- DISC_HELLO on a peer port (R256, R257). -/
def Dev.peerHello (d : Dev) (i : Nat) (h : DiscHello) : Dev :=
  let expected := neighbourChip d.chip i
  let was := (d.neighbour i).status
  let entry := fun (s : NState) => ({ chip := h.chip, twin := h.twin, port := h.port, status := s, helloAt := d.now } : Neighbour)
  if h.chip = expected && h.port = reciprocal i then
    let lost := match d.duplicate with | some e => d.losesPosition e || was == .duplicate | none => false
    let d := d.modNeighbour i (fun _ => entry (if lost then .duplicate else .confirmed))
    let d := if !lost then d.unlatch 0x0604 8 i else if was == .duplicate then d else d.raise 0x0604 1 8 i true
    d.updateConfirmed
  else
    let d := d.modNeighbour i (fun _ => entry .miswired)
    let d := d.sendConflict i (if h.chip = expected then 2 else 1) h.chip expected
    let d := if was == .miswired then d else d.raise 0x0604 1 8 i true (le 2 h.chip)
    d.updateConfirmed

/-- JOIN_RESULT for a DISC_HELLO on the twin link (R257, R4). -/
def Dev.joinResult (d : Dev) (h : DiscHello) : Nat :=
  if h.chip != d.chip then 3 else if h.twin = d.twinId then 4
  else if h.variant != (if d.isC then 1 else 2) then 2 else 1

/-- A role of the twin, from its grant line; none shows whether it follows, which is a free value while this module holds
the role. -/
def Dev.twinRole (d : Dev) (k : Nat) (line own : Bool) : TRole :=
  if line then .active else if own then (if Config.openNat (d.fresh + k) % 2 = 0 then .syncing else .standby) else .none

/-- DISC_HELLO on the twin link: the twin is accepted, or refused with a conflict of kind 4 (R257, R345). -/
def twinHello (m : Dev × Hbm) (h : DiscHello) : Dev × Hbm :=
  let d := m.1
  let r := d.joinResult h
  let was := d.disc.twinJoin
  let d := d.modNeighbour 6 (fun _ =>
    { chip := h.chip, twin := h.twin, port := h.port, status := if r = 1 then .confirmed else .miswired, helloAt := d.now })
  let d := if h.twin = 0 && 1 ≤ h.state then d.modTwin (fun t => { t with selfTestSeen := d.now }) else d
  if r = 1 then
    if was = 5 then (d, m.2)
    else
      let d := ({ d with disc := { d.disc with twinJoin := 1 } }.setNum 0x2500 7 1)
      let d := d.modTwin (fun t =>
        let r := d.twinRole 0 t.lineDrive t.ownDrive
        { t with
          twinDrive := r, twinColl := d.twinRole 1 t.lineColl t.ownColl
          standbySince := if r != .standby then 0 else if t.twinDrive == .standby then t.standbySince else d.now })
      let m := if was = 1 then (d.drawn 2, m.2) else twinJoined (d.drawn 2, m.2)
      (m.1.topologyChanged, m.2)
  else
    let d := ({ d with disc := { d.disc with twinJoin := r } }.setNum 0x2500 7 r)
    let d := d.sendConflict 6 4 h.chip d.chip
    let d := if was = 1 then d.twinGone else d
    (d.topologyChanged, m.2)

/-- Whether a DISC_HELLO carries only listed codes: TWIN, VARIANT (0x2000:01), PORT and STATE (Tables 2.9, 9.9; R15). -/
def helloListed (x : DiscHello) : Bool :=
  decide (x.twin < 2) && (x.variant == 1 || x.variant == 2) && decide (x.port < 7) && decide (x.state < 9)

/-- DISC_HELLO (R256, R257, R345); one with an unlisted code is a violation (R15). -/
def execDiscHello (i : Fin 7) (x : DiscHello) (s : State) : Host.Outcome State Fault Refusal :=
  .next (s.onMem fun d h =>
    if !(d.link (neighbourLink i)).isUp then (d, h)
    else if !helloListed x then (d.linkViolation (neighbourLink i), h)
    else if i.val = 6 then twinHello (d, h) x else (d.peerHello i x, h))

/-- This module loses its position to a duplicate (R257). -/
def Dev.losePosition (d : Dev) (seen : Nat) : Dev :=
  let ports := (upto 6).filter (fun i => (d.neighbour i).status == .confirmed)
  let d := ports.foldl (fun d i => d.sendConflict i 3 seen d.chip) d
  let d := ports.foldl (fun d i => (d.modNeighbour i (fun x => { x with status := .duplicate })).raise 0x0604 1 8 i true) d
  d.updateConfirmed

/-- A newer DISC_STATE is held, forwarded once, and judged (R255, R257). -/
def Dev.takeDiscState (d : Dev) (i : Nat) (x : DiscState) : Dev :=
  let mine := x.source = d.chip && x.twin = d.twinId
  let held := d.disc.entries.find? (fun e => e.chip == x.source && e.twin == x.twin)
  let newer := match held with | some e => decide (e.seq < x.seq) | none => true
  if (mine && x.id = d.moduleId) || !newer then d
  else
    let e : DiscEntry :=
      { chip := x.source, twin := x.twin, state := x.state, flags := x.flags, seq := x.seq, mask := x.mask, since := x.since
        id := x.id, at_ := d.now }
    let d := { d with disc := { d.disc with
        entries := d.disc.entries.filter (fun (y : DiscEntry) => !(y.chip == x.source && y.twin == x.twin)) ++ [e] } }
    let d := ((upto 7).filter (fun k => k != i && d.discReaches k && (k = 6 || d.peerOpen k))).foldl
      (fun d k => d.sendFrame (neighbourLink k) 0x21 1 0xFFFF (e.payload x.flags) (some x.source)) d
    if mine && d.losesPosition e then d.losePosition x.source else d.updateConfirmed

/-- DISC_STATE (R255, R257). -/
def execDiscState (i : Fin 7) (x : DiscState) (s : State) : Host.Outcome State Fault Refusal :=
  .next (s.onDev fun d =>
    if !(d.discOpen i && (d.link (neighbourLink i)).isUp) then d
    else if 2 ≤ x.twin || 9 ≤ x.state then d.linkViolation (neighbourLink i)
    else d.takeDiscState i x)

/-- DISC_CONFLICT (R257): counted; kind 4 refuses the twin join. -/
def execDiscConflict (i : Fin 7) (kind _port _seen _expected : Nat) (s : State) : Host.Outcome State Fault Refusal :=
  .next (s.onDev fun d =>
    if !(d.link (neighbourLink i)).isUp then d
    else if kind = 0 || 4 < kind then d.linkViolation (neighbourLink i)
    else
      let d := d.bump 0x2B12 1
      if kind = 4 && i.val = 6 && d.disc.twinJoin = 1 then
        ({ d with disc := { d.disc with twinJoin := 0 } }.setNum 0x2500 7 0).twinGone
      else d)

/-- DISC_HELLO_INTERVAL (R255). -/
def execDiscHelloInterval (s : State) : Host.Outcome State Fault Refusal :=
  .next (s.onDev fun d => if d.isOn 3 then d.sendDiscHellos else d)

/-- DISC_STATE_INTERVAL (R255). -/
def execDiscStateInterval (s : State) : Host.Outcome State Fault Refusal :=
  .next (s.onDev fun d => if d.isOn 3 then d.sendDiscState else d)

/-- DISC_ENTRY_EXPIRY (R255). -/
def execDiscEntryExpiry (chip : Nat) (twin : Fin 2) (s : State) : Host.Outcome State Fault Refusal :=
  .next (s.onDev fun d => match d.disc.entries.find? (fun e => e.chip == chip && e.twin == twin.val) with
    | none => d
    | some e =>
      let d := d.reach (e.at_ + 200 * Config.ms)
      ({ d with disc := { d.disc with entries := d.disc.entries.filter (· != e) } }).updateConfirmed)

/-- DISC_HELLO_ABSENT (R453). -/
def execDiscHelloAbsent (i : Fin 7) (s : State) : Host.Outcome State Fault Refusal :=
  .next (s.onDev fun d =>
    if (d.neighbour i).status == .down then d
    else (d.reach ((d.neighbour i).helloAt + 200 * Config.ms)).detachPeer i)

/-- POSITION_CONFIRM_TIMEOUT (R252). -/
def execPositionConfirmTimeout (s : State) : Host.Outcome State Fault Refusal :=
  .next (s.onDev fun d => match d.disc.unconfirmedSince with
    | some t => if d.disc.confirmed || !d.anyPeerUp then d else (d.reach (t + 10 * Config.sec)).raise 0x0604 1 0 0 true
    | none => d)

end Sys2Proof.Machine
end

