-- ==== Sys2Proof/Machine/Mapen.lean ====
section
/-!
DEFINITION. The commands of the Mapen handshake (R233 to R253): frames of endpoints, timers of ports and transceivers.
-/

namespace Sys2Proof.Machine
open Sys2Proof

/-! ### Receiving -/

/-- Whether a frame of a port's endpoint reaches the Director (R227). -/
def Dev.hears (d : Dev) (p : Nat) : Bool :=
  d.holdsDrive && d.isOn 10 && d.attached p && (d.port p).state != .outOfService

/-- An endpoint frame is answered; a repeat of it will get the same answer (R238). -/
def Dev.answer (d : Dev) (p inType : Nat) (f : Mapen) (type : Nat) (payload : Bytes) : Dev :=
  let a : PFrame := { type := type, seq := (d.port p).seq, echo := f.seq, payload := payload }
  (d.modPort p (fun x => x.noteAnswer inType f.seq a)).queueProbe p type f.seq payload

/-- The reply window of a port closes and its next frames leave. -/
def Dev.closeWindow (d : Dev) (p : Nat) : Dev :=
  (d.modPort p (fun x => { x with awaiting := none })).servePort p

/-- Whether a frame answers the one that the port awaits. -/
def Port.answers (x : Port) (f : Mapen) (type : Nat) : Bool :=
  match x.awaiting with
  | some (t, s, _) => t = type && s = f.echo
  | none => false

/-- Whether an answer begins after its reply window: it is not received (R237). -/
def Port.tooLate (x : Port) (f : Mapen) (now : Nat) : Bool :=
  x.lapsed.contains f.echo || (match x.awaiting with
    | some (_, s, t) => f.echo = s && decide (t + 60 * Config.us < now)
    | none => false)

/-- The answer that a frame had, where it repeats one already answered (R238). -/
def Port.answerOf (x : Port) (type : Nat) (f : Mapen) : Option PFrame :=
  (x.answered.find? (fun e => e.1 = type && e.2.1 = f.seq)).map (·.2.2)

/-- Whether an IDENT falls in an exchange that the Director opened. -/
def Port.inExchange (x : Port) (f : Mapen) : Bool :=
  x.answers f 1 && (x.state == .probing || x.state == .absent || (x.state == .identified && x.reident))

/-- Whether a frame is a tentative probe: HELLO or IDENT outside an exchange on a watched port, and no violation (R203). -/
def Dev.tentative (d : Dev) (p type : Nat) (f : Mapen) : Bool :=
  (d.watchOf p).isSome && (type = 1 || (type = 2 && !(d.port p).inExchange f))

/-- The violation of a frame's PORT or SOURCE (Table 9.8, codes 9 and 8). An endpoint that has had no HELLO since it started writes
0xFFFF in PORT: before any HELLO of the exchange, and in an attach request (log 98). An IDENT may name another partner (Table 9.6). -/
def Port.misaddressed (x : Port) (p type : Nat) (f : Mapen) : Option Nat :=
  if f.port != p && !(f.port = 0xFFFF && (!x.helloSent || type = 1)) then some 9
  else if x.state == .identified && type != 2 && some f.source != x.partner.map (·.chip) then some 8
  else none

/-- An endpoint frame is taken: one too late is not received, nor one with a poisoned word (log 101); the others are counted, discarded in QUARANTINED, a repeat answered as
before, PORT and SOURCE checked (R237, R238, R253), then acted on. -/
def Dev.receive (d : Dev) (p type : Nat) (f : Mapen) (act : Dev → Dev) : Dev :=
  if !d.hears p || f.poison || (d.port p).tooLate f d.now then d
  else
    let d := d.bump (0x2A40 + podOf p) 3
    let x := d.port p
    if x.state == .quarantined then d
    else match x.answerOf type f with
      | some a => d.answerAgain p a
      | none =>
        if d.tentative p type f then act d
        else match x.misaddressed p type f with
          | some c => d.violation p type f.seq c
          | none => act d

/-- An unsolicited frame above the rate of R241, or during HOLDOFF. -/
def Dev.tooSoon (d : Dev) (p : Nat) : Bool :=
  let x := d.port p
  (match x.lastUnsolicited with | some t => decide (d.now < t + 10 * Config.ms) | none => false) || decide (d.now < x.holdoff)

/-- An unsolicited frame is noted. -/
def Dev.noteUnsolicited (d : Dev) (p : Nat) : Dev := d.modPort p (fun x => { x with lastUnsolicited := some d.now })

/-- What an unsolicited HELLO does in each state (Table 9.6, R248). -/
def Dev.attachRequest (d : Dev) (p : Nat) : Dev :=
  let x := d.port p
  match x.state with
  | .probing => if x.backoff then d.startAttempt p (x.attempt + 1) else d
  | .identified => d.startReident p
  | .absent => d.startAttempt p 1
  | _ => d

/-- HELLO of an endpoint (R203, R241, R247). -/
def execMapenHello (p : Fin 1024) (f : Mapen) (twin profileMax attempt nonce : Nat) (s : State) :
    Host.Outcome State Fault Refusal :=
  .next (s.onDev fun d => d.receive p 1 f fun d =>
    match d.watchOf p with
    | some w => d.withdraw p w
    | none =>
      if f.echo != 0xFFFF then d.violation p 1 f.seq 7
      else if d.tooSoon p then (d.noteUnsolicited p).violation p 1 f.seq 0x0A
      else if twin != 0xFF || profileMax = 0 || 8 < attempt || 2 ^ 32 ≤ nonce then (d.noteUnsolicited p).violation p 1 f.seq 4
      else (d.noteUnsolicited p).attachRequest p)

/-! ### IDENT (R249) -/

/-- The refusal code of an identity, 0 where R249 accepts it. -/
def Dev.identRefusal (d : Dev) (p : Nat) (i : Ident) : Nat :=
  let want := d.nat (0x4000 + p) 7
  let link := d.nat (0x4000 + p) 8
  let same := fun (e : Nat × Port) =>
    e.1 != p && e.2.state == .identified && (match e.2.partner with | some j => j.chip == i.chip && j.link == i.link | none => false)
  if 0xEFFF < i.chip || 5 < i.link then 0x40
  else if i.profile != 1 then 0x43
  else if d.disc.ports.any same then 0x41
  else if want != 0xFFFF && !(i.chip == want && (i.link == link || link == 0xFF)) then 0x42
  else if want == 0xFFFF && d.nat 0x2B00 0x0D == 2 && (d.owner p).isSome then 0x42
  else 0

/-- Whether an IDENT shows the partner that the record holds. -/
def sameIdent (a : Option Ident) (i : Ident) : Bool :=
  match a with
  | some j => j.chip == i.chip && j.link == i.link && j.vendor == i.vendor && j.serial == i.serial
  | none => false

/-- An IDENT is refused: NAK, ID_REFUSALS, ABSENT with cause 5; one that answers a slow probe leaves the port as it is (Table 9.6). -/
def Dev.refuseIdent (d : Dev) (p : Nat) (f : Mapen) (code : Nat) : Dev :=
  let x := d.port p
  let d := (d.bump 0x2B01 3).answer p 2 f 4 ([2, BitVec.ofNat 8 code] ++ zeros 6)
  if x.state == .identified then (d.detach p 5).enterAbsent p (some 5)
  else
    let d := d.raise 0x0601 (b2n (d.portBusy p)) 2 p false [5, BitVec.ofNat 8 code]
    if x.state == .absent then d else d.enterAbsent p (some 5)

/-- An IDENT is accepted: the port trains, or its re-identification is acknowledged. -/
def Dev.acceptIdent (d : Dev) (p : Nat) (f : Mapen) (i : Ident) : Dev :=
  let x := d.port p
  if x.state == .identified then
    if sameIdent x.partner i then d.answer p 2 f 3 [2, 0, 0, 0]
    else (d.detach p 5 true).enterAbsent p (some 5)
  else
    let d := d.modPort p (fun y =>
      { y with state := .training, training := some i, attempt := if y.state == .absent then 0 else y.attempt
               attemptAt := if y.state == .absent then d.now else y.attemptAt })
    d.answer p 2 f 3 [2, 0, 0, 0]

/-- The code by which a wrong NONCE that is not stale is refused: R249 refuses it and Table 9.8 lists no code for it, so it is one of
0x40 to 0x43, a free value (log 99). -/
def Dev.nonceCode (d : Dev) : Nat := 0x40 + Config.openNat d.fresh % 4

/-- IDENT of an endpoint (R249, R203, R253). -/
def execIdent (p : Fin 1024) (f : Mapen) (i : Ident) (s : State) : Host.Outcome State Fault Refusal :=
  .next (s.onDev fun d => d.receive p 2 f fun d =>
    let x := d.port p
    let open_ := x.inExchange f
    let stale := some i.nonce != x.nonce && x.nonces.any (fun e => e.1 = i.nonce && d.now ≤ e.2 + 200 * Config.ms)
    if stale then (d.bump 0x2B01 4).info 0x0606 2 p
    else if !open_ then
      match d.watchOf p with
      | some w => d.withdraw p w
      | none => d.violation p 2 f.seq 6
    else
      let d := d.modPort p (fun y => { y with awaiting := none })
      if some i.nonce != x.nonce then d.drawn 1 |>.refuseIdent p f d.nonceCode
      else match d.identRefusal p i with
        | 0 => d.acceptIdent p f i
        | c => d.refuseIdent p f c)

/-! ### ACK, NAK, KEEPALIVE, GOODBYE -/

/-- A port is identified: the record is written, ORBIT_SYNC and the pending VOID_STEPs go out (R117, R251). -/
def Dev.identify (d : Dev) (p : Nat) : Dev :=
  let x := d.port p
  let d := d.modPort p (fun y =>
    { y with state := .identified, partner := y.training, training := none, since := d.now, misses := 0
             lastKeepalive := d.now, backoff := false })
  let d := ((d.bump 0x2B01 2).info 0x0605 2 p).queueSync p
  match d.owner p with
  | none => d
  | some j =>
    let due := d.disc.voided.filter (fun v =>
      v.job == j && decide (x.detachAt < v.at_) && decide (d.now ≤ v.at_ + 10 * Config.sec))
    (due.drop (due.length - 16)).foldl (fun d v =>
      d.queueRepeated p 8 (voidPayload (almTag (d.almanac j)) v.step v.zenith)) d

/-- ACK of an endpoint (R238, R247). -/
def execMapenAck (p : Fin 1024) (f : Mapen) (acked : Nat) (s : State) : Host.Outcome State Fault Refusal :=
  .next (s.onDev fun d => d.receive p 3 f fun d =>
    let x := d.port p
    if x.answers f acked && (acked = 3 || acked = 7 || acked = 8 || acked = 9) then
      let d := d.modPort p (fun y => { y with awaiting := none, repeats := y.repeats.filter (fun r => r.seq != f.echo) })
      let d :=
        if acked = 3 && x.state == .training then d.identify p
        else if acked = 3 then d.modPort p (fun y => { y with reident := false })
        else d
      d.servePort p
    else d.violation p 3 f.seq (if acked = 3 || acked = 7 || acked = 8 || acked = 9 then 7 else 4))

/-- The NAK codes of Table 9.8. -/
def nakListed (code : Nat) : Bool := (decide (1 ≤ code) && decide (code ≤ 0x0A)) || (decide (0x40 ≤ code) && decide (code ≤ 0x43))

/-- NAK of an endpoint: counted and logged; one whose NAKED_TYPE or CODE is unlisted, or that answers no frame awaiting an answer, is
a violation (R15, R253). -/
def execMapenNak (p : Fin 1024) (f : Mapen) (naked code detail : Nat) (s : State) : Host.Outcome State Fault Refusal :=
  .next (s.onDev fun d => d.receive p 4 f fun d =>
    if !((d.port p).awaiting.map (·.2.1) == some f.echo) then d.violation p 4 f.seq 7
    else if naked = 0 || 9 < naked || !nakListed code then d.violation p 4 f.seq 4
    else (d.bump 0x2B01 5).info 0x0607 2 p (le 1 naked ++ le 1 code ++ le 4 detail))

/-- KEEPALIVE of an endpoint: an answer clears the misses (R251). -/
def execMapenKeepalive (p : Fin 1024) (f : Mapen) (defSeq status : Nat) (s : State) : Host.Outcome State Fault Refusal :=
  .next (s.onDev fun d => d.receive p 5 f fun d =>
    if !(d.port p).answers f 5 then d.violation p 5 f.seq 7
    else if 1 < status || 2 ^ 32 ≤ defSeq then d.violation p 5 f.seq 4
    else (d.modPort p (fun x => { x with misses := 0 })).closeWindow p)

/-- GOODBYE of an endpoint (R247): ACK, then detach. -/
def execMapenGoodbye (p : Fin 1024) (f : Mapen) (cause : Nat) (s : State) : Host.Outcome State Fault Refusal :=
  .next (s.onDev fun d => d.receive p 9 f fun d =>
    if f.echo != 0xFFFF then d.violation p 9 f.seq 7
    else if d.tooSoon p then (d.noteUnsolicited p).violation p 9 f.seq 0x0A
    else if cause = 0 || 5 < cause then (d.noteUnsolicited p).violation p 9 f.seq 4
    else
      let d := (d.noteUnsolicited p).answer p 9 f 3 [9, 0, 0, 0]
      if (d.port p).state == .identified then (d.detach p 3).enterAbsent p (some 3) else d)

/-- The payload length of a type (Table 9.5). -/
def mapenLength : Nat → Nat
  | 1 => 16 | 2 => 32 | 3 => 4 | 4 => 8 | 5 => 8 | 6 => 40 | 7 => 8 | 8 => 24 | _ => 4

/-- A frame whose TYPE, VERSION or LENGTH breaks the rules (R253, Table 9.8). -/
def execProtocolViolation (p : Fin 1024) (f : Mapen) (type version length : Nat) (s : State) :
    Host.Outcome State Fault Refusal :=
  .next (s.onDev fun d =>
    let code := if type = 0 || 9 < type then 1 else if version != 1 then 2 else if length != mapenLength type then 3
      else if type = 6 || type = 7 || type = 8 then 5 else 0
    if !d.hears p || f.poison || code = 0 then d
    else
      let d := d.bump (0x2A40 + podOf p) 3
      if (d.port p).state == .quarantined then d
      else match (d.port p).answerOf type f with
        | some a => d.answerAgain p a
        | none => d.violation p type f.seq code)

/-- A frame with a bad CRC is counted; 64 within 1 s raise a class 1 fault (R234, R252). -/
def execMapenCrcError (p : Fin 1024) (s : State) : Host.Outcome State Fault Refusal :=
  .next (s.onDev fun d =>
    if !d.hears p then d
    else
      let d := d.bump (0x4000 + p) 0x14
      let l := d.crcRecent p
      let d := d.modPort p (fun x => { x with crcTimes := l ++ [d.now] })
      if l.length = 63 then d.raise 0x0603 1 2 p true else d)

/-! ### Timers -/

/-- The Director mutes its endpoint after KEEPALIVE_MISS misses: detach with cause 2, attempt 1 (Table 9.6). -/
def Dev.muteCheck (d : Dev) (p : Nat) : Dev :=
  let x := d.port p
  if x.state == .identified && d.nat 0x2B00 8 ≤ x.misses && x.light && d.podLit (podOf p) then
    (d.detach p 2).startAttempt p 1
  else d

/-- A miss counts, while the port's slot 3 laser is lit (R210, R251). -/
def Dev.miss (d : Dev) (p : Nat) : Dev :=
  if d.podLit (podOf p) then (d.modPort p (fun x => { x with misses := min 255 (x.misses + 1) })).muteCheck p else d

/-- The reply window closes unanswered (R237, R251). -/
def execReplyWindowEnd (p : Fin 1024) (s : State) : Host.Outcome State Fault Refusal :=
  .next (s.onDev fun d =>
    match (d.port p).awaiting with
    | none => d
    | some (t, _, at_) =>
      let d := d.reach (at_ + 60 * Config.us)
      let d := d.modPort p Port.lapse
      let d := if t = 5 then d.miss p
        else if t = 1 && (d.port p).state == .absent then d.info 0x0606 2 p
        else d
      d.servePort p)

/-- A probe refused NOT_LOCKED is tried again (R215, R237). -/
def execProbeRetry (p : Fin 1024) (s : State) : Host.Outcome State Fault Refusal :=
  .next (s.onDev fun d => if (d.port p).queue.isEmpty then d else (d.reach (d.now + 100 * Config.us)).servePort p)

/-- The next HELLO instant of an attempt: HELLO again, or the ACK again in TRAINING (R248). -/
def execHelloInterval (p : Fin 1024) (s : State) : Host.Outcome State Fault Refusal :=
  .next (s.onDev fun d =>
    let x := d.port p
    let iv := d.nat 0x2B00 1 * Config.ms
    let t := x.attemptAt + ((d.now - x.attemptAt) / iv + 1) * iv
    let running := (x.state == .probing && !x.backoff) || x.state == .training || (x.state == .identified && x.reident)
    if !running || !d.podLit (podOf p) || x.attemptAt + d.nat 0x2B00 2 * Config.ms ≤ t then d
    else
      let d := d.reach t
      if x.state == .training then
        match x.answered.find? (fun e => e.1 = 2 && e.2.2.type = 3) with
        | some e => d.queueProbe p 3 e.2.2.echo e.2.2.payload (some e.2.2.seq)
        | none => d
      else d.sendHello p x.attempt)

/-- An attempt ends without identification (R248, Table 9.6). -/
def execAttemptEnd (p : Fin 1024) (s : State) : Host.Outcome State Fault Refusal :=
  .next (s.onDev fun d =>
    let x := d.port p
    if !d.podLit (podOf p) then d
    else
      let at_ := x.attemptAt + d.nat 0x2B00 2 * Config.ms
      if (x.state == .probing && !x.backoff) || x.state == .training then
        let d := d.reach at_
        if x.attempt < d.nat 0x2B00 3 then
          d.modPort p (fun y => { y.lapse with state := .probing, backoff := true, phaseAt := d.now, training := none })
        else d.enterAbsent p none
      else if x.state == .identified && x.reident then (d.reach at_).modPort p (fun y => { y with reident := false })
      else d)

/-- A backoff ends: the next attempt (R248). -/
def execBackoffEnd (p : Fin 1024) (s : State) : Host.Outcome State Fault Refusal :=
  .next (s.onDev fun d =>
    let x := d.port p
    if x.state == .probing && x.backoff && d.podLit (podOf p) then
      (d.reach (x.phaseAt + d.nat 0x2B00 4 * Config.ms * 2 ^ (x.attempt - 1))).startAttempt p (x.attempt + 1)
    else d)

/-- A slow probe of a port in ABSENT (R248). -/
def execSlowProbe (p : Fin 1024) (s : State) : Host.Outcome State Fault Refusal :=
  .next (s.onDev fun d =>
    let x := d.port p
    if x.state == .absent && d.podLit (podOf p) then
      let iv := d.nat 0x2B00 5 * Config.ms
      let d := d.reach (x.phaseAt + ((d.now - x.phaseAt) / iv + 1) * iv)
      ((d.freshNonce p).modPort p (fun y => { y with answered := [] })).sendHello p 0
    else d)

/-- A port has been dark for DETACH_TIME (Table 9.6). -/
def execDetachTime (p : Fin 1024) (s : State) : Host.Outcome State Fault Refusal :=
  .next (s.onDev fun d =>
    let x := d.port p
    if x.light || !x.everLight then d
    else
      let d := d.reach (x.lightSince + d.nat 0x2B00 6 * Config.ms)
      match x.state with
      | .probing => d.enterAbsent p (some 1)
      | .training => d.enterAbsent p (some 1)
      | .identified => (d.detach p 1).enterAbsent p (some 1)
      | _ => d)

/-- KEEPALIVE to an identified port (R251): none while its slot 3 laser is dark. STATUS tells whether a circuit of the
port is not LIVE. -/
def execKeepaliveInterval (p : Fin 1024) (s : State) : Host.Outcome State Fault Refusal :=
  .next (s.onDev fun d =>
    let x := d.port p
    if x.state == .identified && d.podLit (podOf p) then
      let d := d.reach (x.lastKeepalive + d.nat 0x2B00 7 * Config.ms)
      let d := d.modPort p (fun y => { y with lastKeepalive := d.now })
      let d := d.muteCheck p
      if (d.port p).state == .identified then
        d.queueProbe p 5 0xFFFF
          (le 4 d.time.inForce.seq ++ le 1 (b2n ((d.forceAt p).any (fun c => c.state != .live))) ++ le 1 (d.ownerTag p).1 ++ [0, 0])
      else d
    else d)

/-- QUARANTINE_TIME elapses (R253). -/
def execQuarantineEnd (p : Fin 1024) (s : State) : Host.Outcome State Fault Refusal :=
  .next (s.onDev fun d =>
    let x := d.port p
    if x.state == .quarantined then
      let d := d.reach (x.phaseAt + d.nat 0x2B00 0x0B * Config.sec)
      ((d.modPort p (fun y => { y with violations := [] })).startAttempt p 1).settle
    else d)

/-- The oldest unacknowledged WITHDRAW, VOID_STEP or GOODBYE of a port is repeated, five sends in all (R238). -/
def execMapenRepeat (p : Fin 1024) (s : State) : Host.Outcome State Fault Refusal :=
  .next (s.onDev fun d =>
    match (d.port p).repeats with
    | [] => d
    | r :: t =>
      let r := t.foldl (fun b x => if x.lastAt < b.lastAt then x else b) r
      let d := d.reach (r.lastAt + 2 * Config.ms)
      if r.sends < 5 then
        let d := d.modPort p (fun x =>
          { x with repeats := x.repeats.map (fun y => if y.seq = r.seq then { y with sends := y.sends + 1, lastAt := d.now } else y) })
        d.queueProbe p r.type 0xFFFF r.payload (some r.seq)
      else
        let d := d.modPort p (fun x => { x with repeats := x.repeats.filter (fun y => y.seq != r.seq) })
        (d.undelivered p r.type).miss p)

/-! ### Light and transceivers (R228) -/

/-- A port's probe activity detector flags light or clears (R228, R247). -/
def execProbeLightFlag (p : Fin 1024) (light : Bool) (s : State) : Host.Outcome State Fault Refusal :=
  .next (s.onDev fun d =>
    let x := d.port p
    if !d.isOn 10 || x.light == light then d
    else
      let d := d.modPort p (fun y => 
        { y with light := light, lightSince := d.now, everLight := y.everLight || light, helloSent := y.helloSent && !light })
      let d := if light && d.xcvrIdle (xcvrOf p) then d.attach p else d
      if light && x.state == .absent then d.startAttempt p 1 else d)

/-- The port of a list whose waiting frame of the last rank has been queued longest (R228). -/
def Dev.oldestPort (d : Dev) (l : List Nat) : Option Nat :=
  (l.foldl (fun (m : Option (Nat × Nat)) p =>
    ((d.port p).queue.filter (fun f => f.rank = 3)).foldl (fun m f => match m with
      | none => some (p, f.since)
      | some e => if f.since < e.2 then some (p, f.since) else m) m) none).map Prod.fst

/-- The next port of a transceiver (R228): a flagged one, then by the frame that it has queued, the ports taken in turn from the
one after the present port; of the other frames the oldest goes first. -/
def Dev.nextPort (d : Dev) (x : Nat) : Option Nat :=
  let cur := ((d.probeAt x).port.getD (4 * x)) - 4 * x
  let ring := (upto 3).map (fun k => 4 * x + (cur + 1 + k) % 4)
  let best := fun (r : Nat) => ring.find? (fun p => (d.port p).queue.any (fun f => f.rank = r))
  match ring.find? (fun p => (d.port p).light) with
  | some p => some p
  | none =>
    match best 0, best 1, best 2 with
    | some p, _, _ => some p
    | _, some p, _ => some p
    | _, _, some p => some p
    | _, _, _ => d.oldestPort ring

/-- A dwell ends (R228): the transceiver goes to its next port, unless a reply is awaited on the present one. -/
def execProbeDwellEnd (x : Fin 256) (s : State) : Host.Outcome State Fault Refusal :=
  .next (s.onDev fun d =>
    match (d.probeAt x).port, d.nextPort x with
    | some cur, some p =>
      if (d.port cur).awaiting.isSome then d
      else ((d.reach ((d.probeAt x).since + 200 * Config.us)).attach p).servePort p
    | none, some p => (d.attach p).servePort p
    | _, none => d)

end Sys2Proof.Machine
end

