-- ==== Sys2Proof/Machine/Records.lean ====
section
/-!
DEFINITION. The twin state record (R347 to R351): the record of a cycle with its axis records and change items as the
holder sends it, and what the twin keeps and adopts of it.
-/

namespace Sys2Proof.Machine
open Sys2Proof

/-! ### Codes -/

/-- The codes of AXIS_STATE (R152). -/
def AState.code : AState → Nat
  | .open => 0 | .holdClosed => 1 | .slew => 2 | .acquire => 3 | .track => 4 | .autotune => 5 | .fault => 6

/-- The axis state of a code. -/
def AState.ofCode : Nat → AState
  | 1 => .holdClosed | 2 => .slew | 3 => .acquire | 4 => .track | 5 => .autotune | 6 => .fault | _ => .open

/-- The comet codes of Table 7.3. -/
def CometState.code : CometState → Nat
  | .waiting => 0 | .slewing => 1 | .acquiring => 2 | .ready => 3 | .staged => 4 | .aborted => 5 | .fault => 6

/-- The comet state of a code. -/
def CometState.ofCode : Nat → CometState
  | 1 => .slewing | 2 => .acquiring | 3 => .ready | 4 => .staged | 5 => .aborted | 6 => .fault | _ => .waiting

/-- The codes of COMMIT_STATE (R206). -/
def CommitState.code : CommitState → Nat
  | .idle => 0 | .presteer => 1 | .voted => 2 | .go => 3 | .acked => 4 | .confirmed => 5 | .flipping => 6 | .verified => 7
  | .held => 8 | .retracted => 9 | .reverting => 10 | .reverted => 11

/-- The commit state of a code. -/
def CommitState.ofCode : Nat → CommitState
  | 1 => .presteer | 2 => .voted | 3 => .go | 4 => .acked | 5 => .confirmed | 6 => .flipping | 7 => .verified | 8 => .held
  | 9 => .retracted | 10 => .reverting | 11 => .reverted | _ => .idle

/-- The circuit state of a code (Table 3.2). -/
def CState.ofCode : Nat → CState
  | 1 => .presteer | 2 => .ready | 3 => .live | 4 => .degraded | 5 => .lost | _ => .none

/-- The job state of a code. -/
def JobState.ofCode : Nat → JobState
  | 1 => .defined | 2 => .loaded | 3 => .running | 4 => .stopped | 5 => .restarting | _ => .empty

/-- PORT_STATE (R247). -/
def PortState.code : PortState → Nat
  | .dark => 0 | .probing => 1 | .training => 2 | .identified => 3 | .absent => 4 | .quarantined => 5 | .outOfService => 6

/-- The port state of a code. -/
def PortState.ofCode : Nat → PortState
  | 1 => .probing | 2 => .training | 3 => .identified | 4 => .absent | 5 => .quarantined | 6 => .outOfService | _ => .dark

/-- BOARD_STATE. -/
def BState.code : BState → Nat
  | .absent => 0 | .adopting => 1 | .inService => 2 | .holding => 3 | .drained => 4 | .fault => 5

/-- The board state of a code. -/
def BState.ofCode : Nat → BState
  | 1 => .adopting | 2 => .inService | 3 => .holding | 4 => .drained | 5 => .fault | _ => .absent

/-- The Director state of a code (Table 2.9). -/
def DirState.ofCode : Nat → DirState
  | 1 => .selftest | 2 => .standby | 3 => .armed | 4 => .serving | 5 => .hold | 6 => .maintenance | 7 => .replay | 8 => .fault
  | _ => .boot

/-! ### Axis records (Table 13.3) -/

/-- The mantissas of the stage words, in the order of the record. -/
def Stages.words (s : Stages) : List Bfp :=
  [s.integ, s.d, s.edPrev, s.n1x1, s.n1x2, s.n1w1, s.n1w2, s.n2x1, s.n2x2, s.n2w1, s.n2w2]

/-- The record of one axis. -/
def Dev.axisRecord (d : Dev) (a : Nat) : Bytes :=
  let x := d.axis a
  let keep := x.state == .open || x.state == .fault || x.missFlag
  (x.stages.words.flatMap (fun w => leI 3 w.m)) ++ leI 1 x.stages.integ.e ++ leI 1 x.stages.d.e ++ leI 1 x.stages.n1x1.e ++
    leI 1 x.stages.n2x1.e ++ le 3 (unsigned 20 x.output + (if keep then 2 ^ 20 else 0)) ++ leI 3 (fixedToCount x.optCorr) ++
    leI 3 (fixedToCount x.ref) ++
    le 1 (x.state.code + 8 * x.set + 32 * b2n x.missFlag + 64 * b2n (x.poisonedSets.contains x.set || (x.state == .fault && x.faultCause = 3))) ++
    le 1 (min 3 x.misses + 4 * x.faultCause)

/-- The axis that a record holds, and whether it is poisoned. -/
def axisOfRecord (b : Bytes) : Axis × Bool :=
  let m := fun (i : Nat) => fldI b (3 * i) 3
  let e := fun (k : Nat) => fldI b (33 + k) 1
  let w := fun (i k : Nat) => ({ m := m i, e := e k } : Bfp)
  let st := fld b 46 1
  ({ state := AState.ofCode (st % 8), set := st / 8 % 4, missFlag := st.testBit 5, misses := fld b 47 1 % 4
     faultCause := fld b 47 1 / 4 % 8, output := signed 20 (fld b 37 3), optCorr := countToFixed (fldI b 40 3)
     ref := countToFixed (fldI b 43 3), rLast := countToFixed (fldI b 43 3 + fldI b 40 3)
     stages :=
       { integ := w 0 0, d := w 1 1, edPrev := w 2 1, n1x1 := w 3 2, n1x2 := w 4 2, n1w1 := w 5 2, n1w2 := w 6 2
         n2x1 := w 7 3, n2x2 := w 8 3, n2w1 := w 9 3, n2w2 := w 10 3 } }, st.testBit 6)

/-! ### Change items (Table 13.4) -/

/-- JOB (128 B). -/
def Dev.jobItem (d : Dev) (j : Nat) : Bytes :=
  let r := d.run j
  let rs := d.faults.restarts.find? (fun x => x.job == j)
  let on := ((d.faults.stalls.find? (fun x => x.job == j)).map (·.onset)).getD 0
  le 1 j ++ le 1 (d.job j).state.code ++ le 1 ((rs.map (·.state)).getD 0) ++ le 1 r.variant ++ le 4 r.next ++ le 8 r.loop ++
    le 8 r.commits ++ le 8 (d.engJob j).stepNow ++ le 8 on ++ padTo 24 ((rs.map (·.order)).getD []) ++
    le 32 (maskOf r.detours) ++ le 32 (maskOf r.replanned)

/-- COMMIT (32 B). -/
def Dev.commitItem (d : Dev) (j : Nat) : Bytes :=
  let c := d.commit j
  le 1 j ++ le 1 c.state.code ++
    le 1 (b2n c.go + 2 * b2n c.ackSent + 4 * b2n c.confirm + 8 * b2n c.retract + 16 * b2n (c.state == .flipping || c.state == .verified)) ++
    le 1 c.reason ++ le 4 c.entry ++ le 8 c.z ++ le 4 d.leaderEpoch ++ le 2 (d.leader.getD 0xFFFF) ++ zeros 10

/-- The 16 bytes of COMET_TABLE for a comet (Table 7.10). -/
def Comet.bytes (c : Comet) : Bytes :=
  le 2 c.north ++ le 2 c.south ++ le 1 c.plane ++ le 1 c.state.code ++ le 1 c.job ++
    le 1 (b2n c.waypoint + 2 * b2n c.searching + 4 * b2n c.crossing) ++ le 8 c.zenith

/-- The gangs in motion: the axes that move for one comet from one launch. -/
def Dev.gangs (d : Dev) : List (List (Nat × Motion)) :=
  let ms := d.eng.axes.filterMap (fun e => e.2.motion.map (fun m => (e.1, m)))
  let same := fun (a b : Nat × Motion) => a.2.comet == b.2.comet && a.2.from_ == b.2.from_ && a.2.target.isSome == b.2.target.isSome
  (ms.filter (fun x => (ms.find? (same x)) == some x)).map (fun x => (ms.filter (same x)).take 8)

/-- TRAJECTORY of a gang: KIND 1 a stop, 2 the leg to a waypoint, else 0. -/
def Dev.gangItem (d : Dev) (g : List (Nat × Motion)) : Bytes :=
  let m := (g.head?.map Prod.snd).getD { segs := [], p6 := 0, from_ := 0 }
  let n := fun (k : Nat) => ((m.segs[k]?).map (·.n)).getD 0
  let leg := d.arr.comets.any (fun c => some c.id == m.comet && c.waypoint && c.leg = 0)
  le 8 m.from_ ++ le 2 (n 0) ++ le 2 (n 1) ++ le 2 (n 3) ++ le 1 g.length ++
    le 1 (if m.target.isNone then 1 else if leg then 2 else 0) ++
    g.flatMap (fun e => le 2 e.1 ++ [0, 0] ++ leI 8 (e.2.p6 / 6) ++ leI 8 (((e.2.segs.head?).map (·.jerk)).getD 0))

/-- CIRCUIT (8 B). -/
def Circuit.bytes (c : Circuit) : Bytes :=
  le 2 c.north ++ le 2 c.south ++ le 1 c.plane ++ le 1 c.state.code ++ le 1 c.lanes ++ [0]

/-- PORT (40 B). -/
def Port.bytes (p : Nat) (x : Port) : Bytes :=
  let i := x.partner
  le 2 p ++ le 1 x.state.code ++ le 1 ((i.map (·.link)).getD 0xFF) ++ le 2 ((i.map (·.chip)).getD 0xFFFF) ++
    le 2 ((i.map (·.caps)).getD 0) ++ le 4 ((i.map (·.vendor)).getD 0) ++ padTo 16 ((i.map (·.serial)).getD []) ++ le 8 x.since ++ zeros 4

/-- VOIDED (24 B). -/
def Dev.voidItem (d : Dev) (v : VoidRec) : Bytes := le 4 (almTag (d.almanac v.job)) ++ zeros 4 ++ le 8 v.step ++ le 8 v.at_

/-- Every item that is present, as kind, index and body. -/
def Dev.presentItems (d : Dev) : List (Nat × Nat × Bytes) :=
  ((upto 16).filter (fun j => (d.job j).state != .empty)).map (fun j => (1, j, d.jobItem j)) ++
  ((upto 16).filter (fun j => (d.commit j).state != .idle)).map (fun j => (2, j, d.commitItem j)) ++
  d.arr.comets.map (fun c => (3, 2 * c.north + c.plane, c.bytes ++ le 2 c.id ++ [0, 0])) ++
  d.gangs.map (fun g => (4, (g.head?.map Prod.fst).getD 0, d.gangItem g)) ++
  (d.circuits.filter (·.inForce)).map (fun c => (5, 2 * c.north + c.plane, c.bytes)) ++
  (d.disc.ports.filter (fun e => e.2.state != .dark)).map (fun e => (6, e.1, Port.bytes e.1 e.2)) ++
  d.disc.voided.map (fun v => (7, v.job * 2 ^ 64 + v.step, d.voidItem v)) ++
  (d.eng.boards.filter (fun e => e.2.state != .absent)).map (fun e => (8, e.1, le 1 e.1 ++ le 1 e.2.state.code ++ zeros 6))

/-- Whether a committed entry explains a circuit's change (R350): it is LIVE since a Zenith that no revert took back. -/
def Dev.explained (d : Dev) (kind index : Nat) (old : Option Sent) : Bool :=
  kind = 5 &&
    match d.circuitOf (index / 2) (index % 2) with
    | some c =>
      c.state == .live &&
        (match old with | some o => fld o.body 2 2 != c.south | none => true) &&
        d.arr.commits.all (fun e => !((e.2.state == .reverting || e.2.state == .reverted) &&
          e.2.ended.any (fun x => x.north == c.north && x.plane == c.plane)))
    | none => false

/-- One item's place in what this module sends, as its content stands now. -/
def Dev.noteItem (d : Dev) (l : List Sent) (it : Nat × Nat × Bytes) : List Sent :=
  match l.find? (fun s => s.kind == it.1 && s.index == it.2.1) with
  | some s =>
    if s.body == it.2.2 then l
    else
      let n := if d.explained it.1 it.2.1 (some s) then 3 else 0
      l.map (fun x => if x.kind == it.1 && x.index == it.2.1 then { x with version := (x.version + 1) % 2 ^ 32, body := it.2.2, next := n } else x)
  | none =>
    -- an item that comes again goes on from the VERSION of its DELETE
    let v := ((d.twin.ledger.find? (fun s => s.kind == 9 && s.index == it.1 * 65536 + it.2.1)).map (·.version)).getD 0
    l ++ [{ kind := it.1, index := it.2.1, version := (v + 1) % 2 ^ 32, body := it.2.2, next := if d.explained it.1 it.2.1 none then 3 else 0 }]

/-- The ledger of the items, brought up to date: an item that is no longer present gives way to a DELETE. -/
def Dev.ledgerNow (d : Dev) : List Sent :=
  let now := d.presentItems
  let gone := d.twin.ledger.filter (fun s => s.kind != 9 && !now.any (fun i => i.1 == s.kind && i.2.1 == s.index))
  let keep := d.twin.ledger.filter (fun s =>
    if s.kind = 9 then !now.any (fun i => i.1 == fld s.body 0 1 && i.2.1 == fld s.body 2 2)
    else now.any (fun i => i.1 == s.kind && i.2.1 == s.index))
  let dels := (gone.filter (fun s => s.kind != 7)).map (fun s =>
    ({ kind := 9, index := s.kind * 65536 + s.index, version := (s.version + 1) % 2 ^ 32, body := le 1 s.kind ++ [0] ++ le 2 s.index } : Sent))
  now.foldl d.noteItem (keep ++ dels)

/-- The rank of a kind when changes do not fit (R350). -/
def kindRank : Nat → Nat
  | 2 => 0 | 4 => 1 | 3 => 2 | 9 => 3 | 1 => 4 | 5 => 5 | 8 => 6 | 6 => 7 | _ => 8

/-- An item with its 8-byte header. -/
def Sent.bytes (s : Sent) (rep : Nat) : Bytes := le 1 s.kind ++ le 1 rep ++ le 2 s.body.length ++ le 4 s.version ++ s.body

/-- Items taken while they fit. -/
def fitItems (room : Nat) : List Sent → List Sent
  | [] => []
  | s :: t => if 8 + s.body.length ≤ room then s :: fitItems (room - 8 - s.body.length) t else fitItems room t

/-- The change section of a cycle: its bytes, the number of items deferred, and the module with its ledger advanced. -/
def Dev.changeSection (d : Dev) : Dev × Bytes × Nat × Nat :=
  let l := d.ledgerNow
  let due := (upto 9).flatMap (fun r => l.filter (fun s => s.next < 3 && kindRank s.kind == r))
  let sent := fitItems 12288 due
  let used := sumN (sent.map (fun s => 8 + s.body.length))
  let ring := l.filter (fun s => s.kind != 9)
  let turn := if ring.isEmpty then [] else ring.drop (d.twin.refresh % ring.length) ++ ring.take (d.twin.refresh % ring.length)
  let fresh := fitItems (12288 - used) (turn.filter (fun s => !sent.contains s))
  let d := d.modTwin (fun t =>
    { t with ledger := l.map (fun s => if sent.contains s then { s with next := s.next + 1 } else s)
             refresh := d.twin.refresh + fresh.length })
  let top := ((sent ++ fresh).map (·.version)).foldl max 0
  (d, sent.flatMap (fun s => s.bytes s.next) ++ fresh.flatMap (fun s => s.bytes 3), due.length - sent.length, top)

/-- The heater codes of the pods of a slice, as last sent, in ring order. -/
def Dev.groupCodes (d : Dev) (g : Nat) : Bytes :=
  (upto 16).flatMap (fun i => (upto 176).flatMap (fun r => le 2 (tget 0 (d.podAt (16 * g + i)).sent r)))

/-- The record of the cycle that runs goes to the twin in fragments (R347, R348). -/
def Dev.sendRecord (d : Dev) : Dev :=
  if !d.holdsDrive || !d.joined then d
  else
    let n := d.eng.cycle
    let s := d.changeSection
    let head := le 2 0x5754 ++ [1] ++ le 1 d.twinId ++ le 8 n ++ le 1 d.dir.state.code ++
      le 1 (b2n (d.twin.handoverCycle != 0) + 2 * b2n d.timeLocked + 4 * b2n d.holdsColl) ++ le 2 d.dir.latched ++ le 8 d.twin.handoverCycle ++
      le 8 d.eng.latchTime ++ le 4 s.2.1.length ++ le 2 (n % 4) ++ [0, 0] ++ le 8 s.2.2.2 ++ zeros 16
    let rec_ := head ++ (upto 4096).flatMap d.axisRecord ++ d.groupCodes (n % 4) ++ s.2.1
    let frags := (rec_.length + 9199) / 9200
    let d := (upto frags).foldl (fun d i =>
      d.sendFrame 38 0x40 0 0xFFFF (le 8 n ++ le 1 i ++ le 1 frags ++ [0, 0] ++ le 4 (9200 * i) ++ slice rec_ (9200 * i) 9200)) s.1
    { (d.bump 0x2501 1).bump 0x2501 5 s.2.2.1 with dir := { d.dir with latched := 0 } }

/-! ### What the twin makes of it -/

/-- The instants at which ports of a job last moved, as far as they still count: from the circuits' starts and from the
heads that wait out their flip (R143). -/
def Dev.lastMoves (d : Dev) : List (Nat × Nat) :=
  let a := d.circuits.foldl (fun m c => if c.inForce then
    let put := fun (m : List (Nat × Nat)) (p : Nat) => tset m p (max (tget 0 m p) c.liveAt)
    put (put m c.north) (southPort c.south) else m) []
  d.eng.heads.foldl (fun m e =>
    if e.2.noLaunch = 0 then m
    else let p := portOfHead e.1; tset m p (max (tget 0 m p) (e.2.noLaunch - Config.ms))) a

/-- The earliest release instant of a job: a control-cycle start 10 ms after now and after its ports' last moves. -/
def Dev.releaseInstant (d : Dev) (j : Nat) : Nat :=
  let moves := (d.lastMoves.filter (fun e => (d.job j).ports.testBit e.1)).map Prod.snd
  let t := (moves.foldl max d.now) + 10 * Config.ms
  (t + Config.cycle - 1) / Config.cycle * Config.cycle

/-- JOB: the job's state, its run and its restart; Zr follows from the instant at which the order comes in (DEDUCED, log 78). -/
def Dev.takeJobItem (d : Dev) (b : Bytes) : Dev :=
  let j := fld b 0 1
  let d := d.modJob j (fun x => { x with state := JobState.ofCode (fld b 1 1) })
  let d := d.modRun j (fun r =>
    { r with variant := fld b 3 1, next := fld b 4 4, loop := fld b 8 8, commits := fld b 16 8, fresh := false
             detours := bitsOf 256 (fld b 64 32), replanned := bitsOf 256 (fld b 96 32) })
  let on := fld b 32 8
  let st := fld b 2 1
  let rest := d.faults.restarts.filter (fun x => x.job != j)
  let order := slice b 40 24
  let old := (d.faults.restarts.find? (fun x => x.job == j && decide (x.state ≤ st))).getD
    { job := j, onset := d.now, l5 := d.nat 0x2310 6 }
  let new : Restart :=
    if allZero order then { old with state := st, order := [], zr := 0 }
    else { old with state := st, order := order, zr := if old.order = order then old.zr else d.releaseInstant j }
  let d := if d.holdsColl then d else d.modEngJob j (fun x => { x with stepNow := fld b 24 8 })
  { d with faults := { d.faults with
      stalls := d.faults.stalls.filter (fun x => x.job != j) ++
        (if on = 0 then [] else [{ job := j, onset := on, ownReason := 0, l3 := d.nat 0x2310 4, l4 := d.nat 0x2310 5, l5 := d.nat 0x2310 6 }])
      restarts := if st = 0 then rest else rest ++ [new] } }

/-- COMMIT: the entry in flight; one that has been applied flips the circuits that this module keeps (R350, R352). -/
def Dev.takeCommitItem (d : Dev) (b : Bytes) : Dev :=
  let j := fld b 0 1
  let st := CommitState.ofCode (fld b 1 1)
  let f := fld b 2 1
  let z := fld b 8 8
  let e := fld b 4 4
  let c := d.commit j
  let done := (c.state == .flipping || c.state == .verified) && c.z = z
  let slot := d.commitSlot j (almEntry (d.almanac j) e)
  let es := centries (d.slot slot)
  let d := if f.testBit 4 && !done then d.flip j z es (es.filter (·.starts)) else d
  (d.seeEpoch (fld b 16 4)).modCommit j (fun x =>
    { x with state := st, entry := e, z := z, slot := slot, reason := fld b 3 1, go := f.testBit 0, ackSent := f.testBit 1
             confirm := f.testBit 2, retract := f.testBit 3, voted := if st == .presteer then none else some true
             opened := z - d.nat 0x2600 1 * Config.us })

/-- COMET: the comet of a north port and plane, its lanes and weights from its entry. -/
def Dev.takeCometItem (d : Dev) (b : Bytes) : Dev :=
  let n := fld b 0 2
  let pl := fld b 4 1
  let j := fld b 6 1
  let e := centry (d.slot (d.commit j).slot) n
  let fl := fld b 7 1
  let c : Comet :=
    { id := fld b 16 2, job := j, entry := (d.commit j).entry, north := n, south := fld b 2 2, plane := pl, lanes := e.lanes
      weights := e.weights, state := CometState.ofCode (fld b 5 1), zenith := fld b 8 8, waypoint := fl.testBit 0
      searching := fl.testBit 1, crossing := fl.testBit 2 }
  { d with arr := { d.arr with comets := d.arr.comets.filter (fun x => !(x.north == n && x.plane == pl)) ++ [c] } }

/-- CIRCUIT: a change that no entry explains. -/
def Dev.takeCircuitItem (d : Dev) (b : Bytes) : Dev :=
  let n := fld b 0 2
  let pl := fld b 4 1
  let old := d.circuitOf n pl
  let base : Circuit := old.getD { north := n, south := 0, plane := pl, state := .live, lanes := 0, weights := [0, 0, 0, 0, 0, 0, 0, 0] }
  d.putCircuit { base with south := fld b 2 2, state := CState.ofCode (fld b 5 1), lanes := fld b 6 1 }

/-- PORT: the partner record of a port. -/
def Dev.takePortItem (d : Dev) (b : Bytes) : Dev :=
  let chip := fld b 4 2
  let i : Ident :=
    { chip := chip, link := fld b 3 1, profile := 1, vendor := fld b 8 4, serial := slice b 12 16, caps := fld b 6 2, lanes := 0, nonce := 0 }
  d.modPort (fld b 0 2) (fun x =>
    { x with state := PortState.ofCode (fld b 2 1), partner := if chip = 0xFFFF then none else some i, since := fld b 28 8 })

/-- VOIDED: a step that ports identified later must hear of (R251). -/
def Dev.takeVoidItem (d : Dev) (b : Bytes) : Dev :=
  match d.jobOfTag (fld b 0 4) with
  | some j =>
    if d.disc.voided.any (fun v => v.job == j && v.step == fld b 8 8) then d
    else { d with disc := { d.disc with voided := d.disc.voided ++ [{ job := j, step := fld b 8 8, zenith := 0, at_ := fld b 16 8 }] } }
  | none => d

/-- TRAJECTORY: the motions of a gang (R351); a stop carries no profile that its fields could hold. -/
def Dev.takeGangItem (d : Dev) (b : Bytes) : Dev :=
  let t := (fld b 8 2, fld b 10 2, fld b 12 2)
  let kind := fld b 15 1
  (upto (fld b 14 1)).foldl (fun d i =>
    let o := 16 + 20 * i
    let s := fldI b (o + 4) 8
    let segs := if kind = 1 then [] else slewSegs t (fldI b (o + 12) 8)
    let m : Motion := { segs := segs, p6 := 6 * s, from_ := fld b 0 8, target := none }
    d.modAxis (fld b o 2) (fun x => { x with motion := some { m with target := if kind = 1 then none else some (m.at_ m.length).1 } })) d

/-- DELETE: an item is gone. -/
def Dev.deleteItem (d : Dev) (kind index : Nat) : Dev :=
  match kind with
  | 1 => d.modJob index (fun x => { x with state := .empty })
  | 2 => d.modCommit index Commit.idle
  | 3 => { d with arr := { d.arr with comets := d.arr.comets.filter (fun x => !(x.north == index / 2 && x.plane == index % 2)) } }
  | 4 => d.modAxis index (fun x => { x with motion := none })
  | 5 => d.endCircuits (fun c => c.north == index / 2 && c.plane == index % 2)
  | 6 => d.modPort index (fun x => { x with state := .dark, partner := none })
  | 8 => d.setBoard index .absent
  | _ => d

/-- The index of an item from its body (Table 13.4). -/
def itemIndex (kind : Nat) (b : Bytes) : Nat :=
  match kind with
  | 3 => 2 * fld b 0 2 + fld b 4 1 | 4 => fld b 16 2 | 5 => 2 * fld b 0 2 + fld b 4 1 | 6 => fld b 0 2
  | 7 => fld b 0 4 * 2 ^ 64 + fld b 8 8 | 9 => fld b 0 1 * 65536 + fld b 2 2 | _ => fld b 0 1

/-- The identity under which versions are compared: a DELETE names the item that it removes. -/
def itemKey (kind : Nat) (b : Bytes) : Nat × Nat := if kind = 9 then (fld b 0 1, fld b 2 2) else (kind, itemIndex kind b)

/-- One item of a record: its newest VERSION is kept and takes effect, an older one is ignored (R349). -/
def Dev.takeItem (d : Dev) (kind version : Nat) (b : Bytes) : Dev :=
  let k := itemKey kind b
  let old := d.twin.items.find? (fun i => i.kind == k.1 && i.index == k.2)
  if (match old with | some o => decide (version ≤ o.version) | none => false) then d
  else
    let it : Item := { kind := k.1, index := k.2, version := version, body := if kind = 9 then [] else b }
    let d := d.modTwin (fun t => { t with items := t.items.filter (fun i => !(i.kind == k.1 && i.index == k.2)) ++ [it] })
    match kind with
    | 1 => d.takeJobItem b | 2 => d.takeCommitItem b | 3 => d.takeCometItem b | 4 => d.takeGangItem b | 5 => d.takeCircuitItem b
    | 6 => d.takePortItem b | 7 => d.takeVoidItem b | 8 => d.setBoard (fld b 0 1) (BState.ofCode (fld b 1 1))
    | 9 => d.deleteItem k.1 k.2
    | _ => d

/-- A refresh item came (REPEAT 3): the round is complete once one comes again (R350). -/
def Dev.noteRefresh (d : Dev) (key : Nat × Nat) : Dev :=
  d.modTwin (fun t => if t.refreshed.contains key then { t with fullPass := true } else { t with refreshed := t.refreshed ++ [key] })

/-- The items of a change section; `n` bounds their number. -/
def Dev.takeItems (d : Dev) : Nat → Bytes → Dev
  | 0, _ => d
  | n + 1, b =>
    if b.length < 8 then d
    else
      let len := fld b 2 2
      let body := slice b 8 len
      let kind := fld b 0 1
      let d := if fld b 1 1 = 3 then d.noteRefresh (kind, itemIndex kind body) else d
      (d.takeItem kind (fld b 4 4) body).takeItems n (b.drop (8 + len))

/-- A complete record arrives (R348 to R350, Table 13.6): heater codes, items, and the run towards STANDBY. A full pass is
complete once a refresh item comes round again. -/
def Dev.takeRecord (d : Dev) (cycle : Nat) (b : Bytes) : Dev :=
  let d := ((d.bump 0x2501 2).setNum 0x2501 4 (cycle : Nat)).modTwin (fun t =>
    { t with newest := some (cycle, b), good := t.good + 1, missing := 0, handoverCycle := fld b 16 8 })
  let g := fld b 36 2 % 4
  let d := (upto 16).foldl (fun d i =>
    d.modPod (16 * g + i) (fun p => { p with sent := (upto 176).map (fun r => (r, fld b (196672 + 2 * (176 * i + r)) 2)) })) d
  let d := (d.takeItems 2048 (slice b 202304 (fld b 32 4))).modTwin (fun t => { t with fullPass := t.fullPass || fld b 32 4 = 0 })
  let equal := fld b 12 1 = d.dir.state.code
  let d := d.modTwin (fun t => { t with differ := if equal then 0 else t.differ + 1 })
  match d.twin.drive with
  | .syncing =>
    if d.twin.fullPass && 20 ≤ d.twin.good && !d.storeStale && equal then d.modTwin (fun t => { t with drive := .standby }) else d
  | .standby => if 20 ≤ d.twin.differ then (d.modTwin Twin.syncDrive).syncCause 3 else d
  | _ => d

/-- A record is incomplete or missing: three in a row end STANDBY. -/
def Dev.missRecord (d : Dev) : Dev :=
  let d := d.modTwin (fun t => { t with good := 0, missing := t.missing + 1, intake := none })
  if 3 ≤ d.twin.missing && d.twin.drive == .standby then (d.modTwin Twin.syncDrive).syncCause 1 else d

/-- A fragment arrives (R348): the record is complete with its last one; a new cycle discards what is not. -/
def Dev.takeFragment (d : Dev) (cycle frag frags off : Nat) (data : Bytes) : Dev × Option Bytes :=
  let d := match d.twin.intake with
    | some i => if i.cycle = cycle then d else (d.bump 0x2501 3).missRecord
    | none => d
  let i := (d.twin.intake).getD { cycle := cycle, frags := frags }
  let i : Intake := { i with got := sinsert i.got frag, parts := tset i.parts off data }
  if (upto i.frags).all i.got.contains then (d.modTwin (fun t => { t with intake := none }), some (i.parts.flatMap Prod.snd))
  else (d.modTwin (fun t => { t with intake := some i }), none)

/-! ### Warm adoption (R351) -/

/-- What the record holds of an axis, none where it is to be adopted cold: poisoned, or searching. -/
def Dev.warmAxis (d : Dev) (b : Bytes) (a : Nat) : Option Axis :=
  let r := axisOfRecord (slice b (64 + 48 * a) 48)
  let h := headOfAxis a
  let searching := d.arr.comets.any (fun c => c.searching && (pairHeads c.north c.south c.plane).contains h) ||
    (r.1.state == .acquire && d.headLive h)
  if r.2 || searching then none else some { r.1 with motion := if r.1.state == .slew then (d.axis a).motion else none }

end Sys2Proof.Machine
end

