-- ==== Sys2Proof/Machine/Recovery.lean ====
section
/-!
DEFINITION. The fault manager's handler (R316, R317, R319) and the recovery levels (R321 to R332): reacquire, detours and
re-plans, stalls, the Director's FAULT and the restart of a job.
-/

namespace Sys2Proof.Machine
open Sys2Proof

/-! ### Budgets and epochs (R322 to R324) -/

/-- Whether every budget is at least 1.25 times the sum of those below it (R323). -/
def budgetsOk : Nat → List Nat → Bool
  | _, [] => true
  | s, b :: t => decide (5 * s ≤ 4 * b) && budgetsOk (s + b) t

/-- A level fires on a scope: its epoch, LEVEL_FIRED, and the recovery that now runs, with the budgets in force at the onset (R322). -/
def Dev.fire (d : Dev) (level scope index plane onset code cls : Nat) (budgets : List Nat) : Dev :=
  let r0 : Recovery :=
    { level := level, scope := scope, index := index, plane := plane, epoch := 0, onset := onset, code := code, cls := cls
      budgets := budgets }
  let d := (d.fireEpoch r0.key).bump 0x2311 level
  { d with faults := { d.faults with recoveries := d.faults.recoveries ++ [{ r0 with epoch := d.epochOf r0.key }] } }

/-- A level's failure or timeout enters the queue as event 0x0103 of the class of the level that is next (R322): DETAIL
names that level, the plane, the north port or job, and the onset. -/
def Dev.nextLevel (d : Dev) (level plane index onset : Nat) (budgets : List Nat) : Dev :=
  let cls := if level = 2 then 2 else if level = 4 then 3 else 4
  let scope := if level = 2 then 2 else if level = 4 then 0 else 1
  d.enqueue
    { code := 0x0103, cls := cls, scope := scope, index := index, time := d.now, level := level, active := cls == 4
      detail := le 1 level ++ le 1 plane ++ le 2 index ++ le 8 onset, epoch := d.eventEpoch scope index
      onset := some onset, budgets := budgets }

/-! ### Job restart (R331, R332) -/

/-- The restart record of a job changes. -/
def Dev.modRestart (d : Dev) (j : Nat) (f : Restart → Restart) : Dev :=
  { d with faults := { d.faults with restarts := d.faults.restarts.map (fun r => if r.job = j then f r else r) } }

/-- The class 4 conditions of a job have ended: it is no longer RESTARTING. -/
def Dev.unlatchJob (d : Dev) (j : Nat) : Dev :=
  let f := fun (x : Latch) => if x.cls = 4 && x.scope = 1 && x.index = j then { x with active := false } else x
  { d with faults := { d.faults with latched := d.faults.latched.map f } }

/-- Whether a recovery serves a circuit of a job. -/
def Dev.recoveryOfJob (d : Dev) (j : Nat) (r : Recovery) : Bool := r.scope = 0 && d.owner r.index == some j

/-- A RUNNING job enters RESTARTING (R331): its comets are aborted, its pending detours end. Its lower recoveries carry an older epoch from
now on: their results are discarded as they come (R324). -/
def Dev.restartJob (d : Dev) (j onset code : Nat) (budgets : List Nat) : Dev :=
  if (d.job j).state == .running then
    let d := (d.fire 5 1 j 0 onset code 4 budgets).modJob j (fun x => { x with state := .restarting })
    let d := { d with
      faults := { d.faults with
        stalls := d.faults.stalls.filter (fun (s : Stall) => s.job != j)
        restarts := d.faults.restarts.filter (fun (r : Restart) => r.job != j) ++ [({ job := j, onset := onset, l5 := budgets.getD 4 0 } : Restart)] }
      arr := { d.arr with detours := d.arr.detours.filter (fun (x : Detour) => x.job != j || (d.commit j).detour.isSome) } }
    ((d.abortRounds (fun r => r.ports.any (fun p => (d.job j).ports.testBit p))).memberQuit j 8).revote j
  else d

/-! ### L1 (R145) and L2 (R326 to R329) -/

/-- L1 starts on a circuit; one that is under way serves the new event too. -/
def Dev.startL1 (d : Dev) (e : Event) (c : Circuit) : Dev :=
  if d.faults.recoveries.any (fun r => Recovery.ofCircuit c.north c.plane r && !d.staleRecovery r) then d
  else (d.fire 1 0 c.north c.plane (e.onset.getD e.time) e.code e.cls e.budgets).startReacquire c

/-- The circuits in force of a job with the last moves, as a simulation at the present. -/
def Dev.simNow (d : Dev) (j : Nat) : Sim := { cs := d.simCircuits j, moved := d.lastMoves }

/-- The boards on which no circuit may be started. -/
def Dev.boardsOut (d : Dev) : List Nat := (upto 16).filter (fun b => (d.board b).state != .inService)

/-- Checks 2 to 6 of R84 for a slot's content at an instant against the circuits in force. -/
def Dev.checkNow (d : Dev) (j z : Nat) (e : AEntry) (slot : Nat) : Option Report :=
  sequenceChecks d.boardsOut (d.simNow j) z e (centries (d.slot slot)) 0

/-- The next `n` entries of a job from an entry and loop on, with their Zeniths. -/
def Dev.upcoming (d : Dev) (j : Nat) : Nat → Nat → Nat → List (AEntry × Nat)
  | 0, _, _ => []
  | n + 1, e, k =>
    let x := nextOf (d.almanac j) (d.run j).variant e k
    (almEntry (d.almanac j) e, d.zenith j e k) :: d.upcoming j n x.1 x.2

/-- The coming loop of a job's entries. -/
def Dev.comingLoop (d : Dev) (j : Nat) : List (AEntry × Nat) :=
  d.upcoming j (2 * (almVariant (d.almanac j) (d.run j).variant).count) (d.run j).next (d.run j).loop

/-- The ends at which L2 looks for a detour, in order (R327). -/
def Dev.triggerEnds (d : Dev) (c : Circuit) (trigger : Option Nat) : List Nat :=
  match trigger with
  | some p => [p]
  | none =>
    let n := c.north
    let s := southPort c.south
    match (d.port n).light, (d.port s).light with
    | false, true => [n]
    | true, false => [s]
    | _, _ => [n, s]

/-- The detour record that applies to a failed circuit: of the active variant, not yet active. -/
def Dev.findDetour (d : Dev) (j : Nat) (ends : List Nat) : Option DRec :=
  let rs := (almDetours (d.almanac j)).filter (fun r => r.variant = (d.run j).variant && !(d.run j).detours.contains r.index)
  ends.findSome? (fun p => rs.find? (fun r => r.port = p))

/-- A constellation with the entries of some ports released, its CRC made good (R329). -/
def releasePorts (b : Bytes) (ports : List Nat) : Bytes :=
  let b := (centries b).foldl (fun b e =>
    if e.south != 0xFFFF && (ports.contains e.north || ports.contains (southPort e.south)) then
      patch b (16 + 12 * e.north) (le 2 0xFFFF ++ zeros 10)
    else b) b
  patch b 12 (le 4 (crcWithout b 12))

/-- Where the LIBRARY content of a slot is kept while store SRAM holds a re-planned one (R329). -/
def libSlot (s : Nat) : Nat := 0x14400 + s

/-- A DETOUR_SLOT is composed anew (R329); none where the result fails R82. -/
def Dev.replan (d : Dev) (j base : Nat) : Option Dev :=
  match d.applying j base with
  | [] => some d
  | r :: t =>
    let b := releasePorts (d.slot r.slot) ((r :: t).map (·.port))
    match constStructure b, constOwnership (d.job j).ports b with
    | none, none =>
      let d := if (d.oct (libSlot r.slot) 1).isEmpty then d.setOct (libSlot r.slot) 1 (d.slot r.slot) else d
      some (((d.setOct (0x4400 + r.slot) 1 b).copyItem 1 r.slot).modRun j (fun x => { x with replanned := sinsert x.replanned r.index }))
    | _, _ => none

/-- Re-planning where R329 asks for it; none where it fails. -/
def Dev.replanIf (d : Dev) (j base : Nat) : Option Dev :=
  match d.applying j base with
  | [] => some d
  | r :: t =>
    let fails := match (d.comingLoop j).find? (fun x => x.1.slot = base) with
      | some x => (d.checkNow j x.2 x.1 r.slot).isSome
      | none => false
    if !t.isEmpty || fails then d.replan j base else some d

/-- The earliest out-of-schedule Zenith of a detour among the next `n` control cycles from an instant (R328). -/
def Dev.findZd (d : Dev) (j : Nat) (r : DRec) (coming : List (AEntry × Nat)) : Nat → Nat → Option Nat
  | 0, _ => none
  | n + 1, t =>
    let es := centries (d.slot r.slot)
    let ports := movedPorts (d.simCircuits j) es
    let touches := fun (x : AEntry × Nat) => (movedPorts (d.simCircuits j) (centries (d.slot (d.commitSlot j x.1)))).any ports.contains
    let e : AEntry := { index := 0, orbit := 0, sub := 0, slot := r.slot, flags := 0, cls := 0, amount := 0, prefetch := 0xFFFF }
    let clear := coming.all (fun x => decide (x.2 + 2 * Config.ms ≤ t) || decide (t + 2 * Config.ms ≤ x.2))
    let far := coming.all (fun x => !touches x || decide (t + 10 * Config.ms ≤ x.2) || decide (x.2 + 10 * Config.ms ≤ t))
    if clear && far && (d.checkNow j t e r.slot).isNone then some t else d.findZd j r coming n (t + Config.cycle)

/-- The entry that is in force: the one before the pointer. -/
def Dev.entryInForce (d : Dev) (j : Nat) : Option AEntry :=
  let r := d.run j
  let v := almVariant (d.almanac j) r.variant
  if r.commits = 0 then none
  else some (almEntry (d.almanac j) (if r.next = v.first then v.first + v.count - 1 else r.next - 1))

/-- The pending out-of-schedule commits of a job for a BASE_SLOT, but for one whose launch window is open. -/
def Dev.pendingFor (d : Dev) (j base : Nat) (x : Detour) : Bool :=
  x.job == j && !((d.commit j).detour.isSome && (d.commit j).z == x.zd) &&
    (almDetours (d.almanac j)).any (fun r => r.index == x.record && r.base == base)

/-- An out-of-schedule commit of the record that now applies is put in where one fits before its next BASE_SLOT Zenith; it takes
the place of a pending one of a record that no longer does (R90, R328). -/
def Dev.scheduleDetour (d : Dev) (j : Nat) (r : DRec) : Dev :=
  if d.arr.detours.any (fun x => d.pendingFor j r.base x && x.record == r.index) then d
  else
  let d := { d with arr := { d.arr with detours := d.arr.detours.filter (fun x => !d.pendingFor j r.base x) } }
  match d.entryInForce j with
  | none => d
  | some e =>
    if e.slot != r.base then d
    else
      let coming := d.comingLoop j
      let t0 := d.now + d.nat 0x2600 1 * Config.us
      let t0 := (t0 + Config.cycle - 1) / Config.cycle * Config.cycle
      let stop := ((coming.find? (fun x => x.1.slot = r.base)).map (·.2)).getD (t0 + Config.sec)
      match d.findZd j r coming ((stop - t0) / Config.cycle) t0 with
      | some zd => { d with arr := { d.arr with detours := d.arr.detours ++ [{ job := j, record := r.index, zd := zd }] } }
      | none => d

/-- An entry already in its launch window takes the slot that the active records now give it: its comets begin again. -/
def Dev.relaunchEntry (d : Dev) (j : Nat) : Dev :=
  let c := d.commit j
  if (c.state == .presteer || c.state == .voted) && c.detour.isNone then
    let slot := d.commitSlot j (almEntry (d.almanac j) c.entry)
    if slot = c.slot then d
    else
      let d := d.abortJobComets j
      let d := d.modCommit j (fun x => { x with slot := slot, stages := [] })
      (d.createComets j c.entry c.z (centries (d.slot slot))).revote j
  else d

/-- The L2 recoveries in force of a circuit are served by a detour record (R327). -/
def Dev.servedBy (d : Dev) (c : Circuit) (record : Nat) : Dev :=
  let f := fun (r : Recovery) =>
    if r.level = 2 && Recovery.ofCircuit c.north c.plane r && !d.staleRecovery r then { r with record := some record } else r
  { d with faults := { d.faults with recoveries := d.faults.recoveries.map f } }

/-- L2 on a circuit (R326 to R329). What L1 on it still brings carries an older epoch (R324). -/
def Dev.startL2 (d : Dev) (code cls onset : Nat) (budgets : List Nat) (trigger : Option Nat) (c : Circuit) : Dev :=
  let mine := Recovery.ofCircuit c.north c.plane
  let d := if d.eng.reacquires.any (fun x => x.1 = c.north && x.2.1 = c.plane) then d.endReacquire c else d
  let d := d.abortRounds (fun r => r.ports.any c.hasPort)
  match d.owner c.north with
  | none => d
  | some j =>
    let d := d.fire 2 0 c.north c.plane onset code cls budgets
    let policy := d.nat (0x2320 + j) 1
    if policy = 1 then d.nextLevel 5 c.plane j onset budgets
    else
      match d.findDetour j (d.triggerEnds c trigger) with
      | some r =>
        let d := (d.modRun j (fun x => { x with detours := sinsert x.detours r.index })).servedBy c r.index
        match d.replanIf j r.base with
        | some d =>
          let d := d.relaunchEntry j
          match d.applying j r.base with
          | top :: _ => d.scheduleDetour j top
          | [] => d
        | none => d.nextLevel 5 c.plane j onset budgets
      | none => if policy = 2 then d.recovered 2 mine else d.nextLevel 5 c.plane j onset budgets

/-- An entry of a job has been verified at the slot that detour records give it: the L2 recoveries that these records serve succeed
(Table 12.5). -/
def Dev.detourVerified (d : Dev) (j base : Nat) : Dev :=
  let records := (d.applying j base).map (·.index)
  d.recovered 2 (fun r => d.recoveryOfJob j r && r.record.any records.contains)

/-! ### Stalls (R325) -/

/-- An entry of a job has passed its Zenith uncommitted. -/
def Dev.noteStall (d : Dev) (j z reason own : Nat) : Dev :=
  if reason = 2 || (d.job j).state != .running then d
  else if d.faults.stalls.any (fun s => s.job = j) then
    { d with faults := { d.faults with stalls := d.faults.stalls.map (fun s => if s.job = j then { s with ownReason := own } else s) } }
  else
    -- the onset is that of an open fault of the job where that is earlier
    let open_ := d.faults.recoveries.filter (fun r => d.recoveryOfJob j r && !d.staleRecovery r)
    let first := open_.foldl (fun (m : Nat × List Nat) r => if r.onset < m.1 then (r.onset, r.budgets) else m) (z, d.budgets)
    { d with faults := { d.faults with stalls := d.faults.stalls ++
        [{ job := j, onset := first.1, ownReason := own, l3 := first.2.getD 2 0, l4 := first.2.getD 3 0, l5 := first.2.getD 4 0 }] } }

/-- The job commits an entry: its stall ends. -/
def Dev.endStall (d : Dev) (j : Nat) : Dev :=
  let d := if d.faults.stalls.any (fun s => s.job = j && s.l3Fired) then d.bump 0x2311 8 else d
  ({ d with faults := { d.faults with stalls := d.faults.stalls.filter (fun (s : Stall) => s.job != j) } }).unlatch 0x0405 1 j

/-! ### What an event starts (Table 12.3) -/

/-- The circuit in force on an axis's head. -/
def Dev.circuitOfAxis (d : Dev) (a : Nat) : Option Circuit :=
  match d.circuitAt (portOfAxis a) (headOfAxis a % 2) with
  | some c => if c.inForce then some c else none
  | none => none

/-- L4: the Director enters FAULT and the twin takes the roles. -/
def Dev.startL4 (d : Dev) (e : Event) : Dev :=
  if d.inState [.boot, .fault] then d else (d.enterFault .fault).fire 4 2 0 0 (e.onset.getD e.time) e.code e.cls e.budgets

/-- The recovery of an event starts or advances; the result of one that succeeded starts none. -/
def Dev.startRecovery (d : Dev) (e : Event) : Dev :=
  let onset := e.onset.getD e.time
  if e.result then d
  else if e.code = 0x0103 then
    if e.level = 2 then
      match d.circuitOf (fld e.detail 2 2) (fld e.detail 1 1) with
      | some c => d.startL2 0x0103 e.cls onset e.budgets none c
      | none => d
    else if e.level = 4 then d.startL4 e
    else d.restartJob e.index onset e.code e.budgets
  else if e.cls = 4 then if e.scope = 1 then d.restartJob e.index onset e.code e.budgets else d
  else if e.code = 0x0A02 && d.power.shutAt.isSome then d
  else if e.cls = 3 then d.startL4 e
  else if e.code = 0x0201 then
    match d.circuitOfAxis e.index with
    | some c => if (d.axis e.index).poisonedSets.isEmpty then d.startL1 e c else d.startL2 e.code e.cls onset e.budgets none c
    | none => d
  else if e.code = 0x0302 then
    match (d.forceAt e.index).find? (fun c => c.state == .lost) with
    | some c => d.startL1 e c
    | none => d
  else if e.code = 0x0602 then
    match d.forceAt e.index with
    | c :: _ => d.startL2 e.code e.cls onset e.budgets (some e.index) c
    | [] => d
  else if e.code = 0x0203 then
    d.arr.comets.foldl (fun d c =>
      if c.north = e.index && c.state == .fault && d.now < c.zenith then
        d.modComet c (fun x => { x with state := .waiting, leg := 0, searching := false, okN := false, okS := false })
      else d) d
  else d

/-! ### The handler (R316, R317, Table 12.4) -/

/-- One step of a handling: the record, the latch, the emergency, the recovery. -/
def Dev.handle (d : Dev) (e : Event) : Dev × Event :=
  match e.step with
  | 1 =>
    let latched := d.faults.latched.length < 32 || (lowestInactive d.latches).isSome
    let d := d.write false
      { seq := 0, time := e.time, event := e.code, cls := e.cls, flags := d.logFlags false (e.cls = 3 && d.dir.inProgress.isSome) latched, scope := e.scope
        level := e.level, index := e.index, epoch := e.epoch, count := min 65535 e.count, detail := padTo 28 e.detail }
    (d.markSeq e.code e.cls (d.faults.pub.next - 1), { e with seq := d.faults.pub.next - 1, step := 2 })
  | 2 => (d.latch e, { e with step := 3 })
  | 3 => (d.emergency (0xFF00 + e.cls) e.code e.seq, { e with step := 4 })
  | _ => (d.startRecovery e, { e with step := 5 })

/-- Whether the handling of an event has made its last step; 0x0101 in FAULT is only logged (R318). -/
def Dev.handled (d : Dev) (e : Event) : Bool :=
  decide (5 ≤ e.step) || (e.code = 0x0101 && e.step = 2 && d.dir.state == .fault)

/-- A handling is complete: the parked one resumes, or is discarded where an epoch has cancelled its scope, or the next
event is taken. -/
def Dev.nextHandling (d : Dev) : Dev :=
  let d := { d with faults := { d.faults with current := none } }
  match d.faults.parked with
  | some p =>
    let d := { d with faults := { d.faults with parked := none } }
    if d.cancelled p then (d.bump 0x2300 9).takeHead
    else { d with faults := { d.faults with current := some p } }
  | none => d.takeHead

/-- A pre-empted handling is queued at the head of its class as an event (Table 12.4): 0x0101 in its own slot, any other among the 64
(R318). -/
def Dev.putBack (d : Dev) (e : Event) : Dev :=
  let d := { d with faults := { d.faults with current := none } }
  if e.code = 0x0101 then
    let o := match d.faults.overflow with | some o => { e with count := e.count + o.count } | none => e
    { d with faults := { d.faults with overflow := some o } }
  else if 64 ≤ d.faults.queue.length then d.overflow queueHead e
  else ({ d with faults := { d.faults with queue := queueHead e d.faults.queue } }).queuePeak

/-- A queued event of a higher class pre-empts the handling at the end of its step. -/
def Dev.preempt (d : Dev) : Dev :=
  match d.faults.current with
  | none => d
  | some e =>
    let top := match d.faults.queue.head?, d.faults.overflow with
      | some x, some _ => max x.cls 3 | some x, none => x.cls | none, some _ => 3 | none, none => 0
    if top ≤ e.cls then d
    else
      let d := d.bump 0x2300 8
      let e := { e with epoch := d.eventEpoch e.scope e.index }
      match d.faults.parked with
      | none => ({ d with faults := { d.faults with current := none, parked := some e } }).takeHead
      | some _ => (d.putBack e).takeHead

/-- HANDLER_STEP. -/
def Dev.handlerStep (d : Dev) : Dev :=
  match d.faults.current with
  | none => d.takeHead
  | some e =>
    let r := d.handle e
    -- the event may have lost its ACTIVE during the step
    let act := match r.1.faults.current with | some x => x.active | none => e.active
    let e' := { r.2 with active := act }
    let d := { r.1 with faults := { r.1.faults with current := some e' } }
    if d.handled e' then d.nextHandling else d.preempt

/-! ### Timers -/

/-- The budget of a level expires (R322): event 0x0103 for the next level; a stale one is only counted (R324). -/
def Dev.levelTimeout (d : Dev) (n : Nat) : Dev :=
  match d.faults.recoveries.find? (fun r => r.level = n) with
  | none => d
  | some r =>
    let d := d.reach (r.onset + r.budgets.getD (n - 1) 0 * Config.ms)
    if d.staleRecovery r then (d.bump 0x2300 0x0B).dropRecovery r
    else
      let d := d.dropRecovery r
      if n = 1 then
        let d := match d.circuitOf r.index r.plane with | some c => d.endReacquire c | none => d
        d.nextLevel 2 r.plane r.index r.onset r.budgets
      else if n = 2 then
        match d.owner r.index with
        | some j => d.nextLevel 5 r.plane j r.onset r.budgets
        | none => d
      else d

/-- A try of a reacquire ends (R145): the next one, or L1 has failed. -/
def Dev.tryEnd (d : Dev) (north plane : Nat) : Dev :=
  match d.eng.reacquires.find? (fun x => x.1 = north && x.2.1 = plane), d.circuitOf north plane with
  | some t, some c =>
    let d := d.reach t.2.2.2
    let mine := fun (x : Nat × Nat × Nat × Nat) => x.1 = north && x.2.1 = plane
    if t.2.2.1 < d.nat 0x2310 1 then
      let t' := (north, plane, t.2.2.1 + 1, d.now + d.nat 0x2310 2 * Config.ms)
      let d := { d with eng := { d.eng with reacquires := d.eng.reacquires.map (fun x => if mine x then t' else x) } }
      d.reacquireTry c
    else
      let d := d.endReacquire c
      match d.faults.recoveries.find? (fun r => r.level = 1 && Recovery.ofCircuit north plane r) with
      | some r =>
        if d.staleRecovery r then (d.bump 0x2300 0x0B).dropRecovery r
        else (d.dropRecovery r).nextLevel 2 plane north r.onset r.budgets
      | none => d
  | _, _ => d

/-- Event 0x0405 of a class for a stall, with its onset (R322). -/
def Dev.stalled (d : Dev) (s : Stall) (cls : Nat) : Dev :=
  d.enqueue { code := 0x0405, cls := cls, scope := 1, index := s.job, time := d.now, active := true, epoch := d.eventEpoch 1 s.job
              onset := some s.onset, budgets := [0, 0, s.l3, s.l4, s.l5] }

/-- The L3 or the L4 deadline of a stall (R325). -/
def Dev.stallDeadline (d : Dev) (j : Nat) : Dev :=
  match d.faults.stalls.find? (fun s => s.job = j) with
  | none => d
  | some s =>
    if !s.l3Fired then
      let d := ((d.reach (s.onset + s.l3 * Config.ms)).bump 0x2311 3).fireEpoch (1 + j)
      let d := { d with faults := { d.faults with stalls := d.faults.stalls.map (fun x => if x.job = j then { x with l3Fired := true } else x) } }
      if s.ownReason = 1 || s.ownReason = 5 || s.ownReason = 10 then d.stalled s 3 else d
    else (d.reach (s.onset + s.l4 * Config.ms)).stalled s 4

/-- HOLD or RETRACT with reason 8 for a RUNNING job: the other members restart, so this one does (R325). -/
def Dev.reasonEight (d : Dev) (j reason : Nat) : Dev :=
  if reason = 8 && (d.job j).state == .running then d.raise 0x0404 4 1 j true else d

/-! ### The order and the release (R332) -/

/-- Both shutters of every port of a job go dark at an instant, in one strobe. -/
def Dev.armRelease (d : Dev) (j z : Nat) : Dev :=
  let ports := bitsOf 1024 (d.job j).ports
  match d.freeTags 1 with
  | some (t :: _) =>
    let ws := ports.flatMap (fun p => (upto 2).map (fun pl => (⟨p, shutterTuner pl, d.shutterCode p pl false⟩ : TWrite)))
    ((d.stageWrites t ws).armStrobe { z := z, pods := podsOf ws, tag := t, kind := 5, job := j }).1
  | _ => d

/-- An order that passed its checks is latched in place of an earlier one: Zr is set and the release is armed; 0xFF stops
the job. -/
def Dev.takeOrder (d : Dev) (j : Nat) (b : Bytes) : Dev :=
  let d := d.cancelStrobes (fun s => s.kind = 5 && s.job = j)
  if fld b 0 1 = 0xFF then
    let d := (d.stopJob j 2).unlatchJob j
    { d with faults := { d.faults with
        restarts := d.faults.restarts.filter (fun r => r.job != j)
        recoveries := d.faults.recoveries.filter (fun r => !(r.scope = 1 && r.index = j)) } }
  else
    let zr := d.releaseInstant j
    (d.armRelease j zr).modRestart j (fun r => { r with order := b, zr := zr })

/-- At Zr every circuit of the job is released and the variant starts (R332, R91). -/
def releaseJob (m : Dev × Hbm) (j : Nat) : Dev × Hbm :=
  let d := m.1
  match d.faults.restarts.find? (fun r => r.job = j && !r.order.isEmpty && r.state = 1) with
  | none => m
  | some r =>
    let d := d.reach r.zr
    let v := fld r.order 0 1
    let gone := d.circuits.filter (d.jobCircuit j)
    let d := (gone.foldl (fun d c => d.endCircuit r.zr c) d).retrainServices d.circuits
    let d := (bitsOf 1024 (d.job j).ports).foldl (fun d p => (d.setShutter p 0 false).setShutter p 1 false) d
    let first := (almVariant (d.almanac j) v).first
    let d := d.modRun j (fun x =>
      { x with variant := v, base := fld r.order 8 8, next := first, loop := 0, fresh := false })
    let d := d.modRun j (fun x => { x with zenith := d.zenith j first 0 })
    let d := (d.modJob j (fun x => { x with state := .running })).modRestart j (fun x => { x with state := 3 })
    let d := (d.recovered 5 (fun x => x.scope = 1 && x.index = j)).unlatchJob j
    engineResume (d, m.2) j (fld r.order 16 8)

/-- No order came in time: the job is STOPPED, with event 0x0104. -/
def Dev.orderTimeout (d : Dev) (j : Nat) : Dev :=
  match d.faults.restarts.find? (fun r => r.job = j && r.order.isEmpty && r.state = 1) with
  | none => d
  | some r =>
    let d := d.reach (r.onset + r.l5 * Config.ms)
    let d := ((d.stopJob j 2).modRestart j (fun x => { x with state := 4 })).unlatchJob j
    let d := { d with faults := { d.faults with recoveries := d.faults.recoveries.filter (fun x => !(x.scope = 1 && x.index = j)) } }
    d.raise 0x0104 1 1 j

/-! ### FAULT_ACK (R320, Table 5.6) -/

/-- FAULT_ACK: every inactive latch leaves, LOST_MARKER clears, and a faulted axis whose head carries no circuit in force
and whose sets hold no poison is closed by cold adoption. -/
def Dev.faultAck (d : Dev) : Dev :=
  let d := (d.acknowledge (2 ^ 64 - 1)).setFlag 0x2300 6 false
  (d.eng.axes.map Prod.fst).foldl (fun d a =>
    if (d.axis a).state == .fault && !d.headLive (headOfAxis a) && (d.axis a).poisonedSets.isEmpty then
      (d.coldSeedAxis a .holdClosed).unlatch 0x0201 3 a
    else d) d

end Sys2Proof.Machine
end

