-- ==== Sys2Proof/Machine/OpticsFamily.lean ====
section
/-!
DEFINITION. The commands of chapter 08 that carry no SDO request: laser modules, synthesisers and their calibration,
transmit commands, block headers, link frames, acknowledgements and training.
-/

namespace Sys2Proof.Machine
open Sys2Proof

/-! ### Laser slots (R209 to R212) -/

/-- A comet loses its pilots and faults ("Slot 3 laser swap while comets run", chapter 08); a READY or STAGED one first loses its
alignment and keeps its state from Z − 200 µs on (Table 7.3). -/
def Dev.cometDark (d : Dev) (c : Comet) : Dev :=
  match c.state with
  | .slewing | .acquiring => d.faultComet c
  | .ready | .staged => if d.now < c.zenith - 200 * Config.us then (d.alignmentLost c).faultComet c else d
  | _ => d

/-- A slot 3 laser goes dark: the pilots of its sixteen pods end, and their comets fault (R210). -/
def Dev.pilotsOff (d : Dev) (s m : Nat) : Dev :=
  if s = 3 then
    let fed := fun (h : Nat) => decide (podOf (portOfHead h) / 16 = m)
    let d := (d.arr.comets.filter (fun c => (pairHeads c.north c.south c.plane).any fed)).foldl Dev.cometDark d
    (d.opt.gates.filter (fun g => fed g.1)).foldl (fun d g => d.gateDark g.1) d
  else d

/-- A slot 3 laser is lit again: the gates that are still open carry light. -/
def Dev.pilotsOn (d : Dev) (m : Nat) : Dev :=
  (d.opt.gates.filter (fun g => podOf (portOfHead g.1) / 16 = m)).foldl (fun d g => d.gateLight g.1 g.2) d

/-- A slot none of whose lasers is lit any more is in FAULT. -/
def Dev.slotFault (d : Dev) (s : Nat) : Dev :=
  d.modLaser s (fun x => if x.state == .lit && x.lit = 0 then { x with state := .fault } else x)

/-- LASER_MODULE_INSERTED (R209): PRESENT, or REFUSED where a check fails; no laser is lit by it. -/
def execLaserModuleInserted (slot : Fin 4) (vendor part serial : Bytes) (freqOk powerOk mgmtOk : Bool) (s : State) :
    Host.Outcome State Fault Refusal :=
  .next (s.onDev fun d =>
    let ok := freqOk && powerOk && mgmtOk
    (d.unlatch 0x0501 6 slot).modLaser slot (fun _ =>
      { state := if ok then .present else .refused, present := true, good := ok, vendor := vendor, part := part, serial := serial }))

/-- LASER_MODULE_REMOVED (R212): every lane it feeds drops at once, and its lease goes back. -/
def execLaserModuleRemoved (slot : Fin 4) (s : State) : Host.Outcome State Fault Refusal :=
  .next (s.onDev fun d =>
    let d := (upto (lasersOf slot)).foldl (fun d m => (d.laserOff slot m).pilotsOff slot m) d
    ((d.release 4 slot).unlatch 0x0501 6 slot).modLaser slot (fun _ => {}))

/-- LASER_RAMP_DONE (R211): the slot is LIT but for the lasers that are dead or stayed short of their set-points. -/
def execLaserRampDone (slot : Fin 4) (short : Fin 256) (s : State) : Host.Outcome State Fault Refusal :=
  .next (s.onDev fun d =>
    if (d.laser slot).state != .enabling then d
    else
      let d := match d.grantOf 4 slot with
        | some g => d.reach (g.till - 10 * Config.ms)
        | none => d
      let d := (d.release 4 slot).modLaser slot (fun x => { x with state := .lit })
      let d := (upto (lasersOf slot)).foldl (fun d m =>
        if (d.laser slot).dead.testBit m then d
        else if short.val.testBit m then d.laserDie slot m
        else
          let d := d.laserOn slot m
          if slot.val = 3 then (d.pilotsOn m).probeLightBack m else d) d
      d.slotFault slot)

/-- LASER_DEAD (R212): 100 µs more than 3 dB below its set-point. -/
def execLaserDead (slot : Fin 4) (m : Fin 8) (s : State) : Host.Outcome State Fault Refusal :=
  .next (s.onDev fun d =>
    if d.laserLit slot m then ((d.laserDie slot m).pilotsOff slot m).slotFault slot else d)

/-- LASER_ALARM (R212): taken on interrupt; the laser is dead, whether its slot is lit or not. -/
def execLaserAlarm (slot : Fin 4) (m : Fin 8) (s : State) : Host.Outcome State Fault Refusal :=
  .next (s.onDev fun d =>
    if !(d.laser slot).present then d
    else
      let d := d.modLaser slot (fun x => { x with alarm := setBit x.alarm m true })
      if m.val < lasersOf slot && !(d.laser slot).dead.testBit m then ((d.laserDie slot m).pilotsOff slot m).slotFault slot else d)

/-- LASER_MONITOR_POLL (R209). -/
def execLaserMonitorPoll (slot : Fin 4) (power : List Int) (temp : Int) (s : State) : Host.Outcome State Fault Refusal :=
  .next (s.onDev fun d =>
    if (d.laser slot).present then d.modLaser slot (fun x => { x with power := power, temp := temp }) else d)

/-! ### Synthesisers (R213 to R216) -/

/-- A lane has locked: its gate opens (Table 8.5); on a service port without its context the synthesiser stays locked
behind a closed gate (R224). -/
def Dev.laneLocked (d : Dev) (l k : Nat) : Dev :=
  let x := d.lane l k
  let p := portOfCtx l
  match x.state with
  | .locking => d.modLane l k (fun y => { y with state := .aligning, seen := 0, missed := 0 })
  | .dropped =>
    let d := d.modLane l k (fun y => { y with state := .aligning, seen := 0, missed := 0 })
    d.unlatch 0x0502 (if p < 32 then 9 else 8) (if p < 32 then p else p - 32)
  | .settling => d.modLane l k (fun y => { y with state := .aligning, seen := 0, missed := 0 })
  | _ => d

/-- A link has lost a lane of ACTIVE for the while: with no lane left it is DOWN (R215), the twin link with its roles. -/
def Dev.laneGone (d : Dev) (l : Nat) : Dev :=
  let was := (d.link l).isUp
  let d := d.refreshLink l
  if l = 38 && was && !(d.link l).isUp then d.twinGone else d

/-- A lane has lost lock: its gate closes (R213, Table 8.5). Table 8.5 has no row for ALIGNING: the lane stays there (DESIGN CHOICE,
log 96), dark until it locks again. -/
def Dev.laneUnlocked (d : Dev) (l k : Nat) : Dev :=
  match (d.lane l k).state with
  | .active => (d.modLane l k (fun y => { y with state := .settling, leftAt := d.now })).laneGone l
  | _ => d

/-- What a sample of a synthesiser makes of its lane (R213): LOCKED after 8 samples within 1 GHz, unlocked by one beyond 3 GHz or
below the floor. -/
def Lane.sample (x : Lane) (offset : Int) (powerOk : Bool) : Lane :=
  let near := decide (offset.natAbs ≤ 1000) && powerOk
  let far := decide (3000 < offset.natAbs) || !powerOk
  let run := if near then min 8 (x.okRun + 1) else 0
  if x.locked then (if far then { x with locked := false, okRun := 0 } else { x with okRun := run })
  else { x with okRun := run, locked := decide (8 ≤ run) }

/-- A sample of a link lane's synthesiser: one of a lane not in use locks behind its closed gate (R224), and a lane that hunts with
its synthesiser locked has its lock now. -/
def Dev.sampleLane (d : Dev) (l k : Nat) (offset : Int) (powerOk : Bool) : Dev :=
  let c := d.ctxOfLane l k
  if !d.laneFed l k || (l < 32 && !d.isC) then d
  else
    let was := (d.lane c k).locked
    let d := d.modLane c k (fun x => x.sample offset powerOk)
    match was, (d.lane c k).locked with
    | false, true => (d.laneLocked c k).serveLane c k
    | true, false => d.laneUnlocked c k
    | true, true => if (d.lane c k).state == .locking then (d.laneLocked c k).serveLane c k else d
    | false, false => d

/-- A probe transmitter changes. -/
def Dev.modTx (d : Dev) (x : Nat) (f : Lane → Lane) : Dev :=
  { d with opt := { d.opt with probes := tmod {} d.opt.probes x (fun y => { y with tx := f y.tx }) } }

/-- The frames held for a transceiver's transmitter leave, or are refused (R215). -/
def Dev.serveTx (d : Dev) (x : Nat) : Dev :=
  match (d.probeAt x).port with
  | some p => d.servePort p
  | none => d

/-- A sample of a probe transmitter's synthesiser (R213): locked, its gate opens and the frames held leave. -/
def Dev.sampleTx (d : Dev) (x : Nat) (offset : Int) (powerOk : Bool) : Dev :=
  if !d.podLit (x / 4) then d
  else
    let was := (d.probeAt x).tx.locked
    let d := d.modTx x (fun y => y.sample offset powerOk)
    let now := (d.probeAt x).tx
    match was, now.locked with
    | false, true =>
      if now.state == .calibrating then d
      else
        let held := now.state == .settling && (match (d.probeAt x).port with | some p => !(d.port p).queue.isEmpty | none => false)
        let d := (d.modTx x (fun y => { y with state := .active })).serveTx x
        if held then d.bump 0x2A00 4 else d
    | true, false => if now.state == .active then d.modTx x (fun y => { y with state := .settling, leftAt := d.now }) else d
    | _, _ => d

/-- SYNTH_SAMPLE (R213): offsets in MHz, of a link lane or of probe transmitter `l` − 39. -/
def execSynthSample (l : Fin 295) (k : Fin 8) (offset : Int) (powerOk : Bool) (s : State) : Host.Outcome State Fault Refusal :=
  .next (s.onDev fun d => if l.val < 39 then d.sampleLane l k offset powerOk else d.sampleTx (l - 39) offset powerOk)

/-- Whether a Zenith that moves a service port comes within 1 ms (R214). -/
def Dev.serviceZenithNear (d : Dev) (n : Nat) : Bool :=
  (upto 16).any (fun j =>
    let c := d.commit j
    !(c.state == .idle || c.state == .held || c.state == .retracted || c.state == .verified || c.state == .reverted) &&
      d.now < c.z + 1 && c.z < d.now + Config.ms &&
      (d.entryPorts j (centries (d.slot c.slot))).contains (southPort (480 + n)))

/-- The modulator calibration of a link lane begins (R214): one lane of a port at a time, and no service lane close to its Zenith. -/
def Dev.calLane (d : Dev) (l k : Nat) : Dev :=
  let c := d.ctxOfLane l k
  let x := d.lane c k
  let busy := [l, 64 + l].any (fun i => (d.link i).lanes.any (fun e => e.2.state == .calibrating))
  let d := if x.state == .active then d.reach (x.calAt + d.nat 0x2A00 2 * Config.sec) else d
  if x.state != .active || busy || (l < 32 && d.serviceZenithNear l) then d
  else (d.modLane c k (fun y => { y with state := .calibrating, leftAt := d.now })).laneGone c

/-- That of a probe transmitter: only while its transceiver has no frame queued. -/
def Dev.calTx (d : Dev) (x : Nat) : Dev :=
  let t := (d.probeAt x).tx
  let d := if t.state == .active then d.reach (t.calAt + d.nat 0x2A00 2 * Config.sec) else d
  if t.state != .active || (xcvrPorts x).any (fun p => !(d.port p).queue.isEmpty) then d
  else d.modTx x (fun y => { y with state := .calibrating, leftAt := d.now })

/-- MOD_CAL_DUE (R214). -/
def execModCalDue (l : Fin 295) (k : Fin 8) (s : State) : Host.Outcome State Fault Refusal :=
  .next (s.onDev fun d => if l.val < 39 then d.calLane l k else d.calTx (l - 39))

/-- MOD_CAL_DONE (R214): the lane returns through ALIGNING (Table 8.5), a probe transmitter to its frames; one of these that has lost
lock meanwhile settles. -/
def execModCalDone (l : Fin 295) (k : Fin 8) (s : State) : Host.Outcome State Fault Refusal :=
  .next (s.onDev fun d =>
    if l.val < 39 then
      let c := d.ctxOfLane l k
      if (d.lane c k).state == .calibrating then
        (d.modLane c k (fun y => { y with state := .aligning, seen := 0, missed := 0, calAt := d.now })).serveLane c k
      else d
    else
      let x := l.val - 39
      if (d.probeAt x).tx.state == .calibrating then
        (d.modTx x (fun y => { y with state := if y.locked then .active else .settling, calAt := d.now })).serveTx x
      else d)

/-- SETTLE_WAIT of a lane (R215): still out, it is removed from ACTIVE, and the frames held go on the others. -/
def Dev.settleLane (d : Dev) (l k : Nat) : Dev :=
  let c := d.ctxOfLane l k
  let x := d.lane c k
  if !(d.link c).active.testBit k || x.state == .active then d
  else
    let was := (d.link c).isUp
    let d := d.reach (x.leftAt + d.nat 0x2A00 1 * Config.us)
    let d := match x.state with
      | .settling => d.dropLane c k
      | .calibrating => d.dropLane c k
      | _ => (d.modLink c (fun y => { y with active := setBit y.active k false })).refreshLink c
    let d := if (d.link c).holding then d else d.drainFrames c
    if c = 38 && was && !(d.link 38).isUp then d.twinGone else d

/-- SETTLE_WAIT of a probe transmitter: the frame held for it is refused NOT_LOCKED (R215). -/
def Dev.settleTx (d : Dev) (x : Nat) : Dev :=
  let t := (d.probeAt x).tx
  if t.state == .settling || t.state == .calibrating then
    let d := (d.reach (t.leftAt + d.nat 0x2A00 1 * Config.us)).modTx x (fun y => { y with state := .dropped, locked := false, okRun := 0 })
    d.serveTx x
  else d

/-- SETTLE_WAIT (R215). -/
def execSettleWait (l : Fin 295) (k : Fin 8) (s : State) : Host.Outcome State Fault Refusal :=
  .next (s.onDev fun d => if l.val < 39 then d.settleLane l k else d.settleTx (l - 39))

/-- The context of a port that a frame for a chip goes by: in a graded move the NEW one where that chip is its partner (R224). -/
def Dev.ctxTo (d : Dev) (l chip : Nat) : Nat :=
  if l < 32 && (match (d.link (64 + l)).context with | some c => c.1 = chip | none => false) then 64 + l else l

/-- TRANSMIT_COMMAND (R215): a link frame of any class to no reserved chip number (R10), or a single-lane frame, refused NOT_LOCKED
while its light is out. -/
def execTransmitCommand (t : TxCmd) (s : State) : Host.Outcome State Fault Refusal :=
  .next (s.onDev fun d => match t with
    | .frame l type cls dest payload =>
      if l < 39 && !isReservedChip dest && type != 0 && cls < 3 && payload.length ≤ 9216 then d.sendFrame (d.ctxTo l dest) type cls dest payload else d
    | .lane l k type payload =>
      if l < 39 && k < lanesOf l && type != 0 && payload.length ≤ 9216 then
        let c := d.ctxOfLane l k
        let x := d.lane c k
        if x.locked && (x.state == .active || x.state == .aligning) then
          d.emit (.laneFrame l k (linkFrame type 0 0 d.chip 0xFFFF payload))
        else (d.modLane c k (fun y => { y with held := y.held ++ [(type, payload)] })).serveLane c k
      else d
    | .probe p type payload =>
      if 1024 ≤ p then d
      else if d.txReady p || d.txHeld p then d.queueProbe p type 0 payload
      else (d.notLocked p).undelivered p type)

/-! ### Block headers (R217, R216) -/

/-- What the partner's RX_ALIGNED does to one transmit lane: two blocks with it make it ACTIVE, four without drop it. -/
def Dev.judgeLane (d : Dev) (l mask k : Nat) : Dev :=
  let x := d.lane l k
  let has := mask.testBit k
  let seen := if has then x.seen + 1 else 0
  let missed := if has then 0 else x.missed + 1
  let d := d.modLane l k (fun y => { y with seen := min seen 2, missed := min missed 4 })
  match x.state with
  | .aligning =>
    if 2 ≤ seen && x.locked then
      let held := (d.link l).holding && !(d.link l).heldFrames.isEmpty
      let d := d.modLane l k (fun y => { y with state := .active })
      let d := (d.modLink l (fun y => { y with active := setBit y.active k true })).refreshLink l
      let d := if held && !(d.link l).holding then d.bump 0x2A00 4 else d
      if (d.link l).holding then d else d.drainFrames l
    else d
  | .active => if 4 ≤ missed then d.dropLane l k else d
  | _ => d

/-- The receive side of a lane takes one header: aligned after two good ones, lost after four bad ones. -/
def Lane.header (x : Lane) (good : Bool) : Lane :=
  if good then { x with rxGood := min 2 (x.rxGood + 1), rxBad := 0, rxAligned := x.rxAligned || 1 ≤ x.rxGood }
  else { x with rxGood := 0, rxBad := min 4 (x.rxBad + 1), rxAligned := x.rxAligned && x.rxBad < 3 }

/-- The receive lanes of a link have changed: with the last of them gone the link is DOWN and trains again (R222), the twin link with
its roles; with one of them back it trains. `was` is the mask before. -/
def Dev.rxChanged (d : Dev) (l was : Nat) : Dev :=
  if (d.link l).rxMask = 0 then
    if was = 0 then d
    else
      let d := (d.alignmentGone l).sayHeaders l
      if l = 38 then d.twinGone else d
  else d.refreshLink l

/-- BLOCK_HEADER (R217): a header of a receive lane. One with a FIRST lets a receiver that lost its place start again (R218). -/
def execBlockHeader (l : Fin 39) (k : Fin 8) (place : BlockPlace) (active rxAligned : Nat) (hcrcOk : Bool) (s : State) :
    Host.Outcome State Fault Refusal :=
  .next (s.onDev fun d =>
    let c := d.ctxOfLane l k
    if !d.isOn (domainOf l) || !d.linkEnabled c || lanesOf l ≤ k.val then d
    else
      let good := place.sync == 0x5AC3 && hcrcOk
      let was := (d.link c).rxMask
      let d := if good then d else d.bump (linkObj l) 8
      let d := d.modLane c k (fun x => x.header good)
      let d := if (d.link c).rxMask = was then d else d.rxChanged c was
      let now := (d.link c).rxMask
      if good && (bitsOf 8 now).head? = some k.val then
        let d := d.modLink c (fun x => { x with rxActive := active, resync := x.resync && place.first == 0xFFFF })
        (upto (lanesOf l)).foldl (fun d i => d.judgeLane c rxAligned i) d
      else d)

/-! ### Link frames (R218 to R220) -/

/-- The class of a frame type on a link, if it is listed there (Table 8.8 and the chapters that it names). -/
def frameClass (l type : Nat) : Option Nat :=
  let peer := 32 ≤ l && l < 38
  let twin := l = 38
  if type = 1 || type = 2 then some 0
  else if type = 8 || type = 9 then (if peer || twin then some 0 else none)
  else if 0x10 ≤ type && type ≤ 0x17 then (if peer then some 0 else none)
  else if 0x20 ≤ type && type ≤ 0x22 then (if peer || twin then some 1 else none)
  else if 0x30 ≤ type && type ≤ 0x33 then (if peer then some 1 else none)
  else if type = 0x34 then (if peer then some 2 else none)
  else if type = 0x40 then (if twin then some 0 else none)
  else if type = 0x41 then (if twin then some 1 else none)
  else if type = 0x42 || type = 0x43 then (if twin then some 2 else none)
  else if type = 0x57 || type = 0x58 then (if l < 32 then some 1 else none)
  else if 0x50 ≤ type && type ≤ 0x56 then (if l < 32 then some 2 else none)
  else none

/-- The service frames that only the Director sends (Table 10.3, R265). -/
def outwards (type : Nat) : Bool := decide (0x54 ≤ type) && decide (type ≤ 0x58)

/-- A frame of class 1 or 2: the next expected SEQ is taken, any other is discarded; LINK_ACK answers (R220). -/
def Dev.sequenced (d : Dev) (l cls seq : Nat) (os : List Output) : Dev :=
  let x := d.link l
  let next := if cls = 1 then x.rx1 else x.rx2
  let d :=
    if seq = next then
      (d.modLink l (fun y => if cls = 1 then { y with rx1 := (y.rx1 + 1) % 65536 } else { y with rx2 := (y.rx2 + 1) % 65536 })).emits os
    else d.modLink l (fun y => { y with nak := y.nak ||| cls })
  d.sendLinkAck l

/-- LINK_FRAME (R218 to R220), in the context that holds the lane of its header. -/
def execLinkFrame (l : Fin 39) (type cls seq : Nat) (source : FrameFrom) (dest : Nat) (payload : Bytes) (hcrcOk crcOk : Bool)
    (s : State) : Host.Outcome State Fault Refusal :=
  .next (s.onDev fun d =>
    let c := d.ctxOfLane l source.lane
    if (d.link c).rxMask = 0 || (d.link c).resync then d
    else if !hcrcOk then (d.bump (linkObj l) 8).modLink c (fun x => { x with resync := true })
    else if !crcOk then d.bump (linkObj l) 8
    else if frameClass l type != some cls || outwards type then d.linkViolation l
    else
      let os : List Output := if isReservedChip dest then [] else [.delivered l type cls source.chip dest payload source.poison]
      if cls = 0 then d.emits os
      else if (d.link c).context.isNone then d
      else d.sequenced c cls seq os)

/-- How far an acknowledgement reaches into the frames that wait. -/
def ackedCount (unacked : List (Nat × LFrame)) (next : Nat) : Nat :=
  match unacked with
  | [] => 0
  | (q, _) :: _ => let n := (next + 65536 - q) % 65536; if n ≤ unacked.length then n else 0

/-- Every frame of a class that waits for its acknowledgement is sent again; on a link that holds its frames, not before the hold ends
(R215). -/
def Dev.resend (d : Dev) (l cls : Nat) : Dev :=
  let x := d.link l
  let fs := if x.holding || !x.isUp then [] else if cls = 1 then x.unacked1 else x.unacked2
  let d := fs.foldl (fun d e => d.emit (frameOut (portOfCtx l) e.2.type cls e.1 e.2.source e.2.dest e.2.payload)) d
  if fs.isEmpty then d else (d.bump (linkObj (portOfCtx l)) 9).modLink l (fun y => { y with progressAt := d.now })

/-- LINK_ACK (R220), in the context that holds the lane of its header. -/
def execLinkAck (l : Fin 39) (ack1 ack2 : Nat) (nak : AckFrom) (s : State) : Host.Outcome State Fault Refusal :=
  .next (s.onDev fun d =>
    let c := d.ctxOfLane l nak.lane
    if (d.link c).context.isNone then d
    else
      let x := d.link c
      let a := ackedCount x.unacked1 ack1
      let b := ackedCount x.unacked2 ack2
      let d := d.modLink c (fun y =>
        { y with unacked1 := y.unacked1.drop a, unacked2 := y.unacked2.drop b
                 progressAt := if 0 < a || 0 < b then d.now else y.progressAt })
      let d := if nak.nak.testBit 0 then d.resend c 1 else d
      let d := if nak.nak.testBit 1 then d.resend c 2 else d
      let d := d.drainFrames c
      if c < 32 then d.drainSvc c else d)

/-- The frames of a context that has made no progress for 20 µs go again. -/
def Dev.retryContext (d : Dev) (l : Nat) : Dev :=
  let x := d.link l
  if !x.isUp || (x.unacked1.isEmpty && x.unacked2.isEmpty) then d
  else ((d.reach (x.progressAt + 20 * Config.us)).resend l 1).resend l 2

/-- RETRY_TIMEOUT (R220): 20 µs without progress, in a port's context or in the NEW one of a graded move. -/
def execRetryTimeout (l : Fin 39) (s : State) : Host.Outcome State Fault Refusal :=
  .next (s.onDev fun d =>
    let d := d.retryContext l
    let y := d.link (64 + l)
    if l.val < 32 && (d.link l).unacked1.isEmpty && (d.link l).unacked2.isEmpty || y.progressAt + 20 * Config.us ≤ d.now then
      d.retryContext (64 + l)
    else d)

/-! ### Training (R221, R222, R225) -/

/-- The circuits in force that a context of a service port serves: in a graded move OLD serves the outgoing one, NEW the other
(R224). -/
def Dev.contextCircuits (d : Dev) (l : Nat) : List Circuit :=
  let cs := d.circuits.filter (fun c => c.inForce && c.south == 480 + portOfCtx l)
  let two := d.opt.links.any (fun e => e.1 = 64 + portOfCtx l)
  cs.filter (fun c => !two || d.outgoing c == decide (l < 32))

/-- Whether a service context's SENDER is the partner of its circuit's north port (R225). -/
def Dev.senderOk (d : Dev) (l sender : Nat) : Bool :=
  if 38 < l || l < 32 then
    (d.contextCircuits l).any (fun c => match (d.port c.north).partner with
      | some i => i.chip = sender
      | none => false)
  else true

/-- A link comes UP: a new context starts at SEQ 0, a kept one goes on; frames that waited leave (R221, R222). -/
def linkUp (m : Dev × Hbm) (l sender twin : Nat) : Dev × Hbm :=
  let d := m.1
  let d := d.modLink l (fun x => { x with context := some (sender, twin), state := .up, upSince := d.now, fast := false })
  let d := (d.refreshLink l).drainFrames l
  if l < 32 || 38 < l then (d.svcUp (portOfCtx l), m.2)
  else
    let d := d.peerUp (if l = 38 then 6 else l - 32)
    if l = 38 && d.disc.twinJoin = 1 then twinJoined (d, m.2) else (d, m.2)

/-- LINK_TRAIN (R221). -/
def trainReceived (m : Dev × Hbm) (l : Nat) (t : Train) : Dev × Hbm :=
  let d := m.1
  let fresh := (d.link l).lastEcho != t.trainId
  let d := match (d.link l).context with
    | some c =>
      if c = (t.sender, t.twin) then d
      else
        let d := ((d.closeContext l).modLink l (fun x => { x with state := if x.isUp then .training else x.state })).newAttempt l
        let d := if 32 ≤ l && l ≤ 38 then d.parentLost (l - 32) else d
        if 32 ≤ l && l < 38 then d.detachPeer (l - 32) else if l = 38 then d.detachPeer 6 else d
    | none => d
  let d := d.modLink l (fun x =>
    { x with lastEcho := t.trainId, partnerMask := t.mask, partnerChip := t.sender, partnerTwin := t.twin })
  let x := d.link l
  if x.isUp then (if fresh then d.sendTrain l else d, m.2)
  else if !d.senderOk l t.sender then
    let d := (d.modLink l (fun y => { y with wrong := true })).refreshLink l
    (if d.latchedActive 0x0503 9 (portOfCtx l) then d else d.raise 0x0503 1 9 (portOfCtx l) true (le 2 t.sender), m.2)
  else
  let d := if x.wrong then (d.modLink l (fun y => { y with wrong := false })).refreshLink l else d
  let x := d.link l
  if x.state == .training && t.echo = x.trainId && x.trainId != 0 then
    let d := if l < 32 || 38 < l then d.unlatch 0x0503 9 (portOfCtx l) else d
    let m := linkUp (d, m.2) l t.sender t.twin
    (m.1.sendTrain l, m.2)
  else (d, m.2)

/-- LINK_TRAIN (R221, R222, R225): of the listed class, in the context that holds its lane, where one of its lanes is aligned. -/
def execLinkTrain (l : Fin 39) (t : Train) (s : State) : Host.Outcome State Fault Refusal :=
  .next (s.onMem fun d h =>
    let cls := if l.val < 32 then 1 else if l.val < 38 then 2 else 3
    let c := d.ctxOfLane l t.lane
    if !d.isOn (domainOf l) || !d.linkEnabled c || (d.link c).rxMask = 0 then (d, h)
    else if t.cls != cls then (d.bump (linkObj l) 0x0A, h)
    else trainReceived (d, h) c t)

/-- LINK_TRAIN_INTERVAL (R221): until the link is UP. -/
def execLinkTrainInterval (l : Fin 39) (s : State) : Host.Outcome State Fault Refusal :=
  .next (s.onDev fun d =>
    let send := fun (d : Dev) (c : Nat) =>
      if !d.isOn (domainOf l) || !d.linkEnabled c || (d.link c).isUp then d else d.sendTrain c
    let d := send d l
    if d.opt.links.any (fun e => e.1 = 64 + l.val) then send d (64 + l) else d)

/-- A context that is not UP 100 ms after its last attempt begins a new one. -/
def Dev.retryTraining (d : Dev) (l : Nat) : Dev :=
  let x := d.link l
  if !d.isOn (domainOf (portOfCtx l)) || !d.linkEnabled l || x.isUp || x.trainId = 0 then d
  else (d.reach (x.trainStart + 100 * Config.ms)).newAttempt l

/-- TRAINING_RETRY (R221): 100 ms without UP, of a port's context or of the NEW one of a graded move. -/
def execTrainingRetry (l : Fin 39) (s : State) : Host.Outcome State Fault Refusal :=
  .next (s.onDev fun d =>
    let y := d.link (64 + l)
    if y.trainId != 0 && ((d.link l).isUp || y.trainStart < (d.link l).trainStart) then d.retryTraining (64 + l)
    else d.retryTraining l)

end Sys2Proof.Machine
end

