-- ==== Sys2Proof/Machine/Rings.lean ====
section
/-!
DEFINITION. Heater loops (R166 to R169), the crosstalk matrix (R167), calibration rounds as the Director runs them (R170
to R172, R158), and pods coming and going (R178, R259).
-/

namespace Sys2Proof.Machine
open Sys2Proof

/-! ### Heater loops (R166, R168, R169) -/

/-- A quotient as a word: exact, then one rounding to 24 bits, ties to even (R131). -/
def ofRatio (n : Int) (d : Nat) : Bfp :=
  let a := n.natAbs * 2 ^ 64
  let q := 2 * (a / d) + (if a % d = 0 then 0 else 1)
  (⟨if n < 0 then -(q : Int) else q, -3⟩ : Acc).word

/-- A word held within two bounds. -/
def Bfp.clamp (lo hi x : Bfp) : Bfp := if x.lt lo then lo else if hi.lt x then hi else x

/-- The offset of the record of ring i in a crosstalk matrix (R167). -/
def ringRecord (i : Nat) : Nat := 16 + 72 * i

/-- The neighbours of ring i with the offset of their coefficients in its record: the other tuners of its port, then the
ports before and after it (Table 6.5). -/
def ringNeighbours (i : Nat) : List (Nat × Nat) :=
  let p := i / 11
  let t := i % 11
  ((upto 10).map (fun k => (p * 11 + (if k < t then k else k + 1), 4 + 2 * k))) ++
  (if p = 0 then [] else (upto 11).map (fun k => ((p - 1) * 11 + k, 24 + 2 * k))) ++
  (if p = 15 then [] else (upto 11).map (fun k => ((p + 1) * 11 + k, 46 + 2 * k)))

/-- One Jacobi sweep at ring i: Q − K P (R168). -/
def jacobi (matrix : Bytes) (q p : List Bfp) (i : Nat) : Bfp :=
  let r := ringRecord i
  let terms := (ringNeighbours i).filterMap (fun n =>
    let k := fld matrix (r + n.2) 2
    if k = 0 then none else some ((Bfp.term (ofRatio k 65536) (p.getD n.1 {})).neg))
  (accumulate ((q.getD i {}).plain :: terms)).word

/-- The target shift of a ring (R166): lock-in when the offset is valid, else temperature feed-forward. -/
def shiftTarget (gain : Nat) (f : Bfp) (eps : Option Int) (tempCoef dTemp : Int) : Bfp :=
  let add := match eps with
    | some e => Bfp.term (ofRatio gain 65536) (ofRatio e 1000)
    | none => Bfp.term (ofRatio tempCoef 1000) (ofRatio dTemp 100)
  Bfp.clamp {} (ofRatio 1000 1) (accumulate [f.plain, add]).word

/-- A heater power as a code of 10 µW, ties to even (R168). -/
def heaterCode (p : Bfp) : Nat := (rneInt (p.m * 100) (23 - p.e)).toNat

/-- What one heater cycle gives a pod: shifts, powers, codes as solved (R166, R168). -/
def heaterSolve (matrix coefs : Bytes) (gain : Nat) (eps : List (Option Int)) (dTemp : Int) (f p : List Bfp) :
    List Bfp × List Bfp × List Nat :=
  let f' := (upto 176).map (fun i => shiftTarget gain (f.getD i {}) (eps.getD i none) (fldI coefs (2 * i) 2) dTemp)
  let q := ((upto 176).zip f').map (fun x => (Bfp.term x.2 (ofRatio (fld matrix (ringRecord x.1) 2) 65536)))
  let q := q.map (fun t => (accumulate [t]).word)
  let p1 := (upto 176).map (jacobi matrix q p)
  let p2 := (upto 176).map (fun i => Bfp.clamp {} (ofRatio 4095 100) (jacobi matrix q p1 i))
  (f', p2, p2.map heaterCode)

/-- The codes of a pod within its cap, in mW, and whether they were scaled (R169). -/
def capCodes (cap : Nat) (codes : List Nat) : List Nat × Bool :=
  let sum := sumN codes
  if cap * 100 < sum then (codes.map (fun c => c * (cap * 100) / sum), true) else (codes, false)

/-- The slice that serves a pod. -/
def sliceOfPod (q : Nat) : Nat := q / 16

/-- Whether a pod is used: it is IN_SERVICE, its slice runs and its link carries (R233, R259). -/
def Dev.podServed (d : Dev) (q : Nat) : Bool :=
  d.isOn 8 && d.eng.slices.getD (sliceOfPod q) .off == .running && (d.podAt q).state == .inService

/-- The shift that a ring's code and its neighbours' codes hold: P + K P = Q solved in reverse (R168, R351). -/
def heldShift (matrix : Bytes) (codes : List Nat) (i : Nat) : Bfp :=
  let r := ringRecord i
  let eta := fld matrix r 2
  let sum := sumN ((ringNeighbours i).map (fun n => fld matrix (r + n.2) 2 * codes.getD n.1 0)) + 65536 * codes.getD i 0
  if eta = 0 then {} else ofRatio sum (100 * eta)

/-- The heater loops of one pod at a heater trigger: its codes go out and apply at the next one (R166). A ring one of whose words is
poisoned keeps its last code; on its first clean cycle its target starts from that code (R311). -/
def Dev.heaterPod (d : Dev) (q : Nat) : Dev :=
  let x := d.podAt q
  let o := 0x3C00 + q
  let last := (upto 176).map (tget 0 (if x.sent.isEmpty then x.heater else x.sent))
  let seed := fun (i : Nat) => x.heldRings.contains i && !x.poisoned.contains i
  let f := (upto 176).map (fun i => if seed i then heldShift (d.oct o 1) last i else tget {} x.f i)
  let p := (upto 176).map (fun i => if seed i then ofRatio (last.getD i 0) 100 else tget {} x.p i)
  let r := heaterSolve (d.oct o 1) (d.oct o 7) (d.nat o 6) x.eps (x.temp - x.tempPrev) f p
  let codes := (upto 176).map (fun i => if x.poisoned.contains i then last.getD i 0 else r.2.2.getD i 0)
  let c := capCodes (d.nat o 5) codes
  let d := d.modPod q (fun y =>
    { y with f := (upto 176).zip r.1, p := (upto 176).zip r.2.1, sent := (upto 176).zip c.1, eps := [], used := y.eps, tempPrev := y.temp
             poisoned := [], heldRings := y.poisoned })
  let d := d.setNum o 4 ((sumN c.1 / 100 : Nat) : Int)
  let d := d.podSend q 0x10 (leList 2 c.1)
  if c.2 || !x.poisoned.isEmpty then (if d.latchedActive 0x0303 4 q then d else d.raise 0x0303 1 4 q true) else d.unlatch 0x0303 4 q

/-- The offsets of the rings of a pod as its loops take them: the ring of a lane declared lost has none, so that its loop
runs on feed-forward (R173). -/
def Dev.offsetsOf (d : Dev) (q : Nat) : List (Option Int) :=
  ((upto 176).zip (d.podAt q).eps).map (fun e => if (d.bank (16 * q + e.1 / 11)).lost.testBit (e.1 % 11) then none else e.2)

/-- Every pod in service that a running slice serves runs its heater loops. -/
def Dev.heaterLoops (d : Dev) : Dev :=
  (upto 64).foldl (fun d q => if (d.podAt q).state == .inService && d.podServed q then
      (d.modPod q (fun x => { x with eps := d.offsetsOf q })).heaterPod q else d) d

/-- At HCYC every pod takes the heater codes that it received (R175). -/
def Dev.applyHeaters (d : Dev) : Dev :=
  { d with rings := { d.rings with pods := d.rings.pods.map (fun e =>
      if e.2.next.isEmpty then e else (e.1, { e.2 with heater := e.2.next, next := [] })) } }

/-- What pods have reported and their slices have not latched is gone: tap powers, loss events and resonance offsets (R29, R34). -/
def Dev.dropPodWords (d : Dev) (sel : Nat → Bool) : Dev :=
  { d with
    rings := { d.rings with
      ports := d.rings.ports.map (fun e => if sel (podOf e.1) then (e.1, { e.2 with tapGone := true }) else e)
      pods := d.rings.pods.map (fun e => if sel e.1 then (e.1, { e.2 with eps := [], poisoned := [] }) else e) }
    eng := { d.eng with tapPoison := d.eng.tapPoison.filter (fun p => !sel (podOf p)) } }

/-- The heater targets of some pods resume from the codes last received of the old holder, or held by the pod (R28, R351). -/
def Dev.resumeHeaters (d : Dev) (sel : Nat → Bool) : Dev :=
  ((d.rings.pods.map Prod.fst).filter sel).foldl (fun d q =>
    let x := d.podAt q
    let c := (upto 176).map (tget 0 (if x.sent.isEmpty then x.heater else x.sent))
    d.modPod q (fun y =>
      { y with f := (upto 176).map (fun i => (i, heldShift (d.oct (0x3C00 + q) 1) c i)), p := (upto 176).map (fun i => (i, ofRatio (c.getD i 0) 100)) })) d

/-! ### The crosstalk matrix (R167) -/

/-- The result byte of CROSSTALK_REPORT and the first failing ring: 0 accepted (R167). -/
def crosstalkCheck (q : Nat) (b : Bytes) : Nat × Nat :=
  if b.length != 12688 then (1, 0)
  else if fld b 0 2 != 0x4B58 || fld b 2 1 != 1 || fld b 3 1 != q || fld b 12 4 != crc32 (patch b 12 (zeros 4)) then (2, 0)
  else if !allZero (slice b 4 8) then (3, 0)
  else
    let rec_ := fun i => ringRecord i
    let first := fun (p : Nat → Bool) => (upto 176).find? p
    match first (fun i => !allZero (slice b (rec_ i + 2) 2) || !allZero (slice b (rec_ i + 68) 4)) with
    | some i => (3, i)
    | none => match first (fun i => fld b (rec_ i) 2 = 0) with
      | some i => (4, i)
      | none => match first (fun i =>
          (i / 11 = 0 && !allZero (slice b (rec_ i + 24) 22)) || (i / 11 = 15 && !allZero (slice b (rec_ i + 46) 22))) with
        | some i => (5, i)
        | none => match first (fun i => decide (32768 < sumN ((upto 32).map (fun k => fld b (rec_ i + 4 + 2 * k) 2)))) with
          | some i => (6, i)
          | none => (0, 0)

/-! ### Calibration rounds (R170 to R172) -/

/-- The round of a lane at a north port, or at a port without a circuit. -/
def Dev.roundOf (d : Dev) (p k : Nat) : Option Round := d.rings.rounds.find? (fun r => r.north == p && r.lane == k)

/-- Whether a Zenith of an entry that names one of some ports lies between two instants (R170): the last that flipped, whatever has
become of its job since, and of a RUNNING job the entry in progress and the next one. -/
def Dev.zenithNear (d : Dev) (ports : List Nat) (from_ till : Nat) : Bool :=
  (upto 16).any (fun j =>
    let c := d.commit j
    let r := d.run j
    let names := fun (slot : Nat) => (centries (d.slot slot)).any (fun e =>
      !e.vacant && (ports.contains e.north || (e.south != 0xFFFF && ports.contains (southPort e.south))))
    let hit := fun (z slot : Nat) => z != 0 && decide (from_ ≤ z) && decide (z ≤ till) && names slot
    hit c.lastFlip c.lastSlot || ((d.job j).state == .running &&
      (hit c.z c.slot || hit r.zenith (d.commitSlot j (almEntry (d.almanac j) r.next)))))

/-- Whether a round is under way at one of some ports: its circuit has a lane out, or soon will. -/
def Dev.roundAt (d : Dev) (ports : List Nat) : Bool := d.rings.rounds.any (fun r => r.ports.any (fun p => ports.contains p))

/-- The conditions of R170 on a circuit's lane for a round that starts at an instant. -/
def Dev.roundFree (d : Dev) (c : Circuit) (k start : Nat) : Bool :=
  let ports := [c.north, southPort c.south]
  c.state == .live && !d.roundAt ports && c.lanes.testBit k && c.lanes != 2 ^ k &&
  ports.all (fun p => (d.monitorMask p).testBit k && d.monitorMask p != 2 ^ k && (d.bank p).calOut = 0 &&
    !d.outOfService p && d.flag (0x3C00 + podOf p) 0x0C) &&
  d.inState [.armed, .serving, .hold, .maintenance] &&
  !d.zenithNear ports (start - 2 * Config.ms) (start + 750 * Config.us + 2 * Config.ms)

/-- The conditions of a round that a Maintainer has ordered on a port with no circuit, in MAINTENANCE (R170). -/
def Dev.bareRoundFree (d : Dev) (p k : Nat) : Bool :=
  d.dir.state == .maintenance && (d.nat (0x3800 + p) 0x0F).testBit k && (d.bank p).calByMa.testBit k &&
  !d.circuits.any (fun c => c.hasPort p) && !d.roundAt [p] &&
  (d.bank p).calOut = 0 && !d.outOfService p && d.flag (0x3C00 + podOf p) 0x0C

/-- Whether a lane is named in CAL_REQUEST at an end of a circuit. -/
def Dev.calRequested (d : Dev) (c : Circuit) (k : Nat) : Bool :=
  (d.nat (0x3800 + c.north) 0x0F).testBit k || (d.nat (0x3800 + southPort c.south) 0x0F).testBit k

/-- The next lane of a background round: those requested first, then the oldest calibration time (R170). -/
def Dev.nextCalLane (d : Dev) : Option (Nat × Nat) :=
  let cand := d.circuits.flatMap (fun c =>
    ((upto 8).filter (fun k => d.roundFree c k d.nextCycle)).map (fun k =>
      ((if d.calRequested c k then 0 else 1), tget 0 (d.bank c.north).calTimes k, c.north, k)))
  let bare := ((d.od.map Prod.fst).filter (fun key => 0x3800 * 256 ≤ key && key < 0x3C00 * 256 && key % 256 = 0x0F)).flatMap
    (fun key => let p := key / 256 - 0x3800
      ((upto 8).filter (d.bareRoundFree p)).map (fun k => (0, tget 0 (d.bank p).calTimes k, p, k)))
  let better := fun (a b : Nat × Nat × Nat × Nat) => a.1 < b.1 || (a.1 = b.1 && a.2.1 < b.2.1)
  let pick := (cand ++ bare).foldl (fun (m : Option (Nat × Nat × Nat × Nat)) x => match m with
    | none => some x
    | some y => if better x y then some x else m) none
  pick.map (fun x => (x.2.2.1, x.2.2.2))

/-- The CAL permit that covers a new round: its own grant (none), or a reservation with room, by its holder (R170, R377). -/
def Dev.calPermit (d : Dev) (r : Round) : Option (Option Nat) :=
  if (d.grantOf 2 r.holder).isSome then some none
  else
    let used := fun (h : Nat) => (d.rings.rounds.filter (fun x => x.under == some h)).length
    (d.power.grants.find? (fun g => g.cls == 2 && 1000000 ≤ g.holder && decide (used g.holder < g.amount))).map (fun g => some g.holder)

/-- A round is to start at a cycle start: its lane-out strobe is armed (Table 6.6). Its request is cleared. -/
def Dev.startRound (d : Dev) (r : Round) : Dev :=
  let ws := r.ports.map (fun p => (⟨p, r.lane, d.laneCode p r.plane 0 [] r.lane⟩ : TWrite))
  let d := d.stageWrites r.tag ws
  let d := d.armFixed { z := r.start, pods := podsOf ws, tag := r.tag, kind := 2 }
  let d := { d with rings := { d.rings with
      rounds := d.rings.rounds ++ [r], due := false, lastRound := if r.background then r.start else d.rings.lastRound } }
  r.ports.foldl (fun d p =>
    let o := 0x3800 + p
    (d.setNum o 0x0F ((setBit (d.nat o 0x0F) r.lane false : Nat) : Int)).modBank p
      (fun b => { b with calByMa := setBit b.calByMa r.lane false })) d

/-- The verdict on one end's fit: 1 accepted, 2 peak rejected, 3 width rejected (R172). -/
def fitResult (f : Fit) : Nat :=
  if 100 < f.peak.natAbs then 2 else if f.width < 10000 || 40000 < f.width then 3 else 1

/-- The excess of a lane over the weakest lane of a mask, in 0.01 dB, over the reports of the last second: its sum, and how many
(R158). -/
def sumExcess (mask k from_ : Nat) (reports : List (Nat × List Int)) : Option (Int × Nat) :=
  let l := (reports.filter (fun r => from_ ≤ r.1)).map (fun r =>
    let ps := (bitsOf 8 mask).map (fun i => r.2.getD i 0)
    r.2.getD k 0 - (ps.min?.getD (r.2.getD k 0)))
  if l.isEmpty then none else some (sumI l, l.length)

/-- LANE_EQ of a north port's lane after an accepted round: towards the mean excess at both ends, rounded once to 0.1 dB, by at most
0.5 dB (R158). An exact half rounds away from zero (DESIGN CHOICE, log 74: R158 gives no rule for it). DESIGN CHOICE (log 95): where
only one end has reports of the last second, its mean alone is the target. Where neither has, the target is a free value. -/
def Dev.equalise (d : Dev) (r : Round) : Dev :=
  if 512 ≤ r.north then d
  else match d.circuitOf r.north r.plane with
    | none => d
    | some c =>
      let sum := fun p => sumExcess c.lanes r.lane (r.start - Config.sec)
        ((d.bank p).powers.filter (fun x => x.1 < r.start))
      let old : Int := (d.laneEq r.north r.lane : Nat)
      let target : Int := match (r.ports.map sum).filterMap id with
        | [a, b] => divNear (a.1 * b.2 + b.1 * a.2) (20 * a.2 * b.2)
        | [a] => divNear a.1 (10 * a.2)
        | _ => Config.openInt d.fresh
      let v := (clampI (old - 5) (old + 5) (clampI 0 30 target)).toNat
      let d := d.drawn 1
      d.setOct (0x3800 + r.north) 5 (patch (padTo 8 (d.oct (0x3800 + r.north) 5)) r.lane (le 1 v))

/-- A rejected ring: its old tables stay, a class 0 record, and CAL_SUSPECT at the third rejection in a row (R172). -/
def Dev.rejectRing (d : Dev) (r : Round) (p result : Nat) : Dev :=
  let n := tget 0 (d.bank p).rejects r.lane + 1
  let d := d.modBank p (fun b => { b with rejects := tset b.rejects r.lane n })
  let d := d.info 0x0304 2 p [BitVec.ofNat 8 (2 ^ r.lane)]
  let was := d.calSuspect p
  if 3 ≤ n && !was.testBit r.lane then
    (d.calStatus p r.lane result (setBit was r.lane true) true).raise 0x0304 1 2 p true [BitVec.ofNat 8 (2 ^ r.lane)]
  else d.calStatus p r.lane result was true

/-- An accepted ring takes its new tables; its suspicion ends (R172). -/
def Dev.acceptRing (d : Dev) (r : Round) (f : Fit) : Dev :=
  let o := 0x3800 + f.port
  let put := fun (d : Dev) (sub : Nat) (l : List Nat) => d.setOct o sub (patch (padTo 784 (d.oct o sub)) (98 * r.lane) (leList 2 l))
  let d := put (put d 0x0B f.drop) 0x0C f.through
  let d := d.modBank f.port (fun b => { b with rejects := tdel b.rejects r.lane })
  let m := setBit (d.calSuspect f.port) r.lane false
  let d := d.calStatus f.port r.lane 1 m true
  if m = 0 then d.unlatch 0x0304 2 f.port else d

/-- R + 650 µs: the fit of both ends is judged, and the lane-in strobe is armed for R + 700 µs (Table 6.6). -/
def Dev.fitRound (d : Dev) (r : Round) (fits : List Fit) : Dev :=
  let mine := r.ports.filterMap (fun p => fits.find? (fun f => f.port == p))
  let swept := r.ports.all (fun p => r.sweeps.any (fun s => s.1 == p))
  if !swept || mine.length != r.ports.length then d.abortRound r
  else
    let bad := mine.filter (fun f => (fitResult f) != 1)
    let d :=
      if bad.isEmpty then (mine.foldl (fun d f => d.acceptRing r f) d).equalise r
      else
        let code := ((bad.map fitResult).min?).getD 2
        let d := (mine.filter (fun f => (fitResult f) = 1)).foldl (fun d f => d.calStatus f.port r.lane code (d.calSuspect f.port) true) d
        bad.foldl (fun d f => d.rejectRing r f.port (fitResult f)) d
    let d := r.ports.foldl (fun d p => d.modBank p (fun b => { b with calTimes := tset b.calTimes r.lane r.start })) d
    let d := d.modRound r (fun x => { x with stage := 2, accepted := bad.isEmpty })
    d.laneIn r (r.start + 700 * Config.us)

/-! ### Pods (R178, R259) -/

/-- A frame that fails its CRC, a marker that matches nothing and a discarded descriptor count (0x3C00 + q:09). -/
def Dev.podError (d : Dev) (q n : Nat) : Dev := if n = 0 then d else d.bump (0x3C00 + q) 9 n

/-- Lane states are reconciled with the first HEATER_REPORT after a loss of the link ("PD8 off or slice off"). -/
def Dev.reconcile (d : Dev) (q : Nat) (powers : List Int) : Dev :=
  ((upto 16).zip (chunks 8 16 powers)).foldl (fun d e =>
    let p := 16 * q + e.1
    let t := d.lossThreshold p
    let dark := maskOf ((bitsOf 8 (d.monitorMask p)).filter (fun k => e.2.getD k 0 < t))
    let back := maskOf ((bitsOf 8 (d.bank p).lost).filter (fun k => t + 100 ≤ e.2.getD k 0))
    let d := if back = 0 then d else d.lanesRestored p back
    if dark = 0 then d else d.lanesLost p dark) d

/-- The lane powers of a report enter the last second's record of each port (R158). -/
def Dev.notePowers (d : Dev) (q : Nat) (powers : List Int) : Dev :=
  ((upto 16).zip (chunks 8 16 powers)).foldl (fun d e =>
    (d.modBank (16 * q + e.1) (fun b =>
      { b with powers := (d.now, e.2) :: b.powers.filter (fun x => d.now ≤ x.1 + 2 * Config.sec) })).setOct
      (0x3800 + 16 * q + e.1) 6 (leIList 2 e.2)) d

/-- The CALIBRATION record of the pod at a chain position (R178). -/
def Dev.calRecord (d : Dev) (q : Nat) : CalRecord :=
  let port := fun (sub : Nat) => (upto 16).map (fun i => d.oct (0x3800 + 16 * q + i) sub)
  { serial := (d.podAt q).serial, matrix := d.oct (0x3C00 + q) 1, tempCoef := d.oct (0x3C00 + q) 7
    drop := port 0x0B, through := port 0x0C, shutter := port 0x0D }

/-- The record that CALIBRATION holds for a serial: that of the position itself, of another position, or of a pod at none (R178). -/
def Dev.recordOf (d : Dev) (q : Nat) (serial : Bytes) : Option CalRecord :=
  if serial.isEmpty then none
  else match (q :: upto 64).find? (fun x => (d.podAt x).serial == serial) with
    | some x => some (d.calRecord x)
    | none => d.rings.records.find? (·.serial == serial)

/-- A pod of another serial takes a position: the record of the pod that stood there stays in CALIBRATION, and the new pod stands at no
other position. -/
def Dev.reposition (d : Dev) (q : Nat) (serial : Bytes) : Dev :=
  let old := d.calRecord q
  let keep := (d.rings.records.filter (fun r => r.serial != serial && r.serial != old.serial)) ++ (if old.serial.isEmpty then [] else [old])
  let pods := d.rings.pods.map (fun (e : Nat × Pod) => (e.1, if e.2.serial == serial then { e.2 with serial := [] } else e.2))
  ({ d with rings := { d.rings with records := keep, pods := pods } }).modPod q (fun x => { x with serial := serial })

/-- The record of a pod comes to its new position. -/
def Dev.loadRecord (d : Dev) (q : Nat) (r : CalRecord) : Dev :=
  let d := d.reposition q r.serial
  let d := (d.setOct (0x3C00 + q) 1 r.matrix).setOct (0x3C00 + q) 7 r.tempCoef
  (upto 16).foldl (fun d i =>
    let p := 0x3800 + 16 * q + i
    ((d.setOct p 0x0B (r.drop.getD i [])).setOct p 0x0C (r.through.getD i [])).setOct p 0x0D (r.shutter.getD i [])) d

/-- The Director takes a pod's store into CALIBRATION (R178). -/
def Dev.takeStore (d : Dev) (q : Nat) (s : PodStore) : Dev :=
  let o := 0x3C00 + q
  let d := (d.setOct o 1 s.matrix).setOct o 7 (leIList 2 s.tempCoef)
  let d := (upto 16).foldl (fun d i =>
    let p := 0x3800 + 16 * q + i
    let part := fun (l : List Nat) (n : Nat) => leList 2 ((l.drop (n * i)).take n)
    ((d.setOct p 0x0B (part s.drop 392)).setOct p 0x0C (part s.through 392)).setOct p 0x0D (part s.shutter 4)) d
  d.modPod q (fun x => { x with serial := s.serial, flipOffset := s.flipOffset })

/-- Whether a pod's store passes the checks of R259: its CRC, its matrix, its tables. -/
def storeOk (q : Nat) (s : PodStore) : Bool :=
  s.crcOk && (crosstalkCheck q s.matrix).1 = 0 && s.tempCoef.length == 176 && s.drop.length == 6272 &&
  s.through.length == 6272 && s.shutter.length == 64 &&
  s.drop.all (· < 2048) && s.through.all (· < 2048) && s.shutter.all (· < 2048)

/-- A pod leaves IN_SERVICE (R259): its descriptors and unapplied banks are discarded, its ports go OUT_OF_SERVICE, the
jobs that run on them stop (R65). `own`: the Director itself cancels what it has armed for the pod. -/
def Dev.losePod (d : Dev) (q : Nat) (x : PodState) (own : Bool) : Dev :=
  let was := (d.podAt q).state == .inService
  let d := d.modPod q (fun y => { y.discardPending with state := x, lock := if own then y.lock else false })
  let d :=
    if own then
      let cut := fun (s : Strobe) => if s.sent.contains (linkOfPod q) then s else { s with pods := s.pods.filter (· != q) }
      { d with time := { d.time with strobes := (d.time.strobes.map cut).filter (fun s => !s.pods.isEmpty) } }
    else d
  if !was then d
  else
    let d := d.portsOut q
    let d := (upto 16).foldl (fun d j =>
      if (podPorts q).any (fun p => (d.job j).ports.testBit p) then d.orderStop j 3 else d) d
    d.raise 0x0305 1 4 q true

end Sys2Proof.Machine
end

