-- ==== Sys2Proof/Machine/Startup.lean ====
section
/-!
DEFINITION. What a power domain's parts do when it is switched on and off (Table 1.7, R21, R28, R299, R370), what a
loss of power and each kind of start keeps (Table 15.2, R388 to R397), and how the domains of a start follow one
another (R367, R368, R389).
-/

namespace Sys2Proof.Machine
open Sys2Proof

/-! ### What lives in flash (Table 15.6) -/

/-- The dictionary entries whose values are calibration data, library data or PD0's own record (Table 15.6, R383, R385). -/
def flashObject (k : Nat) : Bool :=
  let i := k / 256
  let s := k % 256
  if 0x14400 ≤ i then true
  else if 0x3000 ≤ i && i < 0x3800 then s = 0x0D || (0x10 ≤ s && s ≤ 0x19)
  else if 0x3800 ≤ i && i < 0x3C00 then s = 5 || (0x0B ≤ s && s ≤ 0x0D)
  else if 0x3C00 ≤ i && i < 0x3D00 then s = 1 || s = 7
  else if 0x4400 ≤ i && i < 0x4800 then s = 1
  else if 0x4800 ≤ i && i < 0x4810 then s = 1 || s = 3
  else if 0x2910 ≤ i && i < 0x2920 then s = 1 || s = 6
  else if 0x2320 ≤ i && i < 0x2330 then s = 1
  else (i = 0x2940 && s = 1) || (i = 0x2130 && 8 ≤ s && s ≤ 0x0A)

/-- The entries of the LIBRARY region (Table 15.6). -/
def libraryObject (k : Nat) : Bool :=
  let i := k / 256
  flashObject k && (0x4400 ≤ i || (0x2300 ≤ i && i < 0x2A00))

/-- The objects of the SETTINGS journal: writable objects of 0x2000 to 0x2FFF and 0x4000 to 0x43FF that Table 15.6 does
not name elsewhere and whose Notes carry no "Rx" (R394). -/
def settingsObject (k : Nat) : Bool :=
  let i := k / 256
  ((0x2000 ≤ i && i < 0x3000) || (0x4000 ≤ i && i < 0x4400)) && !flashObject k &&
  !(0x2080 ≤ i && i < 0x2090) &&
  match objRow i (k % 256) with
  | some r => (r.access == .rw || r.access == .rwc) && !r.rx
  | none => false

/-- The internal value of SUB 1: the Orbit definition (R396). -/
def orbitDefBytes (o : OrbitDef) : Bytes := le 8 o.epoch ++ le 4 o.period ++ le 4 o.seq ++ le 8 o.validFrom

/-- The internal value of SUB 4: SERIAL and FIRMWARE of the 16 boards, 32 bytes each (R396). -/
def Dev.boardRecords (d : Dev) : Bytes :=
  (upto 16).flatMap (fun b => padTo 32 (padTo 16 (d.oct (0x3D00 + b) 3) ++ padTo 8 (d.oct (0x3D00 + b) 4)))

/-- The record in force, if there is one. -/
def Update.inForce (u : Update) : List SettingsRec :=
  if u.settingsSeq = 0 then []
  else [{ format := u.settingsFormat, seq := u.settingsSeq, nums := u.settings, octs := u.settingsOct
          slot := u.settingsAt.1, page := u.settingsAt.2.1, pages := u.settingsAt.2.2 }]

/-- The record of the highest SEQ. -/
def newestSettings (l : List SettingsRec) : Option SettingsRec :=
  l.foldl (fun m r => match m with | some x => if x.seq < r.seq then some r else m | none => some r) none

/-- A record takes force; the others stand where they are. -/
def Update.takeSettings (u : Update) (r : SettingsRec) : Update :=
  { u with settings := r.nums, settingsOct := r.octs, settingsFormat := r.format, settingsSeq := r.seq, settingsAt := (r.slot, r.page, r.pages)
           otherSettings := (u.inForce ++ u.otherSettings).filter (fun x => x.seq != r.seq) }

/-- Pages of one slot of the settings journal: 32 MiB of 16 KiB (R396). -/
def settingsSlotPages : Nat := 2048

/-- Whether a slot of the journal holds the newest record of the format that the FALLBACK image writes while the boot record is TRIAL:
such a slot is never erased (R409). -/
def Update.protected (u : Update) (slot : Nat) : Bool :=
  u.boot.state == .trial &&
    match newestSettings ((u.inForce ++ u.otherSettings).filter (fun r => r.format == fld u.fallbackManifest 44 1)) with
    | some r => r.slot == slot
    | none => false

/-- The slot that does not hold the newest record. -/
def Update.nextSettingsSlot (u : Update) : Nat :=
  match newestSettings (u.inForce ++ u.otherSettings) with | some r => 1 - r.slot | none => 0

/-- A slot of the journal is erased: its records are gone. -/
def Update.eraseSettings (u : Update) (slot : Nat) : Update :=
  let u := { u with settingsUsed := tset u.settingsUsed slot 0, otherSettings := u.otherSettings.filter (fun r => r.slot != slot) }
  if u.settingsAt.1 = slot then { u with settingsSeq := 0 } else u

/-- Room for some pages in the slot that does not hold the newest record, which is erased first when it is full (R397). One that the trial
protects is not: the record then goes into the other slot (DESIGN CHOICE, log 106). -/
def Update.settingsRoom (u : Update) (n : Nat) : Update × Nat :=
  let full := fun (k : Nat) => decide (settingsSlotPages < tget 0 u.settingsUsed k + n)
  let k := u.nextSettingsSlot
  if !full k then (u, k)
  else if !u.protected k then (u.eraseSettings k, k)
  else if full (1 - k) then (u.eraseSettings (1 - k), 1 - k) else (u, 1 - k)

/-- Whether a word of the store that a settings record would hold reads poisoned (R311). -/
def Dev.settingsPoisoned (d : Dev) : Bool :=
  let mine := fun (w : Nat) => w / 2 ^ 32 == 8 && settingsObject (Config.storeBacks (w % 2 ^ 32))
  d.mem.sramPoison.any mine || d.mem.sramFlaws.any (fun e => mine e.1 && decide (2 ≤ e.2))

/-- The value of a SETTINGS object as a record holds it. -/
def Dev.settingsValue (d : Dev) (index sub : Nat) : ObjType → Bytes
  | .num n | .real n => le n (unsigned (8 * n) (d.num index sub))
  | .int n => leI n (d.num index sub)
  | .bool => le 1 (unsigned 8 (d.num index sub))
  | .str n | .oct n => padTo n (d.oct index sub)
  | .dom _ => d.oct index sub

/-- An entry of a settings record, padded to a multiple of 4 bytes (R396). -/
def settingsEntry (index sub : Nat) (v : Bytes) : Bytes :=
  let b := le 2 index ++ le 1 sub ++ [0] ++ le 4 v.length ++ v
  padTo ((b.length + 3) / 4 * 4) b

/-- The entries of a settings record: the internal values, then every SETTINGS object (R396, R397). -/
def Dev.settingsEntries (d : Dev) : Bytes :=
  let internal := [orbitDefBytes d.time.inForce, le 8 d.faults.pub.reserved, le 8 d.faults.prot.reserved, d.boardRecords]
  (internal.zipIdx.flatMap (fun e => settingsEntry 0 (e.2 + 1) e.1)) ++
    dictionary.flatMap (fun r => (upto r.count).flatMap (fun i => (upto r.subs).flatMap (fun k =>
      if settingsObject (objKey (r.base + i) (r.sub + k)) then
        settingsEntry (r.base + i) (r.sub + k) (d.settingsValue (r.base + i) (r.sub + k) r.type)
      else [])))

/-- The bytes of a settings record: its 64-byte header and its entries (R396). -/
def Dev.settingsData (d : Dev) (format seq : Nat) (entries : Bytes) : Bytes :=
  le 2 0x5354 ++ le 1 format ++ le 1 ((64 + entries.length + 16383) / 16384) ++ le 8 seq ++ le 4 entries.length ++
    (sha384 (if d.upd.region = 1 then d.upd.activeManifest else d.upd.fallbackManifest)).take 16 ++ zeros 32 ++ entries

/-- The marker page of a settings record (R396). -/
def settingsMarker (format pages seq : Nat) (data : Bytes) : Bytes :=
  le 2 0x534D ++ le 1 format ++ le 1 pages ++ le 8 seq ++ sha384 data

/-- The pages of a settings record are programmed, its marker last (R384, R397). -/
def Dev.programSettings (d : Dev) (r : SettingsRec) (data : Bytes) : Dev :=
  let d := (upto r.pages).foldl (fun d i => d.emit (.page (flashAddr (.settings r.slot (r.page + i))) (slice data (16384 * i) 16384))) d
  d.emit (.page (flashAddr (.settings r.slot (r.page + r.pages))) (settingsMarker r.format r.pages r.seq data))

/-- A settings record is written and takes force, a snapshot of every persistent setting (R397). A page with a poisoned word is not
programmed, so that no record is written (R311). -/
def Dev.commitSettings (d : Dev) : Dev :=
  if d.settingsPoisoned then { d with upd := { d.upd with pendingSettings := false } } else
  let format := fld (if d.upd.region = 1 then d.upd.activeManifest else d.upd.fallbackManifest) 44 1
  let seq := 1 + ((d.upd.inForce ++ d.upd.otherSettings).map (·.seq)).foldl max 0
  let data := d.settingsData format seq d.settingsEntries
  let pages := (data.length + 16383) / 16384
  let room := d.upd.settingsRoom (pages + 1)
  let page := tget 0 room.1.settingsUsed room.2
  let r : SettingsRec :=
    { format := format, seq := seq, slot := room.2, page := page, pages := pages
      nums := d.od.filter (fun e => settingsObject e.1)
      octs := d.ob.filter (fun e => settingsObject e.1) ++ [(1, orbitDefBytes d.time.inForce), (4, d.boardRecords)] }
  let u := { room.1 with settingsUsed := tset room.1.settingsUsed room.2 (page + pages + 1) }
  (({ d with upd := { u.takeSettings r with pendingSettings := false } }).programSettings r data).flashWritten (.settings r.slot r.page)

/-- A value of the settings record in force, or the object's default. -/
def Dev.committedNum (d : Dev) (index sub : Nat) : Int :=
  match tfind d.upd.settings (objKey index sub) with
  | some v => v
  | none => objDefault index sub

/-! ### The boot record (R395) -/

/-- The codes of STATE. -/
def BootState.code : BootState → Nat
  | .normal => 0 | .activating => 1 | .trial => 2 | .fallenBack => 3

/-- STATE of a code. -/
def BootState.ofCode : Nat → BootState
  | 1 => .activating | 2 => .trial | 3 => .fallenBack | _ => .normal

/-- The 64 bytes of a boot record. -/
def BootRec.bytes (b : BootRec) : Bytes :=
  let x := le 2 0x4252 ++ [1] ++ le 1 b.state.code ++ le 4 b.seq ++ padTo 16 b.activeId ++ padTo 16 b.fallbackId ++ le 1 b.trialStarts ++
    le 1 b.loader ++ zeros 2 ++ le 4 b.securityMin ++ zeros 12
  x ++ le 4 (crc32 x)

/-- Whether a page holds a valid boot record. -/
def bootGood (b : Bytes) : Bool := fld b 0 2 = 0x4252 && fld b 2 1 = 1 && fld b 60 4 = crc32 (b.take 60)

/-- The record that such bytes hold. -/
def BootRec.ofBytes (b : Bytes) : BootRec :=
  { state := BootState.ofCode (fld b 3 1), seq := fld b 4 4, activeId := slice b 8 16, fallbackId := slice b 24 16
    trialStarts := fld b 40 1, loader := fld b 41 1, securityMin := fld b 44 4 }

/-- The valid record of the highest SEQ, with its slot. -/
def Update.newestBoot (u : Update) : Option (Nat × BootRec) :=
  let all := [0, 1].flatMap (fun k => ((tget [] u.bootFlash k).filter bootGood).map (fun b => (k, BootRec.ofBytes b)))
  all.foldl (fun m r => match m with | some x => if x.2.seq < r.2.seq then some r else m | none => some r) none

/-- A new boot record takes SEQ + 1 and goes into the next free page of the slot that does not hold the record in force; that slot is
erased where it is full. -/
def Update.writeBoot (u : Update) (b : BootRec) : Update :=
  let k := match u.newestBoot with | some x => 1 - x.1 | none => 0
  let held := tget [] u.bootFlash k
  let b := { b with seq := (u.boot.seq + 1) % 2 ^ 32 }
  { u with boot := b, bootFlash := tset u.bootFlash k ((if 64 ≤ held.length then [] else held) ++ [b.bytes]) }

/-- The boot record in force, as the loader reads it. -/
def Update.readBoot (u : Update) : Update := match u.newestBoot with | some x => { u with boot := x.2 } | none => u

/-! ### Domains -/

/-- The stacks of a memory domain (Table 1.7). -/
def Dev.stacksOf (d : Dev) (k : Nat) : List Nat :=
  if k = 12 then upto (min 4 d.stackCount) else if d.isC then [4, 5, 6, 7] else []

/-- Whether a failed stack, its map or its table, or the reduction SRAM keeps the engine out of use (R307). -/
def Dev.engineBarred (d : Dev) : Bool := d.isC && (d.mem.failed.contains 14 || d.mem.stackOf.any (fun e => e.2 == .failed))

/-- A failed stack takes its whole half out of use: the recorder is UNAVAILABLE, the engine in FAULT (R307). -/
def Dev.failStack (d : Dev) (s : Nat) : Dev :=
  let d := { d with mem := { d.mem with stackOf := tset d.mem.stackOf s .failed } }
  let d := d.checkerEvent 1 s
  let d := if d.isC then { d with coll := { d.coll with state := .fault } } else d
  d.ringHalf

/-- The bit of a checker in MEM_SELFTEST. -/
def Dev.setSelftest (d : Dev) (k : Nat) (passed : Bool) : Dev :=
  let x := d.nat 0x2800 1
  d.setNum 0x2800 1 (if x.testBit k then (if passed then x else x - 2 ^ k) else (if passed then x + 2 ^ k else x) : Nat)

/-- The checkers of HBM stacks are tested as their domain comes on (R306): one that fails leaves its stack FAILED, the other stacks are
READY with their remap tables loaded (R309). -/
def stacksReady (m : Dev × Hbm) (of_ : List Nat) (bad : List (Nat × Nat)) : Dev × Hbm :=
  let m := of_.foldl (fun m s =>
    let ok := checkerPasses bad s
    let m := (m.1.setSelftest s ok, m.2)
    if !ok then (m.1.failStack s, m.2)
    else loadRemap ({ m.1 with mem := { m.1.mem with stackOf := tset m.1.mem.stackOf s .ready } }, m.2) s) m
  (m.1.ringHalf, m.2)

/-- The laser slots as PD10 comes on: each waits for its enabling (R211); one in SAFE or in FAULT stays there (R212). -/
def Dev.slotsUp (d : Dev) : Dev :=
  (upto 4).foldl (fun d s =>
    let x := d.laser s
    if !x.present || x.state == .lit || x.state == .safe || x.state == .fault then d
    else d.modLaser s (fun y => { y with state := if y.good then .present else .refused })) d

/-- At a start, the slots are lit one at a time: each asks for its permit (Table 15.3, R211). -/
def Dev.lightSlots (d : Dev) : Dev :=
  (upto 4).foldl (fun d s => if (d.laser s).state == .present then d.request 4 .normal 1 s 0 else d) d

/-- A domain is ON: its parts are loaded and start (R367, R392). -/
def domainUp (m : Dev × Hbm) (k : Nat) (bad : List (Nat × Nat)) : Dev × Hbm :=
  let d := m.1.setDomain k .on
  match k with
  | 2 => ({ d with net := { d.net with ecat := .init, al := 0 } }, m.2)
  | 3 =>
    -- PD0 has carried the time on; how much has passed the state cannot tell: a free value (R452)
    let t := match d.time.carried with
      | some c => { d.time with counter := max c d.time.counter + Config.openNat d.fresh * 2 ^ 32, carried := none }
      | none => { d.time with counter := 0 }
    let d := if d.time.carried.isSome then d.drawn 1 else d
    let d := ({ d with time := { t with tickOn := true, state := .free, increment := 0x200000000, counter := t.counter / 2 ^ 32 * 2 ^ 32 } }).setNum 0x2200 12
      d.module.timeRef
    (((if d.module.timeRef = 2 then d.timeFault 3 true else d).startPtp).reselect, m.2)
  | 4 | 5 | 6 | 7 =>
    let d := ({ d with eng := { d.eng with slices := lset d.eng.slices (k - 4) .running } }).settle
    (((d.eng.boards.map Prod.fst).filter (fun b => sliceOfBoard b = k - 4)).foldl (fun d b =>
      if [BState.absent, .fault, .drained].contains (d.board b).state then d else d.setBoard b .adopting)
      (d.resumeHeaters (fun q => sliceOfPod q = k - 4)), m.2)
  | 8 => ((upto 16).foldl (fun d j => (d.modPodLink j (fun x => { x with trained := true })).measureLatency j) (d.resumeHeaters (fun _ => true)), m.2)
  | 9 | 10 =>
    let d := if k = 10 then d.slotsUp else d
    ((((upto 39).filter (fun l => domainOf l = k)).foldl (fun d l => (d.newAttempt l).huntLink l) d).refreshAllProbing, m.2)
  | 11 => ({ d with coll := { d.coll with state := if d.coll.state == .fault || d.engineBarred then .fault else .selftest } }, m.2)
  | 12 | 13 =>
    let m := (d.stacksOf k).foldl (fun m s => (m.1.unqueue (fun f => f.stack == s), m.2.dropStack s)) (d, m.2)
    stacksReady m (d.stacksOf k) bad
  | 14 => ({ d.tryRing with mem := { d.mem with lapStart := (upto 31).map (fun a => (a, d.now)) } }, m.2)
  | 15 => ({ d with power := { d.power with flashGate := true } }, m.2)
  | _ => (d, m.2)

/-- CE0 loses its power and with it the servo (R21): a module that is not the root leaves LOCKED for HOLDOVER and ACQUIRING for
FREE; a root goes on as the point that the Array follows. -/
def Dev.servoStops (d : Dev) : Dev :=
  if d.time.isRoot then d
  else match d.time.state with
    | .locked => d.setTState .holdover
    | .acquiring => (d.setTState .free).info 0x0901 0 0 [0]
    | _ => d

/-- The fault manager, the arbiter and the mailbox server lose what they hold with PD1 (Table 1.5). -/
def Dev.managementOff (d : Dev) : Dev :=
  { d with
    faults := { d.faults with queue := [], overflow := none, current := none, parked := none, latched := [], recoveries := [],
                              stalls := [], restarts := [], releases := [] }
    power := { d.power with grants := [], deferred := [] }
    net := { d.net with mailbox := [], waiting := none, transfers := [], sessions := [], challenges := [], emergencies := [] } }

/-- The blocks inside a domain lose their power. -/
def domainParts (m : Dev × Hbm) (k : Nat) : Dev × Hbm :=
  let d := m.1
  match k with
  | 1 => (d.managementOff, m.2)
  | 2 => ({ d with net := { d.net with ecat := .init, mailbox := [], waiting := none, transfers := [], sessions := [], rxLatched := none, pdAt := none } }, m.2)
  | 3 =>
    ((({ d with time := { d.time with tickOn := false, carried := some d.time.counter, strobes := [], marks := [], reqs := [], filter := [], servoInput := none, integ := 0, ptp := [{}, {}], notice := none } }).select none).setTState .free, m.2)
  | 4 | 5 | 6 | 7 =>
    let d := (d.dropSliceComets (k - 4)).openAxes (fun a => sliceOfAxis a = k - 4)
    let d := { d with eng := { d.eng with slices := lset d.eng.slices (k - 4) .off } }
    let d := ((d.eng.boards.map Prod.fst).filter (fun b => sliceOfBoard b = k - 4)).foldl
      (fun d b => d.modBoard b (fun x => { x with queued := none })) d
    let mine := fun (h : Nat) => decide (sliceOfAxis (axisOf h 0) = k - 4)
    let d := { d with eng := { d.eng with
      pilots := d.eng.pilots.filter (fun r => !mine r.1), pilotPoison := d.eng.pilotPoison.filter (fun h => !mine h) } }
    let d := d.dropPodWords (fun q => sliceOfPod q = k - 4)
    (if k = 4 then d.servoStops else d, m.2)
  | 8 =>
    let d := (d.eng.boards.map Prod.fst).foldl (fun d b => (d.modBoard b (fun x => 
      { x with discovered := false, queued := none, missed := 0, accepted := false })).setBoard b .absent) d
    let d := { d with rings := { d.rings with pods := d.rings.pods.map (fun (e : Nat × Pod) => (e.1, { e.2 with lock := false })) } }
    let d := d.dropPodWords (fun _ => true)
    ((upto 16).foldl (fun d j => d.modPodLink j (fun x => { x with trained := false })) d, m.2)
  | 9 | 10 =>
    let d := ((upto 39).filter (fun l => domainOf l = k)).foldl Dev.darkLink d
    let d := if k = 10 then
        let d := (upto 4).foldl (fun d s => (upto (lasersOf s)).foldl (fun d m => (d.laserOff s m).pilotsOff s m) d) d
        let d := d.endPermits 4 (fun _ => true)
        (upto 4).foldl (fun d s => if (d.laser s).state == .lit || (d.laser s).state == .enabling then d.modLaser s (fun x => { x with state := .present }) else d) d
      else d
    (d.refreshAllProbing, m.2)
  | 11 =>
    let d := (upto 16).foldl Dev.enginePlanned (d.endPermits 3 (fun h => decide (h < 32 || 96 ≤ h)))
    ({ d with coll := { d.coll with state := if d.coll.state == .fault then .fault else .off, queues := [] } }, m.2)
  | 12 | 13 =>
    let d := (d.stacksOf k).foldl (fun d s =>
      { d with mem := { d.mem with stackOf := tset d.mem.stackOf s .off, reloading := d.mem.reloading.filter (· != s) } }) d
    (if k = 12 then d.loseRing else d, m.2)
  | _ => (d, m.2)

/-- A domain is switched off: it is OFF, its supply is cut, and the permits of its requester end. Its crossings have been
quiesced, or are in `domainsDown`. -/
def domainDown (m : Dev × Hbm) (k : Nat) : Dev × Hbm :=
  let m := domainParts m k
  let d := (m.1.setDomain k .off).emit (.supply k false)
  ((({ d with power := { d.power with rampAt := tdel d.power.rampAt k } }).release 6 k), m.2)

/-- Domains are switched off one after another, each after those that require it (R27); one that is on is isolated first
(R29). -/
def domainsDown (m : Dev × Hbm) (l : List Nat) : Dev × Hbm :=
  l.foldl (fun m k =>
    if m.1.isOn k || m.1.domain k == .quiescing then domainDown (m.1.isolate k, m.2) k
    else if m.1.domain k == .ramping then domainDown m k else m) m

/-- A domain and what requires it, in the order in which they go off. -/
def offWith (m : Dev × Hbm) (k : Nat) : Dev × Hbm := domainsDown m (m.1.offList k)

/-! ### Leases and revocations (R374, R375, Table 14.3) -/

/-- What the end of a grant does. -/
def endEffect (m : Dev × Hbm) (g : Permit) : Dev × Hbm :=
  match g.cls with
  | 2 => (m.1.abortRounds (fun r => r.holder = g.holder || r.under == some g.holder), m.2)
  | 4 =>
    if (m.1.laser g.holder).state == .enabling then
      let d := (upto (lasersOf g.holder)).foldl (fun d k => d.laserDie g.holder k) m.1
      (d.modLaser g.holder (fun x => { x with state := .fault }), m.2)
    else m
  | 5 =>
    let m := offWith m 11
    (m.1.modTwin (fun t => { t with healthRun := false }), m.2)
  | 6 =>
    if m.1.domain g.holder == .ramping then
      let m := offWith m g.holder
      let d := ((m.1.setDomain g.holder .failed).bump 0x2102 5).domainResult 4
      let d := match d.net.waiting with
        | some (.domain c x) => if x = g.holder then ({ d with net := { d.net with waiting := none } }).emit (.response c 0x2100 0x11 []) else d
        | _ => d
      (d, m.2)
    else m
  | _ => m

/-- Every grant of a class that a predicate selects is revoked. -/
def revokeAll (m : Dev × Hbm) (sel : Permit → Bool) : Dev × Hbm :=
  (m.1.power.grants.filter sel).foldl (fun m g => endEffect (m.1.revoke g, m.2) g) m

/-! ### What a loss of power leaves -/

/-- A log after a loss of its RAM buffer (R336): it continues at RESERVED_SEQ + 1, and numbers reserved and not found are
named by a loss marker. -/
def Log.restarted (l : Log) : Log :=
  let last := l.flash.foldl (fun n (r : LogRec) => max n r.seq) 0
  { next := l.reserved + 1, reserved := l.reserved, flash := l.flash, oldest := l.oldest
    gap := if last < l.reserved then some (last + 1, l.reserved, none) else none }

/-- A log whose records have all gone to flash (R338). -/
def Log.settled (l : Log) (pages : Nat) : Log :=
  let go := fun (l : Log) (_ : Nat) => (l.flush true true).programmed pages true zeroRec
  (upto 17).foldl go l

/-- The unflushed records of both logs are programmed. -/
def Dev.settleLogs (d : Dev) : Dev :=
  (d.modLog false (fun l => l.settled (logPages false))).modLog true (fun l => l.settled (logPages true))

/-- The library content of a slot that a re-plan replaced in store SRAM stands again (R329). -/
def restoreLibrary (l : List (Nat × Bytes)) : List (Nat × Bytes) :=
  let own := l.filter (fun e => 0x14400 ≤ e.1 / 256)
  let rest := l.filter (fun e => e.1 / 256 < 0x14400)
  own.foldl (fun t e => tset t (objKey (e.1 / 256 - 0x10000) 1) e.2) rest

/-- What PD0, the flash and the parts outside the module keep when every other domain loses its power (Table 15.2, R28,
R18): every object reads its default until SETTINGS and LIBRARY are loaded. -/
def Dev.blank (d : Dev) : Dev :=
  { module := { d.module with discards := [], unlocked := [], quiescing := [] }
    net := { keys := d.net.keys }
    jobs := d.jobs.map (fun e => (e.1, { tag := e.2.tag, ports := e.2.ports, startOrbit := e.2.startOrbit }))
    time := { counter := d.time.counter / 2 ^ 32 * 2 ^ 32
              carried := if d.time.tickOn then some (d.time.counter / 2 ^ 32 * 2 ^ 32) else d.time.carried }
    eng := { sets := d.eng.sets
             boards := d.eng.boards.map (fun e => (e.1, { outs := e.2.outs, next := none, holding := true, rxSeq := e.2.rxSeq })) }
    rings := { pods := d.rings.pods.map (fun e => (e.1,
      { serial := e.2.serial, flipOffset := e.2.flipOffset, heater := e.2.heater, next := e.2.next, junction := e.2.junction
        banks := e.2.banks, descs := e.2.descs, strobeDelay := e.2.strobeDelay, temp := e.2.temp })), records := d.rings.records }
    opt := { lasers := d.opt.lasers.map (fun e => (e.1,
      { state := if e.2.present then .present else .absent, present := e.2.present, good := e.2.good, vendor := e.2.vendor
        part := e.2.part, serial := e.2.serial })) }
    mem := { retireFlash := d.mem.retireFlash, flashFlaws := d.mem.flashFlaws, flashWorn := d.mem.flashWorn }
    faults := { pub := d.faults.pub.restarted, prot := d.faults.prot.restarted }
    twin := { lineDrive := d.twin.lineDrive, lineColl := d.twin.lineColl, driveLowSince := d.twin.driveLowSince
              collLowSince := d.twin.collLowSince, present := d.twin.present, id := d.twin.id, versions := d.twin.versions
              selector := d.twin.selector, moving := d.twin.moving, driveDropped := d.twin.driveDropped
              collDropped := d.twin.collDropped }
    power := { domains := if d.isC then [] else [(11, .absent), (13, .absent)]
               temps := d.power.temps, hbmTemps := d.power.hbmTemps, tripLatched := d.power.tripLatched
               coolSince := d.power.coolSince, lastShut := d.power.lastShut, shutDone := d.power.shutDone
               flashOps := d.power.flashOps }
    upd := { kind := d.upd.kind, count := d.upd.count, boot := d.upd.boot, bootFlash := d.upd.bootFlash, activeManifest := d.upd.activeManifest
             fallbackManifest := d.upd.fallbackManifest, staged := d.upd.staged, receipt := d.upd.receipt, slots := d.upd.slots
             settingsSeq := d.upd.settingsSeq, settingsAt := d.upd.settingsAt, settingsUsed := d.upd.settingsUsed, settings := d.upd.settings, settingsOct := d.upd.settingsOct
             settingsFormat := d.upd.settingsFormat, libraryFormat := d.upd.libraryFormat, newLoader := d.upd.newLoader
             otherSettings := d.upd.otherSettings, otherLibraries := d.upd.otherLibraries }
    od := d.od.filter (fun e => flashObject e.1)
    ob := restoreLibrary (d.ob.filter (fun e => flashObject e.1))
    out := d.out
    fresh := d.fresh }

/-- Power goes during an activation: from step 3 of R406 on the boot record stands at ACTIVATING (R408); whether the steps had come
that far is a free value. -/
def Dev.tornActivation (d : Dev) : Dev :=
  if d.upd.state != .activating then d
  else
    let b := d.upd.boot
    let u := if b.state == .normal && b.fallbackId != b.activeId then
        { d.upd with fallbackManifest := d.upd.activeManifest }.writeBoot { b with fallbackId := b.activeId } else d.upd
    let u := u.writeBoot { u.boot with state := .activating }
    (if Config.openNat d.fresh % 2 = 1 then { d with upd := u } else d).drawn 1

/-- PD0 cuts every domain but itself, and PD15 where it has flash operations to end (R385, R441): both grants fall. -/
def cutPower (m : Dev × Hbm) (keepFlash : Bool) : Dev × Hbm :=
  let d := m.1.dropGrants false
  let flash := keepFlash && d.isOn 15
  let d := d.emits ((onOrder.filter (fun k => k != 0 && d.isOn k && !(flash && k = 15))).map (fun k => .supply k false))
  let d := d.tornActivation.blank
  (if flash then { d with power := { d.power with domains := tset d.power.domains 15 .on, flashGate := false } } else d,
    { m.2 with cells := [], poison := [], valid := [], flaws := [] })

/-! ### Starts (Table 15.2) -/

/-- The sequencer switches PD15 and PD1 on by itself (R368). -/
def Dev.ramp (d : Dev) (k : Nat) : Dev :=
  let d := (d.setDomain k .ramping).emit (.supply k true)
  { d with power := { d.power with rampAt := tset d.power.rampAt k d.now } }

/-- Whether every die sensor reads at or below T_RESUME (R386). -/
def Dev.cool (d : Dev) : Bool := d.power.temps.all (fun t => t ≤ d.committedNum 0x2130 6)

/-- LAST_SHUTDOWN of a shutdown that ended before this start (Table 14.7). -/
def Dev.writeLastShut (d : Dev) : Dev :=
  match d.power.lastShut with
  | some (at_, level, sensor, temp) =>
    let flash := if d.power.flashOps.isEmpty then 0 else if level = 3 then 1 else 2
    let d := d.setOct 0x2130 0x0A (le 8 at_ ++ le 1 level ++ le 1 sensor ++ leI 2 temp ++ le 1 flash ++ zeros 3)
    { d with power := { d.power with lastShut := none, flashOps := [] } }
  | none => d

/-- A cold start begins (R389): the straps are latched (R391), PD0 is on, and PD15 ramps unless a die is still too hot
(R386). -/
def coldStart (m : Dev × Hbm) (straps timeRef : Nat) (kind : StartKind) : Dev × Hbm :=
  let d := m.1.blank
  let d := { d with
    module := { d.module with straps := straps, timeRef := timeRef, refclk := true }
    upd := { d.upd with kind := kind, startAt := d.now, count := (d.upd.count + 1) % 2 ^ 32, state := .scanning }
    power := { d.power with startHeld := !d.cool, shutDone := false } }
  let d := d.writeLastShut
  (if d.power.startHeld then d else d.ramp 15, { m.2 with cells := [], poison := [], valid := [], flaws := [] })

/-- What the store SRAM, PD3 and the lit slots keep through a warm start (Table 15.2, R390, R393). -/
def Dev.warmKeep (old d : Dev) : Dev :=
  let clean := !(old.mem.sramPoison.any (fun w => w / 2 ^ 32 = 8)) && !(old.mem.sramFlaws.any (fun e => e.1 / 2 ^ 32 = 8 && 2 ≤ e.2))
  let d := if clean then
      { d with
        jobs := old.jobs, circuits := old.circuits, runs := old.runs
        coll := { jobs := old.coll.jobs.map (fun e => (e.1, { stepNow := e.2.stepNow : Coll })) }
        ob := d.ob.filter (fun e => e.1 / 256 < 0x4400 || 0x4800 ≤ e.1 / 256) ++
          old.ob.filter (fun e => (0x4400 ≤ e.1 / 256 && e.1 / 256 < 0x4800 && e.1 % 256 = 1) || 0x14400 ≤ e.1 / 256) }
    else d
  let state := match old.time.state with
    | .locked | .holdover => TState.holdover
    | _ => .free
  { d with
    time := { counter := old.time.counter, increment := old.time.increment, tickOn := true, state := state
              holdoverAt := if old.time.state == .holdover then old.time.holdoverAt else old.now
              inForce := old.time.inForce, newest := old.time.newest }
    opt := { lasers := old.opt.lasers }
    mem := { d.mem with stackOf := old.mem.stackOf, retired := old.mem.retired, fills := old.mem.fills, reloading := old.mem.reloading
                        sramPoison := old.mem.sramPoison.filter (fun k => 15 ≤ k / 2 ^ 32)
                        sramFlaws := old.mem.sramFlaws.filter (fun e => 15 ≤ e.1 / 2 ^ 32) }
    recr := old.recr.kept
    faults := { restarts := if clean then old.faults.restarts else []
                pub := { old.faults.pub with buffer := [], programming := 0, firstAt := none }
                prot := { old.faults.prot with buffer := [], programming := 0, firstAt := none } }
    power := { d.power with domains := ([0, 1, 3, 15] ++ (if old.isOn 12 then [12] else []) ++ (if old.isOn 13 then [13] else [])).map (fun k => (k, DState.on))
                                       ++ (if d.isC then [] else [(11, .absent), (13, .absent)])
                            flashGate := true } }

/-- A warm start (R390, R388): HOLD frames, GOODBYE with cause 3, the grants fall, the logs are flushed, a POST ring is
frozen, and the Director stands in BOOT with the domains of Table 15.4 off. -/
def warmStart (m : Dev × Hbm) (kind : StartKind) (cause : Cause) : Dev × Hbm :=
  let d := m.1.holdBoards.holdBoards
  let d := d.identified.foldl (fun d p => d.goodbye p 3) d
  let d := ((d.dropGrants false).freeze true).settleLogs
  let d := if d.upd.pendingSettings then d.commitSettings else d
  let off := onOrder.filter (fun k => d.isOn k && !([0, 1, 3, 12, 13, 15] : List Nat).contains k)
  let d := d.emits (off.map (fun k => .supply k false))
  let n := d.warmKeep d.blank
  ({ n with
      upd := { n.upd with kind := kind, startAt := n.now, count := (n.upd.count + 1) % 2 ^ 32, state := .scanning }
      dir := { cause := cause, since := n.now } }, m.2)

/-- The next domain of a start asks for its permit, one after another (R367, R368); PD11 follows the COLL role alone. -/
def Dev.startNext (d : Dev) : Dev :=
  if d.upd.startDone.isSome || d.dir.state != .selftest then d
  else
    let left := (onOrder.filter (fun k => k != 0 && k != 11 && d.domainPresent k)).filter (fun k => !d.isOn k && d.domain k != .failed)
    match left with
    | [] => d
    | k :: _ =>
      if d.domain k == .ramping || (d.power.deferred.any (fun g => g.cls = 6 && g.holder = k)) then d else d.switchOn k .normal

/-- The manifest of the region that runs. -/
def Dev.manifest (d : Dev) : Bytes := if d.upd.region = 1 then d.upd.activeManifest else d.upd.fallbackManifest

/-- Whether the running image reads a format of SETTINGS (0) or LIBRARY (1): its own, and the lower ones that it lists
internally, which the spec does not give (R398, R409). -/
def Dev.readsFormat (d : Dev) (kind format : Nat) : Bool :=
  let own := fld d.manifest (44 + kind) 1
  format = own || (format < own && Config.imageReads d.manifest kind format)

/-- The settings records whose data pages read good (R312, R397). -/
def Dev.readSettings (d : Dev) : Dev × List SettingsRec :=
  (d.upd.inForce ++ d.upd.otherSettings).foldl (fun r x =>
    let y := r.1.readFlash (fun p => (upto (x.pages + 1)).any (fun i => p == .settings x.slot (x.page + i)))
    (y.1, if y.2 then r.2 ++ [x] else r.2)) (d, [])

/-- The settings record in force is the one of the highest SEQ whose format the image reads and whose pages read good; with none every
setting takes its default (R397, R409). -/
def Dev.loadSettings (d : Dev) : Dev :=
  let good := d.readSettings
  let d := good.1
  let rest := d.od.filter (fun e => !settingsObject e.1)
  let restO := d.ob.filter (fun e => !settingsObject e.1)
  let all := d.upd.inForce ++ d.upd.otherSettings
  match newestSettings (good.2.filter (fun r => d.readsFormat 0 r.format)) with
  | some r =>
    let d := { d with upd := d.upd.takeSettings r }
    let d := { d with od := d.upd.settings.foldl (fun t e => tset t e.1 e.2) rest
                      ob := (d.upd.settingsOct.filter (fun e => 256 ≤ e.1)).foldl (fun t e => tset t e.1 e.2) restO }
    let d := match tfind d.upd.settingsOct 1 with
      | some b =>
        let o : OrbitDef := { epoch := fld b 0 8, period := fld b 8 4, seq := fld b 12 4, validFrom := fld b 16 8 }
        if d.upd.kind == .warm || d.upd.kind == .watchdog then d
        else d.modTime (fun t => { t with inForce := o, newest := o })
      | none => d
    match tfind d.upd.settingsOct 4 with
    | some b => (upto 16).foldl (fun d k => (d.setOct (0x3D00 + k) 3 (slice b (32 * k) 16)).setOct (0x3D00 + k) 4 (slice b (32 * k + 16) 8)) d
    | none => d
  | none =>
    ({ d with od := rest, ob := restO, upd := { d.upd with settings := [], settingsOct := [], settingsSeq := 0, otherSettings := all } }).setNum
      0x2404 2 1

/-- What starts again from the settings as they are loaded. -/
def Dev.settled (d : Dev) : Dev := d.loadSettings.startPtp

/-- The job data that LIBRARY holds. -/
def Dev.libraryJobs (d : Dev) : List (Nat × Job) :=
  d.jobs.map (fun e => (e.1, { tag := e.2.tag, ports := e.2.ports, startOrbit := e.2.startOrbit }))

/-- The jobs at a start (R393): LIBRARY of a format that the image does not read is not loaded, so that the slots are empty and the jobs
EMPTY, but it stays in flash until the image is confirmed; an earlier one that the image reads is loaded in its place (R409). -/
def Dev.loadLibrary (d : Dev) : Dev :=
  if d.readsFormat 1 d.upd.libraryFormat then d
  else
    let own : LibraryRec :=
      { format := d.upd.libraryFormat, jobs := d.libraryJobs, nums := d.od.filter (fun e => libraryObject e.1)
        octs := d.ob.filter (fun e => libraryObject e.1) }
    let back := (d.upd.otherLibraries.find? (fun r => d.readsFormat 1 r.format)).getD
      { format := fld d.manifest 45 1, jobs := [], nums := [], octs := [] }
    let rest := d.upd.otherLibraries.filter (fun r => r.format != back.format && r.format != own.format)
    ({ d with
        jobs := back.jobs, runs := [], circuits := []
        ob := d.ob.filter (fun (e : Nat × Bytes) => !libraryObject e.1) ++ back.octs, od := d.od.filter (fun (e : Nat × Int) => !libraryObject e.1) ++ back.nums
        upd := { d.upd with libraryFormat := back.format, otherLibraries := rest ++ [own] } }).setNum 0x2404 3
      (min own.octs.length 65535 : Nat)

/-- What the loader writes into the boot record as it starts a region (R407, R408). -/
def Dev.bootChoice (d : Dev) (region : Nat) : Dev :=
  let u := d.upd.readBoot
  let b := u.boot
  let u := match b.state with
    | .activating | .trial =>
      u.writeBoot (if region = 2 then { b with state := .fallenBack } else { b with state := .trial, trialStarts := b.trialStarts + 1 })
    | _ => u
  { d with upd := { u with
      soakAt := d.now, soakBroken := false
      windowEnd := if u.boot.state == .trial then d.now + 1800 * Config.sec else 0 } }

end Sys2Proof.Machine
end

