-- ==== Sys2Proof/Machine/Zenith.lean ====
section
/-!
DEFINITION. An entry on its way: launch window, comets, votes, the flip, its verification, its outcome and its revert
(chapter 07), with what the engine, the detours and the permits take from it.
-/

namespace Sys2Proof.Machine
open Sys2Proof

/-! ### The launch window (R180, R328 to R330) -/

/-- Whether a commit leaves its job free for the next entry: idle, final, or with its outcome fixed (R206). -/
def Commit.over (c : Commit) : Bool :=
  match c.state with
  | .idle | .verified | .held | .retracted | .reverted => true
  | .flipping => c.kept == some true
  | _ => false

/-- The detour out of schedule that comes first for a job. -/
def Dev.firstDetour (d : Dev) (j : Nat) : Option Detour :=
  (d.arr.detours.filter (fun x => x.job == j)).foldl (fun (m : Option Detour) x => match m with
    | none => some x
    | some y => if x.zd < y.zd then some x else m) none

/-- The slot that an entry commits once a pending release of its BASE_SLOT takes effect, if that commit passes (R330). -/
def Dev.releasedSlot (d : Dev) (j z : Nat) (e : AEntry) : Option Nat :=
  match d.faults.releases.find? (fun x => x.1 = j && (almDetour (d.almanac j) x.2).base = e.slot) with
  | none => none
  | some x =>
    let slot := match (d.applying j e.slot).filter (fun r => r.index != x.2) with
      | r :: _ => r.slot
      | [] => e.slot
    if (d.checkNow j z e slot).isNone then some slot else none

/-- The monitor masks of an entry's ports are whole again. -/
def Dev.clearFlipOut (d : Dev) (ports : List Nat) : Dev :=
  (ports.foldl (fun d p => d.modBank p (fun b => { b with flipOut := 0 })) d).sendMonitors ports

/-- An entry enters its launch window (R92, Table 7.9), those of a job in almanac order: comets, permits, staging of its prefetch group, reservations. -/
def Dev.openEntry (d : Dev) (j z slot : Nat) (e : AEntry) (detour : Option Nat) : Dev :=
  let old := d.commit j
  let es := centries (d.slot slot)
  let launches := d.inState [.armed, .serving]
  let d := d.modCommit j (fun _ =>
    { state := .presteer, entry := e.index, z := z, slot := slot, lastOutcome := old.lastOutcome, lastZ := old.lastZ
      lastFlip := old.lastFlip, lastSlot := old.lastSlot, detour := detour, opened := d.now, bare := !launches && es.any (·.starts) })
  let fails := !(d.run j).replanned.isEmpty && (d.checkNow j z e slot).isSome
  if fails then (d.modCommit j (fun c => { c with state := .held, reason := 5, own := 5 })).raise 0x0405 4 1 j true
  else
    let d := d.createComets j e.index z (if launches then es else [])
    let d := if e.cls = 1 && detour.isNone then d.requestSlew j e.index e.amount (z - 200 * Config.us) else d
    let d := if e.prefetch < 3840 && (d.engJob j).state == .active && detour.isNone then
        (d.burst (16 + j)).modEngJob j (fun x => { x with
          staged := if x.staged.map (·.group) == some e.prefetch then x.staged else some { group := e.prefetch, token := x.stepNow % 2 ^ 32 } })
      else d
    (d.abortRounds (fun r => detour.isSome &&
      r.ports.any (fun p => (d.entryPorts j es).contains p))).revote j

/-- LAUNCH_WINDOW of a job: its detour out of schedule or its next entry, whichever comes first, at Z − LAUNCH_LEAD and not
before ORBIT_EPOCH (R8). The window opens in every Director state; comets are created in ARMED and SERVING (Table 7.3). -/
def Dev.launchWindow (d : Dev) (j : Nat) : Dev :=
  let at_ := fun (z : Nat) => max (z - d.nat 0x2600 1 * Config.us) d.time.inForce.epoch
  if !(d.job j).state == .running || (d.job j).stopping || !d.holdsDrive || !(d.commit j).over then d
  else
    let r := d.run j
    let alm := d.almanac j
    let main := if r.zenith = 0 then none else some r.zenith
    match d.firstDetour j, main with
    | some x, m =>
      if m.all (fun z => x.zd < z) then
        let rec_ := almDetour alm x.record
        let e : AEntry := { index := r.next, orbit := 0, sub := 0, slot := rec_.slot, flags := 0, cls := 0, amount := 0, prefetch := 0xFFFF }
        (d.reach (at_ x.zd)).openEntry j x.zd rec_.slot e (some x.record)
      else
        let e := almEntry alm r.next
        let slot := (d.releasedSlot j r.zenith e).getD (d.commitSlot j e)
        (d.reach (at_ r.zenith)).openEntry j r.zenith slot e none
    | none, some z =>
      let e := almEntry alm r.next
      let slot := (d.releasedSlot j z e).getD (d.commitSlot j e)
      (d.reach (at_ z)).openEntry j z slot e none
    | none, none => d

/-! ### Launching a comet (R180 to R182, R201) -/

/-- The instant from which both heads of a comet may launch (R143, R180). -/
def Dev.launchFrom (d : Dev) (c : Comet) : Nat :=
  (pairHeads c.north c.south c.plane).foldl (fun t h => max t (d.head h).noLaunch) (d.commit c.job).opened

/-- A comet launches on its path: straight; through its waypoint, where the straight path crosses a head, the waypoint keeps
the clearance on both legs and stays within TRAVEL_LIMIT, and WAYPOINT_ENABLE is 1; else straight with a crossing predicted
(R182). Where the waypoint that the management cluster has chosen does not serve, none does. Event 0x0205 names the crossed head by
its port and by the head number beside the comet in DETAIL (DESIGN CHOICE, log 90). -/
def Dev.launchComet (d : Dev) (c : Comet) : Dev :=
  let hs := pairHeads c.north c.south c.plane
  let beyond := fun (l : List (Nat × Int)) => l.any (fun m => d.travelLimit m.1 < (m.2.natAbs : Int))
  let hit := hs.findSome? (d.crossed c false)
  let via := hit.isSome && d.flag 0x2600 4 && !beyond c.viaMoves && (hs.findSome? (d.crossed c true)).isNone
  let cross := hit.isSome && !via
  let axes := pairAxes c.north c.south c.plane
  let from_ := hs.map d.headAt
  let d := d.modComet c (fun x =>
    { x with state := .slewing, waypoint := via, point := c.point, leg := 0, crossing := cross, okN := false, okS := false, start := from_ })
  let h := hit.getD 0
  let d := if cross then (d.bump 0x2602 7).info 0x0205 2 (portOfHead h) (le 2 c.id ++ le 2 h) else d
  let d := d.putCircuit
    { north := c.north, south := c.south, plane := c.plane, state := .presteer, lanes := c.lanes, weights := c.weights }
  let c := { c with state := CometState.slewing }
  if beyond c.moves || axes.any (fun a => (d.axis a).state == .fault) then d.faultComet c
  else
    let d := (pairHeads c.north c.south c.plane).foldl (fun d h => d.gateOpen h c.id) d
    d.launchGang (some c.id) (if via then c.viaMoves else c.moves)

/-- Whether the plane of a comet is shadow at both of its ends (Table 3.2). -/
def Dev.shadowAt (d : Dev) (c : Comet) : Bool :=
  !d.circuits.any (fun x => x.inForce && x.plane == c.plane && (x.north == c.north || x.south == c.south))

/-- Whether the axes of a comet can take a trajectory (Table 5.6): each is in HOLD_CLOSED, or in FAULT, at which the comet faults. -/
def Dev.axesFree (d : Dev) (c : Comet) : Bool :=
  (pairAxes c.north c.south c.plane).all (fun a => (d.axis a).state == .holdClosed || (d.axis a).state == .fault)

/-! ### Messages that pass (R185) -/

/-- The reason codes of Table 7.6, and 0 for a message that carries none (Table 7.4). -/
def reasonListed (reason : Nat) : Bool := decide (reason ≤ 10)

/-- What arrives on a peer port goes on to the children, and takes effect here. -/
def Dev.passDown (d : Dev) (port type : Nat) (m : CMsg) (body : Bytes) (act : Dev → Nat → Dev) : Dev :=
  if !d.peerOpen port || !d.isOn 10 then d
  else if !reasonListed m.reason then d.linkViolation (32 + port)
  else
    let d := d.seeEpoch m.epoch
    let head := le 4 m.tag ++ le 4 m.entry ++ le 8 m.zenith ++ le 4 m.crc ++ le 2 m.sender ++ le 2 m.leader ++ le 4 m.epoch ++
      le 1 m.reason ++ zeros 3
    let d := d.sendDown type 0 (head ++ body) (some port)
    match d.jobOfTag m.tag with
    | some j => if d.acts then act d j else d
    | none => d

/-- What arrives from a child reaches the leader, or goes on to the parent. -/
def Dev.passUp (d : Dev) (port type : Nat) (m : CMsg) (body : Bytes) (act : Dev → Dev) : Dev :=
  if !d.peerOpen port || !d.isOn 10 then d
  else if !reasonListed m.reason then d.linkViolation (32 + port)
  else
    let d := d.seeEpoch m.epoch
    if !d.acts then d
    else if d.isRootNow then act d
    else
      let head := le 4 m.tag ++ le 4 m.entry ++ le 8 m.zenith ++ le 4 m.crc ++ le 2 m.sender ++ le 2 m.leader ++ le 4 m.epoch ++
        le 1 m.reason ++ zeros 3
      d.sendUp type 0 (head ++ body)

/-! ### Instants of the leader (R190, R193, R196) -/

/-- The leader's own reason for a HOLD: that of the lowest-numbered member that is not READY; a silent one gives 3. -/
def Group.holdReason (g : Group) : Nat :=
  match (bitsOf 64 (maskOut g.members g.ready)).head? with
  | none => 1
  | some i => if g.notReady.testBit i then max 1 (tget 1 g.failReasons i) else 3

/-- The leader's reason for a RETRACT at the guard (R187): that of the lowest-numbered member whose acknowledgement is missing,
6, or failed. -/
def Group.guardReason (g : Group) : Nat :=
  match (bitsOf 64 (maskOut g.members g.ack ||| g.fail)).head? with
  | none => 6
  | some i => if g.fail.testBit i then max 1 (tget 1 g.failReasons i) else 6

/-- Z − 800 µs: HOLD where GO has not been sent, once the last tick for a GO is over (R190, R451). -/
def Dev.decideGroup (d : Dev) (tag z : Nat) : Dev :=
  let d := d.closes (z - 800 * Config.us)
  match d.group tag z with
  | none => d
  | some g => if g.goSent || g.holdSent || g.retractSent then d else d.leaderHold g g.holdReason

/-- Z − 200 µs: the leader retracts what is not wholly acknowledged, and a member without GO holds (R193, Table 7.9). -/
def Dev.guardAt (d : Dev) (tag z : Nat) : Dev :=
  let d := d.reach (z - 200 * Config.us)
  let d := match d.group tag z with
    | none => d
    | some g =>
      if g.goSent && !g.confirmSent && !g.retractSent then
        d.leaderRetract g g.guardReason
      else d
  match d.jobOfTag tag with
  | none => d
  | some j =>
    let c := d.commit j
    if c.z = z && (c.state == .presteer || c.state == .voted) then d.memberHold j c.reason else d

/-- The class 4 fault of a job whose outcome is divided (R196); a leader that is no member names it by its TAG. -/
def Dev.divided (d : Dev) (tag : Nat) : Dev :=
  match d.jobOfTag tag with
  | some j => (d.bump 0x2602 6).raise 0x0404 4 1 j true
  | none => (d.bump 0x2602 6).raise 0x0404 4 1 0xFFFF true (le 4 tag)

/-- Z + 2 ms at the leader, a new one among them, which has only the outcomes (R196): a divided outcome is a class 4 fault of the job (R196). -/
def Dev.checkOutcome (d : Dev) (tag z : Nat) : Dev :=
  match d.group tag z with
  | none => d
  | some g =>
    let d := d.modGroup g (fun x => { x with checked := true })
    if (g.confirmSent && !g.retractSent && g.kept != g.members) || (g.retractSent && g.kept != 0) ||
        (!g.confirmSent && !g.retractSent && g.kept != 0 && g.reverted != 0) then
      d.divided tag
    else d

/-- The CAL reservation of a committed entry is requested at Z + 2 ms (R377). -/
def Dev.reserveCal (d : Dev) (j z : Nat) : Dev :=
  let c := d.commit j
  let e := almEntry (d.almanac j) c.entry
  if c.z = z && c.detour.isNone && e.cls = 2 && c.kept == some true && (d.job j).state == .running then
    let next := (d.run j).zenith - 2 * Config.ms
    let till := if e.idleWindow then next else min next (z + Config.sec)
    d.request 2 .reserved e.amount (calHolder j c.entry) till
  else d

/-! ### The flip at this member (R197 to R200) -/

/-- The lanes that leave a port's monitor mask for one step: all lanes of what the entry starts or ends at the port, or
lane k of a graded move (Tables 7.7 and 7.8). -/
def Dev.maskForStep (d : Dev) (j : Nat) (es : List CEntry) (k p : Nat) : Nat :=
  let part := fun (graded : Bool) (lanes : Nat) => if graded then 2 ^ k else if k = 0 then lanes else 0
  let starts := es.filter (fun e => e.starts && (e.north == p || southPort e.south == p))
  let ends := (d.endedBy j es).filter (fun c => c.hasPort p)
  (starts.map (fun e => part (e.handover == 1) e.lanes) ++ ends.map (fun c => part (gradedOut es c) c.lanes)).foldl (· ||| ·) 0

/-- The lanes that come back to a port's monitor mask when a step is whole: lane k of a graded move, else all. -/
def Commit.backForStep (c : Commit) (es : List CEntry) (k p : Nat) : Nat :=
  let at_ := es.filter (fun e => e.starts && (e.north == p || southPort e.south == p))
  let graded := at_.any (·.handover == 1) || c.ended.any (fun x => x.hasPort p && gradedOut es x)
  if graded && !(k = 0 && at_.any (·.handover == 0)) then 2 ^ k else 255

/-- The cancel limit of a step: the lanes leave the masks and the descriptor goes (R194, Table 7.7). -/
def Dev.cancelLimit (d : Dev) (j k : Nat) : Dev :=
  let c := d.commit j
  match c.stages.find? (fun s => s.step = k) with
  | none => d
  | some st =>
    match d.time.strobes.find? (fun s => s.job = j && s.kind = 0 && s.tag = st.tag && !s.due.isEmpty) with
    | none => d
    | some s =>
      let d := d.reach (s.z - 20 * Config.us)
      let es := centries (d.slot c.slot)
      let ports := (d.entryPorts j es).filter (fun p => d.maskForStep j es k p != 0)
      let d := ports.foldl (fun d p => d.modBank p (fun b => { b with flipOut := b.flipOut ||| d.maskForStep j es k p })) d
      (d.fixStrobe s).sendMonitors ports

/-- A pending release takes effect where the entry has committed another slot (R330); the LIBRARY content returns to a
re-planned slot once no record of its BASE_SLOT is active. -/
def Dev.takeRelease (d : Dev) (j : Nat) (e : AEntry) (slot : Nat) : Dev :=
  match d.faults.releases.find? (fun x => x.1 = j && (almDetour (d.almanac j) x.2).base = e.slot) with
  | none => d
  | some x =>
    let r := almDetour (d.almanac j) x.2
    if slot = r.slot then d
    else
      let d := { d with faults := { d.faults with releases := d.faults.releases.filter (· != x) } }
      let d := d.modRun j (fun y => { y with detours := y.detours.filter (· != r.index) })
      if (d.applying j e.slot).isEmpty then
        let back := (d.run j).replanned.filter (fun i => (almDetour (d.almanac j) i).base = e.slot)
        let d := back.foldl (fun d i =>
          let s := (almDetour (d.almanac j) i).slot
          ((d.setOct (0x4400 + s) 1 (d.oct (libSlot s) 1)).setOct (libSlot s) 1 []).copyItem 1 s) d
        d.modRun j (fun y => { y with replanned := y.replanned.filter (fun i => !back.contains i) })
      else d

/-- The deliveries of a committed entry, under HBM_BURST (R280, R285, R288): activations before its STEP_START, a model after it. -/
def delivers (m : Dev × Hbm) (j : Nat) (e : AEntry) : Dev × Hbm :=
  let step := fun (m : Dev × Hbm) => if e.stepStart then stepStart m j else m
  if e.prefetch < 3840 && (m.1.engJob j).state == .active then
    let m := step (deliverGroup (m.1.burst (16 + j), m.2) j e.prefetch)
    (m.1.release 3 (16 + j), m.2)
  else if 3840 ≤ e.prefetch && e.prefetch < 3904 && m.1.engineUp then
    let m := step m
    let m := deliverModel (m.1.burst (16 + j), m.2) j (e.prefetch - 3840)
    (m.1.release 3 (16 + j), m.2)
  else step m

/-- What a committed almanac entry does beyond its circuits (R78, R284, R285, R359): the mirror, the extents delivered before, which its
STEP_START frees, the deliveries and the step. -/
def entryEffects (m : Dev × Hbm) (j : Nat) (e : AEntry) : Dev × Hbm :=
  let d := if e.mirrorEpoch then m.1.modMirror j (fun x => { x with due := sinsert x.due (m.1.engJob j).stepNow }) else m.1
  let m := if e.stepStart then freeExtents (d, m.2) j (·.delivered) else (d, m.2)
  delivers m j e

/-- The Zenith of the entry in progress at a member that goes through with it (Table 7.9). The shutters that its banks open for a comet
that is no longer STAGED are darkened again at once: no circuit is in force behind them (R159; DESIGN CHOICE, log 64). -/
def flipEntry (m : Dev × Hbm) (j : Nat) : Dev × Hbm :=
  let d := m.1
  let c := d.commit j
  let es := centries (d.slot c.slot)
  let e := almEntry (d.almanac j) c.entry
  let d := if d.strobed j then d else d.cancelLimit j 0
  let d := d.reach c.z
  let before := d.run j
  let live := d.flips es
  let begun := live.map (fun y => (y.north, y.plane))
  let d := ((d.jobComets j).filter (fun x => x.state != .staged)).foldl Dev.abortComet d
  let kept := d.circuits.filter (fun x => d.jobCircuit j x && keptAt es x.north)
  let ended := d.endedBy j es
  let dark := es.filter (fun y => y.starts && !live.contains y)
  let d := ((d.flip j c.z es live).retrainServices d.circuits).modCommit j (fun x =>
    { x with state := .flipping, lastFlip := c.z, lastSlot := c.slot, before := some before, begun := begun, ended := ended, keptLit := kept })
  let d := dark.foldl (fun d y => d.strobeShutters
    { north := y.north, south := y.south, plane := y.plane, state := .none, lanes := y.lanes, weights := y.weights } false) d
  match c.detour with
  | some _ => ({ d with arr := { d.arr with detours := d.arr.detours.filter (fun x => !(x.job == j && x.zd == c.z)) } }, m.2)
  | none =>
    let d := (d.takeRelease j e c.slot).advance j
    let d := d.endStall j
    let m := entryEffects (d, m.2) j e
    if (m.1.job j).stopping then (m.1.stopJob j (m.1.job j).cause, m.2) else m

/-- A Zenith passes without its entry (R96, R325). -/
def Dev.passZenith (d : Dev) (j : Nat) : Dev :=
  let c := d.commit j
  let d := if c.state == .presteer || c.state == .voted then d.memberHold j c.reason else d
  let c := d.commit j
  if (c.state == .held || c.state == .retracted) && c.lastZ = c.z then
    let d := d.reach c.z
    match c.detour with
    | some _ => { d with arr := { d.arr with detours := d.arr.detours.filter (fun x => !(x.job == j && x.zd == c.z)) } }
    | none => d.noteStall j c.z c.reason c.own
  else d

/-- ZENITH of a job, or of its detour out of schedule. The strobes of a member whose arming was refused are not there: nothing is
applied, and an entry that no RETRACT has ended is RETRACTED there (DESIGN CHOICE, log 64). -/
def zenithOfJob (m : Dev × Hbm) (j : Nat) (detour : Bool) : Dev × Hbm :=
  let c := m.1.commit j
  if c.detour.isSome != detour then m
  else if c.state == .acked || c.state == .confirmed then
    if c.armed then flipEntry m j else ((m.1.memberCancel j c.reason).passZenith j, m.2)
  else (m.1.passZenith j, m.2)

/-- A graded step k: its lane moves; at step 7 the outgoing circuits end (R198, Table 7.8). -/
def Dev.gradedStep (d : Dev) (j k : Nat) : Dev :=
  let c := d.commit j
  if c.state != .flipping || k = 0 then d
  else
    let es := centries (d.slot c.slot)
    let d := d.reach (c.z + 50 * Config.us * k)
    let d := (es.filter (fun e => e.starts && e.handover = 1)).foldl (fun d e =>
      let d := d.moveLane e k
      if 480 ≤ e.south && d.opt.links.any (fun x => x.1 = 64 + (e.south - 480)) then d.moveSvcLane (e.south - 480) e.lanes k else d) d
    if k = 7 then
      let old := d.circuits
      let d := (c.ended.filter (gradedOut es)).foldl (fun d x =>
        (d.endCircuit (c.z + 350 * Config.us) x).unlatch 0x0306 2 x.north) d
      let moving := (upto 32).filter (fun n => (d.opt.links.any (fun e => e.1 = 64 + n)))
      let d := moving.foldl Dev.endSvcMove d
      (upto 32).foldl (fun d n => if moving.contains n then d else d.retrainService old n) d
    else d

/-- Banks are reported applied and settled (R200, R204): masks return as the steps are whole. -/
def Dev.banksReported (d : Dev) (q mask : Nat) : Dev :=
  (upto 16).foldl (fun d j =>
    let c := d.commit j
    if !(c.state == .flipping || c.state == .verified || c.state == .reverting || c.state == .reverted) then d
    else
      let undone := c.state == .reverted
      let note := fun (s : Stage) =>
        if mask.testBit s.tag && s.pods.contains q then { s with applied := sinsert s.applied q } else s
      let d := d.modCommit j (fun x => { x with stages := x.stages.map note })
      let es := centries (d.slot c.slot)
      let ports := ((c.begun.flatMap (fun b => match d.circuitOf b.1 b.2 with
          | some x => [x.north, southPort x.south]
          | none => [b.1])) ++ c.ended.flatMap (fun x => [x.north, southPort x.south]) ++ d.entryPorts j es).foldl sinsert []
      let whole := (d.commit j).stages.filter (fun s => s.missing.isEmpty && mask.testBit s.tag)
      if undone then
        if (d.commit j).stages.all (fun s => s.missing.isEmpty) then
          (d.modCommit j (fun x => { x with stages := [] })).clearFlipOut ports
        else d
      else whole.foldl (fun d s =>
        (ports.foldl (fun d p => d.modBank p (fun b => { b with flipOut := maskOut b.flipOut (c.backForStep es s.step p) })) d).sendMonitors ports) d) d

/-- The circuits of an entry at pods that did not apply its bank are LOST (R200). -/
def Dev.loseUnapplied (d : Dev) (j : Nat) (pods : List Nat) : Dev :=
  let c := d.commit j
  let es := centries (d.slot c.slot)
  let ports := (d.entryPorts j es).filter (fun p => pods.contains (podOf p))
  let d := d.modCommit j (fun x => { x with failed := true })
  ports.foldl (fun d p =>
    if (d.forceAt p).any (fun x => x.state != .lost) then
      let d := d.modCircuits (fun x => x.inForce && x.hasPort p) (fun x => (x.setLost p x.lanes))
      let d := d.modCircuits (fun x => x.inForce && x.hasPort p) (fun x => { x with state := .lost })
      d.raise 0x0302 2 2 p true [255]
    else d) d

/-- 30 µs after a bank's instant, and after each catch-up: what is not reported is armed again, twice (R200). -/
def Dev.ackDeadline (d : Dev) (j k : Nat) : Dev :=
  let c := d.commit j
  match c.stages.find? (fun s => s.step = k) with
  | none => d
  | some s =>
    if c.state != .flipping || s.missing.isEmpty || 2 < s.catchups then d
    else
      let d := d.closes (s.z + (30 + 50 * s.catchups) * Config.us)
      let mod := fun (d : Dev) (f : Stage → Stage) =>
        d.modCommit j (fun x => { x with stages := x.stages.map (fun y => if y.step = k then f y else y) })
      if s.catchups < 2 then
        let n := s.catchups + 1
        let d := mod d (fun y => { y with catchups := n })
        let d := d.armFixed { z := s.z + 50 * n * Config.us, pods := s.missing, tag := s.tag, kind := 3, job := j }
        (d.bump 0x2602 5).raise 0x0401 1 1 j false (le 1 k)
      else (mod d (fun y => { y with catchups := 3 })).loseUnapplied j s.missing

/-- The end of the verification window (R200). -/
def Dev.verifyEntry (d : Dev) (j : Nat) : Dev :=
  let c := d.commit j
  if c.state != .flipping || c.windowEnded then d
  else
    let es := centries (d.slot c.slot)
    let d := d.closes (c.z + (if (stepsOf es).length = 1 then 200 else 600) * Config.us)
    let ports := d.entryPorts j es
    let dark := c.darkened.any ports.contains || d.circuits.any (fun x =>
      x.inForce && (ports.contains x.north || ports.contains (southPort x.south)) && (x.lostN ||| x.lostS) != 0)
    let ok := c.stages.all (fun s => s.missing.isEmpty) && !dark && !c.failed
    let d := d.modCommit j (fun x => { x with windowEnded := true, verified := ok })
    let base := match c.detour.bind (fun r => (almDetours (d.almanac j)).find? (fun x => x.index == r)) with
      | some r => r.base
      | none => (almEntry (d.almanac j) c.entry).slot
    if ok && c.slot != base then d.detourVerified j base else d

/-- The step that a leader voids (R205): the one that the entry would have begun, or the one in which its Zenith lies; a member's
own count has advanced where its own commit of the entry has flipped, also when its next entry has opened its window since. A
detour out of schedule begins no step. A leader that is no member has no count of the job's steps: a free value. -/
def Dev.voidStep (d : Dev) (job : Option Nat) (entry z : Nat) : Nat :=
  match job with
  | none => Config.openNat d.fresh
  | some j =>
    let c := d.commit j
    let begins := (almEntry (d.almanac j) entry).stepStart && !(c.z = z && c.detour.isSome)
    (d.engJob j).stepNow + (if begins && c.lastFlip != z then 1 else 0)

/-- The first OUTCOME with a REVERTED bit: VOID goes to the members, and this Director acts on it as one (R196, R205, R286). -/
def sendVoid (m : Dev × Hbm) (g : Group) (entry : Nat) : Dev × Hbm :=
  let d := m.1.modGroup g (fun x => { x with voidSent := true })
  let job := d.jobOfTag g.tag
  let step := d.voidStep job entry g.z
  let d := if job.isNone then d.drawn 1 else d
  let m := (d.leaderSend g 0x17 0 (le 8 step), m.2)
  match job with
  | none => leaderVoid m g.tag step
  | some j =>
    let c := m.1.commit j
    if c.z = g.z && (c.state == .reverting || c.state == .reverted) then leaderVoid m g.tag step
    else
      let m := leaderVoid (engineVoid m j step) g.tag step
      ((m.1.voidStepSend j step g.z).bump 0x2602 0x0A, m.2)

/-- Outcomes reach the leader, or the own group (R195, R196); a new leader opens its record of the Zenith with them. -/
def leaderOutcome (m : Dev × Hbm) (tag entry z crc kept reverted : Nat) : Dev × Hbm :=
  let g0 : Group :=
    { tag := tag, z := z, entry := entry, crc := crc, members := ((m.1.jobOfTag tag).map (fun j => almMembers (m.1.almanac j))).getD 0 }
  let d := if (m.1.group tag z).isNone && m.1.lateLeader z then m.1.addGroup g0 else m.1
  match d.group tag z with
  | none => (d, m.2)
  | some g =>
    let d := d.modGroup g (fun x => { x with kept := x.kept ||| kept, reverted := x.reverted ||| reverted })
    let d := if g.checked && g.retractSent && kept != 0 && g.kept = 0 then d.divided tag else d
    if reverted != 0 && !g.voidSent then sendVoid (d, m.2) g entry else (d, m.2)

/-- Z + 950 µs: keep or revert, by what has come up to that tick and on it (R195, R451). -/
def fixOutcome (m : Dev × Hbm) (j : Nat) : Dev × Hbm :=
  let d := m.1
  let c := d.commit j
  if c.state != .flipping || c.kept.isSome then m
  else
    let d := d.closes (c.z + 950 * Config.us)
    let keep := c.confirm && !c.retract
    let tag := almTag (d.almanac j)
    let d :=
      if keep then
        let d := d.modCommit j (fun x =>
          { x with kept := some true, lastOutcome := 1, lastZ := c.z, state := if x.verified then .verified else .flipping
                   stages := if x.verified then [] else x.stages })
        d
      else
        let d := if c.retract then d else (d.raise 0x0402 1 1 j).bump 0x2602 4
        let es := centries (d.slot c.slot)
        let ports := (c.ended.flatMap (fun x => [x.north, southPort x.south]) ++ d.entryPorts j es).foldl sinsert []
        let d := ports.foldl (fun d p => d.modBank p (fun b => { b with flipOut := 255 })) d
        let d := (d.bump 0x2602 3).modCommit j (fun x =>
          { x with kept := some false, state := .reverting, stages := x.stages.map (fun s => { s with applied := [] }) })
        (d.armUndo j).sendMonitors ports
    let kb := if keep then d.ownBit else 0
    let rb := if keep then 0 else d.ownBit
    if d.decides j then leaderOutcome (d, m.2) tag c.entry c.z (almTiming (d.almanac j)) kb rb
    else (d.sendUp 0x16 0 (d.commitHeader tag c.entry c.z (almTiming (d.almanac j)) 0 ++ le 8 kb ++ le 8 rb), m.2)

/-- Z + 1 ms: the UNDO strobes restore what was (R204, R205). -/
def revertEntry (m : Dev × Hbm) (j : Nat) : Dev × Hbm :=
  let d := m.1
  let c := d.commit j
  if c.state != .reverting then m
  else
    let d := d.reach (c.z + Config.ms)
    let e := almEntry (d.almanac j) c.entry
    let step := (d.engJob j).stepNow
    let gone := ((c.before.map (·.detours)).getD []).filter (fun r => !(d.run j).detours.contains r)
    let d := { d with faults := { d.faults with releases := d.faults.releases ++ gone.map (fun r => (j, r)) } }
    let d := (d.undoFlip j).retrainServices d.circuits
    let d := d.modCommit j (fun x => { x with state := .reverted, lastFlip := 0, lastOutcome := 4, lastZ := c.z })
    let m := engineVoid ((d.voidStepSend j step c.z).bump 0x2602 0x0A, m.2) j step
    match c.detour with
    | some _ => m
    | none =>
      let d := if e.stepStart then m.1.modEngJob j (fun x => { x with stepNow := x.stepNow - 1 }) else m.1
      let d := if e.mirrorEpoch then
          d.modMirror j (fun x => { x with due := x.due.filter (· != (if e.stepStart then step - 1 else step)) }) else d
      ((d.placeNext j (d.again c.z)).noteStall j c.z c.reason c.own, m.2)

/-- VOID at a member that does not revert itself (R205): one that does sends VOID_STEP at its own revert. -/
def memberVoid (m : Dev × Hbm) (j z step : Nat) : Dev × Hbm :=
  if ((m.1.commit j).z = z && (m.1.commit j).state == .reverting) || m.1.disc.voided.any (fun v => v.job == j && v.step == step && v.zenith == z) then m
  else
    let m := engineVoid m j step
    ((m.1.voidStepSend j step z).bump 0x2602 0x0A, m.2)

/-- The latest message of a member for the entry of a job goes again, to the leader or, at the leader, into its own group, which a
new leader may not hold yet (R185, R190); a job that this Director decides alone needs no messages (R191): the vote, the vote of an entry it has left, or the acknowledgement, a failed one also
after a CONFIRM. -/
def Dev.repeatOwn (d : Dev) (j : Nat) : Dev :=
  let c := d.commit j
  if !d.acts || d.entryMembers j == d.ownBit then d
  else match c.state with
    | .voted => d.voteAgain j
    | .held => if c.owed && d.now < c.z then d.voteAgain j else d
    | .acked => d.ackAgain j
    | .confirmed => if c.failReason != 0 then d.ackAgain j else d
    | .flipping => if c.confirm || c.retract then d else d.ackAgain j
    | _ => d

/-- Every 50 µs the latest message of each entry is repeated until its reply (R185). -/
def Dev.repeatMessages (d : Dev) : Dev :=
  let d := (upto 16).foldl Dev.repeatOwn d
  d.arr.groups.foldl (fun d g =>
    if g.retractSent then (if d.now < g.z + 900 * Config.us then d.leaderSend g 0x15 g.reason [] else d)
    else if g.z ≤ d.now then d
    else if g.confirmSent then d.leaderSend g 0x14 0 []
    else if g.goSent then d.leaderSend g 0x11 0 []
    else d) d

end Sys2Proof.Machine
end

