-- ==== Sys2Proof/Machine/Handover.lean ====
section
/-!
DEFINITION. Planned hand-overs of the roles (R355, R357, R363).
-/

namespace Sys2Proof.Machine
open Sys2Proof

/-- The new holder goes on with the restarts of the twin state: the releases of accepted orders are armed again for the same Zr. -/
def Dev.resumeReleases (d : Dev) : Dev :=
  d.faults.restarts.foldl (fun (d : Dev) (r : Restart) => if r.state = 1 && !r.order.isEmpty && Nat.blt d.now r.zr then d.armRelease r.job r.zr else d) d

/-- HANDOVER_STATE takes a value. -/
def Dev.handoverState (d : Dev) (n : Nat) : Dev := d.modTwin (fun t => { t with handover := n })

/-- Whether an instant lies in an interval that a RUNNING job declared free: its last committed entry carries IDLE_WINDOW
and its next Zenith is later (R78). -/
def Dev.idleAt (d : Dev) (j t : Nat) : Bool :=
  match d.entryInForce j with
  | some e => e.idleWindow && t < (d.run j).zenith
  | none => false

/-- The Zeniths that a job has placed or has lately had. -/
def Dev.zenithsOf (d : Dev) (j : Nat) : List Nat :=
  ((if d.jobIn j [.running] then [(d.run j).zenith] else []) ++ [(d.commit j).z, (d.commit j).lastZ]).filter (· != 0)

/-- Whether the conditions of R357 hold for the instant at which the new holder takes over. -/
def Dev.swapAllowed (d : Dev) (t : Nat) : Bool :=
  d.twin.standbySince != 0 && d.twin.standbySince + 60 * Config.sec ≤ t &&
    !d.arr.comets.any (fun c => c.active) &&
    (upto 16).all (fun j => (d.zenithsOf j).all (fun z => z + Config.ms < t || t + 2 * Config.ms < z) &&
      (!d.jobIn j [.running] || d.idleAt j t)) &&
    d.rings.rounds.isEmpty

/-- HANDOVER_CYCLE of a hand-over announced now: two after the cycle of the next record. -/
def Dev.nextHandover (d : Dev) : Nat := (if d.eng.phase = 2 then d.eng.cycle + 1 else d.eng.cycle) + 2

/-- Whether a planned hand-over of DRIVE is accepted (R355). -/
def Dev.mayHandDrive (d : Dev) : Bool :=
  d.holdsDrive && d.twin.twinDrive == .standby && d.twin.handoverCycle = 0 && d.swapAllowed (d.nextHandover * Config.cycle)

/-- The hand-over is announced: HANDOVER_CYCLE in the next record. -/
def Dev.announceDrive (d : Dev) : Dev := d.modTwin (fun t => { t with handover := 2, handoverCycle := d.nextHandover, swapWaiting := none })

/-- The holder drops DRIVE_GRANT at the start of HANDOVER_CYCLE + 10 µs (R355), and follows its twin as SYNCING. -/
def Dev.handDrive (d : Dev) : Dev :=
  let d := d.reach (d.twin.handoverCycle * Config.cycle + 10 * Config.us)
  let d := (d.dropDrive false .syncing).modTwin (fun t => { t with handoverCycle := 0 })
  (d.handoverState 4).setNum 0x2510 2 (d.now : Nat)

/-- A hand-over that has not reached its cycle is aborted (R355). -/
def Dev.mayAbort (d : Dev) : Bool := d.twin.handover = 1 || (d.twin.handover = 2 && d.cycleNow < d.twin.handoverCycle)

/-- The abort: the record carries HANDOVER_CYCLE 0 again. -/
def Dev.abortHandover (d : Dev) : Dev :=
  d.modTwin (fun t => { t with handover := 0, handoverCycle := 0, swapWaiting := none, collHandover := false })

/-- The jobs of this module that hold a shard. -/
def Dev.shardJobs (d : Dev) : List Nat := (upto 16).filter (fun j => (d.shardOf j).isSome && !(d.plan j).isEmpty)

/-- The newest complete epoch of a mirror. -/
def Mirror.newestStep (x : Mirror) : Nat := max x.bank0.1 x.bank1.1

/-- Whether a hand-over of COLL is accepted (R363): the twin follows, and no job with a shard here runs. -/
def Dev.mayHandColl (d : Dev) : Bool :=
  d.holdsColl && d.twin.twinColl == .standby && d.shardJobs.all (fun j => !d.jobIn j [.running, .restarting])

/-- The hand-over of COLL: a final epoch of every job whose newest is not at its UPDATED_STEP, the grant drops, PD11 goes
off (R363). -/
def handColl (m : Dev × Hbm) : Dev × Hbm :=
  let late := m.1.shardJobs.filter (fun j => (m.1.mirror j).newestStep != (m.1.engJob j).updated)
  let m := (if late.isEmpty then m.1 else m.1.handoverState 3, m.2)
  let m := late.foldl mirrorStream m
  let m := (m.1.dropColl .syncing, m.2)
  let m := offWith m 11
  (m.1.handoverState 4, m.2)

/-- The health test starts once its BIST permit is granted: PD11 goes on for it (R360). -/
def Dev.startHealth (d : Dev) : Dev :=
  if (d.grantOf 5 11).isSome && !d.twin.healthRun && !d.holdsColl then
    (d.modTwin (fun t => { t with healthRun := true })).switchOn 11 .normal
  else d

end Sys2Proof.Machine
end

