-- ==== Sys2Proof/Machine/Recorder.lean ====
section
/-!
DEFINITION. What the recorder writes (R413 to R421), the export (R425), and replay (R426 to R429). The state image of a
keyframe and the EVENTS words are in the running image's own format (R415, R418): the model's is a list of integers,
each zigzag-coded in groups of seven bits.
-/

namespace Sys2Proof.Machine
open Sys2Proof

/-! ### The model's own format of slice state -/

/-- Groups of seven bits, low first, the last without its top bit. -/
def varint : Nat → Nat → Bytes
  | 0, _ => []
  | f + 1, n => if n < 128 then [BitVec.ofNat 8 n] else BitVec.ofNat 8 (n % 128 + 128) :: varint f (n / 128)

/-- An integer as a natural number: 0, -1, 1, -2, … -/
def zig (x : Int) : Nat := if 0 ≤ x then 2 * x.toNat else 2 * (-x).toNat - 1

/-- The integer of a zigzag number. -/
def unzig (n : Nat) : Int := if n % 2 = 0 then (n / 2 : Nat) else -((n + 1) / 2 : Nat)

/-- A list of integers as bytes. -/
def packInts (l : List Int) : Bytes := l.flatMap (fun x => varint 40 (zig x))

/-- The integers of a byte string. -/
def unpackInts (b : Bytes) : List Int :=
  (b.foldl (fun (s : List Int × Nat × Nat) x =>
    let v := s.2.1 + x.toNat % 128 * 2 ^ s.2.2
    if x.toNat < 128 then (unzig v :: s.1, 0, 0) else (s.1, v, s.2.2 + 7)) ([], 0, 0)).1.reverse

/-- A flag as an integer. -/
def bInt (b : Bool) : Int := if b then 1 else 0

/-- The number of integers of one axis. -/
def axisWidth : Nat := 66

/-- The state of an axis, as `axisWidth` integers. -/
def axisInts (x : Axis) : List Int :=
  let st := x.stages.words.flatMap (fun w => [w.m, w.e])
  let mo := match x.motion with
    | some m =>
      [1, (m.segs.length : Int), m.p6, m.v, m.a, bInt m.target.isSome, m.target.getD 0, (m.from_ : Int), bInt m.comet.isSome,
        ((m.comet.getD 0 : Nat) : Int)] ++ (upto 7).flatMap (fun k => [(m.segs.getD k { jerk := 0, n := 0 }).jerk, ((m.segs.getD k { jerk := 0, n := 0 }).n : Int)])
    | none => List.replicate 24 0
  [(x.state.code : Int), bInt x.byCommand, x.y, x.applied, bInt x.latched, bInt x.sensorFault, x.ref, x.optCorr, x.rLast, x.output,
    (x.misses : Int), bInt x.missFlag, bInt x.intClamp, bInt x.outSat, bInt x.sat, (x.feCount : Int), (x.faultCause : Int),
    (x.check : Int), (x.set : Int)] ++ st ++ mo ++ [bInt x.seeded]

/-- The axis that such integers give. -/
def axisOfInts (l : List Int) : Axis :=
  let g := fun (k : Nat) => l.getD k 0
  let n := fun (k : Nat) => (g k).toNat
  let t := fun (k : Nat) => g k != 0
  let w := fun (k : Nat) => ({ m := g (19 + 2 * k), e := g (20 + 2 * k) } : Bfp)
  { state := AState.ofCode (n 0), byCommand := t 1, y := g 2, applied := g 3, latched := t 4, sensorFault := t 5, ref := g 6
    optCorr := g 7, rLast := g 8, output := g 9, misses := n 10, missFlag := t 11, intClamp := t 12, outSat := t 13, sat := t 14
    feCount := n 15, faultCause := n 16, check := n 17, set := n 18, seeded := t 65
    stages := { integ := w 0, d := w 1, edPrev := w 2, n1x1 := w 3, n1x2 := w 4, n1w1 := w 5, n1w2 := w 6, n2x1 := w 7
                n2x2 := w 8, n2w1 := w 9, n2w2 := w 10 }
    motion :=
      if t 41 then
        some { segs := (upto (n 42)).map (fun k => { jerk := g (51 + 2 * k), n := n (52 + 2 * k) }), p6 := g 43, v := g 44, a := g 45
               target := if t 46 then some (g 47) else none, from_ := n 48, comet := if t 49 then some (n 50) else none }
      else none }

/-- The part of a head that a slice carries: its search. -/
def headInts (x : Head) : List Int :=
  match x.search with
  | some s => [1, (s.started : Int), s.cx, s.cy, (s.k : Int), bInt s.reacquire]
  | none => [0, 0, 0, 0, 0, 0]

/-- The head that such integers give. -/
def headOfInts (l : List Int) : Head :=
  let g := fun (k : Nat) => l.getD k 0
  { search := if g 0 != 0 then some { started := (g 1).toNat, cx := g 2, cy := g 3, k := (g 4).toNat, reacquire := g 5 != 0 } else none }

/-- The heater state of a pod: temperatures, targets and last powers. -/
def podInts (x : Pod) : List Int :=
  let w := fun (t : List (Nat × Bfp)) => (upto 176).flatMap (fun i => [(tget {} t i).m, (tget {} t i).e])
  [x.temp, x.tempPrev] ++ w x.f ++ w x.p

/-- The pod that such integers give. -/
def podOfInts (l : List Int) : Pod :=
  let g := fun (k : Nat) => l.getD k 0
  let w := fun (o : Nat) => (upto 176).map (fun i => (i, ({ m := g (o + 2 * i), e := g (o + 2 * i + 1) } : Bfp)))
  { state := .inService, temp := g 0, tempPrev := g 1, f := w 2, p := w 354 }

/-- Entries of a slice: key and integers, each `n` long. -/
def packEntries (l : List (Nat × List Int)) : List Int := (l.length : Int) :: l.flatMap (fun e => (e.1 : Int) :: e.2)

/-- Entries read back, and what follows them. -/
def unpackEntries (n : Nat) (l : List Int) : List (Nat × List Int) × List Int :=
  let k := (l.headD 0).toNat
  let body := l.drop 1
  ((upto k).map (fun i => ((body.getD (i * (n + 1)) 0).toNat, (body.drop (i * (n + 1) + 1)).take n)), body.drop (k * (n + 1)))

/-- What a slice carries of a tune: its start, its centre, its side and its errors (R147). -/
def tuneInts (t : Tune) : List Int := [(t.began : Int), t.u0, bInt t.side] ++ t.samples

/-- The tune of an axis that such integers give. -/
def tuneOfInts (a : Nat) (l : List Int) : Tune :=
  { axis := a, began := (l.getD 0 0).toNat, u0 := l.getD 1 0, side := l.getD 2 0 != 0, samples := l.drop 3 }

/-- The tunes of a slice, each behind its axis and its length. -/
def packTunes (l : List Tune) : List Int := l.flatMap (fun t => [(t.axis : Int), ((tuneInts t).length : Int)] ++ tuneInts t)

/-- Tunes read back. -/
def unpackTunes : Nat → List Int → List Tune
  | f + 1, a :: n :: t => tuneOfInts a.toNat (t.take n.toNat) :: unpackTunes f (t.drop n.toNat)
  | _, _ => []

/-- The state image of a slice (R418). -/
def stateImage (c : Nat) (axes : List (Nat × Axis)) (heads : List (Nat × Head)) (pods : List (Nat × Pod)) (tunes : List Tune) : Bytes :=
  packInts (packEntries ((axes.filter (fun e => sliceOfAxis e.1 = c)).map (fun e => (e.1, axisInts e.2))) ++
    packEntries ((heads.filter (fun e => sliceOfAxis (2 * e.1) = c)).map (fun e => (e.1, headInts e.2))) ++
    packEntries ((pods.filter (fun e => sliceOfPod e.1 = c)).map (fun e => (e.1, podInts e.2))) ++
    packTunes (tunes.filter (fun t => sliceOfAxis t.axis = c)))

/-- The state that an image gives. -/
def stateOfImage (b : Bytes) : List (Nat × Axis) × List (Nat × Head) × List (Nat × Pod) × List Tune :=
  let a := unpackEntries axisWidth (unpackInts b)
  let h := unpackEntries 6 a.2
  let p := unpackEntries 706 h.2
  (a.1.map (fun e => (e.1, axisOfInts e.2)), h.1.map (fun e => (e.1, headOfInts e.2)), p.1.map (fun e => (e.1, podOfInts e.2)),
    unpackTunes 1024 p.2)

/-- The words that take a slice from the state that its latch left to the state that it computed from: what commands
changed (R415). -/
def eventWords (c : Nat) (was now : List (Nat × Axis)) (hWas hNow : List (Nat × Head)) (tWas tNow : List Tune) : Bytes :=
  let find := fun (l : List Tune) (a : Nat) => l.find? (fun t => t.axis = a)
  let ended := (tWas.filter (fun t => sliceOfAxis t.axis = c && (find tNow t.axis).isNone)).flatMap (fun t => [((8192 + t.axis : Nat) : Int), 0])
  let begun := (tNow.filter (fun t => sliceOfAxis t.axis = c && find tWas t.axis != some t)).flatMap (fun t =>
    [((8192 + t.axis : Nat) : Int), ((tuneInts t).length : Int)] ++ (tuneInts t).flatMap (fun x => [0, x]))
  let diff := fun (k : Nat) (x y : List Int) =>
    let d := ((upto x.length).zip (x.zip y)).filter (fun e => e.2.1 != e.2.2)
    if d.isEmpty then [] else [(k : Int), (d.length : Int)] ++ d.flatMap (fun e => [(e.1 : Int), e.2.2])
  packInts ((now.filter (fun e => sliceOfAxis e.1 = c)).flatMap (fun e => diff e.1 (axisInts (tget {} was e.1)) (axisInts e.2)) ++
    (hNow.filter (fun e => sliceOfAxis (2 * e.1) = c)).flatMap (fun e => diff (4096 + e.1) (headInts (tget {} hWas e.1)) (headInts e.2)) ++
    ended ++ begun)

/-- Such words are taken: by key, of an axis, of a head (from 4,096 on) or of a tune (from 8,192 on). -/
def takeWords : Nat → List Int → List (Nat × Axis) × List (Nat × Head) × List Tune → List (Nat × Axis) × List (Nat × Head) × List Tune
  | 0, _, s => s
  | f + 1, l, s =>
    match l with
    | k :: n :: t =>
      let p := (upto n.toNat).map (fun i => ((t.getD (2 * i) 0).toNat, t.getD (2 * i + 1) 0))
      let put := fun (x : List Int) => p.foldl (fun x e => lset x e.1 e.2) x
      let s := if k < 4096 then (tset s.1 k.toNat (axisOfInts (put (axisInts (tget {} s.1 k.toNat)))), s.2)
        else if k < 8192 then (s.1, tset s.2.1 (k.toNat - 4096) (headOfInts (put (headInts (tget {} s.2.1 (k.toNat - 4096))))), s.2.2)
        else
          let rest := s.2.2.filter (fun t => t.axis != k.toNat - 8192)
          (s.1, s.2.1, if p.isEmpty then rest else rest ++ [tuneOfInts (k.toNat - 8192) (p.map (·.2))])
      takeWords f (t.drop (2 * n.toNat)) s
    | _ => s

/-! ### What a cycle takes in -/

/-- The inputs of a cycle that a record holds (R417, R428). -/
structure CycleIn where
  pos : List (Nat × Int) := []
  latched : List Nat := []
  poisoned : List Nat := []
  missed : List Nat := []
  pilots : List (Nat × Int × Int × Int) := []
  deriving DecidableEq, Repr

/-- The inputs are latched by a slice: positions, the poisoned axes' faults, the pilot readings (R128, R140). -/
def Dev.takeInputs (d : Dev) (i : CycleIn) : Dev :=
  let d := { d with eng := { d.eng with axes := d.eng.axes.map (fun (e : Nat × Axis) => (e.1, { e.2 with latched := false })) } }
  let d := i.latched.foldl (fun d a => d.modAxis a (fun x => { x with y := tget x.y i.pos a, latched := true })) d
  let d := i.poisoned.foldl (fun d a => d.faultAxis a 3) d
  ({ d with eng := { d.eng with pilots := i.pilots, pilotPoison := [] } }).latchPilots

/-- The inputs that the live engine latched. -/
def Dev.liveInputs (d : Dev) : CycleIn :=
  { pos := d.eng.axes.map (fun e => (e.1, e.2.y))
    latched := (d.eng.axes.filter (fun e => e.2.latched)).map Prod.fst
    poisoned := d.eng.poisonedIn
    missed := (d.eng.axes.filter (fun e => e.2.missFlag)).map Prod.fst
    pilots := d.eng.latchedPilots }

/-! ### Records (R413 to R419, Table 16.3) -/

/-- A bit per axis of a slice. -/
def axisBits (c : Nat) (sel : Nat → Bool) : Bytes :=
  (upto 128).map (fun k => BitVec.ofNat 8 (maskOf ((upto 8).filter (fun i => sel (1024 * c + 8 * k + i)))))

/-- STAGE_CHECK with the axis flags (R416). -/
def checkWord (x : Axis) : Nat :=
  x.check % 2 ^ 27 + (b2n x.missFlag + 2 * b2n x.sat + 4 * b2n x.outSat + 8 * b2n x.intClamp + 16 * b2n (x.state == .fault)) * 2 ^ 27

/-- OUTPUT[19:0] and KEEP[20] of an axis. -/
def outWord (x : Axis) (keep : Bool) : Nat := unsigned 20 x.output + b2n keep * 2 ^ 20

/-- Whether a cycle is a heater-trigger cycle: 200 µs marks. -/
def heaterCycle (n : Nat) : Bool := n % 4 = 0

/-- A slice block: axes `after` the compute, those in `live` not KEEP. -/
def Dev.sliceBlock (d : Dev) (c : Nat) (live : List Nat) (events : Bytes) : Bytes :=
  let axes := (upto 1024).map (fun i => (1024 * c + i, d.axis (1024 * c + i)))
  let pilots := (d.eng.latchedPilots.filter (fun r => sliceOfAxis (2 * r.1) = c)).take 64
  let heat := heaterCycle d.eng.cycle
  let pods := (upto 16).map (fun k => d.podAt (16 * c + k))
  le 1 c ++ le 1 (b2n heat) ++ zeros 2 ++ le 4 events.length ++ zeros 8 ++
    axes.flatMap (fun e => leI 3 e.2.y) ++ axisBits c (fun a => (d.axis a).latched) ++ axisBits c d.eng.poisonedIn.contains ++
    axisBits c (fun a => (d.axis a).missFlag) ++
    (upto 256).flatMap (fun p => leI 2 (d.bank (256 * c + p)).tapA ++ leI 2 (d.bank (256 * c + p)).tapB) ++
    padTo 512 (pilots.flatMap (fun r => le 2 r.1 ++ leI 2 r.2.1 ++ leI 2 r.2.2.1 ++ leI 2 r.2.2.2) ++
      (upto (64 - pilots.length)).flatMap (fun _ => [0xFF, 0xFF, 0, 0, 0, 0, 0, 0])) ++
    padTo ((events.length + 7) / 8 * 8) events ++
    axes.flatMap (fun e => le 3 (outWord e.2 (!live.contains e.1))) ++ axes.flatMap (fun e => le 4 (checkWord e.2)) ++
    (if heat then
      pods.flatMap (fun x => (upto 176).flatMap (fun i => match x.used.getD i none with
        | some e => leI 2 e
        | none => le 2 0x8000)) ++
      pods.flatMap (fun x => leI 2 x.temp) ++ pods.flatMap (fun x => (upto 176).flatMap (fun i => le 2 (tget 0 x.sent i)))
    else [])

/-- The parameter block without its first 64 bytes (Table 16.4). -/
def Dev.paramBody (d : Dev) : Bytes :=
  let u32 := fun (l : List (Nat × Nat)) => l.flatMap (fun e => le 4 (unsigned 32 (d.num e.1 e.2)))
  (upto 2048).flatMap (fun h => (upto 8).flatMap (fun k => padTo 80 (d.coefSet (axisOf h (k / 4)) (k % 4)))) ++
  (upto 2048).flatMap (fun h => le 2 (d.nat (0x3000 + h) 0x0D)) ++
  (upto 2048).flatMap (fun h => le 4 (d.nat (0x3000 + h) 0x18) ++ le 4 (d.nat (0x3000 + h) 0x19)) ++
  padTo 128 (u32 [(0x2C02, 1), (0x2C02, 2), (0x2C02, 3), (0x2C03, 1), (0x2C03, 2), (0x2C03, 3), (0x2C03, 4), (0x2C03, 5), (0x2C03, 6),
    (0x2C04, 1), (0x2C04, 2), (0x2C05, 1), (0x2C05, 2), (0x2C05, 3), (0x2C05, 4), (0x2C06, 1), (0x2C08, 1), (0x2C08, 2)]) ++
  (upto 64).flatMap (fun q => padTo 12688 (d.oct (0x3C00 + q) 1)) ++
  (upto 64).flatMap (fun q => padTo 352 (d.oct (0x3C00 + q) 7)) ++
  (upto 64).flatMap (fun q => le 2 (d.nat (0x3C00 + q) 6) ++ zeros 2 ++ le 4 (d.nat (0x3C00 + q) 5))

/-- PARAM_HASH of a block's body (R421). -/
def paramHash (body : Bytes) : Bytes := sha384 body

/-- The parameter block (Table 16.4). -/
def Dev.paramBlock (d : Dev) : Bytes :=
  let body := d.paramBody
  padTo 16 (le 2 0x5052 ++ le 1 1) ++ paramHash body ++ body

/-- The slices that contribute: those in RUNNING (R413). -/
def Dev.runningSlices (d : Dev) : List Nat := (upto 4).filter (fun c => d.eng.slices.getD c .off == .running)

/-- The state that the engine holds is the base of the next record. -/
def Dev.setBase (d : Dev) : Dev :=
  { d with recr := { d.recr with base := d.eng.axes, baseHeads := d.eng.heads, baseTunes := d.eng.tunes } }

/-- Before a cycle's first record without a base, the state at the input latch is the base (R413, R418). -/
def Dev.recordBase (d : Dev) : Dev :=
  if d.recording && (d.recr.needKey || d.recr.keyDue || d.lostCycles.isSome) then d.setBase else d

/-- The pods as a keyframe holds them: as the heater loops of the cycle found them. -/
def Dev.keyPods (d : Dev) : List (Nat × Pod) :=
  match d.recr.heatBase with
  | some (n, p) => if n = d.eng.cycle then p else d.rings.pods
  | none => d.rings.pods

/-- The KEYFRAME of a cycle (R418). -/
def Dev.keyframe (d : Dev) : Dev :=
  let cs := d.runningSlices
  let block := fun (c : Nat) =>
    let im := stateImage c d.recr.base d.recr.baseHeads d.keyPods d.recr.baseTunes
    le 1 c ++ zeros 3 ++ le 4 im.length ++ zeros 8 ++ im
  d.putRecord 2 (b2n (heaterCycle d.eng.cycle)) (maskOf cs) (paramHash d.paramBody ++ zeros 32 ++ cs.flatMap block)

/-- The time section of a CYCLE record (R415). -/
def Dev.timeSection (d : Dev) : Bytes :=
  le 8 d.time.increment ++ leI 4 (d.num 0x2200 7) ++
    le 1 (match d.time.state with | .free => 0 | .acquiring => 1 | .locked => 2 | .holdover => 3) ++
    le 1 (match d.time.selected with | some k => k | none => 255) ++ zeros 18

/-- The records of a cycle at its compute deadline (R413): the loss of cycles since the last one, a keyframe where one is
due, and the CYCLE record; without PD14 the cycle is lost. `pre` holds axes, heads and tunes as the compute found them. -/
def Dev.recordCycle (d : Dev) (pre : List (Nat × Axis) × List (Nat × Head) × List Tune) (live : List Nat) : Dev :=
  if !d.recording then { d with recr := { d.recr with needKey := true } }
  else if !d.isOn 14 then d
  else
    let n := d.eng.cycle
    let d := d.markGap
    let d := if d.recr.needKey || d.recr.keyDue || n % d.nat 0x2701 4 = 0 then d.keyframe else d
    let sh := ({ d with eng := { d.eng with axes := d.recr.base, heads := d.recr.baseHeads } }).takeInputs d.liveInputs
    let cs := d.runningSlices
    let blocks := cs.flatMap (fun c => d.sliceBlock c live (eventWords c sh.eng.axes pre.1 sh.eng.heads pre.2.1 d.recr.baseTunes pre.2.2))
    let flags := b2n (heaterCycle n) + 2 * b2n (!d.eng.poisonedIn.isEmpty)
    let d := d.putRecord 1 flags (maskOf cs) (d.timeSection ++ blocks)
    ({ d with recr := { d.recr with needKey := false, keyDue := false } }).setBase

/-! ### Records as bytes, export (R414, R425) -/

/-- The bytes of a record (Table 16.2). -/
def recBytes (r : Rec) : Bytes :=
  let b := padTo r.len (le 2 0x5243 ++ le 1 r.type ++ le 1 r.flags ++ le 4 r.len ++ le 8 r.cycle ++ le 8 r.timeNs ++ le 4 r.timeFrac ++
    le 1 r.slices ++ zeros 7 ++ le 8 r.seq ++ zeros 4 ++ r.body)
  patch b 44 (le 4 (crc32 b))

/-- Whole code words of the ring as they are exported: a poisoned one as 64 bytes of 0xFF (R425). -/
def Dev.ringOut (d : Dev) (at_ : Nat) (b : Bytes) : Bytes :=
  if d.recr.bad.isEmpty then b
  else (chunks 64 ((b.length + 63) / 64) b).zipIdx.flatMap (fun e =>
    if d.recr.bad.contains (at_ + 64 * e.2) then List.replicate e.1.length 0xFF else e.1)

/-- A record of the ring as it reads: one with a poisoned code word is damaged (R429). -/
def Dev.ringRecord (d : Dev) (r : Rec) : Rec :=
  { r with damaged := d.recr.bad.any (fun o => decide (recordsAt + r.pos ≤ o) && decide (o < recordsAt + r.pos + r.len)) }

/-- The records of the frozen capture from the keyframe at or before EXPORT_FIRST to EXPORT_LAST (R425). -/
def Dev.exportRecords (d : Dev) (c : Capture) : List Rec :=
  let first := if d.nat 0x2704 1 = 0 then c.first else captureFirst d.recr.ring (d.nat 0x2704 1)
  let last := if d.nat 0x2704 2 = 0 then c.last else min c.last (d.nat 0x2704 2)
  (recordsFrom d.recr.ring first).filter (fun r => r.cycle ≤ last)

/-- The CAPTURE file (R425, Table 16.6). -/
def Dev.captureFile (d : Dev) : Bytes :=
  match d.recr.capture with
  | none => []
  | some c =>
    let rs := d.exportRecords c
    let block := d.paramBlock
    let head := le 2 0x5845 ++ le 1 1 ++ le 1 (if d.isC then 1 else 2) ++ le 2 d.chip ++ le 1 d.twinId ++ le 1 (b2n c.cut) ++
      padTo 48 d.recr.image ++ slice block 16 48 ++ le 8 c.cycle ++ le 2 c.event ++ zeros 6 ++ le 8 c.seq ++
      le 8 ((rs.head?.map (·.cycle)).getD 0) ++ le 8 ((rs.getLast?.map (·.cycle)).getD 0) ++ le 8 (sumN (rs.map Rec.len)) ++ zeros 100
    head ++ le 4 (crc32 head) ++ d.ringOut 0x10000 block ++ rs.flatMap (fun r => d.ringOut (recordsAt + r.pos) (recBytes r))

/-- The length of the parameter block. -/
def paramLength : Nat := 2166464

/-- The records of a capture's bytes: one that fails its CRC is damaged. -/
def parseRecords : Nat → Bytes → List Rec
  | 0, _ => []
  | f + 1, b =>
    let len := fld b 4 4
    if b.length < 64 || len < 48 || fld b 0 2 != 0x5243 then
      (if b.length < 64 then [] else { type := 0, flags := 0, cycle := 0, timeNs := 0, timeFrac := 0, slices := 0, seq := 0, body := [], damaged := true } ::
        parseRecords f (b.drop 64))
    else
      let r := b.take len
      let ok := r.length = len && fld r 44 4 = crc32 (patch r 44 (zeros 4))
      { type := fld r 2 1, flags := fld r 3 1, cycle := fld r 8 8, timeNs := fld r 16 8, timeFrac := fld r 24 4, slices := fld r 28 1
        seq := fld r 36 8, body := r.drop 48, damaged := !ok } :: parseRecords f (b.drop len)

/-! ### Replay (R426 to R429) -/

/-- REPLAY_REPORT's RESULT, with the counts (R429). -/
def Recorder.result (r : Recorder) (n : Nat) : Recorder :=
  { r with report := patch (patch (padTo 64 r.report) 0 (le 1 n)) 24 (le 4 r.diverged ++ le 8 r.replayed) }

/-- Replay ends: DONE with a RESULT. -/
def Dev.endReplay (d : Dev) (n : Nat) : Dev := { d with recr := { d.recr.result n with replay := 4 } }

/-- A capture's byte stream is loaded (R426). -/
def Dev.loadCapture (d : Dev) (b : Bytes) (poisoned : List Nat) : Dev :=
  let rs := parseRecords (b.length / 64 + 1) (b.drop (256 + paramLength))
  let bad := fun (o len : Nat) => poisoned.any (fun w => o < w + 64 && w < o + len)
  let at_ := rs.foldl (fun (s : List Rec × Nat) r => (s.1 ++ [{ r with damaged := r.damaged || bad s.2 r.len }], s.2 + r.len)) ([], 256 + paramLength)
  { d with recr := { d.recr with
      loaded := at_.1, loadedImage := slice b 8 48, loadedParam := slice b 256 paramLength, replay := 2, stream := [], report := [] } }

/-- The module's own frozen capture is the loaded one at ENTER_REPLAY (R426). -/
def Dev.ownCapture (d : Dev) : Dev :=
  match d.recr.state, d.recr.capture with
  | .frozen, some c =>
    { d with recr := { d.recr with
        loaded := ((recordsFrom d.recr.ring c.first).filter (fun r => r.cycle ≤ c.last)).map d.ringRecord
        loadedImage := padTo 48 d.recr.image, loadedParam := d.ringOut 0x10000 d.paramBlock, replay := 2, report := [] } }
  | _, _ => d

/-- The loaded capture is discarded. -/
def Dev.dropCapture (d : Dev) : Dev :=
  { d with recr := { d.recr with
      loaded := [], loadedImage := [], loadedParam := [], replay := 0, stream := [], axes := [], heads := [], pods := [], tunes := [], slices := [], next := 0 } }

/-- The objects that a parameter block holds take its values. -/
def Dev.withParams (d : Dev) (b : Bytes) : Dev :=
  let scalars := [(0x2C02, 1), (0x2C02, 2), (0x2C02, 3), (0x2C03, 1), (0x2C03, 2), (0x2C03, 3), (0x2C03, 4), (0x2C03, 5), (0x2C03, 6),
    (0x2C04, 1), (0x2C04, 2), (0x2C05, 1), (0x2C05, 2), (0x2C05, 3), (0x2C05, 4), (0x2C06, 1), (0x2C08, 1), (0x2C08, 2)]
  let d := { d with eng := { d.eng with
      sets := (upto 16384).map (fun k => (k, slice b (64 + 80 * k) 80)) } }
  let d := (upto 2048).foldl (fun d h =>
    ((d.setNum (0x3000 + h) 0x0D (fld b (1310784 + 2 * h) 2)).setNum (0x3000 + h) 0x18 (fld b (1314880 + 8 * h) 4)).setNum
      (0x3000 + h) 0x19 (fld b (1314884 + 8 * h) 4)) d
  let d := ((upto 18).zip scalars).foldl (fun d e => d.setNum e.2.1 e.2.2 (fldI b (1331264 + 4 * e.1) 4)) d
  (upto 64).foldl (fun d q =>
    (((d.setOct (0x3C00 + q) 1 (slice b (1331392 + 12688 * q) 12688)).setOct (0x3C00 + q) 7 (slice b (2143424 + 352 * q) 352)).setNum
      (0x3C00 + q) 6 (fld b (2165952 + 8 * q) 2)).setNum (0x3C00 + q) 5 (fld b (2165956 + 8 * q) 4)) d

/-- The slice blocks of a CYCLE record: slice and bytes. -/
def sliceBlocks : Nat → Bytes → List (Nat × Bytes)
  | 0, _ => []
  | f + 1, b =>
    if b.length < 12176 then []
    else
      let len := 12176 + (fld b 4 4 + 7) / 8 * 8 + (if (fld b 1 1).testBit 0 then 11296 else 0)
      (fld b 0 1, b.take len) :: sliceBlocks f (b.drop len)

/-- The bits of an axis mask of a block. -/
def blockBits (c : Nat) (b : Bytes) (off : Nat) : List Nat :=
  (upto 1024).filter (fun i => (fld b (off + i / 8) 1).testBit (i % 8)) |>.map (fun i => 1024 * c + i)

/-- The inputs that a slice block holds. -/
def blockInputs (c : Nat) (b : Bytes) : CycleIn :=
  { pos := (upto 1024).map (fun i => (1024 * c + i, fldI b (16 + 3 * i) 3))
    latched := blockBits c b 3088, poisoned := blockBits c b 3216, missed := blockBits c b 3344
    pilots := ((upto 64).map (fun k => (fld b (4496 + 8 * k) 2, fldI b (4498 + 8 * k) 2, fldI b (4500 + 8 * k) 2, fldI b (4502 + 8 * k) 2))).filter
      (fun r => r.1 != 0xFFFF) }

/-- A difference found: kind, stage, slice, axis, ring, expected, observed. -/
abbrev Diff := Nat × Nat × Nat × Nat × Nat × Nat × Nat

/-- The differences of one axis, in the order of R429. -/
def axisDiffs (c a out chk out' chk' : Nat) : List Diff :=
  let stage := fun (k : Nat) => ((chk / 2 ^ (3 * k) % 8, chk' / 2 ^ (3 * k) % 8) : Nat × Nat)
  ((upto 9).filter (fun k => (stage k).1 != (stage k).2)).map (fun k => (1, k, c, a, 0, (stage k).1, (stage k).2)) ++
    (if out != out' then [(2, 0, c, a, 0, out, out')] else []) ++
    (if chk / 2 ^ 27 != chk' / 2 ^ 27 then [(3, 0, c, a, 0, chk / 2 ^ 27, chk' / 2 ^ 27)] else [])

/-- One slice of a recorded cycle is computed again and compared (R428, R429). -/
def Dev.replaySlice (d : Dev) (c : Nat) (b : Bytes) : Dev × List Diff :=
  let ev := fld b 4 4
  let o := 5008 + (ev + 7) / 8 * 8
  let i := blockInputs c b
  let d := d.takeInputs i
  let w := takeWords ev (unpackInts (slice b 5008 ev)) (d.eng.axes, d.eng.heads, d.eng.tunes)
  let d := { d with eng := { d.eng with axes := w.1, heads := w.2.1, tunes := w.2.2, slices := lset d.eng.slices c .running } }
  let mine := (d.eng.axes.filter (fun e => sliceOfAxis e.1 = c)).map Prod.fst
  let r := mine.foldl (fun (acc : Dev × List Nat) a =>
    let x := acc.1.axis a
    if x.state == .open then acc
    else if i.missed.contains a || !x.latched then (acc.1.modAxis a (fun y => { y with misses := min 3 (y.misses + 1), missFlag := true }), acc.2)
    else if x.state == .fault then (acc.1.modAxis a (fun y => { y with misses := 0, missFlag := false }), acc.2)
    else
      let e := acc.1.axisCycle a
      (e, if (e.axis a).state == .open || (e.axis a).state == .fault then acc.2 else acc.2 ++ [a])) (d, [])
  let d := r.1
  let diffs := mine.flatMap (fun a =>
    let k := a - 1024 * c
    axisDiffs c a (fld b (o + 3 * k) 3) (fld b (o + 3072 + 4 * k) 4) (outWord (d.axis a) (!r.2.contains a)) (checkWord (d.axis a)))
  if !(fld b 1 1).testBit 0 then (d, diffs)
  else
    let p := o + 7168
    let eps := fun (k : Nat) => (upto 176).map (fun i =>
      if fld b (p + 352 * k + 2 * i) 2 = 0x8000 then none else some (fldI b (p + 352 * k + 2 * i) 2))
    let d := (upto 16).foldl (fun d k =>
      let q := 16 * c + k
      if (tfind d.rings.pods q).isSome then (d.modPod q (fun x => { x with eps := eps k, temp := fldI b (p + 5632 + 2 * k) 2 })).heaterPod q else d) d
    let codes := (upto 16).flatMap (fun k => (upto 176).filterMap (fun i =>
      let want := fld b (p + 5664 + 352 * k + 2 * i) 2
      let got := tget 0 (d.podAt (16 * c + k)).sent i
      if want != got && (tfind d.rings.pods (16 * c + k)).isSome then some (4, 0, c, 0, 176 * k + i, want, got) else none))
    (d, diffs ++ codes)

/-- The first difference goes into the report, and the counts advance. -/
def Recorder.differ (r : Recorder) (cycle : Nat) (l : List Diff) : Recorder :=
  match l with
  | [] => r
  | (k, st, c, a, ring, e, o) :: _ =>
    let r' := if r.diverged = 0 then
        { r with report := patch (padTo 64 r.report) 1 (le 1 k ++ le 1 st ++ le 1 c ++ le 2 a ++ le 2 ring ++ le 8 cycle ++ le 4 e ++ le 4 o) }
      else r
    { r' with diverged := (r.diverged + l.length) % 2 ^ 32 }

/-- One recorded cycle is replayed in a live control cycle (R428): MARK, KEYFRAME and WRAP records are passed over. -/
def Dev.replayCycle (d : Dev) : Dev :=
  if d.recr.replay != 3 then d
  else
    let rest := (d.recr.loaded.drop d.recr.next).dropWhile (fun r => !r.damaged && (r.type = 2 || r.type = 3 || r.type = 5))
    let till := d.nat 0x2710 4
    let done := fun (d : Dev) => d.endReplay (if d.recr.diverged = 0 then 2 else 3)
    match rest with
    | [] => done d
    | r :: t =>
      if till != 0 && till < r.cycle then done d
      else if r.damaged then d.endReplay 8
      else if r.type = 4 then d.endReplay 7
      else
        let sh := d.withParams d.recr.loadedParam
        let sh := { sh with
          eng := { sh.eng with axes := d.recr.axes, heads := d.recr.heads, cycle := r.cycle, tunes := d.recr.tunes, slices := [.off, .off, .off, .off] }
          rings := { sh.rings with pods := d.recr.pods }
          time := { sh.time with counter := r.timeNs * 2 ^ 32 + r.timeFrac } }
        let x := (sliceBlocks 4 (r.body.drop 32)).foldl (fun (acc : Dev × List Diff) e =>
          let y := acc.1.replaySlice e.1 e.2
          (y.1, acc.2 ++ y.2)) (sh, [])
        let rec_ := { d.recr with
          axes := x.1.eng.axes, heads := x.1.eng.heads, pods := x.1.rings.pods, tunes := x.1.eng.tunes, next := d.recr.loaded.length - t.length
          replayed := d.recr.replayed + 1 }
        let rec_ := rec_.differ r.cycle x.2
        let d := ({ d with recr := rec_ }).setNum 0x2710 7 r.cycle
        if !x.2.isEmpty && d.nat 0x2710 5 = 0 then d.endReplay 3
        else if t.isEmpty || (till != 0 && till ≤ r.cycle) then done d
        else { d with recr := d.recr.result 1 }

/-- REPLAY_COMMAND RUN (R427): the refusal's result, or the replay runs from the keyframe of REPLAY_FROM. -/
def Dev.replayRun (d : Dev) : Dev × Bool :=
  let from_ := d.nat 0x2710 3
  let clear := { d with recr := { d.recr with report := zeros 64, diverged := 0, replayed := 0 } }
  let refuse := fun (n : Nat) => (({ clear with recr := clear.recr.result n }), false)
  if d.recr.loadedImage != padTo 48 d.imageHash then refuse 4
  else match d.recr.loaded.find? (fun r => r.type = 2 && r.cycle = from_ && !r.damaged) with
    | none => refuse 6
    | some k =>
      if k.body.take 48 != paramHash (d.recr.loadedParam.drop 64) then refuse 5
      else
        let blocks := (upto 4).foldl (fun (s : List (Nat × Bytes) × Bytes) _ =>
          if s.2.length < 16 then s
          else (s.1 ++ [(fld s.2 0 1, slice s.2 16 (fld s.2 4 4))], s.2.drop (16 + fld s.2 4 4))) ([], k.body.drop 80)
        let im := (blocks.1.filter (fun e => k.slices.testBit e.1)).map (fun e => stateOfImage e.2)
        let skip := (d.recr.loaded.takeWhile (fun r => !(r.type = 2 && r.cycle = from_))).length
        ({ clear with recr := { clear.recr.result 1 with
            replay := 3, axes := im.flatMap (·.1), heads := im.flatMap (·.2.1), pods := im.flatMap (·.2.2.1)
            tunes := im.flatMap (·.2.2.2)
            slices := bitsOf 4 k.slices, next := skip } }, true)

/-! ### Release (R424) -/

/-- RELEASE of a frozen capture: the ring restarts, or the recorder is OFF if disabled. -/
def Dev.releaseCapture (d : Dev) : Dev :=
  ({ d with recr := { d.abandonRing.recr with needKey := true } }).tryRing

end Sys2Proof.Machine
end

