-- ==== Sys2Proof/Machine/Director.lean ====
section
/-!
DEFINITION. The Director's commands (R60 to R62, Tables 2.10 to 2.12): the control word, its sampling, and what each
command does.
-/

namespace Sys2Proof.Machine
open Sys2Proof

/-- The command of CMD[3:0] (Table 2.10). -/
def cmdOf : Nat → Option Cmd
  | 1 => some .arm | 2 => some .serve | 3 => some .hold | 4 => some .resume | 5 => some .disarm
  | 6 => some .enterMaint | 7 => some .exitMaint | 8 => some .enterReplay | 9 => some .exitReplay
  | 10 => some .warmRestart | _ => none

/-- The code of a command (Table 2.10). -/
def Cmd.code : Cmd → Nat
  | .arm => 1 | .serve => 2 | .hold => 3 | .resume => 4 | .disarm => 5 | .enterMaint => 6 | .exitMaint => 7
  | .enterReplay => 8 | .exitReplay => 9 | .warmRestart => 10

/-- The states in which Table 2.12 has a row for a command. -/
def Cmd.from_ : Cmd → List DirState
  | .arm => [.standby] | .serve => [.armed] | .hold => [.serving] | .resume => [.hold] | .disarm => [.armed, .hold]
  | .enterMaint => [.standby, .hold] | .exitMaint => [.maintenance] | .enterReplay => [.standby] | .exitReplay => [.replay]
  | .warmRestart => [.standby, .hold, .maintenance, .replay, .fault]

/-- Whether a RUNNING job holds a Zenith within the next 10 ms. -/
def Dev.zenithSoon (d : Dev) : Bool :=
  d.runs.any (fun e => d.jobIn e.1 [.running] && d.now ≤ e.2.zenith && e.2.zenith ≤ d.now + 10 * Config.ms)

/-- The guards of Table 2.12; ARM, SERVE and WARM_RESTART wait for the end of an activation (R406). -/
def Dev.cmdGuard (d : Dev) (c : Cmd) : Bool :=
  let busy := d.upd.state == .activating
  match c with
  | .arm => !busy && d.timeLocked && d.arrayMember && (upto 16).any (fun j => d.jobIn j [.loaded, .running])
  | .serve => !busy
  | .resume => d.timeLocked && d.arrayMember
  | .enterMaint => !d.zenithSoon
  | .exitMaint => d.eng.tunes.isEmpty && d.rings.rounds.isEmpty
  | .enterReplay => !d.twin.ownDrive && !d.twin.ownColl
  | .warmRestart => !busy
  | .hold | .disarm | .exitReplay => true

/-- The RUNNING jobs without an entry in flight resume at the next Zenith of their next entry at least 10 ms away (R96). -/
def Dev.resumeJobs (d : Dev) : Dev :=
  (upto 16).foldl (fun d j =>
    let t := d.now + 10 * Config.ms
    if d.jobIn j [.running] && (d.commit j).over && (d.run j).zenith < t then d.placeNext j t else d) d

/-- CMD_RESULT takes a value. -/
def Dev.cmdEnds (d : Dev) (n : Nat) : Dev := { d with dir := { d.dir with cmdResult := n, inProgress := none } }

/-- The action and the next state of a command whose guard holds (Table 2.12). -/
def cmdAct (m : Dev × Hbm) (c : Cmd) : Dev × Hbm :=
  let d := m.1
  match c with
  | .arm => ((d.setState .armed .command).resumeJobs.announce, m.2)
  | .serve => ((d.setState .serving .command).revoteAll.announce, m.2)
  | .hold => (d.enterHold .command, m.2)
  | .resume => (((d.setState .serving .command).resumeJobs).revoteAll.announce, m.2)
  | .disarm => ((d.setState .standby .command).disarmEntries.announce, m.2)
  | .enterMaint => ((d.setState .maintenance .command).announce, m.2)
  | .exitMaint => ((d.setState .standby .command).announce, m.2)
  | .enterReplay =>
    let d := (d.setState .replay .command).leaveRoles
    let d := if d.recr.state == .running then d.abandonRing else d
    (d.ownCapture.announce, m.2)
  | .exitReplay =>
    let d := (d.setState .standby .command).dropCapture.tryRing.announce
    -- joined as before, its roles follow the twin again (Table 13.6)
    if d.joined then twinJoined (d, m.2) else (d, m.2)
  | .warmRestart => warmStart m .warm .command

/-- Whether this module follows its twin in the DRIVE role: it takes no commands of its own (R352, R353). -/
def Dev.followsDrive (d : Dev) : Bool := d.twin.drive == .standby || d.twin.drive == .syncing

/-- A command latched or in progress runs: CMD_RESULT 4, 2 or 3 where it ends without effect, 1 while a fault handler
keeps ENTER_MAINTENANCE waiting, 0 once done (Table 2.11, R61, R62). A command 6 to 10 of another role in a state with no row for it
falls under both R61 and R62: DESIGN CHOICE, the model tests R61 first and answers 4 (log 10). -/
def runCommand (m : Dev × Hbm) (c : Cmd) : Dev × Hbm :=
  let d := m.1
  if 6 ≤ c.code && !d.dir.latchedMaintainer then (d.cmdEnds 4, m.2)
  else if !c.from_.contains d.dir.state || (c.code ≤ 5 && d.followsDrive) then (d.cmdEnds 2, m.2)
  else if c == .enterMaint && d.faults.current.isSome then
    ({ d with dir := { d.dir with cmdResult := 1, inProgress := some c } }, m.2)
  else if !d.cmdGuard c then (d.cmdEnds 3, m.2)
  else
    let r := cmdAct m c
    (r.1.cmdEnds 0, r.2)

/-- Whether a control word sets a reserved bit or a code that Table 2.10 does not list. -/
def wordUnlisted (w : Nat) : Bool := 10 < bits w 3 0 || bits w 7 4 != 0 || bits w 14 9 != 0

/-- The control word is compared: a TOGGLE that differs from CMD_ACK is latched while no command is in progress (R60). -/
def latchControl (m : Dev × Hbm) : Dev × Hbm :=
  let d := m.1
  let w := d.dir.control
  if w.testBit 15 = d.dir.cmdAck || d.dir.inProgress.isSome then m
  else
    let d := { d with dir := { d.dir with cmdAck := w.testBit 15, latched := w, latchedMaintainer := d.dir.byMaintainer } }
    if wordUnlisted w then (d.cmdEnds 5, m.2)
    else match cmdOf (bits w 3 0) with
      | none => (d.cmdEnds 0, m.2)
      | some c => runCommand (d, m.2) c

/-- A change of FAULT_ACK from 0 to 1 in a listed word acknowledges the latched faults (Table 2.10, R320); one that an unlisted
word carries is not acted on, then or later (R60). -/
def Dev.ackEdge (d : Dev) : Dev :=
  let w := d.dir.control
  let d := if w.testBit 8 && !d.dir.lastFaultAck && !wordUnlisted w then d.faultAck else d
  { d with dir := { d.dir with lastFaultAck := w.testBit 8 } }

/-- The Director samples the control word (R60). -/
def sampleControl (m : Dev × Hbm) : Dev × Hbm := latchControl (m.1.ackEdge, m.2)

/-- A control word comes in, from a Maintainer session by SDO or not: it stands until the next sampling. -/
def Dev.setControl (d : Dev) (w : Nat) (maintainer : Bool) : Dev :=
  { d with dir := { d.dir with control := w, byMaintainer := maintainer } }

/-- A control word comes in and is sampled. -/
def controlWord (m : Dev × Hbm) (w : Nat) (maintainer : Bool) : Dev × Hbm := sampleControl (m.1.setControl w maintainer, m.2)

/-- The command in progress completes once the fault handler has ended, and TOGGLE is compared again (R60). -/
def commandComplete (m : Dev × Hbm) : Dev × Hbm :=
  match m.1.dir.inProgress with
  | none => m
  | some c => if m.1.faults.current.isSome then m
              else latchControl (runCommand ({ m.1 with dir := { m.1.dir with inProgress := none } }, m.2) c)

/-- The word that gives a command: CMD, FAULT_ACK as last sampled, and TOGGLE turned against CMD_ACK. -/
def Dev.commandWord (d : Dev) (c : Nat) : Nat := c + 256 * b2n d.dir.lastFaultAck + 32768 * b2n (!d.dir.cmdAck)

end Sys2Proof.Machine
end

