-- ==== Sys2Proof/Machine/Domains.lean ====
section
/-!
DEFINITION. Switching domains by request (R27, R29, R369, R370).
-/

namespace Sys2Proof.Machine
open Sys2Proof

/-- The machine without its queue. -/
abbrev Mach := Dev × Hbm

/-- The response of a DOMAIN_REQUEST that waits for a domain leaves with a result. -/
def Dev.domainAnswer (d : Dev) (k result : Nat) : Dev :=
  match d.net.waiting with
  | some (.domain c x) =>
    if x = k then (({ d with net := { d.net with waiting := none } }).emit (.response c 0x2100 0x11 [])).domainResult result else d
  | _ => d

/-- The switch-off goes on: the next domain of the list quiesces its crossings (R29), or goes off at once where it has none
or still ramps. -/
def offProgress : Nat → Mach → Mach
  | 0, m => m
  | n + 1, m =>
    match m.1.power.toOff with
    | [] => m
    | k :: rest =>
      if (m.1.domain k) == .quiescing && !m.1.module.quiescing.isEmpty then m
      else if (m.1.domain k) == .ramping then
        let m := domainDown m k
        let d := { m.1 with power := { m.1.power with toOff := rest } }
        offProgress n ((if rest.isEmpty then d.domainAnswer k 0 else d), m.2)
      else if !m.1.isOn k && (m.1.domain k) != .quiescing then
        offProgress n ({ m.1 with power := { m.1.power with toOff := rest } }, m.2)
      else if (crossingsOf k).isEmpty || (m.1.domain k) == .quiescing then
        let m := domainDown m k
        let d := { m.1 with power := { m.1.power with toOff := rest } }
        offProgress n ((if rest.isEmpty then d.domainAnswer k 0 else d), m.2)
      else
        let d := m.1.setDomain k .quiescing
        ({ d with module := { d.module with quiescing := crossingsOf k }
                  power := { d.power with rampAt := tset d.power.rampAt k d.now } }, m.2)

/-- DOMAIN_REQUEST OFF is accepted: the domains that R27 names, then the domain itself. -/
def beginOff (m : Mach) (k : Nat) : Mach :=
  offProgress 17 ({ m.1.domainResult 1 with power := { m.1.power with toOff := m.1.offList k } }, m.2)

/-- The quiescing of a crossing is complete (R29): with no word left the receiving side has emptied its queue; words that are
left after 10 µs are discarded and counted. The domain goes off with its last crossing. -/
def quiesceEnds (m : Mach) (x words : Nat) : Mach :=
  match m.1.power.toOff with
  | [] => m
  | k :: _ =>
    if (m.1.domain k) == .quiescing && m.1.module.quiescing.contains x then
      let d := (if words = 0 then m.1 else m.1.reach (tget 0 m.1.power.rampAt k + 10 * Config.us)).discard x words
      let d := { d with module := { d.module with quiescing := d.module.quiescing.filter (· != x) } }
      if d.module.quiescing.isEmpty then offProgress 17 (d, m.2) else (d, m.2)
    else m

/-- PD1 follows PD15 once the hold-up store is charged and ROM has verified the loader (R389, R442). -/
def Dev.rampManagement (d : Dev) : Dev :=
  if d.isOn 15 && d.power.flashGate && d.module.holdup && (d.domain 1) == .off then d.ramp 1 else d

/-- A ramp ends within tolerance: the domain is ON, its lease goes back, and what waited for it goes on (R367, R368). -/
def rampDone (m : Mach) (k : Nat) (bad : List (Nat × Nat)) : Mach :=
  if (m.1.domain k) != .ramping then m
  else
    let d := m.1.reach (tget 0 m.1.power.rampAt k + rampTime k)
    let m := domainUp (d, m.2) k bad
    let d := m.1.release 6 k
    let d := d.rampManagement
    let d := if k = 10 && d.upd.startDone.isNone then d.lightSlots else d
    ((d.domainAnswer k 0).startNext, m.2)

/-- DOMAIN_REQUEST ON is accepted: DOMAIN_RESULT 0 at once where the domain is on, 1 while it ramps, 2 where the request is
deferred, 3 where the arbiter denies it. -/
def Dev.beginOn (d : Dev) (k : Nat) : Dev :=
  if d.isOn k then d.domainResult 0
  else
    let d := d.switchOn k .normal
    if (d.domain k) == .ramping then d.domainResult 1
    else if d.power.deferred.any (fun g => g.cls = 6 && g.holder = k) then d.domainResult 2 else d.domainResult 3

end Sys2Proof.Machine
end

