-- ==== Sys2Proof/Machine/Sdo.lean ====
section
/-!
DEFINITION. SDO requests (R41 to R45, R49 to R59): the rights of a client, the first-stage refusals, how the data of a
write is split over its subindices, and process-data mapping.
-/

namespace Sys2Proof.Machine
open Sys2Proof

/-- The answer of a request: a response at once, the data of a read, an abort, a first-stage refusal with its cause, or
a response that waits. -/
inductive Ans where
  | ok
  | data (b : Bytes)
  | abort (code : Nat)
  | refuse (cause : Nat)
  | wait (w : Waiting)
  deriving DecidableEq, Repr

/-! ### Sessions and rights (R49 to R52) -/

/-- The session of a client. -/
def Dev.session (d : Dev) (c : Client) : Option Session := d.net.sessions.find? (fun s => s.client == c)

/-- The sessions change. -/
def Dev.setSessions (d : Dev) (l : List Session) : Dev := { d with net := { d.net with sessions := l } }

/-- The bit of a client in the role masks of the dictionary: 0 without a session, else the role code. -/
def Dev.roleBit (d : Dev) (c : Client) : Nat := match d.session c with | some s => s.role.code | none => 0

/-- Whether a client has a Maintainer session. -/
def Dev.isMaintainer (d : Dev) (c : Client) : Bool := d.roleBit c == 4

/-- Whether a session admits a job (R50). -/
def Session.admits (s : Session) (j : Nat) : Bool := s.role == .maintainer || (j < 16 && s.scope.testBit j)

/-- Whether a client's session admits a job. -/
def Dev.admitsJob (d : Dev) (c : Client) (j : Nat) : Bool := match d.session c with | some s => s.admits j | none => false

/-- The job to which the partition gives an object, if any (R52, R80). -/
def Dev.objectJob (d : Dev) (index : Nat) : Option Nat :=
  if 0x2080 ≤ index && index < 0x2090 then some (index - 0x2080)
  else if 0x2610 ≤ index && index < 0x2620 then some (index - 0x2610)
  else if 0x2910 ≤ index && index < 0x2920 then some (index - 0x2910)
  else if 0x4800 ≤ index && index < 0x4810 then some (index - 0x4800)
  else if 0x3000 ≤ index && index < 0x3800 then d.owner (portOfHead (index - 0x3000))
  else if 0x3800 ≤ index && index < 0x3C00 then d.owner (index - 0x3800)
  else if 0x4000 ≤ index && index < 0x4400 then d.owner (index - 0x4000)
  else if 0x4400 ≤ index && index < 0x4800 then
    let j := d.slotJob (index - 0x4400)
    if j = 0xFF then none else some j
  else none

/-- Whether an object lies in a client's scope. -/
def Dev.inScope (d : Dev) (c : Client) (index : Nat) : Bool :=
  match d.objectJob index with | some j => d.admitsJob c j | none => true

/-- Whether an index lies in the protected range (R48). -/
def protectedIndex (index : Nat) : Bool := 0x2000 ≤ index && index ≤ 0x4FFF

/-- Whether an object has a subindex; subindex 0 of every object that has another is its count (RO). -/
def subExists (index sub : Nat) : Bool := (objRow index sub).isSome || (sub = 0 && indexExists index)

/-- The roles that may read any subindex of an object, as a mask. -/
def indexReaders (index : Nat) : Nat := (dictionary.filter (fun r => r.hasIndex index)).foldl (fun m r => m ||| r.readers) 0

/-- The right that a read of a row needs: the read right, or for a WO object the write right (R56). -/
def ObjRow.readRight (r : ObjRow) : Nat := if r.access == .wo then r.writers else r.readers

/-- The right that a write of a row needs: the write right, or for an RO object the read right (R56). -/
def ObjRow.writeRight (r : ObjRow) : Nat := if r.access == .ro then r.readers else r.writers

/-- The roles that hold a right on any row of an index that a condition selects, as a mask. -/
def indexRight (right : ObjRow → Nat) (sel : ObjRow → Bool) (index : Nat) : Nat :=
  (dictionary.filter (fun r => r.hasIndex index && sel r)).foldl (fun m r => m ||| right r) 0

/-- Whether a role holds the right that a read needs (R56). DESIGN CHOICE (log 93): the spec gives subindex 0 no Role of its own,
nor a subindex that does not exist; the right to read either is held by every role that holds the right to read some row of the
index, so that subindex 0 of the WO object 0x2022 is the Maintainer's. -/
def mayRead (bit index sub : Nat) : Bool :=
  match objRow index sub with
  | some r => r.readRight.testBit bit
  | none => (indexRight ObjRow.readRight (fun _ => true) index).testBit bit

/-- Whether a role holds the right that a write needs (R56). Subindex 0 is RO, so that its right is the read right. DESIGN CHOICE
(log 93): the right to write a subindex that does not exist is held by every role that may write some row of the index that is
not RO, or, where all are RO, read one. -/
def mayWrite (bit index sub : Nat) : Bool :=
  match objRow index sub with
  | some r => r.writeRight.testBit bit
  | none =>
    if sub = 0 then mayRead bit index 0
    else if dictionary.any (fun r => r.hasIndex index && r.access != .ro) then
      (indexRight ObjRow.writeRight (fun r => r.access != .ro) index).testBit bit
    else mayRead bit index sub

/-- The causes of a first-stage refusal as the protected log holds them (R58); the codes are the model's. -/
def causeSession : Nat := 1
def causeRight : Nat := 2
def causeScope : Nat := 3
def causeObject : Nat := 4
def causePort : Nat := 5
def causeResponse : Nat := 6
def causeSignature : Nat := 7

/-- The Maintainer key is unset, and a client without a session may write it (R55). -/
def Dev.firstKey (d : Dev) : Bool := (tfind d.net.keys 4).isNone && d.inState [.standby] && d.net.ecat == .preOp

/-- The job that a constellation names (R80). -/
def constJob (v : Bytes) : Option Nat := if v.length < 4 then none else some (fld v 3 1)

/-- Whether a client's role gives the command that it writes to JOB_COMMAND (Table 2.14): START and STOP the Operator's,
CLEAR the Planner's, and all of them the Maintainer's. -/
def jobCommandRight (bit v : Nat) : Bool :=
  match bit with
  | 2 => v != 3
  | 3 => v != 1 && v != 2
  | _ => true

/-- Whether a port map names a port that another job owns (R64). -/
def Dev.portTaken (d : Dev) (j m : Nat) : Bool :=
  d.jobs.any (fun e => e.1 != j && (bitsOf 1024 m).any (fun p => e.2.ports.testBit p))

/-- The first-stage check of a write of one subindex (R56): none where it passes, else its cause. `full` tells that the
whole value is there. -/
def Dev.refusesWrite (d : Dev) (c : Client) (index sub : Nat) (full : Bool) (v : Bytes) : Option Nat :=
  let bit := d.roleBit c
  if protectedIndex index && !subExists index sub then some causeObject
  else if bit = 0 && !indexExists index then some causeSession
  else if bit = 0 && index = 0x2022 && sub = 4 then (if d.firstKey then none else some causeSession)
  else if indexExists index && !mayWrite bit index sub then some (if bit = 0 then causeSession else causeRight)
  else if !d.inScope c index then some causeScope
  else if full && 0x4400 ≤ index && index < 0x4800 && sub = 1 && (match constJob v with | some j => !d.admitsJob c j | none => false) then
    some causeScope
  else if full && 0x2080 ≤ index && index < 0x2090 && sub = 2 && v.length = 1 && !jobCommandRight bit (unle v) then some causeRight
  else if full && 0x2080 ≤ index && index < 0x2090 && sub = 4 && v.length = 128 && d.portTaken (index - 0x2080) (unle v) then
    some causePort
  else none

/-- The first-stage check of a read of one subindex: an index that names no object outside the protected range passes on to the
second stage, and so does a WO object that the client may write (R56). -/
def Dev.refusesRead (d : Dev) (c : Client) (index sub : Nat) : Option Nat :=
  let bit := d.roleBit c
  if protectedIndex index && !subExists index sub then some causeObject
  else if bit = 0 && !indexExists index then some causeSession
  else if bit = 0 && index = 0x2022 && sub = 4 then (if d.firstKey then none else some causeSession)
  else if indexExists index && !mayRead bit index sub then some (if bit = 0 then causeSession else causeRight)
  else if !d.inScope c index then some causeScope
  else none

/-! ### Values (R44) -/

/-- The subindices that a request names: one, or from 0 or 1 to the highest with complete access. A range that holds none is
the one subindex that it starts at, which does not exist. -/
def writeSubs (index sub : Nat) (complete : Bool) : List Nat :=
  let l := ((upto (topSub index + 1)).drop sub).filter (subExists index)
  if complete && !l.isEmpty then l else [sub]

/-- The size of a subindex's value; none for a DOMAIN. -/
def subSize (index sub : Nat) : Option Nat := match objRow index sub with | some r => r.type.size | none => some 1

/-- The largest length of a DOMAIN. -/
def domainMax (index sub : Nat) : Nat := match objRow index sub with | some ⟨_, _, _, _, _, .dom m, _, _, _, _, _, _, _, _⟩ => m | _ => 0

/-- The longest content that a DOMAIN takes here: a constellation, an almanac or a crosstalk matrix that is too long is for its
own validation, which answers result 1 with a report (R82, R83, R167). -/
def domainLimit (index sub : Nat) : Nat :=
  if (0x4400 ≤ index && index < 0x4810) || (0x3C00 ≤ index && index < 0x3C40 && sub = 1) then 2 ^ 21 else domainMax index sub

/-- The values of the subindices of a write; none where the length does not match. A DOMAIN takes what the others leave. -/
def splitValues (index : Nat) (subs : List Nat) (b : Bytes) : Option (List (Nat × Bytes)) :=
  let fixed := sumN (subs.map (fun k => (subSize index k).getD 0))
  let doms := subs.filter (fun k => (subSize index k).isNone)
  let var := b.length - fixed
  if b.length < fixed || (doms.isEmpty && b.length != fixed) || doms.any (fun k => decide (domainLimit index k < var)) then none
  else some (subs.foldl (fun (a : List (Nat × Bytes) × Bytes) k =>
    let n := (subSize index k).getD var
    (a.1 ++ [(k, a.2.take n)], a.2.drop n)) ([], b)).1

/-- The number that the bytes of a value give, signed for the signed types. -/
def subValue (index sub : Nat) (v : Bytes) : Int :=
  match objRow index sub with
  | some r => match r.type with
    | .int n => fldI v 0 n
    | _ => (unle v : Int)
  | none => (unle v : Int)

/-- Whether an object holds a number. -/
def isNumber (index sub : Nat) : Bool :=
  match objRow index sub with
  | some r => match r.type with
    | .num _ | .int _ | .bool | .real _ => true
    | _ => false
  | none => false

/-! ### Process-data mapping (R45) -/

/-- The entries of a mapping or assignment object. -/
def Dev.pdoList (d : Dev) (index : Nat) : List Nat := tget [] d.net.pdoMaps index

/-- A mapping entry's index, subindex and length in bits. -/
def pdoEntry (e : Nat) : Nat × Nat × Nat := (e / 65536, e / 256 % 256, e % 256)

/-- Whether an object may be mapped into an RxPDO (`rx`) or a TxPDO, with the length that the entry names. -/
def mappable (rx : Bool) (e : Nat) : Bool :=
  let p := pdoEntry e
  match objRow p.1 p.2.1 with
  | some r => (if rx then r.rx else r.tx) && (match r.type.size with | some n => decide (p.2.2 = 8 * n) | none => false)
  | none => false

/-- The bytes that the entries of the assigned PDOs of a direction take. -/
def Dev.pdoBytes (d : Dev) (rx : Bool) : Nat :=
  let pdos := ((d.pdoList (if rx then 0x1C12 else 0x1C13)).filter (· != 0)).eraseDups
  sumN (pdos.flatMap (fun p => (d.pdoList p).map (fun e => e % 256 / 8)))

/-- The bytes that the entries of the four PDOs of a direction take, with one list replaced. -/
def Dev.mapBytes (d : Dev) (rx : Bool) : Nat :=
  sumN ((upto 4).flatMap (fun k => (d.pdoList ((if rx then 0x1600 else 0x1A00) + k)).map (fun e => e % 256 / 8)))

/-- An entry of a mapping or assignment object takes a value. -/
def Dev.setPdo (d : Dev) (index sub v : Nat) : Dev :=
  let n := topSub index
  let l := d.pdoList index
  let l := lset (l ++ List.replicate (n - l.length) 0) (sub - 1) v
  { d with net := { d.net with pdoMaps := tset d.net.pdoMaps index l } }

/-- One object as it would stand with a value in place. -/
def Dev.withValue (d : Dev) (index sub : Nat) (v : Bytes) : Dev :=
  if 0x1600 ≤ index && index < 0x1C20 then (if sub = 0 then d else d.setPdo index sub (unle v))
  else if 0x2080 ≤ index && index < 0x2090 then
    d.modJob (index - 0x2080) (fun x =>
      if sub = 3 then { x with tag := unle v } else if sub = 4 then { x with ports := unle v }
      else if sub = 6 then { x with startOrbit := unle v } else x)
  else if 0x2910 ≤ index && index < 0x2920 && sub = 1 then
    (d.setOct index sub v).modEngJob (index - 0x2910) (fun x => { x with state := if v.isEmpty then .none else .planned })
  else if 0x2910 ≤ index && index < 0x2920 && sub = 5 then d.modEngJob (index - 0x2910) (fun x => { x with lr := unle v })
  else if isNumber index sub then d.setNum index sub (subValue index sub v)
  else if (objRow index sub).isSome then d.setOct index sub v
  else d

/-- The objects as they would stand with the values of a write in place (R44): what it gives to RO objects is not stored. -/
def Dev.withValues (d : Dev) (index : Nat) (l : List (Nat × Bytes)) : Dev :=
  (l.filter (fun e => match objRow index e.1 with | some r => r.access != .ro | none => false)).foldl
    (fun d e => d.withValue index e.1 e.2) d

/-- The entries of the assigned PDOs of a direction, in order. -/
def Dev.pdoEntries (d : Dev) (rx : Bool) : List Nat :=
  ((d.pdoList (if rx then 0x1C12 else 0x1C13)).filter (· != 0)).flatMap (fun p => (d.pdoList p).filter (· != 0))

/-- Whether DIRECTOR_CONTROL is mapped into an assigned RxPDO and the state is Op (R61). -/
def Dev.localControl (d : Dev) : Bool := d.net.ecat == .op && (d.pdoEntries true).any (fun e => (pdoEntry e).1 = 0x2010)

/-! ### Store items (R88, R353, Table 13.5) -/

/-- The store item of an object: its ITEM and INDEX. -/
def itemOf (index sub : Nat) : Option (Nat × Nat) :=
  if 0x4400 ≤ index && index < 0x4800 then (if sub = 1 then some (1, index - 0x4400) else none)
  else if 0x4800 ≤ index && index < 0x4810 then
    (if sub = 1 then some (2, index - 0x4800) else if sub = 3 then some (3, index - 0x4800) else none)
  else if 0x2080 ≤ index && index < 0x2090 then (if sub = 3 || sub = 4 || sub = 6 then some (3, index - 0x2080) else none)
  else if 0x2910 ≤ index && index < 0x2920 then (if sub = 1 || sub = 5 || sub = 6 then some (4, index - 0x2910) else none)
  else if 0x2320 ≤ index && index < 0x2330 then (if sub = 1 then some (4, index - 0x2320) else none)
  else if index = 0x2940 then (if sub = 1 then some (5, 0) else none)
  else if 0x3000 ≤ index && index < 0x3800 then (if sub = 0x0D || (0x10 ≤ sub && sub ≤ 0x19) then some (6, index - 0x3000) else none)
  else if 0x3800 ≤ index && index < 0x3C00 then (if sub = 5 || (0x0B ≤ sub && sub ≤ 0x0D) then some (7, index - 0x3800) else none)
  else if 0x3C00 ≤ index && index < 0x3C40 then (if sub = 1 then some (8, index - 0x3C00) else none)
  else if sharedSettings.contains (index, sub) then some (9, 0)
  else none

/-- What the response of an accepted write waits for: its settings record, then the twin's confirmation. -/
def Dev.persist (d : Dev) (c : Client) (index sub : Nat) : Dev × Ans :=
  let d := match itemOf index sub with | some (i, k) => d.copyItem i k | none => d
  if settingsObject (objKey index sub) then
    ({ d with upd := { d.upd with pendingSettings := true } }, .wait (.settings c index sub))
  else match itemOf index sub with
    | some (i, k) => (d, if d.awaitsCopy i k then .wait (.store c index sub (storeKey i k) d.now) else .ok)
    | none => (d, .ok)

/-! ### The LIBRARY and CALIBRATION regions -/

/-- A LIBRARY record is written with the format of the running image (R394). -/
def Dev.library (d : Dev) : Dev := { d with upd := { d.upd with libraryFormat := fld d.manifest 45 1 } }

end Sys2Proof.Machine
end

