-- ==== Sys2Proof/Machine/Update.lean ====
section
/-!
DEFINITION. Staging, activation, trial and recovery of images (R398 to R411). The mailbox and the commands of chapter 15
call these operations.
-/

namespace Sys2Proof.Machine
open Sys2Proof

/-! ### Manifests and segments (Tables 15.7 and 15.8, R400) -/

/-- PARTS, SEGMENTS, IMAGE_LENGTH and SECURITY_VERSION of a manifest. -/
def manParts (b : Bytes) : Nat := fld b 3 1
/-- SEGMENTS. -/
def manSegments (b : Bytes) : Nat := fld b 12 4
/-- IMAGE_LENGTH. -/
def manLength (b : Bytes) : Nat := fld b 16 8
/-- SECURITY_VERSION. -/
def manSecurity (b : Bytes) : Nat := fld b 40 4
/-- The first 16 bytes of the manifest's SHA-384. -/
def manId (b : Bytes) : Bytes := (sha384 b).take 16

/-- The largest length of a part by its TYPE (Table 15.5), in bytes. -/
def partMax : Nat → Nat
  | 1 => 12 * 2 ^ 20 | 2 => 2 ^ 20 | 3 => 64 * 2 ^ 20 | 4 => 2 * 2 ^ 20 | 5 => 2 * 2 ^ 20 | 6 => 128 * 2 ^ 20 | 7 => 16 * 2 ^ 20 | _ => 0

/-- Part record k: TYPE, OFFSET and LENGTH. -/
def manPart (b : Bytes) (k : Nat) : Nat × Nat × Nat :=
  (fld b (128 + 32 * k) 1, fld b (128 + 32 * k + 8) 8, fld b (128 + 32 * k + 16) 8)

/-- The reserved fields of part record k with their lengths (R399): the whole of an unused record, else FLAGS, bytes 2–3, UNITS where
TYPE is not CONTROL (its bits above 3 where it is), and bytes 24–31. -/
def partReserved (b : Bytes) (k : Nat) : List (Nat × Nat) :=
  let o := 128 + 32 * k
  if manParts b ≤ k then [(o, 32)]
  else
    let units := if fld b o 1 != 2 then [(o + 4, 4)] else if 16 ≤ fld b (o + 4) 4 then [(o + 4, 4)] else []
    [(o + 1, 1), (o + 2, 2)] ++ units ++ [(o + 24, 8)]

/-- The offset of the first of the reserved fields that is not zero, if any (R13). -/
def firstReserved (b : Bytes) (fields : List (Nat × Nat)) : Option Nat :=
  (fields.find? (fun f => !allZero (slice b f.1 f.2))).map (·.1)

/-- The offset of the first field of part record k that is refused: an unlisted TYPE of a part in use, which is refused as a reserved
field is (R15), or a reserved field that is not zero. -/
def partFault (b : Bytes) (k : Nat) : Option Nat :=
  let o := 128 + 32 * k
  if k < manParts b && (fld b o 1 = 0 || 7 < fld b o 1) then some o else firstReserved b (partReserved b k)

/-- The offset of the first field of a manifest that is reserved and not zero, or holds an unlisted part TYPE (R13, R15, R398, R399). -/
def manReserved (b : Bytes) : Option Nat :=
  match firstReserved b [(10, 2), (47, 1), (60, 68)] with
  | some o => some o
  | none => (upto 16).findSome? (partFault b)

/-- The offset of the first reserved field of a segment's header that is not zero (R13, R400). -/
def segReserved (b : Bytes) : Option Nat := firstReserved b [(3, 1), (12, 4)]

/-- Whether SEGMENTS is wrong, or a part is too large, outside the image or over another (R402). -/
def manParting (b : Bytes) : Bool :=
  let n := manParts b
  let ps := (upto n).map (manPart b)
  let bad := fun (p : Nat × Nat × Nat) => partMax p.1 < p.2.2 || manLength b < p.2.1 + p.2.2
  let cross := fun (i : Nat) => (upto i).any (fun k => overlaps ((manPart b i).2.1, (manPart b i).2.2) ((manPart b k).2.1, (manPart b k).2.2))
  n = 0 || 16 < n || manLength b = 0 || 268435456 < manLength b || manSegments b != (manLength b + 65535) / 65536 ||
    ps.any bad || (upto n).any cross

/-- Whether the parts of types 1, 4 and 5 together exceed 16 MiB (R392). -/
def manProgram (b : Bytes) : Bool :=
  16 * 2 ^ 20 < sumN (((upto (manParts b)).map (manPart b)).map (fun p => if p.1 = 1 || p.1 = 4 || p.1 = 5 then p.2.2 else 0))

/-- The second-stage result code of a manifest (R402): none where it is accepted. -/
def Dev.manifestFault (d : Dev) (b : Bytes) : Option Nat :=
  if b.length < 736 || b.length != 736 + 48 * manSegments b then some 2
  else if fld b 0 2 != 0x4D46 || fld b 2 1 != 1 then some 3
  else if (manReserved b).isSome then some 4
  else if fld b 4 4 != (if d.isC then 0x05120043 else 0x05120053) || fld b 8 2 != 0x00C1 then some 5
  else if manParting b || manProgram b then some 6
  else if manSecurity b < d.upd.boot.securityMin then some 7
  else none

/-- UPDATE_RESULT. -/
def Dev.updateResult (d : Dev) (n : Nat) : Dev := d.setNum 0x2400 0x0C n

/-- A file is refused at the second stage: UPDATE_RESULT, and with code 4 the offset of the reserved field is reported (R13, R402). -/
def Dev.refuseFile (d : Dev) (n : Nat) (reserved : Option Nat) : Dev :=
  let d := d.updateResult n
  match n, reserved with
  | 4, some o => d.emit (.reservedField o)
  | _, _ => d

/-- The INDEX values whose segments are received (R403). -/
def Update.received (u : Update) : List Nat := (u.slots.filter (·.valid)).map (·.index)

/-- Whether the bitmap holds every segment. -/
def Update.complete (u : Update) : Bool :=
  u.receipt && (upto (manSegments u.staged)).all (fun k => u.received.contains k)

/-- The slot that the next segment takes, where one is free: after the highest with a programmed page (R405). -/
def Update.nextSlot (u : Update) : Option Nat :=
  let n := u.slots.foldl (fun m s => max m (s.slot + 1)) 0
  if n < 6540 then some n else none

/-- Whether a segment file belongs to the staged manifest (R402): the entry at its INDEX is its hash. -/
def segmentOk (manifest data : Bytes) : Bool :=
  let i := fld data 4 4
  32 < data.length && i < manSegments manifest && sha384 data == slice manifest (640 + 48 * i) 48

/-- The UPDATE_STATE that a scan derives (Table 15.11). -/
def Update.scanned (u : Update) : UState :=
  if u.boot.state == .trial then .trial
  else if !u.receipt then .empty
  else if u.complete then .staged
  else .receiving

/-- STAGING is erased. -/
def Update.cleared (u : Update) : Update := { u with staged := [], receipt := false, slots := [], inRam := none }

/-! ### FoE files (R401 to R404). The answer: refused at the first stage, an FoE code at once, or the programming waits. -/

/-- How an FoE file is answered. -/
inductive FoeAnswer where
  | refuse
  | answer (code : Nat)
  | program (file : Nat)
  deriving DecidableEq, Repr

/-- A manifest arrives (R402). -/
def Dev.takeManifest (d : Dev) (c : Nat) (maintainer : Bool) (b : Bytes) (sigOk : Bool) : Dev × FoeAnswer :=
  if d.net.ecat == .boot then (d, .answer 9)
  else if !maintainer || !sigOk then (d, .refuse)
  else match d.manifestFault b with
    | some n => (d.refuseFile n (manReserved b), .answer 4)
    | none =>
      if d.upd.receipt && d.upd.staged == b && d.upd.state != .scanning && d.upd.state != .clearing then (d.updateResult 1, .answer 0)
      else if d.upd.state != .empty then (d.updateResult 8, .answer 4)
      else ({ d with upd := { d.upd with foe := some (c, 0, b, d.now) } }, .program 0)

/-- A segment file arrives (R402, R403). -/
def Dev.takeSegment (d : Dev) (maintainer : Bool) (name : Nat) (b : Bytes) : Dev × FoeAnswer :=
  if d.net.ecat == .boot then (d, .answer 9)
  else if !maintainer || !d.upd.receipt || !segmentOk d.upd.staged b then (d, .refuse)
  else
    let i := fld b 4 4
    if (segReserved b).isSome then (d.refuseFile 4 (segReserved b), .answer 4)
    else if name != i then (d.updateResult 9, .answer 4)
    else if d.upd.state != .receiving && d.upd.state != .staged then (d.updateResult 8, .answer 4)
    else if d.upd.received.contains i then ((d.updateResult 1).bump 0x2400 0x0B, .answer 0)
    else match d.upd.nextSlot with
      | none => (d.updateResult 10, .answer 3)
      | some _ => ({ d with upd := { d.upd with inRam := some (i, b) } }, .program 1)

/-- The manifest and its receipt are programmed, or the program failed (R403). -/
def Dev.manifestProgrammed (d : Dev) (ok : Bool) : Dev × Nat :=
  match d.upd.foe with
  | some (_, 0, b, _) =>
    let d := { d with upd := { d.upd with foe := none } }
    if ok then (({ d with upd := { d.upd with staged := b, receipt := true, state := .receiving } }).updateResult 0, 0)
    else (d.flashFailed.updateResult 11, 0x0B)
  | _ => (d, 0)

/-- A segment and its receipt are programmed, or its slot is dead (R403). -/
def Dev.segmentProgrammed (d : Dev) (ok : Bool) : Dev × Nat :=
  match d.upd.inRam, d.upd.nextSlot with
  | some (i, b), some s =>
    let u := { d.upd with inRam := none, slots := d.upd.slots ++ [{ slot := s, index := i, valid := ok, data := b }] }
    let u := if u.complete && u.state == .receiving then { u with state := .staged } else u
    let d := { d with upd := u }
    if ok then (d.updateResult 0, 0) else (d.flashFailed.updateResult 11, 0x0B)
  | _, _ => (d, 0)

/-- How the segments of a RECOVERY file end: every one is in its slot, one fails at the first stage, or one has a reserved field that
is not zero, at an offset (R410, R402). -/
inductive RecoveryEnd where
  | complete
  | failed
  | reserved (offset : Nat)
  deriving DecidableEq, Repr

/-- The segment files of a RECOVERY file, one after another, until one is refused (R410). -/
def takeRecoverySegments : Nat → Update → Bytes → Update × RecoveryEnd
  | 0, u, _ => (u, if u.complete then .complete else .failed)
  | n + 1, u, b =>
    if b.isEmpty then (u, if u.complete then .complete else .failed)
    else
      let len := 32 + fld b 8 4
      let f := b.take len
      match u.nextSlot with
      | some s =>
        if !segmentOk u.staged f || f.length != len then (u, .failed)
        else match segReserved f with
          | some o => (u, .reserved o)
          | none =>
            takeRecoverySegments n { u with slots := u.slots ++ [{ slot := s, index := fld f 4 4, valid := true, data := f }] } (b.drop len)
      | none => (u, .failed)

/-- ACTIVE holds the staged image, written between the records of ACTIVATING and of TRIAL (R406, R410). -/
def Update.written (u : Update) : Update :=
  { u.writeBoot { u.boot with state := .activating } with
    activeManifest := u.staged
    newLoader := (upto (manParts u.staged)).any (fun k => (manPart u.staged k).1 = 7) }.writeBoot
      { u.boot with state := .trial, activeId := manId u.staged, trialStarts := 0 }

/-- A RECOVERY file arrives (R410): in Bootstrap only, without a session, since none is open there. -/
def Dev.takeRecovery (d : Dev) (maintainer : Bool) (b : Bytes) (sigOk : Bool) : Dev × FoeAnswer :=
  if d.net.ecat != .boot then (d, if maintainer then .answer 8 else .refuse)
  else
    let d := { d with upd := { d.upd.cleared with state := .empty } }
    let m := b.take (736 + 48 * manSegments b)
    if !sigOk then (d, .refuse)
    else match d.manifestFault m with
      | some n => (d.refuseFile n (manReserved m), .answer 4)
      | none =>
        let r := takeRecoverySegments (manSegments m) { d.upd with staged := m, receipt := true, state := .receiving } (b.drop m.length)
        match r.2 with
        | .complete => (({ d with upd := { r.1.written with state := .staged, coldOnInit := true } }).updateResult 0, .answer 0)
        | .reserved o => (({ d with upd := r.1 }).refuseFile 4 (some o), .answer 4)
        | .failed => ({ d with upd := r.1 }, .refuse)

/-! ### Activation, trial and fallback (R406 to R408) -/

/-- Whether ACTIVATE is accepted (R406). -/
def Dev.mayActivate (d : Dev) : Bool :=
  d.upd.state == .staged && (d.upd.boot.state == .normal || d.upd.boot.state == .fallenBack) &&
    d.inState [.standby, .hold, .maintenance, .replay, .fault] &&
    !(d.holdsColl && (upto 16).any (fun j => (d.shardOf j).isSome && d.jobUp j))

/-- ACTIVATE is accepted: the steps of R406 begin. -/
def Dev.activate (d : Dev) : Dev := ({ d with upd := { d.upd with state := .activating, step := some 1 } }).updateResult 0

/-- The steps of R406 have ended: the warm restart follows, or the copy or verification failed. Whether step 3 had begun is
a free value. -/
def activationDone (m : Dev × Hbm) (ok : Bool) : Dev × Hbm :=
  let d := m.1
  if d.upd.state != .activating then m
  else
    let b := d.upd.boot
    let copied := b.state == .normal && b.fallbackId != b.activeId
    let copy := fun (u : Update) =>
      if copied then { u with fallbackManifest := u.activeManifest }.writeBoot { u.boot with fallbackId := u.boot.activeId } else u
    if ok then
      let d := ({ d with upd := { (copy d.upd).written with step := none } }).setNum 0x2402 0 0
      warmStart (d, m.2) .warm .command
    else
      let begun := decide (Config.openNat d.fresh % 2 = 1)
      let d := d.drawn 1
      let u := { d.upd with state := .staged, step := none }
      let u := if begun then
          let v := copy u
          (v.writeBoot { v.boot with state := .activating }).writeBoot { v.boot with state := .fallenBack }
        else u
      (({ d with upd := u }).updateResult 11, m.2)

/-- The running trial confirms itself (R407). -/
def Dev.healthConfirm (d : Dev) : Dev :=
  let u := d.upd
  let b := { u.boot with
    state := .normal
    securityMin := max u.boot.securityMin (manSecurity u.fallbackManifest)
    loader := if u.newLoader then 1 - u.boot.loader else u.boot.loader }
  -- LIBRARY records of formats that the image does not read are erased
  let kept := u.otherLibraries.filter (fun r => d.readsFormat 1 r.format)
  ({ d with upd := { u.writeBoot b with newLoader := false, state := .clearing, otherLibraries := kept } }).setNum 0x2402 0 1

/-- What must hold when HEALTH_SOAK has elapsed (R407). -/
def Dev.soakGood (d : Dev) : Bool :=
  !d.upd.soakBroken && d.upd.startDone.isSome && d.dir.state != .fault &&
    (!(d.link 38).isUp || d.nat 0x2500 7 = 1) &&
    (d.nat 0x2B10 1 / 2 ^ (d.pos + 1) = 0 && d.nat 0x2B10 1 % 2 ^ d.pos = 0 || d.disc.confirmed) &&
    d.mem.failed.isEmpty && !(d.mem.stackOf.any (fun e => e.2 == .failed))

/-- A watchdog restart is ordered (R408). -/
def Dev.orderWatchdog (d : Dev) : Dev :=
  if d.upd.watchdog.isSome then d else { d with upd := { d.upd with watchdog := some d.now } }

/-- Whether a job of this Director has an entry between GO and Z + 2 ms (R408). -/
def Dev.goOpen (d : Dev) : Bool :=
  d.arr.commits.any (fun e =>
    [CommitState.go, .acked, .confirmed, .flipping].contains e.2.state && d.now < e.2.z + 2 * Config.ms)

end Sys2Proof.Machine
end

