-- ==== Sys2Proof/Machine/SdoChecks.lean ====
section
/-!
DEFINITION. The second stage of a write (R56): range, state and each object's own validation. `d` is the device, `w` the
device with the values of the whole write in place (R44).
-/

namespace Sys2Proof.Machine
open Sys2Proof

/-- Whether a RUNNING or RESTARTING job keeps its objects from being written (R65, R81). -/
def Dev.jobBusy (d : Dev) (j : Nat) : Bool := d.jobIn j [.running, .restarting]

/-- RING_WINDOW: the record area divided by 1.6 GB/s, in ms (R420). -/
def Dev.ringWindow (d : Dev) : Nat := d.recArea / 1600000

/-! ### Range, reserved bits, listed codes and budgets: 0x0609_0030 -/

/-- Whether a SHARD_MAP assigns one shard twice or an unlisted shard (R71). -/
def shardMapBad (v : Bytes) : Bool :=
  let l := (v.map (·.toNat)).filter (· != 0xFF)
  l.any (fun s => decide (63 < s)) || !l.eraseDups.length == l.length

/-- The sum of the 64 HEATER_CAPs (R380). -/
def Dev.capSum (d : Dev) : Nat := sumN ((upto 64).map (fun q => d.nat (0x3C00 + q) 5))

/-- The retired pages of a stack. -/
def Dev.retiredOf (d : Dev) (s : Nat) : List Nat := tget [] d.mem.retired s

/-- A record of MODEL_TABLE. -/
def modelRec (b : Bytes) (m : Nat) : Bytes := slice b (32 * m) 32

/-- Whether a record of MODEL_TABLE sets a reserved byte, or names as its SOURCE neither a Director nor 0xFFFF (R10, R12, R287). -/
def modelBad (r : Bytes) : Bool :=
  fld r 7 1 != 0 || !allZero (slice r 28 4) || !(fld r 4 2 = 0xFFFF || (0xF000 ≤ fld r 4 2 && fld r 4 2 ≤ 0xF03F) || allZero r)

/-- The range rules that hold for single objects beyond the ranges of the dictionary. -/
def Dev.specialRange (d w : Dev) (index sub : Nat) (v : Bytes) : Bool :=
  let x := unle v
  if index = 0x1C12 then x != 0 && !(0x1600 ≤ x && x ≤ 0x1603)
  else if index = 0x1C13 then x != 0 && !(0x1A00 ≤ x && x ≤ 0x1A03)
  else if index = 0x2010 then wordUnlisted x
  else if index = 0x2100 then bits x 7 4 != 0 || !(bits x 15 8 = 1 || bits x 15 8 = 2)
  else if index = 0x2102 then if d.isC then x < 300 else 380 < x
  else if (index = 0x2210 || index = 0x2211) && (sub = 2 || sub = 3) then
    w.nat 0x2210 2 = w.nat 0x2211 2 && w.nat 0x2210 3 = w.nat 0x2211 3
  else if index = 0x2310 then !budgetsOk 0 w.budgets
  else if index = 0x2402 then x = 1 || (x = 2 && d.upd.state != .trial)
  else if index = 0x2701 && sub = 1 then x % 65536 != 0
  else if index = 0x2701 && sub = 2 then
    x != 0 && (x % 65536 != 0 || x < 2 ^ 30 || (if d.isC then 64 else 32) * 2 ^ 30 < x)
  else if index = 0x2702 && (sub = 1 || sub = 2) then w.ringWindow < w.nat 0x2702 1 + w.nat 0x2702 2
  else if index = 0x2702 && sub = 3 then x.testBit 0
  else if index = 0x2940 && sub = 1 then (upto 64).any (fun m => modelBad (modelRec v m))
  else if index = 0x2840 then
    let s := fld v 0 1
    let p := fld v 4 4
    !allZero (slice v 1 3) || d.stackCount ≤ s || stackPages ≤ p || (d.retiredOf s).contains p
  else if index = 0x2940 && sub = 3 then 63 < bits x 7 0 || !(1 ≤ bits x 15 8 && bits x 15 8 ≤ 3)
  else if 0x2910 ≤ index && index < 0x2920 && sub = 5 then x = 0 || 0x7F800000 < x
  else if 0x2320 ≤ index && index < 0x2330 && sub = 3 then !allZero (slice v 1 7) || !(fld v 0 1 < 4 || fld v 0 1 = 0xFF)
  else if (index = 0x2120 && sub = 7) || (0x3C00 ≤ index && index < 0x3C40 && sub = 5) then w.nat 0x2120 7 < w.capSum
  else if 0x3800 ≤ index && index < 0x3C00 && sub = 5 then
    v.any (fun b => Nat.blt 30 b.toNat) || (0x3A00 ≤ index && !allZero v)
  else if 0x4000 ≤ index && index < 0x4400 && sub = 7 then 0xEFFF < x && x != 0xFFFF
  else if 0x4000 ≤ index && index < 0x4400 && sub = 8 then 5 < x && x != 0xFF
  else if 0x4800 ≤ index && index < 0x4810 && sub = 3 then shardMapBad v
  else if index = 0x2020 && sub = 3 then fld v 1 1 != 0
  else false

/-- Whether a value breaks its object's range. -/
def Dev.rangeFault (d w : Dev) (index sub : Nat) (v : Bytes) : Bool :=
  let x := subValue index sub v
  (match objRow index sub with
    | some r =>
      (r.type == .bool && !(x == 0 || x == 1)) ||
      (match r.range with | some (lo, hi) => x < lo || hi < x | none => false) || x % (r.mult : Int) != 0
    | none => false) ||
  d.specialRange w index sub v

/-! ### Jobs: START, STOP, CLEAR and RESTART_ORDER (R65, R71, R85, R270, R332) -/

/-- The first Zenith at or after START_ORBIT of the almanac's variant 0 (R79). -/
def Dev.firstZenith (d : Dev) (j : Nat) : Nat :=
  let alm := d.almanac j
  zenithOf d.time.inForce (d.job j).startOrbit (almVariant alm 0).span 0 (almEntry alm (almVariant alm 0).first)

/-- The ports that the entries of a variant name. -/
def Dev.variantPorts (d : Dev) (j v : Nat) : List Nat :=
  ((variantEntries (d.almanac j) v).flatMap (fun e => d.entryPorts j (centries (d.slot e.slot)))).eraseDups

/-- Whether a port of a variant is OUT_OF_SERVICE. -/
def Dev.variantOut (d : Dev) (j v : Nat) : Bool := (d.variantPorts j v).any d.outOfService

/-- What START asks of the collective engine (R71, R270). -/
def Dev.shardReady (d : Dev) (j : Nat) : Bool :=
  (d.shardOf j).isNone ||
    (d.isC && (d.engJob j).state == .ready && planTag (d.plan j) = almTag (d.almanac j) && d.holdsColl)

/-- Whether START is accepted, but for its validation (R65, R85). The margin of 10 ms counts from the instant at which the
command is latched: it is judged then, and not again when the validation has ended (`late`). DESIGN CHOICE (log 9): it is
judged only while the pointer stands at the almanac's first entry; after a STOP, R96 places the next entry 10 ms ahead, and
START_ORBIT is not used. -/
def Dev.mayStart (d : Dev) (late : Bool) (j : Nat) : Bool :=
  d.jobIn j [.loaded, .stopped] && (d.job j).valid && !(d.almanac j).isEmpty && d.shardReady j &&
    (late || !(d.run j).fresh || d.now + 10 * Config.ms ≤ d.firstZenith j) &&
    d.time.inForce.period = (d.job j).period && !d.variantOut j 0

/-- Whether a JOB_COMMAND is accepted. -/
def Dev.mayJob (d : Dev) (late : Bool) (j c : Nat) : Bool :=
  match c with
  | 1 => d.mayStart late j
  | 2 => d.jobIn j [.running]
  | _ => d.jobIn j [.defined, .loaded, .stopped]

/-- The simulation of variant 0 from no circuit on any port of the job (R332). -/
def Dev.restartCheck (d : Dev) (j : Nat) : Option Report := simVariant (d.simEnv j (d.almanac j)) 0 []

/-- Whether a restart order is accepted, but for the simulation of variant 0 (R332). -/
def Dev.mayOrder (d : Dev) (j : Nat) (v : Bytes) : Bool :=
  d.jobIn j [.restarting] &&
  (fld v 0 1 = 0xFF ||
    (let k := fld v 0 1
     let alm := d.almanac j
     let first := zenithOf d.time.inForce (fld v 8 8) (almVariant alm k).span 0 (almEntry alm (almVariant alm k).first)
     !alm.isEmpty && k < almV alm && !d.variantOut j k && ((d.shardOf j).isNone || fld v 16 8 = (d.engJob j).updated + 1) &&
       d.releaseInstant j + 10 * Config.ms ≤ first))

/-! ### The store and the plans -/

/-- The jobs in some states whose almanac references a slot, ascending (R81, R82). -/
def Dev.jobsNaming (d : Dev) (s : Nat) (l : List JobState) : List Nat :=
  (upto 16).filter (fun j => d.jobIn j l && (almSlots (d.almanac j)).contains s)

/-- Whether a model slot is named by the almanac of a RUNNING job (R287). -/
def Dev.modelNamed (d : Dev) (m : Nat) : Bool :=
  (upto 16).any (fun j => d.jobIn j [.running] &&
    (upto (almE (d.almanac j))).any (fun i => (almEntry (d.almanac j) i).prefetch = 3840 + m))

/-- The model slots whose record a write changes. -/
def Dev.modelsChanged (d : Dev) (b : Bytes) : List Nat :=
  (upto 64).filter (fun m => padTo 32 (modelRec b m) != padTo 32 (modelRec (d.oct 0x2940 1) m))

/-- Whether MODEL_TABLE may be written now (R287). -/
def Dev.mayTable (d : Dev) (b : Bytes) : Bool :=
  (d.modelsChanged b).all (fun m => !((d.model m).state == .filling || (d.model m).state == .fetching) && !d.modelNamed m)

/-- The range of a model record. -/
def recRange (r : Bytes) : Nat × Nat := (fld r 8 8, fld r 16 8)

/-- Whether every changed record of MODEL_TABLE is well formed and well placed (R270, R287). -/
def Dev.tableOk (d : Dev) (b : Bytes) : Bool :=
  let plans := ((upto 16).filter (fun k => !(d.plan k).isEmpty)).flatMap (fun k => (upto 7).map (fun i => planRegion (d.plan k) (i + 1)))
  (d.modelsChanged b).all (fun m =>
    let r := modelRec b m
    let g := recRange r
    let others := ((upto 64).filter (· != m)).map (fun k => recRange (modelRec b k))
    g.1 % 65536 = 0 && g.2 % 64 = 0 &&
      (g.2 = 0 || d.rangeFree g (plans ++ others.filter (fun o => o.2 != 0))))

/-- A model slot as it stands once a MODEL_TABLE is in place: a changed record puts it in EMPTY (R44, R287). -/
def Dev.modelWith (d : Dev) (table : Bytes) (m : Nat) : Model :=
  if (d.modelsChanged table).contains m then
    let r := modelRec table m
    { id := fld r 0 4, source := fld r 4 2, sourceSlot := fld r 6 1, base := fld r 8 8, len := fld r 16 8, check := fld r 24 4 }
  else d.model m

/-- Whether a MODEL_COMMAND is accepted with a MODEL_TABLE in place: FILL and FETCH of a slot with a record that is not under way,
a FETCH from a named source (R287; the states are DEDUCED). -/
def Dev.mayModel (d : Dev) (table : Bytes) (v : Nat) : Bool :=
  let x := d.modelWith table (bits v 7 0)
  let busy := x.state == .filling || x.state == .fetching
  match bits v 15 8 with
  | 1 => x.len != 0 && !busy
  | 2 => x.len != 0 && !busy && x.source != 0xFFFF
  | _ => true

/-- Whether a COLL_COMMAND is accepted (R271). -/
def Dev.mayColl (d : Dev) (j v : Nat) : Bool :=
  let x := d.engJob j
  match v with
  | 1 => x.state == .planned || x.state == .ready
  | 2 => x.state == .loading && Nat.ble (masterGranules (d.plan j)) x.loaded.length
  | _ => !d.jobBusy j

/-- Whether COLL_RESTORE of a step is accepted (R362): the holder, a RESTARTING job, and a bank that holds the epoch. -/
def Dev.mayRestore (d : Dev) (j s : Nat) : Bool :=
  let x := d.mirror j
  d.holdsColl && d.jobIn j [.restarting] && s != 0 && (x.bank0.1 = s || x.bank1.1 = s) && (x.own || d.joined)

/-- Whether a DOMAIN_REQUEST is accepted (R369). -/
def Dev.mayDomain (d : Dev) (v : Nat) : Bool :=
  let k := bits v 3 0
  if bits v 15 8 = 1 then d.domainPresent k && k != 11 && (requires k).all d.isOn
  else d.domainPresent k && (d.offList k).all d.offGuard

/-- Whether the recorder ring may take the place that a write gives it (R270, R287, R294, R420). -/
def Dev.ringPlaced (d w : Dev) : Bool :=
  let r := w.ringRange
  let top := if d.isC then 0x2FFC000000 else 0x17FE000000
  let plans := ((upto 16).filter (fun k => !(d.plan k).isEmpty)).flatMap (fun k => (upto 7).map (fun i => planRegion (d.plan k) (i + 1)))
  r.2 = 0 || (r.1 + r.2 ≤ top && (plans ++ d.modelRanges).all (fun o => !overlaps r o))

/-! ### State: 0x0800_0022 -/

/-- Whether an axis is open by command and its limit has not elapsed (R136). -/
def Dev.openNow (d : Dev) (a : Nat) : Bool :=
  (d.axis a).state == .open && (d.axis a).byCommand &&
    (match (d.axis a).openUntil with | some t => d.now ≤ t | none => false)

/-- The axes of a head that OPEN_REQUEST and AUTOTUNE_COMMAND name by their bits. -/
def axesNamed (h v : Nat) : List Nat := (bitsOf 2 v).map (axisOf h)

/-- Whether a port has a circuit or a comet. -/
def Dev.portUsed (d : Dev) (p : Nat) : Bool :=
  d.circuits.any (fun c => c.hasPort p) || d.arr.comets.any (fun c => c.active && (c.north == p || southPort c.south == p))

/-- The state conditions of the objects of chapters 2 to 4. -/
def Dev.stateFaultA (d w : Dev) (deep : Bool) (index sub : Nat) (v : Bytes) : Bool :=
  let x := unle v
  if index < 0x2000 then d.net.ecat != .preOp
  else if index = 0x2020 || index = 0x2022 then false
  else if 0x2080 ≤ index && index < 0x2090 then
    let j := index - 0x2080
    if sub = 2 then d.followsDrive || !w.mayJob deep j x else if sub = 4 || sub = 6 then d.jobBusy j else false
  else if index = 0x2100 then !d.mayDomain x
  else if index = 0x2120 && (sub = 1 || sub = 4) then !d.inState [.standby, .maintenance]
  else if (index = 0x2201 && sub = 1) || index = 0x2202 || index = 0x2250 then d.inState [.armed, .serving, .hold]
  else if (index = 0x2210 || index = 0x2211) && sub ≤ 5 then d.time.selected == some (index - 0x2210)
  else if index = 0x2230 && (sub = 1 || sub = 2) then !(d.time.isRoot && d.clearLong)
  else if index = 0x2400 && sub = 2 then
    if x = 1 then !d.mayActivate else !(d.upd.state == .receiving || d.upd.state == .staged)
  else if index = 0x2510 && sub = 3 then
    (match x with | 1 => !d.mayHandDrive | 2 => !d.mayHandColl | _ => !d.mayAbort)
  else if 0x2530 ≤ index && index < 0x2540 then !d.mayRestore (index - 0x2530) x
  else false

/-- The state conditions of the objects of the recorder, memory, engine and job restarts. -/
def Dev.stateFaultB (d w : Dev) (index sub : Nat) (v : Bytes) : Bool :=
  let x := unle v
  if index = 0x2700 && sub = 3 then
    (match x with
      | 2 => d.recr.state != .post
      | 3 => d.recr.state != .frozen || d.inState [.replay]
      | _ => false)
  else if index = 0x2701 && (sub = 1 || sub = 2) then d.flag 0x2700 2 || !d.ringPlaced w
  else if index = 0x2701 && sub = 4 then d.flag 0x2700 2
  else if index = 0x2710 && sub = 2 then
    !d.inState [.replay] ||
    (match x with
      | 1 => d.recr.state == .frozen || !d.joined || d.recr.replay = 3
      | 2 => (d.recr.replay != 2 && d.recr.replay != 4) || !w.replayRun.2
      | 3 => d.recr.replay != 3
      | _ => false)
  else if index = 0x2840 then
    tget .off d.mem.stackOf (fld v 0 1) != .ready || 4096 ≤ (d.retiredOf (fld v 0 1)).length
  else if 0x2900 ≤ index && index < 0x2940 && !d.isC then true
  else if 0x2910 ≤ index && index < 0x2920 then
    let j := index - 0x2910
    if sub = 1 then d.jobBusy j
    else if sub = 4 then !w.mayColl j x
    else if sub = 6 then d.jobBusy j
    else false
  else if index = 0x2940 && sub = 1 then !d.mayTable v
  else if index = 0x2940 && sub = 3 then !d.mayModel (w.oct 0x2940 1) x
  else if 0x2320 ≤ index && index < 0x2330 && sub = 3 then !d.mayOrder (index - 0x2320) v
  else false

/-- The state conditions of the per-part objects and of the store. -/
def Dev.stateFaultC (d : Dev) (index sub : Nat) (v : Bytes) : Bool :=
  let x := unle v
  if index = 0x2C02 then !d.inState [.maintenance, .standby]
  else if 0x3000 ≤ index && index < 0x3800 then
    let h := index - 0x3000
    if 0x10 ≤ sub && sub ≤ 0x17 then !d.openNow (axisOf h ((sub - 0x10) / 4))
    else if sub = 0x18 || sub = 0x19 then !(headAxes h).all d.openNow
    else if sub = 0x1B then x != 0 && !d.mayOpen h (axesNamed h x)
    else if sub = 0x1C then
      !d.mayOpen h (axesNamed h x) || (headAxes h).any (fun a => (d.axis a).state == .autotune)
    else false
  else if 0x3800 ≤ index && index < 0x3C00 then
    let p := index - 0x3800
    if sub = 5 then !d.inState [.maintenance]
    else if 0x0B ≤ sub && sub ≤ 0x0D then !d.inState [.maintenance] || d.portUsed p
    else false
  else if 0x3C00 ≤ index && index < 0x3C40 then if sub = 1 || sub = 0x0B then !d.inState [.maintenance] else false
  else if 0x3D00 ≤ index && index < 0x3D10 then
    let b := index - 0x3D00
    if x = 1 then d.boardBusy b
    else !((d.board b).discovered && ((d.board b).state == .adopting || (d.board b).state == .drained))
  else if 0x4400 ≤ index && index < 0x4800 then !(d.jobsNaming (index - 0x4400) [.running, .restarting]).isEmpty
  else if 0x4800 ≤ index && index < 0x4810 then d.jobBusy (index - 0x4800)
  else false

/-- Whether the device state refuses a write (R56.6, R353). -/
def Dev.stateFault (d w : Dev) (deep : Bool) (index sub : Nat) (v : Bytes) : Bool :=
  ((itemOf index sub).isSome && d.followsDrive) || d.stateFaultA w deep index sub v || d.stateFaultB w index sub v || d.stateFaultC index sub v

/-! ### Own validation -/

/-- The validations of the jobs in LOADED or STOPPED that reference a slot, with the slot's new content, up to the first
that fails (R82). -/
def Dev.slotValidations (d : Dev) (s : Nat) (v : Bytes) : List (Nat × Option Report) :=
  let n := d.setOct (0x4400 + s) 1 v
  let l := (d.jobsNaming s [.loaded, .stopped]).map (fun j => (j, n.validate j (n.almanac j)))
  let good := l.takeWhile (fun e => e.2.isNone)
  good ++ (l.drop good.length).take 1

/-- The report that refuses a constellation: its structure and ownership, then with `deep` the validations (R82). -/
def Dev.constFault (d : Dev) (s : Nat) (v : Bytes) (deep : Bool) : Option Report :=
  let own := if v.isEmpty then none
    else match constStructure v with
      | some r => some r
      | none => constOwnership (d.job (fld v 3 1)).ports v
  match own with
  | some r => some r
  | none => if deep then ((d.slotValidations s v).findSome? (·.2)) else none

/-- The report that refuses an almanac: its structure, then with `deep` the sequence (R83, R84). -/
def Dev.almFault (d : Dev) (j : Nat) (v : Bytes) (deep : Bool) : Option Report :=
  if v.isEmpty then none else if deep then d.validate j v else d.almCheck j v

/-- The abort of an object's own validation, if it fails (R56.7, R45). -/
def Dev.ownFault (d w : Dev) (deep : Bool) (index sub : Nat) (v : Bytes) : Option Nat :=
  let bad := fun (b : Bool) => if b then some 0x08000020 else none
  if 0x1600 ≤ index && index < 0x1604 then
    if unle v = 0 then none else if !mappable true (unle v) then some 0x06040041 else if 512 < w.mapBytes true then some 0x06040042 else none
  else if 0x1A00 ≤ index && index < 0x1A04 then
    if unle v = 0 then none else if !mappable false (unle v) then some 0x06040041 else if 512 < w.mapBytes false then some 0x06040042 else none
  else if 0x4400 ≤ index && index < 0x4800 && sub = 1 then bad (d.constFault (index - 0x4400) v deep).isSome
  else if 0x4800 ≤ index && index < 0x4810 && sub = 1 then bad (w.almFault (index - 0x4800) v deep).isSome
  else if 0x2910 ≤ index && index < 0x2920 && sub = 1 then bad (!v.isEmpty && (d.planFault (index - 0x2910) v).isSome)
  else if index = 0x2940 && sub = 1 then bad (!d.tableOk v)
  else if 0x3C00 ≤ index && index < 0x3C40 && sub = 1 then bad ((crosstalkCheck (index - 0x3C00) v).1 != 0)
  else if deep && 0x2080 ≤ index && index < 0x2090 && sub = 2 && unle v = 1 then
    (if (w.validate (index - 0x2080) (w.almanac (index - 0x2080))).isSome then some 0x08000022 else none)
  else if deep && 0x2320 ≤ index && index < 0x2330 && sub = 3 && fld v 0 1 = 0 then
    (if (w.restartCheck (index - 0x2320)).isSome then some 0x08000022 else none)
  else none

/-- Whether an accepted write first waits for a validation (R82 to R85, R332). -/
def Dev.awaitsValidation (d : Dev) (index sub : Nat) (v : Bytes) : Bool :=
  if 0x4400 ≤ index && index < 0x4800 && sub = 1 then
    !(d.jobsNaming (index - 0x4400) (if v.isEmpty then [.loaded, .stopped] else [.defined, .loaded, .stopped])).isEmpty
  else if 0x4800 ≤ index && index < 0x4810 && sub = 1 then !v.isEmpty
  else if 0x2080 ≤ index && index < 0x2090 && sub = 2 then unle v = 1
  else if 0x2320 ≤ index && index < 0x2330 && sub = 3 then fld v 0 1 = 0
  else false

/-- ALMANAC_REPORT of a job, and what a validation that passes adds (R65, R85). -/
def Dev.reportJob (d : Dev) (j : Nat) (r : Option Report) : Dev :=
  d.setOct (0x4800 + j) 2 (r.getD Report.accepted).bytes

/-- RETIRE_REPORT. -/
def Dev.retireReport (d : Dev) (result s p spare seq : Nat) : Dev :=
  d.setOct 0x2840 2 (le 1 result ++ le 1 s ++ zeros 2 ++ le 4 p ++ le 2 spare ++ zeros 2 ++ le 4 seq)

/-- RETIRE_REPORT of a refused RETIRE_REQUEST, by the refusals of R308; a refusal of another kind is no outcome of the request. -/
def Dev.retireRefused (d : Dev) (v : Bytes) (code : Nat) : Dev :=
  let s := fld v 0 1
  let p := fld v 4 4
  if code = 0x06090030 then d.retireReport (if (d.retiredOf s).contains p then 3 else 2) s p 0 0
  else if code = 0x08000022 then d.retireReport (if tget .off d.mem.stackOf s != .ready then 1 else 4) s p 0 0
  else d

/-- The reports that a refused write leaves (R82, R83, R167, R270, R308, R427), and HANDOVER_STATE of a refused hand-over. `w` holds
the values of the write. -/
def Dev.noteFault (d w : Dev) (deep : Bool) (index sub : Nat) (v : Bytes) (code : Nat) : Dev :=
  if code = 0x08000020 && 0x4400 ≤ index && index < 0x4800 then
    let s := index - 0x4400
    let d' := match d.constFault s v false with
      | some _ => d
      | none => (d.slotValidations s v).foldl (fun (d : Dev) (e : Nat × Option Report) => d.reportJob e.1 e.2) d
    d'.setOct index 4 ((d.constFault s v deep).getD Report.accepted).bytes
  else if code = 0x08000020 && 0x4800 ≤ index && index < 0x4810 && sub = 1 then d.reportJob (index - 0x4800) (d.almFault (index - 0x4800) v deep)
  else if deep && code = 0x08000022 && 0x2080 ≤ index && index < 0x2090 && sub = 2 && w.mayStart true (index - 0x2080) then
    d.reportJob (index - 0x2080) (w.validate (index - 0x2080) (w.almanac (index - 0x2080)))
  else if deep && code = 0x08000022 && 0x2320 ≤ index && index < 0x2330 && sub = 3 && d.mayOrder (index - 0x2320) v then
    d.reportJob (index - 0x2320) (d.restartCheck (index - 0x2320))
  else if code = 0x08000020 && 0x2910 ≤ index && index < 0x2920 then
    let f := (d.planFault (index - 0x2910) v).getD (0, 0)
    d.setOct index 2 (padTo 16 (le 1 f.1 ++ zeros 3 ++ le 4 f.2))
  else if code = 0x08000020 && 0x3C00 ≤ index && index < 0x3C40 then
    let f := crosstalkCheck (index - 0x3C00) v
    d.setOct index 2 (padTo 8 (le 1 f.1 ++ zeros 3 ++ le 2 f.2))
  else if index = 0x2840 && sub = 1 then d.retireRefused v code
  else if code = 0x08000022 && index = 0x2710 && sub = 2 && unle v = 2 && (d.recr.replay = 2 || d.recr.replay = 4) then
    { d with recr := w.replayRun.1.recr }
  else if code = 0x08000022 && index = 0x2510 && sub = 3 && unle v ≤ 2 then d.handoverState 5
  else d

/-- The check of one subindex of a write, in the order of R56: none where it passes. `v` is none where the length of the
write does not match. DESIGN CHOICE (log 93): the number of subindices, which a value for subindex 0 must equal (R44), is the
highest subindex, also for an object with gaps (0x1C32, 0x3000 + h). -/
def Dev.checkSub (d w : Dev) (deep complete : Bool) (index sub : Nat) (v : Option Bytes) : Option Nat :=
  if !indexExists index then some 0x06020000
  else if !subExists index sub then some 0x06090011
  else match objRow index sub, v with
    | none, some x => if !complete then some 0x06010002 else if unle x = topSub index then none else some 0x06090030
    | none, none => if complete then some 0x06070010 else some 0x06010002
    | some r, _ =>
      if r.access == .ro then (if complete then (if v.isNone then some 0x06070010 else none) else some 0x06010002)
      else if index = 0x2010 && d.localControl then some 0x08000021
      else match v with
        | none => some 0x06070010
        | some x =>
          if index = 0x2940 && sub = 1 && x.length != 2048 then some 0x06070010
          else if d.rangeFault w index sub x then some 0x06090030
          else if d.stateFault w deep index sub x then some 0x08000022
          else d.ownFault w deep index sub x

end Sys2Proof.Machine
end

