-- ==== Sys2Proof/Machine/SdoApply.lean ====
section
/-!
DEFINITION. What an accepted write does (R43 and the chapters of the objects), one function per group of objects.
-/

namespace Sys2Proof.Machine
open Sys2Proof

/-! ### Sessions and keys (R53 to R55) -/

/-- The message of a session response (R54). -/
def Dev.responseMessage (d : Dev) (c : Client) (challenge v : Bytes) : Bytes :=
  challenge ++ v.take 1 ++ [0] ++ slice v 2 2 ++ le 2 d.chip ++ le 2 c

/-- The challenge of a client, while it is valid: 10 s. -/
def Dev.challenge (d : Dev) (c : Client) : Option Challenge :=
  d.net.challenges.find? (fun x => x.client == c && Nat.blt d.now (x.issued + 10 * Config.sec))

/-- Whether a session response opens a session (R49, R54). -/
def Dev.responseOk (d : Dev) (c : Client) (v : Bytes) : Bool :=
  match d.challenge c, tfind d.net.keys (fld v 0 1) with
  | some x, some k =>
    v.length = 20 && (Role.ofCode (fld v 0 1)).isSome && slice v 4 16 == (hmac256 k (d.responseMessage c x.bytes v)).take 16 &&
      ((d.session c).isSome || d.net.sessions.length < 4)
  | _, _ => false

/-- A client's challenge is consumed. -/
def Dev.consume (d : Dev) (c : Client) : Dev :=
  { d with net := { d.net with challenges := d.net.challenges.filter (fun x => x.client != c) } }

/-- A session ends (R53): event 0x0D02. -/
def Dev.endSession (d : Dev) (c : Client) : Dev :=
  match d.session c with
  | none => d
  | some _ => (d.setSessions (d.net.sessions.filter (fun s => s.client != c))).secret 0x0D02 c [2]

/-- The sessions that meet a condition end. -/
def Dev.endSessions (d : Dev) (sel : Session → Bool) : Dev :=
  ((d.net.sessions.filter sel).map (·.client)).foldl Dev.endSession d

/-- A session opens and replaces the client's own (R54). -/
def Dev.openSession (d : Dev) (c : Client) (v : Bytes) : Dev :=
  match Role.ofCode (fld v 0 1) with
  | none => d
  | some r =>
    let cur := (d.faults.pub.oldest, d.faults.prot.oldest)
    let s : Session := { client := c, role := r, scope := fld v 2 2, timeout := d.nat 0x2021 1, lastReq := d.now, logCursor := cur.1, protCursor := cur.2 }
    (d.setSessions (d.net.sessions.filter (fun x => x.client != c) ++ [s])).secret 0x0D02 c [1, BitVec.ofNat 8 r.code]

/-- A role key is written: the sessions of its role end (R53, R55). -/
def Dev.setRoleKey (d : Dev) (role c : Nat) (v : Bytes) : Dev :=
  let d := { d with net := { d.net with keys := tset d.net.keys role v } }
  (d.endSessions (fun s => s.role.code = role)).secret 0x0D02 c [3, BitVec.ofNat 8 role]

/-! ### Plain objects -/

/-- An object of the dictionary's stores takes a value. -/
def Dev.store (d : Dev) (index sub : Nat) (v : Bytes) : Dev :=
  if isNumber index sub then d.setNum index sub (subValue index sub v) else d.setOct index sub v

/-- The stored value, with the wait of its persistence. -/
def storeSub (m : Mach) (c : Client) (index sub : Nat) (v : Bytes) : Mach × Ans :=
  let r := (m.1.store index sub v).persist c index sub
  ((r.1, m.2), r.2)

/-- A change of Dev, answered after its persistence. -/
def keep (d : Dev) (h : Hbm) (c : Client) (index sub : Nat) : Mach × Ans :=
  let r := d.persist c index sub
  ((r.1, h), r.2)

/-! ### Jobs (R64, R65, R83, R85) -/

/-- START is accepted: the almanac runs from START_ORBIT, or from the first uncommitted entry (R65, R79, R96). -/
def startJob (m : Mach) (j : Nat) : Mach :=
  let d := m.1.reportJob j none
  let v0 := almVariant (d.almanac j) 0
  let d := if (d.run j).fresh then
      d.modRun j (fun r => { r with variant := 0, base := (d.job j).startOrbit, next := v0.first, loop := 0, fresh := false })
    else d
  let d := d.modJob j (fun x => { x with state := .running, stopping := false })
  let d := d.placeNext j (d.now + 10 * Config.ms)
  let m := engineStart (d, m.2) j
  (m.1.revote j, m.2)

/-- CLEAR is accepted: the ports are released and the job is EMPTY. -/
def Dev.clearJob (d : Dev) (j : Nat) : Dev :=
  ((d.modJob j (fun x => { x with state := .empty, ports := 0, valid := false })).copyItem 3 j).refreshAllProbing

/-- A port map is written: the ports pass, the almanac's validation is discarded (R64). -/
def Dev.setPorts (d : Dev) (j m : Nat) : Dev :=
  (d.modJob j (fun x => { x with ports := m, valid := false, state := if m = 0 then .empty else .defined })).refreshAllProbing

/-- The stored almanac of a job is validated: the report, and LOADED and VALIDATED_PERIOD where it passes (R65, R85). A job in
EMPTY keeps its state. -/
def Dev.validateJob (d : Dev) (j : Nat) : Dev :=
  if (d.almanac j).isEmpty then d
  else
    let r := d.validate j (d.almanac j)
    let d := d.reportJob j r
    if r.isSome then d
    else d.modJob j (fun x =>
      { x with valid := true, period := d.time.inForce.period
               state := if x.state == .defined || x.state == .stopped then .loaded else x.state })

/-- An almanac is written: pointer at entry 0 of variant 0, and the job's state follows (R65, R83). -/
def Dev.setAlmanac (d : Dev) (j : Nat) (v : Bytes) : Dev :=
  let d := (d.setOct (0x4800 + j) 1 v).library
  let d := { d with runs := tset d.runs j {} }
  let d := d.modRun j (fun r => { r with next := (almVariant v 0).first })
  if v.isEmpty then
    d.modJob j (fun x =>
      { x with valid := false, state := if x.state == .loaded || x.state == .stopped then .defined else x.state })
  else
    (d.reportJob j none).modJob j (fun x =>
      { x with valid := true, period := d.time.inForce.period
               state := if x.state == .defined || x.state == .stopped then .loaded else x.state })

/-- A constellation slot is written: the almanacs that name it were validated with it, and a job in DEFINED that names it
becomes LOADED if its almanac now passes (R82). -/
def Dev.setSlot (d : Dev) (s : Nat) (v : Bytes) : Dev :=
  let jobs := d.jobsNaming s [.loaded, .stopped]
  let defined := if v.isEmpty then [] else d.jobsNaming s [.defined]
  let d := (d.setOct (0x4400 + s) 1 v).library
  let d := { d with ob := tdel d.ob (objKey (libSlot s) 1) }
  let d := jobs.foldl (fun (d : Dev) (j : Nat) =>
    (d.reportJob j none).modJob j (fun x => { x with valid := true, period := d.time.inForce.period, state := .loaded })) d
  (defined.foldl Dev.validateJob d).setOct (0x4400 + s) 4 Report.accepted.bytes

/-! ### Chapter 2 -/

/-- Objects 0x1000 to 0x208F. -/
def applyA (m : Mach) (c : Client) (index sub : Nat) (v : Bytes) : Mach × Ans :=
  let d := m.1
  let x := unle v
  if 0x1600 ≤ index && index < 0x1C20 then ((d.setPdo index sub x, m.2), .ok)
  else if index = 0x2010 then ((d.setControl x (d.isMaintainer c), m.2), .ok)
  else if index = 0x2020 then
    if sub = 3 then ((d.openSession c v, m.2), .ok) else ((d.endSession c, m.2), .ok)
  else if index = 0x2022 then ((d.setRoleKey sub c v, m.2), .ok)
  else if 0x2080 ≤ index && index < 0x2090 then
    let j := index - 0x2080
    match sub with
    | 2 =>
      if x = 1 then (startJob m j, .ok)
      else if x = 2 then ((d.orderStop j 1, m.2), .ok)
      else ((d.clearJob j, m.2), .ok)
    | 3 => keep (d.modJob j (fun y => { y with tag := x })) m.2 c index sub
    | 4 => keep (d.setPorts j x) m.2 c index sub
    | _ => keep (d.modJob j (fun y => { y with startOrbit := x })) m.2 c index sub
  else storeSub m c index sub v

/-! ### Power (chapter 14) and time (chapter 4) -/

/-- A new Orbit definition of the root: either field, or both in one (R115). -/
def Dev.newDef (d : Dev) (epoch period : Option Nat) : Dev :=
  let o := d.time.newest
  d.learnDef { epoch := epoch.getD o.epoch, period := period.getD o.period, seq := (o.seq + 1) % 2 ^ 32, validFrom := d.now + 200 * Config.ms }

/-- REQUALIFY: a DISQUALIFIED slot returns to TRACKING (R110), which starts from its next Sync (DESIGN CHOICE, log 68: the spec
does not say which estimate TRACKING starts from). -/
def Ptp.requalified (x : Ptp) : Ptp :=
  if x.state == .disqualified then { x with state := .tracking, agree := 0, refusedRun := 0, sampleAt := 0 } else x

/-- Objects 0x2100 to 0x22FF. -/
def applyB (m : Mach) (c : Client) (index sub : Nat) (v : Bytes) : Mach × Ans :=
  let d := m.1
  let x := unle v
  if index = 0x2100 then
    let k := bits x 3 0
    if bits x 15 8 = 1 then
      let d := d.beginOn k
      match d.nat 0x2100 0x12 with
      | 1 => ((d, m.2), .wait (.domain c k))
      | 3 => ((d, m.2), .abort 0x08000022)
      | _ => ((d, m.2), .ok)
    else
      let n := beginOff m k
      if n.1.domain k == .on || n.1.domain k == .quiescing || !n.1.power.toOff.isEmpty then (n, .wait (.domain c k))
      else ((n.1.domainResult 0, n.2), .ok)
  else if index = 0x2102 || index = 0x2120 then
    let r := storeSub m c index sub v
    ((r.1.1.arbiter, r.1.2), r.2)
  else if index = 0x2210 || index = 0x2211 then
    let k := index - 0x2210
    if sub = 0x0D then
      ((d.modPtp k Ptp.requalified, m.2), .ok)
    else
      let r := storeSub m c index sub v
      ((r.1.1.restartPtp k, r.1.2), r.2)
  else if index = 0x2220 then
    let r := storeSub m c index sub v
    ((((r.1.1.ptpCheck 0).ptpCheck 1).selectPtp, r.1.2), r.2)
  else if index = 0x2230 && sub = 1 then keep (d.newDef (some x) none) m.2 c index sub
  else if index = 0x2230 && sub = 2 then keep (d.newDef none (some x)) m.2 c index sub
  else storeSub m c index sub v

/-! ### Faults, update, twin, recorder (chapters 12, 15, 13, 16) -/

/-- LOG_CURSOR or PROT_CURSOR of a client's session (R337). -/
def Dev.setCursor (d : Dev) (c : Client) (prot : Bool) (n : Nat) : Dev :=
  d.setSessions (d.net.sessions.map (fun s =>
    if s.client == c then (if prot then { s with protCursor := n } else { s with logCursor := n }) else s))

/-- DETOUR_RELEASE names an active record (R330). -/
def Dev.askRelease (d : Dev) (j r : Nat) : Dev :=
  if (d.run j).detours.contains r && !d.faults.releases.contains (j, r) then
    { d with faults := { d.faults with releases := d.faults.releases ++ [(j, r)] } }
  else d

/-- COLL_RESTORE (R362): from the own bank 0 at once, from bank 1 by a copy, from the twin's bank by its stream. -/
def beginRestore (m : Mach) (j s : Nat) : Mach :=
  let x := m.1.mirror j
  let b := if x.bank0.1 = s then 0 else 1
  if !x.own then
    let d := (m.1.burst (96 + j)).modMirror j (fun y => { y with restore := 1, restoreStep := s, restoreFrom := 2 })
    (d.mirrorFrame j b 0 4 s 0 [], m.2)
  else if b = 0 then restoreBank m j 0
  else ((m.1.burst (96 + j)).modMirror j (fun y => { y with restore := 1, restoreStep := s, restoreFrom := 1 }), m.2)

/-- RECORDER_ENABLE (R423, R424). -/
def Dev.enableRecorder (d : Dev) (on : Bool) : Dev :=
  let d := d.setFlag 0x2700 2 on
  if on then d.tryRing
  else match d.recr.state with
    | .running => d.abandonRing
    | .post => d.freeze true
    | _ => d

/-- RECORDER_COMMAND TRIGGER (R422). DESIGN CHOICE (log 40): it is no event, and no code that R315 allows stands for it, so that
its MARK, with EVENT and SEQ 0, is the record of it. -/
def Dev.commandTrigger (d : Dev) : Dev := d.trigger 0 0 0

/-- Objects 0x2300 to 0x27FF. -/
def applyC (m : Mach) (c : Client) (index sub : Nat) (v : Bytes) : Mach × Ans :=
  let d := m.1
  let x := unle v
  if index = 0x2301 then ((d.acknowledge x, m.2), .ok)
  else if 0x2320 ≤ index && index < 0x2330 then
    let j := index - 0x2320
    match sub with
    | 1 => storeSub (m.1.library, m.2) c index sub v
    | 2 => ((d.askRelease j x, m.2), .ok)
    | _ =>
      let d := if fld v 0 1 = 0 then d.reportJob j none else d
      ((d.takeOrder j v, m.2), .ok)
  else if index = 0x2330 then ((d.setCursor c false x, m.2), .ok)
  else if index = 0x2331 then ((d.setCursor c true x, m.2), .ok)
  else if index = 0x2400 && sub = 2 then
    if x = 1 then ((d.activate, m.2), .ok)
    else (({ d with upd := { d.upd with state := .clearing } }.emit (.flash 2), m.2), .ok)
  else if index = 0x2402 then
    if x = 2 then ((d.orderWatchdog, m.2), .ok) else storeSub m c index sub v
  else if index = 0x2510 && sub = 1 then
    let r := storeSub m c index sub v
    ((r.1.1.modTwin (fun t => { t with swapDue := if x = 0 then 0 else d.now + x * 3600 * Config.sec, swapWaiting := none }), r.1.2), r.2)
  else if index = 0x2510 && sub = 3 then
    (match x with
      | 1 => (d.announceDrive, m.2)
      | 2 => handColl m
      | _ => (d.abortHandover, m.2), .ok)
  else if 0x2530 ≤ index && index < 0x2540 then (beginRestore m (index - 0x2530) x, .ok)
  else if index = 0x2700 && sub = 2 then
    let r := storeSub m c index sub v
    ((r.1.1.enableRecorder (x != 0), r.1.2), r.2)
  else if index = 0x2701 && sub = 1 then
    -- what the recorder wrote at another place stays valid (R301)
    let r := if d.recr.top = 0 || d.nat 0x2701 1 = x then d.recr
      else { d.recr with past := d.ringSpans, top := 0, bad := [] }
    storeSub ({ d with recr := r }, m.2) c index sub v
  else if index = 0x2700 && sub = 3 then
    ((match x with
      | 1 => d.commandTrigger
      | 2 => d.freeze true
      | _ => d.releaseCapture, m.2), .ok)
  else if index = 0x2710 && sub = 2 then
    match x with
    | 1 => (({ d with recr := { d.recr with replay := 1, stream := [], poisoned := [] } }, m.2), .ok)
    | 2 => ((d.replayRun.1, m.2), .ok)
    | 3 => ((d.endReplay 9, m.2), .ok)
    | _ => ((d.dropCapture, m.2), .ok)
  else storeSub m c index sub v

/-! ### Memory and the collective engine (chapters 11 and 10) -/

/-- The 64 code words of a page go to its spare, each decoded and written whole (R308, R310). -/
def copyPage (m : Mach) (s p q : Nat) : Mach :=
  let d := m.1.queueBlocks [{ stack := s, page := q, mask := upto 64 }]
  (upto 64).foldl (fun (m : Mach) i =>
    let r := decodeWord m 4 s (p * 64 + i)
    (r.1.1, r.1.2.setWord s (q * 64 + i) r.2.1 r.2.2)) (d, (m.2.dropPage s q).enterPage s q)

/-- RETIRE_REQUEST, steps 1 to 3 (R308): the words of the page, where it is valid, go to the next spare page, and the remap table directs
it there. The retirement list is in force; its record is still to be written. The old page keeps its valid bit (R301). -/
def retirePage (m : Mach) (s p : Nat) : Mach :=
  let m := mapReady (tableReady m s) s (m.2.phys s p / 64)
  let pages := m.1.retiredOf s ++ [p]
  let q := sparePage + (pages.length - 1)
  let m := (m.1.unqueue (fun f => f.stack == s && f.page == q), m.2)
  let m := if m.2.valid.contains (pageKey s p) then copyPage m s p q else (m.1, m.2.dropPage s q)
  let h := m.2
  let rest := h.remap.filter (fun e => e.1 / 2 ^ 24 != s)
  let d := { m.1 with mem := { m.1.mem with retired := tset m.1.mem.retired s pages } }
  ((d.setOct 0x2840 1 (le 1 s ++ zeros 3 ++ le 4 p)).emit (.flash 5), { h with remap := (remapOf s pages).foldl (fun t e => tset t e.1 e.2) rest })

/-- The retire record is written, or its flash write failed (R308, R309): the report, and the log entry of kind 10. -/
def Dev.retireWritten (d : Dev) (ok : Bool) : Dev :=
  let b := d.oct 0x2840 1
  let s := fld b 0 1
  let p := fld b 4 4
  let pages := d.retiredOf s
  let r := d.writeRetire s pages ok
  let d := r.1
  if ok then (d.retireReport 0 s p (pages.length - 1) r.2).memEvent 10 0 s 4 0 (p * 4096) 0 0
  else d.retireReport 5 s p (pages.length - 1) 0

/-- A plan is written: PLANNED with its LR, or NONE (R270); its mirror is laid out afresh. -/
def Dev.setPlan (d : Dev) (j : Nat) (v : Bytes) : Dev :=
  let d := ((d.setOct (0x2910 + j) 1 v).setOct (0x2910 + j) 2 (zeros 16)).library
  let d := d.modEngJob j (fun x =>
    if v.isEmpty then { stepNow := x.stepNow } else { stepNow := x.stepNow, state := .planned, lr := planReal v 2 })
  d.placeMirror j

/-- The blocks of a plan's regions become invalid (R301). -/
def dropRegions (m : Mach) (j : Nat) (kinds : List Nat) : Mach :=
  kinds.foldl (fun m k => let r := planRegion (m.1.plan j) k; dropPages m (pagesIn r.1 r.2)) m

/-- COLL_COMMAND (R271). LOAD makes the blocks of the moments invalid, so that they read zero (R299); RESET those of every region but
ACT, whose extents stay (R301). -/
def collCommand (m : Mach) (j x : Nat) : Mach :=
  match x with
  | 1 =>
    let m := dropRegions m j [4, 5]
    (m.1.modEngJob j (fun y => { y with state := .loading, covered := [], poisoned := [], sums := [], loaded := [] }), m.2)
  | 2 => (m.1.modEngJob j (fun y => { y with state := .ready, count := 0 }), m.2)
  | _ =>
    let m := dropRegions m j [1, 2, 3, 4, 5, 6]
    (m.1.modEngJob j (fun y =>
      { y with state := .planned, covered := [], poisoned := [], sums := [], partial_ := none, held := none, loaded := []
               voided := [], owed := [], stopping := false, sent := [] }), m.2)

/-- The blocks that lie wholly in the ranges of model slots become invalid (R301). -/
def dropSlots (m : Mach) (slots : List Nat) : Mach :=
  slots.foldl (fun m k => dropPages m (pagesIn (m.1.model k).base (m.1.model k).len)) m

/-- MODEL_TABLE is written: its changed slots are EMPTY (R287). -/
def Dev.setTable (d : Dev) (v : Bytes) : Dev :=
  let changed := d.modelsChanged v
  let d := (d.setOct 0x2940 1 v).library
  changed.foldl (fun (d : Dev) (m : Nat) =>
    let r := modelRec v m
    d.modModel m (fun _ =>
      { id := fld r 0 4, source := fld r 4 2, sourceSlot := fld r 6 1, base := fld r 8 8, len := fld r 16 8, check := fld r 24 4 })) d

/-- MODEL_COMMAND (R287). -/
def Dev.modelCommand (d : Dev) (x : Nat) : Dev :=
  let m := bits x 7 0
  match bits x 15 8 with
  | 1 => (d.burst (32 + m)).modModel m (fun y => { y with state := .filling, written := [], asked := [], next := 0 })
  | 2 => ((d.burst (32 + m)).modModel m (fun y => { y with state := .fetching, written := [], asked := [], next := 0 })).fetchMore m 64
  | _ => (d.release 3 (32 + m)).modModel m (fun y => { y with state := .empty, written := [], asked := [], next := 0 })

/-- Objects 0x2800 to 0x29FF. -/
def applyD (m : Mach) (c : Client) (index sub : Nat) (v : Bytes) : Mach × Ans :=
  let d := m.1
  let x := unle v
  if index = 0x2840 then (retirePage m (fld v 0 1) (fld v 4 4), .wait (.retire c index sub))
  else if 0x2910 ≤ index && index < 0x2920 then
    let j := index - 0x2910
    match sub with
    | 1 => keep (d.setPlan j v) m.2 c index sub
    | 4 => (collCommand m j x, .ok)
    | 5 => keep (d.modEngJob j (fun y => { y with lr := x })) m.2 c index sub
    | _ => storeSub (d.library, m.2) c index sub v
  else if index = 0x2940 && sub = 1 then
    let r := dropSlots m (d.modelsChanged v)
    keep (r.1.setTable v) r.2 c index sub
  else if index = 0x2940 && sub = 3 then
    let r := if bits x 15 8 = 3 then dropSlots m [bits x 7 0] else m
    ((r.1.modelCommand x, r.2), .ok)
  else storeSub m c index sub v

/-! ### Optics, discovery, steering, rings and the store (chapters 8, 9, 5, 6, 3) -/

/-- SLOT_COMMAND ENABLE: a slot in SAFE has its dead lasers cleared, and the arbiter is asked for LASER_UP (R211, R212). -/
def Dev.slotEnable (d : Dev) (s : Nat) : Dev :=
  let x := d.laser s
  let d := if x.state == .safe then
      (d.unlatch 0x0501 6 s).modLaser s (fun y => { y with state := if !y.present then .absent else if y.good then .present else .refused, dead := 0 })
    else d
  let x := d.laser s
  if x.state == .lit || x.state == .enabling || x.state == .fault then d else d.request 4 .normal 1 s 0

/-- SLOT_COMMAND DISABLE: the lasers ramp down and the slot is SAFE (R212). -/
def Dev.slotDisable (d : Dev) (s : Nat) : Dev :=
  let d := (upto (lasersOf s)).foldl (fun d m => (d.laserOff s m).pilotsOff s m) d
  ((d.release 4 s).modLaser s (fun x => { x with state := .safe, lit := 0 })).emit (.laser s 0 true)

/-- A coefficient set takes its words, and is clean of poison (R136, R146). -/
def Dev.writeSet (d : Dev) (a k : Nat) (v : Bytes) : Dev :=
  let d := { d with eng := { d.eng with sets := tset d.eng.sets (setKey a k) v } }
  d.modAxis a (fun x => { x with poisonedSets := x.poisonedSets.filter (· != k) })

/-- Objects 0x2A00 to 0x2CFF. -/
def applyE (m : Mach) (c : Client) (index sub : Nat) (v : Bytes) : Mach × Ans :=
  let x := unle v
  if 0x2A01 ≤ index && index < 0x2A05 then
    let s := index - 0x2A01
    ((if x = 1 then m.1.slotEnable s else m.1.slotDisable s, m.2), .ok)
  else
    let r := storeSub m c index sub v
    let d := r.1.1
    let d := if index = 0x2B00 && (sub = 12 || sub = 13) then d.refreshAllProbing
      else if index = 0x2B10 then d.updateConfirmed else d
    ((d, r.1.2), r.2)

/-- Objects 0x3000 to 0x48FF. -/
def applyF (m : Mach) (c : Client) (index sub : Nat) (v : Bytes) : Mach × Ans :=
  let d := m.1
  let x := unle v
  if 0x3000 ≤ index && index < 0x3800 then
    let h := index - 0x3000
    if 0x10 ≤ sub && sub ≤ 0x17 then keep (d.writeSet (axisOf h ((sub - 0x10) / 4)) ((sub - 0x10) % 4) v) m.2 c index sub
    else if sub = 0x1B then ((if x = 0 then d.closeOpen h else d.openByCommand (axesNamed h x), m.2), .ok)
    else if sub = 0x1C then (((axesNamed h x).foldl Dev.startTune d, m.2), .ok)
    else storeSub m c index sub v
  else if 0x3800 ≤ index && index < 0x3C00 then
    let r := storeSub m c index sub v
    let p := index - 0x3800
    let d := r.1.1
    ((if sub = 9 then d.sendMonitor (podOf p)
      else if sub = 0x0F then
        (if d.isMaintainer c then d.modBank p (fun b => { b with calByMa := x }) else d.modBank p (fun b => { b with calByMa := b.calByMa &&& x }))
      else d, r.1.2), r.2)
  else if 0x3C00 ≤ index && index < 0x3C40 then
    let r := storeSub m c index sub v
    let d := r.1.1
    let d := if sub = 1 then d.setOct index 2 (zeros 8) else if sub = 0x0A then d.sendMonitor (index - 0x3C00) else d
    ((d, r.1.2), r.2)
  else if 0x3D00 ≤ index && index < 0x3D10 then
    let b := index - 0x3D00
    ((if x = 1 then d.drainBoard b
      else if (d.board b).state == .drained then (d.setBoard b .adopting).modBoard b (fun y => { y with holdFrames := 0 }) else d, m.2), .ok)
  else if 0x4000 ≤ index && index < 0x4400 then
    let r := storeSub m c index sub v
    ((r.1.1.refreshProbing (index - 0x4000), r.1.2), r.2)
  else if 0x4400 ≤ index && index < 0x4800 then keep (d.setSlot (index - 0x4400) v) m.2 c index sub
  else if 0x4800 ≤ index && index < 0x4810 && sub = 1 then keep (d.setAlmanac (index - 0x4800) v) m.2 c index sub
  else storeSub (d.library, m.2) c index sub v

/-- An accepted value of a subindex takes effect. -/
def applySub (m : Mach) (c : Client) (index sub : Nat) (v : Bytes) : Mach × Ans :=
  if index < 0x2100 then applyA m c index sub v
  else if index < 0x2300 then applyB m c index sub v
  else if index < 0x2800 then applyC m c index sub v
  else if index < 0x2A00 then applyD m c index sub v
  else if index < 0x3000 then applyE m c index sub v
  else applyF m c index sub v

end Sys2Proof.Machine
end

