-- ==== Sys2Proof/Machine/Views.lean ====
section
/-!
DEFINITION. What a read of an object shows (the object tables of every chapter): the values that the machine's state
holds elsewhere than in the object stores, and the stored value of every other object. A DOMAIN_POWER, an HV supply or
a received power that no command brings is a free value of the read.
-/

namespace Sys2Proof.Machine
open Sys2Proof

/-- The number of a constructor in a list that is declared in the order of the spec's codes. -/
def codeIn {α : Type} [DecidableEq α] (l : List α) (x : α) : Nat := l.findIdx (fun y => decide (y = x))

/-- The low bits of a free reading. -/
def Dev.reading (d : Dev) (index sub bytes : Nat) : Bytes := le bytes (Config.measured (objKey index sub) d.fresh)

/-- The value that the stores hold for an object, at its full size. -/
def Dev.stored (d : Dev) (index sub : Nat) : Bytes :=
  match objRow index sub with
  | none => []
  | some r => match r.type with
    | .num n => le n (d.nat index sub)
    | .int n => leI n (d.num index sub)
    | .bool => le 1 (d.nat index sub)
    | .real n => le n (d.nat index sub)
    | .str n => padTo n (d.oct index sub)
    | .oct n =>
      -- SHARD_MAP's default is 64 bytes 0xFF (Table 3.12)
      if 0x4800 ≤ index && index < 0x4810 && sub = 3 && (d.oct index sub).isEmpty then List.replicate n 0xFF
      else padTo n (d.oct index sub)
    | .dom _ => d.oct index sub

/-! ### Chapter 2 -/

/-- DIRECTOR_STATUS (Table 2.11). -/
def Dev.statusWord (d : Dev) : Nat :=
  d.dir.state.code + 16 * d.dir.cmdResult + 2 ^ 7 * b2n d.twin.ownDrive + 2 ^ 8 * b2n d.twin.ownColl + 2 ^ 9 * b2n d.timeLocked +
    2 ^ 10 * b2n d.arrayMember + 2 ^ 11 * b2n (!d.faults.latched.isEmpty) + 2 ^ 12 * b2n (d.power.level != .normal) +
    2 ^ 13 * b2n (d.leader == some d.chip) + 2 ^ 15 * b2n d.dir.cmdAck

/-- VERSION of a manifest (Table 15.7). -/
def versionOf (m : Bytes) : Bytes := slice m 24 16

/-- VERSION of the running image; zeros where no image was verified. -/
def Dev.softwareVersion (d : Dev) : Bytes := if d.manifest.isEmpty then zeros 16 else versionOf d.manifest

/-- The identity objects (R450) and the Director's (R63). -/
def Dev.view02 (d : Dev) (who : Option Session) (index sub : Nat) : Option Bytes :=
  match index, sub with
  | 0x1000, 0 => some (le 4 0)
  | 0x1008, 0 => some (padTo 8 (ascii (if d.isC then "LD-512C" else "LD-512S")))
  | 0x1009, 0 => some (padTo 4 (ascii "C1"))
  | 0x100A, 0 => some (d.softwareVersion)
  | 0x1018, 2 => some (le 4 (if d.isC then 0x05120043 else 0x05120053))
  | 0x1018, 3 => some (le 4 (0x00C10000 + d.module.revision))
  | 0x1018, 4 => some (le 4 (Config.perModule 0))
  | 0x2000, 1 => some (le 1 (if d.isC then 1 else 2))
  | 0x2000, 3 => some (padTo 16 d.module.serial)
  | 0x2000, 4 => some (le 2 (if d.isC then 384 else 96))
  | 0x2000, 5 => some d.imageHash
  | 0x2001, 1 => some (le 1 d.module.straps)
  | 0x2001, 2 => some (le 2 d.chip)
  | 0x2010, 0 => some (le 2 d.dir.control)
  | 0x2011, 0 => some (le 2 d.statusWord)
  | 0x2012, 0 => some (le 8 d.dir.since)
  | 0x2013, 0 => some (le 1 d.dir.cause.code)
  | 0x2020, 1 => some (le 1 (match who with | some s => s.role.code | none => 0))
  | 0x2020, 5 => some (le 1 (maskOf ((upto 4).filter (fun r => (tfind d.net.keys (r + 1)).isSome))))
  | 0x2020, 6 => some (le 2 (match who with | some s => s.scope | none => 0))
  | _, _ =>
    if 0x1600 ≤ index && index < 0x1A04 || index = 0x1C12 || index = 0x1C13 then
      if sub = 0 then none else some (le (if index < 0x1C00 then 4 else 2) ((d.pdoList index).getD (sub - 1) 0))
    else if 0x2080 ≤ index && index < 0x2090 then
      let j := d.job (index - 0x2080)
      match sub with
      | 1 => some (le 1 j.state.code)
      | 3 => some (le 4 j.tag)
      | 4 => some (le 128 j.ports)
      | 5 => some (le 2 (popCount 1024 j.ports))
      | 6 => some (le 8 j.startOrbit)
      | 7 => some (le 1 j.cause)
      | _ => none
    else none

/-! ### Chapter 3 -/

/-- One plane of a port in CIRCUIT_TABLE: SOUTH, STATE and LANES. -/
def Dev.circuitCell (d : Dev) (n plane : Nat) : Bytes :=
  match d.circuitOf n plane with
  | some c => le 2 c.south ++ le 1 c.state.code ++ le 1 c.lanes
  | none => le 2 0xFFFF ++ le 2 0

/-- CIRCUIT_TABLE of a job. -/
def Dev.circuitTable (d : Dev) (j : Nat) : Bytes :=
  (upto 512).flatMap (fun n =>
    if d.owner n = some j then d.circuitCell n 0 ++ d.circuitCell n 1 else le 2 0xFFFF ++ le 2 0 ++ le 2 0xFFFF ++ le 2 0)

/-- Constellations and almanacs (R97). -/
def Dev.view03 (d : Dev) (index sub : Nat) : Option Bytes :=
  if 0x4400 ≤ index && index < 0x4800 then
    let s := index - 0x4400
    match sub with
    | 2 => some (le 1 (if (d.slot s).isEmpty then 255 else d.slotJob s))
    | 3 => some (le 4 (if (d.slot s).isEmpty then 0 else fld (d.slot s) 12 4))
    | _ => none
  else if 0x4800 ≤ index && index < 0x4810 then
    let j := index - 0x4800
    let r := d.run j
    match sub with
    | 4 => some (le 1 r.variant)
    | 5 => some (le 4 r.next)
    | 6 => some (le 8 r.zenith)
    | 7 => some (le 8 r.loop)
    | 8 => some (le 8 r.commits)
    | 9 => some (le 32 (maskOf r.detours))
    | 0x0A => some (d.circuitTable j)
    | 0x0B => some (le 4 (d.job j).period)
    | _ => none
  else none

/-! ### Chapter 4 -/

/-- A count of 2⁻³² ns in ps, rounded down. -/
def inPs (x : Int) : Int := x * 1000 / 2 ^ 32

/-- LEADER_CHIP (0x2200:06): the root's own chip, else as the parent's last response told, else as discovery shows it (DEDUCED, log
70: R125 gives no source). -/
def Dev.leaderChip (d : Dev) : Nat :=
  if d.time.isRoot then d.chip else if d.nat 0x2200 6 = 0 then d.leader.getD d.chip else d.nat 0x2200 6

/-- TIME_SOURCE (0x2200:03). -/
def Dev.timeSource (d : Dev) : Nat :=
  if d.time.isRoot then (match d.time.selected with | some k => k + 1 | none => 0)
  else match d.time.parent with | none => 0 | some 6 => 4 | some _ => 3

/-- The timing unit (R125). -/
def Dev.view04 (d : Dev) (index sub : Nat) : Option Bytes :=
  match index, sub with
  | 0x2200, 1 => some (le 8 d.now)
  | 0x2200, 2 => some (le 1 (codeIn [TState.free, .acquiring, .locked, .holdover] d.time.state))
  | 0x2200, 3 => some (le 1 d.timeSource)
  | 0x2200, 4 => some (le 1 (d.time.parent.getD 255))
  | 0x2200, 5 => some (le 1 (d.time.depth.getD 255))
  | 0x2200, 6 => some (le 2 d.leaderChip)
  | 0x2200, 0x0E => some (le 1 d.ptpStatus)
  | 0x2200, 0x0A => some (le 8 d.time.holdoverAt)
  | 0x2200, 0x0B => some (le 8 d.time.increment)
  | 0x2220, 2 => some (le 1 (d.time.selected.getD 255))
  | 0x2230, 1 => some (le 8 d.time.newest.epoch)
  | 0x2230, 2 => some (le 4 d.time.newest.period)
  | 0x2230, 3 => some (le 8 d.orbitNow)
  | 0x2230, 4 => some (le 4 d.time.newest.seq)
  | 0x2230, 5 => some (le 8 d.time.newest.validFrom)
  | 0x2230, 7 => some (le 8 d.cycleNow)
  | 0x2240, 1 => some (le 1 d.time.strobes.length)
  | _, _ =>
    if index = 0x2210 || index = 0x2211 then
      let x := d.ptp (index - 0x2210)
      match sub with
      | 6 => some (le 1 (codeIn [PState.disabled, .listening, .tracking, .qualified, .jumped, .disqualified] x.state))
      | 7 => some (le 8 x.gm)
      | 8 => some (le 1 x.clockClass)
      | 9 => some (le 2 x.steps)
      | 0x0A => some (leI 8 (inPs x.offset))
      | _ => none
    else if index = 0x2218 || index = 0x2219 then
      match sub with
      | 3 => some (le 6 (Config.perModule (index - 0x2217)))
      | 4 => some (d.reading index 4 0 ++ le 1 (Config.measured (objKey index 4) d.fresh % 2))
      | _ => none
    else none

/-! ### Chapter 5 -/

/-- AXIS_FLAGS (R152). -/
def Axis.flags (x : Axis) : Nat :=
  b2n x.missFlag + 2 * x.misses + 8 * b2n x.intClamp + 16 * b2n x.outSat + 32 * b2n x.sat + 64 * b2n (x.feCount != 0) +
    128 * x.faultCause

/-- The axis objects, heads, boards and slices (R153). -/
def Dev.view05 (d : Dev) (index sub : Nat) : Option Bytes :=
  if 0x3000 ≤ index && index < 0x3800 then
    let h := index - 0x3000
    let a := d.axis (2 * h + (sub + 1) % 2)
    if 1 ≤ sub && sub ≤ 2 then some (le 1 a.state.code)
    else if 3 ≤ sub && sub ≤ 4 then some (leI 4 a.y)
    else if 5 ≤ sub && sub ≤ 6 then some (leI 4 (a.rLast / 2 ^ 25))
    else if 7 ≤ sub && sub ≤ 8 then some (leI 4 a.output)
    else if 9 ≤ sub && sub ≤ 0x0A then some (leI 4 (a.optCorr / 2 ^ 25))
    else if 0x0B ≤ sub && sub ≤ 0x0C then some (le 2 a.flags)
    else if 0x10 ≤ sub && sub ≤ 0x17 then some (padTo 80 (d.coefSet (axisOf h ((sub - 0x10) / 4)) ((sub - 0x10) % 4)))
    else if sub = 0x0E then some (le 1 ((d.axis (2 * h)).set + 4 * (d.axis (2 * h + 1)).set))
    else none
  else if 0x3D00 ≤ index && index < 0x3D10 then
    let b := index - 0x3D00
    match sub with
    | 1 => some (le 1 (d.board b).state.code)
    | 6 => some (d.reading index 6 2)
    | _ => none
  else if index = 0x2C00 && 1 ≤ sub && sub ≤ 4 then
    some (le 1 (codeIn [SState.off, .running, .fault] (d.eng.slices.getD (sub - 1) .off)))
  else if index = 0x2C07 && sub = 1 then some (sha384 (d.paramBody.take 1331200))
  else none

/-! ### Chapter 6 -/

/-- The ring banks (R179). -/
def Dev.view06 (d : Dev) (index sub : Nat) : Option Bytes :=
  if 0x3800 ≤ index && index < 0x3C00 then
    let p := index - 0x3800
    let x := d.bank p
    let q := d.podAt (p / 16)
    let ring := fun (k : Nat) => p % 16 * 11 + k
    match sub with
    | 1 => some (le 1 (b2n x.saOpen + 2 * b2n x.sbOpen))
    | 2 => some (le 1 x.route)
    | 3 => some ((upto 11).flatMap (fun k => le 2 (tget 0 q.junction (ring k))))
    | 4 => some ((upto 11).flatMap (fun k => le 2 (tget 0 q.heater (ring k))))
    | 7 => some (leI 2 x.tapA ++ leI 2 x.tapB)
    | 8 => some (le 1 (d.monitorMask p))
    | _ => none
  else if 0x3C00 ≤ index && index < 0x3C40 then
    let q := index - 0x3C00
    match sub with
    | 8 => some (le 1 (codeIn [PodState.absent, .inService, .outOfService] (d.podAt q).state))
    | _ => none
  else none

/-! ### Chapter 7 -/

/-- One entry of COMET_TABLE. -/
def Comet.row (c : Comet) : Bytes :=
  le 2 c.north ++ le 2 c.south ++ le 1 c.plane ++ le 1 c.state.code ++ le 1 c.job ++
    le 1 (b2n c.waypoint + 2 * b2n c.searching + 4 * b2n c.crossing) ++ le 8 c.zenith

/-- The comets of a job's entry in progress. -/
def Dev.entryComets (d : Dev) (j : Nat) : List Comet := d.arr.comets.filter (fun c => c.job = j && c.entry = (d.commit j).entry)

/-- The committing unit (R207). COMETS_READY counts the comets that have reached READY, those that are STAGED since included (DESIGN
CHOICE, log 88). -/
def Dev.view07 (d : Dev) (index sub : Nat) : Option Bytes :=
  if 0x2610 ≤ index && index < 0x2620 then
    let j := index - 0x2610
    let c := d.commit j
    match sub with
    | 1 => some (le 4 c.entry)
    | 2 => some (le 8 c.z)
    | 3 => some (le 1 c.state.code)
    | 4 => some (le 1 c.reason)
    | 5 => some (le 2 (d.entryComets j).length)
    | 6 => some (le 2 ((d.entryComets j).filter (fun x => x.state == .ready || x.state == .staged)).length)
    | 7 => some (le 1 c.lastOutcome)
    | 8 => some (le 8 c.lastZ)
    | _ => none
  else match index, sub with
    | 0x2601, 1 => some (le 8 d.liveSet)
    | 0x2601, 2 => some (le 4 d.leaderEpoch)
    | 0x2601, 3 => some (le 8 d.arr.leaderSince)
    | 0x2620, 1 => some (d.arr.comets.flatMap Comet.row)
    | _, _ => none

/-! ### Chapters 8 and 9 -/

/-- The optics (R232). -/
def Dev.view08 (d : Dev) (index sub : Nat) : Option Bytes :=
  if 0x2A01 ≤ index && index < 0x2A05 then
    let s := d.laser (index - 0x2A01)
    match sub with
    | 1 => some (le 1 (codeIn [LaserState.absent, .present, .enabling, .lit, .safe, .fault, .refused] s.state))
    | 3 => some (padTo 16 s.vendor)
    | 4 => some (padTo 16 s.part)
    | 5 => some (padTo 16 s.serial)
    | 6 => some (le 1 s.lit)
    | 7 => some ((upto 8).flatMap (fun m => leI 2 (s.power.getD m 0)))
    | 8 => some (le 1 s.alarm)
    | 9 => some (leI 2 s.temp)
    | _ => none
  else if 0x2A10 ≤ index && index < 0x2A37 then
    let l := index - 0x2A10
    let x := d.link l
    -- the service class is absent on an LD-512S: DOWN and zero (R208)
    if l < 32 && !d.isC then (objRow index sub).map (fun r => zeros ((r.type.size).getD 0))
    else match sub with
    | 1 => some (le 1 (codeIn [LinkState.down, .training, .up, .degraded] x.state))
    | 2 => some ((upto 8).flatMap (fun k =>
        le 1 (codeIn [LaneState.dark, .locking, .aligning, .active, .settling, .calibrating, .dropped] (d.lane (d.ctxOfLane l k) k).state)))
    | 3 => some (le 1 (x.active ||| (if l < 32 then (d.link (64 + l)).active else 0)))
    | 4 => some (le 1 (maskOf ((upto 8).filter (fun k => (d.lane (d.ctxOfLane l k) k).rxAligned))))
    | 5 => some (le 2 x.partnerChip)
    | 6 => some (le 1 x.partnerTwin)
    | 7 => some ((upto 8).flatMap (fun k => if k < lanesOf l then d.reading index (0x100 + k) 2 else leI 2 (-9999)))
    | 0x0C => some (le 8 x.upSince)
    | _ => none
  else if 0x2A40 ≤ index && index < 0x2A80 then
    match sub with
    | 1 =>
      let q := index - 0x2A40
      some (le 1 (if d.podLit q then maskOf ((upto 4).filter (fun r => (d.probeAt (4 * q + r)).tx.state == .active)) else 0))
    | 5 => some (d.reading index 5 8)
    | _ => none
  else none

/-- Ports and discovery (R260, R261). -/
def Dev.view09 (d : Dev) (index sub : Nat) : Option Bytes :=
  if 0x4000 ≤ index && index < 0x4400 then
    let p := index - 0x4000
    let x := d.port p
    let i := x.partner
    match sub with
    | 1 => some (le 1 x.state.code)
    | 2 => some (le 2 (match i with | some i => i.chip | none => 0xFFFF))
    | 3 => some (le 1 (match i with | some i => i.link | none => 0xFF))
    | 4 => some (padTo 16 (match i with | some i => i.serial | none => []))
    | 5 => some (le 4 (match i with | some i => i.vendor | none => 0))
    | 6 => some (le 2 (match i with | some i => i.caps | none => 0))
    | 9 => some (le 8 x.since)
    | 0x0A => some (le 2 x.lastChip)
    | 0x0B => some (le 1 x.lastLink)
    | 0x0C => some (le 1 x.detachCause)
    | 0x0E => some (le 1 x.attempt)
    | 0x0F => some (le 1 (b2n x.light))
    | 0x10 => some (d.reading index 0x10 2)
    | 0x15 => some (le 1 x.misses)
    | _ => none
  else match index, sub with
    | 0x2B10, 2 => some (le 1 (b2n d.disc.confirmed))
    | 0x2B10, 3 => some (le 8 d.disc.confirmedSince)
    | 0x2B10, 4 => some (le 4 d.moduleId)
    | _, _ =>
      if index = 0x2B11 && 1 ≤ sub && sub ≤ 7 then
        let n := d.neighbour (sub - 1)
        -- a link with no neighbour reads as Table 9.13's default (log 100)
        some (le 4 (if n.status == .down then 0xFFFF else n.chip + 2 ^ 16 * n.twin + 2 ^ 17 * n.port +
          2 ^ 20 * codeIn [NState.down, .waiting, .confirmed, .miswired, .duplicate] n.status))
      else none

/-! ### Chapters 10 and 11 -/

/-- What an object of a unit that a variant lacks reads: 0 (R291). -/
def absentValue (index sub : Nat) : Option Bytes :=
  (objRow index sub).map (fun r => match r.type with | .dom _ => [] | t => zeros (t.size.getD 0))

/-- The collective engine (R291): on an LD-512S all but the objects of 0x2940 read 0 or NONE. -/
def Dev.view10 (d : Dev) (index sub : Nat) : Option Bytes :=
  if !d.isC && index != 0x2940 then (if 0x2920 ≤ index && sub = 4 then some [0xFF] else absentValue index sub)
  else if 0x2910 ≤ index && index < 0x2920 then
    let x := d.engJob (index - 0x2910)
    match sub with
    | 3 => some (le 1 (codeIn [CollState.none, .planned, .loading, .ready, .active, .fault] x.state))
    | 5 => some (le 4 x.lr)
    | 7 => some (le 8 x.stepNow)
    | 8 => some (le 8 x.es)
    | 9 => some (le 8 x.updated)
    | 0x0A => some (le 8 x.count)
    | 0x0B => some (le 8 x.norm)
    | 0x0C => some (le 4 x.clip)
    | 0x0D => some (le 1 x.result)
    | 0x0E => some (le 4 x.skips)
    | 0x0F => some (le 1 x.gen)
    | 0x10 => some (le 8 x.covered.length)
    | 0x11 => some (le 8 (sumN (x.extents.map (·.len))))
    | _ => none
  else if 0x2920 ≤ index && index < 0x2940 then
    let n := index - 0x2920
    match sub with
    | 3 => some (le 4 (d.svcQueue n).length)
    | 4 => some (le 1 ((d.svcJob n).getD 255))
    | _ => none
  else match index, sub with
    | 0x2900, 1 => some (le 1 (codeIn [EState.off, .selftest, .ready, .fault] d.coll.state))
    | 0x2940, 2 => some ((upto 64).flatMap (fun m => le 1 (codeIn [MState.empty, .filling, .fetching, .valid, .bad] (d.model m).state)))
    | 0x2940, 4 => some (le 8 d.storeBytes)
    | _, _ => none

/-- RETIRE_LIST: the pages of a stack in the order of their spares (R309). -/
def Dev.retireList (d : Dev) (s : Nat) : Bytes := leList 4 (tget [] d.mem.retired s)

/-- STACK_STATE of a stack that is present: TRAINING while its domain ramps (R306). -/
def Dev.stackShown (d : Dev) (s : Nat) : StackState :=
  if d.domain (if s < 4 then 12 else 13) == .ramping then .training else tget .off d.mem.stackOf s

/-- Memory (R313): the stacks that the variant does not have read ABSENT and zero. VALID_BYTES counts the valid blocks of a stack. How
many blocks the reserved area holds for replacement, and the erase cycles, are free values (log 105). -/
def Dev.view11 (d : Dev) (h : Hbm) (index sub : Nat) : Option Bytes :=
  if 0x2810 ≤ index && index < 0x2818 then
    let s := index - 0x2810
    let n := (tget [] d.mem.retired s).length
    if d.stackCount ≤ s then (objRow index sub).map (fun r => zeros ((r.type.size).getD 0))
    else match sub with
    | 1 => some (le 1 (codeIn [StackState.absent, .off, .training, .ready, .failed] (d.stackShown s)))
    | 2 => some (le 8 (4096 * (d.validPages h s).length))
    | 6 => some (le 2 n)
    | 7 => some (le 2 (4096 - n))
    | _ => none
  else if 0x2841 ≤ index && index < 0x2849 && sub = 1 then some (d.retireList (index - 0x2841))
  else if index = 0x2850 && sub = 4 then some (le 2 (Config.openNat 0x2850 % 65536 - d.nat 0x2850 3))
  else if index = 0x2850 && sub = 5 then some (d.reading index sub 4)
  else none

/-! ### Chapters 12 and 13 -/

/-- One entry of FAULT_LIST (R320). -/
def Latch.bytes (l : Latch) : Bytes := le 8 l.seq ++ le 2 l.code ++ le 1 l.cls ++ le 1 (b2n l.active) ++ le 2 l.index ++ zeros 2

/-- Faults, recovery and the logs (R340). -/
def Dev.view12 (d : Dev) (who : Option Session) (index sub : Nat) : Option Bytes :=
  let f := d.faults
  if 0x2320 ≤ index && index < 0x2330 then
    let j := index - 0x2320
    match sub with
    | 4 => some (le 1 (match f.restarts.find? (fun r => r.job = j) with | some r => r.state | none => 0))
    | 5 => some (le 32 (maskOf (d.run j).replanned))
    | _ => none
  else match index, sub with
    | 0x2300, 1 => some (le 1 (match f.current, f.parked with | none, _ => 0 | some _, none => 1 | some _, some _ => 2))
    | 0x2300, 2 => some (le 2 (match f.current with | some e => e.code | none => 0))
    | 0x2300, 3 => some (le 1 f.queue.length)
    | 0x2300, 0x0A => some (le 4 f.epoch)
    | 0x2301, 1 => some (d.latches.flatMap Latch.bytes)
    | 0x2330, 1 => some (le 8 (match who with | some s => s.logCursor | none => 0))
    | 0x2330, 3 => some (le 8 f.pub.oldest)
    | 0x2330, 4 => some (le 8 (f.pub.next - 1))
    | 0x2330, 5 => some (le 4 f.pub.lost)
    | 0x2331, 1 => some (le 8 (match who with | some s => s.protCursor | none => 0))
    | 0x2331, 3 => some (le 8 f.prot.oldest)
    | 0x2331, 4 => some (le 8 (f.prot.next - 1))
    | 0x2331, 5 => some (le 4 f.prot.lost)
    | _, _ => none

/-- The code of a role (R354). -/
def TRole.code : TRole → Nat
  | .none => 0 | .syncing => 1 | .standby => 2 | .active => 3

/-- The twin (R366). -/
def Dev.view13 (d : Dev) (index sub : Nat) : Option Bytes :=
  let t := d.twin
  if 0x2530 ≤ index && index < 0x2540 then
    let x := d.mirror (index - 0x2530)
    match sub with
    | 1 => some (le 1 x.state)
    | 2 => some (le 8 (max x.bank0.1 x.bank1.1))
    | 3 => some (le 8 (min x.bank0.1 x.bank1.1))
    | 4 => some (le 8 x.bytes)
    | 5 => some (le 8 x.progress)
    | 7 => some (le 1 x.restore)
    | _ => none
  else match index, sub with
    | 0x2500, 1 => some (le 1 d.twinId)
    | 0x2500, 2 => some (le 1 t.drive.code)
    | 0x2500, 3 => some (le 1 t.coll.code)
    | 0x2500, 4 => some (le 1 t.twinDrive.code)
    | 0x2500, 5 => some (le 1 t.twinColl.code)
    | 0x2500, 6 => some (le 1 (b2n t.ownDrive + 2 * b2n t.ownColl + 4 * b2n t.lineDrive + 8 * b2n t.lineColl))
    | 0x2510, 4 => some (le 1 t.handover)
    | _, _ => none

/-! ### Chapters 14, 15 and 16 -/

/-- Domains, permits and heat (R387). -/
def Dev.view14 (d : Dev) (index sub : Nat) : Option Bytes :=
  let p := d.power
  if index = 0x2100 && 1 ≤ sub && sub ≤ 16 then
    some (le 1 (codeIn [DState.off, .ramping, .on, .quiescing, .failed, .absent] (d.domain (sub - 1))))
  else if index = 0x2101 && 1 ≤ sub && sub ≤ 16 then some (d.reading index sub 2)
  else if 0x2110 ≤ index && index < 0x2117 then
    match sub with
    | 1 => some (le 4 (d.capacity (index - 0x2110)))
    | 2 => some (le 4 (d.inUse (index - 0x2110)))
    | _ => none
  else match index, sub with
    | 0x2102, 1 => some (le 4 p.inputPower)
    | 0x2120, 2 => some (le 2 d.slewing)
    | 0x2130, 1 => some (leI 2 (p.temps.foldl max (p.temps.headD 0)))
    | 0x2130, 2 => some (padTo 32 (leIList 2 p.temps))
    | 0x2130, 3 => some (le 1 p.level.code)
    | 0x2130, 4 => some ((upto 8).flatMap (fun s => match p.hbmTemps[s]? with | some t => leI 2 t | none => le 2 0x8000))
    | 0x2130, 0x0B => some (le 8 p.levelSince)
    | _, _ => none

/-- The formats of SETTINGS (0) or LIBRARY (1) that the running image reads: its own and the lower ones it lists (R398). -/
def Dev.formatsRead (d : Dev) (kind : Nat) : Bytes :=
  if d.manifest.isEmpty then zeros 8
  else padTo 8 (leList 1 ((upto (fld d.manifest (44 + kind) 1 + 1)).filter (fun f => f != 0 && d.readsFormat kind f)))

/-- A field of the manifest that STAGING holds, or the value shown without one. -/
def Dev.stagedField (d : Dev) (empty : Nat) (f : Bytes → Nat) : Nat := if d.upd.staged.isEmpty then empty else f d.upd.staged

/-- The segments that STAGING holds valid. -/
def Dev.segmentsHeld (d : Dev) : List Nat := ((d.upd.slots.filter (·.valid)).map (·.index)).eraseDups

/-- Start-up and update (R412). -/
def Dev.view15 (d : Dev) (index sub : Nat) : Option Bytes :=
  let u := d.upd
  match index, sub with
  | 0x2400, 1 => some (le 1 (codeIn [UState.empty, .clearing, .receiving, .staged, .activating, .trial, .scanning] u.state))
  | 0x2400, 4 => some (if u.staged.isEmpty then zeros 48 else sha384 u.staged)
  | 0x2400, 5 => some (if u.staged.isEmpty then zeros 16 else versionOf u.staged)
  | 0x2400, 6 => some (le 4 (d.stagedField 0 manSegments))
  | 0x2400, 7 => some (le 4 d.segmentsHeld.length)
  | 0x2400, 8 => some (padTo 512 (le 512 (maskOf d.segmentsHeld)))
  | 0x2400, 9 => some (le 4 (match (upto (d.stagedField 0 manSegments)).find? (fun i => !d.segmentsHeld.contains i) with
      | some i => i | none => 0xFFFFFFFF))
  | 0x2400, 0x0A => some (le 2 u.slots.length)
  | 0x2401, 1 => some (le 1 (codeIn [BootState.normal, .activating, .trial, .fallenBack] u.boot.state))
  | 0x2401, 2 => some (le 1 u.region)
  | 0x2401, 3 => some (if u.fallbackManifest.isEmpty then zeros 16 else versionOf u.fallbackManifest)
  | 0x2401, 4 => some (if u.fallbackManifest.isEmpty then zeros 48 else sha384 u.fallbackManifest)
  | 0x2401, 5 => some (le 1 u.boot.trialStarts)
  | 0x2401, 6 => some (le 4 u.boot.securityMin)
  | 0x2401, 7 => some (le 1 (codeIn [StartKind.cold, .warm, .thermal, .watchdog] u.kind))
  | 0x2401, 8 => some (le 4 (match u.startDone with | some t => (t - u.startAt) / Config.ms | none => 0))
  | 0x2401, 9 => some (le 4 u.count)
  | 0x2401, 0x0A => some (d.formatsRead 0 ++ d.formatsRead 1)
  | 0x2403, 2 => some (le 4 (if u.state == .trial then (u.windowEnd - d.now) / Config.sec else 0))
  | 0x2404, 1 => some (le 8 u.settingsSeq)
  | _, _ => none

/-- The recorder (R430). -/
def Dev.view16 (d : Dev) (index sub : Nat) : Option Bytes :=
  let r := d.recr
  match index, sub with
  | 0x2700, 1 => some (le 1 r.state.code)
  | 0x2701, 3 => some (le 4 d.ringWindow)
  | 0x2703, 1 => some (match r.capture with
      | none => zeros 64
      | some c => padTo 64 (le 8 c.cycle ++ le 2 c.event ++ le 1 (b2n c.cut) ++ zeros 5 ++ le 8 c.seq ++ le 8 c.first ++ le 8 c.last ++ le 8 c.bytes))
  | 0x2703, 4 => some (le 4 (sumN ((r.ring.filter (fun x => d.cycleNow < x.cycle + 20000)).map Rec.len) / 1000000))
  | 0x2703, 5 => some (paramHash d.paramBody)
  | 0x2710, 1 => some (le 1 r.replay)
  | 0x2710, 6 => some (padTo 64 r.report)
  | _, _ => none

/-! ### The view of an object -/

/-- The value of an object that the state holds outside the object stores. -/
def Dev.derived (d : Dev) (h : Hbm) (who : Option Session) (index sub : Nat) : Option Bytes :=
  if index < 0x2100 then d.view02 who index sub
  else if index < 0x2200 then d.view14 index sub
  else if index < 0x2300 then d.view04 index sub
  else if index < 0x2400 then d.view12 who index sub
  else if index < 0x2500 then d.view15 index sub
  else if index < 0x2600 then d.view13 index sub
  else if index < 0x2700 then d.view07 index sub
  else if index < 0x2800 then d.view16 index sub
  else if index < 0x2900 then d.view11 h index sub
  else if index < 0x2A00 then d.view10 index sub
  else if index < 0x2B00 then d.view08 index sub
  else if index < 0x2C00 then d.view09 index sub
  else if index < 0x3800 then d.view05 index sub
  else if index < 0x3D00 then d.view06 index sub
  else if index < 0x4000 then d.view05 index sub
  else if index < 0x4400 then d.view09 index sub
  else d.view03 index sub

/-- The bytes that a read of an object shows; subindex 0 of an object with others is its count. -/
def Dev.view (d : Dev) (h : Hbm) (who : Option Session) (index sub : Nat) : Bytes :=
  match d.derived h who index sub with
  | some b => b
  | none => if sub = 0 && (objRow index 0).isNone then le 1 (topSub index) else d.stored index sub

end Sys2Proof.Machine
end

