-- ==== Sys2Proof/Machine/Mailbox.lean ====
section
/-!
DEFINITION. The mailbox (R41 to R44, R54 to R58): requests are handled one at a time in arrival order; each is checked in
two stages and takes effect before its response leaves.
-/

namespace Sys2Proof.Machine
open Sys2Proof

/-! ### Reading the logs (R337) -/

/-- The 64 bytes of a log record (Table 12.7). -/
def LogRec.bytes (r : LogRec) : Bytes :=
  let b := le 8 r.seq ++ le 8 r.time ++ le 2 r.event ++ le 1 r.cls ++ le 1 r.flags ++ le 1 r.scope ++ le 1 r.level ++ le 2 r.index ++
    le 4 r.epoch ++ le 2 r.count ++ zeros 2 ++ padTo 28 r.detail
  b ++ le 4 (crc32 b)

/-- A record withheld by scope: SEQ is kept, bytes 8 to 59 are zero. -/
def LogRec.withheld (r : LogRec) : Bytes :=
  let b := le 8 r.seq ++ zeros 52
  b ++ le 4 (crc32 b)

/-- The stored records of a log in SEQ order. -/
def Log.records (l : Log) : List LogRec := (l.flash ++ l.buffer).filter (fun r => r.seq != 0)

/-- Whether a stretch of numbers includes some that may never have been assigned (R336). -/
def Log.unknown (l : Log) (a b : Nat) : Bool :=
  (match l.gap with | some (f, g, none) => f ≤ b && a ≤ g | _ => false) ||
  l.records.any (fun r => r.event = 0x0102 && fld r.detail 16 4 = 0xFFFFFFFF && fld r.detail 0 8 ≤ b && a ≤ fld r.detail 8 8)

/-- The records that a block returns from a SEQ on, with loss markers in place of missing stretches, and the next SEQ. -/
def Log.block (l : Log) : List LogRec → Nat → Nat → List LogRec × Nat
  | _, cur, 0 => ([], cur)
  | [], cur, _ => ([], cur)
  | r :: t, cur, n + 1 =>
    if r.seq < cur then l.block t cur (n + 1)
    else if r.seq = cur then
      let x := l.block t (cur + 1) n
      (r :: x.1, x.2)
    else
      let mark := lossMarker cur 0 cur (r.seq - 1) (if l.unknown cur (r.seq - 1) then none else some (r.seq - cur))
      match n with
      | 0 => ([mark], r.seq)
      | k + 1 =>
        let x := l.block t (r.seq + 1) k
        (mark :: r :: x.1, x.2)

/-- Whether a session may see a record: its job, or the owner of its port, lies in the session's scope. -/
def Dev.mayShow (d : Dev) (s : Session) (r : LogRec) : Bool :=
  match r.scope with
  | 1 => s.admits r.index
  | 2 => match d.owner r.index with | some j => s.admits j | none => true
  | _ => true

/-- A read of LOG_BLOCK or PROT_BLOCK: up to 256 records from the session's cursor, which advances past them. -/
def Dev.logBlock (d : Dev) (c : Client) (prot : Bool) : Dev × Bytes :=
  match d.session c with
  | none => (d, [])
  | some s =>
    let l := if prot then d.faults.prot else d.faults.pub
    let x := l.block l.records (max 1 (if prot then s.protCursor else s.logCursor)) 256
    let b := x.1.flatMap (fun r => if prot || d.mayShow s r then r.bytes else r.withheld)
    (d.setCursor c prot x.2, b)

/-! ### Handling one request -/

/-- The values of a write with their subindices, none where the length does not match. -/
def valueOf (l : Option (List (Nat × Bytes))) (k : Nat) : Option Bytes := l.bind (fun t => tfind t k)

/-- The first-stage check of a session response (R54): the whole write is refused where it fails. -/
def Dev.refusesResponse (d : Dev) (c : Client) (index : Nat) (subs : List Nat) (data : Bytes) (vals : Option (List (Nat × Bytes))) : Bool :=
  index = 0x2020 && subs.contains 3 && !d.responseOk c ((valueOf vals 3).getD (if subs.length = 1 then data else []))

/-- The command subindices whose effect uses other values of the same write: JOB_COMMAND, REPLAY_COMMAND and COLL_COMMAND. -/
def actsLast (index sub : Nat) : Bool :=
  (0x2080 ≤ index && index < 0x2090 && sub = 2) || (index = 0x2710 && sub = 2) || (0x2910 ≤ index && index < 0x2920 && sub = 4)

/-- The accepted values take effect in ascending order of their subindices, a command after the values that it uses, for they were
checked with all of them in place; the response waits for the first that waits. A write of both Orbit fields makes one
definition (R44, R115). -/
def applyAll (m : Mach) (c : Client) (index : Nat) (values : List (Nat × Bytes)) : Mach × Ans :=
  let l := values.filter (fun e => !actsLast index e.1) ++ values.filter (fun e => actsLast index e.1)
  if index = 0x2230 && (tfind l 1).isSome && (tfind l 2).isSome then
    let d := m.1.newDef ((tfind l 1).map unle) ((tfind l 2).map unle)
    let m := (l.filter (fun e => !(e.1 = 1 || e.1 = 2))).foldl (fun (m : Mach) e => (applySub m c index e.1 e.2).1) (d, m.2)
    keep m.1 m.2 c index 1
  else
    l.foldl (fun (r : Mach × Ans) e =>
      let x := applySub r.1 c index e.1 e.2
      (x.1, if r.2 = .ok then x.2 else r.2)) (m, .ok)

/-- An SDO write is handled; `deep` tells that the validation it waited for has run (R85). -/
def handleWrite (m : Mach) (c : Client) (index sub : Nat) (complete : Bool) (data : Bytes) (deep : Bool) : Mach × Ans :=
  let d := m.1
  if complete && 1 < sub then (m, .abort 0x05040001)
  else
    let subs := writeSubs index sub complete
    let vals := splitValues index subs data
    let used := if index = 0x2020 && subs.contains 3 then d.consume c else d
    match subs.findSome? (fun k => d.refusesWrite c index k (valueOf vals k).isSome ((valueOf vals k).getD [])) with
    | some cause => ((used, m.2), .refuse cause)
    | none =>
      if d.refusesResponse c index subs data vals then ((used, m.2), .refuse causeResponse)
      else
        let w := d.withValues index (vals.getD [])
        match subs.findSome? (fun k => (d.checkSub w deep complete index k (valueOf vals k)).map (fun e => (k, e))) with
        | some (k, code) =>
          ((used.noteFault w deep index k ((valueOf vals k).getD []) code, m.2), .abort code)
        | none =>
          let l := (vals.getD []).filter (fun e => match objRow index e.1 with | some r => r.access != .ro | none => false)
          if !deep && l.any (fun e => d.awaitsValidation index e.1 e.2) then
            (m, .wait (.validation (.write c index sub complete data) d.now))
          else
            let r := applyAll (l.foldl (fun e x => e.cleanStore (objKey index x.1)) used, m.2) c index l
            let ports := 0x2080 ≤ index && index < 0x2090 && l.any (fun e => e.1 = 4)
            if ports && !(d.almanac (index - 0x2080)).isEmpty then
              if complete then ((r.1.1.validateJob (index - 0x2080), r.1.2), r.2)
              else (r.1, .wait (.validation (.write c index sub complete data) d.now))
            else r

/-- The almanac of a job whose port map was written has been validated (R85); the response then waits for the store. -/
def portsValidated (m : Mach) (c : Client) (index sub : Nat) : Mach × Ans :=
  let d := m.1.validateJob (index - 0x2080)
  ((d, m.2), if d.awaitsCopy 3 (index - 0x2080) then .wait (.store c index sub (storeKey 3 (index - 0x2080)) d.now) else .ok)

/-- The transfer of a client. -/
def Dev.transferOf (d : Dev) (c : Client) : Option Transfer := d.net.transfers.find? (fun t => t.client == c)

/-- A client's transfer is dropped. -/
def Dev.dropTransfer (d : Dev) (c : Client) : Dev :=
  { d with net := { d.net with transfers := d.net.transfers.filter (fun t => t.client != c) } }

/-- A segment of a download (R42, R43, R57): refused as a write is, checked for its toggle bit, added; the last one is the
write. DESIGN CHOICE (log 93): a transfer above 2 MiB, for which R42 gives no code, is aborted with 0x06070010. -/
def handleSegment (m : Mach) (c : Client) (index sub total : Nat) (toggle last : Bool) (data : Bytes) : Mach × Ans :=
  let d := m.1
  let open_ := (d.transferOf c).filter (fun t => t.index = index && t.sub = sub)
  let t := open_.getD { client := c, index := index, sub := sub, data := [], total := total, toggle := false, lastAt := d.now }
  let drop := d.dropTransfer c
  match d.refusesWrite c index sub false [] with
  | some cause => ((drop, m.2), .refuse cause)
  | none =>
    if 2 ^ 21 < t.total then ((drop, m.2), .abort 0x06070010)
    else if toggle != t.toggle then ((drop, m.2), .abort 0x05030000)
    else
      let got := t.data ++ data
      if t.total < got.length || (last && got.length != t.total) then ((drop, m.2), .abort 0x06070010)
      else if last then handleWrite (drop, m.2) c index sub false got false
      else
        let n := { t with data := got, toggle := !t.toggle, lastAt := d.now }
        (({ drop with net := { drop.net with transfers := drop.net.transfers ++ [n] } }, m.2), .ok)

/-- What one subindex reads: a fresh SESSION_CHALLENGE, a block of a log from the session's cursor, or what the object shows. -/
def readSub (m : Mach) (c : Client) (index sub : Nat) : Mach × Bytes :=
  let d := m.1
  if index = 0x2020 && sub = 2 then
    let b := d.randomBytes 16
    let d := (d.consume c).drawn 16
    (({ d with net := { d.net with challenges := d.net.challenges ++ [{ client := c, bytes := b, issued := d.now }] } }, m.2), b)
  else if (index = 0x2330 || index = 0x2331) && sub = 2 then
    let r := d.logBlock c (index = 0x2331)
    ((r.1, m.2), r.2)
  else ((d.drawn 1, m.2), d.view m.2 (d.session c) index sub)

/-- The flash pages that a read of LOG_BLOCK or PROT_BLOCK goes to, read; whether all of them read good (R312). -/
def Dev.readLogPages (d : Dev) (c : Client) (index : Nat) (subs : List Nat) : Dev × Bool :=
  if (index = 0x2330 || index = 0x2331) && subs.contains 2 then
    let prot := decide (index = 0x2331)
    let l := if prot then d.faults.prot else d.faults.pub
    let from_ := match d.session c with | some s => max 1 (if prot then s.protCursor else s.logCursor) | none => 1
    let pages := chunks 256 l.flash.length l.flash
    let wanted := pages.filter (fun p => p.any (fun r => decide (from_ ≤ r.seq) && decide (r.seq < from_ + 256)))
    d.readFlash (fun q => match q with
      | .log b n => b == prot && wanted.any (fun p => p.any (fun r => r.seq == n && r.seq != 0))
      | _ => false)
  else (d, true)

/-- The values of a read in ascending order, each at its full size (R44). -/
def readSubs (m : Mach) (c : Client) (index : Nat) (l : List Nat) : Mach × Bytes :=
  l.foldl (fun (r : Mach × Bytes) k => let x := readSub r.1 c index k; (x.1, r.2 ++ x.2)) (m, [])

/-- A read, of one subindex or of all from 0 or 1 (R44): the request is refused at the first stage where any of them would be;
then an object that does not exist, and a WO object in the range, are answered with their aborts (R56, R59). -/
def handleRead (m : Mach) (c : Client) (index sub : Nat) (complete : Bool) : Mach × Ans :=
  let d := m.1
  if complete && 1 < sub then (m, .abort 0x05040001)
  else
    let subs := writeSubs index sub complete
    match subs.findSome? (fun k => d.refusesRead c index k) with
    | some cause => (m, .refuse cause)
    | none =>
      if !indexExists index then (m, .abort 0x06020000)
      else if subs.any (fun k => !subExists index k) then (m, .abort 0x06090011)
      else if subs.any (fun k => match objRow index k with | some r => r.access == .wo | none => false) then (m, .abort 0x06010001)
      else
        let x := subs.foldl (fun (r : Dev × Bool) k => let y := r.1.readStore (objKey index k); (y.1, r.2 || y.2)) (d, false)
        if x.2 then ((x.1, m.2), .abort 0x06060000)
        else
          let y := x.1.readLogPages c index subs
          if !y.2 then ((y.1, m.2), .abort 0x06060000)
          else
            let r := readSubs (y.1, m.2) c index subs
            (r.1, .data r.2)

/-- The CoE index of a data type (Table 2.5). -/
def typeCode : ObjType → Nat
  | .bool => 1 | .int 1 => 2 | .int 2 => 3 | .int 4 => 4 | .int _ => 0x15
  | .num 1 => 5 | .num 2 => 6 | .num 4 => 7 | .num _ => 0x1B
  | .real 4 => 8 | .real _ => 0x11 | .str _ => 9 | .oct _ => 0x0A | .dom _ => 0x0F

/-- Whether a client may read some subindex of an object. -/
def Dev.mayList (d : Dev) (c : Client) (index : Nat) : Bool := (indexReaders index).testBit (d.roleBit c) && d.inScope c index

/-- Every index of the dictionary. -/
def allIndices : List Nat := (dictionary.flatMap (fun r => (upto r.count).map (fun k => r.base + k))).eraseDups

/-- The SDO information services (R52): the list of the objects that the session may read, or the description of one
object or entry; an index that the session may not read is refused. An upload of an object has no row of its own in the table:
DESIGN CHOICE, it comes as a kind of this row (log 12). -/
def handleInfo (m : Mach) (c : Client) (k : InfoKind) (index sub : Nat) : Mach × Ans :=
  let d := m.1
  match k with
  | .list => (m, .data (leList 2 (allIndices.filter (d.mayList c))))
  | .object =>
    if !d.mayList c index then (m, .refuse causeObject)
    else match dictionary.find? (fun r => r.hasIndex index) with
      | some r => (m, .data (le 2 index ++ le 2 (typeCode r.type) ++ le 1 (topSub index) ++ ascii r.name))
      | none => (m, .refuse causeObject)
  | .entry =>
    if !d.mayList c index then (m, .refuse causeObject)
    else match d.refusesRead c index sub, objRow index sub with
    | some cause, _ => (m, .refuse cause)
    | none, some r =>
      (m, .data (le 2 index ++ le 1 sub ++ le 2 (typeCode r.type) ++ le 2 (8 * (r.type.size.getD 0)) ++ ascii r.name))
    | none, none => if subExists index sub then (m, .data (le 2 index ++ le 1 0 ++ le 2 5 ++ le 2 8)) else (m, .abort 0x06090011)
  | .upload complete => handleRead m c index sub complete

/-- The answer of an FoE file that the update unit takes. -/
def foeAns (c : Client) : FoeAnswer → Ans
  | .refuse => .refuse causeSignature
  | .answer n => .abort n
  | .program f => .wait (.foe c f)

/-- An FoE read of CAPTURE (R425). -/
def handleCapture (m : Mach) (c : Client) : Mach × Ans :=
  if !(m.1.roleBit c = 2 || m.1.roleBit c = 4) then (m, .refuse causeRight)
  else if m.1.net.ecat == .boot then (m, .abort 9)
  else if m.1.recr.state != .frozen then (m, .abort 4)
  else (m, .data m.1.captureFile)

/-- An FoE write of CAPTURE (R426). -/
def handleCaptureWrite (m : Mach) (c : Client) (b : Bytes) : Mach × Ans :=
  if !m.1.isMaintainer c then (m, .refuse causeRight)
  else if m.1.net.ecat == .boot then (m, .abort 9)
  else if !m.1.inState [.replay] || m.1.recr.state == .frozen then (m, .abort 4)
  else if m.1.nat 0x2701 2 < b.length then (m, .abort 3)
  else ((m.1.loadCapture b [], m.2), .abort 0)

/-- One request is handled. FoE answers are aborts with their error code, 0 for an acknowledgement. -/
def handleReq (m : Mach) (r : Req) : Mach × Ans :=
  let lift := fun (c : Client) (x : Dev × FoeAnswer) => (((x.1, m.2), foeAns c x.2) : Mach × Ans)
  match r with
  | .write c index sub complete data => handleWrite m c index sub complete data false
  | .segment c index sub total toggle last data => handleSegment m c index sub total toggle last data
  | .read c index sub complete => handleRead m c index sub complete
  | .info c k index sub => handleInfo m c k index sub
  | .unsupported _ _ => (m, .ok)
  | .manifest c data sigOk => lift c (m.1.takeManifest c (m.1.isMaintainer c) data sigOk)
  | .segmentFile c name data => lift c (m.1.takeSegment (m.1.isMaintainer c) name data)
  | .recovery c data sigOk => lift c (m.1.takeRecovery (m.1.isMaintainer c) data sigOk)
  | .capture c => handleCapture m c
  | .captureWrite c data => handleCaptureWrite m c data

/-- The client, index and subindex of a request, and whether it is an FoE request. -/
def Req.who : Req → Client × Nat × Nat × Bool
  | .write c i s _ _ => (c, i, s, false) | .segment c i s _ _ _ _ => (c, i, s, false) | .read c i s _ => (c, i, s, false)
  | .info c _ i s => (c, i, s, false) | .unsupported c _ => (c, 0, 0, false)
  | .manifest c _ _ => (c, 0, 0, true) | .segmentFile c _ _ => (c, 0, 0, true) | .recovery c _ _ => (c, 0, 0, true)
  | .capture c => (c, 0, 0, true) | .captureWrite c _ => (c, 0, 0, true)

/-- What leaves for an answer. A request for an unsupported protocol has a mailbox error, an unsupported service of CoE, the
mailbox type 3, an abort (R37, log 12). -/
def Req.output (r : Req) (a : Ans) : Option Output :=
  let w := r.who
  match r, a with
  | .unsupported c p, _ => some (if p = 3 then .abort c 0 0 0x05040001 else .mailboxError c 2)
  | .info c (.upload _) i s, .data b => some (.response c i s b)
  | .info c _ _ _, .data b => some (.info c b)
  | _, .ok => some (if w.2.2.2 then .foe w.1 0 [] else .response w.1 w.2.1 w.2.2.1 [])
  | _, .data b => some (if w.2.2.2 then .foe w.1 0 b else .response w.1 w.2.1 w.2.2.1 b)
  | _, .abort n => some (if w.2.2.2 then .foe w.1 n [] else .abort w.1 w.2.1 w.2.2.1 n)
  | _, _ => none

/-- A request that was handled is answered, or waits for its answer (R41, R57). -/
def answer (m : Mach) (r : Req) (a : Ans) : Mach :=
  let w := r.who
  let wait := fun (x : Waiting) => { m.1 with net := { m.1.net with waiting := some x } }
  match a with
  | .refuse cause => (wait (.refusal w.1 w.2.1 w.2.2.1 m.1.now w.2.2.2 cause), m.2)
  | .wait x => (wait x, m.2)
  | _ => match r.output a with
    | some o => (m.1.emit o, m.2)
    | none => m

/-- Whether the EtherCAT state has a mailbox for a request: Bootstrap only for FoE (R37, R40). -/
def Dev.takes (d : Dev) (r : Req) : Bool :=
  match d.net.ecat with
  | .init => false
  | .boot => r.who.2.2.2
  | _ => true

/-- The mailbox is served: while no answer is owed, the next request is handled; emergencies leave in between (R41, R47). -/
def serveMail : Nat → Mach → Mach
  | 0, m => (m.1.flushEmergencies, m.2)
  | n + 1, m =>
    if m.1.net.waiting.isSome then m
    else match m.1.net.mailbox with
      | [] => (m.1.flushEmergencies, m.2)
      | r :: t =>
        let d := { m.1.flushEmergencies with net := { m.1.flushEmergencies.net with mailbox := t } }
        let x := handleReq (d, m.2) r
        serveMail n (answer x.1 r x.2)

/-- The mailbox is served until it is empty or an answer is owed. -/
def serve (m : Mach) : Mach := serveMail (m.1.net.mailbox.length + 1) m

/-- A request of a client counts for its session's idle time (R53). -/
def Dev.touch (d : Dev) (c : Client) : Dev :=
  d.setSessions (d.net.sessions.map (fun s => if s.client == c then { s with lastReq := d.now } else s))

/-- A request arrives: it counts for its session's idle time (R53), and waits its turn (R41). -/
def request (m : Mach) (r : Req) : Mach :=
  if !m.1.takes r then (if m.1.net.ecat == .boot then (m.1.emit (.mailboxError r.who.1 2), m.2) else m)
  else
    let d := m.1.touch r.who.1
    serve ({ d with net := { d.net with mailbox := d.net.mailbox ++ [r] } }, m.2)

/-- The answer that was owed leaves, and the mailbox is served again. -/
def finish (m : Mach) (o : Output) : Mach :=
  serve (({ m.1 with net := { m.1.net with waiting := none } }).emit o, m.2)

/-- A request on the machine. -/
def State.request (s : State) (r : Req) : State := s.onMem fun d h => Machine.request (d, h) r

/-- An operation on the machine after which the mailbox is served. -/
def State.onServe (s : State) (f : Dev → Hbm → Mach) : State := s.onMem fun d h => serve (f d h)

/-- An SDO write of a client to one subindex, as a request. -/
def State.sdoWrite (s : State) (c : Client) (index sub : Nat) (data : Bytes) : State := s.request (.write c index sub false data)

end Sys2Proof.Machine
end

