-- ==== Sys2Proof/Machine/ProcessData.lean ====
section
/-!
DEFINITION. Process data and the EtherCAT state (R38 to R40, R45, R46): the mapped inputs as bytes, the mapped outputs
taken at a cycle start, and what leaving a state ends.
-/

namespace Sys2Proof.Machine
open Sys2Proof

/-! ### Inputs -/

/-- The bytes of the mapped inputs (R45). A session's own objects read as they do without a session. -/
def Dev.inputs (d : Dev) (h : Hbm) : Bytes :=
  (d.pdoEntries false).flatMap (fun e =>
    let p := pdoEntry e
    padTo (p.2.2 / 8) (d.view h none p.1 p.2.1))

/-- A control cycle has completed: what its inputs show stands for the next SYNC0 edge, or at once in the modes without
DC synchronisation (R46). -/
def Dev.cycleInputs (d : Dev) (h : Hbm) : Dev :=
  if d.net.ecat == .op || d.net.ecat == .safeOp then
    let b := d.inputs h
    { d with net := { d.net with txCycle := b, txSnapshot := if d.net.dc then d.net.txSnapshot else b } }
  else d

/-! ### Outputs -/

/-- A mapped output takes its value: the control word, sampled with the cycle, or an LR in its range that differs from the
stored one. -/
def output (m : Mach) (index sub : Nat) (v : Bytes) : Mach :=
  let d := m.1
  if index = 0x2010 then (d.setControl (unle v) false, m.2)
  else if 0x2910 ≤ index && index < 0x2920 && sub = 5 then
    if !d.isC || (d.engJob (index - 0x2910)).lr = unle v || (d.checkSub d false false index sub (some v)).isSome then m
    else (applySub m 0 index sub v).1
  else m

/-- The outputs of the RxPDOs by their mapping, in order. -/
def outputs (m : Mach) (b : Bytes) : Mach :=
  ((m.1.pdoEntries true).foldl (fun (r : Mach × Bytes) e =>
    let p := pdoEntry e
    (output r.1 p.1 p.2.1 (r.2.take (p.2.2 / 8)), r.2.drop (p.2.2 / 8))) (m, b)).1

/-- The outputs latched are applied at a cycle start (R46). -/
def takeOutputs (m : Mach) : Mach :=
  match m.1.net.rxLatched with
  | none => m
  | some b =>
    let d := { m.1 with net := { m.1.net with rxLatched := none } }
    if d.net.ecat == .op then outputs (d, m.2) b else (d, m.2)

/-! ### EtherCAT states -/

/-- The EtherCAT state is entered, with AL status 0. -/
def Dev.enterEcat (d : Dev) (x : Ecat) : Dev := { d with net := { d.net with ecat := x, al := 0 } }

/-- A request is refused with an AL status code, and the state stays (R39). -/
def Dev.alStatus (d : Dev) (code : Nat) : Dev := { d with net := { d.net with al := code } }

/-- Process-data exchange stops. -/
def Dev.stopData (d : Dev) : Dev := { d with net := { d.net with rxLatched := none, pdAt := none, dc := false } }

/-- The sessions end and what waits in the mailbox is discarded: Init and Bootstrap (R38, R53). -/
def Dev.endMailbox (d : Dev) : Dev :=
  let d := (d.endSessions (fun _ => true)).stopData
  { d with net := { d.net with mailbox := [], waiting := none, transfers := [] } }

/-- The EtherCAT state falls, or is asked to go, to Init (R38, R39). -/
def Dev.toInit (d : Dev) : Dev := d.endMailbox.enterEcat .init

/-- Whether the Director is in BOOT with no verified image (Table 2.3). -/
def Dev.noFirmware (d : Dev) : Bool := d.dir.state == .boot && !d.upd.verified

/-- Whether Bootstrap is accepted (R40). -/
def Dev.mayBootstrap (d : Dev) : Bool :=
  d.net.ecat == .init && (d.noFirmware || (d.dir.state == .maintenance && !d.twin.ownDrive && !d.twin.ownColl))

/-- The AL status code that refuses a step from Pre-Op to Safe-Op: a mapping (R45) or a DC cycle time (Table 2.3). -/
def Dev.mappingFault (d : Dev) (cycle : Option Nat) : Option Nat :=
  if 512 < d.pdoBytes false || !(d.pdoEntries false).all (mappable false) then some 0x0024
  else if 512 < d.pdoBytes true || !(d.pdoEntries true).all (mappable true) then some 0x0025
  else match cycle with
    | some n => if n < 250000 || 10000000 < n then some 0x0035 else none
    | none => none

end Sys2Proof.Machine
end

