-- ==== Sys2Proof/Machine/CycleFamily.lean ====
section
/-!
DEFINITION. The control cycle (R101, R128): its start, the input latch, the compute deadline, the heater trigger, and the
adoption of the boards (R150, R351, R356).
-/

namespace Sys2Proof.Machine
open Sys2Proof

/-- The cycle that starts next: the one that Array time has already entered, or the next multiple of 50 µs (R101). -/
def Dev.startingCycle (d : Dev) : Nat := if d.eng.cycle < d.cycleNow then d.cycleNow else d.cycleNow + 1

/-- The sensor frame by which a board answers a cycle marker (Table 5.5): what it held at the latch. What its sensors show, HV_OK and
OVERTEMP are free values: the SENSOR_FRAME command says what arrives. -/
def Dev.sensorFrame (d : Dev) (b n : Nat) (x : Board) : Bytes :=
  let grant := fun (t : Nat) => b2n (if t = d.twinId then d.twin.ownDrive else d.twin.lineDrive)
  let free := fun (k : Nat) => Config.measured (objKey (0x3D00 + b) (256 + k)) n
  let f := le 1 0x81 ++ le 1 b ++ le 2 x.rxSeq ++ le 8 n ++ le 1 (b2n x.holding + 2 * grant 0 + 4 * grant 1 + 8 * (free 0 % 4)) ++ zeros 3 ++
    (upto 256).flatMap (fun i => le 3 (free (1 + i))) ++ (upto 256).flatMap (fun i => le 3 (unsigned 20 (tget 0 x.outs i))) ++
    (upto 32).flatMap (fun i => le 1 (free (257 + i)))
  f ++ le 4 (crc32 f)

/-- The identity record of a board (Table 9.10). What the board itself holds (SERIAL, FIRMWARE, HW_REV, HV_RAIL, HV_OK) is a free value:
the BOARD_IDENTITY command says what arrives. -/
def Dev.identityRecord (d : Dev) (b : Nat) : Bytes :=
  let grant := fun (t : Nat) => b2n (if t = d.twinId then d.twin.ownDrive else d.twin.lineDrive)
  let free := fun (k : Nat) => Config.measured (objKey (0x3D00 + b) (128 + k)) 0
  let f := le 1 0x80 ++ le 1 b ++ zeros 2 ++ le 16 (free 0) ++ le 8 (free 1) ++ le 2 (free 2) ++ le 2 256 ++ le 4 (free 3) ++
    le 1 (free 4 % 2 + 2 * grant 0 + 4 * grant 1) ++ zeros 23
  f ++ le 4 (crc32 f)

/-- Every board that the drive links reach answers a cycle marker with its sensor frame (R148), or with its identity record until it
has accepted a HOLD or COMMAND frame (R258). -/
def Dev.boardsAnswer (d : Dev) (n : Nat) : Dev :=
  d.emits (d.eng.boards.map (fun e => .sensor e.1 (if e.2.accepted then d.sensorFrame e.1 n e.2 else d.identityRecord e.1)))

/-- The boards apply the outputs commanded for the cycle; a board without any holds (R122, R149). -/
def Dev.boardsApply (d : Dev) (n : Nat) : Dev :=
  { d with eng := { d.eng with boards := d.eng.boards.map (fun e =>
      match e.2.next with
      | some (c, outs) =>
        if c = n then (e.1, { e.2 with next := none, holding := false, outs := outs.foldl (fun t o => tset t o.1 o.2) e.2.outs })
        else (e.1, { e.2 with next := none, holding := true })
      | none => (e.1, { e.2 with holding := true })) } }

/-- The markers of a cycle: one on each drive link, early by the link's measured latency (R122), and one on the pod links, HCYC in
place of CYC at a heater trigger (Table 6.7). -/
def cycleMarks (n : Nat) : List Output :=
  (upto 16).map (fun b => .driveMark b n (n * Config.cycle * 2 ^ 32 - Config.driveLatency b)) ++ [.podCycle n (cycleGroup (decide (n % 4 = 0)))]

/-- The constellations and almanacs of store SRAM in which a poisoned word stands are reloaded from LIBRARY (R311): one re-planned in
the store alone takes its library content again, and one whose copy there fails its check is a class 4 fault of its owning job. -/
def Dev.reloadCopies (d : Dev) : Dev :=
  let bad := d.mem.sramPoison ++ (d.mem.sramFlaws.filter (fun e => 2 ≤ e.2)).map (·.1)
  let keys := ((bad.filter (fun w => w / 2 ^ 32 == 8)).map (fun w => Config.storeBacks (w % 2 ^ 32))).eraseDups
  (keys.filter (fun k => libraryObject k && decide (0x4400 ≤ k / 256) && !d.mem.badCopies.contains k)).foldl (fun d k =>
    let own := objKey (k / 256 + 0x10000) 1
    if Config.libraryGood d.fresh then
      let d := (d.drawn 1).cleanStore k
      match tfind d.ob own with
      | some b => { d with ob := tset (tdel d.ob own) k b }
      | none => d
    else
      let j := if k / 256 < 0x4800 then d.slotJob (k / 256 - 0x4400) else k / 256 - 0x4800
      let d := d.drawn 1
      ({ d with mem := { d.mem with badCopies := sinsert d.mem.badCopies k } }).raise 0x0C01 4 1 j true) d

/-- A control cycle starts (R60, R101, R105, R128, R373): the last cycle's inputs stand, the boards apply their outputs,
outputs and the control word are sampled, the servo and the arbiter run. -/
def cycleStart (m : Mach) : Mach :=
  let d := m.1.reloadCopies.cycleInputs m.2
  let n := d.startingCycle
  let d := ((d.reach (n * Config.cycle)).boardsAnswer n).boardsApply n |>.gatesShine
  let d := { d with
    eng := { d.eng with cycle := n, phase := 0, latchTime := d.now
                        axes := d.eng.axes.map (fun (e : Nat × Axis) => (e.1, { e.2 with latched := false })) }
    module := { d.module with unlocked := [] } }
  let d := if d.holdsDrive && d.isOn 8 then d.emits (cycleMarks n) else d
  let m := sampleControl (takeOutputs (d, m.2))
  ((((m.1.servo).arbiter).startHealth).calDue, m.2)

/-- CYCLE_START: the axis-cycle trigger at a 50 µs multiple, while CK_TIME runs (R101, R128). -/
def execCycleStart (s : State) : Host.Outcome State Fault Refusal :=
  .next (s.onServe fun d h => if d.isOn 3 then cycleStart (d, h) else (d, h))

/-- INPUT_LATCH: at cycle start + 5 µs sensor frames, pilot readings and tap powers are latched (R35, R128). -/
def execInputLatch (s : State) : Host.Outcome State Fault Refusal :=
  .next (s.onDev fun d =>
    if d.eng.phase != 0 then d
    else
      let d := (d.reach (d.eng.cycle * Config.cycle + 5 * Config.us)).recordBase
      let d := { d with eng := { d.eng with phase := 1 } }
      (((d.latchBoards).latchPilots).takeReadings).latchTaps)

/-- The largest compute times of the slices, in ns after the input latch (0x2C01:05). -/
def Dev.notePeaks (d : Dev) (peaks : List Nat) : Dev :=
  (upto 4).foldl (fun d c => d.setNum 0x2C01 (5 + c) (max (d.nat 0x2C01 (5 + c)) (peaks.getD c 0 % 2 ^ 32) : Nat)) d

/-- The frames of a compute deadline: HOLD frames after S of a thermal shutdown (R383), else commands (R148, R149). -/
def Dev.deadlineFrames (d : Dev) (live : List Nat) : Dev :=
  if d.power.shutAt.isSome then (if d.holdsDrive && !d.inState [.fault, .boot] then d.holdBoards else d) else d.sendBoards live

/-- A poisoned word is read in an axis's cycle (R146, R311): the axis faults; a coefficient set stays poisoned until it is written
again, and faults the axis when it is its set in use. One of a heater loop marks its ring for the next heater trigger. -/
def Dev.poisonWord (d : Dev) : SliceWord → Dev
  | .heater r => d.modPod (r / 176) (fun x => { x with poisoned := sinsert x.poisoned (r % 176) })
  | .axis a => ({ d with eng := { d.eng with poisonedIn := d.eng.poisonedIn ++ [a] } }).axisFails a 3
  | .coef a k =>
    let d := d.modAxis a (fun x => { x with poisonedSets := sinsert x.poisonedSets k })
    if (d.axis a).set = k then ({ d with eng := { d.eng with poisonedIn := d.eng.poisonedIn ++ [a] } }).axisFails a 3 else d

/-- The compute deadline (R128, R129): axes, frames, the twin's record, the recorder, replay, and a role swap that waits
for an allowed instant (R357). -/
def Dev.computeDeadline (d : Dev) (late : List Nat) (ends : SliceEnds) : Dev :=
  let d := d.reach (d.eng.cycle * Config.cycle + 35 * Config.us)
  let d := ({ d with eng := { d.eng with phase := 2 } }).closeTuned
  let d := ends.poison.foldl Dev.poisonWord d
  let pre := (d.eng.axes, d.eng.heads, d.eng.tunes)
  let r := d.computeAxes late
  let d := (((r.1.notePeaks ends.peaks).deadlineFrames r.2).sendRecord).recordCycle pre r.2
  let d := d.replayCycle
  if d.twin.swapWaiting.isSome && d.mayHandDrive then d.announceDrive else d

/-- COMPUTE_DEADLINE: at cycle start + 35 µs; axes in `late` have missed it (R129). -/
def execComputeDeadline (late : List Nat) (ends : SliceEnds) (s : State) : Host.Outcome State Fault Refusal :=
  .next (s.onDev fun d => if d.eng.phase = 2 then d else d.computeDeadline late ends)

/-- The instant of a heater trigger: the one whose cycle is running, or the next multiple of 200 µs (R101). -/
def Dev.heaterInstant (d : Dev) : Nat :=
  if d.now % (4 * Config.cycle) < Config.cycle then d.now else (d.now / (4 * Config.cycle) + 1) * (4 * Config.cycle)

/-- HEATER_TRIGGER: a step of Array time that is due (R100), the pods apply their codes (R175), and the holder's slices
run their heater loops (R166). -/
def execHeaterTrigger (s : State) : Host.Outcome State Fault Refusal :=
  .next (s.onDev fun d =>
    if !d.isOn 3 then d
    else
      let d := ((d.reach d.heaterInstant).timeStep).applyHeaters
      let d := { d with recr := { d.recr with heatBase := some (d.now / Config.cycle, d.rings.pods) } }
      if d.holdsDrive then d.heaterLoops else d)

/-! ### Adoption (R150, R351, R356) -/

/-- What a board's axes are adopted from: the newest record of the old holder, where its age allows. -/
def Dev.warmSource (d : Dev) : Nat → Option Axis :=
  match d.twin.newest, d.twin.takenAt with
  | some (n, b), some _ => if d.cycleNow + 1 ≤ n + 5 then d.warmAxis b else fun _ => none
  | _, _ => fun _ => none

/-- The boards that have had two HOLD frames are adopted; LAST_GAP counts the markers held since the old holder's last
output (R356). -/
def Dev.adoption (d : Dev) : Dev :=
  let ready := (d.eng.boards.filter (fun e => e.2.state == .adopting && 2 ≤ e.2.holdFrames)).map Prod.fst
  if !d.holdsDrive || d.inState [.boot, .selftest, .fault, .replay] || ready.isEmpty then d
  else
    let src := d.warmSource
    let d := match d.twin.newest, d.twin.takenAt with
      | some (n, _), some _ => d.setNum 0x2510 6 (min 255 (d.cycleNow + 1 - n - 2) : Nat)
      | _, _ => d
    let d := ready.foldl (fun d b => d.adoptBoard b src) d
    { d.modTwin (fun t => { t with takenAt := none }) with recr := { d.recr with keyDue := true } }

/-- ADOPTION: after the HOLD frames each axis is adopted, warm or cold (R150). -/
def execAdoption (s : State) : Host.Outcome State Fault Refusal :=
  .next (s.onDev fun d => d.adoption)

end Sys2Proof.Machine
end

