-- ==== Sys2Proof/Machine/DirectorFamily.lean ====
section
/-!
DEFINITION. The Director's commands (R60 to R62) and the end of a start: the image loaded (R392) and the self-tests
passed (R306, R307, R393).
-/

namespace Sys2Proof.Machine
open Sys2Proof

/-! ### Commands (R60, R61) -/

/-- Whether an SDO write of DIRECTOR_CONTROL is handled and taken as it arrives: the mailbox is free, and the write passes its
checks (R41, R56). -/
def State.takesControl (s : State) (c : Client) (w : Nat) : Bool :=
  s.dev.takes (.write c 0x2010 0 false (le 2 w)) && s.dev.net.mailbox.isEmpty && s.dev.net.waiting.isNone &&
    ((s.dev.touch c).refusesWrite c 0x2010 0 true (le 2 w)).isNone &&
    ((s.dev.touch c).checkSub ((s.dev.touch c).withValues 0x2010 [(0, le 2 w)]) false false 0x2010 0 (some (le 2 w))).isNone

/-- A control word by process data, or by an SDO write of DIRECTOR_CONTROL, and the sampling at the control-cycle start that
finds it (R60). A write that is refused, or that waits in the mailbox, is not sampled here. -/
def State.control (s : State) (src : CmdSrc) (w : Nat) : State :=
  match src with
  | .sdo c =>
    let t := s.sdoWrite c 0x2010 0 (le 2 w)
    if s.takesControl c w then t.onServe fun d h => sampleControl (d, h) else t
  | .processData => s.onServe fun d h => controlWord (d, h) w false

/-- A command, given with a TOGGLE that differs from CMD_ACK. -/
def State.command (s : State) (src : CmdSrc) (c : Cmd) : State := s.control src (s.dev.commandWord c.code)

/-- ARM: STANDBY to ARMED, and pre-steer begins (R62). -/
def execArm (src : CmdSrc) (s : State) : Host.Outcome State Fault Refusal := .next (s.command src .arm)

/-- SERVE: ARMED to SERVING (R62). -/
def execServe (src : CmdSrc) (s : State) : Host.Outcome State Fault Refusal := .next (s.command src .serve)

/-- HOLD: SERVING to HOLD (R62). -/
def execHold (src : CmdSrc) (s : State) : Host.Outcome State Fault Refusal := .next (s.command src .hold)

/-- RESUME: HOLD to SERVING (R62). -/
def execResume (src : CmdSrc) (s : State) : Host.Outcome State Fault Refusal := .next (s.command src .resume)

/-- DISARM: ARMED or HOLD to STANDBY (R62). -/
def execDisarm (src : CmdSrc) (s : State) : Host.Outcome State Fault Refusal := .next (s.command src .disarm)

/-- ENTER_MAINTENANCE: STANDBY or HOLD to MAINTENANCE (R61, R62). -/
def execEnterMaintenance (src : CmdSrc) (s : State) : Host.Outcome State Fault Refusal := .next (s.command src .enterMaint)

/-- EXIT_MAINTENANCE: MAINTENANCE to STANDBY (R61, R62). -/
def execExitMaintenance (src : CmdSrc) (s : State) : Host.Outcome State Fault Refusal := .next (s.command src .exitMaint)

/-- ENTER_REPLAY: STANDBY to REPLAY (R61, R62). -/
def execEnterReplay (src : CmdSrc) (s : State) : Host.Outcome State Fault Refusal := .next (s.command src .enterReplay)

/-- EXIT_REPLAY: REPLAY to STANDBY (R61, R62). -/
def execExitReplay (src : CmdSrc) (s : State) : Host.Outcome State Fault Refusal := .next (s.command src .exitReplay)

/-- WARM_RESTART: to BOOT, with a warm restart (R61, R62). -/
def execWarmRestart (src : CmdSrc) (s : State) : Host.Outcome State Fault Refusal := .next (s.command src .warmRestart)

/-- FAULT_ACK: a change of the bit from 0 to 1, with the word's TOGGLE as it stands (Table 2.10, R320). -/
def execFaultAck (src : CmdSrc) (s : State) : Host.Outcome State Fault Refusal :=
  let s := if s.dev.dir.lastFaultAck then s.control src (32768 * b2n s.dev.dir.cmdAck) else s
  .next (s.control src (256 + 32768 * b2n s.dev.dir.cmdAck))

/-- CMD_UNLISTED: a word with CMD 11 to 15 or a reserved bit is acknowledged and ends with CMD_RESULT 5 (R60). It comes
by process data alone. -/
def execCmdUnlisted (word : Fin 65536) (s : State) : Host.Outcome State Fault Refusal :=
  .next (s.control .processData word.val)

/-- COMMAND_COMPLETE: a command in progress completes and TOGGLE is compared again (R60). -/
def execCommandComplete (s : State) : Host.Outcome State Fault Refusal :=
  .next (s.onServe fun d h => commandComplete (d, h))

/-! ### The end of a start -/

/-- The loader has verified and loaded an image of a region (R392): SETTINGS and LIBRARY are taken (R393, R409), the
Director is in SELFTEST and the next domain asks for its permit. -/
def Dev.imageVerified (d : Dev) (region : Nat) (manifest : Bytes) : Dev :=
  if d.dir.state != .boot || !d.isOn 1 || d.upd.verified || d.power.shutAt.isSome then d
  else
    let u := { d.upd with region := region, verified := true }
    let u := if region = 1 then { u with activeManifest := manifest } else { u with fallbackManifest := manifest }
    let d := ({ d with upd := u }).bootChoice region
    ((d.loadLibrary.settled).setState .selftest .startUp).startNext

/-- IMAGE_VERIFIED: BOOT to SELFTEST (R62, R392). -/
def execImageVerified (region : Fin 2) (manifest : Bytes) (s : State) : Host.Outcome State Fault Refusal :=
  .next (s.onDev fun d => d.imageVerified (region.val + 1) manifest)

/-- Whether a checker is present: the stacks that are READY, and the reduction SRAM of an LD-512C. -/
def Dev.hasChecker (d : Dev) (k : Nat) : Bool :=
  !(k = 14 && !d.isC) && !(k < 8 && tget StackState.off d.mem.stackOf k != .ready)

/-- MEM_SELFTEST: the checkers present that gave every pattern of Table 11.5 its stated result (R306). -/
def Dev.selftestMask (d : Dev) (bad : List (Nat × Nat)) : Nat :=
  maskOf ((upto 19).filter (fun k => d.hasChecker k && checkerPasses bad k))

/-- A checker that failed takes its array out of use (R307): stacks, their maps and tables, the SRAM arrays. -/
def Dev.checkerFailed (d : Dev) (k : Nat) : Dev :=
  let d := if 8 ≤ k && k ≤ 14 then { d with mem := { d.mem with failed := sinsert d.mem.failed k } } else d
  if k < 8 then (if tget StackState.off d.mem.stackOf k = .failed then d else d.failStack k)
  else if k = 14 then { d with coll := { d.coll with state := .fault } }.checkerEvent 1 14
  else if k = 15 || k = 16 then (upto d.stackCount).foldl Dev.failStack d
  else d.checkerEvent 3 (if k = 17 then 31 else k)

/-- Whether a checker's failure is of class 3 (R307). -/
def checkerFatal (k : Nat) : Bool := (8 ≤ k && k ≤ 13) || k = 17 || k = 18

/-- The checkers of the arrays present that fail a self-test. -/
def Dev.failedCheckers (d : Dev) (bad : List (Nat × Nat)) : List Nat :=
  (upto 19).filter (fun k => d.hasChecker k && !checkerPasses bad k)

/-- Jobs after a start: what was not kept through a warm restart is DEFINED, or EMPTY without ports, and its almanac waits
for its validation (R393). -/
def Dev.startJobs (d : Dev) : Dev :=
  let fresh := d.jobs.filter (fun e => e.2.state == .empty && e.2.ports != 0)
  let d := fresh.foldl (fun d e => d.modJob e.1 (fun x => { x with state := .defined })) d
  { d with upd := { d.upd with toValidate := (fresh.map Prod.fst).filter (fun j => !(d.almanac j).isEmpty) } }

/-- The self-tests complete: FAULT where an array of class 3 failed or a trip stands, else STANDBY with the roles claimed
(R62, R307, R346, R385), and the position is confirmed where ARRAY_EXPECTED alone does so (R256). -/
def Dev.selftestEnd (d : Dev) (bad : List (Nat × Nat)) : Dev :=
  if d.dir.state != .selftest then d
  else
    let d := d.setNum 0x2800 1 (d.selftestMask bad : Nat)
    let failed := d.failedCheckers bad
    let d := failed.foldl Dev.checkerFailed d
    let d := if d.power.tripLatched then d.raise 0x0A02 3 0 0 true else d
    if failed.any checkerFatal || d.power.tripLatched then d.enterFault .fault
    else
      let d := { d with upd := { d.upd with startDone := some d.now } }
      (((d.startJobs.setState .standby .startUp).claim).tryRing).updateConfirmed.announce

/-- SELFTEST_PASSED: SELFTEST to STANDBY, or to FAULT (R62); `bad` are the patterns whose stated result a checker did not give, each as
the checker and the place of the pattern in Table 11.5 (R306). -/
def execSelftestPassed (bad : List (Nat × Nat)) (s : State) : Host.Outcome State Fault Refusal :=
  .next (s.onDev fun d => d.selftestEnd bad)

end Sys2Proof.Machine
end

