-- ==== Sys2Proof/Machine/ElectricalFamily.lean ====
section
/-!
DEFINITION. The PMBus telemetry of PD0 (R446, Table 17.13), one meaning per command.
-/

namespace Sys2Proof.Machine
open Sys2Proof

/-! ### Status outputs and straps (R434, R437, R446) -/

/-- PWR_GOOD: high while PD1 is ON (R434). -/
def Dev.pwrGood (d : Dev) : Bool := d.isOn 1

/-- MODULE_FAULT_N: low in FAULT, and in BOOT with no verified image (R434). -/
def Dev.moduleFaultN (d : Dev) : Bool := !(d.inState [.fault] || (d.inState [.boot] && !d.upd.verified))

/-- THERM_ALERT_N: low at WARN and above (R434). -/
def Dev.thermAlertN (d : Dev) : Bool := decide (d.power.level.code = 0)

/-- THERM_TRIP_N: low from T_trip on, while TRIP_LATCHED is set (R385, R434). -/
def Dev.thermTripN (d : Dev) : Bool := !d.power.tripLatched

/-- HK_ALERT_N: low while any bit of STATUS_WORD is set (R446). -/
def Dev.hkAlertN (d : Dev) : Bool := decide (d.module.statusWord = 0)

/-- PRESENT_OUT_N and ID_OUT while 3.3 V AUX is present; none are driven without it (R437). -/
def Dev.presentOut (d : Dev) : Option (Bool × Nat) := if d.module.aux then some (false, d.twinId) else none

/-! ### Telemetry -/

/-- The hottest of the HBM stacks whose domain is on; 0 with none (Table 17.13). -/
def Dev.hottestStack (d : Dev) (hbm : List Int) : Int :=
  let on := fun (k : Nat) => if d.isOn k then d.stacksOf k else []
  match (on 12 ++ on 13).map (fun s => hbm.getD s 0) with
  | [] => 0
  | t :: l => maxI t l

/-- A value of `n / den` as a LINEAR11 word: the exponent is the smallest at which the mantissa fits its 11 bits. -/
def linear11 (n : Int) (den : Nat) : Nat :=
  let mant := fun (e : Nat) => if e ≤ 16 then divNear (n * 2 ^ (16 - e)) den else divNear n (den * 2 ^ (e - 16))
  match (upto 32).find? (fun e => -1024 ≤ mant e && mant e ≤ 1023) with
  | some e => unsigned 5 (e - 16 : Int) * 2048 + unsigned 11 (mant e)
  | none => 15 * 2048 + 1023

/-- The 7-bit address: 0x58 + STRAP_TWIN. -/
def Dev.pmbusAddress (d : Dev) : Nat := 0x58 + d.twinId

/-- The answer to a read command: the bytes after the repeated address, with the PEC over the whole transfer where the host
asks for it; nothing answers without 3.3 V AUX. -/
def Dev.pmbusRead (d : Dev) (code : Nat) (pec_ : Bool) (data : List Nat) : Dev :=
  if !d.module.aux then d.emit .pmbusNack
  else
    let head := [d.pmbusAddress * 2, code, d.pmbusAddress * 2 + 1]
    d.emit (.pmbus (data ++ (if pec_ then [pec (head ++ data)] else [])))

/-- A word, low byte first. -/
def word16 (w : Nat) : List Nat := [w % 256, w / 256 % 256]

/-- A block: its length, then its bytes. -/
def pmbusBlock (b : Bytes) : List Nat := b.length :: b.map (·.toNat)

/-- Two decimal digits. -/
def twoDigits (n : Nat) : Bytes := [BitVec.ofNat 8 (48 + n / 10 % 10), BitVec.ofNat 8 (48 + n % 10)]

/-- STATUS_INPUT of a page at the thresholds of R441: undervoltage fault [4], overvoltage fault [7]. -/
def inputStatus (page mv : Nat) : Nat :=
  let lo := if page = 0 then 37000 else 3000
  let hi := if page = 0 then 64000 else 3600
  b2n (mv < lo) * 16 + b2n (hi < mv) * 128

/-- PAGE (R446): 0 the main input, 1 AUX; another value, or a wrong PEC, is not acknowledged. -/
def execPage (write : Option (Fin 256)) (pec_ : Option (Fin 256)) (s : State) : Host.Outcome State Fault Refusal :=
  .next (s.onDev fun d =>
    match write with
    | none => d.pmbusRead 0x00 pec_.isSome [d.module.page]
    | some x =>
      let good := match pec_ with
        | some p => decide (p.val = pec [d.pmbusAddress * 2, 0x00, x.val])
        | none => true
      if !d.module.aux || 2 ≤ x.val || !good then d.emit .pmbusNack
      else { d with module := { d.module with page := x.val } })

/-- CAPABILITY (Table 17.13). -/
def execCapability (pec_ : Bool) (s : State) : Host.Outcome State Fault Refusal :=
  .next (s.onDev fun d => d.pmbusRead 0x19 pec_ [0xB0])

/-- STATUS_WORD (Table 17.13). -/
def execStatusWord (pec_ : Bool) (s : State) : Host.Outcome State Fault Refusal :=
  .next (s.onDev fun d => d.pmbusRead 0x79 pec_ (word16 d.module.statusWord))

/-- STATUS_INPUT of the page (Table 17.13). -/
def execStatusInput (pec_ : Bool) (s : State) : Host.Outcome State Fault Refusal :=
  .next (s.onDev fun d => d.pmbusRead 0x7C pec_ [d.module.statusInput.getD d.module.page 0])

/-- STATUS_TEMPERATURE (Table 17.13). -/
def execStatusTemperature (pec_ : Bool) (s : State) : Host.Outcome State Fault Refusal :=
  .next (s.onDev fun d => d.pmbusRead 0x7D pec_ [d.module.statusTemp])

/-- READ_VIN of the page (Table 17.13). -/
def execReadVin (pec_ : Bool) (s : State) : Host.Outcome State Fault Refusal :=
  .next (s.onDev fun d => d.pmbusRead 0x88 pec_ (word16 (d.module.vin.getD d.module.page 0)))

/-- READ_IIN of the page (Table 17.13). -/
def execReadIin (pec_ : Bool) (s : State) : Host.Outcome State Fault Refusal :=
  .next (s.onDev fun d => d.pmbusRead 0x89 pec_ (word16 (d.module.iin.getD d.module.page 0)))

/-- READ_TEMPERATURE_1, DIE_TEMP (Table 17.13). -/
def execReadTemperature1 (pec_ : Bool) (s : State) : Host.Outcome State Fault Refusal :=
  .next (s.onDev fun d => d.pmbusRead 0x8D pec_ (word16 d.module.temp1))

/-- READ_TEMPERATURE_2, the hottest present HBM stack (Table 17.13). -/
def execReadTemperature2 (pec_ : Bool) (s : State) : Host.Outcome State Fault Refusal :=
  .next (s.onDev fun d => d.pmbusRead 0x8E pec_ (word16 d.module.temp2))

/-- READ_PIN of the page (Table 17.13). -/
def execReadPin (pec_ : Bool) (s : State) : Host.Outcome State Fault Refusal :=
  .next (s.onDev fun d => d.pmbusRead 0x97 pec_ (word16 (d.module.pin.getD d.module.page 0)))

/-- PMBUS_REVISION (Table 17.13). -/
def execPmbusRevision (pec_ : Bool) (s : State) : Host.Outcome State Fault Refusal :=
  .next (s.onDev fun d => d.pmbusRead 0x98 pec_ [0x33])

/-- MFR_ID (Table 17.13). -/
def execMfrId (pec_ : Bool) (s : State) : Host.Outcome State Fault Refusal :=
  .next (s.onDev fun d => d.pmbusRead 0x99 pec_ (pmbusBlock (ascii "VALPEANE")))

/-- MFR_MODEL, the ordering code of Table 0.1. -/
def execMfrModel (pec_ : Bool) (s : State) : Host.Outcome State Fault Refusal :=
  .next (s.onDev fun d => d.pmbusRead 0x9A pec_ (pmbusBlock (ascii (if d.isC then "VLD-512C-C1" else "VLD-512S-C1"))))

/-- MFR_REVISION: "C1." and the module revision in two decimal digits. -/
def execMfrRevision (pec_ : Bool) (s : State) : Host.Outcome State Fault Refusal :=
  .next (s.onDev fun d => d.pmbusRead 0x9B pec_ (pmbusBlock (ascii "C1." ++ twoDigits d.module.revision)))

/-- MFR_SERIAL, MODULE_SERIAL without its trailing zeros. -/
def execMfrSerial (pec_ : Bool) (s : State) : Host.Outcome State Fault Refusal :=
  .next (s.onDev fun d => d.pmbusRead 0x9E pec_ (pmbusBlock (d.module.serial.takeWhile (· != 0))))

/-- PMBUS_UNSUPPORTED: any other command byte, or a write to a command but PAGE, is not acknowledged (R446). -/
def execPmbusUnsupported (_code : Fin 256) (_write : Bool) (s : State) : Host.Outcome State Fault Refusal :=
  .next (s.onDev fun d => d.emit .pmbusNack)

/-- ALERT_RESPONSE: the module answers with its address while a bit of STATUS_WORD is set (R446). -/
def execAlertResponse (pec_ : Bool) (s : State) : Host.Outcome State Fault Refusal :=
  .next (s.onDev fun d =>
    if !d.module.aux || d.module.statusWord = 0 then d.emit .pmbusNack
    else
      let a := d.pmbusAddress * 2
      d.emit (.pmbus ([a] ++ (if pec_ then [pec [0x19, a]] else []))))

/-- PMBUS_REFRESH (R446): every 10 ms the readings and the status bytes take what PD0 measures. -/
def execPmbusRefresh (mv ma : List Nat) (mw : Nat) (hbm : List Int) (s : State) : Host.Outcome State Fault Refusal :=
  .next (s.onDev fun d =>
    if !d.module.aux then d else
    let die := dieTemp d.power.temps
    let hot := d.hottestStack hbm
    let input := [inputStatus 0 (mv.getD 0 0), inputStatus 1 (mv.getD 1 0)]
    let heat := b2n (1 ≤ d.power.level.code) * 64 + b2n (3 ≤ d.power.level.code) * 128
    let word := b2n (input != [0, 0]) * 0x2000 + b2n (heat != 0) * 4 + b2n (!d.isOn 1) * 0x40
    let d := { d with
      module := { d.module with
        volts := mv, amps := ma
        vin := mv.map (fun x => linear11 x 1000), iin := ma.map (fun x => linear11 x 1000)
        pin := [linear11 mw 1000, linear11 (mv.getD 1 0 * ma.getD 1 0 : Nat) 1000000]
        temp1 := linear11 die 10, temp2 := linear11 hot 10
        statusInput := input, statusTemp := heat, statusWord := word }
      power := { d.power with inputPower := mw, hbmTemps := hbm } }
    d.setNum 0x2102 2 (max (d.nat 0x2102 2) mw : Nat))

end Sys2Proof.Machine
end

