-- ==== Sys2Proof/Machine/FaultFamily.lean ====
section
/-!
DEFINITION. The commands of chapter 12 that carry no mailbox request: events, the handler's steps, the timers of the
recovery levels, and the flushing of the logs.
-/

namespace Sys2Proof.Machine
open Sys2Proof

/-- FAULT_EVENT (R316): an event enters the handler's queue. A code that Table 12.3 does not list with the class is never emitted
(R315). -/
def execFaultEvent (code cls scope index : Nat) (active : Bool) (detail : Bytes) (s : State) :
    Host.Outcome State Fault Refusal :=
  .next (s.onDev fun d => if (eventClasses code).contains cls then d.raise code cls scope index active detail else d)

/-- HANDLER_STEP (R316, R317). -/
def execHandlerStep (s : State) : Host.Outcome State Fault Refusal := .next (s.onDev Dev.handlerStep)

/-- LEVEL_TIMEOUT (R322). -/
def execLevelTimeout (n : Nat) (s : State) : Host.Outcome State Fault Refusal := .next (s.onDev fun d => d.levelTimeout n)

/-- STALL_DEADLINE (R325). -/
def execStallDeadline (j : Fin 16) (s : State) : Host.Outcome State Fault Refusal := .next (s.onDev fun d => d.stallDeadline j)

/-- RESTART_RELEASE (R332). -/
def execRestartRelease (j : Fin 16) (s : State) : Host.Outcome State Fault Refusal :=
  .next (s.onMem fun d h => releaseJob (d, h) j)

/-- RESTART_ORDER_TIMEOUT (R332). -/
def execRestartOrderTimeout (j : Fin 16) (s : State) : Host.Outcome State Fault Refusal :=
  .next (s.onDev fun d => d.orderTimeout j)

/-- REACQUIRE_TRY_END (R145). -/
def execReacquireTryEnd (north : Fin 512) (plane : Fin 2) (s : State) : Host.Outcome State Fault Refusal :=
  .next (s.onDev fun d => d.tryEnd north plane)

/-- LOG_FLUSH_TIMER (R338): 100 ms after its first record an unfilled page is padded and begins programming. -/
def execLogFlushTimer (prot : Bool) (s : State) : Host.Outcome State Fault Refusal :=
  .next (s.onDev fun d =>
    let l := if prot then d.faults.prot else d.faults.pub
    match l.firstAt with
    | none => d
    | some t =>
      let d := d.reach (t + 100 * Config.ms)
      d.modLog prot (fun l => l.flush d.power.flashGate true))

/-- TRIP_LATCHED clears once the record of event 0x0A02 of this start is in flash (R386). -/
def Dev.clearTrip (d : Dev) : Dev :=
  if d.power.tripLatched && d.faults.pub.flash.any (fun r => r.event = 0x0A02 && d.upd.startAt ≤ r.time) then
    { d with power := { d.power with tripLatched := false } }
  else d

/-- LOG_PAGE_PROGRAMMED (R338): the page's records leave the buffer. -/
def execLogPageProgrammed (prot : Bool) (s : State) : Host.Outcome State Fault Refusal :=
  .next (s.onDev fun d => ((d.modLog prot (fun l => l.programmed (logPages prot) d.power.flashGate zeroRec)).flashWritten (.log prot 0)).clearTrip)

end Sys2Proof.Machine
end

