-- ==== Sys2Proof/Machine/NetFamily.lean ====
section
/-!
DEFINITION. The commands of the field network (chapter 2): the EtherCAT state machine, process data, the mailbox and its
timers.
-/

namespace Sys2Proof.Machine
open Sys2Proof

/-! ### Requests -/

/-- OBJECT_WRITE: an SDO write passes the two-stage checks and, accepted, takes effect (R56). -/
def execObjectWrite (c : Client) (index sub : Nat) (complete : Bool) (data : Bytes) (s : State) : Host.Outcome State Fault Refusal :=
  .next (s.request (.write c index sub complete data))

/-- SDO_SEGMENT: a segment is checked and added to its transfer (R42). -/
def execSdoSegment (c : Client) (index sub total : Nat) (toggle last : Bool) (data : Bytes) (s : State) :
    Host.Outcome State Fault Refusal :=
  .next (s.request (.segment c index sub total toggle last data))

/-- SDO_INFO: the object list or a description, filtered by what the session may read (R40, R52). -/
def execSdoInfo (c : Client) (k : InfoKind) (index sub : Nat) (s : State) : Host.Outcome State Fault Refusal :=
  .next (s.request (.info c k index sub))

/-- UNSUPPORTED_PROTOCOL: answered with mailbox error 0x0002 (R37). -/
def execUnsupportedProtocol (c : Client) (protocol : Nat) (s : State) : Host.Outcome State Fault Refusal :=
  .next (s.request (.unsupported c protocol))

/-! ### The mailbox's timers -/

/-- The transfer that has waited longest for its next segment. -/
def oldestTransfer (l : List Transfer) : Option Transfer :=
  l.foldl (fun r t => match r with | some x => if t.lastAt < x.lastAt then some t else r | none => some t) none

/-- SDO_SEGMENT_TIMEOUT: 1 s without the next segment aborts the transfer (R42). -/
def execSdoSegmentTimeout (s : State) : Host.Outcome State Fault Refusal :=
  .next (s.onDev fun d =>
    match oldestTransfer d.net.transfers with
    | none => d
    | some t => ((d.reach (t.lastAt + Config.sec)).dropTransfer t.client).emit (.abort t.client t.index t.sub 0x05040000))

/-- REFUSAL_RESPONSE: 2.000 ms after handling began, a first-stage refusal is answered, counted and logged (R57, R58). -/
def execRefusalResponse (s : State) : Host.Outcome State Fault Refusal :=
  .next (s.onMem fun d h =>
    match d.net.waiting with
    | some (.refusal c index sub begun foe cause) =>
      let d := ((d.reach (begun + Config.refusalDelay)).bump 0x2030 1).secret 0x0D01 c [BitVec.ofNat 8 cause]
      finish (d, h) (if foe then .foe c 2 [] else .abort c index sub 0x06010000)
    | _ => (d, h))

/-! ### EtherCAT states -/

/-- REQUEST_INIT: the sessions end and process data stops; after a RECOVERY file the Director starts cold (R39, R410). -/
def execRequestInit (s : State) : Host.Outcome State Fault Refusal :=
  .next (s.onMem fun d h =>
    let d := d.toInit
    if d.upd.coldOnInit then coldStart ({ d with upd := { d.upd with coldOnInit := false } }, h) d.module.straps d.module.timeRef .cold
    else (d, h))

/-- REQUEST_PRE_OP (R39, Table 2.3). -/
def execRequestPreOp (s : State) : Host.Outcome State Fault Refusal :=
  .next (s.onDev fun d =>
    match d.net.ecat with
    | .boot => d.alStatus 0x0011
    | .init => if d.noFirmware then d.alStatus 0x0014 else d.enterEcat .preOp
    | _ => d.stopData.enterEcat .preOp)

/-- REQUEST_SAFE_OP: the mapping and the DC cycle are checked on the way from Pre-Op (R39, R45). -/
def execRequestSafeOp (cycle : Option Nat) (s : State) : Host.Outcome State Fault Refusal :=
  .next (s.onDev fun d =>
    match d.net.ecat with
    | .preOp => match d.mappingFault cycle with
      | some code => d.alStatus code
      | none => { d.enterEcat .safeOp with net := { (d.enterEcat .safeOp).net with dc := cycle.isSome } }
    | .op => { d.enterEcat .safeOp with net := { (d.enterEcat .safeOp).net with pdAt := none } }
    | .safeOp => d.enterEcat .safeOp
    | _ => d.alStatus 0x0011)

/-- REQUEST_OP (R39). -/
def execRequestOp (s : State) : Host.Outcome State Fault Refusal :=
  .next (s.onDev fun d =>
    if d.net.ecat == .safeOp || d.net.ecat == .op then d.enterEcat .op else d.alStatus 0x0011)

/-- REQUEST_BOOTSTRAP: accepted from Init in BOOT without a verified image, or in MAINTENANCE with no grant (R40). -/
def execRequestBootstrap (s : State) : Host.Outcome State Fault Refusal :=
  .next (s.onDev fun d =>
    if d.mayBootstrap then d.endMailbox.enterEcat .boot else d.alStatus 0x0011)

/-- FIELD_NETWORK_LOSS: the EtherCAT state falls to Init (R38). -/
def execFieldNetworkLoss (s : State) : Host.Outcome State Fault Refusal :=
  .next (s.onDev fun d => d.toInit)

/-! ### Process data -/

/-- PROCESS_DATA_OUTPUTS: the outputs arrive in Op; without DC synchronisation they are taken at the next cycle (R46). -/
def execProcessDataOutputs (data : Bytes) (s : State) : Host.Outcome State Fault Refusal :=
  .next (s.onDev fun d =>
    if d.net.ecat == .op then
      { d with net := { d.net with rxBuffer := data, pdAt := some d.now, rxLatched := if d.net.dc then d.net.rxLatched else some data } }
    else d)

/-- SYNC0: outputs are latched, the inputs of the last completed cycle stand, and the DC time is recorded (R46). -/
def execSync0 (dcTime : Nat) (s : State) : Host.Outcome State Fault Refusal :=
  .next (s.onDev fun d =>
    if !d.net.dc then d
    else
      let d := (d.setNum 0x2270 1 (d.now : Nat)).setNum 0x2270 2 (dcTime % 2 ^ 64 : Nat)
      { d with net := { d.net with
          rxLatched := if d.net.ecat == .op && d.net.pdAt.isSome then some d.net.rxBuffer else none
          txSnapshot := d.net.txCycle } })

/-- PROCESS_DATA_WATCHDOG: Safe-Op with AL status 0x001B; the last outputs stay in place (R38). -/
def execProcessDataWatchdog (s : State) : Host.Outcome State Fault Refusal :=
  .next (s.onDev fun d =>
    if d.net.ecat == .op then { (d.enterEcat .safeOp).alStatus 0x001B with net := { ((d.enterEcat .safeOp).alStatus 0x001B).net with pdAt := none } }
    else d)

/-! ### Sessions -/

/-- CHALLENGE_EXPIRY: a challenge reaches its 10 s and is void (R54). -/
def execChallengeExpiry (c : Client) (s : State) : Host.Outcome State Fault Refusal :=
  .next (s.onDev fun d =>
    match d.net.challenges.find? (fun x => x.client == c) with
    | none => d
    | some x => (d.reach (x.issued + Config.challengeLife)).consume c)

/-- SESSION_IDLE_TIMEOUT: a session without a request for its timeout ends (R53). -/
def execSessionIdleTimeout (c : Client) (s : State) : Host.Outcome State Fault Refusal :=
  .next (s.onDev fun d =>
    match d.session c with
    | none => d
    | some x => (d.reach (x.lastReq + x.timeout * Config.sec)).endSession c)

end Sys2Proof.Machine
end

