-- ==== Sys2Proof/Machine/PowerFamily.lean ====
section
/-!
DEFINITION. The commands of power, supplies and heat (chapters 01, 14, 15 and 17): starts and losses of supply, domains,
permits, the thermal ladder.
-/

namespace Sys2Proof.Machine
open Sys2Proof

/-! ### Supplies and starts (R386, R389, R441 to R443) -/

/-- Whether no start is under way: PD1 is off, and PD15 is not on but for flash operations that end. -/
def Dev.down (d : Dev) : Bool :=
  !d.isOn 1 && (d.domain 1) != .ramping && (d.domain 15) != .ramping && !(d.isOn 15 && d.power.flashGate)

/-- COLD_START: both supplies in range with cold reset released (R389, R391). A start under way goes on. -/
def execColdStart (straps : Fin 128) (timeRef : Fin 3) (s : State) : Host.Outcome State Fault Refusal :=
  .next (s.onMem fun d h =>
    if !d.down then (d, h)
    else
      let d := { d with module := { d.module with aux := true, main := true, coldReset := false, mainLostAt := none } }
      coldStart (d, h) straps.val timeRef.val .cold)

/-- HOLDUP_CHARGED: ROM verification may begin (R442). -/
def execHoldupCharged (s : State) : Host.Outcome State Fault Refusal :=
  .next (s.onDev fun d => ({ d with module := { d.module with holdup := true } }).rampManagement)

/-- HOLDUP_DISCHARGED: 1 s after the main input was removed (R442). -/
def execHoldupDischarged (s : State) : Host.Outcome State Fault Refusal :=
  .next (s.onDev fun d =>
    match d.module.mainLostAt with
    | none => d
    | some t => { d.reach (t + Config.sec) with module := { d.module with holdup := false } })

/-- Flash operations that have begun and not ended: log pages, a settings record, an update file, a retire record, an
activation, an erasure. -/
def Dev.flashBusy (d : Dev) : List Nat :=
  (if d.faults.pub.programming = 0 then [] else [1]) ++ (if d.faults.prot.programming = 0 then [] else [2]) ++
  (if d.upd.pendingSettings then [3] else []) ++
  (match d.net.waiting with | some (.foe _ _) => [4] | some (.retire _ _ _) => [5] | _ => []) ++
  (if d.upd.state == .activating then [6] else []) ++ (if d.upd.state == .clearing then [7] else [])

/-- MAIN_INPUT_FAIL: the flash gate closes, both grants drop, every domain but PD0 and PD15 goes off at once (R441). -/
def execMainInputFail (s : State) : Host.Outcome State Fault Refusal :=
  .next (s.onMem fun d h =>
    let t := d.now
    let m := cutPower (d, h) true
    ({ m.1 with module := { m.1.module with main := false, mainLostAt := some t } }, m.2))

/-- MAIN_INPUT_RESTORED: a cold start follows a failure, but not a shutdown or a trip, which wait for their own (R386,
R441). The straps are read again; TIME_REF is taken as it was. -/
def execMainInputRestored (s : State) : Host.Outcome State Fault Refusal :=
  .next (s.onMem fun d h =>
    if d.module.main then (d, h)
    else
      let d := { d with module := { d.module with main := true, mainLostAt := none } }
      if !d.module.aux || d.module.coldReset || d.power.shutDone || !d.down then (d, h)
      else coldStart (d, h) d.module.straps d.module.timeRef .cold)

/-- COLD_RESET: as a main-input failure while it is held (R443). -/
def execColdReset (s : State) : Host.Outcome State Fault Refusal :=
  .next (s.onMem fun d h =>
    let m := cutPower (d, h) true
    ({ m.1 with module := { m.1.module with coldReset := true } }, m.2))

/-- VAUX_LOSS: the whole module loses power with PD0 (R443). -/
def execVauxLoss (s : State) : Host.Outcome State Fault Refusal :=
  .next (s.onMem fun d h =>
    let m := cutPower (d, h) false
    let d := m.1
    ({ d with
        module := { d.module with aux := false }
        time := { d.time with counter := 0, carried := none }
        power := { d.power with lastShut := none } }, m.2))

/-- TWIN_PRESENT_CHANGE (R437). -/
def execTwinPresentChange (low : Bool) (id : Fin 2) (s : State) : Host.Outcome State Fault Refusal :=
  .next (s.onDev fun d => d.modTwin (fun t => { t with present := low, id := id.val }))

/-! ### Clocks (R34, R342, R439) -/

/-- REFCLK_A_LOST: a PLL of CK_CORE or CK_CTRL loses lock, and both grants drop (R342). -/
def execRefclkALost (core ctrl : Bool) (s : State) : Host.Outcome State Fault Refusal :=
  .next (s.onDev fun d =>
    if core || ctrl then
      (({ d with module := { d.module with refclk := false } }).dropGrants false).raise 0x0B01 3 0 0 true
    else d)

/-- TIME_REF_LOST: TIME_REF_STATE reads 2 until the next start (R439). -/
def execTimeRefLost (s : State) : Host.Outcome State Fault Refusal :=
  .next (s.onDev fun d =>
    if !d.isOn 3 || d.module.timeRef = 2 then d
    else (({ d with module := { d.module with timeRef := 2 } }).setNum 0x2200 12 2).timeFault 3 true)

/-- The crossing that a receiver's words pass (R32, Table 1.9). -/
def crossingOf : Receiver → Nat
  | .drive _ => 4 | .pod _ => 6 | .lane _ _ => 10 | .probe _ => 10 | .timePort _ => 14

/-- What the receiving block does at a loss of lock (R34): X4's queue holds no frame for its board any more, so that the cycle
is missed for the board's axes; X6's queue holds no tap powers and offsets of the chain's pods any more; a lane of a link is no longer
aligned (R217, R222); a Sync that waits for its Follow_Up on a time port is gone. A probe receiver queues no whole frame. -/
def Dev.flushed (d : Dev) : Receiver → Dev
  | .drive b => d.modBoard b (fun x => { x with queued := none })
  | .pod j => d.dropPodWords (fun q => linkOfPod q == j.val)
  | .probe _ => d
  | .lane l k =>
    let c := d.ctxOfLane l k
    (d.rxLost c k).rxChanged c (d.link c).rxMask
  | .timePort t => d.modPtp t (fun x => { x with pendingSync := none })

/-- LOSS_OF_LOCK: the receiver's queue is flushed and counted, and the receiver is flagged for the cycle (R34). -/
def execLossOfLock (r : Receiver) (words : Nat) (s : State) : Host.Outcome State Fault Refusal :=
  .next (s.onDev fun d =>
    let d := (d.discard (crossingOf r) words).flushed r
    { d with module := { d.module with unlocked := d.module.unlocked.filter (· != r) ++ [r] } })

/-! ### Domains (R29, R367 to R370) -/

/-- DOMAIN_RAMP_DONE: the rails stayed in tolerance for the ramp time; `bad` are the self-test patterns whose stated result a checker of
the domain does not give, each as the checker and the place of the pattern in Table 11.5 (R306, R367). -/
def execDomainRampDone (d : Fin 16) (bad : List (Nat × Nat)) (s : State) : Host.Outcome State Fault Refusal :=
  .next (s.onServe fun e h => rampDone (e, h) d.val bad)

/-- QUIESCE_TIMEOUT: what a crossing still held is discarded and counted (R29). -/
def execQuiesceTimeout (x : Fin 20) (words : Nat) (s : State) : Host.Outcome State Fault Refusal :=
  .next (s.onServe fun d h => quiesceEnds (d, h) x.val words)

/-! ### Permits (R373 to R375) -/

/-- The ramps whose grant a FAULT request took: they end as at the end of their leases (R375). -/
def lostRamps (m : Mach) : Mach :=
  ((upto 16).filter (fun k => 2 ≤ k && k != 15)).foldl (fun m k =>
    if m.1.domain k == .ramping && (m.1.grantOf 6 k).isNone then
      endEffect m { cls := 6, amount := 1, prio := .normal, holder := k }
    else m) m

/-- The grants that a FAULT request has taken end as at the end of their leases (R375); those of DOMAIN_UP with their ramps. -/
def takenGrants (old : List Permit) (m : Mach) : Mach :=
  lostRamps ((old.filter (fun g => g.cls != 6 && (m.1.grantOf g.cls g.holder).isNone)).foldl endEffect m)

/-- PERMIT_REQUEST: granted, deferred or denied (R373). -/
def execPermitRequest (cls : Fin 7) (prio : Prio) (amount holder : Nat) (s : State) : Host.Outcome State Fault Refusal :=
  .next (s.onServe fun d h => if cls.val = 0 then (d, h) else takenGrants d.power.grants (d.request cls.val prio amount holder 0, h))

/-- PERMIT_RENEW: HBM_BURST, the renewable class, is extended by a lease while its conditions hold (R374). -/
def execPermitRenew (cls : Fin 7) (holder : Nat) (s : State) : Host.Outcome State Fault Refusal :=
  .next (s.onDev fun d =>
    match d.grantOf cls.val holder with
    | none => d
    | some g =>
      if cls.val = 3 && d.permitOk 3 g.prio holder then
        { d with power := { d.power with grants := d.power.grants.map (fun x =>
            if x.cls = 3 && x.holder = holder then { x with till := x.till + leaseTime 3 holder } else x) } }
      else d)

/-- PERMIT_RELEASE: the grant goes back, or a deferred request is withdrawn (R373, R374). -/
def execPermitRelease (cls : Fin 7) (holder : Nat) (s : State) : Host.Outcome State Fault Refusal :=
  .next (s.onDev fun d => d.release cls.val holder)

/-- LEASE_END: a lease ends unrenewed, and its class acts (R374, Table 14.3). -/
def execLeaseEnd (cls : Fin 7) (holder : Nat) (s : State) : Host.Outcome State Fault Refusal :=
  .next (s.onServe fun d h =>
    match d.grantOf cls.val holder with
    | none => (d, h)
    | some g => endEffect (((d.reach g.till).permitCount cls.val 7).release cls.val holder, h) g)

/-- POWER_OVER_LIMIT: HBM_BURST is revoked after 10 ms over the limit (R371). -/
def execPowerOverLimit (mw : Nat) (s : State) : Host.Outcome State Fault Refusal :=
  .next (s.onServe fun d h =>
    let d := ({ d with power := { d.power with inputPower := mw } }).setNum 0x2102 2 (max (d.nat 0x2102 2) mw : Nat)
    if d.power.overLimit then (d, h)
    else
      let d := { d.bump 0x2102 4 with power := { d.power with overLimit := true } }
      revokeAll (d, h) (fun g => g.cls = 3))

/-- POWER_RECOVERED: 100 ms below the limit, and grants resume (R371). -/
def execPowerRecovered (mw : Nat) (s : State) : Host.Outcome State Fault Refusal :=
  .next (s.onDev fun d => { d with power := { d.power with inputPower := mw, overLimit := false } })

/-! ### Heat (R381 to R386) -/

/-- A run of samples on one side of a threshold. -/
def runOf (was : Nat) (hit : Bool) : Nat := if hit then was + 1 else 0

/-- The level of a code. -/
def Therm.ofCode : Nat → Therm
  | 0 => .normal | 1 => .warn | 2 => .throttle | _ => .shut

/-- The level after a sample: up after 3 samples in a row, down after 30 below the clearing point (R381, Table 14.5). -/
def Power.levelNow (p : Power) : Therm :=
  let up := if 3 ≤ p.above.getD 2 0 then 3 else if 3 ≤ p.above.getD 1 0 then 2 else if 3 ≤ p.above.getD 0 0 then 1 else 0
  let stay := if p.level == .shut then 3 else if p.level == .throttle && p.below.getD 1 0 < 30 then 2
    else if (p.level == .throttle || p.level == .warn) && p.below.getD 0 0 < 30 then 1 else 0
  Therm.ofCode (max up stay)

/-- The hottest sensor, and its temperature. -/
def hottest (temps : List Int) : Nat × Int :=
  let t := temps.foldl max (temps.headD 0)
  (temps.findIdx (fun x => x == t), t)

/-- The detail of a thermal event: level, sensor and temperature. -/
def heatDetail (level sensor : Nat) (temp : Int) : Bytes := le 1 level ++ le 1 sensor ++ leI 2 temp

/-- A level is declared or cleared (R381, R382): the grants that it ends, and from SHUT the closed flash gate and S. -/
def changeLevel (m : Mach) (x : Therm) : Mach :=
  let d := m.1
  let was := d.power.level.code
  let top := hottest d.power.temps
  let d := { d with power := { d.power with level := x, levelSince := d.now } }
  let det := heatDetail x.code top.1 top.2
  if x == .shut then
    let d := { d with power := { d.power with
      shutAt := some d.now, flashGate := false, flashOps := d.flashBusy, lastShut := some (d.now, 3, top.1, top.2) } }
    (d.raise 0x0A02 3 0 0 true det, m.2)
  else
    let d := if x.code < 2 then d.unlatch 0x0A01 0 0 else d
    let d := if was < 2 && x == .throttle then d.raise 0x0A01 1 0 0 true det else d.info 0x0A01 0 0 det
    let m := (d, m.2)
    let m := if was < 1 && 1 ≤ x.code then revokeAll m (fun g => (g.cls = 2 && g.prio == .background) || g.cls = 5) else m
    if was < 2 && x == .throttle then revokeAll m (fun g => g.cls = 3) else m

/-- A sample of the die sensors (R381): the readings, the time below T_RESUME, a start that waits, the level. -/
def dieSample (m : Mach) (temps : List Int) : Mach :=
  let d := m.1
  let t := (hottest temps).2
  let resume := d.committedNum 0x2130 6
  let cool := temps.all (fun x => decide (x ≤ resume))
  let at_ := fun (l : List Nat) (i : Nat) (hit : Bool) => runOf (l.getD i 0) hit
  let p := { d.power with
    temps := temps
    coolSince := if cool then some (d.power.coolSince.getD d.now) else none
    above := [at_ d.power.above 0 (950 ≤ t), at_ d.power.above 1 (1050 ≤ t), at_ d.power.above 2 (1150 ≤ t)]
    below := [at_ d.power.below 0 (t < 900), at_ d.power.below 1 (t < 1000)] }
  let d := { d with power := p }
  let d := d.setNum 0x2130 5 (match tfind d.od (objKey 0x2130 5) with | some v => max v t | none => t)
  let d := if d.power.startHeld && cool then ({ d with power := { d.power with startHeld := false } }).ramp 15 else d
  if d.isOn 1 && d.power.levelNow != d.power.level then changeLevel (d, m.2) d.power.levelNow else (d, m.2)

/-- DIE_SENSOR_SAMPLE: sixteen sensors, every 100 µs, in 0.1 °C (R381). -/
def execDieSensorSample (temps : List Int) (s : State) : Host.Outcome State Fault Refusal :=
  .next (s.onServe fun d h => if d.isOn 0 then dieSample (d, h) temps else (d, h))

/-- The start of the cycle governed by the second HOLD frame after S, + 10 µs (Table 14.6). -/
def faultInstant (shut : Nat) : Nat :=
  let k := shut / Config.cycle
  let first := if shut % Config.cycle < 35 * Config.us then k else k + 1
  (first + 2) * Config.cycle + 10 * Config.us

/-- The Director enters FAULT for the heat, the last log pages leave, and PD11 to PD4 go off in order (Table 14.6). -/
def thermalFault (m : Mach) : Mach :=
  match m.1.power.shutAt with
  | none => m
  | some t =>
    let d := if m.1.inState [.boot] then m.1 else (m.1.reach (faultInstant t)).enterFault .thermal
    domainsDown (d.settleLogs, m.2) (onOrder.reverse.filter (fun k => !([0, 1, 2, 3, 8, 15] : List Nat).contains k))

/-- THERMAL_FAULT_ENTRY (R383). -/
def execThermalFaultEntry (s : State) : Host.Outcome State Fault Refusal :=
  .next (s.onMem fun d h => thermalFault (d, h))

/-- SHUTDOWN_DEADLINE: by S + 2 ms PD8, PD3, PD2 and PD1 go off (R383). -/
def execShutdownDeadline (s : State) : Host.Outcome State Fault Refusal :=
  .next (s.onMem fun d h =>
    match d.power.shutAt with
    | none => (d, h)
    | some t =>
      let m := thermalFault (d, h)
      domainsDown (m.1.reach (t + 2 * Config.ms), m.2) [8, 3, 2, 1])

/-- FLASH_OPERATIONS_END: PD15 goes off; after a shutdown it is counted (R384, Table 14.6). -/
def execFlashOperationsEnd (s : State) : Host.Outcome State Fault Refusal :=
  .next (s.onMem fun d h =>
    if d.isOn 1 || !d.isOn 15 || d.power.flashGate then (d, h)
    else
      let m := domainsDown (d, h) [15]
      match d.power.shutAt with
      | none => m
      | some _ =>
        let d := (m.1.bump 0x2130 8).tornActivation.blank
        ({ d with power := { d.power with level := .shut, shutDone := true } }, { m.2 with cells := [], poison := [], valid := [], flaws := [] }))

/-- T_TRIP: PD0 cuts every other domain, latches TRIP_LATCHED and waits for a cold reset (R385, R386). -/
def execTTrip (sensor : Fin 16) (temp : Int) (s : State) : Host.Outcome State Fault Refusal :=
  .next (s.onMem fun d h =>
    let t := d.now
    let busy := d.flashBusy
    let m := cutPower (d, h) false
    let d := m.1.bump 0x2130 9
    ({ d with
        module := { d.module with holdup := false }
        power := { d.power with tripLatched := true, shutDone := true, flashOps := busy, lastShut := some (t, 4, sensor.val, temp) } }, m.2))

/-- THERMAL_RESTART: after a shutdown, 60 s at or below T_RESUME with THERMAL_AUTO_RESTART at 1 (R386). -/
def execThermalRestart (straps : Fin 128) (timeRef : Fin 3) (s : State) : Host.Outcome State Fault Refusal :=
  .next (s.onMem fun d h =>
    match d.power.coolSince with
    | none => (d, h)
    | some t =>
      if d.power.shutDone && !d.power.tripLatched && d.committedNum 0x2130 7 != 0 && d.down then
        coldStart (d.reach (t + 60 * Config.sec), h) straps.val timeRef.val .thermal
      else (d, h))

end Sys2Proof.Machine
end

