-- ==== Sys2Proof/Machine/RecorderFamily.lean ====
section
/-!
DEFINITION. The recorder and replay (chapter 16): the end of POST, the CAPTURE file, and the twin's capture as it arrives.
-/

namespace Sys2Proof.Machine
open Sys2Proof

/-- POST_WINDOW: POST_WINDOW milliseconds after the first trigger the capture is frozen, whole (R423). -/
def execPostWindow (s : State) : Host.Outcome State Fault Refusal :=
  .next (s.onDev fun d =>
    match d.recr.trigger with
    | some t => (d.reach (t.2.2.2 + d.nat 0x2702 2 * Config.ms)).freeze false
    | none => d)

/-- CAPTURE: an FoE read of the frozen capture (R425). -/
def execCapture (c : Client) (s : State) : Host.Outcome State Fault Refusal :=
  .next (s.request (.capture c))

/-- CAPTURE_WRITE: an FoE write of a capture to replay (R426). -/
def execCaptureWrite (c : Client) (data : Bytes) (s : State) : Host.Outcome State Fault Refusal :=
  .next (s.request (.captureWrite c data))

/-- A frame of the twin's capture: it is stored in order, a frame sent with POISON as poisoned words; END loads it. A stream
longer than the ring is not kept (R426). -/
def Dev.replayData (d : Dev) (offset total flags : Nat) (data : Bytes) : Dev :=
  if d.nat 0x2701 2 < total then d.dropCapture
  else if offset != d.recr.stream.length then d
  else
    let b := d.recr.stream ++ data
    let p := d.recr.poisoned ++
      (if flags.testBit 0 then (upto (data.length / 64)).map (fun i => offset + 64 * i) else [])
    if flags.testBit 1 then { (d.loadCapture b p) with recr := { (d.loadCapture b p).recr with poisoned := [] } }
    else { d with recr := { d.recr with stream := b, poisoned := p } }

/-- REPLAY_DATA: a frame of the twin's capture arrives while a FETCH is loading (R426). -/
def execReplayData (offset total flags : Nat) (data : Bytes) (s : State) : Host.Outcome State Fault Refusal :=
  .next (s.onDev fun d =>
    if d.joined && d.inState [.replay] && d.recr.replay = 1 then d.replayData offset total flags data else d)

end Sys2Proof.Machine
end

