-- ==== Sys2Proof/Machine/Requests.lean ====
section
/-!
DEFINITION. The commands that are one write or one read of one object: a client's request through the mailbox.

What each write does is in the checks (`SdoChecks`) and the effects (`SdoApply`) of its object.
-/

namespace Sys2Proof.Machine
open Sys2Proof

/-! ### Jobs, ports and constellations (chapter 2) -/

/-- JOB_START: JOB_COMMAND START puts a LOADED or STOPPED job in RUNNING after validation and its guards (R65). -/
def execJobStart (c : Client) (j : Fin 16) (s : State) : Host.Outcome State Fault Refusal :=
  .next (s.sdoWrite c (0x2080 + j.val) 2 [1])

/-- JOB_STOP: JOB_COMMAND STOP puts a RUNNING job in STOPPED after the last acknowledged Zenith (R65). -/
def execJobStop (c : Client) (j : Fin 16) (s : State) : Host.Outcome State Fault Refusal :=
  .next (s.sdoWrite c (0x2080 + j.val) 2 [2])

/-- JOB_CLEAR: JOB_COMMAND CLEAR puts the job in EMPTY and releases its ports, whose circuits stay lit (R65). -/
def execJobClear (c : Client) (j : Fin 16) (s : State) : Host.Outcome State Fault Refusal :=
  .next (s.sdoWrite c (0x2080 + j.val) 2 [3])

/-- PORT_MAP: A PORT_MAP write assigns the job's ports, sets DEFINED or EMPTY and runs validation again (R64). -/
def execPortMap (c : Client) (j : Fin 16) (data : Bytes) (s : State) : Host.Outcome State Fault Refusal :=
  .next (s.sdoWrite c (0x2080 + j.val) 4 data)

/-- CONSTELLATION: A constellation slot is written or emptied, with structural checks, ownership checks and revalidation
of the referencing almanacs (R82). -/
def execConstellation (c : Client) (slot : Fin 1024) (data : Bytes) (s : State) : Host.Outcome State Fault Refusal :=
  .next (s.sdoWrite c (0x4400 + slot.val) 1 data)

/-- ALMANAC: An almanac is written or emptied, with structural and sequence validation and the job state updated (R83).
-/
def execAlmanac (c : Client) (j : Fin 16) (data : Bytes) (s : State) : Host.Outcome State Fault Refusal :=
  .next (s.sdoWrite c (0x4800 + j.val) 1 data)

/-- SHARD_MAP: A SHARD_MAP write assigns the job's collective shards, and a duplicate shard is refused (R71). -/
def execShardMap (c : Client) (j : Fin 16) (data : Bytes) (s : State) : Host.Outcome State Fault Refusal :=
  .next (s.sdoWrite c (0x4800 + j.val) 3 data)

/-! ### Sessions (chapter 2) -/

/-- SESSION_RESPONSE: A write of SESSION_RESPONSE consumes the challenge and opens the session if the MAC matches (R54).
-/
def execSessionResponse (c : Client) (data : Bytes) (s : State) : Host.Outcome State Fault Refusal :=
  .next (s.sdoWrite c 0x2020 3 data)

/-- SESSION_END: A write of 0x01 to SESSION_END ends the client's session (R53). -/
def execSessionEnd (c : Client) (data : Bytes) (s : State) : Host.Outcome State Fault Refusal :=
  .next (s.sdoWrite c 0x2020 4 data)

/-- ROLE_KEY: A role key is written, which ends the open sessions of that role (R55). -/
def execRoleKey (c : Client) (role : Fin 4) (data : Bytes) (s : State) : Host.Outcome State Fault Refusal :=
  .next (s.sdoWrite c 0x2022 (role.val + 1) data)

/-! ### Timing and axes (chapters 3 and 5) -/

/-- REQUALIFY: A write of REQUALIFY returns a DISQUALIFIED slot to TRACKING (R110). -/
def execRequalify (c : Client) (d : Fin 2) (data : Bytes) (s : State) : Host.Outcome State Fault Refusal :=
  .next (s.sdoWrite c (0x2210 + d.val) 0x0D data)

/-- ORBIT_EPOCH: A write of ORBIT_EPOCH on the root creates a new Orbit definition effective 200 ms later (R115). -/
def execOrbitEpoch (c : Client) (data : Bytes) (s : State) : Host.Outcome State Fault Refusal :=
  .next (s.sdoWrite c 0x2230 1 data)

/-- ORBIT_PERIOD: A write of ORBIT_PERIOD on the root creates a new Orbit definition effective 200 ms later (R115). -/
def execOrbitPeriod (c : Client) (data : Bytes) (s : State) : Host.Outcome State Fault Refusal :=
  .next (s.sdoWrite c 0x2230 2 data)

/-- OPEN_REQUEST: OPEN_REQUEST opens or releases axes of a head in MAINTENANCE (R136). -/
def execOpenRequest (c : Client) (h : Fin 2048) (data : Bytes) (s : State) : Host.Outcome State Fault Refusal :=
  .next (s.sdoWrite c (0x3000 + h.val) 0x1B data)

/-- AUTOTUNE_COMMAND: AUTOTUNE_COMMAND starts a relay tune of one axis in HOLD_CLOSED (R147). -/
def execAutotuneCommand (c : Client) (h : Fin 2048) (data : Bytes) (s : State) : Host.Outcome State Fault Refusal :=
  .next (s.sdoWrite c (0x3000 + h.val) 0x1C data)

/-- DRAIN: BOARD_COMMAND DRAIN moves a board with no circuit to DRAINED and sends HOLD frames (R151). -/
def execDrain (c : Client) (b : Fin 16) (s : State) : Host.Outcome State Fault Refusal :=
  .next (s.sdoWrite c (0x3D00 + b.val) 2 [1])

/-- RETURN: BOARD_COMMAND RETURN adopts a rediscovered board's axes cold (R151). -/
def execReturnBoard (c : Client) (b : Fin 16) (s : State) : Host.Outcome State Fault Refusal :=
  .next (s.sdoWrite c (0x3D00 + b.val) 2 [2])

/-! ### Rings, lasers and ports (chapters 6, 8 and 9) -/

/-- CROSSTALK: A CROSSTALK write in MAINTENANCE is checked and used from the next heater cycle (R167). -/
def execCrosstalk (c : Client) (q : Fin 64) (data : Bytes) (s : State) : Host.Outcome State Fault Refusal :=
  .next (s.sdoWrite c (0x3C00 + q.val) 1 data)

/-- CAL_REQUEST: CAL_REQUEST names lanes of a port to be calibrated first (R170). -/
def execCalRequest (c : Client) (p : Fin 1024) (data : Bytes) (s : State) : Host.Outcome State Fault Refusal :=
  .next (s.sdoWrite c (0x3800 + p.val) 0x0F data)

/-- SLOT_ENABLE: SLOT_COMMAND ENABLE requests LASER_UP to light the slot (R211). -/
def execSlotEnable (c : Client) (sel : Fin 4) (s : State) : Host.Outcome State Fault Refusal :=
  .next (s.sdoWrite c (0x2A01 + sel.val) 2 [1])

/-- SLOT_DISABLE: SLOT_COMMAND DISABLE ramps the lasers down and the slot enters SAFE (R212). -/
def execSlotDisable (c : Client) (sel : Fin 4) (s : State) : Host.Outcome State Fault Refusal :=
  .next (s.sdoWrite c (0x2A01 + sel.val) 2 [2])

/-- PORT_PROBE: A PORT_PROBE write enables or disables probing of the port (R261). -/
def execPortProbe (c : Client) (p : Fin 1024) (data : Bytes) (s : State) : Host.Outcome State Fault Refusal :=
  .next (s.sdoWrite c (0x4000 + p.val) 0x16 data)

/-- HEATER_CAP: A HEATER_CAP write is checked against HEATER_SUPPLY (R380). -/
def execHeaterCap (c : Client) (q : Fin 64) (data : Bytes) (s : State) : Host.Outcome State Fault Refusal :=
  .next (s.sdoWrite c (0x3C00 + q.val) 5 data)

/-- HEATER_SUPPLY: A HEATER_SUPPLY write is checked against the caps (R380). -/
def execHeaterSupply (c : Client) (data : Bytes) (s : State) : Host.Outcome State Fault Refusal :=
  .next (s.sdoWrite c 0x2120 7 data)

/-! ### Collective engine and memory (chapters 10 and 11) -/

/-- COLL_PLAN: A collective plan is written, validated and moves COLL_STATE to PLANNED (R270). -/
def execCollPlan (c : Client) (j : Fin 16) (data : Bytes) (s : State) : Host.Outcome State Fault Refusal :=
  .next (s.sdoWrite c (0x2910 + j.val) 1 data)

/-- LOAD: COLL_COMMAND LOAD zeroes the moments and enters LOADING (R271). -/
def execLoadJob (c : Client) (j : Fin 16) (s : State) : Host.Outcome State Fault Refusal :=
  .next (s.sdoWrite c (0x2910 + j.val) 4 [1])

/-- COMMIT_LOAD: COLL_COMMAND COMMIT_LOAD enters READY once every master granule has been written (R271). -/
def execCommitLoad (c : Client) (j : Fin 16) (s : State) : Host.Outcome State Fault Refusal :=
  .next (s.sdoWrite c (0x2910 + j.val) 4 [2])

/-- COLL_RESET: COLL_COMMAND RESET returns the job's collective state to PLANNED (R271). -/
def execCollReset (c : Client) (j : Fin 16) (s : State) : Host.Outcome State Fault Refusal :=
  .next (s.sdoWrite c (0x2910 + j.val) 4 [3])

/-- MODEL_TABLE: A MODEL_TABLE write replaces slot records and puts them in EMPTY (R287). -/
def execModelTable (c : Client) (data : Bytes) (s : State) : Host.Outcome State Fault Refusal :=
  .next (s.sdoWrite c 0x2940 1 data)

/-- MODEL_FILL: MODEL_COMMAND FILL puts a slot in FILLING (R287). -/
def execModelFill (c : Client) (slot : Fin 256) (s : State) : Host.Outcome State Fault Refusal :=
  .next (s.sdoWrite c 0x2940 3 (le 2 (slot.val + 256)))

/-- MODEL_FETCH: MODEL_COMMAND FETCH puts a slot in FETCHING and issues FETCH_REQs (R287). -/
def execModelFetch (c : Client) (slot : Fin 256) (s : State) : Host.Outcome State Fault Refusal :=
  .next (s.sdoWrite c 0x2940 3 (le 2 (slot.val + 512)))

/-- MODEL_CLEAR: MODEL_COMMAND CLEAR empties a slot (R287). -/
def execModelClear (c : Client) (slot : Fin 256) (s : State) : Host.Outcome State Fault Refusal :=
  .next (s.sdoWrite c 0x2940 3 (le 2 (slot.val + 768)))

/-- RETIRE_REQUEST: RETIRE_REQUEST copies a page to a spare and remaps it (R308). -/
def execRetireRequest (c : Client) (data : Bytes) (s : State) : Host.Outcome State Fault Refusal :=
  .next (s.sdoWrite c 0x2840 1 data)

/-! ### Faults and recovery (chapter 12) -/

/-- FAULT_ACKNOWLEDGE: FAULT_ACKNOWLEDGE removes the named inactive latched faults (R320). -/
def execFaultAcknowledge (c : Client) (data : Bytes) (s : State) : Host.Outcome State Fault Refusal :=
  .next (s.sdoWrite c 0x2301 2 data)

/-- DETOUR_RELEASE: DETOUR_RELEASE names a detour record to deactivate at its next BASE_SLOT Zenith (R330). -/
def execDetourRelease (c : Client) (j : Fin 16) (data : Bytes) (s : State) : Host.Outcome State Fault Refusal :=
  .next (s.sdoWrite c (0x2320 + j.val) 2 data)

/-- RESTART_ORDER: RESTART_ORDER picks a variant to run or stop for a RESTARTING job (R332). -/
def execRestartOrder (c : Client) (j : Fin 16) (data : Bytes) (s : State) : Host.Outcome State Fault Refusal :=
  .next (s.sdoWrite c (0x2320 + j.val) 3 data)

/-! ### The twin (chapter 13) -/

/-- DRIVE_HANDOVER: HANDOVER_COMMAND 1 announces a planned DRIVE hand-over (R355). -/
def execDriveHandover (c : Client) (s : State) : Host.Outcome State Fault Refusal :=
  .next (s.sdoWrite c 0x2510 3 [1])

/-- COLL_HANDOVER: HANDOVER_COMMAND 2 moves the COLL role to the twin (R363). -/
def execCollHandover (c : Client) (s : State) : Host.Outcome State Fault Refusal :=
  .next (s.sdoWrite c 0x2510 3 [2])

/-- HANDOVER_ABORT: HANDOVER_COMMAND 3 aborts a hand-over before HANDOVER_CYCLE (R355). -/
def execHandoverAbort (c : Client) (s : State) : Host.Outcome State Fault Refusal :=
  .next (s.sdoWrite c 0x2510 3 [3])

/-- COLL_RESTORE: COLL_RESTORE returns a job's optimizer state to an epoch (R362). -/
def execCollRestore (c : Client) (j : Fin 16) (data : Bytes) (s : State) : Host.Outcome State Fault Refusal :=
  .next (s.sdoWrite c (0x2530 + j.val) 6 data)

/-! ### Domains (chapter 14) -/

/-- DOMAIN_ON: DOMAIN_REQUEST with ACTION ON: the switch-on is checked against the required domains and requests
DOMAIN_UP (R369). -/
def execDomainOn (c : Client) (d : Fin 16) (rsvd : Fin 16) (s : State) : Host.Outcome State Fault Refusal :=
  .next (s.sdoWrite c 0x2100 0x11 (le 2 (d.val + 16 * rsvd.val + 256)))

/-- DOMAIN_OFF: DOMAIN_REQUEST with ACTION OFF: the Director checks the guards, then quiesces the domain and its
dependants and switches them off in order (R369). -/
def execDomainOff (c : Client) (d : Fin 16) (rsvd : Fin 16) (s : State) : Host.Outcome State Fault Refusal :=
  .next (s.sdoWrite c 0x2100 0x11 (le 2 (d.val + 16 * rsvd.val + 512)))

/-! ### Update (chapter 15) -/

/-- ACTIVATE: UPDATE_COMMAND ACTIVATE copies the staged image into ACTIVE (R406). -/
def execActivate (c : Client) (s : State) : Host.Outcome State Fault Refusal :=
  .next (s.sdoWrite c 0x2400 2 [1])

/-- UPDATE_CLEAR: UPDATE_COMMAND CLEAR erases STAGING (R411). -/
def execUpdateClear (c : Client) (s : State) : Host.Outcome State Fault Refusal :=
  .next (s.sdoWrite c 0x2400 2 [2])

/-- HEALTH_REJECT: HEALTH_CONFIRM = 2 in TRIAL orders a watchdog restart (R408). -/
def execHealthReject (c : Client) (s : State) : Host.Outcome State Fault Refusal :=
  .next (s.sdoWrite c 0x2402 0 [2])

/-! ### Recorder and replay (chapter 16) -/

/-- RECORDER_ENABLE: A RECORDER_ENABLE write starts or abandons the ring (R424). -/
def execRecorderEnable (c : Client) (data : Bytes) (s : State) : Host.Outcome State Fault Refusal :=
  .next (s.sdoWrite c 0x2700 2 data)

/-- RECORDER_TRIGGER: A trigger writes a MARK and puts the recorder in POST (R422). -/
def execRecorderTrigger (c : Client) (s : State) : Host.Outcome State Fault Refusal :=
  .next (s.sdoWrite c 0x2700 3 [1])

/-- FREEZE: RECORDER_COMMAND FREEZE ends the capture and freezes it (R423). -/
def execFreeze (c : Client) (s : State) : Host.Outcome State Fault Refusal :=
  .next (s.sdoWrite c 0x2700 3 [2])

/-- RELEASE: RECORDER_COMMAND RELEASE restarts the ring (R424). -/
def execReleaseCapture (c : Client) (s : State) : Host.Outcome State Fault Refusal :=
  .next (s.sdoWrite c 0x2700 3 [3])

/-- REPLAY_FETCH: REPLAY_COMMAND FETCH copies the twin's frozen capture (R426). -/
def execReplayFetch (c : Client) (s : State) : Host.Outcome State Fault Refusal :=
  .next (s.sdoWrite c 0x2710 2 [1])

/-- REPLAY_RUN: REPLAY_COMMAND RUN starts replay at REPLAY_FROM after its checks (R427). -/
def execReplayRun (c : Client) (s : State) : Host.Outcome State Fault Refusal :=
  .next (s.sdoWrite c 0x2710 2 [2])

/-- REPLAY_ABORT: REPLAY_COMMAND ABORT stops a replay (R429). -/
def execReplayAbort (c : Client) (s : State) : Host.Outcome State Fault Refusal :=
  .next (s.sdoWrite c 0x2710 2 [3])

/-- REPLAY_CLEAR: REPLAY_COMMAND CLEAR discards the loaded capture (R426). -/
def execReplayClear (c : Client) (s : State) : Host.Outcome State Fault Refusal :=
  .next (s.sdoWrite c 0x2710 2 [4])

/-! ### Reads and structures -/

/-- SESSION_CHALLENGE: a read returns 16 fresh random bytes bound to the client and valid for 10 s (R54). -/
def execSessionChallenge (c : Client) (s : State) : Host.Outcome State Fault Refusal :=
  .next (s.request (.read c 0x2020 2 false))

/-- LOG_BLOCK: a read returns records from the session's cursor, withheld by scope, and advances the cursor (R337). -/
def execLogBlock (c : Client) (s : State) : Host.Outcome State Fault Refusal :=
  .next (s.request (.read c 0x2330 2 false))

/-- PROT_BLOCK: a Maintainer's read returns protected records and advances the cursor (R337). -/
def execProtBlock (c : Client) (s : State) : Host.Outcome State Fault Refusal :=
  .next (s.request (.read c 0x2331 2 false))

/-- RECOVERY_BUDGET_WRITE: one budget, or the object whole; accepted only if every level keeps the 1.25 rule (R323). -/
def execRecoveryBudgetWrite (c : Client) (sub : Nat) (complete : Bool) (data : Bytes) (s : State) : Host.Outcome State Fault Refusal :=
  .next (s.request (.write c 0x2310 sub complete data))

end Sys2Proof.Machine
end

