-- ==== Sys2Proof/Machine/RingsFamily.lean ====
section
/-!
DEFINITION. The commands of chapter 06 that carry no SDO request: urgent events and reports of the pods, what a pod does
with each frame on its link, pods found and lost, and the steps of a calibration round.
-/

namespace Sys2Proof.Machine
open Sys2Proof

/-- LANE_LOST (R163): the lanes declared together at a port. -/
def execLaneLost (p : Fin 1024) (lanes : Fin 256) (s : State) : Host.Outcome State Fault Refusal :=
  .next (s.onDev fun d => if d.podServed (podOf p) then d.lanesLost p lanes else d)

/-- LANE_RESTORED (R163, R173). -/
def execLaneRestored (p : Fin 1024) (lanes : Fin 256) (s : State) : Host.Outcome State Fault Refusal :=
  .next (s.onDev fun d => if d.podServed (podOf p) then d.lanesRestored p lanes else d)

/-- How near the path of a comet passes to the heads of a port, by the square of the distance: that of its head on the other side, the
one that can point at the port; none where it has no path. -/
def Comet.gapTo (c : Comet) (p : Nat) : Option Int :=
  match ((pairHeads c.north c.south c.plane).zip c.start).find? (fun e => decide (portOfHead e.1 < 512) != decide (p < 512)) with
  | some e => pathGap (c.pathOf e.1 e.2 c.waypoint) (headAngles e.1 (fun a => Config.aim a p))
  | none => none

/-- A comet takes its place in a list, the nearest path first. -/
def insertNear (p : Nat) (c : Comet) : List Comet → List Comet
  | [] => [c]
  | x :: t => match c.gapTo p, x.gapTo p with
    | some a, some b => if a < b then c :: x :: t else x :: insertNear p c t
    | some _, none => c :: x :: t
    | none, _ => x :: insertNear p c t

/-- The comets that a crossing at a port names (R202): those slewing or acquiring on the plane of the port's circuits in force,
the nearest path first. -/
def Dev.crossers (d : Dev) (p : Nat) : List Comet :=
  let planes := (d.forceAt p).map (·.plane)
  (d.arr.comets.filter (fun c => (c.state == .slewing || c.state == .acquiring) && (planes.isEmpty || planes.contains c.plane))).foldl
    (fun l c => insertNear p c l) []

/-- PILOT_CROSSING (R161, R202): logged with as many comets as DETAIL holds, counted, and a watch opens on the port, for the nearest
comet. With no comet slewing or acquiring the watch and its WITHDRAW carry the identifier 0 (DESIGN CHOICE, log 88). -/
def execPilotCrossing (p : Fin 1024) (s : State) : Host.Outcome State Fault Refusal :=
  .next (s.onDev fun d =>
    if !d.podServed (podOf p) || d.pilotExpected p then d
    else
      let l := d.crossers p
      let id := match l with | c :: _ => c.id | [] => 0
      let d := d.info 0x0206 2 p ((l.take 14).flatMap (fun c => le 2 c.id))
      let d := (d.bump (0x3800 + p) 0x10).bump 0x2602 8
      let w : Watch := { port := p, till := d.now + d.nat 0x2600 3 * Config.ms, comet := id }
      { d with arr := { d.arr with watches := d.arr.watches.filter (fun x => x.port != p.val) ++ [w] } })

/-- TAP_REPORT (R162): the tap powers of the pod's ports; a plane with no mask lane reads −99.99 dBm. -/
def execTapReport (q : Fin 64) (cycle : Nat) (powers : TapPowers) (crcOk : Bool) (s : State) :
    Host.Outcome State Fault Refusal :=
  .next (s.onDev fun d =>
    if !d.podServed q then d
    else if !crcOk then d.podError q 1
    else if cycle != d.cycleNow % 65536 then d
    else
      let d := ((upto 16).zip powers.taps).foldl (fun (d : Dev) (e : Nat × Int × Int) =>
        let p := 16 * q.val + e.1
        let power := fun (plane : Nat) (x : Int) => if d.monitorMask p &&& d.routedTo p plane = 0 then -9999 else x
        d.modBank p (fun b => { b with tapA := power 0 e.2.1, tapB := power 1 e.2.2, tapGone := false })) d
      { d with eng := { d.eng with
          tapPoison := d.eng.tapPoison.filter (fun p => podOf p != q.val) ++ powers.poison.map (fun i => 16 * q.val + i) } })

/-- HEATER_REPORT (R166): offsets with their poison marks, which stand until the next heater trigger (R25), lane powers and the
pod's temperature. -/
def execHeaterReport (q : Fin 64) (offsets : RingOffsets) (powers : List Int) (temp : Int) (crcOk : Bool) (s : State) : Host.Outcome State Fault Refusal :=
  .next (s.onDev fun d =>
    if !d.podServed q then d
    else if !crcOk then d.podError q 1
    else
      let first := !(d.podAt q).lock
      let d := d.modPod q (fun x => { x with
        eps := offsets.eps, tempPrev := if first then temp else x.temp, temp := temp, lock := true
        poisoned := offsets.poison.foldl sinsert x.poisoned })
      let d := d.setNum (0x3C00 + q) 3 temp
      let d := ((upto 16).zip (chunks 11 16 offsets.eps)).foldl (fun (d : Dev) (e : Nat × List (Option Int)) =>
        d.setOct (0x3800 + 16 * q + e.1) 0x0A (leIList 2 (e.2.map (fun x => x.getD (-32768))))) d
      let d := d.notePowers q powers
      if first then d.reconcile q powers else d)

/-- BANK_ACK (R200): the banks that the pod reports applied and settled, stamped at its arrival less the pod's Lq (R123); one with a
poisoned word is not acted on (R25, log 101). -/
def execBankAck (q : Fin 64) (_id : Nat) (applied : Fin 65536) (settled : Bool) (chk : FrameCheck) (s : State) :
    Host.Outcome State Fault Refusal :=
  .next (s.onDev fun d =>
    if !d.podServed q then d
    else if !chk.crcOk then d.podError q 1
    else if chk.poison then d
    else
      let d := d.modPod q (fun x => { x with ackAt := some (d.podStamp q) })
      if settled then d.banksReported q applied else d)

/-- SWEEP_RESULT (R171, R172): a sweep in which the lane's light fell below the threshold aborts the round; one with a
poisoned word is not acted on (R25, log 101). -/
def execSweepResult (q : Fin 64) (loc : Fin 16) (lane : Fin 8) (offset : Int) (points : List (Int × Int)) (chk : FrameCheck)
    (s : State) : Host.Outcome State Fault Refusal :=
  .next (s.onDev fun d =>
    if !d.podServed q then d
    else if !chk.crcOk then d.podError q 1
    else if chk.poison then d
    else
      let p := 16 * q.val + loc.val
      let mine := fun (r : Round) => r.ports.contains p && r.lane == lane.val
      match d.rings.rounds.find? mine with
      | none => d
      | some r =>
        let d := (d.reach (r.start + 540 * Config.us)).calDue
        if !d.rings.rounds.any mine then d
        else if points.any (fun (x : Int × Int) => max x.1 x.2 < d.lossThreshold p) then (d.rings.rounds.filter mine).foldl Dev.abortRound d
        else
          let d := d.modPod q (fun x => { x with sweep := none })
          d.modRound r (fun x =>
            { x with sweeps := x.sweeps.filter (fun y => y.1 != p) ++ [(p, offset, points)], stage := max x.stage 1 }))

/-- Whether an immediate write to a tuner is accepted: its port has neither a circuit in force nor a comet (R165). -/
def Dev.immediateOk (d : Dev) (p : Nat) : Bool :=
  (d.forceAt p).isEmpty && !d.arr.comets.any (fun c => c.active && (c.north == p || southPort c.south == p))

/-- A write enters a bank; one that has been applied or undone starts afresh (R164). -/
def Bank.write (b : Bank) (ring code : Nat) : Bank :=
  if 2 ≤ b.life then { codes := [(ring, code)], life := 1 } else { b with codes := tset b.codes ring code, life := 1 }

/-- POD_TUNER_WRITE (R164, R165). -/
def execPodTunerWrite (q : Fin 64) (writes : List TunerWrite) (crcOk : Bool) (s : State) : Host.Outcome State Fault Refusal :=
  .next (s.onDev fun d =>
    if !crcOk then d.podError q 1
    else writes.foldl (fun (d : Dev) (w : TunerWrite) =>
      if w.bank = 0xFF then
        if d.immediateOk (16 * q + w.ring / 11) then d.modPod q (fun x => { x with junction := tset x.junction w.ring w.code })
        else d
      else d.modPod q (fun x => { x with banks := tmod {} x.banks w.bank (fun b => b.write w.ring w.code) })) d)

/-- POD_STROBE_DESC (R176): kept in arrival order, at most 16. -/
def execPodStrobeDesc (q : Fin 64) (id : Nat) (acts : List DescAct) (crcOk : Bool) (s : State) :
    Host.Outcome State Fault Refusal :=
  .next (s.onDev fun d =>
    if !crcOk || 16 ≤ (d.podAt q).descs.length then d.podError q 1
    else
      let mine := (acts.filter (fun a => a.podMask.testBit (q % 4))).map (fun a => (a.bank, a.undo, a.delay))
      d.modPod q (fun x => { x with descs := x.descs ++ [{ id := id, acts := mine }] }))

/-- A bank is applied: the codes that its tuners held are saved in it (R164). -/
def Pod.applyBank (x : Pod) (tag : Nat) : Pod :=
  let b := tget {} x.banks tag
  if b.life = 0 then x
  else
    let saved := b.codes.map (fun e => (e.1, tget 0 x.junction e.1))
    { x with junction := b.codes.foldl (fun t e => tset t e.1 e.2) x.junction
             banks := tset x.banks tag { b with saved := saved, life := 2 } }

/-- A bank is undone: its saved codes return, even where a later bank has changed a tuner (R164). -/
def Pod.undoBank (x : Pod) (tag : Nat) : Pod :=
  let b := tget {} x.banks tag
  { x with junction := b.saved.foldl (fun t e => tset t e.1 e.2) x.junction
           banks := if b.life = 0 then x.banks else tset x.banks tag { b with saved := [], life := 3 } }

/-- The actions of a descriptor in the order of their delays. -/
def Desc.inOrder (e : Desc) : List (Nat × Bool × Nat) :=
  let delays := (e.acts.map (fun a => a.2.2)).foldl sinsert []
  delays.flatMap (fun t => e.acts.filter (fun a => a.2.2 = t))

/-- POD_MARK (R164, R176): the oldest matching descriptor acts, older ones are discarded, and the pod reports. -/
def execPodMark (q : Fin 64) (low : Fin 256) (s : State) : Host.Outcome State Fault Refusal :=
  .next (s.onDev fun d =>
    let ds := (d.podAt q).descs
    let old := ds.takeWhile (fun e => e.id % 256 != low.val)
    match ds.drop old.length with
    | [] => d.podError q 1
    | e :: rest =>
      let d := (d.podError q old.length).modPod q (fun x => { x with descs := rest })
      let d := e.inOrder.foldl (fun (d : Dev) (a : Nat × Bool × Nat) =>
        d.modPod q (fun x => if a.2.1 then x.undoBank a.1 else x.applyBank a.1)) d
      let done := maskOf ((e.acts.map Prod.fst).filter (fun t => 2 ≤ (tget {} (d.podAt q).banks t).life))
      if e.acts.isEmpty then d else d.podSend q 0x92 (le 2 e.id ++ le 2 done ++ [1, 0]))

/-- POD_HEATER_SET (R175): the codes apply at the next HCYC. -/
def execPodHeaterSet (q : Fin 64) (codes : List (Fin 4096)) (crcOk : Bool) (s : State) : Host.Outcome State Fault Refusal :=
  .next (s.onDev fun d =>
    if !crcOk then d.podError q 1 else d.modPod q (fun x => { x with next := (upto 176).zip (codes.map Fin.val) }))

/-- POD_MONITOR_SET (R162). -/
def execPodMonitorSet (q : Fin 64) (ports : List MonitorSet) (crcOk : Bool) (s : State) : Host.Outcome State Fault Refusal :=
  .next (s.onDev fun d =>
    if !crcOk then d.podError q 1
    else ((upto 16).zip ports).foldl (fun (d : Dev) (e : Nat × MonitorSet) =>
      d.modBank (16 * q + e.1) (fun b =>
        { b with podMask := e.2.mask, podPilotExpected := e.2.flags.testBit 0, podThreshold := e.2.threshold })) d)

/-- POD_DELAY_SET (R119). -/
def execPodDelaySet (q : Fin 64) (delay : Fin 256) (crcOk : Bool) (s : State) : Host.Outcome State Fault Refusal :=
  .next (s.onDev fun d => if !crcOk then d.podError q 1 else d.modPod q (fun x => { x with strobeDelay := delay }))

/-- POD_CAL_SWEEP (R171): the pod sweeps the lane ring over the detunings named. -/
def execPodCalSweep (q : Fin 64) (loc : Fin 16) (lane : Fin 8) (first step points : Nat) (crcOk : Bool) (s : State) :
    Host.Outcome State Fault Refusal :=
  .next (s.onDev fun d =>
    if !crcOk then d.podError q 1 else d.modPod q (fun x => { x with sweep := some (loc, lane, first, step, points) }))

/-- POD_LBK (R177): the pod that the request names echoes it. -/
def execPodLbk (q : Fin 64) (position : Fin 4) (s : State) : Host.Outcome State Fault Refusal :=
  .next (s.onDev fun d => if q.val % 4 = position.val then d.emit (.lbk (q.val / 4) position true (lbkGroups position true)) else d)

/-- POD_LOCK_LOSS (R176): the applied settings stay. -/
def execPodLockLoss (q : Fin 64) (s : State) : Host.Outcome State Fault Refusal :=
  .next (s.onDev fun d =>
    (d.podError q (d.podAt q).descs.length).modPod q (fun x => { x.discardPending with lock := false }))

/-- The measured Lq of a pod follows a change of its offset to its flip input (R177). -/
def Dev.moveLatency (d : Dev) (q : Nat) (by_ : Int) : Dev :=
  if by_ = 0 then d
  else
    let j := linkOfPod q
    let l := (((tget 0 (d.podLink j).lat (q % 4) : Nat) : Int) + by_).toNat
    ((d.setNum 0x2241 (q + 1) l).modPodLink j (fun x => { x with lat := tset x.lat (q % 4) l })).rewriteDelays j

/-- POD_DISCOVERED (R178, R259): the store of a pod is read; one for whose serial CALIBRATION holds no record is taken over, and a pod
that comes to another position, or back to one, brings its record with it. -/
def execPodDiscovered (q : Fin 64) (store : PodStore) (s : State) : Host.Outcome State Fault Refusal :=
  .next (s.onDev fun d =>
    if !d.isOn 8 then d
    else
      let record := d.recordOf q store.serial
      let d := match record with
        | some r => if (d.podAt q).serial == store.serial then d else d.loadRecord q r
        | none => d
      let ok := match record with
        | some r => store.crcOk && (crosstalkCheck q r.matrix).1 = 0
        | none => storeOk q store
      let measured := (tfind (d.podLink (linkOfPod q)).lat (q % 4)).isSome
      if !ok || !measured then
        if (d.podAt q).state == .inService then d.losePod q .outOfService true
        else d.modPod q (fun x => { x with state := .outOfService })
      else
        let was := (d.podAt q).flipOffset
        let d := if record.isSome then d.modPod q (fun x => { x with flipOffset := store.flipOffset })
          else (d.reposition q store.serial).takeStore q store
        let d := d.moveLatency q (store.flipOffset - was)
        let d := d.modPod q (fun x => { x with state := .inService })
        ((d.portsIn q).sendMonitor q).unlatch 0x0305 4 q)

/-- POD_LOST (R259). -/
def execPodLost (q : Fin 64) (storeBad : Bool) (s : State) : Host.Outcome State Fault Refusal :=
  .next (s.onDev fun d => d.losePod q (if storeBad then .outOfService else .absent) storeBad)

/-- POD_CHAIN_CHANGE (R259): the link is trained again and every pod on it is measured; a bypassed pod is gone. -/
def execPodChainChange (q : Fin 64) (added : Bool) (s : State) : Host.Outcome State Fault Refusal :=
  .next (s.onDev fun d =>
    let j := linkOfPod q
    let d := if added then d else d.losePod q .absent false
    let d := d.modPodLink j (fun x => { x with lat := [], trained := false })
    if d.isOn 8 && d.isOn 3 then d.measureLatency j else d)

/-- CAL_BACKGROUND_TIMER (R170): once a second, one round at a time. -/
def execCalBackgroundTimer (s : State) : Host.Outcome State Fault Refusal :=
  .next (s.onDev fun d =>
    let busy := d.rings.rounds.any (·.background) ||
      d.power.deferred.any (fun g => g.cls == 2 && g.prio == .background) ||
      d.power.grants.any (fun g => g.cls == 2 && g.prio == .background)
    if busy || !d.holdsDrive then d
    else
      let d := if d.rings.lastRound = 0 then d else d.reach (d.rings.lastRound + Config.sec)
      match d.nextCalLane with
      | none => d
      | some (p, k) =>
        let d := { d with rings := { d.rings with due := true } }
        d.request 2 .background 1 (({ north := p, south := none, plane := 0, lane := k, start := 0 } : Round).holder) 0)

/-- CAL_ROUND_START (R170, R171): a round of a lane at a north port, or at a port without a circuit in MAINTENANCE. -/
def execCalRoundStart (p : Fin 1024) (k : Fin 8) (s : State) : Host.Outcome State Fault Refusal :=
  .next (s.onDev fun d =>
    let start := d.nextCycle
    let live := d.circuits.find? (fun c => c.north == p.val && d.roundFree c k start)
    match d.freeTags 1, live, d.bareRoundFree p k with
    | some [tag], some c, _ =>
      let r : Round := { north := c.north, south := some c.south, plane := c.plane, lane := k, start := start, tag := tag }
      match d.calPermit r with
      | some u => d.startRound { r with background := u.isNone, under := u }
      | none => d
    | some [tag], none, true =>
      let r : Round := { north := p, south := none, plane := 0, lane := k, start := start, tag := tag }
      match d.calPermit r with
      | some u => d.startRound { r with background := u.isNone, under := u }
      | none => d
    | _, _, _ => d)

/-- CAL_FIT (R171, R172, R158) at R + 650 µs. -/
def execCalFit (p : Fin 1024) (k : Fin 8) (fits : List Fit) (s : State) : Host.Outcome State Fault Refusal :=
  .next (s.onDev fun d => match d.roundOf p k with
    | some r => if r.stage < 2 && r.back.isNone then ((d.reach (r.start + 650 * Config.us)).calDue).fitRound r fits else d
    | none => d)

/-- CAL_LANE_IN (R171) at R + 700 µs: the strobe armed at the fit returns the lane. -/
def execCalLaneIn (p : Fin 1024) (k : Fin 8) (s : State) : Host.Outcome State Fault Refusal :=
  .next (s.onDev fun d => match d.roundOf p k with
    | some r =>
      if r.stage = 2 && r.back.isNone then
        ((d.reach (r.start + 700 * Config.us)).laneBack r).modRound r (fun x => { x with stage := 3 })
      else d
    | none => d)

/-- CAL_LANE_REJOIN (R171) at R + 750 µs: the lane is monitored again. -/
def execCalLaneRejoin (p : Fin 1024) (k : Fin 8) (s : State) : Host.Outcome State Fault Refusal :=
  .next (s.onDev fun d => match d.roundOf p k with
    | some r => if r.stage = 3 then (d.reach (r.start + 750 * Config.us)).endRound r else d
    | none => d)

end Sys2Proof.Machine
end

