-- ==== Sys2Proof/Machine/SteeringFamily.lean ====
section
/-!
DEFINITION. The commands of chapter 05 that carry no SDO request: frames of boards on both sides of a drive link, ends of
motions, pilot readings, dither groups, searches, tunes, and boards found or lost.
-/

namespace Sys2Proof.Machine
open Sys2Proof

/-- STATUS of a sensor frame (Table 5.5): HOLDING shows in BOARD_STATE, and both grants together are a double grant
(R343). -/
def Dev.boardStatus (d : Dev) (b status : Nat) : Dev :=
  let hold := status.testBit 0
  let x := (d.board b).state
  let d :=
    if hold && x == .inService then (d.setBoard b .holding).setNum (0x3D00 + b) 10 (d.now : Nat)
    else if !hold && x == .holding then d.setBoard b .inService
    else d
  if status.testBit 1 && status.testBit 2 then (d.raise 0x0B02 1 5 b).bump 0x2500 9 else d

/-- LANES_UP shows the aligned lanes over which a board stripes its frames (R258). -/
def Dev.lanesUp (d : Dev) (b lanes : Nat) : Dev := d.setNum (0x3D00 + b) 7 (lanes : Nat)

/-- SENSOR_FRAME (R148): a frame that passes its checks is queued for the input latch of the board's slice. One of a lost board, or of a
slice that does not run, is not taken (R28, R233). -/
def execSensorFrame (b : Fin 16) (f : SensorF) (s : State) : Host.Outcome State Fault Refusal :=
  .next (s.onDev fun d =>
    if (d.board b).state == .absent || (d.board b).state == .fault || !d.isOn 8 || !d.boardServed b then d
    else
    let d := d.lanesUp b f.lanes
    if !f.crcOk then d.bump (0x3D00 + b) 8
    else if f.board != b.val then d
    else
      let q : SFrame := { cycle := f.cycle, pos := f.pos, applied := f.applied, faulty := f.faults, poisoned := f.poisoned }
      (d.modBoard b (fun x => { x with queued := some q })).boardStatus b f.status)

/-- BOARD_COMMAND_FRAME (R148): the board takes the outputs for its next cycle marker and leaves HOLDING, or holds. -/
def execBoardCommandFrame (b : Fin 16) (board seq cycle twin : Nat) (outs : List (Int × Bool)) (crcOk : Bool) (s : State) :
    Host.Outcome State Fault Refusal :=
  .next (s.onDev fun d =>
    if d.boardTakes b board twin crcOk && cycle = d.cycleNow + 1 then
      let live := ((upto outs.length).zip outs).filter (fun (e : Nat × Int × Bool) => !e.2.2)
      d.modBoard b (fun x =>
        { x with next := some (cycle, live.map (fun (e : Nat × Int × Bool) => (e.1, e.2.1))), holding := false, rxSeq := seq, accepted := true })
    else d.modBoard b (fun x => { x with next := none }))

/-- BOARD_HOLD_FRAME (R149): the board holds every output and sets HOLDING. -/
def execBoardHoldFrame (b : Fin 16) (board seq cycle twin : Nat) (crcOk : Bool) (s : State) :
    Host.Outcome State Fault Refusal :=
  .next (s.onDev fun d =>
    if d.boardTakes b board twin crcOk && cycle = d.cycleNow + 1 then
      d.modBoard b (fun x => { x with next := none, holding := true, rxSeq := seq, accepted := true })
    else d.modBoard b (fun x => { x with next := none }))

/-- TRAJECTORY_END (R137). -/
def execTrajectoryEnd (a : Fin 4096) (s : State) : Host.Outcome State Fault Refusal := .next (s.onDev fun d => d.trajectoryEnd a)

/-- STOP_END (R139). -/
def execStopEnd (a : Fin 4096) (s : State) : Host.Outcome State Fault Refusal := .next (s.onDev fun d => d.stopEnd a)

/-- PILOT_READING (R140): it acts at the next input latch. -/
def execPilotReading (h : Fin 2048) (ex ey level : Int) (light : PilotLight) (s : State) : Host.Outcome State Fault Refusal :=
  .next (s.onDev fun d => d.pilotReading h ex ey level light)

/-- DITHER_GROUP_END (R142). -/
def execDitherGroupEnd (h : Fin 2048) (s : State) : Host.Outcome State Fault Refusal :=
  .next (s.onDev fun d => d.ditherGroup h)

/-- SEARCH_END (R144). -/
def execSearchEnd (h : Fin 2048) (s : State) : Host.Outcome State Fault Refusal := .next (s.onDev fun d => d.searchEnd h)

/-- OPEN_HOLD_LIMIT (R136): what is open by command closes by cold adoption. -/
def execOpenHoldLimit (h : Fin 2048) (s : State) : Host.Outcome State Fault Refusal :=
  .next (s.onDev fun d =>
    match d.openLimit h with
    | some t =>
      let d := d.reach t
      d.closeWhere h (fun x => match x.openUntil with | some u => decide (u ≤ d.now) | none => false)
    | none => d)

/-- AUTOTUNE_END (R147). -/
def execAutotuneEnd (a : Fin 4096) (s : State) : Host.Outcome State Fault Refusal := .next (s.onDev fun d => d.autotuneEnd a)

/-- TUNE_TIMEOUT (R147). -/
def execTuneTimeout (a : Fin 4096) (s : State) : Host.Outcome State Fault Refusal := .next (s.onDev fun d => d.tuneTimeout a)

/-- BOARD_IDENTITY (R258): a good record of the right board takes it from ABSENT to ADOPTING, and HOLD frames follow; a twin without the
grant ignores it. -/
def execBoardIdentity (b : Fin 16) (board : BoardRec) (serial firmware : Bytes) (hv : Int) (crcOk : Bool) (s : State) :
    Host.Outcome State Fault Refusal :=
  .next (s.onDev fun d =>
    if !crcOk || !d.isOn 8 || !d.holdsDrive then d
    else if board.number != b.val then d.raise 0x0204 1 5 b
    else
      let x := 0x3D00 + b.val
      let d := ((d.setOct x 3 (padTo 16 serial)).setOct x 4 (padTo 8 firmware)).setNum x 5 hv
      let d := d.lanesUp b board.lanes
      let d := d.modBoard b (fun y => { y with discovered := true })
      if (d.board b).state == .absent || (d.board b).state == .fault then
        let d := (d.setBoard b .adopting).modBoard b (fun y => { y with holdFrames := 0, missed := 0 })
        d.sendBoard b true []
      else d)

/-- BOARD_LOST (R258): a drained board becomes ABSENT with no fault; another's axes miss from here on (R129). -/
def execBoardLost (b : Fin 16) (s : State) : Host.Outcome State Fault Refusal :=
  .next (s.onDev fun d =>
    let d := d.modBoard b (fun x => { x with discovered := false, queued := none, accepted := false })
    let d := d.lanesUp b 0
    match (d.board b).state with
    | .absent => d
    | .drained => d.setBoard b .absent
    | _ => d.setBoard b .fault)

end Sys2Proof.Machine
end

