-- ==== Sys2Proof/Machine/StoreFamily.lean ====
section
/-!
DEFINITION. What the response of an accepted write waits for (R85, R93, R309, R353, R397): validation, the settings
record, the retire record, and the twin's confirmation of a store item.
-/

namespace Sys2Proof.Machine
open Sys2Proof

/-- The response that waited for the confirmation of an item leaves, where the item no longer awaits one. -/
def storeAnswered (m : Mach) : Mach :=
  match m.1.net.waiting with
  | some (.store c index sub key _) =>
    if (tfind m.1.twin.unconfirmed key).isSome then m else finish m (.response c index sub [])
  | _ => m

/-! ### Validation (R85) -/

/-- The validation that a write waits for has run. -/
def validated (m : Mach) : Mach :=
  match m.1.net.waiting with
  | some (.validation (.write c index sub complete data) _) =>
    let d := { m.1 with net := { m.1.net with waiting := none } }
    let ports := 0x2080 ≤ index && index < 0x2090 && sub = 4 && !complete
    let x := if ports then portsValidated (d, m.2) c index sub else handleWrite (d, m.2) c index sub complete data true
    serve (answer x.1 (.write c index sub complete data) x.2)
  | _ =>
    match m.1.upd.toValidate with
    | [] => m
    | j :: t => (({ m.1 with upd := { m.1.upd with toValidate := t } }).validateJob j, m.2)

/-- VALIDATION_DONE: the report and VALIDATED_PERIOD are updated and the waiting response leaves; after a start the next
job's almanac is validated (R85, R393). -/
def execValidationDone (s : State) : Host.Outcome State Fault Refusal :=
  .next (s.onMem fun d h => validated (d, h))

/-! ### Flash records -/

/-- A settings record stands: the response that waited for it leaves, or goes on to wait for the twin. -/
def settingsAnswered (m : Mach) : Mach :=
  match m.1.net.waiting with
  | some (.settings c index sub) =>
    match itemOf index sub with
    | some (i, k) =>
      if m.1.awaitsCopy i k then
        ({ m.1 with net := { m.1.net with waiting := some (.store c index sub (storeKey i k) m.1.now) } }, m.2)
      else finish m (.response c index sub [])
    | none => finish m (.response c index sub [])
  | _ => m

/-- SETTINGS_RECORD_COMMITTED: the record's marker is written and the response leaves (R93, R397); with a poisoned word in it nothing is
programmed, and the request is aborted (R311). -/
def execSettingsRecordCommitted (s : State) : Host.Outcome State Fault Refusal :=
  .next (s.onMem fun d h =>
    match d.net.waiting with
    | some (.settings c index sub) =>
      if d.settingsPoisoned then finish (d.commitSettings, h) (.abort c index sub 0x06060000) else settingsAnswered (d.commitSettings, h)
    | _ => (d.commitSettings, h))

/-- RETIRE_RECORD_WRITTEN: the retire record reaches flash, or fails, and the response leaves (R309). -/
def execRetireRecordWritten (ok : Bool) (s : State) : Host.Outcome State Fault Refusal :=
  .next (s.onMem fun d h =>
    match d.net.waiting with
    | some (.retire c index sub) =>
      -- a stack that was switched off meanwhile takes no record ("PD12 or PD13 switched off during a retirement")
      let ok := ok && tget .off d.mem.stackOf (fld (d.oct 0x2840 1) 0 1) == .ready
      finish (d.retireWritten ok, h) (if ok then .response c index sub [] else .abort c index sub 0x06060000)
    | _ => (d, h))

/-! ### The twin's copies (R353) -/

/-- The item whose confirmation has been awaited longest. -/
def oldestItem (l : List (Nat × Nat)) : Option (Nat × Nat) :=
  l.foldl (fun r e => match r with | some x => if e.2 < x.2 then some e else r | none => some e) none

/-- STORE_CONFIRM_TIMEOUT: an item unconfirmed for 100 ms is stale, and the response leaves (R353). -/
def execStoreConfirmTimeout (s : State) : Host.Outcome State Fault Refusal :=
  .next (s.onMem fun d h =>
    match oldestItem d.twin.unconfirmed with
    | none => (d, h)
    | some e =>
      let d := d.reach (e.2 + 100 * Config.ms)
      let d := d.modTwin (fun t => { t with unconfirmed := tdel t.unconfirmed e.1, staleSet := sinsert t.staleSet e.1 })
      storeAnswered (d.refreshStale, h))

/-- A complete item of the twin: a summary is compared; any other is stored, in flash too, and confirmed (R353). -/
def Dev.storeItem (d : Dev) (m : StoreMsg) (b : Bytes) : Dev :=
  if m.item = 11 then d.summaryArrived b
  else
    let d := d.itemArrived m.item m.index m.version b
    if 3 ≤ m.item && m.item ≤ 9 then d.commitSettings else d

/-- A frame of an item: the first opens it, the next ones must follow on, the last completes it. -/
def Dev.storePart (d : Dev) (m : StoreMsg) : Dev :=
  let k := storeKey m.item m.index
  let drop := fun (d : Dev) => d.modTwin (fun t => { t with storeParts := tdel t.storeParts k })
  if m.flags.testBit 2 then (drop d).storeItem m []
  else
    let got := if m.flags.testBit 0 then some [] else tfind d.twin.storeParts k
    match got with
    | none => d
    | some b =>
      if b.length != m.offset then drop d
      else
        let b := b ++ m.data
        if m.flags.testBit 1 then
          if b.length = m.total then (drop d).storeItem m b else drop d
        else d.modTwin (fun t => { t with storeParts := tset t.storeParts k b })

/-- STORE_COPY: an item is stored and confirmed, or a confirmation or a summary arrives (R353, Table 13.5); an unlisted ITEM is a
violation (R15). -/
def execStoreCopy (m : StoreMsg) (s : State) : Host.Outcome State Fault Refusal :=
  .next (s.onMem fun d h =>
    if !d.joined then (d, h)
    else if m.item = 10 then storeAnswered (d.confirmed (fld m.data 0 1) (fld m.data 4 4) (fld m.data 8 8), h)
    else if 1 ≤ m.item && m.item ≤ 12 then (d.storePart m, h)
    else (d.linkViolation 38, h))

end Sys2Proof.Machine
end

