-- ==== Sys2Proof/Machine/TimeFamily.lean ====
section
/-!
DEFINITION. The commands of chapter 04: exchanges, PTP, the Orbit definition, strobes and their latencies, PPS.
-/

namespace Sys2Proof.Machine
open Sys2Proof

/-- Array time brought at least to a stamp in 2^-32 ns. -/
def Dev.reachStamp (d : Dev) (t : Nat) : Dev := d.modTime (fun x => { x with counter := max x.counter t })

/-- The next TIME_REQ goes to the parent (R103, Table 4.5), and an exchange still open counts as unanswered (R114). -/
def Dev.transfer (d : Dev) : Dev :=
  match d.time.parent with
  | none => d
  | some i =>
    let open_ : Bool := d.time.reqs.any (fun r => r.1 == d.time.seq)
    let d := match d.time.reqs.getLast? with
      | some r => if open_ then d.reach (r.2 / 2 ^ 32 + d.transferInterval) else d
      | none => d
    let n := if open_ then d.time.unanswered + 1 else 0
    let seq := (d.time.seq + 1) % 65536
    let fresh := d.time.reqs.filter (fun r => d.time.counter ≤ r.2 + 4 * d.transferInterval * 2 ^ 32)
    let d := d.modTime (fun t => { t with unanswered := n, seq := seq, reqs := fresh ++ [(seq, t.counter)] })
    let d := d.sendTime i 0x08
      (le 2 seq ++ le 1 (b2n d.anyArmed + 2 * b2n d.timeLocked) ++ le 1 d.twinId ++ le 2 d.chip ++ [0, 0])
    if 4 ≤ n && d.time.state == .locked && !d.time.isRoot then (d.setTState .holdover).reselect else d

/-- TRANSFER_INTERVAL (R103). -/
def execTransferInterval (s : State) : Host.Outcome State Fault Refusal :=
  .next (s.onDev fun d => if d.isOn 3 && !d.time.isRoot then d.transfer else d)

/-- TIME_REQ of a child: stamped, its ANY_ARMED taken, answered with TIME_RESP (R114). -/
def execTimeReq (port : Fin 7) (seq flags twin sender : Nat) (t2 residence : Nat) (s : State) :
    Host.Outcome State Fault Refusal :=
  .next (s.onDev fun d =>
    if !d.isOn 3 || (d.neighbour port).status != .confirmed || (d.neighbour port).chip != sender ||
        (d.neighbour port).twin != twin then d
    else
      let d := d.reachStamp t2
      let d := if flags.testBit 0 then d.modTime (fun t => { t with armedSeen := some d.now }) else d
      let d := d.reachStamp (t2 + residence)
      d.sendTime port 0x09 (d.timeResp seq t2 (t2 + residence)))

/-- TIME_RESP of the parent (R103, R106, R114, R116). -/
def execTimeResp (port : Fin 7) (seq flags depth leader : Nat) (utc : Int) (t2 t3 t4 : Nat) (o : OrbitDef) (s : State) :
    Host.Outcome State Fault Refusal :=
  .next (s.onDev fun d =>
    if !d.isOn 3 || d.time.parent != some port.val then d
    else
      let d := d.reachStamp t4
      match d.time.reqs.find? (fun r => r.1 = seq) with
      | none => d
      | some r =>
        let d := d.modTime (fun t => { t with reqs := t.reqs.filter (fun x => x.1 != seq) })
        if r.2 + 4 * d.transferInterval * 2 ^ 32 < t4 then d
        else
          let asym := ofPs (d.num 0x2250 (port + 1))
          let theta := (((t2 : Int) - r.2) - ((t4 : Int) - t3) + asym) / 2
          let delay := (((t4 : Int) - r.2) - ((t3 : Int) - t2)) / 2
          let d := d.setNum 0x2200 8 (toPs delay)
          let pending := flags.testBit 3
          let d := d.modTime (fun t => { t with parentNotice := pending })
          let d := (d.setNum 0x2200 0x0E (flags % 4)).setNum 0x2200 0x0D utc
          let d := d.setNum 0x2200 6 leader
          let d := d.modTime (fun t => { t with depth := if t.depth.isNone then some (depth + 1) else t.depth })
          (d.answered theta (flags.testBit 2) pending).learnDef o)

/-- HOLDOVER_LIMIT elapses (Table 4.2). -/
def execHoldoverLimit (s : State) : Host.Outcome State Fault Refusal :=
  .next (s.onDev fun d =>
    if d.time.state == .holdover then
      (d.reach (d.time.holdoverAt + d.nat 0x2201 2 * Config.ms)).setTState .free
    else d)

/-- A Sync of a slot's time transmitter (R108, R110), at a supported rate: one-step at once, two-step with its Follow_Up. -/
def execPtpSync (d : Fin 2) (gm : Nat) (k : SyncKind) (t1 t2 : Nat) (corr : Int) (s : State) :
    Host.Outcome State Fault Refusal :=
  .next (s.onDev fun v =>
    if !v.isOn 3 || k.poison || (v.ptp d).gm != gm || !syncRate k.interval then v
    else
      let v := v.reachStamp t2
      if k.twoStep then
        v.modPtp d (fun x =>
          let x := if x.state == .listening then { x with state := .tracking, agree := 0, sampleAt := 0 } else x
          { x with pendingSync := some (t2, corr) })
      else v.ptpSample d t1 t2 corr)

/-- The Follow_Up of a two-step Sync (R108). -/
def execPtpFollowUp (d : Fin 2) (t1 : Nat) (corr : Int) (s : State) : Host.Outcome State Fault Refusal :=
  .next (s.onDev fun v =>
    match (v.ptp d).pendingSync with
    | some p => v.ptpSample d t1 p.1 (p.2 + corr)
    | none => v)

/-- An Announce (R108 to R110): the best time transmitter, what the slot reports, its qualification, and a change of
grandmaster. Which state a QUALIFIED slot enters whose time transmitter no longer meets R109 the spec does not say: TRACKING
(DESIGN CHOICE, log 68). -/
def execPtpAnnounce (d : Fin 2) (a : PtpAnn) (s : State) : Host.Outcome State Fault Refusal :=
  .next (s.onDev fun v =>
    let x := v.ptp d
    if !v.isOn 3 || x.state == .disabled || a.poison || !x.takes a v.now then v
    else
      let other := x.gm != a.gm
      let v := v.modPtp d (fun x => x.heard a v.now)
      let v := v.modPtp d (fun x =>
        if other && (x.state == .tracking || x.state == .qualified || x.state == .jumped) then
          { x with state := .tracking, agree := 0, sampleAt := 0, pendingSync := none }
        else x)
      let v := v.ptpCheck d
      let v := if v.time.selected == some d.val then v.setNum 0x2200 0x0D a.utc else v
      v.selectPtp)

/-- Where a slot's frames go, `peer` those of the peer delay (Table 4.4). Both requests and Pdelay_Resp are event messages: UDP
port 319. -/
def Dev.ptpDest (d : Dev) (k : Nat) (peer : Bool) : PtpDest :=
  if d.nat (0x2210 + k) 5 = 2 then
    { layer2 := false, address := if peer then 0xE000006B else 0xE0000181, port := 319, domain := d.nat (0x2210 + k) 3 }
  else
    { layer2 := true, address := if peer then 0x0180C200000E else 0x011B19000000, port := 0x88F7, domain := d.nat (0x2210 + k) 3 }

/-- Delay_Req, or Pdelay_Req, leaves on the slot's time port (R108), one request interval after the last. -/
def execPtpDelayReqInterval (d : Fin 2) (s : State) : Host.Outcome State Fault Refusal :=
  .next (s.onDev fun v =>
    if !v.isOn 3 || (v.ptp d).state == .disabled then v
    else
      let v := match (v.ptp d).lastReq with
        | some a => v.reach (a + ptpInterval (v.ptp d).delayLog)
        | none => v
      let t := v.time.counter
      let peer := v.nat (0x2210 + d) 4 = 2
      (v.modPtp d (fun x => { x with reqAt := some t, lastReq := some v.now })).emit
        (.ptp (v.nat (0x2210 + d) 2) (if peer then 2 else 1) (v.ptpDest d peer) t 0))

/-- The slot's path delay and MEAN_PATH_DELAY. -/
def Dev.ptpDelay (d : Dev) (k : Nat) (x : Int) : Dev :=
  (d.modPtp k (fun p => { p with delay := x, reqAt := none })).setNum (0x2210 + k) 0x0B (toPs x)

/-- A Delay_Resp: end-to-end path delay from the last Sync (R108), and the request interval where its rate is supported. -/
def execPtpDelayResp (d : Fin 2) (t4 : Nat) (r : DelayAns) (s : State) : Host.Outcome State Fault Refusal :=
  .next (s.onDev fun v =>
    if r.poison then v else
    match (v.ptp d).reqAt, (v.ptp d).lastSync with
    | some t3, some y =>
      let v := if syncRate r.interval then v.modPtp d (fun x => { x with delayLog := r.interval }) else v
      v.ptpDelay d (((y.2 - y.1) + ((t4 : Int) - t3) - r.corr) / 2)
    | _, _ => v)

/-- The slot that works on a time port by the peer-to-peer mechanism (Table 4.4). -/
def Dev.peerSlot (d : Dev) (t : Nat) : Option Nat :=
  (upto 2).find? (fun k => d.flag (0x2210 + k) 1 && d.nat (0x2210 + k) 2 = t && d.nat (0x2210 + k) 4 = 2)


/-- A Pdelay_Req of the link peer is answered where a slot on the port works peer-to-peer (R108). -/
def execPtpPdelayReq (t : Fin 2) (t2 residence : Nat) (s : State) : Host.Outcome State Fault Refusal :=
  .next (s.onDev fun v =>
    match v.peerSlot t with
    | some k => if !v.isOn 3 then v
      else (v.reachStamp (t2 + residence)).emit (.ptp t 3 (v.ptpDest k true) t2 (t2 + residence))
    | none => v)

/-- A Pdelay_Resp: the slot's peer delay (R108). -/
def execPtpPdelayResp (d : Fin 2) (t2 t3 t4 : Nat) (corr : Int) (s : State) : Host.Outcome State Fault Refusal :=
  .next (s.onDev fun v =>
    match (v.ptp d).reqAt with
    | some t1 => (v.reachStamp t4).ptpDelay d ((((t4 : Int) - t1) - ((t3 : Int) - t2) - corr) / 2)
    | none => v)

/-- The step notice of the root ends (R113): the step follows if ANY_ARMED stayed clear and the slot is still
qualified, otherwise it is abandoned. -/
def execRootStepNoticeEnd (s : State) : Host.Outcome State Fault Refusal :=
  .next (s.onDev fun d =>
    match d.time.notice with
    | none => d
    | some t =>
      let d := (d.reach (t + 100 * Config.ms)).modTime (fun x => { x with notice := none })
      match d.time.selected with
      | some k =>
        if d.time.isRoot && d.clearSince t && (d.ptp k).state == .qualified then
          d.modTime (fun x => { x with stepDue := some (d.ptp k).offset })
        else d
      | none => d)

/-- A known Orbit definition takes effect (R116, R86). -/
def execOrbitDefFrom (s : State) : Host.Outcome State Fault Refusal :=
  .next (s.onDev fun d =>
    if d.time.newest == d.time.inForce then d else (d.reach d.time.newest.validFrom).applyDef)

/-- ORBIT_SYNC to every identified port (R117). -/
def execOrbitSyncInterval (s : State) : Host.Outcome State Fault Refusal := .next (s.onDev Dev.syncAll)

/-- A strobe of the commit path reaches the time unit (R118, R120, R176). -/
def execStrobeArm (z : Nat) (pods : List (Fin 64)) (tag : Fin 16) (s : State) : Host.Outcome State Fault Refusal :=
  .next (s.onDev fun d => if d.isOn 3 then (d.armStrobe { z := z, pods := pods.map Fin.val, tag := tag }).1 else d)

/-- A marker leaves on a pod link (R119, R120). -/
def execStrobeEmit (j : Fin 16) (s : State) : Host.Outcome State Fault Refusal :=
  .next (s.onDev fun d => if d.isOn 3 then d.emitMark j else d)

/-- The latencies of a pod link are measured in an idle slot (R119). -/
def execPodLatencyMeasure (j : Fin 16) (s : State) : Host.Outcome State Fault Refusal :=
  .next (s.onDev fun d => if d.isOn 8 && d.isOn 3 && !d.inState [.replay] then d.measureLatency j else d)

/-- A loopback echo (R177): Lq is half the round trip (ps) less 2 ns, plus the pod's offset to its flip input. -/
def execLbkEcho (q : Fin 64) (rtt : Nat) (s : State) : Host.Outcome State Fault Refusal :=
  .next (s.onDev fun d =>
    let l := (((rtt : Int) / 2) - 2000 + (d.podAt q).flipOffset).toNat
    let d := (d.setNum 0x2241 (q + 1) l).modPodLink (linkOfPod q) (fun x => { x with lat := tset x.lat (q % 4) l })
    d.rewriteDelays (linkOfPod q))

/-- An edge of PPS_IN is compared with the nearest whole second (R124). DESIGN CHOICE (log 94): PPS_IN_OFFSET, whose sign the spec
does not give, is the edge less that second. -/
def execPpsIn (stamp : Nat) (s : State) : Host.Outcome State Fault Refusal :=
  .next (s.onDev fun d =>
    if !d.isOn 3 then d
    else
      let d := d.reachStamp stamp
      let unit : Nat := 1000000000 * 2 ^ 32
      let near := (stamp + unit / 2) / unit * unit
      let d := (d.setNum 0x2260 1 (toPs ((stamp : Int) - near))).setFlag 0x2260 2 true
      d.modTime (fun t => { t with ppsAt := some (stamp / 2 ^ 32) }))

/-- PPS_OUT rises at a whole second while enabled (R124). -/
def execPpsOut (s : State) : Host.Outcome State Fault Refusal :=
  .next (s.onDev fun d =>
    if !d.isOn 3 then d
    else
      let z := (d.now / Config.sec + 1) * Config.sec
      let d := d.reach z
      if d.flag 0x2260 3 then ({ d with module := { d.module with ppsOutAt := z } }).emit (.pps z) else d)

/-- No edge of PPS_IN for 2 s (Table 4.9). -/
def execPpsInPresentTimeout (s : State) : Host.Outcome State Fault Refusal :=
  .next (s.onDev fun d =>
    match d.time.ppsAt with
    | some t => ((d.reach (t + 2 * Config.sec)).setFlag 0x2260 2 false).modTime (fun x => { x with ppsAt := none })
    | none => d)

end Sys2Proof.Machine
end

