-- ==== Sys2Proof/Machine/TwinFamily.lean ====
section
/-!
DEFINITION. The twins (chapter 13): heartbeat and grants, takeover, the state record, the mirrors of the collective
standby, planned hand-overs, the health test, and the service selector.
-/

namespace Sys2Proof.Machine
open Sys2Proof

/-! ### Heartbeat and grants (R342, R346) -/

/-- HEARTBEAT_WRITE: the management cluster writes the heartbeat through X19 (R342). -/
def execHeartbeatWrite (s : State) : Host.Outcome State Fault Refusal :=
  .next (s.onDev fun d => d.modTwin (fun t => { t with heartbeat := d.now }))

/-- HEARTBEAT_STOPPED: 20 µs after the last write PD0 drops both grants (R342), event 0x0B01. -/
def execHeartbeatStopped (s : State) : Host.Outcome State Fault Refusal :=
  .next (s.onDev fun d => ((d.reach (d.twin.heartbeat + 20 * Config.us)).dropGrants false).raise 0x0B01 3 0 0 true)

/-- Whether twin 1 withdraws: it asserted the grant at most 1 µs ago and now counts the twin's line (R342). -/
def Dev.mustWithdraw (d : Dev) (coll : Bool) : Bool :=
  d.twinId = 1 && (if coll then d.twin.ownColl && d.now ≤ d.twin.collAssertedAt + Config.us
    else d.twin.ownDrive && d.now ≤ d.twin.assertedAt + Config.us)

/-- The twin's grant line is counted high: the twin is ACTIVE in the role, and what this module wanted of it ends. -/
def Dev.lineRises (d : Dev) (coll : Bool) : Dev :=
  let d := d.modTwin (fun t =>
    if coll then { t with lineColl := true, collDropped := false, wantColl := false, twinColl := .active }
    else { t with lineDrive := true, driveDropped := false, wantDrive := false, twinDrive := .active, standbySince := 0 })
  let back := if d.joined then TRole.syncing else TRole.none
  let d := if d.mustWithdraw coll then (if coll then d.dropColl back else d.dropDrive false back) else d
  let d := if coll then d.aimSelector else d.recovered 4 (fun _ => true)
  d.topologyChanged

/-- The twin's grant line is counted low: the role is free, and a standby wants it; of the collective role a SYNCING module
too (Table 13.6, R356, R361). -/
def Dev.lineFalls (d : Dev) (coll : Bool) : Dev :=
  let d := d.modTwin (fun t =>
    if coll then
      { t with lineColl := false, collLowSince := d.now, collDropped := true, twinColl := .none
               wantColl := t.wantColl || t.coll == .standby || t.coll == .syncing }
    else
      { t with lineDrive := false, driveLowSince := d.now, driveDropped := true, twinDrive := .none, standbySince := 0
               wantDrive := t.wantDrive || t.drive == .standby })
  (if coll then d.aimSelector else d).topologyChanged

/-- TWIN_GRANT_EDGE: a counted edge of a twin grant line (R342, R354, R438). -/
def execTwinGrantEdge (coll high : Bool) (s : State) : Host.Outcome State Fault Refusal :=
  .next (s.onDev fun d =>
    if (if coll then d.twin.lineColl else d.twin.lineDrive) = high then d
    else if high then d.lineRises coll else d.lineFalls coll)

/-- A wanted grant is asserted once its guard has elapsed (R342), and the role is taken (R356, R361). -/
def takeGrant (m : Mach) (coll : Bool) : Mach :=
  let d := m.1
  let since := if coll then d.twin.collLowSince else d.twin.driveLowSince
  let wants := if coll then d.twin.wantColl && !d.twin.ownColl else d.twin.wantDrive && !d.twin.ownDrive
  if !wants || !d.mayAssert coll then m
  else
    let d := d.reach (since + d.grantGuard)
    let d := (d.modTwin (fun t => if coll then { t with ownColl := true } else { t with ownDrive := true })).emit (.grant coll true)
    if coll then
      let m := lostRamps (takeColl (d, m.2))
      (m.1.topologyChanged, m.2)
    else ((d.takeDrive.resumeHeaters (fun _ => true)).resumeReleases, m.2)

/-- GRANT_GUARD_ELAPSED: the twin's line has been low for 2 µs (twin 0) or 4 µs (twin 1) (R342). -/
def execGrantGuardElapsed (coll : Bool) (s : State) : Host.Outcome State Fault Refusal :=
  .next (s.onMem fun d h => takeGrant (d, h) coll)

/-- COLD_TAKEOVER_WAIT: the twin dropped the role 1 s ago and this module has not taken it (R346). -/
def execColdTakeoverWait (coll : Bool) (s : State) : Host.Outcome State Fault Refusal :=
  .next (s.onDev fun d =>
    let t := d.twin
    if coll then
      if t.coll != .active && !t.ownColl && !t.lineColl && t.collDropped && d.isC && !d.storeStale then
        (d.reach (t.collLowSince + Config.sec)).modTwin (fun t => { t with wantColl := true })
      else d
    else if t.drive != .active && !t.ownDrive && !t.lineDrive && t.driveDropped && !d.storeStale then
      (d.reach (t.driveLowSince + Config.sec)).modTwin (fun t => { t with wantDrive := true })
    else d)

/-! ### The state record (R348 to R352) -/

/-- The Director command that a record carries is applied in this cycle, under the guards of this module (R352). -/
def latchedCommand (m : Mach) (w : Nat) : Mach :=
  match cmdOf (bits w 3 0) with
  | some c => if c.from_.contains m.1.dir.state && m.1.cmdGuard c then cmdAct m c else m
  | none => m

/-- A complete record: with another MAGIC or FORMAT the twin is refused, JOIN_RESULT 5 (R4, R365); otherwise it is taken. -/
def twinRecord (m : Mach) (cycle : Nat) (b : Bytes) : Mach :=
  if fld b 0 2 != 0x5754 || fld b 2 1 != 1 then
    let d := { m.1 with disc := { m.1.disc with twinJoin := 5 } }
    ((d.setNum 0x2500 7 5).twinGone.topologyChanged, m.2)
  else latchedCommand (m.1.takeRecord cycle b, m.2) (fld b 14 2)

/-- TWIN_STATE: a fragment of the holder's record (R348). -/
def execTwinState (cycle frag frags offset : Nat) (data : Bytes) (s : State) : Host.Outcome State Fault Refusal :=
  .next (s.onMem fun d h =>
    if !d.joined || !d.followsDrive || frags = 0 || frags ≤ frag then (d, h)
    else
      let r := d.takeFragment cycle frag frags offset data
      match r.2 with
      | some b => twinRecord (r.1, h) cycle b
      | none => (r.1, h))

/-- TWIN_RECORDS_MISSED: the third record in a row is missing or incomplete (Table 13.6). -/
def execTwinRecordsMissed (s : State) : Host.Outcome State Fault Refusal :=
  .next (s.onDev fun d =>
    if d.twin.drive == .standby then (d.modTwin (fun t => { t with missing := max 2 t.missing })).missRecord else d)

/-! ### Mirrors (R358 to R362) -/

/-- The region of a bank that a MIRROR frame names, where the frame lies in it: its address. -/
def Dev.mirrorAddr (d : Dev) (job bank region offset len : Nat) : Option Nat :=
  let b := d.plan job
  if !b.isEmpty && (epochRegions b).contains region && offset + len ≤ ceilTo 64 (regionElem region * planN b) then some (d.bankAddr job bank region + offset)
  else none

/-- Data of an epoch arrives in a bank: the bank no longer holds a complete epoch until END (R358, R359). A narrow or misaligned frame
is refused whole (R297). -/
def mirrorData (m : Mach) (job bank addr step : Nat) (data : Bytes) (poison : Bool) : Mach :=
  let m := writeBytes m addr data poison
  if !wholeWords addr data.length then m
  else (m.1.modMirror job (fun x =>
    let new := x.epoch != step || x.into != bank || x.state = 3
    { (x.setBank bank (0, 0, 0)) with
      state := 2, epoch := step, into := bank, own := true
      progress := (if new then 0 else x.progress) + data.length }), m.2)

/-- The epoch header with END: the bank holds the epoch. -/
def Dev.mirrorEnd (d : Dev) (job bank : Nat) (data : Bytes) : Dev :=
  d.modMirror job (fun x =>
    { (x.setBank bank (fld data 0 8, fld data 8 8, fld data 16 4)) with
      state := 3, epoch := fld data 0 8, into := bank, progress := x.bytes, own := true })

/-- A frame at the module that follows: epoch data, its end, a model slot, or the request to stream a bank back. -/
def mirrorIn (m : Mach) (job bank region flags step offset : Nat) (data : Bytes) : Mach :=
  let poison := flags.testBit 0
  let m :=
    if job = 0xFF then
      let x := m.1.model (region - 0x80)
      if region < 0x80 || x.state == .empty || x.len < offset + data.length then m
      else if !wholeWords offset data.length then (m.1.narrowRefused (x.base + offset), m.2)
      else modelWrite m (region - 0x80) offset data poison
    else if 16 ≤ job || 2 ≤ bank then m
    else if (m.1.mirror job).base1 = 0 then m
    else if region = 0 then
      if flags.testBit 2 then
        let e := (m.1.mirror job).bank bank
        if e.1 = step && step != 0 && !flags.testBit 1 then mirrorOut m job bank bank 4 e else m
      else if flags.testBit 1 then (m.1.mirrorEnd job bank data, m.2) else m
    else match m.1.mirrorAddr job bank region offset data.length with
      | some a => if flags.testBit 2 then m else mirrorData m job bank a step data poison
      | none => m
  (m.1.followColl, m.2)

/-- The restored epoch is complete: the optimizer state takes its values (R362). -/
def Dev.restoreEnds (d : Dev) (job : Nat) (data : Bytes) : Dev :=
  ((d.release 3 (96 + job)).modEngJob job (fun x => { x with state := .ready, updated := fld data 0 8, count := fld data 8 8, lr := fld data 16 4 })).modMirror
    job (fun x => { x with restore := 2, restoreStep := fld data 0 8 })

/-- A frame at the holder that restores from its twin's bank (R362). -/
def restoreIn (m : Mach) (job region flags offset : Nat) (data : Bytes) : Mach :=
  let x := m.1.mirror job
  if 16 ≤ job || !flags.testBit 2 || x.restore != 1 || x.restoreFrom != 2 then m
  else if region = 0 then (if flags.testBit 1 then (m.1.restoreEnds job data, m.2) else m)
  else match m.1.mirrorAddr job 0 region offset data.length with
    | some a => writeBytes m a data (flags.testBit 0)
    | none => m

/-- MIRROR: an epoch or a model reaches the standby, a restore the holder, or the request of one its twin (R360, R362); an unlisted
REGION is a violation (R15). -/
def execMirror (job bank region flags step offset : Nat) (data : Bytes) (s : State) : Host.Outcome State Fault Refusal :=
  .next (s.onMem fun d h =>
    if !d.joined then (d, h)
    else if 6 ≤ region && region < 0x80 then (d.linkViolation 38, h)
    else if d.holdsColl then restoreIn (d, h) job region flags offset data
    else if d.twin.coll == .syncing || d.twin.coll == .standby then mirrorIn (d, h) job bank region flags step offset data
    else (d, h))

/-- COLL_RESTORE_DONE: the HBM copy of the own bank 1 is complete (R362). -/
def execCollRestoreDone (j : Fin 16) (s : State) : Host.Outcome State Fault Refusal :=
  .next (s.onMem fun d h =>
    let x := d.mirror j
    if d.holdsColl && x.restore = 1 && x.restoreFrom = 1 then restoreBank (d, h) j 1 else (d, h))

/-! ### Planned hand-overs (R355, R357) -/

/-- HANDOVER_GRANT_DROP: at the start of HANDOVER_CYCLE + 10 µs (R355). -/
def execHandoverGrantDrop (s : State) : Host.Outcome State Fault Refusal :=
  .next (s.onDev fun d => if d.holdsDrive && d.twin.handoverCycle != 0 then d.handDrive else d)

/-- ROLE_SWAP_DUE: a planned hand-over is ordered, or waits for an allowed instant (R357). -/
def execRoleSwapDue (s : State) : Host.Outcome State Fault Refusal :=
  .next (s.onDev fun d =>
    if !d.holdsDrive || d.nat 0x2510 1 = 0 || d.twin.swapWaiting.isSome || d.twin.handoverCycle != 0 then d
    else
      let d := d.reach d.twin.swapDue
      if d.mayHandDrive then d.announceDrive
      else (d.handoverState 1).modTwin (fun t => { t with swapWaiting := some d.now }))

/-- ROLE_SWAP_NOT_FOUND: 24 h after a swap fell due it is logged, and the holder keeps trying (R357). -/
def execRoleSwapNotFound (s : State) : Host.Outcome State Fault Refusal :=
  .next (s.onDev fun d =>
    match d.twin.swapWaiting with
    | some t =>
      let d := d.reach (t + 86400 * Config.sec)
      (d.info 0x0B01 0 0).modTwin (fun t => { t with swapWaiting := some d.now })
    | none => d)

/-! ### The health test of the collective standby (R360) -/

/-- Whether this module follows its twin in the collective role. -/
def Dev.followsColl (d : Dev) : Bool := d.joined && (d.twin.coll == .syncing || d.twin.coll == .standby)

/-- HEALTH_TEST_DUE: HEALTH_INTERVAL after the last passed test, a BIST permit is asked for PD11. -/
def execHealthTestDue (s : State) : Host.Outcome State Fault Refusal :=
  .next (s.onDev fun d =>
    if d.isC && d.followsColl && !d.twin.healthRun && !d.isOn 11 && (d.grantOf 5 11).isNone then
      let d := match d.twin.healthPassed with
        | some t => d.reach (t + d.nat 0x2520 3 * Config.sec)
        | none => d
      (d.request 5 .normal 1 11 0).startHealth
    else d)

/-- The report of a health test: 32 bytes (R360). -/
def Dev.healthReport (d : Dev) (passed failed ueCount lapEnd : Nat) : Bytes :=
  le 8 d.now ++ le 1 passed ++ le 1 failed ++ zeros 2 ++ le 4 ueCount ++ le 8 lapEnd ++ zeros 8

/-- The test ends: its report is stored and sent, PD11 goes off, and a failure ends the role (R360). -/
def healthDone (m : Mach) (passed failed ueCount lapEnd : Nat) : Mach :=
  let d := (m.1.setOct 0x2520 4 (m.1.healthReport passed failed ueCount lapEnd)).copyItem 12 0
  let d := d.modTwin (fun t =>
    { t with healthRun := false
             healthPassed := if failed = 0 then some d.now else t.healthPassed
             coll := if failed = 0 then t.coll else .none })
  let d := if failed = 0 then d else d.raise 0x0704 1 0 0
  let m := offWith (d.release 5 11, m.2) 11
  (m.1.followColl, m.2)

/-- HEALTH_TEST_DONE (R360). -/
def execHealthTestDone (passed failed : Fin 16) (ueCount lapEnd : Nat) (s : State) : Host.Outcome State Fault Refusal :=
  .next (s.onMem fun d h => if d.twin.healthRun then healthDone (d, h) passed failed ueCount lapEnd else (d, h))

/-- HEALTH_OVERDUE: twice HEALTH_INTERVAL without a passed test ends STANDBY (Table 13.6). -/
def execHealthOverdue (s : State) : Host.Outcome State Fault Refusal :=
  .next (s.onDev fun d =>
    match d.twin.coll, d.twin.healthPassed with
    | .standby, some t => (d.reach (t + 2 * d.nat 0x2520 3 * Config.sec)).followColl
    | _, _ => d)

/-! ### The selector and the engine (R22, R361) -/

/-- SELECTOR_SETTLED: the service selector points at the twin that took COLL_GRANT (R22), which trains its service ports in fast
retrain from now on ("COLL_GRANT hand-over", chapter 08). -/
def execSelectorSettled (s : State) : Host.Outcome State Fault Refusal :=
  .next (s.onDev fun d =>
    match d.twin.moving with
    | some t => (upto 32).foldl (fun d n => d.openService n true) (d.modTwin (fun x => { x with selector := t, moving := none }))
    | none => d)

/-- ENGINE_READY: the engine's self-test ends; a failure puts ENGINE_STATE in FAULT, and COLL_GRANT is not asserted any
more (R307, R342, R361). -/
def execEngineReady (ok : Bool) (s : State) : Host.Outcome State Fault Refusal :=
  .next (s.onDev fun d =>
    if !d.isOn 11 || d.coll.state != .selftest then d
    else if ok && !d.engineBarred then { d with coll := { d.coll with state := .ready } }
    else
      let d := { d with coll := { d.coll with state := .fault } }
      (d.checkerEvent 1 14).dropColl .none)

end Sys2Proof.Machine
end

