-- ==== Sys2Proof/Machine/UpdateFamily.lean ====
section
/-!
DEFINITION. The firmware update (R401 to R411): FoE files and their programming, the STAGING scan, activation, the trial's
confirmation and the watchdog restart.
-/

namespace Sys2Proof.Machine
open Sys2Proof

/-! ### FoE files (R401 to R404, R410) -/

/-- MANIFEST: an FoE file with a manifest, whose signature the management cluster judges (R402). -/
def execManifest (c : Client) (data : Bytes) (sigOk : Bool) (s : State) : Host.Outcome State Fault Refusal :=
  .next (s.request (.manifest c data sigOk))

/-- SEGMENT_FILE: the FoE file of one segment (R402, R403). -/
def execSegmentFile (c : Client) (name : Nat) (data : Bytes) (s : State) : Host.Outcome State Fault Refusal :=
  .next (s.request (.segmentFile c name data))

/-- RECOVERY: the FoE file accepted in Bootstrap (R410). -/
def execRecovery (c : Client) (data : Bytes) (sigOk : Bool) (s : State) : Host.Outcome State Fault Refusal :=
  .next (s.request (.recovery c data sigOk))

/-- The answer to the FoE file that waited for its program operation leaves. -/
def foeProgrammed (m : Mach) (x : Dev × Nat) : Mach :=
  match x.1.net.waiting with
  | some (.foe c _) => finish (x.1, m.2) (.foe c x.2 [])
  | _ => (x.1, m.2)

/-- MANIFEST_RECEIPT_PROGRAMMED: the manifest's receipt page stands, or the program failed (R403). -/
def execManifestReceiptProgrammed (ok : Bool) (s : State) : Host.Outcome State Fault Refusal :=
  .next (s.onMem fun d h => if d.upd.foe.isSome then foeProgrammed (d, h) (d.manifestProgrammed ok) else (d, h))

/-- SEGMENT_PROGRAMMED: the segment's receipt page stands, or its slot is dead (R403). -/
def execSegmentProgrammed (ok : Bool) (s : State) : Host.Outcome State Fault Refusal :=
  .next (s.onMem fun d h => if d.upd.inRam.isSome then foeProgrammed (d, h) (d.segmentProgrammed ok) else (d, h))

/-- FOE_PACKET_TIMEOUT: an FoE write that stands open is aborted, and nothing of it is kept (R401). -/
def execFoePacketTimeout (s : State) : Host.Outcome State Fault Refusal :=
  .next (s.onServe fun d h =>
    let d := match d.upd.foe with
      | some (_, _, _, t) => d.reach (t + Config.sec)
      | none => d
    let d := { d with upd := { d.upd with foe := none, inRam := none } }
    match d.net.waiting with
    | some (.foe _ _) => ({ d with net := { d.net with waiting := none } }, h)
    | _ => (d, h))

/-- STAGING_SCAN_DONE: UPDATE_STATE is derived from the receipts and the boot record (R405, R411). -/
def execStagingScanDone (s : State) : Host.Outcome State Fault Refusal :=
  .next (s.onDev fun d => if d.upd.state == .scanning then { d with upd := { d.upd with state := d.upd.scanned } } else d)

/-- CLEAR_ERASE_DONE: STAGING is erased and a scan starts (R411). -/
def execClearEraseDone (s : State) : Host.Outcome State Fault Refusal :=
  .next (s.onDev fun d => if d.upd.state == .clearing then { d with upd := { d.upd.cleared with state := .scanning } } else d)

/-! ### Activation, trial and fallback (R406 to R408) -/

/-- ACTIVATION_DONE: the steps of R406 are complete and a warm restart follows, or a copy or verification failed. -/
def execActivationDone (ok : Bool) (s : State) : Host.Outcome State Fault Refusal :=
  .next (s.onMem fun d h => activationDone (d, h) ok)

/-- Whether the trial image still awaits its confirmation. -/
def Dev.onTrial (d : Dev) : Bool := d.upd.boot.state == .trial && d.upd.state != .clearing

/-- HEALTH_SOAK_ELAPSED: HEALTH_SOAK minutes after its start the trial image confirms itself, where all of R407 held. -/
def execHealthSoakElapsed (s : State) : Host.Outcome State Fault Refusal :=
  .next (s.onDev fun d =>
    if d.onTrial then
      let d := d.reach (d.upd.soakAt + d.nat 0x2403 1 * 60 * Config.sec)
      if d.soakGood then d.healthConfirm.emit (.flash 2) else d
    else d)

/-- HEALTH_WINDOW_END: 30 min after its start an unconfirmed trial image is to be restarted (R408). -/
def execHealthWindowEnd (s : State) : Host.Outcome State Fault Refusal :=
  .next (s.onDev fun d => if d.onTrial then (d.reach d.upd.windowEnd).orderWatchdog else d)

/-- WATCHDOG_RESTART: the restart ordered runs, at most 100 ms late where an entry is between GO and Z + 2 ms (R408). -/
def execWatchdogRestart (s : State) : Host.Outcome State Fault Refusal :=
  .next (s.onMem fun d h =>
    match d.upd.watchdog with
    | some t =>
      let d := if d.goOpen then d.reach (t + 100 * Config.ms) else d
      warmStart ({ d with upd := { d.upd with watchdog := none } }, h) .watchdog .startUp
    | none => (d, h))

end Sys2Proof.Machine
end

