-- ==== Sys2Proof/Machine/ZenithFamily.lean ====
section
/-!
DEFINITION. The commands of chapter 07: the instants of an entry, the commit messages that arrive on a peer port, and the
comets' launches.
-/

namespace Sys2Proof.Machine
open Sys2Proof

/-- LAUNCH_WINDOW (R180). -/
def execLaunchWindow (j : Fin 16) (s : State) : Host.Outcome State Fault Refusal :=
  .next (s.onMem fun d h => stageGroup (d.launchWindow j, h) j)

/-- COMET_LAUNCH (R180, R182, R201): at the latest of its instants, if it is admitted. `waypoint` says which waypoint the management
cluster has chosen for it. -/
def execCometLaunch (north : Fin 512) (plane : Fin 2) (waypoint : Nat) (s : State) : Host.Outcome State Fault Refusal :=
  .next (s.onDev fun d => match d.cometAt north plane with
    | none => d
    | some c =>
      if c.state != .waiting || !d.inState [.armed, .serving] || !d.admits c || !d.axesFree c || !d.shadowAt c then d
      else (d.reach (d.launchFrom c)).launchComet { c with point := waypoint })

/-- VOTE (R189, R190) from a child: to the own group at the leader, else on to the parent. -/
def execVote (port : Fin 6) (m : CMsg) (members ready notReady : Nat) (s : State) : Host.Outcome State Fault Refusal :=
  .next (s.onDev fun d =>
    d.passUp port 0x10 m (le 8 members ++ le 8 ready ++ le 8 notReady) (fun d => d.groupVote m members ready notReady))

/-- VOTE_DEADLINE (R188): at Z − 1,000 µs a member that has not voted votes. -/
def execVoteDeadline (j : Fin 16) (s : State) : Host.Outcome State Fault Refusal :=
  .next (s.onDev fun d =>
    if (d.commit j).state != .presteer || !d.acts then d
    else
      let d := (d.reach ((d.commit j).z - 1000 * Config.us)).reserve j
      d.sendVote j (d.verdict j))

/-- DECISION_INSTANT (R190). -/
def execDecisionInstant (tag z : Nat) (s : State) : Host.Outcome State Fault Refusal := .next (s.onDev fun d => d.decideGroup tag z)

/-- GO (R192). -/
def execGoMsg (port : Fin 6) (m : CMsg) (s : State) : Host.Outcome State Fault Refusal :=
  .next (s.onDev fun d => d.passDown port 0x11 m [] (fun d j => if (d.commit j).z = m.zenith then d.memberGo j else d))

/-- COMMIT_HOLD (R192). -/
def execCommitHold (port : Fin 6) (m : CMsg) (s : State) : Host.Outcome State Fault Refusal :=
  .next (s.onDev fun d => d.passDown port 0x12 m [] (fun d j =>
    if (d.commit j).z = m.zenith then
      if (d.commit j).state == .presteer || (d.commit j).state == .voted then (d.memberHold j m.reason).reasonEight j m.reason
      else d.modCommit j (fun x => { x with owed := false })
    else d))

/-- COMMIT_ACK (R193) from a child. -/
def execCommitAck (port : Fin 6) (m : CMsg) (ack fail : Nat) (s : State) : Host.Outcome State Fault Refusal :=
  .next (s.onDev fun d =>
    d.passUp port 0x13 m (le 8 ack ++ le 8 fail) (fun d => d.groupAck m.tag m.zenith m.entry m.crc ack fail m.sender m.reason))

/-- COMMIT_CONFIRM (R193, R195). -/
def execCommitConfirm (port : Fin 6) (m : CMsg) (s : State) : Host.Outcome State Fault Refusal :=
  .next (s.onDev fun d => d.passDown port 0x14 m [] (fun d j => if (d.commit j).z = m.zenith then d.memberConfirm j else d))

/-- RETRACT (R194, R195). -/
def execRetract (port : Fin 6) (m : CMsg) (s : State) : Host.Outcome State Fault Refusal :=
  .next (s.onDev fun d => d.passDown port 0x15 m [] (fun d j =>
    if (d.commit j).z = m.zenith then
      let first := (d.commit j).state == .go || (d.commit j).state == .acked || (d.commit j).state == .confirmed
      let d := d.memberRetract j m.reason
      if first then d.reasonEight j m.reason else d
    else d))

/-- OUTCOME (R196) from a child. -/
def execOutcome (port : Fin 6) (m : CMsg) (kept reverted : Nat) (s : State) : Host.Outcome State Fault Refusal :=
  .next (s.onMem fun d h =>
    if d.isRootNow && d.acts && d.peerOpen port && d.isOn 10 && reasonListed m.reason then leaderOutcome (d.seeEpoch m.epoch, h) m.tag m.entry m.zenith m.crc kept reverted
    else (d.passUp port 0x16 m (le 8 kept ++ le 8 reverted) id, h))

/-- VOID (R205, R286). -/
def execVoidStep (port : Fin 6) (m : CMsg) (step : Nat) (s : State) : Host.Outcome State Fault Refusal :=
  .next (s.onMem fun d h =>
    let open_ := d.peerOpen port && d.isOn 10 && reasonListed m.reason && d.acts
    let d := d.passDown port 0x17 m (le 8 step) (fun d _ => d)
    match d.jobOfTag m.tag with
    | some j => if open_ then memberVoid (d, h) j m.zenith step else (d, h)
    | none => (d, h))

/-- COMMIT_REPEAT (R185). -/
def execCommitRepeat (s : State) : Host.Outcome State Fault Refusal :=
  .next (s.onDev fun d => if d.isOn 3 && d.isOn 10 then d.repeatMessages else d)

/-- GUARD (R193, Table 7.9). -/
def execGuard (tag z : Nat) (s : State) : Host.Outcome State Fault Refusal := .next (s.onDev fun d => d.guardAt tag z)

/-- CANCEL_LIMIT (R194): of step k of the entry in progress. -/
def execCancelLimit (j : Fin 16) (k : Fin 8) (s : State) : Host.Outcome State Fault Refusal :=
  .next (s.onDev fun d => if d.isOn 3 then d.cancelLimit j k else d)

/-- ZENITH (R197, R199, R96). -/
def execZenith (j : Fin 16) (s : State) : Host.Outcome State Fault Refusal :=
  .next (s.onMem fun d h => if d.isOn 3 then zenithOfJob (d, h) j false else (d, h))

/-- GRADED_STEP (R198). -/
def execGradedStep (j : Fin 16) (k : Fin 8) (s : State) : Host.Outcome State Fault Refusal :=
  .next (s.onDev fun d => d.gradedStep j k)

/-- BANK_ACK_DEADLINE (R200). -/
def execBankAckDeadline (j : Fin 16) (k : Fin 8) (s : State) : Host.Outcome State Fault Refusal :=
  .next (s.onDev fun d => d.ackDeadline j k)

/-- VERIFICATION_END (R200). -/
def execVerificationEnd (j : Fin 16) (s : State) : Host.Outcome State Fault Refusal := .next (s.onDev fun d => d.verifyEntry j)

/-- OUTCOME_FIX (R195). -/
def execOutcomeFix (j : Fin 16) (s : State) : Host.Outcome State Fault Refusal := .next (s.onMem fun d h => fixOutcome (d, h) j)

/-- REVERT (R204, R205). -/
def execRevert (j : Fin 16) (s : State) : Host.Outcome State Fault Refusal := .next (s.onMem fun d h => revertEntry (d, h) j)

/-- OUTCOME_CHECK (R196, R377) at Z + 2 ms. -/
def execOutcomeCheck (tag z : Nat) (s : State) : Host.Outcome State Fault Refusal :=
  .next (s.onDev fun d =>
    let d := (d.closes (z + 2 * Config.ms)).checkOutcome tag z
    match d.jobOfTag tag with
    | some j => d.reserveCal j z
    | none => d)

/-- TENTATIVE_WATCH (R202): the watch of a port runs out. -/
def execTentativeWatch (p : Fin 1024) (s : State) : Host.Outcome State Fault Refusal :=
  .next (s.onDev fun d => match d.arr.watches.find? (fun w => w.port == p.val) with
    | some w =>
      let d := d.reach w.till
      { d with arr := { d.arr with watches := d.arr.watches.filter (fun x => x.port != p.val) } }
    | none => d)

/-- DETOUR_ZENITH (R328): the Zenith of a detour out of schedule. -/
def execDetourZenith (j : Fin 16) (s : State) : Host.Outcome State Fault Refusal :=
  .next (s.onMem fun d h => if d.isOn 3 then zenithOfJob (d, h) j true else (d, h))

end Sys2Proof.Machine
end

