-- ==== Sys2Proof/Machine/Dispatch.lean ====
section
/-!
DEFINITION. One arm for every command: the meaning that answers it.
-/

namespace Sys2Proof.Machine
open Sys2Proof

/-- What a command does to everything but the queue. -/
def exec (i : Instr) (s : State) : Host.Outcome State Fault Refusal :=
  match i with
  | .coldStart straps timeRef => Sys2Proof.Machine.execColdStart straps timeRef s
  | .holdupCharged => Sys2Proof.Machine.execHoldupCharged s
  | .mainInputFail => Sys2Proof.Machine.execMainInputFail s
  | .mainInputRestored => Sys2Proof.Machine.execMainInputRestored s
  | .coldReset => Sys2Proof.Machine.execColdReset s
  | .vauxLoss => Sys2Proof.Machine.execVauxLoss s
  | .twinPresentChange low id => Sys2Proof.Machine.execTwinPresentChange low id s
  | .refclkALost core ctrl => Sys2Proof.Machine.execRefclkALost core ctrl s
  | .timeRefLost => Sys2Proof.Machine.execTimeRefLost s
  | .lossOfLock r words => Sys2Proof.Machine.execLossOfLock r words s
  | .domainOn c d rsvd => Sys2Proof.Machine.execDomainOn c d rsvd s
  | .domainOff c d rsvd => Sys2Proof.Machine.execDomainOff c d rsvd s
  | .domainRampDone d bad => Sys2Proof.Machine.execDomainRampDone d bad s
  | .quiesceTimeout x words => Sys2Proof.Machine.execQuiesceTimeout x words s
  | .objectWrite c index sub complete data => Sys2Proof.Machine.execObjectWrite c index sub complete data s
  | .sdoSegment c index sub total toggle last data => Sys2Proof.Machine.execSdoSegment c index sub total toggle last data s
  | .sdoSegmentTimeout => Sys2Proof.Machine.execSdoSegmentTimeout s
  | .sdoInfo c k index sub => Sys2Proof.Machine.execSdoInfo c k index sub s
  | .unsupportedProtocol c protocol => Sys2Proof.Machine.execUnsupportedProtocol c protocol s
  | .refusalResponse => Sys2Proof.Machine.execRefusalResponse s
  | .requestInit => Sys2Proof.Machine.execRequestInit s
  | .requestPreOp => Sys2Proof.Machine.execRequestPreOp s
  | .requestSafeOp cycle => Sys2Proof.Machine.execRequestSafeOp cycle s
  | .requestOp => Sys2Proof.Machine.execRequestOp s
  | .requestBootstrap => Sys2Proof.Machine.execRequestBootstrap s
  | .processDataWatchdog => Sys2Proof.Machine.execProcessDataWatchdog s
  | .sync0 dcTime => Sys2Proof.Machine.execSync0 dcTime s
  | .sessionChallenge c => Sys2Proof.Machine.execSessionChallenge c s
  | .challengeExpiry c => Sys2Proof.Machine.execChallengeExpiry c s
  | .sessionResponse c data => Sys2Proof.Machine.execSessionResponse c data s
  | .sessionEnd c data => Sys2Proof.Machine.execSessionEnd c data s
  | .sessionIdleTimeout c => Sys2Proof.Machine.execSessionIdleTimeout c s
  | .roleKey c role data => Sys2Proof.Machine.execRoleKey c role data s
  | .arm src => Sys2Proof.Machine.execArm src s
  | .serve src => Sys2Proof.Machine.execServe src s
  | .hold src => Sys2Proof.Machine.execHold src s
  | .resume src => Sys2Proof.Machine.execResume src s
  | .disarm src => Sys2Proof.Machine.execDisarm src s
  | .enterMaintenance src => Sys2Proof.Machine.execEnterMaintenance src s
  | .exitMaintenance src => Sys2Proof.Machine.execExitMaintenance src s
  | .enterReplay src => Sys2Proof.Machine.execEnterReplay src s
  | .exitReplay src => Sys2Proof.Machine.execExitReplay src s
  | .warmRestart src => Sys2Proof.Machine.execWarmRestart src s
  | .faultAck src => Sys2Proof.Machine.execFaultAck src s
  | .cmdUnlisted word => Sys2Proof.Machine.execCmdUnlisted word s
  | .commandComplete => Sys2Proof.Machine.execCommandComplete s
  | .imageVerified region manifest => Sys2Proof.Machine.execImageVerified region manifest s
  | .selftestPassed bad => Sys2Proof.Machine.execSelftestPassed bad s
  | .jobStart c j => Sys2Proof.Machine.execJobStart c j s
  | .jobStop c j => Sys2Proof.Machine.execJobStop c j s
  | .jobClear c j => Sys2Proof.Machine.execJobClear c j s
  | .portMap c j data => Sys2Proof.Machine.execPortMap c j data s
  | .constellation c slot data => Sys2Proof.Machine.execConstellation c slot data s
  | .almanac c j data => Sys2Proof.Machine.execAlmanac c j data s
  | .shardMap c j data => Sys2Proof.Machine.execShardMap c j data s
  | .validationDone => Sys2Proof.Machine.execValidationDone s
  | .storeConfirmTimeout => Sys2Proof.Machine.execStoreConfirmTimeout s
  | .cycleStart => Sys2Proof.Machine.execCycleStart s
  | .inputLatch => Sys2Proof.Machine.execInputLatch s
  | .computeDeadline late ends => Sys2Proof.Machine.execComputeDeadline late ends s
  | .heaterTrigger => Sys2Proof.Machine.execHeaterTrigger s
  | .transferInterval => Sys2Proof.Machine.execTransferInterval s
  | .timeReq port seq flags twin sender t2 residence => Sys2Proof.Machine.execTimeReq port seq flags twin sender t2 residence s
  | .timeResp port seq flags depth leader utc t2 t3 t4 o => Sys2Proof.Machine.execTimeResp port seq flags depth leader utc t2 t3 t4 o s
  | .holdoverLimit => Sys2Proof.Machine.execHoldoverLimit s
  | .ptpSync d gm twoStep t1 t2 corr => Sys2Proof.Machine.execPtpSync d gm twoStep t1 t2 corr s
  | .ptpFollowUp d t1 corr => Sys2Proof.Machine.execPtpFollowUp d t1 corr s
  | .ptpAnnounce d a => Sys2Proof.Machine.execPtpAnnounce d a s
  | .ptpDelayReqInterval d => Sys2Proof.Machine.execPtpDelayReqInterval d s
  | .ptpDelayResp d t4 corr => Sys2Proof.Machine.execPtpDelayResp d t4 corr s
  | .ptpPdelayReq t t2 residence => Sys2Proof.Machine.execPtpPdelayReq t t2 residence s
  | .ptpPdelayResp d t2 t3 t4 corr => Sys2Proof.Machine.execPtpPdelayResp d t2 t3 t4 corr s
  | .requalify c d data => Sys2Proof.Machine.execRequalify c d data s
  | .rootStepNoticeEnd => Sys2Proof.Machine.execRootStepNoticeEnd s
  | .orbitEpoch c data => Sys2Proof.Machine.execOrbitEpoch c data s
  | .orbitPeriod c data => Sys2Proof.Machine.execOrbitPeriod c data s
  | .orbitDefFrom => Sys2Proof.Machine.execOrbitDefFrom s
  | .orbitSyncInterval => Sys2Proof.Machine.execOrbitSyncInterval s
  | .strobeArm z pods tag => Sys2Proof.Machine.execStrobeArm z pods tag s
  | .strobeEmit j => Sys2Proof.Machine.execStrobeEmit j s
  | .podLatencyMeasure j => Sys2Proof.Machine.execPodLatencyMeasure j s
  | .lbkEcho q rtt => Sys2Proof.Machine.execLbkEcho q rtt s
  | .ppsIn stamp => Sys2Proof.Machine.execPpsIn stamp s
  | .ppsOut => Sys2Proof.Machine.execPpsOut s
  | .sensorFrame b f => Sys2Proof.Machine.execSensorFrame b f s
  | .boardCommandFrame b board seq cycle twin outs crcOk => Sys2Proof.Machine.execBoardCommandFrame b board seq cycle twin outs crcOk s
  | .boardHoldFrame b board seq cycle twin crcOk => Sys2Proof.Machine.execBoardHoldFrame b board seq cycle twin crcOk s
  | .trajectoryEnd a => Sys2Proof.Machine.execTrajectoryEnd a s
  | .stopEnd a => Sys2Proof.Machine.execStopEnd a s
  | .pilotReading h ex ey level light => Sys2Proof.Machine.execPilotReading h ex ey level light s
  | .ditherGroupEnd h => Sys2Proof.Machine.execDitherGroupEnd h s
  | .searchEnd h => Sys2Proof.Machine.execSearchEnd h s
  | .reacquireTryEnd north plane => Sys2Proof.Machine.execReacquireTryEnd north plane s
  | .openRequest c h data => Sys2Proof.Machine.execOpenRequest c h data s
  | .openHoldLimit h => Sys2Proof.Machine.execOpenHoldLimit h s
  | .autotuneCommand c h data => Sys2Proof.Machine.execAutotuneCommand c h data s
  | .autotuneEnd a => Sys2Proof.Machine.execAutotuneEnd a s
  | .tuneTimeout a => Sys2Proof.Machine.execTuneTimeout a s
  | .adoption => Sys2Proof.Machine.execAdoption s
  | .drain c b => Sys2Proof.Machine.execDrain c b s
  | .returnBoard c b => Sys2Proof.Machine.execReturnBoard c b s
  | .boardIdentity b board serial firmware hv crcOk => Sys2Proof.Machine.execBoardIdentity b board serial firmware hv crcOk s
  | .boardLost b => Sys2Proof.Machine.execBoardLost b s
  | .laneLost p lanes => Sys2Proof.Machine.execLaneLost p lanes s
  | .laneRestored p lanes => Sys2Proof.Machine.execLaneRestored p lanes s
  | .pilotCrossing p => Sys2Proof.Machine.execPilotCrossing p s
  | .tapReport q cycle powers crcOk => Sys2Proof.Machine.execTapReport q cycle powers crcOk s
  | .heaterReport q offsets powers temp crcOk => Sys2Proof.Machine.execHeaterReport q offsets powers temp crcOk s
  | .bankAck q id applied settled crcOk => Sys2Proof.Machine.execBankAck q id applied settled crcOk s
  | .sweepResult q loc lane offset points crcOk => Sys2Proof.Machine.execSweepResult q loc lane offset points crcOk s
  | .podTunerWrite q writes crcOk => Sys2Proof.Machine.execPodTunerWrite q writes crcOk s
  | .podStrobeDesc q id acts crcOk => Sys2Proof.Machine.execPodStrobeDesc q id acts crcOk s
  | .podMark q low => Sys2Proof.Machine.execPodMark q low s
  | .podHeaterSet q codes crcOk => Sys2Proof.Machine.execPodHeaterSet q codes crcOk s
  | .podMonitorSet q ports crcOk => Sys2Proof.Machine.execPodMonitorSet q ports crcOk s
  | .podDelaySet q delay crcOk => Sys2Proof.Machine.execPodDelaySet q delay crcOk s
  | .podCalSweep q loc lane first step points crcOk => Sys2Proof.Machine.execPodCalSweep q loc lane first step points crcOk s
  | .podLbk q position => Sys2Proof.Machine.execPodLbk q position s
  | .podLockLoss q => Sys2Proof.Machine.execPodLockLoss q s
  | .podDiscovered q store => Sys2Proof.Machine.execPodDiscovered q store s
  | .podLost q storeBad => Sys2Proof.Machine.execPodLost q storeBad s
  | .crosstalk c q data => Sys2Proof.Machine.execCrosstalk c q data s
  | .calRequest c p data => Sys2Proof.Machine.execCalRequest c p data s
  | .calBackgroundTimer => Sys2Proof.Machine.execCalBackgroundTimer s
  | .calRoundStart p k => Sys2Proof.Machine.execCalRoundStart p k s
  | .calFit p k fits => Sys2Proof.Machine.execCalFit p k fits s
  | .calLaneIn p k => Sys2Proof.Machine.execCalLaneIn p k s
  | .calLaneRejoin p k => Sys2Proof.Machine.execCalLaneRejoin p k s
  | .launchWindow j => Sys2Proof.Machine.execLaunchWindow j s
  | .cometLaunch north plane waypoint => Sys2Proof.Machine.execCometLaunch north plane waypoint s
  | .vote port m members ready notReady => Sys2Proof.Machine.execVote port m members ready notReady s
  | .voteDeadline j => Sys2Proof.Machine.execVoteDeadline j s
  | .decisionInstant tag z => Sys2Proof.Machine.execDecisionInstant tag z s
  | .goMsg port m => Sys2Proof.Machine.execGoMsg port m s
  | .commitHold port m => Sys2Proof.Machine.execCommitHold port m s
  | .commitAck port m ack fail => Sys2Proof.Machine.execCommitAck port m ack fail s
  | .commitConfirm port m => Sys2Proof.Machine.execCommitConfirm port m s
  | .retract port m => Sys2Proof.Machine.execRetract port m s
  | .outcome port m kept reverted => Sys2Proof.Machine.execOutcome port m kept reverted s
  | .voidStep port m step => Sys2Proof.Machine.execVoidStep port m step s
  | .commitRepeat => Sys2Proof.Machine.execCommitRepeat s
  | .guard tag z => Sys2Proof.Machine.execGuard tag z s
  | .cancelLimit j k => Sys2Proof.Machine.execCancelLimit j k s
  | .zenith j => Sys2Proof.Machine.execZenith j s
  | .gradedStep j k => Sys2Proof.Machine.execGradedStep j k s
  | .bankAckDeadline j k => Sys2Proof.Machine.execBankAckDeadline j k s
  | .verificationEnd j => Sys2Proof.Machine.execVerificationEnd j s
  | .outcomeFix j => Sys2Proof.Machine.execOutcomeFix j s
  | .revert j => Sys2Proof.Machine.execRevert j s
  | .outcomeCheck tag z => Sys2Proof.Machine.execOutcomeCheck tag z s
  | .tentativeWatch p => Sys2Proof.Machine.execTentativeWatch p s
  | .detourZenith j => Sys2Proof.Machine.execDetourZenith j s
  | .laserModuleInserted sel vendor part serial freqOk powerOk mgmtOk => Sys2Proof.Machine.execLaserModuleInserted sel vendor part serial freqOk powerOk mgmtOk s
  | .laserModuleRemoved sel => Sys2Proof.Machine.execLaserModuleRemoved sel s
  | .slotEnable c sel => Sys2Proof.Machine.execSlotEnable c sel s
  | .slotDisable c sel => Sys2Proof.Machine.execSlotDisable c sel s
  | .laserRampDone sel short => Sys2Proof.Machine.execLaserRampDone sel short s
  | .laserDead sel m => Sys2Proof.Machine.execLaserDead sel m s
  | .laserAlarm sel m => Sys2Proof.Machine.execLaserAlarm sel m s
  | .laserMonitorPoll sel power temp => Sys2Proof.Machine.execLaserMonitorPoll sel power temp s
  | .synthSample l k offset powerOk => Sys2Proof.Machine.execSynthSample l k offset powerOk s
  | .modCalDue l k => Sys2Proof.Machine.execModCalDue l k s
  | .modCalDone l k => Sys2Proof.Machine.execModCalDone l k s
  | .settleWait l k => Sys2Proof.Machine.execSettleWait l k s
  | .transmitCommand t => Sys2Proof.Machine.execTransmitCommand t s
  | .blockHeader l k place active rxAligned hcrcOk => Sys2Proof.Machine.execBlockHeader l k place active rxAligned hcrcOk s
  | .linkFrame l type cls seq source dest payload hcrcOk crcOk => Sys2Proof.Machine.execLinkFrame l type cls seq source dest payload hcrcOk crcOk s
  | .linkAck l ack1 ack2 nak => Sys2Proof.Machine.execLinkAck l ack1 ack2 nak s
  | .retryTimeout l => Sys2Proof.Machine.execRetryTimeout l s
  | .linkTrain l t => Sys2Proof.Machine.execLinkTrain l t s
  | .linkTrainInterval l => Sys2Proof.Machine.execLinkTrainInterval l s
  | .trainingRetry l => Sys2Proof.Machine.execTrainingRetry l s
  | .probeLightFlag p light => Sys2Proof.Machine.execProbeLightFlag p light s
  | .probeDwellEnd x => Sys2Proof.Machine.execProbeDwellEnd x s
  | .replyWindowEnd p => Sys2Proof.Machine.execReplyWindowEnd p s
  | .probeRetry p => Sys2Proof.Machine.execProbeRetry p s
  | .mapenHello p f twin profileMax attempt nonce => Sys2Proof.Machine.execMapenHello p f twin profileMax attempt nonce s
  | .ident p f iface => Sys2Proof.Machine.execIdent p f iface s
  | .mapenAck p f acked => Sys2Proof.Machine.execMapenAck p f acked s
  | .mapenNak p f naked code detail => Sys2Proof.Machine.execMapenNak p f naked code detail s
  | .mapenKeepalive p f defSeq status => Sys2Proof.Machine.execMapenKeepalive p f defSeq status s
  | .mapenGoodbye p f cause => Sys2Proof.Machine.execMapenGoodbye p f cause s
  | .helloInterval p => Sys2Proof.Machine.execHelloInterval p s
  | .attemptEnd p => Sys2Proof.Machine.execAttemptEnd p s
  | .backoffEnd p => Sys2Proof.Machine.execBackoffEnd p s
  | .slowProbe p => Sys2Proof.Machine.execSlowProbe p s
  | .detachTime p => Sys2Proof.Machine.execDetachTime p s
  | .keepaliveInterval p => Sys2Proof.Machine.execKeepaliveInterval p s
  | .quarantineEnd p => Sys2Proof.Machine.execQuarantineEnd p s
  | .mapenRepeat p => Sys2Proof.Machine.execMapenRepeat p s
  | .portProbe c p data => Sys2Proof.Machine.execPortProbe c p data s
  | .discHello iface h => Sys2Proof.Machine.execDiscHello iface h s
  | .discState iface d => Sys2Proof.Machine.execDiscState iface d s
  | .discConflict iface kind port seen expected => Sys2Proof.Machine.execDiscConflict iface kind port seen expected s
  | .discHelloInterval => Sys2Proof.Machine.execDiscHelloInterval s
  | .discStateInterval => Sys2Proof.Machine.execDiscStateInterval s
  | .discEntryExpiry chip twin => Sys2Proof.Machine.execDiscEntryExpiry chip twin s
  | .discHelloAbsent iface => Sys2Proof.Machine.execDiscHelloAbsent iface s
  | .gradIn n h data => Sys2Proof.Machine.execGradIn n h data s
  | .masterIn n h data => Sys2Proof.Machine.execMasterIn n h data s
  | .actPush n h data => Sys2Proof.Machine.execActPush n h data s
  | .weightIn n h data => Sys2Proof.Machine.execWeightIn n h data s
  | .collPlan c j data => Sys2Proof.Machine.execCollPlan c j data s
  | .loadJob c j => Sys2Proof.Machine.execLoadJob c j s
  | .commitLoad c j => Sys2Proof.Machine.execCommitLoad c j s
  | .collReset c j => Sys2Proof.Machine.execCollReset c j s
  | .partialFormed j => Sys2Proof.Machine.execPartialFormed j s
  | .partialRepeat j => Sys2Proof.Machine.execPartialRepeat j s
  | .normPartial port tag gen shard flags step sum => Sys2Proof.Machine.execNormPartial port tag gen shard flags step sum s
  | .normTimeout tag step gen => Sys2Proof.Machine.execNormTimeout tag step gen s
  | .clipMsg port m => Sys2Proof.Machine.execClipMsg port m s
  | .normRestart port tag gen step => Sys2Proof.Machine.execNormRestart port tag gen step s
  | .updateComplete j => Sys2Proof.Machine.execUpdateComplete j s
  | .fetchReq iface source dest slot len offset destSlot => Sys2Proof.Machine.execFetchReq iface source dest slot len offset destSlot s
  | .fetchData iface source dest slot flags offset data => Sys2Proof.Machine.execFetchData iface source dest slot flags offset data s
  | .modelTable c data => Sys2Proof.Machine.execModelTable c data s
  | .modelFill c slot => Sys2Proof.Machine.execModelFill c slot s
  | .modelFetch c slot => Sys2Proof.Machine.execModelFetch c slot s
  | .modelClear c slot => Sys2Proof.Machine.execModelClear c slot s
  | .scrubRead a symbols queued => Sys2Proof.Machine.execScrubRead a symbols queued s
  | .zeroFill sel => Sys2Proof.Machine.execZeroFill sel s
  | .scrubLapOverLimit a => Sys2Proof.Machine.execScrubLapOverLimit a s
  | .remapReloadDone sel => Sys2Proof.Machine.execRemapReloadDone sel s
  | .retireRequest c data => Sys2Proof.Machine.execRetireRequest c data s
  | .retireRecordWritten ok => Sys2Proof.Machine.execRetireRecordWritten ok s
  | .deviceEccPoll counts => Sys2Proof.Machine.execDeviceEccPoll counts s
  | .faultEvent code cls scope index active detail => Sys2Proof.Machine.execFaultEvent code cls scope index active detail s
  | .handlerStep => Sys2Proof.Machine.execHandlerStep s
  | .levelTimeout n => Sys2Proof.Machine.execLevelTimeout n s
  | .stallDeadline j => Sys2Proof.Machine.execStallDeadline j s
  | .faultAcknowledge c data => Sys2Proof.Machine.execFaultAcknowledge c data s
  | .recoveryBudgetWrite c sub complete data => Sys2Proof.Machine.execRecoveryBudgetWrite c sub complete data s
  | .detourRelease c j data => Sys2Proof.Machine.execDetourRelease c j data s
  | .restartOrder c j data => Sys2Proof.Machine.execRestartOrder c j data s
  | .restartRelease j => Sys2Proof.Machine.execRestartRelease j s
  | .restartOrderTimeout j => Sys2Proof.Machine.execRestartOrderTimeout j s
  | .logFlushTimer prot => Sys2Proof.Machine.execLogFlushTimer prot s
  | .logPageProgrammed prot => Sys2Proof.Machine.execLogPageProgrammed prot s
  | .logBlock c => Sys2Proof.Machine.execLogBlock c s
  | .protBlock c => Sys2Proof.Machine.execProtBlock c s
  | .heartbeatWrite => Sys2Proof.Machine.execHeartbeatWrite s
  | .heartbeatStopped => Sys2Proof.Machine.execHeartbeatStopped s
  | .twinGrantEdge coll high => Sys2Proof.Machine.execTwinGrantEdge coll high s
  | .grantGuardElapsed coll => Sys2Proof.Machine.execGrantGuardElapsed coll s
  | .coldTakeoverWait coll => Sys2Proof.Machine.execColdTakeoverWait coll s
  | .twinState cycle frag frags offset data => Sys2Proof.Machine.execTwinState cycle frag frags offset data s
  | .twinRecordsMissed => Sys2Proof.Machine.execTwinRecordsMissed s
  | .storeCopy m => Sys2Proof.Machine.execStoreCopy m s
  | .mirror job bank region flags step offset data => Sys2Proof.Machine.execMirror job bank region flags step offset data s
  | .driveHandover c => Sys2Proof.Machine.execDriveHandover c s
  | .collHandover c => Sys2Proof.Machine.execCollHandover c s
  | .handoverAbort c => Sys2Proof.Machine.execHandoverAbort c s
  | .handoverGrantDrop => Sys2Proof.Machine.execHandoverGrantDrop s
  | .roleSwapDue => Sys2Proof.Machine.execRoleSwapDue s
  | .healthTestDue => Sys2Proof.Machine.execHealthTestDue s
  | .healthTestDone passed failed ueCount lapEnd => Sys2Proof.Machine.execHealthTestDone passed failed ueCount lapEnd s
  | .collRestore c j data => Sys2Proof.Machine.execCollRestore c j data s
  | .collRestoreDone j => Sys2Proof.Machine.execCollRestoreDone j s
  | .selectorSettled => Sys2Proof.Machine.execSelectorSettled s
  | .engineReady ok => Sys2Proof.Machine.execEngineReady ok s
  | .permitRequest cls prio amount holder => Sys2Proof.Machine.execPermitRequest cls prio amount holder s
  | .permitRenew cls holder => Sys2Proof.Machine.execPermitRenew cls holder s
  | .permitRelease cls holder => Sys2Proof.Machine.execPermitRelease cls holder s
  | .leaseEnd cls holder => Sys2Proof.Machine.execLeaseEnd cls holder s
  | .powerOverLimit mw => Sys2Proof.Machine.execPowerOverLimit mw s
  | .powerRecovered mw => Sys2Proof.Machine.execPowerRecovered mw s
  | .heaterCap c q data => Sys2Proof.Machine.execHeaterCap c q data s
  | .heaterSupply c data => Sys2Proof.Machine.execHeaterSupply c data s
  | .dieSensorSample temps => Sys2Proof.Machine.execDieSensorSample temps s
  | .thermalFaultEntry => Sys2Proof.Machine.execThermalFaultEntry s
  | .shutdownDeadline => Sys2Proof.Machine.execShutdownDeadline s
  | .flashOperationsEnd => Sys2Proof.Machine.execFlashOperationsEnd s
  | .tTrip sensor temp => Sys2Proof.Machine.execTTrip sensor temp s
  | .thermalRestart straps timeRef => Sys2Proof.Machine.execThermalRestart straps timeRef s
  | .manifest c data sigOk => Sys2Proof.Machine.execManifest c data sigOk s
  | .segmentFile c name data => Sys2Proof.Machine.execSegmentFile c name data s
  | .segmentProgrammed ok => Sys2Proof.Machine.execSegmentProgrammed ok s
  | .recovery c data sigOk => Sys2Proof.Machine.execRecovery c data sigOk s
  | .foePacketTimeout => Sys2Proof.Machine.execFoePacketTimeout s
  | .stagingScanDone => Sys2Proof.Machine.execStagingScanDone s
  | .activate c => Sys2Proof.Machine.execActivate c s
  | .activationDone ok => Sys2Proof.Machine.execActivationDone ok s
  | .updateClear c => Sys2Proof.Machine.execUpdateClear c s
  | .clearEraseDone => Sys2Proof.Machine.execClearEraseDone s
  | .healthSoakElapsed => Sys2Proof.Machine.execHealthSoakElapsed s
  | .healthWindowEnd => Sys2Proof.Machine.execHealthWindowEnd s
  | .healthReject c => Sys2Proof.Machine.execHealthReject c s
  | .watchdogRestart => Sys2Proof.Machine.execWatchdogRestart s
  | .settingsRecordCommitted => Sys2Proof.Machine.execSettingsRecordCommitted s
  | .recorderEnable c data => Sys2Proof.Machine.execRecorderEnable c data s
  | .recorderTrigger c => Sys2Proof.Machine.execRecorderTrigger c s
  | .freeze c => Sys2Proof.Machine.execFreeze c s
  | .releaseCapture c => Sys2Proof.Machine.execReleaseCapture c s
  | .postWindow => Sys2Proof.Machine.execPostWindow s
  | .capture c => Sys2Proof.Machine.execCapture c s
  | .captureWrite c data => Sys2Proof.Machine.execCaptureWrite c data s
  | .replayData offset total flags data => Sys2Proof.Machine.execReplayData offset total flags data s
  | .replayFetch c => Sys2Proof.Machine.execReplayFetch c s
  | .replayRun c => Sys2Proof.Machine.execReplayRun c s
  | .replayAbort c => Sys2Proof.Machine.execReplayAbort c s
  | .replayClear c => Sys2Proof.Machine.execReplayClear c s
  | .page write pec => Sys2Proof.Machine.execPage write pec s
  | .capability pec => Sys2Proof.Machine.execCapability pec s
  | .statusWord pec => Sys2Proof.Machine.execStatusWord pec s
  | .statusInput pec => Sys2Proof.Machine.execStatusInput pec s
  | .statusTemperature pec => Sys2Proof.Machine.execStatusTemperature pec s
  | .readVin pec => Sys2Proof.Machine.execReadVin pec s
  | .readIin pec => Sys2Proof.Machine.execReadIin pec s
  | .readTemperature1 pec => Sys2Proof.Machine.execReadTemperature1 pec s
  | .readTemperature2 pec => Sys2Proof.Machine.execReadTemperature2 pec s
  | .readPin pec => Sys2Proof.Machine.execReadPin pec s
  | .pmbusRevision pec => Sys2Proof.Machine.execPmbusRevision pec s
  | .mfrId pec => Sys2Proof.Machine.execMfrId pec s
  | .mfrModel pec => Sys2Proof.Machine.execMfrModel pec s
  | .mfrRevision pec => Sys2Proof.Machine.execMfrRevision pec s
  | .mfrSerial pec => Sys2Proof.Machine.execMfrSerial pec s
  | .pmbusUnsupported code write => Sys2Proof.Machine.execPmbusUnsupported code write s
  | .alertResponse pec => Sys2Proof.Machine.execAlertResponse pec s
  | .pmbusRefresh mv ma mw hbm => Sys2Proof.Machine.execPmbusRefresh mv ma mw hbm s
  | .mapenCrcError p => Sys2Proof.Machine.execMapenCrcError p s
  | .protocolViolation p f type version length => Sys2Proof.Machine.execProtocolViolation p f type version length s
  | .fieldNetworkLoss => Sys2Proof.Machine.execFieldNetworkLoss s
  | .processDataOutputs data => Sys2Proof.Machine.execProcessDataOutputs data s
  | .manifestReceiptProgrammed ok => Sys2Proof.Machine.execManifestReceiptProgrammed ok s
  | .ppsInPresentTimeout => Sys2Proof.Machine.execPpsInPresentTimeout s
  | .positionConfirmTimeout => Sys2Proof.Machine.execPositionConfirmTimeout s
  | .healthOverdue => Sys2Proof.Machine.execHealthOverdue s
  | .roleSwapNotFound => Sys2Proof.Machine.execRoleSwapNotFound s
  | .holdupDischarged => Sys2Proof.Machine.execHoldupDischarged s
  | .podChainChange q added => Sys2Proof.Machine.execPodChainChange q added s

end Sys2Proof.Machine
end

