-- ==== Sys2Proof/Safety.lean ====
section
/-!
DEFINITION. What counts as a safe state, and the conditions in whose terms the claims are stated.
-/

namespace Sys2Proof.Machine
open Sys2Proof

/-- The invariant of every step: the HBM store is canonical, so that equal memories are equal data. -/
def State.Inv (s : State) : Prop := Memory.wf s.hbm = true

/-- The mailbox is free: no request waits, no answer is owed and no emergency waits to leave (R41, R47). -/
def State.Idle (s : State) : Prop := s.dev.net.mailbox = [] ∧ s.dev.net.waiting = none ∧ s.dev.net.emergencies = []

/-- The mailbox takes a request at once: the device is in Pre-Op, Safe-Op or Op, and the mailbox is free (R37, R41, R47). -/
def State.Ready (s : State) : Prop :=
  (s.dev.net.ecat = .preOp ∨ s.dev.net.ecat = .safeOp ∨ s.dev.net.ecat = .op) ∧ s.Idle

/-- The device as it handles a request of a client that arrives now (R53). -/
def State.asked (s : State) (c : Client) : Dev := s.dev.touch c

/-- The device on which a write that is taken acts: what backs the object in the store SRAM is written clean (R53, R310). -/
def State.taken (s : State) (c : Client) (index sub : Nat) : Dev := (s.asked c).cleanStore (objKey index sub)

/-- A write of one subindex passes both stages of its checks (R49 to R52, R54, R56), on the device that handles it; `deep` tells
that the validation it waited for has run (R85). -/
def Dev.Accepts (d : Dev) (deep : Bool) (c : Client) (index sub : Nat) (v : Bytes) : Prop :=
  splitValues index [sub] v = some [(sub, v)] ∧ d.refusesWrite c index sub true v = none ∧
    d.refusesResponse c index [sub] v (some [(sub, v)]) = false ∧
    d.checkSub (d.withValues index [(sub, v)]) deep false index sub (some v) = none

/-- A client's write of one subindex is taken at once: the mailbox is ready, the write passes its checks, and it awaits no
validation (R56, R85). -/
def State.Takes (s : State) (c : Client) (index sub : Nat) (v : Bytes) : Prop :=
  s.Ready ∧ (s.asked c).Accepts false c index sub v ∧ (s.asked c).awaitsValidation index sub v = false

/-- A client's write of one subindex waits for its validation, no other request waits, and the write passes its checks once the
validation has run (R85). -/
def State.Validates (s : State) (c : Client) (index sub : Nat) (v : Bytes) : Prop :=
  (∃ a, s.dev.net.waiting = some (.validation (.write c index sub false v) a)) ∧ s.dev.net.mailbox = [] ∧
    ({ s.dev with net := { s.dev.net with waiting := none } } : Dev).Accepts true c index sub v

/-- The device on which a write whose validation has run acts: nothing is owed any more, and what backs the object in the store SRAM is
written clean (R85, R310). -/
def State.resumed (s : State) (index sub : Nat) : Dev :=
  ({ s.dev with net := { s.dev.net with waiting := none } } : Dev).cleanStore (objKey index sub)

/-- A write took effect and was answered: the device is `d` and the store `h`, but for the mailbox and what was sent, and the
response has left (R41). -/
def State.Answered (t : State) (d : Dev) (h : Hbm) (c : Client) (index sub : Nat) : Prop :=
  t.hbm = h ∧ ∃ n o, t.dev = { d with net := n, out := o } ∧ n.sessions = d.net.sessions ∧ n.keys = d.net.keys ∧ n.waiting = none ∧
    Output.response c index sub [] ∈ o

/-- A write took effect, and its answer has left or waits for what stores it: the device is `d` and the store `h`, but for the
mailbox and what was sent (R41, R57). -/
def State.Took (t : State) (d : Dev) (h : Hbm) : Prop := t.hbm = h ∧ ∃ n o, t.dev = { d with net := n, out := o }

/-- A write took effect and its answer waits (R57). -/
def State.Waits (t : State) (d : Dev) (h : Hbm) (w : Waiting) : Prop :=
  t.hbm = h ∧ t.dev = { d with net := { d.net with waiting := some w } }

/-- The device as it runs a Director command: by process data as it stands, by SDO once the write is answered; the control word
stands, its TOGGLE is acknowledged, and the command is latched with its role (R60, R61). -/
def State.ordered (s : State) (src : CmdSrc) (c : Cmd) : Dev :=
  let d := match src with
    | .processData => s.dev
    | .sdo k => (s.taken k 0x2010 0).emit (.response k 0x2010 0 [])
  let m := match src with
    | .processData => false
    | .sdo k => (s.asked k).isMaintainer k
  let w := s.dev.commandWord c.code
  { d with dir := { d.dir with control := w, byMaintainer := m, cmdAck := !d.dir.cmdAck, latched := w, latchedMaintainer := m } }

/-- A Director command is taken and obeyed: its word comes in, no command is in progress, and the checks of its row of
Table 2.12 pass (R60 to R62). -/
def State.Obeys (s : State) (src : CmdSrc) (c : Cmd) : Prop :=
  (match src with
    | .processData => True
    | .sdo k => s.Takes k 0x2010 0 (le 2 (s.dev.commandWord c.code))) ∧
  s.dev.dir.inProgress = none ∧ (6 ≤ c.code → (s.ordered src c).dir.latchedMaintainer = true) ∧ s.dev.dir.state ∈ c.from_ ∧
  (c.code ≤ 5 → s.dev.followsDrive = false) ∧ (c = .enterMaint → s.dev.faults.current = none) ∧ (s.ordered src c).cmdGuard c = true

/-- The command of the table that gives a Director command from a source. -/
def Cmd.given : Cmd → CmdSrc → Instr
  | .arm, src => .arm src
  | .serve, src => .serve src
  | .hold, src => .hold src
  | .resume, src => .resume src
  | .disarm, src => .disarm src
  | .enterMaint, src => .enterMaintenance src
  | .exitMaint, src => .exitMaintenance src
  | .enterReplay, src => .enterReplay src
  | .exitReplay, src => .exitReplay src
  | .warmRestart, src => .warmRestart src

/-- A Director command is given while none is in progress: by process data, or by an SDO write that is taken (R60). -/
def State.Gives (s : State) (src : CmdSrc) (c : Cmd) : Prop :=
  s.dev.dir.inProgress = none ∧
    match src with
    | .processData => True
    | .sdo k => s.Takes k 0x2010 0 (le 2 (s.dev.commandWord c.code))

/-- A write was refused at the second stage with an abort code: nothing changed but the mailbox, and the abort has left (R56). -/
def State.Aborted (t s : State) (c : Client) (index sub code : Nat) : Prop :=
  t.hbm = s.hbm ∧ ∃ n o, t.dev = { s.dev with net := n, out := o } ∧ Output.abort c index sub code ∈ o

/-- A list of events stands in the order of the queue: by class, highest first (R316). -/
def ordered (l : List Event) : Prop := l.Pairwise (fun a b => b.cls ≤ a.cls)

/-- A control word ran at its sampling and left the machine `m`, whose mailbox is then served (R41, R60). -/
def State.Ran (t : State) (m : Mach) : Prop := (t.dev, t.hbm) = serve m

/-- A frame of a port is heard without poison, is no repetition of one answered, comes from the port and the partner it should, and,
where it answers a frame, within the reply window (R25, R237, R238, R253). -/
def Dev.Opens (d : Dev) (p type : Nat) (f : Mapen) : Prop :=
  d.hears p = true ∧ f.poison = false ∧ (d.port p).state ≠ .quarantined ∧ (∀ a, (type, f.seq, a) ∉ (d.port p).answered) ∧
    (f.port = p ∨ f.port = 0xFFFF ∧ ((d.port p).helloSent = false ∨ type = 1)) ∧
    ((d.port p).state = .identified → type ≠ 2 → some f.source = (d.port p).partner.map (·.chip)) ∧
    f.echo ∉ (d.port p).lapsed ∧ (∀ a s t, (d.port p).awaiting = some (a, s, t) → f.echo = s → d.now ≤ t + 60 * Config.us)

/-- The 32 bytes of a commit message's header, as it came (Table 7.4). -/
def commitHead (m : CMsg) : Bytes :=
  le 4 m.tag ++ le 4 m.entry ++ le 8 m.zenith ++ le 4 m.crc ++ le 2 m.sender ++ le 2 m.leader ++ le 4 m.epoch ++ le 1 m.reason ++ zeros 3

/-- A commit message is taken on a peer port: the port is open, PD10 is on, and its reason is a listed code (R15, R185). -/
def Dev.hearsCommit (d : Dev) (port : Nat) (m : CMsg) : Prop :=
  d.peerOpen port = true ∧ d.isOn 10 = true ∧ reasonListed m.reason = true

/-- The device once it has seen a message's epoch and passed it down the tree (R184, R185). -/
def Dev.passedOn (d : Dev) (port type : Nat) (m : CMsg) (body : Bytes) : Dev :=
  (d.seeEpoch m.epoch).sendDown type 0 (commitHead m ++ body) (some port)

/-- The device once the pod's count of received frames has taken a frame of a port (R238). -/
def Dev.heard (d : Dev) (p : Nat) : Dev := d.bump (0x2A40 + podOf p) 3

/-- The device once a frame of a service port is counted, and its poison with it (R262 to R266). -/
def Dev.counted (d : Dev) (n : Nat) (h : SvcHdr) : Dev :=
  let d := d.bump (0x2920 + n) 1
  if h.flags % 2 = 1 then d.bump 0x2900 7 else d

/-- The engine serves a frame of service port `n` for job `j`: it is up, the port has its link, and the frame's TAG is that of the
plan of the job that owns the port (R262 to R266). -/
def Dev.Serves (d : Dev) (n : Nat) (h : SvcHdr) (j : Nat) : Prop :=
  d.engineUp = true ∧ (d.svcLink n).isSome = true ∧ (d.counted n h).svcJob n = some j ∧ ((d.counted n h).plan j).isEmpty = false ∧
    planTag ((d.counted n h).plan j) = h.tag

end Sys2Proof.Machine

namespace Sys2Proof

/-- The commands that store nothing in the HBM and serve no request that could (R295, R299). -/
def Instr.leavesMemory : Instr → Bool
  | .holdupCharged .. | .twinPresentChange .. | .refclkALost .. | .timeRefLost .. | .lossOfLock .. | .sdoSegmentTimeout ..
  | .requestPreOp .. | .requestSafeOp .. | .requestOp .. | .requestBootstrap .. | .processDataWatchdog .. | .sync0 ..
  | .challengeExpiry .. | .sessionIdleTimeout .. | .imageVerified .. | .selftestPassed .. | .inputLatch ..
  | .computeDeadline .. | .heaterTrigger .. | .transferInterval .. | .timeReq .. | .timeResp .. | .holdoverLimit ..
  | .ptpSync .. | .ptpFollowUp .. | .ptpAnnounce .. | .ptpDelayReqInterval .. | .ptpDelayResp .. | .ptpPdelayReq ..
  | .ptpPdelayResp .. | .rootStepNoticeEnd .. | .orbitDefFrom .. | .orbitSyncInterval .. | .strobeArm .. | .strobeEmit ..
  | .podLatencyMeasure .. | .lbkEcho .. | .ppsIn .. | .ppsOut .. | .sensorFrame .. | .boardCommandFrame ..
  | .boardHoldFrame .. | .trajectoryEnd .. | .stopEnd .. | .pilotReading .. | .ditherGroupEnd .. | .searchEnd ..
  | .reacquireTryEnd .. | .openHoldLimit .. | .autotuneEnd .. | .tuneTimeout .. | .adoption .. | .boardIdentity ..
  | .boardLost .. | .laneLost .. | .laneRestored .. | .pilotCrossing .. | .tapReport .. | .heaterReport .. | .bankAck ..
  | .sweepResult .. | .podTunerWrite .. | .podStrobeDesc .. | .podMark .. | .podHeaterSet .. | .podMonitorSet ..
  | .podDelaySet .. | .podCalSweep .. | .podLbk .. | .podLockLoss .. | .podDiscovered .. | .podLost ..
  | .calBackgroundTimer .. | .calRoundStart .. | .calFit .. | .calLaneIn .. | .calLaneRejoin ..
  | .cometLaunch .. | .vote .. | .voteDeadline .. | .decisionInstant .. | .goMsg .. | .commitHold .. | .commitAck ..
  | .commitConfirm .. | .retract .. | .commitRepeat .. | .guard .. | .cancelLimit .. | .gradedStep .. | .bankAckDeadline ..
  | .verificationEnd .. | .outcomeCheck .. | .tentativeWatch .. | .laserModuleInserted .. | .laserModuleRemoved ..
  | .laserRampDone .. | .laserDead .. | .laserAlarm .. | .laserMonitorPoll .. | .synthSample .. | .modCalDue ..
  | .modCalDone .. | .settleWait .. | .transmitCommand .. | .blockHeader .. | .linkFrame .. | .linkAck .. | .retryTimeout ..
  | .linkTrainInterval .. | .trainingRetry .. | .probeLightFlag .. | .probeDwellEnd .. | .replyWindowEnd .. | .probeRetry ..
  | .mapenHello .. | .ident .. | .mapenAck .. | .mapenNak .. | .mapenKeepalive .. | .mapenGoodbye .. | .helloInterval ..
  | .attemptEnd .. | .backoffEnd .. | .slowProbe .. | .detachTime .. | .keepaliveInterval .. | .quarantineEnd ..
  | .mapenRepeat .. | .discState .. | .discConflict .. | .discHelloInterval .. | .discStateInterval .. | .discEntryExpiry ..
  | .discHelloAbsent .. | .normTimeout .. | .clipMsg .. | .scrubLapOverLimit .. | .faultEvent ..
  | .handlerStep .. | .levelTimeout .. | .stallDeadline .. | .restartOrderTimeout .. | .logFlushTimer ..
  | .logPageProgrammed .. | .heartbeatWrite .. | .heartbeatStopped .. | .twinGrantEdge .. | .coldTakeoverWait ..
  | .twinRecordsMissed .. | .handoverGrantDrop .. | .roleSwapDue .. | .healthTestDue .. | .selectorSettled ..
  | .engineReady .. | .permitRenew .. | .permitRelease .. | .powerRecovered .. | .stagingScanDone .. | .clearEraseDone ..
  | .healthSoakElapsed .. | .healthWindowEnd .. | .postWindow .. | .replayData .. | .page .. | .capability ..
  | .statusWord .. | .statusInput .. | .statusTemperature .. | .readVin .. | .readIin .. | .readTemperature1 ..
  | .readTemperature2 .. | .readPin .. | .pmbusRevision .. | .mfrId .. | .mfrModel .. | .mfrRevision .. | .mfrSerial ..
  | .pmbusUnsupported .. | .alertResponse .. | .pmbusRefresh .. | .mapenCrcError .. | .protocolViolation ..
  | .fieldNetworkLoss .. | .processDataOutputs .. | .ppsInPresentTimeout .. | .positionConfirmTimeout .. | .healthOverdue ..
  | .roleSwapNotFound .. | .holdupDischarged .. | .podChainChange .. => true
  | _ => false

end Sys2Proof
end

