-- ==== Sys2Proof/WellFormed.lean ====
section
/-!
DEFINITION. Which commands can be given at all: every field of a frame fits its width, every list has the length that
its frame gives it. The meanings are total and do not rest on this.
-/

namespace Sys2Proof

/-- A field of `n` bits, unsigned. -/
def fitsU (n x : Nat) : Bool := decide (x < 2 ^ n)

/-- A field of `n` bits, signed. -/
def fitsI (n : Nat) (x : Int) : Bool := decide (-(2 ^ (n - 1) : Int) ≤ x) && decide (x < 2 ^ (n - 1))

/-- The fields of a commit message (Table 7.4). -/
def commitFields (m : CMsg) : Bool :=
  fitsU 32 m.tag && fitsU 32 m.entry && fitsU 64 m.zenith && fitsU 32 m.crc && fitsU 16 m.sender && fitsU 16 m.leader && fitsU 32 m.epoch && fitsU 8 m.reason

/-- The header of a Mapen frame (R234). -/
def mapenFields (f : Mapen) : Bool := fitsU 16 f.source && fitsU 16 f.port && fitsU 16 f.seq && fitsU 16 f.echo

/-- The service header (Table 10.2). -/
def svcFields (h : SvcHdr) : Bool :=
  fitsU 8 h.format && fitsU 8 h.flags && fitsU 8 h.gen && fitsU 32 h.tag && fitsU 32 h.token && fitsU 32 h.scale && fitsU 64 h.addr && fitsU 16 h.group

/-- A poisoned word of a slice: an axis and a set that exist. -/
def SliceWord.ok : SliceWord → Bool
  | .coef a k => decide (a < 4096) && decide (k < 4)
  | .axis a => decide (a < 4096)
  | .heater r => decide (r < 11264)

/-- The aligned lanes of a drive link over which a board stripes a frame: some of sixteen (R258). -/
def laneMask16 (lanes : Nat) : Bool := decide (0 < lanes) && fitsU 16 lanes

/-- The self-test patterns that fail: each a checker of MEM_SELFTEST and a place in Table 11.5 (R306). -/
def patternsOk (bad : List (Nat × Nat)) : Bool := bad.all (fun x => decide (x.1 < 19) && decide (x.2 < 128))

/-- A page of the flash: a slot of the settings journal has 2,048 pages, one of RETIRE 32 page pairs (R309, R396). -/
def flashPageOk : FlashPage → Bool
  | .log _ seq => fitsU 64 seq
  | .settings slot page => decide (slot < 2) && decide (page < 2048)
  | .retire slot pair => decide (slot < 16) && decide (pair < 32)

/-- What the poll of the devices shows: 32-bit counts, and words of the 8 stacks and the 31 arrays (R295, R305). -/
def pollOk (p : EccPoll) : Bool :=
  p.counts.all (fitsU 32) && p.hbm.all (fun e => decide (e.1 < 8) && fitsU 32 e.2.1 && fitsU 8 e.2.2) &&
    p.sram.all (fun e => decide (e.1 < 31) && fitsU 32 e.2.1 && fitsU 8 e.2.2) && p.flash.all (fun e => flashPageOk e.1 && fitsU 16 e.2)

/-- Whether a command is well formed. -/
def Instr.wf : Instr → Bool
  | .coldStart _ _ => true
  | .holdupCharged => true
  | .mainInputFail => true
  | .mainInputRestored => true
  | .coldReset => true
  | .vauxLoss => true
  | .twinPresentChange _ _ => true
  | .refclkALost _ _ => true
  | .timeRefLost => true
  | .lossOfLock r words => decide (words < 2 ^ 32) && (match r with | .lane l k => decide (l < 39) && decide (k < 8) | _ => true)
  | .domainOn c _ _ => fitsU 16 c
  | .domainOff c _ _ => fitsU 16 c
  | .domainRampDone _ bad => patternsOk bad
  | .quiesceTimeout _ words => decide (words < 2 ^ 32)
  | .objectWrite c index sub _ data => fitsU 16 c && fitsU 16 index && fitsU 8 sub && decide (data.length ≤ 2 ^ 24)
  | .sdoSegment c index sub total _ _ data => fitsU 16 c && fitsU 16 index && fitsU 8 sub && fitsU 32 total && decide (data.length ≤ 1024)
  | .sdoSegmentTimeout => true
  | .sdoInfo c _ index sub => fitsU 16 c && fitsU 16 index && fitsU 8 sub
  | .unsupportedProtocol c protocol => fitsU 16 c && fitsU 4 protocol
  | .refusalResponse => true
  | .requestInit => true
  | .requestPreOp => true
  | .requestSafeOp cycle => match cycle with | some x => fitsU 32 x | none => true
  | .requestOp => true
  | .requestBootstrap => true
  | .processDataWatchdog => true
  | .sync0 dcTime => fitsU 64 dcTime
  | .sessionChallenge c => fitsU 16 c
  | .challengeExpiry c => fitsU 16 c
  | .sessionResponse c _ => fitsU 16 c
  | .sessionEnd c _ => fitsU 16 c
  | .sessionIdleTimeout c => fitsU 16 c
  | .roleKey c _ _ => fitsU 16 c
  | .arm _ => true
  | .serve _ => true
  | .hold _ => true
  | .resume _ => true
  | .disarm _ => true
  | .enterMaintenance _ => true
  | .exitMaintenance _ => true
  | .enterReplay _ => true
  | .exitReplay _ => true
  | .warmRestart _ => true
  | .faultAck _ => true
  | .cmdUnlisted _ => true
  | .commandComplete => true
  | .imageVerified _ mf => mf.length == 4096
  | .selftestPassed bad => patternsOk bad
  | .jobStart c _ => fitsU 16 c
  | .jobStop c _ => fitsU 16 c
  | .jobClear c _ => fitsU 16 c
  | .portMap c _ _ => fitsU 16 c
  | .constellation c _ _ => fitsU 16 c
  | .almanac c _ _ => fitsU 16 c
  | .shardMap c _ _ => fitsU 16 c
  | .validationDone => true
  | .storeConfirmTimeout => true
  | .cycleStart => true
  | .inputLatch => true
  | .computeDeadline late e => late.all (fun a => decide (a < 4096)) && e.peaks.all (fun a => decide (a < 2 ^ 32)) && e.poison.all SliceWord.ok
  | .heaterTrigger => true
  | .transferInterval => true
  | .timeReq _ seq flags twin sender t2 residence => fitsU 16 seq && fitsU 8 flags && fitsU 16 sender && fitsU 1 twin && fitsU 96 t2 && fitsU 96 residence
  | .timeResp _ seq flags depth leader utc t2 t3 t4 _ => fitsU 16 seq && fitsU 8 flags && fitsU 8 depth && fitsU 16 leader && fitsI 16 utc && fitsU 96 t2 && fitsU 96 t3 && fitsU 96 t4
  | .holdoverLimit => true
  | .ptpSync _ gm k t1 t2 corr => fitsI 8 k.interval && fitsU 64 gm && fitsU 96 t1 && fitsU 96 t2 && fitsI 64 corr
  | .ptpFollowUp _ t1 corr => fitsU 96 t1 && fitsI 64 corr
  | .ptpAnnounce _ a => fitsU 64 a.gm && fitsU 8 a.clockClass && fitsU 16 a.steps && fitsI 16 a.utc && fitsI 8 a.interval
  | .ptpDelayReqInterval _ => true
  | .ptpDelayResp _ t4 r => fitsU 96 t4 && fitsI 64 r.corr && fitsI 8 r.interval
  | .ptpPdelayReq _ t2 residence => fitsU 96 t2 && fitsU 96 residence
  | .ptpPdelayResp _ t2 t3 t4 corr => fitsU 96 t2 && fitsU 96 t3 && fitsU 96 t4 && fitsI 64 corr
  | .requalify c _ _ => fitsU 16 c
  | .rootStepNoticeEnd => true
  | .orbitEpoch c _ => fitsU 16 c
  | .orbitPeriod c _ => fitsU 16 c
  | .orbitDefFrom => true
  | .orbitSyncInterval => true
  | .strobeArm z pods _ => fitsU 64 z && decide (pods.Nodup)
  | .strobeEmit _ => true
  | .podLatencyMeasure _ => true
  | .lbkEcho _ rtt => fitsU 32 rtt
  | .ppsIn stamp => fitsU 96 stamp
  | .ppsOut => true
  | .sensorFrame _ f => f.pos.length == 256 && f.applied.length == 256 && f.pos.all (fitsI 24) && f.applied.all (fitsI 20) && fitsU 64 f.cycle && fitsU 16 f.seq && decide (f.board < 16) && fitsU 8 f.status && f.faults.all (fun x => decide (x < 256)) && f.poisoned.all (fun x => decide (x < 256)) && laneMask16 f.lanes
  | .boardCommandFrame _ _ seq cycle _ outs _ => outs.length == 256 && outs.all (fun x => fitsI 20 x.1) && fitsU 64 cycle && fitsU 16 seq
  | .boardHoldFrame _ _ seq cycle _ _ => fitsU 64 cycle && fitsU 16 seq
  | .trajectoryEnd _ => true
  | .stopEnd _ => true
  | .pilotReading _ ex ey level x => fitsU 16 x.comet && fitsI 32 ex && fitsI 32 ey && fitsI 16 level
  | .ditherGroupEnd _ => true
  | .searchEnd _ => true
  | .reacquireTryEnd _ _ => true
  | .openRequest c _ _ => fitsU 16 c
  | .openHoldLimit _ => true
  | .autotuneCommand c _ _ => fitsU 16 c
  | .autotuneEnd _ => true
  | .tuneTimeout _ => true
  | .adoption => true
  | .drain c _ => fitsU 16 c
  | .returnBoard c _ => fitsU 16 c
  | .boardIdentity _ board serial firmware hv _ => serial.length == 16 && firmware.length == 8 && fitsI 32 hv && fitsU 8 board.number && laneMask16 board.lanes
  | .boardLost _ => true
  | .laneLost _ _ => true
  | .laneRestored _ _ => true
  | .pilotCrossing _ => true
  | .tapReport _ cycle x _ => x.poison.all (fun x => decide (x < 16)) && x.taps.length == 16 && x.taps.all (fun x => fitsI 16 x.1 && fitsI 16 x.2) && fitsU 16 cycle
  | .heaterReport _ x powers temp _ => x.poison.all (fun r => decide (r < 176)) && x.eps.length == 176 && powers.length == 128 && fitsI 16 temp
  | .bankAck _ id _ _ _ => fitsU 16 id
  | .sweepResult _ _ _ offset points _ => points.all (fun x => fitsI 16 x.1 && fitsI 16 x.2) && fitsI 16 offset
  | .podTunerWrite _ writes _ => writes.all (fun x => decide (x.ring < 176) && (decide (x.bank < 16) || x.bank == 255) && decide (x.code < 2048))
  | .podStrobeDesc _ id acts _ => fitsU 16 id && acts.all (fun x => decide (x.bank < 16))
  | .podMark _ _ => true
  | .podHeaterSet _ codes _ => codes.length == 176
  | .podMonitorSet _ ports _ => ports.length == 16 && ports.all (fun x => fitsU 8 x.mask && fitsU 8 x.flags && fitsI 16 x.threshold)
  | .podDelaySet _ _ _ => true
  | .podCalSweep _ _ _ first step points _ => fitsU 16 first && fitsU 16 step && fitsU 8 points
  | .podLbk _ _ => true
  | .podLockLoss _ => true
  | .podDiscovered _ _ => true
  | .podLost _ _ => true
  | .crosstalk c _ _ => fitsU 16 c
  | .calRequest c _ _ => fitsU 16 c
  | .calBackgroundTimer => true
  | .calRoundStart _ _ => true
  | .calFit _ _ fits => fits.all (fun x => decide (x.port < 1024))
  | .calLaneIn _ _ => true
  | .calLaneRejoin _ _ => true
  | .launchWindow _ => true
  | .cometLaunch _ _ _ => true
  | .vote _ m members ready notReady => commitFields m && fitsU 64 members && fitsU 64 ready && fitsU 64 notReady
  | .voteDeadline _ => true
  | .decisionInstant tag z => fitsU 32 tag && fitsU 64 z
  | .goMsg _ m => commitFields m
  | .commitHold _ m => commitFields m
  | .commitAck _ m ack fail => commitFields m && fitsU 64 ack && fitsU 64 fail
  | .commitConfirm _ m => commitFields m
  | .retract _ m => commitFields m
  | .outcome _ m kept reverted => commitFields m && fitsU 64 kept && fitsU 64 reverted
  | .voidStep _ m step => commitFields m && fitsU 64 step
  | .commitRepeat => true
  | .guard tag z => fitsU 32 tag && fitsU 64 z
  | .cancelLimit _ _ => true
  | .zenith _ => true
  | .gradedStep _ _ => true
  | .bankAckDeadline _ _ => true
  | .verificationEnd _ => true
  | .outcomeFix _ => true
  | .revert _ => true
  | .outcomeCheck tag z => fitsU 32 tag && fitsU 64 z
  | .tentativeWatch _ => true
  | .detourZenith _ => true
  | .laserModuleInserted _ vendor part serial _ _ _ => vendor.length == 16 && part.length == 16 && serial.length == 16
  | .laserModuleRemoved _ => true
  | .slotEnable c _ => fitsU 16 c
  | .slotDisable c _ => fitsU 16 c
  | .laserRampDone _ _ => true
  | .laserDead _ _ => true
  | .laserAlarm _ _ => true
  | .laserMonitorPoll _ power temp => power.all (fitsI 16) && fitsI 16 temp
  | .synthSample _ _ offset _ => fitsI 32 offset
  | .modCalDue _ _ => true
  | .modCalDone _ _ => true
  | .settleWait _ _ => true
  | .transmitCommand t => match t with | .lane l k ty p => decide (l < 39) && decide (k < 8) && fitsU 8 ty && decide (p.length ≤ 9216) | .frame l ty cls dest p => decide (l < 39) && fitsU 8 ty && decide (cls < 3) && fitsU 16 dest && decide (p.length ≤ 9216) | .probe p ty b => decide (p < 1024) && fitsU 8 ty && decide (b.length ≤ 64)
  | .blockHeader _ _ x active rxAligned _ => fitsU 8 active && fitsU 8 rxAligned && fitsU 32 x.sync && fitsU 16 x.first
  | .linkFrame _ type cls seq source dest payload _ _ => fitsU 8 type && decide (cls < 3) && fitsU 16 seq && decide (source.lane < 8) && fitsU 16 source.chip && fitsU 16 dest && decide (payload.length ≤ 9216)
  | .linkAck _ ack1 ack2 nak => fitsU 16 ack1 && fitsU 16 ack2 && decide (nak.lane < 8) && fitsU 8 nak.nak
  | .retryTimeout _ => true
  | .linkTrain _ t => decide (t.lane < 8) && fitsU 8 t.mask && fitsU 16 t.sender && fitsU 8 t.twin && fitsU 32 t.trainId && fitsU 32 t.echo
  | .linkTrainInterval _ => true
  | .trainingRetry _ => true
  | .probeLightFlag _ _ => true
  | .probeDwellEnd _ => true
  | .replyWindowEnd _ => true
  | .probeRetry _ => true
  | .mapenHello _ f twin profileMax attempt nonce => mapenFields f && fitsU 8 twin && fitsU 8 profileMax && fitsU 8 attempt && fitsU 32 nonce
  | .ident _ f i => mapenFields f && fitsU 16 i.chip && fitsU 8 i.link && i.serial.length == 16 && fitsU 8 i.profile && fitsU 32 i.vendor && fitsU 16 i.caps && fitsU 8 i.lanes && fitsU 32 i.nonce
  | .mapenAck _ f acked => mapenFields f && fitsU 8 acked
  | .mapenNak _ f naked code detail => mapenFields f && fitsU 8 naked && fitsU 16 code && fitsU 32 detail
  | .mapenKeepalive _ f defSeq status => mapenFields f && fitsU 32 defSeq && fitsU 8 status
  | .mapenGoodbye _ f cause => mapenFields f && fitsU 8 cause
  | .helloInterval _ => true
  | .attemptEnd _ => true
  | .backoffEnd _ => true
  | .slowProbe _ => true
  | .detachTime _ => true
  | .keepaliveInterval _ => true
  | .quarantineEnd _ => true
  | .mapenRepeat _ => true
  | .portProbe c _ _ => fitsU 16 c
  | .discHello _ h => fitsU 16 h.chip && fitsU 8 h.twin && fitsU 8 h.variant && fitsU 8 h.port && fitsU 8 h.state && fitsU 8 h.flags && h.serial.length == 16 && fitsU 64 h.image
  | .discState _ d => fitsU 16 d.source && fitsU 8 d.twin && fitsU 8 d.state && fitsU 8 d.flags && fitsU 32 d.seq && fitsU 8 d.mask && fitsU 64 d.since && fitsU 32 d.id
  | .discConflict _ kind port seen expected => fitsU 8 kind && fitsU 8 port && fitsU 16 seen && fitsU 16 expected
  | .discHelloInterval => true
  | .discStateInterval => true
  | .discEntryExpiry chip _ => fitsU 16 chip
  | .discHelloAbsent _ => true
  | .gradIn _ h data => svcFields h && decide (data.length ≤ 9216)
  | .masterIn _ h data => svcFields h && decide (data.length ≤ 9216)
  | .actPush _ h data => svcFields h && decide (data.length ≤ 9216)
  | .weightIn _ h data => svcFields h && decide (data.length ≤ 9216)
  | .collPlan c _ _ => fitsU 16 c
  | .loadJob c _ => fitsU 16 c
  | .commitLoad c _ => fitsU 16 c
  | .collReset c _ => fitsU 16 c
  | .partialFormed _ => true
  | .partialRepeat _ => true
  | .normPartial _ tag gen shard flags step sum => fitsU 32 tag && fitsU 8 gen && fitsU 8 shard && fitsU 8 flags && fitsU 64 step && fitsU 64 sum
  | .normTimeout tag step gen => fitsU 32 tag && fitsU 64 step && fitsU 8 gen
  | .clipMsg _ m => fitsU 32 m.tag && fitsU 8 m.gen && fitsU 64 m.step && fitsU 8 m.result && fitsU 32 m.clip && fitsU 64 m.norm
  | .normRestart _ tag gen step => fitsU 32 tag && fitsU 8 gen && fitsU 64 step
  | .updateComplete _ => true
  | .fetchReq _ source dest slot len offset destSlot => fitsU 16 source && fitsU 16 dest && fitsU 8 slot && fitsU 32 len && fitsU 64 offset && fitsU 8 destSlot
  | .fetchData _ source dest slot flags offset data => fitsU 16 source && fitsU 16 dest && fitsU 8 slot && fitsU 8 flags && fitsU 64 offset && decide (data.length ≤ 8192)
  | .modelTable c _ => fitsU 16 c
  | .modelFill c _ => fitsU 16 c
  | .modelFetch c _ => fitsU 16 c
  | .modelClear c _ => fitsU 16 c
  | .scrubRead _ symbols _ => fitsU 8 symbols
  | .zeroFill _ => true
  | .scrubLapOverLimit _ => true
  | .remapReloadDone _ => true
  | .retireRequest c _ => fitsU 16 c
  | .retireRecordWritten _ => true
  | .deviceEccPoll poll => pollOk poll
  | .faultEvent code cls scope index _ detail => fitsU 16 code && decide (1 ≤ cls) && decide (cls ≤ 4) && fitsU 8 scope && fitsU 16 index && decide (detail.length ≤ 28)
  | .handlerStep => true
  | .levelTimeout n => decide (1 ≤ n) && decide (n ≤ 5)
  | .stallDeadline _ => true
  | .faultAcknowledge c _ => fitsU 16 c
  | .recoveryBudgetWrite c sub _ _ => fitsU 16 c && fitsU 8 sub
  | .detourRelease c _ _ => fitsU 16 c
  | .restartOrder c _ _ => fitsU 16 c
  | .restartRelease _ => true
  | .restartOrderTimeout _ => true
  | .logFlushTimer _ => true
  | .logPageProgrammed _ => true
  | .logBlock c => fitsU 16 c
  | .protBlock c => fitsU 16 c
  | .heartbeatWrite => true
  | .heartbeatStopped => true
  | .twinGrantEdge _ _ => true
  | .grantGuardElapsed _ => true
  | .coldTakeoverWait _ => true
  | .twinState cycle frag frags offset data => fitsU 64 cycle && fitsU 8 frag && fitsU 8 frags && fitsU 32 offset && decide (data.length ≤ 9200)
  | .twinRecordsMissed => true
  | .storeCopy m => fitsU 8 m.item && fitsU 8 m.flags && fitsU 32 m.index && fitsU 64 m.version && fitsU 32 m.offset && fitsU 32 m.total && decide (m.data.length ≤ 9192)
  | .mirror job bank region flags step offset data => fitsU 8 job && fitsU 8 bank && fitsU 8 region && fitsU 8 flags && fitsU 64 step && fitsU 64 offset && decide (data.length ≤ 8192) && decide (data.length % 64 = 0)
  | .driveHandover c => fitsU 16 c
  | .collHandover c => fitsU 16 c
  | .handoverAbort c => fitsU 16 c
  | .handoverGrantDrop => true
  | .roleSwapDue => true
  | .healthTestDue => true
  | .healthTestDone _ _ ueCount lapEnd => fitsU 32 ueCount && fitsU 64 lapEnd
  | .collRestore c _ _ => fitsU 16 c
  | .collRestoreDone _ => true
  | .selectorSettled => true
  | .engineReady _ => true
  | .permitRequest _ _ amount holder => fitsU 32 amount && fitsU 32 holder
  | .permitRenew _ holder => fitsU 32 holder
  | .permitRelease _ holder => fitsU 32 holder
  | .leaseEnd _ holder => fitsU 32 holder
  | .powerOverLimit mw => fitsU 32 mw
  | .powerRecovered mw => fitsU 32 mw
  | .heaterCap c _ _ => fitsU 16 c
  | .heaterSupply c _ => fitsU 16 c
  | .dieSensorSample temps => decide (temps.length ≤ 16) && temps.all (fitsI 16)
  | .thermalFaultEntry => true
  | .shutdownDeadline => true
  | .flashOperationsEnd => true
  | .tTrip _ temp => fitsI 16 temp
  | .thermalRestart _ _ => true
  | .manifest c _ _ => fitsU 16 c
  | .segmentFile c name _ => fitsU 16 c && fitsU 16 name
  | .segmentProgrammed _ => true
  | .recovery c _ _ => fitsU 16 c
  | .foePacketTimeout => true
  | .stagingScanDone => true
  | .activate c => fitsU 16 c
  | .activationDone _ => true
  | .updateClear c => fitsU 16 c
  | .clearEraseDone => true
  | .healthSoakElapsed => true
  | .healthWindowEnd => true
  | .healthReject c => fitsU 16 c
  | .watchdogRestart => true
  | .settingsRecordCommitted => true
  | .recorderEnable c _ => fitsU 16 c
  | .recorderTrigger c => fitsU 16 c
  | .freeze c => fitsU 16 c
  | .releaseCapture c => fitsU 16 c
  | .postWindow => true
  | .capture c => fitsU 16 c
  | .captureWrite c _ => fitsU 16 c
  | .replayData offset total flags data => fitsU 64 offset && fitsU 64 total && fitsU 8 flags && decide (data.length ≤ 8192) && decide (data.length % 64 = 0)
  | .replayFetch c => fitsU 16 c
  | .replayRun c => fitsU 16 c
  | .replayAbort c => fitsU 16 c
  | .replayClear c => fitsU 16 c
  | .page _ _ => true
  | .capability _ => true
  | .statusWord _ => true
  | .statusInput _ => true
  | .statusTemperature _ => true
  | .readVin _ => true
  | .readIin _ => true
  | .readTemperature1 _ => true
  | .readTemperature2 _ => true
  | .readPin _ => true
  | .pmbusRevision _ => true
  | .mfrId _ => true
  | .mfrModel _ => true
  | .mfrRevision _ => true
  | .mfrSerial _ => true
  | .pmbusUnsupported _ _ => true
  | .alertResponse _ => true
  | .pmbusRefresh mv ma _ hbm => mv.length == 2 && ma.length == 2 && hbm.all (fitsI 16)
  | .mapenCrcError _ => true
  | .protocolViolation _ f type version length => mapenFields f && fitsU 8 type && fitsU 8 version && fitsU 8 length
  | .fieldNetworkLoss => true
  | .processDataOutputs _ => true
  | .manifestReceiptProgrammed _ => true
  | .ppsInPresentTimeout => true
  | .positionConfirmTimeout => true
  | .healthOverdue => true
  | .roleSwapNotFound => true
  | .holdupDischarged => true
  | .podChainChange _ _ => true

end Sys2Proof
end

