-- ==== Sys2Proof/Certificates/Slice0/Obligations.lean ====
section
/-!
DEFINITION. The statements for the provers, from the rules of the spec: what the queue, the frames and the memory do, where each
command completes and what it leaves, and the invariant of every step.
-/

set_option linter.all false
open Sys2Proof Sys2Proof.Machine

/-- A step takes the command at the front of the queue and answers what it answers on the rest of the queue. The queue is the model's own
(log entries 1 and 60). -/
def Obligations.StepRunsFront : Prop :=
  ∀ (c : Instr) (rest : List Instr) (s : State), step { s with pending := c :: rest } = exec c { s with pending := rest }

/-- On an empty queue a step is one tick of CK_TIME: the 96-bit counter grows by INCREMENT (R98) while PD3 is on. That an empty queue lets
a tick pass is the model's choice (log entries 1 and 7). -/
def Obligations.StepTicks : Prop :=
  ∀ s : State, s.pending = [] →
    step s = .next { s with dev := if s.dev.isOn 3
      then { s.dev with time := { s.dev.time with counter := (s.dev.time.counter + s.dev.time.increment) % 2 ^ 96 } } else s.dev }

/-- The state before power (R388, R391, and the defaults of the object tables). Values that the spec does not give are those of the log
entries 2, 3 and 4, and none of them is stated here but the first states of the machines. -/
def Obligations.ResetHolds : Prop :=
  State.reset.Inv ∧ State.reset.hbm.cells = [] ∧ State.reset.pending = [] ∧ State.reset.dev.out = [] ∧
    (∀ k : Fin 16, State.reset.dev.isOn k = false) ∧ State.reset.dev.twin.ownDrive = false ∧ State.reset.dev.twin.ownColl = false ∧
    State.reset.dev.net.ecat = .init ∧ State.reset.dev.dir.state = .boot ∧ State.reset.dev.faults.current = none ∧
    State.reset.dev.faults.queue = [] ∧ State.reset.dev.od = [] ∧ State.reset.dev.time.increment = 2 ^ 33

/-- The rows of the table have no bits: commands come from outside, not from words. -/
def Obligations.TableSpellsNothing : Prop :=
  ∀ (s : State) (nbits w : Nat), Sys2Proof.decodeTableWord nbits w = none ∧ s.withFetchWord nbits w = s

/-- Every command has a next state: no fault and no refusal is ever answered (log entry 61). -/
def Obligations.EveryCommandCompletes : Prop :=
  ∀ (i : Instr) (s : State), ∃ t, exec i s = .next t

/-- Supplies, cold and warm starts, and losses of supply or reference: where COLD_START, HOLDUP_CHARGED, MAIN_INPUT_FAIL,
MAIN_INPUT_RESTORED, COLD_RESET, VAUX_LOSS, TWIN_PRESENT_CHANGE, REFCLK_A_LOST, TIME_REF_LOST, LOSS_OF_LOCK, HOLDUP_DISCHARGED complete,
and what they leave (R34, R342, R386, R389, R391, R437, R439, R441, R442, R443). Where a clause goes through a choice of the model, it is
that of the log entries 7, 18, 50, 58. -/
def Obligations.PowerStarts : Prop :=
  (∀ (s : State) (straps : Fin 128) (ref : Fin 3), s.dev.down = true → ∃ t, exec (.coldStart straps ref) s = .next t ∧
    t.dev.module.straps = straps ∧ t.dev.module.timeRef = ref ∧ t.dev.module.main = true ∧ t.dev.upd.state = .scanning ∧
    t.hbm.cells = []) ∧
  (∀ s : State, ∃ t, exec .holdupCharged s = .next t ∧ t.dev.module.holdup = true) ∧
  (∀ s : State, ∃ t, exec .mainInputFail s = .next t ∧ t.dev.module.main = false ∧ t.dev.module.mainLostAt = some s.dev.now ∧
    t.hbm.cells = [] ∧ ∀ k, 1 ≤ k → k ≠ 15 → t.dev.isOn k = false) ∧
  (∀ s : State, s.dev.module.main = false → ∃ t, exec .mainInputRestored s = .next t ∧ t.dev.module.main = true ∧
    t.dev.module.mainLostAt = none) ∧
  (∀ s : State, ∃ t, exec .coldReset s = .next t ∧ t.dev.module.coldReset = true ∧ t.hbm.cells = [] ∧ t.dev.circuits = [] ∧
    t.dev.net.sessions = []) ∧
  (∀ s : State, ∃ t, exec .vauxLoss s = .next t ∧ t.dev.module.aux = false ∧ t.dev.isOn 0 = false ∧ t.dev.now = 0 ∧ t.hbm.cells = []) ∧
  (∀ (s : State) (low : Bool) (id : Fin 2), ∃ t, exec (.twinPresentChange low id) s = .next t ∧ t.dev.twin.present = low ∧
    t.dev.twin.id = id ∧ t.hbm = s.hbm) ∧
  (∀ (s : State) (core ctrl : Bool), core = true ∨ ctrl = true → ∃ t, exec (.refclkALost core ctrl) s = .next t ∧
    t.dev = (({ s.dev with module := { s.dev.module with refclk := false } }).dropGrants false).raise 0x0B01 3 0 0 true ∧
    (s.dev.isOn 1 = true → t.dev.upd.soakBroken = true)) ∧
  (∀ s : State, s.dev.isOn 3 = true → s.dev.module.timeRef ≠ 2 → ∃ t, exec .timeRefLost s = .next t ∧ t.dev.module.timeRef = 2 ∧
    t.hbm = s.hbm) ∧
  (∀ (s : State) (r : Receiver) (words : Nat), ∃ t, exec (.lossOfLock r words) s = .next t ∧ r ∈ t.dev.module.unlocked ∧
    tget 0 t.dev.module.discards (crossingOf r) = (tget 0 s.dev.module.discards (crossingOf r) + words) % 2 ^ 32) ∧
  (∀ s : State, s.dev.module.mainLostAt ≠ none → ∃ t, exec .holdupDischarged s = .next t ∧ t.dev.module.holdup = false)

/-- Domain ramps, quiesces and permits: where DOMAIN_RAMP_DONE, QUIESCE_TIMEOUT, PERMIT_REQUEST, PERMIT_RENEW, PERMIT_RELEASE complete, and
what they leave (R29, R367, R373, R374). Where a clause goes through a choice of the model, it is that of the log entries 17, 18. -/
def Obligations.PowerPermits : Prop :=
  (∀ s : State, s.dev.domain 1 = .ramping → s.dev.net.mailbox = [] → s.dev.dir.state ≠ .selftest → ∃ t,
    exec (.domainRampDone 1 []) s = .next t ∧ t.dev.isOn 1 = true ∧ tget 0 s.dev.power.rampAt 1 + 5 * Config.ms ≤ t.dev.now) ∧
  (∀ (s : State) (k : Nat) (rest : List Nat) (x y : Fin 20) (words : Nat), s.dev.power.toOff = k :: rest →
    s.dev.domain k = .quiescing → s.dev.module.quiescing = [x.val, y.val] → x ≠ y → s.dev.net.mailbox = [] → ∃ t,
    exec (.quiesceTimeout x words) s = .next t ∧ t.dev.module.quiescing = [y.val] ∧
    tget 0 t.dev.module.discards x = (tget 0 s.dev.module.discards x + words) % 2 ^ 32) ∧
  (∀ (s : State) (cls : Fin 7) (prio : Prio) (amount holder : Nat), cls.val ≠ 0 → cls.val ≠ 6 → s.dev.net.mailbox = [] → (∀ k,
    s.dev.domain k ≠ .ramping) → prio ≠ .fault → s.dev.permitDenied cls prio amount holder = false →
    s.dev.permitFits { cls := cls, amount := amount, prio := prio, holder := holder, till := 0, order := s.dev.power.nextOrder } = true →
    ∃ t, exec (.permitRequest cls prio amount holder) s = .next t ∧
    t.dev.power.grants = s.dev.power.grants ++ [{ cls := cls, amount := amount, prio := prio, holder := holder, till := s.dev.now + leaseTime cls holder, order := s.dev.power.nextOrder }]) ∧
  (∀ (s : State) (holder : Nat) (g : Permit), s.dev.grantOf 3 holder = some g → s.dev.permitOk 3 g.prio holder = true → ∃ t,
    exec (.permitRenew 3 holder) s = .next t ∧
    t.dev.power.grants = s.dev.power.grants.map (fun x => if x.cls = 3 && x.holder = holder then { x with till := x.till + leaseTime 3 holder } else x)) ∧
  (∀ (s : State) (cls : Fin 7) (holder : Nat), ∃ t, exec (.permitRelease cls holder) s = .next t ∧ t.dev.grantOf cls holder = none ∧
    t.hbm = s.hbm)

/-- Leases, power limits, die sensors and thermal levels: where LEASE_END, POWER_OVER_LIMIT, POWER_RECOVERED, DIE_SENSOR_SAMPLE,
THERMAL_FAULT_ENTRY, SHUTDOWN_DEADLINE, FLASH_OPERATIONS_END, T_TRIP, THERMAL_RESTART complete, and what they leave (R371, R374, R381,
R383, R384, R385, R386). Where a clause goes through a choice of the model, it is that of the log entries 17, 58. -/
def Obligations.PowerHeat : Prop :=
  (∀ (s : State) (holder : Nat) (g : Permit), s.dev.grantOf 3 holder = some g → s.dev.net.mailbox = [] → ∃ t,
    exec (.leaseEnd 3 holder) s = .next t ∧ t.dev.grantOf 3 holder = none ∧ g.till ≤ t.dev.now) ∧
  (∀ (s : State) (mw : Nat), s.dev.power.overLimit = false → s.dev.net.mailbox = [] → ∃ t, exec (.powerOverLimit mw) s = .next t ∧
    t.dev.power.overLimit = true ∧ t.dev.power.inputPower = mw ∧ t.hbm = s.hbm) ∧
  (∀ (s : State) (mw : Nat), ∃ t, exec (.powerRecovered mw) s = .next t ∧ t.dev.power.inputPower = mw ∧
    t.dev.power.overLimit = false ∧ t.hbm = s.hbm) ∧
  (∀ (s : State) (temps : List Int), s.dev.isOn 0 = true → ∃ t, exec (.dieSensorSample temps) s = .next t ∧
    (t.dev, t.hbm) = serve (dieSample (s.dev, s.hbm) temps)) ∧
  (∀ (s : State) (temps : List Int), s.dev.isOn 0 = true → s.dev.power.level = .normal → (hottest temps).2 < 950 →
    s.dev.power.startHeld = false → s.dev.net.mailbox = [] → ∃ t, exec (.dieSensorSample temps) s = .next t ∧
    t.dev.power.temps = temps ∧ t.dev.power.level = .normal ∧ t.dev.power.above = [0, 0, 0] ∧ t.hbm = s.hbm) ∧
  (∀ (s : State) (a : Nat), s.dev.power.shutAt = some a → s.dev.inState [.boot] = false → ∃ t, exec .thermalFaultEntry s = .next t ∧
    (t.dev, t.hbm) = domainsDown (((s.dev.reach (faultInstant a)).enterFault .thermal).settleLogs, s.hbm) [11, 10, 9, 14, 13, 12, 7, 6, 5, 4]) ∧
  (∀ (s : State) (a : Nat) (m : Mach), s.dev.power.shutAt = some a → s.dev.inState [.boot] = true →
    m = domainsDown (s.dev.settleLogs, s.hbm) [11, 10, 9, 14, 13, 12, 7, 6, 5, 4] → ∃ t, exec .shutdownDeadline s = .next t ∧
    (t.dev, t.hbm) = domainsDown (m.1.reach (a + 2 * Config.ms), m.2) [8, 3, 2, 1]) ∧
  (∀ (s : State) (a : Nat), s.dev.isOn 1 = false → s.dev.isOn 15 = true → s.dev.power.flashGate = false →
    s.dev.power.shutAt = some a → ∃ t, exec .flashOperationsEnd s = .next t ∧ t.dev.power.shutDone = true ∧
    t.dev.power.level = .shut ∧ t.hbm.cells = []) ∧
  (∀ (s : State) (sensor : Fin 16) (temp : Int), ∃ t, exec (.tTrip sensor temp) s = .next t ∧ t.dev.power.tripLatched = true ∧
    t.dev.power.shutDone = true ∧ t.dev.power.lastShut = some (s.dev.now, 4, sensor.val, temp) ∧ t.dev.module.holdup = false ∧
    t.hbm.cells = []) ∧
  (∀ (s : State) (straps : Fin 128) (ref : Fin 3) (a : Nat), s.dev.power.coolSince = some a → s.dev.power.shutDone = true →
    s.dev.power.tripLatched = false → s.dev.committedNum 0x2130 7 ≠ 0 → s.dev.down = true → ∃ t,
    exec (.thermalRestart straps ref) s = .next t ∧ t.dev.module.straps = straps ∧ t.dev.upd.kind = .thermal ∧
    t.dev.upd.state = .scanning)

/-- The ten Director commands and what else moves the Director's state: where ARM, SERVE, HOLD, RESUME, DISARM, ENTER_MAINTENANCE,
EXIT_MAINTENANCE, ENTER_REPLAY, EXIT_REPLAY, WARM_RESTART, FAULT_ACK, CMD_UNLISTED, COMMAND_COMPLETE, IMAGE_VERIFIED, SELFTEST_PASSED
complete, and what they leave (R60, R61, R62, R306, R320, R392). Where a clause goes through a choice of the model, it is that of the log
entries 10, 104. -/
def Obligations.DirectorCommands : Prop :=
  (∀ (s : State) (src : CmdSrc), s.Obeys src .arm → ∃ t, exec (.arm src) s = .next t ∧
    t.Ran ((((s.ordered src .arm).setState .armed .command).resumeJobs.announce).cmdEnds 0, s.hbm)) ∧
  (∀ (s : State) (src : CmdSrc), s.Obeys src .serve → ∃ t, exec (.serve src) s = .next t ∧
    t.Ran ((((s.ordered src .serve).setState .serving .command).revoteAll.announce).cmdEnds 0, s.hbm)) ∧
  (∀ (s : State) (src : CmdSrc), s.Obeys src .hold → ∃ t, exec (.hold src) s = .next t ∧
    t.Ran (((s.ordered src .hold).enterHold .command).cmdEnds 0, s.hbm)) ∧
  (∀ (s : State) (src : CmdSrc), s.Obeys src .resume → ∃ t, exec (.resume src) s = .next t ∧
    t.Ran (((((s.ordered src .resume).setState .serving .command).resumeJobs).revoteAll.announce).cmdEnds 0, s.hbm)) ∧
  (∀ (s : State) (src : CmdSrc), s.Obeys src .disarm → ∃ t, exec (.disarm src) s = .next t ∧
    t.Ran ((((s.ordered src .disarm).setState .standby .command).disarmEntries.announce).cmdEnds 0, s.hbm)) ∧
  (∀ (s : State) (src : CmdSrc), s.Obeys src .enterMaint → ∃ t, exec (.enterMaintenance src) s = .next t ∧
    t.Ran ((((s.ordered src .enterMaint).setState .maintenance .command).announce).cmdEnds 0, s.hbm)) ∧
  (∀ (s : State) (src : CmdSrc), s.Obeys src .exitMaint → ∃ t, exec (.exitMaintenance src) s = .next t ∧
    t.Ran ((((s.ordered src .exitMaint).setState .standby .command).announce).cmdEnds 0, s.hbm)) ∧
  (∀ (s : State) (src : CmdSrc), s.Obeys src .enterReplay → s.dev.recr.state ≠ .running → ∃ t, exec (.enterReplay src) s = .next t ∧
    t.Ran ((((((s.ordered src .enterReplay).setState .replay .command).leaveRoles).ownCapture).announce).cmdEnds 0, s.hbm)) ∧
  (∀ (s : State) (src : CmdSrc) (d : Dev), s.Obeys src .exitReplay →
    d = ((s.ordered src .exitReplay).setState .standby .command).dropCapture.tryRing.announce → d.joined = false → ∃ t,
    exec (.exitReplay src) s = .next t ∧ t.Ran (d.cmdEnds 0, s.hbm)) ∧
  (∀ (s : State) (src : CmdSrc) (d : Dev), s.Obeys src .exitReplay →
    d = ((s.ordered src .exitReplay).setState .standby .command).dropCapture.tryRing.announce → d.joined = true → ∃ t,
    exec (.exitReplay src) s = .next t ∧ t.Ran ((twinJoined (d, s.hbm)).1.cmdEnds 0, (twinJoined (d, s.hbm)).2)) ∧
  (∀ (s : State) (src : CmdSrc), s.Obeys src .warmRestart → ∃ t, exec (.warmRestart src) s = .next t ∧
    t.Ran ((warmStart (s.ordered src .warmRestart, s.hbm) .warm .command).1.cmdEnds 0, (warmStart (s.ordered src .warmRestart, s.hbm) .warm .command).2)) ∧
  (∀ s : State, s.dev.dir.lastFaultAck = false → ∃ t, exec (.faultAck .processData) s = .next t ∧ ∃ d : Dev,
    d.dir = { s.dev.dir with control := 256 + 32768 * b2n s.dev.dir.cmdAck, byMaintainer := false, lastFaultAck := true } ∧
    d.faults = (Dev.faultAck { s.dev with dir := { s.dev.dir with control := 256 + 32768 * b2n s.dev.dir.cmdAck, byMaintainer := false } }).faults ∧
    t.Ran (d, s.hbm)) ∧
  (∀ (s : State) (word : Fin 65536), wordUnlisted word = true → s.dev.dir.inProgress = none →
    word.val.testBit 15 = !s.dev.dir.cmdAck → ∃ t, exec (.cmdUnlisted word) s = .next t ∧
    t.Ran ({ s.dev with dir := { s.dev.dir with control := word, byMaintainer := false, cmdAck := !s.dev.dir.cmdAck, latched := word, latchedMaintainer := false, lastFaultAck := word.val.testBit 8, cmdResult := 5 } }, s.hbm)) ∧
  (∀ s : State, s.dev.dir.inProgress = some .enterMaint → s.dev.faults.current = none → s.dev.dir.latchedMaintainer = true →
    s.dev.inState [.standby, .hold] = true → s.dev.cmdGuard .enterMaint = true → ∃ t, exec .commandComplete s = .next t ∧
    t.Ran (latchControl ((((({ s.dev with dir := { s.dev.dir with inProgress := none } } : Dev).setState .maintenance .command).announce).cmdEnds 0), s.hbm))) ∧
  (∀ (s : State) (region : Fin 2) (manifest : Bytes), s.dev.dir.state = .boot → s.dev.isOn 1 = true → s.dev.upd.verified = false →
    s.dev.power.shutAt = none → ∃ t, exec (.imageVerified region manifest) s = .next t ∧ t.hbm = s.hbm ∧ t.dev.dir.state = .selftest ∧
    t.dev.dir.cause = .startUp ∧ t.dev.upd.verified = true ∧ t.dev.upd.region = region + 1) ∧
  (∀ (s : State) (bad : List (Nat × Nat)), s.dev.dir.state = .selftest → (s.dev.failedCheckers bad).any checkerFatal = false →
    s.dev.power.tripLatched = false → ∃ t, exec (.selftestPassed bad) s = .next t ∧ t.hbm = s.hbm ∧ t.dev.dir.state = .standby ∧ t.dev.dir.cause = .startUp)

/-- Requests on jobs, slots and recoveries: where JOB_STOP, JOB_CLEAR, CONSTELLATION, SHARD_MAP, FAULT_ACKNOWLEDGE, DETOUR_RELEASE,
RESTART_ORDER complete, and what they leave (R65, R71, R82, R320, R330, R332). Where a clause goes through a choice of the model, it is
that of the log entries 8, 9, 63, 65, 93. -/
def Obligations.JobRequests : Prop :=
  (∀ (s : State) (c : Client) (j : Fin 16), s.Takes c (0x2080 + j.val) 2 [2] → ∃ t, exec (.jobStop c j) s = .next t ∧
    t.Answered ((s.taken c (0x2080 + j.val) 2).orderStop j 1) s.hbm c (0x2080 + j.val) 2) ∧
  (∀ (s : State) (c : Client) (j : Fin 16), s.Takes c (0x2080 + j.val) 2 [3] → ∃ t, exec (.jobClear c j) s = .next t ∧
    t.Answered ((s.taken c (0x2080 + j.val) 2).clearJob j) s.hbm c (0x2080 + j.val) 2) ∧
  (∀ (s : State) (c : Client) (slot : Fin 1024) (data : Bytes), s.Takes c (0x4400 + slot.val) 1 data → ∃ t,
    exec (.constellation c slot data) s = .next t ∧ t.Took (((s.taken c (0x4400 + slot.val) 1).setSlot slot data).persist c (0x4400 + slot.val) 1).1 s.hbm) ∧
  (∀ (s : State) (c : Client) (j : Fin 16) (data : Bytes), s.Takes c (0x4800 + j.val) 3 data → ∃ t,
    exec (.shardMap c j data) s = .next t ∧
    t.Took (((s.taken c (0x4800 + j.val) 3).library.store (0x4800 + j.val) 3 data).persist c (0x4800 + j.val) 3).1 s.hbm) ∧
  (∀ (s : State) (c : Client) (data : Bytes), s.Takes c 0x2301 2 data → ∃ t, exec (.faultAcknowledge c data) s = .next t ∧
    t.Answered ((s.taken c 0x2301 2).acknowledge (unle data)) s.hbm c 0x2301 2) ∧
  (∀ (s : State) (c : Client) (j : Fin 16) (data : Bytes), s.Takes c (0x2320 + j.val) 2 data → ∃ t,
    exec (.detourRelease c j data) s = .next t ∧ t.Answered ((s.taken c (0x2320 + j.val) 2).askRelease j (unle data)) s.hbm c (0x2320 + j.val) 2) ∧
  (∀ (s : State) (c : Client) (j : Fin 16) (data : Bytes), s.Takes c (0x2320 + j.val) 3 data → fld data 0 1 ≠ 0 → ∃ t,
    exec (.restartOrder c j data) s = .next t ∧ t.Answered ((s.taken c (0x2320 + j.val) 3).takeOrder j data) s.hbm c (0x2320 + j.val) 3)

/-- Requests on time, heads, boards, pods and lasers: where REQUALIFY, ORBIT_EPOCH, ORBIT_PERIOD, OPEN_REQUEST, AUTOTUNE_COMMAND, DRAIN,
RETURN, CROSSTALK, CAL_REQUEST, SLOT_ENABLE, SLOT_DISABLE, PORT_PROBE complete, and what they leave (R110, R115, R136, R147, R151, R167,
R170, R211, R212, R261). Where a clause goes through a choice of the model, it is that of the log entries 8, 24, 68. -/
def Obligations.FabricRequests : Prop :=
  (∀ (s : State) (c : Client) (d : Fin 2) (data : Bytes), s.Takes c (0x2210 + d.val) 13 data → ∃ t,
    exec (.requalify c d data) s = .next t ∧
    t.Answered ((s.taken c (0x2210 + d.val) 13).modPtp d Ptp.requalified) s.hbm c (0x2210 + d.val) 13) ∧
  (∀ (s : State) (c : Client) (data : Bytes), s.Takes c 0x2230 1 data → ∃ t, exec (.orbitEpoch c data) s = .next t ∧
    t.Took (((s.taken c 0x2230 1).newDef (some (unle data)) none).persist c 0x2230 1).1 s.hbm) ∧
  (∀ (s : State) (c : Client) (data : Bytes), s.Takes c 0x2230 2 data → ∃ t, exec (.orbitPeriod c data) s = .next t ∧
    t.Took (((s.taken c 0x2230 2).newDef none (some (unle data))).persist c 0x2230 2).1 s.hbm) ∧
  (∀ (s : State) (c : Client) (h : Fin 2048) (data : Bytes), s.Takes c (0x3000 + h.val) 27 data → unle data ≠ 0 → ∃ t,
    exec (.openRequest c h data) s = .next t ∧
    t.Answered ((s.taken c (0x3000 + h.val) 27).openByCommand (axesNamed h (unle data))) s.hbm c (0x3000 + h.val) 27) ∧
  (∀ (s : State) (c : Client) (h : Fin 2048) (data : Bytes), s.Takes c (0x3000 + h.val) 28 data → ∃ t,
    exec (.autotuneCommand c h data) s = .next t ∧
    t.Answered ((axesNamed h (unle data)).foldl Dev.startTune (s.taken c (0x3000 + h.val) 28)) s.hbm c (0x3000 + h.val) 28) ∧
  (∀ (s : State) (c : Client) (b : Fin 16), s.Takes c (0x3D00 + b.val) 2 [1] → ∃ t, exec (.drain c b) s = .next t ∧
    t.Answered ((s.taken c (0x3D00 + b.val) 2).drainBoard b) s.hbm c (0x3D00 + b.val) 2) ∧
  (∀ (s : State) (c : Client) (b : Fin 16), s.Takes c (0x3D00 + b.val) 2 [2] → ((s.taken c (0x3D00 + b.val) 2).board b).state = .drained → ∃ t,
    exec (.returnBoard c b) s = .next t ∧
    t.Answered (((s.taken c (0x3D00 + b.val) 2).setBoard b .adopting).modBoard b (fun y => { y with holdFrames := 0 })) s.hbm c (0x3D00 + b.val) 2) ∧
  (∀ (s : State) (c : Client) (q : Fin 64) (data : Bytes), s.Takes c (0x3C00 + q.val) 1 data → ∃ t,
    exec (.crosstalk c q data) s = .next t ∧
    t.Took ((((s.taken c (0x3C00 + q.val) 1).store (0x3C00 + q.val) 1 data).persist c (0x3C00 + q.val) 1).1.setOct (0x3C00 + q.val) 2 (zeros 8)) s.hbm) ∧
  (∀ (s : State) (c : Client) (p : Fin 1024) (data : Bytes), s.Takes c (0x3800 + p.val) 15 data → ∃ t,
    exec (.calRequest c p data) s = .next t ∧
    t.Took (let d := (((s.taken c (0x3800 + p.val) 15).store (0x3800 + p.val) 15 data).persist c (0x3800 + p.val) 15).1
      if d.isMaintainer c then d.modBank p (fun b => { b with calByMa := unle data }) else d.modBank p (fun b => { b with calByMa := b.calByMa &&& unle data })) s.hbm) ∧
  (∀ (s : State) (c : Client) (sel : Fin 4), s.Takes c (0x2A01 + sel.val) 2 [1] → ∃ t, exec (.slotEnable c sel) s = .next t ∧
    t.Answered ((s.taken c (0x2A01 + sel.val) 2).slotEnable sel) s.hbm c (0x2A01 + sel.val) 2) ∧
  (∀ (s : State) (c : Client) (sel : Fin 4), s.Takes c (0x2A01 + sel.val) 2 [2] → ∃ t, exec (.slotDisable c sel) s = .next t ∧
    t.Answered ((s.taken c (0x2A01 + sel.val) 2).slotDisable sel) s.hbm c (0x2A01 + sel.val) 2) ∧
  (∀ (s : State) (c : Client) (p : Fin 1024) (data : Bytes), s.Takes c (0x4000 + p.val) 22 data → ∃ t,
    exec (.portProbe c p data) s = .next t ∧
    t.Took ((((s.taken c (0x4000 + p.val) 22).store (0x4000 + p.val) 22 data).persist c (0x4000 + p.val) 22).1.refreshProbing p) s.hbm)

/-- Requests on plans, models and the retirement of pages: where COLL_PLAN, LOAD, COMMIT_LOAD, COLL_RESET, MODEL_TABLE, MODEL_FILL,
MODEL_FETCH, MODEL_CLEAR, RETIRE_REQUEST complete, and what they leave (R270, R271, R287, R308). Where a clause goes through a choice of
the model, it is that of the log entries 8. -/
def Obligations.CollectiveRequests : Prop :=
  (∀ (s : State) (c : Client) (j : Fin 16) (data : Bytes), s.Takes c (0x2910 + j.val) 1 data → ∃ t,
    exec (.collPlan c j data) s = .next t ∧ t.Took (((s.taken c (0x2910 + j.val) 1).setPlan j data).persist c (0x2910 + j.val) 1).1 s.hbm) ∧
  (∀ (s : State) (c : Client) (j : Fin 16), s.Takes c (0x2910 + j.val) 4 [1] → ∃ t, exec (.loadJob c j) s = .next t ∧
    t.Answered (collCommand (s.taken c (0x2910 + j.val) 4, s.hbm) j 1).1 (collCommand (s.taken c (0x2910 + j.val) 4, s.hbm) j 1).2 c (0x2910 + j.val) 4) ∧
  (∀ (s : State) (c : Client) (j : Fin 16), s.Takes c (0x2910 + j.val) 4 [2] → ∃ t, exec (.commitLoad c j) s = .next t ∧
    t.Answered ((s.taken c (0x2910 + j.val) 4).modEngJob j (fun y => { y with state := .ready, count := 0 })) s.hbm c (0x2910 + j.val) 4) ∧
  (∀ (s : State) (c : Client) (j : Fin 16), s.Takes c (0x2910 + j.val) 4 [3] → ∃ t, exec (.collReset c j) s = .next t ∧
    t.Answered (collCommand (s.taken c (0x2910 + j.val) 4, s.hbm) j 3).1 (collCommand (s.taken c (0x2910 + j.val) 4, s.hbm) j 3).2 c (0x2910 + j.val) 4) ∧
  (∀ (s : State) (c : Client) (data : Bytes), s.Takes c 0x2940 1 data → ∃ t, exec (.modelTable c data) s = .next t ∧
    ∃ m : Mach, m = dropSlots (s.taken c 0x2940 1, s.hbm) ((s.taken c 0x2940 1).modelsChanged data) ∧
    t.Took ((m.1.setTable data).persist c 0x2940 1).1 m.2) ∧
  (∀ (s : State) (c : Client) (slot : Fin 256), s.Takes c 0x2940 3 (le 2 (slot.val + 256)) → ∃ t,
    exec (.modelFill c slot) s = .next t ∧
    t.Answered (((s.taken c 0x2940 3).burst (32 + slot)).modModel slot (fun y => { y with state := .filling, written := [], asked := [], next := 0 })) s.hbm c 0x2940 3) ∧
  (∀ (s : State) (c : Client) (slot : Fin 256), s.Takes c 0x2940 3 (le 2 (slot.val + 512)) → ∃ t,
    exec (.modelFetch c slot) s = .next t ∧
    t.Answered ((((s.taken c 0x2940 3).burst (32 + slot)).modModel slot (fun y => { y with state := .fetching, written := [], asked := [], next := 0 })).fetchMore slot 64) s.hbm c 0x2940 3) ∧
  (∀ (s : State) (c : Client) (slot : Fin 256), s.Takes c 0x2940 3 (le 2 (slot.val + 768)) → ∃ t,
    exec (.modelClear c slot) s = .next t ∧
    t.Answered (((dropSlots (s.taken c 0x2940 3, s.hbm) [slot.val]).1.release 3 (32 + slot)).modModel slot (fun y => { y with state := .empty, written := [], asked := [], next := 0 }))
      (dropSlots (s.taken c 0x2940 3, s.hbm) [slot.val]).2 c 0x2940 3) ∧
  (∀ (s : State) (c : Client) (data : Bytes), s.Takes c 0x2840 1 data → ∃ t, exec (.retireRequest c data) s = .next t ∧
    t.Waits (retirePage (s.taken c 0x2840 1, s.hbm) (fld data 0 1) (fld data 4 4)).1 (retirePage (s.taken c 0x2840 1, s.hbm) (fld data 0 1) (fld data 4 4)).2 (.retire c 0x2840 1))

/-- Requests on the twin, the heaters' supply and the update: where DRIVE_HANDOVER, COLL_HANDOVER, HANDOVER_ABORT, COLL_RESTORE,
HEATER_CAP, HEATER_SUPPLY, ACTIVATE, UPDATE_CLEAR, HEALTH_REJECT complete, and what they leave (R355, R362, R363, R380, R406, R408,
R411). Where a clause goes through a choice of the model, it is that of the log entries 8. -/
def Obligations.ModuleRequests : Prop :=
  (∀ (s : State) (c : Client), s.Takes c 0x2510 3 [1] → ∃ t, exec (.driveHandover c) s = .next t ∧
    t.Answered ((s.taken c 0x2510 3).announceDrive) s.hbm c 0x2510 3) ∧
  (∀ (s : State) (c : Client), s.Takes c 0x2510 3 [2] → (handColl (s.taken c 0x2510 3, s.hbm)).1.net.mailbox = [] →
    (handColl (s.taken c 0x2510 3, s.hbm)).1.net.waiting = none → ∃ t, exec (.collHandover c) s = .next t ∧
    t.Took (handColl (s.taken c 0x2510 3, s.hbm)).1 (handColl (s.taken c 0x2510 3, s.hbm)).2) ∧
  (∀ (s : State) (c : Client), s.Takes c 0x2510 3 [3] → ∃ t, exec (.handoverAbort c) s = .next t ∧
    t.Answered ((s.taken c 0x2510 3).abortHandover) s.hbm c 0x2510 3) ∧
  (∀ (s : State) (c : Client) (j : Fin 16) (data : Bytes), s.Takes c (0x2530 + j.val) 6 data → ∃ t,
    exec (.collRestore c j data) s = .next t ∧
    t.Answered (beginRestore (s.taken c (0x2530 + j.val) 6, s.hbm) j (unle data)).1 (beginRestore (s.taken c (0x2530 + j.val) 6, s.hbm) j (unle data)).2 c (0x2530 + j.val) 6) ∧
  (∀ (s : State) (c : Client) (q : Fin 64) (data : Bytes), s.Takes c (0x3C00 + q.val) 5 data → ∃ t,
    exec (.heaterCap c q data) s = .next t ∧
    t.Took ((((s.taken c (0x3C00 + q.val) 5).store (0x3C00 + q.val) 5 data).persist c (0x3C00 + q.val) 5).1) s.hbm) ∧
  (∀ (s : State) (c : Client) (data : Bytes), s.Takes c 0x2120 7 data → ∃ t, exec (.heaterSupply c data) s = .next t ∧
    t.Took ((((s.taken c 0x2120 7).store 0x2120 7 data).persist c 0x2120 7).1.arbiter) s.hbm) ∧
  (∀ (s : State) (c : Client), s.Takes c 0x2400 2 [1] → ∃ t, exec (.activate c) s = .next t ∧
    t.Answered ((s.taken c 0x2400 2).activate) s.hbm c 0x2400 2) ∧
  (∀ (s : State) (c : Client), s.Takes c 0x2400 2 [2] → ∃ t, exec (.updateClear c) s = .next t ∧
    t.Answered (({ s.taken c 0x2400 2 with upd := { (s.taken c 0x2400 2).upd with state := .clearing } } : Dev).emit (.flash 2)) s.hbm c 0x2400 2) ∧
  (∀ (s : State) (c : Client), s.Takes c 0x2402 0 [2] → ∃ t, exec (.healthReject c) s = .next t ∧
    t.Answered ((s.taken c 0x2402 0).orderWatchdog) s.hbm c 0x2402 0)

/-- Recorder, replay, session ends and role keys: where RECORDER_ENABLE, RECORDER_TRIGGER, FREEZE, RELEASE, REPLAY_FETCH, REPLAY_RUN,
REPLAY_ABORT, REPLAY_CLEAR, SESSION_END, ROLE_KEY, POST_WINDOW, CAPTURE, CAPTURE_WRITE, REPLAY_DATA complete, and what they leave (R53,
R55, R422, R423, R424, R425, R426, R427, R429). Where a clause goes through a choice of the model, it is that of the log entries 40, 41,
93. -/
def Obligations.RecorderCommands : Prop :=
  (∀ (s : State) (c : Client) (data : Bytes), s.Takes c 0x2700 2 data → ∃ t, exec (.recorderEnable c data) s = .next t ∧
    t.Took ((((s.taken c 0x2700 2).store 0x2700 2 data).persist c 0x2700 2).1.enableRecorder (unle data != 0)) s.hbm) ∧
  (∀ (s : State) (c : Client), s.Takes c 0x2700 3 [1] → ∃ t, exec (.recorderTrigger c) s = .next t ∧
    t.Answered ((s.taken c 0x2700 3).commandTrigger) s.hbm c 0x2700 3) ∧
  (∀ (s : State) (c : Client), s.Takes c 0x2700 3 [2] → ∃ t, exec (.freeze c) s = .next t ∧
    t.Answered ((s.taken c 0x2700 3).freeze true) s.hbm c 0x2700 3) ∧
  (∀ (s : State) (c : Client), s.Takes c 0x2700 3 [3] → ∃ t, exec (.releaseCapture c) s = .next t ∧
    t.Answered ((s.taken c 0x2700 3).releaseCapture) s.hbm c 0x2700 3) ∧
  (∀ (s : State) (c : Client), s.Takes c 0x2710 2 [1] → ∃ t, exec (.replayFetch c) s = .next t ∧
    t.Answered (({ s.taken c 0x2710 2 with recr := { (s.taken c 0x2710 2).recr with replay := 1, stream := [], poisoned := [] } } : Dev)) s.hbm c 0x2710 2) ∧
  (∀ (s : State) (c : Client), s.Takes c 0x2710 2 [2] → (s.taken c 0x2710 2).replayRun.2 = true → ∃ t, exec (.replayRun c) s = .next t ∧
    t.Answered ((s.taken c 0x2710 2).replayRun.1) s.hbm c 0x2710 2) ∧
  (∀ (s : State) (c : Client), s.Takes c 0x2710 2 [3] → ∃ t, exec (.replayAbort c) s = .next t ∧
    t.Answered ((s.taken c 0x2710 2).endReplay 9) s.hbm c 0x2710 2) ∧
  (∀ (s : State) (c : Client), s.Takes c 0x2710 2 [4] → ∃ t, exec (.replayClear c) s = .next t ∧
    t.Answered ((s.taken c 0x2710 2).dropCapture) s.hbm c 0x2710 2) ∧
  (∀ (s : State) (c : Client) (data : Bytes), s.Takes c 0x2020 4 data → ∃ t, exec (.sessionEnd c data) s = .next t ∧
    t.Answered ((s.taken c 0x2020 4).endSession c) s.hbm c 0x2020 4) ∧
  (∀ (s : State) (c : Client) (role : Fin 4) (data : Bytes), s.Takes c 0x2022 (role.val + 1) data → ∃ t,
    exec (.roleKey c role data) s = .next t ∧ t.Answered ((s.taken c 0x2022 (role.val + 1)).setRoleKey (role.val + 1) c data) s.hbm c 0x2022 (role.val + 1)) ∧
  (∀ (s : State) (x : Nat × Nat × Nat × Nat), s.dev.recr.trigger = some x → ∃ t, exec .postWindow s = .next t ∧ t.hbm = s.hbm ∧
    t.dev = (s.dev.reach (x.2.2.2 + s.dev.nat 0x2702 2 * Config.ms)).freeze false) ∧
  (∀ (s : State) (c : Client), s.Ready → ((s.asked c).roleBit c = 2 ∨ (s.asked c).roleBit c = 4) → s.dev.recr.state = .frozen → ∃ t,
    exec (.capture c) s = .next t ∧ t.hbm = s.hbm ∧ ∃ n out, t.dev = { s.asked c with net := n, out := out } ∧
    Output.foe c 0 (s.asked c).captureFile ∈ out) ∧
  (∀ (s : State) (c : Client) (data : Bytes), s.Ready → (s.asked c).isMaintainer c = true → s.dev.inState [.replay] = true →
    s.dev.recr.state ≠ .frozen → data.length ≤ s.dev.nat 0x2701 2 → ∃ t, exec (.captureWrite c data) s = .next t ∧ t.hbm = s.hbm ∧
    ∃ n out, t.dev = { (s.asked c).loadCapture data [] with net := n, out := out } ∧ Output.foe c 0 [] ∈ out) ∧
  (∀ (s : State) (offset total flags : Nat) (data : Bytes), s.dev.joined = true → s.dev.inState [.replay] = true →
    s.dev.recr.replay = 1 → total ≤ s.dev.nat 0x2701 2 → offset = s.dev.recr.stream.length → flags = 0 → ∃ t,
    exec (.replayData offset total flags data) s = .next t ∧ t.hbm = s.hbm ∧
    t.dev.recr = { s.dev.recr with stream := s.dev.recr.stream ++ data })

/-- Requests that wait, open sessions, read the logs or write any object: where DOMAIN_ON, DOMAIN_OFF, JOB_START, VALIDATION_DONE,
PORT_MAP, ALMANAC, SESSION_CHALLENGE, SESSION_RESPONSE, LOG_BLOCK, PROT_BLOCK, RECOVERY_BUDGET_WRITE, OBJECT_WRITE, SDO_SEGMENT complete,
and what they leave (R42, R54, R56, R64, R65, R83, R85, R312, R323, R337, R369, R393). Where a clause goes through a choice of the model,
it is that of the log entries 8, 9, 93, 105. -/
def Obligations.MailboxRequests : Prop :=
  (∀ (s : State) (c : Client) (d rsvd : Fin 16), s.Takes c 0x2100 0x11 (le 2 (d.val + 16 * rsvd.val + 256)) →
    ((s.taken c 0x2100 0x11).beginOn d).nat 0x2100 0x12 = 1 → ∃ t, exec (.domainOn c d rsvd) s = .next t ∧
    t.Waits ((s.taken c 0x2100 0x11).beginOn d) s.hbm (.domain c d)) ∧
  (∀ (s : State) (c : Client) (d rsvd : Fin 16), s.Takes c 0x2100 0x11 (le 2 (d.val + 16 * rsvd.val + 512)) →
    (beginOff (s.taken c 0x2100 0x11, s.hbm) d).1.domain d = .quiescing → ∃ t, exec (.domainOff c d rsvd) s = .next t ∧
    t.Waits (beginOff (s.taken c 0x2100 0x11, s.hbm) d).1 (beginOff (s.taken c 0x2100 0x11, s.hbm) d).2 (.domain c d)) ∧
  (∀ (s : State) (c : Client) (j : Fin 16), s.Ready → (s.asked c).Accepts false c (0x2080 + j.val) 2 [1] → ∃ t,
    exec (.jobStart c j) s = .next t ∧
    t.Waits (s.asked c) s.hbm (.validation (.write c (0x2080 + j.val) 2 false [1]) (s.asked c).now)) ∧
  (∀ (s : State) (c : Client) (j : Fin 16), s.Validates c (0x2080 + j.val) 2 [1] → ∃ t, exec .validationDone s = .next t ∧
    t.Answered (startJob (s.resumed (0x2080 + j.val) 2, s.hbm) j).1 (startJob (s.resumed (0x2080 + j.val) 2, s.hbm) j).2 c (0x2080 + j.val) 2 ∧
    (t.dev.job j).state = .running) ∧
  (∀ (s : State) (c : Client) (j : Fin 16) (data : Bytes), s.Takes c (0x2080 + j.val) 4 data →
    ((s.taken c (0x2080 + j.val) 4).almanac j).isEmpty = true → ∃ t, exec (.portMap c j data) s = .next t ∧
    t.Took (((s.taken c (0x2080 + j.val) 4).setPorts j (unle data)).persist c (0x2080 + j.val) 4).1 s.hbm) ∧
  (∀ (s : State) (c : Client) (j : Fin 16), s.Takes c (0x4800 + j.val) 1 [] → ∃ t, exec (.almanac c j []) s = .next t ∧
    t.Took (((s.taken c (0x4800 + j.val) 1).setAlmanac j []).persist c (0x4800 + j.val) 1).1 s.hbm) ∧
  (∀ (s : State) (c : Client) (d : Dev), s.Ready → (s.asked c).refusesRead c 0x2020 2 = none →
    (s.asked c).readStore (objKey 0x2020 2) = (d, false) → d.net.mailbox = [] → d.net.waiting = none → ∃ t,
    exec (.sessionChallenge c) s = .next t ∧
    t.hbm = s.hbm ∧ { client := c, bytes := d.randomBytes 16, issued := d.now } ∈ t.dev.net.challenges ∧
    Output.response c 0x2020 2 (d.randomBytes 16) ∈ t.dev.out) ∧
  (∀ (s : State) (c : Client) (data : Bytes), s.Ready → splitValues 0x2020 [3] data = some [(3, data)] →
    (s.asked c).refusesWrite c 0x2020 3 true data = none → (s.asked c).responseOk c data = true →
    (s.asked c).checkSub ((s.asked c).withValues 0x2020 [(3, data)]) false false 0x2020 3 (some data) = none → ∃ t,
    exec (.sessionResponse c data) s = .next t ∧ t.hbm = s.hbm ∧ ∃ n o,
    t.dev = { (((s.asked c).consume c).cleanStore (objKey 0x2020 3)).openSession c data with net := n, out := o } ∧
    n.sessions = ((((s.asked c).consume c).cleanStore (objKey 0x2020 3)).openSession c data).net.sessions ∧ Output.response c 0x2020 3 [] ∈ o) ∧
  (∀ (s : State) (c : Client) (x : Session) (d e : Dev), s.Ready → (s.asked c).refusesRead c 0x2330 2 = none →
    (s.asked c).readStore (objKey 0x2330 2) = (d, false) → d.readLogPages c 0x2330 [2] = (e, true) → e.session c = some x →
    e.net.mailbox = [] → e.net.waiting = none → ∃ t, exec (.logBlock c) s = .next t ∧ t.hbm = s.hbm ∧
    Output.response c 0x2330 2 (e.logBlock c false).2 ∈ t.dev.out ∧ t.dev.net.sessions = (e.logBlock c false).1.net.sessions) ∧
  (∀ (s : State) (c : Client) (d e : Dev), s.Ready → (s.asked c).refusesRead c 0x2330 2 = none →
    (s.asked c).readStore (objKey 0x2330 2) = (d, false) → d.readLogPages c 0x2330 [2] = (e, false) →
    e.net.mailbox = [] → e.net.waiting = none → ∃ t, exec (.logBlock c) s = .next t ∧ t.hbm = s.hbm ∧
    Output.abort c 0x2330 2 0x06060000 ∈ t.dev.out) ∧
  (∀ (s : State) (c : Client) (x : Session) (d e : Dev), s.Ready → (s.asked c).refusesRead c 0x2331 2 = none →
    (s.asked c).readStore (objKey 0x2331 2) = (d, false) → d.readLogPages c 0x2331 [2] = (e, true) → e.session c = some x →
    e.net.mailbox = [] → e.net.waiting = none → ∃ t, exec (.protBlock c) s = .next t ∧ t.hbm = s.hbm ∧
    Output.response c 0x2331 2 (e.logBlock c true).2 ∈ t.dev.out ∧ t.dev.net.sessions = (e.logBlock c true).1.net.sessions) ∧
  (∀ (s : State) (c : Client) (d e : Dev), s.Ready → (s.asked c).refusesRead c 0x2331 2 = none →
    (s.asked c).readStore (objKey 0x2331 2) = (d, false) → d.readLogPages c 0x2331 [2] = (e, false) →
    e.net.mailbox = [] → e.net.waiting = none → ∃ t, exec (.protBlock c) s = .next t ∧ t.hbm = s.hbm ∧
    Output.abort c 0x2331 2 0x06060000 ∈ t.dev.out) ∧
  (∀ (s : State) (c : Client) (sub : Nat) (data : Bytes), s.Takes c 0x2310 sub data → ∃ t,
    exec (.recoveryBudgetWrite c sub false data) s = .next t ∧
    t.Took (((s.taken c 0x2310 sub).store 0x2310 sub data).persist c 0x2310 sub).1 s.hbm) ∧
  (∀ (s : State) (c : Client) (index sub : Nat) (data : Bytes) (d : Dev) (h : Hbm) (a : Ans), s.Takes c index sub data →
    ¬(index = 0x2020 ∧ sub = 3) → ¬(0x2080 ≤ index ∧ index < 0x2090 ∧ sub = 4) →
    applySub (s.taken c index sub, s.hbm) c index sub data = ((d, h), a) → (a = .ok ∨ ∃ w, a = .wait w) → d.net.mailbox = [] →
    d.net.waiting = none → ∃ t, exec (.objectWrite c index sub false data) s = .next t ∧ t.Took d h) ∧
  (∀ (s : State) (c : Client) (index sub total : Nat) (data : Bytes), s.Ready → (s.asked c).refusesWrite c index sub false [] = none →
    (s.asked c).transferOf c = none → total ≤ 2 ^ 21 → data.length ≤ total → ∃ t,
    exec (.sdoSegment c index sub total false false data) s = .next t ∧ t.hbm = s.hbm ∧
    { client := c, index := index, sub := sub, data := data, total := total, toggle := true, lastAt := s.dev.now } ∈ t.dev.net.transfers ∧
    Output.response c index sub [] ∈ t.dev.out)

/-- EtherCAT states, mailbox answers and time-outs: where SDO_SEGMENT_TIMEOUT, SDO_INFO, UNSUPPORTED_PROTOCOL, REFUSAL_RESPONSE,
REQUEST_INIT, REQUEST_PRE_OP, REQUEST_SAFE_OP, REQUEST_OP, REQUEST_BOOTSTRAP, PROCESS_DATA_WATCHDOG, SYNC0, CHALLENGE_EXPIRY,
SESSION_IDLE_TIMEOUT, FIELD_NETWORK_LOSS, PROCESS_DATA_OUTPUTS complete, and what they leave (R37, R38, R39, R40, R42, R45, R46, R52, R53,
R54, R57, R58, R410). Where a clause goes through a choice of the model, it is that of the log entries 8, 12, 13, 93. -/
def Obligations.NetworkStates : Prop :=
  (∀ (s : State) (x : Transfer), oldestTransfer s.dev.net.transfers = some x → ∃ t, exec .sdoSegmentTimeout s = .next t ∧
    t.hbm = s.hbm ∧ Output.abort x.client x.index x.sub 0x05040000 ∈ t.dev.out ∧ (∀ y ∈ t.dev.net.transfers, y.client ≠ x.client) ∧
    x.lastAt + Config.sec ≤ t.dev.now) ∧
  (∀ (s : State) (c : Client), s.Ready → ∃ t, exec (.sdoInfo c .list 0 0) s = .next t ∧ t.hbm = s.hbm ∧
    Output.info c (leList 2 (allIndices.filter ((s.asked c).mayList c))) ∈ t.dev.out) ∧
  (∀ (s : State) (c : Client) (complete : Bool) (index sub : Nat) (d e : Dev), s.Ready → (complete = true → sub ≤ 1) →
    (∀ k ∈ writeSubs index sub complete, (s.asked c).refusesRead c index k = none ∧ subExists index k = true ∧
      (∀ r, objRow index k = some r → r.access ≠ .wo)) → indexExists index = true →
    (writeSubs index sub complete).foldl (fun (r : Dev × Bool) k => ((r.1.readStore (objKey index k)).1, r.2 || (r.1.readStore (objKey index k)).2)) (s.asked c, false) = (d, false) →
    d.readLogPages c index (writeSubs index sub complete) = (e, true) →
    (readSubs (e, s.hbm) c index (writeSubs index sub complete)).1.1.net.mailbox = [] →
    (readSubs (e, s.hbm) c index (writeSubs index sub complete)).1.1.net.waiting = none → ∃ t,
    exec (.sdoInfo c (.upload complete) index sub) s = .next t ∧
    Output.response c index sub (readSubs (e, s.hbm) c index (writeSubs index sub complete)).2 ∈ t.dev.out) ∧
  (∀ (s : State) (c : Client) (protocol : Nat), s.Ready → protocol ≠ 3 → ∃ t, exec (.unsupportedProtocol c protocol) s = .next t ∧
    t.hbm = s.hbm ∧ Output.mailboxError c 2 ∈ t.dev.out) ∧
  (∀ (s : State) (c : Client), s.Ready → ∃ t, exec (.unsupportedProtocol c 3) s = .next t ∧ t.hbm = s.hbm ∧
    Output.abort c 0 0 0x05040001 ∈ t.dev.out) ∧
  (∀ (s : State) (c : Client) (index sub begun cause : Nat), s.dev.net.waiting = some (.refusal c index sub begun false cause) →
    s.dev.net.mailbox = [] → ∃ t, exec .refusalResponse s = .next t ∧ t.hbm = s.hbm ∧ t.dev.net.waiting = none ∧
    Output.abort c index sub 0x06010000 ∈ t.dev.out ∧
    t.dev.nat 0x2030 1 = (((s.dev.reach (begun + Config.refusalDelay)).bump 0x2030 1).secret 0x0D01 c [BitVec.ofNat 8 cause]).nat 0x2030 1) ∧
  (∀ s : State, s.dev.upd.coldOnInit = false → ∃ t, exec .requestInit s = .next t ∧ t.hbm = s.hbm ∧ t.dev.net.ecat = .init ∧
    t.dev.net.mailbox = [] ∧ t.dev.net.waiting = none ∧ t.dev.net.al = 0) ∧
  (∀ s : State, s.dev.net.ecat = .init → s.dev.noFirmware = false → ∃ t, exec .requestPreOp s = .next t ∧ t.hbm = s.hbm ∧
    t.dev.net.ecat = .preOp ∧ t.dev.net.al = 0) ∧
  (∀ (s : State) (cycle : Option Nat), s.dev.net.ecat = .preOp → s.dev.mappingFault cycle = none → ∃ t,
    exec (.requestSafeOp cycle) s = .next t ∧ t.hbm = s.hbm ∧ t.dev.net.ecat = .safeOp ∧ t.dev.net.dc = cycle.isSome) ∧
  (∀ s : State, s.dev.net.ecat = .safeOp → ∃ t, exec .requestOp s = .next t ∧ t.hbm = s.hbm ∧ t.dev.net.ecat = .op ∧ t.dev.net.al = 0) ∧
  (∀ s : State, s.dev.mayBootstrap = true → ∃ t, exec .requestBootstrap s = .next t ∧ t.hbm = s.hbm ∧ t.dev.net.ecat = .boot ∧
    t.dev.net.mailbox = []) ∧
  (∀ s : State, s.dev.net.ecat = .op → ∃ t, exec .processDataWatchdog s = .next t ∧ t.hbm = s.hbm ∧ t.dev.net.ecat = .safeOp ∧
    t.dev.net.al = 0x001B) ∧
  (∀ (s : State) (dc : Nat), s.dev.net.dc = true → ∃ t, exec (.sync0 dc) s = .next t ∧ t.hbm = s.hbm ∧
    t.dev.net.txSnapshot = s.dev.net.txCycle ∧ t.dev.num 0x2270 1 = s.dev.now ∧ t.dev.num 0x2270 2 = (dc % 2 ^ 64 : Nat)) ∧
  (∀ (s : State) (c : Client) (x : Challenge), s.dev.net.challenges.find? (fun x => x.client == c) = some x → ∃ t,
    exec (.challengeExpiry c) s = .next t ∧ t.hbm = s.hbm ∧ (∀ y ∈ t.dev.net.challenges, y.client ≠ c) ∧
    x.issued + Config.challengeLife ≤ t.dev.now) ∧
  (∀ (s : State) (c : Client) (x : Session), s.dev.session c = some x → ∃ t, exec (.sessionIdleTimeout c) s = .next t ∧
    t.hbm = s.hbm ∧ t.dev.session c = none ∧ x.lastReq + x.timeout * Config.sec ≤ t.dev.now) ∧
  (∀ s : State, ∃ t, exec .fieldNetworkLoss s = .next t ∧ t.hbm = s.hbm ∧ t.dev.net.ecat = .init ∧ t.dev.net.mailbox = [] ∧
    t.dev.net.waiting = none) ∧
  (∀ (s : State) (data : Bytes), s.dev.net.ecat = .op → ∃ t, exec (.processDataOutputs data) s = .next t ∧ t.hbm = s.hbm ∧
    t.dev.net.rxBuffer = data ∧ t.dev.net.pdAt = some s.dev.now)

/-- Confirmations of stored items and copies to the twin: where STORE_CONFIRM_TIMEOUT, RETIRE_RECORD_WRITTEN, SETTINGS_RECORD_COMMITTED,
STORE_COPY complete, and what they leave (R93, R309, R311, R353, R397). Where a clause goes through a choice of the model, it is that of
the log entries 8, 57, 63, 80, 106. -/
def Obligations.StoreCommands : Prop :=
  (∀ (s : State) (e : Nat × Nat), oldestItem s.dev.twin.unconfirmed = some e → ∃ t, exec .storeConfirmTimeout s = .next t ∧
    (t.dev, t.hbm) = storeAnswered (((s.dev.reach (e.2 + 100 * Config.ms)).modTwin (fun x => { x with unconfirmed := tdel x.unconfirmed e.1, staleSet := sinsert x.staleSet e.1 })).refreshStale, s.hbm)) ∧
  (∀ (s : State) (c : Client) (index sub : Nat), s.dev.net.waiting = some (.retire c index sub) →
    tget .off s.dev.mem.stackOf (fld (s.dev.oct 0x2840 1) 0 1) = .ready → ∃ t,
    exec (.retireRecordWritten true) s = .next t ∧
    (t.dev, t.hbm) = finish (s.dev.retireWritten true, s.hbm) (.response c index sub [])) ∧
  (∀ (s : State) (c : Client) (index sub : Nat), s.dev.net.waiting = some (.retire c index sub) → ∃ t,
    exec (.retireRecordWritten false) s = .next t ∧
    (t.dev, t.hbm) = finish (s.dev.retireWritten false, s.hbm) (.abort c index sub 0x06060000)) ∧
  (∀ s : State, (∀ c index sub, s.dev.net.waiting ≠ some (.settings c index sub)) → ∃ t,
    exec .settingsRecordCommitted s = .next t ∧ t.dev = s.dev.commitSettings ∧ t.hbm = s.hbm) ∧
  (∀ (s : State) (c : Client) (index sub : Nat), s.dev.net.waiting = some (.settings c index sub) →
    (s.dev.settingsPoisoned = true ∨ itemOf index sub = none) → ∃ t,
    exec .settingsRecordCommitted s = .next t ∧ (t.dev, t.hbm) = finish (s.dev.commitSettings, s.hbm)
      (if s.dev.settingsPoisoned then .abort c index sub 0x06060000 else .response c index sub [])) ∧
  (∀ (s : State) (m : StoreMsg), s.dev.joined = true → 1 ≤ m.item ∧ m.item ≤ 9 ∨ m.item = 12 → ∃ t, exec (.storeCopy m) s = .next t ∧
    t.dev = s.dev.storePart m ∧ t.hbm = s.hbm) ∧
  (∀ (s : State) (m : StoreMsg), s.dev.joined = true → m.item = 10 → ∃ t, exec (.storeCopy m) s = .next t ∧
    (t.dev, t.hbm) = storeAnswered (s.dev.confirmed (fld m.data 0 1) (fld m.data 4 4) (fld m.data 8 8), s.hbm)) ∧
  (∀ (s : State) (m : StoreMsg), s.dev.joined = true → m.item = 11 → m.flags = 3 → m.offset = 0 →
    m.total = m.data.length → ∃ t, exec (.storeCopy m) s = .next t ∧ t.hbm = s.hbm ∧
    t.dev = (s.dev.modTwin (fun t => { t with storeParts := tdel t.storeParts (storeKey m.item m.index) })).summaryArrived m.data)

/-- The control cycle, the heater trigger and strobes: where CYCLE_START, INPUT_LATCH, COMPUTE_DEADLINE, HEATER_TRIGGER, STROBE_ARM,
STROBE_EMIT, POD_LATENCY_MEASURE, LBK_ECHO complete, and what they leave (R35, R100, R101, R118, R119, R120, R128, R129, R166, R175, R176,
R177). Where a clause goes through a choice of the model, it is that of the log entries 7, 16, 27, 66, 71, 72, 81, 82, 85. -/
def Obligations.CycleCommands : Prop :=
  (∀ s : State, s.dev.isOn 3 = true → ∃ t, exec .cycleStart s = .next t ∧ (t.dev, t.hbm) = serve (cycleStart (s.dev, s.hbm))) ∧
  (∀ s : State, s.dev.eng.phase = 0 → ∃ t, exec .inputLatch s = .next t ∧ t.hbm = s.hbm ∧
    t.dev = (let d := (s.dev.reach (s.dev.eng.cycle * Config.cycle + 5 * Config.us)).recordBase; (((({ d with eng := { d.eng with phase := 1 } }).latchBoards).latchPilots).takeReadings).latchTaps)) ∧
  (∀ (s : State) (late peaks : List Nat) (poison : List SliceWord), s.dev.eng.phase ≠ 2 → ∃ t,
    exec (.computeDeadline late ⟨peaks, poison⟩) s = .next t ∧ t.hbm = s.hbm ∧ t.dev = s.dev.computeDeadline late ⟨peaks, poison⟩) ∧
  (∀ (s : State) (d : Dev), s.dev.isOn 3 = true → d = ((s.dev.reach s.dev.heaterInstant).timeStep).applyHeaters → d.holdsDrive = true →
    ∃ t, exec .heaterTrigger s = .next t ∧ t.hbm = s.hbm ∧
    t.dev = ({ d with recr := { d.recr with heatBase := some (d.now / Config.cycle, d.rings.pods) } } : Dev).heaterLoops) ∧
  (∀ (s : State) (d : Dev), s.dev.isOn 3 = true → d = ((s.dev.reach s.dev.heaterInstant).timeStep).applyHeaters → d.holdsDrive = false →
    ∃ t, exec .heaterTrigger s = .next t ∧ t.hbm = s.hbm ∧
    t.dev = { d with recr := { d.recr with heatBase := some (d.now / Config.cycle, d.rings.pods) } }) ∧
  (∀ s : State, s.dev.isOn 3 = true → ∃ t, exec .heaterTrigger s = .next t ∧ t.hbm = s.hbm) ∧
  (∀ (s : State) (z : Nat) (pods : List (Fin 64)) (tag : Fin 16), s.dev.isOn 3 = true → ∃ t,
    exec (.strobeArm z pods tag) s = .next t ∧ t.hbm = s.hbm ∧
    t.dev = (s.dev.armStrobe { z := z, pods := pods.map Fin.val, tag := tag }).1) ∧
  (∀ (s : State) (j : Fin 16), s.dev.isOn 3 = true → ∃ t, exec (.strobeEmit j) s = .next t ∧ t.hbm = s.hbm ∧ t.dev = s.dev.emitMark j) ∧
  (∀ (s : State) (j : Fin 16), s.dev.isOn 8 = true → s.dev.isOn 3 = true → s.dev.inState [.replay] = false → ∃ t,
    exec (.podLatencyMeasure j) s = .next t ∧ t.hbm = s.hbm ∧ t.dev = s.dev.measureLatency j) ∧
  (∀ (s : State) (q : Fin 64) (rtt : Nat), ∃ t, exec (.lbkEcho q rtt) s = .next t ∧ t.hbm = s.hbm ∧ ∃ d : Dev,
    t.dev = d.rewriteDelays (linkOfPod q) ∧
    d.num 0x2241 (q + 1) = ((((rtt : Int) / 2) - 2000 + (s.dev.podAt q).flipOffset).toNat : Nat))

/-- The exchange of Array time, and Orbit definitions: where TRANSFER_INTERVAL, TIME_REQ, TIME_RESP, HOLDOVER_LIMIT, ROOT_STEP_NOTICE_END,
ORBIT_DEF_FROM, ORBIT_SYNC_INTERVAL complete, and what they leave (R86, R103, R106, R113, R114, R116, R117). Where a clause goes through
a choice of the model, it is that of the log entries 49, 66, 70. -/
def Obligations.TimeTransfer : Prop :=
  (∀ s : State, s.dev.isOn 3 = true → s.dev.time.isRoot = false → ∃ t, exec .transferInterval s = .next t ∧ t.hbm = s.hbm ∧
    t.dev = s.dev.transfer) ∧
  (∀ (s : State) (port : Fin 7) (seq flags twin sender : Nat) (t2 residence : Nat), s.dev.isOn 3 = true →
    (s.dev.neighbour port).status = .confirmed → (s.dev.neighbour port).chip = sender → (s.dev.neighbour port).twin = twin →
    flags.testBit 0 = false → ∃ t, exec (.timeReq port seq flags twin sender t2 residence) s = .next t ∧ t.hbm = s.hbm ∧
    t.dev = ((s.dev.reachStamp t2).reachStamp (t2 + residence)).sendTime port 0x09 (((s.dev.reachStamp t2).reachStamp (t2 + residence)).timeResp seq t2 (t2 + residence))) ∧
  (∀ (s : State) (port : Fin 7) (seq flags depth leader : Nat) (utc : Int) (t2 t3 t4 : Nat) (o : OrbitDef) (r : Nat × Nat),
    s.dev.isOn 3 = true → s.dev.time.parent = some port.val → (s.dev.reachStamp t4).time.reqs.find? (fun r => r.1 = seq) = some r →
    r.2 + 4 * ((s.dev.reachStamp t4).modTime (fun t => { t with reqs := t.reqs.filter (fun x => x.1 != seq) })).transferInterval * 2 ^ 32 < t4 →
    ∃ t, exec (.timeResp port seq flags depth leader utc t2 t3 t4 o) s = .next t ∧ t.hbm = s.hbm ∧
    t.dev.time.reqs = s.dev.time.reqs.filter (fun x => x.1 != seq) ∧ t.dev.time.counter = max s.dev.time.counter t4) ∧
  (∀ (s : State) (port : Fin 7) (seq flags depth leader : Nat) (utc : Int) (t2 t3 t4 : Nat) (o : OrbitDef) (r : Nat × Nat),
    s.dev.isOn 3 = true → s.dev.time.parent = some port.val → (s.dev.reachStamp t4).time.reqs.find? (fun r => r.1 = seq) = some r →
    t4 ≤ r.2 + 4 * ((s.dev.reachStamp t4).modTime (fun t => { t with reqs := t.reqs.filter (fun x => x.1 != seq) })).transferInterval * 2 ^ 32 →
    ∃ t, exec (.timeResp port seq flags depth leader utc t2 t3 t4 o) s = .next t ∧ t.hbm = s.hbm ∧ ∃ d : Dev,
    t.dev = (d.answered ((((t2 : Int) - r.2) - ((t4 : Int) - t3) + ofPs (s.dev.num 0x2250 (port + 1))) / 2) (flags.testBit 2) (flags.testBit 3)).learnDef o ∧
    d.time.counter = max s.dev.time.counter t4 ∧ d.time.parentNotice = flags.testBit 3) ∧
  (∀ s : State, s.dev.time.state = .holdover → ∃ t, exec .holdoverLimit s = .next t ∧ t.hbm = s.hbm ∧
    t.dev = (s.dev.reach (s.dev.time.holdoverAt + s.dev.nat 0x2201 2 * Config.ms)).setTState .free) ∧
  (∀ (s : State) (n : Nat), s.dev.time.notice = some n → s.dev.time.selected = none → ∃ t, exec .rootStepNoticeEnd s = .next t ∧
    t.hbm = s.hbm ∧ t.dev.time.notice = none ∧ n + 100 * Config.ms ≤ t.dev.now ∧ t.dev.time.stepDue = s.dev.time.stepDue) ∧
  (∀ (s : State) (n k : Nat), s.dev.time.notice = some n → s.dev.time.selected = some k → s.dev.time.isRoot = true →
    ((s.dev.reach (n + 100 * Config.ms)).modTime (fun x => { x with notice := none })).clearSince n = true →
    (s.dev.ptp k).state = .qualified → ∃ t, exec .rootStepNoticeEnd s = .next t ∧ t.hbm = s.hbm ∧ t.dev.time.notice = none ∧
    t.dev.time.stepDue = some (s.dev.ptp k).offset) ∧
  (∀ s : State, s.dev.time.newest ≠ s.dev.time.inForce → ∃ t, exec .orbitDefFrom s = .next t ∧ t.hbm = s.hbm ∧
    t.dev = (s.dev.reach s.dev.time.newest.validFrom).applyDef) ∧
  (∀ s : State, ∃ t, exec .orbitSyncInterval s = .next t ∧ t.hbm = s.hbm ∧ t.dev = s.dev.syncAll)

/-- PTP slots and the pulse per second: where PTP_SYNC, PTP_FOLLOW_UP, PTP_ANNOUNCE, PTP_DELAY_REQ_INTERVAL, PTP_DELAY_RESP,
PTP_PDELAY_REQ, PTP_PDELAY_RESP, PPS_IN, PPS_OUT, PPS_IN_PRESENT_TIMEOUT complete, and what they leave (R108, R109, R110, R124). Where a
clause goes through a choice of the model, it is that of the log entries 49, 67, 68, 94. -/
def Obligations.PrecisionTime : Prop :=
  (∀ (s : State) (k : Fin 2) (gm : Nat) (interval : Int) (t1 t2 : Nat) (corr : Int), s.dev.isOn 3 = true → (s.dev.ptp k).gm = gm →
    syncRate interval = true → ∃ t, exec (.ptpSync k gm ⟨true, interval, false⟩ t1 t2 corr) s = .next t ∧ t.hbm = s.hbm ∧
    t.dev = (s.dev.reachStamp t2).modPtp k (fun x => let y := if x.state == .listening then { x with state := .tracking, agree := 0, sampleAt := 0 } else x; { y with pendingSync := some (t2, corr) })) ∧
  (∀ (s : State) (k : Fin 2) (gm : Nat) (interval : Int) (t1 t2 : Nat) (corr : Int), s.dev.isOn 3 = true → (s.dev.ptp k).gm = gm →
    syncRate interval = true → ∃ t, exec (.ptpSync k gm ⟨false, interval, false⟩ t1 t2 corr) s = .next t ∧ t.hbm = s.hbm ∧ t.dev = (s.dev.reachStamp t2).ptpSample k t1 t2 corr) ∧
  (∀ (s : State) (k : Fin 2) (t1 : Nat) (corr : Int) (p : Nat × Int), (s.dev.ptp k).pendingSync = some p → ∃ t,
    exec (.ptpFollowUp k t1 corr) s = .next t ∧ t.hbm = s.hbm ∧ t.dev = s.dev.ptpSample k t1 p.1 (p.2 + corr)) ∧
  (∀ (s : State) (k : Fin 2) (a : PtpAnn), s.dev.isOn 3 = true → (s.dev.ptp k).state ≠ .disabled → a.poison = false → (s.dev.ptp k).takes a s.dev.now = true →
    s.dev.time.selected ≠ some k.val → ∃ t, exec (.ptpAnnounce k a) s = .next t ∧ t.hbm = s.hbm ∧
    t.dev = ((((s.dev.modPtp k (fun x => x.heard a s.dev.now)).modPtp k (fun x => if (s.dev.ptp k).gm != a.gm && (x.state == .tracking || x.state == .qualified || x.state == .jumped) then { x with state := .tracking, agree := 0, sampleAt := 0, pendingSync := none } else x)).ptpCheck k)).selectPtp) ∧
  (∀ (s : State) (k : Fin 2) (a : PtpAnn), (s.dev.ptp k).takes a s.dev.now = false → ∃ t, exec (.ptpAnnounce k a) s = .next t ∧
    t.hbm = s.hbm ∧ t.dev = s.dev) ∧
  (∀ (s : State) (k : Fin 2), s.dev.isOn 3 = true → (s.dev.ptp k).state ≠ .disabled → ∃ t, exec (.ptpDelayReqInterval k) s = .next t ∧
    t.hbm = s.hbm ∧ ∃ d : Dev, d = (match (s.dev.ptp k).lastReq with | some a => s.dev.reach (a + ptpInterval (s.dev.ptp k).delayLog) | none => s.dev) ∧
    t.dev = (d.modPtp k (fun x => { x with reqAt := some d.time.counter, lastReq := some d.now })).emit
      (.ptp (d.nat (0x2210 + k) 2) (if d.nat (0x2210 + k) 4 = 2 then 2 else 1) (d.ptpDest k (d.nat (0x2210 + k) 4 = 2)) d.time.counter 0)) ∧
  (∀ (s : State) (k : Fin 2) (t4 : Nat) (corr interval : Int) (t3 : Nat) (y : Int × Int), (s.dev.ptp k).reqAt = some t3 →
    (s.dev.ptp k).lastSync = some y → ∃ t, exec (.ptpDelayResp k t4 ⟨corr, interval, false⟩) s = .next t ∧ t.hbm = s.hbm ∧
    t.dev = (if syncRate interval then s.dev.modPtp k (fun x => { x with delayLog := interval }) else s.dev).ptpDelay k
      (((y.2 - y.1) + ((t4 : Int) - t3) - corr) / 2)) ∧
  (∀ (s : State) (port k : Fin 2) (t2 residence : Nat), s.dev.isOn 3 = true → s.dev.peerSlot port = some k.val → ∃ t,
    exec (.ptpPdelayReq port t2 residence) s = .next t ∧ t.hbm = s.hbm ∧
    t.dev = (s.dev.reachStamp (t2 + residence)).emit (.ptp port 3 (s.dev.ptpDest k true) t2 (t2 + residence))) ∧
  (∀ (s : State) (k : Fin 2) (t2 t3 t4 : Nat) (corr : Int) (t1 : Nat), (s.dev.ptp k).reqAt = some t1 → ∃ t,
    exec (.ptpPdelayResp k t2 t3 t4 corr) s = .next t ∧ t.hbm = s.hbm ∧
    t.dev = (s.dev.reachStamp t4).ptpDelay k ((((t4 : Int) - t1) - ((t3 : Int) - t2) - corr) / 2)) ∧
  (∀ (s : State) (stamp : Nat), s.dev.isOn 3 = true → ∃ t, exec (.ppsIn stamp) s = .next t ∧ t.hbm = s.hbm ∧
    t.dev.flag 0x2260 2 = true ∧ t.dev.time.ppsAt = some (stamp / 2 ^ 32) ∧ t.dev.time.counter = max s.dev.time.counter stamp) ∧
  (∀ s : State, s.dev.isOn 3 = true → s.dev.flag 0x2260 3 = true → ∃ t, exec .ppsOut s = .next t ∧ t.hbm = s.hbm ∧
    t.dev.module.ppsOutAt = (s.dev.now / Config.sec + 1) * Config.sec ∧
    Output.pps ((s.dev.now / Config.sec + 1) * Config.sec) ∈ t.dev.out) ∧
  (∀ (s : State) (n : Nat), s.dev.time.ppsAt = some n → ∃ t, exec .ppsInPresentTimeout s = .next t ∧ t.hbm = s.hbm ∧
    t.dev.flag 0x2260 2 = false ∧ t.dev.time.ppsAt = none ∧ n + 2 * Config.sec ≤ t.dev.now)

/-- Frames of the driver boards and their adoption: where SENSOR_FRAME, BOARD_COMMAND_FRAME, BOARD_HOLD_FRAME, BOARD_IDENTITY, BOARD_LOST,
ADOPTION complete, and what they leave (R129, R148, R149, R150, R258). Where a clause goes through a choice of the model, it is that of
the log entries 25, 72. -/
def Obligations.BoardFrames : Prop :=
  (∀ (s : State) (b : Fin 16) (f : SensorF), (s.dev.board b).state ≠ .absent → (s.dev.board b).state ≠ .fault → s.dev.isOn 8 = true →
    s.dev.boardServed b = true → f.crcOk = true → f.board = b.val → ∃ t, exec (.sensorFrame b f) s = .next t ∧ t.hbm = s.hbm ∧
    t.dev = ((s.dev.lanesUp b f.lanes).modBoard b (fun x => { x with queued := some { cycle := f.cycle, pos := f.pos, applied := f.applied, faulty := f.faults, poisoned := f.poisoned } })).boardStatus b f.status) ∧
  (∀ (s : State) (b : Fin 16) (f : SensorF), (s.dev.board b).state ≠ .absent → (s.dev.board b).state ≠ .fault → s.dev.isOn 8 = true →
    s.dev.boardServed b = true → f.crcOk = false → ∃ t,
    exec (.sensorFrame b f) s = .next t ∧ t.hbm = s.hbm ∧ t.dev = (s.dev.lanesUp b f.lanes).bump (0x3D00 + b) 8) ∧
  (∀ (s : State) (b : Fin 16) (f : SensorF), (s.dev.board b).state = .absent ∨ (s.dev.board b).state = .fault ∨ s.dev.boardServed b = false →
    ∃ t, exec (.sensorFrame b f) s = .next t ∧ t.hbm = s.hbm ∧ t.dev = s.dev) ∧
  (∀ (s : State) (b : Fin 16) (board seq cycle twin : Nat) (outs : List (Int × Bool)) (crcOk : Bool),
    s.dev.boardTakes b board twin crcOk = true → cycle = s.dev.cycleNow + 1 → ∃ t,
    exec (.boardCommandFrame b board seq cycle twin outs crcOk) s = .next t ∧ t.hbm = s.hbm ∧
    t.dev = s.dev.modBoard b (fun x => { x with next := some (cycle, (((upto outs.length).zip outs).filter (fun (e : Nat × Int × Bool) => !e.2.2)).map (fun (e : Nat × Int × Bool) => (e.1, e.2.1))), holding := false, rxSeq := seq, accepted := true })) ∧
  (∀ (s : State) (b : Fin 16) (board seq cycle twin : Nat) (outs : List (Int × Bool)) (crcOk : Bool),
    s.dev.boardTakes b board twin crcOk = false ∨ cycle ≠ s.dev.cycleNow + 1 → ∃ t,
    exec (.boardCommandFrame b board seq cycle twin outs crcOk) s = .next t ∧ t.hbm = s.hbm ∧
    t.dev = s.dev.modBoard b (fun x => { x with next := none })) ∧
  (∀ (s : State) (b : Fin 16) (board seq cycle twin : Nat) (crcOk : Bool), s.dev.boardTakes b board twin crcOk = true →
    cycle = s.dev.cycleNow + 1 → ∃ t, exec (.boardHoldFrame b board seq cycle twin crcOk) s = .next t ∧ t.hbm = s.hbm ∧
    t.dev = s.dev.modBoard b (fun x => { x with next := none, holding := true, rxSeq := seq, accepted := true })) ∧
  (∀ (s : State) (b : Fin 16) (board lanes : Nat) (serial firmware : Bytes) (hv : Int) (crcOk : Bool), crcOk = true → s.dev.isOn 8 = true → s.dev.holdsDrive = true →
    board ≠ b.val → ∃ t, exec (.boardIdentity b ⟨board, lanes⟩ serial firmware hv crcOk) s = .next t ∧ t.hbm = s.hbm ∧
    t.dev = s.dev.raise 0x0204 1 5 b) ∧
  (∀ (s : State) (b : Fin 16) (board lanes : Nat) (serial firmware : Bytes) (hv : Int) (crcOk : Bool), crcOk = true → s.dev.isOn 8 = true → s.dev.holdsDrive = true →
    board = b.val → ∃ t, exec (.boardIdentity b ⟨board, lanes⟩ serial firmware hv crcOk) s = .next t ∧ t.hbm = s.hbm ∧
    (t.dev.board b).discovered = true ∧ ((s.dev.board b).state = .absent ∨ (s.dev.board b).state = .fault → (t.dev.board b).state = .adopting)) ∧
  (∀ (s : State) (b : Fin 16), ∃ t, exec (.boardLost b) s = .next t ∧ t.hbm = s.hbm ∧ (t.dev.board b).discovered = false ∧
    (t.dev.board b).queued = none ∧ (t.dev.board b).state ≠ .inService) ∧
  (∀ s : State, s.dev.holdsDrive = true → s.dev.inState [.boot, .selftest, .fault, .replay] = false →
    ((s.dev.eng.boards.filter (fun e => e.2.state == .adopting && 2 ≤ e.2.holdFrames)).map Prod.fst).isEmpty = false →
    s.dev.twin.takenAt = none → ∃ t, exec .adoption s = .next t ∧ t.hbm = s.hbm ∧
    ∃ d : Dev, d = (((s.dev.eng.boards.filter (fun e => e.2.state == .adopting && 2 ≤ e.2.holdFrames)).map Prod.fst).foldl (fun d b => d.adoptBoard b s.dev.warmSource) s.dev) ∧
    t.dev = { d.modTwin (fun x => { x with takenAt := none }) with recr := { d.recr with keyDue := true } })

/-- Trajectories, stops, pilots, searches and autotunes: where TRAJECTORY_END, STOP_END, PILOT_READING, DITHER_GROUP_END, SEARCH_END,
REACQUIRE_TRY_END, OPEN_HOLD_LIMIT, AUTOTUNE_END, TUNE_TIMEOUT, POSITION_CONFIRM_TIMEOUT complete, and what they leave (R136, R137, R139,
R140, R142, R144, R145, R147, R252). Where a clause goes through a choice of the model, it is that of the log entries 21, 22, 24, 72, 82,
91, 92. -/
def Obligations.AxisCommands : Prop :=
  (∀ (s : State) (a : Fin 4096) (m : Motion) (r : Int), (s.dev.axis a).motion = some m → m.target = some r →
    (((s.dev.reach ((m.from_ + m.length) * Config.cycle)).modAxis a (fun x => { x with ref := r, motion := none })).cometOfHead (headOfAxis a)) = none →
    ((((s.dev.reach ((m.from_ + m.length) * Config.cycle)).modAxis a (fun x => { x with ref := r, motion := none })).enterAcquire a).head (headOfAxis a)).search = none →
    ∃ t, exec (.trajectoryEnd a) s = .next t ∧ t.hbm = s.hbm ∧
    t.dev = ((s.dev.reach ((m.from_ + m.length) * Config.cycle)).modAxis a (fun x => { x with ref := r, motion := none })).enterAcquire a) ∧
  (∀ (s : State) (a : Fin 4096) (m : Motion), (s.dev.axis a).motion = some m → m.target = none →
    ((((s.dev.reach ((m.from_ + m.length) * Config.cycle)).modAxis a (fun x => { x with ref := (m.at_ m.length).1, motion := none })).setAxis a .holdClosed).cometOfHead (headOfAxis a)) = none →
    ∃ t, exec (.stopEnd a) s = .next t ∧ t.hbm = s.hbm ∧
    t.dev = ((s.dev.reach ((m.from_ + m.length) * Config.cycle)).modAxis a (fun x => { x with ref := (m.at_ m.length).1, motion := none })).setAxis a .holdClosed) ∧
  (∀ (s : State) (h : Fin 2048) (comet : Nat) (ex ey level : Int) (poison : Bool), s.dev.podLit (podOf (portOfHead h)) = true →
    s.dev.pilotSlot h = true → (s.dev.head h).readSlot ≠ s.dev.eng.cycle / 2 + 1 → (∀ r ∈ s.dev.eng.pilots, r.1 ≠ h.val) → (headAxes h).all (fun a => (s.dev.axis a).state == .acquire) = true →
    tfind s.dev.opt.gates h = some comet → ∃ t, exec (.pilotReading h ex ey level ⟨comet, true, poison⟩) s = .next t ∧ t.hbm = s.hbm ∧
    ∃ d : Dev, d = s.dev.modHead h (fun x => { x with readSlot := s.dev.eng.cycle / 2 + 1 }) ∧ t.dev = { d with eng := { d.eng with
      pilots := s.dev.eng.pilots ++ [(h.val, clampI (-32768) 32767 (divNear (ex * 128) 1000), clampI (-32768) 32767 (divNear (ey * 128) 1000), clampI (-32768) 32767 level)]
      pilotPoison := if poison then s.dev.eng.pilotPoison ++ [h.val] else s.dev.eng.pilotPoison } }) ∧
  (∀ (s : State) (h : Fin 2048) (comet : Nat) (ex ey level : Int) (loOk poison : Bool), s.dev.pilotSlot h = false →
    tfind s.dev.opt.gates h = some comet → ∃ t, exec (.pilotReading h ex ey level ⟨comet, loOk, poison⟩) s = .next t ∧ t.hbm = s.hbm ∧
    t.dev = s.dev) ∧
  (∀ (s : State) (h : Fin 2048), (headAxes h).all (fun a => (s.dev.axis a).state == .track) = false → ∃ t,
    exec (.ditherGroupEnd h) s = .next t ∧ t.hbm = s.hbm ∧ t.dev = s.dev.modHead h (fun x => { x with taps := [] })) ∧
  (∀ (s : State) (h : Fin 2048), (headAxes h).all (fun a => (s.dev.axis a).state == .track) = true → ∃ t,
    exec (.ditherGroupEnd h) s = .next t ∧ t.hbm = s.hbm ∧ t.dev = s.dev.ditherGroup h) ∧
  (∀ (s : State) (h : Fin 2048) (x : Search), (s.dev.head h).search = some x → (s.dev.endSearch h).cometOfHead h = none →
    (s.dev.endSearch h).reacquiring h = none → ∃ t, exec (.searchEnd h) s = .next t ∧ t.hbm = s.hbm ∧ t.dev = s.dev.endSearch h) ∧
  (∀ (s : State) (h : Fin 2048) (x : Search) (c : Comet), (s.dev.head h).search = some x →
    (s.dev.endSearch h).cometOfHead h = some c → ∃ t, exec (.searchEnd h) s = .next t ∧ t.hbm = s.hbm ∧
    t.dev = (if 0 < x.k then (s.dev.endSearch h).faultComet c else (s.dev.endSearch h).startSearch (c.otherHead h) 1 false)) ∧
  (∀ (s : State) (north : Fin 512) (plane : Fin 2) (x : Nat × Nat × Nat × Nat) (c : Circuit),
    s.dev.eng.reacquires.find? (fun x => x.1 = north.val && x.2.1 = plane.val) = some x → s.dev.circuitOf north plane = some c → ∃ t,
    exec (.reacquireTryEnd north plane) s = .next t ∧ t.hbm = s.hbm ∧ t.dev = s.dev.tryEnd north plane) ∧
  (∀ (s : State) (h : Fin 2048) (n : Nat), s.dev.openLimit h = some n → ∃ t, exec (.openHoldLimit h) s = .next t ∧
    t.hbm = s.hbm ∧ t.dev = (s.dev.reach n).closeWhere h (fun x => match x.openUntil with | some u => decide (u ≤ (s.dev.reach n).now) | none => false)) ∧
  (∀ (s : State) (a : Fin 4096) (x : Tune), s.dev.eng.tunes.find? (fun t => t.axis == a.val) = some x →
    tuneFigures (s.dev.nat 0x2C05 3) x.samples = none → ∃ t, exec (.autotuneEnd a) s = .next t ∧ t.hbm = s.hbm ∧ t.dev = s.dev) ∧
  (∀ (s : State) (a : Fin 4096) (x : Tune) (f : Fl × Fl), s.dev.eng.tunes.find? (fun t => t.axis == a.val) = some x →
    tuneFigures (s.dev.nat 0x2C05 3) x.samples = some f → ∃ t, exec (.autotuneEnd a) s = .next t ∧ t.hbm = s.hbm ∧
    t.dev = s.dev.autotuneEnd a) ∧
  (∀ (s : State) (a : Fin 4096) (x : Tune), s.dev.eng.tunes.find? (fun t => t.axis == a.val) = some x → ∃ t,
    exec (.tuneTimeout a) s = .next t ∧ t.hbm = s.hbm ∧
    t.dev = ((s.dev.closes (x.began + s.dev.nat 0x2C05 4 * Config.ms)).endTune a (tuneResult 3 (a % 2) 0 0 0 (s.dev.closes (x.began + s.dev.nat 0x2C05 4 * Config.ms)).now)).setAxis a .holdClosed) ∧
  (∀ (s : State) (n : Nat), s.dev.disc.unconfirmedSince = some n → s.dev.disc.confirmed = false → s.dev.anyPeerUp = true → ∃ t,
    exec .positionConfirmTimeout s = .next t ∧ t.hbm = s.hbm ∧ t.dev = (s.dev.reach (n + 10 * Config.sec)).raise 0x0604 1 0 0 true)

/-- Lanes lost and restored, taps, heaters and acknowledgements: where LANE_LOST, LANE_RESTORED, PILOT_CROSSING, TAP_REPORT, HEATER_REPORT,
BANK_ACK, SWEEP_RESULT complete, and what they leave (R25, R161, R162, R163, R166, R171, R172, R173, R200, R202). Where a clause goes
through a choice of the model, it is that of the log entries 26, 27, 81, 86, 88, 101. -/
def Obligations.LaneEvents : Prop :=
  (∀ (s : State) (p : Fin 1024) (lanes : Fin 256), s.dev.podServed (podOf p) = true → ∃ t, exec (.laneLost p lanes) s = .next t ∧
    t.hbm = s.hbm ∧ t.dev = s.dev.lanesLost p lanes) ∧
  (∀ (s : State) (p : Fin 1024) (lanes : Fin 256), s.dev.podServed (podOf p) = true → ∃ t, exec (.laneRestored p lanes) s = .next t ∧
    t.hbm = s.hbm ∧ t.dev = s.dev.lanesRestored p lanes) ∧
  (∀ (s : State) (p : Fin 1024), s.dev.podServed (podOf p) = true → s.dev.pilotExpected p = false → s.dev.crossers p = [] → ∃ t,
    exec (.pilotCrossing p) s = .next t ∧ t.hbm = s.hbm ∧ ∃ d : Dev,
    d = ((s.dev.info 0x0206 2 p []).bump (0x3800 + p) 0x10).bump 0x2602 8 ∧
    t.dev = { d with arr := { d.arr with watches := d.arr.watches.filter (fun x => x.port != p.val) ++ [{ port := p, till := d.now + d.nat 0x2600 3 * Config.ms, comet := 0 }] } }) ∧
  (∀ (s : State) (q : Fin 64) (cycle : Nat) (taps : List (Int × Int)) (poison : List Nat) (crcOk : Bool) (d : Dev),
    s.dev.podServed q = true → crcOk = true → cycle = s.dev.cycleNow % 65536 →
    d = ((upto 16).zip taps).foldl (fun (d : Dev) (e : Nat × Int × Int) => d.modBank (16 * q + e.1) (fun b => { b with tapA := if d.monitorMask (16 * q + e.1) &&& d.routedTo (16 * q + e.1) 0 = 0 then -9999 else e.2.1, tapB := if d.monitorMask (16 * q + e.1) &&& d.routedTo (16 * q + e.1) 1 = 0 then -9999 else e.2.2, tapGone := false })) s.dev →
    ∃ t, exec (.tapReport q cycle ⟨taps, poison⟩ crcOk) s = .next t ∧ t.hbm = s.hbm ∧
    t.dev = { d with eng := { d.eng with tapPoison := d.eng.tapPoison.filter (fun p => podOf p != q.val) ++ poison.map (fun i => 16 * q.val + i) } }) ∧
  (∀ (s : State) (q : Fin 64) (cycle : Nat) (taps : List (Int × Int)) (poison : List Nat) (crcOk : Bool), s.dev.podServed q = true →
    crcOk = false → ∃ t, exec (.tapReport q cycle ⟨taps, poison⟩ crcOk) s = .next t ∧ t.hbm = s.hbm ∧ t.dev = s.dev.podError q 1) ∧
  (∀ (s : State) (q : Fin 64) (eps : List (Option Int)) (powers : List Int) (temp : Int) (poison : List Nat) (crcOk : Bool),
    s.dev.podServed q = true → crcOk = true → (s.dev.podAt q).lock = true → ∃ t,
    exec (.heaterReport q ⟨eps, poison⟩ powers temp crcOk) s = .next t ∧ t.hbm = s.hbm ∧
    t.dev = (((upto 16).zip (chunks 11 16 eps)).foldl (fun (d : Dev) (e : Nat × List (Option Int)) => d.setOct (0x3800 + 16 * q + e.1) 0x0A (leIList 2 (e.2.map (fun x => x.getD (-32768))))) ((s.dev.modPod q (fun x => { x with eps := eps, tempPrev := x.temp, temp := temp, lock := true, poisoned := poison.foldl sinsert x.poisoned })).setNum (0x3C00 + q) 3 temp)).notePowers q powers) ∧
  (∀ (s : State) (q : Fin 64) (id : Nat) (applied : Fin 65536), s.dev.podServed q = true → ∃ t,
    exec (.bankAck q id applied true ⟨true, false⟩) s = .next t ∧ t.hbm = s.hbm ∧
    t.dev = (s.dev.modPod q (fun x => { x with ackAt := some (s.dev.podStamp q) })).banksReported q applied) ∧
  (∀ (s : State) (q : Fin 64) (id : Nat) (applied : Fin 65536), s.dev.podServed q = true → ∃ t,
    exec (.bankAck q id applied false ⟨true, false⟩) s = .next t ∧ t.hbm = s.hbm ∧
    t.dev = s.dev.modPod q (fun x => { x with ackAt := some (s.dev.podStamp q) })) ∧
  (∀ (s : State) (q : Fin 64) (loc : Fin 16) (lane : Fin 8) (offset : Int) (points : List (Int × Int)) (r : Round) (d : Dev),
    s.dev.podServed q = true →
    s.dev.rings.rounds.find? (fun r => r.ports.contains (16 * q.val + loc.val) && r.lane == lane.val) = some r →
    d = (s.dev.reach (r.start + 540 * Config.us)).calDue →
    d.rings.rounds.any (fun r => r.ports.contains (16 * q.val + loc.val) && r.lane == lane.val) = true →
    points.any (fun (x : Int × Int) => max x.1 x.2 < d.lossThreshold (16 * q.val + loc.val)) = false → ∃ t,
    exec (.sweepResult q loc lane offset points ⟨true, false⟩) s = .next t ∧ t.hbm = s.hbm ∧
    t.dev = (d.modPod q (fun x => { x with sweep := none })).modRound r (fun x => { x with sweeps := x.sweeps.filter (fun y => y.1 != 16 * q.val + loc.val) ++ [(16 * q.val + loc.val, offset, points)], stage := max x.stage 1 })) ∧
  (∀ (s : State) (q : Fin 64) (loc : Fin 16) (lane : Fin 8) (offset : Int) (points : List (Int × Int)) (r : Round) (d : Dev),
    s.dev.podServed q = true →
    s.dev.rings.rounds.find? (fun r => r.ports.contains (16 * q.val + loc.val) && r.lane == lane.val) = some r →
    d = (s.dev.reach (r.start + 540 * Config.us)).calDue →
    d.rings.rounds.any (fun r => r.ports.contains (16 * q.val + loc.val) && r.lane == lane.val) = true →
    points.any (fun (x : Int × Int) => max x.1 x.2 < d.lossThreshold (16 * q.val + loc.val)) = true → ∃ t,
    exec (.sweepResult q loc lane offset points ⟨true, false⟩) s = .next t ∧ t.hbm = s.hbm ∧
    t.dev = (d.rings.rounds.filter (fun r => r.ports.contains (16 * q.val + loc.val) && r.lane == lane.val)).foldl Dev.abortRound d)

/-- Frames to a pod, and pods that come and go: where POD_TUNER_WRITE, POD_STROBE_DESC, POD_MARK, POD_HEATER_SET, POD_MONITOR_SET,
POD_DELAY_SET, POD_CAL_SWEEP, POD_LBK, POD_LOCK_LOSS, POD_DISCOVERED, POD_LOST, POD_CHAIN_CHANGE complete, and what they leave (R119,
R162, R164, R165, R171, R175, R176, R177, R178, R259). Where a clause goes through a choice of the model, it is that of the log entries 26, 69, 73. -/
def Obligations.PodFrames : Prop :=
  (∀ (s : State) (q : Fin 64) (w : TunerWrite) (crcOk : Bool), crcOk = true → w.bank ≠ 0xFF → ∃ t,
    exec (.podTunerWrite q [w] crcOk) s = .next t ∧ t.hbm = s.hbm ∧
    t.dev = s.dev.modPod q (fun x => { x with banks := tmod {} x.banks w.bank (fun b => b.write w.ring w.code) })) ∧
  (∀ (s : State) (q : Fin 64) (w : TunerWrite) (crcOk : Bool), crcOk = true → w.bank = 0xFF →
    s.dev.immediateOk (16 * q + w.ring / 11) = true → ∃ t, exec (.podTunerWrite q [w] crcOk) s = .next t ∧ t.hbm = s.hbm ∧
    t.dev = s.dev.modPod q (fun x => { x with junction := tset x.junction w.ring w.code })) ∧
  (∀ (s : State) (q : Fin 64) (crcOk : Bool), crcOk = true → ∃ t, exec (.podTunerWrite q [] crcOk) s = .next t ∧ t.hbm = s.hbm ∧
    t.dev = s.dev) ∧
  (∀ (s : State) (q : Fin 64) (writes : List TunerWrite) (crcOk : Bool), crcOk = false → ∃ t,
    exec (.podTunerWrite q writes crcOk) s = .next t ∧ t.hbm = s.hbm ∧ t.dev = s.dev.podError q 1) ∧
  (∀ (s : State) (q : Fin 64) (id : Nat) (acts : List DescAct) (crcOk : Bool), crcOk = true → (s.dev.podAt q).descs.length < 16 → ∃ t,
    exec (.podStrobeDesc q id acts crcOk) s = .next t ∧ t.hbm = s.hbm ∧
    t.dev = s.dev.modPod q (fun x => { x with descs := x.descs ++ [{ id := id, acts := (acts.filter (fun a => a.podMask.testBit (q % 4))).map (fun a => (a.bank, a.undo, a.delay)) }] })) ∧
  (∀ (s : State) (q : Fin 64) (low : Fin 256), (∀ e ∈ (s.dev.podAt q).descs, e.id % 256 ≠ low.val) → ∃ t,
    exec (.podMark q low) s = .next t ∧ t.hbm = s.hbm ∧ t.dev = s.dev.podError q 1) ∧
  (∀ (s : State) (q : Fin 64) (low : Fin 256) (e : Desc) (rest : List Desc), (s.dev.podAt q).descs = e :: rest →
    e.id % 256 = low.val → e.acts ≠ [] → ∃ t, exec (.podMark q low) s = .next t ∧ t.hbm = s.hbm ∧ ∃ d : Dev,
    d = e.inOrder.foldl (fun (d : Dev) (a : Nat × Bool × Nat) => d.modPod q (fun x => if a.2.1 then x.undoBank a.1 else x.applyBank a.1)) (s.dev.modPod q (fun x => { x with descs := rest })) ∧
    t.dev = d.podSend q 0x92 (le 2 e.id ++ le 2 (maskOf ((e.acts.map Prod.fst).filter (fun x => 2 ≤ (tget {} (d.podAt q).banks x).life))) ++ [1, 0])) ∧
  (∀ (s : State) (q : Fin 64) (codes : List (Fin 4096)) (crcOk : Bool), crcOk = true → ∃ t,
    exec (.podHeaterSet q codes crcOk) s = .next t ∧ t.hbm = s.hbm ∧
    t.dev = s.dev.modPod q (fun x => { x with next := (upto 176).zip (codes.map Fin.val) })) ∧
  (∀ (s : State) (q : Fin 64) (ports : List MonitorSet) (crcOk : Bool), crcOk = true → ∃ t,
    exec (.podMonitorSet q ports crcOk) s = .next t ∧ t.hbm = s.hbm ∧
    t.dev = ((upto 16).zip ports).foldl (fun (d : Dev) (e : Nat × MonitorSet) => d.modBank (16 * q + e.1) (fun b => { b with podMask := e.2.mask, podPilotExpected := e.2.flags.testBit 0, podThreshold := e.2.threshold })) s.dev) ∧
  (∀ (s : State) (q : Fin 64) (delay : Fin 256) (crcOk : Bool), crcOk = true → ∃ t, exec (.podDelaySet q delay crcOk) s = .next t ∧
    t.hbm = s.hbm ∧ t.dev = s.dev.modPod q (fun x => { x with strobeDelay := delay })) ∧
  (∀ (s : State) (q : Fin 64) (loc : Fin 16) (lane : Fin 8) (first step points : Nat) (crcOk : Bool), crcOk = true → ∃ t,
    exec (.podCalSweep q loc lane first step points crcOk) s = .next t ∧ t.hbm = s.hbm ∧
    t.dev = s.dev.modPod q (fun x => { x with sweep := some (loc, lane, first, step, points) })) ∧
  (∀ (s : State) (q : Fin 64) (position : Fin 4), q.val % 4 = position.val → ∃ t, exec (.podLbk q position) s = .next t ∧
    t.hbm = s.hbm ∧ t.dev = s.dev.emit (.lbk (q.val / 4) position true (lbkGroups position true))) ∧
  (∀ (s : State) (q : Fin 64) (position : Fin 4), q.val % 4 ≠ position.val → ∃ t, exec (.podLbk q position) s = .next t ∧
    t.hbm = s.hbm ∧ t.dev = s.dev) ∧
  (∀ (s : State) (q : Fin 64), ∃ t, exec (.podLockLoss q) s = .next t ∧ t.hbm = s.hbm ∧
    t.dev = (s.dev.podError q (s.dev.podAt q).descs.length).modPod q (fun x => { x.discardPending with lock := false })) ∧
  (∀ (s : State) (q : Fin 64) (store : PodStore) (r : CalRecord), s.dev.isOn 8 = true → s.dev.recordOf q store.serial = some r →
    (s.dev.podAt q).serial = store.serial → store.crcOk = true → (crosstalkCheck q r.matrix).1 = 0 → (tfind (s.dev.podLink (linkOfPod q)).lat (q % 4)).isSome = true → ∃ t,
    exec (.podDiscovered q store) s = .next t ∧ t.hbm = s.hbm ∧
    t.dev = (((((s.dev.modPod q (fun x => { x with flipOffset := store.flipOffset })).moveLatency q (store.flipOffset - (s.dev.podAt q).flipOffset)).modPod q (fun x => { x with state := .inService })).portsIn q).sendMonitor q).unlatch 0x0305 4 q) ∧
  (∀ (s : State) (q : Fin 64) (storeBad : Bool), ∃ t, exec (.podLost q storeBad) s = .next t ∧ t.hbm = s.hbm ∧
    t.dev = s.dev.losePod q (if storeBad then .outOfService else .absent) storeBad) ∧
  (∀ (s : State) (q : Fin 64), s.dev.isOn 8 = false →
    ((s.dev.losePod q .absent false).modPodLink (linkOfPod q) (fun x => { x with lat := [], trained := false })).isOn 8 = false → ∃ t,
    exec (.podChainChange q false) s = .next t ∧ t.hbm = s.hbm ∧
    t.dev = (s.dev.losePod q .absent false).modPodLink (linkOfPod q) (fun x => { x with lat := [], trained := false })) ∧
  (∀ (s : State) (q : Fin 64), s.dev.isOn 8 = true → s.dev.isOn 3 = true → ∃ t, exec (.podChainChange q true) s = .next t ∧
    t.hbm = s.hbm ∧
    t.dev = (s.dev.modPodLink (linkOfPod q) (fun x => { x with lat := [], trained := false })).measureLatency (linkOfPod q))

/-- Background calibration of lanes: where CAL_BACKGROUND_TIMER, CAL_ROUND_START, CAL_FIT, CAL_LANE_IN, CAL_LANE_REJOIN complete, and what
they leave (R158, R170, R171, R172). Where a clause goes through a choice of the model, it is that of the log entries 28, 74, 84, 95. -/
def Obligations.CalibrationCommands : Prop :=
  (∀ s : State, s.dev.holdsDrive = true → s.dev.rings.rounds = [] → s.dev.power.deferred = [] → s.dev.power.grants = [] →
    s.dev.rings.lastRound = 0 → s.dev.nextCalLane = none → ∃ t, exec .calBackgroundTimer s = .next t ∧ t.hbm = s.hbm ∧ t.dev = s.dev) ∧
  (∀ (s : State) (x : Nat × Nat), s.dev.holdsDrive = true → s.dev.rings.rounds = [] → s.dev.power.deferred = [] →
    s.dev.power.grants = [] → s.dev.rings.lastRound = 0 → s.dev.nextCalLane = some x → ∃ t, exec .calBackgroundTimer s = .next t ∧
    t.hbm = s.hbm ∧
    t.dev = ({ s.dev with rings := { s.dev.rings with due := true } }).request 2 .background 1 (({ north := x.1, south := none, plane := 0, lane := x.2, start := 0 } : Round).holder) 0) ∧
  (∀ (s : State) (p : Fin 1024) (k : Fin 8) (tag : Nat) (c : Circuit) (u : Option Nat), s.dev.freeTags 1 = some [tag] →
    s.dev.circuits.find? (fun c => c.north == p.val && s.dev.roundFree c k s.dev.nextCycle) = some c →
    s.dev.calPermit { north := c.north, south := some c.south, plane := c.plane, lane := k, start := s.dev.nextCycle, tag := tag } = some u →
    ∃ t, exec (.calRoundStart p k) s = .next t ∧ t.hbm = s.hbm ∧
    t.dev = s.dev.startRound { north := c.north, south := some c.south, plane := c.plane, lane := k, start := s.dev.nextCycle, tag := tag, background := u.isNone, under := u }) ∧
  (∀ (s : State) (p : Fin 1024) (k : Fin 8) (tag : Nat) (u : Option Nat), s.dev.freeTags 1 = some [tag] →
    s.dev.circuits.find? (fun c => c.north == p.val && s.dev.roundFree c k s.dev.nextCycle) = none → s.dev.bareRoundFree p k = true →
    s.dev.calPermit { north := p, south := none, plane := 0, lane := k, start := s.dev.nextCycle, tag := tag } = some u → ∃ t,
    exec (.calRoundStart p k) s = .next t ∧ t.hbm = s.hbm ∧
    t.dev = s.dev.startRound { north := p, south := none, plane := 0, lane := k, start := s.dev.nextCycle, tag := tag, background := u.isNone, under := u }) ∧
  (∀ (s : State) (p : Fin 1024) (k : Fin 8) (fits : List Fit) (r : Round), s.dev.roundOf p k = some r → r.stage < 2 → r.back = none →
    ∃ t, exec (.calFit p k fits) s = .next t ∧ t.hbm = s.hbm ∧
    t.dev = ((s.dev.reach (r.start + 650 * Config.us)).calDue).fitRound r fits) ∧
  (∀ (s : State) (p : Fin 1024) (k : Fin 8) (r : Round), s.dev.roundOf p k = some r → r.stage = 2 → r.back = none → ∃ t,
    exec (.calLaneIn p k) s = .next t ∧ t.hbm = s.hbm ∧
    t.dev = ((s.dev.reach (r.start + 700 * Config.us)).laneBack r).modRound r (fun x => { x with stage := 3 })) ∧
  (∀ (s : State) (p : Fin 1024) (k : Fin 8) (r : Round), s.dev.roundOf p k = some r → r.stage = 3 → ∃ t,
    exec (.calLaneRejoin p k) s = .next t ∧ t.hbm = s.hbm ∧ t.dev = (s.dev.reach (r.start + 750 * Config.us)).endRound r)

/-- The messages and instants of a group commit: where VOTE, COMMIT_ACK, GO, COMMIT_HOLD, COMMIT_CONFIRM, RETRACT, OUTCOME, VOID,
COMMIT_REPEAT, VOTE_DEADLINE, DECISION_INSTANT, GUARD complete, and what they leave (R185, R188, R189, R190, R192, R193, R194, R195, R196,
R205, R286). Where a clause goes through a choice of the model, it is that of the log entries 30, 64, 86, 88, 89, 102. -/
def Obligations.CommitMessages : Prop :=
  (∀ (s : State) (port : Fin 6) (m : CMsg) (members ready notReady : Nat), s.dev.hearsCommit port m → (s.dev.seeEpoch m.epoch).acts = true →
    (s.dev.seeEpoch m.epoch).isRootNow = true → ∃ t, exec (.vote port m members ready notReady) s = .next t ∧
    t.hbm = s.hbm ∧ t.dev = (s.dev.seeEpoch m.epoch).groupVote m members ready notReady) ∧
  (∀ (s : State) (port : Fin 6) (m : CMsg) (members ready notReady : Nat), s.dev.hearsCommit port m → (s.dev.seeEpoch m.epoch).acts = true →
    (s.dev.seeEpoch m.epoch).isRootNow = false → ∃ t, exec (.vote port m members ready notReady) s = .next t ∧
    t.hbm = s.hbm ∧ t.dev = (s.dev.seeEpoch m.epoch).sendUp 0x10 0 (commitHead m ++ (le 8 members ++ le 8 ready ++ le 8 notReady))) ∧
  (∀ (s : State) (port : Fin 6) (m : CMsg) (members ready notReady : Nat), s.dev.hearsCommit port m → (s.dev.seeEpoch m.epoch).acts = false →
    ∃ t, exec (.vote port m members ready notReady) s = .next t ∧ t.hbm = s.hbm ∧ t.dev = s.dev.seeEpoch m.epoch) ∧
  (∀ (s : State) (port : Fin 6) (m : CMsg) (ack fail : Nat), s.dev.hearsCommit port m → (s.dev.seeEpoch m.epoch).acts = true →
    (s.dev.seeEpoch m.epoch).isRootNow = true → ∃ t, exec (.commitAck port m ack fail) s = .next t ∧ t.hbm = s.hbm ∧
    t.dev = (s.dev.seeEpoch m.epoch).groupAck m.tag m.zenith m.entry m.crc ack fail m.sender m.reason) ∧
  (∀ (s : State) (port : Fin 6) (m : CMsg) (ack fail : Nat), s.dev.hearsCommit port m → (s.dev.seeEpoch m.epoch).acts = true →
    (s.dev.seeEpoch m.epoch).isRootNow = false → ∃ t, exec (.commitAck port m ack fail) s = .next t ∧ t.hbm = s.hbm ∧
    t.dev = (s.dev.seeEpoch m.epoch).sendUp 0x13 0 (commitHead m ++ (le 8 ack ++ le 8 fail))) ∧
  (∀ (s : State) (port : Fin 6) (m : CMsg), s.dev.hearsCommit port m → (s.dev.passedOn port 0x11 m []).jobOfTag m.tag = none → ∃ t,
    exec (.goMsg port m) s = .next t ∧ t.hbm = s.hbm ∧ t.dev = s.dev.passedOn port 0x11 m []) ∧
  (∀ (s : State) (port : Fin 6) (m : CMsg) (j : Nat) (d : Dev), s.dev.hearsCommit port m → d = s.dev.passedOn port 0x11 m [] →
    d.jobOfTag m.tag = some j → d.acts = true → (d.commit j).z = m.zenith → ∃ t,
    exec (.goMsg port m) s = .next t ∧ t.hbm = s.hbm ∧ t.dev = d.memberGo j) ∧
  (∀ (s : State) (port : Fin 6) (m : CMsg), s.dev.hearsCommit port m → (s.dev.passedOn port 0x12 m []).jobOfTag m.tag = none → ∃ t,
    exec (.commitHold port m) s = .next t ∧ t.hbm = s.hbm ∧ t.dev = s.dev.passedOn port 0x12 m []) ∧
  (∀ (s : State) (port : Fin 6) (m : CMsg) (j : Nat) (d : Dev), s.dev.hearsCommit port m → d = s.dev.passedOn port 0x12 m [] →
    d.jobOfTag m.tag = some j → d.acts = true → (d.commit j).z = m.zenith → ((d.commit j).state == .presteer || (d.commit j).state == .voted) = true → ∃ t,
    exec (.commitHold port m) s = .next t ∧ t.hbm = s.hbm ∧ t.dev = (d.memberHold j m.reason).reasonEight j m.reason) ∧
  (∀ (s : State) (port : Fin 6) (m : CMsg), s.dev.hearsCommit port m → (s.dev.passedOn port 0x14 m []).jobOfTag m.tag = none → ∃ t,
    exec (.commitConfirm port m) s = .next t ∧ t.hbm = s.hbm ∧ t.dev = s.dev.passedOn port 0x14 m []) ∧
  (∀ (s : State) (port : Fin 6) (m : CMsg) (j : Nat) (d : Dev), s.dev.hearsCommit port m → d = s.dev.passedOn port 0x14 m [] →
    d.jobOfTag m.tag = some j → d.acts = true → (d.commit j).z = m.zenith → ∃ t,
    exec (.commitConfirm port m) s = .next t ∧ t.hbm = s.hbm ∧ t.dev = d.memberConfirm j) ∧
  (∀ (s : State) (port : Fin 6) (m : CMsg), s.dev.hearsCommit port m → (s.dev.passedOn port 0x15 m []).jobOfTag m.tag = none → ∃ t,
    exec (.retract port m) s = .next t ∧ t.hbm = s.hbm ∧ t.dev = s.dev.passedOn port 0x15 m []) ∧
  (∀ (s : State) (port : Fin 6) (m : CMsg) (j : Nat) (d : Dev), s.dev.hearsCommit port m → d = s.dev.passedOn port 0x15 m [] →
    d.jobOfTag m.tag = some j → d.acts = true → (d.commit j).z = m.zenith → ((d.commit j).state == .go || (d.commit j).state == .acked || (d.commit j).state == .confirmed) = true → ∃ t,
    exec (.retract port m) s = .next t ∧ t.hbm = s.hbm ∧ t.dev = (d.memberRetract j m.reason).reasonEight j m.reason) ∧
  (∀ (s : State) (port : Fin 6) (m : CMsg) (kept reverted : Nat), s.dev.isRootNow = true → s.dev.acts = true → s.dev.hearsCommit port m →
    ∃ t, exec (.outcome port m kept reverted) s = .next t ∧
    (t.dev, t.hbm) = leaderOutcome (s.dev.seeEpoch m.epoch, s.hbm) m.tag m.entry m.zenith m.crc kept reverted) ∧
  (∀ (s : State) (port : Fin 6) (m : CMsg) (kept reverted : Nat), s.dev.isRootNow = false → ∃ t,
    exec (.outcome port m kept reverted) s = .next t ∧ t.hbm = s.hbm ∧
    t.dev = s.dev.passUp port 0x16 m (le 8 kept ++ le 8 reverted) id) ∧
  (∀ (s : State) (port : Fin 6) (m : CMsg) (step j : Nat) (d : Dev), s.dev.hearsCommit port m → s.dev.acts = true →
    d = s.dev.passDown port 0x17 m (le 8 step) (fun d _ => d) → d.jobOfTag m.tag = some j → ∃ t, exec (.voidStep port m step) s = .next t ∧
    (t.dev, t.hbm) = memberVoid (d, s.hbm) j m.zenith step) ∧
  (∀ s : State, s.dev.isOn 3 = true → s.dev.isOn 10 = true → ∃ t, exec .commitRepeat s = .next t ∧ t.hbm = s.hbm ∧
    t.dev = s.dev.repeatMessages) ∧
  (∀ (s : State) (j : Fin 16), (s.dev.commit j).state = .presteer → s.dev.acts = true → ∃ t, exec (.voteDeadline j) s = .next t ∧
    t.hbm = s.hbm ∧
    t.dev = ((s.dev.reach ((s.dev.commit j).z - 1000 * Config.us)).reserve j).sendVote j (((s.dev.reach ((s.dev.commit j).z - 1000 * Config.us)).reserve j).verdict j)) ∧
  (∀ (s : State) (tag z : Nat), (s.dev.closes (z - 800 * Config.us)).group tag z = none → ∃ t,
    exec (.decisionInstant tag z) s = .next t ∧ t.hbm = s.hbm ∧ t.dev = s.dev.closes (z - 800 * Config.us)) ∧
  (∀ (s : State) (tag z : Nat) (g : Group), (s.dev.closes (z - 800 * Config.us)).group tag z = some g → g.goSent = false →
    g.holdSent = false → g.retractSent = false → ∃ t, exec (.decisionInstant tag z) s = .next t ∧ t.hbm = s.hbm ∧
    t.dev = (s.dev.closes (z - 800 * Config.us)).leaderHold g g.holdReason) ∧
  (∀ (s : State) (tag z : Nat) (g : Group) (d : Dev), d = s.dev.reach (z - 200 * Config.us) → d.group tag z = some g → g.goSent = true →
    g.confirmSent = false → g.retractSent = false → (d.leaderRetract g g.guardReason).jobOfTag tag = none → ∃ t,
    exec (.guard tag z) s = .next t ∧ t.hbm = s.hbm ∧ t.dev = d.leaderRetract g g.guardReason) ∧
  (∀ (s : State) (tag z j : Nat) (d : Dev), d = s.dev.reach (z - 200 * Config.us) → d.group tag z = none → d.jobOfTag tag = some j →
    (d.commit j).z = z → ((d.commit j).state == .presteer || (d.commit j).state == .voted) = true → ∃ t,
    exec (.guard tag z) s = .next t ∧ t.hbm = s.hbm ∧ t.dev = d.memberHold j (d.commit j).reason)

/-- Launch, Zenith, graded steps, verification and reverts: where LAUNCH_WINDOW, COMET_LAUNCH, CANCEL_LIMIT, ZENITH, DETOUR_ZENITH,
GRADED_STEP, BANK_ACK_DEADLINE, VERIFICATION_END, OUTCOME_FIX, REVERT, OUTCOME_CHECK, TENTATIVE_WATCH complete, and what they leave (R96,
R180, R182, R194, R195, R196, R197, R198, R199, R200, R201, R202, R204, R205, R328, R377). Where a clause goes through a choice of the
model, it is that of the log entries 22, 30, 64, 86, 90, 103. -/
def Obligations.CommitInstants : Prop :=
  (∀ (s : State) (j : Fin 16) (z : Nat), (s.dev.job j).state = .running → (s.dev.job j).stopping = false →
    s.dev.holdsDrive = true → (s.dev.commit j).over = true → s.dev.firstDetour j = none →
    (s.dev.run j).zenith = z → z ≠ 0 → ∃ t, exec (.launchWindow j) s = .next t ∧
    (t.dev, t.hbm) = stageGroup ((s.dev.reach (max (z - s.dev.nat 0x2600 1 * Config.us) s.dev.time.inForce.epoch)).openEntry j z ((s.dev.releasedSlot j z (almEntry (s.dev.almanac j) (s.dev.run j).next)).getD (s.dev.commitSlot j (almEntry (s.dev.almanac j) (s.dev.run j).next))) (almEntry (s.dev.almanac j) (s.dev.run j).next) none, s.hbm) j) ∧
  (∀ (s : State) (north : Fin 512) (plane : Fin 2) (waypoint : Nat) (c : Comet), s.dev.cometAt north plane = some c → c.state = .waiting →
    s.dev.inState [.armed, .serving] = true → s.dev.admits c = true → s.dev.axesFree c = true → s.dev.shadowAt c = true → ∃ t,
    exec (.cometLaunch north plane waypoint) s = .next t ∧ t.hbm = s.hbm ∧
    t.dev = (s.dev.reach (s.dev.launchFrom c)).launchComet { c with point := waypoint }) ∧
  (∀ (s : State) (j : Fin 16) (k : Fin 8) (st : Stage), s.dev.isOn 3 = true →
    (s.dev.commit j).stages.find? (fun x => x.step = k.val) = some st →
    s.dev.time.strobes.find? (fun x => x.job = j.val && x.kind = 0 && x.tag = st.tag && !x.due.isEmpty) = none → ∃ t,
    exec (.cancelLimit j k) s = .next t ∧ t.hbm = s.hbm ∧ t.dev = s.dev) ∧
  (∀ (s : State) (j : Fin 16) (k : Fin 8) (st : Stage) (x : Strobe), s.dev.isOn 3 = true →
    (s.dev.commit j).stages.find? (fun x => x.step = k.val) = some st →
    s.dev.time.strobes.find? (fun x => x.job = j.val && x.kind = 0 && x.tag = st.tag && !x.due.isEmpty) = some x → ∃ t,
    exec (.cancelLimit j k) s = .next t ∧ t.hbm = s.hbm ∧ t.dev = s.dev.cancelLimit j k) ∧
  (∀ (s : State) (j : Fin 16), s.dev.isOn 3 = true → (s.dev.commit j).detour = none →
    ((s.dev.commit j).state == .acked || (s.dev.commit j).state == .confirmed) = true → (s.dev.commit j).armed = true → ∃ t,
    exec (.zenith j) s = .next t ∧ (t.dev, t.hbm) = flipEntry (s.dev, s.hbm) j) ∧
  (∀ (s : State) (j : Fin 16), s.dev.isOn 3 = true → (s.dev.commit j).detour = none →
    ((s.dev.commit j).state == .acked || (s.dev.commit j).state == .confirmed) = true → (s.dev.commit j).armed = false → ∃ t,
    exec (.zenith j) s = .next t ∧ t.hbm = s.hbm ∧ t.dev = (s.dev.memberCancel j (s.dev.commit j).reason).passZenith j) ∧
  (∀ (s : State) (j : Fin 16), s.dev.isOn 3 = true → (s.dev.commit j).detour = none →
    ((s.dev.commit j).state == .acked || (s.dev.commit j).state == .confirmed) = false → ∃ t, exec (.zenith j) s = .next t ∧
    t.hbm = s.hbm ∧ t.dev = s.dev.passZenith j) ∧
  (∀ (s : State) (j : Fin 16) (r : Nat), s.dev.isOn 3 = true → (s.dev.commit j).detour = some r →
    ((s.dev.commit j).state == .acked || (s.dev.commit j).state == .confirmed) = true → (s.dev.commit j).armed = true → ∃ t,
    exec (.detourZenith j) s = .next t ∧ (t.dev, t.hbm) = flipEntry (s.dev, s.hbm) j) ∧
  (∀ (s : State) (j : Fin 16) (k : Fin 8), (s.dev.commit j).state ≠ .flipping → ∃ t, exec (.gradedStep j k) s = .next t ∧
    t.hbm = s.hbm ∧ t.dev = s.dev) ∧
  (∀ (s : State) (j : Fin 16) (k : Fin 8) (es : List CEntry), (s.dev.commit j).state = .flipping →
    es = centries (s.dev.slot (s.dev.commit j).slot) → 1 ≤ k.val → k.val ≤ 6 → ∃ t, exec (.gradedStep j k) s = .next t ∧ t.hbm = s.hbm ∧
    t.dev = (es.filter (fun e => e.starts && e.handover = 1)).foldl (fun d e => let d := d.moveLane e k; if 480 ≤ e.south && d.opt.links.any (fun x => x.1 = 64 + (e.south - 480)) then d.moveSvcLane (e.south - 480) e.lanes k else d) (s.dev.reach ((s.dev.commit j).z + 50 * Config.us * k))) ∧
  (∀ (s : State) (j : Fin 16) (es : List CEntry) (d e : Dev), (s.dev.commit j).state = .flipping →
    es = centries (s.dev.slot (s.dev.commit j).slot) →
    d = (es.filter (fun e => e.starts && e.handover = 1)).foldl (fun d e => let d := d.moveLane e 7; if 480 ≤ e.south && d.opt.links.any (fun x => x.1 = 64 + (e.south - 480)) then d.moveSvcLane (e.south - 480) e.lanes 7 else d) (s.dev.reach ((s.dev.commit j).z + 350 * Config.us)) →
    e = ((s.dev.commit j).ended.filter (gradedOut es)).foldl (fun d x => (d.endCircuit ((s.dev.commit j).z + 350 * Config.us) x).unlatch 0x0306 2 x.north) d →
    (∀ n ∈ upto 32, e.opt.links.any (fun x => x.1 = 64 + n) = false) → ∃ t, exec (.gradedStep j 7) s = .next t ∧ t.hbm = s.hbm ∧
    t.dev = (upto 32).foldl (fun x n => x.retrainService d.circuits n) e) ∧
  (∀ (s : State) (j : Fin 16) (k : Fin 8) (x : Stage), (s.dev.commit j).stages.find? (fun s => s.step = k.val) = some x →
    (s.dev.commit j).state = .flipping → x.missing = [] → ∃ t, exec (.bankAckDeadline j k) s = .next t ∧ t.hbm = s.hbm ∧
    t.dev = s.dev) ∧
  (∀ (s : State) (j : Fin 16) (k : Fin 8) (x : Stage), (s.dev.commit j).stages.find? (fun s => s.step = k.val) = some x →
    (s.dev.commit j).state = .flipping → x.missing.isEmpty = false → x.catchups < 2 → ∃ t, exec (.bankAckDeadline j k) s = .next t ∧
    t.hbm = s.hbm ∧ ∃ d : Dev, t.dev = (d.bump 0x2602 5).raise 0x0401 1 1 j false (le 1 k) ∧
    d = ((s.dev.closes (x.z + (30 + 50 * x.catchups) * Config.us)).modCommit j (fun c => { c with stages := c.stages.map (fun y => if y.step = k.val then { y with catchups := x.catchups + 1 } else y) })).armFixed { z := x.z + 50 * (x.catchups + 1) * Config.us, pods := x.missing, tag := x.tag, kind := 3, job := j }) ∧
  (∀ (s : State) (j : Fin 16) (es : List CEntry) (d e : Dev) (ports : List Nat) (dark ok : Bool) (base : Nat),
    (s.dev.commit j).state = .flipping → (s.dev.commit j).windowEnded = false → es = centries (s.dev.slot (s.dev.commit j).slot) →
    d = s.dev.closes ((s.dev.commit j).z + (if (stepsOf es).length = 1 then 200 else 600) * Config.us) → ports = d.entryPorts j es →
    dark = ((s.dev.commit j).darkened.any ports.contains || d.circuits.any (fun x => x.inForce && (ports.contains x.north || ports.contains (southPort x.south)) && (x.lostN ||| x.lostS) != 0)) →
    ok = ((s.dev.commit j).stages.all (fun s => s.missing.isEmpty) && !dark && !(s.dev.commit j).failed) →
    e = d.modCommit j (fun x => { x with windowEnded := true, verified := ok }) → (s.dev.commit j).detour = none →
    base = (almEntry (e.almanac j) (s.dev.commit j).entry).slot → ∃ t,
    exec (.verificationEnd j) s = .next t ∧ t.hbm = s.hbm ∧
    t.dev = (if ok && (s.dev.commit j).slot != base then e.detourVerified j base else e)) ∧
  (∀ (s : State) (j : Fin 16), ∃ t, exec (.outcomeFix j) s = .next t ∧ (t.dev, t.hbm) = fixOutcome (s.dev, s.hbm) j ∧
    ((s.dev.commit j).state ≠ .flipping → t.dev = s.dev ∧ t.hbm = s.hbm)) ∧
  (∀ (s : State) (j : Fin 16) (r : Nat), (s.dev.commit j).state = .reverting → (s.dev.commit j).detour = some r → ∃ t,
    exec (.revert j) s = .next t ∧ (t.dev.commit j).state = .reverted ∧ (t.dev.commit j).lastOutcome = 4 ∧
    (t.dev.commit j).lastZ = (s.dev.commit j).z) ∧
  (∀ (s : State) (j : Fin 16), ∃ t, exec (.revert j) s = .next t ∧ (t.dev, t.hbm) = revertEntry (s.dev, s.hbm) j) ∧
  (∀ (s : State) (tag z j : Nat), ((s.dev.closes (z + 2 * Config.ms)).checkOutcome tag z).jobOfTag tag = some j → ∃ t,
    exec (.outcomeCheck tag z) s = .next t ∧ t.hbm = s.hbm ∧
    t.dev = ((s.dev.closes (z + 2 * Config.ms)).checkOutcome tag z).reserveCal j z) ∧
  (∀ (s : State) (tag z : Nat), ((s.dev.closes (z + 2 * Config.ms)).checkOutcome tag z).jobOfTag tag = none → ∃ t,
    exec (.outcomeCheck tag z) s = .next t ∧ t.hbm = s.hbm ∧ t.dev = (s.dev.closes (z + 2 * Config.ms)).checkOutcome tag z) ∧
  (∀ (s : State) (p : Fin 1024) (w : Watch), s.dev.arr.watches.find? (fun w => w.port == p.val) = some w → ∃ t,
    exec (.tentativeWatch p) s = .next t ∧ t.hbm = s.hbm ∧ t.dev.arr.watches = s.dev.arr.watches.filter (fun x => x.port != p.val) ∧
    w.till ≤ t.dev.now)

/-- Laser modules and synthesisers: where LASER_MODULE_INSERTED, LASER_MODULE_REMOVED, LASER_RAMP_DONE, LASER_DEAD, LASER_ALARM,
LASER_MONITOR_POLL, SYNTH_SAMPLE complete, and what they leave (R209, R211, R212, R213). Where a clause goes through a choice of the model,
it is that of the log entries 45, 96. -/
def Obligations.LaserCommands : Prop :=
  (∀ (s : State) (slot : Fin 4) (vendor part serial : Bytes) (freqOk powerOk mgmtOk : Bool), ∃ t,
    exec (.laserModuleInserted slot vendor part serial freqOk powerOk mgmtOk) s = .next t ∧ t.hbm = s.hbm ∧
    t.dev.laser slot = { state := if freqOk && powerOk && mgmtOk then .present else .refused, present := true, good := freqOk && powerOk && mgmtOk, vendor := vendor, part := part, serial := serial }) ∧
  (∀ (s : State) (slot : Fin 4), ∃ t, exec (.laserModuleRemoved slot) s = .next t ∧ t.hbm = s.hbm ∧ t.dev.laser slot = {}) ∧
  (∀ (s : State) (slot : Fin 4) (short : Fin 256), (s.dev.laser slot).state = .enabling → s.dev.grantOf 4 slot = none → ∃ t,
    exec (.laserRampDone slot short) s = .next t ∧ t.hbm = s.hbm ∧
    t.dev = ((upto (lasersOf slot)).foldl (fun d m => if (d.laser slot).dead.testBit m then d else if short.val.testBit m then d.laserDie slot m else if slot.val = 3 then ((d.laserOn slot m).pilotsOn m).probeLightBack m else d.laserOn slot m) ((s.dev.release 4 slot).modLaser slot (fun x => { x with state := .lit }))).slotFault slot) ∧
  (∀ (s : State) (slot : Fin 4) (m : Fin 8), s.dev.laserLit slot m = true → ∃ t, exec (.laserDead slot m) s = .next t ∧
    t.hbm = s.hbm ∧ t.dev = ((s.dev.laserDie slot m).pilotsOff slot m).slotFault slot) ∧
  (∀ (s : State) (slot : Fin 4) (m : Fin 8), (s.dev.laser slot).present = false → ∃ t, exec (.laserAlarm slot m) s = .next t ∧
    t.hbm = s.hbm ∧ t.dev = s.dev) ∧
  (∀ (s : State) (slot : Fin 4) (m : Fin 8) (d : Dev), (s.dev.laser slot).present = true →
    d = s.dev.modLaser slot (fun x => { x with alarm := setBit x.alarm m true }) →
    m.val < lasersOf slot → (d.laser slot).dead.testBit m = false → ∃ t, exec (.laserAlarm slot m) s = .next t ∧ t.hbm = s.hbm ∧
    t.dev = ((d.laserDie slot m).pilotsOff slot m).slotFault slot) ∧
  (∀ (s : State) (slot : Fin 4) (m : Fin 8) (d : Dev), (s.dev.laser slot).present = true →
    d = s.dev.modLaser slot (fun x => { x with alarm := setBit x.alarm m true }) →
    (lasersOf slot ≤ m.val ∨ (d.laser slot).dead.testBit m = true) → ∃ t, exec (.laserAlarm slot m) s = .next t ∧ t.hbm = s.hbm ∧
    t.dev = d) ∧
  (∀ (s : State) (slot : Fin 4) (power : List Int) (temp : Int), (s.dev.laser slot).present = true → ∃ t,
    exec (.laserMonitorPoll slot power temp) s = .next t ∧ t.hbm = s.hbm ∧ (t.dev.laser slot).power = power ∧
    (t.dev.laser slot).temp = temp) ∧
  (∀ (s : State) (l : Fin 295) (k : Fin 8) (offset : Int) (powerOk : Bool) (c : Nat), l.val < 39 → c = s.dev.ctxOfLane l k →
    (32 ≤ l.val ∨ s.dev.isC = true) → s.dev.laneFed l k = true → (s.dev.lane c k).locked = true →
    (3000 < offset.natAbs ∨ powerOk = false) → ∃ t, exec (.synthSample l k offset powerOk) s = .next t ∧ t.hbm = s.hbm ∧
    t.dev = (s.dev.modLane c k (fun x => x.sample offset powerOk)).laneUnlocked c k) ∧
  (∀ (s : State) (l : Fin 295) (k : Fin 8) (offset : Int) (powerOk : Bool) (c : Nat), l.val < 39 → c = s.dev.ctxOfLane l k →
    (32 ≤ l.val ∨ s.dev.isC = true) → s.dev.laneFed l k = true → (s.dev.lane c k).locked = false → offset.natAbs ≤ 1000 →
    powerOk = true → 7 ≤ (s.dev.lane c k).okRun → ∃ t, exec (.synthSample l k offset powerOk) s = .next t ∧ t.hbm = s.hbm ∧
    t.dev = ((s.dev.modLane c k (fun x => x.sample offset powerOk)).laneLocked c k).serveLane c k) ∧
  (∀ (s : State) (l : Fin 295) (k : Fin 8) (offset : Int) (powerOk : Bool) (x : Nat), l.val = x + 39 → s.dev.podLit (x / 4) = true →
    (s.dev.probeAt x).tx.locked = true → (s.dev.probeAt x).tx.state = .active → (3000 < offset.natAbs ∨ powerOk = false) → ∃ t,
    exec (.synthSample l k offset powerOk) s = .next t ∧ t.hbm = s.hbm ∧
    t.dev = (s.dev.modTx x (fun y => y.sample offset powerOk)).modTx x (fun y => { y with state := .settling, leftAt := s.dev.now })) ∧
  (∀ (s : State) (l : Fin 295) (k : Fin 8) (offset : Int) (powerOk : Bool) (x : Nat), l.val = x + 39 → s.dev.podLit (x / 4) = true →
    (s.dev.probeAt x).tx.locked = false → (s.dev.probeAt x).tx.state ≠ .settling → (s.dev.probeAt x).tx.state ≠ .calibrating →
    offset.natAbs ≤ 1000 → powerOk = true → 7 ≤ (s.dev.probeAt x).tx.okRun → ∃ t,
    exec (.synthSample l k offset powerOk) s = .next t ∧ t.hbm = s.hbm ∧
    t.dev = ((s.dev.modTx x (fun y => y.sample offset powerOk)).modTx x (fun y => { y with state := .active })).serveTx x)

/-- Modulator calibration, lanes that settle, and what is transmitted: where MOD_CAL_DUE, MOD_CAL_DONE, SETTLE_WAIT, TRANSMIT_COMMAND,
BLOCK_HEADER complete, and what they leave (R214, R215, R217). Where a clause goes through a choice of the model, it is that of the log
entries 53, 83, 96, 97. -/
def Obligations.ModulatorCommands : Prop :=
  (∀ (s : State) (l : Fin 295) (k : Fin 8), l.val < 39 → (s.dev.lane (s.dev.ctxOfLane l k) k).state ≠ .active → ∃ t,
    exec (.modCalDue l k) s = .next t ∧ t.hbm = s.hbm ∧ t.dev = s.dev) ∧
  (∀ (s : State) (l : Fin 295) (k : Fin 8) (c : Nat) (d : Dev), l.val < 39 → c = s.dev.ctxOfLane l k → (s.dev.lane c k).state = .active →
    (s.dev.link l).lanes.any (fun e => e.2.state == .calibrating) = false →
    (s.dev.link (64 + l)).lanes.any (fun e => e.2.state == .calibrating) = false →
    d = s.dev.reach ((s.dev.lane c k).calAt + s.dev.nat 0x2A00 2 * Config.sec) → (decide (l.val < 32) && d.serviceZenithNear l) = false → ∃ t,
    exec (.modCalDue l k) s = .next t ∧ t.hbm = s.hbm ∧
    t.dev = (d.modLane c k (fun y => { y with state := .calibrating, leftAt := d.now })).laneGone c) ∧
  (∀ (s : State) (l : Fin 295) (k : Fin 8) (x : Nat) (d : Dev), l.val = x + 39 → (s.dev.probeAt x).tx.state = .active →
    (∀ p ∈ xcvrPorts x, (s.dev.port p).queue = []) →
    d = s.dev.reach ((s.dev.probeAt x).tx.calAt + s.dev.nat 0x2A00 2 * Config.sec) → ∃ t,
    exec (.modCalDue l k) s = .next t ∧ t.hbm = s.hbm ∧
    t.dev = d.modTx x (fun y => { y with state := .calibrating, leftAt := d.now })) ∧
  (∀ (s : State) (l : Fin 295) (k : Fin 8), l.val < 39 → (s.dev.lane (s.dev.ctxOfLane l k) k).state = .calibrating → ∃ t,
    exec (.modCalDone l k) s = .next t ∧ t.hbm = s.hbm ∧
    t.dev = (s.dev.modLane (s.dev.ctxOfLane l k) k (fun y => { y with state := .aligning, seen := 0, missed := 0, calAt := s.dev.now })).serveLane (s.dev.ctxOfLane l k) k) ∧
  (∀ (s : State) (l : Fin 295) (k : Fin 8) (x : Nat), l.val = x + 39 → (s.dev.probeAt x).tx.state = .calibrating → ∃ t,
    exec (.modCalDone l k) s = .next t ∧ t.hbm = s.hbm ∧
    t.dev = (s.dev.modTx x (fun y => { y with state := if y.locked then .active else .settling, calAt := s.dev.now })).serveTx x) ∧
  (∀ (s : State) (l : Fin 295) (k : Fin 8), l.val < 39 → ((s.dev.link (s.dev.ctxOfLane l k)).active.testBit k = false ∨
    (s.dev.lane (s.dev.ctxOfLane l k) k).state = .active) → ∃ t, exec (.settleWait l k) s = .next t ∧ t.hbm = s.hbm ∧ t.dev = s.dev) ∧
  (∀ (s : State) (l : Fin 295) (k : Fin 8) (d : Dev), l.val < 39 → (s.dev.link (s.dev.ctxOfLane l k)).active.testBit k = true →
    (s.dev.lane (s.dev.ctxOfLane l k) k).state = .settling →
    d = (s.dev.reach ((s.dev.lane (s.dev.ctxOfLane l k) k).leftAt + s.dev.nat 0x2A00 1 * Config.us)).dropLane (s.dev.ctxOfLane l k) k →
    (d.link (s.dev.ctxOfLane l k)).holding = true → s.dev.ctxOfLane l k ≠ 38 → ∃ t, exec (.settleWait l k) s = .next t ∧
    t.hbm = s.hbm ∧ t.dev = d) ∧
  (∀ (s : State) (l : Fin 295) (k : Fin 8) (x : Nat), l.val = x + 39 →
    ((s.dev.probeAt x).tx.state = .settling ∨ (s.dev.probeAt x).tx.state = .calibrating) → ∃ t, exec (.settleWait l k) s = .next t ∧
    t.hbm = s.hbm ∧
    t.dev = ((s.dev.reach ((s.dev.probeAt x).tx.leftAt + s.dev.nat 0x2A00 1 * Config.us)).modTx x (fun y => { y with state := .dropped, locked := false, okRun := 0 })).serveTx x) ∧
  (∀ (s : State) (l type cls dest : Nat) (payload : Bytes), l < 39 → isReservedChip dest = false → type ≠ 0 → cls < 3 → payload.length ≤ 9216 → ∃ t,
    exec (.transmitCommand (.frame l type cls dest payload)) s = .next t ∧ t.hbm = s.hbm ∧
    t.dev = s.dev.sendFrame (s.dev.ctxTo l dest) type cls dest payload) ∧
  (∀ (s : State) (l k type c : Nat) (payload : Bytes), l < 39 → k < lanesOf l → type ≠ 0 → payload.length ≤ 9216 → c = s.dev.ctxOfLane l k →
    (s.dev.lane c k).locked = true → ((s.dev.lane c k).state = .active ∨ (s.dev.lane c k).state = .aligning) → ∃ t,
    exec (.transmitCommand (.lane l k type payload)) s = .next t ∧ t.hbm = s.hbm ∧
    t.dev = s.dev.emit (.laneFrame l k (linkFrame type 0 0 s.dev.chip 0xFFFF payload))) ∧
  (∀ (s : State) (l k type c : Nat) (payload : Bytes), l < 39 → k < lanesOf l → type ≠ 0 → payload.length ≤ 9216 → c = s.dev.ctxOfLane l k →
    (s.dev.lane c k).locked = false → ∃ t, exec (.transmitCommand (.lane l k type payload)) s = .next t ∧ t.hbm = s.hbm ∧
    t.dev = (s.dev.modLane c k (fun y => { y with held := y.held ++ [(type, payload)] })).serveLane c k) ∧
  (∀ (s : State) (p type : Nat) (payload : Bytes), p < 1024 → (s.dev.txReady p = true ∨ s.dev.txHeld p = true) → ∃ t,
    exec (.transmitCommand (.probe p type payload)) s = .next t ∧ t.hbm = s.hbm ∧ t.dev = s.dev.queueProbe p type 0 payload) ∧
  (∀ (s : State) (p type : Nat) (payload : Bytes), p < 1024 → s.dev.txReady p = false → s.dev.txHeld p = false → ∃ t,
    exec (.transmitCommand (.probe p type payload)) s = .next t ∧ t.hbm = s.hbm ∧
    t.dev = (s.dev.notLocked p).undelivered p type) ∧
  (∀ (s : State) (l : Fin 39) (k : Fin 8) (sync active rxAligned first : Nat) (hcrcOk : Bool) (c : Nat), c = s.dev.ctxOfLane l k →
    s.dev.isOn (domainOf l) = true → s.dev.linkEnabled c = true → k.val < lanesOf l → (s.dev.link c).rxMask = 0 →
    (sync == 0x5AC3 && hcrcOk) = false → ∃ t, exec (.blockHeader l k ⟨sync, first⟩ active rxAligned hcrcOk) s = .next t ∧ t.hbm = s.hbm ∧
    t.dev = (s.dev.bump (linkObj l) 8).modLane c k (fun x => x.header false)) ∧
  (∀ (s : State) (l : Fin 39) (k : Fin 8) (active rxAligned first c : Nat) (d : Dev), c = s.dev.ctxOfLane l k →
    s.dev.isOn (domainOf l) = true → s.dev.linkEnabled c = true → k.val < lanesOf l → d = s.dev.modLane c k (fun x => x.header true) →
    (d.link c).rxMask = (s.dev.link c).rxMask → (bitsOf 8 (d.link c).rxMask).head? = some k.val → ∃ t,
    exec (.blockHeader l k ⟨0x5AC3, first⟩ active rxAligned true) s = .next t ∧ t.hbm = s.hbm ∧
    t.dev = (upto (lanesOf l)).foldl (fun d i => d.judgeLane c rxAligned i) (d.modLink c (fun x => { x with rxActive := active, resync := x.resync && first == 0xFFFF }))) ∧
  (∀ (s : State) (l : Fin 39) (k : Fin 8) (active rxAligned first c : Nat) (d : Dev), c = s.dev.ctxOfLane l k →
    s.dev.isOn (domainOf l) = true → s.dev.linkEnabled c = true → k.val < lanesOf l → d = s.dev.modLane c k (fun x => x.header true) →
    (d.link c).rxMask = (s.dev.link c).rxMask → (bitsOf 8 (d.link c).rxMask).head? ≠ some k.val → ∃ t,
    exec (.blockHeader l k ⟨0x5AC3, first⟩ active rxAligned true) s = .next t ∧ t.hbm = s.hbm ∧ t.dev = d)

/-- Link frames, acknowledgements and training: where LINK_FRAME, LINK_ACK, RETRY_TIMEOUT, LINK_TRAIN, LINK_TRAIN_INTERVAL, TRAINING_RETRY
complete, and what they leave (R218, R219, R220, R221, R222, R225). Where a clause goes through a choice of the model, it is that of the
log entries 53, 54, 83, 97. -/
def Obligations.LinkFrames : Prop :=
  (∀ (s : State) (l : Fin 39) (type cls seq dest : Nat) (source : FrameFrom) (payload : Bytes) (hcrcOk crcOk : Bool),
    (s.dev.link (s.dev.ctxOfLane l source.lane)).resync = true → ∃ t,
    exec (.linkFrame l type cls seq source dest payload hcrcOk crcOk) s = .next t ∧ t.hbm = s.hbm ∧ t.dev = s.dev) ∧
  (∀ (s : State) (l : Fin 39) (type cls seq dest : Nat) (source : FrameFrom) (payload : Bytes) (crcOk : Bool) (c : Nat), c = s.dev.ctxOfLane l source.lane →
    (s.dev.link c).rxMask ≠ 0 → (s.dev.link c).resync = false → ∃ t,
    exec (.linkFrame l type cls seq source dest payload false crcOk) s = .next t ∧ t.hbm = s.hbm ∧
    t.dev = (s.dev.bump (linkObj l) 8).modLink c (fun x => { x with resync := true })) ∧
  (∀ (s : State) (l : Fin 39) (type cls seq dest : Nat) (source : FrameFrom) (payload : Bytes) (c : Nat), c = s.dev.ctxOfLane l source.lane →
    (s.dev.link c).rxMask ≠ 0 → (s.dev.link c).resync = false → ∃ t,
    exec (.linkFrame l type cls seq source dest payload true false) s = .next t ∧ t.hbm = s.hbm ∧ t.dev = s.dev.bump (linkObj l) 8) ∧
  (∀ (s : State) (l : Fin 39) (type cls seq dest : Nat) (source : FrameFrom) (payload : Bytes) (os : List Output) (c : Nat),
    c = s.dev.ctxOfLane l source.lane → (s.dev.link c).context.isSome = true → (s.dev.link c).rxMask ≠ 0 → (s.dev.link c).resync = false →
    frameClass l type = some cls → outwards type = false →
    os = (if isReservedChip dest then [] else [.delivered l type cls source.chip dest payload source.poison]) →
    ∃ t, exec (.linkFrame l type cls seq source dest payload true true) s = .next t ∧ t.hbm = s.hbm ∧
    t.dev = (if cls = 0 then s.dev.emits os else s.dev.sequenced c cls seq os)) ∧
  (∀ (s : State) (l : Fin 39) (ack1 ack2 : Nat) (nak : AckFrom) (c : Nat) (d : Dev), c = s.dev.ctxOfLane l nak.lane →
    (s.dev.link c).context.isSome = true → nak.nak.testBit 0 = false → nak.nak.testBit 1 = false →
    d = (s.dev.modLink c (fun y => { y with unacked1 := y.unacked1.drop (ackedCount (s.dev.link c).unacked1 ack1), unacked2 := y.unacked2.drop (ackedCount (s.dev.link c).unacked2 ack2), progressAt := if 0 < ackedCount (s.dev.link c).unacked1 ack1 || 0 < ackedCount (s.dev.link c).unacked2 ack2 then s.dev.now else y.progressAt })).drainFrames c →
    ∃ t, exec (.linkAck l ack1 ack2 nak) s = .next t ∧ t.hbm = s.hbm ∧ t.dev = (if c < 32 then d.drainSvc c else d)) ∧
  (∀ (s : State) (l : Fin 39), (s.dev.link l).isUp = true → (s.dev.link l).unacked1.isEmpty = false → (s.dev.link (64 + l)).isUp = false → ∃ t,
    exec (.retryTimeout l) s = .next t ∧ t.hbm = s.hbm ∧
    t.dev = ((s.dev.reach ((s.dev.link l).progressAt + 20 * Config.us)).resend l 1).resend l 2) ∧
  (∀ (s : State) (l : Fin 39) (x : Train) (c : Nat), c = s.dev.ctxOfLane l x.lane →
    s.dev.isOn (domainOf l) = true → s.dev.linkEnabled c = true → (s.dev.link c).rxMask ≠ 0 →
    x.cls = (if l.val < 32 then 1 else if l.val < 38 then 2 else 3) → ∃ t, exec (.linkTrain l x) s = .next t ∧
    (t.dev, t.hbm) = trainReceived (s.dev, s.hbm) c x) ∧
  (∀ (s : State) (l : Fin 39) (x : Train) (c : Nat), c = s.dev.ctxOfLane l x.lane →
    s.dev.isOn (domainOf l) = true → s.dev.linkEnabled c = true → (s.dev.link c).rxMask ≠ 0 →
    x.cls ≠ (if l.val < 32 then 1 else if l.val < 38 then 2 else 3) → ∃ t, exec (.linkTrain l x) s = .next t ∧ t.hbm = s.hbm ∧
    t.dev = s.dev.bump (linkObj l) 0x0A) ∧
  (∀ (s : State) (l : Fin 39), s.dev.opt.links.any (fun e => e.1 = 64 + l.val) = false → s.dev.isOn (domainOf l) = true →
    s.dev.linkEnabled l = true → (s.dev.link l).isUp = false → (s.dev.link l).active ≠ 0 →
    (s.dev.sendTrain l).opt.links.any (fun e => e.1 = 64 + l.val) = false → ∃ t, exec (.linkTrainInterval l) s = .next t ∧
    t.hbm = s.hbm ∧ t.dev = s.dev.sendTrain l) ∧
  (∀ (s : State) (l : Fin 39), s.dev.isOn (domainOf l) = true → s.dev.linkEnabled l = true → (s.dev.link l).isUp = false →
    (s.dev.link l).trainId ≠ 0 → (s.dev.link (64 + l)).trainId = 0 → ∃ t, exec (.trainingRetry l) s = .next t ∧ t.hbm = s.hbm ∧
    t.dev = (s.dev.reach ((s.dev.link l).trainStart + 100 * Config.ms)).newAttempt l)

/-- Probe transceivers: where PROBE_LIGHT_FLAG, PROBE_DWELL_END, REPLY_WINDOW_END, PROBE_RETRY complete, and what they leave (R215, R228,
R237, R247, R251). Where a clause goes through a choice of the model, it is that of the log entries 52, 76, 98. -/
def Obligations.ProbeCommands : Prop :=
  (∀ (s : State) (p : Fin 1024), s.dev.isOn 10 = true → (s.dev.port p).light = false → (s.dev.port p).state ≠ .absent →
    (s.dev.modPort p (fun y => { y with light := true, lightSince := s.dev.now, everLight := true, helloSent := false })).xcvrIdle (xcvrOf p) = true →
    ∃ t, exec (.probeLightFlag p true) s = .next t ∧ t.hbm = s.hbm ∧
    t.dev = (s.dev.modPort p (fun y => { y with light := true, lightSince := s.dev.now, everLight := true, helloSent := false })).attach p) ∧
  (∀ (s : State) (p : Fin 1024), s.dev.isOn 10 = true → (s.dev.port p).light = true → ∃ t,
    exec (.probeLightFlag p false) s = .next t ∧ t.hbm = s.hbm ∧
    t.dev = s.dev.modPort p (fun y => { y with light := false, lightSince := s.dev.now, everLight := y.everLight })) ∧
  (∀ (s : State) (x : Fin 256) (cur p : Nat), (s.dev.probeAt x).port = some cur → s.dev.nextPort x = some p →
    (s.dev.port cur).awaiting = none → ∃ t, exec (.probeDwellEnd x) s = .next t ∧ t.hbm = s.hbm ∧
    t.dev = ((s.dev.reach ((s.dev.probeAt x).since + 200 * Config.us)).attach p).servePort p) ∧
  (∀ (s : State) (x : Fin 256) (p : Nat), (s.dev.probeAt x).port = none → s.dev.nextPort x = some p → ∃ t,
    exec (.probeDwellEnd x) s = .next t ∧ t.hbm = s.hbm ∧ t.dev = (s.dev.attach p).servePort p) ∧
  (∀ (s : State) (p : Fin 1024) (n at_ : Nat), (s.dev.port p).awaiting = some (5, n, at_) → ∃ t,
    exec (.replyWindowEnd p) s = .next t ∧ t.hbm = s.hbm ∧
    t.dev = (((s.dev.reach (at_ + 60 * Config.us)).modPort p Port.lapse).miss p).servePort p) ∧
  (∀ (s : State) (p : Fin 1024) (n at_ ty : Nat), (s.dev.port p).awaiting = some (ty, n, at_) → ty ≠ 5 → ty ≠ 1 → ∃ t,
    exec (.replyWindowEnd p) s = .next t ∧ t.hbm = s.hbm ∧
    t.dev = ((s.dev.reach (at_ + 60 * Config.us)).modPort p Port.lapse).servePort p) ∧
  (∀ (s : State) (p : Fin 1024), (s.dev.port p).queue.isEmpty = false → ∃ t, exec (.probeRetry p) s = .next t ∧ t.hbm = s.hbm ∧
    t.dev = (s.dev.reach (s.dev.now + 100 * Config.us)).servePort p)

/-- Mapen frames of a partner: where MAPEN_HELLO, IDENT, MAPEN_ACK, MAPEN_NAK, MAPEN_KEEPALIVE, MAPEN_GOODBYE, MAPEN_CRC_ERROR,
PROTOCOL_VIOLATION complete, and what they leave (R25, R203, R234, R238, R241, R247, R249, R251, R252, R253). Where a clause goes through a
choice of the model, it is that of the log entries 52, 76, 98, 99, 101. -/
def Obligations.MapenFrames : Prop :=
  (∀ (s : State) (p : Fin 1024) (f : Mapen) (twin profileMax attempt nonce : Nat), s.dev.Opens p 1 f → f.echo = 0xFFFF →
    (s.dev.heard p).watchOf p = none → (s.dev.heard p).tooSoon p = false → (twin = 0xFF ∧ profileMax ≠ 0 ∧ attempt ≤ 8 ∧
    nonce < 2 ^ 32) → ∃ t, exec (.mapenHello p f twin profileMax attempt nonce) s = .next t ∧ t.hbm = s.hbm ∧
    t.dev = ((s.dev.heard p).noteUnsolicited p).attachRequest p) ∧
  (∀ (s : State) (p : Fin 1024) (f : Mapen) (i : Ident), s.dev.Opens p 2 f →
    (((s.dev.heard p).port p).answers f 1 && (((s.dev.heard p).port p).state == .probing || ((s.dev.heard p).port p).state == .absent || (((s.dev.heard p).port p).state == .identified && ((s.dev.heard p).port p).reident))) = true →
    some i.nonce = ((s.dev.heard p).port p).nonce →
    ((s.dev.heard p).modPort p (fun y => { y with awaiting := none })).identRefusal p i = 0 → ∃ t, exec (.ident p f i) s = .next t ∧
    t.hbm = s.hbm ∧ t.dev = ((s.dev.heard p).modPort p (fun y => { y with awaiting := none })).acceptIdent p f i) ∧
  (∀ (s : State) (p : Fin 1024) (f : Mapen) (acked : Nat), s.dev.Opens p 3 f → ((s.dev.heard p).port p).answers f acked = true →
    (acked = 7 ∨ acked = 8 ∨ acked = 9) → ∃ t, exec (.mapenAck p f acked) s = .next t ∧ t.hbm = s.hbm ∧
    t.dev = ((s.dev.heard p).modPort p (fun y => { y with awaiting := none, repeats := y.repeats.filter (fun r => r.seq != f.echo) })).servePort p) ∧
  (∀ (s : State) (p : Fin 1024) (f : Mapen) (naked code detail : Nat), s.dev.Opens p 4 f →
    (((s.dev.heard p).port p).awaiting.map (·.2.1) == some f.echo) = true → 1 ≤ naked → naked ≤ 9 → nakListed code = true → ∃ t, exec (.mapenNak p f naked code detail) s = .next t ∧ t.hbm = s.hbm ∧
    t.dev = ((s.dev.heard p).bump 0x2B01 5).info 0x0607 2 p (le 1 naked ++ le 1 code ++ le 4 detail)) ∧
  (∀ (s : State) (p : Fin 1024) (f : Mapen) (naked code detail : Nat), s.dev.Opens p 4 f →
    (((s.dev.heard p).port p).awaiting.map (·.2.1) == some f.echo) = true → (naked = 0 ∨ 9 < naked ∨ nakListed code = false) → ∃ t, exec (.mapenNak p f naked code detail) s = .next t ∧ t.hbm = s.hbm ∧
    t.dev = (s.dev.heard p).violation p 4 f.seq 4) ∧
  (∀ (s : State) (p : Fin 1024) (f : Mapen) (defSeq status : Nat), s.dev.Opens p 5 f → ((s.dev.heard p).port p).answers f 5 = true →
    (status ≤ 1 ∧ defSeq < 2 ^ 32) → ∃ t, exec (.mapenKeepalive p f defSeq status) s = .next t ∧ t.hbm = s.hbm ∧
    t.dev = ((s.dev.heard p).modPort p (fun x => { x with misses := 0 })).closeWindow p) ∧
  (∀ (s : State) (p : Fin 1024) (f : Mapen) (cause : Nat), s.dev.Opens p 9 f → f.echo = 0xFFFF → (s.dev.heard p).tooSoon p = false → (1 ≤ cause ∧
    cause ≤ 5) → ((((s.dev.heard p).noteUnsolicited p).answer p 9 f 3 [9, 0, 0, 0]).port p).state = .identified → ∃ t,
    exec (.mapenGoodbye p f cause) s = .next t ∧ t.hbm = s.hbm ∧
    t.dev = ((((s.dev.heard p).noteUnsolicited p).answer p 9 f 3 [9, 0, 0, 0]).detach p 3).enterAbsent p (some 3)) ∧
  (∀ (s : State) (p : Fin 1024) (f : Mapen) (twin profileMax attempt nonce : Nat), s.dev.Opens p 1 f → f.echo ≠ 0xFFFF →
    (s.dev.heard p).watchOf p = none → ∃ t, exec (.mapenHello p f twin profileMax attempt nonce) s = .next t ∧ t.hbm = s.hbm ∧
    t.dev = (s.dev.heard p).violation p 1 f.seq 7) ∧
  (∀ (s : State) (p : Fin 1024) (f : Mapen) (naked code detail : Nat), s.dev.Opens p 4 f →
    (((s.dev.heard p).port p).awaiting.map (·.2.1) == some f.echo) = false → ∃ t, exec (.mapenNak p f naked code detail) s = .next t ∧
    t.hbm = s.hbm ∧ t.dev = (s.dev.heard p).violation p 4 f.seq 7) ∧
  (∀ (s : State) (p : Fin 1024) (f : Mapen) (cause : Nat), s.dev.Opens p 9 f → f.echo ≠ 0xFFFF → ∃ t,
    exec (.mapenGoodbye p f cause) s = .next t ∧ t.hbm = s.hbm ∧ t.dev = (s.dev.heard p).violation p 9 f.seq 7) ∧
  (∀ (s : State) (p : Fin 1024), s.dev.hears p = true →
    (s.dev.crcRecent p).length ≠ 63 → ∃ t, exec (.mapenCrcError p) s = .next t ∧ t.hbm = s.hbm ∧
    t.dev = (s.dev.bump (0x4000 + p) 0x14).modPort p (fun x => { x with crcTimes := s.dev.crcRecent p ++ [s.dev.now] })) ∧
  (∀ (s : State) (p : Fin 1024), s.dev.hears p = true →
    (s.dev.crcRecent p).length = 63 → ∃ t, exec (.mapenCrcError p) s = .next t ∧ t.hbm = s.hbm ∧
    t.dev = ((s.dev.bump (0x4000 + p) 0x14).modPort p (fun x => { x with crcTimes := s.dev.crcRecent p ++ [s.dev.now] })).raise 0x0603 1 2 p true) ∧
  (∀ (s : State) (p : Fin 1024) (f : Mapen) (type version length : Nat), s.dev.hears p = true → f.poison = false → type = 0 ∨ 9 < type →
    (s.dev.port p).answerOf type f = none → ((s.dev.bump (0x2A40 + podOf p) 3).port p).state ≠ .quarantined → ∃ t,
    exec (.protocolViolation p f type version length) s = .next t ∧ t.hbm = s.hbm ∧ t.dev = (s.dev.heard p).violation p type f.seq 1)

/-- Timers of a port's handshake: where HELLO_INTERVAL, ATTEMPT_END, BACKOFF_END, SLOW_PROBE, DETACH_TIME, KEEPALIVE_INTERVAL,
QUARANTINE_END, MAPEN_REPEAT complete, and what they leave (R238, R248, R251, R253). Where a clause goes through a choice of the model, it
is that of the log entries 52, 98. -/
def Obligations.MapenTimers : Prop :=
  (∀ (s : State) (p : Fin 1024), s.dev.podLit (podOf p) = false → ∃ t, exec (.helloInterval p) s = .next t ∧ t.hbm = s.hbm ∧
    t.dev = s.dev) ∧
  (∀ (s : State) (p : Fin 1024) (n : Nat), s.dev.podLit (podOf p) = true → (s.dev.port p).state = .probing →
    (s.dev.port p).backoff = false →
    n = (s.dev.port p).attemptAt + ((s.dev.now - (s.dev.port p).attemptAt) / (s.dev.nat 0x2B00 1 * Config.ms) + 1) * (s.dev.nat 0x2B00 1 * Config.ms) →
    n < (s.dev.port p).attemptAt + s.dev.nat 0x2B00 2 * Config.ms → ∃ t, exec (.helloInterval p) s = .next t ∧ t.hbm = s.hbm ∧
    t.dev = (s.dev.reach n).sendHello p (s.dev.port p).attempt) ∧
  (∀ (s : State) (p : Fin 1024), s.dev.podLit (podOf p) = true → (s.dev.port p).state = .probing → (s.dev.port p).backoff = false →
    (s.dev.reach ((s.dev.port p).attemptAt + s.dev.nat 0x2B00 2 * Config.ms)).nat 0x2B00 3 ≤ (s.dev.port p).attempt → ∃ t,
    exec (.attemptEnd p) s = .next t ∧ t.hbm = s.hbm ∧
    t.dev = (s.dev.reach ((s.dev.port p).attemptAt + s.dev.nat 0x2B00 2 * Config.ms)).enterAbsent p none) ∧
  (∀ (s : State) (p : Fin 1024), s.dev.podLit (podOf p) = true → (s.dev.port p).state = .probing → (s.dev.port p).backoff = false →
    (s.dev.port p).attempt < (s.dev.reach ((s.dev.port p).attemptAt + s.dev.nat 0x2B00 2 * Config.ms)).nat 0x2B00 3 → ∃ t,
    exec (.attemptEnd p) s = .next t ∧ t.hbm = s.hbm ∧
    t.dev = (s.dev.reach ((s.dev.port p).attemptAt + s.dev.nat 0x2B00 2 * Config.ms)).modPort p (fun y => { y.lapse with state := .probing, backoff := true, phaseAt := (s.dev.reach ((s.dev.port p).attemptAt + s.dev.nat 0x2B00 2 * Config.ms)).now, training := none })) ∧
  (∀ (s : State) (p : Fin 1024), (s.dev.port p).state = .probing → (s.dev.port p).backoff = true → s.dev.podLit (podOf p) = true →
    ∃ t, exec (.backoffEnd p) s = .next t ∧ t.hbm = s.hbm ∧
    t.dev = (s.dev.reach ((s.dev.port p).phaseAt + s.dev.nat 0x2B00 4 * Config.ms * 2 ^ ((s.dev.port p).attempt - 1))).startAttempt p ((s.dev.port p).attempt + 1)) ∧
  (∀ (s : State) (p : Fin 1024), (s.dev.port p).state = .absent → s.dev.podLit (podOf p) = true → ∃ t,
    exec (.slowProbe p) s = .next t ∧ t.hbm = s.hbm ∧
    t.dev = (((s.dev.reach ((s.dev.port p).phaseAt + ((s.dev.now - (s.dev.port p).phaseAt) / (s.dev.nat 0x2B00 5 * Config.ms) + 1) * (s.dev.nat 0x2B00 5 * Config.ms))).freshNonce p).modPort p (fun y => { y with answered := [] })).sendHello p 0) ∧
  (∀ (s : State) (p : Fin 1024), (s.dev.port p).light = false → (s.dev.port p).everLight = true → (s.dev.port p).state = .identified →
    ∃ t, exec (.detachTime p) s = .next t ∧ t.hbm = s.hbm ∧
    t.dev = ((s.dev.reach ((s.dev.port p).lightSince + s.dev.nat 0x2B00 6 * Config.ms)).detach p 1).enterAbsent p (some 1)) ∧
  (∀ (s : State) (p : Fin 1024), (s.dev.port p).light = false → (s.dev.port p).everLight = true → (s.dev.port p).state = .probing ∨
    (s.dev.port p).state = .training → ∃ t, exec (.detachTime p) s = .next t ∧ t.hbm = s.hbm ∧
    t.dev = (s.dev.reach ((s.dev.port p).lightSince + s.dev.nat 0x2B00 6 * Config.ms)).enterAbsent p (some 1)) ∧
  (∀ (s : State) (p : Fin 1024) (d : Dev), (s.dev.port p).state = .identified → s.dev.podLit (podOf p) = true →
    d = ((s.dev.reach ((s.dev.port p).lastKeepalive + s.dev.nat 0x2B00 7 * Config.ms)).modPort p (fun y => { y with lastKeepalive := (s.dev.reach ((s.dev.port p).lastKeepalive + s.dev.nat 0x2B00 7 * Config.ms)).now })).muteCheck p →
    (d.port p).state = .identified → ∃ t, exec (.keepaliveInterval p) s = .next t ∧ t.hbm = s.hbm ∧
    t.dev = d.queueProbe p 5 0xFFFF (le 4 d.time.inForce.seq ++ le 1 (b2n ((d.forceAt p).any (fun c => c.state != .live))) ++ le 1 (d.ownerTag p).1 ++ [0, 0])) ∧
  (∀ (s : State) (p : Fin 1024), (s.dev.port p).state = .quarantined → ∃ t, exec (.quarantineEnd p) s = .next t ∧ t.hbm = s.hbm ∧
    t.dev = (((s.dev.reach ((s.dev.port p).phaseAt + s.dev.nat 0x2B00 0x0B * Config.sec)).modPort p (fun y => { y with violations := [] })).startAttempt p 1).settle) ∧
  (∀ (s : State) (p : Fin 1024) (r : Repeat), (s.dev.port p).repeats = [r] → r.sends < 5 → ∃ t, exec (.mapenRepeat p) s = .next t ∧
    t.hbm = s.hbm ∧
    t.dev = ((s.dev.reach (r.lastAt + 2 * Config.ms)).modPort p (fun x => { x with repeats := x.repeats.map (fun y => if y.seq = r.seq then { y with sends := y.sends + 1, lastAt := (s.dev.reach (r.lastAt + 2 * Config.ms)).now } else y) })).queueProbe p r.type 0xFFFF r.payload (some r.seq)) ∧
  (∀ (s : State) (p : Fin 1024) (r : Repeat), (s.dev.port p).repeats = [r] → 5 ≤ r.sends → ∃ t, exec (.mapenRepeat p) s = .next t ∧
    t.hbm = s.hbm ∧
    t.dev = (((s.dev.reach (r.lastAt + 2 * Config.ms)).modPort p (fun x => { x with repeats := x.repeats.filter (fun y => y.seq != r.seq) })).undelivered p r.type).miss p)

/-- Discovery of neighbours and of the twin: where DISC_HELLO, DISC_STATE, DISC_CONFLICT, DISC_HELLO_INTERVAL, DISC_STATE_INTERVAL,
DISC_ENTRY_EXPIRY, DISC_HELLO_ABSENT complete, and what they leave (R255, R256, R257, R345, R453). Where a clause goes through a choice of
the model, it is that of the log entries 55, 100. -/
def Obligations.DiscoveryCommands : Prop :=
  (∀ (s : State) (i : Fin 7) (x : DiscHello), (s.dev.link (neighbourLink i)).isUp = true → helloListed x = true → i.val ≠ 6 → ∃ t,
    exec (.discHello i x) s = .next t ∧ t.hbm = s.hbm ∧ t.dev = s.dev.peerHello i x) ∧
  (∀ (s : State) (i : Fin 7) (x : DiscHello), (s.dev.link (neighbourLink i)).isUp = true → helloListed x = true → i.val = 6 → ∃ t,
    exec (.discHello i x) s = .next t ∧ (t.dev, t.hbm) = twinHello (s.dev, s.hbm) x) ∧
  (∀ (s : State) (i : Fin 7) (x : DiscState), s.dev.discOpen i = true → (s.dev.link (neighbourLink i)).isUp = true → x.twin < 2 → x.state < 9 → ∃ t,
    exec (.discState i x) s = .next t ∧ t.hbm = s.hbm ∧ t.dev = s.dev.takeDiscState i x) ∧
  (∀ (s : State) (i : Fin 7) (kind port seen expected : Nat), (s.dev.link (neighbourLink i)).isUp = true → 1 ≤ kind →
    (kind ≤ 3 ∨ kind = 4 ∧ (i.val ≠ 6 ∨ (s.dev.bump 0x2B12 1).disc.twinJoin ≠ 1)) → ∃ t, exec (.discConflict i kind port seen expected) s = .next t ∧ t.hbm = s.hbm ∧ t.dev = s.dev.bump 0x2B12 1) ∧
  (∀ (s : State) (i : Fin 7) (kind port seen expected : Nat), (s.dev.link (neighbourLink i)).isUp = true → kind = 4 → i.val = 6 →
    (s.dev.bump 0x2B12 1).disc.twinJoin = 1 → ∃ t, exec (.discConflict i kind port seen expected) s = .next t ∧ t.hbm = s.hbm ∧
    t.dev = ((({ s.dev.bump 0x2B12 1 with disc := { (s.dev.bump 0x2B12 1).disc with twinJoin := 0 } } : Dev)).setNum 0x2500 7 0).twinGone) ∧
  (∀ s : State, s.dev.isOn 3 = true → ∃ t, exec .discHelloInterval s = .next t ∧ t.hbm = s.hbm ∧ t.dev = s.dev.sendDiscHellos) ∧
  (∀ s : State, s.dev.isOn 3 = true → ∃ t, exec .discStateInterval s = .next t ∧ t.hbm = s.hbm ∧ t.dev = s.dev.sendDiscState) ∧
  (∀ (s : State) (chip : Nat) (twin : Fin 2) (e : DiscEntry),
    s.dev.disc.entries.find? (fun e => e.chip == chip && e.twin == twin.val) = some e → ∃ t,
    exec (.discEntryExpiry chip twin) s = .next t ∧ t.hbm = s.hbm ∧
    t.dev = (({ s.dev.reach (e.at_ + 200 * Config.ms) with disc := { s.dev.disc with entries := s.dev.disc.entries.filter (· != e) } } : Dev)).updateConfirmed) ∧
  (∀ (s : State) (i : Fin 7), (s.dev.neighbour i).status ≠ .down → ∃ t, exec (.discHelloAbsent i) s = .next t ∧ t.hbm = s.hbm ∧
    t.dev = (s.dev.reach ((s.dev.neighbour i).helloAt + 200 * Config.ms)).detachPeer i) ∧
  (∀ (s : State) (i : Fin 7) (x : DiscHello), (s.dev.link (neighbourLink i)).isUp = true → helloListed x = false → ∃ t,
    exec (.discHello i x) s = .next t ∧ t.hbm = s.hbm ∧ t.dev = s.dev.linkViolation (neighbourLink i)) ∧
  (∀ (s : State) (i : Fin 7) (x : DiscState), s.dev.discOpen i = true → (s.dev.link (neighbourLink i)).isUp = true → (2 ≤ x.twin ∨ 9 ≤ x.state) → ∃ t,
    exec (.discState i x) s = .next t ∧ t.hbm = s.hbm ∧ t.dev = s.dev.linkViolation (neighbourLink i)) ∧
  (∀ (s : State) (i : Fin 7) (kind port seen expected : Nat), (s.dev.link (neighbourLink i)).isUp = true → (kind = 0 ∨ 4 < kind) → ∃ t,
    exec (.discConflict i kind port seen expected) s = .next t ∧ t.hbm = s.hbm ∧ t.dev = s.dev.linkViolation (neighbourLink i))

/-- Service frames and the collective engine's step: where GRAD_IN, MASTER_IN, ACT_PUSH, WEIGHT_IN, PARTIAL_FORMED, PARTIAL_REPEAT,
NORM_PARTIAL, NORM_TIMEOUT, CLIP, NORM_RESTART, UPDATE_COMPLETE, FETCH_REQ, FETCH_DATA complete, and what they leave (R271, R273, R274,
R275, R276, R277, R279, R280, R284, R287). Where a clause goes through a choice of the model, it is that of the log entries 35, 36, 102,
105. -/
def Obligations.EngineCommands : Prop :=
  (∀ (s : State) (n : Fin 32) (h : SvcHdr) (data : Bytes) (j : Nat) (b : Bytes) (start : Nat), s.dev.Serves n h j →
    b = (s.dev.counted n h).plan j → start = h.addr * gradSize b →
    (∀ c ∈ [(((s.dev.counted n h).engJob j).state != .active, 7), (h.format != planGrad b || h.scale != 0, 4), (h.token != ((s.dev.counted n h).engJob j).es % 2 ^ 32 || h.gen != ((s.dev.counted n h).engJob j).gen, 3), (granuleBad (gradBytes b) start data.length, 2), (decide (gradBytes b < start + data.length) || outsideSegment b n h.addr (min (planN b) (h.addr + data.length / gradSize b)), 1)],
    c.1 = false) → ∃ t, exec (.gradIn n h data) s = .next t ∧
    (t.dev, t.hbm) = takeGranules (s.dev.counted n h, s.hbm) j (h.flags % 2 = 1) (start / 4096) (chunks 4096 data.length data)) ∧
  (∀ (s : State) (n : Fin 32) (h : SvcHdr) (data : Bytes) (j : Nat) (b : Bytes), s.dev.Serves n h j → b = (s.dev.counted n h).plan j →
    (∀ c ∈ [(((s.dev.counted n h).engJob j).state != .loading, 7), (h.format != 3 || h.scale != 0, 4), (h.token != 0 || h.gen != 0, 3), (granuleBad (ceilTo 64 (4 * planN b)) (h.addr * 4) data.length, 2), (decide (ceilTo 64 (4 * planN b) < h.addr * 4 + data.length), 1)],
    c.1 = false) → ∃ t, exec (.masterIn n h data) s = .next t ∧
    t.hbm = (writeMasters (s.dev.counted n h, s.hbm) b h.addr data (h.flags % 2 = 1)).2 ∧
    t.dev = (writeMasters (s.dev.counted n h, s.hbm) b h.addr data (h.flags % 2 = 1)).1.modEngJob j (fun x => { x with loaded := (upto ((data.length + 4095) / 4096)).foldl (fun l k => sinsert l (h.addr * 4 / 4096 + k)) x.loaded })) ∧
  (∀ (s : State) (n : Fin 32) (h : SvcHdr) (data : Bytes) (j : Nat) (a w : Mach), s.dev.Serves n h j →
    (∀ c ∈ [(((s.dev.counted n h).engJob j).state != .active, 7), (h.format != 0 || h.scale != 0, 4), (h.token != ((s.dev.counted n h).engJob j).stepNow % 2 ^ 32, 3), (data.length % 64 != 0 || h.addr % 2 ^ 48 % 64 != 0 || data.isEmpty || decide (8192 < data.length), 2), (h.addr / 2 ^ 48 != (s.dev.counted n h).chip || h.addr % 2 ^ 48 < (planRegion ((s.dev.counted n h).plan j) 7).1 || decide ((planRegion ((s.dev.counted n h).plan j) 7).1 + (planRegion ((s.dev.counted n h).plan j) 7).2 < h.addr % 2 ^ 48 + data.length) || decide (3839 < h.group), 1)],
    c.1 = false) →
    a = freeExtents (s.dev.counted n h, s.hbm) j (fun e => e.group == h.group && e.token != h.token) → (a.1.engJob j).extents = [] →
    w = writeBytes (a.1.modEngJob j (fun y => { y with staged := (y.staged.filter (fun s => !(s.group == h.group && s.token != h.token))).map (fun s => { s with frames := s.frames.filter (fun f => !(s.group == h.group && f.1 == h.addr % 2 ^ 48)) }) }), a.2) (h.addr % 2 ^ 48) data (h.flags % 2 = 1) →
    ∃ t, exec (.actPush n h data) s = .next t ∧ t.hbm = w.2 ∧
    t.dev = w.1.modEngJob j (fun x => { x with extents := [{ addr := h.addr % 2 ^ 48, len := data.length, group := h.group, token := h.token, chip := match w.1.svcLink n with | some l => (w.1.link l).partnerChip | none => 0xFFFF }] })) ∧
  (∀ (s : State) (n : Fin 32) (h : SvcHdr) (data : Bytes) (j : Nat), s.dev.Serves n h j →
    (∀ c ∈ [(decide (63 < h.group), 1), (((s.dev.counted n h).model h.group).state != .filling, 7), (h.format != 0 || h.scale != 0, 4), (h.token != 0 || h.gen != 0, 3), (data.length % 64 != 0 || h.addr % 64 != 0 || data.isEmpty || decide (8192 < data.length), 2), (decide (((s.dev.counted n h).model h.group).len < h.addr + data.length), 1)],
    c.1 = false) → ∃ t, exec (.weightIn n h data) s = .next t ∧
    (t.dev, t.hbm) = modelWrite (s.dev.counted n h, s.hbm) h.group h.addr data (h.flags % 2 = 1)) ∧
  (∀ (s : State) (j : Fin 16), s.dev.engineUp = true → (s.dev.engJob j).state = .active → (s.dev.engJob j).partial_ = none →
    gradGranules (s.dev.plan j) ≤ (s.dev.engJob j).covered.length → ∃ t, exec (.partialFormed j) s = .next t ∧
    (t.dev, t.hbm) = (let total := f64.mul ((s.dev.engJob j).sums.foldl (fun acc e => f64.add acc e.2) 0) (f64.mul (f32.to f64 (planReal (s.dev.plan j) 1)) (f32.to f64 (planReal (s.dev.plan j) 1))); sendPartial (s.dev.modEngJob j (fun y => { y with partial_ := some (total, b2n (!(s.dev.engJob j).poisoned.isEmpty) + 2 * b2n (f64.decode total).nonFinite) }), s.hbm) j)) ∧
  (∀ (s : State) (j : Fin 16), s.dev.engineUp = true → (s.dev.engJob j).held = none → ∃ t, exec (.partialRepeat j) s = .next t ∧
    (t.dev, t.hbm) = sendPartial (s.dev, s.hbm) j) ∧
  (∀ (s : State) (port : Fin 6) (tag gen shard flags step sum : Nat), s.dev.peerOpen port = true → s.dev.leader = some s.dev.chip →
    ∃ t, exec (.normPartial port tag gen shard flags step sum) s = .next t ∧
    (t.dev, t.hbm) = normPartial (s.dev, s.hbm) tag gen shard flags step sum) ∧
  (∀ (s : State) (port : Fin 6) (tag gen shard flags step sum : Nat), s.dev.peerOpen port = true → s.dev.leader ≠ some s.dev.chip →
    ∃ t, exec (.normPartial port tag gen shard flags step sum) s = .next t ∧ t.hbm = s.hbm ∧
    t.dev = s.dev.sendUp 0x30 1 (partialBytes tag gen shard flags step sum)) ∧
  (∀ (s : State) (tag step gen : Nat) (n : Norm),
    s.dev.coll.norms.find? (fun n => n.tag == tag && n.step == step && n.gen == gen) = some n → n.parts.isEmpty = false → ∃ t,
    exec (.normTimeout tag step gen) s = .next t ∧ t.hbm = s.hbm ∧ ∃ d : Dev,
    d = (s.dev.reach (n.first + s.dev.nat 0x2900 2 * Config.ms)).sendClip { tag := tag, gen := gen, step := step, result := 3, clip := 0x3F800000, norm := 0 } ∧
    t.dev = d.raise 0x0701 1 1 (((s.dev.reach (n.first + s.dev.nat 0x2900 2 * Config.ms)).jobOfTag tag).getD 0xFFFF)) ∧
  (∀ (s : State) (port : Fin 6) (m : Clip), s.dev.peerOpen port = true → m.result ≤ 4 → ∃ t, exec (.clipMsg port m) s = .next t ∧ t.hbm = s.hbm ∧
    t.dev = (s.dev.sendDown 0x31 1 (clipBytes m) (some port.val)).engineClip m) ∧
  (∀ (s : State) (port : Fin 6) (tag gen step : Nat), s.dev.peerOpen port = true → ∃ t,
    exec (.normRestart port tag gen step) s = .next t ∧
    (t.dev, t.hbm) = engineRestart (s.dev.sendDown 0x32 1 (restartBytes tag gen step) (some port.val), s.hbm) tag gen step) ∧
  (∀ (s : State) (j : Fin 16) (c : Clip), (s.dev.engJob j).held = some c → s.dev.engineUp = true → ∃ t,
    exec (.updateComplete j) s = .next t ∧ (t.dev, t.hbm) = updateStep (s.dev, s.hbm) j c) ∧
  (∀ (s : State) (iface : Fin 6) (source dest slot len offset destSlot : Nat), s.dev.peerOpen iface = true → dest ≠ s.dev.chip → ∃ t,
    exec (.fetchReq iface source dest slot len offset destSlot) s = .next t ∧ t.hbm = s.hbm ∧
    t.dev = s.dev.sendRouted 0x33 1 source dest (le 1 slot ++ zeros 3 ++ le 4 len ++ le 8 offset ++ le 1 destSlot ++ zeros 7)) ∧
  (∀ (s : State) (iface : Fin 6) (source dest slot len offset destSlot : Nat), s.dev.peerOpen iface = true → dest = s.dev.chip →
    s.dev.fetchUp = true → (s.dev.model slot).state = .valid → (len ≤ 8192 ∧ len % 64 = 0 ∧ offset % 64 = 0 ∧ len ≠ 0 ∧
    offset + len ≤ (s.dev.model slot).len) → ∃ t, exec (.fetchReq iface source dest slot len offset destSlot) s = .next t ∧
    t.hbm = (readWords (s.dev, s.hbm) ((s.dev.model slot).base + offset) (len / 64)).1.2) ∧
  (∀ (s : State) (iface : Fin 6) (source dest slot flags offset : Nat) (data : Bytes), s.dev.peerOpen iface = true →
    dest ≠ s.dev.chip → ∃ t, exec (.fetchData iface source dest slot flags offset data) s = .next t ∧ t.hbm = s.hbm ∧
    t.dev = s.dev.sendRouted 0x34 2 source dest (le 1 slot ++ le 1 flags ++ zeros 6 ++ le 8 offset ++ data)) ∧
  (∀ (s : State) (iface : Fin 6) (source dest slot flags offset : Nat) (data : Bytes), s.dev.peerOpen iface = true →
    dest = s.dev.chip → data.length % 64 = 0 → s.dev.fetchUp = true → (s.dev.model slot).state = .fetching → (s.dev.model slot).source = source →
    (s.dev.model slot).asked.contains (offset, data.length) = true → flags % 2 = 0 → ∃ t,
    exec (.fetchData iface source dest slot flags offset data) s = .next t ∧ ∃ m : Mach,
    m = modelWrite (s.dev.modModel slot (fun y => { y with asked := y.asked.filter (· != (offset, data.length)) }), s.hbm) slot offset data false ∧
    t.hbm = m.2 ∧ t.dev = m.1.fetchMore slot 64)

/-- Scrubbing, zero fill and the reload of remaps: where SCRUB_READ, ZERO_FILL, SCRUB_LAP_OVER_LIMIT, REMAP_RELOAD_DONE, DEVICE_ECC_POLL
complete, and what they leave (R295, R296, R300, R302, R303, R304, R312). Where a clause goes through a choice of the model, it is that of
the log entries 29, 37, 77, 87, 104, 105. -/
def Obligations.MemoryCommands : Prop :=
  (∀ (s : State) (a : Fin 31) (symbols : Nat) (queued : Bool) (w : Nat), s.dev.scrubs = true → s.dev.arrayUp a = true →
    a.val < 8 → s.dev.fillDepth a = 0 → scrubWord s.dev s.hbm a (tget 0 s.dev.mem.scrubAt a) = some w → ∃ t,
    exec (.scrubRead a symbols queued) s = .next t ∧ (t.dev, t.hbm) = scrubStack (s.dev, s.hbm) a w symbols queued) ∧
  (∀ (s : State) (a : Fin 31) (symbols : Nat) (queued : Bool), s.dev.scrubs = true → s.dev.arrayUp a = true → 8 ≤ a.val →
    tget 0 s.dev.mem.scrubAt a < sramWords a → ∃ t, exec (.scrubRead a symbols queued) s = .next t ∧
    (t.dev, t.hbm) = scrubSram (s.dev, s.hbm) a (tget 0 s.dev.mem.scrubAt a) symbols queued) ∧
  (∀ (s : State) (sel : Fin 8), ∃ t, exec (.zeroFill sel) s = .next t ∧ t.hbm = s.hbm ∧
    t.dev = { s.dev with mem := { s.dev.mem with fills := fillOldest sel s.dev.mem.fills } }) ∧
  (∀ (s : State) (a : Fin 31), s.dev.flag 0x2801 1 = true → s.dev.arrayUp a = true → s.dev.mem.lapLogged.contains a.val = false → ∃ t,
    exec (.scrubLapOverLimit a) s = .next t ∧ t.hbm = s.hbm ∧ ∃ d : Dev,
    d = s.dev.reach (tget 0 s.dev.mem.lapStart a + s.dev.nat 0x2801 3 * Config.sec) ∧
    t.dev = ({ d with mem := { d.mem with lapLogged := sinsert d.mem.lapLogged a } } : Dev).memEvent 8 1 a 1 0 0 0 0) ∧
  (∀ (s : State) (sel : Fin 8), s.dev.mem.reloading.contains sel.val = true → ∃ t, exec (.remapReloadDone sel) s = .next t ∧
    (t.dev, t.hbm) = loadRemap (s.dev, s.hbm) sel) ∧
  (∀ (s : State) (poll : EccPoll) (d : Dev),
    d = (upto s.dev.stackCount).foldl (fun d k => if tget .off d.mem.stackOf k == .ready then d.setNum (0x2810 + k) 0x0C (poll.counts.getD k 0 % 2 ^ 32 : Nat) else d) s.dev →
    ∃ t, exec (.deviceEccPoll poll) s = .next t ∧ t.hbm = { s.hbm with flaws := addFlaws s.hbm.flaws (s.dev.newFlaws poll).1 } ∧
    t.dev = { d with mem := { d.mem with sramFlaws := addFlaws d.mem.sramFlaws (s.dev.newFlaws poll).2, flashFlaws := addFlaws d.mem.flashFlaws poll.flash } })

/-- The fault handler, recovery levels, stalls, restarts and logs: where FAULT_EVENT, HANDLER_STEP, LEVEL_TIMEOUT, STALL_DEADLINE,
RESTART_RELEASE, RESTART_ORDER_TIMEOUT, LOG_FLUSH_TIMER, LOG_PAGE_PROGRAMMED, HEARTBEAT_WRITE, HEARTBEAT_STOPPED complete, and what they
leave (R316, R317, R322, R325, R332, R338, R342). Where a clause goes through a choice of the model, it is that of the log entries 46, 79. -/
def Obligations.FaultCommands : Prop :=
  (∀ (s : State) (code cls scope index : Nat) (active : Bool) (detail : Bytes), (eventClasses code).contains cls = true → ∃ t,
    exec (.faultEvent code cls scope index active detail) s = .next t ∧ t.hbm = s.hbm ∧
    t.dev = s.dev.raise code cls scope index active detail) ∧
  (∀ (s : State) (code cls scope index : Nat) (active : Bool) (detail : Bytes), (eventClasses code).contains cls = false → ∃ t,
    exec (.faultEvent code cls scope index active detail) s = .next t ∧ t.hbm = s.hbm ∧ t.dev = s.dev) ∧
  (∀ s : State, s.dev.faults.current = none → ∃ t, exec .handlerStep s = .next t ∧ t.hbm = s.hbm ∧ t.dev = s.dev.takeHead) ∧
  (∀ (s : State) (e : Event), s.dev.faults.current = some e → ∃ t, exec .handlerStep s = .next t ∧ t.hbm = s.hbm ∧
    t.dev = s.dev.handlerStep) ∧
  (∀ (s : State) (n : Nat), s.dev.faults.recoveries.find? (fun r => r.level = n) = none → ∃ t, exec (.levelTimeout n) s = .next t ∧
    t.hbm = s.hbm ∧ t.dev = s.dev) ∧
  (∀ (s : State) (n : Nat) (r : Recovery), s.dev.faults.recoveries.find? (fun r => r.level = n) = some r →
    (s.dev.reach (r.onset + r.budgets.getD (n - 1) 0 * Config.ms)).staleRecovery r = true → ∃ t, exec (.levelTimeout n) s = .next t ∧
    t.hbm = s.hbm ∧ t.dev = ((s.dev.reach (r.onset + r.budgets.getD (n - 1) 0 * Config.ms)).bump 0x2300 0x0B).dropRecovery r) ∧
  (∀ (s : State) (n : Nat) (r : Recovery), s.dev.faults.recoveries.find? (fun r => r.level = n) = some r → ∃ t,
    exec (.levelTimeout n) s = .next t ∧ t.hbm = s.hbm ∧ t.dev = s.dev.levelTimeout n) ∧
  (∀ (s : State) (j : Fin 16) (x : Stall), s.dev.faults.stalls.find? (fun s => s.job = j.val) = some x → x.l3Fired = true → ∃ t,
    exec (.stallDeadline j) s = .next t ∧ t.hbm = s.hbm ∧ t.dev = (s.dev.reach (x.onset + x.l4 * Config.ms)).stalled x 4) ∧
  (∀ (s : State) (j : Fin 16) (x : Stall), s.dev.faults.stalls.find? (fun s => s.job = j.val) = some x → x.l3Fired = false →
    (x.ownReason ≠ 1 ∧ x.ownReason ≠ 5 ∧ x.ownReason ≠ 10) → ∃ t, exec (.stallDeadline j) s = .next t ∧ t.hbm = s.hbm ∧ ∃ d : Dev,
    d = ((s.dev.reach (x.onset + x.l3 * Config.ms)).bump 0x2311 3).fireEpoch (1 + j) ∧
    t.dev = { d with faults := { d.faults with stalls := d.faults.stalls.map (fun y => if y.job = j.val then { y with l3Fired := true } else y) } }) ∧
  (∀ (s : State) (j : Fin 16), s.dev.faults.restarts.find? (fun r => r.job = j.val && !r.order.isEmpty && r.state = 1) = none → ∃ t,
    exec (.restartRelease j) s = .next t ∧ t.hbm = s.hbm ∧ t.dev = s.dev) ∧
  (∀ (s : State) (j : Fin 16) (r : Restart),
    s.dev.faults.restarts.find? (fun r => r.job = j.val && !r.order.isEmpty && r.state = 1) = some r → ∃ t,
    exec (.restartRelease j) s = .next t ∧ (t.dev, t.hbm) = releaseJob (s.dev, s.hbm) j) ∧
  (∀ (s : State) (j : Fin 16) (r : Restart),
    s.dev.faults.restarts.find? (fun r => r.job = j.val && r.order.isEmpty && r.state = 1) = some r → ∃ t,
    exec (.restartOrderTimeout j) s = .next t ∧ t.hbm = s.hbm ∧ ∃ d : Dev,
    d = ((((s.dev.reach (r.onset + r.l5 * Config.ms)).stopJob j 2).modRestart j (fun x => { x with state := 4 })).unlatchJob j) ∧
    t.dev = ({ d with faults := { d.faults with recoveries := d.faults.recoveries.filter (fun x => !(x.scope = 1 && x.index = j.val)) } } : Dev).raise 0x0104 1 1 j) ∧
  (∀ (s : State) (n : Nat), s.dev.faults.pub.firstAt = some n → ∃ t, exec (.logFlushTimer false) s = .next t ∧ t.hbm = s.hbm ∧
    t.dev = (s.dev.reach (n + 100 * Config.ms)).modLog false (fun l => l.flush (s.dev.reach (n + 100 * Config.ms)).power.flashGate true)) ∧
  (∀ (s : State) (n : Nat), s.dev.faults.prot.firstAt = some n → ∃ t, exec (.logFlushTimer true) s = .next t ∧ t.hbm = s.hbm ∧
    t.dev = (s.dev.reach (n + 100 * Config.ms)).modLog true (fun l => l.flush (s.dev.reach (n + 100 * Config.ms)).power.flashGate true)) ∧
  (∀ (s : State) (prot : Bool), ∃ t, exec (.logPageProgrammed prot) s = .next t ∧ t.hbm = s.hbm ∧
    t.dev = ((s.dev.modLog prot (fun l => l.programmed (logPages prot) s.dev.power.flashGate zeroRec)).flashWritten (.log prot 0)).clearTrip) ∧
  (∀ s : State, ∃ t, exec .heartbeatWrite s = .next t ∧ t.hbm = s.hbm ∧ t.dev.twin = { s.dev.twin with heartbeat := s.dev.now }) ∧
  (∀ s : State, ∃ t, exec .heartbeatStopped s = .next t ∧ t.hbm = s.hbm ∧
    t.dev = ((s.dev.reach (s.dev.twin.heartbeat + 20 * Config.us)).dropGrants false).raise 0x0B01 3 0 0 true)

/-- Grant lines, claims, the selector and the engine's start: where TWIN_GRANT_EDGE, GRANT_GUARD_ELAPSED, COLD_TAKEOVER_WAIT,
SELECTOR_SETTLED, ENGINE_READY complete, and what they leave (R22, R307, R342, R346, R354, R361, R438). Where a clause goes through a
choice of the model, it is that of the log entries 31, 33, 104. -/
def Obligations.GrantCommands : Prop :=
  (∀ (s : State) (coll : Bool), (if coll then s.dev.twin.lineColl else s.dev.twin.lineDrive) = false → ∃ t,
    exec (.twinGrantEdge coll true) s = .next t ∧ t.hbm = s.hbm ∧ t.dev = s.dev.lineRises coll) ∧
  (∀ (s : State) (coll : Bool), (if coll then s.dev.twin.lineColl else s.dev.twin.lineDrive) = true → ∃ t,
    exec (.twinGrantEdge coll false) s = .next t ∧ t.hbm = s.hbm ∧ t.dev = s.dev.lineFalls coll) ∧
  (∀ s : State, s.dev.twin.wantColl = true → s.dev.twin.ownColl = false → s.dev.mayAssert true = true → ∃ t,
    exec (.grantGuardElapsed true) s = .next t ∧ ∃ m : Mach,
    m = lostRamps (takeColl (((s.dev.reach (s.dev.twin.collLowSince + s.dev.grantGuard)).modTwin (fun x => { x with ownColl := true })).emit (.grant true true), s.hbm)) ∧
    t.dev = m.1.topologyChanged ∧ t.hbm = m.2) ∧
  (∀ s : State, s.dev.twin.wantDrive = true → s.dev.twin.ownDrive = false → s.dev.mayAssert false = true → ∃ t,
    exec (.grantGuardElapsed false) s = .next t ∧ t.hbm = s.hbm ∧
    t.dev = (((((s.dev.reach (s.dev.twin.driveLowSince + s.dev.grantGuard)).modTwin (fun x => { x with ownDrive := true })).emit (.grant false true)).takeDrive).resumeHeaters (fun _ => true)).resumeReleases) ∧
  (∀ s : State, s.dev.twin.drive ≠ .active → s.dev.twin.ownDrive = false → s.dev.twin.lineDrive = false →
    s.dev.twin.driveDropped = true → s.dev.storeStale = false → ∃ t, exec (.coldTakeoverWait false) s = .next t ∧ t.hbm = s.hbm ∧
    t.dev.twin = { s.dev.twin with wantDrive := true } ∧ s.dev.twin.driveLowSince + Config.sec ≤ t.dev.now) ∧
  (∀ s : State, s.dev.twin.coll ≠ .active → s.dev.twin.ownColl = false → s.dev.twin.lineColl = false → s.dev.twin.collDropped = true →
    s.dev.isC = true → s.dev.storeStale = false → ∃ t, exec (.coldTakeoverWait true) s = .next t ∧ t.hbm = s.hbm ∧
    t.dev.twin = { s.dev.twin with wantColl := true } ∧ s.dev.twin.collLowSince + Config.sec ≤ t.dev.now) ∧
  (∀ (s : State) (x : Nat), s.dev.twin.moving = some x → ∃ t, exec .selectorSettled s = .next t ∧ t.hbm = s.hbm ∧
    t.dev.twin = { s.dev.twin with selector := x, moving := none }) ∧
  (∀ s : State, s.dev.isOn 11 = true → s.dev.coll.state = .selftest → s.dev.engineBarred = false → ∃ t, exec (.engineReady true) s = .next t ∧ t.hbm = s.hbm ∧
    t.dev.coll = { s.dev.coll with state := .ready }) ∧
  (∀ s : State, s.dev.isOn 11 = true → s.dev.coll.state = .selftest → ∃ t, exec (.engineReady false) s = .next t ∧ t.hbm = s.hbm ∧
    t.dev = (({ s.dev with coll := { s.dev.coll with state := .fault } } : Dev).checkerEvent 1 14).dropColl .none)

/-- Twin state records, mirrors, swaps and health tests: where TWIN_STATE, TWIN_RECORDS_MISSED, MIRROR, HANDOVER_GRANT_DROP, ROLE_SWAP_DUE,
ROLE_SWAP_NOT_FOUND, HEALTH_TEST_DUE, HEALTH_TEST_DONE, HEALTH_OVERDUE, COLL_RESTORE_DONE complete, and what they leave (R348, R355,
R357, R360, R362). Where a clause goes through a choice of the model, it is that of the log entries 31, 32, 33, 34, 78. -/
def Obligations.TwinFrames : Prop :=
  (∀ (s : State) (cycle frag frags offset : Nat) (data b : Bytes), s.dev.joined = true → s.dev.followsDrive = true → frag < frags →
    (s.dev.takeFragment cycle frag frags offset data).2 = some b → ∃ t, exec (.twinState cycle frag frags offset data) s = .next t ∧
    (t.dev, t.hbm) = twinRecord ((s.dev.takeFragment cycle frag frags offset data).1, s.hbm) cycle b) ∧
  (∀ (s : State) (cycle frag frags offset : Nat) (data : Bytes), s.dev.joined = true → s.dev.followsDrive = true → frag < frags →
    (s.dev.takeFragment cycle frag frags offset data).2 = none → ∃ t, exec (.twinState cycle frag frags offset data) s = .next t ∧
    t.hbm = s.hbm ∧ t.dev = (s.dev.takeFragment cycle frag frags offset data).1) ∧
  (∀ s : State, s.dev.twin.drive = .standby → ∃ t, exec .twinRecordsMissed s = .next t ∧ t.hbm = s.hbm ∧
    t.dev = (s.dev.modTwin (fun x => { x with missing := max 2 x.missing })).missRecord) ∧
  (∀ (s : State) (job bank region flags step offset : Nat) (data : Bytes), s.dev.joined = true → region < 6 ∨ 0x80 ≤ region → s.dev.holdsColl = true → ∃ t,
    exec (.mirror job bank region flags step offset data) s = .next t ∧
    (t.dev, t.hbm) = restoreIn (s.dev, s.hbm) job region flags offset data) ∧
  (∀ (s : State) (job bank region flags step offset : Nat) (data : Bytes), s.dev.joined = true → region < 6 ∨ 0x80 ≤ region → s.dev.holdsColl = false →
    (s.dev.twin.coll == .syncing || s.dev.twin.coll == .standby) = true → ∃ t,
    exec (.mirror job bank region flags step offset data) s = .next t ∧
    (t.dev, t.hbm) = mirrorIn (s.dev, s.hbm) job bank region flags step offset data) ∧
  (∀ s : State, s.dev.holdsDrive = true → s.dev.twin.handoverCycle ≠ 0 → ∃ t, exec .handoverGrantDrop s = .next t ∧ t.hbm = s.hbm ∧
    t.dev = s.dev.handDrive) ∧
  (∀ s : State, s.dev.holdsDrive = true → s.dev.nat 0x2510 1 ≠ 0 → s.dev.twin.swapWaiting = none → s.dev.twin.handoverCycle = 0 →
    (s.dev.reach s.dev.twin.swapDue).mayHandDrive = true → ∃ t, exec .roleSwapDue s = .next t ∧ t.hbm = s.hbm ∧
    t.dev = (s.dev.reach s.dev.twin.swapDue).announceDrive) ∧
  (∀ s : State, s.dev.holdsDrive = true → s.dev.nat 0x2510 1 ≠ 0 → s.dev.twin.swapWaiting = none → s.dev.twin.handoverCycle = 0 →
    (s.dev.reach s.dev.twin.swapDue).mayHandDrive = false → ∃ t, exec .roleSwapDue s = .next t ∧ t.hbm = s.hbm ∧
    t.dev = ((s.dev.reach s.dev.twin.swapDue).handoverState 1).modTwin (fun x => { x with swapWaiting := some (s.dev.reach s.dev.twin.swapDue).now })) ∧
  (∀ (s : State) (n : Nat), s.dev.twin.swapWaiting = some n → ∃ t, exec .roleSwapNotFound s = .next t ∧ t.hbm = s.hbm ∧ ∃ d : Dev,
    d = s.dev.reach (n + 86400 * Config.sec) ∧ t.dev = (d.info 0x0B01 0 0).modTwin (fun x => { x with swapWaiting := some d.now })) ∧
  (∀ (s : State) (n : Nat), s.dev.isC = true → s.dev.followsColl = true → s.dev.twin.healthRun = false → s.dev.isOn 11 = false →
    s.dev.grantOf 5 11 = none → s.dev.twin.healthPassed = some n → ∃ t, exec .healthTestDue s = .next t ∧ t.hbm = s.hbm ∧
    t.dev = ((s.dev.reach (n + s.dev.nat 0x2520 3 * Config.sec)).request 5 .normal 1 11 0).startHealth) ∧
  (∀ (s : State) (passed failed : Fin 16) (ueCount lapEnd : Nat), s.dev.twin.healthRun = true → ∃ t,
    exec (.healthTestDone passed failed ueCount lapEnd) s = .next t ∧
    (t.dev, t.hbm) = healthDone (s.dev, s.hbm) passed failed ueCount lapEnd) ∧
  (∀ (s : State) (n : Nat), s.dev.twin.coll = .standby → s.dev.twin.healthPassed = some n → ∃ t, exec .healthOverdue s = .next t ∧
    t.hbm = s.hbm ∧ t.dev = (s.dev.reach (n + 2 * s.dev.nat 0x2520 3 * Config.sec)).followColl) ∧
  (∀ (s : State) (j : Fin 16), s.dev.holdsColl = true → (s.dev.mirror j).restore = 1 → (s.dev.mirror j).restoreFrom = 1 → ∃ t,
    exec (.collRestoreDone j) s = .next t ∧ (t.dev, t.hbm) = restoreBank (s.dev, s.hbm) j 1)

/-- Manifests, segments, activation, trial and the watchdog: where MANIFEST, SEGMENT_FILE, RECOVERY, SEGMENT_PROGRAMMED,
MANIFEST_RECEIPT_PROGRAMMED, FOE_PACKET_TIMEOUT, STAGING_SCAN_DONE, ACTIVATION_DONE, CLEAR_ERASE_DONE, HEALTH_SOAK_ELAPSED,
HEALTH_WINDOW_END, WATCHDOG_RESTART complete, and what they leave (R401, R402, R403, R405, R406, R407, R408, R410, R411). Where a clause
goes through a choice of the model, it is that of the log entries 42, 43, 44, 75, 80. -/
def Obligations.UpdateCommands : Prop :=
  (∀ (s : State) (c : Client) (data : Bytes), s.Ready → (s.asked c).isMaintainer c = true → (s.asked c).net.ecat ≠ .boot →
    (s.asked c).manifestFault data = none → s.dev.upd.receipt = false → s.dev.upd.state = .empty → ∃ t,
    exec (.manifest c data true) s = .next t ∧
    t.Waits ({ s.asked c with upd := { (s.asked c).upd with foe := some (c, 0, data, (s.asked c).now) } }) s.hbm (.foe c 0)) ∧
  (∀ (s : State) (c : Client) (name : Nat) (data : Bytes) (k : Nat), s.Ready → (s.asked c).isMaintainer c = true →
    s.dev.upd.receipt = true → segmentOk s.dev.upd.staged data = true → segReserved data = none → name = fld data 4 4 → s.dev.upd.state = .receiving →
    s.dev.upd.received.contains name = false → (s.asked c).upd.nextSlot = some k → ∃ t, exec (.segmentFile c name data) s = .next t ∧
    t.Waits ({ s.asked c with upd := { (s.asked c).upd with inRam := some (name, data) } }) s.hbm (.foe c 1)) ∧
  (∀ (s : State) (c : Client) (data : Bytes), s.Idle → s.dev.net.ecat = .boot →
    (((s.asked c).takeRecovery ((s.asked c).isMaintainer c) data true).2 = .answer 0) → ∃ t,
    exec (.recovery c data true) s = .next t ∧ t.hbm = s.hbm ∧ (∃ n out,
    t.dev = { ((s.asked c).takeRecovery ((s.asked c).isMaintainer c) data true).1 with net := n, out := out } ∧
    Output.foe c 0 [] ∈ out)) ∧
  (∀ (s : State) (ok : Bool) (x : Nat × Bytes), s.dev.upd.inRam = some x → ∃ t, exec (.segmentProgrammed ok) s = .next t ∧
    (t.dev, t.hbm) = foeProgrammed (s.dev, s.hbm) (s.dev.segmentProgrammed ok)) ∧
  (∀ (s : State) (ok : Bool) (x : Nat × Nat × Bytes × Nat), s.dev.upd.foe = some x → ∃ t,
    exec (.manifestReceiptProgrammed ok) s = .next t ∧ (t.dev, t.hbm) = foeProgrammed (s.dev, s.hbm) (s.dev.manifestProgrammed ok)) ∧
  (∀ s : State, s.dev.net.mailbox = [] → (∀ c f, s.dev.net.waiting ≠ some (.foe c f)) → ∃ t, exec .foePacketTimeout s = .next t ∧
    t.hbm = s.hbm ∧ t.dev.upd.foe = none ∧ t.dev.upd.inRam = none) ∧
  (∀ s : State, s.dev.upd.state = .scanning → ∃ t, exec .stagingScanDone s = .next t ∧ t.hbm = s.hbm ∧
    t.dev.upd = { s.dev.upd with state := s.dev.upd.scanned }) ∧
  (∀ s : State, s.dev.upd.state = .activating → s.dev.upd.boot.state ≠ .normal → ∃ t, exec (.activationDone true) s = .next t ∧
    (t.dev, t.hbm) = warmStart (({ s.dev with upd := { s.dev.upd.written with step := none } } : Dev).setNum 0x2402 0 0, s.hbm) .warm .command) ∧
  (∀ s : State, s.dev.upd.state = .activating → ∃ t, exec (.activationDone false) s = .next t ∧ t.hbm = s.hbm ∧
    t.dev.upd.state = .staged ∧ t.dev.upd.step = none) ∧
  (∀ s : State, s.dev.upd.state = .clearing → ∃ t, exec .clearEraseDone s = .next t ∧ t.hbm = s.hbm ∧
    t.dev.upd = { s.dev.upd.cleared with state := .scanning }) ∧
  (∀ s : State, s.dev.onTrial = true → (s.dev.reach (s.dev.upd.soakAt + s.dev.nat 0x2403 1 * 60 * Config.sec)).soakGood = true → ∃ t,
    exec .healthSoakElapsed s = .next t ∧ t.hbm = s.hbm ∧
    t.dev = (s.dev.reach (s.dev.upd.soakAt + s.dev.nat 0x2403 1 * 60 * Config.sec)).healthConfirm.emit (.flash 2)) ∧
  (∀ s : State, s.dev.onTrial = true → ∃ t, exec .healthWindowEnd s = .next t ∧ t.hbm = s.hbm ∧
    t.dev = (s.dev.reach s.dev.upd.windowEnd).orderWatchdog) ∧
  (∀ (s : State) (n : Nat), s.dev.upd.watchdog = some n → s.dev.goOpen = false → ∃ t, exec .watchdogRestart s = .next t ∧
    (t.dev, t.hbm) = warmStart ({ s.dev with upd := { s.dev.upd with watchdog := none } }, s.hbm) .watchdog .startUp) ∧
  (∀ (s : State) (n : Nat), s.dev.upd.watchdog = some n → s.dev.goOpen = true → ∃ t, exec .watchdogRestart s = .next t ∧
    (t.dev, t.hbm) = warmStart ({ s.dev.reach (n + 100 * Config.ms) with upd := { (s.dev.reach (n + 100 * Config.ms)).upd with watchdog := none } }, s.hbm) .watchdog .startUp)

/-- The PMBus device: where CAPABILITY, STATUS_WORD, STATUS_INPUT, STATUS_TEMPERATURE, READ_VIN, READ_IIN, READ_TEMPERATURE_1,
READ_TEMPERATURE_2, READ_PIN, PMBUS_REVISION, MFR_ID, MFR_MODEL, MFR_REVISION, MFR_SERIAL, PAGE, PMBUS_UNSUPPORTED, ALERT_RESPONSE,
PMBUS_REFRESH complete, and what they leave (R446). Where a clause goes through a choice of the model, it is that of the log entries 6, 19. -/
def Obligations.PmbusCommands : Prop :=
  (∀ (s : State) (check : Bool), s.dev.module.aux = true → ∃ t, exec (.capability check) s = .next t ∧ t.hbm = s.hbm ∧
    t.dev = s.dev.emit (.pmbus ([0xB0] ++ (if check then [pec ([s.dev.pmbusAddress * 2, 0x19, s.dev.pmbusAddress * 2 + 1] ++ [0xB0])] else [])))) ∧
  (∀ (s : State) (check : Bool), s.dev.module.aux = true → ∃ t, exec (.statusWord check) s = .next t ∧ t.hbm = s.hbm ∧
    t.dev = s.dev.emit (.pmbus ((word16 s.dev.module.statusWord) ++ (if check then [pec ([s.dev.pmbusAddress * 2, 0x79, s.dev.pmbusAddress * 2 + 1] ++ (word16 s.dev.module.statusWord))] else [])))) ∧
  (∀ (s : State) (check : Bool), s.dev.module.aux = true → ∃ t, exec (.statusInput check) s = .next t ∧ t.hbm = s.hbm ∧
    t.dev = s.dev.emit (.pmbus ([s.dev.module.statusInput.getD s.dev.module.page 0] ++ (if check then [pec ([s.dev.pmbusAddress * 2, 0x7C, s.dev.pmbusAddress * 2 + 1] ++ [s.dev.module.statusInput.getD s.dev.module.page 0])] else [])))) ∧
  (∀ (s : State) (check : Bool), s.dev.module.aux = true → ∃ t, exec (.statusTemperature check) s = .next t ∧ t.hbm = s.hbm ∧
    t.dev = s.dev.emit (.pmbus ([s.dev.module.statusTemp] ++ (if check then [pec ([s.dev.pmbusAddress * 2, 0x7D, s.dev.pmbusAddress * 2 + 1] ++ [s.dev.module.statusTemp])] else [])))) ∧
  (∀ (s : State) (check : Bool), s.dev.module.aux = true → ∃ t, exec (.readVin check) s = .next t ∧ t.hbm = s.hbm ∧
    t.dev = s.dev.emit (.pmbus ((word16 (s.dev.module.vin.getD s.dev.module.page 0)) ++ (if check then [pec ([s.dev.pmbusAddress * 2, 0x88, s.dev.pmbusAddress * 2 + 1] ++ (word16 (s.dev.module.vin.getD s.dev.module.page 0)))] else [])))) ∧
  (∀ (s : State) (check : Bool), s.dev.module.aux = true → ∃ t, exec (.readIin check) s = .next t ∧ t.hbm = s.hbm ∧
    t.dev = s.dev.emit (.pmbus ((word16 (s.dev.module.iin.getD s.dev.module.page 0)) ++ (if check then [pec ([s.dev.pmbusAddress * 2, 0x89, s.dev.pmbusAddress * 2 + 1] ++ (word16 (s.dev.module.iin.getD s.dev.module.page 0)))] else [])))) ∧
  (∀ (s : State) (check : Bool), s.dev.module.aux = true → ∃ t, exec (.readTemperature1 check) s = .next t ∧ t.hbm = s.hbm ∧
    t.dev = s.dev.emit (.pmbus ((word16 s.dev.module.temp1) ++ (if check then [pec ([s.dev.pmbusAddress * 2, 0x8D, s.dev.pmbusAddress * 2 + 1] ++ (word16 s.dev.module.temp1))] else [])))) ∧
  (∀ (s : State) (check : Bool), s.dev.module.aux = true → ∃ t, exec (.readTemperature2 check) s = .next t ∧ t.hbm = s.hbm ∧
    t.dev = s.dev.emit (.pmbus ((word16 s.dev.module.temp2) ++ (if check then [pec ([s.dev.pmbusAddress * 2, 0x8E, s.dev.pmbusAddress * 2 + 1] ++ (word16 s.dev.module.temp2))] else [])))) ∧
  (∀ (s : State) (check : Bool), s.dev.module.aux = true → ∃ t, exec (.readPin check) s = .next t ∧ t.hbm = s.hbm ∧
    t.dev = s.dev.emit (.pmbus ((word16 (s.dev.module.pin.getD s.dev.module.page 0)) ++ (if check then [pec ([s.dev.pmbusAddress * 2, 0x97, s.dev.pmbusAddress * 2 + 1] ++ (word16 (s.dev.module.pin.getD s.dev.module.page 0)))] else [])))) ∧
  (∀ (s : State) (check : Bool), s.dev.module.aux = true → ∃ t, exec (.pmbusRevision check) s = .next t ∧ t.hbm = s.hbm ∧
    t.dev = s.dev.emit (.pmbus ([0x33] ++ (if check then [pec ([s.dev.pmbusAddress * 2, 0x98, s.dev.pmbusAddress * 2 + 1] ++ [0x33])] else [])))) ∧
  (∀ (s : State) (check : Bool), s.dev.module.aux = true → ∃ t, exec (.mfrId check) s = .next t ∧ t.hbm = s.hbm ∧
    t.dev = s.dev.emit (.pmbus ((pmbusBlock (ascii "VALPEANE")) ++ (if check then [pec ([s.dev.pmbusAddress * 2, 0x99, s.dev.pmbusAddress * 2 + 1] ++ (pmbusBlock (ascii "VALPEANE")))] else [])))) ∧
  (∀ (s : State) (check : Bool), s.dev.module.aux = true → ∃ t, exec (.mfrModel check) s = .next t ∧ t.hbm = s.hbm ∧
    t.dev = s.dev.emit (.pmbus ((pmbusBlock (ascii (if s.dev.isC then "VLD-512C-C1" else "VLD-512S-C1"))) ++ (if check then [pec ([s.dev.pmbusAddress * 2, 0x9A, s.dev.pmbusAddress * 2 + 1] ++ (pmbusBlock (ascii (if s.dev.isC then "VLD-512C-C1" else "VLD-512S-C1"))))] else [])))) ∧
  (∀ (s : State) (check : Bool), s.dev.module.aux = true → ∃ t, exec (.mfrRevision check) s = .next t ∧ t.hbm = s.hbm ∧
    t.dev = s.dev.emit (.pmbus ((pmbusBlock (ascii "C1." ++ twoDigits s.dev.module.revision)) ++ (if check then [pec ([s.dev.pmbusAddress * 2, 0x9B, s.dev.pmbusAddress * 2 + 1] ++ (pmbusBlock (ascii "C1." ++ twoDigits s.dev.module.revision)))] else [])))) ∧
  (∀ (s : State) (check : Bool), s.dev.module.aux = true → ∃ t, exec (.mfrSerial check) s = .next t ∧ t.hbm = s.hbm ∧
    t.dev = s.dev.emit (.pmbus ((pmbusBlock (s.dev.module.serial.takeWhile (· != 0))) ++ (if check then [pec ([s.dev.pmbusAddress * 2, 0x9E, s.dev.pmbusAddress * 2 + 1] ++ (pmbusBlock (s.dev.module.serial.takeWhile (· != 0))))] else [])))) ∧
  (∀ s : State, s.dev.module.aux = true → ∃ t, exec (.page none none) s = .next t ∧ t.hbm = s.hbm ∧
    t.dev = s.dev.emit (.pmbus [s.dev.module.page])) ∧
  (∀ (s : State) (x : Fin 256), s.dev.module.aux = true → x.val < 2 → ∃ t, exec (.page (some x) none) s = .next t ∧ t.hbm = s.hbm ∧
    t.dev.module = { s.dev.module with page := x.val }) ∧
  (∀ (s : State) (x y : Fin 256), s.dev.module.aux = true → x.val < 2 → y.val = pec [s.dev.pmbusAddress * 2, 0x00, x.val] → ∃ t,
    exec (.page (some x) (some y)) s = .next t ∧ t.hbm = s.hbm ∧ t.dev.module = { s.dev.module with page := x.val }) ∧
  (∀ (s : State) (code : Fin 256) (write : Bool), ∃ t, exec (.pmbusUnsupported code write) s = .next t ∧ t.hbm = s.hbm ∧
    t.dev = s.dev.emit .pmbusNack) ∧
  (∀ (s : State) (check : Bool), s.dev.module.aux = true → s.dev.module.statusWord ≠ 0 → ∃ t,
    exec (.alertResponse check) s = .next t ∧ t.hbm = s.hbm ∧
    t.dev = s.dev.emit (.pmbus ([s.dev.pmbusAddress * 2] ++ (if check then [pec [0x19, s.dev.pmbusAddress * 2]] else [])))) ∧
  (∀ (s : State) (mv ma : List Nat) (mw : Nat) (hbm : List Int), s.dev.module.aux = true → ∃ t,
    exec (.pmbusRefresh mv ma mw hbm) s = .next t ∧ t.hbm = s.hbm ∧ t.dev.module.volts = mv ∧ t.dev.module.amps = ma ∧ t.dev.module.vin = mv.map (fun x => linear11 x 1000) ∧
    t.dev.module.iin = ma.map (fun x => linear11 x 1000) ∧ t.dev.module.temp1 = linear11 (dieTemp s.dev.power.temps) 10 ∧
    t.dev.power.inputPower = mw ∧ t.dev.power.hbmTemps = hbm)

/-- The frame of the queue: exec changes everything but the queue. -/
def Obligations.QueueKept : Prop :=
  ∀ (i : Instr) (s t : State), exec i s = .next t → t.pending = s.pending

/-- The frame of the HBM: a command that stores nothing leaves all of it, so every byte reads as before. -/
def Obligations.MemoryKept : Prop :=
  ∀ (i : Instr) (s t : State), i.leavesMemory = true → exec i s = .next t → t.hbm = s.hbm

/-- The frames of LOSS_OF_LOCK, PERMIT_RENEW, PERMIT_RELEASE, POWER_RECOVERED, PAGE, HOLDUP_DISCHARGED, PMBUS_REFRESH, HOLDUP_CHARGED,
TIME_REF_LOST, PPS_OUT, CAPABILITY, STATUS_WORD, STATUS_INPUT, STATUS_TEMPERATURE, READ_VIN, READ_IIN, READ_TEMPERATURE_1,
READ_TEMPERATURE_2, READ_PIN, PMBUS_REVISION, MFR_ID, MFR_MODEL, MFR_REVISION, MFR_SERIAL, PMBUS_UNSUPPORTED, ALERT_RESPONSE: every
register, buffer and object outside the named parts of the device is as before, and so are all of memory and the queue. -/
def Obligations.FrameSupplies : Prop :=
  (∀ (s : State) (b : Fin 16) (words : Nat), ∃ t, exec (.lossOfLock (.drive b) words) s = .next t ∧ t.hbm = s.hbm ∧ t.pending = s.pending ∧
    ∃ x0 x1, t.dev = { s.dev with module := x0, eng := x1 }) ∧
  (∀ (s : State) (j : Fin 16) (words : Nat), ∃ t, exec (.lossOfLock (.pod j) words) s = .next t ∧ t.hbm = s.hbm ∧ t.pending = s.pending ∧
    ∃ x0 x1 x2, t.dev = { s.dev with module := x0, eng := x1, rings := x2 }) ∧
  (∀ (s : State) (l k words : Nat), ∃ t, exec (.lossOfLock (.lane l k) words) s = .next t ∧ t.hbm = s.hbm ∧
    t.pending = s.pending ∧ ∃ x0 x1 x2 x3 x4, t.dev = { s.dev with module := x0, opt := x1, twin := x2, od := x3, out := x4 }) ∧
  (∀ (s : State) (p : Fin 2) (words : Nat), ∃ t, exec (.lossOfLock (.timePort p) words) s = .next t ∧ t.hbm = s.hbm ∧
    t.pending = s.pending ∧ ∃ x0 x1, t.dev = { s.dev with module := x0, time := x1 }) ∧
  (∀ (s : State) (cls : Fin 7) (holder : Nat), ∃ t, exec (.permitRenew cls holder) s = .next t ∧ t.hbm = s.hbm ∧
    t.pending = s.pending ∧ ∃ x0, t.dev = { s.dev with power := x0 }) ∧
  (∀ (s : State) (cls : Fin 7) (holder : Nat), ∃ t, exec (.permitRelease cls holder) s = .next t ∧ t.hbm = s.hbm ∧
    t.pending = s.pending ∧ ∃ x0, t.dev = { s.dev with power := x0 }) ∧
  (∀ (s : State) (mw : Nat), ∃ t, exec (.powerRecovered mw) s = .next t ∧ t.hbm = s.hbm ∧ t.pending = s.pending ∧ ∃ x0,
    t.dev = { s.dev with power := x0 }) ∧
  (∀ (s : State) (write : Option (Fin 256)) (pec : Option (Fin 256)), ∃ t, exec (.page write pec) s = .next t ∧ t.hbm = s.hbm ∧
    t.pending = s.pending ∧ ∃ x0 x1, t.dev = { s.dev with module := x0, out := x1 }) ∧
  (∀ (s : State), ∃ t, exec .holdupDischarged s = .next t ∧ t.hbm = s.hbm ∧ t.pending = s.pending ∧ ∃ x0 x1,
    t.dev = { s.dev with module := x0, time := x1 }) ∧
  (∀ (s : State) (mv ma : List Nat) (mw : Nat) (hbm : List Int), ∃ t, exec (.pmbusRefresh mv ma mw hbm) s = .next t ∧ t.hbm = s.hbm ∧
    t.pending = s.pending ∧ ∃ x0 x1 x2, t.dev = { s.dev with module := x0, power := x1, od := x2 }) ∧
  (∀ (s : State), ∃ t, exec .holdupCharged s = .next t ∧ t.hbm = s.hbm ∧ t.pending = s.pending ∧ ∃ x0 x1 x2,
    t.dev = { s.dev with module := x0, power := x1, out := x2 }) ∧
  (∀ (s : State), ∃ t, exec .timeRefLost s = .next t ∧ t.hbm = s.hbm ∧ t.pending = s.pending ∧ ∃ x0 x1 x2 x3 x4 x5,
    t.dev = { s.dev with module := x0, mem := x1, faults := x2, upd := x3, recr := x4, od := x5 }) ∧
  (∀ (s : State), ∃ t, exec .ppsOut s = .next t ∧ t.hbm = s.hbm ∧ t.pending = s.pending ∧ ∃ x0 x1 x2,
    t.dev = { s.dev with module := x0, time := x1, out := x2 }) ∧
  (∀ (s : State) (pec : Bool), ∃ t, exec (.capability pec) s = .next t ∧ t.hbm = s.hbm ∧ t.pending = s.pending ∧ ∃ x0,
    t.dev = { s.dev with out := x0 }) ∧
  (∀ (s : State) (pec : Bool), ∃ t, exec (.statusWord pec) s = .next t ∧ t.hbm = s.hbm ∧ t.pending = s.pending ∧ ∃ x0,
    t.dev = { s.dev with out := x0 }) ∧
  (∀ (s : State) (pec : Bool), ∃ t, exec (.statusInput pec) s = .next t ∧ t.hbm = s.hbm ∧ t.pending = s.pending ∧ ∃ x0,
    t.dev = { s.dev with out := x0 }) ∧
  (∀ (s : State) (pec : Bool), ∃ t, exec (.statusTemperature pec) s = .next t ∧ t.hbm = s.hbm ∧ t.pending = s.pending ∧ ∃ x0,
    t.dev = { s.dev with out := x0 }) ∧
  (∀ (s : State) (pec : Bool), ∃ t, exec (.readVin pec) s = .next t ∧ t.hbm = s.hbm ∧ t.pending = s.pending ∧ ∃ x0,
    t.dev = { s.dev with out := x0 }) ∧
  (∀ (s : State) (pec : Bool), ∃ t, exec (.readIin pec) s = .next t ∧ t.hbm = s.hbm ∧ t.pending = s.pending ∧ ∃ x0,
    t.dev = { s.dev with out := x0 }) ∧
  (∀ (s : State) (pec : Bool), ∃ t, exec (.readTemperature1 pec) s = .next t ∧ t.hbm = s.hbm ∧ t.pending = s.pending ∧ ∃ x0,
    t.dev = { s.dev with out := x0 }) ∧
  (∀ (s : State) (pec : Bool), ∃ t, exec (.readTemperature2 pec) s = .next t ∧ t.hbm = s.hbm ∧ t.pending = s.pending ∧ ∃ x0,
    t.dev = { s.dev with out := x0 }) ∧
  (∀ (s : State) (pec : Bool), ∃ t, exec (.readPin pec) s = .next t ∧ t.hbm = s.hbm ∧ t.pending = s.pending ∧ ∃ x0,
    t.dev = { s.dev with out := x0 }) ∧
  (∀ (s : State) (pec : Bool), ∃ t, exec (.pmbusRevision pec) s = .next t ∧ t.hbm = s.hbm ∧ t.pending = s.pending ∧ ∃ x0,
    t.dev = { s.dev with out := x0 }) ∧
  (∀ (s : State) (pec : Bool), ∃ t, exec (.mfrId pec) s = .next t ∧ t.hbm = s.hbm ∧ t.pending = s.pending ∧ ∃ x0,
    t.dev = { s.dev with out := x0 }) ∧
  (∀ (s : State) (pec : Bool), ∃ t, exec (.mfrModel pec) s = .next t ∧ t.hbm = s.hbm ∧ t.pending = s.pending ∧ ∃ x0,
    t.dev = { s.dev with out := x0 }) ∧
  (∀ (s : State) (pec : Bool), ∃ t, exec (.mfrRevision pec) s = .next t ∧ t.hbm = s.hbm ∧ t.pending = s.pending ∧ ∃ x0,
    t.dev = { s.dev with out := x0 }) ∧
  (∀ (s : State) (pec : Bool), ∃ t, exec (.mfrSerial pec) s = .next t ∧ t.hbm = s.hbm ∧ t.pending = s.pending ∧ ∃ x0,
    t.dev = { s.dev with out := x0 }) ∧
  (∀ (s : State) (code : Fin 256) (write : Bool), ∃ t, exec (.pmbusUnsupported code write) s = .next t ∧ t.hbm = s.hbm ∧
    t.pending = s.pending ∧ ∃ x0, t.dev = { s.dev with out := x0 }) ∧
  (∀ (s : State) (pec : Bool), ∃ t, exec (.alertResponse pec) s = .next t ∧ t.hbm = s.hbm ∧ t.pending = s.pending ∧ ∃ x0,
    t.dev = { s.dev with out := x0 })

/-- The frames of REQUEST_PRE_OP, REQUEST_SAFE_OP, REQUEST_OP, PROCESS_DATA_WATCHDOG, PROCESS_DATA_OUTPUTS, SYNC0, CHALLENGE_EXPIRY,
SDO_SEGMENT_TIMEOUT, SESSION_IDLE_TIMEOUT: every register, buffer and object outside the named parts of the device is as before, and so
are all of memory and the queue. -/
def Obligations.FrameNetwork : Prop :=
  (∀ (s : State), ∃ t, exec .requestPreOp s = .next t ∧ t.hbm = s.hbm ∧ t.pending = s.pending ∧ ∃ x0,
    t.dev = { s.dev with net := x0 }) ∧
  (∀ (s : State) (cycle : Option Nat), ∃ t, exec (.requestSafeOp cycle) s = .next t ∧ t.hbm = s.hbm ∧ t.pending = s.pending ∧ ∃ x0,
    t.dev = { s.dev with net := x0 }) ∧
  (∀ (s : State), ∃ t, exec .requestOp s = .next t ∧ t.hbm = s.hbm ∧ t.pending = s.pending ∧ ∃ x0, t.dev = { s.dev with net := x0 }) ∧
  (∀ (s : State), ∃ t, exec .processDataWatchdog s = .next t ∧ t.hbm = s.hbm ∧ t.pending = s.pending ∧ ∃ x0,
    t.dev = { s.dev with net := x0 }) ∧
  (∀ (s : State) (data : Bytes), ∃ t, exec (.processDataOutputs data) s = .next t ∧ t.hbm = s.hbm ∧ t.pending = s.pending ∧ ∃ x0,
    t.dev = { s.dev with net := x0 }) ∧
  (∀ (s : State) (dcTime : Nat), ∃ t, exec (.sync0 dcTime) s = .next t ∧ t.hbm = s.hbm ∧ t.pending = s.pending ∧ ∃ x0 x1,
    t.dev = { s.dev with net := x0, od := x1 }) ∧
  (∀ (s : State) (c : Client), ∃ t, exec (.challengeExpiry c) s = .next t ∧ t.hbm = s.hbm ∧ t.pending = s.pending ∧ ∃ x0 x1,
    t.dev = { s.dev with net := x0, time := x1 }) ∧
  (∀ (s : State), ∃ t, exec .sdoSegmentTimeout s = .next t ∧ t.hbm = s.hbm ∧ t.pending = s.pending ∧ ∃ x0 x1 x2,
    t.dev = { s.dev with net := x0, time := x1, out := x2 }) ∧
  (∀ (s : State) (c : Client), ∃ t, exec (.sessionIdleTimeout c) s = .next t ∧ t.hbm = s.hbm ∧ t.pending = s.pending ∧
    ∃ x0 x1 x2 x3 x4 x5, t.dev = { s.dev with net := x0, time := x1, mem := x2, faults := x3, recr := x4, od := x5 })

/-- The frames of DEVICE_ECC_POLL, FAULT_EVENT, TWIN_PRESENT_CHANGE, SELECTOR_SETTLED, COLD_TAKEOVER_WAIT, ROLE_SWAP_DUE,
ROLE_SWAP_NOT_FOUND, HEARTBEAT_WRITE, STAGING_SCAN_DONE, CLEAR_ERASE_DONE, HEALTH_SOAK_ELAPSED: every register, buffer and object outside
the named parts of the device is as before, and so are all of memory and the queue, but for the errors of cells that DEVICE_ECC_POLL
brings. -/
def Obligations.FrameModule : Prop :=
  (∀ (s : State) (poll : EccPoll), ∃ t, exec (.deviceEccPoll poll) s = .next t ∧ t.pending = s.pending ∧
    (∃ y, t.hbm = { s.hbm with flaws := y }) ∧ ∃ x0 x1, t.dev = { s.dev with mem := x0, od := x1 }) ∧
  (∀ (s : State) (code cls scope index : Nat) (active : Bool) (detail : Bytes), (eventClasses code).contains cls = true → ∃ t,
    exec (.faultEvent code cls scope index active detail) s = .next t ∧ t.hbm = s.hbm ∧ t.pending = s.pending ∧ ∃ x0 x1 x2 x3 x4,
    t.dev = { s.dev with mem := x0, faults := x1, upd := x2, recr := x3, od := x4 }) ∧
  (∀ (s : State) (low : Bool) (id : Fin 2), ∃ t, exec (.twinPresentChange low id) s = .next t ∧ t.hbm = s.hbm ∧
    t.pending = s.pending ∧ ∃ x0, t.dev = { s.dev with twin := x0 }) ∧
  (∀ (s : State), ∃ t, exec .selectorSettled s = .next t ∧ t.hbm = s.hbm ∧ t.pending = s.pending ∧ ∃ x0 x1,
    t.dev = { s.dev with twin := x0, opt := x1 }) ∧
  (∀ (s : State) (coll : Bool), ∃ t, exec (.coldTakeoverWait coll) s = .next t ∧ t.hbm = s.hbm ∧ t.pending = s.pending ∧ ∃ x0 x1,
    t.dev = { s.dev with time := x0, twin := x1 }) ∧
  (∀ (s : State), ∃ t, exec .roleSwapDue s = .next t ∧ t.hbm = s.hbm ∧ t.pending = s.pending ∧ ∃ x0 x1,
    t.dev = { s.dev with time := x0, twin := x1 }) ∧
  (∀ (s : State), ∃ t, exec .roleSwapNotFound s = .next t ∧ t.hbm = s.hbm ∧ t.pending = s.pending ∧ ∃ x0 x1 x2 x3 x4 x5,
    t.dev = { s.dev with time := x0, mem := x1, faults := x2, twin := x3, recr := x4, od := x5 }) ∧
  (∀ (s : State), ∃ t, exec .heartbeatWrite s = .next t ∧ t.hbm = s.hbm ∧ t.pending = s.pending ∧ ∃ x0,
    t.dev = { s.dev with twin := x0 }) ∧
  (∀ (s : State), ∃ t, exec .stagingScanDone s = .next t ∧ t.hbm = s.hbm ∧ t.pending = s.pending ∧ ∃ x0,
    t.dev = { s.dev with upd := x0 }) ∧
  (∀ (s : State), ∃ t, exec .clearEraseDone s = .next t ∧ t.hbm = s.hbm ∧ t.pending = s.pending ∧ ∃ x0,
    t.dev = { s.dev with upd := x0 }) ∧
  (∀ (s : State), ∃ t, exec .healthSoakElapsed s = .next t ∧ t.hbm = s.hbm ∧ t.pending = s.pending ∧ ∃ x0 x1 x2 x3,
    t.dev = { s.dev with time := x0, upd := x1, od := x2, out := x3 })

/-- The frames of ROOT_STEP_NOTICE_END, PTP_DELAY_RESP, PTP_PDELAY_RESP, PTP_DELAY_REQ_INTERVAL, PPS_IN, PPS_IN_PRESENT_TIMEOUT,
POD_LATENCY_MEASURE, POSITION_CONFIRM_TIMEOUT, BOARD_COMMAND_FRAME, BOARD_HOLD_FRAME, BOARD_LOST, POD_TUNER_WRITE, POD_STROBE_DESC,
POD_HEATER_SET, POD_DELAY_SET, POD_CAL_SWEEP, POD_LBK, CAL_LANE_IN, PILOT_CROSSING, CAL_BACKGROUND_TIMER, TENTATIVE_WATCH,
LASER_MONITOR_POLL, LASER_MODULE_INSERTED, MOD_CAL_DUE, MOD_CAL_DONE, TRAINING_RETRY, ATTEMPT_END, MAPEN_CRC_ERROR: every register,
buffer and object outside the named parts of the device is as before, and so are all of memory and the queue. -/
def Obligations.FrameFabric : Prop :=
  (∀ (s : State), ∃ t, exec .rootStepNoticeEnd s = .next t ∧ t.hbm = s.hbm ∧ t.pending = s.pending ∧ ∃ x0,
    t.dev = { s.dev with time := x0 }) ∧
  (∀ (s : State) (d : Fin 2) (t4 : Nat) (r : DelayAns), ∃ t, exec (.ptpDelayResp d t4 r) s = .next t ∧ t.hbm = s.hbm ∧
    t.pending = s.pending ∧ ∃ x0 x1, t.dev = { s.dev with time := x0, od := x1 }) ∧
  (∀ (s : State) (d : Fin 2) (t2 t3 t4 : Nat) (corr : Int), ∃ t, exec (.ptpPdelayResp d t2 t3 t4 corr) s = .next t ∧ t.hbm = s.hbm ∧
    t.pending = s.pending ∧ ∃ x0 x1, t.dev = { s.dev with time := x0, od := x1 }) ∧
  (∀ (s : State) (d : Fin 2), ∃ t, exec (.ptpDelayReqInterval d) s = .next t ∧ t.hbm = s.hbm ∧ t.pending = s.pending ∧ ∃ x0 x1,
    t.dev = { s.dev with time := x0, out := x1 }) ∧
  (∀ (s : State) (stamp : Nat), ∃ t, exec (.ppsIn stamp) s = .next t ∧ t.hbm = s.hbm ∧ t.pending = s.pending ∧ ∃ x0 x1,
    t.dev = { s.dev with time := x0, od := x1 }) ∧
  (∀ (s : State), ∃ t, exec .ppsInPresentTimeout s = .next t ∧ t.hbm = s.hbm ∧ t.pending = s.pending ∧ ∃ x0 x1,
    t.dev = { s.dev with time := x0, od := x1 }) ∧
  (∀ (s : State) (j : Fin 16), ∃ t, exec (.podLatencyMeasure j) s = .next t ∧ t.hbm = s.hbm ∧ t.pending = s.pending ∧ ∃ x0,
    t.dev = { s.dev with out := x0 }) ∧
  (∀ (s : State), ∃ t, exec .positionConfirmTimeout s = .next t ∧ t.hbm = s.hbm ∧ t.pending = s.pending ∧ ∃ x0 x1 x2 x3 x4 x5,
    t.dev = { s.dev with time := x0, mem := x1, faults := x2, upd := x3, recr := x4, od := x5 }) ∧
  (∀ (s : State) (b : Fin 16) (board seq cycle twin : Nat) (outs : List (Int × Bool)) (crcOk : Bool), ∃ t,
    exec (.boardCommandFrame b board seq cycle twin outs crcOk) s = .next t ∧ t.hbm = s.hbm ∧ t.pending = s.pending ∧ ∃ x0,
    t.dev = { s.dev with eng := x0 }) ∧
  (∀ (s : State) (b : Fin 16) (board seq cycle twin : Nat) (crcOk : Bool), ∃ t,
    exec (.boardHoldFrame b board seq cycle twin crcOk) s = .next t ∧ t.hbm = s.hbm ∧ t.pending = s.pending ∧ ∃ x0,
    t.dev = { s.dev with eng := x0 }) ∧
  (∀ (s : State) (b : Fin 16), ∃ t, exec (.boardLost b) s = .next t ∧ t.hbm = s.hbm ∧ t.pending = s.pending ∧ ∃ x0 x1,
    t.dev = { s.dev with eng := x0, od := x1 }) ∧
  (∀ (s : State) (q : Fin 64) (writes : List TunerWrite) (crcOk : Bool), ∃ t, exec (.podTunerWrite q writes crcOk) s = .next t ∧
    t.hbm = s.hbm ∧ t.pending = s.pending ∧ ∃ x0 x1, t.dev = { s.dev with rings := x0, od := x1 }) ∧
  (∀ (s : State) (q : Fin 64) (id : Nat) (acts : List DescAct) (crcOk : Bool), ∃ t,
    exec (.podStrobeDesc q id acts crcOk) s = .next t ∧ t.hbm = s.hbm ∧ t.pending = s.pending ∧ ∃ x0 x1,
    t.dev = { s.dev with rings := x0, od := x1 }) ∧
  (∀ (s : State) (q : Fin 64) (codes : List (Fin 4096)) (crcOk : Bool), ∃ t, exec (.podHeaterSet q codes crcOk) s = .next t ∧
    t.hbm = s.hbm ∧ t.pending = s.pending ∧ ∃ x0 x1, t.dev = { s.dev with rings := x0, od := x1 }) ∧
  (∀ (s : State) (q : Fin 64) (delay : Fin 256) (crcOk : Bool), ∃ t, exec (.podDelaySet q delay crcOk) s = .next t ∧ t.hbm = s.hbm ∧
    t.pending = s.pending ∧ ∃ x0 x1, t.dev = { s.dev with rings := x0, od := x1 }) ∧
  (∀ (s : State) (q : Fin 64) (loc : Fin 16) (lane : Fin 8) (first step points : Nat) (crcOk : Bool), ∃ t,
    exec (.podCalSweep q loc lane first step points crcOk) s = .next t ∧ t.hbm = s.hbm ∧ t.pending = s.pending ∧ ∃ x0 x1,
    t.dev = { s.dev with rings := x0, od := x1 }) ∧
  (∀ (s : State) (q : Fin 64) (position : Fin 4), ∃ t, exec (.podLbk q position) s = .next t ∧ t.hbm = s.hbm ∧ t.pending = s.pending ∧
    ∃ x0, t.dev = { s.dev with out := x0 }) ∧
  (∀ (s : State) (p : Fin 1024) (k : Fin 8), ∃ t, exec (.calLaneIn p k) s = .next t ∧ t.hbm = s.hbm ∧ t.pending = s.pending ∧ ∃ x0 x1,
    t.dev = { s.dev with time := x0, rings := x1 }) ∧
  (∀ (s : State) (p : Fin 1024), ∃ t, exec (.pilotCrossing p) s = .next t ∧ t.hbm = s.hbm ∧ t.pending = s.pending ∧ ∃ x0 x1 x2 x3 x4,
    t.dev = { s.dev with arr := x0, mem := x1, faults := x2, recr := x3, od := x4 }) ∧
  (∀ (s : State), ∃ t, exec .calBackgroundTimer s = .next t ∧ t.hbm = s.hbm ∧ t.pending = s.pending ∧ ∃ x0 x1 x2 x3 x4 x5,
    t.dev = { s.dev with time := x0, rings := x1, opt := x2, power := x3, od := x4, out := x5 }) ∧
  (∀ (s : State) (p : Fin 1024), ∃ t, exec (.tentativeWatch p) s = .next t ∧ t.hbm = s.hbm ∧ t.pending = s.pending ∧ ∃ x0 x1,
    t.dev = { s.dev with time := x0, arr := x1 }) ∧
  (∀ (s : State) (slot_ : Fin 4) (power : List Int) (temp : Int), ∃ t, exec (.laserMonitorPoll slot_ power temp) s = .next t ∧
    t.hbm = s.hbm ∧ t.pending = s.pending ∧ ∃ x0, t.dev = { s.dev with opt := x0 }) ∧
  (∀ (s : State) (slot_ : Fin 4) (vendor part serial : Bytes) (freqOk powerOk mgmtOk : Bool), ∃ t,
    exec (.laserModuleInserted slot_ vendor part serial freqOk powerOk mgmtOk) s = .next t ∧ t.hbm = s.hbm ∧ t.pending = s.pending ∧
    ∃ x0 x1, t.dev = { s.dev with opt := x0, faults := x1 }) ∧
  (∀ (s : State) (l : Fin 295) (k : Fin 8), ∃ t, exec (.modCalDue l k) s = .next t ∧ t.hbm = s.hbm ∧ t.pending = s.pending ∧
    ∃ x0 x1 x2 x3 x4, t.dev = { s.dev with time := x0, opt := x1, twin := x2, od := x3, out := x4 }) ∧
  (∀ (s : State) (l : Fin 295) (k : Fin 8), 39 ≤ l.val → ∃ t, exec (.modCalDue l k) s = .next t ∧ t.hbm = s.hbm ∧ t.pending = s.pending ∧
    ∃ x0 x1, t.dev = { s.dev with time := x0, opt := x1 }) ∧
  (∀ (s : State) (l : Fin 295) (k : Fin 8), l.val < 39 → ∃ t, exec (.modCalDone l k) s = .next t ∧ t.hbm = s.hbm ∧ t.pending = s.pending ∧
    ∃ x0 x1 x2, t.dev = { s.dev with opt := x0, od := x1, out := x2 }) ∧
  (∀ (s : State) (l : Fin 295) (k : Fin 8), ∃ t, exec (.modCalDone l k) s = .next t ∧ t.hbm = s.hbm ∧ t.pending = s.pending ∧
    ∃ x0 x1 x2 x3 x4 x5 x6 x7,
    t.dev = { s.dev with time := x0, opt := x1, disc := x2, mem := x3, faults := x4, recr := x5, od := x6, out := x7 }) ∧
  (∀ (s : State) (l : Fin 39), ∃ t, exec (.trainingRetry l) s = .next t ∧ t.hbm = s.hbm ∧ t.pending = s.pending ∧ ∃ x0 x1,
    t.dev = { s.dev with time := x0, opt := x1 }) ∧
  (∀ (s : State) (p : Fin 1024), ∃ t, exec (.attemptEnd p) s = .next t ∧ t.hbm = s.hbm ∧ t.pending = s.pending ∧ ∃ x0 x1,
    t.dev = { s.dev with time := x0, disc := x1 }) ∧
  (∀ (s : State) (p : Fin 1024), ∃ t, exec (.mapenCrcError p) s = .next t ∧ t.hbm = s.hbm ∧ t.pending = s.pending ∧
    ∃ x0 x1 x2 x3 x4 x5, t.dev = { s.dev with disc := x0, mem := x1, faults := x2, upd := x3, recr := x4, od := x5 })

/-- Read after write of HBM code words (R295, R299, R310): a word reads as it was written, others as before, and a word of a block whose
valid bit is 0 as 64 zero bytes, clean. -/
def Obligations.HbmWordReadBack : Prop :=
  ∀ (h : Hbm) (s w : Nat) (data : Bytes) (poison : Bool), Memory.wf h = true → w < 2 ^ 30 → data.length = 64 →
    (h.setWord s w data poison).wordAt s w = (if poison then zeros 64 else data, poison) ∧
    (∀ s' w', w' < 2 ^ 30 → (s' ≠ s ∨ w' ≠ w) → pageKey s' (w' / 64) ∈ h.valid →
      (h.setWord s w data poison).wordAt s' w' = h.wordAt s' w') ∧
    (∀ s' w', pageKey s' (w' / 64) ∉ h.valid → h.wordAt s' w' = (zeros 64, false))

/-- Read after write of the object dictionary (R43). -/
def Obligations.ObjectReadBack : Prop :=
  ∀ (d : Dev) (i s : Nat) (v : Int), (d.setNum i s v).num i s = v ∧
    ∀ i' s', objKey i s ≠ objKey i' s' → (d.setNum i s v).num i' s' = d.num i' s' 

/-- The queue of the fault manager (R316, R318): an insertion stands behind every event of at least its class, and an arrival keeps the
order and the bound, whether it supersedes, merges, waits or overflows. -/
def Obligations.FaultQueueOrder : Prop :=
  (∀ (e : Event) (q : List Event), ordered q →
    queueInsert e q = q.filter (fun x => decide (e.cls ≤ x.cls)) ++ [e] ++ q.filter (fun x => decide (x.cls < e.cls))) ∧
  (∀ (d : Dev) (e : Event), ordered d.faults.queue → d.faults.queue.length ≤ 64 →
    ordered (d.enqueue e).faults.queue ∧ (d.enqueue e).faults.queue.length ≤ 64)

/-- R61, whole: commands 6 to 10 given through process data or by another role end with CMD_RESULT 4 and no effect, and while 0x2010 is
mapped into an RxPDO in Op an SDO write of it is refused with 0x0800_0021. The commands that a Maintainer gives are those of
DirectorCommands. -/
def Obligations.MaintainerCommands : Prop :=
  (∀ (s : State) (c : Cmd), 6 ≤ c.code → s.Gives .processData c →
    ∃ t, exec (c.given .processData) s = .next t ∧ t.Ran ((s.ordered .processData c).cmdEnds 4, s.hbm)) ∧
  (∀ (s : State) (k : Client) (c : Cmd), 6 ≤ c.code → s.Gives (.sdo k) c → (s.asked k).isMaintainer k = false →
    ∃ t, exec (c.given (.sdo k)) s = .next t ∧ t.Ran ((s.ordered (.sdo k) c).cmdEnds 4, s.hbm)) ∧
  (∀ (s : State) (k : Client) (x : Nat), s.Ready → (s.asked k).localControl = true →
    (s.asked k).refusesWrite k 0x2010 0 true (le 2 x) = none →
    ∃ t, exec (.objectWrite k 0x2010 0 false (le 2 x)) s = .next t ∧ t.Aborted s k 0x2010 0 0x08000021)

/-- The Director changes state only from the states of Table 2.12 (R62): a command given elsewhere ends with CMD_RESULT 2, and one whose
condition fails with 3, without effect. -/
def Obligations.DirectorRefusals : Prop :=
  ∀ (s : State) (src : CmdSrc) (c : Cmd), s.Gives src c → (6 ≤ c.code → (s.ordered src c).dir.latchedMaintainer = true) →
    ((s.dev.dir.state ∉ c.from_ → ∃ t, exec (c.given src) s = .next t ∧ t.Ran ((s.ordered src c).cmdEnds 2, s.hbm)) ∧
     (s.dev.dir.state ∈ c.from_ → c ≠ .enterMaint → (c.code ≤ 5 → s.dev.followsDrive = false) → (s.ordered src c).cmdGuard c = false →
      ∃ t, exec (c.given src) s = .next t ∧ t.Ran ((s.ordered src c).cmdEnds 3, s.hbm)))

/-- R380, whole: the 64 caps together never exceed the supply, since a write that would break this is refused with 0x0609_0030 and changes
nothing; the sums that the rule gives hold. -/
def Obligations.HeaterCaps : Prop :=
  (∀ (s : State) (c : Client) (q : Fin 64) (x : Nat), x < 2 ^ 32 → s.Ready →
    (s.asked c).refusesWrite c (0x3C00 + q.val) 5 true (le 4 x) = none →
    ((s.asked c).setNum (0x3C00 + q.val) 5 (x : Int)).nat 0x2120 7 < ((s.asked c).setNum (0x3C00 + q.val) 5 (x : Int)).capSum →
    ∃ t, exec (.heaterCap c q (le 4 x)) s = .next t ∧ t.Aborted s c (0x3C00 + q.val) 5 0x06090030) ∧
  (∀ (s : State) (c : Client) (x : Nat), x < 2 ^ 32 → s.Ready → (s.asked c).refusesWrite c 0x2120 7 true (le 4 x) = none →
    x < s.dev.capSum → ∃ t, exec (.heaterSupply c (le 4 x)) s = .next t ∧ t.Aborted s c 0x2120 7 0x06090030) ∧
  State.reset.dev.capSum = 288000 ∧ 64 * 4687 ≤ 300000

/-- The invariant of every step: the HBM store keeps its canonical form, so that equal memories are equal data. That it holds at reset is
ResetHolds. -/
def Obligations.InvKept : Prop :=
  ∀ s t : State, s.Inv → step s = .next t → t.Inv
end

