-- ==== Sys2Proof/Laws/Data.lean ====
section
/-!
SUPPORT. The laws of the sparse tables and sorted lists: what a read gives after a write, for every table.
-/

namespace Sys2Proof.Machine

variable {α : Type}

/-- A table read at the key just written gives the value. -/
@[simp] theorem tget_tset_same (d : α) (t : List (Nat × α)) (n : Nat) (x : α) : tget d (tset t n x) n = x := by
  induction t with
  | nil => simp [tset, tget]
  | cons e t ih =>
    simp only [tset]
    split
    · simp [tget]
    · split
      · simp [tget]
      · rename_i h
        simp [tget, h, ih]

/-- A table read at another key is not changed by a write. -/
theorem tget_tset_other (d : α) (t : List (Nat × α)) {n m : Nat} (x : α) (h : n ≠ m) :
    tget d (tset t n x) m = tget d t m := by
  induction t with
  | nil => simp [tset, tget, h]
  | cons e t ih =>
    simp only [tset]
    split
    · simp [tget, h]
    · split
      · rename_i hk
        have : ¬ e.1 = m := fun he => h (hk ▸ he)
        simp [tget, h, this]
      · simp only [tget, ih]

/-- A table read after a write, at any key. -/
theorem tget_tset (d : α) (t : List (Nat × α)) (n m : Nat) (x : α) :
    tget d (tset t n x) m = if n = m then x else tget d t m := by
  split
  · next h => subst h; exact tget_tset_same d t n x
  · next h => exact tget_tset_other d t x h

/-- A lookup at the key just written finds the value. -/
@[simp] theorem tfind_tset_same (t : List (Nat × α)) (n : Nat) (x : α) : tfind (tset t n x) n = some x := by
  induction t with
  | nil => simp [tset, tfind]
  | cons e t ih =>
    simp only [tset]
    split
    · simp [tfind]
    · split
      · simp [tfind]
      · rename_i h
        simp [tfind, h, ih]

/-- A lookup at another key is not changed by a write. -/
theorem tfind_tset_other (t : List (Nat × α)) {n m : Nat} (x : α) (h : n ≠ m) : tfind (tset t n x) m = tfind t m := by
  induction t with
  | nil => simp [tset, tfind, h]
  | cons e t ih =>
    simp only [tset]
    split
    · simp [tfind, h]
    · split
      · rename_i hk
        have : ¬ e.1 = m := fun he => h (hk ▸ he)
        simp [tfind, h, this]
      · simp only [tfind, ih]

/-- A changed entry reads as the change of what it read. -/
@[simp] theorem tget_tmod_same (d : α) (t : List (Nat × α)) (n : Nat) (f : α → α) : tget d (tmod d t n f) n = f (tget d t n) := by
  simp [tmod]

/-- The other entries of a table read as before. -/
theorem tget_tmod_other (d : α) (t : List (Nat × α)) {n m : Nat} (f : α → α) (h : n ≠ m) :
    tget d (tmod d t n f) m = tget d t m := tget_tset_other d t _ h

/-- A lookup finds nothing where the table has dropped the key. -/
@[simp] theorem tfind_tdel_same (t : List (Nat × α)) (n : Nat) : tfind (tdel t n) n = none := by
  induction t with
  | nil => simp [tdel, tfind]
  | cons e t ih =>
    by_cases h : e.1 = n
    · simpa [tdel, h] using ih
    · simpa [tdel, h, tfind] using ih

/-- A member of the list with one more member. -/
theorem mem_sinsert (l : List Nat) (n m : Nat) : m ∈ sinsert l n ↔ m = n ∨ m ∈ l := by
  induction l with
  | nil => simp [sinsert]
  | cons k t ih =>
    simp only [sinsert]
    split
    · simp
    · split
      · rename_i h; simp [h]
      · simp only [List.mem_cons, ih]; tauto

/-- The length of a little-endian field. -/
@[simp] theorem le_length (n x : Nat) : (le n x).length = n := by
  induction n generalizing x with
  | zero => simp [le]
  | succ n ih => simp [le, ih]

/-- The value of a little-endian field that was written whole. -/
theorem unle_le (n x : Nat) : unle (le n x) = x % 256 ^ n := by
  induction n generalizing x with
  | zero => simp [le, unle, Nat.mod_one]
  | succ n ih =>
    have h : 256 ^ (n + 1) = 256 * 256 ^ n := by rw [Nat.pow_succ, Nat.mul_comm]
    rw [le, unle, ih, BitVec.toNat_ofNat, h, Nat.mod_mul]

end Sys2Proof.Machine
end

