-- ==== Sys2Proof/Laws/State.lean ====
section
/-!
SUPPORT. What each update leaves alone: one lemma per field of the state per update, so that no proof unfolds a record update.
-/

namespace Sys2Proof.Machine

variable (d : Dev) (s : State)

/-! ### Updates of the whole machine -/

@[simp] theorem onDev_dev (f : Dev → Dev) : (s.onDev f).dev = f s.dev := rfl
@[simp] theorem onDev_hbm (f : Dev → Dev) : (s.onDev f).hbm = s.hbm := rfl
@[simp] theorem onDev_pending (f : Dev → Dev) : (s.onDev f).pending = s.pending := rfl
@[simp] theorem onMem_dev (f : Dev → Hbm → Dev × Hbm) : (s.onMem f).dev = (f s.dev s.hbm).1 := rfl
@[simp] theorem onMem_hbm (f : Dev → Hbm → Dev × Hbm) : (s.onMem f).hbm = (f s.dev s.hbm).2 := rfl
@[simp] theorem onMem_pending (f : Dev → Hbm → Dev × Hbm) : (s.onMem f).pending = s.pending := rfl

/-! ### Updates of the Director -/

@[simp] theorem modTwin_module (f : Twin → Twin) : (d.modTwin f).module = d.module := rfl
@[simp] theorem modTwin_net (f : Twin → Twin) : (d.modTwin f).net = d.net := rfl
@[simp] theorem modTwin_dir (f : Twin → Twin) : (d.modTwin f).dir = d.dir := rfl
@[simp] theorem modTwin_jobs (f : Twin → Twin) : (d.modTwin f).jobs = d.jobs := rfl
@[simp] theorem modTwin_circuits (f : Twin → Twin) : (d.modTwin f).circuits = d.circuits := rfl
@[simp] theorem modTwin_runs (f : Twin → Twin) : (d.modTwin f).runs = d.runs := rfl
@[simp] theorem modTwin_time (f : Twin → Twin) : (d.modTwin f).time = d.time := rfl
@[simp] theorem modTwin_eng (f : Twin → Twin) : (d.modTwin f).eng = d.eng := rfl
@[simp] theorem modTwin_rings (f : Twin → Twin) : (d.modTwin f).rings = d.rings := rfl
@[simp] theorem modTwin_arr (f : Twin → Twin) : (d.modTwin f).arr = d.arr := rfl
@[simp] theorem modTwin_opt (f : Twin → Twin) : (d.modTwin f).opt = d.opt := rfl
@[simp] theorem modTwin_disc (f : Twin → Twin) : (d.modTwin f).disc = d.disc := rfl
@[simp] theorem modTwin_coll (f : Twin → Twin) : (d.modTwin f).coll = d.coll := rfl
@[simp] theorem modTwin_mem (f : Twin → Twin) : (d.modTwin f).mem = d.mem := rfl
@[simp] theorem modTwin_faults (f : Twin → Twin) : (d.modTwin f).faults = d.faults := rfl
@[simp] theorem modTwin_power (f : Twin → Twin) : (d.modTwin f).power = d.power := rfl
@[simp] theorem modTwin_upd (f : Twin → Twin) : (d.modTwin f).upd = d.upd := rfl
@[simp] theorem modTwin_recr (f : Twin → Twin) : (d.modTwin f).recr = d.recr := rfl
@[simp] theorem modTwin_od (f : Twin → Twin) : (d.modTwin f).od = d.od := rfl
@[simp] theorem modTwin_ob (f : Twin → Twin) : (d.modTwin f).ob = d.ob := rfl
@[simp] theorem modTwin_out (f : Twin → Twin) : (d.modTwin f).out = d.out := rfl
@[simp] theorem modTwin_fresh (f : Twin → Twin) : (d.modTwin f).fresh = d.fresh := rfl

@[simp] theorem reach_module (t : Nat) : (d.reach t).module = d.module := rfl
@[simp] theorem reach_net (t : Nat) : (d.reach t).net = d.net := rfl
@[simp] theorem reach_dir (t : Nat) : (d.reach t).dir = d.dir := rfl
@[simp] theorem reach_jobs (t : Nat) : (d.reach t).jobs = d.jobs := rfl
@[simp] theorem reach_circuits (t : Nat) : (d.reach t).circuits = d.circuits := rfl
@[simp] theorem reach_runs (t : Nat) : (d.reach t).runs = d.runs := rfl
@[simp] theorem reach_eng (t : Nat) : (d.reach t).eng = d.eng := rfl
@[simp] theorem reach_rings (t : Nat) : (d.reach t).rings = d.rings := rfl
@[simp] theorem reach_arr (t : Nat) : (d.reach t).arr = d.arr := rfl
@[simp] theorem reach_opt (t : Nat) : (d.reach t).opt = d.opt := rfl
@[simp] theorem reach_disc (t : Nat) : (d.reach t).disc = d.disc := rfl
@[simp] theorem reach_coll (t : Nat) : (d.reach t).coll = d.coll := rfl
@[simp] theorem reach_mem (t : Nat) : (d.reach t).mem = d.mem := rfl
@[simp] theorem reach_faults (t : Nat) : (d.reach t).faults = d.faults := rfl
@[simp] theorem reach_twin (t : Nat) : (d.reach t).twin = d.twin := rfl
@[simp] theorem reach_power (t : Nat) : (d.reach t).power = d.power := rfl
@[simp] theorem reach_upd (t : Nat) : (d.reach t).upd = d.upd := rfl
@[simp] theorem reach_recr (t : Nat) : (d.reach t).recr = d.recr := rfl
@[simp] theorem reach_od (t : Nat) : (d.reach t).od = d.od := rfl
@[simp] theorem reach_ob (t : Nat) : (d.reach t).ob = d.ob := rfl
@[simp] theorem reach_out (t : Nat) : (d.reach t).out = d.out := rfl
@[simp] theorem reach_fresh (t : Nat) : (d.reach t).fresh = d.fresh := rfl

@[simp] theorem setNum_module (i s : Nat) (v : Int) : (d.setNum i s v).module = d.module := rfl
@[simp] theorem setNum_net (i s : Nat) (v : Int) : (d.setNum i s v).net = d.net := rfl
@[simp] theorem setNum_dir (i s : Nat) (v : Int) : (d.setNum i s v).dir = d.dir := rfl
@[simp] theorem setNum_jobs (i s : Nat) (v : Int) : (d.setNum i s v).jobs = d.jobs := rfl
@[simp] theorem setNum_circuits (i s : Nat) (v : Int) : (d.setNum i s v).circuits = d.circuits := rfl
@[simp] theorem setNum_runs (i s : Nat) (v : Int) : (d.setNum i s v).runs = d.runs := rfl
@[simp] theorem setNum_time (i s : Nat) (v : Int) : (d.setNum i s v).time = d.time := rfl
@[simp] theorem setNum_eng (i s : Nat) (v : Int) : (d.setNum i s v).eng = d.eng := rfl
@[simp] theorem setNum_rings (i s : Nat) (v : Int) : (d.setNum i s v).rings = d.rings := rfl
@[simp] theorem setNum_arr (i s : Nat) (v : Int) : (d.setNum i s v).arr = d.arr := rfl
@[simp] theorem setNum_opt (i s : Nat) (v : Int) : (d.setNum i s v).opt = d.opt := rfl
@[simp] theorem setNum_disc (i s : Nat) (v : Int) : (d.setNum i s v).disc = d.disc := rfl
@[simp] theorem setNum_coll (i s : Nat) (v : Int) : (d.setNum i s v).coll = d.coll := rfl
@[simp] theorem setNum_mem (i s : Nat) (v : Int) : (d.setNum i s v).mem = d.mem := rfl
@[simp] theorem setNum_faults (i s : Nat) (v : Int) : (d.setNum i s v).faults = d.faults := rfl
@[simp] theorem setNum_twin (i s : Nat) (v : Int) : (d.setNum i s v).twin = d.twin := rfl
@[simp] theorem setNum_power (i s : Nat) (v : Int) : (d.setNum i s v).power = d.power := rfl
@[simp] theorem setNum_upd (i s : Nat) (v : Int) : (d.setNum i s v).upd = d.upd := rfl
@[simp] theorem setNum_recr (i s : Nat) (v : Int) : (d.setNum i s v).recr = d.recr := rfl
@[simp] theorem setNum_ob (i s : Nat) (v : Int) : (d.setNum i s v).ob = d.ob := rfl
@[simp] theorem setNum_out (i s : Nat) (v : Int) : (d.setNum i s v).out = d.out := rfl
@[simp] theorem setNum_fresh (i s : Nat) (v : Int) : (d.setNum i s v).fresh = d.fresh := rfl

@[simp] theorem setFlag_module (i s : Nat) (b : Bool) : (d.setFlag i s b).module = d.module := rfl
@[simp] theorem setFlag_net (i s : Nat) (b : Bool) : (d.setFlag i s b).net = d.net := rfl
@[simp] theorem setFlag_dir (i s : Nat) (b : Bool) : (d.setFlag i s b).dir = d.dir := rfl
@[simp] theorem setFlag_jobs (i s : Nat) (b : Bool) : (d.setFlag i s b).jobs = d.jobs := rfl
@[simp] theorem setFlag_circuits (i s : Nat) (b : Bool) : (d.setFlag i s b).circuits = d.circuits := rfl
@[simp] theorem setFlag_runs (i s : Nat) (b : Bool) : (d.setFlag i s b).runs = d.runs := rfl
@[simp] theorem setFlag_time (i s : Nat) (b : Bool) : (d.setFlag i s b).time = d.time := rfl
@[simp] theorem setFlag_eng (i s : Nat) (b : Bool) : (d.setFlag i s b).eng = d.eng := rfl
@[simp] theorem setFlag_rings (i s : Nat) (b : Bool) : (d.setFlag i s b).rings = d.rings := rfl
@[simp] theorem setFlag_arr (i s : Nat) (b : Bool) : (d.setFlag i s b).arr = d.arr := rfl
@[simp] theorem setFlag_opt (i s : Nat) (b : Bool) : (d.setFlag i s b).opt = d.opt := rfl
@[simp] theorem setFlag_disc (i s : Nat) (b : Bool) : (d.setFlag i s b).disc = d.disc := rfl
@[simp] theorem setFlag_coll (i s : Nat) (b : Bool) : (d.setFlag i s b).coll = d.coll := rfl
@[simp] theorem setFlag_mem (i s : Nat) (b : Bool) : (d.setFlag i s b).mem = d.mem := rfl
@[simp] theorem setFlag_faults (i s : Nat) (b : Bool) : (d.setFlag i s b).faults = d.faults := rfl
@[simp] theorem setFlag_twin (i s : Nat) (b : Bool) : (d.setFlag i s b).twin = d.twin := rfl
@[simp] theorem setFlag_power (i s : Nat) (b : Bool) : (d.setFlag i s b).power = d.power := rfl
@[simp] theorem setFlag_upd (i s : Nat) (b : Bool) : (d.setFlag i s b).upd = d.upd := rfl
@[simp] theorem setFlag_recr (i s : Nat) (b : Bool) : (d.setFlag i s b).recr = d.recr := rfl
@[simp] theorem setFlag_ob (i s : Nat) (b : Bool) : (d.setFlag i s b).ob = d.ob := rfl
@[simp] theorem setFlag_out (i s : Nat) (b : Bool) : (d.setFlag i s b).out = d.out := rfl
@[simp] theorem setFlag_fresh (i s : Nat) (b : Bool) : (d.setFlag i s b).fresh = d.fresh := rfl

@[simp] theorem bump_module (i s n : Nat) : (d.bump i s n).module = d.module := rfl
@[simp] theorem bump_net (i s n : Nat) : (d.bump i s n).net = d.net := rfl
@[simp] theorem bump_dir (i s n : Nat) : (d.bump i s n).dir = d.dir := rfl
@[simp] theorem bump_jobs (i s n : Nat) : (d.bump i s n).jobs = d.jobs := rfl
@[simp] theorem bump_circuits (i s n : Nat) : (d.bump i s n).circuits = d.circuits := rfl
@[simp] theorem bump_runs (i s n : Nat) : (d.bump i s n).runs = d.runs := rfl
@[simp] theorem bump_time (i s n : Nat) : (d.bump i s n).time = d.time := rfl
@[simp] theorem bump_eng (i s n : Nat) : (d.bump i s n).eng = d.eng := rfl
@[simp] theorem bump_rings (i s n : Nat) : (d.bump i s n).rings = d.rings := rfl
@[simp] theorem bump_arr (i s n : Nat) : (d.bump i s n).arr = d.arr := rfl
@[simp] theorem bump_opt (i s n : Nat) : (d.bump i s n).opt = d.opt := rfl
@[simp] theorem bump_disc (i s n : Nat) : (d.bump i s n).disc = d.disc := rfl
@[simp] theorem bump_coll (i s n : Nat) : (d.bump i s n).coll = d.coll := rfl
@[simp] theorem bump_mem (i s n : Nat) : (d.bump i s n).mem = d.mem := rfl
@[simp] theorem bump_faults (i s n : Nat) : (d.bump i s n).faults = d.faults := rfl
@[simp] theorem bump_twin (i s n : Nat) : (d.bump i s n).twin = d.twin := rfl
@[simp] theorem bump_power (i s n : Nat) : (d.bump i s n).power = d.power := rfl
@[simp] theorem bump_upd (i s n : Nat) : (d.bump i s n).upd = d.upd := rfl
@[simp] theorem bump_recr (i s n : Nat) : (d.bump i s n).recr = d.recr := rfl
@[simp] theorem bump_ob (i s n : Nat) : (d.bump i s n).ob = d.ob := rfl
@[simp] theorem bump_out (i s n : Nat) : (d.bump i s n).out = d.out := rfl
@[simp] theorem bump_fresh (i s n : Nat) : (d.bump i s n).fresh = d.fresh := rfl

@[simp] theorem setOct_module (i s : Nat) (b : Bytes) : (d.setOct i s b).module = d.module := rfl
@[simp] theorem setOct_net (i s : Nat) (b : Bytes) : (d.setOct i s b).net = d.net := rfl
@[simp] theorem setOct_dir (i s : Nat) (b : Bytes) : (d.setOct i s b).dir = d.dir := rfl
@[simp] theorem setOct_jobs (i s : Nat) (b : Bytes) : (d.setOct i s b).jobs = d.jobs := rfl
@[simp] theorem setOct_circuits (i s : Nat) (b : Bytes) : (d.setOct i s b).circuits = d.circuits := rfl
@[simp] theorem setOct_runs (i s : Nat) (b : Bytes) : (d.setOct i s b).runs = d.runs := rfl
@[simp] theorem setOct_time (i s : Nat) (b : Bytes) : (d.setOct i s b).time = d.time := rfl
@[simp] theorem setOct_eng (i s : Nat) (b : Bytes) : (d.setOct i s b).eng = d.eng := rfl
@[simp] theorem setOct_rings (i s : Nat) (b : Bytes) : (d.setOct i s b).rings = d.rings := rfl
@[simp] theorem setOct_arr (i s : Nat) (b : Bytes) : (d.setOct i s b).arr = d.arr := rfl
@[simp] theorem setOct_opt (i s : Nat) (b : Bytes) : (d.setOct i s b).opt = d.opt := rfl
@[simp] theorem setOct_disc (i s : Nat) (b : Bytes) : (d.setOct i s b).disc = d.disc := rfl
@[simp] theorem setOct_coll (i s : Nat) (b : Bytes) : (d.setOct i s b).coll = d.coll := rfl
@[simp] theorem setOct_mem (i s : Nat) (b : Bytes) : (d.setOct i s b).mem = d.mem := rfl
@[simp] theorem setOct_faults (i s : Nat) (b : Bytes) : (d.setOct i s b).faults = d.faults := rfl
@[simp] theorem setOct_twin (i s : Nat) (b : Bytes) : (d.setOct i s b).twin = d.twin := rfl
@[simp] theorem setOct_power (i s : Nat) (b : Bytes) : (d.setOct i s b).power = d.power := rfl
@[simp] theorem setOct_upd (i s : Nat) (b : Bytes) : (d.setOct i s b).upd = d.upd := rfl
@[simp] theorem setOct_recr (i s : Nat) (b : Bytes) : (d.setOct i s b).recr = d.recr := rfl
@[simp] theorem setOct_od (i s : Nat) (b : Bytes) : (d.setOct i s b).od = d.od := rfl
@[simp] theorem setOct_out (i s : Nat) (b : Bytes) : (d.setOct i s b).out = d.out := rfl
@[simp] theorem setOct_fresh (i s : Nat) (b : Bytes) : (d.setOct i s b).fresh = d.fresh := rfl

@[simp] theorem emit_module (o : Output) : (d.emit o).module = d.module := rfl
@[simp] theorem emit_net (o : Output) : (d.emit o).net = d.net := rfl
@[simp] theorem emit_dir (o : Output) : (d.emit o).dir = d.dir := rfl
@[simp] theorem emit_jobs (o : Output) : (d.emit o).jobs = d.jobs := rfl
@[simp] theorem emit_circuits (o : Output) : (d.emit o).circuits = d.circuits := rfl
@[simp] theorem emit_runs (o : Output) : (d.emit o).runs = d.runs := rfl
@[simp] theorem emit_time (o : Output) : (d.emit o).time = d.time := rfl
@[simp] theorem emit_eng (o : Output) : (d.emit o).eng = d.eng := rfl
@[simp] theorem emit_rings (o : Output) : (d.emit o).rings = d.rings := rfl
@[simp] theorem emit_arr (o : Output) : (d.emit o).arr = d.arr := rfl
@[simp] theorem emit_opt (o : Output) : (d.emit o).opt = d.opt := rfl
@[simp] theorem emit_disc (o : Output) : (d.emit o).disc = d.disc := rfl
@[simp] theorem emit_coll (o : Output) : (d.emit o).coll = d.coll := rfl
@[simp] theorem emit_mem (o : Output) : (d.emit o).mem = d.mem := rfl
@[simp] theorem emit_faults (o : Output) : (d.emit o).faults = d.faults := rfl
@[simp] theorem emit_twin (o : Output) : (d.emit o).twin = d.twin := rfl
@[simp] theorem emit_power (o : Output) : (d.emit o).power = d.power := rfl
@[simp] theorem emit_upd (o : Output) : (d.emit o).upd = d.upd := rfl
@[simp] theorem emit_recr (o : Output) : (d.emit o).recr = d.recr := rfl
@[simp] theorem emit_od (o : Output) : (d.emit o).od = d.od := rfl
@[simp] theorem emit_ob (o : Output) : (d.emit o).ob = d.ob := rfl
@[simp] theorem emit_fresh (o : Output) : (d.emit o).fresh = d.fresh := rfl

@[simp] theorem emits_module (l : List Output) : (d.emits l).module = d.module := rfl
@[simp] theorem emits_net (l : List Output) : (d.emits l).net = d.net := rfl
@[simp] theorem emits_dir (l : List Output) : (d.emits l).dir = d.dir := rfl
@[simp] theorem emits_jobs (l : List Output) : (d.emits l).jobs = d.jobs := rfl
@[simp] theorem emits_circuits (l : List Output) : (d.emits l).circuits = d.circuits := rfl
@[simp] theorem emits_runs (l : List Output) : (d.emits l).runs = d.runs := rfl
@[simp] theorem emits_time (l : List Output) : (d.emits l).time = d.time := rfl
@[simp] theorem emits_eng (l : List Output) : (d.emits l).eng = d.eng := rfl
@[simp] theorem emits_rings (l : List Output) : (d.emits l).rings = d.rings := rfl
@[simp] theorem emits_arr (l : List Output) : (d.emits l).arr = d.arr := rfl
@[simp] theorem emits_opt (l : List Output) : (d.emits l).opt = d.opt := rfl
@[simp] theorem emits_disc (l : List Output) : (d.emits l).disc = d.disc := rfl
@[simp] theorem emits_coll (l : List Output) : (d.emits l).coll = d.coll := rfl
@[simp] theorem emits_mem (l : List Output) : (d.emits l).mem = d.mem := rfl
@[simp] theorem emits_faults (l : List Output) : (d.emits l).faults = d.faults := rfl
@[simp] theorem emits_twin (l : List Output) : (d.emits l).twin = d.twin := rfl
@[simp] theorem emits_power (l : List Output) : (d.emits l).power = d.power := rfl
@[simp] theorem emits_upd (l : List Output) : (d.emits l).upd = d.upd := rfl
@[simp] theorem emits_recr (l : List Output) : (d.emits l).recr = d.recr := rfl
@[simp] theorem emits_od (l : List Output) : (d.emits l).od = d.od := rfl
@[simp] theorem emits_ob (l : List Output) : (d.emits l).ob = d.ob := rfl
@[simp] theorem emits_fresh (l : List Output) : (d.emits l).fresh = d.fresh := rfl

@[simp] theorem drawn_module (n : Nat) : (d.drawn n).module = d.module := rfl
@[simp] theorem drawn_net (n : Nat) : (d.drawn n).net = d.net := rfl
@[simp] theorem drawn_dir (n : Nat) : (d.drawn n).dir = d.dir := rfl
@[simp] theorem drawn_jobs (n : Nat) : (d.drawn n).jobs = d.jobs := rfl
@[simp] theorem drawn_circuits (n : Nat) : (d.drawn n).circuits = d.circuits := rfl
@[simp] theorem drawn_runs (n : Nat) : (d.drawn n).runs = d.runs := rfl
@[simp] theorem drawn_time (n : Nat) : (d.drawn n).time = d.time := rfl
@[simp] theorem drawn_eng (n : Nat) : (d.drawn n).eng = d.eng := rfl
@[simp] theorem drawn_rings (n : Nat) : (d.drawn n).rings = d.rings := rfl
@[simp] theorem drawn_arr (n : Nat) : (d.drawn n).arr = d.arr := rfl
@[simp] theorem drawn_opt (n : Nat) : (d.drawn n).opt = d.opt := rfl
@[simp] theorem drawn_disc (n : Nat) : (d.drawn n).disc = d.disc := rfl
@[simp] theorem drawn_coll (n : Nat) : (d.drawn n).coll = d.coll := rfl
@[simp] theorem drawn_mem (n : Nat) : (d.drawn n).mem = d.mem := rfl
@[simp] theorem drawn_faults (n : Nat) : (d.drawn n).faults = d.faults := rfl
@[simp] theorem drawn_twin (n : Nat) : (d.drawn n).twin = d.twin := rfl
@[simp] theorem drawn_power (n : Nat) : (d.drawn n).power = d.power := rfl
@[simp] theorem drawn_upd (n : Nat) : (d.drawn n).upd = d.upd := rfl
@[simp] theorem drawn_recr (n : Nat) : (d.drawn n).recr = d.recr := rfl
@[simp] theorem drawn_od (n : Nat) : (d.drawn n).od = d.od := rfl
@[simp] theorem drawn_ob (n : Nat) : (d.drawn n).ob = d.ob := rfl
@[simp] theorem drawn_out (n : Nat) : (d.drawn n).out = d.out := rfl

@[simp] theorem modJob_module (j : Nat) (f : Job → Job) : (d.modJob j f).module = d.module := rfl
@[simp] theorem modJob_net (j : Nat) (f : Job → Job) : (d.modJob j f).net = d.net := rfl
@[simp] theorem modJob_dir (j : Nat) (f : Job → Job) : (d.modJob j f).dir = d.dir := rfl
@[simp] theorem modJob_circuits (j : Nat) (f : Job → Job) : (d.modJob j f).circuits = d.circuits := rfl
@[simp] theorem modJob_runs (j : Nat) (f : Job → Job) : (d.modJob j f).runs = d.runs := rfl
@[simp] theorem modJob_time (j : Nat) (f : Job → Job) : (d.modJob j f).time = d.time := rfl
@[simp] theorem modJob_eng (j : Nat) (f : Job → Job) : (d.modJob j f).eng = d.eng := rfl
@[simp] theorem modJob_rings (j : Nat) (f : Job → Job) : (d.modJob j f).rings = d.rings := rfl
@[simp] theorem modJob_arr (j : Nat) (f : Job → Job) : (d.modJob j f).arr = d.arr := rfl
@[simp] theorem modJob_opt (j : Nat) (f : Job → Job) : (d.modJob j f).opt = d.opt := rfl
@[simp] theorem modJob_disc (j : Nat) (f : Job → Job) : (d.modJob j f).disc = d.disc := rfl
@[simp] theorem modJob_coll (j : Nat) (f : Job → Job) : (d.modJob j f).coll = d.coll := rfl
@[simp] theorem modJob_mem (j : Nat) (f : Job → Job) : (d.modJob j f).mem = d.mem := rfl
@[simp] theorem modJob_faults (j : Nat) (f : Job → Job) : (d.modJob j f).faults = d.faults := rfl
@[simp] theorem modJob_twin (j : Nat) (f : Job → Job) : (d.modJob j f).twin = d.twin := rfl
@[simp] theorem modJob_power (j : Nat) (f : Job → Job) : (d.modJob j f).power = d.power := rfl
@[simp] theorem modJob_upd (j : Nat) (f : Job → Job) : (d.modJob j f).upd = d.upd := rfl
@[simp] theorem modJob_recr (j : Nat) (f : Job → Job) : (d.modJob j f).recr = d.recr := rfl
@[simp] theorem modJob_od (j : Nat) (f : Job → Job) : (d.modJob j f).od = d.od := rfl
@[simp] theorem modJob_ob (j : Nat) (f : Job → Job) : (d.modJob j f).ob = d.ob := rfl
@[simp] theorem modJob_out (j : Nat) (f : Job → Job) : (d.modJob j f).out = d.out := rfl
@[simp] theorem modJob_fresh (j : Nat) (f : Job → Job) : (d.modJob j f).fresh = d.fresh := rfl

@[simp] theorem modRun_module (j : Nat) (f : Run → Run) : (d.modRun j f).module = d.module := rfl
@[simp] theorem modRun_net (j : Nat) (f : Run → Run) : (d.modRun j f).net = d.net := rfl
@[simp] theorem modRun_dir (j : Nat) (f : Run → Run) : (d.modRun j f).dir = d.dir := rfl
@[simp] theorem modRun_jobs (j : Nat) (f : Run → Run) : (d.modRun j f).jobs = d.jobs := rfl
@[simp] theorem modRun_circuits (j : Nat) (f : Run → Run) : (d.modRun j f).circuits = d.circuits := rfl
@[simp] theorem modRun_time (j : Nat) (f : Run → Run) : (d.modRun j f).time = d.time := rfl
@[simp] theorem modRun_eng (j : Nat) (f : Run → Run) : (d.modRun j f).eng = d.eng := rfl
@[simp] theorem modRun_rings (j : Nat) (f : Run → Run) : (d.modRun j f).rings = d.rings := rfl
@[simp] theorem modRun_arr (j : Nat) (f : Run → Run) : (d.modRun j f).arr = d.arr := rfl
@[simp] theorem modRun_opt (j : Nat) (f : Run → Run) : (d.modRun j f).opt = d.opt := rfl
@[simp] theorem modRun_disc (j : Nat) (f : Run → Run) : (d.modRun j f).disc = d.disc := rfl
@[simp] theorem modRun_coll (j : Nat) (f : Run → Run) : (d.modRun j f).coll = d.coll := rfl
@[simp] theorem modRun_mem (j : Nat) (f : Run → Run) : (d.modRun j f).mem = d.mem := rfl
@[simp] theorem modRun_faults (j : Nat) (f : Run → Run) : (d.modRun j f).faults = d.faults := rfl
@[simp] theorem modRun_twin (j : Nat) (f : Run → Run) : (d.modRun j f).twin = d.twin := rfl
@[simp] theorem modRun_power (j : Nat) (f : Run → Run) : (d.modRun j f).power = d.power := rfl
@[simp] theorem modRun_upd (j : Nat) (f : Run → Run) : (d.modRun j f).upd = d.upd := rfl
@[simp] theorem modRun_recr (j : Nat) (f : Run → Run) : (d.modRun j f).recr = d.recr := rfl
@[simp] theorem modRun_od (j : Nat) (f : Run → Run) : (d.modRun j f).od = d.od := rfl
@[simp] theorem modRun_ob (j : Nat) (f : Run → Run) : (d.modRun j f).ob = d.ob := rfl
@[simp] theorem modRun_out (j : Nat) (f : Run → Run) : (d.modRun j f).out = d.out := rfl
@[simp] theorem modRun_fresh (j : Nat) (f : Run → Run) : (d.modRun j f).fresh = d.fresh := rfl

@[simp] theorem modAxis_module (a : Nat) (f : Axis → Axis) : (d.modAxis a f).module = d.module := rfl
@[simp] theorem modAxis_net (a : Nat) (f : Axis → Axis) : (d.modAxis a f).net = d.net := rfl
@[simp] theorem modAxis_dir (a : Nat) (f : Axis → Axis) : (d.modAxis a f).dir = d.dir := rfl
@[simp] theorem modAxis_jobs (a : Nat) (f : Axis → Axis) : (d.modAxis a f).jobs = d.jobs := rfl
@[simp] theorem modAxis_circuits (a : Nat) (f : Axis → Axis) : (d.modAxis a f).circuits = d.circuits := rfl
@[simp] theorem modAxis_runs (a : Nat) (f : Axis → Axis) : (d.modAxis a f).runs = d.runs := rfl
@[simp] theorem modAxis_time (a : Nat) (f : Axis → Axis) : (d.modAxis a f).time = d.time := rfl
@[simp] theorem modAxis_rings (a : Nat) (f : Axis → Axis) : (d.modAxis a f).rings = d.rings := rfl
@[simp] theorem modAxis_arr (a : Nat) (f : Axis → Axis) : (d.modAxis a f).arr = d.arr := rfl
@[simp] theorem modAxis_opt (a : Nat) (f : Axis → Axis) : (d.modAxis a f).opt = d.opt := rfl
@[simp] theorem modAxis_disc (a : Nat) (f : Axis → Axis) : (d.modAxis a f).disc = d.disc := rfl
@[simp] theorem modAxis_coll (a : Nat) (f : Axis → Axis) : (d.modAxis a f).coll = d.coll := rfl
@[simp] theorem modAxis_mem (a : Nat) (f : Axis → Axis) : (d.modAxis a f).mem = d.mem := rfl
@[simp] theorem modAxis_faults (a : Nat) (f : Axis → Axis) : (d.modAxis a f).faults = d.faults := rfl
@[simp] theorem modAxis_twin (a : Nat) (f : Axis → Axis) : (d.modAxis a f).twin = d.twin := rfl
@[simp] theorem modAxis_power (a : Nat) (f : Axis → Axis) : (d.modAxis a f).power = d.power := rfl
@[simp] theorem modAxis_upd (a : Nat) (f : Axis → Axis) : (d.modAxis a f).upd = d.upd := rfl
@[simp] theorem modAxis_recr (a : Nat) (f : Axis → Axis) : (d.modAxis a f).recr = d.recr := rfl
@[simp] theorem modAxis_od (a : Nat) (f : Axis → Axis) : (d.modAxis a f).od = d.od := rfl
@[simp] theorem modAxis_ob (a : Nat) (f : Axis → Axis) : (d.modAxis a f).ob = d.ob := rfl
@[simp] theorem modAxis_out (a : Nat) (f : Axis → Axis) : (d.modAxis a f).out = d.out := rfl
@[simp] theorem modAxis_fresh (a : Nat) (f : Axis → Axis) : (d.modAxis a f).fresh = d.fresh := rfl

@[simp] theorem modHead_module (a : Nat) (f : Head → Head) : (d.modHead a f).module = d.module := rfl
@[simp] theorem modHead_net (a : Nat) (f : Head → Head) : (d.modHead a f).net = d.net := rfl
@[simp] theorem modHead_dir (a : Nat) (f : Head → Head) : (d.modHead a f).dir = d.dir := rfl
@[simp] theorem modHead_jobs (a : Nat) (f : Head → Head) : (d.modHead a f).jobs = d.jobs := rfl
@[simp] theorem modHead_circuits (a : Nat) (f : Head → Head) : (d.modHead a f).circuits = d.circuits := rfl
@[simp] theorem modHead_runs (a : Nat) (f : Head → Head) : (d.modHead a f).runs = d.runs := rfl
@[simp] theorem modHead_time (a : Nat) (f : Head → Head) : (d.modHead a f).time = d.time := rfl
@[simp] theorem modHead_rings (a : Nat) (f : Head → Head) : (d.modHead a f).rings = d.rings := rfl
@[simp] theorem modHead_arr (a : Nat) (f : Head → Head) : (d.modHead a f).arr = d.arr := rfl
@[simp] theorem modHead_opt (a : Nat) (f : Head → Head) : (d.modHead a f).opt = d.opt := rfl
@[simp] theorem modHead_disc (a : Nat) (f : Head → Head) : (d.modHead a f).disc = d.disc := rfl
@[simp] theorem modHead_coll (a : Nat) (f : Head → Head) : (d.modHead a f).coll = d.coll := rfl
@[simp] theorem modHead_mem (a : Nat) (f : Head → Head) : (d.modHead a f).mem = d.mem := rfl
@[simp] theorem modHead_faults (a : Nat) (f : Head → Head) : (d.modHead a f).faults = d.faults := rfl
@[simp] theorem modHead_twin (a : Nat) (f : Head → Head) : (d.modHead a f).twin = d.twin := rfl
@[simp] theorem modHead_power (a : Nat) (f : Head → Head) : (d.modHead a f).power = d.power := rfl
@[simp] theorem modHead_upd (a : Nat) (f : Head → Head) : (d.modHead a f).upd = d.upd := rfl
@[simp] theorem modHead_recr (a : Nat) (f : Head → Head) : (d.modHead a f).recr = d.recr := rfl
@[simp] theorem modHead_od (a : Nat) (f : Head → Head) : (d.modHead a f).od = d.od := rfl
@[simp] theorem modHead_ob (a : Nat) (f : Head → Head) : (d.modHead a f).ob = d.ob := rfl
@[simp] theorem modHead_out (a : Nat) (f : Head → Head) : (d.modHead a f).out = d.out := rfl
@[simp] theorem modHead_fresh (a : Nat) (f : Head → Head) : (d.modHead a f).fresh = d.fresh := rfl

@[simp] theorem modBoard_module (a : Nat) (f : Board → Board) : (d.modBoard a f).module = d.module := rfl
@[simp] theorem modBoard_net (a : Nat) (f : Board → Board) : (d.modBoard a f).net = d.net := rfl
@[simp] theorem modBoard_dir (a : Nat) (f : Board → Board) : (d.modBoard a f).dir = d.dir := rfl
@[simp] theorem modBoard_jobs (a : Nat) (f : Board → Board) : (d.modBoard a f).jobs = d.jobs := rfl
@[simp] theorem modBoard_circuits (a : Nat) (f : Board → Board) : (d.modBoard a f).circuits = d.circuits := rfl
@[simp] theorem modBoard_runs (a : Nat) (f : Board → Board) : (d.modBoard a f).runs = d.runs := rfl
@[simp] theorem modBoard_time (a : Nat) (f : Board → Board) : (d.modBoard a f).time = d.time := rfl
@[simp] theorem modBoard_rings (a : Nat) (f : Board → Board) : (d.modBoard a f).rings = d.rings := rfl
@[simp] theorem modBoard_arr (a : Nat) (f : Board → Board) : (d.modBoard a f).arr = d.arr := rfl
@[simp] theorem modBoard_opt (a : Nat) (f : Board → Board) : (d.modBoard a f).opt = d.opt := rfl
@[simp] theorem modBoard_disc (a : Nat) (f : Board → Board) : (d.modBoard a f).disc = d.disc := rfl
@[simp] theorem modBoard_coll (a : Nat) (f : Board → Board) : (d.modBoard a f).coll = d.coll := rfl
@[simp] theorem modBoard_mem (a : Nat) (f : Board → Board) : (d.modBoard a f).mem = d.mem := rfl
@[simp] theorem modBoard_faults (a : Nat) (f : Board → Board) : (d.modBoard a f).faults = d.faults := rfl
@[simp] theorem modBoard_twin (a : Nat) (f : Board → Board) : (d.modBoard a f).twin = d.twin := rfl
@[simp] theorem modBoard_power (a : Nat) (f : Board → Board) : (d.modBoard a f).power = d.power := rfl
@[simp] theorem modBoard_upd (a : Nat) (f : Board → Board) : (d.modBoard a f).upd = d.upd := rfl
@[simp] theorem modBoard_recr (a : Nat) (f : Board → Board) : (d.modBoard a f).recr = d.recr := rfl
@[simp] theorem modBoard_od (a : Nat) (f : Board → Board) : (d.modBoard a f).od = d.od := rfl
@[simp] theorem modBoard_ob (a : Nat) (f : Board → Board) : (d.modBoard a f).ob = d.ob := rfl
@[simp] theorem modBoard_out (a : Nat) (f : Board → Board) : (d.modBoard a f).out = d.out := rfl
@[simp] theorem modBoard_fresh (a : Nat) (f : Board → Board) : (d.modBoard a f).fresh = d.fresh := rfl

@[simp] theorem modBank_module (a : Nat) (f : Bankport → Bankport) : (d.modBank a f).module = d.module := rfl
@[simp] theorem modBank_net (a : Nat) (f : Bankport → Bankport) : (d.modBank a f).net = d.net := rfl
@[simp] theorem modBank_dir (a : Nat) (f : Bankport → Bankport) : (d.modBank a f).dir = d.dir := rfl
@[simp] theorem modBank_jobs (a : Nat) (f : Bankport → Bankport) : (d.modBank a f).jobs = d.jobs := rfl
@[simp] theorem modBank_circuits (a : Nat) (f : Bankport → Bankport) : (d.modBank a f).circuits = d.circuits := rfl
@[simp] theorem modBank_runs (a : Nat) (f : Bankport → Bankport) : (d.modBank a f).runs = d.runs := rfl
@[simp] theorem modBank_time (a : Nat) (f : Bankport → Bankport) : (d.modBank a f).time = d.time := rfl
@[simp] theorem modBank_eng (a : Nat) (f : Bankport → Bankport) : (d.modBank a f).eng = d.eng := rfl
@[simp] theorem modBank_arr (a : Nat) (f : Bankport → Bankport) : (d.modBank a f).arr = d.arr := rfl
@[simp] theorem modBank_opt (a : Nat) (f : Bankport → Bankport) : (d.modBank a f).opt = d.opt := rfl
@[simp] theorem modBank_disc (a : Nat) (f : Bankport → Bankport) : (d.modBank a f).disc = d.disc := rfl
@[simp] theorem modBank_coll (a : Nat) (f : Bankport → Bankport) : (d.modBank a f).coll = d.coll := rfl
@[simp] theorem modBank_mem (a : Nat) (f : Bankport → Bankport) : (d.modBank a f).mem = d.mem := rfl
@[simp] theorem modBank_faults (a : Nat) (f : Bankport → Bankport) : (d.modBank a f).faults = d.faults := rfl
@[simp] theorem modBank_twin (a : Nat) (f : Bankport → Bankport) : (d.modBank a f).twin = d.twin := rfl
@[simp] theorem modBank_power (a : Nat) (f : Bankport → Bankport) : (d.modBank a f).power = d.power := rfl
@[simp] theorem modBank_upd (a : Nat) (f : Bankport → Bankport) : (d.modBank a f).upd = d.upd := rfl
@[simp] theorem modBank_recr (a : Nat) (f : Bankport → Bankport) : (d.modBank a f).recr = d.recr := rfl
@[simp] theorem modBank_od (a : Nat) (f : Bankport → Bankport) : (d.modBank a f).od = d.od := rfl
@[simp] theorem modBank_ob (a : Nat) (f : Bankport → Bankport) : (d.modBank a f).ob = d.ob := rfl
@[simp] theorem modBank_out (a : Nat) (f : Bankport → Bankport) : (d.modBank a f).out = d.out := rfl
@[simp] theorem modBank_fresh (a : Nat) (f : Bankport → Bankport) : (d.modBank a f).fresh = d.fresh := rfl

@[simp] theorem modPod_module (a : Nat) (f : Pod → Pod) : (d.modPod a f).module = d.module := rfl
@[simp] theorem modPod_net (a : Nat) (f : Pod → Pod) : (d.modPod a f).net = d.net := rfl
@[simp] theorem modPod_dir (a : Nat) (f : Pod → Pod) : (d.modPod a f).dir = d.dir := rfl
@[simp] theorem modPod_jobs (a : Nat) (f : Pod → Pod) : (d.modPod a f).jobs = d.jobs := rfl
@[simp] theorem modPod_circuits (a : Nat) (f : Pod → Pod) : (d.modPod a f).circuits = d.circuits := rfl
@[simp] theorem modPod_runs (a : Nat) (f : Pod → Pod) : (d.modPod a f).runs = d.runs := rfl
@[simp] theorem modPod_time (a : Nat) (f : Pod → Pod) : (d.modPod a f).time = d.time := rfl
@[simp] theorem modPod_eng (a : Nat) (f : Pod → Pod) : (d.modPod a f).eng = d.eng := rfl
@[simp] theorem modPod_arr (a : Nat) (f : Pod → Pod) : (d.modPod a f).arr = d.arr := rfl
@[simp] theorem modPod_opt (a : Nat) (f : Pod → Pod) : (d.modPod a f).opt = d.opt := rfl
@[simp] theorem modPod_disc (a : Nat) (f : Pod → Pod) : (d.modPod a f).disc = d.disc := rfl
@[simp] theorem modPod_coll (a : Nat) (f : Pod → Pod) : (d.modPod a f).coll = d.coll := rfl
@[simp] theorem modPod_mem (a : Nat) (f : Pod → Pod) : (d.modPod a f).mem = d.mem := rfl
@[simp] theorem modPod_faults (a : Nat) (f : Pod → Pod) : (d.modPod a f).faults = d.faults := rfl
@[simp] theorem modPod_twin (a : Nat) (f : Pod → Pod) : (d.modPod a f).twin = d.twin := rfl
@[simp] theorem modPod_power (a : Nat) (f : Pod → Pod) : (d.modPod a f).power = d.power := rfl
@[simp] theorem modPod_upd (a : Nat) (f : Pod → Pod) : (d.modPod a f).upd = d.upd := rfl
@[simp] theorem modPod_recr (a : Nat) (f : Pod → Pod) : (d.modPod a f).recr = d.recr := rfl
@[simp] theorem modPod_od (a : Nat) (f : Pod → Pod) : (d.modPod a f).od = d.od := rfl
@[simp] theorem modPod_ob (a : Nat) (f : Pod → Pod) : (d.modPod a f).ob = d.ob := rfl
@[simp] theorem modPod_out (a : Nat) (f : Pod → Pod) : (d.modPod a f).out = d.out := rfl
@[simp] theorem modPod_fresh (a : Nat) (f : Pod → Pod) : (d.modPod a f).fresh = d.fresh := rfl

@[simp] theorem modPodLink_module (a : Nat) (f : PodLink → PodLink) : (d.modPodLink a f).module = d.module := rfl
@[simp] theorem modPodLink_net (a : Nat) (f : PodLink → PodLink) : (d.modPodLink a f).net = d.net := rfl
@[simp] theorem modPodLink_dir (a : Nat) (f : PodLink → PodLink) : (d.modPodLink a f).dir = d.dir := rfl
@[simp] theorem modPodLink_jobs (a : Nat) (f : PodLink → PodLink) : (d.modPodLink a f).jobs = d.jobs := rfl
@[simp] theorem modPodLink_circuits (a : Nat) (f : PodLink → PodLink) : (d.modPodLink a f).circuits = d.circuits := rfl
@[simp] theorem modPodLink_runs (a : Nat) (f : PodLink → PodLink) : (d.modPodLink a f).runs = d.runs := rfl
@[simp] theorem modPodLink_time (a : Nat) (f : PodLink → PodLink) : (d.modPodLink a f).time = d.time := rfl
@[simp] theorem modPodLink_eng (a : Nat) (f : PodLink → PodLink) : (d.modPodLink a f).eng = d.eng := rfl
@[simp] theorem modPodLink_arr (a : Nat) (f : PodLink → PodLink) : (d.modPodLink a f).arr = d.arr := rfl
@[simp] theorem modPodLink_opt (a : Nat) (f : PodLink → PodLink) : (d.modPodLink a f).opt = d.opt := rfl
@[simp] theorem modPodLink_disc (a : Nat) (f : PodLink → PodLink) : (d.modPodLink a f).disc = d.disc := rfl
@[simp] theorem modPodLink_coll (a : Nat) (f : PodLink → PodLink) : (d.modPodLink a f).coll = d.coll := rfl
@[simp] theorem modPodLink_mem (a : Nat) (f : PodLink → PodLink) : (d.modPodLink a f).mem = d.mem := rfl
@[simp] theorem modPodLink_faults (a : Nat) (f : PodLink → PodLink) : (d.modPodLink a f).faults = d.faults := rfl
@[simp] theorem modPodLink_twin (a : Nat) (f : PodLink → PodLink) : (d.modPodLink a f).twin = d.twin := rfl
@[simp] theorem modPodLink_power (a : Nat) (f : PodLink → PodLink) : (d.modPodLink a f).power = d.power := rfl
@[simp] theorem modPodLink_upd (a : Nat) (f : PodLink → PodLink) : (d.modPodLink a f).upd = d.upd := rfl
@[simp] theorem modPodLink_recr (a : Nat) (f : PodLink → PodLink) : (d.modPodLink a f).recr = d.recr := rfl
@[simp] theorem modPodLink_od (a : Nat) (f : PodLink → PodLink) : (d.modPodLink a f).od = d.od := rfl
@[simp] theorem modPodLink_ob (a : Nat) (f : PodLink → PodLink) : (d.modPodLink a f).ob = d.ob := rfl
@[simp] theorem modPodLink_out (a : Nat) (f : PodLink → PodLink) : (d.modPodLink a f).out = d.out := rfl
@[simp] theorem modPodLink_fresh (a : Nat) (f : PodLink → PodLink) : (d.modPodLink a f).fresh = d.fresh := rfl

@[simp] theorem modCommit_module (a : Nat) (f : Commit → Commit) : (d.modCommit a f).module = d.module := rfl
@[simp] theorem modCommit_net (a : Nat) (f : Commit → Commit) : (d.modCommit a f).net = d.net := rfl
@[simp] theorem modCommit_dir (a : Nat) (f : Commit → Commit) : (d.modCommit a f).dir = d.dir := rfl
@[simp] theorem modCommit_jobs (a : Nat) (f : Commit → Commit) : (d.modCommit a f).jobs = d.jobs := rfl
@[simp] theorem modCommit_circuits (a : Nat) (f : Commit → Commit) : (d.modCommit a f).circuits = d.circuits := rfl
@[simp] theorem modCommit_runs (a : Nat) (f : Commit → Commit) : (d.modCommit a f).runs = d.runs := rfl
@[simp] theorem modCommit_time (a : Nat) (f : Commit → Commit) : (d.modCommit a f).time = d.time := rfl
@[simp] theorem modCommit_eng (a : Nat) (f : Commit → Commit) : (d.modCommit a f).eng = d.eng := rfl
@[simp] theorem modCommit_rings (a : Nat) (f : Commit → Commit) : (d.modCommit a f).rings = d.rings := rfl
@[simp] theorem modCommit_opt (a : Nat) (f : Commit → Commit) : (d.modCommit a f).opt = d.opt := rfl
@[simp] theorem modCommit_disc (a : Nat) (f : Commit → Commit) : (d.modCommit a f).disc = d.disc := rfl
@[simp] theorem modCommit_coll (a : Nat) (f : Commit → Commit) : (d.modCommit a f).coll = d.coll := rfl
@[simp] theorem modCommit_mem (a : Nat) (f : Commit → Commit) : (d.modCommit a f).mem = d.mem := rfl
@[simp] theorem modCommit_faults (a : Nat) (f : Commit → Commit) : (d.modCommit a f).faults = d.faults := rfl
@[simp] theorem modCommit_twin (a : Nat) (f : Commit → Commit) : (d.modCommit a f).twin = d.twin := rfl
@[simp] theorem modCommit_power (a : Nat) (f : Commit → Commit) : (d.modCommit a f).power = d.power := rfl
@[simp] theorem modCommit_upd (a : Nat) (f : Commit → Commit) : (d.modCommit a f).upd = d.upd := rfl
@[simp] theorem modCommit_recr (a : Nat) (f : Commit → Commit) : (d.modCommit a f).recr = d.recr := rfl
@[simp] theorem modCommit_od (a : Nat) (f : Commit → Commit) : (d.modCommit a f).od = d.od := rfl
@[simp] theorem modCommit_ob (a : Nat) (f : Commit → Commit) : (d.modCommit a f).ob = d.ob := rfl
@[simp] theorem modCommit_out (a : Nat) (f : Commit → Commit) : (d.modCommit a f).out = d.out := rfl
@[simp] theorem modCommit_fresh (a : Nat) (f : Commit → Commit) : (d.modCommit a f).fresh = d.fresh := rfl

@[simp] theorem modLaser_module (a : Nat) (f : Laser → Laser) : (d.modLaser a f).module = d.module := rfl
@[simp] theorem modLaser_net (a : Nat) (f : Laser → Laser) : (d.modLaser a f).net = d.net := rfl
@[simp] theorem modLaser_dir (a : Nat) (f : Laser → Laser) : (d.modLaser a f).dir = d.dir := rfl
@[simp] theorem modLaser_jobs (a : Nat) (f : Laser → Laser) : (d.modLaser a f).jobs = d.jobs := rfl
@[simp] theorem modLaser_circuits (a : Nat) (f : Laser → Laser) : (d.modLaser a f).circuits = d.circuits := rfl
@[simp] theorem modLaser_runs (a : Nat) (f : Laser → Laser) : (d.modLaser a f).runs = d.runs := rfl
@[simp] theorem modLaser_time (a : Nat) (f : Laser → Laser) : (d.modLaser a f).time = d.time := rfl
@[simp] theorem modLaser_eng (a : Nat) (f : Laser → Laser) : (d.modLaser a f).eng = d.eng := rfl
@[simp] theorem modLaser_rings (a : Nat) (f : Laser → Laser) : (d.modLaser a f).rings = d.rings := rfl
@[simp] theorem modLaser_arr (a : Nat) (f : Laser → Laser) : (d.modLaser a f).arr = d.arr := rfl
@[simp] theorem modLaser_disc (a : Nat) (f : Laser → Laser) : (d.modLaser a f).disc = d.disc := rfl
@[simp] theorem modLaser_coll (a : Nat) (f : Laser → Laser) : (d.modLaser a f).coll = d.coll := rfl
@[simp] theorem modLaser_mem (a : Nat) (f : Laser → Laser) : (d.modLaser a f).mem = d.mem := rfl
@[simp] theorem modLaser_faults (a : Nat) (f : Laser → Laser) : (d.modLaser a f).faults = d.faults := rfl
@[simp] theorem modLaser_twin (a : Nat) (f : Laser → Laser) : (d.modLaser a f).twin = d.twin := rfl
@[simp] theorem modLaser_power (a : Nat) (f : Laser → Laser) : (d.modLaser a f).power = d.power := rfl
@[simp] theorem modLaser_upd (a : Nat) (f : Laser → Laser) : (d.modLaser a f).upd = d.upd := rfl
@[simp] theorem modLaser_recr (a : Nat) (f : Laser → Laser) : (d.modLaser a f).recr = d.recr := rfl
@[simp] theorem modLaser_od (a : Nat) (f : Laser → Laser) : (d.modLaser a f).od = d.od := rfl
@[simp] theorem modLaser_ob (a : Nat) (f : Laser → Laser) : (d.modLaser a f).ob = d.ob := rfl
@[simp] theorem modLaser_out (a : Nat) (f : Laser → Laser) : (d.modLaser a f).out = d.out := rfl
@[simp] theorem modLaser_fresh (a : Nat) (f : Laser → Laser) : (d.modLaser a f).fresh = d.fresh := rfl

@[simp] theorem modLink_module (a : Nat) (f : Link → Link) : (d.modLink a f).module = d.module := rfl
@[simp] theorem modLink_net (a : Nat) (f : Link → Link) : (d.modLink a f).net = d.net := rfl
@[simp] theorem modLink_dir (a : Nat) (f : Link → Link) : (d.modLink a f).dir = d.dir := rfl
@[simp] theorem modLink_jobs (a : Nat) (f : Link → Link) : (d.modLink a f).jobs = d.jobs := rfl
@[simp] theorem modLink_circuits (a : Nat) (f : Link → Link) : (d.modLink a f).circuits = d.circuits := rfl
@[simp] theorem modLink_runs (a : Nat) (f : Link → Link) : (d.modLink a f).runs = d.runs := rfl
@[simp] theorem modLink_time (a : Nat) (f : Link → Link) : (d.modLink a f).time = d.time := rfl
@[simp] theorem modLink_eng (a : Nat) (f : Link → Link) : (d.modLink a f).eng = d.eng := rfl
@[simp] theorem modLink_rings (a : Nat) (f : Link → Link) : (d.modLink a f).rings = d.rings := rfl
@[simp] theorem modLink_arr (a : Nat) (f : Link → Link) : (d.modLink a f).arr = d.arr := rfl
@[simp] theorem modLink_disc (a : Nat) (f : Link → Link) : (d.modLink a f).disc = d.disc := rfl
@[simp] theorem modLink_coll (a : Nat) (f : Link → Link) : (d.modLink a f).coll = d.coll := rfl
@[simp] theorem modLink_mem (a : Nat) (f : Link → Link) : (d.modLink a f).mem = d.mem := rfl
@[simp] theorem modLink_faults (a : Nat) (f : Link → Link) : (d.modLink a f).faults = d.faults := rfl
@[simp] theorem modLink_twin (a : Nat) (f : Link → Link) : (d.modLink a f).twin = d.twin := rfl
@[simp] theorem modLink_power (a : Nat) (f : Link → Link) : (d.modLink a f).power = d.power := rfl
@[simp] theorem modLink_upd (a : Nat) (f : Link → Link) : (d.modLink a f).upd = d.upd := rfl
@[simp] theorem modLink_recr (a : Nat) (f : Link → Link) : (d.modLink a f).recr = d.recr := rfl
@[simp] theorem modLink_od (a : Nat) (f : Link → Link) : (d.modLink a f).od = d.od := rfl
@[simp] theorem modLink_ob (a : Nat) (f : Link → Link) : (d.modLink a f).ob = d.ob := rfl
@[simp] theorem modLink_out (a : Nat) (f : Link → Link) : (d.modLink a f).out = d.out := rfl
@[simp] theorem modLink_fresh (a : Nat) (f : Link → Link) : (d.modLink a f).fresh = d.fresh := rfl

@[simp] theorem modLane_module (a k : Nat) (f : Lane → Lane) : (d.modLane a k f).module = d.module := rfl
@[simp] theorem modLane_net (a k : Nat) (f : Lane → Lane) : (d.modLane a k f).net = d.net := rfl
@[simp] theorem modLane_dir (a k : Nat) (f : Lane → Lane) : (d.modLane a k f).dir = d.dir := rfl
@[simp] theorem modLane_jobs (a k : Nat) (f : Lane → Lane) : (d.modLane a k f).jobs = d.jobs := rfl
@[simp] theorem modLane_circuits (a k : Nat) (f : Lane → Lane) : (d.modLane a k f).circuits = d.circuits := rfl
@[simp] theorem modLane_runs (a k : Nat) (f : Lane → Lane) : (d.modLane a k f).runs = d.runs := rfl
@[simp] theorem modLane_time (a k : Nat) (f : Lane → Lane) : (d.modLane a k f).time = d.time := rfl
@[simp] theorem modLane_eng (a k : Nat) (f : Lane → Lane) : (d.modLane a k f).eng = d.eng := rfl
@[simp] theorem modLane_rings (a k : Nat) (f : Lane → Lane) : (d.modLane a k f).rings = d.rings := rfl
@[simp] theorem modLane_arr (a k : Nat) (f : Lane → Lane) : (d.modLane a k f).arr = d.arr := rfl
@[simp] theorem modLane_disc (a k : Nat) (f : Lane → Lane) : (d.modLane a k f).disc = d.disc := rfl
@[simp] theorem modLane_coll (a k : Nat) (f : Lane → Lane) : (d.modLane a k f).coll = d.coll := rfl
@[simp] theorem modLane_mem (a k : Nat) (f : Lane → Lane) : (d.modLane a k f).mem = d.mem := rfl
@[simp] theorem modLane_faults (a k : Nat) (f : Lane → Lane) : (d.modLane a k f).faults = d.faults := rfl
@[simp] theorem modLane_twin (a k : Nat) (f : Lane → Lane) : (d.modLane a k f).twin = d.twin := rfl
@[simp] theorem modLane_power (a k : Nat) (f : Lane → Lane) : (d.modLane a k f).power = d.power := rfl
@[simp] theorem modLane_upd (a k : Nat) (f : Lane → Lane) : (d.modLane a k f).upd = d.upd := rfl
@[simp] theorem modLane_recr (a k : Nat) (f : Lane → Lane) : (d.modLane a k f).recr = d.recr := rfl
@[simp] theorem modLane_od (a k : Nat) (f : Lane → Lane) : (d.modLane a k f).od = d.od := rfl
@[simp] theorem modLane_ob (a k : Nat) (f : Lane → Lane) : (d.modLane a k f).ob = d.ob := rfl
@[simp] theorem modLane_out (a k : Nat) (f : Lane → Lane) : (d.modLane a k f).out = d.out := rfl
@[simp] theorem modLane_fresh (a k : Nat) (f : Lane → Lane) : (d.modLane a k f).fresh = d.fresh := rfl

@[simp] theorem modPort_module (a : Nat) (f : Port → Port) : (d.modPort a f).module = d.module := rfl
@[simp] theorem modPort_net (a : Nat) (f : Port → Port) : (d.modPort a f).net = d.net := rfl
@[simp] theorem modPort_dir (a : Nat) (f : Port → Port) : (d.modPort a f).dir = d.dir := rfl
@[simp] theorem modPort_jobs (a : Nat) (f : Port → Port) : (d.modPort a f).jobs = d.jobs := rfl
@[simp] theorem modPort_circuits (a : Nat) (f : Port → Port) : (d.modPort a f).circuits = d.circuits := rfl
@[simp] theorem modPort_runs (a : Nat) (f : Port → Port) : (d.modPort a f).runs = d.runs := rfl
@[simp] theorem modPort_time (a : Nat) (f : Port → Port) : (d.modPort a f).time = d.time := rfl
@[simp] theorem modPort_eng (a : Nat) (f : Port → Port) : (d.modPort a f).eng = d.eng := rfl
@[simp] theorem modPort_rings (a : Nat) (f : Port → Port) : (d.modPort a f).rings = d.rings := rfl
@[simp] theorem modPort_arr (a : Nat) (f : Port → Port) : (d.modPort a f).arr = d.arr := rfl
@[simp] theorem modPort_opt (a : Nat) (f : Port → Port) : (d.modPort a f).opt = d.opt := rfl
@[simp] theorem modPort_coll (a : Nat) (f : Port → Port) : (d.modPort a f).coll = d.coll := rfl
@[simp] theorem modPort_mem (a : Nat) (f : Port → Port) : (d.modPort a f).mem = d.mem := rfl
@[simp] theorem modPort_faults (a : Nat) (f : Port → Port) : (d.modPort a f).faults = d.faults := rfl
@[simp] theorem modPort_twin (a : Nat) (f : Port → Port) : (d.modPort a f).twin = d.twin := rfl
@[simp] theorem modPort_power (a : Nat) (f : Port → Port) : (d.modPort a f).power = d.power := rfl
@[simp] theorem modPort_upd (a : Nat) (f : Port → Port) : (d.modPort a f).upd = d.upd := rfl
@[simp] theorem modPort_recr (a : Nat) (f : Port → Port) : (d.modPort a f).recr = d.recr := rfl
@[simp] theorem modPort_od (a : Nat) (f : Port → Port) : (d.modPort a f).od = d.od := rfl
@[simp] theorem modPort_ob (a : Nat) (f : Port → Port) : (d.modPort a f).ob = d.ob := rfl
@[simp] theorem modPort_out (a : Nat) (f : Port → Port) : (d.modPort a f).out = d.out := rfl
@[simp] theorem modPort_fresh (a : Nat) (f : Port → Port) : (d.modPort a f).fresh = d.fresh := rfl

@[simp] theorem modNeighbour_module (a : Nat) (f : Neighbour → Neighbour) : (d.modNeighbour a f).module = d.module := rfl
@[simp] theorem modNeighbour_net (a : Nat) (f : Neighbour → Neighbour) : (d.modNeighbour a f).net = d.net := rfl
@[simp] theorem modNeighbour_dir (a : Nat) (f : Neighbour → Neighbour) : (d.modNeighbour a f).dir = d.dir := rfl
@[simp] theorem modNeighbour_jobs (a : Nat) (f : Neighbour → Neighbour) : (d.modNeighbour a f).jobs = d.jobs := rfl
@[simp] theorem modNeighbour_circuits (a : Nat) (f : Neighbour → Neighbour) : (d.modNeighbour a f).circuits = d.circuits := rfl
@[simp] theorem modNeighbour_runs (a : Nat) (f : Neighbour → Neighbour) : (d.modNeighbour a f).runs = d.runs := rfl
@[simp] theorem modNeighbour_time (a : Nat) (f : Neighbour → Neighbour) : (d.modNeighbour a f).time = d.time := rfl
@[simp] theorem modNeighbour_eng (a : Nat) (f : Neighbour → Neighbour) : (d.modNeighbour a f).eng = d.eng := rfl
@[simp] theorem modNeighbour_rings (a : Nat) (f : Neighbour → Neighbour) : (d.modNeighbour a f).rings = d.rings := rfl
@[simp] theorem modNeighbour_arr (a : Nat) (f : Neighbour → Neighbour) : (d.modNeighbour a f).arr = d.arr := rfl
@[simp] theorem modNeighbour_opt (a : Nat) (f : Neighbour → Neighbour) : (d.modNeighbour a f).opt = d.opt := rfl
@[simp] theorem modNeighbour_coll (a : Nat) (f : Neighbour → Neighbour) : (d.modNeighbour a f).coll = d.coll := rfl
@[simp] theorem modNeighbour_mem (a : Nat) (f : Neighbour → Neighbour) : (d.modNeighbour a f).mem = d.mem := rfl
@[simp] theorem modNeighbour_faults (a : Nat) (f : Neighbour → Neighbour) : (d.modNeighbour a f).faults = d.faults := rfl
@[simp] theorem modNeighbour_twin (a : Nat) (f : Neighbour → Neighbour) : (d.modNeighbour a f).twin = d.twin := rfl
@[simp] theorem modNeighbour_power (a : Nat) (f : Neighbour → Neighbour) : (d.modNeighbour a f).power = d.power := rfl
@[simp] theorem modNeighbour_upd (a : Nat) (f : Neighbour → Neighbour) : (d.modNeighbour a f).upd = d.upd := rfl
@[simp] theorem modNeighbour_recr (a : Nat) (f : Neighbour → Neighbour) : (d.modNeighbour a f).recr = d.recr := rfl
@[simp] theorem modNeighbour_od (a : Nat) (f : Neighbour → Neighbour) : (d.modNeighbour a f).od = d.od := rfl
@[simp] theorem modNeighbour_ob (a : Nat) (f : Neighbour → Neighbour) : (d.modNeighbour a f).ob = d.ob := rfl
@[simp] theorem modNeighbour_out (a : Nat) (f : Neighbour → Neighbour) : (d.modNeighbour a f).out = d.out := rfl
@[simp] theorem modNeighbour_fresh (a : Nat) (f : Neighbour → Neighbour) : (d.modNeighbour a f).fresh = d.fresh := rfl

@[simp] theorem modEngJob_module (a : Nat) (f : Coll → Coll) : (d.modEngJob a f).module = d.module := rfl
@[simp] theorem modEngJob_net (a : Nat) (f : Coll → Coll) : (d.modEngJob a f).net = d.net := rfl
@[simp] theorem modEngJob_dir (a : Nat) (f : Coll → Coll) : (d.modEngJob a f).dir = d.dir := rfl
@[simp] theorem modEngJob_jobs (a : Nat) (f : Coll → Coll) : (d.modEngJob a f).jobs = d.jobs := rfl
@[simp] theorem modEngJob_circuits (a : Nat) (f : Coll → Coll) : (d.modEngJob a f).circuits = d.circuits := rfl
@[simp] theorem modEngJob_runs (a : Nat) (f : Coll → Coll) : (d.modEngJob a f).runs = d.runs := rfl
@[simp] theorem modEngJob_time (a : Nat) (f : Coll → Coll) : (d.modEngJob a f).time = d.time := rfl
@[simp] theorem modEngJob_eng (a : Nat) (f : Coll → Coll) : (d.modEngJob a f).eng = d.eng := rfl
@[simp] theorem modEngJob_rings (a : Nat) (f : Coll → Coll) : (d.modEngJob a f).rings = d.rings := rfl
@[simp] theorem modEngJob_arr (a : Nat) (f : Coll → Coll) : (d.modEngJob a f).arr = d.arr := rfl
@[simp] theorem modEngJob_opt (a : Nat) (f : Coll → Coll) : (d.modEngJob a f).opt = d.opt := rfl
@[simp] theorem modEngJob_disc (a : Nat) (f : Coll → Coll) : (d.modEngJob a f).disc = d.disc := rfl
@[simp] theorem modEngJob_mem (a : Nat) (f : Coll → Coll) : (d.modEngJob a f).mem = d.mem := rfl
@[simp] theorem modEngJob_faults (a : Nat) (f : Coll → Coll) : (d.modEngJob a f).faults = d.faults := rfl
@[simp] theorem modEngJob_twin (a : Nat) (f : Coll → Coll) : (d.modEngJob a f).twin = d.twin := rfl
@[simp] theorem modEngJob_power (a : Nat) (f : Coll → Coll) : (d.modEngJob a f).power = d.power := rfl
@[simp] theorem modEngJob_upd (a : Nat) (f : Coll → Coll) : (d.modEngJob a f).upd = d.upd := rfl
@[simp] theorem modEngJob_recr (a : Nat) (f : Coll → Coll) : (d.modEngJob a f).recr = d.recr := rfl
@[simp] theorem modEngJob_od (a : Nat) (f : Coll → Coll) : (d.modEngJob a f).od = d.od := rfl
@[simp] theorem modEngJob_ob (a : Nat) (f : Coll → Coll) : (d.modEngJob a f).ob = d.ob := rfl
@[simp] theorem modEngJob_out (a : Nat) (f : Coll → Coll) : (d.modEngJob a f).out = d.out := rfl
@[simp] theorem modEngJob_fresh (a : Nat) (f : Coll → Coll) : (d.modEngJob a f).fresh = d.fresh := rfl

@[simp] theorem modModel_module (a : Nat) (f : Model → Model) : (d.modModel a f).module = d.module := rfl
@[simp] theorem modModel_net (a : Nat) (f : Model → Model) : (d.modModel a f).net = d.net := rfl
@[simp] theorem modModel_dir (a : Nat) (f : Model → Model) : (d.modModel a f).dir = d.dir := rfl
@[simp] theorem modModel_jobs (a : Nat) (f : Model → Model) : (d.modModel a f).jobs = d.jobs := rfl
@[simp] theorem modModel_circuits (a : Nat) (f : Model → Model) : (d.modModel a f).circuits = d.circuits := rfl
@[simp] theorem modModel_runs (a : Nat) (f : Model → Model) : (d.modModel a f).runs = d.runs := rfl
@[simp] theorem modModel_time (a : Nat) (f : Model → Model) : (d.modModel a f).time = d.time := rfl
@[simp] theorem modModel_eng (a : Nat) (f : Model → Model) : (d.modModel a f).eng = d.eng := rfl
@[simp] theorem modModel_rings (a : Nat) (f : Model → Model) : (d.modModel a f).rings = d.rings := rfl
@[simp] theorem modModel_arr (a : Nat) (f : Model → Model) : (d.modModel a f).arr = d.arr := rfl
@[simp] theorem modModel_opt (a : Nat) (f : Model → Model) : (d.modModel a f).opt = d.opt := rfl
@[simp] theorem modModel_disc (a : Nat) (f : Model → Model) : (d.modModel a f).disc = d.disc := rfl
@[simp] theorem modModel_mem (a : Nat) (f : Model → Model) : (d.modModel a f).mem = d.mem := rfl
@[simp] theorem modModel_faults (a : Nat) (f : Model → Model) : (d.modModel a f).faults = d.faults := rfl
@[simp] theorem modModel_twin (a : Nat) (f : Model → Model) : (d.modModel a f).twin = d.twin := rfl
@[simp] theorem modModel_power (a : Nat) (f : Model → Model) : (d.modModel a f).power = d.power := rfl
@[simp] theorem modModel_upd (a : Nat) (f : Model → Model) : (d.modModel a f).upd = d.upd := rfl
@[simp] theorem modModel_recr (a : Nat) (f : Model → Model) : (d.modModel a f).recr = d.recr := rfl
@[simp] theorem modModel_od (a : Nat) (f : Model → Model) : (d.modModel a f).od = d.od := rfl
@[simp] theorem modModel_ob (a : Nat) (f : Model → Model) : (d.modModel a f).ob = d.ob := rfl
@[simp] theorem modModel_out (a : Nat) (f : Model → Model) : (d.modModel a f).out = d.out := rfl
@[simp] theorem modModel_fresh (a : Nat) (f : Model → Model) : (d.modModel a f).fresh = d.fresh := rfl

@[simp] theorem modMirror_module (a : Nat) (f : Mirror → Mirror) : (d.modMirror a f).module = d.module := rfl
@[simp] theorem modMirror_net (a : Nat) (f : Mirror → Mirror) : (d.modMirror a f).net = d.net := rfl
@[simp] theorem modMirror_dir (a : Nat) (f : Mirror → Mirror) : (d.modMirror a f).dir = d.dir := rfl
@[simp] theorem modMirror_jobs (a : Nat) (f : Mirror → Mirror) : (d.modMirror a f).jobs = d.jobs := rfl
@[simp] theorem modMirror_circuits (a : Nat) (f : Mirror → Mirror) : (d.modMirror a f).circuits = d.circuits := rfl
@[simp] theorem modMirror_runs (a : Nat) (f : Mirror → Mirror) : (d.modMirror a f).runs = d.runs := rfl
@[simp] theorem modMirror_time (a : Nat) (f : Mirror → Mirror) : (d.modMirror a f).time = d.time := rfl
@[simp] theorem modMirror_eng (a : Nat) (f : Mirror → Mirror) : (d.modMirror a f).eng = d.eng := rfl
@[simp] theorem modMirror_rings (a : Nat) (f : Mirror → Mirror) : (d.modMirror a f).rings = d.rings := rfl
@[simp] theorem modMirror_arr (a : Nat) (f : Mirror → Mirror) : (d.modMirror a f).arr = d.arr := rfl
@[simp] theorem modMirror_opt (a : Nat) (f : Mirror → Mirror) : (d.modMirror a f).opt = d.opt := rfl
@[simp] theorem modMirror_disc (a : Nat) (f : Mirror → Mirror) : (d.modMirror a f).disc = d.disc := rfl
@[simp] theorem modMirror_coll (a : Nat) (f : Mirror → Mirror) : (d.modMirror a f).coll = d.coll := rfl
@[simp] theorem modMirror_mem (a : Nat) (f : Mirror → Mirror) : (d.modMirror a f).mem = d.mem := rfl
@[simp] theorem modMirror_faults (a : Nat) (f : Mirror → Mirror) : (d.modMirror a f).faults = d.faults := rfl
@[simp] theorem modMirror_power (a : Nat) (f : Mirror → Mirror) : (d.modMirror a f).power = d.power := rfl
@[simp] theorem modMirror_upd (a : Nat) (f : Mirror → Mirror) : (d.modMirror a f).upd = d.upd := rfl
@[simp] theorem modMirror_recr (a : Nat) (f : Mirror → Mirror) : (d.modMirror a f).recr = d.recr := rfl
@[simp] theorem modMirror_od (a : Nat) (f : Mirror → Mirror) : (d.modMirror a f).od = d.od := rfl
@[simp] theorem modMirror_ob (a : Nat) (f : Mirror → Mirror) : (d.modMirror a f).ob = d.ob := rfl
@[simp] theorem modMirror_out (a : Nat) (f : Mirror → Mirror) : (d.modMirror a f).out = d.out := rfl
@[simp] theorem modMirror_fresh (a : Nat) (f : Mirror → Mirror) : (d.modMirror a f).fresh = d.fresh := rfl

@[simp] theorem setDomain_module (k : Nat) (x : DState) : (d.setDomain k x).module = d.module := rfl
@[simp] theorem setDomain_net (k : Nat) (x : DState) : (d.setDomain k x).net = d.net := rfl
@[simp] theorem setDomain_dir (k : Nat) (x : DState) : (d.setDomain k x).dir = d.dir := rfl
@[simp] theorem setDomain_jobs (k : Nat) (x : DState) : (d.setDomain k x).jobs = d.jobs := rfl
@[simp] theorem setDomain_circuits (k : Nat) (x : DState) : (d.setDomain k x).circuits = d.circuits := rfl
@[simp] theorem setDomain_runs (k : Nat) (x : DState) : (d.setDomain k x).runs = d.runs := rfl
@[simp] theorem setDomain_time (k : Nat) (x : DState) : (d.setDomain k x).time = d.time := rfl
@[simp] theorem setDomain_eng (k : Nat) (x : DState) : (d.setDomain k x).eng = d.eng := rfl
@[simp] theorem setDomain_rings (k : Nat) (x : DState) : (d.setDomain k x).rings = d.rings := rfl
@[simp] theorem setDomain_arr (k : Nat) (x : DState) : (d.setDomain k x).arr = d.arr := rfl
@[simp] theorem setDomain_opt (k : Nat) (x : DState) : (d.setDomain k x).opt = d.opt := rfl
@[simp] theorem setDomain_disc (k : Nat) (x : DState) : (d.setDomain k x).disc = d.disc := rfl
@[simp] theorem setDomain_coll (k : Nat) (x : DState) : (d.setDomain k x).coll = d.coll := rfl
@[simp] theorem setDomain_mem (k : Nat) (x : DState) : (d.setDomain k x).mem = d.mem := rfl
@[simp] theorem setDomain_faults (k : Nat) (x : DState) : (d.setDomain k x).faults = d.faults := rfl
@[simp] theorem setDomain_twin (k : Nat) (x : DState) : (d.setDomain k x).twin = d.twin := rfl
@[simp] theorem setDomain_upd (k : Nat) (x : DState) : (d.setDomain k x).upd = d.upd := rfl
@[simp] theorem setDomain_recr (k : Nat) (x : DState) : (d.setDomain k x).recr = d.recr := rfl
@[simp] theorem setDomain_od (k : Nat) (x : DState) : (d.setDomain k x).od = d.od := rfl
@[simp] theorem setDomain_ob (k : Nat) (x : DState) : (d.setDomain k x).ob = d.ob := rfl
@[simp] theorem setDomain_out (k : Nat) (x : DState) : (d.setDomain k x).out = d.out := rfl
@[simp] theorem setDomain_fresh (k : Nat) (x : DState) : (d.setDomain k x).fresh = d.fresh := rfl

@[simp] theorem modTime_module (f : Time → Time) : (d.modTime f).module = d.module := rfl
@[simp] theorem modTime_net (f : Time → Time) : (d.modTime f).net = d.net := rfl
@[simp] theorem modTime_dir (f : Time → Time) : (d.modTime f).dir = d.dir := rfl
@[simp] theorem modTime_jobs (f : Time → Time) : (d.modTime f).jobs = d.jobs := rfl
@[simp] theorem modTime_circuits (f : Time → Time) : (d.modTime f).circuits = d.circuits := rfl
@[simp] theorem modTime_runs (f : Time → Time) : (d.modTime f).runs = d.runs := rfl
@[simp] theorem modTime_eng (f : Time → Time) : (d.modTime f).eng = d.eng := rfl
@[simp] theorem modTime_rings (f : Time → Time) : (d.modTime f).rings = d.rings := rfl
@[simp] theorem modTime_arr (f : Time → Time) : (d.modTime f).arr = d.arr := rfl
@[simp] theorem modTime_opt (f : Time → Time) : (d.modTime f).opt = d.opt := rfl
@[simp] theorem modTime_disc (f : Time → Time) : (d.modTime f).disc = d.disc := rfl
@[simp] theorem modTime_coll (f : Time → Time) : (d.modTime f).coll = d.coll := rfl
@[simp] theorem modTime_mem (f : Time → Time) : (d.modTime f).mem = d.mem := rfl
@[simp] theorem modTime_faults (f : Time → Time) : (d.modTime f).faults = d.faults := rfl
@[simp] theorem modTime_twin (f : Time → Time) : (d.modTime f).twin = d.twin := rfl
@[simp] theorem modTime_power (f : Time → Time) : (d.modTime f).power = d.power := rfl
@[simp] theorem modTime_upd (f : Time → Time) : (d.modTime f).upd = d.upd := rfl
@[simp] theorem modTime_recr (f : Time → Time) : (d.modTime f).recr = d.recr := rfl
@[simp] theorem modTime_od (f : Time → Time) : (d.modTime f).od = d.od := rfl
@[simp] theorem modTime_ob (f : Time → Time) : (d.modTime f).ob = d.ob := rfl
@[simp] theorem modTime_out (f : Time → Time) : (d.modTime f).out = d.out := rfl
@[simp] theorem modTime_fresh (f : Time → Time) : (d.modTime f).fresh = d.fresh := rfl

@[simp] theorem release_module (c h : Nat) : (d.release c h).module = d.module := rfl
@[simp] theorem release_net (c h : Nat) : (d.release c h).net = d.net := rfl
@[simp] theorem release_dir (c h : Nat) : (d.release c h).dir = d.dir := rfl
@[simp] theorem release_jobs (c h : Nat) : (d.release c h).jobs = d.jobs := rfl
@[simp] theorem release_circuits (c h : Nat) : (d.release c h).circuits = d.circuits := rfl
@[simp] theorem release_runs (c h : Nat) : (d.release c h).runs = d.runs := rfl
@[simp] theorem release_time (c h : Nat) : (d.release c h).time = d.time := rfl
@[simp] theorem release_eng (c h : Nat) : (d.release c h).eng = d.eng := rfl
@[simp] theorem release_rings (c h : Nat) : (d.release c h).rings = d.rings := rfl
@[simp] theorem release_arr (c h : Nat) : (d.release c h).arr = d.arr := rfl
@[simp] theorem release_opt (c h : Nat) : (d.release c h).opt = d.opt := rfl
@[simp] theorem release_disc (c h : Nat) : (d.release c h).disc = d.disc := rfl
@[simp] theorem release_coll (c h : Nat) : (d.release c h).coll = d.coll := rfl
@[simp] theorem release_mem (c h : Nat) : (d.release c h).mem = d.mem := rfl
@[simp] theorem release_faults (c h : Nat) : (d.release c h).faults = d.faults := rfl
@[simp] theorem release_twin (c h : Nat) : (d.release c h).twin = d.twin := rfl
@[simp] theorem release_upd (c h : Nat) : (d.release c h).upd = d.upd := rfl
@[simp] theorem release_recr (c h : Nat) : (d.release c h).recr = d.recr := rfl
@[simp] theorem release_od (c h : Nat) : (d.release c h).od = d.od := rfl
@[simp] theorem release_ob (c h : Nat) : (d.release c h).ob = d.ob := rfl
@[simp] theorem release_out (c h : Nat) : (d.release c h).out = d.out := rfl
@[simp] theorem release_fresh (c h : Nat) : (d.release c h).fresh = d.fresh := rfl

@[simp] theorem reachStamp_module (t : Nat) : (d.reachStamp t).module = d.module := rfl
@[simp] theorem reachStamp_net (t : Nat) : (d.reachStamp t).net = d.net := rfl
@[simp] theorem reachStamp_dir (t : Nat) : (d.reachStamp t).dir = d.dir := rfl
@[simp] theorem reachStamp_jobs (t : Nat) : (d.reachStamp t).jobs = d.jobs := rfl
@[simp] theorem reachStamp_circuits (t : Nat) : (d.reachStamp t).circuits = d.circuits := rfl
@[simp] theorem reachStamp_runs (t : Nat) : (d.reachStamp t).runs = d.runs := rfl
@[simp] theorem reachStamp_eng (t : Nat) : (d.reachStamp t).eng = d.eng := rfl
@[simp] theorem reachStamp_rings (t : Nat) : (d.reachStamp t).rings = d.rings := rfl
@[simp] theorem reachStamp_arr (t : Nat) : (d.reachStamp t).arr = d.arr := rfl
@[simp] theorem reachStamp_opt (t : Nat) : (d.reachStamp t).opt = d.opt := rfl
@[simp] theorem reachStamp_disc (t : Nat) : (d.reachStamp t).disc = d.disc := rfl
@[simp] theorem reachStamp_coll (t : Nat) : (d.reachStamp t).coll = d.coll := rfl
@[simp] theorem reachStamp_mem (t : Nat) : (d.reachStamp t).mem = d.mem := rfl
@[simp] theorem reachStamp_faults (t : Nat) : (d.reachStamp t).faults = d.faults := rfl
@[simp] theorem reachStamp_twin (t : Nat) : (d.reachStamp t).twin = d.twin := rfl
@[simp] theorem reachStamp_power (t : Nat) : (d.reachStamp t).power = d.power := rfl
@[simp] theorem reachStamp_upd (t : Nat) : (d.reachStamp t).upd = d.upd := rfl
@[simp] theorem reachStamp_recr (t : Nat) : (d.reachStamp t).recr = d.recr := rfl
@[simp] theorem reachStamp_od (t : Nat) : (d.reachStamp t).od = d.od := rfl
@[simp] theorem reachStamp_ob (t : Nat) : (d.reachStamp t).ob = d.ob := rfl
@[simp] theorem reachStamp_out (t : Nat) : (d.reachStamp t).out = d.out := rfl
@[simp] theorem reachStamp_fresh (t : Nat) : (d.reachStamp t).fresh = d.fresh := rfl

@[simp] theorem modPtp_module (k : Nat) (f : Ptp → Ptp) : (d.modPtp k f).module = d.module := rfl
@[simp] theorem modPtp_net (k : Nat) (f : Ptp → Ptp) : (d.modPtp k f).net = d.net := rfl
@[simp] theorem modPtp_dir (k : Nat) (f : Ptp → Ptp) : (d.modPtp k f).dir = d.dir := rfl
@[simp] theorem modPtp_jobs (k : Nat) (f : Ptp → Ptp) : (d.modPtp k f).jobs = d.jobs := rfl
@[simp] theorem modPtp_circuits (k : Nat) (f : Ptp → Ptp) : (d.modPtp k f).circuits = d.circuits := rfl
@[simp] theorem modPtp_runs (k : Nat) (f : Ptp → Ptp) : (d.modPtp k f).runs = d.runs := rfl
@[simp] theorem modPtp_eng (k : Nat) (f : Ptp → Ptp) : (d.modPtp k f).eng = d.eng := rfl
@[simp] theorem modPtp_rings (k : Nat) (f : Ptp → Ptp) : (d.modPtp k f).rings = d.rings := rfl
@[simp] theorem modPtp_arr (k : Nat) (f : Ptp → Ptp) : (d.modPtp k f).arr = d.arr := rfl
@[simp] theorem modPtp_opt (k : Nat) (f : Ptp → Ptp) : (d.modPtp k f).opt = d.opt := rfl
@[simp] theorem modPtp_disc (k : Nat) (f : Ptp → Ptp) : (d.modPtp k f).disc = d.disc := rfl
@[simp] theorem modPtp_coll (k : Nat) (f : Ptp → Ptp) : (d.modPtp k f).coll = d.coll := rfl
@[simp] theorem modPtp_mem (k : Nat) (f : Ptp → Ptp) : (d.modPtp k f).mem = d.mem := rfl
@[simp] theorem modPtp_faults (k : Nat) (f : Ptp → Ptp) : (d.modPtp k f).faults = d.faults := rfl
@[simp] theorem modPtp_twin (k : Nat) (f : Ptp → Ptp) : (d.modPtp k f).twin = d.twin := rfl
@[simp] theorem modPtp_power (k : Nat) (f : Ptp → Ptp) : (d.modPtp k f).power = d.power := rfl
@[simp] theorem modPtp_upd (k : Nat) (f : Ptp → Ptp) : (d.modPtp k f).upd = d.upd := rfl
@[simp] theorem modPtp_recr (k : Nat) (f : Ptp → Ptp) : (d.modPtp k f).recr = d.recr := rfl
@[simp] theorem modPtp_od (k : Nat) (f : Ptp → Ptp) : (d.modPtp k f).od = d.od := rfl
@[simp] theorem modPtp_ob (k : Nat) (f : Ptp → Ptp) : (d.modPtp k f).ob = d.ob := rfl
@[simp] theorem modPtp_out (k : Nat) (f : Ptp → Ptp) : (d.modPtp k f).out = d.out := rfl
@[simp] theorem modPtp_fresh (k : Nat) (f : Ptp → Ptp) : (d.modPtp k f).fresh = d.fresh := rfl

@[simp] theorem setSessions_module (l : List Session) : (d.setSessions l).module = d.module := rfl
@[simp] theorem setSessions_dir (l : List Session) : (d.setSessions l).dir = d.dir := rfl
@[simp] theorem setSessions_jobs (l : List Session) : (d.setSessions l).jobs = d.jobs := rfl
@[simp] theorem setSessions_circuits (l : List Session) : (d.setSessions l).circuits = d.circuits := rfl
@[simp] theorem setSessions_runs (l : List Session) : (d.setSessions l).runs = d.runs := rfl
@[simp] theorem setSessions_time (l : List Session) : (d.setSessions l).time = d.time := rfl
@[simp] theorem setSessions_eng (l : List Session) : (d.setSessions l).eng = d.eng := rfl
@[simp] theorem setSessions_rings (l : List Session) : (d.setSessions l).rings = d.rings := rfl
@[simp] theorem setSessions_arr (l : List Session) : (d.setSessions l).arr = d.arr := rfl
@[simp] theorem setSessions_opt (l : List Session) : (d.setSessions l).opt = d.opt := rfl
@[simp] theorem setSessions_disc (l : List Session) : (d.setSessions l).disc = d.disc := rfl
@[simp] theorem setSessions_coll (l : List Session) : (d.setSessions l).coll = d.coll := rfl
@[simp] theorem setSessions_mem (l : List Session) : (d.setSessions l).mem = d.mem := rfl
@[simp] theorem setSessions_faults (l : List Session) : (d.setSessions l).faults = d.faults := rfl
@[simp] theorem setSessions_twin (l : List Session) : (d.setSessions l).twin = d.twin := rfl
@[simp] theorem setSessions_power (l : List Session) : (d.setSessions l).power = d.power := rfl
@[simp] theorem setSessions_upd (l : List Session) : (d.setSessions l).upd = d.upd := rfl
@[simp] theorem setSessions_recr (l : List Session) : (d.setSessions l).recr = d.recr := rfl
@[simp] theorem setSessions_od (l : List Session) : (d.setSessions l).od = d.od := rfl
@[simp] theorem setSessions_ob (l : List Session) : (d.setSessions l).ob = d.ob := rfl
@[simp] theorem setSessions_out (l : List Session) : (d.setSessions l).out = d.out := rfl
@[simp] theorem setSessions_fresh (l : List Session) : (d.setSessions l).fresh = d.fresh := rfl

/-! ### What the updates change -/

@[simp] theorem modTwin_twin (f : Twin → Twin) : (d.modTwin f).twin = f d.twin := rfl
@[simp] theorem modTime_time (f : Time → Time) : (d.modTime f).time = f d.time := rfl
@[simp] theorem emit_out (o : Output) : (d.emit o).out = o :: d.out := rfl
@[simp] theorem emits_out (l : List Output) : (d.emits l).out = l.reverse ++ d.out := rfl
@[simp] theorem drawn_fresh (n : Nat) : (d.drawn n).fresh = d.fresh + n := rfl
@[simp] theorem setSessions_sessions (l : List Session) : (d.setSessions l).net.sessions = l := rfl
@[simp] theorem modJob_job (j : Nat) (f : Job → Job) : (d.modJob j f).job j = f (d.job j) := tget_tmod_same _ _ _ _
@[simp] theorem modRun_run (j : Nat) (f : Run → Run) : (d.modRun j f).run j = f (d.run j) := tget_tmod_same _ _ _ _
@[simp] theorem modAxis_axis (a : Nat) (f : Axis → Axis) : (d.modAxis a f).axis a = f (d.axis a) := tget_tmod_same _ _ _ _
@[simp] theorem modHead_head (h : Nat) (f : Head → Head) : (d.modHead h f).head h = f (d.head h) := tget_tmod_same _ _ _ _
@[simp] theorem modBoard_board (b : Nat) (f : Board → Board) : (d.modBoard b f).board b = f (d.board b) := tget_tmod_same _ _ _ _
@[simp] theorem modPod_pod (q : Nat) (f : Pod → Pod) : (d.modPod q f).podAt q = f (d.podAt q) := tget_tmod_same _ _ _ _
@[simp] theorem modCommit_commit (j : Nat) (f : Commit → Commit) : (d.modCommit j f).commit j = f (d.commit j) := tget_tmod_same _ _ _ _
@[simp] theorem modLaser_laser (x : Nat) (f : Laser → Laser) : (d.modLaser x f).laser x = f (d.laser x) := tget_tmod_same _ _ _ _
@[simp] theorem modLink_link (l : Nat) (f : Link → Link) : (d.modLink l f).link l = f (d.link l) := tget_tmod_same _ _ _ _
@[simp] theorem modPort_port (p : Nat) (f : Port → Port) : (d.modPort p f).port p = f (d.port p) := tget_tmod_same _ _ _ _
@[simp] theorem modNeighbour_neighbour (i : Nat) (f : Neighbour → Neighbour) :
    (d.modNeighbour i f).neighbour i = f (d.neighbour i) := tget_tmod_same _ _ _ _
@[simp] theorem modEngJob_engJob (j : Nat) (f : Coll → Coll) : (d.modEngJob j f).engJob j = f (d.engJob j) := tget_tmod_same _ _ _ _
@[simp] theorem modModel_model (m : Nat) (f : Model → Model) : (d.modModel m f).model m = f (d.model m) := tget_tmod_same _ _ _ _
@[simp] theorem modMirror_mirror (j : Nat) (f : Mirror → Mirror) : (d.modMirror j f).mirror j = f (d.mirror j) := tget_tmod_same _ _ _ _
@[simp] theorem setDomain_domain (k : Nat) (x : DState) (h : k ≠ 0) : (d.setDomain k x).domain k = x := by
  simp [Dev.domain, Dev.setDomain, h]

/-- An object just written reads as written. -/
@[simp] theorem setNum_num (i s : Nat) (v : Int) : (d.setNum i s v).num i s = v := by
  simp [Dev.setNum, Dev.num]

/-- An object just written, read as unsigned. -/
@[simp] theorem setNum_nat (i s n : Nat) : (d.setNum i s (n : Int)).nat i s = n := by
  simp [Dev.nat]

/-- A byte string just written reads as written. -/
@[simp] theorem setOct_oct (i s : Nat) (b : Bytes) : (d.setOct i s b).oct i s = b := tget_tset_same _ _ _ _

/-- A counter just advanced. -/
@[simp] theorem bump_nat (i s n : Nat) : (d.bump i s n).nat i s = (d.nat i s + n) % 2 ^ 32 := setNum_nat d i s _

/-- Other objects read as before: the keys of two subindices differ. -/
theorem setNum_num_other (i s : Nat) (v : Int) {i' s' : Nat} (h : objKey i s ≠ objKey i' s') :
    (d.setNum i s v).num i' s' = d.num i' s' := by
  simp [Dev.setNum, Dev.num, tfind_tset_other _ _ h]

/-- Array time brought to an instant reads at least that instant, and never falls. -/
theorem reach_now (t : Nat) : (d.reach t).now = max d.now t := by
  simp only [Dev.reach, Dev.now]
  rcases Nat.le_total d.time.counter (t * 2 ^ 32) with h | h
  · rw [Nat.max_eq_right h, Nat.mul_div_cancel _ (by norm_num)]
    rw [Nat.max_eq_right (Nat.div_le_of_le_mul (by rw [Nat.mul_comm]; exact h))]
  · rw [Nat.max_eq_left h, Nat.max_eq_left ((Nat.le_div_iff_mul_le (by norm_num)).mpr h)]

end Sys2Proof.Machine
end

