-- ==== Sys2Proof/Laws/Frames.lean ====
section
/-!
SUPPORT. The frames of the shared operations: which parts of the device each leaves alone.
-/

namespace Sys2Proof.Machine
open Sys2Proof
set_option linter.all false
set_option Elab.async false

@[simp] theorem foldl_module {α : Type} (g : Dev → α → Dev) (h : ∀ d a, (g d a).module = d.module) (l : List α) (d : Dev) :
    (l.foldl g d).module = d.module := by
  induction l generalizing d with
  | nil => rfl
  | cons a t ih => exact (ih _).trans (h _ _)

@[simp] theorem foldl_net {α : Type} (g : Dev → α → Dev) (h : ∀ d a, (g d a).net = d.net) (l : List α) (d : Dev) :
    (l.foldl g d).net = d.net := by
  induction l generalizing d with
  | nil => rfl
  | cons a t ih => exact (ih _).trans (h _ _)

@[simp] theorem foldl_dir {α : Type} (g : Dev → α → Dev) (h : ∀ d a, (g d a).dir = d.dir) (l : List α) (d : Dev) :
    (l.foldl g d).dir = d.dir := by
  induction l generalizing d with
  | nil => rfl
  | cons a t ih => exact (ih _).trans (h _ _)

@[simp] theorem foldl_jobs {α : Type} (g : Dev → α → Dev) (h : ∀ d a, (g d a).jobs = d.jobs) (l : List α) (d : Dev) :
    (l.foldl g d).jobs = d.jobs := by
  induction l generalizing d with
  | nil => rfl
  | cons a t ih => exact (ih _).trans (h _ _)

@[simp] theorem foldl_circuits {α : Type} (g : Dev → α → Dev) (h : ∀ d a, (g d a).circuits = d.circuits) (l : List α) (d : Dev) :
    (l.foldl g d).circuits = d.circuits := by
  induction l generalizing d with
  | nil => rfl
  | cons a t ih => exact (ih _).trans (h _ _)

@[simp] theorem foldl_runs {α : Type} (g : Dev → α → Dev) (h : ∀ d a, (g d a).runs = d.runs) (l : List α) (d : Dev) :
    (l.foldl g d).runs = d.runs := by
  induction l generalizing d with
  | nil => rfl
  | cons a t ih => exact (ih _).trans (h _ _)

@[simp] theorem foldl_time {α : Type} (g : Dev → α → Dev) (h : ∀ d a, (g d a).time = d.time) (l : List α) (d : Dev) :
    (l.foldl g d).time = d.time := by
  induction l generalizing d with
  | nil => rfl
  | cons a t ih => exact (ih _).trans (h _ _)

@[simp] theorem foldl_eng {α : Type} (g : Dev → α → Dev) (h : ∀ d a, (g d a).eng = d.eng) (l : List α) (d : Dev) :
    (l.foldl g d).eng = d.eng := by
  induction l generalizing d with
  | nil => rfl
  | cons a t ih => exact (ih _).trans (h _ _)

@[simp] theorem foldl_rings {α : Type} (g : Dev → α → Dev) (h : ∀ d a, (g d a).rings = d.rings) (l : List α) (d : Dev) :
    (l.foldl g d).rings = d.rings := by
  induction l generalizing d with
  | nil => rfl
  | cons a t ih => exact (ih _).trans (h _ _)

@[simp] theorem foldl_arr {α : Type} (g : Dev → α → Dev) (h : ∀ d a, (g d a).arr = d.arr) (l : List α) (d : Dev) :
    (l.foldl g d).arr = d.arr := by
  induction l generalizing d with
  | nil => rfl
  | cons a t ih => exact (ih _).trans (h _ _)

@[simp] theorem foldl_opt {α : Type} (g : Dev → α → Dev) (h : ∀ d a, (g d a).opt = d.opt) (l : List α) (d : Dev) :
    (l.foldl g d).opt = d.opt := by
  induction l generalizing d with
  | nil => rfl
  | cons a t ih => exact (ih _).trans (h _ _)

@[simp] theorem foldl_disc {α : Type} (g : Dev → α → Dev) (h : ∀ d a, (g d a).disc = d.disc) (l : List α) (d : Dev) :
    (l.foldl g d).disc = d.disc := by
  induction l generalizing d with
  | nil => rfl
  | cons a t ih => exact (ih _).trans (h _ _)

@[simp] theorem foldl_coll {α : Type} (g : Dev → α → Dev) (h : ∀ d a, (g d a).coll = d.coll) (l : List α) (d : Dev) :
    (l.foldl g d).coll = d.coll := by
  induction l generalizing d with
  | nil => rfl
  | cons a t ih => exact (ih _).trans (h _ _)

@[simp] theorem foldl_mem {α : Type} (g : Dev → α → Dev) (h : ∀ d a, (g d a).mem = d.mem) (l : List α) (d : Dev) :
    (l.foldl g d).mem = d.mem := by
  induction l generalizing d with
  | nil => rfl
  | cons a t ih => exact (ih _).trans (h _ _)

@[simp] theorem foldl_faults {α : Type} (g : Dev → α → Dev) (h : ∀ d a, (g d a).faults = d.faults) (l : List α) (d : Dev) :
    (l.foldl g d).faults = d.faults := by
  induction l generalizing d with
  | nil => rfl
  | cons a t ih => exact (ih _).trans (h _ _)

@[simp] theorem foldl_twin {α : Type} (g : Dev → α → Dev) (h : ∀ d a, (g d a).twin = d.twin) (l : List α) (d : Dev) :
    (l.foldl g d).twin = d.twin := by
  induction l generalizing d with
  | nil => rfl
  | cons a t ih => exact (ih _).trans (h _ _)

@[simp] theorem foldl_power {α : Type} (g : Dev → α → Dev) (h : ∀ d a, (g d a).power = d.power) (l : List α) (d : Dev) :
    (l.foldl g d).power = d.power := by
  induction l generalizing d with
  | nil => rfl
  | cons a t ih => exact (ih _).trans (h _ _)

@[simp] theorem foldl_upd {α : Type} (g : Dev → α → Dev) (h : ∀ d a, (g d a).upd = d.upd) (l : List α) (d : Dev) :
    (l.foldl g d).upd = d.upd := by
  induction l generalizing d with
  | nil => rfl
  | cons a t ih => exact (ih _).trans (h _ _)

@[simp] theorem foldl_recr {α : Type} (g : Dev → α → Dev) (h : ∀ d a, (g d a).recr = d.recr) (l : List α) (d : Dev) :
    (l.foldl g d).recr = d.recr := by
  induction l generalizing d with
  | nil => rfl
  | cons a t ih => exact (ih _).trans (h _ _)

@[simp] theorem foldl_od {α : Type} (g : Dev → α → Dev) (h : ∀ d a, (g d a).od = d.od) (l : List α) (d : Dev) :
    (l.foldl g d).od = d.od := by
  induction l generalizing d with
  | nil => rfl
  | cons a t ih => exact (ih _).trans (h _ _)

@[simp] theorem foldl_ob {α : Type} (g : Dev → α → Dev) (h : ∀ d a, (g d a).ob = d.ob) (l : List α) (d : Dev) :
    (l.foldl g d).ob = d.ob := by
  induction l generalizing d with
  | nil => rfl
  | cons a t ih => exact (ih _).trans (h _ _)

@[simp] theorem foldl_out {α : Type} (g : Dev → α → Dev) (h : ∀ d a, (g d a).out = d.out) (l : List α) (d : Dev) :
    (l.foldl g d).out = d.out := by
  induction l generalizing d with
  | nil => rfl
  | cons a t ih => exact (ih _).trans (h _ _)

@[simp] theorem foldl_fresh {α : Type} (g : Dev → α → Dev) (h : ∀ d a, (g d a).fresh = d.fresh) (l : List α) (d : Dev) :
    (l.foldl g d).fresh = d.fresh := by
  induction l generalizing d with
  | nil => rfl
  | cons a t ih => exact (ih _).trans (h _ _)

@[simp] theorem foldlM_module {α : Type} (g : Dev × Hbm → α → Dev × Hbm) (h : ∀ d a, (g d a).1.module = d.1.module) (l : List α) (d : Dev × Hbm) :
    (l.foldl g d).1.module = d.1.module := by
  induction l generalizing d with
  | nil => rfl
  | cons a t ih => exact (ih _).trans (h _ _)

@[simp] theorem iteM_module {c : Prop} [Decidable c] (a b : Dev × Hbm) : (if c then a else b).1.module = if c then a.1.module else b.1.module := by
  split <;> rfl

@[simp] theorem foldlM_net {α : Type} (g : Dev × Hbm → α → Dev × Hbm) (h : ∀ d a, (g d a).1.net = d.1.net) (l : List α) (d : Dev × Hbm) :
    (l.foldl g d).1.net = d.1.net := by
  induction l generalizing d with
  | nil => rfl
  | cons a t ih => exact (ih _).trans (h _ _)

@[simp] theorem iteM_net {c : Prop} [Decidable c] (a b : Dev × Hbm) : (if c then a else b).1.net = if c then a.1.net else b.1.net := by
  split <;> rfl

@[simp] theorem foldlM_dir {α : Type} (g : Dev × Hbm → α → Dev × Hbm) (h : ∀ d a, (g d a).1.dir = d.1.dir) (l : List α) (d : Dev × Hbm) :
    (l.foldl g d).1.dir = d.1.dir := by
  induction l generalizing d with
  | nil => rfl
  | cons a t ih => exact (ih _).trans (h _ _)

@[simp] theorem iteM_dir {c : Prop} [Decidable c] (a b : Dev × Hbm) : (if c then a else b).1.dir = if c then a.1.dir else b.1.dir := by
  split <;> rfl

@[simp] theorem foldlM_jobs {α : Type} (g : Dev × Hbm → α → Dev × Hbm) (h : ∀ d a, (g d a).1.jobs = d.1.jobs) (l : List α) (d : Dev × Hbm) :
    (l.foldl g d).1.jobs = d.1.jobs := by
  induction l generalizing d with
  | nil => rfl
  | cons a t ih => exact (ih _).trans (h _ _)

@[simp] theorem iteM_jobs {c : Prop} [Decidable c] (a b : Dev × Hbm) : (if c then a else b).1.jobs = if c then a.1.jobs else b.1.jobs := by
  split <;> rfl

@[simp] theorem foldlM_circuits {α : Type} (g : Dev × Hbm → α → Dev × Hbm) (h : ∀ d a, (g d a).1.circuits = d.1.circuits) (l : List α) (d : Dev × Hbm) :
    (l.foldl g d).1.circuits = d.1.circuits := by
  induction l generalizing d with
  | nil => rfl
  | cons a t ih => exact (ih _).trans (h _ _)

@[simp] theorem iteM_circuits {c : Prop} [Decidable c] (a b : Dev × Hbm) : (if c then a else b).1.circuits = if c then a.1.circuits else b.1.circuits := by
  split <;> rfl

@[simp] theorem foldlM_runs {α : Type} (g : Dev × Hbm → α → Dev × Hbm) (h : ∀ d a, (g d a).1.runs = d.1.runs) (l : List α) (d : Dev × Hbm) :
    (l.foldl g d).1.runs = d.1.runs := by
  induction l generalizing d with
  | nil => rfl
  | cons a t ih => exact (ih _).trans (h _ _)

@[simp] theorem iteM_runs {c : Prop} [Decidable c] (a b : Dev × Hbm) : (if c then a else b).1.runs = if c then a.1.runs else b.1.runs := by
  split <;> rfl

@[simp] theorem foldlM_time {α : Type} (g : Dev × Hbm → α → Dev × Hbm) (h : ∀ d a, (g d a).1.time = d.1.time) (l : List α) (d : Dev × Hbm) :
    (l.foldl g d).1.time = d.1.time := by
  induction l generalizing d with
  | nil => rfl
  | cons a t ih => exact (ih _).trans (h _ _)

@[simp] theorem iteM_time {c : Prop} [Decidable c] (a b : Dev × Hbm) : (if c then a else b).1.time = if c then a.1.time else b.1.time := by
  split <;> rfl

@[simp] theorem foldlM_eng {α : Type} (g : Dev × Hbm → α → Dev × Hbm) (h : ∀ d a, (g d a).1.eng = d.1.eng) (l : List α) (d : Dev × Hbm) :
    (l.foldl g d).1.eng = d.1.eng := by
  induction l generalizing d with
  | nil => rfl
  | cons a t ih => exact (ih _).trans (h _ _)

@[simp] theorem iteM_eng {c : Prop} [Decidable c] (a b : Dev × Hbm) : (if c then a else b).1.eng = if c then a.1.eng else b.1.eng := by
  split <;> rfl

@[simp] theorem foldlM_rings {α : Type} (g : Dev × Hbm → α → Dev × Hbm) (h : ∀ d a, (g d a).1.rings = d.1.rings) (l : List α) (d : Dev × Hbm) :
    (l.foldl g d).1.rings = d.1.rings := by
  induction l generalizing d with
  | nil => rfl
  | cons a t ih => exact (ih _).trans (h _ _)

@[simp] theorem iteM_rings {c : Prop} [Decidable c] (a b : Dev × Hbm) : (if c then a else b).1.rings = if c then a.1.rings else b.1.rings := by
  split <;> rfl

@[simp] theorem foldlM_arr {α : Type} (g : Dev × Hbm → α → Dev × Hbm) (h : ∀ d a, (g d a).1.arr = d.1.arr) (l : List α) (d : Dev × Hbm) :
    (l.foldl g d).1.arr = d.1.arr := by
  induction l generalizing d with
  | nil => rfl
  | cons a t ih => exact (ih _).trans (h _ _)

@[simp] theorem iteM_arr {c : Prop} [Decidable c] (a b : Dev × Hbm) : (if c then a else b).1.arr = if c then a.1.arr else b.1.arr := by
  split <;> rfl

@[simp] theorem foldlM_opt {α : Type} (g : Dev × Hbm → α → Dev × Hbm) (h : ∀ d a, (g d a).1.opt = d.1.opt) (l : List α) (d : Dev × Hbm) :
    (l.foldl g d).1.opt = d.1.opt := by
  induction l generalizing d with
  | nil => rfl
  | cons a t ih => exact (ih _).trans (h _ _)

@[simp] theorem iteM_opt {c : Prop} [Decidable c] (a b : Dev × Hbm) : (if c then a else b).1.opt = if c then a.1.opt else b.1.opt := by
  split <;> rfl

@[simp] theorem foldlM_disc {α : Type} (g : Dev × Hbm → α → Dev × Hbm) (h : ∀ d a, (g d a).1.disc = d.1.disc) (l : List α) (d : Dev × Hbm) :
    (l.foldl g d).1.disc = d.1.disc := by
  induction l generalizing d with
  | nil => rfl
  | cons a t ih => exact (ih _).trans (h _ _)

@[simp] theorem iteM_disc {c : Prop} [Decidable c] (a b : Dev × Hbm) : (if c then a else b).1.disc = if c then a.1.disc else b.1.disc := by
  split <;> rfl

@[simp] theorem foldlM_coll {α : Type} (g : Dev × Hbm → α → Dev × Hbm) (h : ∀ d a, (g d a).1.coll = d.1.coll) (l : List α) (d : Dev × Hbm) :
    (l.foldl g d).1.coll = d.1.coll := by
  induction l generalizing d with
  | nil => rfl
  | cons a t ih => exact (ih _).trans (h _ _)

@[simp] theorem iteM_coll {c : Prop} [Decidable c] (a b : Dev × Hbm) : (if c then a else b).1.coll = if c then a.1.coll else b.1.coll := by
  split <;> rfl

@[simp] theorem foldlM_mem {α : Type} (g : Dev × Hbm → α → Dev × Hbm) (h : ∀ d a, (g d a).1.mem = d.1.mem) (l : List α) (d : Dev × Hbm) :
    (l.foldl g d).1.mem = d.1.mem := by
  induction l generalizing d with
  | nil => rfl
  | cons a t ih => exact (ih _).trans (h _ _)

@[simp] theorem iteM_mem {c : Prop} [Decidable c] (a b : Dev × Hbm) : (if c then a else b).1.mem = if c then a.1.mem else b.1.mem := by
  split <;> rfl

@[simp] theorem foldlM_faults {α : Type} (g : Dev × Hbm → α → Dev × Hbm) (h : ∀ d a, (g d a).1.faults = d.1.faults) (l : List α) (d : Dev × Hbm) :
    (l.foldl g d).1.faults = d.1.faults := by
  induction l generalizing d with
  | nil => rfl
  | cons a t ih => exact (ih _).trans (h _ _)

@[simp] theorem iteM_faults {c : Prop} [Decidable c] (a b : Dev × Hbm) : (if c then a else b).1.faults = if c then a.1.faults else b.1.faults := by
  split <;> rfl

@[simp] theorem foldlM_twin {α : Type} (g : Dev × Hbm → α → Dev × Hbm) (h : ∀ d a, (g d a).1.twin = d.1.twin) (l : List α) (d : Dev × Hbm) :
    (l.foldl g d).1.twin = d.1.twin := by
  induction l generalizing d with
  | nil => rfl
  | cons a t ih => exact (ih _).trans (h _ _)

@[simp] theorem iteM_twin {c : Prop} [Decidable c] (a b : Dev × Hbm) : (if c then a else b).1.twin = if c then a.1.twin else b.1.twin := by
  split <;> rfl

@[simp] theorem foldlM_power {α : Type} (g : Dev × Hbm → α → Dev × Hbm) (h : ∀ d a, (g d a).1.power = d.1.power) (l : List α) (d : Dev × Hbm) :
    (l.foldl g d).1.power = d.1.power := by
  induction l generalizing d with
  | nil => rfl
  | cons a t ih => exact (ih _).trans (h _ _)

@[simp] theorem iteM_power {c : Prop} [Decidable c] (a b : Dev × Hbm) : (if c then a else b).1.power = if c then a.1.power else b.1.power := by
  split <;> rfl

@[simp] theorem foldlM_upd {α : Type} (g : Dev × Hbm → α → Dev × Hbm) (h : ∀ d a, (g d a).1.upd = d.1.upd) (l : List α) (d : Dev × Hbm) :
    (l.foldl g d).1.upd = d.1.upd := by
  induction l generalizing d with
  | nil => rfl
  | cons a t ih => exact (ih _).trans (h _ _)

@[simp] theorem iteM_upd {c : Prop} [Decidable c] (a b : Dev × Hbm) : (if c then a else b).1.upd = if c then a.1.upd else b.1.upd := by
  split <;> rfl

@[simp] theorem foldlM_recr {α : Type} (g : Dev × Hbm → α → Dev × Hbm) (h : ∀ d a, (g d a).1.recr = d.1.recr) (l : List α) (d : Dev × Hbm) :
    (l.foldl g d).1.recr = d.1.recr := by
  induction l generalizing d with
  | nil => rfl
  | cons a t ih => exact (ih _).trans (h _ _)

@[simp] theorem iteM_recr {c : Prop} [Decidable c] (a b : Dev × Hbm) : (if c then a else b).1.recr = if c then a.1.recr else b.1.recr := by
  split <;> rfl

@[simp] theorem foldlM_od {α : Type} (g : Dev × Hbm → α → Dev × Hbm) (h : ∀ d a, (g d a).1.od = d.1.od) (l : List α) (d : Dev × Hbm) :
    (l.foldl g d).1.od = d.1.od := by
  induction l generalizing d with
  | nil => rfl
  | cons a t ih => exact (ih _).trans (h _ _)

@[simp] theorem iteM_od {c : Prop} [Decidable c] (a b : Dev × Hbm) : (if c then a else b).1.od = if c then a.1.od else b.1.od := by
  split <;> rfl

@[simp] theorem foldlM_ob {α : Type} (g : Dev × Hbm → α → Dev × Hbm) (h : ∀ d a, (g d a).1.ob = d.1.ob) (l : List α) (d : Dev × Hbm) :
    (l.foldl g d).1.ob = d.1.ob := by
  induction l generalizing d with
  | nil => rfl
  | cons a t ih => exact (ih _).trans (h _ _)

@[simp] theorem iteM_ob {c : Prop} [Decidable c] (a b : Dev × Hbm) : (if c then a else b).1.ob = if c then a.1.ob else b.1.ob := by
  split <;> rfl

@[simp] theorem foldlM_out {α : Type} (g : Dev × Hbm → α → Dev × Hbm) (h : ∀ d a, (g d a).1.out = d.1.out) (l : List α) (d : Dev × Hbm) :
    (l.foldl g d).1.out = d.1.out := by
  induction l generalizing d with
  | nil => rfl
  | cons a t ih => exact (ih _).trans (h _ _)

@[simp] theorem iteM_out {c : Prop} [Decidable c] (a b : Dev × Hbm) : (if c then a else b).1.out = if c then a.1.out else b.1.out := by
  split <;> rfl

@[simp] theorem foldlM_fresh {α : Type} (g : Dev × Hbm → α → Dev × Hbm) (h : ∀ d a, (g d a).1.fresh = d.1.fresh) (l : List α) (d : Dev × Hbm) :
    (l.foldl g d).1.fresh = d.1.fresh := by
  induction l generalizing d with
  | nil => rfl
  | cons a t ih => exact (ih _).trans (h _ _)

@[simp] theorem iteM_fresh {c : Prop} [Decidable c] (a b : Dev × Hbm) : (if c then a else b).1.fresh = if c then a.1.fresh else b.1.fresh := by
  split <;> rfl

@[simp] theorem ite_module {c : Prop} [Decidable c] (a b : Dev) : (if c then a else b).module = if c then a.module else b.module := by
  split <;> rfl

@[simp] theorem ite_net {c : Prop} [Decidable c] (a b : Dev) : (if c then a else b).net = if c then a.net else b.net := by
  split <;> rfl

@[simp] theorem ite_dir {c : Prop} [Decidable c] (a b : Dev) : (if c then a else b).dir = if c then a.dir else b.dir := by
  split <;> rfl

@[simp] theorem ite_jobs {c : Prop} [Decidable c] (a b : Dev) : (if c then a else b).jobs = if c then a.jobs else b.jobs := by
  split <;> rfl

@[simp] theorem ite_circuits {c : Prop} [Decidable c] (a b : Dev) : (if c then a else b).circuits = if c then a.circuits else b.circuits := by
  split <;> rfl

@[simp] theorem ite_runs {c : Prop} [Decidable c] (a b : Dev) : (if c then a else b).runs = if c then a.runs else b.runs := by
  split <;> rfl

@[simp] theorem ite_time {c : Prop} [Decidable c] (a b : Dev) : (if c then a else b).time = if c then a.time else b.time := by
  split <;> rfl

@[simp] theorem ite_eng {c : Prop} [Decidable c] (a b : Dev) : (if c then a else b).eng = if c then a.eng else b.eng := by
  split <;> rfl

@[simp] theorem ite_rings {c : Prop} [Decidable c] (a b : Dev) : (if c then a else b).rings = if c then a.rings else b.rings := by
  split <;> rfl

@[simp] theorem ite_arr {c : Prop} [Decidable c] (a b : Dev) : (if c then a else b).arr = if c then a.arr else b.arr := by
  split <;> rfl

@[simp] theorem ite_opt {c : Prop} [Decidable c] (a b : Dev) : (if c then a else b).opt = if c then a.opt else b.opt := by
  split <;> rfl

@[simp] theorem ite_disc {c : Prop} [Decidable c] (a b : Dev) : (if c then a else b).disc = if c then a.disc else b.disc := by
  split <;> rfl

@[simp] theorem ite_coll {c : Prop} [Decidable c] (a b : Dev) : (if c then a else b).coll = if c then a.coll else b.coll := by
  split <;> rfl

@[simp] theorem ite_mem {c : Prop} [Decidable c] (a b : Dev) : (if c then a else b).mem = if c then a.mem else b.mem := by
  split <;> rfl

@[simp] theorem ite_faults {c : Prop} [Decidable c] (a b : Dev) : (if c then a else b).faults = if c then a.faults else b.faults := by
  split <;> rfl

@[simp] theorem ite_twin {c : Prop} [Decidable c] (a b : Dev) : (if c then a else b).twin = if c then a.twin else b.twin := by
  split <;> rfl

@[simp] theorem ite_power {c : Prop} [Decidable c] (a b : Dev) : (if c then a else b).power = if c then a.power else b.power := by
  split <;> rfl

@[simp] theorem ite_upd {c : Prop} [Decidable c] (a b : Dev) : (if c then a else b).upd = if c then a.upd else b.upd := by
  split <;> rfl

@[simp] theorem ite_recr {c : Prop} [Decidable c] (a b : Dev) : (if c then a else b).recr = if c then a.recr else b.recr := by
  split <;> rfl

@[simp] theorem ite_od {c : Prop} [Decidable c] (a b : Dev) : (if c then a else b).od = if c then a.od else b.od := by
  split <;> rfl

@[simp] theorem ite_ob {c : Prop} [Decidable c] (a b : Dev) : (if c then a else b).ob = if c then a.ob else b.ob := by
  split <;> rfl

@[simp] theorem ite_out {c : Prop} [Decidable c] (a b : Dev) : (if c then a else b).out = if c then a.out else b.out := by
  split <;> rfl

@[simp] theorem ite_fresh {c : Prop} [Decidable c] (a b : Dev) : (if c then a else b).fresh = if c then a.fresh else b.fresh := by
  split <;> rfl

@[simp] theorem write_module (d : Dev) (prot : Bool) (r : LogRec) : (Dev.write d prot r).module = d.module := by
  first
  | (unfold Dev.write; with_reducible rfl)
  | (unfold Dev.write; simp; done)
  | (unfold Dev.write; (repeat' first | with_reducible rfl | (simp; done) | split); done)
  | (unfold Dev.write; try dsimp only
     (repeat' first | with_reducible rfl | (simp; done) | (with_reducible refine (foldl_module _ ?_ _ _).trans ?_ <;> try intro _ _) | dsimp only | split); done)

@[simp] theorem write_net (d : Dev) (prot : Bool) (r : LogRec) : (Dev.write d prot r).net = d.net := by
  first
  | (unfold Dev.write; with_reducible rfl)
  | (unfold Dev.write; simp; done)
  | (unfold Dev.write; (repeat' first | with_reducible rfl | (simp; done) | split); done)
  | (unfold Dev.write; try dsimp only
     (repeat' first | with_reducible rfl | (simp; done) | (with_reducible refine (foldl_net _ ?_ _ _).trans ?_ <;> try intro _ _) | dsimp only | split); done)

@[simp] theorem write_dir (d : Dev) (prot : Bool) (r : LogRec) : (Dev.write d prot r).dir = d.dir := by
  first
  | (unfold Dev.write; with_reducible rfl)
  | (unfold Dev.write; simp; done)
  | (unfold Dev.write; (repeat' first | with_reducible rfl | (simp; done) | split); done)
  | (unfold Dev.write; try dsimp only
     (repeat' first | with_reducible rfl | (simp; done) | (with_reducible refine (foldl_dir _ ?_ _ _).trans ?_ <;> try intro _ _) | dsimp only | split); done)

@[simp] theorem write_jobs (d : Dev) (prot : Bool) (r : LogRec) : (Dev.write d prot r).jobs = d.jobs := by
  first
  | (unfold Dev.write; with_reducible rfl)
  | (unfold Dev.write; simp; done)
  | (unfold Dev.write; (repeat' first | with_reducible rfl | (simp; done) | split); done)
  | (unfold Dev.write; try dsimp only
     (repeat' first | with_reducible rfl | (simp; done) | (with_reducible refine (foldl_jobs _ ?_ _ _).trans ?_ <;> try intro _ _) | dsimp only | split); done)

@[simp] theorem write_circuits (d : Dev) (prot : Bool) (r : LogRec) : (Dev.write d prot r).circuits = d.circuits := by
  first
  | (unfold Dev.write; with_reducible rfl)
  | (unfold Dev.write; simp; done)
  | (unfold Dev.write; (repeat' first | with_reducible rfl | (simp; done) | split); done)
  | (unfold Dev.write; try dsimp only
     (repeat' first | with_reducible rfl | (simp; done) | (with_reducible refine (foldl_circuits _ ?_ _ _).trans ?_ <;> try intro _ _) | dsimp only | split); done)

@[simp] theorem write_runs (d : Dev) (prot : Bool) (r : LogRec) : (Dev.write d prot r).runs = d.runs := by
  first
  | (unfold Dev.write; with_reducible rfl)
  | (unfold Dev.write; simp; done)
  | (unfold Dev.write; (repeat' first | with_reducible rfl | (simp; done) | split); done)
  | (unfold Dev.write; try dsimp only
     (repeat' first | with_reducible rfl | (simp; done) | (with_reducible refine (foldl_runs _ ?_ _ _).trans ?_ <;> try intro _ _) | dsimp only | split); done)

@[simp] theorem write_time (d : Dev) (prot : Bool) (r : LogRec) : (Dev.write d prot r).time = d.time := by
  first
  | (unfold Dev.write; with_reducible rfl)
  | (unfold Dev.write; simp; done)
  | (unfold Dev.write; (repeat' first | with_reducible rfl | (simp; done) | split); done)
  | (unfold Dev.write; try dsimp only
     (repeat' first | with_reducible rfl | (simp; done) | (with_reducible refine (foldl_time _ ?_ _ _).trans ?_ <;> try intro _ _) | dsimp only | split); done)

@[simp] theorem write_eng (d : Dev) (prot : Bool) (r : LogRec) : (Dev.write d prot r).eng = d.eng := by
  first
  | (unfold Dev.write; with_reducible rfl)
  | (unfold Dev.write; simp; done)
  | (unfold Dev.write; (repeat' first | with_reducible rfl | (simp; done) | split); done)
  | (unfold Dev.write; try dsimp only
     (repeat' first | with_reducible rfl | (simp; done) | (with_reducible refine (foldl_eng _ ?_ _ _).trans ?_ <;> try intro _ _) | dsimp only | split); done)

@[simp] theorem write_rings (d : Dev) (prot : Bool) (r : LogRec) : (Dev.write d prot r).rings = d.rings := by
  first
  | (unfold Dev.write; with_reducible rfl)
  | (unfold Dev.write; simp; done)
  | (unfold Dev.write; (repeat' first | with_reducible rfl | (simp; done) | split); done)
  | (unfold Dev.write; try dsimp only
     (repeat' first | with_reducible rfl | (simp; done) | (with_reducible refine (foldl_rings _ ?_ _ _).trans ?_ <;> try intro _ _) | dsimp only | split); done)

@[simp] theorem write_arr (d : Dev) (prot : Bool) (r : LogRec) : (Dev.write d prot r).arr = d.arr := by
  first
  | (unfold Dev.write; with_reducible rfl)
  | (unfold Dev.write; simp; done)
  | (unfold Dev.write; (repeat' first | with_reducible rfl | (simp; done) | split); done)
  | (unfold Dev.write; try dsimp only
     (repeat' first | with_reducible rfl | (simp; done) | (with_reducible refine (foldl_arr _ ?_ _ _).trans ?_ <;> try intro _ _) | dsimp only | split); done)

@[simp] theorem write_opt (d : Dev) (prot : Bool) (r : LogRec) : (Dev.write d prot r).opt = d.opt := by
  first
  | (unfold Dev.write; with_reducible rfl)
  | (unfold Dev.write; simp; done)
  | (unfold Dev.write; (repeat' first | with_reducible rfl | (simp; done) | split); done)
  | (unfold Dev.write; try dsimp only
     (repeat' first | with_reducible rfl | (simp; done) | (with_reducible refine (foldl_opt _ ?_ _ _).trans ?_ <;> try intro _ _) | dsimp only | split); done)

@[simp] theorem write_disc (d : Dev) (prot : Bool) (r : LogRec) : (Dev.write d prot r).disc = d.disc := by
  first
  | (unfold Dev.write; with_reducible rfl)
  | (unfold Dev.write; simp; done)
  | (unfold Dev.write; (repeat' first | with_reducible rfl | (simp; done) | split); done)
  | (unfold Dev.write; try dsimp only
     (repeat' first | with_reducible rfl | (simp; done) | (with_reducible refine (foldl_disc _ ?_ _ _).trans ?_ <;> try intro _ _) | dsimp only | split); done)

@[simp] theorem write_coll (d : Dev) (prot : Bool) (r : LogRec) : (Dev.write d prot r).coll = d.coll := by
  first
  | (unfold Dev.write; with_reducible rfl)
  | (unfold Dev.write; simp; done)
  | (unfold Dev.write; (repeat' first | with_reducible rfl | (simp; done) | split); done)
  | (unfold Dev.write; try dsimp only
     (repeat' first | with_reducible rfl | (simp; done) | (with_reducible refine (foldl_coll _ ?_ _ _).trans ?_ <;> try intro _ _) | dsimp only | split); done)

@[simp] theorem write_mem (d : Dev) (prot : Bool) (r : LogRec) : (Dev.write d prot r).mem = d.mem := by
  first
  | (unfold Dev.write; with_reducible rfl)
  | (unfold Dev.write; simp; done)
  | (unfold Dev.write; (repeat' first | with_reducible rfl | (simp; done) | split); done)
  | (unfold Dev.write; try dsimp only
     (repeat' first | with_reducible rfl | (simp; done) | (with_reducible refine (foldl_mem _ ?_ _ _).trans ?_ <;> try intro _ _) | dsimp only | split); done)

@[simp] theorem write_twin (d : Dev) (prot : Bool) (r : LogRec) : (Dev.write d prot r).twin = d.twin := by
  first
  | (unfold Dev.write; with_reducible rfl)
  | (unfold Dev.write; simp; done)
  | (unfold Dev.write; (repeat' first | with_reducible rfl | (simp; done) | split); done)
  | (unfold Dev.write; try dsimp only
     (repeat' first | with_reducible rfl | (simp; done) | (with_reducible refine (foldl_twin _ ?_ _ _).trans ?_ <;> try intro _ _) | dsimp only | split); done)

@[simp] theorem write_power (d : Dev) (prot : Bool) (r : LogRec) : (Dev.write d prot r).power = d.power := by
  first
  | (unfold Dev.write; with_reducible rfl)
  | (unfold Dev.write; simp; done)
  | (unfold Dev.write; (repeat' first | with_reducible rfl | (simp; done) | split); done)
  | (unfold Dev.write; try dsimp only
     (repeat' first | with_reducible rfl | (simp; done) | (with_reducible refine (foldl_power _ ?_ _ _).trans ?_ <;> try intro _ _) | dsimp only | split); done)

@[simp] theorem write_upd (d : Dev) (prot : Bool) (r : LogRec) : (Dev.write d prot r).upd = d.upd := by
  first
  | (unfold Dev.write; with_reducible rfl)
  | (unfold Dev.write; simp; done)
  | (unfold Dev.write; (repeat' first | with_reducible rfl | (simp; done) | split); done)
  | (unfold Dev.write; try dsimp only
     (repeat' first | with_reducible rfl | (simp; done) | (with_reducible refine (foldl_upd _ ?_ _ _).trans ?_ <;> try intro _ _) | dsimp only | split); done)

@[simp] theorem write_recr (d : Dev) (prot : Bool) (r : LogRec) : (Dev.write d prot r).recr = d.recr := by
  first
  | (unfold Dev.write; with_reducible rfl)
  | (unfold Dev.write; simp; done)
  | (unfold Dev.write; (repeat' first | with_reducible rfl | (simp; done) | split); done)
  | (unfold Dev.write; try dsimp only
     (repeat' first | with_reducible rfl | (simp; done) | (with_reducible refine (foldl_recr _ ?_ _ _).trans ?_ <;> try intro _ _) | dsimp only | split); done)

@[simp] theorem write_od (d : Dev) (prot : Bool) (r : LogRec) : (Dev.write d prot r).od = d.od := by
  first
  | (unfold Dev.write; with_reducible rfl)
  | (unfold Dev.write; simp; done)
  | (unfold Dev.write; (repeat' first | with_reducible rfl | (simp; done) | split); done)
  | (unfold Dev.write; try dsimp only
     (repeat' first | with_reducible rfl | (simp; done) | (with_reducible refine (foldl_od _ ?_ _ _).trans ?_ <;> try intro _ _) | dsimp only | split); done)

@[simp] theorem write_ob (d : Dev) (prot : Bool) (r : LogRec) : (Dev.write d prot r).ob = d.ob := by
  first
  | (unfold Dev.write; with_reducible rfl)
  | (unfold Dev.write; simp; done)
  | (unfold Dev.write; (repeat' first | with_reducible rfl | (simp; done) | split); done)
  | (unfold Dev.write; try dsimp only
     (repeat' first | with_reducible rfl | (simp; done) | (with_reducible refine (foldl_ob _ ?_ _ _).trans ?_ <;> try intro _ _) | dsimp only | split); done)

@[simp] theorem write_out (d : Dev) (prot : Bool) (r : LogRec) : (Dev.write d prot r).out = d.out := by
  first
  | (unfold Dev.write; with_reducible rfl)
  | (unfold Dev.write; simp; done)
  | (unfold Dev.write; (repeat' first | with_reducible rfl | (simp; done) | split); done)
  | (unfold Dev.write; try dsimp only
     (repeat' first | with_reducible rfl | (simp; done) | (with_reducible refine (foldl_out _ ?_ _ _).trans ?_ <;> try intro _ _) | dsimp only | split); done)

@[simp] theorem write_fresh (d : Dev) (prot : Bool) (r : LogRec) : (Dev.write d prot r).fresh = d.fresh := by
  first
  | (unfold Dev.write; with_reducible rfl)
  | (unfold Dev.write; simp; done)
  | (unfold Dev.write; (repeat' first | with_reducible rfl | (simp; done) | split); done)
  | (unfold Dev.write; try dsimp only
     (repeat' first | with_reducible rfl | (simp; done) | (with_reducible refine (foldl_fresh _ ?_ _ _).trans ?_ <;> try intro _ _) | dsimp only | split); done)

@[simp] theorem maskWords_module (d : Dev) (s p : Nat) (ws : List Nat) : (Dev.maskWords d s p ws).module = d.module := by
  first
  | (unfold Dev.maskWords; with_reducible rfl)
  | (unfold Dev.maskWords; simp; done)
  | (unfold Dev.maskWords; (repeat' first | with_reducible rfl | (simp; done) | split); done)
  | (unfold Dev.maskWords; try dsimp only
     (repeat' first | with_reducible rfl | (simp; done) | (with_reducible refine (foldl_module _ ?_ _ _).trans ?_ <;> try intro _ _) | dsimp only | split); done)

@[simp] theorem maskWords_net (d : Dev) (s p : Nat) (ws : List Nat) : (Dev.maskWords d s p ws).net = d.net := by
  first
  | (unfold Dev.maskWords; with_reducible rfl)
  | (unfold Dev.maskWords; simp; done)
  | (unfold Dev.maskWords; (repeat' first | with_reducible rfl | (simp; done) | split); done)
  | (unfold Dev.maskWords; try dsimp only
     (repeat' first | with_reducible rfl | (simp; done) | (with_reducible refine (foldl_net _ ?_ _ _).trans ?_ <;> try intro _ _) | dsimp only | split); done)

@[simp] theorem maskWords_dir (d : Dev) (s p : Nat) (ws : List Nat) : (Dev.maskWords d s p ws).dir = d.dir := by
  first
  | (unfold Dev.maskWords; with_reducible rfl)
  | (unfold Dev.maskWords; simp; done)
  | (unfold Dev.maskWords; (repeat' first | with_reducible rfl | (simp; done) | split); done)
  | (unfold Dev.maskWords; try dsimp only
     (repeat' first | with_reducible rfl | (simp; done) | (with_reducible refine (foldl_dir _ ?_ _ _).trans ?_ <;> try intro _ _) | dsimp only | split); done)

@[simp] theorem maskWords_jobs (d : Dev) (s p : Nat) (ws : List Nat) : (Dev.maskWords d s p ws).jobs = d.jobs := by
  first
  | (unfold Dev.maskWords; with_reducible rfl)
  | (unfold Dev.maskWords; simp; done)
  | (unfold Dev.maskWords; (repeat' first | with_reducible rfl | (simp; done) | split); done)
  | (unfold Dev.maskWords; try dsimp only
     (repeat' first | with_reducible rfl | (simp; done) | (with_reducible refine (foldl_jobs _ ?_ _ _).trans ?_ <;> try intro _ _) | dsimp only | split); done)

@[simp] theorem maskWords_circuits (d : Dev) (s p : Nat) (ws : List Nat) : (Dev.maskWords d s p ws).circuits = d.circuits := by
  first
  | (unfold Dev.maskWords; with_reducible rfl)
  | (unfold Dev.maskWords; simp; done)
  | (unfold Dev.maskWords; (repeat' first | with_reducible rfl | (simp; done) | split); done)
  | (unfold Dev.maskWords; try dsimp only
     (repeat' first | with_reducible rfl | (simp; done) | (with_reducible refine (foldl_circuits _ ?_ _ _).trans ?_ <;> try intro _ _) | dsimp only | split); done)

@[simp] theorem maskWords_runs (d : Dev) (s p : Nat) (ws : List Nat) : (Dev.maskWords d s p ws).runs = d.runs := by
  first
  | (unfold Dev.maskWords; with_reducible rfl)
  | (unfold Dev.maskWords; simp; done)
  | (unfold Dev.maskWords; (repeat' first | with_reducible rfl | (simp; done) | split); done)
  | (unfold Dev.maskWords; try dsimp only
     (repeat' first | with_reducible rfl | (simp; done) | (with_reducible refine (foldl_runs _ ?_ _ _).trans ?_ <;> try intro _ _) | dsimp only | split); done)

@[simp] theorem maskWords_time (d : Dev) (s p : Nat) (ws : List Nat) : (Dev.maskWords d s p ws).time = d.time := by
  first
  | (unfold Dev.maskWords; with_reducible rfl)
  | (unfold Dev.maskWords; simp; done)
  | (unfold Dev.maskWords; (repeat' first | with_reducible rfl | (simp; done) | split); done)
  | (unfold Dev.maskWords; try dsimp only
     (repeat' first | with_reducible rfl | (simp; done) | (with_reducible refine (foldl_time _ ?_ _ _).trans ?_ <;> try intro _ _) | dsimp only | split); done)

@[simp] theorem maskWords_eng (d : Dev) (s p : Nat) (ws : List Nat) : (Dev.maskWords d s p ws).eng = d.eng := by
  first
  | (unfold Dev.maskWords; with_reducible rfl)
  | (unfold Dev.maskWords; simp; done)
  | (unfold Dev.maskWords; (repeat' first | with_reducible rfl | (simp; done) | split); done)
  | (unfold Dev.maskWords; try dsimp only
     (repeat' first | with_reducible rfl | (simp; done) | (with_reducible refine (foldl_eng _ ?_ _ _).trans ?_ <;> try intro _ _) | dsimp only | split); done)

@[simp] theorem maskWords_rings (d : Dev) (s p : Nat) (ws : List Nat) : (Dev.maskWords d s p ws).rings = d.rings := by
  first
  | (unfold Dev.maskWords; with_reducible rfl)
  | (unfold Dev.maskWords; simp; done)
  | (unfold Dev.maskWords; (repeat' first | with_reducible rfl | (simp; done) | split); done)
  | (unfold Dev.maskWords; try dsimp only
     (repeat' first | with_reducible rfl | (simp; done) | (with_reducible refine (foldl_rings _ ?_ _ _).trans ?_ <;> try intro _ _) | dsimp only | split); done)

@[simp] theorem maskWords_arr (d : Dev) (s p : Nat) (ws : List Nat) : (Dev.maskWords d s p ws).arr = d.arr := by
  first
  | (unfold Dev.maskWords; with_reducible rfl)
  | (unfold Dev.maskWords; simp; done)
  | (unfold Dev.maskWords; (repeat' first | with_reducible rfl | (simp; done) | split); done)
  | (unfold Dev.maskWords; try dsimp only
     (repeat' first | with_reducible rfl | (simp; done) | (with_reducible refine (foldl_arr _ ?_ _ _).trans ?_ <;> try intro _ _) | dsimp only | split); done)

@[simp] theorem maskWords_opt (d : Dev) (s p : Nat) (ws : List Nat) : (Dev.maskWords d s p ws).opt = d.opt := by
  first
  | (unfold Dev.maskWords; with_reducible rfl)
  | (unfold Dev.maskWords; simp; done)
  | (unfold Dev.maskWords; (repeat' first | with_reducible rfl | (simp; done) | split); done)
  | (unfold Dev.maskWords; try dsimp only
     (repeat' first | with_reducible rfl | (simp; done) | (with_reducible refine (foldl_opt _ ?_ _ _).trans ?_ <;> try intro _ _) | dsimp only | split); done)

@[simp] theorem maskWords_disc (d : Dev) (s p : Nat) (ws : List Nat) : (Dev.maskWords d s p ws).disc = d.disc := by
  first
  | (unfold Dev.maskWords; with_reducible rfl)
  | (unfold Dev.maskWords; simp; done)
  | (unfold Dev.maskWords; (repeat' first | with_reducible rfl | (simp; done) | split); done)
  | (unfold Dev.maskWords; try dsimp only
     (repeat' first | with_reducible rfl | (simp; done) | (with_reducible refine (foldl_disc _ ?_ _ _).trans ?_ <;> try intro _ _) | dsimp only | split); done)

@[simp] theorem maskWords_coll (d : Dev) (s p : Nat) (ws : List Nat) : (Dev.maskWords d s p ws).coll = d.coll := by
  first
  | (unfold Dev.maskWords; with_reducible rfl)
  | (unfold Dev.maskWords; simp; done)
  | (unfold Dev.maskWords; (repeat' first | with_reducible rfl | (simp; done) | split); done)
  | (unfold Dev.maskWords; try dsimp only
     (repeat' first | with_reducible rfl | (simp; done) | (with_reducible refine (foldl_coll _ ?_ _ _).trans ?_ <;> try intro _ _) | dsimp only | split); done)

@[simp] theorem maskWords_faults (d : Dev) (s p : Nat) (ws : List Nat) : (Dev.maskWords d s p ws).faults = d.faults := by
  first
  | (unfold Dev.maskWords; with_reducible rfl)
  | (unfold Dev.maskWords; simp; done)
  | (unfold Dev.maskWords; (repeat' first | with_reducible rfl | (simp; done) | split); done)
  | (unfold Dev.maskWords; try dsimp only
     (repeat' first | with_reducible rfl | (simp; done) | (with_reducible refine (foldl_faults _ ?_ _ _).trans ?_ <;> try intro _ _) | dsimp only | split); done)

@[simp] theorem maskWords_twin (d : Dev) (s p : Nat) (ws : List Nat) : (Dev.maskWords d s p ws).twin = d.twin := by
  first
  | (unfold Dev.maskWords; with_reducible rfl)
  | (unfold Dev.maskWords; simp; done)
  | (unfold Dev.maskWords; (repeat' first | with_reducible rfl | (simp; done) | split); done)
  | (unfold Dev.maskWords; try dsimp only
     (repeat' first | with_reducible rfl | (simp; done) | (with_reducible refine (foldl_twin _ ?_ _ _).trans ?_ <;> try intro _ _) | dsimp only | split); done)

@[simp] theorem maskWords_power (d : Dev) (s p : Nat) (ws : List Nat) : (Dev.maskWords d s p ws).power = d.power := by
  first
  | (unfold Dev.maskWords; with_reducible rfl)
  | (unfold Dev.maskWords; simp; done)
  | (unfold Dev.maskWords; (repeat' first | with_reducible rfl | (simp; done) | split); done)
  | (unfold Dev.maskWords; try dsimp only
     (repeat' first | with_reducible rfl | (simp; done) | (with_reducible refine (foldl_power _ ?_ _ _).trans ?_ <;> try intro _ _) | dsimp only | split); done)

@[simp] theorem maskWords_upd (d : Dev) (s p : Nat) (ws : List Nat) : (Dev.maskWords d s p ws).upd = d.upd := by
  first
  | (unfold Dev.maskWords; with_reducible rfl)
  | (unfold Dev.maskWords; simp; done)
  | (unfold Dev.maskWords; (repeat' first | with_reducible rfl | (simp; done) | split); done)
  | (unfold Dev.maskWords; try dsimp only
     (repeat' first | with_reducible rfl | (simp; done) | (with_reducible refine (foldl_upd _ ?_ _ _).trans ?_ <;> try intro _ _) | dsimp only | split); done)

@[simp] theorem maskWords_recr (d : Dev) (s p : Nat) (ws : List Nat) : (Dev.maskWords d s p ws).recr = d.recr := by
  first
  | (unfold Dev.maskWords; with_reducible rfl)
  | (unfold Dev.maskWords; simp; done)
  | (unfold Dev.maskWords; (repeat' first | with_reducible rfl | (simp; done) | split); done)
  | (unfold Dev.maskWords; try dsimp only
     (repeat' first | with_reducible rfl | (simp; done) | (with_reducible refine (foldl_recr _ ?_ _ _).trans ?_ <;> try intro _ _) | dsimp only | split); done)

@[simp] theorem maskWords_ob (d : Dev) (s p : Nat) (ws : List Nat) : (Dev.maskWords d s p ws).ob = d.ob := by
  first
  | (unfold Dev.maskWords; with_reducible rfl)
  | (unfold Dev.maskWords; simp; done)
  | (unfold Dev.maskWords; (repeat' first | with_reducible rfl | (simp; done) | split); done)
  | (unfold Dev.maskWords; try dsimp only
     (repeat' first | with_reducible rfl | (simp; done) | (with_reducible refine (foldl_ob _ ?_ _ _).trans ?_ <;> try intro _ _) | dsimp only | split); done)

@[simp] theorem maskWords_out (d : Dev) (s p : Nat) (ws : List Nat) : (Dev.maskWords d s p ws).out = d.out := by
  first
  | (unfold Dev.maskWords; with_reducible rfl)
  | (unfold Dev.maskWords; simp; done)
  | (unfold Dev.maskWords; (repeat' first | with_reducible rfl | (simp; done) | split); done)
  | (unfold Dev.maskWords; try dsimp only
     (repeat' first | with_reducible rfl | (simp; done) | (with_reducible refine (foldl_out _ ?_ _ _).trans ?_ <;> try intro _ _) | dsimp only | split); done)

@[simp] theorem maskWords_fresh (d : Dev) (s p : Nat) (ws : List Nat) : (Dev.maskWords d s p ws).fresh = d.fresh := by
  first
  | (unfold Dev.maskWords; with_reducible rfl)
  | (unfold Dev.maskWords; simp; done)
  | (unfold Dev.maskWords; (repeat' first | with_reducible rfl | (simp; done) | split); done)
  | (unfold Dev.maskWords; try dsimp only
     (repeat' first | with_reducible rfl | (simp; done) | (with_reducible refine (foldl_fresh _ ?_ _ _).trans ?_ <;> try intro _ _) | dsimp only | split); done)

@[simp] theorem maskWords_od (d : Dev) (s p : Nat) (ws : List Nat) : (Dev.maskWords d s p ws).od = d.od := by
  first
  | (unfold Dev.maskWords; with_reducible rfl)
  | (unfold Dev.maskWords; simp; done)
  | (unfold Dev.maskWords; (repeat' first | with_reducible rfl | (simp; done) | split); done)
  | (unfold Dev.maskWords; try dsimp only
     (repeat' first | with_reducible rfl | (simp; done) | (with_reducible refine (foldl_od _ ?_ _ _).trans ?_ <;> try intro _ _) | dsimp only | split); done)

@[simp] theorem queueBlocks_module (d : Dev) (l : List Fill) : (Dev.queueBlocks d l).module = d.module := by
  first
  | (unfold Dev.queueBlocks; with_reducible rfl)
  | (unfold Dev.queueBlocks; simp; done)
  | (unfold Dev.queueBlocks; (repeat' first | with_reducible rfl | (simp; done) | split); done)
  | (unfold Dev.queueBlocks; try dsimp only
     (repeat' first | with_reducible rfl | (simp; done) | (with_reducible refine (foldl_module _ ?_ _ _).trans ?_ <;> try intro _ _) | dsimp only | split); done)

@[simp] theorem queueBlocks_net (d : Dev) (l : List Fill) : (Dev.queueBlocks d l).net = d.net := by
  first
  | (unfold Dev.queueBlocks; with_reducible rfl)
  | (unfold Dev.queueBlocks; simp; done)
  | (unfold Dev.queueBlocks; (repeat' first | with_reducible rfl | (simp; done) | split); done)
  | (unfold Dev.queueBlocks; try dsimp only
     (repeat' first | with_reducible rfl | (simp; done) | (with_reducible refine (foldl_net _ ?_ _ _).trans ?_ <;> try intro _ _) | dsimp only | split); done)

@[simp] theorem queueBlocks_dir (d : Dev) (l : List Fill) : (Dev.queueBlocks d l).dir = d.dir := by
  first
  | (unfold Dev.queueBlocks; with_reducible rfl)
  | (unfold Dev.queueBlocks; simp; done)
  | (unfold Dev.queueBlocks; (repeat' first | with_reducible rfl | (simp; done) | split); done)
  | (unfold Dev.queueBlocks; try dsimp only
     (repeat' first | with_reducible rfl | (simp; done) | (with_reducible refine (foldl_dir _ ?_ _ _).trans ?_ <;> try intro _ _) | dsimp only | split); done)

@[simp] theorem queueBlocks_jobs (d : Dev) (l : List Fill) : (Dev.queueBlocks d l).jobs = d.jobs := by
  first
  | (unfold Dev.queueBlocks; with_reducible rfl)
  | (unfold Dev.queueBlocks; simp; done)
  | (unfold Dev.queueBlocks; (repeat' first | with_reducible rfl | (simp; done) | split); done)
  | (unfold Dev.queueBlocks; try dsimp only
     (repeat' first | with_reducible rfl | (simp; done) | (with_reducible refine (foldl_jobs _ ?_ _ _).trans ?_ <;> try intro _ _) | dsimp only | split); done)

@[simp] theorem queueBlocks_circuits (d : Dev) (l : List Fill) : (Dev.queueBlocks d l).circuits = d.circuits := by
  first
  | (unfold Dev.queueBlocks; with_reducible rfl)
  | (unfold Dev.queueBlocks; simp; done)
  | (unfold Dev.queueBlocks; (repeat' first | with_reducible rfl | (simp; done) | split); done)
  | (unfold Dev.queueBlocks; try dsimp only
     (repeat' first | with_reducible rfl | (simp; done) | (with_reducible refine (foldl_circuits _ ?_ _ _).trans ?_ <;> try intro _ _) | dsimp only | split); done)

@[simp] theorem queueBlocks_runs (d : Dev) (l : List Fill) : (Dev.queueBlocks d l).runs = d.runs := by
  first
  | (unfold Dev.queueBlocks; with_reducible rfl)
  | (unfold Dev.queueBlocks; simp; done)
  | (unfold Dev.queueBlocks; (repeat' first | with_reducible rfl | (simp; done) | split); done)
  | (unfold Dev.queueBlocks; try dsimp only
     (repeat' first | with_reducible rfl | (simp; done) | (with_reducible refine (foldl_runs _ ?_ _ _).trans ?_ <;> try intro _ _) | dsimp only | split); done)

@[simp] theorem queueBlocks_time (d : Dev) (l : List Fill) : (Dev.queueBlocks d l).time = d.time := by
  first
  | (unfold Dev.queueBlocks; with_reducible rfl)
  | (unfold Dev.queueBlocks; simp; done)
  | (unfold Dev.queueBlocks; (repeat' first | with_reducible rfl | (simp; done) | split); done)
  | (unfold Dev.queueBlocks; try dsimp only
     (repeat' first | with_reducible rfl | (simp; done) | (with_reducible refine (foldl_time _ ?_ _ _).trans ?_ <;> try intro _ _) | dsimp only | split); done)

@[simp] theorem queueBlocks_eng (d : Dev) (l : List Fill) : (Dev.queueBlocks d l).eng = d.eng := by
  first
  | (unfold Dev.queueBlocks; with_reducible rfl)
  | (unfold Dev.queueBlocks; simp; done)
  | (unfold Dev.queueBlocks; (repeat' first | with_reducible rfl | (simp; done) | split); done)
  | (unfold Dev.queueBlocks; try dsimp only
     (repeat' first | with_reducible rfl | (simp; done) | (with_reducible refine (foldl_eng _ ?_ _ _).trans ?_ <;> try intro _ _) | dsimp only | split); done)

@[simp] theorem queueBlocks_rings (d : Dev) (l : List Fill) : (Dev.queueBlocks d l).rings = d.rings := by
  first
  | (unfold Dev.queueBlocks; with_reducible rfl)
  | (unfold Dev.queueBlocks; simp; done)
  | (unfold Dev.queueBlocks; (repeat' first | with_reducible rfl | (simp; done) | split); done)
  | (unfold Dev.queueBlocks; try dsimp only
     (repeat' first | with_reducible rfl | (simp; done) | (with_reducible refine (foldl_rings _ ?_ _ _).trans ?_ <;> try intro _ _) | dsimp only | split); done)

@[simp] theorem queueBlocks_arr (d : Dev) (l : List Fill) : (Dev.queueBlocks d l).arr = d.arr := by
  first
  | (unfold Dev.queueBlocks; with_reducible rfl)
  | (unfold Dev.queueBlocks; simp; done)
  | (unfold Dev.queueBlocks; (repeat' first | with_reducible rfl | (simp; done) | split); done)
  | (unfold Dev.queueBlocks; try dsimp only
     (repeat' first | with_reducible rfl | (simp; done) | (with_reducible refine (foldl_arr _ ?_ _ _).trans ?_ <;> try intro _ _) | dsimp only | split); done)

@[simp] theorem queueBlocks_opt (d : Dev) (l : List Fill) : (Dev.queueBlocks d l).opt = d.opt := by
  first
  | (unfold Dev.queueBlocks; with_reducible rfl)
  | (unfold Dev.queueBlocks; simp; done)
  | (unfold Dev.queueBlocks; (repeat' first | with_reducible rfl | (simp; done) | split); done)
  | (unfold Dev.queueBlocks; try dsimp only
     (repeat' first | with_reducible rfl | (simp; done) | (with_reducible refine (foldl_opt _ ?_ _ _).trans ?_ <;> try intro _ _) | dsimp only | split); done)

@[simp] theorem queueBlocks_disc (d : Dev) (l : List Fill) : (Dev.queueBlocks d l).disc = d.disc := by
  first
  | (unfold Dev.queueBlocks; with_reducible rfl)
  | (unfold Dev.queueBlocks; simp; done)
  | (unfold Dev.queueBlocks; (repeat' first | with_reducible rfl | (simp; done) | split); done)
  | (unfold Dev.queueBlocks; try dsimp only
     (repeat' first | with_reducible rfl | (simp; done) | (with_reducible refine (foldl_disc _ ?_ _ _).trans ?_ <;> try intro _ _) | dsimp only | split); done)

@[simp] theorem queueBlocks_coll (d : Dev) (l : List Fill) : (Dev.queueBlocks d l).coll = d.coll := by
  first
  | (unfold Dev.queueBlocks; with_reducible rfl)
  | (unfold Dev.queueBlocks; simp; done)
  | (unfold Dev.queueBlocks; (repeat' first | with_reducible rfl | (simp; done) | split); done)
  | (unfold Dev.queueBlocks; try dsimp only
     (repeat' first | with_reducible rfl | (simp; done) | (with_reducible refine (foldl_coll _ ?_ _ _).trans ?_ <;> try intro _ _) | dsimp only | split); done)

@[simp] theorem queueBlocks_faults (d : Dev) (l : List Fill) : (Dev.queueBlocks d l).faults = d.faults := by
  first
  | (unfold Dev.queueBlocks; with_reducible rfl)
  | (unfold Dev.queueBlocks; simp; done)
  | (unfold Dev.queueBlocks; (repeat' first | with_reducible rfl | (simp; done) | split); done)
  | (unfold Dev.queueBlocks; try dsimp only
     (repeat' first | with_reducible rfl | (simp; done) | (with_reducible refine (foldl_faults _ ?_ _ _).trans ?_ <;> try intro _ _) | dsimp only | split); done)

@[simp] theorem queueBlocks_twin (d : Dev) (l : List Fill) : (Dev.queueBlocks d l).twin = d.twin := by
  first
  | (unfold Dev.queueBlocks; with_reducible rfl)
  | (unfold Dev.queueBlocks; simp; done)
  | (unfold Dev.queueBlocks; (repeat' first | with_reducible rfl | (simp; done) | split); done)
  | (unfold Dev.queueBlocks; try dsimp only
     (repeat' first | with_reducible rfl | (simp; done) | (with_reducible refine (foldl_twin _ ?_ _ _).trans ?_ <;> try intro _ _) | dsimp only | split); done)

@[simp] theorem queueBlocks_power (d : Dev) (l : List Fill) : (Dev.queueBlocks d l).power = d.power := by
  first
  | (unfold Dev.queueBlocks; with_reducible rfl)
  | (unfold Dev.queueBlocks; simp; done)
  | (unfold Dev.queueBlocks; (repeat' first | with_reducible rfl | (simp; done) | split); done)
  | (unfold Dev.queueBlocks; try dsimp only
     (repeat' first | with_reducible rfl | (simp; done) | (with_reducible refine (foldl_power _ ?_ _ _).trans ?_ <;> try intro _ _) | dsimp only | split); done)

@[simp] theorem queueBlocks_upd (d : Dev) (l : List Fill) : (Dev.queueBlocks d l).upd = d.upd := by
  first
  | (unfold Dev.queueBlocks; with_reducible rfl)
  | (unfold Dev.queueBlocks; simp; done)
  | (unfold Dev.queueBlocks; (repeat' first | with_reducible rfl | (simp; done) | split); done)
  | (unfold Dev.queueBlocks; try dsimp only
     (repeat' first | with_reducible rfl | (simp; done) | (with_reducible refine (foldl_upd _ ?_ _ _).trans ?_ <;> try intro _ _) | dsimp only | split); done)

@[simp] theorem queueBlocks_recr (d : Dev) (l : List Fill) : (Dev.queueBlocks d l).recr = d.recr := by
  first
  | (unfold Dev.queueBlocks; with_reducible rfl)
  | (unfold Dev.queueBlocks; simp; done)
  | (unfold Dev.queueBlocks; (repeat' first | with_reducible rfl | (simp; done) | split); done)
  | (unfold Dev.queueBlocks; try dsimp only
     (repeat' first | with_reducible rfl | (simp; done) | (with_reducible refine (foldl_recr _ ?_ _ _).trans ?_ <;> try intro _ _) | dsimp only | split); done)

@[simp] theorem queueBlocks_ob (d : Dev) (l : List Fill) : (Dev.queueBlocks d l).ob = d.ob := by
  first
  | (unfold Dev.queueBlocks; with_reducible rfl)
  | (unfold Dev.queueBlocks; simp; done)
  | (unfold Dev.queueBlocks; (repeat' first | with_reducible rfl | (simp; done) | split); done)
  | (unfold Dev.queueBlocks; try dsimp only
     (repeat' first | with_reducible rfl | (simp; done) | (with_reducible refine (foldl_ob _ ?_ _ _).trans ?_ <;> try intro _ _) | dsimp only | split); done)

@[simp] theorem queueBlocks_out (d : Dev) (l : List Fill) : (Dev.queueBlocks d l).out = d.out := by
  first
  | (unfold Dev.queueBlocks; with_reducible rfl)
  | (unfold Dev.queueBlocks; simp; done)
  | (unfold Dev.queueBlocks; (repeat' first | with_reducible rfl | (simp; done) | split); done)
  | (unfold Dev.queueBlocks; try dsimp only
     (repeat' first | with_reducible rfl | (simp; done) | (with_reducible refine (foldl_out _ ?_ _ _).trans ?_ <;> try intro _ _) | dsimp only | split); done)

@[simp] theorem queueBlocks_fresh (d : Dev) (l : List Fill) : (Dev.queueBlocks d l).fresh = d.fresh := by
  first
  | (unfold Dev.queueBlocks; with_reducible rfl)
  | (unfold Dev.queueBlocks; simp; done)
  | (unfold Dev.queueBlocks; (repeat' first | with_reducible rfl | (simp; done) | split); done)
  | (unfold Dev.queueBlocks; try dsimp only
     (repeat' first | with_reducible rfl | (simp; done) | (with_reducible refine (foldl_fresh _ ?_ _ _).trans ?_ <;> try intro _ _) | dsimp only | split); done)

@[simp] theorem ringWrote_module (d : Dev) (lo hi fresh : Nat) : (Dev.ringWrote d lo hi fresh).module = d.module := by
  first
  | (unfold Dev.ringWrote; with_reducible rfl)
  | (unfold Dev.ringWrote; simp; done)
  | (unfold Dev.ringWrote; (repeat' first | with_reducible rfl | (simp; done) | split); done)
  | (unfold Dev.ringWrote; try dsimp only
     (repeat' first | with_reducible rfl | (simp; done) | (with_reducible refine (foldl_module _ ?_ _ _).trans ?_ <;> try intro _ _) | dsimp only | split); done)

@[simp] theorem ringWrote_net (d : Dev) (lo hi fresh : Nat) : (Dev.ringWrote d lo hi fresh).net = d.net := by
  first
  | (unfold Dev.ringWrote; with_reducible rfl)
  | (unfold Dev.ringWrote; simp; done)
  | (unfold Dev.ringWrote; (repeat' first | with_reducible rfl | (simp; done) | split); done)
  | (unfold Dev.ringWrote; try dsimp only
     (repeat' first | with_reducible rfl | (simp; done) | (with_reducible refine (foldl_net _ ?_ _ _).trans ?_ <;> try intro _ _) | dsimp only | split); done)

@[simp] theorem ringWrote_dir (d : Dev) (lo hi fresh : Nat) : (Dev.ringWrote d lo hi fresh).dir = d.dir := by
  first
  | (unfold Dev.ringWrote; with_reducible rfl)
  | (unfold Dev.ringWrote; simp; done)
  | (unfold Dev.ringWrote; (repeat' first | with_reducible rfl | (simp; done) | split); done)
  | (unfold Dev.ringWrote; try dsimp only
     (repeat' first | with_reducible rfl | (simp; done) | (with_reducible refine (foldl_dir _ ?_ _ _).trans ?_ <;> try intro _ _) | dsimp only | split); done)

@[simp] theorem ringWrote_jobs (d : Dev) (lo hi fresh : Nat) : (Dev.ringWrote d lo hi fresh).jobs = d.jobs := by
  first
  | (unfold Dev.ringWrote; with_reducible rfl)
  | (unfold Dev.ringWrote; simp; done)
  | (unfold Dev.ringWrote; (repeat' first | with_reducible rfl | (simp; done) | split); done)
  | (unfold Dev.ringWrote; try dsimp only
     (repeat' first | with_reducible rfl | (simp; done) | (with_reducible refine (foldl_jobs _ ?_ _ _).trans ?_ <;> try intro _ _) | dsimp only | split); done)

@[simp] theorem ringWrote_circuits (d : Dev) (lo hi fresh : Nat) : (Dev.ringWrote d lo hi fresh).circuits = d.circuits := by
  first
  | (unfold Dev.ringWrote; with_reducible rfl)
  | (unfold Dev.ringWrote; simp; done)
  | (unfold Dev.ringWrote; (repeat' first | with_reducible rfl | (simp; done) | split); done)
  | (unfold Dev.ringWrote; try dsimp only
     (repeat' first | with_reducible rfl | (simp; done) | (with_reducible refine (foldl_circuits _ ?_ _ _).trans ?_ <;> try intro _ _) | dsimp only | split); done)

@[simp] theorem ringWrote_runs (d : Dev) (lo hi fresh : Nat) : (Dev.ringWrote d lo hi fresh).runs = d.runs := by
  first
  | (unfold Dev.ringWrote; with_reducible rfl)
  | (unfold Dev.ringWrote; simp; done)
  | (unfold Dev.ringWrote; (repeat' first | with_reducible rfl | (simp; done) | split); done)
  | (unfold Dev.ringWrote; try dsimp only
     (repeat' first | with_reducible rfl | (simp; done) | (with_reducible refine (foldl_runs _ ?_ _ _).trans ?_ <;> try intro _ _) | dsimp only | split); done)

@[simp] theorem ringWrote_time (d : Dev) (lo hi fresh : Nat) : (Dev.ringWrote d lo hi fresh).time = d.time := by
  first
  | (unfold Dev.ringWrote; with_reducible rfl)
  | (unfold Dev.ringWrote; simp; done)
  | (unfold Dev.ringWrote; (repeat' first | with_reducible rfl | (simp; done) | split); done)
  | (unfold Dev.ringWrote; try dsimp only
     (repeat' first | with_reducible rfl | (simp; done) | (with_reducible refine (foldl_time _ ?_ _ _).trans ?_ <;> try intro _ _) | dsimp only | split); done)

@[simp] theorem ringWrote_eng (d : Dev) (lo hi fresh : Nat) : (Dev.ringWrote d lo hi fresh).eng = d.eng := by
  first
  | (unfold Dev.ringWrote; with_reducible rfl)
  | (unfold Dev.ringWrote; simp; done)
  | (unfold Dev.ringWrote; (repeat' first | with_reducible rfl | (simp; done) | split); done)
  | (unfold Dev.ringWrote; try dsimp only
     (repeat' first | with_reducible rfl | (simp; done) | (with_reducible refine (foldl_eng _ ?_ _ _).trans ?_ <;> try intro _ _) | dsimp only | split); done)

@[simp] theorem ringWrote_rings (d : Dev) (lo hi fresh : Nat) : (Dev.ringWrote d lo hi fresh).rings = d.rings := by
  first
  | (unfold Dev.ringWrote; with_reducible rfl)
  | (unfold Dev.ringWrote; simp; done)
  | (unfold Dev.ringWrote; (repeat' first | with_reducible rfl | (simp; done) | split); done)
  | (unfold Dev.ringWrote; try dsimp only
     (repeat' first | with_reducible rfl | (simp; done) | (with_reducible refine (foldl_rings _ ?_ _ _).trans ?_ <;> try intro _ _) | dsimp only | split); done)

@[simp] theorem ringWrote_arr (d : Dev) (lo hi fresh : Nat) : (Dev.ringWrote d lo hi fresh).arr = d.arr := by
  first
  | (unfold Dev.ringWrote; with_reducible rfl)
  | (unfold Dev.ringWrote; simp; done)
  | (unfold Dev.ringWrote; (repeat' first | with_reducible rfl | (simp; done) | split); done)
  | (unfold Dev.ringWrote; try dsimp only
     (repeat' first | with_reducible rfl | (simp; done) | (with_reducible refine (foldl_arr _ ?_ _ _).trans ?_ <;> try intro _ _) | dsimp only | split); done)

@[simp] theorem ringWrote_opt (d : Dev) (lo hi fresh : Nat) : (Dev.ringWrote d lo hi fresh).opt = d.opt := by
  first
  | (unfold Dev.ringWrote; with_reducible rfl)
  | (unfold Dev.ringWrote; simp; done)
  | (unfold Dev.ringWrote; (repeat' first | with_reducible rfl | (simp; done) | split); done)
  | (unfold Dev.ringWrote; try dsimp only
     (repeat' first | with_reducible rfl | (simp; done) | (with_reducible refine (foldl_opt _ ?_ _ _).trans ?_ <;> try intro _ _) | dsimp only | split); done)

@[simp] theorem ringWrote_disc (d : Dev) (lo hi fresh : Nat) : (Dev.ringWrote d lo hi fresh).disc = d.disc := by
  first
  | (unfold Dev.ringWrote; with_reducible rfl)
  | (unfold Dev.ringWrote; simp; done)
  | (unfold Dev.ringWrote; (repeat' first | with_reducible rfl | (simp; done) | split); done)
  | (unfold Dev.ringWrote; try dsimp only
     (repeat' first | with_reducible rfl | (simp; done) | (with_reducible refine (foldl_disc _ ?_ _ _).trans ?_ <;> try intro _ _) | dsimp only | split); done)

@[simp] theorem ringWrote_coll (d : Dev) (lo hi fresh : Nat) : (Dev.ringWrote d lo hi fresh).coll = d.coll := by
  first
  | (unfold Dev.ringWrote; with_reducible rfl)
  | (unfold Dev.ringWrote; simp; done)
  | (unfold Dev.ringWrote; (repeat' first | with_reducible rfl | (simp; done) | split); done)
  | (unfold Dev.ringWrote; try dsimp only
     (repeat' first | with_reducible rfl | (simp; done) | (with_reducible refine (foldl_coll _ ?_ _ _).trans ?_ <;> try intro _ _) | dsimp only | split); done)

@[simp] theorem ringWrote_faults (d : Dev) (lo hi fresh : Nat) : (Dev.ringWrote d lo hi fresh).faults = d.faults := by
  first
  | (unfold Dev.ringWrote; with_reducible rfl)
  | (unfold Dev.ringWrote; simp; done)
  | (unfold Dev.ringWrote; (repeat' first | with_reducible rfl | (simp; done) | split); done)
  | (unfold Dev.ringWrote; try dsimp only
     (repeat' first | with_reducible rfl | (simp; done) | (with_reducible refine (foldl_faults _ ?_ _ _).trans ?_ <;> try intro _ _) | dsimp only | split); done)

@[simp] theorem ringWrote_twin (d : Dev) (lo hi fresh : Nat) : (Dev.ringWrote d lo hi fresh).twin = d.twin := by
  first
  | (unfold Dev.ringWrote; with_reducible rfl)
  | (unfold Dev.ringWrote; simp; done)
  | (unfold Dev.ringWrote; (repeat' first | with_reducible rfl | (simp; done) | split); done)
  | (unfold Dev.ringWrote; try dsimp only
     (repeat' first | with_reducible rfl | (simp; done) | (with_reducible refine (foldl_twin _ ?_ _ _).trans ?_ <;> try intro _ _) | dsimp only | split); done)

@[simp] theorem ringWrote_power (d : Dev) (lo hi fresh : Nat) : (Dev.ringWrote d lo hi fresh).power = d.power := by
  first
  | (unfold Dev.ringWrote; with_reducible rfl)
  | (unfold Dev.ringWrote; simp; done)
  | (unfold Dev.ringWrote; (repeat' first | with_reducible rfl | (simp; done) | split); done)
  | (unfold Dev.ringWrote; try dsimp only
     (repeat' first | with_reducible rfl | (simp; done) | (with_reducible refine (foldl_power _ ?_ _ _).trans ?_ <;> try intro _ _) | dsimp only | split); done)

@[simp] theorem ringWrote_upd (d : Dev) (lo hi fresh : Nat) : (Dev.ringWrote d lo hi fresh).upd = d.upd := by
  first
  | (unfold Dev.ringWrote; with_reducible rfl)
  | (unfold Dev.ringWrote; simp; done)
  | (unfold Dev.ringWrote; (repeat' first | with_reducible rfl | (simp; done) | split); done)
  | (unfold Dev.ringWrote; try dsimp only
     (repeat' first | with_reducible rfl | (simp; done) | (with_reducible refine (foldl_upd _ ?_ _ _).trans ?_ <;> try intro _ _) | dsimp only | split); done)

@[simp] theorem ringWrote_recr (d : Dev) (lo hi fresh : Nat) : (Dev.ringWrote d lo hi fresh).recr = d.recr := by
  first
  | (unfold Dev.ringWrote; with_reducible rfl)
  | (unfold Dev.ringWrote; simp; done)
  | (unfold Dev.ringWrote; (repeat' first | with_reducible rfl | (simp; done) | split); done)
  | (unfold Dev.ringWrote; try dsimp only
     (repeat' first | with_reducible rfl | (simp; done) | (with_reducible refine (foldl_recr _ ?_ _ _).trans ?_ <;> try intro _ _) | dsimp only | split); done)

@[simp] theorem ringWrote_ob (d : Dev) (lo hi fresh : Nat) : (Dev.ringWrote d lo hi fresh).ob = d.ob := by
  first
  | (unfold Dev.ringWrote; with_reducible rfl)
  | (unfold Dev.ringWrote; simp; done)
  | (unfold Dev.ringWrote; (repeat' first | with_reducible rfl | (simp; done) | split); done)
  | (unfold Dev.ringWrote; try dsimp only
     (repeat' first | with_reducible rfl | (simp; done) | (with_reducible refine (foldl_ob _ ?_ _ _).trans ?_ <;> try intro _ _) | dsimp only | split); done)

@[simp] theorem ringWrote_out (d : Dev) (lo hi fresh : Nat) : (Dev.ringWrote d lo hi fresh).out = d.out := by
  first
  | (unfold Dev.ringWrote; with_reducible rfl)
  | (unfold Dev.ringWrote; simp; done)
  | (unfold Dev.ringWrote; (repeat' first | with_reducible rfl | (simp; done) | split); done)
  | (unfold Dev.ringWrote; try dsimp only
     (repeat' first | with_reducible rfl | (simp; done) | (with_reducible refine (foldl_out _ ?_ _ _).trans ?_ <;> try intro _ _) | dsimp only | split); done)

@[simp] theorem ringWrote_fresh (d : Dev) (lo hi fresh : Nat) : (Dev.ringWrote d lo hi fresh).fresh = d.fresh := by
  first
  | (unfold Dev.ringWrote; with_reducible rfl)
  | (unfold Dev.ringWrote; simp; done)
  | (unfold Dev.ringWrote; (repeat' first | with_reducible rfl | (simp; done) | split); done)
  | (unfold Dev.ringWrote; try dsimp only
     (repeat' first | with_reducible rfl | (simp; done) | (with_reducible refine (foldl_fresh _ ?_ _ _).trans ?_ <;> try intro _ _) | dsimp only | split); done)

@[simp] theorem putRecord_module (d : Dev) (type flags slices : Nat) (body : Bytes) : (Dev.putRecord d type flags slices body).module = d.module := by
  first
  | (unfold Dev.putRecord; with_reducible rfl)
  | (unfold Dev.putRecord; simp; done)
  | (unfold Dev.putRecord; (repeat' first | with_reducible rfl | (simp; done) | split); done)
  | (unfold Dev.putRecord; try dsimp only
     (repeat' first | with_reducible rfl | (simp; done) | (with_reducible refine (foldl_module _ ?_ _ _).trans ?_ <;> try intro _ _) | dsimp only | split); done)

@[simp] theorem putRecord_net (d : Dev) (type flags slices : Nat) (body : Bytes) : (Dev.putRecord d type flags slices body).net = d.net := by
  first
  | (unfold Dev.putRecord; with_reducible rfl)
  | (unfold Dev.putRecord; simp; done)
  | (unfold Dev.putRecord; (repeat' first | with_reducible rfl | (simp; done) | split); done)
  | (unfold Dev.putRecord; try dsimp only
     (repeat' first | with_reducible rfl | (simp; done) | (with_reducible refine (foldl_net _ ?_ _ _).trans ?_ <;> try intro _ _) | dsimp only | split); done)

@[simp] theorem putRecord_dir (d : Dev) (type flags slices : Nat) (body : Bytes) : (Dev.putRecord d type flags slices body).dir = d.dir := by
  first
  | (unfold Dev.putRecord; with_reducible rfl)
  | (unfold Dev.putRecord; simp; done)
  | (unfold Dev.putRecord; (repeat' first | with_reducible rfl | (simp; done) | split); done)
  | (unfold Dev.putRecord; try dsimp only
     (repeat' first | with_reducible rfl | (simp; done) | (with_reducible refine (foldl_dir _ ?_ _ _).trans ?_ <;> try intro _ _) | dsimp only | split); done)

@[simp] theorem putRecord_jobs (d : Dev) (type flags slices : Nat) (body : Bytes) : (Dev.putRecord d type flags slices body).jobs = d.jobs := by
  first
  | (unfold Dev.putRecord; with_reducible rfl)
  | (unfold Dev.putRecord; simp; done)
  | (unfold Dev.putRecord; (repeat' first | with_reducible rfl | (simp; done) | split); done)
  | (unfold Dev.putRecord; try dsimp only
     (repeat' first | with_reducible rfl | (simp; done) | (with_reducible refine (foldl_jobs _ ?_ _ _).trans ?_ <;> try intro _ _) | dsimp only | split); done)

@[simp] theorem putRecord_circuits (d : Dev) (type flags slices : Nat) (body : Bytes) : (Dev.putRecord d type flags slices body).circuits = d.circuits := by
  first
  | (unfold Dev.putRecord; with_reducible rfl)
  | (unfold Dev.putRecord; simp; done)
  | (unfold Dev.putRecord; (repeat' first | with_reducible rfl | (simp; done) | split); done)
  | (unfold Dev.putRecord; try dsimp only
     (repeat' first | with_reducible rfl | (simp; done) | (with_reducible refine (foldl_circuits _ ?_ _ _).trans ?_ <;> try intro _ _) | dsimp only | split); done)

@[simp] theorem putRecord_runs (d : Dev) (type flags slices : Nat) (body : Bytes) : (Dev.putRecord d type flags slices body).runs = d.runs := by
  first
  | (unfold Dev.putRecord; with_reducible rfl)
  | (unfold Dev.putRecord; simp; done)
  | (unfold Dev.putRecord; (repeat' first | with_reducible rfl | (simp; done) | split); done)
  | (unfold Dev.putRecord; try dsimp only
     (repeat' first | with_reducible rfl | (simp; done) | (with_reducible refine (foldl_runs _ ?_ _ _).trans ?_ <;> try intro _ _) | dsimp only | split); done)

@[simp] theorem putRecord_time (d : Dev) (type flags slices : Nat) (body : Bytes) : (Dev.putRecord d type flags slices body).time = d.time := by
  first
  | (unfold Dev.putRecord; with_reducible rfl)
  | (unfold Dev.putRecord; simp; done)
  | (unfold Dev.putRecord; (repeat' first | with_reducible rfl | (simp; done) | split); done)
  | (unfold Dev.putRecord; try dsimp only
     (repeat' first | with_reducible rfl | (simp; done) | (with_reducible refine (foldl_time _ ?_ _ _).trans ?_ <;> try intro _ _) | dsimp only | split); done)

@[simp] theorem putRecord_eng (d : Dev) (type flags slices : Nat) (body : Bytes) : (Dev.putRecord d type flags slices body).eng = d.eng := by
  first
  | (unfold Dev.putRecord; with_reducible rfl)
  | (unfold Dev.putRecord; simp; done)
  | (unfold Dev.putRecord; (repeat' first | with_reducible rfl | (simp; done) | split); done)
  | (unfold Dev.putRecord; try dsimp only
     (repeat' first | with_reducible rfl | (simp; done) | (with_reducible refine (foldl_eng _ ?_ _ _).trans ?_ <;> try intro _ _) | dsimp only | split); done)

@[simp] theorem putRecord_rings (d : Dev) (type flags slices : Nat) (body : Bytes) : (Dev.putRecord d type flags slices body).rings = d.rings := by
  first
  | (unfold Dev.putRecord; with_reducible rfl)
  | (unfold Dev.putRecord; simp; done)
  | (unfold Dev.putRecord; (repeat' first | with_reducible rfl | (simp; done) | split); done)
  | (unfold Dev.putRecord; try dsimp only
     (repeat' first | with_reducible rfl | (simp; done) | (with_reducible refine (foldl_rings _ ?_ _ _).trans ?_ <;> try intro _ _) | dsimp only | split); done)

@[simp] theorem putRecord_arr (d : Dev) (type flags slices : Nat) (body : Bytes) : (Dev.putRecord d type flags slices body).arr = d.arr := by
  first
  | (unfold Dev.putRecord; with_reducible rfl)
  | (unfold Dev.putRecord; simp; done)
  | (unfold Dev.putRecord; (repeat' first | with_reducible rfl | (simp; done) | split); done)
  | (unfold Dev.putRecord; try dsimp only
     (repeat' first | with_reducible rfl | (simp; done) | (with_reducible refine (foldl_arr _ ?_ _ _).trans ?_ <;> try intro _ _) | dsimp only | split); done)

@[simp] theorem putRecord_opt (d : Dev) (type flags slices : Nat) (body : Bytes) : (Dev.putRecord d type flags slices body).opt = d.opt := by
  first
  | (unfold Dev.putRecord; with_reducible rfl)
  | (unfold Dev.putRecord; simp; done)
  | (unfold Dev.putRecord; (repeat' first | with_reducible rfl | (simp; done) | split); done)
  | (unfold Dev.putRecord; try dsimp only
     (repeat' first | with_reducible rfl | (simp; done) | (with_reducible refine (foldl_opt _ ?_ _ _).trans ?_ <;> try intro _ _) | dsimp only | split); done)

@[simp] theorem putRecord_disc (d : Dev) (type flags slices : Nat) (body : Bytes) : (Dev.putRecord d type flags slices body).disc = d.disc := by
  first
  | (unfold Dev.putRecord; with_reducible rfl)
  | (unfold Dev.putRecord; simp; done)
  | (unfold Dev.putRecord; (repeat' first | with_reducible rfl | (simp; done) | split); done)
  | (unfold Dev.putRecord; try dsimp only
     (repeat' first | with_reducible rfl | (simp; done) | (with_reducible refine (foldl_disc _ ?_ _ _).trans ?_ <;> try intro _ _) | dsimp only | split); done)

@[simp] theorem putRecord_coll (d : Dev) (type flags slices : Nat) (body : Bytes) : (Dev.putRecord d type flags slices body).coll = d.coll := by
  first
  | (unfold Dev.putRecord; with_reducible rfl)
  | (unfold Dev.putRecord; simp; done)
  | (unfold Dev.putRecord; (repeat' first | with_reducible rfl | (simp; done) | split); done)
  | (unfold Dev.putRecord; try dsimp only
     (repeat' first | with_reducible rfl | (simp; done) | (with_reducible refine (foldl_coll _ ?_ _ _).trans ?_ <;> try intro _ _) | dsimp only | split); done)

@[simp] theorem putRecord_faults (d : Dev) (type flags slices : Nat) (body : Bytes) : (Dev.putRecord d type flags slices body).faults = d.faults := by
  first
  | (unfold Dev.putRecord; with_reducible rfl)
  | (unfold Dev.putRecord; simp; done)
  | (unfold Dev.putRecord; (repeat' first | with_reducible rfl | (simp; done) | split); done)
  | (unfold Dev.putRecord; try dsimp only
     (repeat' first | with_reducible rfl | (simp; done) | (with_reducible refine (foldl_faults _ ?_ _ _).trans ?_ <;> try intro _ _) | dsimp only | split); done)

@[simp] theorem putRecord_twin (d : Dev) (type flags slices : Nat) (body : Bytes) : (Dev.putRecord d type flags slices body).twin = d.twin := by
  first
  | (unfold Dev.putRecord; with_reducible rfl)
  | (unfold Dev.putRecord; simp; done)
  | (unfold Dev.putRecord; (repeat' first | with_reducible rfl | (simp; done) | split); done)
  | (unfold Dev.putRecord; try dsimp only
     (repeat' first | with_reducible rfl | (simp; done) | (with_reducible refine (foldl_twin _ ?_ _ _).trans ?_ <;> try intro _ _) | dsimp only | split); done)

@[simp] theorem putRecord_power (d : Dev) (type flags slices : Nat) (body : Bytes) : (Dev.putRecord d type flags slices body).power = d.power := by
  first
  | (unfold Dev.putRecord; with_reducible rfl)
  | (unfold Dev.putRecord; simp; done)
  | (unfold Dev.putRecord; (repeat' first | with_reducible rfl | (simp; done) | split); done)
  | (unfold Dev.putRecord; try dsimp only
     (repeat' first | with_reducible rfl | (simp; done) | (with_reducible refine (foldl_power _ ?_ _ _).trans ?_ <;> try intro _ _) | dsimp only | split); done)

@[simp] theorem putRecord_upd (d : Dev) (type flags slices : Nat) (body : Bytes) : (Dev.putRecord d type flags slices body).upd = d.upd := by
  first
  | (unfold Dev.putRecord; with_reducible rfl)
  | (unfold Dev.putRecord; simp; done)
  | (unfold Dev.putRecord; (repeat' first | with_reducible rfl | (simp; done) | split); done)
  | (unfold Dev.putRecord; try dsimp only
     (repeat' first | with_reducible rfl | (simp; done) | (with_reducible refine (foldl_upd _ ?_ _ _).trans ?_ <;> try intro _ _) | dsimp only | split); done)

@[simp] theorem putRecord_ob (d : Dev) (type flags slices : Nat) (body : Bytes) : (Dev.putRecord d type flags slices body).ob = d.ob := by
  first
  | (unfold Dev.putRecord; with_reducible rfl)
  | (unfold Dev.putRecord; simp; done)
  | (unfold Dev.putRecord; (repeat' first | with_reducible rfl | (simp; done) | split); done)
  | (unfold Dev.putRecord; try dsimp only
     (repeat' first | with_reducible rfl | (simp; done) | (with_reducible refine (foldl_ob _ ?_ _ _).trans ?_ <;> try intro _ _) | dsimp only | split); done)

@[simp] theorem putRecord_out (d : Dev) (type flags slices : Nat) (body : Bytes) : (Dev.putRecord d type flags slices body).out = d.out := by
  first
  | (unfold Dev.putRecord; with_reducible rfl)
  | (unfold Dev.putRecord; simp; done)
  | (unfold Dev.putRecord; (repeat' first | with_reducible rfl | (simp; done) | split); done)
  | (unfold Dev.putRecord; try dsimp only
     (repeat' first | with_reducible rfl | (simp; done) | (with_reducible refine (foldl_out _ ?_ _ _).trans ?_ <;> try intro _ _) | dsimp only | split); done)

@[simp] theorem putRecord_fresh (d : Dev) (type flags slices : Nat) (body : Bytes) : (Dev.putRecord d type flags slices body).fresh = d.fresh := by
  first
  | (unfold Dev.putRecord; with_reducible rfl)
  | (unfold Dev.putRecord; simp; done)
  | (unfold Dev.putRecord; (repeat' first | with_reducible rfl | (simp; done) | split); done)
  | (unfold Dev.putRecord; try dsimp only
     (repeat' first | with_reducible rfl | (simp; done) | (with_reducible refine (foldl_fresh _ ?_ _ _).trans ?_ <;> try intro _ _) | dsimp only | split); done)

@[simp] theorem markGap_module (d : Dev) : (Dev.markGap d).module = d.module := by
  unfold Dev.markGap
  split
  · exact (bump_module ..).trans (putRecord_module ..)
  · rfl

@[simp] theorem markGap_net (d : Dev) : (Dev.markGap d).net = d.net := by
  unfold Dev.markGap
  split
  · exact (bump_net ..).trans (putRecord_net ..)
  · rfl

@[simp] theorem markGap_dir (d : Dev) : (Dev.markGap d).dir = d.dir := by
  unfold Dev.markGap
  split
  · exact (bump_dir ..).trans (putRecord_dir ..)
  · rfl

@[simp] theorem markGap_jobs (d : Dev) : (Dev.markGap d).jobs = d.jobs := by
  unfold Dev.markGap
  split
  · exact (bump_jobs ..).trans (putRecord_jobs ..)
  · rfl

@[simp] theorem markGap_circuits (d : Dev) : (Dev.markGap d).circuits = d.circuits := by
  unfold Dev.markGap
  split
  · exact (bump_circuits ..).trans (putRecord_circuits ..)
  · rfl

@[simp] theorem markGap_runs (d : Dev) : (Dev.markGap d).runs = d.runs := by
  unfold Dev.markGap
  split
  · exact (bump_runs ..).trans (putRecord_runs ..)
  · rfl

@[simp] theorem markGap_time (d : Dev) : (Dev.markGap d).time = d.time := by
  unfold Dev.markGap
  split
  · exact (bump_time ..).trans (putRecord_time ..)
  · rfl

@[simp] theorem markGap_eng (d : Dev) : (Dev.markGap d).eng = d.eng := by
  unfold Dev.markGap
  split
  · exact (bump_eng ..).trans (putRecord_eng ..)
  · rfl

@[simp] theorem markGap_rings (d : Dev) : (Dev.markGap d).rings = d.rings := by
  unfold Dev.markGap
  split
  · exact (bump_rings ..).trans (putRecord_rings ..)
  · rfl

@[simp] theorem markGap_arr (d : Dev) : (Dev.markGap d).arr = d.arr := by
  unfold Dev.markGap
  split
  · exact (bump_arr ..).trans (putRecord_arr ..)
  · rfl

@[simp] theorem markGap_opt (d : Dev) : (Dev.markGap d).opt = d.opt := by
  unfold Dev.markGap
  split
  · exact (bump_opt ..).trans (putRecord_opt ..)
  · rfl

@[simp] theorem markGap_disc (d : Dev) : (Dev.markGap d).disc = d.disc := by
  unfold Dev.markGap
  split
  · exact (bump_disc ..).trans (putRecord_disc ..)
  · rfl

@[simp] theorem markGap_coll (d : Dev) : (Dev.markGap d).coll = d.coll := by
  unfold Dev.markGap
  split
  · exact (bump_coll ..).trans (putRecord_coll ..)
  · rfl

@[simp] theorem markGap_faults (d : Dev) : (Dev.markGap d).faults = d.faults := by
  unfold Dev.markGap
  split
  · exact (bump_faults ..).trans (putRecord_faults ..)
  · rfl

@[simp] theorem markGap_twin (d : Dev) : (Dev.markGap d).twin = d.twin := by
  unfold Dev.markGap
  split
  · exact (bump_twin ..).trans (putRecord_twin ..)
  · rfl

@[simp] theorem markGap_power (d : Dev) : (Dev.markGap d).power = d.power := by
  unfold Dev.markGap
  split
  · exact (bump_power ..).trans (putRecord_power ..)
  · rfl

@[simp] theorem markGap_upd (d : Dev) : (Dev.markGap d).upd = d.upd := by
  unfold Dev.markGap
  split
  · exact (bump_upd ..).trans (putRecord_upd ..)
  · rfl

@[simp] theorem markGap_ob (d : Dev) : (Dev.markGap d).ob = d.ob := by
  unfold Dev.markGap
  split
  · exact (bump_ob ..).trans (putRecord_ob ..)
  · rfl

@[simp] theorem markGap_out (d : Dev) : (Dev.markGap d).out = d.out := by
  unfold Dev.markGap
  split
  · exact (bump_out ..).trans (putRecord_out ..)
  · rfl

@[simp] theorem markGap_fresh (d : Dev) : (Dev.markGap d).fresh = d.fresh := by
  unfold Dev.markGap
  split
  · exact (bump_fresh ..).trans (putRecord_fresh ..)
  · rfl

@[simp] theorem trigger_module (d : Dev) (code cls seq : Nat) : (Dev.trigger d code cls seq).module = d.module := by
  first
  | (unfold Dev.trigger; simp only [putRecord_module, bump_module]; done)
  | (unfold Dev.trigger; with_reducible rfl)
  | (unfold Dev.trigger; simp; done)
  | (unfold Dev.trigger; (repeat' first | with_reducible rfl | (simp; done) | split); done)
  | (unfold Dev.trigger; try dsimp only
     (repeat' first | with_reducible rfl | (simp; done) | (with_reducible refine (foldl_module _ ?_ _ _).trans ?_ <;> try intro _ _) | dsimp only | split); done)

@[simp] theorem trigger_net (d : Dev) (code cls seq : Nat) : (Dev.trigger d code cls seq).net = d.net := by
  first
  | (unfold Dev.trigger; simp only [putRecord_net, bump_net]; done)
  | (unfold Dev.trigger; with_reducible rfl)
  | (unfold Dev.trigger; simp; done)
  | (unfold Dev.trigger; (repeat' first | with_reducible rfl | (simp; done) | split); done)
  | (unfold Dev.trigger; try dsimp only
     (repeat' first | with_reducible rfl | (simp; done) | (with_reducible refine (foldl_net _ ?_ _ _).trans ?_ <;> try intro _ _) | dsimp only | split); done)

@[simp] theorem trigger_dir (d : Dev) (code cls seq : Nat) : (Dev.trigger d code cls seq).dir = d.dir := by
  first
  | (unfold Dev.trigger; simp only [putRecord_dir, bump_dir]; done)
  | (unfold Dev.trigger; with_reducible rfl)
  | (unfold Dev.trigger; simp; done)
  | (unfold Dev.trigger; (repeat' first | with_reducible rfl | (simp; done) | split); done)
  | (unfold Dev.trigger; try dsimp only
     (repeat' first | with_reducible rfl | (simp; done) | (with_reducible refine (foldl_dir _ ?_ _ _).trans ?_ <;> try intro _ _) | dsimp only | split); done)

@[simp] theorem trigger_jobs (d : Dev) (code cls seq : Nat) : (Dev.trigger d code cls seq).jobs = d.jobs := by
  first
  | (unfold Dev.trigger; simp only [putRecord_jobs, bump_jobs]; done)
  | (unfold Dev.trigger; with_reducible rfl)
  | (unfold Dev.trigger; simp; done)
  | (unfold Dev.trigger; (repeat' first | with_reducible rfl | (simp; done) | split); done)
  | (unfold Dev.trigger; try dsimp only
     (repeat' first | with_reducible rfl | (simp; done) | (with_reducible refine (foldl_jobs _ ?_ _ _).trans ?_ <;> try intro _ _) | dsimp only | split); done)

@[simp] theorem trigger_circuits (d : Dev) (code cls seq : Nat) : (Dev.trigger d code cls seq).circuits = d.circuits := by
  first
  | (unfold Dev.trigger; simp only [putRecord_circuits, bump_circuits]; done)
  | (unfold Dev.trigger; with_reducible rfl)
  | (unfold Dev.trigger; simp; done)
  | (unfold Dev.trigger; (repeat' first | with_reducible rfl | (simp; done) | split); done)
  | (unfold Dev.trigger; try dsimp only
     (repeat' first | with_reducible rfl | (simp; done) | (with_reducible refine (foldl_circuits _ ?_ _ _).trans ?_ <;> try intro _ _) | dsimp only | split); done)

@[simp] theorem trigger_runs (d : Dev) (code cls seq : Nat) : (Dev.trigger d code cls seq).runs = d.runs := by
  first
  | (unfold Dev.trigger; simp only [putRecord_runs, bump_runs]; done)
  | (unfold Dev.trigger; with_reducible rfl)
  | (unfold Dev.trigger; simp; done)
  | (unfold Dev.trigger; (repeat' first | with_reducible rfl | (simp; done) | split); done)
  | (unfold Dev.trigger; try dsimp only
     (repeat' first | with_reducible rfl | (simp; done) | (with_reducible refine (foldl_runs _ ?_ _ _).trans ?_ <;> try intro _ _) | dsimp only | split); done)

@[simp] theorem trigger_time (d : Dev) (code cls seq : Nat) : (Dev.trigger d code cls seq).time = d.time := by
  first
  | (unfold Dev.trigger; simp only [putRecord_time, bump_time]; done)
  | (unfold Dev.trigger; with_reducible rfl)
  | (unfold Dev.trigger; simp; done)
  | (unfold Dev.trigger; (repeat' first | with_reducible rfl | (simp; done) | split); done)
  | (unfold Dev.trigger; try dsimp only
     (repeat' first | with_reducible rfl | (simp; done) | (with_reducible refine (foldl_time _ ?_ _ _).trans ?_ <;> try intro _ _) | dsimp only | split); done)

@[simp] theorem trigger_eng (d : Dev) (code cls seq : Nat) : (Dev.trigger d code cls seq).eng = d.eng := by
  first
  | (unfold Dev.trigger; simp only [putRecord_eng, bump_eng]; done)
  | (unfold Dev.trigger; with_reducible rfl)
  | (unfold Dev.trigger; simp; done)
  | (unfold Dev.trigger; (repeat' first | with_reducible rfl | (simp; done) | split); done)
  | (unfold Dev.trigger; try dsimp only
     (repeat' first | with_reducible rfl | (simp; done) | (with_reducible refine (foldl_eng _ ?_ _ _).trans ?_ <;> try intro _ _) | dsimp only | split); done)

@[simp] theorem trigger_rings (d : Dev) (code cls seq : Nat) : (Dev.trigger d code cls seq).rings = d.rings := by
  first
  | (unfold Dev.trigger; simp only [putRecord_rings, bump_rings]; done)
  | (unfold Dev.trigger; with_reducible rfl)
  | (unfold Dev.trigger; simp; done)
  | (unfold Dev.trigger; (repeat' first | with_reducible rfl | (simp; done) | split); done)
  | (unfold Dev.trigger; try dsimp only
     (repeat' first | with_reducible rfl | (simp; done) | (with_reducible refine (foldl_rings _ ?_ _ _).trans ?_ <;> try intro _ _) | dsimp only | split); done)

@[simp] theorem trigger_arr (d : Dev) (code cls seq : Nat) : (Dev.trigger d code cls seq).arr = d.arr := by
  first
  | (unfold Dev.trigger; simp only [putRecord_arr, bump_arr]; done)
  | (unfold Dev.trigger; with_reducible rfl)
  | (unfold Dev.trigger; simp; done)
  | (unfold Dev.trigger; (repeat' first | with_reducible rfl | (simp; done) | split); done)
  | (unfold Dev.trigger; try dsimp only
     (repeat' first | with_reducible rfl | (simp; done) | (with_reducible refine (foldl_arr _ ?_ _ _).trans ?_ <;> try intro _ _) | dsimp only | split); done)

@[simp] theorem trigger_opt (d : Dev) (code cls seq : Nat) : (Dev.trigger d code cls seq).opt = d.opt := by
  first
  | (unfold Dev.trigger; simp only [putRecord_opt, bump_opt]; done)
  | (unfold Dev.trigger; with_reducible rfl)
  | (unfold Dev.trigger; simp; done)
  | (unfold Dev.trigger; (repeat' first | with_reducible rfl | (simp; done) | split); done)
  | (unfold Dev.trigger; try dsimp only
     (repeat' first | with_reducible rfl | (simp; done) | (with_reducible refine (foldl_opt _ ?_ _ _).trans ?_ <;> try intro _ _) | dsimp only | split); done)

@[simp] theorem trigger_disc (d : Dev) (code cls seq : Nat) : (Dev.trigger d code cls seq).disc = d.disc := by
  first
  | (unfold Dev.trigger; simp only [putRecord_disc, bump_disc]; done)
  | (unfold Dev.trigger; with_reducible rfl)
  | (unfold Dev.trigger; simp; done)
  | (unfold Dev.trigger; (repeat' first | with_reducible rfl | (simp; done) | split); done)
  | (unfold Dev.trigger; try dsimp only
     (repeat' first | with_reducible rfl | (simp; done) | (with_reducible refine (foldl_disc _ ?_ _ _).trans ?_ <;> try intro _ _) | dsimp only | split); done)

@[simp] theorem trigger_coll (d : Dev) (code cls seq : Nat) : (Dev.trigger d code cls seq).coll = d.coll := by
  first
  | (unfold Dev.trigger; simp only [putRecord_coll, bump_coll]; done)
  | (unfold Dev.trigger; with_reducible rfl)
  | (unfold Dev.trigger; simp; done)
  | (unfold Dev.trigger; (repeat' first | with_reducible rfl | (simp; done) | split); done)
  | (unfold Dev.trigger; try dsimp only
     (repeat' first | with_reducible rfl | (simp; done) | (with_reducible refine (foldl_coll _ ?_ _ _).trans ?_ <;> try intro _ _) | dsimp only | split); done)

@[simp] theorem trigger_faults (d : Dev) (code cls seq : Nat) : (Dev.trigger d code cls seq).faults = d.faults := by
  first
  | (unfold Dev.trigger; simp only [putRecord_faults, bump_faults]; done)
  | (unfold Dev.trigger; with_reducible rfl)
  | (unfold Dev.trigger; simp; done)
  | (unfold Dev.trigger; (repeat' first | with_reducible rfl | (simp; done) | split); done)
  | (unfold Dev.trigger; try dsimp only
     (repeat' first | with_reducible rfl | (simp; done) | (with_reducible refine (foldl_faults _ ?_ _ _).trans ?_ <;> try intro _ _) | dsimp only | split); done)

@[simp] theorem trigger_twin (d : Dev) (code cls seq : Nat) : (Dev.trigger d code cls seq).twin = d.twin := by
  first
  | (unfold Dev.trigger; simp only [putRecord_twin, bump_twin]; done)
  | (unfold Dev.trigger; with_reducible rfl)
  | (unfold Dev.trigger; simp; done)
  | (unfold Dev.trigger; (repeat' first | with_reducible rfl | (simp; done) | split); done)
  | (unfold Dev.trigger; try dsimp only
     (repeat' first | with_reducible rfl | (simp; done) | (with_reducible refine (foldl_twin _ ?_ _ _).trans ?_ <;> try intro _ _) | dsimp only | split); done)

@[simp] theorem trigger_power (d : Dev) (code cls seq : Nat) : (Dev.trigger d code cls seq).power = d.power := by
  first
  | (unfold Dev.trigger; simp only [putRecord_power, bump_power]; done)
  | (unfold Dev.trigger; with_reducible rfl)
  | (unfold Dev.trigger; simp; done)
  | (unfold Dev.trigger; (repeat' first | with_reducible rfl | (simp; done) | split); done)
  | (unfold Dev.trigger; try dsimp only
     (repeat' first | with_reducible rfl | (simp; done) | (with_reducible refine (foldl_power _ ?_ _ _).trans ?_ <;> try intro _ _) | dsimp only | split); done)

@[simp] theorem trigger_upd (d : Dev) (code cls seq : Nat) : (Dev.trigger d code cls seq).upd = d.upd := by
  first
  | (unfold Dev.trigger; simp only [putRecord_upd, bump_upd]; done)
  | (unfold Dev.trigger; with_reducible rfl)
  | (unfold Dev.trigger; simp; done)
  | (unfold Dev.trigger; (repeat' first | with_reducible rfl | (simp; done) | split); done)
  | (unfold Dev.trigger; try dsimp only
     (repeat' first | with_reducible rfl | (simp; done) | (with_reducible refine (foldl_upd _ ?_ _ _).trans ?_ <;> try intro _ _) | dsimp only | split); done)

@[simp] theorem trigger_ob (d : Dev) (code cls seq : Nat) : (Dev.trigger d code cls seq).ob = d.ob := by
  first
  | (unfold Dev.trigger; simp only [putRecord_ob, bump_ob]; done)
  | (unfold Dev.trigger; with_reducible rfl)
  | (unfold Dev.trigger; simp; done)
  | (unfold Dev.trigger; (repeat' first | with_reducible rfl | (simp; done) | split); done)
  | (unfold Dev.trigger; try dsimp only
     (repeat' first | with_reducible rfl | (simp; done) | (with_reducible refine (foldl_ob _ ?_ _ _).trans ?_ <;> try intro _ _) | dsimp only | split); done)

@[simp] theorem trigger_out (d : Dev) (code cls seq : Nat) : (Dev.trigger d code cls seq).out = d.out := by
  first
  | (unfold Dev.trigger; simp only [putRecord_out, bump_out]; done)
  | (unfold Dev.trigger; with_reducible rfl)
  | (unfold Dev.trigger; simp; done)
  | (unfold Dev.trigger; (repeat' first | with_reducible rfl | (simp; done) | split); done)
  | (unfold Dev.trigger; try dsimp only
     (repeat' first | with_reducible rfl | (simp; done) | (with_reducible refine (foldl_out _ ?_ _ _).trans ?_ <;> try intro _ _) | dsimp only | split); done)

@[simp] theorem trigger_fresh (d : Dev) (code cls seq : Nat) : (Dev.trigger d code cls seq).fresh = d.fresh := by
  first
  | (unfold Dev.trigger; simp only [putRecord_fresh, bump_fresh]; done)
  | (unfold Dev.trigger; with_reducible rfl)
  | (unfold Dev.trigger; simp; done)
  | (unfold Dev.trigger; (repeat' first | with_reducible rfl | (simp; done) | split); done)
  | (unfold Dev.trigger; try dsimp only
     (repeat' first | with_reducible rfl | (simp; done) | (with_reducible refine (foldl_fresh _ ?_ _ _).trans ?_ <;> try intro _ _) | dsimp only | split); done)

@[simp] theorem tripped_module (d : Dev) (code cls seq : Nat) : (Dev.tripped d code cls seq).module = d.module := by
  first
  | (unfold Dev.tripped; simp only [trigger_module]; done)
  | (unfold Dev.tripped; with_reducible rfl)
  | (unfold Dev.tripped; simp; done)
  | (unfold Dev.tripped; (repeat' first | with_reducible rfl | (simp; done) | split); done)
  | (unfold Dev.tripped; try dsimp only
     (repeat' first | with_reducible rfl | (simp; done) | (with_reducible refine (foldl_module _ ?_ _ _).trans ?_ <;> try intro _ _) | dsimp only | split); done)

@[simp] theorem tripped_net (d : Dev) (code cls seq : Nat) : (Dev.tripped d code cls seq).net = d.net := by
  first
  | (unfold Dev.tripped; simp only [trigger_net]; done)
  | (unfold Dev.tripped; with_reducible rfl)
  | (unfold Dev.tripped; simp; done)
  | (unfold Dev.tripped; (repeat' first | with_reducible rfl | (simp; done) | split); done)
  | (unfold Dev.tripped; try dsimp only
     (repeat' first | with_reducible rfl | (simp; done) | (with_reducible refine (foldl_net _ ?_ _ _).trans ?_ <;> try intro _ _) | dsimp only | split); done)

@[simp] theorem tripped_dir (d : Dev) (code cls seq : Nat) : (Dev.tripped d code cls seq).dir = d.dir := by
  first
  | (unfold Dev.tripped; simp only [trigger_dir]; done)
  | (unfold Dev.tripped; with_reducible rfl)
  | (unfold Dev.tripped; simp; done)
  | (unfold Dev.tripped; (repeat' first | with_reducible rfl | (simp; done) | split); done)
  | (unfold Dev.tripped; try dsimp only
     (repeat' first | with_reducible rfl | (simp; done) | (with_reducible refine (foldl_dir _ ?_ _ _).trans ?_ <;> try intro _ _) | dsimp only | split); done)

@[simp] theorem tripped_jobs (d : Dev) (code cls seq : Nat) : (Dev.tripped d code cls seq).jobs = d.jobs := by
  first
  | (unfold Dev.tripped; simp only [trigger_jobs]; done)
  | (unfold Dev.tripped; with_reducible rfl)
  | (unfold Dev.tripped; simp; done)
  | (unfold Dev.tripped; (repeat' first | with_reducible rfl | (simp; done) | split); done)
  | (unfold Dev.tripped; try dsimp only
     (repeat' first | with_reducible rfl | (simp; done) | (with_reducible refine (foldl_jobs _ ?_ _ _).trans ?_ <;> try intro _ _) | dsimp only | split); done)

@[simp] theorem tripped_circuits (d : Dev) (code cls seq : Nat) : (Dev.tripped d code cls seq).circuits = d.circuits := by
  first
  | (unfold Dev.tripped; simp only [trigger_circuits]; done)
  | (unfold Dev.tripped; with_reducible rfl)
  | (unfold Dev.tripped; simp; done)
  | (unfold Dev.tripped; (repeat' first | with_reducible rfl | (simp; done) | split); done)
  | (unfold Dev.tripped; try dsimp only
     (repeat' first | with_reducible rfl | (simp; done) | (with_reducible refine (foldl_circuits _ ?_ _ _).trans ?_ <;> try intro _ _) | dsimp only | split); done)

@[simp] theorem tripped_runs (d : Dev) (code cls seq : Nat) : (Dev.tripped d code cls seq).runs = d.runs := by
  first
  | (unfold Dev.tripped; simp only [trigger_runs]; done)
  | (unfold Dev.tripped; with_reducible rfl)
  | (unfold Dev.tripped; simp; done)
  | (unfold Dev.tripped; (repeat' first | with_reducible rfl | (simp; done) | split); done)
  | (unfold Dev.tripped; try dsimp only
     (repeat' first | with_reducible rfl | (simp; done) | (with_reducible refine (foldl_runs _ ?_ _ _).trans ?_ <;> try intro _ _) | dsimp only | split); done)

@[simp] theorem tripped_time (d : Dev) (code cls seq : Nat) : (Dev.tripped d code cls seq).time = d.time := by
  first
  | (unfold Dev.tripped; simp only [trigger_time]; done)
  | (unfold Dev.tripped; with_reducible rfl)
  | (unfold Dev.tripped; simp; done)
  | (unfold Dev.tripped; (repeat' first | with_reducible rfl | (simp; done) | split); done)
  | (unfold Dev.tripped; try dsimp only
     (repeat' first | with_reducible rfl | (simp; done) | (with_reducible refine (foldl_time _ ?_ _ _).trans ?_ <;> try intro _ _) | dsimp only | split); done)

@[simp] theorem tripped_eng (d : Dev) (code cls seq : Nat) : (Dev.tripped d code cls seq).eng = d.eng := by
  first
  | (unfold Dev.tripped; simp only [trigger_eng]; done)
  | (unfold Dev.tripped; with_reducible rfl)
  | (unfold Dev.tripped; simp; done)
  | (unfold Dev.tripped; (repeat' first | with_reducible rfl | (simp; done) | split); done)
  | (unfold Dev.tripped; try dsimp only
     (repeat' first | with_reducible rfl | (simp; done) | (with_reducible refine (foldl_eng _ ?_ _ _).trans ?_ <;> try intro _ _) | dsimp only | split); done)

@[simp] theorem tripped_rings (d : Dev) (code cls seq : Nat) : (Dev.tripped d code cls seq).rings = d.rings := by
  first
  | (unfold Dev.tripped; simp only [trigger_rings]; done)
  | (unfold Dev.tripped; with_reducible rfl)
  | (unfold Dev.tripped; simp; done)
  | (unfold Dev.tripped; (repeat' first | with_reducible rfl | (simp; done) | split); done)
  | (unfold Dev.tripped; try dsimp only
     (repeat' first | with_reducible rfl | (simp; done) | (with_reducible refine (foldl_rings _ ?_ _ _).trans ?_ <;> try intro _ _) | dsimp only | split); done)

@[simp] theorem tripped_arr (d : Dev) (code cls seq : Nat) : (Dev.tripped d code cls seq).arr = d.arr := by
  first
  | (unfold Dev.tripped; simp only [trigger_arr]; done)
  | (unfold Dev.tripped; with_reducible rfl)
  | (unfold Dev.tripped; simp; done)
  | (unfold Dev.tripped; (repeat' first | with_reducible rfl | (simp; done) | split); done)
  | (unfold Dev.tripped; try dsimp only
     (repeat' first | with_reducible rfl | (simp; done) | (with_reducible refine (foldl_arr _ ?_ _ _).trans ?_ <;> try intro _ _) | dsimp only | split); done)

@[simp] theorem tripped_opt (d : Dev) (code cls seq : Nat) : (Dev.tripped d code cls seq).opt = d.opt := by
  first
  | (unfold Dev.tripped; simp only [trigger_opt]; done)
  | (unfold Dev.tripped; with_reducible rfl)
  | (unfold Dev.tripped; simp; done)
  | (unfold Dev.tripped; (repeat' first | with_reducible rfl | (simp; done) | split); done)
  | (unfold Dev.tripped; try dsimp only
     (repeat' first | with_reducible rfl | (simp; done) | (with_reducible refine (foldl_opt _ ?_ _ _).trans ?_ <;> try intro _ _) | dsimp only | split); done)

@[simp] theorem tripped_disc (d : Dev) (code cls seq : Nat) : (Dev.tripped d code cls seq).disc = d.disc := by
  first
  | (unfold Dev.tripped; simp only [trigger_disc]; done)
  | (unfold Dev.tripped; with_reducible rfl)
  | (unfold Dev.tripped; simp; done)
  | (unfold Dev.tripped; (repeat' first | with_reducible rfl | (simp; done) | split); done)
  | (unfold Dev.tripped; try dsimp only
     (repeat' first | with_reducible rfl | (simp; done) | (with_reducible refine (foldl_disc _ ?_ _ _).trans ?_ <;> try intro _ _) | dsimp only | split); done)

@[simp] theorem tripped_coll (d : Dev) (code cls seq : Nat) : (Dev.tripped d code cls seq).coll = d.coll := by
  first
  | (unfold Dev.tripped; simp only [trigger_coll]; done)
  | (unfold Dev.tripped; with_reducible rfl)
  | (unfold Dev.tripped; simp; done)
  | (unfold Dev.tripped; (repeat' first | with_reducible rfl | (simp; done) | split); done)
  | (unfold Dev.tripped; try dsimp only
     (repeat' first | with_reducible rfl | (simp; done) | (with_reducible refine (foldl_coll _ ?_ _ _).trans ?_ <;> try intro _ _) | dsimp only | split); done)

@[simp] theorem tripped_faults (d : Dev) (code cls seq : Nat) : (Dev.tripped d code cls seq).faults = d.faults := by
  first
  | (unfold Dev.tripped; simp only [trigger_faults]; done)
  | (unfold Dev.tripped; with_reducible rfl)
  | (unfold Dev.tripped; simp; done)
  | (unfold Dev.tripped; (repeat' first | with_reducible rfl | (simp; done) | split); done)
  | (unfold Dev.tripped; try dsimp only
     (repeat' first | with_reducible rfl | (simp; done) | (with_reducible refine (foldl_faults _ ?_ _ _).trans ?_ <;> try intro _ _) | dsimp only | split); done)

@[simp] theorem tripped_twin (d : Dev) (code cls seq : Nat) : (Dev.tripped d code cls seq).twin = d.twin := by
  first
  | (unfold Dev.tripped; simp only [trigger_twin]; done)
  | (unfold Dev.tripped; with_reducible rfl)
  | (unfold Dev.tripped; simp; done)
  | (unfold Dev.tripped; (repeat' first | with_reducible rfl | (simp; done) | split); done)
  | (unfold Dev.tripped; try dsimp only
     (repeat' first | with_reducible rfl | (simp; done) | (with_reducible refine (foldl_twin _ ?_ _ _).trans ?_ <;> try intro _ _) | dsimp only | split); done)

@[simp] theorem tripped_power (d : Dev) (code cls seq : Nat) : (Dev.tripped d code cls seq).power = d.power := by
  first
  | (unfold Dev.tripped; simp only [trigger_power]; done)
  | (unfold Dev.tripped; with_reducible rfl)
  | (unfold Dev.tripped; simp; done)
  | (unfold Dev.tripped; (repeat' first | with_reducible rfl | (simp; done) | split); done)
  | (unfold Dev.tripped; try dsimp only
     (repeat' first | with_reducible rfl | (simp; done) | (with_reducible refine (foldl_power _ ?_ _ _).trans ?_ <;> try intro _ _) | dsimp only | split); done)

@[simp] theorem tripped_upd (d : Dev) (code cls seq : Nat) : (Dev.tripped d code cls seq).upd = d.upd := by
  first
  | (unfold Dev.tripped; simp only [trigger_upd]; done)
  | (unfold Dev.tripped; with_reducible rfl)
  | (unfold Dev.tripped; simp; done)
  | (unfold Dev.tripped; (repeat' first | with_reducible rfl | (simp; done) | split); done)
  | (unfold Dev.tripped; try dsimp only
     (repeat' first | with_reducible rfl | (simp; done) | (with_reducible refine (foldl_upd _ ?_ _ _).trans ?_ <;> try intro _ _) | dsimp only | split); done)

@[simp] theorem tripped_ob (d : Dev) (code cls seq : Nat) : (Dev.tripped d code cls seq).ob = d.ob := by
  first
  | (unfold Dev.tripped; simp only [trigger_ob]; done)
  | (unfold Dev.tripped; with_reducible rfl)
  | (unfold Dev.tripped; simp; done)
  | (unfold Dev.tripped; (repeat' first | with_reducible rfl | (simp; done) | split); done)
  | (unfold Dev.tripped; try dsimp only
     (repeat' first | with_reducible rfl | (simp; done) | (with_reducible refine (foldl_ob _ ?_ _ _).trans ?_ <;> try intro _ _) | dsimp only | split); done)

@[simp] theorem tripped_out (d : Dev) (code cls seq : Nat) : (Dev.tripped d code cls seq).out = d.out := by
  first
  | (unfold Dev.tripped; simp only [trigger_out]; done)
  | (unfold Dev.tripped; with_reducible rfl)
  | (unfold Dev.tripped; simp; done)
  | (unfold Dev.tripped; (repeat' first | with_reducible rfl | (simp; done) | split); done)
  | (unfold Dev.tripped; try dsimp only
     (repeat' first | with_reducible rfl | (simp; done) | (with_reducible refine (foldl_out _ ?_ _ _).trans ?_ <;> try intro _ _) | dsimp only | split); done)

@[simp] theorem tripped_fresh (d : Dev) (code cls seq : Nat) : (Dev.tripped d code cls seq).fresh = d.fresh := by
  first
  | (unfold Dev.tripped; simp only [trigger_fresh]; done)
  | (unfold Dev.tripped; with_reducible rfl)
  | (unfold Dev.tripped; simp; done)
  | (unfold Dev.tripped; (repeat' first | with_reducible rfl | (simp; done) | split); done)
  | (unfold Dev.tripped; try dsimp only
     (repeat' first | with_reducible rfl | (simp; done) | (with_reducible refine (foldl_fresh _ ?_ _ _).trans ?_ <;> try intro _ _) | dsimp only | split); done)

@[simp] theorem info_module (d : Dev) (code scope index : Nat) (detail : Bytes) : (Dev.info d code scope index detail).module = d.module := by
  first
  | (unfold Dev.info; simp only [write_module, tripped_module]; done)
  | (unfold Dev.info; with_reducible rfl)
  | (unfold Dev.info; simp; done)
  | (unfold Dev.info; (repeat' first | with_reducible rfl | (simp; done) | split); done)
  | (unfold Dev.info; try dsimp only
     (repeat' first | with_reducible rfl | (simp; done) | (with_reducible refine (foldl_module _ ?_ _ _).trans ?_ <;> try intro _ _) | dsimp only | split); done)

@[simp] theorem info_net (d : Dev) (code scope index : Nat) (detail : Bytes) : (Dev.info d code scope index detail).net = d.net := by
  first
  | (unfold Dev.info; simp only [write_net, tripped_net]; done)
  | (unfold Dev.info; with_reducible rfl)
  | (unfold Dev.info; simp; done)
  | (unfold Dev.info; (repeat' first | with_reducible rfl | (simp; done) | split); done)
  | (unfold Dev.info; try dsimp only
     (repeat' first | with_reducible rfl | (simp; done) | (with_reducible refine (foldl_net _ ?_ _ _).trans ?_ <;> try intro _ _) | dsimp only | split); done)

@[simp] theorem info_dir (d : Dev) (code scope index : Nat) (detail : Bytes) : (Dev.info d code scope index detail).dir = d.dir := by
  first
  | (unfold Dev.info; simp only [write_dir, tripped_dir]; done)
  | (unfold Dev.info; with_reducible rfl)
  | (unfold Dev.info; simp; done)
  | (unfold Dev.info; (repeat' first | with_reducible rfl | (simp; done) | split); done)
  | (unfold Dev.info; try dsimp only
     (repeat' first | with_reducible rfl | (simp; done) | (with_reducible refine (foldl_dir _ ?_ _ _).trans ?_ <;> try intro _ _) | dsimp only | split); done)

@[simp] theorem info_jobs (d : Dev) (code scope index : Nat) (detail : Bytes) : (Dev.info d code scope index detail).jobs = d.jobs := by
  first
  | (unfold Dev.info; simp only [write_jobs, tripped_jobs]; done)
  | (unfold Dev.info; with_reducible rfl)
  | (unfold Dev.info; simp; done)
  | (unfold Dev.info; (repeat' first | with_reducible rfl | (simp; done) | split); done)
  | (unfold Dev.info; try dsimp only
     (repeat' first | with_reducible rfl | (simp; done) | (with_reducible refine (foldl_jobs _ ?_ _ _).trans ?_ <;> try intro _ _) | dsimp only | split); done)

@[simp] theorem info_circuits (d : Dev) (code scope index : Nat) (detail : Bytes) : (Dev.info d code scope index detail).circuits = d.circuits := by
  first
  | (unfold Dev.info; simp only [write_circuits, tripped_circuits]; done)
  | (unfold Dev.info; with_reducible rfl)
  | (unfold Dev.info; simp; done)
  | (unfold Dev.info; (repeat' first | with_reducible rfl | (simp; done) | split); done)
  | (unfold Dev.info; try dsimp only
     (repeat' first | with_reducible rfl | (simp; done) | (with_reducible refine (foldl_circuits _ ?_ _ _).trans ?_ <;> try intro _ _) | dsimp only | split); done)

@[simp] theorem info_runs (d : Dev) (code scope index : Nat) (detail : Bytes) : (Dev.info d code scope index detail).runs = d.runs := by
  first
  | (unfold Dev.info; simp only [write_runs, tripped_runs]; done)
  | (unfold Dev.info; with_reducible rfl)
  | (unfold Dev.info; simp; done)
  | (unfold Dev.info; (repeat' first | with_reducible rfl | (simp; done) | split); done)
  | (unfold Dev.info; try dsimp only
     (repeat' first | with_reducible rfl | (simp; done) | (with_reducible refine (foldl_runs _ ?_ _ _).trans ?_ <;> try intro _ _) | dsimp only | split); done)

@[simp] theorem info_time (d : Dev) (code scope index : Nat) (detail : Bytes) : (Dev.info d code scope index detail).time = d.time := by
  first
  | (unfold Dev.info; simp only [write_time, tripped_time]; done)
  | (unfold Dev.info; with_reducible rfl)
  | (unfold Dev.info; simp; done)
  | (unfold Dev.info; (repeat' first | with_reducible rfl | (simp; done) | split); done)
  | (unfold Dev.info; try dsimp only
     (repeat' first | with_reducible rfl | (simp; done) | (with_reducible refine (foldl_time _ ?_ _ _).trans ?_ <;> try intro _ _) | dsimp only | split); done)

@[simp] theorem info_eng (d : Dev) (code scope index : Nat) (detail : Bytes) : (Dev.info d code scope index detail).eng = d.eng := by
  first
  | (unfold Dev.info; simp only [write_eng, tripped_eng]; done)
  | (unfold Dev.info; with_reducible rfl)
  | (unfold Dev.info; simp; done)
  | (unfold Dev.info; (repeat' first | with_reducible rfl | (simp; done) | split); done)
  | (unfold Dev.info; try dsimp only
     (repeat' first | with_reducible rfl | (simp; done) | (with_reducible refine (foldl_eng _ ?_ _ _).trans ?_ <;> try intro _ _) | dsimp only | split); done)

@[simp] theorem info_rings (d : Dev) (code scope index : Nat) (detail : Bytes) : (Dev.info d code scope index detail).rings = d.rings := by
  first
  | (unfold Dev.info; simp only [write_rings, tripped_rings]; done)
  | (unfold Dev.info; with_reducible rfl)
  | (unfold Dev.info; simp; done)
  | (unfold Dev.info; (repeat' first | with_reducible rfl | (simp; done) | split); done)
  | (unfold Dev.info; try dsimp only
     (repeat' first | with_reducible rfl | (simp; done) | (with_reducible refine (foldl_rings _ ?_ _ _).trans ?_ <;> try intro _ _) | dsimp only | split); done)

@[simp] theorem info_arr (d : Dev) (code scope index : Nat) (detail : Bytes) : (Dev.info d code scope index detail).arr = d.arr := by
  first
  | (unfold Dev.info; simp only [write_arr, tripped_arr]; done)
  | (unfold Dev.info; with_reducible rfl)
  | (unfold Dev.info; simp; done)
  | (unfold Dev.info; (repeat' first | with_reducible rfl | (simp; done) | split); done)
  | (unfold Dev.info; try dsimp only
     (repeat' first | with_reducible rfl | (simp; done) | (with_reducible refine (foldl_arr _ ?_ _ _).trans ?_ <;> try intro _ _) | dsimp only | split); done)

@[simp] theorem info_opt (d : Dev) (code scope index : Nat) (detail : Bytes) : (Dev.info d code scope index detail).opt = d.opt := by
  first
  | (unfold Dev.info; simp only [write_opt, tripped_opt]; done)
  | (unfold Dev.info; with_reducible rfl)
  | (unfold Dev.info; simp; done)
  | (unfold Dev.info; (repeat' first | with_reducible rfl | (simp; done) | split); done)
  | (unfold Dev.info; try dsimp only
     (repeat' first | with_reducible rfl | (simp; done) | (with_reducible refine (foldl_opt _ ?_ _ _).trans ?_ <;> try intro _ _) | dsimp only | split); done)

@[simp] theorem info_disc (d : Dev) (code scope index : Nat) (detail : Bytes) : (Dev.info d code scope index detail).disc = d.disc := by
  first
  | (unfold Dev.info; simp only [write_disc, tripped_disc]; done)
  | (unfold Dev.info; with_reducible rfl)
  | (unfold Dev.info; simp; done)
  | (unfold Dev.info; (repeat' first | with_reducible rfl | (simp; done) | split); done)
  | (unfold Dev.info; try dsimp only
     (repeat' first | with_reducible rfl | (simp; done) | (with_reducible refine (foldl_disc _ ?_ _ _).trans ?_ <;> try intro _ _) | dsimp only | split); done)

@[simp] theorem info_coll (d : Dev) (code scope index : Nat) (detail : Bytes) : (Dev.info d code scope index detail).coll = d.coll := by
  first
  | (unfold Dev.info; simp only [write_coll, tripped_coll]; done)
  | (unfold Dev.info; with_reducible rfl)
  | (unfold Dev.info; simp; done)
  | (unfold Dev.info; (repeat' first | with_reducible rfl | (simp; done) | split); done)
  | (unfold Dev.info; try dsimp only
     (repeat' first | with_reducible rfl | (simp; done) | (with_reducible refine (foldl_coll _ ?_ _ _).trans ?_ <;> try intro _ _) | dsimp only | split); done)

@[simp] theorem info_twin (d : Dev) (code scope index : Nat) (detail : Bytes) : (Dev.info d code scope index detail).twin = d.twin := by
  first
  | (unfold Dev.info; simp only [write_twin, tripped_twin]; done)
  | (unfold Dev.info; with_reducible rfl)
  | (unfold Dev.info; simp; done)
  | (unfold Dev.info; (repeat' first | with_reducible rfl | (simp; done) | split); done)
  | (unfold Dev.info; try dsimp only
     (repeat' first | with_reducible rfl | (simp; done) | (with_reducible refine (foldl_twin _ ?_ _ _).trans ?_ <;> try intro _ _) | dsimp only | split); done)

@[simp] theorem info_power (d : Dev) (code scope index : Nat) (detail : Bytes) : (Dev.info d code scope index detail).power = d.power := by
  first
  | (unfold Dev.info; simp only [write_power, tripped_power]; done)
  | (unfold Dev.info; with_reducible rfl)
  | (unfold Dev.info; simp; done)
  | (unfold Dev.info; (repeat' first | with_reducible rfl | (simp; done) | split); done)
  | (unfold Dev.info; try dsimp only
     (repeat' first | with_reducible rfl | (simp; done) | (with_reducible refine (foldl_power _ ?_ _ _).trans ?_ <;> try intro _ _) | dsimp only | split); done)

@[simp] theorem info_upd (d : Dev) (code scope index : Nat) (detail : Bytes) : (Dev.info d code scope index detail).upd = d.upd := by
  first
  | (unfold Dev.info; simp only [write_upd, tripped_upd]; done)
  | (unfold Dev.info; with_reducible rfl)
  | (unfold Dev.info; simp; done)
  | (unfold Dev.info; (repeat' first | with_reducible rfl | (simp; done) | split); done)
  | (unfold Dev.info; try dsimp only
     (repeat' first | with_reducible rfl | (simp; done) | (with_reducible refine (foldl_upd _ ?_ _ _).trans ?_ <;> try intro _ _) | dsimp only | split); done)

@[simp] theorem info_ob (d : Dev) (code scope index : Nat) (detail : Bytes) : (Dev.info d code scope index detail).ob = d.ob := by
  first
  | (unfold Dev.info; simp only [write_ob, tripped_ob]; done)
  | (unfold Dev.info; with_reducible rfl)
  | (unfold Dev.info; simp; done)
  | (unfold Dev.info; (repeat' first | with_reducible rfl | (simp; done) | split); done)
  | (unfold Dev.info; try dsimp only
     (repeat' first | with_reducible rfl | (simp; done) | (with_reducible refine (foldl_ob _ ?_ _ _).trans ?_ <;> try intro _ _) | dsimp only | split); done)

@[simp] theorem info_out (d : Dev) (code scope index : Nat) (detail : Bytes) : (Dev.info d code scope index detail).out = d.out := by
  first
  | (unfold Dev.info; simp only [write_out, tripped_out]; done)
  | (unfold Dev.info; with_reducible rfl)
  | (unfold Dev.info; simp; done)
  | (unfold Dev.info; (repeat' first | with_reducible rfl | (simp; done) | split); done)
  | (unfold Dev.info; try dsimp only
     (repeat' first | with_reducible rfl | (simp; done) | (with_reducible refine (foldl_out _ ?_ _ _).trans ?_ <;> try intro _ _) | dsimp only | split); done)

@[simp] theorem info_fresh (d : Dev) (code scope index : Nat) (detail : Bytes) : (Dev.info d code scope index detail).fresh = d.fresh := by
  first
  | (unfold Dev.info; simp only [write_fresh, tripped_fresh]; done)
  | (unfold Dev.info; with_reducible rfl)
  | (unfold Dev.info; simp; done)
  | (unfold Dev.info; (repeat' first | with_reducible rfl | (simp; done) | split); done)
  | (unfold Dev.info; try dsimp only
     (repeat' first | with_reducible rfl | (simp; done) | (with_reducible refine (foldl_fresh _ ?_ _ _).trans ?_ <;> try intro _ _) | dsimp only | split); done)

@[simp] theorem takeHead_module (d : Dev) : (Dev.takeHead d).module = d.module := by
  first
  | (unfold Dev.takeHead; with_reducible rfl)
  | (unfold Dev.takeHead; simp; done)
  | (unfold Dev.takeHead; (repeat' first | with_reducible rfl | (simp; done) | split); done)
  | (unfold Dev.takeHead; try dsimp only
     (repeat' first | with_reducible rfl | (simp; done) | (with_reducible refine (foldl_module _ ?_ _ _).trans ?_ <;> try intro _ _) | dsimp only | split); done)

@[simp] theorem takeHead_net (d : Dev) : (Dev.takeHead d).net = d.net := by
  first
  | (unfold Dev.takeHead; with_reducible rfl)
  | (unfold Dev.takeHead; simp; done)
  | (unfold Dev.takeHead; (repeat' first | with_reducible rfl | (simp; done) | split); done)
  | (unfold Dev.takeHead; try dsimp only
     (repeat' first | with_reducible rfl | (simp; done) | (with_reducible refine (foldl_net _ ?_ _ _).trans ?_ <;> try intro _ _) | dsimp only | split); done)

@[simp] theorem takeHead_dir (d : Dev) : (Dev.takeHead d).dir = d.dir := by
  first
  | (unfold Dev.takeHead; with_reducible rfl)
  | (unfold Dev.takeHead; simp; done)
  | (unfold Dev.takeHead; (repeat' first | with_reducible rfl | (simp; done) | split); done)
  | (unfold Dev.takeHead; try dsimp only
     (repeat' first | with_reducible rfl | (simp; done) | (with_reducible refine (foldl_dir _ ?_ _ _).trans ?_ <;> try intro _ _) | dsimp only | split); done)

@[simp] theorem takeHead_jobs (d : Dev) : (Dev.takeHead d).jobs = d.jobs := by
  first
  | (unfold Dev.takeHead; with_reducible rfl)
  | (unfold Dev.takeHead; simp; done)
  | (unfold Dev.takeHead; (repeat' first | with_reducible rfl | (simp; done) | split); done)
  | (unfold Dev.takeHead; try dsimp only
     (repeat' first | with_reducible rfl | (simp; done) | (with_reducible refine (foldl_jobs _ ?_ _ _).trans ?_ <;> try intro _ _) | dsimp only | split); done)

@[simp] theorem takeHead_circuits (d : Dev) : (Dev.takeHead d).circuits = d.circuits := by
  first
  | (unfold Dev.takeHead; with_reducible rfl)
  | (unfold Dev.takeHead; simp; done)
  | (unfold Dev.takeHead; (repeat' first | with_reducible rfl | (simp; done) | split); done)
  | (unfold Dev.takeHead; try dsimp only
     (repeat' first | with_reducible rfl | (simp; done) | (with_reducible refine (foldl_circuits _ ?_ _ _).trans ?_ <;> try intro _ _) | dsimp only | split); done)

@[simp] theorem takeHead_runs (d : Dev) : (Dev.takeHead d).runs = d.runs := by
  first
  | (unfold Dev.takeHead; with_reducible rfl)
  | (unfold Dev.takeHead; simp; done)
  | (unfold Dev.takeHead; (repeat' first | with_reducible rfl | (simp; done) | split); done)
  | (unfold Dev.takeHead; try dsimp only
     (repeat' first | with_reducible rfl | (simp; done) | (with_reducible refine (foldl_runs _ ?_ _ _).trans ?_ <;> try intro _ _) | dsimp only | split); done)

@[simp] theorem takeHead_time (d : Dev) : (Dev.takeHead d).time = d.time := by
  first
  | (unfold Dev.takeHead; with_reducible rfl)
  | (unfold Dev.takeHead; simp; done)
  | (unfold Dev.takeHead; (repeat' first | with_reducible rfl | (simp; done) | split); done)
  | (unfold Dev.takeHead; try dsimp only
     (repeat' first | with_reducible rfl | (simp; done) | (with_reducible refine (foldl_time _ ?_ _ _).trans ?_ <;> try intro _ _) | dsimp only | split); done)

@[simp] theorem takeHead_eng (d : Dev) : (Dev.takeHead d).eng = d.eng := by
  first
  | (unfold Dev.takeHead; with_reducible rfl)
  | (unfold Dev.takeHead; simp; done)
  | (unfold Dev.takeHead; (repeat' first | with_reducible rfl | (simp; done) | split); done)
  | (unfold Dev.takeHead; try dsimp only
     (repeat' first | with_reducible rfl | (simp; done) | (with_reducible refine (foldl_eng _ ?_ _ _).trans ?_ <;> try intro _ _) | dsimp only | split); done)

@[simp] theorem takeHead_rings (d : Dev) : (Dev.takeHead d).rings = d.rings := by
  first
  | (unfold Dev.takeHead; with_reducible rfl)
  | (unfold Dev.takeHead; simp; done)
  | (unfold Dev.takeHead; (repeat' first | with_reducible rfl | (simp; done) | split); done)
  | (unfold Dev.takeHead; try dsimp only
     (repeat' first | with_reducible rfl | (simp; done) | (with_reducible refine (foldl_rings _ ?_ _ _).trans ?_ <;> try intro _ _) | dsimp only | split); done)

@[simp] theorem takeHead_arr (d : Dev) : (Dev.takeHead d).arr = d.arr := by
  first
  | (unfold Dev.takeHead; with_reducible rfl)
  | (unfold Dev.takeHead; simp; done)
  | (unfold Dev.takeHead; (repeat' first | with_reducible rfl | (simp; done) | split); done)
  | (unfold Dev.takeHead; try dsimp only
     (repeat' first | with_reducible rfl | (simp; done) | (with_reducible refine (foldl_arr _ ?_ _ _).trans ?_ <;> try intro _ _) | dsimp only | split); done)

@[simp] theorem takeHead_opt (d : Dev) : (Dev.takeHead d).opt = d.opt := by
  first
  | (unfold Dev.takeHead; with_reducible rfl)
  | (unfold Dev.takeHead; simp; done)
  | (unfold Dev.takeHead; (repeat' first | with_reducible rfl | (simp; done) | split); done)
  | (unfold Dev.takeHead; try dsimp only
     (repeat' first | with_reducible rfl | (simp; done) | (with_reducible refine (foldl_opt _ ?_ _ _).trans ?_ <;> try intro _ _) | dsimp only | split); done)

@[simp] theorem takeHead_disc (d : Dev) : (Dev.takeHead d).disc = d.disc := by
  first
  | (unfold Dev.takeHead; with_reducible rfl)
  | (unfold Dev.takeHead; simp; done)
  | (unfold Dev.takeHead; (repeat' first | with_reducible rfl | (simp; done) | split); done)
  | (unfold Dev.takeHead; try dsimp only
     (repeat' first | with_reducible rfl | (simp; done) | (with_reducible refine (foldl_disc _ ?_ _ _).trans ?_ <;> try intro _ _) | dsimp only | split); done)

@[simp] theorem takeHead_coll (d : Dev) : (Dev.takeHead d).coll = d.coll := by
  first
  | (unfold Dev.takeHead; with_reducible rfl)
  | (unfold Dev.takeHead; simp; done)
  | (unfold Dev.takeHead; (repeat' first | with_reducible rfl | (simp; done) | split); done)
  | (unfold Dev.takeHead; try dsimp only
     (repeat' first | with_reducible rfl | (simp; done) | (with_reducible refine (foldl_coll _ ?_ _ _).trans ?_ <;> try intro _ _) | dsimp only | split); done)

@[simp] theorem takeHead_mem (d : Dev) : (Dev.takeHead d).mem = d.mem := by
  first
  | (unfold Dev.takeHead; with_reducible rfl)
  | (unfold Dev.takeHead; simp; done)
  | (unfold Dev.takeHead; (repeat' first | with_reducible rfl | (simp; done) | split); done)
  | (unfold Dev.takeHead; try dsimp only
     (repeat' first | with_reducible rfl | (simp; done) | (with_reducible refine (foldl_mem _ ?_ _ _).trans ?_ <;> try intro _ _) | dsimp only | split); done)

@[simp] theorem takeHead_twin (d : Dev) : (Dev.takeHead d).twin = d.twin := by
  first
  | (unfold Dev.takeHead; with_reducible rfl)
  | (unfold Dev.takeHead; simp; done)
  | (unfold Dev.takeHead; (repeat' first | with_reducible rfl | (simp; done) | split); done)
  | (unfold Dev.takeHead; try dsimp only
     (repeat' first | with_reducible rfl | (simp; done) | (with_reducible refine (foldl_twin _ ?_ _ _).trans ?_ <;> try intro _ _) | dsimp only | split); done)

@[simp] theorem takeHead_power (d : Dev) : (Dev.takeHead d).power = d.power := by
  first
  | (unfold Dev.takeHead; with_reducible rfl)
  | (unfold Dev.takeHead; simp; done)
  | (unfold Dev.takeHead; (repeat' first | with_reducible rfl | (simp; done) | split); done)
  | (unfold Dev.takeHead; try dsimp only
     (repeat' first | with_reducible rfl | (simp; done) | (with_reducible refine (foldl_power _ ?_ _ _).trans ?_ <;> try intro _ _) | dsimp only | split); done)

@[simp] theorem takeHead_upd (d : Dev) : (Dev.takeHead d).upd = d.upd := by
  first
  | (unfold Dev.takeHead; with_reducible rfl)
  | (unfold Dev.takeHead; simp; done)
  | (unfold Dev.takeHead; (repeat' first | with_reducible rfl | (simp; done) | split); done)
  | (unfold Dev.takeHead; try dsimp only
     (repeat' first | with_reducible rfl | (simp; done) | (with_reducible refine (foldl_upd _ ?_ _ _).trans ?_ <;> try intro _ _) | dsimp only | split); done)

@[simp] theorem takeHead_recr (d : Dev) : (Dev.takeHead d).recr = d.recr := by
  first
  | (unfold Dev.takeHead; with_reducible rfl)
  | (unfold Dev.takeHead; simp; done)
  | (unfold Dev.takeHead; (repeat' first | with_reducible rfl | (simp; done) | split); done)
  | (unfold Dev.takeHead; try dsimp only
     (repeat' first | with_reducible rfl | (simp; done) | (with_reducible refine (foldl_recr _ ?_ _ _).trans ?_ <;> try intro _ _) | dsimp only | split); done)

@[simp] theorem takeHead_ob (d : Dev) : (Dev.takeHead d).ob = d.ob := by
  first
  | (unfold Dev.takeHead; with_reducible rfl)
  | (unfold Dev.takeHead; simp; done)
  | (unfold Dev.takeHead; (repeat' first | with_reducible rfl | (simp; done) | split); done)
  | (unfold Dev.takeHead; try dsimp only
     (repeat' first | with_reducible rfl | (simp; done) | (with_reducible refine (foldl_ob _ ?_ _ _).trans ?_ <;> try intro _ _) | dsimp only | split); done)

@[simp] theorem takeHead_out (d : Dev) : (Dev.takeHead d).out = d.out := by
  first
  | (unfold Dev.takeHead; with_reducible rfl)
  | (unfold Dev.takeHead; simp; done)
  | (unfold Dev.takeHead; (repeat' first | with_reducible rfl | (simp; done) | split); done)
  | (unfold Dev.takeHead; try dsimp only
     (repeat' first | with_reducible rfl | (simp; done) | (with_reducible refine (foldl_out _ ?_ _ _).trans ?_ <;> try intro _ _) | dsimp only | split); done)

@[simp] theorem takeHead_fresh (d : Dev) : (Dev.takeHead d).fresh = d.fresh := by
  first
  | (unfold Dev.takeHead; with_reducible rfl)
  | (unfold Dev.takeHead; simp; done)
  | (unfold Dev.takeHead; (repeat' first | with_reducible rfl | (simp; done) | split); done)
  | (unfold Dev.takeHead; try dsimp only
     (repeat' first | with_reducible rfl | (simp; done) | (with_reducible refine (foldl_fresh _ ?_ _ _).trans ?_ <;> try intro _ _) | dsimp only | split); done)

@[simp] theorem breakSoak_module (d : Dev) (cls : Nat) : (d.breakSoak cls).module = d.module := by
  unfold Dev.breakSoak; split <;> rfl

@[simp] theorem breakSoak_net (d : Dev) (cls : Nat) : (d.breakSoak cls).net = d.net := by
  unfold Dev.breakSoak; split <;> rfl

@[simp] theorem breakSoak_dir (d : Dev) (cls : Nat) : (d.breakSoak cls).dir = d.dir := by
  unfold Dev.breakSoak; split <;> rfl

@[simp] theorem breakSoak_jobs (d : Dev) (cls : Nat) : (d.breakSoak cls).jobs = d.jobs := by
  unfold Dev.breakSoak; split <;> rfl

@[simp] theorem breakSoak_circuits (d : Dev) (cls : Nat) : (d.breakSoak cls).circuits = d.circuits := by
  unfold Dev.breakSoak; split <;> rfl

@[simp] theorem breakSoak_runs (d : Dev) (cls : Nat) : (d.breakSoak cls).runs = d.runs := by
  unfold Dev.breakSoak; split <;> rfl

@[simp] theorem breakSoak_time (d : Dev) (cls : Nat) : (d.breakSoak cls).time = d.time := by
  unfold Dev.breakSoak; split <;> rfl

@[simp] theorem breakSoak_eng (d : Dev) (cls : Nat) : (d.breakSoak cls).eng = d.eng := by
  unfold Dev.breakSoak; split <;> rfl

@[simp] theorem breakSoak_rings (d : Dev) (cls : Nat) : (d.breakSoak cls).rings = d.rings := by
  unfold Dev.breakSoak; split <;> rfl

@[simp] theorem breakSoak_arr (d : Dev) (cls : Nat) : (d.breakSoak cls).arr = d.arr := by
  unfold Dev.breakSoak; split <;> rfl

@[simp] theorem breakSoak_opt (d : Dev) (cls : Nat) : (d.breakSoak cls).opt = d.opt := by
  unfold Dev.breakSoak; split <;> rfl

@[simp] theorem breakSoak_disc (d : Dev) (cls : Nat) : (d.breakSoak cls).disc = d.disc := by
  unfold Dev.breakSoak; split <;> rfl

@[simp] theorem breakSoak_coll (d : Dev) (cls : Nat) : (d.breakSoak cls).coll = d.coll := by
  unfold Dev.breakSoak; split <;> rfl

@[simp] theorem breakSoak_mem (d : Dev) (cls : Nat) : (d.breakSoak cls).mem = d.mem := by
  unfold Dev.breakSoak; split <;> rfl

@[simp] theorem breakSoak_twin (d : Dev) (cls : Nat) : (d.breakSoak cls).twin = d.twin := by
  unfold Dev.breakSoak; split <;> rfl

@[simp] theorem breakSoak_power (d : Dev) (cls : Nat) : (d.breakSoak cls).power = d.power := by
  unfold Dev.breakSoak; split <;> rfl

@[simp] theorem breakSoak_ob (d : Dev) (cls : Nat) : (d.breakSoak cls).ob = d.ob := by
  unfold Dev.breakSoak; split <;> rfl

@[simp] theorem breakSoak_out (d : Dev) (cls : Nat) : (d.breakSoak cls).out = d.out := by
  unfold Dev.breakSoak; split <;> rfl

@[simp] theorem breakSoak_fresh (d : Dev) (cls : Nat) : (d.breakSoak cls).fresh = d.fresh := by
  unfold Dev.breakSoak; split <;> rfl

@[simp] theorem breakSoak_faults (d : Dev) (cls : Nat) : (d.breakSoak cls).faults = d.faults := by
  unfold Dev.breakSoak; split <;> rfl

@[simp] theorem breakSoak_recr (d : Dev) (cls : Nat) : (d.breakSoak cls).recr = d.recr := by
  unfold Dev.breakSoak; split <;> rfl

/-- Breaking the soak writes nothing of the update unit but `soakBroken`. -/
theorem breakSoak_upd (d : Dev) (cls : Nat) :
    (d.breakSoak cls).upd = { d.upd with soakBroken := d.upd.soakBroken || decide (3 ≤ cls) } := by
  unfold Dev.breakSoak
  by_cases h : 3 ≤ cls <;> simp [h]

@[simp] theorem overflow_module (d : Dev) (place : Event → List Event → List Event) (e : Event) : (Dev.overflow d place e).module = d.module := by
  first
  | (unfold Dev.overflow; simp only [write_module, tripped_module, setFlag_module, bump_module]; done)
  | (unfold Dev.overflow; with_reducible rfl)
  | (unfold Dev.overflow; simp; done)
  | (unfold Dev.overflow; (repeat' first | with_reducible rfl | (simp; done) | split); done)
  | (unfold Dev.overflow; try dsimp only
     (repeat' first | with_reducible rfl | (simp; done) | (with_reducible refine (foldl_module _ ?_ _ _).trans ?_ <;> try intro _ _) | dsimp only | split); done)

@[simp] theorem overflow_net (d : Dev) (place : Event → List Event → List Event) (e : Event) : (Dev.overflow d place e).net = d.net := by
  first
  | (unfold Dev.overflow; simp only [write_net, tripped_net, setFlag_net, bump_net]; done)
  | (unfold Dev.overflow; with_reducible rfl)
  | (unfold Dev.overflow; simp; done)
  | (unfold Dev.overflow; (repeat' first | with_reducible rfl | (simp; done) | split); done)
  | (unfold Dev.overflow; try dsimp only
     (repeat' first | with_reducible rfl | (simp; done) | (with_reducible refine (foldl_net _ ?_ _ _).trans ?_ <;> try intro _ _) | dsimp only | split); done)

@[simp] theorem overflow_dir (d : Dev) (place : Event → List Event → List Event) (e : Event) : (Dev.overflow d place e).dir = d.dir := by
  first
  | (unfold Dev.overflow; simp only [write_dir, tripped_dir, setFlag_dir, bump_dir]; done)
  | (unfold Dev.overflow; with_reducible rfl)
  | (unfold Dev.overflow; simp; done)
  | (unfold Dev.overflow; (repeat' first | with_reducible rfl | (simp; done) | split); done)
  | (unfold Dev.overflow; try dsimp only
     (repeat' first | with_reducible rfl | (simp; done) | (with_reducible refine (foldl_dir _ ?_ _ _).trans ?_ <;> try intro _ _) | dsimp only | split); done)

@[simp] theorem overflow_jobs (d : Dev) (place : Event → List Event → List Event) (e : Event) : (Dev.overflow d place e).jobs = d.jobs := by
  first
  | (unfold Dev.overflow; simp only [write_jobs, tripped_jobs, setFlag_jobs, bump_jobs]; done)
  | (unfold Dev.overflow; with_reducible rfl)
  | (unfold Dev.overflow; simp; done)
  | (unfold Dev.overflow; (repeat' first | with_reducible rfl | (simp; done) | split); done)
  | (unfold Dev.overflow; try dsimp only
     (repeat' first | with_reducible rfl | (simp; done) | (with_reducible refine (foldl_jobs _ ?_ _ _).trans ?_ <;> try intro _ _) | dsimp only | split); done)

@[simp] theorem overflow_circuits (d : Dev) (place : Event → List Event → List Event) (e : Event) : (Dev.overflow d place e).circuits = d.circuits := by
  first
  | (unfold Dev.overflow; simp only [write_circuits, tripped_circuits, setFlag_circuits, bump_circuits]; done)
  | (unfold Dev.overflow; with_reducible rfl)
  | (unfold Dev.overflow; simp; done)
  | (unfold Dev.overflow; (repeat' first | with_reducible rfl | (simp; done) | split); done)
  | (unfold Dev.overflow; try dsimp only
     (repeat' first | with_reducible rfl | (simp; done) | (with_reducible refine (foldl_circuits _ ?_ _ _).trans ?_ <;> try intro _ _) | dsimp only | split); done)

@[simp] theorem overflow_runs (d : Dev) (place : Event → List Event → List Event) (e : Event) : (Dev.overflow d place e).runs = d.runs := by
  first
  | (unfold Dev.overflow; simp only [write_runs, tripped_runs, setFlag_runs, bump_runs]; done)
  | (unfold Dev.overflow; with_reducible rfl)
  | (unfold Dev.overflow; simp; done)
  | (unfold Dev.overflow; (repeat' first | with_reducible rfl | (simp; done) | split); done)
  | (unfold Dev.overflow; try dsimp only
     (repeat' first | with_reducible rfl | (simp; done) | (with_reducible refine (foldl_runs _ ?_ _ _).trans ?_ <;> try intro _ _) | dsimp only | split); done)

@[simp] theorem overflow_time (d : Dev) (place : Event → List Event → List Event) (e : Event) : (Dev.overflow d place e).time = d.time := by
  first
  | (unfold Dev.overflow; simp only [write_time, tripped_time, setFlag_time, bump_time]; done)
  | (unfold Dev.overflow; with_reducible rfl)
  | (unfold Dev.overflow; simp; done)
  | (unfold Dev.overflow; (repeat' first | with_reducible rfl | (simp; done) | split); done)
  | (unfold Dev.overflow; try dsimp only
     (repeat' first | with_reducible rfl | (simp; done) | (with_reducible refine (foldl_time _ ?_ _ _).trans ?_ <;> try intro _ _) | dsimp only | split); done)

@[simp] theorem overflow_eng (d : Dev) (place : Event → List Event → List Event) (e : Event) : (Dev.overflow d place e).eng = d.eng := by
  first
  | (unfold Dev.overflow; simp only [write_eng, tripped_eng, setFlag_eng, bump_eng]; done)
  | (unfold Dev.overflow; with_reducible rfl)
  | (unfold Dev.overflow; simp; done)
  | (unfold Dev.overflow; (repeat' first | with_reducible rfl | (simp; done) | split); done)
  | (unfold Dev.overflow; try dsimp only
     (repeat' first | with_reducible rfl | (simp; done) | (with_reducible refine (foldl_eng _ ?_ _ _).trans ?_ <;> try intro _ _) | dsimp only | split); done)

@[simp] theorem overflow_rings (d : Dev) (place : Event → List Event → List Event) (e : Event) : (Dev.overflow d place e).rings = d.rings := by
  first
  | (unfold Dev.overflow; simp only [write_rings, tripped_rings, setFlag_rings, bump_rings]; done)
  | (unfold Dev.overflow; with_reducible rfl)
  | (unfold Dev.overflow; simp; done)
  | (unfold Dev.overflow; (repeat' first | with_reducible rfl | (simp; done) | split); done)
  | (unfold Dev.overflow; try dsimp only
     (repeat' first | with_reducible rfl | (simp; done) | (with_reducible refine (foldl_rings _ ?_ _ _).trans ?_ <;> try intro _ _) | dsimp only | split); done)

@[simp] theorem overflow_arr (d : Dev) (place : Event → List Event → List Event) (e : Event) : (Dev.overflow d place e).arr = d.arr := by
  first
  | (unfold Dev.overflow; simp only [write_arr, tripped_arr, setFlag_arr, bump_arr]; done)
  | (unfold Dev.overflow; with_reducible rfl)
  | (unfold Dev.overflow; simp; done)
  | (unfold Dev.overflow; (repeat' first | with_reducible rfl | (simp; done) | split); done)
  | (unfold Dev.overflow; try dsimp only
     (repeat' first | with_reducible rfl | (simp; done) | (with_reducible refine (foldl_arr _ ?_ _ _).trans ?_ <;> try intro _ _) | dsimp only | split); done)

@[simp] theorem overflow_opt (d : Dev) (place : Event → List Event → List Event) (e : Event) : (Dev.overflow d place e).opt = d.opt := by
  first
  | (unfold Dev.overflow; simp only [write_opt, tripped_opt, setFlag_opt, bump_opt]; done)
  | (unfold Dev.overflow; with_reducible rfl)
  | (unfold Dev.overflow; simp; done)
  | (unfold Dev.overflow; (repeat' first | with_reducible rfl | (simp; done) | split); done)
  | (unfold Dev.overflow; try dsimp only
     (repeat' first | with_reducible rfl | (simp; done) | (with_reducible refine (foldl_opt _ ?_ _ _).trans ?_ <;> try intro _ _) | dsimp only | split); done)

@[simp] theorem overflow_disc (d : Dev) (place : Event → List Event → List Event) (e : Event) : (Dev.overflow d place e).disc = d.disc := by
  first
  | (unfold Dev.overflow; simp only [write_disc, tripped_disc, setFlag_disc, bump_disc]; done)
  | (unfold Dev.overflow; with_reducible rfl)
  | (unfold Dev.overflow; simp; done)
  | (unfold Dev.overflow; (repeat' first | with_reducible rfl | (simp; done) | split); done)
  | (unfold Dev.overflow; try dsimp only
     (repeat' first | with_reducible rfl | (simp; done) | (with_reducible refine (foldl_disc _ ?_ _ _).trans ?_ <;> try intro _ _) | dsimp only | split); done)

@[simp] theorem overflow_coll (d : Dev) (place : Event → List Event → List Event) (e : Event) : (Dev.overflow d place e).coll = d.coll := by
  first
  | (unfold Dev.overflow; simp only [write_coll, tripped_coll, setFlag_coll, bump_coll]; done)
  | (unfold Dev.overflow; with_reducible rfl)
  | (unfold Dev.overflow; simp; done)
  | (unfold Dev.overflow; (repeat' first | with_reducible rfl | (simp; done) | split); done)
  | (unfold Dev.overflow; try dsimp only
     (repeat' first | with_reducible rfl | (simp; done) | (with_reducible refine (foldl_coll _ ?_ _ _).trans ?_ <;> try intro _ _) | dsimp only | split); done)

@[simp] theorem overflow_twin (d : Dev) (place : Event → List Event → List Event) (e : Event) : (Dev.overflow d place e).twin = d.twin := by
  first
  | (unfold Dev.overflow; simp only [write_twin, tripped_twin, setFlag_twin, bump_twin]; done)
  | (unfold Dev.overflow; with_reducible rfl)
  | (unfold Dev.overflow; simp; done)
  | (unfold Dev.overflow; (repeat' first | with_reducible rfl | (simp; done) | split); done)
  | (unfold Dev.overflow; try dsimp only
     (repeat' first | with_reducible rfl | (simp; done) | (with_reducible refine (foldl_twin _ ?_ _ _).trans ?_ <;> try intro _ _) | dsimp only | split); done)

@[simp] theorem overflow_power (d : Dev) (place : Event → List Event → List Event) (e : Event) : (Dev.overflow d place e).power = d.power := by
  first
  | (unfold Dev.overflow; simp only [write_power, tripped_power, setFlag_power, bump_power]; done)
  | (unfold Dev.overflow; with_reducible rfl)
  | (unfold Dev.overflow; simp; done)
  | (unfold Dev.overflow; (repeat' first | with_reducible rfl | (simp; done) | split); done)
  | (unfold Dev.overflow; try dsimp only
     (repeat' first | with_reducible rfl | (simp; done) | (with_reducible refine (foldl_power _ ?_ _ _).trans ?_ <;> try intro _ _) | dsimp only | split); done)

@[simp] theorem overflow_ob (d : Dev) (place : Event → List Event → List Event) (e : Event) : (Dev.overflow d place e).ob = d.ob := by
  first
  | (unfold Dev.overflow; simp only [write_ob, tripped_ob, setFlag_ob, bump_ob]; done)
  | (unfold Dev.overflow; with_reducible rfl)
  | (unfold Dev.overflow; simp; done)
  | (unfold Dev.overflow; (repeat' first | with_reducible rfl | (simp; done) | split); done)
  | (unfold Dev.overflow; try dsimp only
     (repeat' first | with_reducible rfl | (simp; done) | (with_reducible refine (foldl_ob _ ?_ _ _).trans ?_ <;> try intro _ _) | dsimp only | split); done)

@[simp] theorem overflow_out (d : Dev) (place : Event → List Event → List Event) (e : Event) : (Dev.overflow d place e).out = d.out := by
  first
  | (unfold Dev.overflow; simp only [write_out, tripped_out, setFlag_out, bump_out]; done)
  | (unfold Dev.overflow; with_reducible rfl)
  | (unfold Dev.overflow; simp; done)
  | (unfold Dev.overflow; (repeat' first | with_reducible rfl | (simp; done) | split); done)
  | (unfold Dev.overflow; try dsimp only
     (repeat' first | with_reducible rfl | (simp; done) | (with_reducible refine (foldl_out _ ?_ _ _).trans ?_ <;> try intro _ _) | dsimp only | split); done)

@[simp] theorem overflow_fresh (d : Dev) (place : Event → List Event → List Event) (e : Event) : (Dev.overflow d place e).fresh = d.fresh := by
  first
  | (unfold Dev.overflow; simp only [write_fresh, tripped_fresh, setFlag_fresh, bump_fresh]; done)
  | (unfold Dev.overflow; with_reducible rfl)
  | (unfold Dev.overflow; simp; done)
  | (unfold Dev.overflow; (repeat' first | with_reducible rfl | (simp; done) | split); done)
  | (unfold Dev.overflow; try dsimp only
     (repeat' first | with_reducible rfl | (simp; done) | (with_reducible refine (foldl_fresh _ ?_ _ _).trans ?_ <;> try intro _ _) | dsimp only | split); done)

@[simp] theorem queuePeak_module (d : Dev) : (Dev.queuePeak d).module = d.module := by
  first
  | (unfold Dev.queuePeak; simp only [setNum_module]; done)
  | (unfold Dev.queuePeak; with_reducible rfl)
  | (unfold Dev.queuePeak; simp; done)
  | (unfold Dev.queuePeak; (repeat' first | with_reducible rfl | (simp; done) | split); done)
  | (unfold Dev.queuePeak; try dsimp only
     (repeat' first | with_reducible rfl | (simp; done) | (with_reducible refine (foldl_module _ ?_ _ _).trans ?_ <;> try intro _ _) | dsimp only | split); done)

@[simp] theorem queuePeak_net (d : Dev) : (Dev.queuePeak d).net = d.net := by
  first
  | (unfold Dev.queuePeak; simp only [setNum_net]; done)
  | (unfold Dev.queuePeak; with_reducible rfl)
  | (unfold Dev.queuePeak; simp; done)
  | (unfold Dev.queuePeak; (repeat' first | with_reducible rfl | (simp; done) | split); done)
  | (unfold Dev.queuePeak; try dsimp only
     (repeat' first | with_reducible rfl | (simp; done) | (with_reducible refine (foldl_net _ ?_ _ _).trans ?_ <;> try intro _ _) | dsimp only | split); done)

@[simp] theorem queuePeak_dir (d : Dev) : (Dev.queuePeak d).dir = d.dir := by
  first
  | (unfold Dev.queuePeak; simp only [setNum_dir]; done)
  | (unfold Dev.queuePeak; with_reducible rfl)
  | (unfold Dev.queuePeak; simp; done)
  | (unfold Dev.queuePeak; (repeat' first | with_reducible rfl | (simp; done) | split); done)
  | (unfold Dev.queuePeak; try dsimp only
     (repeat' first | with_reducible rfl | (simp; done) | (with_reducible refine (foldl_dir _ ?_ _ _).trans ?_ <;> try intro _ _) | dsimp only | split); done)

@[simp] theorem queuePeak_jobs (d : Dev) : (Dev.queuePeak d).jobs = d.jobs := by
  first
  | (unfold Dev.queuePeak; simp only [setNum_jobs]; done)
  | (unfold Dev.queuePeak; with_reducible rfl)
  | (unfold Dev.queuePeak; simp; done)
  | (unfold Dev.queuePeak; (repeat' first | with_reducible rfl | (simp; done) | split); done)
  | (unfold Dev.queuePeak; try dsimp only
     (repeat' first | with_reducible rfl | (simp; done) | (with_reducible refine (foldl_jobs _ ?_ _ _).trans ?_ <;> try intro _ _) | dsimp only | split); done)

@[simp] theorem queuePeak_circuits (d : Dev) : (Dev.queuePeak d).circuits = d.circuits := by
  first
  | (unfold Dev.queuePeak; simp only [setNum_circuits]; done)
  | (unfold Dev.queuePeak; with_reducible rfl)
  | (unfold Dev.queuePeak; simp; done)
  | (unfold Dev.queuePeak; (repeat' first | with_reducible rfl | (simp; done) | split); done)
  | (unfold Dev.queuePeak; try dsimp only
     (repeat' first | with_reducible rfl | (simp; done) | (with_reducible refine (foldl_circuits _ ?_ _ _).trans ?_ <;> try intro _ _) | dsimp only | split); done)

@[simp] theorem queuePeak_runs (d : Dev) : (Dev.queuePeak d).runs = d.runs := by
  first
  | (unfold Dev.queuePeak; simp only [setNum_runs]; done)
  | (unfold Dev.queuePeak; with_reducible rfl)
  | (unfold Dev.queuePeak; simp; done)
  | (unfold Dev.queuePeak; (repeat' first | with_reducible rfl | (simp; done) | split); done)
  | (unfold Dev.queuePeak; try dsimp only
     (repeat' first | with_reducible rfl | (simp; done) | (with_reducible refine (foldl_runs _ ?_ _ _).trans ?_ <;> try intro _ _) | dsimp only | split); done)

@[simp] theorem queuePeak_time (d : Dev) : (Dev.queuePeak d).time = d.time := by
  first
  | (unfold Dev.queuePeak; simp only [setNum_time]; done)
  | (unfold Dev.queuePeak; with_reducible rfl)
  | (unfold Dev.queuePeak; simp; done)
  | (unfold Dev.queuePeak; (repeat' first | with_reducible rfl | (simp; done) | split); done)
  | (unfold Dev.queuePeak; try dsimp only
     (repeat' first | with_reducible rfl | (simp; done) | (with_reducible refine (foldl_time _ ?_ _ _).trans ?_ <;> try intro _ _) | dsimp only | split); done)

@[simp] theorem queuePeak_eng (d : Dev) : (Dev.queuePeak d).eng = d.eng := by
  first
  | (unfold Dev.queuePeak; simp only [setNum_eng]; done)
  | (unfold Dev.queuePeak; with_reducible rfl)
  | (unfold Dev.queuePeak; simp; done)
  | (unfold Dev.queuePeak; (repeat' first | with_reducible rfl | (simp; done) | split); done)
  | (unfold Dev.queuePeak; try dsimp only
     (repeat' first | with_reducible rfl | (simp; done) | (with_reducible refine (foldl_eng _ ?_ _ _).trans ?_ <;> try intro _ _) | dsimp only | split); done)

@[simp] theorem queuePeak_rings (d : Dev) : (Dev.queuePeak d).rings = d.rings := by
  first
  | (unfold Dev.queuePeak; simp only [setNum_rings]; done)
  | (unfold Dev.queuePeak; with_reducible rfl)
  | (unfold Dev.queuePeak; simp; done)
  | (unfold Dev.queuePeak; (repeat' first | with_reducible rfl | (simp; done) | split); done)
  | (unfold Dev.queuePeak; try dsimp only
     (repeat' first | with_reducible rfl | (simp; done) | (with_reducible refine (foldl_rings _ ?_ _ _).trans ?_ <;> try intro _ _) | dsimp only | split); done)

@[simp] theorem queuePeak_arr (d : Dev) : (Dev.queuePeak d).arr = d.arr := by
  first
  | (unfold Dev.queuePeak; simp only [setNum_arr]; done)
  | (unfold Dev.queuePeak; with_reducible rfl)
  | (unfold Dev.queuePeak; simp; done)
  | (unfold Dev.queuePeak; (repeat' first | with_reducible rfl | (simp; done) | split); done)
  | (unfold Dev.queuePeak; try dsimp only
     (repeat' first | with_reducible rfl | (simp; done) | (with_reducible refine (foldl_arr _ ?_ _ _).trans ?_ <;> try intro _ _) | dsimp only | split); done)

@[simp] theorem queuePeak_opt (d : Dev) : (Dev.queuePeak d).opt = d.opt := by
  first
  | (unfold Dev.queuePeak; simp only [setNum_opt]; done)
  | (unfold Dev.queuePeak; with_reducible rfl)
  | (unfold Dev.queuePeak; simp; done)
  | (unfold Dev.queuePeak; (repeat' first | with_reducible rfl | (simp; done) | split); done)
  | (unfold Dev.queuePeak; try dsimp only
     (repeat' first | with_reducible rfl | (simp; done) | (with_reducible refine (foldl_opt _ ?_ _ _).trans ?_ <;> try intro _ _) | dsimp only | split); done)

@[simp] theorem queuePeak_disc (d : Dev) : (Dev.queuePeak d).disc = d.disc := by
  first
  | (unfold Dev.queuePeak; simp only [setNum_disc]; done)
  | (unfold Dev.queuePeak; with_reducible rfl)
  | (unfold Dev.queuePeak; simp; done)
  | (unfold Dev.queuePeak; (repeat' first | with_reducible rfl | (simp; done) | split); done)
  | (unfold Dev.queuePeak; try dsimp only
     (repeat' first | with_reducible rfl | (simp; done) | (with_reducible refine (foldl_disc _ ?_ _ _).trans ?_ <;> try intro _ _) | dsimp only | split); done)

@[simp] theorem queuePeak_coll (d : Dev) : (Dev.queuePeak d).coll = d.coll := by
  first
  | (unfold Dev.queuePeak; simp only [setNum_coll]; done)
  | (unfold Dev.queuePeak; with_reducible rfl)
  | (unfold Dev.queuePeak; simp; done)
  | (unfold Dev.queuePeak; (repeat' first | with_reducible rfl | (simp; done) | split); done)
  | (unfold Dev.queuePeak; try dsimp only
     (repeat' first | with_reducible rfl | (simp; done) | (with_reducible refine (foldl_coll _ ?_ _ _).trans ?_ <;> try intro _ _) | dsimp only | split); done)

@[simp] theorem queuePeak_mem (d : Dev) : (Dev.queuePeak d).mem = d.mem := by
  first
  | (unfold Dev.queuePeak; simp only [setNum_mem]; done)
  | (unfold Dev.queuePeak; with_reducible rfl)
  | (unfold Dev.queuePeak; simp; done)
  | (unfold Dev.queuePeak; (repeat' first | with_reducible rfl | (simp; done) | split); done)
  | (unfold Dev.queuePeak; try dsimp only
     (repeat' first | with_reducible rfl | (simp; done) | (with_reducible refine (foldl_mem _ ?_ _ _).trans ?_ <;> try intro _ _) | dsimp only | split); done)

@[simp] theorem queuePeak_faults (d : Dev) : (Dev.queuePeak d).faults = d.faults := by
  first
  | (unfold Dev.queuePeak; simp only [setNum_faults]; done)
  | (unfold Dev.queuePeak; with_reducible rfl)
  | (unfold Dev.queuePeak; simp; done)
  | (unfold Dev.queuePeak; (repeat' first | with_reducible rfl | (simp; done) | split); done)
  | (unfold Dev.queuePeak; try dsimp only
     (repeat' first | with_reducible rfl | (simp; done) | (with_reducible refine (foldl_faults _ ?_ _ _).trans ?_ <;> try intro _ _) | dsimp only | split); done)

@[simp] theorem queuePeak_twin (d : Dev) : (Dev.queuePeak d).twin = d.twin := by
  first
  | (unfold Dev.queuePeak; simp only [setNum_twin]; done)
  | (unfold Dev.queuePeak; with_reducible rfl)
  | (unfold Dev.queuePeak; simp; done)
  | (unfold Dev.queuePeak; (repeat' first | with_reducible rfl | (simp; done) | split); done)
  | (unfold Dev.queuePeak; try dsimp only
     (repeat' first | with_reducible rfl | (simp; done) | (with_reducible refine (foldl_twin _ ?_ _ _).trans ?_ <;> try intro _ _) | dsimp only | split); done)

@[simp] theorem queuePeak_power (d : Dev) : (Dev.queuePeak d).power = d.power := by
  first
  | (unfold Dev.queuePeak; simp only [setNum_power]; done)
  | (unfold Dev.queuePeak; with_reducible rfl)
  | (unfold Dev.queuePeak; simp; done)
  | (unfold Dev.queuePeak; (repeat' first | with_reducible rfl | (simp; done) | split); done)
  | (unfold Dev.queuePeak; try dsimp only
     (repeat' first | with_reducible rfl | (simp; done) | (with_reducible refine (foldl_power _ ?_ _ _).trans ?_ <;> try intro _ _) | dsimp only | split); done)

@[simp] theorem queuePeak_upd (d : Dev) : (Dev.queuePeak d).upd = d.upd := by
  first
  | (unfold Dev.queuePeak; simp only [setNum_upd]; done)
  | (unfold Dev.queuePeak; with_reducible rfl)
  | (unfold Dev.queuePeak; simp; done)
  | (unfold Dev.queuePeak; (repeat' first | with_reducible rfl | (simp; done) | split); done)
  | (unfold Dev.queuePeak; try dsimp only
     (repeat' first | with_reducible rfl | (simp; done) | (with_reducible refine (foldl_upd _ ?_ _ _).trans ?_ <;> try intro _ _) | dsimp only | split); done)

@[simp] theorem queuePeak_recr (d : Dev) : (Dev.queuePeak d).recr = d.recr := by
  first
  | (unfold Dev.queuePeak; simp only [setNum_recr]; done)
  | (unfold Dev.queuePeak; with_reducible rfl)
  | (unfold Dev.queuePeak; simp; done)
  | (unfold Dev.queuePeak; (repeat' first | with_reducible rfl | (simp; done) | split); done)
  | (unfold Dev.queuePeak; try dsimp only
     (repeat' first | with_reducible rfl | (simp; done) | (with_reducible refine (foldl_recr _ ?_ _ _).trans ?_ <;> try intro _ _) | dsimp only | split); done)

@[simp] theorem queuePeak_ob (d : Dev) : (Dev.queuePeak d).ob = d.ob := by
  first
  | (unfold Dev.queuePeak; simp only [setNum_ob]; done)
  | (unfold Dev.queuePeak; with_reducible rfl)
  | (unfold Dev.queuePeak; simp; done)
  | (unfold Dev.queuePeak; (repeat' first | with_reducible rfl | (simp; done) | split); done)
  | (unfold Dev.queuePeak; try dsimp only
     (repeat' first | with_reducible rfl | (simp; done) | (with_reducible refine (foldl_ob _ ?_ _ _).trans ?_ <;> try intro _ _) | dsimp only | split); done)

@[simp] theorem queuePeak_out (d : Dev) : (Dev.queuePeak d).out = d.out := by
  first
  | (unfold Dev.queuePeak; simp only [setNum_out]; done)
  | (unfold Dev.queuePeak; with_reducible rfl)
  | (unfold Dev.queuePeak; simp; done)
  | (unfold Dev.queuePeak; (repeat' first | with_reducible rfl | (simp; done) | split); done)
  | (unfold Dev.queuePeak; try dsimp only
     (repeat' first | with_reducible rfl | (simp; done) | (with_reducible refine (foldl_out _ ?_ _ _).trans ?_ <;> try intro _ _) | dsimp only | split); done)

@[simp] theorem queuePeak_fresh (d : Dev) : (Dev.queuePeak d).fresh = d.fresh := by
  first
  | (unfold Dev.queuePeak; simp only [setNum_fresh]; done)
  | (unfold Dev.queuePeak; with_reducible rfl)
  | (unfold Dev.queuePeak; simp; done)
  | (unfold Dev.queuePeak; (repeat' first | with_reducible rfl | (simp; done) | split); done)
  | (unfold Dev.queuePeak; try dsimp only
     (repeat' first | with_reducible rfl | (simp; done) | (with_reducible refine (foldl_fresh _ ?_ _ _).trans ?_ <;> try intro _ _) | dsimp only | split); done)

/-- An overflow raises 0x0101, of class 3: the soak is broken, and nothing else of the update unit changes (R318, R407). -/
theorem overflow_upd (d : Dev) (place : Event → List Event → List Event) (e : Event) : (d.overflow place e).upd = { d.upd with soakBroken := true } := by
  simp [Dev.overflow, breakSoak_upd]

/-- An event of class 3 or 4 that enters the queue has broken the soak (R407). -/
theorem enqueue_soak (d : Dev) (e : Event) (on : d.isOn 1 = true) (h : 3 ≤ e.cls) : (d.enqueue e).upd.soakBroken = true := by
  unfold Dev.enqueue
  simp only [on, Bool.not_true, Bool.false_eq_true, if_false]
  repeat' first | (simp [breakSoak_upd, overflow_upd, h]; done) | split

@[simp] theorem enqueue_module (d : Dev) (e : Event) : (Dev.enqueue d e).module = d.module := by
  first
  | (unfold Dev.enqueue; simp only [tripped_module, bump_module, takeHead_module, overflow_module, queuePeak_module]; done)
  | (unfold Dev.enqueue; with_reducible rfl)
  | (unfold Dev.enqueue; simp; done)
  | (unfold Dev.enqueue; (repeat' first | with_reducible rfl | (simp; done) | split); done)
  | (unfold Dev.enqueue; try dsimp only
     (repeat' first | with_reducible rfl | (simp; done) | (with_reducible refine (foldl_module _ ?_ _ _).trans ?_ <;> try intro _ _) | dsimp only | split); done)

@[simp] theorem enqueue_net (d : Dev) (e : Event) : (Dev.enqueue d e).net = d.net := by
  first
  | (unfold Dev.enqueue; simp only [tripped_net, bump_net, takeHead_net, overflow_net, queuePeak_net]; done)
  | (unfold Dev.enqueue; with_reducible rfl)
  | (unfold Dev.enqueue; simp; done)
  | (unfold Dev.enqueue; (repeat' first | with_reducible rfl | (simp; done) | split); done)
  | (unfold Dev.enqueue; try dsimp only
     (repeat' first | with_reducible rfl | (simp; done) | (with_reducible refine (foldl_net _ ?_ _ _).trans ?_ <;> try intro _ _) | dsimp only | split); done)

@[simp] theorem enqueue_dir (d : Dev) (e : Event) : (Dev.enqueue d e).dir = d.dir := by
  first
  | (unfold Dev.enqueue; simp only [tripped_dir, bump_dir, takeHead_dir, overflow_dir, queuePeak_dir]; done)
  | (unfold Dev.enqueue; with_reducible rfl)
  | (unfold Dev.enqueue; simp; done)
  | (unfold Dev.enqueue; (repeat' first | with_reducible rfl | (simp; done) | split); done)
  | (unfold Dev.enqueue; try dsimp only
     (repeat' first | with_reducible rfl | (simp; done) | (with_reducible refine (foldl_dir _ ?_ _ _).trans ?_ <;> try intro _ _) | dsimp only | split); done)

@[simp] theorem enqueue_jobs (d : Dev) (e : Event) : (Dev.enqueue d e).jobs = d.jobs := by
  first
  | (unfold Dev.enqueue; simp only [tripped_jobs, bump_jobs, takeHead_jobs, overflow_jobs, queuePeak_jobs]; done)
  | (unfold Dev.enqueue; with_reducible rfl)
  | (unfold Dev.enqueue; simp; done)
  | (unfold Dev.enqueue; (repeat' first | with_reducible rfl | (simp; done) | split); done)
  | (unfold Dev.enqueue; try dsimp only
     (repeat' first | with_reducible rfl | (simp; done) | (with_reducible refine (foldl_jobs _ ?_ _ _).trans ?_ <;> try intro _ _) | dsimp only | split); done)

@[simp] theorem enqueue_circuits (d : Dev) (e : Event) : (Dev.enqueue d e).circuits = d.circuits := by
  first
  | (unfold Dev.enqueue; simp only [tripped_circuits, bump_circuits, takeHead_circuits, overflow_circuits, queuePeak_circuits]; done)
  | (unfold Dev.enqueue; with_reducible rfl)
  | (unfold Dev.enqueue; simp; done)
  | (unfold Dev.enqueue; (repeat' first | with_reducible rfl | (simp; done) | split); done)
  | (unfold Dev.enqueue; try dsimp only
     (repeat' first | with_reducible rfl | (simp; done) | (with_reducible refine (foldl_circuits _ ?_ _ _).trans ?_ <;> try intro _ _) | dsimp only | split); done)

@[simp] theorem enqueue_runs (d : Dev) (e : Event) : (Dev.enqueue d e).runs = d.runs := by
  first
  | (unfold Dev.enqueue; simp only [tripped_runs, bump_runs, takeHead_runs, overflow_runs, queuePeak_runs]; done)
  | (unfold Dev.enqueue; with_reducible rfl)
  | (unfold Dev.enqueue; simp; done)
  | (unfold Dev.enqueue; (repeat' first | with_reducible rfl | (simp; done) | split); done)
  | (unfold Dev.enqueue; try dsimp only
     (repeat' first | with_reducible rfl | (simp; done) | (with_reducible refine (foldl_runs _ ?_ _ _).trans ?_ <;> try intro _ _) | dsimp only | split); done)

@[simp] theorem enqueue_time (d : Dev) (e : Event) : (Dev.enqueue d e).time = d.time := by
  first
  | (unfold Dev.enqueue; simp only [tripped_time, bump_time, takeHead_time, overflow_time, queuePeak_time]; done)
  | (unfold Dev.enqueue; with_reducible rfl)
  | (unfold Dev.enqueue; simp; done)
  | (unfold Dev.enqueue; (repeat' first | with_reducible rfl | (simp; done) | split); done)
  | (unfold Dev.enqueue; try dsimp only
     (repeat' first | with_reducible rfl | (simp; done) | (with_reducible refine (foldl_time _ ?_ _ _).trans ?_ <;> try intro _ _) | dsimp only | split); done)

@[simp] theorem enqueue_eng (d : Dev) (e : Event) : (Dev.enqueue d e).eng = d.eng := by
  first
  | (unfold Dev.enqueue; simp only [tripped_eng, bump_eng, takeHead_eng, overflow_eng, queuePeak_eng]; done)
  | (unfold Dev.enqueue; with_reducible rfl)
  | (unfold Dev.enqueue; simp; done)
  | (unfold Dev.enqueue; (repeat' first | with_reducible rfl | (simp; done) | split); done)
  | (unfold Dev.enqueue; try dsimp only
     (repeat' first | with_reducible rfl | (simp; done) | (with_reducible refine (foldl_eng _ ?_ _ _).trans ?_ <;> try intro _ _) | dsimp only | split); done)

@[simp] theorem enqueue_rings (d : Dev) (e : Event) : (Dev.enqueue d e).rings = d.rings := by
  first
  | (unfold Dev.enqueue; simp only [tripped_rings, bump_rings, takeHead_rings, overflow_rings, queuePeak_rings]; done)
  | (unfold Dev.enqueue; with_reducible rfl)
  | (unfold Dev.enqueue; simp; done)
  | (unfold Dev.enqueue; (repeat' first | with_reducible rfl | (simp; done) | split); done)
  | (unfold Dev.enqueue; try dsimp only
     (repeat' first | with_reducible rfl | (simp; done) | (with_reducible refine (foldl_rings _ ?_ _ _).trans ?_ <;> try intro _ _) | dsimp only | split); done)

@[simp] theorem enqueue_arr (d : Dev) (e : Event) : (Dev.enqueue d e).arr = d.arr := by
  first
  | (unfold Dev.enqueue; simp only [tripped_arr, bump_arr, takeHead_arr, overflow_arr, queuePeak_arr]; done)
  | (unfold Dev.enqueue; with_reducible rfl)
  | (unfold Dev.enqueue; simp; done)
  | (unfold Dev.enqueue; (repeat' first | with_reducible rfl | (simp; done) | split); done)
  | (unfold Dev.enqueue; try dsimp only
     (repeat' first | with_reducible rfl | (simp; done) | (with_reducible refine (foldl_arr _ ?_ _ _).trans ?_ <;> try intro _ _) | dsimp only | split); done)

@[simp] theorem enqueue_opt (d : Dev) (e : Event) : (Dev.enqueue d e).opt = d.opt := by
  first
  | (unfold Dev.enqueue; simp only [tripped_opt, bump_opt, takeHead_opt, overflow_opt, queuePeak_opt]; done)
  | (unfold Dev.enqueue; with_reducible rfl)
  | (unfold Dev.enqueue; simp; done)
  | (unfold Dev.enqueue; (repeat' first | with_reducible rfl | (simp; done) | split); done)
  | (unfold Dev.enqueue; try dsimp only
     (repeat' first | with_reducible rfl | (simp; done) | (with_reducible refine (foldl_opt _ ?_ _ _).trans ?_ <;> try intro _ _) | dsimp only | split); done)

@[simp] theorem enqueue_disc (d : Dev) (e : Event) : (Dev.enqueue d e).disc = d.disc := by
  first
  | (unfold Dev.enqueue; simp only [tripped_disc, bump_disc, takeHead_disc, overflow_disc, queuePeak_disc]; done)
  | (unfold Dev.enqueue; with_reducible rfl)
  | (unfold Dev.enqueue; simp; done)
  | (unfold Dev.enqueue; (repeat' first | with_reducible rfl | (simp; done) | split); done)
  | (unfold Dev.enqueue; try dsimp only
     (repeat' first | with_reducible rfl | (simp; done) | (with_reducible refine (foldl_disc _ ?_ _ _).trans ?_ <;> try intro _ _) | dsimp only | split); done)

@[simp] theorem enqueue_coll (d : Dev) (e : Event) : (Dev.enqueue d e).coll = d.coll := by
  first
  | (unfold Dev.enqueue; simp only [tripped_coll, bump_coll, takeHead_coll, overflow_coll, queuePeak_coll]; done)
  | (unfold Dev.enqueue; with_reducible rfl)
  | (unfold Dev.enqueue; simp; done)
  | (unfold Dev.enqueue; (repeat' first | with_reducible rfl | (simp; done) | split); done)
  | (unfold Dev.enqueue; try dsimp only
     (repeat' first | with_reducible rfl | (simp; done) | (with_reducible refine (foldl_coll _ ?_ _ _).trans ?_ <;> try intro _ _) | dsimp only | split); done)

@[simp] theorem enqueue_twin (d : Dev) (e : Event) : (Dev.enqueue d e).twin = d.twin := by
  first
  | (unfold Dev.enqueue; simp only [tripped_twin, bump_twin, takeHead_twin, overflow_twin, queuePeak_twin]; done)
  | (unfold Dev.enqueue; with_reducible rfl)
  | (unfold Dev.enqueue; simp; done)
  | (unfold Dev.enqueue; (repeat' first | with_reducible rfl | (simp; done) | split); done)
  | (unfold Dev.enqueue; try dsimp only
     (repeat' first | with_reducible rfl | (simp; done) | (with_reducible refine (foldl_twin _ ?_ _ _).trans ?_ <;> try intro _ _) | dsimp only | split); done)

@[simp] theorem enqueue_power (d : Dev) (e : Event) : (Dev.enqueue d e).power = d.power := by
  first
  | (unfold Dev.enqueue; simp only [tripped_power, bump_power, takeHead_power, overflow_power, queuePeak_power]; done)
  | (unfold Dev.enqueue; with_reducible rfl)
  | (unfold Dev.enqueue; simp; done)
  | (unfold Dev.enqueue; (repeat' first | with_reducible rfl | (simp; done) | split); done)
  | (unfold Dev.enqueue; try dsimp only
     (repeat' first | with_reducible rfl | (simp; done) | (with_reducible refine (foldl_power _ ?_ _ _).trans ?_ <;> try intro _ _) | dsimp only | split); done)

@[simp] theorem enqueue_ob (d : Dev) (e : Event) : (Dev.enqueue d e).ob = d.ob := by
  first
  | (unfold Dev.enqueue; simp only [tripped_ob, bump_ob, takeHead_ob, overflow_ob, queuePeak_ob]; done)
  | (unfold Dev.enqueue; with_reducible rfl)
  | (unfold Dev.enqueue; simp; done)
  | (unfold Dev.enqueue; (repeat' first | with_reducible rfl | (simp; done) | split); done)
  | (unfold Dev.enqueue; try dsimp only
     (repeat' first | with_reducible rfl | (simp; done) | (with_reducible refine (foldl_ob _ ?_ _ _).trans ?_ <;> try intro _ _) | dsimp only | split); done)

@[simp] theorem enqueue_out (d : Dev) (e : Event) : (Dev.enqueue d e).out = d.out := by
  first
  | (unfold Dev.enqueue; simp only [tripped_out, bump_out, takeHead_out, overflow_out, queuePeak_out]; done)
  | (unfold Dev.enqueue; with_reducible rfl)
  | (unfold Dev.enqueue; simp; done)
  | (unfold Dev.enqueue; (repeat' first | with_reducible rfl | (simp; done) | split); done)
  | (unfold Dev.enqueue; try dsimp only
     (repeat' first | with_reducible rfl | (simp; done) | (with_reducible refine (foldl_out _ ?_ _ _).trans ?_ <;> try intro _ _) | dsimp only | split); done)

@[simp] theorem enqueue_fresh (d : Dev) (e : Event) : (Dev.enqueue d e).fresh = d.fresh := by
  first
  | (unfold Dev.enqueue; simp only [tripped_fresh, bump_fresh, takeHead_fresh, overflow_fresh, queuePeak_fresh]; done)
  | (unfold Dev.enqueue; with_reducible rfl)
  | (unfold Dev.enqueue; simp; done)
  | (unfold Dev.enqueue; (repeat' first | with_reducible rfl | (simp; done) | split); done)
  | (unfold Dev.enqueue; try dsimp only
     (repeat' first | with_reducible rfl | (simp; done) | (with_reducible refine (foldl_fresh _ ?_ _ _).trans ?_ <;> try intro _ _) | dsimp only | split); done)

/-- An event of class 3 or 4 breaks the health soak of a trial (R407). -/
theorem raise_soak (d : Dev) (code cls scope index : Nat) (active : Bool) (detail : Bytes) (on : d.isOn 1 = true) (h : 3 ≤ cls) :
    (d.raise code cls scope index active detail).upd.soakBroken = true := by
  have h0 : cls ≠ 0 := by omega
  rw [Dev.raise, if_neg h0]
  exact enqueue_soak _ _ on h

@[simp] theorem raiseAt_module (d : Dev) (t code cls scope index : Nat) (active : Bool) (detail : Bytes) : (Dev.raiseAt d t code cls scope index active detail).module = d.module := by
  first
  | (unfold Dev.raiseAt; with_reducible rfl)
  | (unfold Dev.raiseAt; simp; done)
  | (unfold Dev.raiseAt; (repeat' first | with_reducible rfl | (simp; done) | split); done)
  | (unfold Dev.raiseAt; try dsimp only
     (repeat' first | with_reducible rfl | (simp; done) | (with_reducible refine (foldl_module _ ?_ _ _).trans ?_ <;> try intro _ _) | dsimp only | split); done)

@[simp] theorem raiseAt_net (d : Dev) (t code cls scope index : Nat) (active : Bool) (detail : Bytes) : (Dev.raiseAt d t code cls scope index active detail).net = d.net := by
  first
  | (unfold Dev.raiseAt; with_reducible rfl)
  | (unfold Dev.raiseAt; simp; done)
  | (unfold Dev.raiseAt; (repeat' first | with_reducible rfl | (simp; done) | split); done)
  | (unfold Dev.raiseAt; try dsimp only
     (repeat' first | with_reducible rfl | (simp; done) | (with_reducible refine (foldl_net _ ?_ _ _).trans ?_ <;> try intro _ _) | dsimp only | split); done)

@[simp] theorem raiseAt_dir (d : Dev) (t code cls scope index : Nat) (active : Bool) (detail : Bytes) : (Dev.raiseAt d t code cls scope index active detail).dir = d.dir := by
  first
  | (unfold Dev.raiseAt; with_reducible rfl)
  | (unfold Dev.raiseAt; simp; done)
  | (unfold Dev.raiseAt; (repeat' first | with_reducible rfl | (simp; done) | split); done)
  | (unfold Dev.raiseAt; try dsimp only
     (repeat' first | with_reducible rfl | (simp; done) | (with_reducible refine (foldl_dir _ ?_ _ _).trans ?_ <;> try intro _ _) | dsimp only | split); done)

@[simp] theorem raiseAt_jobs (d : Dev) (t code cls scope index : Nat) (active : Bool) (detail : Bytes) : (Dev.raiseAt d t code cls scope index active detail).jobs = d.jobs := by
  first
  | (unfold Dev.raiseAt; with_reducible rfl)
  | (unfold Dev.raiseAt; simp; done)
  | (unfold Dev.raiseAt; (repeat' first | with_reducible rfl | (simp; done) | split); done)
  | (unfold Dev.raiseAt; try dsimp only
     (repeat' first | with_reducible rfl | (simp; done) | (with_reducible refine (foldl_jobs _ ?_ _ _).trans ?_ <;> try intro _ _) | dsimp only | split); done)

@[simp] theorem raiseAt_circuits (d : Dev) (t code cls scope index : Nat) (active : Bool) (detail : Bytes) : (Dev.raiseAt d t code cls scope index active detail).circuits = d.circuits := by
  first
  | (unfold Dev.raiseAt; with_reducible rfl)
  | (unfold Dev.raiseAt; simp; done)
  | (unfold Dev.raiseAt; (repeat' first | with_reducible rfl | (simp; done) | split); done)
  | (unfold Dev.raiseAt; try dsimp only
     (repeat' first | with_reducible rfl | (simp; done) | (with_reducible refine (foldl_circuits _ ?_ _ _).trans ?_ <;> try intro _ _) | dsimp only | split); done)

@[simp] theorem raiseAt_runs (d : Dev) (t code cls scope index : Nat) (active : Bool) (detail : Bytes) : (Dev.raiseAt d t code cls scope index active detail).runs = d.runs := by
  first
  | (unfold Dev.raiseAt; with_reducible rfl)
  | (unfold Dev.raiseAt; simp; done)
  | (unfold Dev.raiseAt; (repeat' first | with_reducible rfl | (simp; done) | split); done)
  | (unfold Dev.raiseAt; try dsimp only
     (repeat' first | with_reducible rfl | (simp; done) | (with_reducible refine (foldl_runs _ ?_ _ _).trans ?_ <;> try intro _ _) | dsimp only | split); done)

@[simp] theorem raiseAt_time (d : Dev) (t code cls scope index : Nat) (active : Bool) (detail : Bytes) : (Dev.raiseAt d t code cls scope index active detail).time = d.time := by
  first
  | (unfold Dev.raiseAt; with_reducible rfl)
  | (unfold Dev.raiseAt; simp; done)
  | (unfold Dev.raiseAt; (repeat' first | with_reducible rfl | (simp; done) | split); done)
  | (unfold Dev.raiseAt; try dsimp only
     (repeat' first | with_reducible rfl | (simp; done) | (with_reducible refine (foldl_time _ ?_ _ _).trans ?_ <;> try intro _ _) | dsimp only | split); done)

@[simp] theorem raiseAt_eng (d : Dev) (t code cls scope index : Nat) (active : Bool) (detail : Bytes) : (Dev.raiseAt d t code cls scope index active detail).eng = d.eng := by
  first
  | (unfold Dev.raiseAt; with_reducible rfl)
  | (unfold Dev.raiseAt; simp; done)
  | (unfold Dev.raiseAt; (repeat' first | with_reducible rfl | (simp; done) | split); done)
  | (unfold Dev.raiseAt; try dsimp only
     (repeat' first | with_reducible rfl | (simp; done) | (with_reducible refine (foldl_eng _ ?_ _ _).trans ?_ <;> try intro _ _) | dsimp only | split); done)

@[simp] theorem raiseAt_rings (d : Dev) (t code cls scope index : Nat) (active : Bool) (detail : Bytes) : (Dev.raiseAt d t code cls scope index active detail).rings = d.rings := by
  first
  | (unfold Dev.raiseAt; with_reducible rfl)
  | (unfold Dev.raiseAt; simp; done)
  | (unfold Dev.raiseAt; (repeat' first | with_reducible rfl | (simp; done) | split); done)
  | (unfold Dev.raiseAt; try dsimp only
     (repeat' first | with_reducible rfl | (simp; done) | (with_reducible refine (foldl_rings _ ?_ _ _).trans ?_ <;> try intro _ _) | dsimp only | split); done)

@[simp] theorem raiseAt_arr (d : Dev) (t code cls scope index : Nat) (active : Bool) (detail : Bytes) : (Dev.raiseAt d t code cls scope index active detail).arr = d.arr := by
  first
  | (unfold Dev.raiseAt; with_reducible rfl)
  | (unfold Dev.raiseAt; simp; done)
  | (unfold Dev.raiseAt; (repeat' first | with_reducible rfl | (simp; done) | split); done)
  | (unfold Dev.raiseAt; try dsimp only
     (repeat' first | with_reducible rfl | (simp; done) | (with_reducible refine (foldl_arr _ ?_ _ _).trans ?_ <;> try intro _ _) | dsimp only | split); done)

@[simp] theorem raiseAt_opt (d : Dev) (t code cls scope index : Nat) (active : Bool) (detail : Bytes) : (Dev.raiseAt d t code cls scope index active detail).opt = d.opt := by
  first
  | (unfold Dev.raiseAt; with_reducible rfl)
  | (unfold Dev.raiseAt; simp; done)
  | (unfold Dev.raiseAt; (repeat' first | with_reducible rfl | (simp; done) | split); done)
  | (unfold Dev.raiseAt; try dsimp only
     (repeat' first | with_reducible rfl | (simp; done) | (with_reducible refine (foldl_opt _ ?_ _ _).trans ?_ <;> try intro _ _) | dsimp only | split); done)

@[simp] theorem raiseAt_disc (d : Dev) (t code cls scope index : Nat) (active : Bool) (detail : Bytes) : (Dev.raiseAt d t code cls scope index active detail).disc = d.disc := by
  first
  | (unfold Dev.raiseAt; with_reducible rfl)
  | (unfold Dev.raiseAt; simp; done)
  | (unfold Dev.raiseAt; (repeat' first | with_reducible rfl | (simp; done) | split); done)
  | (unfold Dev.raiseAt; try dsimp only
     (repeat' first | with_reducible rfl | (simp; done) | (with_reducible refine (foldl_disc _ ?_ _ _).trans ?_ <;> try intro _ _) | dsimp only | split); done)

@[simp] theorem raiseAt_coll (d : Dev) (t code cls scope index : Nat) (active : Bool) (detail : Bytes) : (Dev.raiseAt d t code cls scope index active detail).coll = d.coll := by
  first
  | (unfold Dev.raiseAt; with_reducible rfl)
  | (unfold Dev.raiseAt; simp; done)
  | (unfold Dev.raiseAt; (repeat' first | with_reducible rfl | (simp; done) | split); done)
  | (unfold Dev.raiseAt; try dsimp only
     (repeat' first | with_reducible rfl | (simp; done) | (with_reducible refine (foldl_coll _ ?_ _ _).trans ?_ <;> try intro _ _) | dsimp only | split); done)

@[simp] theorem raiseAt_twin (d : Dev) (t code cls scope index : Nat) (active : Bool) (detail : Bytes) : (Dev.raiseAt d t code cls scope index active detail).twin = d.twin := by
  first
  | (unfold Dev.raiseAt; with_reducible rfl)
  | (unfold Dev.raiseAt; simp; done)
  | (unfold Dev.raiseAt; (repeat' first | with_reducible rfl | (simp; done) | split); done)
  | (unfold Dev.raiseAt; try dsimp only
     (repeat' first | with_reducible rfl | (simp; done) | (with_reducible refine (foldl_twin _ ?_ _ _).trans ?_ <;> try intro _ _) | dsimp only | split); done)

@[simp] theorem raiseAt_power (d : Dev) (t code cls scope index : Nat) (active : Bool) (detail : Bytes) : (Dev.raiseAt d t code cls scope index active detail).power = d.power := by
  first
  | (unfold Dev.raiseAt; with_reducible rfl)
  | (unfold Dev.raiseAt; simp; done)
  | (unfold Dev.raiseAt; (repeat' first | with_reducible rfl | (simp; done) | split); done)
  | (unfold Dev.raiseAt; try dsimp only
     (repeat' first | with_reducible rfl | (simp; done) | (with_reducible refine (foldl_power _ ?_ _ _).trans ?_ <;> try intro _ _) | dsimp only | split); done)

@[simp] theorem raiseAt_ob (d : Dev) (t code cls scope index : Nat) (active : Bool) (detail : Bytes) : (Dev.raiseAt d t code cls scope index active detail).ob = d.ob := by
  first
  | (unfold Dev.raiseAt; with_reducible rfl)
  | (unfold Dev.raiseAt; simp; done)
  | (unfold Dev.raiseAt; (repeat' first | with_reducible rfl | (simp; done) | split); done)
  | (unfold Dev.raiseAt; try dsimp only
     (repeat' first | with_reducible rfl | (simp; done) | (with_reducible refine (foldl_ob _ ?_ _ _).trans ?_ <;> try intro _ _) | dsimp only | split); done)

@[simp] theorem raiseAt_out (d : Dev) (t code cls scope index : Nat) (active : Bool) (detail : Bytes) : (Dev.raiseAt d t code cls scope index active detail).out = d.out := by
  first
  | (unfold Dev.raiseAt; with_reducible rfl)
  | (unfold Dev.raiseAt; simp; done)
  | (unfold Dev.raiseAt; (repeat' first | with_reducible rfl | (simp; done) | split); done)
  | (unfold Dev.raiseAt; try dsimp only
     (repeat' first | with_reducible rfl | (simp; done) | (with_reducible refine (foldl_out _ ?_ _ _).trans ?_ <;> try intro _ _) | dsimp only | split); done)

@[simp] theorem raiseAt_fresh (d : Dev) (t code cls scope index : Nat) (active : Bool) (detail : Bytes) : (Dev.raiseAt d t code cls scope index active detail).fresh = d.fresh := by
  first
  | (unfold Dev.raiseAt; with_reducible rfl)
  | (unfold Dev.raiseAt; simp; done)
  | (unfold Dev.raiseAt; (repeat' first | with_reducible rfl | (simp; done) | split); done)
  | (unfold Dev.raiseAt; try dsimp only
     (repeat' first | with_reducible rfl | (simp; done) | (with_reducible refine (foldl_fresh _ ?_ _ _).trans ?_ <;> try intro _ _) | dsimp only | split); done)

@[simp] theorem raise_module (d : Dev) (code cls scope index : Nat) (active : Bool) (detail : Bytes) : (Dev.raise d code cls scope index active detail).module = d.module := by
  first
  | (unfold Dev.raise; simp only [info_module, enqueue_module]; done)
  | (unfold Dev.raise; with_reducible rfl)
  | (unfold Dev.raise; simp; done)
  | (unfold Dev.raise; (repeat' first | with_reducible rfl | (simp; done) | split); done)
  | (unfold Dev.raise; try dsimp only
     (repeat' first | with_reducible rfl | (simp; done) | (with_reducible refine (foldl_module _ ?_ _ _).trans ?_ <;> try intro _ _) | dsimp only | split); done)

@[simp] theorem raise_net (d : Dev) (code cls scope index : Nat) (active : Bool) (detail : Bytes) : (Dev.raise d code cls scope index active detail).net = d.net := by
  first
  | (unfold Dev.raise; simp only [info_net, enqueue_net]; done)
  | (unfold Dev.raise; with_reducible rfl)
  | (unfold Dev.raise; simp; done)
  | (unfold Dev.raise; (repeat' first | with_reducible rfl | (simp; done) | split); done)
  | (unfold Dev.raise; try dsimp only
     (repeat' first | with_reducible rfl | (simp; done) | (with_reducible refine (foldl_net _ ?_ _ _).trans ?_ <;> try intro _ _) | dsimp only | split); done)

@[simp] theorem raise_dir (d : Dev) (code cls scope index : Nat) (active : Bool) (detail : Bytes) : (Dev.raise d code cls scope index active detail).dir = d.dir := by
  first
  | (unfold Dev.raise; simp only [info_dir, enqueue_dir]; done)
  | (unfold Dev.raise; with_reducible rfl)
  | (unfold Dev.raise; simp; done)
  | (unfold Dev.raise; (repeat' first | with_reducible rfl | (simp; done) | split); done)
  | (unfold Dev.raise; try dsimp only
     (repeat' first | with_reducible rfl | (simp; done) | (with_reducible refine (foldl_dir _ ?_ _ _).trans ?_ <;> try intro _ _) | dsimp only | split); done)

@[simp] theorem raise_jobs (d : Dev) (code cls scope index : Nat) (active : Bool) (detail : Bytes) : (Dev.raise d code cls scope index active detail).jobs = d.jobs := by
  first
  | (unfold Dev.raise; simp only [info_jobs, enqueue_jobs]; done)
  | (unfold Dev.raise; with_reducible rfl)
  | (unfold Dev.raise; simp; done)
  | (unfold Dev.raise; (repeat' first | with_reducible rfl | (simp; done) | split); done)
  | (unfold Dev.raise; try dsimp only
     (repeat' first | with_reducible rfl | (simp; done) | (with_reducible refine (foldl_jobs _ ?_ _ _).trans ?_ <;> try intro _ _) | dsimp only | split); done)

@[simp] theorem raise_circuits (d : Dev) (code cls scope index : Nat) (active : Bool) (detail : Bytes) : (Dev.raise d code cls scope index active detail).circuits = d.circuits := by
  first
  | (unfold Dev.raise; simp only [info_circuits, enqueue_circuits]; done)
  | (unfold Dev.raise; with_reducible rfl)
  | (unfold Dev.raise; simp; done)
  | (unfold Dev.raise; (repeat' first | with_reducible rfl | (simp; done) | split); done)
  | (unfold Dev.raise; try dsimp only
     (repeat' first | with_reducible rfl | (simp; done) | (with_reducible refine (foldl_circuits _ ?_ _ _).trans ?_ <;> try intro _ _) | dsimp only | split); done)

@[simp] theorem raise_runs (d : Dev) (code cls scope index : Nat) (active : Bool) (detail : Bytes) : (Dev.raise d code cls scope index active detail).runs = d.runs := by
  first
  | (unfold Dev.raise; simp only [info_runs, enqueue_runs]; done)
  | (unfold Dev.raise; with_reducible rfl)
  | (unfold Dev.raise; simp; done)
  | (unfold Dev.raise; (repeat' first | with_reducible rfl | (simp; done) | split); done)
  | (unfold Dev.raise; try dsimp only
     (repeat' first | with_reducible rfl | (simp; done) | (with_reducible refine (foldl_runs _ ?_ _ _).trans ?_ <;> try intro _ _) | dsimp only | split); done)

@[simp] theorem raise_time (d : Dev) (code cls scope index : Nat) (active : Bool) (detail : Bytes) : (Dev.raise d code cls scope index active detail).time = d.time := by
  first
  | (unfold Dev.raise; simp only [info_time, enqueue_time]; done)
  | (unfold Dev.raise; with_reducible rfl)
  | (unfold Dev.raise; simp; done)
  | (unfold Dev.raise; (repeat' first | with_reducible rfl | (simp; done) | split); done)
  | (unfold Dev.raise; try dsimp only
     (repeat' first | with_reducible rfl | (simp; done) | (with_reducible refine (foldl_time _ ?_ _ _).trans ?_ <;> try intro _ _) | dsimp only | split); done)

@[simp] theorem raise_eng (d : Dev) (code cls scope index : Nat) (active : Bool) (detail : Bytes) : (Dev.raise d code cls scope index active detail).eng = d.eng := by
  first
  | (unfold Dev.raise; simp only [info_eng, enqueue_eng]; done)
  | (unfold Dev.raise; with_reducible rfl)
  | (unfold Dev.raise; simp; done)
  | (unfold Dev.raise; (repeat' first | with_reducible rfl | (simp; done) | split); done)
  | (unfold Dev.raise; try dsimp only
     (repeat' first | with_reducible rfl | (simp; done) | (with_reducible refine (foldl_eng _ ?_ _ _).trans ?_ <;> try intro _ _) | dsimp only | split); done)

@[simp] theorem raise_rings (d : Dev) (code cls scope index : Nat) (active : Bool) (detail : Bytes) : (Dev.raise d code cls scope index active detail).rings = d.rings := by
  first
  | (unfold Dev.raise; simp only [info_rings, enqueue_rings]; done)
  | (unfold Dev.raise; with_reducible rfl)
  | (unfold Dev.raise; simp; done)
  | (unfold Dev.raise; (repeat' first | with_reducible rfl | (simp; done) | split); done)
  | (unfold Dev.raise; try dsimp only
     (repeat' first | with_reducible rfl | (simp; done) | (with_reducible refine (foldl_rings _ ?_ _ _).trans ?_ <;> try intro _ _) | dsimp only | split); done)

@[simp] theorem raise_arr (d : Dev) (code cls scope index : Nat) (active : Bool) (detail : Bytes) : (Dev.raise d code cls scope index active detail).arr = d.arr := by
  first
  | (unfold Dev.raise; simp only [info_arr, enqueue_arr]; done)
  | (unfold Dev.raise; with_reducible rfl)
  | (unfold Dev.raise; simp; done)
  | (unfold Dev.raise; (repeat' first | with_reducible rfl | (simp; done) | split); done)
  | (unfold Dev.raise; try dsimp only
     (repeat' first | with_reducible rfl | (simp; done) | (with_reducible refine (foldl_arr _ ?_ _ _).trans ?_ <;> try intro _ _) | dsimp only | split); done)

@[simp] theorem raise_opt (d : Dev) (code cls scope index : Nat) (active : Bool) (detail : Bytes) : (Dev.raise d code cls scope index active detail).opt = d.opt := by
  first
  | (unfold Dev.raise; simp only [info_opt, enqueue_opt]; done)
  | (unfold Dev.raise; with_reducible rfl)
  | (unfold Dev.raise; simp; done)
  | (unfold Dev.raise; (repeat' first | with_reducible rfl | (simp; done) | split); done)
  | (unfold Dev.raise; try dsimp only
     (repeat' first | with_reducible rfl | (simp; done) | (with_reducible refine (foldl_opt _ ?_ _ _).trans ?_ <;> try intro _ _) | dsimp only | split); done)

@[simp] theorem raise_disc (d : Dev) (code cls scope index : Nat) (active : Bool) (detail : Bytes) : (Dev.raise d code cls scope index active detail).disc = d.disc := by
  first
  | (unfold Dev.raise; simp only [info_disc, enqueue_disc]; done)
  | (unfold Dev.raise; with_reducible rfl)
  | (unfold Dev.raise; simp; done)
  | (unfold Dev.raise; (repeat' first | with_reducible rfl | (simp; done) | split); done)
  | (unfold Dev.raise; try dsimp only
     (repeat' first | with_reducible rfl | (simp; done) | (with_reducible refine (foldl_disc _ ?_ _ _).trans ?_ <;> try intro _ _) | dsimp only | split); done)

@[simp] theorem raise_coll (d : Dev) (code cls scope index : Nat) (active : Bool) (detail : Bytes) : (Dev.raise d code cls scope index active detail).coll = d.coll := by
  first
  | (unfold Dev.raise; simp only [info_coll, enqueue_coll]; done)
  | (unfold Dev.raise; with_reducible rfl)
  | (unfold Dev.raise; simp; done)
  | (unfold Dev.raise; (repeat' first | with_reducible rfl | (simp; done) | split); done)
  | (unfold Dev.raise; try dsimp only
     (repeat' first | with_reducible rfl | (simp; done) | (with_reducible refine (foldl_coll _ ?_ _ _).trans ?_ <;> try intro _ _) | dsimp only | split); done)

@[simp] theorem raise_twin (d : Dev) (code cls scope index : Nat) (active : Bool) (detail : Bytes) : (Dev.raise d code cls scope index active detail).twin = d.twin := by
  first
  | (unfold Dev.raise; simp only [info_twin, enqueue_twin]; done)
  | (unfold Dev.raise; with_reducible rfl)
  | (unfold Dev.raise; simp; done)
  | (unfold Dev.raise; (repeat' first | with_reducible rfl | (simp; done) | split); done)
  | (unfold Dev.raise; try dsimp only
     (repeat' first | with_reducible rfl | (simp; done) | (with_reducible refine (foldl_twin _ ?_ _ _).trans ?_ <;> try intro _ _) | dsimp only | split); done)

@[simp] theorem raise_power (d : Dev) (code cls scope index : Nat) (active : Bool) (detail : Bytes) : (Dev.raise d code cls scope index active detail).power = d.power := by
  first
  | (unfold Dev.raise; simp only [info_power, enqueue_power]; done)
  | (unfold Dev.raise; with_reducible rfl)
  | (unfold Dev.raise; simp; done)
  | (unfold Dev.raise; (repeat' first | with_reducible rfl | (simp; done) | split); done)
  | (unfold Dev.raise; try dsimp only
     (repeat' first | with_reducible rfl | (simp; done) | (with_reducible refine (foldl_power _ ?_ _ _).trans ?_ <;> try intro _ _) | dsimp only | split); done)

@[simp] theorem raise_ob (d : Dev) (code cls scope index : Nat) (active : Bool) (detail : Bytes) : (Dev.raise d code cls scope index active detail).ob = d.ob := by
  first
  | (unfold Dev.raise; simp only [info_ob, enqueue_ob]; done)
  | (unfold Dev.raise; with_reducible rfl)
  | (unfold Dev.raise; simp; done)
  | (unfold Dev.raise; (repeat' first | with_reducible rfl | (simp; done) | split); done)
  | (unfold Dev.raise; try dsimp only
     (repeat' first | with_reducible rfl | (simp; done) | (with_reducible refine (foldl_ob _ ?_ _ _).trans ?_ <;> try intro _ _) | dsimp only | split); done)

@[simp] theorem raise_out (d : Dev) (code cls scope index : Nat) (active : Bool) (detail : Bytes) : (Dev.raise d code cls scope index active detail).out = d.out := by
  first
  | (unfold Dev.raise; simp only [info_out, enqueue_out]; done)
  | (unfold Dev.raise; with_reducible rfl)
  | (unfold Dev.raise; simp; done)
  | (unfold Dev.raise; (repeat' first | with_reducible rfl | (simp; done) | split); done)
  | (unfold Dev.raise; try dsimp only
     (repeat' first | with_reducible rfl | (simp; done) | (with_reducible refine (foldl_out _ ?_ _ _).trans ?_ <;> try intro _ _) | dsimp only | split); done)

@[simp] theorem raise_fresh (d : Dev) (code cls scope index : Nat) (active : Bool) (detail : Bytes) : (Dev.raise d code cls scope index active detail).fresh = d.fresh := by
  first
  | (unfold Dev.raise; simp only [info_fresh, enqueue_fresh]; done)
  | (unfold Dev.raise; with_reducible rfl)
  | (unfold Dev.raise; simp; done)
  | (unfold Dev.raise; (repeat' first | with_reducible rfl | (simp; done) | split); done)
  | (unfold Dev.raise; try dsimp only
     (repeat' first | with_reducible rfl | (simp; done) | (with_reducible refine (foldl_fresh _ ?_ _ _).trans ?_ <;> try intro _ _) | dsimp only | split); done)

@[simp] theorem secret_module (d : Dev) (code index : Nat) (detail : Bytes) : (Dev.secret d code index detail).module = d.module := by
  first
  | (unfold Dev.secret; simp only [write_module, tripped_module]; done)
  | (unfold Dev.secret; with_reducible rfl)
  | (unfold Dev.secret; simp; done)
  | (unfold Dev.secret; (repeat' first | with_reducible rfl | (simp; done) | split); done)
  | (unfold Dev.secret; try dsimp only
     (repeat' first | with_reducible rfl | (simp; done) | (with_reducible refine (foldl_module _ ?_ _ _).trans ?_ <;> try intro _ _) | dsimp only | split); done)

@[simp] theorem secret_net (d : Dev) (code index : Nat) (detail : Bytes) : (Dev.secret d code index detail).net = d.net := by
  first
  | (unfold Dev.secret; simp only [write_net, tripped_net]; done)
  | (unfold Dev.secret; with_reducible rfl)
  | (unfold Dev.secret; simp; done)
  | (unfold Dev.secret; (repeat' first | with_reducible rfl | (simp; done) | split); done)
  | (unfold Dev.secret; try dsimp only
     (repeat' first | with_reducible rfl | (simp; done) | (with_reducible refine (foldl_net _ ?_ _ _).trans ?_ <;> try intro _ _) | dsimp only | split); done)

@[simp] theorem secret_dir (d : Dev) (code index : Nat) (detail : Bytes) : (Dev.secret d code index detail).dir = d.dir := by
  first
  | (unfold Dev.secret; simp only [write_dir, tripped_dir]; done)
  | (unfold Dev.secret; with_reducible rfl)
  | (unfold Dev.secret; simp; done)
  | (unfold Dev.secret; (repeat' first | with_reducible rfl | (simp; done) | split); done)
  | (unfold Dev.secret; try dsimp only
     (repeat' first | with_reducible rfl | (simp; done) | (with_reducible refine (foldl_dir _ ?_ _ _).trans ?_ <;> try intro _ _) | dsimp only | split); done)

@[simp] theorem secret_jobs (d : Dev) (code index : Nat) (detail : Bytes) : (Dev.secret d code index detail).jobs = d.jobs := by
  first
  | (unfold Dev.secret; simp only [write_jobs, tripped_jobs]; done)
  | (unfold Dev.secret; with_reducible rfl)
  | (unfold Dev.secret; simp; done)
  | (unfold Dev.secret; (repeat' first | with_reducible rfl | (simp; done) | split); done)
  | (unfold Dev.secret; try dsimp only
     (repeat' first | with_reducible rfl | (simp; done) | (with_reducible refine (foldl_jobs _ ?_ _ _).trans ?_ <;> try intro _ _) | dsimp only | split); done)

@[simp] theorem secret_circuits (d : Dev) (code index : Nat) (detail : Bytes) : (Dev.secret d code index detail).circuits = d.circuits := by
  first
  | (unfold Dev.secret; simp only [write_circuits, tripped_circuits]; done)
  | (unfold Dev.secret; with_reducible rfl)
  | (unfold Dev.secret; simp; done)
  | (unfold Dev.secret; (repeat' first | with_reducible rfl | (simp; done) | split); done)
  | (unfold Dev.secret; try dsimp only
     (repeat' first | with_reducible rfl | (simp; done) | (with_reducible refine (foldl_circuits _ ?_ _ _).trans ?_ <;> try intro _ _) | dsimp only | split); done)

@[simp] theorem secret_runs (d : Dev) (code index : Nat) (detail : Bytes) : (Dev.secret d code index detail).runs = d.runs := by
  first
  | (unfold Dev.secret; simp only [write_runs, tripped_runs]; done)
  | (unfold Dev.secret; with_reducible rfl)
  | (unfold Dev.secret; simp; done)
  | (unfold Dev.secret; (repeat' first | with_reducible rfl | (simp; done) | split); done)
  | (unfold Dev.secret; try dsimp only
     (repeat' first | with_reducible rfl | (simp; done) | (with_reducible refine (foldl_runs _ ?_ _ _).trans ?_ <;> try intro _ _) | dsimp only | split); done)

@[simp] theorem secret_time (d : Dev) (code index : Nat) (detail : Bytes) : (Dev.secret d code index detail).time = d.time := by
  first
  | (unfold Dev.secret; simp only [write_time, tripped_time]; done)
  | (unfold Dev.secret; with_reducible rfl)
  | (unfold Dev.secret; simp; done)
  | (unfold Dev.secret; (repeat' first | with_reducible rfl | (simp; done) | split); done)
  | (unfold Dev.secret; try dsimp only
     (repeat' first | with_reducible rfl | (simp; done) | (with_reducible refine (foldl_time _ ?_ _ _).trans ?_ <;> try intro _ _) | dsimp only | split); done)

@[simp] theorem secret_eng (d : Dev) (code index : Nat) (detail : Bytes) : (Dev.secret d code index detail).eng = d.eng := by
  first
  | (unfold Dev.secret; simp only [write_eng, tripped_eng]; done)
  | (unfold Dev.secret; with_reducible rfl)
  | (unfold Dev.secret; simp; done)
  | (unfold Dev.secret; (repeat' first | with_reducible rfl | (simp; done) | split); done)
  | (unfold Dev.secret; try dsimp only
     (repeat' first | with_reducible rfl | (simp; done) | (with_reducible refine (foldl_eng _ ?_ _ _).trans ?_ <;> try intro _ _) | dsimp only | split); done)

@[simp] theorem secret_rings (d : Dev) (code index : Nat) (detail : Bytes) : (Dev.secret d code index detail).rings = d.rings := by
  first
  | (unfold Dev.secret; simp only [write_rings, tripped_rings]; done)
  | (unfold Dev.secret; with_reducible rfl)
  | (unfold Dev.secret; simp; done)
  | (unfold Dev.secret; (repeat' first | with_reducible rfl | (simp; done) | split); done)
  | (unfold Dev.secret; try dsimp only
     (repeat' first | with_reducible rfl | (simp; done) | (with_reducible refine (foldl_rings _ ?_ _ _).trans ?_ <;> try intro _ _) | dsimp only | split); done)

@[simp] theorem secret_arr (d : Dev) (code index : Nat) (detail : Bytes) : (Dev.secret d code index detail).arr = d.arr := by
  first
  | (unfold Dev.secret; simp only [write_arr, tripped_arr]; done)
  | (unfold Dev.secret; with_reducible rfl)
  | (unfold Dev.secret; simp; done)
  | (unfold Dev.secret; (repeat' first | with_reducible rfl | (simp; done) | split); done)
  | (unfold Dev.secret; try dsimp only
     (repeat' first | with_reducible rfl | (simp; done) | (with_reducible refine (foldl_arr _ ?_ _ _).trans ?_ <;> try intro _ _) | dsimp only | split); done)

@[simp] theorem secret_opt (d : Dev) (code index : Nat) (detail : Bytes) : (Dev.secret d code index detail).opt = d.opt := by
  first
  | (unfold Dev.secret; simp only [write_opt, tripped_opt]; done)
  | (unfold Dev.secret; with_reducible rfl)
  | (unfold Dev.secret; simp; done)
  | (unfold Dev.secret; (repeat' first | with_reducible rfl | (simp; done) | split); done)
  | (unfold Dev.secret; try dsimp only
     (repeat' first | with_reducible rfl | (simp; done) | (with_reducible refine (foldl_opt _ ?_ _ _).trans ?_ <;> try intro _ _) | dsimp only | split); done)

@[simp] theorem secret_disc (d : Dev) (code index : Nat) (detail : Bytes) : (Dev.secret d code index detail).disc = d.disc := by
  first
  | (unfold Dev.secret; simp only [write_disc, tripped_disc]; done)
  | (unfold Dev.secret; with_reducible rfl)
  | (unfold Dev.secret; simp; done)
  | (unfold Dev.secret; (repeat' first | with_reducible rfl | (simp; done) | split); done)
  | (unfold Dev.secret; try dsimp only
     (repeat' first | with_reducible rfl | (simp; done) | (with_reducible refine (foldl_disc _ ?_ _ _).trans ?_ <;> try intro _ _) | dsimp only | split); done)

@[simp] theorem secret_coll (d : Dev) (code index : Nat) (detail : Bytes) : (Dev.secret d code index detail).coll = d.coll := by
  first
  | (unfold Dev.secret; simp only [write_coll, tripped_coll]; done)
  | (unfold Dev.secret; with_reducible rfl)
  | (unfold Dev.secret; simp; done)
  | (unfold Dev.secret; (repeat' first | with_reducible rfl | (simp; done) | split); done)
  | (unfold Dev.secret; try dsimp only
     (repeat' first | with_reducible rfl | (simp; done) | (with_reducible refine (foldl_coll _ ?_ _ _).trans ?_ <;> try intro _ _) | dsimp only | split); done)

@[simp] theorem secret_twin (d : Dev) (code index : Nat) (detail : Bytes) : (Dev.secret d code index detail).twin = d.twin := by
  first
  | (unfold Dev.secret; simp only [write_twin, tripped_twin]; done)
  | (unfold Dev.secret; with_reducible rfl)
  | (unfold Dev.secret; simp; done)
  | (unfold Dev.secret; (repeat' first | with_reducible rfl | (simp; done) | split); done)
  | (unfold Dev.secret; try dsimp only
     (repeat' first | with_reducible rfl | (simp; done) | (with_reducible refine (foldl_twin _ ?_ _ _).trans ?_ <;> try intro _ _) | dsimp only | split); done)

@[simp] theorem secret_power (d : Dev) (code index : Nat) (detail : Bytes) : (Dev.secret d code index detail).power = d.power := by
  first
  | (unfold Dev.secret; simp only [write_power, tripped_power]; done)
  | (unfold Dev.secret; with_reducible rfl)
  | (unfold Dev.secret; simp; done)
  | (unfold Dev.secret; (repeat' first | with_reducible rfl | (simp; done) | split); done)
  | (unfold Dev.secret; try dsimp only
     (repeat' first | with_reducible rfl | (simp; done) | (with_reducible refine (foldl_power _ ?_ _ _).trans ?_ <;> try intro _ _) | dsimp only | split); done)

@[simp] theorem secret_upd (d : Dev) (code index : Nat) (detail : Bytes) : (Dev.secret d code index detail).upd = d.upd := by
  first
  | (unfold Dev.secret; simp only [write_upd, tripped_upd]; done)
  | (unfold Dev.secret; with_reducible rfl)
  | (unfold Dev.secret; simp; done)
  | (unfold Dev.secret; (repeat' first | with_reducible rfl | (simp; done) | split); done)
  | (unfold Dev.secret; try dsimp only
     (repeat' first | with_reducible rfl | (simp; done) | (with_reducible refine (foldl_upd _ ?_ _ _).trans ?_ <;> try intro _ _) | dsimp only | split); done)

@[simp] theorem secret_ob (d : Dev) (code index : Nat) (detail : Bytes) : (Dev.secret d code index detail).ob = d.ob := by
  first
  | (unfold Dev.secret; simp only [write_ob, tripped_ob]; done)
  | (unfold Dev.secret; with_reducible rfl)
  | (unfold Dev.secret; simp; done)
  | (unfold Dev.secret; (repeat' first | with_reducible rfl | (simp; done) | split); done)
  | (unfold Dev.secret; try dsimp only
     (repeat' first | with_reducible rfl | (simp; done) | (with_reducible refine (foldl_ob _ ?_ _ _).trans ?_ <;> try intro _ _) | dsimp only | split); done)

@[simp] theorem secret_out (d : Dev) (code index : Nat) (detail : Bytes) : (Dev.secret d code index detail).out = d.out := by
  first
  | (unfold Dev.secret; simp only [write_out, tripped_out]; done)
  | (unfold Dev.secret; with_reducible rfl)
  | (unfold Dev.secret; simp; done)
  | (unfold Dev.secret; (repeat' first | with_reducible rfl | (simp; done) | split); done)
  | (unfold Dev.secret; try dsimp only
     (repeat' first | with_reducible rfl | (simp; done) | (with_reducible refine (foldl_out _ ?_ _ _).trans ?_ <;> try intro _ _) | dsimp only | split); done)

@[simp] theorem secret_fresh (d : Dev) (code index : Nat) (detail : Bytes) : (Dev.secret d code index detail).fresh = d.fresh := by
  first
  | (unfold Dev.secret; simp only [write_fresh, tripped_fresh]; done)
  | (unfold Dev.secret; with_reducible rfl)
  | (unfold Dev.secret; simp; done)
  | (unfold Dev.secret; (repeat' first | with_reducible rfl | (simp; done) | split); done)
  | (unfold Dev.secret; try dsimp only
     (repeat' first | with_reducible rfl | (simp; done) | (with_reducible refine (foldl_fresh _ ?_ _ _).trans ?_ <;> try intro _ _) | dsimp only | split); done)

@[simp] theorem unlatch_module (d : Dev) (code scope index : Nat) : (Dev.unlatch d code scope index).module = d.module := by
  first
  | (unfold Dev.unlatch; with_reducible rfl)
  | (unfold Dev.unlatch; simp; done)
  | (unfold Dev.unlatch; (repeat' first | with_reducible rfl | (simp; done) | split); done)
  | (unfold Dev.unlatch; try dsimp only
     (repeat' first | with_reducible rfl | (simp; done) | (with_reducible refine (foldl_module _ ?_ _ _).trans ?_ <;> try intro _ _) | dsimp only | split); done)

@[simp] theorem unlatch_net (d : Dev) (code scope index : Nat) : (Dev.unlatch d code scope index).net = d.net := by
  first
  | (unfold Dev.unlatch; with_reducible rfl)
  | (unfold Dev.unlatch; simp; done)
  | (unfold Dev.unlatch; (repeat' first | with_reducible rfl | (simp; done) | split); done)
  | (unfold Dev.unlatch; try dsimp only
     (repeat' first | with_reducible rfl | (simp; done) | (with_reducible refine (foldl_net _ ?_ _ _).trans ?_ <;> try intro _ _) | dsimp only | split); done)

@[simp] theorem unlatch_dir (d : Dev) (code scope index : Nat) : (Dev.unlatch d code scope index).dir = d.dir := by
  first
  | (unfold Dev.unlatch; with_reducible rfl)
  | (unfold Dev.unlatch; simp; done)
  | (unfold Dev.unlatch; (repeat' first | with_reducible rfl | (simp; done) | split); done)
  | (unfold Dev.unlatch; try dsimp only
     (repeat' first | with_reducible rfl | (simp; done) | (with_reducible refine (foldl_dir _ ?_ _ _).trans ?_ <;> try intro _ _) | dsimp only | split); done)

@[simp] theorem unlatch_jobs (d : Dev) (code scope index : Nat) : (Dev.unlatch d code scope index).jobs = d.jobs := by
  first
  | (unfold Dev.unlatch; with_reducible rfl)
  | (unfold Dev.unlatch; simp; done)
  | (unfold Dev.unlatch; (repeat' first | with_reducible rfl | (simp; done) | split); done)
  | (unfold Dev.unlatch; try dsimp only
     (repeat' first | with_reducible rfl | (simp; done) | (with_reducible refine (foldl_jobs _ ?_ _ _).trans ?_ <;> try intro _ _) | dsimp only | split); done)

@[simp] theorem unlatch_circuits (d : Dev) (code scope index : Nat) : (Dev.unlatch d code scope index).circuits = d.circuits := by
  first
  | (unfold Dev.unlatch; with_reducible rfl)
  | (unfold Dev.unlatch; simp; done)
  | (unfold Dev.unlatch; (repeat' first | with_reducible rfl | (simp; done) | split); done)
  | (unfold Dev.unlatch; try dsimp only
     (repeat' first | with_reducible rfl | (simp; done) | (with_reducible refine (foldl_circuits _ ?_ _ _).trans ?_ <;> try intro _ _) | dsimp only | split); done)

@[simp] theorem unlatch_runs (d : Dev) (code scope index : Nat) : (Dev.unlatch d code scope index).runs = d.runs := by
  first
  | (unfold Dev.unlatch; with_reducible rfl)
  | (unfold Dev.unlatch; simp; done)
  | (unfold Dev.unlatch; (repeat' first | with_reducible rfl | (simp; done) | split); done)
  | (unfold Dev.unlatch; try dsimp only
     (repeat' first | with_reducible rfl | (simp; done) | (with_reducible refine (foldl_runs _ ?_ _ _).trans ?_ <;> try intro _ _) | dsimp only | split); done)

@[simp] theorem unlatch_time (d : Dev) (code scope index : Nat) : (Dev.unlatch d code scope index).time = d.time := by
  first
  | (unfold Dev.unlatch; with_reducible rfl)
  | (unfold Dev.unlatch; simp; done)
  | (unfold Dev.unlatch; (repeat' first | with_reducible rfl | (simp; done) | split); done)
  | (unfold Dev.unlatch; try dsimp only
     (repeat' first | with_reducible rfl | (simp; done) | (with_reducible refine (foldl_time _ ?_ _ _).trans ?_ <;> try intro _ _) | dsimp only | split); done)

@[simp] theorem unlatch_eng (d : Dev) (code scope index : Nat) : (Dev.unlatch d code scope index).eng = d.eng := by
  first
  | (unfold Dev.unlatch; with_reducible rfl)
  | (unfold Dev.unlatch; simp; done)
  | (unfold Dev.unlatch; (repeat' first | with_reducible rfl | (simp; done) | split); done)
  | (unfold Dev.unlatch; try dsimp only
     (repeat' first | with_reducible rfl | (simp; done) | (with_reducible refine (foldl_eng _ ?_ _ _).trans ?_ <;> try intro _ _) | dsimp only | split); done)

@[simp] theorem unlatch_rings (d : Dev) (code scope index : Nat) : (Dev.unlatch d code scope index).rings = d.rings := by
  first
  | (unfold Dev.unlatch; with_reducible rfl)
  | (unfold Dev.unlatch; simp; done)
  | (unfold Dev.unlatch; (repeat' first | with_reducible rfl | (simp; done) | split); done)
  | (unfold Dev.unlatch; try dsimp only
     (repeat' first | with_reducible rfl | (simp; done) | (with_reducible refine (foldl_rings _ ?_ _ _).trans ?_ <;> try intro _ _) | dsimp only | split); done)

@[simp] theorem unlatch_arr (d : Dev) (code scope index : Nat) : (Dev.unlatch d code scope index).arr = d.arr := by
  first
  | (unfold Dev.unlatch; with_reducible rfl)
  | (unfold Dev.unlatch; simp; done)
  | (unfold Dev.unlatch; (repeat' first | with_reducible rfl | (simp; done) | split); done)
  | (unfold Dev.unlatch; try dsimp only
     (repeat' first | with_reducible rfl | (simp; done) | (with_reducible refine (foldl_arr _ ?_ _ _).trans ?_ <;> try intro _ _) | dsimp only | split); done)

@[simp] theorem unlatch_opt (d : Dev) (code scope index : Nat) : (Dev.unlatch d code scope index).opt = d.opt := by
  first
  | (unfold Dev.unlatch; with_reducible rfl)
  | (unfold Dev.unlatch; simp; done)
  | (unfold Dev.unlatch; (repeat' first | with_reducible rfl | (simp; done) | split); done)
  | (unfold Dev.unlatch; try dsimp only
     (repeat' first | with_reducible rfl | (simp; done) | (with_reducible refine (foldl_opt _ ?_ _ _).trans ?_ <;> try intro _ _) | dsimp only | split); done)

@[simp] theorem unlatch_disc (d : Dev) (code scope index : Nat) : (Dev.unlatch d code scope index).disc = d.disc := by
  first
  | (unfold Dev.unlatch; with_reducible rfl)
  | (unfold Dev.unlatch; simp; done)
  | (unfold Dev.unlatch; (repeat' first | with_reducible rfl | (simp; done) | split); done)
  | (unfold Dev.unlatch; try dsimp only
     (repeat' first | with_reducible rfl | (simp; done) | (with_reducible refine (foldl_disc _ ?_ _ _).trans ?_ <;> try intro _ _) | dsimp only | split); done)

@[simp] theorem unlatch_coll (d : Dev) (code scope index : Nat) : (Dev.unlatch d code scope index).coll = d.coll := by
  first
  | (unfold Dev.unlatch; with_reducible rfl)
  | (unfold Dev.unlatch; simp; done)
  | (unfold Dev.unlatch; (repeat' first | with_reducible rfl | (simp; done) | split); done)
  | (unfold Dev.unlatch; try dsimp only
     (repeat' first | with_reducible rfl | (simp; done) | (with_reducible refine (foldl_coll _ ?_ _ _).trans ?_ <;> try intro _ _) | dsimp only | split); done)

@[simp] theorem unlatch_mem (d : Dev) (code scope index : Nat) : (Dev.unlatch d code scope index).mem = d.mem := by
  first
  | (unfold Dev.unlatch; with_reducible rfl)
  | (unfold Dev.unlatch; simp; done)
  | (unfold Dev.unlatch; (repeat' first | with_reducible rfl | (simp; done) | split); done)
  | (unfold Dev.unlatch; try dsimp only
     (repeat' first | with_reducible rfl | (simp; done) | (with_reducible refine (foldl_mem _ ?_ _ _).trans ?_ <;> try intro _ _) | dsimp only | split); done)

@[simp] theorem unlatch_twin (d : Dev) (code scope index : Nat) : (Dev.unlatch d code scope index).twin = d.twin := by
  first
  | (unfold Dev.unlatch; with_reducible rfl)
  | (unfold Dev.unlatch; simp; done)
  | (unfold Dev.unlatch; (repeat' first | with_reducible rfl | (simp; done) | split); done)
  | (unfold Dev.unlatch; try dsimp only
     (repeat' first | with_reducible rfl | (simp; done) | (with_reducible refine (foldl_twin _ ?_ _ _).trans ?_ <;> try intro _ _) | dsimp only | split); done)

@[simp] theorem unlatch_power (d : Dev) (code scope index : Nat) : (Dev.unlatch d code scope index).power = d.power := by
  first
  | (unfold Dev.unlatch; with_reducible rfl)
  | (unfold Dev.unlatch; simp; done)
  | (unfold Dev.unlatch; (repeat' first | with_reducible rfl | (simp; done) | split); done)
  | (unfold Dev.unlatch; try dsimp only
     (repeat' first | with_reducible rfl | (simp; done) | (with_reducible refine (foldl_power _ ?_ _ _).trans ?_ <;> try intro _ _) | dsimp only | split); done)

@[simp] theorem unlatch_upd (d : Dev) (code scope index : Nat) : (Dev.unlatch d code scope index).upd = d.upd := by
  first
  | (unfold Dev.unlatch; with_reducible rfl)
  | (unfold Dev.unlatch; simp; done)
  | (unfold Dev.unlatch; (repeat' first | with_reducible rfl | (simp; done) | split); done)
  | (unfold Dev.unlatch; try dsimp only
     (repeat' first | with_reducible rfl | (simp; done) | (with_reducible refine (foldl_upd _ ?_ _ _).trans ?_ <;> try intro _ _) | dsimp only | split); done)

@[simp] theorem unlatch_recr (d : Dev) (code scope index : Nat) : (Dev.unlatch d code scope index).recr = d.recr := by
  first
  | (unfold Dev.unlatch; with_reducible rfl)
  | (unfold Dev.unlatch; simp; done)
  | (unfold Dev.unlatch; (repeat' first | with_reducible rfl | (simp; done) | split); done)
  | (unfold Dev.unlatch; try dsimp only
     (repeat' first | with_reducible rfl | (simp; done) | (with_reducible refine (foldl_recr _ ?_ _ _).trans ?_ <;> try intro _ _) | dsimp only | split); done)

@[simp] theorem unlatch_od (d : Dev) (code scope index : Nat) : (Dev.unlatch d code scope index).od = d.od := by
  first
  | (unfold Dev.unlatch; with_reducible rfl)
  | (unfold Dev.unlatch; simp; done)
  | (unfold Dev.unlatch; (repeat' first | with_reducible rfl | (simp; done) | split); done)
  | (unfold Dev.unlatch; try dsimp only
     (repeat' first | with_reducible rfl | (simp; done) | (with_reducible refine (foldl_od _ ?_ _ _).trans ?_ <;> try intro _ _) | dsimp only | split); done)

@[simp] theorem unlatch_ob (d : Dev) (code scope index : Nat) : (Dev.unlatch d code scope index).ob = d.ob := by
  first
  | (unfold Dev.unlatch; with_reducible rfl)
  | (unfold Dev.unlatch; simp; done)
  | (unfold Dev.unlatch; (repeat' first | with_reducible rfl | (simp; done) | split); done)
  | (unfold Dev.unlatch; try dsimp only
     (repeat' first | with_reducible rfl | (simp; done) | (with_reducible refine (foldl_ob _ ?_ _ _).trans ?_ <;> try intro _ _) | dsimp only | split); done)

@[simp] theorem unlatch_out (d : Dev) (code scope index : Nat) : (Dev.unlatch d code scope index).out = d.out := by
  first
  | (unfold Dev.unlatch; with_reducible rfl)
  | (unfold Dev.unlatch; simp; done)
  | (unfold Dev.unlatch; (repeat' first | with_reducible rfl | (simp; done) | split); done)
  | (unfold Dev.unlatch; try dsimp only
     (repeat' first | with_reducible rfl | (simp; done) | (with_reducible refine (foldl_out _ ?_ _ _).trans ?_ <;> try intro _ _) | dsimp only | split); done)

@[simp] theorem unlatch_fresh (d : Dev) (code scope index : Nat) : (Dev.unlatch d code scope index).fresh = d.fresh := by
  first
  | (unfold Dev.unlatch; with_reducible rfl)
  | (unfold Dev.unlatch; simp; done)
  | (unfold Dev.unlatch; (repeat' first | with_reducible rfl | (simp; done) | split); done)
  | (unfold Dev.unlatch; try dsimp only
     (repeat' first | with_reducible rfl | (simp; done) | (with_reducible refine (foldl_fresh _ ?_ _ _).trans ?_ <;> try intro _ _) | dsimp only | split); done)

@[simp] theorem memEvent_module (d : Dev) (kind cls array source symbols addr syndrome count : Nat) (initiator : Nat) : (Dev.memEvent d kind cls array source symbols addr syndrome count initiator).module = d.module := by
  first
  | (unfold Dev.memEvent; simp only [raise_module]; done)
  | (unfold Dev.memEvent; with_reducible rfl)
  | (unfold Dev.memEvent; simp; done)
  | (unfold Dev.memEvent; (repeat' first | with_reducible rfl | (simp; done) | split); done)
  | (unfold Dev.memEvent; try dsimp only
     (repeat' first | with_reducible rfl | (simp; done) | (with_reducible refine (foldl_module _ ?_ _ _).trans ?_ <;> try intro _ _) | dsimp only | split); done)

@[simp] theorem memEvent_net (d : Dev) (kind cls array source symbols addr syndrome count : Nat) (initiator : Nat) : (Dev.memEvent d kind cls array source symbols addr syndrome count initiator).net = d.net := by
  first
  | (unfold Dev.memEvent; simp only [raise_net]; done)
  | (unfold Dev.memEvent; with_reducible rfl)
  | (unfold Dev.memEvent; simp; done)
  | (unfold Dev.memEvent; (repeat' first | with_reducible rfl | (simp; done) | split); done)
  | (unfold Dev.memEvent; try dsimp only
     (repeat' first | with_reducible rfl | (simp; done) | (with_reducible refine (foldl_net _ ?_ _ _).trans ?_ <;> try intro _ _) | dsimp only | split); done)

@[simp] theorem memEvent_dir (d : Dev) (kind cls array source symbols addr syndrome count : Nat) (initiator : Nat) : (Dev.memEvent d kind cls array source symbols addr syndrome count initiator).dir = d.dir := by
  first
  | (unfold Dev.memEvent; simp only [raise_dir]; done)
  | (unfold Dev.memEvent; with_reducible rfl)
  | (unfold Dev.memEvent; simp; done)
  | (unfold Dev.memEvent; (repeat' first | with_reducible rfl | (simp; done) | split); done)
  | (unfold Dev.memEvent; try dsimp only
     (repeat' first | with_reducible rfl | (simp; done) | (with_reducible refine (foldl_dir _ ?_ _ _).trans ?_ <;> try intro _ _) | dsimp only | split); done)

@[simp] theorem memEvent_jobs (d : Dev) (kind cls array source symbols addr syndrome count : Nat) (initiator : Nat) : (Dev.memEvent d kind cls array source symbols addr syndrome count initiator).jobs = d.jobs := by
  first
  | (unfold Dev.memEvent; simp only [raise_jobs]; done)
  | (unfold Dev.memEvent; with_reducible rfl)
  | (unfold Dev.memEvent; simp; done)
  | (unfold Dev.memEvent; (repeat' first | with_reducible rfl | (simp; done) | split); done)
  | (unfold Dev.memEvent; try dsimp only
     (repeat' first | with_reducible rfl | (simp; done) | (with_reducible refine (foldl_jobs _ ?_ _ _).trans ?_ <;> try intro _ _) | dsimp only | split); done)

@[simp] theorem memEvent_circuits (d : Dev) (kind cls array source symbols addr syndrome count : Nat) (initiator : Nat) : (Dev.memEvent d kind cls array source symbols addr syndrome count initiator).circuits = d.circuits := by
  first
  | (unfold Dev.memEvent; simp only [raise_circuits]; done)
  | (unfold Dev.memEvent; with_reducible rfl)
  | (unfold Dev.memEvent; simp; done)
  | (unfold Dev.memEvent; (repeat' first | with_reducible rfl | (simp; done) | split); done)
  | (unfold Dev.memEvent; try dsimp only
     (repeat' first | with_reducible rfl | (simp; done) | (with_reducible refine (foldl_circuits _ ?_ _ _).trans ?_ <;> try intro _ _) | dsimp only | split); done)

@[simp] theorem memEvent_runs (d : Dev) (kind cls array source symbols addr syndrome count : Nat) (initiator : Nat) : (Dev.memEvent d kind cls array source symbols addr syndrome count initiator).runs = d.runs := by
  first
  | (unfold Dev.memEvent; simp only [raise_runs]; done)
  | (unfold Dev.memEvent; with_reducible rfl)
  | (unfold Dev.memEvent; simp; done)
  | (unfold Dev.memEvent; (repeat' first | with_reducible rfl | (simp; done) | split); done)
  | (unfold Dev.memEvent; try dsimp only
     (repeat' first | with_reducible rfl | (simp; done) | (with_reducible refine (foldl_runs _ ?_ _ _).trans ?_ <;> try intro _ _) | dsimp only | split); done)

@[simp] theorem memEvent_time (d : Dev) (kind cls array source symbols addr syndrome count : Nat) (initiator : Nat) : (Dev.memEvent d kind cls array source symbols addr syndrome count initiator).time = d.time := by
  first
  | (unfold Dev.memEvent; simp only [raise_time]; done)
  | (unfold Dev.memEvent; with_reducible rfl)
  | (unfold Dev.memEvent; simp; done)
  | (unfold Dev.memEvent; (repeat' first | with_reducible rfl | (simp; done) | split); done)
  | (unfold Dev.memEvent; try dsimp only
     (repeat' first | with_reducible rfl | (simp; done) | (with_reducible refine (foldl_time _ ?_ _ _).trans ?_ <;> try intro _ _) | dsimp only | split); done)

@[simp] theorem memEvent_eng (d : Dev) (kind cls array source symbols addr syndrome count : Nat) (initiator : Nat) : (Dev.memEvent d kind cls array source symbols addr syndrome count initiator).eng = d.eng := by
  first
  | (unfold Dev.memEvent; simp only [raise_eng]; done)
  | (unfold Dev.memEvent; with_reducible rfl)
  | (unfold Dev.memEvent; simp; done)
  | (unfold Dev.memEvent; (repeat' first | with_reducible rfl | (simp; done) | split); done)
  | (unfold Dev.memEvent; try dsimp only
     (repeat' first | with_reducible rfl | (simp; done) | (with_reducible refine (foldl_eng _ ?_ _ _).trans ?_ <;> try intro _ _) | dsimp only | split); done)

@[simp] theorem memEvent_rings (d : Dev) (kind cls array source symbols addr syndrome count : Nat) (initiator : Nat) : (Dev.memEvent d kind cls array source symbols addr syndrome count initiator).rings = d.rings := by
  first
  | (unfold Dev.memEvent; simp only [raise_rings]; done)
  | (unfold Dev.memEvent; with_reducible rfl)
  | (unfold Dev.memEvent; simp; done)
  | (unfold Dev.memEvent; (repeat' first | with_reducible rfl | (simp; done) | split); done)
  | (unfold Dev.memEvent; try dsimp only
     (repeat' first | with_reducible rfl | (simp; done) | (with_reducible refine (foldl_rings _ ?_ _ _).trans ?_ <;> try intro _ _) | dsimp only | split); done)

@[simp] theorem memEvent_arr (d : Dev) (kind cls array source symbols addr syndrome count : Nat) (initiator : Nat) : (Dev.memEvent d kind cls array source symbols addr syndrome count initiator).arr = d.arr := by
  first
  | (unfold Dev.memEvent; simp only [raise_arr]; done)
  | (unfold Dev.memEvent; with_reducible rfl)
  | (unfold Dev.memEvent; simp; done)
  | (unfold Dev.memEvent; (repeat' first | with_reducible rfl | (simp; done) | split); done)
  | (unfold Dev.memEvent; try dsimp only
     (repeat' first | with_reducible rfl | (simp; done) | (with_reducible refine (foldl_arr _ ?_ _ _).trans ?_ <;> try intro _ _) | dsimp only | split); done)

@[simp] theorem memEvent_opt (d : Dev) (kind cls array source symbols addr syndrome count : Nat) (initiator : Nat) : (Dev.memEvent d kind cls array source symbols addr syndrome count initiator).opt = d.opt := by
  first
  | (unfold Dev.memEvent; simp only [raise_opt]; done)
  | (unfold Dev.memEvent; with_reducible rfl)
  | (unfold Dev.memEvent; simp; done)
  | (unfold Dev.memEvent; (repeat' first | with_reducible rfl | (simp; done) | split); done)
  | (unfold Dev.memEvent; try dsimp only
     (repeat' first | with_reducible rfl | (simp; done) | (with_reducible refine (foldl_opt _ ?_ _ _).trans ?_ <;> try intro _ _) | dsimp only | split); done)

@[simp] theorem memEvent_disc (d : Dev) (kind cls array source symbols addr syndrome count : Nat) (initiator : Nat) : (Dev.memEvent d kind cls array source symbols addr syndrome count initiator).disc = d.disc := by
  first
  | (unfold Dev.memEvent; simp only [raise_disc]; done)
  | (unfold Dev.memEvent; with_reducible rfl)
  | (unfold Dev.memEvent; simp; done)
  | (unfold Dev.memEvent; (repeat' first | with_reducible rfl | (simp; done) | split); done)
  | (unfold Dev.memEvent; try dsimp only
     (repeat' first | with_reducible rfl | (simp; done) | (with_reducible refine (foldl_disc _ ?_ _ _).trans ?_ <;> try intro _ _) | dsimp only | split); done)

@[simp] theorem memEvent_coll (d : Dev) (kind cls array source symbols addr syndrome count : Nat) (initiator : Nat) : (Dev.memEvent d kind cls array source symbols addr syndrome count initiator).coll = d.coll := by
  first
  | (unfold Dev.memEvent; simp only [raise_coll]; done)
  | (unfold Dev.memEvent; with_reducible rfl)
  | (unfold Dev.memEvent; simp; done)
  | (unfold Dev.memEvent; (repeat' first | with_reducible rfl | (simp; done) | split); done)
  | (unfold Dev.memEvent; try dsimp only
     (repeat' first | with_reducible rfl | (simp; done) | (with_reducible refine (foldl_coll _ ?_ _ _).trans ?_ <;> try intro _ _) | dsimp only | split); done)

@[simp] theorem memEvent_twin (d : Dev) (kind cls array source symbols addr syndrome count : Nat) (initiator : Nat) : (Dev.memEvent d kind cls array source symbols addr syndrome count initiator).twin = d.twin := by
  first
  | (unfold Dev.memEvent; simp only [raise_twin]; done)
  | (unfold Dev.memEvent; with_reducible rfl)
  | (unfold Dev.memEvent; simp; done)
  | (unfold Dev.memEvent; (repeat' first | with_reducible rfl | (simp; done) | split); done)
  | (unfold Dev.memEvent; try dsimp only
     (repeat' first | with_reducible rfl | (simp; done) | (with_reducible refine (foldl_twin _ ?_ _ _).trans ?_ <;> try intro _ _) | dsimp only | split); done)

@[simp] theorem memEvent_power (d : Dev) (kind cls array source symbols addr syndrome count : Nat) (initiator : Nat) : (Dev.memEvent d kind cls array source symbols addr syndrome count initiator).power = d.power := by
  first
  | (unfold Dev.memEvent; simp only [raise_power]; done)
  | (unfold Dev.memEvent; with_reducible rfl)
  | (unfold Dev.memEvent; simp; done)
  | (unfold Dev.memEvent; (repeat' first | with_reducible rfl | (simp; done) | split); done)
  | (unfold Dev.memEvent; try dsimp only
     (repeat' first | with_reducible rfl | (simp; done) | (with_reducible refine (foldl_power _ ?_ _ _).trans ?_ <;> try intro _ _) | dsimp only | split); done)

@[simp] theorem memEvent_ob (d : Dev) (kind cls array source symbols addr syndrome count : Nat) (initiator : Nat) : (Dev.memEvent d kind cls array source symbols addr syndrome count initiator).ob = d.ob := by
  first
  | (unfold Dev.memEvent; simp only [raise_ob]; done)
  | (unfold Dev.memEvent; with_reducible rfl)
  | (unfold Dev.memEvent; simp; done)
  | (unfold Dev.memEvent; (repeat' first | with_reducible rfl | (simp; done) | split); done)
  | (unfold Dev.memEvent; try dsimp only
     (repeat' first | with_reducible rfl | (simp; done) | (with_reducible refine (foldl_ob _ ?_ _ _).trans ?_ <;> try intro _ _) | dsimp only | split); done)

@[simp] theorem memEvent_out (d : Dev) (kind cls array source symbols addr syndrome count : Nat) (initiator : Nat) : (Dev.memEvent d kind cls array source symbols addr syndrome count initiator).out = d.out := by
  first
  | (unfold Dev.memEvent; simp only [raise_out]; done)
  | (unfold Dev.memEvent; with_reducible rfl)
  | (unfold Dev.memEvent; simp; done)
  | (unfold Dev.memEvent; (repeat' first | with_reducible rfl | (simp; done) | split); done)
  | (unfold Dev.memEvent; try dsimp only
     (repeat' first | with_reducible rfl | (simp; done) | (with_reducible refine (foldl_out _ ?_ _ _).trans ?_ <;> try intro _ _) | dsimp only | split); done)

@[simp] theorem memEvent_fresh (d : Dev) (kind cls array source symbols addr syndrome count : Nat) (initiator : Nat) : (Dev.memEvent d kind cls array source symbols addr syndrome count initiator).fresh = d.fresh := by
  first
  | (unfold Dev.memEvent; simp only [raise_fresh]; done)
  | (unfold Dev.memEvent; with_reducible rfl)
  | (unfold Dev.memEvent; simp; done)
  | (unfold Dev.memEvent; (repeat' first | with_reducible rfl | (simp; done) | split); done)
  | (unfold Dev.memEvent; try dsimp only
     (repeat' first | with_reducible rfl | (simp; done) | (with_reducible refine (foldl_fresh _ ?_ _ _).trans ?_ <;> try intro _ _) | dsimp only | split); done)

@[simp] theorem timeFault_module (d : Dev) (what : Nat) (active : Bool) : (Dev.timeFault d what active).module = d.module := by
  first
  | (unfold Dev.timeFault; simp only [raise_module]; done)
  | (unfold Dev.timeFault; with_reducible rfl)
  | (unfold Dev.timeFault; simp; done)
  | (unfold Dev.timeFault; (repeat' first | with_reducible rfl | (simp; done) | split); done)
  | (unfold Dev.timeFault; try dsimp only
     (repeat' first | with_reducible rfl | (simp; done) | (with_reducible refine (foldl_module _ ?_ _ _).trans ?_ <;> try intro _ _) | dsimp only | split); done)

@[simp] theorem timeFault_net (d : Dev) (what : Nat) (active : Bool) : (Dev.timeFault d what active).net = d.net := by
  first
  | (unfold Dev.timeFault; simp only [raise_net]; done)
  | (unfold Dev.timeFault; with_reducible rfl)
  | (unfold Dev.timeFault; simp; done)
  | (unfold Dev.timeFault; (repeat' first | with_reducible rfl | (simp; done) | split); done)
  | (unfold Dev.timeFault; try dsimp only
     (repeat' first | with_reducible rfl | (simp; done) | (with_reducible refine (foldl_net _ ?_ _ _).trans ?_ <;> try intro _ _) | dsimp only | split); done)

@[simp] theorem timeFault_dir (d : Dev) (what : Nat) (active : Bool) : (Dev.timeFault d what active).dir = d.dir := by
  first
  | (unfold Dev.timeFault; simp only [raise_dir]; done)
  | (unfold Dev.timeFault; with_reducible rfl)
  | (unfold Dev.timeFault; simp; done)
  | (unfold Dev.timeFault; (repeat' first | with_reducible rfl | (simp; done) | split); done)
  | (unfold Dev.timeFault; try dsimp only
     (repeat' first | with_reducible rfl | (simp; done) | (with_reducible refine (foldl_dir _ ?_ _ _).trans ?_ <;> try intro _ _) | dsimp only | split); done)

@[simp] theorem timeFault_jobs (d : Dev) (what : Nat) (active : Bool) : (Dev.timeFault d what active).jobs = d.jobs := by
  first
  | (unfold Dev.timeFault; simp only [raise_jobs]; done)
  | (unfold Dev.timeFault; with_reducible rfl)
  | (unfold Dev.timeFault; simp; done)
  | (unfold Dev.timeFault; (repeat' first | with_reducible rfl | (simp; done) | split); done)
  | (unfold Dev.timeFault; try dsimp only
     (repeat' first | with_reducible rfl | (simp; done) | (with_reducible refine (foldl_jobs _ ?_ _ _).trans ?_ <;> try intro _ _) | dsimp only | split); done)

@[simp] theorem timeFault_circuits (d : Dev) (what : Nat) (active : Bool) : (Dev.timeFault d what active).circuits = d.circuits := by
  first
  | (unfold Dev.timeFault; simp only [raise_circuits]; done)
  | (unfold Dev.timeFault; with_reducible rfl)
  | (unfold Dev.timeFault; simp; done)
  | (unfold Dev.timeFault; (repeat' first | with_reducible rfl | (simp; done) | split); done)
  | (unfold Dev.timeFault; try dsimp only
     (repeat' first | with_reducible rfl | (simp; done) | (with_reducible refine (foldl_circuits _ ?_ _ _).trans ?_ <;> try intro _ _) | dsimp only | split); done)

@[simp] theorem timeFault_runs (d : Dev) (what : Nat) (active : Bool) : (Dev.timeFault d what active).runs = d.runs := by
  first
  | (unfold Dev.timeFault; simp only [raise_runs]; done)
  | (unfold Dev.timeFault; with_reducible rfl)
  | (unfold Dev.timeFault; simp; done)
  | (unfold Dev.timeFault; (repeat' first | with_reducible rfl | (simp; done) | split); done)
  | (unfold Dev.timeFault; try dsimp only
     (repeat' first | with_reducible rfl | (simp; done) | (with_reducible refine (foldl_runs _ ?_ _ _).trans ?_ <;> try intro _ _) | dsimp only | split); done)

@[simp] theorem timeFault_time (d : Dev) (what : Nat) (active : Bool) : (Dev.timeFault d what active).time = d.time := by
  first
  | (unfold Dev.timeFault; simp only [raise_time]; done)
  | (unfold Dev.timeFault; with_reducible rfl)
  | (unfold Dev.timeFault; simp; done)
  | (unfold Dev.timeFault; (repeat' first | with_reducible rfl | (simp; done) | split); done)
  | (unfold Dev.timeFault; try dsimp only
     (repeat' first | with_reducible rfl | (simp; done) | (with_reducible refine (foldl_time _ ?_ _ _).trans ?_ <;> try intro _ _) | dsimp only | split); done)

@[simp] theorem timeFault_eng (d : Dev) (what : Nat) (active : Bool) : (Dev.timeFault d what active).eng = d.eng := by
  first
  | (unfold Dev.timeFault; simp only [raise_eng]; done)
  | (unfold Dev.timeFault; with_reducible rfl)
  | (unfold Dev.timeFault; simp; done)
  | (unfold Dev.timeFault; (repeat' first | with_reducible rfl | (simp; done) | split); done)
  | (unfold Dev.timeFault; try dsimp only
     (repeat' first | with_reducible rfl | (simp; done) | (with_reducible refine (foldl_eng _ ?_ _ _).trans ?_ <;> try intro _ _) | dsimp only | split); done)

@[simp] theorem timeFault_rings (d : Dev) (what : Nat) (active : Bool) : (Dev.timeFault d what active).rings = d.rings := by
  first
  | (unfold Dev.timeFault; simp only [raise_rings]; done)
  | (unfold Dev.timeFault; with_reducible rfl)
  | (unfold Dev.timeFault; simp; done)
  | (unfold Dev.timeFault; (repeat' first | with_reducible rfl | (simp; done) | split); done)
  | (unfold Dev.timeFault; try dsimp only
     (repeat' first | with_reducible rfl | (simp; done) | (with_reducible refine (foldl_rings _ ?_ _ _).trans ?_ <;> try intro _ _) | dsimp only | split); done)

@[simp] theorem timeFault_arr (d : Dev) (what : Nat) (active : Bool) : (Dev.timeFault d what active).arr = d.arr := by
  first
  | (unfold Dev.timeFault; simp only [raise_arr]; done)
  | (unfold Dev.timeFault; with_reducible rfl)
  | (unfold Dev.timeFault; simp; done)
  | (unfold Dev.timeFault; (repeat' first | with_reducible rfl | (simp; done) | split); done)
  | (unfold Dev.timeFault; try dsimp only
     (repeat' first | with_reducible rfl | (simp; done) | (with_reducible refine (foldl_arr _ ?_ _ _).trans ?_ <;> try intro _ _) | dsimp only | split); done)

@[simp] theorem timeFault_opt (d : Dev) (what : Nat) (active : Bool) : (Dev.timeFault d what active).opt = d.opt := by
  first
  | (unfold Dev.timeFault; simp only [raise_opt]; done)
  | (unfold Dev.timeFault; with_reducible rfl)
  | (unfold Dev.timeFault; simp; done)
  | (unfold Dev.timeFault; (repeat' first | with_reducible rfl | (simp; done) | split); done)
  | (unfold Dev.timeFault; try dsimp only
     (repeat' first | with_reducible rfl | (simp; done) | (with_reducible refine (foldl_opt _ ?_ _ _).trans ?_ <;> try intro _ _) | dsimp only | split); done)

@[simp] theorem timeFault_disc (d : Dev) (what : Nat) (active : Bool) : (Dev.timeFault d what active).disc = d.disc := by
  first
  | (unfold Dev.timeFault; simp only [raise_disc]; done)
  | (unfold Dev.timeFault; with_reducible rfl)
  | (unfold Dev.timeFault; simp; done)
  | (unfold Dev.timeFault; (repeat' first | with_reducible rfl | (simp; done) | split); done)
  | (unfold Dev.timeFault; try dsimp only
     (repeat' first | with_reducible rfl | (simp; done) | (with_reducible refine (foldl_disc _ ?_ _ _).trans ?_ <;> try intro _ _) | dsimp only | split); done)

@[simp] theorem timeFault_coll (d : Dev) (what : Nat) (active : Bool) : (Dev.timeFault d what active).coll = d.coll := by
  first
  | (unfold Dev.timeFault; simp only [raise_coll]; done)
  | (unfold Dev.timeFault; with_reducible rfl)
  | (unfold Dev.timeFault; simp; done)
  | (unfold Dev.timeFault; (repeat' first | with_reducible rfl | (simp; done) | split); done)
  | (unfold Dev.timeFault; try dsimp only
     (repeat' first | with_reducible rfl | (simp; done) | (with_reducible refine (foldl_coll _ ?_ _ _).trans ?_ <;> try intro _ _) | dsimp only | split); done)

@[simp] theorem timeFault_twin (d : Dev) (what : Nat) (active : Bool) : (Dev.timeFault d what active).twin = d.twin := by
  first
  | (unfold Dev.timeFault; simp only [raise_twin]; done)
  | (unfold Dev.timeFault; with_reducible rfl)
  | (unfold Dev.timeFault; simp; done)
  | (unfold Dev.timeFault; (repeat' first | with_reducible rfl | (simp; done) | split); done)
  | (unfold Dev.timeFault; try dsimp only
     (repeat' first | with_reducible rfl | (simp; done) | (with_reducible refine (foldl_twin _ ?_ _ _).trans ?_ <;> try intro _ _) | dsimp only | split); done)

@[simp] theorem timeFault_power (d : Dev) (what : Nat) (active : Bool) : (Dev.timeFault d what active).power = d.power := by
  first
  | (unfold Dev.timeFault; simp only [raise_power]; done)
  | (unfold Dev.timeFault; with_reducible rfl)
  | (unfold Dev.timeFault; simp; done)
  | (unfold Dev.timeFault; (repeat' first | with_reducible rfl | (simp; done) | split); done)
  | (unfold Dev.timeFault; try dsimp only
     (repeat' first | with_reducible rfl | (simp; done) | (with_reducible refine (foldl_power _ ?_ _ _).trans ?_ <;> try intro _ _) | dsimp only | split); done)

@[simp] theorem timeFault_ob (d : Dev) (what : Nat) (active : Bool) : (Dev.timeFault d what active).ob = d.ob := by
  first
  | (unfold Dev.timeFault; simp only [raise_ob]; done)
  | (unfold Dev.timeFault; with_reducible rfl)
  | (unfold Dev.timeFault; simp; done)
  | (unfold Dev.timeFault; (repeat' first | with_reducible rfl | (simp; done) | split); done)
  | (unfold Dev.timeFault; try dsimp only
     (repeat' first | with_reducible rfl | (simp; done) | (with_reducible refine (foldl_ob _ ?_ _ _).trans ?_ <;> try intro _ _) | dsimp only | split); done)

@[simp] theorem timeFault_out (d : Dev) (what : Nat) (active : Bool) : (Dev.timeFault d what active).out = d.out := by
  first
  | (unfold Dev.timeFault; simp only [raise_out]; done)
  | (unfold Dev.timeFault; with_reducible rfl)
  | (unfold Dev.timeFault; simp; done)
  | (unfold Dev.timeFault; (repeat' first | with_reducible rfl | (simp; done) | split); done)
  | (unfold Dev.timeFault; try dsimp only
     (repeat' first | with_reducible rfl | (simp; done) | (with_reducible refine (foldl_out _ ?_ _ _).trans ?_ <;> try intro _ _) | dsimp only | split); done)

@[simp] theorem timeFault_fresh (d : Dev) (what : Nat) (active : Bool) : (Dev.timeFault d what active).fresh = d.fresh := by
  first
  | (unfold Dev.timeFault; simp only [raise_fresh]; done)
  | (unfold Dev.timeFault; with_reducible rfl)
  | (unfold Dev.timeFault; simp; done)
  | (unfold Dev.timeFault; (repeat' first | with_reducible rfl | (simp; done) | split); done)
  | (unfold Dev.timeFault; try dsimp only
     (repeat' first | with_reducible rfl | (simp; done) | (with_reducible refine (foldl_fresh _ ?_ _ _).trans ?_ <;> try intro _ _) | dsimp only | split); done)

@[simp] theorem ramp_module (d : Dev) (k : Nat) : (Dev.ramp d k).module = d.module := by
  first
  | (unfold Dev.ramp; simp only [emit_module, setDomain_module]; done)
  | (unfold Dev.ramp; with_reducible rfl)
  | (unfold Dev.ramp; simp; done)
  | (unfold Dev.ramp; (repeat' first | with_reducible rfl | (simp; done) | split); done)
  | (unfold Dev.ramp; try dsimp only
     (repeat' first | with_reducible rfl | (simp; done) | (with_reducible refine (foldl_module _ ?_ _ _).trans ?_ <;> try intro _ _) | dsimp only | split); done)

@[simp] theorem ramp_net (d : Dev) (k : Nat) : (Dev.ramp d k).net = d.net := by
  first
  | (unfold Dev.ramp; simp only [emit_net, setDomain_net]; done)
  | (unfold Dev.ramp; with_reducible rfl)
  | (unfold Dev.ramp; simp; done)
  | (unfold Dev.ramp; (repeat' first | with_reducible rfl | (simp; done) | split); done)
  | (unfold Dev.ramp; try dsimp only
     (repeat' first | with_reducible rfl | (simp; done) | (with_reducible refine (foldl_net _ ?_ _ _).trans ?_ <;> try intro _ _) | dsimp only | split); done)

@[simp] theorem ramp_dir (d : Dev) (k : Nat) : (Dev.ramp d k).dir = d.dir := by
  first
  | (unfold Dev.ramp; simp only [emit_dir, setDomain_dir]; done)
  | (unfold Dev.ramp; with_reducible rfl)
  | (unfold Dev.ramp; simp; done)
  | (unfold Dev.ramp; (repeat' first | with_reducible rfl | (simp; done) | split); done)
  | (unfold Dev.ramp; try dsimp only
     (repeat' first | with_reducible rfl | (simp; done) | (with_reducible refine (foldl_dir _ ?_ _ _).trans ?_ <;> try intro _ _) | dsimp only | split); done)

@[simp] theorem ramp_jobs (d : Dev) (k : Nat) : (Dev.ramp d k).jobs = d.jobs := by
  first
  | (unfold Dev.ramp; simp only [emit_jobs, setDomain_jobs]; done)
  | (unfold Dev.ramp; with_reducible rfl)
  | (unfold Dev.ramp; simp; done)
  | (unfold Dev.ramp; (repeat' first | with_reducible rfl | (simp; done) | split); done)
  | (unfold Dev.ramp; try dsimp only
     (repeat' first | with_reducible rfl | (simp; done) | (with_reducible refine (foldl_jobs _ ?_ _ _).trans ?_ <;> try intro _ _) | dsimp only | split); done)

@[simp] theorem ramp_circuits (d : Dev) (k : Nat) : (Dev.ramp d k).circuits = d.circuits := by
  first
  | (unfold Dev.ramp; simp only [emit_circuits, setDomain_circuits]; done)
  | (unfold Dev.ramp; with_reducible rfl)
  | (unfold Dev.ramp; simp; done)
  | (unfold Dev.ramp; (repeat' first | with_reducible rfl | (simp; done) | split); done)
  | (unfold Dev.ramp; try dsimp only
     (repeat' first | with_reducible rfl | (simp; done) | (with_reducible refine (foldl_circuits _ ?_ _ _).trans ?_ <;> try intro _ _) | dsimp only | split); done)

@[simp] theorem ramp_runs (d : Dev) (k : Nat) : (Dev.ramp d k).runs = d.runs := by
  first
  | (unfold Dev.ramp; simp only [emit_runs, setDomain_runs]; done)
  | (unfold Dev.ramp; with_reducible rfl)
  | (unfold Dev.ramp; simp; done)
  | (unfold Dev.ramp; (repeat' first | with_reducible rfl | (simp; done) | split); done)
  | (unfold Dev.ramp; try dsimp only
     (repeat' first | with_reducible rfl | (simp; done) | (with_reducible refine (foldl_runs _ ?_ _ _).trans ?_ <;> try intro _ _) | dsimp only | split); done)

@[simp] theorem ramp_time (d : Dev) (k : Nat) : (Dev.ramp d k).time = d.time := by
  first
  | (unfold Dev.ramp; simp only [emit_time, setDomain_time]; done)
  | (unfold Dev.ramp; with_reducible rfl)
  | (unfold Dev.ramp; simp; done)
  | (unfold Dev.ramp; (repeat' first | with_reducible rfl | (simp; done) | split); done)
  | (unfold Dev.ramp; try dsimp only
     (repeat' first | with_reducible rfl | (simp; done) | (with_reducible refine (foldl_time _ ?_ _ _).trans ?_ <;> try intro _ _) | dsimp only | split); done)

@[simp] theorem ramp_eng (d : Dev) (k : Nat) : (Dev.ramp d k).eng = d.eng := by
  first
  | (unfold Dev.ramp; simp only [emit_eng, setDomain_eng]; done)
  | (unfold Dev.ramp; with_reducible rfl)
  | (unfold Dev.ramp; simp; done)
  | (unfold Dev.ramp; (repeat' first | with_reducible rfl | (simp; done) | split); done)
  | (unfold Dev.ramp; try dsimp only
     (repeat' first | with_reducible rfl | (simp; done) | (with_reducible refine (foldl_eng _ ?_ _ _).trans ?_ <;> try intro _ _) | dsimp only | split); done)

@[simp] theorem ramp_rings (d : Dev) (k : Nat) : (Dev.ramp d k).rings = d.rings := by
  first
  | (unfold Dev.ramp; simp only [emit_rings, setDomain_rings]; done)
  | (unfold Dev.ramp; with_reducible rfl)
  | (unfold Dev.ramp; simp; done)
  | (unfold Dev.ramp; (repeat' first | with_reducible rfl | (simp; done) | split); done)
  | (unfold Dev.ramp; try dsimp only
     (repeat' first | with_reducible rfl | (simp; done) | (with_reducible refine (foldl_rings _ ?_ _ _).trans ?_ <;> try intro _ _) | dsimp only | split); done)

@[simp] theorem ramp_arr (d : Dev) (k : Nat) : (Dev.ramp d k).arr = d.arr := by
  first
  | (unfold Dev.ramp; simp only [emit_arr, setDomain_arr]; done)
  | (unfold Dev.ramp; with_reducible rfl)
  | (unfold Dev.ramp; simp; done)
  | (unfold Dev.ramp; (repeat' first | with_reducible rfl | (simp; done) | split); done)
  | (unfold Dev.ramp; try dsimp only
     (repeat' first | with_reducible rfl | (simp; done) | (with_reducible refine (foldl_arr _ ?_ _ _).trans ?_ <;> try intro _ _) | dsimp only | split); done)

@[simp] theorem ramp_opt (d : Dev) (k : Nat) : (Dev.ramp d k).opt = d.opt := by
  first
  | (unfold Dev.ramp; simp only [emit_opt, setDomain_opt]; done)
  | (unfold Dev.ramp; with_reducible rfl)
  | (unfold Dev.ramp; simp; done)
  | (unfold Dev.ramp; (repeat' first | with_reducible rfl | (simp; done) | split); done)
  | (unfold Dev.ramp; try dsimp only
     (repeat' first | with_reducible rfl | (simp; done) | (with_reducible refine (foldl_opt _ ?_ _ _).trans ?_ <;> try intro _ _) | dsimp only | split); done)

@[simp] theorem ramp_disc (d : Dev) (k : Nat) : (Dev.ramp d k).disc = d.disc := by
  first
  | (unfold Dev.ramp; simp only [emit_disc, setDomain_disc]; done)
  | (unfold Dev.ramp; with_reducible rfl)
  | (unfold Dev.ramp; simp; done)
  | (unfold Dev.ramp; (repeat' first | with_reducible rfl | (simp; done) | split); done)
  | (unfold Dev.ramp; try dsimp only
     (repeat' first | with_reducible rfl | (simp; done) | (with_reducible refine (foldl_disc _ ?_ _ _).trans ?_ <;> try intro _ _) | dsimp only | split); done)

@[simp] theorem ramp_coll (d : Dev) (k : Nat) : (Dev.ramp d k).coll = d.coll := by
  first
  | (unfold Dev.ramp; simp only [emit_coll, setDomain_coll]; done)
  | (unfold Dev.ramp; with_reducible rfl)
  | (unfold Dev.ramp; simp; done)
  | (unfold Dev.ramp; (repeat' first | with_reducible rfl | (simp; done) | split); done)
  | (unfold Dev.ramp; try dsimp only
     (repeat' first | with_reducible rfl | (simp; done) | (with_reducible refine (foldl_coll _ ?_ _ _).trans ?_ <;> try intro _ _) | dsimp only | split); done)

@[simp] theorem ramp_mem (d : Dev) (k : Nat) : (Dev.ramp d k).mem = d.mem := by
  first
  | (unfold Dev.ramp; simp only [emit_mem, setDomain_mem]; done)
  | (unfold Dev.ramp; with_reducible rfl)
  | (unfold Dev.ramp; simp; done)
  | (unfold Dev.ramp; (repeat' first | with_reducible rfl | (simp; done) | split); done)
  | (unfold Dev.ramp; try dsimp only
     (repeat' first | with_reducible rfl | (simp; done) | (with_reducible refine (foldl_mem _ ?_ _ _).trans ?_ <;> try intro _ _) | dsimp only | split); done)

@[simp] theorem ramp_faults (d : Dev) (k : Nat) : (Dev.ramp d k).faults = d.faults := by
  first
  | (unfold Dev.ramp; simp only [emit_faults, setDomain_faults]; done)
  | (unfold Dev.ramp; with_reducible rfl)
  | (unfold Dev.ramp; simp; done)
  | (unfold Dev.ramp; (repeat' first | with_reducible rfl | (simp; done) | split); done)
  | (unfold Dev.ramp; try dsimp only
     (repeat' first | with_reducible rfl | (simp; done) | (with_reducible refine (foldl_faults _ ?_ _ _).trans ?_ <;> try intro _ _) | dsimp only | split); done)

@[simp] theorem ramp_twin (d : Dev) (k : Nat) : (Dev.ramp d k).twin = d.twin := by
  first
  | (unfold Dev.ramp; simp only [emit_twin, setDomain_twin]; done)
  | (unfold Dev.ramp; with_reducible rfl)
  | (unfold Dev.ramp; simp; done)
  | (unfold Dev.ramp; (repeat' first | with_reducible rfl | (simp; done) | split); done)
  | (unfold Dev.ramp; try dsimp only
     (repeat' first | with_reducible rfl | (simp; done) | (with_reducible refine (foldl_twin _ ?_ _ _).trans ?_ <;> try intro _ _) | dsimp only | split); done)

@[simp] theorem ramp_upd (d : Dev) (k : Nat) : (Dev.ramp d k).upd = d.upd := by
  first
  | (unfold Dev.ramp; simp only [emit_upd, setDomain_upd]; done)
  | (unfold Dev.ramp; with_reducible rfl)
  | (unfold Dev.ramp; simp; done)
  | (unfold Dev.ramp; (repeat' first | with_reducible rfl | (simp; done) | split); done)
  | (unfold Dev.ramp; try dsimp only
     (repeat' first | with_reducible rfl | (simp; done) | (with_reducible refine (foldl_upd _ ?_ _ _).trans ?_ <;> try intro _ _) | dsimp only | split); done)

@[simp] theorem ramp_recr (d : Dev) (k : Nat) : (Dev.ramp d k).recr = d.recr := by
  first
  | (unfold Dev.ramp; simp only [emit_recr, setDomain_recr]; done)
  | (unfold Dev.ramp; with_reducible rfl)
  | (unfold Dev.ramp; simp; done)
  | (unfold Dev.ramp; (repeat' first | with_reducible rfl | (simp; done) | split); done)
  | (unfold Dev.ramp; try dsimp only
     (repeat' first | with_reducible rfl | (simp; done) | (with_reducible refine (foldl_recr _ ?_ _ _).trans ?_ <;> try intro _ _) | dsimp only | split); done)

@[simp] theorem ramp_od (d : Dev) (k : Nat) : (Dev.ramp d k).od = d.od := by
  first
  | (unfold Dev.ramp; simp only [emit_od, setDomain_od]; done)
  | (unfold Dev.ramp; with_reducible rfl)
  | (unfold Dev.ramp; simp; done)
  | (unfold Dev.ramp; (repeat' first | with_reducible rfl | (simp; done) | split); done)
  | (unfold Dev.ramp; try dsimp only
     (repeat' first | with_reducible rfl | (simp; done) | (with_reducible refine (foldl_od _ ?_ _ _).trans ?_ <;> try intro _ _) | dsimp only | split); done)

@[simp] theorem ramp_ob (d : Dev) (k : Nat) : (Dev.ramp d k).ob = d.ob := by
  first
  | (unfold Dev.ramp; simp only [emit_ob, setDomain_ob]; done)
  | (unfold Dev.ramp; with_reducible rfl)
  | (unfold Dev.ramp; simp; done)
  | (unfold Dev.ramp; (repeat' first | with_reducible rfl | (simp; done) | split); done)
  | (unfold Dev.ramp; try dsimp only
     (repeat' first | with_reducible rfl | (simp; done) | (with_reducible refine (foldl_ob _ ?_ _ _).trans ?_ <;> try intro _ _) | dsimp only | split); done)

@[simp] theorem ramp_fresh (d : Dev) (k : Nat) : (Dev.ramp d k).fresh = d.fresh := by
  first
  | (unfold Dev.ramp; simp only [emit_fresh, setDomain_fresh]; done)
  | (unfold Dev.ramp; with_reducible rfl)
  | (unfold Dev.ramp; simp; done)
  | (unfold Dev.ramp; (repeat' first | with_reducible rfl | (simp; done) | split); done)
  | (unfold Dev.ramp; try dsimp only
     (repeat' first | with_reducible rfl | (simp; done) | (with_reducible refine (foldl_fresh _ ?_ _ _).trans ?_ <;> try intro _ _) | dsimp only | split); done)

@[simp] theorem rampManagement_module (d : Dev) : (Dev.rampManagement d).module = d.module := by
  first
  | (unfold Dev.rampManagement; simp only [ramp_module]; done)
  | (unfold Dev.rampManagement; with_reducible rfl)
  | (unfold Dev.rampManagement; simp; done)
  | (unfold Dev.rampManagement; (repeat' first | with_reducible rfl | (simp; done) | split); done)
  | (unfold Dev.rampManagement; try dsimp only
     (repeat' first | with_reducible rfl | (simp; done) | (with_reducible refine (foldl_module _ ?_ _ _).trans ?_ <;> try intro _ _) | dsimp only | split); done)

@[simp] theorem rampManagement_net (d : Dev) : (Dev.rampManagement d).net = d.net := by
  first
  | (unfold Dev.rampManagement; simp only [ramp_net]; done)
  | (unfold Dev.rampManagement; with_reducible rfl)
  | (unfold Dev.rampManagement; simp; done)
  | (unfold Dev.rampManagement; (repeat' first | with_reducible rfl | (simp; done) | split); done)
  | (unfold Dev.rampManagement; try dsimp only
     (repeat' first | with_reducible rfl | (simp; done) | (with_reducible refine (foldl_net _ ?_ _ _).trans ?_ <;> try intro _ _) | dsimp only | split); done)

@[simp] theorem rampManagement_dir (d : Dev) : (Dev.rampManagement d).dir = d.dir := by
  first
  | (unfold Dev.rampManagement; simp only [ramp_dir]; done)
  | (unfold Dev.rampManagement; with_reducible rfl)
  | (unfold Dev.rampManagement; simp; done)
  | (unfold Dev.rampManagement; (repeat' first | with_reducible rfl | (simp; done) | split); done)
  | (unfold Dev.rampManagement; try dsimp only
     (repeat' first | with_reducible rfl | (simp; done) | (with_reducible refine (foldl_dir _ ?_ _ _).trans ?_ <;> try intro _ _) | dsimp only | split); done)

@[simp] theorem rampManagement_jobs (d : Dev) : (Dev.rampManagement d).jobs = d.jobs := by
  first
  | (unfold Dev.rampManagement; simp only [ramp_jobs]; done)
  | (unfold Dev.rampManagement; with_reducible rfl)
  | (unfold Dev.rampManagement; simp; done)
  | (unfold Dev.rampManagement; (repeat' first | with_reducible rfl | (simp; done) | split); done)
  | (unfold Dev.rampManagement; try dsimp only
     (repeat' first | with_reducible rfl | (simp; done) | (with_reducible refine (foldl_jobs _ ?_ _ _).trans ?_ <;> try intro _ _) | dsimp only | split); done)

@[simp] theorem rampManagement_circuits (d : Dev) : (Dev.rampManagement d).circuits = d.circuits := by
  first
  | (unfold Dev.rampManagement; simp only [ramp_circuits]; done)
  | (unfold Dev.rampManagement; with_reducible rfl)
  | (unfold Dev.rampManagement; simp; done)
  | (unfold Dev.rampManagement; (repeat' first | with_reducible rfl | (simp; done) | split); done)
  | (unfold Dev.rampManagement; try dsimp only
     (repeat' first | with_reducible rfl | (simp; done) | (with_reducible refine (foldl_circuits _ ?_ _ _).trans ?_ <;> try intro _ _) | dsimp only | split); done)

@[simp] theorem rampManagement_runs (d : Dev) : (Dev.rampManagement d).runs = d.runs := by
  first
  | (unfold Dev.rampManagement; simp only [ramp_runs]; done)
  | (unfold Dev.rampManagement; with_reducible rfl)
  | (unfold Dev.rampManagement; simp; done)
  | (unfold Dev.rampManagement; (repeat' first | with_reducible rfl | (simp; done) | split); done)
  | (unfold Dev.rampManagement; try dsimp only
     (repeat' first | with_reducible rfl | (simp; done) | (with_reducible refine (foldl_runs _ ?_ _ _).trans ?_ <;> try intro _ _) | dsimp only | split); done)

@[simp] theorem rampManagement_time (d : Dev) : (Dev.rampManagement d).time = d.time := by
  first
  | (unfold Dev.rampManagement; simp only [ramp_time]; done)
  | (unfold Dev.rampManagement; with_reducible rfl)
  | (unfold Dev.rampManagement; simp; done)
  | (unfold Dev.rampManagement; (repeat' first | with_reducible rfl | (simp; done) | split); done)
  | (unfold Dev.rampManagement; try dsimp only
     (repeat' first | with_reducible rfl | (simp; done) | (with_reducible refine (foldl_time _ ?_ _ _).trans ?_ <;> try intro _ _) | dsimp only | split); done)

@[simp] theorem rampManagement_eng (d : Dev) : (Dev.rampManagement d).eng = d.eng := by
  first
  | (unfold Dev.rampManagement; simp only [ramp_eng]; done)
  | (unfold Dev.rampManagement; with_reducible rfl)
  | (unfold Dev.rampManagement; simp; done)
  | (unfold Dev.rampManagement; (repeat' first | with_reducible rfl | (simp; done) | split); done)
  | (unfold Dev.rampManagement; try dsimp only
     (repeat' first | with_reducible rfl | (simp; done) | (with_reducible refine (foldl_eng _ ?_ _ _).trans ?_ <;> try intro _ _) | dsimp only | split); done)

@[simp] theorem rampManagement_rings (d : Dev) : (Dev.rampManagement d).rings = d.rings := by
  first
  | (unfold Dev.rampManagement; simp only [ramp_rings]; done)
  | (unfold Dev.rampManagement; with_reducible rfl)
  | (unfold Dev.rampManagement; simp; done)
  | (unfold Dev.rampManagement; (repeat' first | with_reducible rfl | (simp; done) | split); done)
  | (unfold Dev.rampManagement; try dsimp only
     (repeat' first | with_reducible rfl | (simp; done) | (with_reducible refine (foldl_rings _ ?_ _ _).trans ?_ <;> try intro _ _) | dsimp only | split); done)

@[simp] theorem rampManagement_arr (d : Dev) : (Dev.rampManagement d).arr = d.arr := by
  first
  | (unfold Dev.rampManagement; simp only [ramp_arr]; done)
  | (unfold Dev.rampManagement; with_reducible rfl)
  | (unfold Dev.rampManagement; simp; done)
  | (unfold Dev.rampManagement; (repeat' first | with_reducible rfl | (simp; done) | split); done)
  | (unfold Dev.rampManagement; try dsimp only
     (repeat' first | with_reducible rfl | (simp; done) | (with_reducible refine (foldl_arr _ ?_ _ _).trans ?_ <;> try intro _ _) | dsimp only | split); done)

@[simp] theorem rampManagement_opt (d : Dev) : (Dev.rampManagement d).opt = d.opt := by
  first
  | (unfold Dev.rampManagement; simp only [ramp_opt]; done)
  | (unfold Dev.rampManagement; with_reducible rfl)
  | (unfold Dev.rampManagement; simp; done)
  | (unfold Dev.rampManagement; (repeat' first | with_reducible rfl | (simp; done) | split); done)
  | (unfold Dev.rampManagement; try dsimp only
     (repeat' first | with_reducible rfl | (simp; done) | (with_reducible refine (foldl_opt _ ?_ _ _).trans ?_ <;> try intro _ _) | dsimp only | split); done)

@[simp] theorem rampManagement_disc (d : Dev) : (Dev.rampManagement d).disc = d.disc := by
  first
  | (unfold Dev.rampManagement; simp only [ramp_disc]; done)
  | (unfold Dev.rampManagement; with_reducible rfl)
  | (unfold Dev.rampManagement; simp; done)
  | (unfold Dev.rampManagement; (repeat' first | with_reducible rfl | (simp; done) | split); done)
  | (unfold Dev.rampManagement; try dsimp only
     (repeat' first | with_reducible rfl | (simp; done) | (with_reducible refine (foldl_disc _ ?_ _ _).trans ?_ <;> try intro _ _) | dsimp only | split); done)

@[simp] theorem rampManagement_coll (d : Dev) : (Dev.rampManagement d).coll = d.coll := by
  first
  | (unfold Dev.rampManagement; simp only [ramp_coll]; done)
  | (unfold Dev.rampManagement; with_reducible rfl)
  | (unfold Dev.rampManagement; simp; done)
  | (unfold Dev.rampManagement; (repeat' first | with_reducible rfl | (simp; done) | split); done)
  | (unfold Dev.rampManagement; try dsimp only
     (repeat' first | with_reducible rfl | (simp; done) | (with_reducible refine (foldl_coll _ ?_ _ _).trans ?_ <;> try intro _ _) | dsimp only | split); done)

@[simp] theorem rampManagement_mem (d : Dev) : (Dev.rampManagement d).mem = d.mem := by
  first
  | (unfold Dev.rampManagement; simp only [ramp_mem]; done)
  | (unfold Dev.rampManagement; with_reducible rfl)
  | (unfold Dev.rampManagement; simp; done)
  | (unfold Dev.rampManagement; (repeat' first | with_reducible rfl | (simp; done) | split); done)
  | (unfold Dev.rampManagement; try dsimp only
     (repeat' first | with_reducible rfl | (simp; done) | (with_reducible refine (foldl_mem _ ?_ _ _).trans ?_ <;> try intro _ _) | dsimp only | split); done)

@[simp] theorem rampManagement_faults (d : Dev) : (Dev.rampManagement d).faults = d.faults := by
  first
  | (unfold Dev.rampManagement; simp only [ramp_faults]; done)
  | (unfold Dev.rampManagement; with_reducible rfl)
  | (unfold Dev.rampManagement; simp; done)
  | (unfold Dev.rampManagement; (repeat' first | with_reducible rfl | (simp; done) | split); done)
  | (unfold Dev.rampManagement; try dsimp only
     (repeat' first | with_reducible rfl | (simp; done) | (with_reducible refine (foldl_faults _ ?_ _ _).trans ?_ <;> try intro _ _) | dsimp only | split); done)

@[simp] theorem rampManagement_twin (d : Dev) : (Dev.rampManagement d).twin = d.twin := by
  first
  | (unfold Dev.rampManagement; simp only [ramp_twin]; done)
  | (unfold Dev.rampManagement; with_reducible rfl)
  | (unfold Dev.rampManagement; simp; done)
  | (unfold Dev.rampManagement; (repeat' first | with_reducible rfl | (simp; done) | split); done)
  | (unfold Dev.rampManagement; try dsimp only
     (repeat' first | with_reducible rfl | (simp; done) | (with_reducible refine (foldl_twin _ ?_ _ _).trans ?_ <;> try intro _ _) | dsimp only | split); done)

@[simp] theorem rampManagement_upd (d : Dev) : (Dev.rampManagement d).upd = d.upd := by
  first
  | (unfold Dev.rampManagement; simp only [ramp_upd]; done)
  | (unfold Dev.rampManagement; with_reducible rfl)
  | (unfold Dev.rampManagement; simp; done)
  | (unfold Dev.rampManagement; (repeat' first | with_reducible rfl | (simp; done) | split); done)
  | (unfold Dev.rampManagement; try dsimp only
     (repeat' first | with_reducible rfl | (simp; done) | (with_reducible refine (foldl_upd _ ?_ _ _).trans ?_ <;> try intro _ _) | dsimp only | split); done)

@[simp] theorem rampManagement_recr (d : Dev) : (Dev.rampManagement d).recr = d.recr := by
  first
  | (unfold Dev.rampManagement; simp only [ramp_recr]; done)
  | (unfold Dev.rampManagement; with_reducible rfl)
  | (unfold Dev.rampManagement; simp; done)
  | (unfold Dev.rampManagement; (repeat' first | with_reducible rfl | (simp; done) | split); done)
  | (unfold Dev.rampManagement; try dsimp only
     (repeat' first | with_reducible rfl | (simp; done) | (with_reducible refine (foldl_recr _ ?_ _ _).trans ?_ <;> try intro _ _) | dsimp only | split); done)

@[simp] theorem rampManagement_od (d : Dev) : (Dev.rampManagement d).od = d.od := by
  first
  | (unfold Dev.rampManagement; simp only [ramp_od]; done)
  | (unfold Dev.rampManagement; with_reducible rfl)
  | (unfold Dev.rampManagement; simp; done)
  | (unfold Dev.rampManagement; (repeat' first | with_reducible rfl | (simp; done) | split); done)
  | (unfold Dev.rampManagement; try dsimp only
     (repeat' first | with_reducible rfl | (simp; done) | (with_reducible refine (foldl_od _ ?_ _ _).trans ?_ <;> try intro _ _) | dsimp only | split); done)

@[simp] theorem rampManagement_ob (d : Dev) : (Dev.rampManagement d).ob = d.ob := by
  first
  | (unfold Dev.rampManagement; simp only [ramp_ob]; done)
  | (unfold Dev.rampManagement; with_reducible rfl)
  | (unfold Dev.rampManagement; simp; done)
  | (unfold Dev.rampManagement; (repeat' first | with_reducible rfl | (simp; done) | split); done)
  | (unfold Dev.rampManagement; try dsimp only
     (repeat' first | with_reducible rfl | (simp; done) | (with_reducible refine (foldl_ob _ ?_ _ _).trans ?_ <;> try intro _ _) | dsimp only | split); done)

@[simp] theorem rampManagement_fresh (d : Dev) : (Dev.rampManagement d).fresh = d.fresh := by
  first
  | (unfold Dev.rampManagement; simp only [ramp_fresh]; done)
  | (unfold Dev.rampManagement; with_reducible rfl)
  | (unfold Dev.rampManagement; simp; done)
  | (unfold Dev.rampManagement; (repeat' first | with_reducible rfl | (simp; done) | split); done)
  | (unfold Dev.rampManagement; try dsimp only
     (repeat' first | with_reducible rfl | (simp; done) | (with_reducible refine (foldl_fresh _ ?_ _ _).trans ?_ <;> try intro _ _) | dsimp only | split); done)

@[simp] theorem permitCount_module (d : Dev) (cls sub : Nat) : (Dev.permitCount d cls sub).module = d.module := by
  first
  | (unfold Dev.permitCount; simp only [bump_module]; done)
  | (unfold Dev.permitCount; with_reducible rfl)
  | (unfold Dev.permitCount; simp; done)
  | (unfold Dev.permitCount; (repeat' first | with_reducible rfl | (simp; done) | split); done)
  | (unfold Dev.permitCount; try dsimp only
     (repeat' first | with_reducible rfl | (simp; done) | (with_reducible refine (foldl_module _ ?_ _ _).trans ?_ <;> try intro _ _) | dsimp only | split); done)

@[simp] theorem permitCount_net (d : Dev) (cls sub : Nat) : (Dev.permitCount d cls sub).net = d.net := by
  first
  | (unfold Dev.permitCount; simp only [bump_net]; done)
  | (unfold Dev.permitCount; with_reducible rfl)
  | (unfold Dev.permitCount; simp; done)
  | (unfold Dev.permitCount; (repeat' first | with_reducible rfl | (simp; done) | split); done)
  | (unfold Dev.permitCount; try dsimp only
     (repeat' first | with_reducible rfl | (simp; done) | (with_reducible refine (foldl_net _ ?_ _ _).trans ?_ <;> try intro _ _) | dsimp only | split); done)

@[simp] theorem permitCount_dir (d : Dev) (cls sub : Nat) : (Dev.permitCount d cls sub).dir = d.dir := by
  first
  | (unfold Dev.permitCount; simp only [bump_dir]; done)
  | (unfold Dev.permitCount; with_reducible rfl)
  | (unfold Dev.permitCount; simp; done)
  | (unfold Dev.permitCount; (repeat' first | with_reducible rfl | (simp; done) | split); done)
  | (unfold Dev.permitCount; try dsimp only
     (repeat' first | with_reducible rfl | (simp; done) | (with_reducible refine (foldl_dir _ ?_ _ _).trans ?_ <;> try intro _ _) | dsimp only | split); done)

@[simp] theorem permitCount_jobs (d : Dev) (cls sub : Nat) : (Dev.permitCount d cls sub).jobs = d.jobs := by
  first
  | (unfold Dev.permitCount; simp only [bump_jobs]; done)
  | (unfold Dev.permitCount; with_reducible rfl)
  | (unfold Dev.permitCount; simp; done)
  | (unfold Dev.permitCount; (repeat' first | with_reducible rfl | (simp; done) | split); done)
  | (unfold Dev.permitCount; try dsimp only
     (repeat' first | with_reducible rfl | (simp; done) | (with_reducible refine (foldl_jobs _ ?_ _ _).trans ?_ <;> try intro _ _) | dsimp only | split); done)

@[simp] theorem permitCount_circuits (d : Dev) (cls sub : Nat) : (Dev.permitCount d cls sub).circuits = d.circuits := by
  first
  | (unfold Dev.permitCount; simp only [bump_circuits]; done)
  | (unfold Dev.permitCount; with_reducible rfl)
  | (unfold Dev.permitCount; simp; done)
  | (unfold Dev.permitCount; (repeat' first | with_reducible rfl | (simp; done) | split); done)
  | (unfold Dev.permitCount; try dsimp only
     (repeat' first | with_reducible rfl | (simp; done) | (with_reducible refine (foldl_circuits _ ?_ _ _).trans ?_ <;> try intro _ _) | dsimp only | split); done)

@[simp] theorem permitCount_runs (d : Dev) (cls sub : Nat) : (Dev.permitCount d cls sub).runs = d.runs := by
  first
  | (unfold Dev.permitCount; simp only [bump_runs]; done)
  | (unfold Dev.permitCount; with_reducible rfl)
  | (unfold Dev.permitCount; simp; done)
  | (unfold Dev.permitCount; (repeat' first | with_reducible rfl | (simp; done) | split); done)
  | (unfold Dev.permitCount; try dsimp only
     (repeat' first | with_reducible rfl | (simp; done) | (with_reducible refine (foldl_runs _ ?_ _ _).trans ?_ <;> try intro _ _) | dsimp only | split); done)

@[simp] theorem permitCount_time (d : Dev) (cls sub : Nat) : (Dev.permitCount d cls sub).time = d.time := by
  first
  | (unfold Dev.permitCount; simp only [bump_time]; done)
  | (unfold Dev.permitCount; with_reducible rfl)
  | (unfold Dev.permitCount; simp; done)
  | (unfold Dev.permitCount; (repeat' first | with_reducible rfl | (simp; done) | split); done)
  | (unfold Dev.permitCount; try dsimp only
     (repeat' first | with_reducible rfl | (simp; done) | (with_reducible refine (foldl_time _ ?_ _ _).trans ?_ <;> try intro _ _) | dsimp only | split); done)

@[simp] theorem permitCount_eng (d : Dev) (cls sub : Nat) : (Dev.permitCount d cls sub).eng = d.eng := by
  first
  | (unfold Dev.permitCount; simp only [bump_eng]; done)
  | (unfold Dev.permitCount; with_reducible rfl)
  | (unfold Dev.permitCount; simp; done)
  | (unfold Dev.permitCount; (repeat' first | with_reducible rfl | (simp; done) | split); done)
  | (unfold Dev.permitCount; try dsimp only
     (repeat' first | with_reducible rfl | (simp; done) | (with_reducible refine (foldl_eng _ ?_ _ _).trans ?_ <;> try intro _ _) | dsimp only | split); done)

@[simp] theorem permitCount_rings (d : Dev) (cls sub : Nat) : (Dev.permitCount d cls sub).rings = d.rings := by
  first
  | (unfold Dev.permitCount; simp only [bump_rings]; done)
  | (unfold Dev.permitCount; with_reducible rfl)
  | (unfold Dev.permitCount; simp; done)
  | (unfold Dev.permitCount; (repeat' first | with_reducible rfl | (simp; done) | split); done)
  | (unfold Dev.permitCount; try dsimp only
     (repeat' first | with_reducible rfl | (simp; done) | (with_reducible refine (foldl_rings _ ?_ _ _).trans ?_ <;> try intro _ _) | dsimp only | split); done)

@[simp] theorem permitCount_arr (d : Dev) (cls sub : Nat) : (Dev.permitCount d cls sub).arr = d.arr := by
  first
  | (unfold Dev.permitCount; simp only [bump_arr]; done)
  | (unfold Dev.permitCount; with_reducible rfl)
  | (unfold Dev.permitCount; simp; done)
  | (unfold Dev.permitCount; (repeat' first | with_reducible rfl | (simp; done) | split); done)
  | (unfold Dev.permitCount; try dsimp only
     (repeat' first | with_reducible rfl | (simp; done) | (with_reducible refine (foldl_arr _ ?_ _ _).trans ?_ <;> try intro _ _) | dsimp only | split); done)

@[simp] theorem permitCount_opt (d : Dev) (cls sub : Nat) : (Dev.permitCount d cls sub).opt = d.opt := by
  first
  | (unfold Dev.permitCount; simp only [bump_opt]; done)
  | (unfold Dev.permitCount; with_reducible rfl)
  | (unfold Dev.permitCount; simp; done)
  | (unfold Dev.permitCount; (repeat' first | with_reducible rfl | (simp; done) | split); done)
  | (unfold Dev.permitCount; try dsimp only
     (repeat' first | with_reducible rfl | (simp; done) | (with_reducible refine (foldl_opt _ ?_ _ _).trans ?_ <;> try intro _ _) | dsimp only | split); done)

@[simp] theorem permitCount_disc (d : Dev) (cls sub : Nat) : (Dev.permitCount d cls sub).disc = d.disc := by
  first
  | (unfold Dev.permitCount; simp only [bump_disc]; done)
  | (unfold Dev.permitCount; with_reducible rfl)
  | (unfold Dev.permitCount; simp; done)
  | (unfold Dev.permitCount; (repeat' first | with_reducible rfl | (simp; done) | split); done)
  | (unfold Dev.permitCount; try dsimp only
     (repeat' first | with_reducible rfl | (simp; done) | (with_reducible refine (foldl_disc _ ?_ _ _).trans ?_ <;> try intro _ _) | dsimp only | split); done)

@[simp] theorem permitCount_coll (d : Dev) (cls sub : Nat) : (Dev.permitCount d cls sub).coll = d.coll := by
  first
  | (unfold Dev.permitCount; simp only [bump_coll]; done)
  | (unfold Dev.permitCount; with_reducible rfl)
  | (unfold Dev.permitCount; simp; done)
  | (unfold Dev.permitCount; (repeat' first | with_reducible rfl | (simp; done) | split); done)
  | (unfold Dev.permitCount; try dsimp only
     (repeat' first | with_reducible rfl | (simp; done) | (with_reducible refine (foldl_coll _ ?_ _ _).trans ?_ <;> try intro _ _) | dsimp only | split); done)

@[simp] theorem permitCount_mem (d : Dev) (cls sub : Nat) : (Dev.permitCount d cls sub).mem = d.mem := by
  first
  | (unfold Dev.permitCount; simp only [bump_mem]; done)
  | (unfold Dev.permitCount; with_reducible rfl)
  | (unfold Dev.permitCount; simp; done)
  | (unfold Dev.permitCount; (repeat' first | with_reducible rfl | (simp; done) | split); done)
  | (unfold Dev.permitCount; try dsimp only
     (repeat' first | with_reducible rfl | (simp; done) | (with_reducible refine (foldl_mem _ ?_ _ _).trans ?_ <;> try intro _ _) | dsimp only | split); done)

@[simp] theorem permitCount_faults (d : Dev) (cls sub : Nat) : (Dev.permitCount d cls sub).faults = d.faults := by
  first
  | (unfold Dev.permitCount; simp only [bump_faults]; done)
  | (unfold Dev.permitCount; with_reducible rfl)
  | (unfold Dev.permitCount; simp; done)
  | (unfold Dev.permitCount; (repeat' first | with_reducible rfl | (simp; done) | split); done)
  | (unfold Dev.permitCount; try dsimp only
     (repeat' first | with_reducible rfl | (simp; done) | (with_reducible refine (foldl_faults _ ?_ _ _).trans ?_ <;> try intro _ _) | dsimp only | split); done)

@[simp] theorem permitCount_twin (d : Dev) (cls sub : Nat) : (Dev.permitCount d cls sub).twin = d.twin := by
  first
  | (unfold Dev.permitCount; simp only [bump_twin]; done)
  | (unfold Dev.permitCount; with_reducible rfl)
  | (unfold Dev.permitCount; simp; done)
  | (unfold Dev.permitCount; (repeat' first | with_reducible rfl | (simp; done) | split); done)
  | (unfold Dev.permitCount; try dsimp only
     (repeat' first | with_reducible rfl | (simp; done) | (with_reducible refine (foldl_twin _ ?_ _ _).trans ?_ <;> try intro _ _) | dsimp only | split); done)

@[simp] theorem permitCount_power (d : Dev) (cls sub : Nat) : (Dev.permitCount d cls sub).power = d.power := by
  first
  | (unfold Dev.permitCount; simp only [bump_power]; done)
  | (unfold Dev.permitCount; with_reducible rfl)
  | (unfold Dev.permitCount; simp; done)
  | (unfold Dev.permitCount; (repeat' first | with_reducible rfl | (simp; done) | split); done)
  | (unfold Dev.permitCount; try dsimp only
     (repeat' first | with_reducible rfl | (simp; done) | (with_reducible refine (foldl_power _ ?_ _ _).trans ?_ <;> try intro _ _) | dsimp only | split); done)

@[simp] theorem permitCount_upd (d : Dev) (cls sub : Nat) : (Dev.permitCount d cls sub).upd = d.upd := by
  first
  | (unfold Dev.permitCount; simp only [bump_upd]; done)
  | (unfold Dev.permitCount; with_reducible rfl)
  | (unfold Dev.permitCount; simp; done)
  | (unfold Dev.permitCount; (repeat' first | with_reducible rfl | (simp; done) | split); done)
  | (unfold Dev.permitCount; try dsimp only
     (repeat' first | with_reducible rfl | (simp; done) | (with_reducible refine (foldl_upd _ ?_ _ _).trans ?_ <;> try intro _ _) | dsimp only | split); done)

@[simp] theorem permitCount_recr (d : Dev) (cls sub : Nat) : (Dev.permitCount d cls sub).recr = d.recr := by
  first
  | (unfold Dev.permitCount; simp only [bump_recr]; done)
  | (unfold Dev.permitCount; with_reducible rfl)
  | (unfold Dev.permitCount; simp; done)
  | (unfold Dev.permitCount; (repeat' first | with_reducible rfl | (simp; done) | split); done)
  | (unfold Dev.permitCount; try dsimp only
     (repeat' first | with_reducible rfl | (simp; done) | (with_reducible refine (foldl_recr _ ?_ _ _).trans ?_ <;> try intro _ _) | dsimp only | split); done)

@[simp] theorem permitCount_ob (d : Dev) (cls sub : Nat) : (Dev.permitCount d cls sub).ob = d.ob := by
  first
  | (unfold Dev.permitCount; simp only [bump_ob]; done)
  | (unfold Dev.permitCount; with_reducible rfl)
  | (unfold Dev.permitCount; simp; done)
  | (unfold Dev.permitCount; (repeat' first | with_reducible rfl | (simp; done) | split); done)
  | (unfold Dev.permitCount; try dsimp only
     (repeat' first | with_reducible rfl | (simp; done) | (with_reducible refine (foldl_ob _ ?_ _ _).trans ?_ <;> try intro _ _) | dsimp only | split); done)

@[simp] theorem permitCount_out (d : Dev) (cls sub : Nat) : (Dev.permitCount d cls sub).out = d.out := by
  first
  | (unfold Dev.permitCount; simp only [bump_out]; done)
  | (unfold Dev.permitCount; with_reducible rfl)
  | (unfold Dev.permitCount; simp; done)
  | (unfold Dev.permitCount; (repeat' first | with_reducible rfl | (simp; done) | split); done)
  | (unfold Dev.permitCount; try dsimp only
     (repeat' first | with_reducible rfl | (simp; done) | (with_reducible refine (foldl_out _ ?_ _ _).trans ?_ <;> try intro _ _) | dsimp only | split); done)

@[simp] theorem permitCount_fresh (d : Dev) (cls sub : Nat) : (Dev.permitCount d cls sub).fresh = d.fresh := by
  first
  | (unfold Dev.permitCount; simp only [bump_fresh]; done)
  | (unfold Dev.permitCount; with_reducible rfl)
  | (unfold Dev.permitCount; simp; done)
  | (unfold Dev.permitCount; (repeat' first | with_reducible rfl | (simp; done) | split); done)
  | (unfold Dev.permitCount; try dsimp only
     (repeat' first | with_reducible rfl | (simp; done) | (with_reducible refine (foldl_fresh _ ?_ _ _).trans ?_ <;> try intro _ _) | dsimp only | split); done)

@[simp] theorem revoke_module (d : Dev) (g : Permit) : (Dev.revoke d g).module = d.module := by
  first
  | (unfold Dev.revoke; simp only [emit_module, permitCount_module, release_module]; done)
  | (unfold Dev.revoke; with_reducible rfl)
  | (unfold Dev.revoke; simp; done)
  | (unfold Dev.revoke; (repeat' first | with_reducible rfl | (simp; done) | split); done)
  | (unfold Dev.revoke; try dsimp only
     (repeat' first | with_reducible rfl | (simp; done) | (with_reducible refine (foldl_module _ ?_ _ _).trans ?_ <;> try intro _ _) | dsimp only | split); done)

@[simp] theorem revoke_net (d : Dev) (g : Permit) : (Dev.revoke d g).net = d.net := by
  first
  | (unfold Dev.revoke; simp only [emit_net, permitCount_net, release_net]; done)
  | (unfold Dev.revoke; with_reducible rfl)
  | (unfold Dev.revoke; simp; done)
  | (unfold Dev.revoke; (repeat' first | with_reducible rfl | (simp; done) | split); done)
  | (unfold Dev.revoke; try dsimp only
     (repeat' first | with_reducible rfl | (simp; done) | (with_reducible refine (foldl_net _ ?_ _ _).trans ?_ <;> try intro _ _) | dsimp only | split); done)

@[simp] theorem revoke_dir (d : Dev) (g : Permit) : (Dev.revoke d g).dir = d.dir := by
  first
  | (unfold Dev.revoke; simp only [emit_dir, permitCount_dir, release_dir]; done)
  | (unfold Dev.revoke; with_reducible rfl)
  | (unfold Dev.revoke; simp; done)
  | (unfold Dev.revoke; (repeat' first | with_reducible rfl | (simp; done) | split); done)
  | (unfold Dev.revoke; try dsimp only
     (repeat' first | with_reducible rfl | (simp; done) | (with_reducible refine (foldl_dir _ ?_ _ _).trans ?_ <;> try intro _ _) | dsimp only | split); done)

@[simp] theorem revoke_jobs (d : Dev) (g : Permit) : (Dev.revoke d g).jobs = d.jobs := by
  first
  | (unfold Dev.revoke; simp only [emit_jobs, permitCount_jobs, release_jobs]; done)
  | (unfold Dev.revoke; with_reducible rfl)
  | (unfold Dev.revoke; simp; done)
  | (unfold Dev.revoke; (repeat' first | with_reducible rfl | (simp; done) | split); done)
  | (unfold Dev.revoke; try dsimp only
     (repeat' first | with_reducible rfl | (simp; done) | (with_reducible refine (foldl_jobs _ ?_ _ _).trans ?_ <;> try intro _ _) | dsimp only | split); done)

@[simp] theorem revoke_circuits (d : Dev) (g : Permit) : (Dev.revoke d g).circuits = d.circuits := by
  first
  | (unfold Dev.revoke; simp only [emit_circuits, permitCount_circuits, release_circuits]; done)
  | (unfold Dev.revoke; with_reducible rfl)
  | (unfold Dev.revoke; simp; done)
  | (unfold Dev.revoke; (repeat' first | with_reducible rfl | (simp; done) | split); done)
  | (unfold Dev.revoke; try dsimp only
     (repeat' first | with_reducible rfl | (simp; done) | (with_reducible refine (foldl_circuits _ ?_ _ _).trans ?_ <;> try intro _ _) | dsimp only | split); done)

@[simp] theorem revoke_runs (d : Dev) (g : Permit) : (Dev.revoke d g).runs = d.runs := by
  first
  | (unfold Dev.revoke; simp only [emit_runs, permitCount_runs, release_runs]; done)
  | (unfold Dev.revoke; with_reducible rfl)
  | (unfold Dev.revoke; simp; done)
  | (unfold Dev.revoke; (repeat' first | with_reducible rfl | (simp; done) | split); done)
  | (unfold Dev.revoke; try dsimp only
     (repeat' first | with_reducible rfl | (simp; done) | (with_reducible refine (foldl_runs _ ?_ _ _).trans ?_ <;> try intro _ _) | dsimp only | split); done)

@[simp] theorem revoke_time (d : Dev) (g : Permit) : (Dev.revoke d g).time = d.time := by
  first
  | (unfold Dev.revoke; simp only [emit_time, permitCount_time, release_time]; done)
  | (unfold Dev.revoke; with_reducible rfl)
  | (unfold Dev.revoke; simp; done)
  | (unfold Dev.revoke; (repeat' first | with_reducible rfl | (simp; done) | split); done)
  | (unfold Dev.revoke; try dsimp only
     (repeat' first | with_reducible rfl | (simp; done) | (with_reducible refine (foldl_time _ ?_ _ _).trans ?_ <;> try intro _ _) | dsimp only | split); done)

@[simp] theorem revoke_eng (d : Dev) (g : Permit) : (Dev.revoke d g).eng = d.eng := by
  first
  | (unfold Dev.revoke; simp only [emit_eng, permitCount_eng, release_eng]; done)
  | (unfold Dev.revoke; with_reducible rfl)
  | (unfold Dev.revoke; simp; done)
  | (unfold Dev.revoke; (repeat' first | with_reducible rfl | (simp; done) | split); done)
  | (unfold Dev.revoke; try dsimp only
     (repeat' first | with_reducible rfl | (simp; done) | (with_reducible refine (foldl_eng _ ?_ _ _).trans ?_ <;> try intro _ _) | dsimp only | split); done)

@[simp] theorem revoke_rings (d : Dev) (g : Permit) : (Dev.revoke d g).rings = d.rings := by
  first
  | (unfold Dev.revoke; simp only [emit_rings, permitCount_rings, release_rings]; done)
  | (unfold Dev.revoke; with_reducible rfl)
  | (unfold Dev.revoke; simp; done)
  | (unfold Dev.revoke; (repeat' first | with_reducible rfl | (simp; done) | split); done)
  | (unfold Dev.revoke; try dsimp only
     (repeat' first | with_reducible rfl | (simp; done) | (with_reducible refine (foldl_rings _ ?_ _ _).trans ?_ <;> try intro _ _) | dsimp only | split); done)

@[simp] theorem revoke_arr (d : Dev) (g : Permit) : (Dev.revoke d g).arr = d.arr := by
  first
  | (unfold Dev.revoke; simp only [emit_arr, permitCount_arr, release_arr]; done)
  | (unfold Dev.revoke; with_reducible rfl)
  | (unfold Dev.revoke; simp; done)
  | (unfold Dev.revoke; (repeat' first | with_reducible rfl | (simp; done) | split); done)
  | (unfold Dev.revoke; try dsimp only
     (repeat' first | with_reducible rfl | (simp; done) | (with_reducible refine (foldl_arr _ ?_ _ _).trans ?_ <;> try intro _ _) | dsimp only | split); done)

@[simp] theorem revoke_opt (d : Dev) (g : Permit) : (Dev.revoke d g).opt = d.opt := by
  first
  | (unfold Dev.revoke; simp only [emit_opt, permitCount_opt, release_opt]; done)
  | (unfold Dev.revoke; with_reducible rfl)
  | (unfold Dev.revoke; simp; done)
  | (unfold Dev.revoke; (repeat' first | with_reducible rfl | (simp; done) | split); done)
  | (unfold Dev.revoke; try dsimp only
     (repeat' first | with_reducible rfl | (simp; done) | (with_reducible refine (foldl_opt _ ?_ _ _).trans ?_ <;> try intro _ _) | dsimp only | split); done)

@[simp] theorem revoke_disc (d : Dev) (g : Permit) : (Dev.revoke d g).disc = d.disc := by
  first
  | (unfold Dev.revoke; simp only [emit_disc, permitCount_disc, release_disc]; done)
  | (unfold Dev.revoke; with_reducible rfl)
  | (unfold Dev.revoke; simp; done)
  | (unfold Dev.revoke; (repeat' first | with_reducible rfl | (simp; done) | split); done)
  | (unfold Dev.revoke; try dsimp only
     (repeat' first | with_reducible rfl | (simp; done) | (with_reducible refine (foldl_disc _ ?_ _ _).trans ?_ <;> try intro _ _) | dsimp only | split); done)

@[simp] theorem revoke_coll (d : Dev) (g : Permit) : (Dev.revoke d g).coll = d.coll := by
  first
  | (unfold Dev.revoke; simp only [emit_coll, permitCount_coll, release_coll]; done)
  | (unfold Dev.revoke; with_reducible rfl)
  | (unfold Dev.revoke; simp; done)
  | (unfold Dev.revoke; (repeat' first | with_reducible rfl | (simp; done) | split); done)
  | (unfold Dev.revoke; try dsimp only
     (repeat' first | with_reducible rfl | (simp; done) | (with_reducible refine (foldl_coll _ ?_ _ _).trans ?_ <;> try intro _ _) | dsimp only | split); done)

@[simp] theorem revoke_mem (d : Dev) (g : Permit) : (Dev.revoke d g).mem = d.mem := by
  first
  | (unfold Dev.revoke; simp only [emit_mem, permitCount_mem, release_mem]; done)
  | (unfold Dev.revoke; with_reducible rfl)
  | (unfold Dev.revoke; simp; done)
  | (unfold Dev.revoke; (repeat' first | with_reducible rfl | (simp; done) | split); done)
  | (unfold Dev.revoke; try dsimp only
     (repeat' first | with_reducible rfl | (simp; done) | (with_reducible refine (foldl_mem _ ?_ _ _).trans ?_ <;> try intro _ _) | dsimp only | split); done)

@[simp] theorem revoke_faults (d : Dev) (g : Permit) : (Dev.revoke d g).faults = d.faults := by
  first
  | (unfold Dev.revoke; simp only [emit_faults, permitCount_faults, release_faults]; done)
  | (unfold Dev.revoke; with_reducible rfl)
  | (unfold Dev.revoke; simp; done)
  | (unfold Dev.revoke; (repeat' first | with_reducible rfl | (simp; done) | split); done)
  | (unfold Dev.revoke; try dsimp only
     (repeat' first | with_reducible rfl | (simp; done) | (with_reducible refine (foldl_faults _ ?_ _ _).trans ?_ <;> try intro _ _) | dsimp only | split); done)

@[simp] theorem revoke_twin (d : Dev) (g : Permit) : (Dev.revoke d g).twin = d.twin := by
  first
  | (unfold Dev.revoke; simp only [emit_twin, permitCount_twin, release_twin]; done)
  | (unfold Dev.revoke; with_reducible rfl)
  | (unfold Dev.revoke; simp; done)
  | (unfold Dev.revoke; (repeat' first | with_reducible rfl | (simp; done) | split); done)
  | (unfold Dev.revoke; try dsimp only
     (repeat' first | with_reducible rfl | (simp; done) | (with_reducible refine (foldl_twin _ ?_ _ _).trans ?_ <;> try intro _ _) | dsimp only | split); done)

@[simp] theorem revoke_upd (d : Dev) (g : Permit) : (Dev.revoke d g).upd = d.upd := by
  first
  | (unfold Dev.revoke; simp only [emit_upd, permitCount_upd, release_upd]; done)
  | (unfold Dev.revoke; with_reducible rfl)
  | (unfold Dev.revoke; simp; done)
  | (unfold Dev.revoke; (repeat' first | with_reducible rfl | (simp; done) | split); done)
  | (unfold Dev.revoke; try dsimp only
     (repeat' first | with_reducible rfl | (simp; done) | (with_reducible refine (foldl_upd _ ?_ _ _).trans ?_ <;> try intro _ _) | dsimp only | split); done)

@[simp] theorem revoke_recr (d : Dev) (g : Permit) : (Dev.revoke d g).recr = d.recr := by
  first
  | (unfold Dev.revoke; simp only [emit_recr, permitCount_recr, release_recr]; done)
  | (unfold Dev.revoke; with_reducible rfl)
  | (unfold Dev.revoke; simp; done)
  | (unfold Dev.revoke; (repeat' first | with_reducible rfl | (simp; done) | split); done)
  | (unfold Dev.revoke; try dsimp only
     (repeat' first | with_reducible rfl | (simp; done) | (with_reducible refine (foldl_recr _ ?_ _ _).trans ?_ <;> try intro _ _) | dsimp only | split); done)

@[simp] theorem revoke_ob (d : Dev) (g : Permit) : (Dev.revoke d g).ob = d.ob := by
  first
  | (unfold Dev.revoke; simp only [emit_ob, permitCount_ob, release_ob]; done)
  | (unfold Dev.revoke; with_reducible rfl)
  | (unfold Dev.revoke; simp; done)
  | (unfold Dev.revoke; (repeat' first | with_reducible rfl | (simp; done) | split); done)
  | (unfold Dev.revoke; try dsimp only
     (repeat' first | with_reducible rfl | (simp; done) | (with_reducible refine (foldl_ob _ ?_ _ _).trans ?_ <;> try intro _ _) | dsimp only | split); done)

@[simp] theorem revoke_fresh (d : Dev) (g : Permit) : (Dev.revoke d g).fresh = d.fresh := by
  first
  | (unfold Dev.revoke; simp only [emit_fresh, permitCount_fresh, release_fresh]; done)
  | (unfold Dev.revoke; with_reducible rfl)
  | (unfold Dev.revoke; simp; done)
  | (unfold Dev.revoke; (repeat' first | with_reducible rfl | (simp; done) | split); done)
  | (unfold Dev.revoke; try dsimp only
     (repeat' first | with_reducible rfl | (simp; done) | (with_reducible refine (foldl_fresh _ ?_ _ _).trans ?_ <;> try intro _ _) | dsimp only | split); done)

@[simp] theorem revokeFor_module (d : Dev) (p : Permit) (zz : Nat) : (Dev.revokeFor d p zz).module = d.module := by
  induction zz generalizing d with
  | zero => rfl
  | succ n ih =>
    unfold Dev.revokeFor
    repeat' first | with_reducible rfl | (simp [ih]; done) | dsimp only | split

@[simp] theorem revokeFor_net (d : Dev) (p : Permit) (zz : Nat) : (Dev.revokeFor d p zz).net = d.net := by
  induction zz generalizing d with
  | zero => rfl
  | succ n ih =>
    unfold Dev.revokeFor
    repeat' first | with_reducible rfl | (simp [ih]; done) | dsimp only | split

@[simp] theorem revokeFor_dir (d : Dev) (p : Permit) (zz : Nat) : (Dev.revokeFor d p zz).dir = d.dir := by
  induction zz generalizing d with
  | zero => rfl
  | succ n ih =>
    unfold Dev.revokeFor
    repeat' first | with_reducible rfl | (simp [ih]; done) | dsimp only | split

@[simp] theorem revokeFor_jobs (d : Dev) (p : Permit) (zz : Nat) : (Dev.revokeFor d p zz).jobs = d.jobs := by
  induction zz generalizing d with
  | zero => rfl
  | succ n ih =>
    unfold Dev.revokeFor
    repeat' first | with_reducible rfl | (simp [ih]; done) | dsimp only | split

@[simp] theorem revokeFor_circuits (d : Dev) (p : Permit) (zz : Nat) : (Dev.revokeFor d p zz).circuits = d.circuits := by
  induction zz generalizing d with
  | zero => rfl
  | succ n ih =>
    unfold Dev.revokeFor
    repeat' first | with_reducible rfl | (simp [ih]; done) | dsimp only | split

@[simp] theorem revokeFor_runs (d : Dev) (p : Permit) (zz : Nat) : (Dev.revokeFor d p zz).runs = d.runs := by
  induction zz generalizing d with
  | zero => rfl
  | succ n ih =>
    unfold Dev.revokeFor
    repeat' first | with_reducible rfl | (simp [ih]; done) | dsimp only | split

@[simp] theorem revokeFor_time (d : Dev) (p : Permit) (zz : Nat) : (Dev.revokeFor d p zz).time = d.time := by
  induction zz generalizing d with
  | zero => rfl
  | succ n ih =>
    unfold Dev.revokeFor
    repeat' first | with_reducible rfl | (simp [ih]; done) | dsimp only | split

@[simp] theorem revokeFor_eng (d : Dev) (p : Permit) (zz : Nat) : (Dev.revokeFor d p zz).eng = d.eng := by
  induction zz generalizing d with
  | zero => rfl
  | succ n ih =>
    unfold Dev.revokeFor
    repeat' first | with_reducible rfl | (simp [ih]; done) | dsimp only | split

@[simp] theorem revokeFor_rings (d : Dev) (p : Permit) (zz : Nat) : (Dev.revokeFor d p zz).rings = d.rings := by
  induction zz generalizing d with
  | zero => rfl
  | succ n ih =>
    unfold Dev.revokeFor
    repeat' first | with_reducible rfl | (simp [ih]; done) | dsimp only | split

@[simp] theorem revokeFor_arr (d : Dev) (p : Permit) (zz : Nat) : (Dev.revokeFor d p zz).arr = d.arr := by
  induction zz generalizing d with
  | zero => rfl
  | succ n ih =>
    unfold Dev.revokeFor
    repeat' first | with_reducible rfl | (simp [ih]; done) | dsimp only | split

@[simp] theorem revokeFor_opt (d : Dev) (p : Permit) (zz : Nat) : (Dev.revokeFor d p zz).opt = d.opt := by
  induction zz generalizing d with
  | zero => rfl
  | succ n ih =>
    unfold Dev.revokeFor
    repeat' first | with_reducible rfl | (simp [ih]; done) | dsimp only | split

@[simp] theorem revokeFor_disc (d : Dev) (p : Permit) (zz : Nat) : (Dev.revokeFor d p zz).disc = d.disc := by
  induction zz generalizing d with
  | zero => rfl
  | succ n ih =>
    unfold Dev.revokeFor
    repeat' first | with_reducible rfl | (simp [ih]; done) | dsimp only | split

@[simp] theorem revokeFor_coll (d : Dev) (p : Permit) (zz : Nat) : (Dev.revokeFor d p zz).coll = d.coll := by
  induction zz generalizing d with
  | zero => rfl
  | succ n ih =>
    unfold Dev.revokeFor
    repeat' first | with_reducible rfl | (simp [ih]; done) | dsimp only | split

@[simp] theorem revokeFor_mem (d : Dev) (p : Permit) (zz : Nat) : (Dev.revokeFor d p zz).mem = d.mem := by
  induction zz generalizing d with
  | zero => rfl
  | succ n ih =>
    unfold Dev.revokeFor
    repeat' first | with_reducible rfl | (simp [ih]; done) | dsimp only | split

@[simp] theorem revokeFor_faults (d : Dev) (p : Permit) (zz : Nat) : (Dev.revokeFor d p zz).faults = d.faults := by
  induction zz generalizing d with
  | zero => rfl
  | succ n ih =>
    unfold Dev.revokeFor
    repeat' first | with_reducible rfl | (simp [ih]; done) | dsimp only | split

@[simp] theorem revokeFor_twin (d : Dev) (p : Permit) (zz : Nat) : (Dev.revokeFor d p zz).twin = d.twin := by
  induction zz generalizing d with
  | zero => rfl
  | succ n ih =>
    unfold Dev.revokeFor
    repeat' first | with_reducible rfl | (simp [ih]; done) | dsimp only | split

@[simp] theorem revokeFor_upd (d : Dev) (p : Permit) (zz : Nat) : (Dev.revokeFor d p zz).upd = d.upd := by
  induction zz generalizing d with
  | zero => rfl
  | succ n ih =>
    unfold Dev.revokeFor
    repeat' first | with_reducible rfl | (simp [ih]; done) | dsimp only | split

@[simp] theorem revokeFor_recr (d : Dev) (p : Permit) (zz : Nat) : (Dev.revokeFor d p zz).recr = d.recr := by
  induction zz generalizing d with
  | zero => rfl
  | succ n ih =>
    unfold Dev.revokeFor
    repeat' first | with_reducible rfl | (simp [ih]; done) | dsimp only | split

@[simp] theorem revokeFor_ob (d : Dev) (p : Permit) (zz : Nat) : (Dev.revokeFor d p zz).ob = d.ob := by
  induction zz generalizing d with
  | zero => rfl
  | succ n ih =>
    unfold Dev.revokeFor
    repeat' first | with_reducible rfl | (simp [ih]; done) | dsimp only | split

@[simp] theorem revokeFor_fresh (d : Dev) (p : Permit) (zz : Nat) : (Dev.revokeFor d p zz).fresh = d.fresh := by
  induction zz generalizing d with
  | zero => rfl
  | succ n ih =>
    unfold Dev.revokeFor
    repeat' first | with_reducible rfl | (simp [ih]; done) | dsimp only | split

@[simp] theorem onGrant_module (d : Dev) (cls holder : Nat) : (Dev.onGrant d cls holder).module = d.module := by
  first
  | (unfold Dev.onGrant; simp only [emit_module, setDomain_module, modLaser_module]; done)
  | (unfold Dev.onGrant; with_reducible rfl)
  | (unfold Dev.onGrant; simp; done)
  | (unfold Dev.onGrant; (repeat' first | with_reducible rfl | (simp; done) | split); done)
  | (unfold Dev.onGrant; try dsimp only
     (repeat' first | with_reducible rfl | (simp; done) | (with_reducible refine (foldl_module _ ?_ _ _).trans ?_ <;> try intro _ _) | dsimp only | split); done)

@[simp] theorem onGrant_net (d : Dev) (cls holder : Nat) : (Dev.onGrant d cls holder).net = d.net := by
  first
  | (unfold Dev.onGrant; simp only [emit_net, setDomain_net, modLaser_net]; done)
  | (unfold Dev.onGrant; with_reducible rfl)
  | (unfold Dev.onGrant; simp; done)
  | (unfold Dev.onGrant; (repeat' first | with_reducible rfl | (simp; done) | split); done)
  | (unfold Dev.onGrant; try dsimp only
     (repeat' first | with_reducible rfl | (simp; done) | (with_reducible refine (foldl_net _ ?_ _ _).trans ?_ <;> try intro _ _) | dsimp only | split); done)

@[simp] theorem onGrant_dir (d : Dev) (cls holder : Nat) : (Dev.onGrant d cls holder).dir = d.dir := by
  first
  | (unfold Dev.onGrant; simp only [emit_dir, setDomain_dir, modLaser_dir]; done)
  | (unfold Dev.onGrant; with_reducible rfl)
  | (unfold Dev.onGrant; simp; done)
  | (unfold Dev.onGrant; (repeat' first | with_reducible rfl | (simp; done) | split); done)
  | (unfold Dev.onGrant; try dsimp only
     (repeat' first | with_reducible rfl | (simp; done) | (with_reducible refine (foldl_dir _ ?_ _ _).trans ?_ <;> try intro _ _) | dsimp only | split); done)

@[simp] theorem onGrant_jobs (d : Dev) (cls holder : Nat) : (Dev.onGrant d cls holder).jobs = d.jobs := by
  first
  | (unfold Dev.onGrant; simp only [emit_jobs, setDomain_jobs, modLaser_jobs]; done)
  | (unfold Dev.onGrant; with_reducible rfl)
  | (unfold Dev.onGrant; simp; done)
  | (unfold Dev.onGrant; (repeat' first | with_reducible rfl | (simp; done) | split); done)
  | (unfold Dev.onGrant; try dsimp only
     (repeat' first | with_reducible rfl | (simp; done) | (with_reducible refine (foldl_jobs _ ?_ _ _).trans ?_ <;> try intro _ _) | dsimp only | split); done)

@[simp] theorem onGrant_circuits (d : Dev) (cls holder : Nat) : (Dev.onGrant d cls holder).circuits = d.circuits := by
  first
  | (unfold Dev.onGrant; simp only [emit_circuits, setDomain_circuits, modLaser_circuits]; done)
  | (unfold Dev.onGrant; with_reducible rfl)
  | (unfold Dev.onGrant; simp; done)
  | (unfold Dev.onGrant; (repeat' first | with_reducible rfl | (simp; done) | split); done)
  | (unfold Dev.onGrant; try dsimp only
     (repeat' first | with_reducible rfl | (simp; done) | (with_reducible refine (foldl_circuits _ ?_ _ _).trans ?_ <;> try intro _ _) | dsimp only | split); done)

@[simp] theorem onGrant_runs (d : Dev) (cls holder : Nat) : (Dev.onGrant d cls holder).runs = d.runs := by
  first
  | (unfold Dev.onGrant; simp only [emit_runs, setDomain_runs, modLaser_runs]; done)
  | (unfold Dev.onGrant; with_reducible rfl)
  | (unfold Dev.onGrant; simp; done)
  | (unfold Dev.onGrant; (repeat' first | with_reducible rfl | (simp; done) | split); done)
  | (unfold Dev.onGrant; try dsimp only
     (repeat' first | with_reducible rfl | (simp; done) | (with_reducible refine (foldl_runs _ ?_ _ _).trans ?_ <;> try intro _ _) | dsimp only | split); done)

@[simp] theorem onGrant_time (d : Dev) (cls holder : Nat) : (Dev.onGrant d cls holder).time = d.time := by
  first
  | (unfold Dev.onGrant; simp only [emit_time, setDomain_time, modLaser_time]; done)
  | (unfold Dev.onGrant; with_reducible rfl)
  | (unfold Dev.onGrant; simp; done)
  | (unfold Dev.onGrant; (repeat' first | with_reducible rfl | (simp; done) | split); done)
  | (unfold Dev.onGrant; try dsimp only
     (repeat' first | with_reducible rfl | (simp; done) | (with_reducible refine (foldl_time _ ?_ _ _).trans ?_ <;> try intro _ _) | dsimp only | split); done)

@[simp] theorem onGrant_eng (d : Dev) (cls holder : Nat) : (Dev.onGrant d cls holder).eng = d.eng := by
  first
  | (unfold Dev.onGrant; simp only [emit_eng, setDomain_eng, modLaser_eng]; done)
  | (unfold Dev.onGrant; with_reducible rfl)
  | (unfold Dev.onGrant; simp; done)
  | (unfold Dev.onGrant; (repeat' first | with_reducible rfl | (simp; done) | split); done)
  | (unfold Dev.onGrant; try dsimp only
     (repeat' first | with_reducible rfl | (simp; done) | (with_reducible refine (foldl_eng _ ?_ _ _).trans ?_ <;> try intro _ _) | dsimp only | split); done)

@[simp] theorem onGrant_rings (d : Dev) (cls holder : Nat) : (Dev.onGrant d cls holder).rings = d.rings := by
  first
  | (unfold Dev.onGrant; simp only [emit_rings, setDomain_rings, modLaser_rings]; done)
  | (unfold Dev.onGrant; with_reducible rfl)
  | (unfold Dev.onGrant; simp; done)
  | (unfold Dev.onGrant; (repeat' first | with_reducible rfl | (simp; done) | split); done)
  | (unfold Dev.onGrant; try dsimp only
     (repeat' first | with_reducible rfl | (simp; done) | (with_reducible refine (foldl_rings _ ?_ _ _).trans ?_ <;> try intro _ _) | dsimp only | split); done)

@[simp] theorem onGrant_arr (d : Dev) (cls holder : Nat) : (Dev.onGrant d cls holder).arr = d.arr := by
  first
  | (unfold Dev.onGrant; simp only [emit_arr, setDomain_arr, modLaser_arr]; done)
  | (unfold Dev.onGrant; with_reducible rfl)
  | (unfold Dev.onGrant; simp; done)
  | (unfold Dev.onGrant; (repeat' first | with_reducible rfl | (simp; done) | split); done)
  | (unfold Dev.onGrant; try dsimp only
     (repeat' first | with_reducible rfl | (simp; done) | (with_reducible refine (foldl_arr _ ?_ _ _).trans ?_ <;> try intro _ _) | dsimp only | split); done)

@[simp] theorem onGrant_disc (d : Dev) (cls holder : Nat) : (Dev.onGrant d cls holder).disc = d.disc := by
  first
  | (unfold Dev.onGrant; simp only [emit_disc, setDomain_disc, modLaser_disc]; done)
  | (unfold Dev.onGrant; with_reducible rfl)
  | (unfold Dev.onGrant; simp; done)
  | (unfold Dev.onGrant; (repeat' first | with_reducible rfl | (simp; done) | split); done)
  | (unfold Dev.onGrant; try dsimp only
     (repeat' first | with_reducible rfl | (simp; done) | (with_reducible refine (foldl_disc _ ?_ _ _).trans ?_ <;> try intro _ _) | dsimp only | split); done)

@[simp] theorem onGrant_coll (d : Dev) (cls holder : Nat) : (Dev.onGrant d cls holder).coll = d.coll := by
  first
  | (unfold Dev.onGrant; simp only [emit_coll, setDomain_coll, modLaser_coll]; done)
  | (unfold Dev.onGrant; with_reducible rfl)
  | (unfold Dev.onGrant; simp; done)
  | (unfold Dev.onGrant; (repeat' first | with_reducible rfl | (simp; done) | split); done)
  | (unfold Dev.onGrant; try dsimp only
     (repeat' first | with_reducible rfl | (simp; done) | (with_reducible refine (foldl_coll _ ?_ _ _).trans ?_ <;> try intro _ _) | dsimp only | split); done)

@[simp] theorem onGrant_mem (d : Dev) (cls holder : Nat) : (Dev.onGrant d cls holder).mem = d.mem := by
  first
  | (unfold Dev.onGrant; simp only [emit_mem, setDomain_mem, modLaser_mem]; done)
  | (unfold Dev.onGrant; with_reducible rfl)
  | (unfold Dev.onGrant; simp; done)
  | (unfold Dev.onGrant; (repeat' first | with_reducible rfl | (simp; done) | split); done)
  | (unfold Dev.onGrant; try dsimp only
     (repeat' first | with_reducible rfl | (simp; done) | (with_reducible refine (foldl_mem _ ?_ _ _).trans ?_ <;> try intro _ _) | dsimp only | split); done)

@[simp] theorem onGrant_faults (d : Dev) (cls holder : Nat) : (Dev.onGrant d cls holder).faults = d.faults := by
  first
  | (unfold Dev.onGrant; simp only [emit_faults, setDomain_faults, modLaser_faults]; done)
  | (unfold Dev.onGrant; with_reducible rfl)
  | (unfold Dev.onGrant; simp; done)
  | (unfold Dev.onGrant; (repeat' first | with_reducible rfl | (simp; done) | split); done)
  | (unfold Dev.onGrant; try dsimp only
     (repeat' first | with_reducible rfl | (simp; done) | (with_reducible refine (foldl_faults _ ?_ _ _).trans ?_ <;> try intro _ _) | dsimp only | split); done)

@[simp] theorem onGrant_twin (d : Dev) (cls holder : Nat) : (Dev.onGrant d cls holder).twin = d.twin := by
  first
  | (unfold Dev.onGrant; simp only [emit_twin, setDomain_twin, modLaser_twin]; done)
  | (unfold Dev.onGrant; with_reducible rfl)
  | (unfold Dev.onGrant; simp; done)
  | (unfold Dev.onGrant; (repeat' first | with_reducible rfl | (simp; done) | split); done)
  | (unfold Dev.onGrant; try dsimp only
     (repeat' first | with_reducible rfl | (simp; done) | (with_reducible refine (foldl_twin _ ?_ _ _).trans ?_ <;> try intro _ _) | dsimp only | split); done)

@[simp] theorem onGrant_upd (d : Dev) (cls holder : Nat) : (Dev.onGrant d cls holder).upd = d.upd := by
  first
  | (unfold Dev.onGrant; simp only [emit_upd, setDomain_upd, modLaser_upd]; done)
  | (unfold Dev.onGrant; with_reducible rfl)
  | (unfold Dev.onGrant; simp; done)
  | (unfold Dev.onGrant; (repeat' first | with_reducible rfl | (simp; done) | split); done)
  | (unfold Dev.onGrant; try dsimp only
     (repeat' first | with_reducible rfl | (simp; done) | (with_reducible refine (foldl_upd _ ?_ _ _).trans ?_ <;> try intro _ _) | dsimp only | split); done)

@[simp] theorem onGrant_recr (d : Dev) (cls holder : Nat) : (Dev.onGrant d cls holder).recr = d.recr := by
  first
  | (unfold Dev.onGrant; simp only [emit_recr, setDomain_recr, modLaser_recr]; done)
  | (unfold Dev.onGrant; with_reducible rfl)
  | (unfold Dev.onGrant; simp; done)
  | (unfold Dev.onGrant; (repeat' first | with_reducible rfl | (simp; done) | split); done)
  | (unfold Dev.onGrant; try dsimp only
     (repeat' first | with_reducible rfl | (simp; done) | (with_reducible refine (foldl_recr _ ?_ _ _).trans ?_ <;> try intro _ _) | dsimp only | split); done)

@[simp] theorem onGrant_od (d : Dev) (cls holder : Nat) : (Dev.onGrant d cls holder).od = d.od := by
  first
  | (unfold Dev.onGrant; simp only [emit_od, setDomain_od, modLaser_od]; done)
  | (unfold Dev.onGrant; with_reducible rfl)
  | (unfold Dev.onGrant; simp; done)
  | (unfold Dev.onGrant; (repeat' first | with_reducible rfl | (simp; done) | split); done)
  | (unfold Dev.onGrant; try dsimp only
     (repeat' first | with_reducible rfl | (simp; done) | (with_reducible refine (foldl_od _ ?_ _ _).trans ?_ <;> try intro _ _) | dsimp only | split); done)

@[simp] theorem onGrant_ob (d : Dev) (cls holder : Nat) : (Dev.onGrant d cls holder).ob = d.ob := by
  first
  | (unfold Dev.onGrant; simp only [emit_ob, setDomain_ob, modLaser_ob]; done)
  | (unfold Dev.onGrant; with_reducible rfl)
  | (unfold Dev.onGrant; simp; done)
  | (unfold Dev.onGrant; (repeat' first | with_reducible rfl | (simp; done) | split); done)
  | (unfold Dev.onGrant; try dsimp only
     (repeat' first | with_reducible rfl | (simp; done) | (with_reducible refine (foldl_ob _ ?_ _ _).trans ?_ <;> try intro _ _) | dsimp only | split); done)

@[simp] theorem onGrant_fresh (d : Dev) (cls holder : Nat) : (Dev.onGrant d cls holder).fresh = d.fresh := by
  first
  | (unfold Dev.onGrant; simp only [emit_fresh, setDomain_fresh, modLaser_fresh]; done)
  | (unfold Dev.onGrant; with_reducible rfl)
  | (unfold Dev.onGrant; simp; done)
  | (unfold Dev.onGrant; (repeat' first | with_reducible rfl | (simp; done) | split); done)
  | (unfold Dev.onGrant; try dsimp only
     (repeat' first | with_reducible rfl | (simp; done) | (with_reducible refine (foldl_fresh _ ?_ _ _).trans ?_ <;> try intro _ _) | dsimp only | split); done)

@[simp] theorem grant_module (d : Dev) (p : Permit) : (Dev.grant d p).module = d.module := by
  first
  | (unfold Dev.grant; simp only [onGrant_module, emit_module, permitCount_module]; done)
  | (unfold Dev.grant; with_reducible rfl)
  | (unfold Dev.grant; simp; done)
  | (unfold Dev.grant; (repeat' first | with_reducible rfl | (simp; done) | split); done)
  | (unfold Dev.grant; try dsimp only
     (repeat' first | with_reducible rfl | (simp; done) | (with_reducible refine (foldl_module _ ?_ _ _).trans ?_ <;> try intro _ _) | dsimp only | split); done)

@[simp] theorem grant_net (d : Dev) (p : Permit) : (Dev.grant d p).net = d.net := by
  first
  | (unfold Dev.grant; simp only [onGrant_net, emit_net, permitCount_net]; done)
  | (unfold Dev.grant; with_reducible rfl)
  | (unfold Dev.grant; simp; done)
  | (unfold Dev.grant; (repeat' first | with_reducible rfl | (simp; done) | split); done)
  | (unfold Dev.grant; try dsimp only
     (repeat' first | with_reducible rfl | (simp; done) | (with_reducible refine (foldl_net _ ?_ _ _).trans ?_ <;> try intro _ _) | dsimp only | split); done)

@[simp] theorem grant_dir (d : Dev) (p : Permit) : (Dev.grant d p).dir = d.dir := by
  first
  | (unfold Dev.grant; simp only [onGrant_dir, emit_dir, permitCount_dir]; done)
  | (unfold Dev.grant; with_reducible rfl)
  | (unfold Dev.grant; simp; done)
  | (unfold Dev.grant; (repeat' first | with_reducible rfl | (simp; done) | split); done)
  | (unfold Dev.grant; try dsimp only
     (repeat' first | with_reducible rfl | (simp; done) | (with_reducible refine (foldl_dir _ ?_ _ _).trans ?_ <;> try intro _ _) | dsimp only | split); done)

@[simp] theorem grant_jobs (d : Dev) (p : Permit) : (Dev.grant d p).jobs = d.jobs := by
  first
  | (unfold Dev.grant; simp only [onGrant_jobs, emit_jobs, permitCount_jobs]; done)
  | (unfold Dev.grant; with_reducible rfl)
  | (unfold Dev.grant; simp; done)
  | (unfold Dev.grant; (repeat' first | with_reducible rfl | (simp; done) | split); done)
  | (unfold Dev.grant; try dsimp only
     (repeat' first | with_reducible rfl | (simp; done) | (with_reducible refine (foldl_jobs _ ?_ _ _).trans ?_ <;> try intro _ _) | dsimp only | split); done)

@[simp] theorem grant_circuits (d : Dev) (p : Permit) : (Dev.grant d p).circuits = d.circuits := by
  first
  | (unfold Dev.grant; simp only [onGrant_circuits, emit_circuits, permitCount_circuits]; done)
  | (unfold Dev.grant; with_reducible rfl)
  | (unfold Dev.grant; simp; done)
  | (unfold Dev.grant; (repeat' first | with_reducible rfl | (simp; done) | split); done)
  | (unfold Dev.grant; try dsimp only
     (repeat' first | with_reducible rfl | (simp; done) | (with_reducible refine (foldl_circuits _ ?_ _ _).trans ?_ <;> try intro _ _) | dsimp only | split); done)

@[simp] theorem grant_runs (d : Dev) (p : Permit) : (Dev.grant d p).runs = d.runs := by
  first
  | (unfold Dev.grant; simp only [onGrant_runs, emit_runs, permitCount_runs]; done)
  | (unfold Dev.grant; with_reducible rfl)
  | (unfold Dev.grant; simp; done)
  | (unfold Dev.grant; (repeat' first | with_reducible rfl | (simp; done) | split); done)
  | (unfold Dev.grant; try dsimp only
     (repeat' first | with_reducible rfl | (simp; done) | (with_reducible refine (foldl_runs _ ?_ _ _).trans ?_ <;> try intro _ _) | dsimp only | split); done)

@[simp] theorem grant_time (d : Dev) (p : Permit) : (Dev.grant d p).time = d.time := by
  first
  | (unfold Dev.grant; simp only [onGrant_time, emit_time, permitCount_time]; done)
  | (unfold Dev.grant; with_reducible rfl)
  | (unfold Dev.grant; simp; done)
  | (unfold Dev.grant; (repeat' first | with_reducible rfl | (simp; done) | split); done)
  | (unfold Dev.grant; try dsimp only
     (repeat' first | with_reducible rfl | (simp; done) | (with_reducible refine (foldl_time _ ?_ _ _).trans ?_ <;> try intro _ _) | dsimp only | split); done)

@[simp] theorem grant_eng (d : Dev) (p : Permit) : (Dev.grant d p).eng = d.eng := by
  first
  | (unfold Dev.grant; simp only [onGrant_eng, emit_eng, permitCount_eng]; done)
  | (unfold Dev.grant; with_reducible rfl)
  | (unfold Dev.grant; simp; done)
  | (unfold Dev.grant; (repeat' first | with_reducible rfl | (simp; done) | split); done)
  | (unfold Dev.grant; try dsimp only
     (repeat' first | with_reducible rfl | (simp; done) | (with_reducible refine (foldl_eng _ ?_ _ _).trans ?_ <;> try intro _ _) | dsimp only | split); done)

@[simp] theorem grant_rings (d : Dev) (p : Permit) : (Dev.grant d p).rings = d.rings := by
  first
  | (unfold Dev.grant; simp only [onGrant_rings, emit_rings, permitCount_rings]; done)
  | (unfold Dev.grant; with_reducible rfl)
  | (unfold Dev.grant; simp; done)
  | (unfold Dev.grant; (repeat' first | with_reducible rfl | (simp; done) | split); done)
  | (unfold Dev.grant; try dsimp only
     (repeat' first | with_reducible rfl | (simp; done) | (with_reducible refine (foldl_rings _ ?_ _ _).trans ?_ <;> try intro _ _) | dsimp only | split); done)

@[simp] theorem grant_arr (d : Dev) (p : Permit) : (Dev.grant d p).arr = d.arr := by
  first
  | (unfold Dev.grant; simp only [onGrant_arr, emit_arr, permitCount_arr]; done)
  | (unfold Dev.grant; with_reducible rfl)
  | (unfold Dev.grant; simp; done)
  | (unfold Dev.grant; (repeat' first | with_reducible rfl | (simp; done) | split); done)
  | (unfold Dev.grant; try dsimp only
     (repeat' first | with_reducible rfl | (simp; done) | (with_reducible refine (foldl_arr _ ?_ _ _).trans ?_ <;> try intro _ _) | dsimp only | split); done)

@[simp] theorem grant_disc (d : Dev) (p : Permit) : (Dev.grant d p).disc = d.disc := by
  first
  | (unfold Dev.grant; simp only [onGrant_disc, emit_disc, permitCount_disc]; done)
  | (unfold Dev.grant; with_reducible rfl)
  | (unfold Dev.grant; simp; done)
  | (unfold Dev.grant; (repeat' first | with_reducible rfl | (simp; done) | split); done)
  | (unfold Dev.grant; try dsimp only
     (repeat' first | with_reducible rfl | (simp; done) | (with_reducible refine (foldl_disc _ ?_ _ _).trans ?_ <;> try intro _ _) | dsimp only | split); done)

@[simp] theorem grant_coll (d : Dev) (p : Permit) : (Dev.grant d p).coll = d.coll := by
  first
  | (unfold Dev.grant; simp only [onGrant_coll, emit_coll, permitCount_coll]; done)
  | (unfold Dev.grant; with_reducible rfl)
  | (unfold Dev.grant; simp; done)
  | (unfold Dev.grant; (repeat' first | with_reducible rfl | (simp; done) | split); done)
  | (unfold Dev.grant; try dsimp only
     (repeat' first | with_reducible rfl | (simp; done) | (with_reducible refine (foldl_coll _ ?_ _ _).trans ?_ <;> try intro _ _) | dsimp only | split); done)

@[simp] theorem grant_mem (d : Dev) (p : Permit) : (Dev.grant d p).mem = d.mem := by
  first
  | (unfold Dev.grant; simp only [onGrant_mem, emit_mem, permitCount_mem]; done)
  | (unfold Dev.grant; with_reducible rfl)
  | (unfold Dev.grant; simp; done)
  | (unfold Dev.grant; (repeat' first | with_reducible rfl | (simp; done) | split); done)
  | (unfold Dev.grant; try dsimp only
     (repeat' first | with_reducible rfl | (simp; done) | (with_reducible refine (foldl_mem _ ?_ _ _).trans ?_ <;> try intro _ _) | dsimp only | split); done)

@[simp] theorem grant_faults (d : Dev) (p : Permit) : (Dev.grant d p).faults = d.faults := by
  first
  | (unfold Dev.grant; simp only [onGrant_faults, emit_faults, permitCount_faults]; done)
  | (unfold Dev.grant; with_reducible rfl)
  | (unfold Dev.grant; simp; done)
  | (unfold Dev.grant; (repeat' first | with_reducible rfl | (simp; done) | split); done)
  | (unfold Dev.grant; try dsimp only
     (repeat' first | with_reducible rfl | (simp; done) | (with_reducible refine (foldl_faults _ ?_ _ _).trans ?_ <;> try intro _ _) | dsimp only | split); done)

@[simp] theorem grant_twin (d : Dev) (p : Permit) : (Dev.grant d p).twin = d.twin := by
  first
  | (unfold Dev.grant; simp only [onGrant_twin, emit_twin, permitCount_twin]; done)
  | (unfold Dev.grant; with_reducible rfl)
  | (unfold Dev.grant; simp; done)
  | (unfold Dev.grant; (repeat' first | with_reducible rfl | (simp; done) | split); done)
  | (unfold Dev.grant; try dsimp only
     (repeat' first | with_reducible rfl | (simp; done) | (with_reducible refine (foldl_twin _ ?_ _ _).trans ?_ <;> try intro _ _) | dsimp only | split); done)

@[simp] theorem grant_upd (d : Dev) (p : Permit) : (Dev.grant d p).upd = d.upd := by
  first
  | (unfold Dev.grant; simp only [onGrant_upd, emit_upd, permitCount_upd]; done)
  | (unfold Dev.grant; with_reducible rfl)
  | (unfold Dev.grant; simp; done)
  | (unfold Dev.grant; (repeat' first | with_reducible rfl | (simp; done) | split); done)
  | (unfold Dev.grant; try dsimp only
     (repeat' first | with_reducible rfl | (simp; done) | (with_reducible refine (foldl_upd _ ?_ _ _).trans ?_ <;> try intro _ _) | dsimp only | split); done)

@[simp] theorem grant_recr (d : Dev) (p : Permit) : (Dev.grant d p).recr = d.recr := by
  first
  | (unfold Dev.grant; simp only [onGrant_recr, emit_recr, permitCount_recr]; done)
  | (unfold Dev.grant; with_reducible rfl)
  | (unfold Dev.grant; simp; done)
  | (unfold Dev.grant; (repeat' first | with_reducible rfl | (simp; done) | split); done)
  | (unfold Dev.grant; try dsimp only
     (repeat' first | with_reducible rfl | (simp; done) | (with_reducible refine (foldl_recr _ ?_ _ _).trans ?_ <;> try intro _ _) | dsimp only | split); done)

@[simp] theorem grant_ob (d : Dev) (p : Permit) : (Dev.grant d p).ob = d.ob := by
  first
  | (unfold Dev.grant; simp only [onGrant_ob, emit_ob, permitCount_ob]; done)
  | (unfold Dev.grant; with_reducible rfl)
  | (unfold Dev.grant; simp; done)
  | (unfold Dev.grant; (repeat' first | with_reducible rfl | (simp; done) | split); done)
  | (unfold Dev.grant; try dsimp only
     (repeat' first | with_reducible rfl | (simp; done) | (with_reducible refine (foldl_ob _ ?_ _ _).trans ?_ <;> try intro _ _) | dsimp only | split); done)

@[simp] theorem grant_fresh (d : Dev) (p : Permit) : (Dev.grant d p).fresh = d.fresh := by
  first
  | (unfold Dev.grant; simp only [onGrant_fresh, emit_fresh, permitCount_fresh]; done)
  | (unfold Dev.grant; with_reducible rfl)
  | (unfold Dev.grant; simp; done)
  | (unfold Dev.grant; (repeat' first | with_reducible rfl | (simp; done) | split); done)
  | (unfold Dev.grant; try dsimp only
     (repeat' first | with_reducible rfl | (simp; done) | (with_reducible refine (foldl_fresh _ ?_ _ _).trans ?_ <;> try intro _ _) | dsimp only | split); done)

@[simp] theorem request_module (d : Dev) (cls : Nat) (prio : Prio) (amount holder till : Nat) : (Dev.request d cls prio amount holder till).module = d.module := by
  first
  | (unfold Dev.request; simp only [emit_module, permitCount_module, revokeFor_module, grant_module]; done)
  | (unfold Dev.request; with_reducible rfl)
  | (unfold Dev.request; simp; done)
  | (unfold Dev.request; (repeat' first | with_reducible rfl | (simp; done) | split); done)
  | (unfold Dev.request; try dsimp only
     (repeat' first | with_reducible rfl | (simp; done) | (with_reducible refine (foldl_module _ ?_ _ _).trans ?_ <;> try intro _ _) | dsimp only | split); done)

@[simp] theorem request_net (d : Dev) (cls : Nat) (prio : Prio) (amount holder till : Nat) : (Dev.request d cls prio amount holder till).net = d.net := by
  first
  | (unfold Dev.request; simp only [emit_net, permitCount_net, revokeFor_net, grant_net]; done)
  | (unfold Dev.request; with_reducible rfl)
  | (unfold Dev.request; simp; done)
  | (unfold Dev.request; (repeat' first | with_reducible rfl | (simp; done) | split); done)
  | (unfold Dev.request; try dsimp only
     (repeat' first | with_reducible rfl | (simp; done) | (with_reducible refine (foldl_net _ ?_ _ _).trans ?_ <;> try intro _ _) | dsimp only | split); done)

@[simp] theorem request_dir (d : Dev) (cls : Nat) (prio : Prio) (amount holder till : Nat) : (Dev.request d cls prio amount holder till).dir = d.dir := by
  first
  | (unfold Dev.request; simp only [emit_dir, permitCount_dir, revokeFor_dir, grant_dir]; done)
  | (unfold Dev.request; with_reducible rfl)
  | (unfold Dev.request; simp; done)
  | (unfold Dev.request; (repeat' first | with_reducible rfl | (simp; done) | split); done)
  | (unfold Dev.request; try dsimp only
     (repeat' first | with_reducible rfl | (simp; done) | (with_reducible refine (foldl_dir _ ?_ _ _).trans ?_ <;> try intro _ _) | dsimp only | split); done)

@[simp] theorem request_jobs (d : Dev) (cls : Nat) (prio : Prio) (amount holder till : Nat) : (Dev.request d cls prio amount holder till).jobs = d.jobs := by
  first
  | (unfold Dev.request; simp only [emit_jobs, permitCount_jobs, revokeFor_jobs, grant_jobs]; done)
  | (unfold Dev.request; with_reducible rfl)
  | (unfold Dev.request; simp; done)
  | (unfold Dev.request; (repeat' first | with_reducible rfl | (simp; done) | split); done)
  | (unfold Dev.request; try dsimp only
     (repeat' first | with_reducible rfl | (simp; done) | (with_reducible refine (foldl_jobs _ ?_ _ _).trans ?_ <;> try intro _ _) | dsimp only | split); done)

@[simp] theorem request_circuits (d : Dev) (cls : Nat) (prio : Prio) (amount holder till : Nat) : (Dev.request d cls prio amount holder till).circuits = d.circuits := by
  first
  | (unfold Dev.request; simp only [emit_circuits, permitCount_circuits, revokeFor_circuits, grant_circuits]; done)
  | (unfold Dev.request; with_reducible rfl)
  | (unfold Dev.request; simp; done)
  | (unfold Dev.request; (repeat' first | with_reducible rfl | (simp; done) | split); done)
  | (unfold Dev.request; try dsimp only
     (repeat' first | with_reducible rfl | (simp; done) | (with_reducible refine (foldl_circuits _ ?_ _ _).trans ?_ <;> try intro _ _) | dsimp only | split); done)

@[simp] theorem request_runs (d : Dev) (cls : Nat) (prio : Prio) (amount holder till : Nat) : (Dev.request d cls prio amount holder till).runs = d.runs := by
  first
  | (unfold Dev.request; simp only [emit_runs, permitCount_runs, revokeFor_runs, grant_runs]; done)
  | (unfold Dev.request; with_reducible rfl)
  | (unfold Dev.request; simp; done)
  | (unfold Dev.request; (repeat' first | with_reducible rfl | (simp; done) | split); done)
  | (unfold Dev.request; try dsimp only
     (repeat' first | with_reducible rfl | (simp; done) | (with_reducible refine (foldl_runs _ ?_ _ _).trans ?_ <;> try intro _ _) | dsimp only | split); done)

@[simp] theorem request_time (d : Dev) (cls : Nat) (prio : Prio) (amount holder till : Nat) : (Dev.request d cls prio amount holder till).time = d.time := by
  first
  | (unfold Dev.request; simp only [emit_time, permitCount_time, revokeFor_time, grant_time]; done)
  | (unfold Dev.request; with_reducible rfl)
  | (unfold Dev.request; simp; done)
  | (unfold Dev.request; (repeat' first | with_reducible rfl | (simp; done) | split); done)
  | (unfold Dev.request; try dsimp only
     (repeat' first | with_reducible rfl | (simp; done) | (with_reducible refine (foldl_time _ ?_ _ _).trans ?_ <;> try intro _ _) | dsimp only | split); done)

@[simp] theorem request_eng (d : Dev) (cls : Nat) (prio : Prio) (amount holder till : Nat) : (Dev.request d cls prio amount holder till).eng = d.eng := by
  first
  | (unfold Dev.request; simp only [emit_eng, permitCount_eng, revokeFor_eng, grant_eng]; done)
  | (unfold Dev.request; with_reducible rfl)
  | (unfold Dev.request; simp; done)
  | (unfold Dev.request; (repeat' first | with_reducible rfl | (simp; done) | split); done)
  | (unfold Dev.request; try dsimp only
     (repeat' first | with_reducible rfl | (simp; done) | (with_reducible refine (foldl_eng _ ?_ _ _).trans ?_ <;> try intro _ _) | dsimp only | split); done)

@[simp] theorem request_rings (d : Dev) (cls : Nat) (prio : Prio) (amount holder till : Nat) : (Dev.request d cls prio amount holder till).rings = d.rings := by
  first
  | (unfold Dev.request; simp only [emit_rings, permitCount_rings, revokeFor_rings, grant_rings]; done)
  | (unfold Dev.request; with_reducible rfl)
  | (unfold Dev.request; simp; done)
  | (unfold Dev.request; (repeat' first | with_reducible rfl | (simp; done) | split); done)
  | (unfold Dev.request; try dsimp only
     (repeat' first | with_reducible rfl | (simp; done) | (with_reducible refine (foldl_rings _ ?_ _ _).trans ?_ <;> try intro _ _) | dsimp only | split); done)

@[simp] theorem request_arr (d : Dev) (cls : Nat) (prio : Prio) (amount holder till : Nat) : (Dev.request d cls prio amount holder till).arr = d.arr := by
  first
  | (unfold Dev.request; simp only [emit_arr, permitCount_arr, revokeFor_arr, grant_arr]; done)
  | (unfold Dev.request; with_reducible rfl)
  | (unfold Dev.request; simp; done)
  | (unfold Dev.request; (repeat' first | with_reducible rfl | (simp; done) | split); done)
  | (unfold Dev.request; try dsimp only
     (repeat' first | with_reducible rfl | (simp; done) | (with_reducible refine (foldl_arr _ ?_ _ _).trans ?_ <;> try intro _ _) | dsimp only | split); done)

@[simp] theorem request_disc (d : Dev) (cls : Nat) (prio : Prio) (amount holder till : Nat) : (Dev.request d cls prio amount holder till).disc = d.disc := by
  first
  | (unfold Dev.request; simp only [emit_disc, permitCount_disc, revokeFor_disc, grant_disc]; done)
  | (unfold Dev.request; with_reducible rfl)
  | (unfold Dev.request; simp; done)
  | (unfold Dev.request; (repeat' first | with_reducible rfl | (simp; done) | split); done)
  | (unfold Dev.request; try dsimp only
     (repeat' first | with_reducible rfl | (simp; done) | (with_reducible refine (foldl_disc _ ?_ _ _).trans ?_ <;> try intro _ _) | dsimp only | split); done)

@[simp] theorem request_coll (d : Dev) (cls : Nat) (prio : Prio) (amount holder till : Nat) : (Dev.request d cls prio amount holder till).coll = d.coll := by
  first
  | (unfold Dev.request; simp only [emit_coll, permitCount_coll, revokeFor_coll, grant_coll]; done)
  | (unfold Dev.request; with_reducible rfl)
  | (unfold Dev.request; simp; done)
  | (unfold Dev.request; (repeat' first | with_reducible rfl | (simp; done) | split); done)
  | (unfold Dev.request; try dsimp only
     (repeat' first | with_reducible rfl | (simp; done) | (with_reducible refine (foldl_coll _ ?_ _ _).trans ?_ <;> try intro _ _) | dsimp only | split); done)

@[simp] theorem request_mem (d : Dev) (cls : Nat) (prio : Prio) (amount holder till : Nat) : (Dev.request d cls prio amount holder till).mem = d.mem := by
  first
  | (unfold Dev.request; simp only [emit_mem, permitCount_mem, revokeFor_mem, grant_mem]; done)
  | (unfold Dev.request; with_reducible rfl)
  | (unfold Dev.request; simp; done)
  | (unfold Dev.request; (repeat' first | with_reducible rfl | (simp; done) | split); done)
  | (unfold Dev.request; try dsimp only
     (repeat' first | with_reducible rfl | (simp; done) | (with_reducible refine (foldl_mem _ ?_ _ _).trans ?_ <;> try intro _ _) | dsimp only | split); done)

@[simp] theorem request_faults (d : Dev) (cls : Nat) (prio : Prio) (amount holder till : Nat) : (Dev.request d cls prio amount holder till).faults = d.faults := by
  first
  | (unfold Dev.request; simp only [emit_faults, permitCount_faults, revokeFor_faults, grant_faults]; done)
  | (unfold Dev.request; with_reducible rfl)
  | (unfold Dev.request; simp; done)
  | (unfold Dev.request; (repeat' first | with_reducible rfl | (simp; done) | split); done)
  | (unfold Dev.request; try dsimp only
     (repeat' first | with_reducible rfl | (simp; done) | (with_reducible refine (foldl_faults _ ?_ _ _).trans ?_ <;> try intro _ _) | dsimp only | split); done)

@[simp] theorem request_twin (d : Dev) (cls : Nat) (prio : Prio) (amount holder till : Nat) : (Dev.request d cls prio amount holder till).twin = d.twin := by
  first
  | (unfold Dev.request; simp only [emit_twin, permitCount_twin, revokeFor_twin, grant_twin]; done)
  | (unfold Dev.request; with_reducible rfl)
  | (unfold Dev.request; simp; done)
  | (unfold Dev.request; (repeat' first | with_reducible rfl | (simp; done) | split); done)
  | (unfold Dev.request; try dsimp only
     (repeat' first | with_reducible rfl | (simp; done) | (with_reducible refine (foldl_twin _ ?_ _ _).trans ?_ <;> try intro _ _) | dsimp only | split); done)

@[simp] theorem request_upd (d : Dev) (cls : Nat) (prio : Prio) (amount holder till : Nat) : (Dev.request d cls prio amount holder till).upd = d.upd := by
  first
  | (unfold Dev.request; simp only [emit_upd, permitCount_upd, revokeFor_upd, grant_upd]; done)
  | (unfold Dev.request; with_reducible rfl)
  | (unfold Dev.request; simp; done)
  | (unfold Dev.request; (repeat' first | with_reducible rfl | (simp; done) | split); done)
  | (unfold Dev.request; try dsimp only
     (repeat' first | with_reducible rfl | (simp; done) | (with_reducible refine (foldl_upd _ ?_ _ _).trans ?_ <;> try intro _ _) | dsimp only | split); done)

@[simp] theorem request_recr (d : Dev) (cls : Nat) (prio : Prio) (amount holder till : Nat) : (Dev.request d cls prio amount holder till).recr = d.recr := by
  first
  | (unfold Dev.request; simp only [emit_recr, permitCount_recr, revokeFor_recr, grant_recr]; done)
  | (unfold Dev.request; with_reducible rfl)
  | (unfold Dev.request; simp; done)
  | (unfold Dev.request; (repeat' first | with_reducible rfl | (simp; done) | split); done)
  | (unfold Dev.request; try dsimp only
     (repeat' first | with_reducible rfl | (simp; done) | (with_reducible refine (foldl_recr _ ?_ _ _).trans ?_ <;> try intro _ _) | dsimp only | split); done)

@[simp] theorem request_ob (d : Dev) (cls : Nat) (prio : Prio) (amount holder till : Nat) : (Dev.request d cls prio amount holder till).ob = d.ob := by
  first
  | (unfold Dev.request; simp only [emit_ob, permitCount_ob, revokeFor_ob, grant_ob]; done)
  | (unfold Dev.request; with_reducible rfl)
  | (unfold Dev.request; simp; done)
  | (unfold Dev.request; (repeat' first | with_reducible rfl | (simp; done) | split); done)
  | (unfold Dev.request; try dsimp only
     (repeat' first | with_reducible rfl | (simp; done) | (with_reducible refine (foldl_ob _ ?_ _ _).trans ?_ <;> try intro _ _) | dsimp only | split); done)

@[simp] theorem request_fresh (d : Dev) (cls : Nat) (prio : Prio) (amount holder till : Nat) : (Dev.request d cls prio amount holder till).fresh = d.fresh := by
  first
  | (unfold Dev.request; simp only [emit_fresh, permitCount_fresh, revokeFor_fresh, grant_fresh]; done)
  | (unfold Dev.request; with_reducible rfl)
  | (unfold Dev.request; simp; done)
  | (unfold Dev.request; (repeat' first | with_reducible rfl | (simp; done) | split); done)
  | (unfold Dev.request; try dsimp only
     (repeat' first | with_reducible rfl | (simp; done) | (with_reducible refine (foldl_fresh _ ?_ _ _).trans ?_ <;> try intro _ _) | dsimp only | split); done)

@[simp] theorem reconsider_module (d : Dev) (zz : List Permit) : (Dev.reconsider d zz).module = d.module := by
  induction zz generalizing d with
  | nil => rfl
  | cons a t ih =>
    unfold Dev.reconsider
    repeat' first | with_reducible rfl | (simp [ih]; done) | dsimp only | split

@[simp] theorem reconsider_net (d : Dev) (zz : List Permit) : (Dev.reconsider d zz).net = d.net := by
  induction zz generalizing d with
  | nil => rfl
  | cons a t ih =>
    unfold Dev.reconsider
    repeat' first | with_reducible rfl | (simp [ih]; done) | dsimp only | split

@[simp] theorem reconsider_dir (d : Dev) (zz : List Permit) : (Dev.reconsider d zz).dir = d.dir := by
  induction zz generalizing d with
  | nil => rfl
  | cons a t ih =>
    unfold Dev.reconsider
    repeat' first | with_reducible rfl | (simp [ih]; done) | dsimp only | split

@[simp] theorem reconsider_jobs (d : Dev) (zz : List Permit) : (Dev.reconsider d zz).jobs = d.jobs := by
  induction zz generalizing d with
  | nil => rfl
  | cons a t ih =>
    unfold Dev.reconsider
    repeat' first | with_reducible rfl | (simp [ih]; done) | dsimp only | split

@[simp] theorem reconsider_circuits (d : Dev) (zz : List Permit) : (Dev.reconsider d zz).circuits = d.circuits := by
  induction zz generalizing d with
  | nil => rfl
  | cons a t ih =>
    unfold Dev.reconsider
    repeat' first | with_reducible rfl | (simp [ih]; done) | dsimp only | split

@[simp] theorem reconsider_runs (d : Dev) (zz : List Permit) : (Dev.reconsider d zz).runs = d.runs := by
  induction zz generalizing d with
  | nil => rfl
  | cons a t ih =>
    unfold Dev.reconsider
    repeat' first | with_reducible rfl | (simp [ih]; done) | dsimp only | split

@[simp] theorem reconsider_time (d : Dev) (zz : List Permit) : (Dev.reconsider d zz).time = d.time := by
  induction zz generalizing d with
  | nil => rfl
  | cons a t ih =>
    unfold Dev.reconsider
    repeat' first | with_reducible rfl | (simp [ih]; done) | dsimp only | split

@[simp] theorem reconsider_eng (d : Dev) (zz : List Permit) : (Dev.reconsider d zz).eng = d.eng := by
  induction zz generalizing d with
  | nil => rfl
  | cons a t ih =>
    unfold Dev.reconsider
    repeat' first | with_reducible rfl | (simp [ih]; done) | dsimp only | split

@[simp] theorem reconsider_rings (d : Dev) (zz : List Permit) : (Dev.reconsider d zz).rings = d.rings := by
  induction zz generalizing d with
  | nil => rfl
  | cons a t ih =>
    unfold Dev.reconsider
    repeat' first | with_reducible rfl | (simp [ih]; done) | dsimp only | split

@[simp] theorem reconsider_arr (d : Dev) (zz : List Permit) : (Dev.reconsider d zz).arr = d.arr := by
  induction zz generalizing d with
  | nil => rfl
  | cons a t ih =>
    unfold Dev.reconsider
    repeat' first | with_reducible rfl | (simp [ih]; done) | dsimp only | split

@[simp] theorem reconsider_disc (d : Dev) (zz : List Permit) : (Dev.reconsider d zz).disc = d.disc := by
  induction zz generalizing d with
  | nil => rfl
  | cons a t ih =>
    unfold Dev.reconsider
    repeat' first | with_reducible rfl | (simp [ih]; done) | dsimp only | split

@[simp] theorem reconsider_coll (d : Dev) (zz : List Permit) : (Dev.reconsider d zz).coll = d.coll := by
  induction zz generalizing d with
  | nil => rfl
  | cons a t ih =>
    unfold Dev.reconsider
    repeat' first | with_reducible rfl | (simp [ih]; done) | dsimp only | split

@[simp] theorem reconsider_mem (d : Dev) (zz : List Permit) : (Dev.reconsider d zz).mem = d.mem := by
  induction zz generalizing d with
  | nil => rfl
  | cons a t ih =>
    unfold Dev.reconsider
    repeat' first | with_reducible rfl | (simp [ih]; done) | dsimp only | split

@[simp] theorem reconsider_faults (d : Dev) (zz : List Permit) : (Dev.reconsider d zz).faults = d.faults := by
  induction zz generalizing d with
  | nil => rfl
  | cons a t ih =>
    unfold Dev.reconsider
    repeat' first | with_reducible rfl | (simp [ih]; done) | dsimp only | split

@[simp] theorem reconsider_twin (d : Dev) (zz : List Permit) : (Dev.reconsider d zz).twin = d.twin := by
  induction zz generalizing d with
  | nil => rfl
  | cons a t ih =>
    unfold Dev.reconsider
    repeat' first | with_reducible rfl | (simp [ih]; done) | dsimp only | split

@[simp] theorem reconsider_upd (d : Dev) (zz : List Permit) : (Dev.reconsider d zz).upd = d.upd := by
  induction zz generalizing d with
  | nil => rfl
  | cons a t ih =>
    unfold Dev.reconsider
    repeat' first | with_reducible rfl | (simp [ih]; done) | dsimp only | split

@[simp] theorem reconsider_recr (d : Dev) (zz : List Permit) : (Dev.reconsider d zz).recr = d.recr := by
  induction zz generalizing d with
  | nil => rfl
  | cons a t ih =>
    unfold Dev.reconsider
    repeat' first | with_reducible rfl | (simp [ih]; done) | dsimp only | split

@[simp] theorem reconsider_ob (d : Dev) (zz : List Permit) : (Dev.reconsider d zz).ob = d.ob := by
  induction zz generalizing d with
  | nil => rfl
  | cons a t ih =>
    unfold Dev.reconsider
    repeat' first | with_reducible rfl | (simp [ih]; done) | dsimp only | split

@[simp] theorem reconsider_fresh (d : Dev) (zz : List Permit) : (Dev.reconsider d zz).fresh = d.fresh := by
  induction zz generalizing d with
  | nil => rfl
  | cons a t ih =>
    unfold Dev.reconsider
    repeat' first | with_reducible rfl | (simp [ih]; done) | dsimp only | split

@[simp] theorem arbiter_module (d : Dev) : (Dev.arbiter d).module = d.module := by
  first
  | (unfold Dev.arbiter; simp only [reconsider_module]; done)
  | (unfold Dev.arbiter; with_reducible rfl)
  | (unfold Dev.arbiter; simp; done)
  | (unfold Dev.arbiter; (repeat' first | with_reducible rfl | (simp; done) | split); done)
  | (unfold Dev.arbiter; try dsimp only
     (repeat' first | with_reducible rfl | (simp; done) | (with_reducible refine (foldl_module _ ?_ _ _).trans ?_ <;> try intro _ _) | dsimp only | split); done)

@[simp] theorem arbiter_net (d : Dev) : (Dev.arbiter d).net = d.net := by
  first
  | (unfold Dev.arbiter; simp only [reconsider_net]; done)
  | (unfold Dev.arbiter; with_reducible rfl)
  | (unfold Dev.arbiter; simp; done)
  | (unfold Dev.arbiter; (repeat' first | with_reducible rfl | (simp; done) | split); done)
  | (unfold Dev.arbiter; try dsimp only
     (repeat' first | with_reducible rfl | (simp; done) | (with_reducible refine (foldl_net _ ?_ _ _).trans ?_ <;> try intro _ _) | dsimp only | split); done)

@[simp] theorem arbiter_dir (d : Dev) : (Dev.arbiter d).dir = d.dir := by
  first
  | (unfold Dev.arbiter; simp only [reconsider_dir]; done)
  | (unfold Dev.arbiter; with_reducible rfl)
  | (unfold Dev.arbiter; simp; done)
  | (unfold Dev.arbiter; (repeat' first | with_reducible rfl | (simp; done) | split); done)
  | (unfold Dev.arbiter; try dsimp only
     (repeat' first | with_reducible rfl | (simp; done) | (with_reducible refine (foldl_dir _ ?_ _ _).trans ?_ <;> try intro _ _) | dsimp only | split); done)

@[simp] theorem arbiter_jobs (d : Dev) : (Dev.arbiter d).jobs = d.jobs := by
  first
  | (unfold Dev.arbiter; simp only [reconsider_jobs]; done)
  | (unfold Dev.arbiter; with_reducible rfl)
  | (unfold Dev.arbiter; simp; done)
  | (unfold Dev.arbiter; (repeat' first | with_reducible rfl | (simp; done) | split); done)
  | (unfold Dev.arbiter; try dsimp only
     (repeat' first | with_reducible rfl | (simp; done) | (with_reducible refine (foldl_jobs _ ?_ _ _).trans ?_ <;> try intro _ _) | dsimp only | split); done)

@[simp] theorem arbiter_circuits (d : Dev) : (Dev.arbiter d).circuits = d.circuits := by
  first
  | (unfold Dev.arbiter; simp only [reconsider_circuits]; done)
  | (unfold Dev.arbiter; with_reducible rfl)
  | (unfold Dev.arbiter; simp; done)
  | (unfold Dev.arbiter; (repeat' first | with_reducible rfl | (simp; done) | split); done)
  | (unfold Dev.arbiter; try dsimp only
     (repeat' first | with_reducible rfl | (simp; done) | (with_reducible refine (foldl_circuits _ ?_ _ _).trans ?_ <;> try intro _ _) | dsimp only | split); done)

@[simp] theorem arbiter_runs (d : Dev) : (Dev.arbiter d).runs = d.runs := by
  first
  | (unfold Dev.arbiter; simp only [reconsider_runs]; done)
  | (unfold Dev.arbiter; with_reducible rfl)
  | (unfold Dev.arbiter; simp; done)
  | (unfold Dev.arbiter; (repeat' first | with_reducible rfl | (simp; done) | split); done)
  | (unfold Dev.arbiter; try dsimp only
     (repeat' first | with_reducible rfl | (simp; done) | (with_reducible refine (foldl_runs _ ?_ _ _).trans ?_ <;> try intro _ _) | dsimp only | split); done)

@[simp] theorem arbiter_time (d : Dev) : (Dev.arbiter d).time = d.time := by
  first
  | (unfold Dev.arbiter; simp only [reconsider_time]; done)
  | (unfold Dev.arbiter; with_reducible rfl)
  | (unfold Dev.arbiter; simp; done)
  | (unfold Dev.arbiter; (repeat' first | with_reducible rfl | (simp; done) | split); done)
  | (unfold Dev.arbiter; try dsimp only
     (repeat' first | with_reducible rfl | (simp; done) | (with_reducible refine (foldl_time _ ?_ _ _).trans ?_ <;> try intro _ _) | dsimp only | split); done)

@[simp] theorem arbiter_eng (d : Dev) : (Dev.arbiter d).eng = d.eng := by
  first
  | (unfold Dev.arbiter; simp only [reconsider_eng]; done)
  | (unfold Dev.arbiter; with_reducible rfl)
  | (unfold Dev.arbiter; simp; done)
  | (unfold Dev.arbiter; (repeat' first | with_reducible rfl | (simp; done) | split); done)
  | (unfold Dev.arbiter; try dsimp only
     (repeat' first | with_reducible rfl | (simp; done) | (with_reducible refine (foldl_eng _ ?_ _ _).trans ?_ <;> try intro _ _) | dsimp only | split); done)

@[simp] theorem arbiter_rings (d : Dev) : (Dev.arbiter d).rings = d.rings := by
  first
  | (unfold Dev.arbiter; simp only [reconsider_rings]; done)
  | (unfold Dev.arbiter; with_reducible rfl)
  | (unfold Dev.arbiter; simp; done)
  | (unfold Dev.arbiter; (repeat' first | with_reducible rfl | (simp; done) | split); done)
  | (unfold Dev.arbiter; try dsimp only
     (repeat' first | with_reducible rfl | (simp; done) | (with_reducible refine (foldl_rings _ ?_ _ _).trans ?_ <;> try intro _ _) | dsimp only | split); done)

@[simp] theorem arbiter_arr (d : Dev) : (Dev.arbiter d).arr = d.arr := by
  first
  | (unfold Dev.arbiter; simp only [reconsider_arr]; done)
  | (unfold Dev.arbiter; with_reducible rfl)
  | (unfold Dev.arbiter; simp; done)
  | (unfold Dev.arbiter; (repeat' first | with_reducible rfl | (simp; done) | split); done)
  | (unfold Dev.arbiter; try dsimp only
     (repeat' first | with_reducible rfl | (simp; done) | (with_reducible refine (foldl_arr _ ?_ _ _).trans ?_ <;> try intro _ _) | dsimp only | split); done)

@[simp] theorem arbiter_disc (d : Dev) : (Dev.arbiter d).disc = d.disc := by
  first
  | (unfold Dev.arbiter; simp only [reconsider_disc]; done)
  | (unfold Dev.arbiter; with_reducible rfl)
  | (unfold Dev.arbiter; simp; done)
  | (unfold Dev.arbiter; (repeat' first | with_reducible rfl | (simp; done) | split); done)
  | (unfold Dev.arbiter; try dsimp only
     (repeat' first | with_reducible rfl | (simp; done) | (with_reducible refine (foldl_disc _ ?_ _ _).trans ?_ <;> try intro _ _) | dsimp only | split); done)

@[simp] theorem arbiter_coll (d : Dev) : (Dev.arbiter d).coll = d.coll := by
  first
  | (unfold Dev.arbiter; simp only [reconsider_coll]; done)
  | (unfold Dev.arbiter; with_reducible rfl)
  | (unfold Dev.arbiter; simp; done)
  | (unfold Dev.arbiter; (repeat' first | with_reducible rfl | (simp; done) | split); done)
  | (unfold Dev.arbiter; try dsimp only
     (repeat' first | with_reducible rfl | (simp; done) | (with_reducible refine (foldl_coll _ ?_ _ _).trans ?_ <;> try intro _ _) | dsimp only | split); done)

@[simp] theorem arbiter_mem (d : Dev) : (Dev.arbiter d).mem = d.mem := by
  first
  | (unfold Dev.arbiter; simp only [reconsider_mem]; done)
  | (unfold Dev.arbiter; with_reducible rfl)
  | (unfold Dev.arbiter; simp; done)
  | (unfold Dev.arbiter; (repeat' first | with_reducible rfl | (simp; done) | split); done)
  | (unfold Dev.arbiter; try dsimp only
     (repeat' first | with_reducible rfl | (simp; done) | (with_reducible refine (foldl_mem _ ?_ _ _).trans ?_ <;> try intro _ _) | dsimp only | split); done)

@[simp] theorem arbiter_faults (d : Dev) : (Dev.arbiter d).faults = d.faults := by
  first
  | (unfold Dev.arbiter; simp only [reconsider_faults]; done)
  | (unfold Dev.arbiter; with_reducible rfl)
  | (unfold Dev.arbiter; simp; done)
  | (unfold Dev.arbiter; (repeat' first | with_reducible rfl | (simp; done) | split); done)
  | (unfold Dev.arbiter; try dsimp only
     (repeat' first | with_reducible rfl | (simp; done) | (with_reducible refine (foldl_faults _ ?_ _ _).trans ?_ <;> try intro _ _) | dsimp only | split); done)

@[simp] theorem arbiter_twin (d : Dev) : (Dev.arbiter d).twin = d.twin := by
  first
  | (unfold Dev.arbiter; simp only [reconsider_twin]; done)
  | (unfold Dev.arbiter; with_reducible rfl)
  | (unfold Dev.arbiter; simp; done)
  | (unfold Dev.arbiter; (repeat' first | with_reducible rfl | (simp; done) | split); done)
  | (unfold Dev.arbiter; try dsimp only
     (repeat' first | with_reducible rfl | (simp; done) | (with_reducible refine (foldl_twin _ ?_ _ _).trans ?_ <;> try intro _ _) | dsimp only | split); done)

@[simp] theorem arbiter_upd (d : Dev) : (Dev.arbiter d).upd = d.upd := by
  first
  | (unfold Dev.arbiter; simp only [reconsider_upd]; done)
  | (unfold Dev.arbiter; with_reducible rfl)
  | (unfold Dev.arbiter; simp; done)
  | (unfold Dev.arbiter; (repeat' first | with_reducible rfl | (simp; done) | split); done)
  | (unfold Dev.arbiter; try dsimp only
     (repeat' first | with_reducible rfl | (simp; done) | (with_reducible refine (foldl_upd _ ?_ _ _).trans ?_ <;> try intro _ _) | dsimp only | split); done)

@[simp] theorem arbiter_recr (d : Dev) : (Dev.arbiter d).recr = d.recr := by
  first
  | (unfold Dev.arbiter; simp only [reconsider_recr]; done)
  | (unfold Dev.arbiter; with_reducible rfl)
  | (unfold Dev.arbiter; simp; done)
  | (unfold Dev.arbiter; (repeat' first | with_reducible rfl | (simp; done) | split); done)
  | (unfold Dev.arbiter; try dsimp only
     (repeat' first | with_reducible rfl | (simp; done) | (with_reducible refine (foldl_recr _ ?_ _ _).trans ?_ <;> try intro _ _) | dsimp only | split); done)

@[simp] theorem arbiter_ob (d : Dev) : (Dev.arbiter d).ob = d.ob := by
  first
  | (unfold Dev.arbiter; simp only [reconsider_ob]; done)
  | (unfold Dev.arbiter; with_reducible rfl)
  | (unfold Dev.arbiter; simp; done)
  | (unfold Dev.arbiter; (repeat' first | with_reducible rfl | (simp; done) | split); done)
  | (unfold Dev.arbiter; try dsimp only
     (repeat' first | with_reducible rfl | (simp; done) | (with_reducible refine (foldl_ob _ ?_ _ _).trans ?_ <;> try intro _ _) | dsimp only | split); done)

@[simp] theorem arbiter_fresh (d : Dev) : (Dev.arbiter d).fresh = d.fresh := by
  first
  | (unfold Dev.arbiter; simp only [reconsider_fresh]; done)
  | (unfold Dev.arbiter; with_reducible rfl)
  | (unfold Dev.arbiter; simp; done)
  | (unfold Dev.arbiter; (repeat' first | with_reducible rfl | (simp; done) | split); done)
  | (unfold Dev.arbiter; try dsimp only
     (repeat' first | with_reducible rfl | (simp; done) | (with_reducible refine (foldl_fresh _ ?_ _ _).trans ?_ <;> try intro _ _) | dsimp only | split); done)

@[simp] theorem switchOn_module (d : Dev) (k : Nat) (prio : Prio) : (Dev.switchOn d k prio).module = d.module := by
  first
  | (unfold Dev.switchOn; simp only [request_module]; done)
  | (unfold Dev.switchOn; with_reducible rfl)
  | (unfold Dev.switchOn; simp; done)
  | (unfold Dev.switchOn; (repeat' first | with_reducible rfl | (simp; done) | split); done)
  | (unfold Dev.switchOn; try dsimp only
     (repeat' first | with_reducible rfl | (simp; done) | (with_reducible refine (foldl_module _ ?_ _ _).trans ?_ <;> try intro _ _) | dsimp only | split); done)

@[simp] theorem switchOn_net (d : Dev) (k : Nat) (prio : Prio) : (Dev.switchOn d k prio).net = d.net := by
  first
  | (unfold Dev.switchOn; simp only [request_net]; done)
  | (unfold Dev.switchOn; with_reducible rfl)
  | (unfold Dev.switchOn; simp; done)
  | (unfold Dev.switchOn; (repeat' first | with_reducible rfl | (simp; done) | split); done)
  | (unfold Dev.switchOn; try dsimp only
     (repeat' first | with_reducible rfl | (simp; done) | (with_reducible refine (foldl_net _ ?_ _ _).trans ?_ <;> try intro _ _) | dsimp only | split); done)

@[simp] theorem switchOn_dir (d : Dev) (k : Nat) (prio : Prio) : (Dev.switchOn d k prio).dir = d.dir := by
  first
  | (unfold Dev.switchOn; simp only [request_dir]; done)
  | (unfold Dev.switchOn; with_reducible rfl)
  | (unfold Dev.switchOn; simp; done)
  | (unfold Dev.switchOn; (repeat' first | with_reducible rfl | (simp; done) | split); done)
  | (unfold Dev.switchOn; try dsimp only
     (repeat' first | with_reducible rfl | (simp; done) | (with_reducible refine (foldl_dir _ ?_ _ _).trans ?_ <;> try intro _ _) | dsimp only | split); done)

@[simp] theorem switchOn_jobs (d : Dev) (k : Nat) (prio : Prio) : (Dev.switchOn d k prio).jobs = d.jobs := by
  first
  | (unfold Dev.switchOn; simp only [request_jobs]; done)
  | (unfold Dev.switchOn; with_reducible rfl)
  | (unfold Dev.switchOn; simp; done)
  | (unfold Dev.switchOn; (repeat' first | with_reducible rfl | (simp; done) | split); done)
  | (unfold Dev.switchOn; try dsimp only
     (repeat' first | with_reducible rfl | (simp; done) | (with_reducible refine (foldl_jobs _ ?_ _ _).trans ?_ <;> try intro _ _) | dsimp only | split); done)

@[simp] theorem switchOn_circuits (d : Dev) (k : Nat) (prio : Prio) : (Dev.switchOn d k prio).circuits = d.circuits := by
  first
  | (unfold Dev.switchOn; simp only [request_circuits]; done)
  | (unfold Dev.switchOn; with_reducible rfl)
  | (unfold Dev.switchOn; simp; done)
  | (unfold Dev.switchOn; (repeat' first | with_reducible rfl | (simp; done) | split); done)
  | (unfold Dev.switchOn; try dsimp only
     (repeat' first | with_reducible rfl | (simp; done) | (with_reducible refine (foldl_circuits _ ?_ _ _).trans ?_ <;> try intro _ _) | dsimp only | split); done)

@[simp] theorem switchOn_runs (d : Dev) (k : Nat) (prio : Prio) : (Dev.switchOn d k prio).runs = d.runs := by
  first
  | (unfold Dev.switchOn; simp only [request_runs]; done)
  | (unfold Dev.switchOn; with_reducible rfl)
  | (unfold Dev.switchOn; simp; done)
  | (unfold Dev.switchOn; (repeat' first | with_reducible rfl | (simp; done) | split); done)
  | (unfold Dev.switchOn; try dsimp only
     (repeat' first | with_reducible rfl | (simp; done) | (with_reducible refine (foldl_runs _ ?_ _ _).trans ?_ <;> try intro _ _) | dsimp only | split); done)

@[simp] theorem switchOn_time (d : Dev) (k : Nat) (prio : Prio) : (Dev.switchOn d k prio).time = d.time := by
  first
  | (unfold Dev.switchOn; simp only [request_time]; done)
  | (unfold Dev.switchOn; with_reducible rfl)
  | (unfold Dev.switchOn; simp; done)
  | (unfold Dev.switchOn; (repeat' first | with_reducible rfl | (simp; done) | split); done)
  | (unfold Dev.switchOn; try dsimp only
     (repeat' first | with_reducible rfl | (simp; done) | (with_reducible refine (foldl_time _ ?_ _ _).trans ?_ <;> try intro _ _) | dsimp only | split); done)

@[simp] theorem switchOn_eng (d : Dev) (k : Nat) (prio : Prio) : (Dev.switchOn d k prio).eng = d.eng := by
  first
  | (unfold Dev.switchOn; simp only [request_eng]; done)
  | (unfold Dev.switchOn; with_reducible rfl)
  | (unfold Dev.switchOn; simp; done)
  | (unfold Dev.switchOn; (repeat' first | with_reducible rfl | (simp; done) | split); done)
  | (unfold Dev.switchOn; try dsimp only
     (repeat' first | with_reducible rfl | (simp; done) | (with_reducible refine (foldl_eng _ ?_ _ _).trans ?_ <;> try intro _ _) | dsimp only | split); done)

@[simp] theorem switchOn_rings (d : Dev) (k : Nat) (prio : Prio) : (Dev.switchOn d k prio).rings = d.rings := by
  first
  | (unfold Dev.switchOn; simp only [request_rings]; done)
  | (unfold Dev.switchOn; with_reducible rfl)
  | (unfold Dev.switchOn; simp; done)
  | (unfold Dev.switchOn; (repeat' first | with_reducible rfl | (simp; done) | split); done)
  | (unfold Dev.switchOn; try dsimp only
     (repeat' first | with_reducible rfl | (simp; done) | (with_reducible refine (foldl_rings _ ?_ _ _).trans ?_ <;> try intro _ _) | dsimp only | split); done)

@[simp] theorem switchOn_arr (d : Dev) (k : Nat) (prio : Prio) : (Dev.switchOn d k prio).arr = d.arr := by
  first
  | (unfold Dev.switchOn; simp only [request_arr]; done)
  | (unfold Dev.switchOn; with_reducible rfl)
  | (unfold Dev.switchOn; simp; done)
  | (unfold Dev.switchOn; (repeat' first | with_reducible rfl | (simp; done) | split); done)
  | (unfold Dev.switchOn; try dsimp only
     (repeat' first | with_reducible rfl | (simp; done) | (with_reducible refine (foldl_arr _ ?_ _ _).trans ?_ <;> try intro _ _) | dsimp only | split); done)

@[simp] theorem switchOn_disc (d : Dev) (k : Nat) (prio : Prio) : (Dev.switchOn d k prio).disc = d.disc := by
  first
  | (unfold Dev.switchOn; simp only [request_disc]; done)
  | (unfold Dev.switchOn; with_reducible rfl)
  | (unfold Dev.switchOn; simp; done)
  | (unfold Dev.switchOn; (repeat' first | with_reducible rfl | (simp; done) | split); done)
  | (unfold Dev.switchOn; try dsimp only
     (repeat' first | with_reducible rfl | (simp; done) | (with_reducible refine (foldl_disc _ ?_ _ _).trans ?_ <;> try intro _ _) | dsimp only | split); done)

@[simp] theorem switchOn_coll (d : Dev) (k : Nat) (prio : Prio) : (Dev.switchOn d k prio).coll = d.coll := by
  first
  | (unfold Dev.switchOn; simp only [request_coll]; done)
  | (unfold Dev.switchOn; with_reducible rfl)
  | (unfold Dev.switchOn; simp; done)
  | (unfold Dev.switchOn; (repeat' first | with_reducible rfl | (simp; done) | split); done)
  | (unfold Dev.switchOn; try dsimp only
     (repeat' first | with_reducible rfl | (simp; done) | (with_reducible refine (foldl_coll _ ?_ _ _).trans ?_ <;> try intro _ _) | dsimp only | split); done)

@[simp] theorem switchOn_mem (d : Dev) (k : Nat) (prio : Prio) : (Dev.switchOn d k prio).mem = d.mem := by
  first
  | (unfold Dev.switchOn; simp only [request_mem]; done)
  | (unfold Dev.switchOn; with_reducible rfl)
  | (unfold Dev.switchOn; simp; done)
  | (unfold Dev.switchOn; (repeat' first | with_reducible rfl | (simp; done) | split); done)
  | (unfold Dev.switchOn; try dsimp only
     (repeat' first | with_reducible rfl | (simp; done) | (with_reducible refine (foldl_mem _ ?_ _ _).trans ?_ <;> try intro _ _) | dsimp only | split); done)

@[simp] theorem switchOn_faults (d : Dev) (k : Nat) (prio : Prio) : (Dev.switchOn d k prio).faults = d.faults := by
  first
  | (unfold Dev.switchOn; simp only [request_faults]; done)
  | (unfold Dev.switchOn; with_reducible rfl)
  | (unfold Dev.switchOn; simp; done)
  | (unfold Dev.switchOn; (repeat' first | with_reducible rfl | (simp; done) | split); done)
  | (unfold Dev.switchOn; try dsimp only
     (repeat' first | with_reducible rfl | (simp; done) | (with_reducible refine (foldl_faults _ ?_ _ _).trans ?_ <;> try intro _ _) | dsimp only | split); done)

@[simp] theorem switchOn_twin (d : Dev) (k : Nat) (prio : Prio) : (Dev.switchOn d k prio).twin = d.twin := by
  first
  | (unfold Dev.switchOn; simp only [request_twin]; done)
  | (unfold Dev.switchOn; with_reducible rfl)
  | (unfold Dev.switchOn; simp; done)
  | (unfold Dev.switchOn; (repeat' first | with_reducible rfl | (simp; done) | split); done)
  | (unfold Dev.switchOn; try dsimp only
     (repeat' first | with_reducible rfl | (simp; done) | (with_reducible refine (foldl_twin _ ?_ _ _).trans ?_ <;> try intro _ _) | dsimp only | split); done)

@[simp] theorem switchOn_upd (d : Dev) (k : Nat) (prio : Prio) : (Dev.switchOn d k prio).upd = d.upd := by
  first
  | (unfold Dev.switchOn; simp only [request_upd]; done)
  | (unfold Dev.switchOn; with_reducible rfl)
  | (unfold Dev.switchOn; simp; done)
  | (unfold Dev.switchOn; (repeat' first | with_reducible rfl | (simp; done) | split); done)
  | (unfold Dev.switchOn; try dsimp only
     (repeat' first | with_reducible rfl | (simp; done) | (with_reducible refine (foldl_upd _ ?_ _ _).trans ?_ <;> try intro _ _) | dsimp only | split); done)

@[simp] theorem switchOn_recr (d : Dev) (k : Nat) (prio : Prio) : (Dev.switchOn d k prio).recr = d.recr := by
  first
  | (unfold Dev.switchOn; simp only [request_recr]; done)
  | (unfold Dev.switchOn; with_reducible rfl)
  | (unfold Dev.switchOn; simp; done)
  | (unfold Dev.switchOn; (repeat' first | with_reducible rfl | (simp; done) | split); done)
  | (unfold Dev.switchOn; try dsimp only
     (repeat' first | with_reducible rfl | (simp; done) | (with_reducible refine (foldl_recr _ ?_ _ _).trans ?_ <;> try intro _ _) | dsimp only | split); done)

@[simp] theorem switchOn_ob (d : Dev) (k : Nat) (prio : Prio) : (Dev.switchOn d k prio).ob = d.ob := by
  first
  | (unfold Dev.switchOn; simp only [request_ob]; done)
  | (unfold Dev.switchOn; with_reducible rfl)
  | (unfold Dev.switchOn; simp; done)
  | (unfold Dev.switchOn; (repeat' first | with_reducible rfl | (simp; done) | split); done)
  | (unfold Dev.switchOn; try dsimp only
     (repeat' first | with_reducible rfl | (simp; done) | (with_reducible refine (foldl_ob _ ?_ _ _).trans ?_ <;> try intro _ _) | dsimp only | split); done)

@[simp] theorem switchOn_fresh (d : Dev) (k : Nat) (prio : Prio) : (Dev.switchOn d k prio).fresh = d.fresh := by
  first
  | (unfold Dev.switchOn; simp only [request_fresh]; done)
  | (unfold Dev.switchOn; with_reducible rfl)
  | (unfold Dev.switchOn; simp; done)
  | (unfold Dev.switchOn; (repeat' first | with_reducible rfl | (simp; done) | split); done)
  | (unfold Dev.switchOn; try dsimp only
     (repeat' first | with_reducible rfl | (simp; done) | (with_reducible refine (foldl_fresh _ ?_ _ _).trans ?_ <;> try intro _ _) | dsimp only | split); done)

@[simp] theorem startNext_module (d : Dev) : (Dev.startNext d).module = d.module := by
  first
  | (unfold Dev.startNext; simp only [switchOn_module]; done)
  | (unfold Dev.startNext; with_reducible rfl)
  | (unfold Dev.startNext; simp; done)
  | (unfold Dev.startNext; (repeat' first | with_reducible rfl | (simp; done) | split); done)
  | (unfold Dev.startNext; try dsimp only
     (repeat' first | with_reducible rfl | (simp; done) | (with_reducible refine (foldl_module _ ?_ _ _).trans ?_ <;> try intro _ _) | dsimp only | split); done)

@[simp] theorem startNext_net (d : Dev) : (Dev.startNext d).net = d.net := by
  first
  | (unfold Dev.startNext; simp only [switchOn_net]; done)
  | (unfold Dev.startNext; with_reducible rfl)
  | (unfold Dev.startNext; simp; done)
  | (unfold Dev.startNext; (repeat' first | with_reducible rfl | (simp; done) | split); done)
  | (unfold Dev.startNext; try dsimp only
     (repeat' first | with_reducible rfl | (simp; done) | (with_reducible refine (foldl_net _ ?_ _ _).trans ?_ <;> try intro _ _) | dsimp only | split); done)

@[simp] theorem startNext_dir (d : Dev) : (Dev.startNext d).dir = d.dir := by
  first
  | (unfold Dev.startNext; simp only [switchOn_dir]; done)
  | (unfold Dev.startNext; with_reducible rfl)
  | (unfold Dev.startNext; simp; done)
  | (unfold Dev.startNext; (repeat' first | with_reducible rfl | (simp; done) | split); done)
  | (unfold Dev.startNext; try dsimp only
     (repeat' first | with_reducible rfl | (simp; done) | (with_reducible refine (foldl_dir _ ?_ _ _).trans ?_ <;> try intro _ _) | dsimp only | split); done)

@[simp] theorem startNext_jobs (d : Dev) : (Dev.startNext d).jobs = d.jobs := by
  first
  | (unfold Dev.startNext; simp only [switchOn_jobs]; done)
  | (unfold Dev.startNext; with_reducible rfl)
  | (unfold Dev.startNext; simp; done)
  | (unfold Dev.startNext; (repeat' first | with_reducible rfl | (simp; done) | split); done)
  | (unfold Dev.startNext; try dsimp only
     (repeat' first | with_reducible rfl | (simp; done) | (with_reducible refine (foldl_jobs _ ?_ _ _).trans ?_ <;> try intro _ _) | dsimp only | split); done)

@[simp] theorem startNext_circuits (d : Dev) : (Dev.startNext d).circuits = d.circuits := by
  first
  | (unfold Dev.startNext; simp only [switchOn_circuits]; done)
  | (unfold Dev.startNext; with_reducible rfl)
  | (unfold Dev.startNext; simp; done)
  | (unfold Dev.startNext; (repeat' first | with_reducible rfl | (simp; done) | split); done)
  | (unfold Dev.startNext; try dsimp only
     (repeat' first | with_reducible rfl | (simp; done) | (with_reducible refine (foldl_circuits _ ?_ _ _).trans ?_ <;> try intro _ _) | dsimp only | split); done)

@[simp] theorem startNext_runs (d : Dev) : (Dev.startNext d).runs = d.runs := by
  first
  | (unfold Dev.startNext; simp only [switchOn_runs]; done)
  | (unfold Dev.startNext; with_reducible rfl)
  | (unfold Dev.startNext; simp; done)
  | (unfold Dev.startNext; (repeat' first | with_reducible rfl | (simp; done) | split); done)
  | (unfold Dev.startNext; try dsimp only
     (repeat' first | with_reducible rfl | (simp; done) | (with_reducible refine (foldl_runs _ ?_ _ _).trans ?_ <;> try intro _ _) | dsimp only | split); done)

@[simp] theorem startNext_time (d : Dev) : (Dev.startNext d).time = d.time := by
  first
  | (unfold Dev.startNext; simp only [switchOn_time]; done)
  | (unfold Dev.startNext; with_reducible rfl)
  | (unfold Dev.startNext; simp; done)
  | (unfold Dev.startNext; (repeat' first | with_reducible rfl | (simp; done) | split); done)
  | (unfold Dev.startNext; try dsimp only
     (repeat' first | with_reducible rfl | (simp; done) | (with_reducible refine (foldl_time _ ?_ _ _).trans ?_ <;> try intro _ _) | dsimp only | split); done)

@[simp] theorem startNext_eng (d : Dev) : (Dev.startNext d).eng = d.eng := by
  first
  | (unfold Dev.startNext; simp only [switchOn_eng]; done)
  | (unfold Dev.startNext; with_reducible rfl)
  | (unfold Dev.startNext; simp; done)
  | (unfold Dev.startNext; (repeat' first | with_reducible rfl | (simp; done) | split); done)
  | (unfold Dev.startNext; try dsimp only
     (repeat' first | with_reducible rfl | (simp; done) | (with_reducible refine (foldl_eng _ ?_ _ _).trans ?_ <;> try intro _ _) | dsimp only | split); done)

@[simp] theorem startNext_rings (d : Dev) : (Dev.startNext d).rings = d.rings := by
  first
  | (unfold Dev.startNext; simp only [switchOn_rings]; done)
  | (unfold Dev.startNext; with_reducible rfl)
  | (unfold Dev.startNext; simp; done)
  | (unfold Dev.startNext; (repeat' first | with_reducible rfl | (simp; done) | split); done)
  | (unfold Dev.startNext; try dsimp only
     (repeat' first | with_reducible rfl | (simp; done) | (with_reducible refine (foldl_rings _ ?_ _ _).trans ?_ <;> try intro _ _) | dsimp only | split); done)

@[simp] theorem startNext_arr (d : Dev) : (Dev.startNext d).arr = d.arr := by
  first
  | (unfold Dev.startNext; simp only [switchOn_arr]; done)
  | (unfold Dev.startNext; with_reducible rfl)
  | (unfold Dev.startNext; simp; done)
  | (unfold Dev.startNext; (repeat' first | with_reducible rfl | (simp; done) | split); done)
  | (unfold Dev.startNext; try dsimp only
     (repeat' first | with_reducible rfl | (simp; done) | (with_reducible refine (foldl_arr _ ?_ _ _).trans ?_ <;> try intro _ _) | dsimp only | split); done)

@[simp] theorem startNext_disc (d : Dev) : (Dev.startNext d).disc = d.disc := by
  first
  | (unfold Dev.startNext; simp only [switchOn_disc]; done)
  | (unfold Dev.startNext; with_reducible rfl)
  | (unfold Dev.startNext; simp; done)
  | (unfold Dev.startNext; (repeat' first | with_reducible rfl | (simp; done) | split); done)
  | (unfold Dev.startNext; try dsimp only
     (repeat' first | with_reducible rfl | (simp; done) | (with_reducible refine (foldl_disc _ ?_ _ _).trans ?_ <;> try intro _ _) | dsimp only | split); done)

@[simp] theorem startNext_coll (d : Dev) : (Dev.startNext d).coll = d.coll := by
  first
  | (unfold Dev.startNext; simp only [switchOn_coll]; done)
  | (unfold Dev.startNext; with_reducible rfl)
  | (unfold Dev.startNext; simp; done)
  | (unfold Dev.startNext; (repeat' first | with_reducible rfl | (simp; done) | split); done)
  | (unfold Dev.startNext; try dsimp only
     (repeat' first | with_reducible rfl | (simp; done) | (with_reducible refine (foldl_coll _ ?_ _ _).trans ?_ <;> try intro _ _) | dsimp only | split); done)

@[simp] theorem startNext_mem (d : Dev) : (Dev.startNext d).mem = d.mem := by
  first
  | (unfold Dev.startNext; simp only [switchOn_mem]; done)
  | (unfold Dev.startNext; with_reducible rfl)
  | (unfold Dev.startNext; simp; done)
  | (unfold Dev.startNext; (repeat' first | with_reducible rfl | (simp; done) | split); done)
  | (unfold Dev.startNext; try dsimp only
     (repeat' first | with_reducible rfl | (simp; done) | (with_reducible refine (foldl_mem _ ?_ _ _).trans ?_ <;> try intro _ _) | dsimp only | split); done)

@[simp] theorem startNext_faults (d : Dev) : (Dev.startNext d).faults = d.faults := by
  first
  | (unfold Dev.startNext; simp only [switchOn_faults]; done)
  | (unfold Dev.startNext; with_reducible rfl)
  | (unfold Dev.startNext; simp; done)
  | (unfold Dev.startNext; (repeat' first | with_reducible rfl | (simp; done) | split); done)
  | (unfold Dev.startNext; try dsimp only
     (repeat' first | with_reducible rfl | (simp; done) | (with_reducible refine (foldl_faults _ ?_ _ _).trans ?_ <;> try intro _ _) | dsimp only | split); done)

@[simp] theorem startNext_twin (d : Dev) : (Dev.startNext d).twin = d.twin := by
  first
  | (unfold Dev.startNext; simp only [switchOn_twin]; done)
  | (unfold Dev.startNext; with_reducible rfl)
  | (unfold Dev.startNext; simp; done)
  | (unfold Dev.startNext; (repeat' first | with_reducible rfl | (simp; done) | split); done)
  | (unfold Dev.startNext; try dsimp only
     (repeat' first | with_reducible rfl | (simp; done) | (with_reducible refine (foldl_twin _ ?_ _ _).trans ?_ <;> try intro _ _) | dsimp only | split); done)

@[simp] theorem startNext_upd (d : Dev) : (Dev.startNext d).upd = d.upd := by
  first
  | (unfold Dev.startNext; simp only [switchOn_upd]; done)
  | (unfold Dev.startNext; with_reducible rfl)
  | (unfold Dev.startNext; simp; done)
  | (unfold Dev.startNext; (repeat' first | with_reducible rfl | (simp; done) | split); done)
  | (unfold Dev.startNext; try dsimp only
     (repeat' first | with_reducible rfl | (simp; done) | (with_reducible refine (foldl_upd _ ?_ _ _).trans ?_ <;> try intro _ _) | dsimp only | split); done)

@[simp] theorem startNext_recr (d : Dev) : (Dev.startNext d).recr = d.recr := by
  first
  | (unfold Dev.startNext; simp only [switchOn_recr]; done)
  | (unfold Dev.startNext; with_reducible rfl)
  | (unfold Dev.startNext; simp; done)
  | (unfold Dev.startNext; (repeat' first | with_reducible rfl | (simp; done) | split); done)
  | (unfold Dev.startNext; try dsimp only
     (repeat' first | with_reducible rfl | (simp; done) | (with_reducible refine (foldl_recr _ ?_ _ _).trans ?_ <;> try intro _ _) | dsimp only | split); done)

@[simp] theorem startNext_ob (d : Dev) : (Dev.startNext d).ob = d.ob := by
  first
  | (unfold Dev.startNext; simp only [switchOn_ob]; done)
  | (unfold Dev.startNext; with_reducible rfl)
  | (unfold Dev.startNext; simp; done)
  | (unfold Dev.startNext; (repeat' first | with_reducible rfl | (simp; done) | split); done)
  | (unfold Dev.startNext; try dsimp only
     (repeat' first | with_reducible rfl | (simp; done) | (with_reducible refine (foldl_ob _ ?_ _ _).trans ?_ <;> try intro _ _) | dsimp only | split); done)

@[simp] theorem startNext_fresh (d : Dev) : (Dev.startNext d).fresh = d.fresh := by
  first
  | (unfold Dev.startNext; simp only [switchOn_fresh]; done)
  | (unfold Dev.startNext; with_reducible rfl)
  | (unfold Dev.startNext; simp; done)
  | (unfold Dev.startNext; (repeat' first | with_reducible rfl | (simp; done) | split); done)
  | (unfold Dev.startNext; try dsimp only
     (repeat' first | with_reducible rfl | (simp; done) | (with_reducible refine (foldl_fresh _ ?_ _ _).trans ?_ <;> try intro _ _) | dsimp only | split); done)

@[simp] theorem domainResult_module (d : Dev) (r : Nat) : (Dev.domainResult d r).module = d.module := by
  first
  | (unfold Dev.domainResult; simp only [setNum_module]; done)
  | (unfold Dev.domainResult; with_reducible rfl)
  | (unfold Dev.domainResult; simp; done)
  | (unfold Dev.domainResult; (repeat' first | with_reducible rfl | (simp; done) | split); done)
  | (unfold Dev.domainResult; try dsimp only
     (repeat' first | with_reducible rfl | (simp; done) | (with_reducible refine (foldl_module _ ?_ _ _).trans ?_ <;> try intro _ _) | dsimp only | split); done)

@[simp] theorem domainResult_net (d : Dev) (r : Nat) : (Dev.domainResult d r).net = d.net := by
  first
  | (unfold Dev.domainResult; simp only [setNum_net]; done)
  | (unfold Dev.domainResult; with_reducible rfl)
  | (unfold Dev.domainResult; simp; done)
  | (unfold Dev.domainResult; (repeat' first | with_reducible rfl | (simp; done) | split); done)
  | (unfold Dev.domainResult; try dsimp only
     (repeat' first | with_reducible rfl | (simp; done) | (with_reducible refine (foldl_net _ ?_ _ _).trans ?_ <;> try intro _ _) | dsimp only | split); done)

@[simp] theorem domainResult_dir (d : Dev) (r : Nat) : (Dev.domainResult d r).dir = d.dir := by
  first
  | (unfold Dev.domainResult; simp only [setNum_dir]; done)
  | (unfold Dev.domainResult; with_reducible rfl)
  | (unfold Dev.domainResult; simp; done)
  | (unfold Dev.domainResult; (repeat' first | with_reducible rfl | (simp; done) | split); done)
  | (unfold Dev.domainResult; try dsimp only
     (repeat' first | with_reducible rfl | (simp; done) | (with_reducible refine (foldl_dir _ ?_ _ _).trans ?_ <;> try intro _ _) | dsimp only | split); done)

@[simp] theorem domainResult_jobs (d : Dev) (r : Nat) : (Dev.domainResult d r).jobs = d.jobs := by
  first
  | (unfold Dev.domainResult; simp only [setNum_jobs]; done)
  | (unfold Dev.domainResult; with_reducible rfl)
  | (unfold Dev.domainResult; simp; done)
  | (unfold Dev.domainResult; (repeat' first | with_reducible rfl | (simp; done) | split); done)
  | (unfold Dev.domainResult; try dsimp only
     (repeat' first | with_reducible rfl | (simp; done) | (with_reducible refine (foldl_jobs _ ?_ _ _).trans ?_ <;> try intro _ _) | dsimp only | split); done)

@[simp] theorem domainResult_circuits (d : Dev) (r : Nat) : (Dev.domainResult d r).circuits = d.circuits := by
  first
  | (unfold Dev.domainResult; simp only [setNum_circuits]; done)
  | (unfold Dev.domainResult; with_reducible rfl)
  | (unfold Dev.domainResult; simp; done)
  | (unfold Dev.domainResult; (repeat' first | with_reducible rfl | (simp; done) | split); done)
  | (unfold Dev.domainResult; try dsimp only
     (repeat' first | with_reducible rfl | (simp; done) | (with_reducible refine (foldl_circuits _ ?_ _ _).trans ?_ <;> try intro _ _) | dsimp only | split); done)

@[simp] theorem domainResult_runs (d : Dev) (r : Nat) : (Dev.domainResult d r).runs = d.runs := by
  first
  | (unfold Dev.domainResult; simp only [setNum_runs]; done)
  | (unfold Dev.domainResult; with_reducible rfl)
  | (unfold Dev.domainResult; simp; done)
  | (unfold Dev.domainResult; (repeat' first | with_reducible rfl | (simp; done) | split); done)
  | (unfold Dev.domainResult; try dsimp only
     (repeat' first | with_reducible rfl | (simp; done) | (with_reducible refine (foldl_runs _ ?_ _ _).trans ?_ <;> try intro _ _) | dsimp only | split); done)

@[simp] theorem domainResult_time (d : Dev) (r : Nat) : (Dev.domainResult d r).time = d.time := by
  first
  | (unfold Dev.domainResult; simp only [setNum_time]; done)
  | (unfold Dev.domainResult; with_reducible rfl)
  | (unfold Dev.domainResult; simp; done)
  | (unfold Dev.domainResult; (repeat' first | with_reducible rfl | (simp; done) | split); done)
  | (unfold Dev.domainResult; try dsimp only
     (repeat' first | with_reducible rfl | (simp; done) | (with_reducible refine (foldl_time _ ?_ _ _).trans ?_ <;> try intro _ _) | dsimp only | split); done)

@[simp] theorem domainResult_eng (d : Dev) (r : Nat) : (Dev.domainResult d r).eng = d.eng := by
  first
  | (unfold Dev.domainResult; simp only [setNum_eng]; done)
  | (unfold Dev.domainResult; with_reducible rfl)
  | (unfold Dev.domainResult; simp; done)
  | (unfold Dev.domainResult; (repeat' first | with_reducible rfl | (simp; done) | split); done)
  | (unfold Dev.domainResult; try dsimp only
     (repeat' first | with_reducible rfl | (simp; done) | (with_reducible refine (foldl_eng _ ?_ _ _).trans ?_ <;> try intro _ _) | dsimp only | split); done)

@[simp] theorem domainResult_rings (d : Dev) (r : Nat) : (Dev.domainResult d r).rings = d.rings := by
  first
  | (unfold Dev.domainResult; simp only [setNum_rings]; done)
  | (unfold Dev.domainResult; with_reducible rfl)
  | (unfold Dev.domainResult; simp; done)
  | (unfold Dev.domainResult; (repeat' first | with_reducible rfl | (simp; done) | split); done)
  | (unfold Dev.domainResult; try dsimp only
     (repeat' first | with_reducible rfl | (simp; done) | (with_reducible refine (foldl_rings _ ?_ _ _).trans ?_ <;> try intro _ _) | dsimp only | split); done)

@[simp] theorem domainResult_arr (d : Dev) (r : Nat) : (Dev.domainResult d r).arr = d.arr := by
  first
  | (unfold Dev.domainResult; simp only [setNum_arr]; done)
  | (unfold Dev.domainResult; with_reducible rfl)
  | (unfold Dev.domainResult; simp; done)
  | (unfold Dev.domainResult; (repeat' first | with_reducible rfl | (simp; done) | split); done)
  | (unfold Dev.domainResult; try dsimp only
     (repeat' first | with_reducible rfl | (simp; done) | (with_reducible refine (foldl_arr _ ?_ _ _).trans ?_ <;> try intro _ _) | dsimp only | split); done)

@[simp] theorem domainResult_opt (d : Dev) (r : Nat) : (Dev.domainResult d r).opt = d.opt := by
  first
  | (unfold Dev.domainResult; simp only [setNum_opt]; done)
  | (unfold Dev.domainResult; with_reducible rfl)
  | (unfold Dev.domainResult; simp; done)
  | (unfold Dev.domainResult; (repeat' first | with_reducible rfl | (simp; done) | split); done)
  | (unfold Dev.domainResult; try dsimp only
     (repeat' first | with_reducible rfl | (simp; done) | (with_reducible refine (foldl_opt _ ?_ _ _).trans ?_ <;> try intro _ _) | dsimp only | split); done)

@[simp] theorem domainResult_disc (d : Dev) (r : Nat) : (Dev.domainResult d r).disc = d.disc := by
  first
  | (unfold Dev.domainResult; simp only [setNum_disc]; done)
  | (unfold Dev.domainResult; with_reducible rfl)
  | (unfold Dev.domainResult; simp; done)
  | (unfold Dev.domainResult; (repeat' first | with_reducible rfl | (simp; done) | split); done)
  | (unfold Dev.domainResult; try dsimp only
     (repeat' first | with_reducible rfl | (simp; done) | (with_reducible refine (foldl_disc _ ?_ _ _).trans ?_ <;> try intro _ _) | dsimp only | split); done)

@[simp] theorem domainResult_coll (d : Dev) (r : Nat) : (Dev.domainResult d r).coll = d.coll := by
  first
  | (unfold Dev.domainResult; simp only [setNum_coll]; done)
  | (unfold Dev.domainResult; with_reducible rfl)
  | (unfold Dev.domainResult; simp; done)
  | (unfold Dev.domainResult; (repeat' first | with_reducible rfl | (simp; done) | split); done)
  | (unfold Dev.domainResult; try dsimp only
     (repeat' first | with_reducible rfl | (simp; done) | (with_reducible refine (foldl_coll _ ?_ _ _).trans ?_ <;> try intro _ _) | dsimp only | split); done)

@[simp] theorem domainResult_mem (d : Dev) (r : Nat) : (Dev.domainResult d r).mem = d.mem := by
  first
  | (unfold Dev.domainResult; simp only [setNum_mem]; done)
  | (unfold Dev.domainResult; with_reducible rfl)
  | (unfold Dev.domainResult; simp; done)
  | (unfold Dev.domainResult; (repeat' first | with_reducible rfl | (simp; done) | split); done)
  | (unfold Dev.domainResult; try dsimp only
     (repeat' first | with_reducible rfl | (simp; done) | (with_reducible refine (foldl_mem _ ?_ _ _).trans ?_ <;> try intro _ _) | dsimp only | split); done)

@[simp] theorem domainResult_faults (d : Dev) (r : Nat) : (Dev.domainResult d r).faults = d.faults := by
  first
  | (unfold Dev.domainResult; simp only [setNum_faults]; done)
  | (unfold Dev.domainResult; with_reducible rfl)
  | (unfold Dev.domainResult; simp; done)
  | (unfold Dev.domainResult; (repeat' first | with_reducible rfl | (simp; done) | split); done)
  | (unfold Dev.domainResult; try dsimp only
     (repeat' first | with_reducible rfl | (simp; done) | (with_reducible refine (foldl_faults _ ?_ _ _).trans ?_ <;> try intro _ _) | dsimp only | split); done)

@[simp] theorem domainResult_twin (d : Dev) (r : Nat) : (Dev.domainResult d r).twin = d.twin := by
  first
  | (unfold Dev.domainResult; simp only [setNum_twin]; done)
  | (unfold Dev.domainResult; with_reducible rfl)
  | (unfold Dev.domainResult; simp; done)
  | (unfold Dev.domainResult; (repeat' first | with_reducible rfl | (simp; done) | split); done)
  | (unfold Dev.domainResult; try dsimp only
     (repeat' first | with_reducible rfl | (simp; done) | (with_reducible refine (foldl_twin _ ?_ _ _).trans ?_ <;> try intro _ _) | dsimp only | split); done)

@[simp] theorem domainResult_power (d : Dev) (r : Nat) : (Dev.domainResult d r).power = d.power := by
  first
  | (unfold Dev.domainResult; simp only [setNum_power]; done)
  | (unfold Dev.domainResult; with_reducible rfl)
  | (unfold Dev.domainResult; simp; done)
  | (unfold Dev.domainResult; (repeat' first | with_reducible rfl | (simp; done) | split); done)
  | (unfold Dev.domainResult; try dsimp only
     (repeat' first | with_reducible rfl | (simp; done) | (with_reducible refine (foldl_power _ ?_ _ _).trans ?_ <;> try intro _ _) | dsimp only | split); done)

@[simp] theorem domainResult_upd (d : Dev) (r : Nat) : (Dev.domainResult d r).upd = d.upd := by
  first
  | (unfold Dev.domainResult; simp only [setNum_upd]; done)
  | (unfold Dev.domainResult; with_reducible rfl)
  | (unfold Dev.domainResult; simp; done)
  | (unfold Dev.domainResult; (repeat' first | with_reducible rfl | (simp; done) | split); done)
  | (unfold Dev.domainResult; try dsimp only
     (repeat' first | with_reducible rfl | (simp; done) | (with_reducible refine (foldl_upd _ ?_ _ _).trans ?_ <;> try intro _ _) | dsimp only | split); done)

@[simp] theorem domainResult_recr (d : Dev) (r : Nat) : (Dev.domainResult d r).recr = d.recr := by
  first
  | (unfold Dev.domainResult; simp only [setNum_recr]; done)
  | (unfold Dev.domainResult; with_reducible rfl)
  | (unfold Dev.domainResult; simp; done)
  | (unfold Dev.domainResult; (repeat' first | with_reducible rfl | (simp; done) | split); done)
  | (unfold Dev.domainResult; try dsimp only
     (repeat' first | with_reducible rfl | (simp; done) | (with_reducible refine (foldl_recr _ ?_ _ _).trans ?_ <;> try intro _ _) | dsimp only | split); done)

@[simp] theorem domainResult_ob (d : Dev) (r : Nat) : (Dev.domainResult d r).ob = d.ob := by
  first
  | (unfold Dev.domainResult; simp only [setNum_ob]; done)
  | (unfold Dev.domainResult; with_reducible rfl)
  | (unfold Dev.domainResult; simp; done)
  | (unfold Dev.domainResult; (repeat' first | with_reducible rfl | (simp; done) | split); done)
  | (unfold Dev.domainResult; try dsimp only
     (repeat' first | with_reducible rfl | (simp; done) | (with_reducible refine (foldl_ob _ ?_ _ _).trans ?_ <;> try intro _ _) | dsimp only | split); done)

@[simp] theorem domainResult_out (d : Dev) (r : Nat) : (Dev.domainResult d r).out = d.out := by
  first
  | (unfold Dev.domainResult; simp only [setNum_out]; done)
  | (unfold Dev.domainResult; with_reducible rfl)
  | (unfold Dev.domainResult; simp; done)
  | (unfold Dev.domainResult; (repeat' first | with_reducible rfl | (simp; done) | split); done)
  | (unfold Dev.domainResult; try dsimp only
     (repeat' first | with_reducible rfl | (simp; done) | (with_reducible refine (foldl_out _ ?_ _ _).trans ?_ <;> try intro _ _) | dsimp only | split); done)

@[simp] theorem domainResult_fresh (d : Dev) (r : Nat) : (Dev.domainResult d r).fresh = d.fresh := by
  first
  | (unfold Dev.domainResult; simp only [setNum_fresh]; done)
  | (unfold Dev.domainResult; with_reducible rfl)
  | (unfold Dev.domainResult; simp; done)
  | (unfold Dev.domainResult; (repeat' first | with_reducible rfl | (simp; done) | split); done)
  | (unfold Dev.domainResult; try dsimp only
     (repeat' first | with_reducible rfl | (simp; done) | (with_reducible refine (foldl_fresh _ ?_ _ _).trans ?_ <;> try intro _ _) | dsimp only | split); done)

@[simp] theorem domainAnswer_module (d : Dev) (k result : Nat) : (Dev.domainAnswer d k result).module = d.module := by
  first
  | (unfold Dev.domainAnswer; simp only [domainResult_module, emit_module]; done)
  | (unfold Dev.domainAnswer; with_reducible rfl)
  | (unfold Dev.domainAnswer; simp; done)
  | (unfold Dev.domainAnswer; (repeat' first | with_reducible rfl | (simp; done) | split); done)
  | (unfold Dev.domainAnswer; try dsimp only
     (repeat' first | with_reducible rfl | (simp; done) | (with_reducible refine (foldl_module _ ?_ _ _).trans ?_ <;> try intro _ _) | dsimp only | split); done)

@[simp] theorem domainAnswer_dir (d : Dev) (k result : Nat) : (Dev.domainAnswer d k result).dir = d.dir := by
  first
  | (unfold Dev.domainAnswer; simp only [domainResult_dir, emit_dir]; done)
  | (unfold Dev.domainAnswer; with_reducible rfl)
  | (unfold Dev.domainAnswer; simp; done)
  | (unfold Dev.domainAnswer; (repeat' first | with_reducible rfl | (simp; done) | split); done)
  | (unfold Dev.domainAnswer; try dsimp only
     (repeat' first | with_reducible rfl | (simp; done) | (with_reducible refine (foldl_dir _ ?_ _ _).trans ?_ <;> try intro _ _) | dsimp only | split); done)

@[simp] theorem domainAnswer_jobs (d : Dev) (k result : Nat) : (Dev.domainAnswer d k result).jobs = d.jobs := by
  first
  | (unfold Dev.domainAnswer; simp only [domainResult_jobs, emit_jobs]; done)
  | (unfold Dev.domainAnswer; with_reducible rfl)
  | (unfold Dev.domainAnswer; simp; done)
  | (unfold Dev.domainAnswer; (repeat' first | with_reducible rfl | (simp; done) | split); done)
  | (unfold Dev.domainAnswer; try dsimp only
     (repeat' first | with_reducible rfl | (simp; done) | (with_reducible refine (foldl_jobs _ ?_ _ _).trans ?_ <;> try intro _ _) | dsimp only | split); done)

@[simp] theorem domainAnswer_circuits (d : Dev) (k result : Nat) : (Dev.domainAnswer d k result).circuits = d.circuits := by
  first
  | (unfold Dev.domainAnswer; simp only [domainResult_circuits, emit_circuits]; done)
  | (unfold Dev.domainAnswer; with_reducible rfl)
  | (unfold Dev.domainAnswer; simp; done)
  | (unfold Dev.domainAnswer; (repeat' first | with_reducible rfl | (simp; done) | split); done)
  | (unfold Dev.domainAnswer; try dsimp only
     (repeat' first | with_reducible rfl | (simp; done) | (with_reducible refine (foldl_circuits _ ?_ _ _).trans ?_ <;> try intro _ _) | dsimp only | split); done)

@[simp] theorem domainAnswer_runs (d : Dev) (k result : Nat) : (Dev.domainAnswer d k result).runs = d.runs := by
  first
  | (unfold Dev.domainAnswer; simp only [domainResult_runs, emit_runs]; done)
  | (unfold Dev.domainAnswer; with_reducible rfl)
  | (unfold Dev.domainAnswer; simp; done)
  | (unfold Dev.domainAnswer; (repeat' first | with_reducible rfl | (simp; done) | split); done)
  | (unfold Dev.domainAnswer; try dsimp only
     (repeat' first | with_reducible rfl | (simp; done) | (with_reducible refine (foldl_runs _ ?_ _ _).trans ?_ <;> try intro _ _) | dsimp only | split); done)

@[simp] theorem domainAnswer_time (d : Dev) (k result : Nat) : (Dev.domainAnswer d k result).time = d.time := by
  first
  | (unfold Dev.domainAnswer; simp only [domainResult_time, emit_time]; done)
  | (unfold Dev.domainAnswer; with_reducible rfl)
  | (unfold Dev.domainAnswer; simp; done)
  | (unfold Dev.domainAnswer; (repeat' first | with_reducible rfl | (simp; done) | split); done)
  | (unfold Dev.domainAnswer; try dsimp only
     (repeat' first | with_reducible rfl | (simp; done) | (with_reducible refine (foldl_time _ ?_ _ _).trans ?_ <;> try intro _ _) | dsimp only | split); done)

@[simp] theorem domainAnswer_eng (d : Dev) (k result : Nat) : (Dev.domainAnswer d k result).eng = d.eng := by
  first
  | (unfold Dev.domainAnswer; simp only [domainResult_eng, emit_eng]; done)
  | (unfold Dev.domainAnswer; with_reducible rfl)
  | (unfold Dev.domainAnswer; simp; done)
  | (unfold Dev.domainAnswer; (repeat' first | with_reducible rfl | (simp; done) | split); done)
  | (unfold Dev.domainAnswer; try dsimp only
     (repeat' first | with_reducible rfl | (simp; done) | (with_reducible refine (foldl_eng _ ?_ _ _).trans ?_ <;> try intro _ _) | dsimp only | split); done)

@[simp] theorem domainAnswer_rings (d : Dev) (k result : Nat) : (Dev.domainAnswer d k result).rings = d.rings := by
  first
  | (unfold Dev.domainAnswer; simp only [domainResult_rings, emit_rings]; done)
  | (unfold Dev.domainAnswer; with_reducible rfl)
  | (unfold Dev.domainAnswer; simp; done)
  | (unfold Dev.domainAnswer; (repeat' first | with_reducible rfl | (simp; done) | split); done)
  | (unfold Dev.domainAnswer; try dsimp only
     (repeat' first | with_reducible rfl | (simp; done) | (with_reducible refine (foldl_rings _ ?_ _ _).trans ?_ <;> try intro _ _) | dsimp only | split); done)

@[simp] theorem domainAnswer_arr (d : Dev) (k result : Nat) : (Dev.domainAnswer d k result).arr = d.arr := by
  first
  | (unfold Dev.domainAnswer; simp only [domainResult_arr, emit_arr]; done)
  | (unfold Dev.domainAnswer; with_reducible rfl)
  | (unfold Dev.domainAnswer; simp; done)
  | (unfold Dev.domainAnswer; (repeat' first | with_reducible rfl | (simp; done) | split); done)
  | (unfold Dev.domainAnswer; try dsimp only
     (repeat' first | with_reducible rfl | (simp; done) | (with_reducible refine (foldl_arr _ ?_ _ _).trans ?_ <;> try intro _ _) | dsimp only | split); done)

@[simp] theorem domainAnswer_opt (d : Dev) (k result : Nat) : (Dev.domainAnswer d k result).opt = d.opt := by
  first
  | (unfold Dev.domainAnswer; simp only [domainResult_opt, emit_opt]; done)
  | (unfold Dev.domainAnswer; with_reducible rfl)
  | (unfold Dev.domainAnswer; simp; done)
  | (unfold Dev.domainAnswer; (repeat' first | with_reducible rfl | (simp; done) | split); done)
  | (unfold Dev.domainAnswer; try dsimp only
     (repeat' first | with_reducible rfl | (simp; done) | (with_reducible refine (foldl_opt _ ?_ _ _).trans ?_ <;> try intro _ _) | dsimp only | split); done)

@[simp] theorem domainAnswer_disc (d : Dev) (k result : Nat) : (Dev.domainAnswer d k result).disc = d.disc := by
  first
  | (unfold Dev.domainAnswer; simp only [domainResult_disc, emit_disc]; done)
  | (unfold Dev.domainAnswer; with_reducible rfl)
  | (unfold Dev.domainAnswer; simp; done)
  | (unfold Dev.domainAnswer; (repeat' first | with_reducible rfl | (simp; done) | split); done)
  | (unfold Dev.domainAnswer; try dsimp only
     (repeat' first | with_reducible rfl | (simp; done) | (with_reducible refine (foldl_disc _ ?_ _ _).trans ?_ <;> try intro _ _) | dsimp only | split); done)

@[simp] theorem domainAnswer_coll (d : Dev) (k result : Nat) : (Dev.domainAnswer d k result).coll = d.coll := by
  first
  | (unfold Dev.domainAnswer; simp only [domainResult_coll, emit_coll]; done)
  | (unfold Dev.domainAnswer; with_reducible rfl)
  | (unfold Dev.domainAnswer; simp; done)
  | (unfold Dev.domainAnswer; (repeat' first | with_reducible rfl | (simp; done) | split); done)
  | (unfold Dev.domainAnswer; try dsimp only
     (repeat' first | with_reducible rfl | (simp; done) | (with_reducible refine (foldl_coll _ ?_ _ _).trans ?_ <;> try intro _ _) | dsimp only | split); done)

@[simp] theorem domainAnswer_mem (d : Dev) (k result : Nat) : (Dev.domainAnswer d k result).mem = d.mem := by
  first
  | (unfold Dev.domainAnswer; simp only [domainResult_mem, emit_mem]; done)
  | (unfold Dev.domainAnswer; with_reducible rfl)
  | (unfold Dev.domainAnswer; simp; done)
  | (unfold Dev.domainAnswer; (repeat' first | with_reducible rfl | (simp; done) | split); done)
  | (unfold Dev.domainAnswer; try dsimp only
     (repeat' first | with_reducible rfl | (simp; done) | (with_reducible refine (foldl_mem _ ?_ _ _).trans ?_ <;> try intro _ _) | dsimp only | split); done)

@[simp] theorem domainAnswer_faults (d : Dev) (k result : Nat) : (Dev.domainAnswer d k result).faults = d.faults := by
  first
  | (unfold Dev.domainAnswer; simp only [domainResult_faults, emit_faults]; done)
  | (unfold Dev.domainAnswer; with_reducible rfl)
  | (unfold Dev.domainAnswer; simp; done)
  | (unfold Dev.domainAnswer; (repeat' first | with_reducible rfl | (simp; done) | split); done)
  | (unfold Dev.domainAnswer; try dsimp only
     (repeat' first | with_reducible rfl | (simp; done) | (with_reducible refine (foldl_faults _ ?_ _ _).trans ?_ <;> try intro _ _) | dsimp only | split); done)

@[simp] theorem domainAnswer_twin (d : Dev) (k result : Nat) : (Dev.domainAnswer d k result).twin = d.twin := by
  first
  | (unfold Dev.domainAnswer; simp only [domainResult_twin, emit_twin]; done)
  | (unfold Dev.domainAnswer; with_reducible rfl)
  | (unfold Dev.domainAnswer; simp; done)
  | (unfold Dev.domainAnswer; (repeat' first | with_reducible rfl | (simp; done) | split); done)
  | (unfold Dev.domainAnswer; try dsimp only
     (repeat' first | with_reducible rfl | (simp; done) | (with_reducible refine (foldl_twin _ ?_ _ _).trans ?_ <;> try intro _ _) | dsimp only | split); done)

@[simp] theorem domainAnswer_power (d : Dev) (k result : Nat) : (Dev.domainAnswer d k result).power = d.power := by
  first
  | (unfold Dev.domainAnswer; simp only [domainResult_power, emit_power]; done)
  | (unfold Dev.domainAnswer; with_reducible rfl)
  | (unfold Dev.domainAnswer; simp; done)
  | (unfold Dev.domainAnswer; (repeat' first | with_reducible rfl | (simp; done) | split); done)
  | (unfold Dev.domainAnswer; try dsimp only
     (repeat' first | with_reducible rfl | (simp; done) | (with_reducible refine (foldl_power _ ?_ _ _).trans ?_ <;> try intro _ _) | dsimp only | split); done)

@[simp] theorem domainAnswer_upd (d : Dev) (k result : Nat) : (Dev.domainAnswer d k result).upd = d.upd := by
  first
  | (unfold Dev.domainAnswer; simp only [domainResult_upd, emit_upd]; done)
  | (unfold Dev.domainAnswer; with_reducible rfl)
  | (unfold Dev.domainAnswer; simp; done)
  | (unfold Dev.domainAnswer; (repeat' first | with_reducible rfl | (simp; done) | split); done)
  | (unfold Dev.domainAnswer; try dsimp only
     (repeat' first | with_reducible rfl | (simp; done) | (with_reducible refine (foldl_upd _ ?_ _ _).trans ?_ <;> try intro _ _) | dsimp only | split); done)

@[simp] theorem domainAnswer_recr (d : Dev) (k result : Nat) : (Dev.domainAnswer d k result).recr = d.recr := by
  first
  | (unfold Dev.domainAnswer; simp only [domainResult_recr, emit_recr]; done)
  | (unfold Dev.domainAnswer; with_reducible rfl)
  | (unfold Dev.domainAnswer; simp; done)
  | (unfold Dev.domainAnswer; (repeat' first | with_reducible rfl | (simp; done) | split); done)
  | (unfold Dev.domainAnswer; try dsimp only
     (repeat' first | with_reducible rfl | (simp; done) | (with_reducible refine (foldl_recr _ ?_ _ _).trans ?_ <;> try intro _ _) | dsimp only | split); done)

@[simp] theorem domainAnswer_ob (d : Dev) (k result : Nat) : (Dev.domainAnswer d k result).ob = d.ob := by
  first
  | (unfold Dev.domainAnswer; simp only [domainResult_ob, emit_ob]; done)
  | (unfold Dev.domainAnswer; with_reducible rfl)
  | (unfold Dev.domainAnswer; simp; done)
  | (unfold Dev.domainAnswer; (repeat' first | with_reducible rfl | (simp; done) | split); done)
  | (unfold Dev.domainAnswer; try dsimp only
     (repeat' first | with_reducible rfl | (simp; done) | (with_reducible refine (foldl_ob _ ?_ _ _).trans ?_ <;> try intro _ _) | dsimp only | split); done)

@[simp] theorem domainAnswer_fresh (d : Dev) (k result : Nat) : (Dev.domainAnswer d k result).fresh = d.fresh := by
  first
  | (unfold Dev.domainAnswer; simp only [domainResult_fresh, emit_fresh]; done)
  | (unfold Dev.domainAnswer; with_reducible rfl)
  | (unfold Dev.domainAnswer; simp; done)
  | (unfold Dev.domainAnswer; (repeat' first | with_reducible rfl | (simp; done) | split); done)
  | (unfold Dev.domainAnswer; try dsimp only
     (repeat' first | with_reducible rfl | (simp; done) | (with_reducible refine (foldl_fresh _ ?_ _ _).trans ?_ <;> try intro _ _) | dsimp only | split); done)

@[simp] theorem writeLastShut_module (d : Dev) : (Dev.writeLastShut d).module = d.module := by
  first
  | (unfold Dev.writeLastShut; simp only [setOct_module]; done)
  | (unfold Dev.writeLastShut; with_reducible rfl)
  | (unfold Dev.writeLastShut; simp; done)
  | (unfold Dev.writeLastShut; (repeat' first | with_reducible rfl | (simp; done) | split); done)
  | (unfold Dev.writeLastShut; try dsimp only
     (repeat' first | with_reducible rfl | (simp; done) | (with_reducible refine (foldl_module _ ?_ _ _).trans ?_ <;> try intro _ _) | dsimp only | split); done)

@[simp] theorem writeLastShut_net (d : Dev) : (Dev.writeLastShut d).net = d.net := by
  first
  | (unfold Dev.writeLastShut; simp only [setOct_net]; done)
  | (unfold Dev.writeLastShut; with_reducible rfl)
  | (unfold Dev.writeLastShut; simp; done)
  | (unfold Dev.writeLastShut; (repeat' first | with_reducible rfl | (simp; done) | split); done)
  | (unfold Dev.writeLastShut; try dsimp only
     (repeat' first | with_reducible rfl | (simp; done) | (with_reducible refine (foldl_net _ ?_ _ _).trans ?_ <;> try intro _ _) | dsimp only | split); done)

@[simp] theorem writeLastShut_dir (d : Dev) : (Dev.writeLastShut d).dir = d.dir := by
  first
  | (unfold Dev.writeLastShut; simp only [setOct_dir]; done)
  | (unfold Dev.writeLastShut; with_reducible rfl)
  | (unfold Dev.writeLastShut; simp; done)
  | (unfold Dev.writeLastShut; (repeat' first | with_reducible rfl | (simp; done) | split); done)
  | (unfold Dev.writeLastShut; try dsimp only
     (repeat' first | with_reducible rfl | (simp; done) | (with_reducible refine (foldl_dir _ ?_ _ _).trans ?_ <;> try intro _ _) | dsimp only | split); done)

@[simp] theorem writeLastShut_jobs (d : Dev) : (Dev.writeLastShut d).jobs = d.jobs := by
  first
  | (unfold Dev.writeLastShut; simp only [setOct_jobs]; done)
  | (unfold Dev.writeLastShut; with_reducible rfl)
  | (unfold Dev.writeLastShut; simp; done)
  | (unfold Dev.writeLastShut; (repeat' first | with_reducible rfl | (simp; done) | split); done)
  | (unfold Dev.writeLastShut; try dsimp only
     (repeat' first | with_reducible rfl | (simp; done) | (with_reducible refine (foldl_jobs _ ?_ _ _).trans ?_ <;> try intro _ _) | dsimp only | split); done)

@[simp] theorem writeLastShut_circuits (d : Dev) : (Dev.writeLastShut d).circuits = d.circuits := by
  first
  | (unfold Dev.writeLastShut; simp only [setOct_circuits]; done)
  | (unfold Dev.writeLastShut; with_reducible rfl)
  | (unfold Dev.writeLastShut; simp; done)
  | (unfold Dev.writeLastShut; (repeat' first | with_reducible rfl | (simp; done) | split); done)
  | (unfold Dev.writeLastShut; try dsimp only
     (repeat' first | with_reducible rfl | (simp; done) | (with_reducible refine (foldl_circuits _ ?_ _ _).trans ?_ <;> try intro _ _) | dsimp only | split); done)

@[simp] theorem writeLastShut_runs (d : Dev) : (Dev.writeLastShut d).runs = d.runs := by
  first
  | (unfold Dev.writeLastShut; simp only [setOct_runs]; done)
  | (unfold Dev.writeLastShut; with_reducible rfl)
  | (unfold Dev.writeLastShut; simp; done)
  | (unfold Dev.writeLastShut; (repeat' first | with_reducible rfl | (simp; done) | split); done)
  | (unfold Dev.writeLastShut; try dsimp only
     (repeat' first | with_reducible rfl | (simp; done) | (with_reducible refine (foldl_runs _ ?_ _ _).trans ?_ <;> try intro _ _) | dsimp only | split); done)

@[simp] theorem writeLastShut_time (d : Dev) : (Dev.writeLastShut d).time = d.time := by
  first
  | (unfold Dev.writeLastShut; simp only [setOct_time]; done)
  | (unfold Dev.writeLastShut; with_reducible rfl)
  | (unfold Dev.writeLastShut; simp; done)
  | (unfold Dev.writeLastShut; (repeat' first | with_reducible rfl | (simp; done) | split); done)
  | (unfold Dev.writeLastShut; try dsimp only
     (repeat' first | with_reducible rfl | (simp; done) | (with_reducible refine (foldl_time _ ?_ _ _).trans ?_ <;> try intro _ _) | dsimp only | split); done)

@[simp] theorem writeLastShut_eng (d : Dev) : (Dev.writeLastShut d).eng = d.eng := by
  first
  | (unfold Dev.writeLastShut; simp only [setOct_eng]; done)
  | (unfold Dev.writeLastShut; with_reducible rfl)
  | (unfold Dev.writeLastShut; simp; done)
  | (unfold Dev.writeLastShut; (repeat' first | with_reducible rfl | (simp; done) | split); done)
  | (unfold Dev.writeLastShut; try dsimp only
     (repeat' first | with_reducible rfl | (simp; done) | (with_reducible refine (foldl_eng _ ?_ _ _).trans ?_ <;> try intro _ _) | dsimp only | split); done)

@[simp] theorem writeLastShut_rings (d : Dev) : (Dev.writeLastShut d).rings = d.rings := by
  first
  | (unfold Dev.writeLastShut; simp only [setOct_rings]; done)
  | (unfold Dev.writeLastShut; with_reducible rfl)
  | (unfold Dev.writeLastShut; simp; done)
  | (unfold Dev.writeLastShut; (repeat' first | with_reducible rfl | (simp; done) | split); done)
  | (unfold Dev.writeLastShut; try dsimp only
     (repeat' first | with_reducible rfl | (simp; done) | (with_reducible refine (foldl_rings _ ?_ _ _).trans ?_ <;> try intro _ _) | dsimp only | split); done)

@[simp] theorem writeLastShut_arr (d : Dev) : (Dev.writeLastShut d).arr = d.arr := by
  first
  | (unfold Dev.writeLastShut; simp only [setOct_arr]; done)
  | (unfold Dev.writeLastShut; with_reducible rfl)
  | (unfold Dev.writeLastShut; simp; done)
  | (unfold Dev.writeLastShut; (repeat' first | with_reducible rfl | (simp; done) | split); done)
  | (unfold Dev.writeLastShut; try dsimp only
     (repeat' first | with_reducible rfl | (simp; done) | (with_reducible refine (foldl_arr _ ?_ _ _).trans ?_ <;> try intro _ _) | dsimp only | split); done)

@[simp] theorem writeLastShut_opt (d : Dev) : (Dev.writeLastShut d).opt = d.opt := by
  first
  | (unfold Dev.writeLastShut; simp only [setOct_opt]; done)
  | (unfold Dev.writeLastShut; with_reducible rfl)
  | (unfold Dev.writeLastShut; simp; done)
  | (unfold Dev.writeLastShut; (repeat' first | with_reducible rfl | (simp; done) | split); done)
  | (unfold Dev.writeLastShut; try dsimp only
     (repeat' first | with_reducible rfl | (simp; done) | (with_reducible refine (foldl_opt _ ?_ _ _).trans ?_ <;> try intro _ _) | dsimp only | split); done)

@[simp] theorem writeLastShut_disc (d : Dev) : (Dev.writeLastShut d).disc = d.disc := by
  first
  | (unfold Dev.writeLastShut; simp only [setOct_disc]; done)
  | (unfold Dev.writeLastShut; with_reducible rfl)
  | (unfold Dev.writeLastShut; simp; done)
  | (unfold Dev.writeLastShut; (repeat' first | with_reducible rfl | (simp; done) | split); done)
  | (unfold Dev.writeLastShut; try dsimp only
     (repeat' first | with_reducible rfl | (simp; done) | (with_reducible refine (foldl_disc _ ?_ _ _).trans ?_ <;> try intro _ _) | dsimp only | split); done)

@[simp] theorem writeLastShut_coll (d : Dev) : (Dev.writeLastShut d).coll = d.coll := by
  first
  | (unfold Dev.writeLastShut; simp only [setOct_coll]; done)
  | (unfold Dev.writeLastShut; with_reducible rfl)
  | (unfold Dev.writeLastShut; simp; done)
  | (unfold Dev.writeLastShut; (repeat' first | with_reducible rfl | (simp; done) | split); done)
  | (unfold Dev.writeLastShut; try dsimp only
     (repeat' first | with_reducible rfl | (simp; done) | (with_reducible refine (foldl_coll _ ?_ _ _).trans ?_ <;> try intro _ _) | dsimp only | split); done)

@[simp] theorem writeLastShut_mem (d : Dev) : (Dev.writeLastShut d).mem = d.mem := by
  first
  | (unfold Dev.writeLastShut; simp only [setOct_mem]; done)
  | (unfold Dev.writeLastShut; with_reducible rfl)
  | (unfold Dev.writeLastShut; simp; done)
  | (unfold Dev.writeLastShut; (repeat' first | with_reducible rfl | (simp; done) | split); done)
  | (unfold Dev.writeLastShut; try dsimp only
     (repeat' first | with_reducible rfl | (simp; done) | (with_reducible refine (foldl_mem _ ?_ _ _).trans ?_ <;> try intro _ _) | dsimp only | split); done)

@[simp] theorem writeLastShut_faults (d : Dev) : (Dev.writeLastShut d).faults = d.faults := by
  first
  | (unfold Dev.writeLastShut; simp only [setOct_faults]; done)
  | (unfold Dev.writeLastShut; with_reducible rfl)
  | (unfold Dev.writeLastShut; simp; done)
  | (unfold Dev.writeLastShut; (repeat' first | with_reducible rfl | (simp; done) | split); done)
  | (unfold Dev.writeLastShut; try dsimp only
     (repeat' first | with_reducible rfl | (simp; done) | (with_reducible refine (foldl_faults _ ?_ _ _).trans ?_ <;> try intro _ _) | dsimp only | split); done)

@[simp] theorem writeLastShut_twin (d : Dev) : (Dev.writeLastShut d).twin = d.twin := by
  first
  | (unfold Dev.writeLastShut; simp only [setOct_twin]; done)
  | (unfold Dev.writeLastShut; with_reducible rfl)
  | (unfold Dev.writeLastShut; simp; done)
  | (unfold Dev.writeLastShut; (repeat' first | with_reducible rfl | (simp; done) | split); done)
  | (unfold Dev.writeLastShut; try dsimp only
     (repeat' first | with_reducible rfl | (simp; done) | (with_reducible refine (foldl_twin _ ?_ _ _).trans ?_ <;> try intro _ _) | dsimp only | split); done)

@[simp] theorem writeLastShut_upd (d : Dev) : (Dev.writeLastShut d).upd = d.upd := by
  first
  | (unfold Dev.writeLastShut; simp only [setOct_upd]; done)
  | (unfold Dev.writeLastShut; with_reducible rfl)
  | (unfold Dev.writeLastShut; simp; done)
  | (unfold Dev.writeLastShut; (repeat' first | with_reducible rfl | (simp; done) | split); done)
  | (unfold Dev.writeLastShut; try dsimp only
     (repeat' first | with_reducible rfl | (simp; done) | (with_reducible refine (foldl_upd _ ?_ _ _).trans ?_ <;> try intro _ _) | dsimp only | split); done)

@[simp] theorem writeLastShut_recr (d : Dev) : (Dev.writeLastShut d).recr = d.recr := by
  first
  | (unfold Dev.writeLastShut; simp only [setOct_recr]; done)
  | (unfold Dev.writeLastShut; with_reducible rfl)
  | (unfold Dev.writeLastShut; simp; done)
  | (unfold Dev.writeLastShut; (repeat' first | with_reducible rfl | (simp; done) | split); done)
  | (unfold Dev.writeLastShut; try dsimp only
     (repeat' first | with_reducible rfl | (simp; done) | (with_reducible refine (foldl_recr _ ?_ _ _).trans ?_ <;> try intro _ _) | dsimp only | split); done)

@[simp] theorem writeLastShut_od (d : Dev) : (Dev.writeLastShut d).od = d.od := by
  first
  | (unfold Dev.writeLastShut; simp only [setOct_od]; done)
  | (unfold Dev.writeLastShut; with_reducible rfl)
  | (unfold Dev.writeLastShut; simp; done)
  | (unfold Dev.writeLastShut; (repeat' first | with_reducible rfl | (simp; done) | split); done)
  | (unfold Dev.writeLastShut; try dsimp only
     (repeat' first | with_reducible rfl | (simp; done) | (with_reducible refine (foldl_od _ ?_ _ _).trans ?_ <;> try intro _ _) | dsimp only | split); done)

@[simp] theorem writeLastShut_out (d : Dev) : (Dev.writeLastShut d).out = d.out := by
  first
  | (unfold Dev.writeLastShut; simp only [setOct_out]; done)
  | (unfold Dev.writeLastShut; with_reducible rfl)
  | (unfold Dev.writeLastShut; simp; done)
  | (unfold Dev.writeLastShut; (repeat' first | with_reducible rfl | (simp; done) | split); done)
  | (unfold Dev.writeLastShut; try dsimp only
     (repeat' first | with_reducible rfl | (simp; done) | (with_reducible refine (foldl_out _ ?_ _ _).trans ?_ <;> try intro _ _) | dsimp only | split); done)

@[simp] theorem writeLastShut_fresh (d : Dev) : (Dev.writeLastShut d).fresh = d.fresh := by
  first
  | (unfold Dev.writeLastShut; simp only [setOct_fresh]; done)
  | (unfold Dev.writeLastShut; with_reducible rfl)
  | (unfold Dev.writeLastShut; simp; done)
  | (unfold Dev.writeLastShut; (repeat' first | with_reducible rfl | (simp; done) | split); done)
  | (unfold Dev.writeLastShut; try dsimp only
     (repeat' first | with_reducible rfl | (simp; done) | (with_reducible refine (foldl_fresh _ ?_ _ _).trans ?_ <;> try intro _ _) | dsimp only | split); done)

@[simp] theorem lightSlots_module (d : Dev) : (Dev.lightSlots d).module = d.module := by
  first
  | (unfold Dev.lightSlots; simp only [request_module]; done)
  | (unfold Dev.lightSlots; with_reducible rfl)
  | (unfold Dev.lightSlots; simp; done)
  | (unfold Dev.lightSlots; (repeat' first | with_reducible rfl | (simp; done) | split); done)
  | (unfold Dev.lightSlots; try dsimp only
     (repeat' first | with_reducible rfl | (simp; done) | (with_reducible refine (foldl_module _ ?_ _ _).trans ?_ <;> try intro _ _) | dsimp only | split); done)

@[simp] theorem lightSlots_net (d : Dev) : (Dev.lightSlots d).net = d.net := by
  first
  | (unfold Dev.lightSlots; simp only [request_net]; done)
  | (unfold Dev.lightSlots; with_reducible rfl)
  | (unfold Dev.lightSlots; simp; done)
  | (unfold Dev.lightSlots; (repeat' first | with_reducible rfl | (simp; done) | split); done)
  | (unfold Dev.lightSlots; try dsimp only
     (repeat' first | with_reducible rfl | (simp; done) | (with_reducible refine (foldl_net _ ?_ _ _).trans ?_ <;> try intro _ _) | dsimp only | split); done)

@[simp] theorem lightSlots_dir (d : Dev) : (Dev.lightSlots d).dir = d.dir := by
  first
  | (unfold Dev.lightSlots; simp only [request_dir]; done)
  | (unfold Dev.lightSlots; with_reducible rfl)
  | (unfold Dev.lightSlots; simp; done)
  | (unfold Dev.lightSlots; (repeat' first | with_reducible rfl | (simp; done) | split); done)
  | (unfold Dev.lightSlots; try dsimp only
     (repeat' first | with_reducible rfl | (simp; done) | (with_reducible refine (foldl_dir _ ?_ _ _).trans ?_ <;> try intro _ _) | dsimp only | split); done)

@[simp] theorem lightSlots_jobs (d : Dev) : (Dev.lightSlots d).jobs = d.jobs := by
  first
  | (unfold Dev.lightSlots; simp only [request_jobs]; done)
  | (unfold Dev.lightSlots; with_reducible rfl)
  | (unfold Dev.lightSlots; simp; done)
  | (unfold Dev.lightSlots; (repeat' first | with_reducible rfl | (simp; done) | split); done)
  | (unfold Dev.lightSlots; try dsimp only
     (repeat' first | with_reducible rfl | (simp; done) | (with_reducible refine (foldl_jobs _ ?_ _ _).trans ?_ <;> try intro _ _) | dsimp only | split); done)

@[simp] theorem lightSlots_circuits (d : Dev) : (Dev.lightSlots d).circuits = d.circuits := by
  first
  | (unfold Dev.lightSlots; simp only [request_circuits]; done)
  | (unfold Dev.lightSlots; with_reducible rfl)
  | (unfold Dev.lightSlots; simp; done)
  | (unfold Dev.lightSlots; (repeat' first | with_reducible rfl | (simp; done) | split); done)
  | (unfold Dev.lightSlots; try dsimp only
     (repeat' first | with_reducible rfl | (simp; done) | (with_reducible refine (foldl_circuits _ ?_ _ _).trans ?_ <;> try intro _ _) | dsimp only | split); done)

@[simp] theorem lightSlots_runs (d : Dev) : (Dev.lightSlots d).runs = d.runs := by
  first
  | (unfold Dev.lightSlots; simp only [request_runs]; done)
  | (unfold Dev.lightSlots; with_reducible rfl)
  | (unfold Dev.lightSlots; simp; done)
  | (unfold Dev.lightSlots; (repeat' first | with_reducible rfl | (simp; done) | split); done)
  | (unfold Dev.lightSlots; try dsimp only
     (repeat' first | with_reducible rfl | (simp; done) | (with_reducible refine (foldl_runs _ ?_ _ _).trans ?_ <;> try intro _ _) | dsimp only | split); done)

@[simp] theorem lightSlots_time (d : Dev) : (Dev.lightSlots d).time = d.time := by
  first
  | (unfold Dev.lightSlots; simp only [request_time]; done)
  | (unfold Dev.lightSlots; with_reducible rfl)
  | (unfold Dev.lightSlots; simp; done)
  | (unfold Dev.lightSlots; (repeat' first | with_reducible rfl | (simp; done) | split); done)
  | (unfold Dev.lightSlots; try dsimp only
     (repeat' first | with_reducible rfl | (simp; done) | (with_reducible refine (foldl_time _ ?_ _ _).trans ?_ <;> try intro _ _) | dsimp only | split); done)

@[simp] theorem lightSlots_eng (d : Dev) : (Dev.lightSlots d).eng = d.eng := by
  first
  | (unfold Dev.lightSlots; simp only [request_eng]; done)
  | (unfold Dev.lightSlots; with_reducible rfl)
  | (unfold Dev.lightSlots; simp; done)
  | (unfold Dev.lightSlots; (repeat' first | with_reducible rfl | (simp; done) | split); done)
  | (unfold Dev.lightSlots; try dsimp only
     (repeat' first | with_reducible rfl | (simp; done) | (with_reducible refine (foldl_eng _ ?_ _ _).trans ?_ <;> try intro _ _) | dsimp only | split); done)

@[simp] theorem lightSlots_rings (d : Dev) : (Dev.lightSlots d).rings = d.rings := by
  first
  | (unfold Dev.lightSlots; simp only [request_rings]; done)
  | (unfold Dev.lightSlots; with_reducible rfl)
  | (unfold Dev.lightSlots; simp; done)
  | (unfold Dev.lightSlots; (repeat' first | with_reducible rfl | (simp; done) | split); done)
  | (unfold Dev.lightSlots; try dsimp only
     (repeat' first | with_reducible rfl | (simp; done) | (with_reducible refine (foldl_rings _ ?_ _ _).trans ?_ <;> try intro _ _) | dsimp only | split); done)

@[simp] theorem lightSlots_arr (d : Dev) : (Dev.lightSlots d).arr = d.arr := by
  first
  | (unfold Dev.lightSlots; simp only [request_arr]; done)
  | (unfold Dev.lightSlots; with_reducible rfl)
  | (unfold Dev.lightSlots; simp; done)
  | (unfold Dev.lightSlots; (repeat' first | with_reducible rfl | (simp; done) | split); done)
  | (unfold Dev.lightSlots; try dsimp only
     (repeat' first | with_reducible rfl | (simp; done) | (with_reducible refine (foldl_arr _ ?_ _ _).trans ?_ <;> try intro _ _) | dsimp only | split); done)

@[simp] theorem lightSlots_disc (d : Dev) : (Dev.lightSlots d).disc = d.disc := by
  first
  | (unfold Dev.lightSlots; simp only [request_disc]; done)
  | (unfold Dev.lightSlots; with_reducible rfl)
  | (unfold Dev.lightSlots; simp; done)
  | (unfold Dev.lightSlots; (repeat' first | with_reducible rfl | (simp; done) | split); done)
  | (unfold Dev.lightSlots; try dsimp only
     (repeat' first | with_reducible rfl | (simp; done) | (with_reducible refine (foldl_disc _ ?_ _ _).trans ?_ <;> try intro _ _) | dsimp only | split); done)

@[simp] theorem lightSlots_coll (d : Dev) : (Dev.lightSlots d).coll = d.coll := by
  first
  | (unfold Dev.lightSlots; simp only [request_coll]; done)
  | (unfold Dev.lightSlots; with_reducible rfl)
  | (unfold Dev.lightSlots; simp; done)
  | (unfold Dev.lightSlots; (repeat' first | with_reducible rfl | (simp; done) | split); done)
  | (unfold Dev.lightSlots; try dsimp only
     (repeat' first | with_reducible rfl | (simp; done) | (with_reducible refine (foldl_coll _ ?_ _ _).trans ?_ <;> try intro _ _) | dsimp only | split); done)

@[simp] theorem lightSlots_mem (d : Dev) : (Dev.lightSlots d).mem = d.mem := by
  first
  | (unfold Dev.lightSlots; simp only [request_mem]; done)
  | (unfold Dev.lightSlots; with_reducible rfl)
  | (unfold Dev.lightSlots; simp; done)
  | (unfold Dev.lightSlots; (repeat' first | with_reducible rfl | (simp; done) | split); done)
  | (unfold Dev.lightSlots; try dsimp only
     (repeat' first | with_reducible rfl | (simp; done) | (with_reducible refine (foldl_mem _ ?_ _ _).trans ?_ <;> try intro _ _) | dsimp only | split); done)

@[simp] theorem lightSlots_faults (d : Dev) : (Dev.lightSlots d).faults = d.faults := by
  first
  | (unfold Dev.lightSlots; simp only [request_faults]; done)
  | (unfold Dev.lightSlots; with_reducible rfl)
  | (unfold Dev.lightSlots; simp; done)
  | (unfold Dev.lightSlots; (repeat' first | with_reducible rfl | (simp; done) | split); done)
  | (unfold Dev.lightSlots; try dsimp only
     (repeat' first | with_reducible rfl | (simp; done) | (with_reducible refine (foldl_faults _ ?_ _ _).trans ?_ <;> try intro _ _) | dsimp only | split); done)

@[simp] theorem lightSlots_twin (d : Dev) : (Dev.lightSlots d).twin = d.twin := by
  first
  | (unfold Dev.lightSlots; simp only [request_twin]; done)
  | (unfold Dev.lightSlots; with_reducible rfl)
  | (unfold Dev.lightSlots; simp; done)
  | (unfold Dev.lightSlots; (repeat' first | with_reducible rfl | (simp; done) | split); done)
  | (unfold Dev.lightSlots; try dsimp only
     (repeat' first | with_reducible rfl | (simp; done) | (with_reducible refine (foldl_twin _ ?_ _ _).trans ?_ <;> try intro _ _) | dsimp only | split); done)

@[simp] theorem lightSlots_upd (d : Dev) : (Dev.lightSlots d).upd = d.upd := by
  first
  | (unfold Dev.lightSlots; simp only [request_upd]; done)
  | (unfold Dev.lightSlots; with_reducible rfl)
  | (unfold Dev.lightSlots; simp; done)
  | (unfold Dev.lightSlots; (repeat' first | with_reducible rfl | (simp; done) | split); done)
  | (unfold Dev.lightSlots; try dsimp only
     (repeat' first | with_reducible rfl | (simp; done) | (with_reducible refine (foldl_upd _ ?_ _ _).trans ?_ <;> try intro _ _) | dsimp only | split); done)

@[simp] theorem lightSlots_recr (d : Dev) : (Dev.lightSlots d).recr = d.recr := by
  first
  | (unfold Dev.lightSlots; simp only [request_recr]; done)
  | (unfold Dev.lightSlots; with_reducible rfl)
  | (unfold Dev.lightSlots; simp; done)
  | (unfold Dev.lightSlots; (repeat' first | with_reducible rfl | (simp; done) | split); done)
  | (unfold Dev.lightSlots; try dsimp only
     (repeat' first | with_reducible rfl | (simp; done) | (with_reducible refine (foldl_recr _ ?_ _ _).trans ?_ <;> try intro _ _) | dsimp only | split); done)

@[simp] theorem lightSlots_ob (d : Dev) : (Dev.lightSlots d).ob = d.ob := by
  first
  | (unfold Dev.lightSlots; simp only [request_ob]; done)
  | (unfold Dev.lightSlots; with_reducible rfl)
  | (unfold Dev.lightSlots; simp; done)
  | (unfold Dev.lightSlots; (repeat' first | with_reducible rfl | (simp; done) | split); done)
  | (unfold Dev.lightSlots; try dsimp only
     (repeat' first | with_reducible rfl | (simp; done) | (with_reducible refine (foldl_ob _ ?_ _ _).trans ?_ <;> try intro _ _) | dsimp only | split); done)

@[simp] theorem lightSlots_fresh (d : Dev) : (Dev.lightSlots d).fresh = d.fresh := by
  first
  | (unfold Dev.lightSlots; simp only [request_fresh]; done)
  | (unfold Dev.lightSlots; with_reducible rfl)
  | (unfold Dev.lightSlots; simp; done)
  | (unfold Dev.lightSlots; (repeat' first | with_reducible rfl | (simp; done) | split); done)
  | (unfold Dev.lightSlots; try dsimp only
     (repeat' first | with_reducible rfl | (simp; done) | (with_reducible refine (foldl_fresh _ ?_ _ _).trans ?_ <;> try intro _ _) | dsimp only | split); done)

@[simp] theorem modComet_net (d : Dev) (c : Comet) (f : Comet → Comet) : (Dev.modComet d c f).net = d.net := by
  first
  | (unfold Dev.modComet; with_reducible rfl)
  | (unfold Dev.modComet; simp; done)
  | (unfold Dev.modComet; (repeat' first | with_reducible rfl | (simp; done) | split); done)
  | (unfold Dev.modComet; try dsimp only
     (repeat' first | with_reducible rfl | (simp; done) | (with_reducible refine (foldl_net _ ?_ _ _).trans ?_ <;> try intro _ _) | dsimp only | split); done)

@[simp] theorem modComet_jobs (d : Dev) (c : Comet) (f : Comet → Comet) : (Dev.modComet d c f).jobs = d.jobs := by
  first
  | (unfold Dev.modComet; with_reducible rfl)
  | (unfold Dev.modComet; simp; done)
  | (unfold Dev.modComet; (repeat' first | with_reducible rfl | (simp; done) | split); done)
  | (unfold Dev.modComet; try dsimp only
     (repeat' first | with_reducible rfl | (simp; done) | (with_reducible refine (foldl_jobs _ ?_ _ _).trans ?_ <;> try intro _ _) | dsimp only | split); done)

@[simp] theorem podSend_net (d : Dev) (q type : Nat) (payload : Bytes) : (Dev.podSend d q type payload).net = d.net := by
  first
  | (unfold Dev.podSend; with_reducible rfl)
  | (unfold Dev.podSend; simp; done)
  | (unfold Dev.podSend; (repeat' first | with_reducible rfl | (simp; done) | split); done)
  | (unfold Dev.podSend; try dsimp only
     (repeat' first | with_reducible rfl | (simp; done) | (with_reducible refine (foldl_net _ ?_ _ _).trans ?_ <;> try intro _ _) | dsimp only | split); done)

@[simp] theorem sendMonitor_net (d : Dev) (q : Nat) : (Dev.sendMonitor d q).net = d.net := by
  first
  | (unfold Dev.sendMonitor; simp only [emit_net]; done)
  | (unfold Dev.sendMonitor; with_reducible rfl)
  | (unfold Dev.sendMonitor; simp; done)
  | (unfold Dev.sendMonitor; (repeat' first | with_reducible rfl | (simp; done) | split); done)
  | (unfold Dev.sendMonitor; try dsimp only
     (repeat' first | with_reducible rfl | (simp; done) | (with_reducible refine (foldl_net _ ?_ _ _).trans ?_ <;> try intro _ _) | dsimp only | split); done)

@[simp] theorem podSend_jobs (d : Dev) (q type : Nat) (payload : Bytes) : (Dev.podSend d q type payload).jobs = d.jobs := by
  first
  | (unfold Dev.podSend; with_reducible rfl)
  | (unfold Dev.podSend; simp; done)
  | (unfold Dev.podSend; (repeat' first | with_reducible rfl | (simp; done) | split); done)
  | (unfold Dev.podSend; try dsimp only
     (repeat' first | with_reducible rfl | (simp; done) | (with_reducible refine (foldl_jobs _ ?_ _ _).trans ?_ <;> try intro _ _) | dsimp only | split); done)

@[simp] theorem sendMonitor_jobs (d : Dev) (q : Nat) : (Dev.sendMonitor d q).jobs = d.jobs := by
  first
  | (unfold Dev.sendMonitor; simp only [emit_jobs]; done)
  | (unfold Dev.sendMonitor; with_reducible rfl)
  | (unfold Dev.sendMonitor; simp; done)
  | (unfold Dev.sendMonitor; (repeat' first | with_reducible rfl | (simp; done) | split); done)
  | (unfold Dev.sendMonitor; try dsimp only
     (repeat' first | with_reducible rfl | (simp; done) | (with_reducible refine (foldl_jobs _ ?_ _ _).trans ?_ <;> try intro _ _) | dsimp only | split); done)

@[simp] theorem sendMonitors_net (d : Dev) (ports : List Nat) : (Dev.sendMonitors d ports).net = d.net := by
  first
  | (unfold Dev.sendMonitors; simp only [sendMonitor_net]; done)
  | (unfold Dev.sendMonitors; with_reducible rfl)
  | (unfold Dev.sendMonitors; simp; done)
  | (unfold Dev.sendMonitors; (repeat' first | with_reducible rfl | (simp; done) | split); done)
  | (unfold Dev.sendMonitors; try dsimp only
     (repeat' first | with_reducible rfl | (simp; done) | (with_reducible refine (foldl_net _ ?_ _ _).trans ?_ <;> try intro _ _) | dsimp only | split); done)

@[simp] theorem sendMonitors_jobs (d : Dev) (ports : List Nat) : (Dev.sendMonitors d ports).jobs = d.jobs := by
  first
  | (unfold Dev.sendMonitors; simp only [sendMonitor_jobs]; done)
  | (unfold Dev.sendMonitors; with_reducible rfl)
  | (unfold Dev.sendMonitors; simp; done)
  | (unfold Dev.sendMonitors; (repeat' first | with_reducible rfl | (simp; done) | split); done)
  | (unfold Dev.sendMonitors; try dsimp only
     (repeat' first | with_reducible rfl | (simp; done) | (with_reducible refine (foldl_jobs _ ?_ _ _).trans ?_ <;> try intro _ _) | dsimp only | split); done)

@[simp] theorem slewDone_net (d : Dev) (j entry : Nat) : (Dev.slewDone d j entry).net = d.net := by
  first
  | (unfold Dev.slewDone; simp only [release_net]; done)
  | (unfold Dev.slewDone; with_reducible rfl)
  | (unfold Dev.slewDone; simp; done)
  | (unfold Dev.slewDone; (repeat' first | with_reducible rfl | (simp; done) | split); done)
  | (unfold Dev.slewDone; try dsimp only
     (repeat' first | with_reducible rfl | (simp; done) | (with_reducible refine (foldl_net _ ?_ _ _).trans ?_ <;> try intro _ _) | dsimp only | split); done)

@[simp] theorem slewDone_jobs (d : Dev) (j entry : Nat) : (Dev.slewDone d j entry).jobs = d.jobs := by
  first
  | (unfold Dev.slewDone; simp only [release_jobs]; done)
  | (unfold Dev.slewDone; with_reducible rfl)
  | (unfold Dev.slewDone; simp; done)
  | (unfold Dev.slewDone; (repeat' first | with_reducible rfl | (simp; done) | split); done)
  | (unfold Dev.slewDone; try dsimp only
     (repeat' first | with_reducible rfl | (simp; done) | (with_reducible refine (foldl_jobs _ ?_ _ _).trans ?_ <;> try intro _ _) | dsimp only | split); done)

@[simp] theorem endCircuits_net (d : Dev) (sel : Circuit → Bool) : (Dev.endCircuits d sel).net = d.net := by
  first
  | (unfold Dev.endCircuits; with_reducible rfl)
  | (unfold Dev.endCircuits; simp; done)
  | (unfold Dev.endCircuits; (repeat' first | with_reducible rfl | (simp; done) | split); done)
  | (unfold Dev.endCircuits; try dsimp only
     (repeat' first | with_reducible rfl | (simp; done) | (with_reducible refine (foldl_net _ ?_ _ _).trans ?_ <;> try intro _ _) | dsimp only | split); done)

@[simp] theorem endCircuits_jobs (d : Dev) (sel : Circuit → Bool) : (Dev.endCircuits d sel).jobs = d.jobs := by
  first
  | (unfold Dev.endCircuits; with_reducible rfl)
  | (unfold Dev.endCircuits; simp; done)
  | (unfold Dev.endCircuits; (repeat' first | with_reducible rfl | (simp; done) | split); done)
  | (unfold Dev.endCircuits; try dsimp only
     (repeat' first | with_reducible rfl | (simp; done) | (with_reducible refine (foldl_jobs _ ?_ _ _).trans ?_ <;> try intro _ _) | dsimp only | split); done)

@[simp] theorem dropComet_net (d : Dev) (c : Comet) : (Dev.dropComet d c).net = d.net := by
  first
  | (unfold Dev.dropComet; simp only [endCircuits_net]; done)
  | (unfold Dev.dropComet; with_reducible rfl)
  | (unfold Dev.dropComet; simp; done)
  | (unfold Dev.dropComet; (repeat' first | with_reducible rfl | (simp; done) | split); done)
  | (unfold Dev.dropComet; try dsimp only
     (repeat' first | with_reducible rfl | (simp; done) | (with_reducible refine (foldl_net _ ?_ _ _).trans ?_ <;> try intro _ _) | dsimp only | split); done)

@[simp] theorem dropComet_jobs (d : Dev) (c : Comet) : (Dev.dropComet d c).jobs = d.jobs := by
  first
  | (unfold Dev.dropComet; simp only [endCircuits_jobs]; done)
  | (unfold Dev.dropComet; with_reducible rfl)
  | (unfold Dev.dropComet; simp; done)
  | (unfold Dev.dropComet; (repeat' first | with_reducible rfl | (simp; done) | split); done)
  | (unfold Dev.dropComet; try dsimp only
     (repeat' first | with_reducible rfl | (simp; done) | (with_reducible refine (foldl_jobs _ ?_ _ _).trans ?_ <;> try intro _ _) | dsimp only | split); done)

@[simp] theorem setAxis_module (d : Dev) (a : Nat) (x : AState) : (Dev.setAxis d a x).module = d.module := by
  first
  | (unfold Dev.setAxis; simp only [modAxis_module]; done)
  | (unfold Dev.setAxis; with_reducible rfl)
  | (unfold Dev.setAxis; simp; done)
  | (unfold Dev.setAxis; (repeat' first | with_reducible rfl | (simp; done) | split); done)
  | (unfold Dev.setAxis; try dsimp only
     (repeat' first | with_reducible rfl | (simp; done) | (with_reducible refine (foldl_module _ ?_ _ _).trans ?_ <;> try intro _ _) | dsimp only | split); done)

@[simp] theorem setAxis_net (d : Dev) (a : Nat) (x : AState) : (Dev.setAxis d a x).net = d.net := by
  first
  | (unfold Dev.setAxis; simp only [modAxis_net]; done)
  | (unfold Dev.setAxis; with_reducible rfl)
  | (unfold Dev.setAxis; simp; done)
  | (unfold Dev.setAxis; (repeat' first | with_reducible rfl | (simp; done) | split); done)
  | (unfold Dev.setAxis; try dsimp only
     (repeat' first | with_reducible rfl | (simp; done) | (with_reducible refine (foldl_net _ ?_ _ _).trans ?_ <;> try intro _ _) | dsimp only | split); done)

@[simp] theorem setAxis_dir (d : Dev) (a : Nat) (x : AState) : (Dev.setAxis d a x).dir = d.dir := by
  first
  | (unfold Dev.setAxis; simp only [modAxis_dir]; done)
  | (unfold Dev.setAxis; with_reducible rfl)
  | (unfold Dev.setAxis; simp; done)
  | (unfold Dev.setAxis; (repeat' first | with_reducible rfl | (simp; done) | split); done)
  | (unfold Dev.setAxis; try dsimp only
     (repeat' first | with_reducible rfl | (simp; done) | (with_reducible refine (foldl_dir _ ?_ _ _).trans ?_ <;> try intro _ _) | dsimp only | split); done)

@[simp] theorem setAxis_jobs (d : Dev) (a : Nat) (x : AState) : (Dev.setAxis d a x).jobs = d.jobs := by
  first
  | (unfold Dev.setAxis; simp only [modAxis_jobs]; done)
  | (unfold Dev.setAxis; with_reducible rfl)
  | (unfold Dev.setAxis; simp; done)
  | (unfold Dev.setAxis; (repeat' first | with_reducible rfl | (simp; done) | split); done)
  | (unfold Dev.setAxis; try dsimp only
     (repeat' first | with_reducible rfl | (simp; done) | (with_reducible refine (foldl_jobs _ ?_ _ _).trans ?_ <;> try intro _ _) | dsimp only | split); done)

@[simp] theorem setAxis_circuits (d : Dev) (a : Nat) (x : AState) : (Dev.setAxis d a x).circuits = d.circuits := by
  first
  | (unfold Dev.setAxis; simp only [modAxis_circuits]; done)
  | (unfold Dev.setAxis; with_reducible rfl)
  | (unfold Dev.setAxis; simp; done)
  | (unfold Dev.setAxis; (repeat' first | with_reducible rfl | (simp; done) | split); done)
  | (unfold Dev.setAxis; try dsimp only
     (repeat' first | with_reducible rfl | (simp; done) | (with_reducible refine (foldl_circuits _ ?_ _ _).trans ?_ <;> try intro _ _) | dsimp only | split); done)

@[simp] theorem setAxis_runs (d : Dev) (a : Nat) (x : AState) : (Dev.setAxis d a x).runs = d.runs := by
  first
  | (unfold Dev.setAxis; simp only [modAxis_runs]; done)
  | (unfold Dev.setAxis; with_reducible rfl)
  | (unfold Dev.setAxis; simp; done)
  | (unfold Dev.setAxis; (repeat' first | with_reducible rfl | (simp; done) | split); done)
  | (unfold Dev.setAxis; try dsimp only
     (repeat' first | with_reducible rfl | (simp; done) | (with_reducible refine (foldl_runs _ ?_ _ _).trans ?_ <;> try intro _ _) | dsimp only | split); done)

@[simp] theorem setAxis_time (d : Dev) (a : Nat) (x : AState) : (Dev.setAxis d a x).time = d.time := by
  first
  | (unfold Dev.setAxis; simp only [modAxis_time]; done)
  | (unfold Dev.setAxis; with_reducible rfl)
  | (unfold Dev.setAxis; simp; done)
  | (unfold Dev.setAxis; (repeat' first | with_reducible rfl | (simp; done) | split); done)
  | (unfold Dev.setAxis; try dsimp only
     (repeat' first | with_reducible rfl | (simp; done) | (with_reducible refine (foldl_time _ ?_ _ _).trans ?_ <;> try intro _ _) | dsimp only | split); done)

@[simp] theorem setAxis_rings (d : Dev) (a : Nat) (x : AState) : (Dev.setAxis d a x).rings = d.rings := by
  first
  | (unfold Dev.setAxis; simp only [modAxis_rings]; done)
  | (unfold Dev.setAxis; with_reducible rfl)
  | (unfold Dev.setAxis; simp; done)
  | (unfold Dev.setAxis; (repeat' first | with_reducible rfl | (simp; done) | split); done)
  | (unfold Dev.setAxis; try dsimp only
     (repeat' first | with_reducible rfl | (simp; done) | (with_reducible refine (foldl_rings _ ?_ _ _).trans ?_ <;> try intro _ _) | dsimp only | split); done)

@[simp] theorem setAxis_arr (d : Dev) (a : Nat) (x : AState) : (Dev.setAxis d a x).arr = d.arr := by
  first
  | (unfold Dev.setAxis; simp only [modAxis_arr]; done)
  | (unfold Dev.setAxis; with_reducible rfl)
  | (unfold Dev.setAxis; simp; done)
  | (unfold Dev.setAxis; (repeat' first | with_reducible rfl | (simp; done) | split); done)
  | (unfold Dev.setAxis; try dsimp only
     (repeat' first | with_reducible rfl | (simp; done) | (with_reducible refine (foldl_arr _ ?_ _ _).trans ?_ <;> try intro _ _) | dsimp only | split); done)

@[simp] theorem setAxis_opt (d : Dev) (a : Nat) (x : AState) : (Dev.setAxis d a x).opt = d.opt := by
  first
  | (unfold Dev.setAxis; simp only [modAxis_opt]; done)
  | (unfold Dev.setAxis; with_reducible rfl)
  | (unfold Dev.setAxis; simp; done)
  | (unfold Dev.setAxis; (repeat' first | with_reducible rfl | (simp; done) | split); done)
  | (unfold Dev.setAxis; try dsimp only
     (repeat' first | with_reducible rfl | (simp; done) | (with_reducible refine (foldl_opt _ ?_ _ _).trans ?_ <;> try intro _ _) | dsimp only | split); done)

@[simp] theorem setAxis_disc (d : Dev) (a : Nat) (x : AState) : (Dev.setAxis d a x).disc = d.disc := by
  first
  | (unfold Dev.setAxis; simp only [modAxis_disc]; done)
  | (unfold Dev.setAxis; with_reducible rfl)
  | (unfold Dev.setAxis; simp; done)
  | (unfold Dev.setAxis; (repeat' first | with_reducible rfl | (simp; done) | split); done)
  | (unfold Dev.setAxis; try dsimp only
     (repeat' first | with_reducible rfl | (simp; done) | (with_reducible refine (foldl_disc _ ?_ _ _).trans ?_ <;> try intro _ _) | dsimp only | split); done)

@[simp] theorem setAxis_coll (d : Dev) (a : Nat) (x : AState) : (Dev.setAxis d a x).coll = d.coll := by
  first
  | (unfold Dev.setAxis; simp only [modAxis_coll]; done)
  | (unfold Dev.setAxis; with_reducible rfl)
  | (unfold Dev.setAxis; simp; done)
  | (unfold Dev.setAxis; (repeat' first | with_reducible rfl | (simp; done) | split); done)
  | (unfold Dev.setAxis; try dsimp only
     (repeat' first | with_reducible rfl | (simp; done) | (with_reducible refine (foldl_coll _ ?_ _ _).trans ?_ <;> try intro _ _) | dsimp only | split); done)

@[simp] theorem setAxis_mem (d : Dev) (a : Nat) (x : AState) : (Dev.setAxis d a x).mem = d.mem := by
  first
  | (unfold Dev.setAxis; simp only [modAxis_mem]; done)
  | (unfold Dev.setAxis; with_reducible rfl)
  | (unfold Dev.setAxis; simp; done)
  | (unfold Dev.setAxis; (repeat' first | with_reducible rfl | (simp; done) | split); done)
  | (unfold Dev.setAxis; try dsimp only
     (repeat' first | with_reducible rfl | (simp; done) | (with_reducible refine (foldl_mem _ ?_ _ _).trans ?_ <;> try intro _ _) | dsimp only | split); done)

@[simp] theorem setAxis_faults (d : Dev) (a : Nat) (x : AState) : (Dev.setAxis d a x).faults = d.faults := by
  first
  | (unfold Dev.setAxis; simp only [modAxis_faults]; done)
  | (unfold Dev.setAxis; with_reducible rfl)
  | (unfold Dev.setAxis; simp; done)
  | (unfold Dev.setAxis; (repeat' first | with_reducible rfl | (simp; done) | split); done)
  | (unfold Dev.setAxis; try dsimp only
     (repeat' first | with_reducible rfl | (simp; done) | (with_reducible refine (foldl_faults _ ?_ _ _).trans ?_ <;> try intro _ _) | dsimp only | split); done)

@[simp] theorem setAxis_twin (d : Dev) (a : Nat) (x : AState) : (Dev.setAxis d a x).twin = d.twin := by
  first
  | (unfold Dev.setAxis; simp only [modAxis_twin]; done)
  | (unfold Dev.setAxis; with_reducible rfl)
  | (unfold Dev.setAxis; simp; done)
  | (unfold Dev.setAxis; (repeat' first | with_reducible rfl | (simp; done) | split); done)
  | (unfold Dev.setAxis; try dsimp only
     (repeat' first | with_reducible rfl | (simp; done) | (with_reducible refine (foldl_twin _ ?_ _ _).trans ?_ <;> try intro _ _) | dsimp only | split); done)

@[simp] theorem setAxis_power (d : Dev) (a : Nat) (x : AState) : (Dev.setAxis d a x).power = d.power := by
  first
  | (unfold Dev.setAxis; simp only [modAxis_power]; done)
  | (unfold Dev.setAxis; with_reducible rfl)
  | (unfold Dev.setAxis; simp; done)
  | (unfold Dev.setAxis; (repeat' first | with_reducible rfl | (simp; done) | split); done)
  | (unfold Dev.setAxis; try dsimp only
     (repeat' first | with_reducible rfl | (simp; done) | (with_reducible refine (foldl_power _ ?_ _ _).trans ?_ <;> try intro _ _) | dsimp only | split); done)

@[simp] theorem setAxis_upd (d : Dev) (a : Nat) (x : AState) : (Dev.setAxis d a x).upd = d.upd := by
  first
  | (unfold Dev.setAxis; simp only [modAxis_upd]; done)
  | (unfold Dev.setAxis; with_reducible rfl)
  | (unfold Dev.setAxis; simp; done)
  | (unfold Dev.setAxis; (repeat' first | with_reducible rfl | (simp; done) | split); done)
  | (unfold Dev.setAxis; try dsimp only
     (repeat' first | with_reducible rfl | (simp; done) | (with_reducible refine (foldl_upd _ ?_ _ _).trans ?_ <;> try intro _ _) | dsimp only | split); done)

@[simp] theorem setAxis_recr (d : Dev) (a : Nat) (x : AState) : (Dev.setAxis d a x).recr = d.recr := by
  first
  | (unfold Dev.setAxis; simp only [modAxis_recr]; done)
  | (unfold Dev.setAxis; with_reducible rfl)
  | (unfold Dev.setAxis; simp; done)
  | (unfold Dev.setAxis; (repeat' first | with_reducible rfl | (simp; done) | split); done)
  | (unfold Dev.setAxis; try dsimp only
     (repeat' first | with_reducible rfl | (simp; done) | (with_reducible refine (foldl_recr _ ?_ _ _).trans ?_ <;> try intro _ _) | dsimp only | split); done)

@[simp] theorem setAxis_od (d : Dev) (a : Nat) (x : AState) : (Dev.setAxis d a x).od = d.od := by
  first
  | (unfold Dev.setAxis; simp only [modAxis_od]; done)
  | (unfold Dev.setAxis; with_reducible rfl)
  | (unfold Dev.setAxis; simp; done)
  | (unfold Dev.setAxis; (repeat' first | with_reducible rfl | (simp; done) | split); done)
  | (unfold Dev.setAxis; try dsimp only
     (repeat' first | with_reducible rfl | (simp; done) | (with_reducible refine (foldl_od _ ?_ _ _).trans ?_ <;> try intro _ _) | dsimp only | split); done)

@[simp] theorem setAxis_ob (d : Dev) (a : Nat) (x : AState) : (Dev.setAxis d a x).ob = d.ob := by
  first
  | (unfold Dev.setAxis; simp only [modAxis_ob]; done)
  | (unfold Dev.setAxis; with_reducible rfl)
  | (unfold Dev.setAxis; simp; done)
  | (unfold Dev.setAxis; (repeat' first | with_reducible rfl | (simp; done) | split); done)
  | (unfold Dev.setAxis; try dsimp only
     (repeat' first | with_reducible rfl | (simp; done) | (with_reducible refine (foldl_ob _ ?_ _ _).trans ?_ <;> try intro _ _) | dsimp only | split); done)

@[simp] theorem setAxis_out (d : Dev) (a : Nat) (x : AState) : (Dev.setAxis d a x).out = d.out := by
  first
  | (unfold Dev.setAxis; simp only [modAxis_out]; done)
  | (unfold Dev.setAxis; with_reducible rfl)
  | (unfold Dev.setAxis; simp; done)
  | (unfold Dev.setAxis; (repeat' first | with_reducible rfl | (simp; done) | split); done)
  | (unfold Dev.setAxis; try dsimp only
     (repeat' first | with_reducible rfl | (simp; done) | (with_reducible refine (foldl_out _ ?_ _ _).trans ?_ <;> try intro _ _) | dsimp only | split); done)

@[simp] theorem setAxis_fresh (d : Dev) (a : Nat) (x : AState) : (Dev.setAxis d a x).fresh = d.fresh := by
  first
  | (unfold Dev.setAxis; simp only [modAxis_fresh]; done)
  | (unfold Dev.setAxis; with_reducible rfl)
  | (unfold Dev.setAxis; simp; done)
  | (unfold Dev.setAxis; (repeat' first | with_reducible rfl | (simp; done) | split); done)
  | (unfold Dev.setAxis; try dsimp only
     (repeat' first | with_reducible rfl | (simp; done) | (with_reducible refine (foldl_fresh _ ?_ _ _).trans ?_ <;> try intro _ _) | dsimp only | split); done)

@[simp] theorem freeze_net (d : Dev) (cut : Bool) : (Dev.freeze d cut).net = d.net := by
  first
  | (unfold Dev.freeze; with_reducible rfl)
  | (unfold Dev.freeze; simp; done)
  | (unfold Dev.freeze; (repeat' first | with_reducible rfl | (simp; done) | split); done)
  | (unfold Dev.freeze; try dsimp only
     (repeat' first | with_reducible rfl | (simp; done) | (with_reducible refine (foldl_net _ ?_ _ _).trans ?_ <;> try intro _ _) | dsimp only | split); done)

@[simp] theorem toHold_net (d : Dev) (a : Nat) : (Dev.toHold d a).net = d.net := by
  first
  | (unfold Dev.toHold; simp only [setAxis_net, modAxis_net]; done)
  | (unfold Dev.toHold; with_reducible rfl)
  | (unfold Dev.toHold; simp; done)
  | (unfold Dev.toHold; (repeat' first | with_reducible rfl | (simp; done) | split); done)
  | (unfold Dev.toHold; try dsimp only
     (repeat' first | with_reducible rfl | (simp; done) | (with_reducible refine (foldl_net _ ?_ _ _).trans ?_ <;> try intro _ _) | dsimp only | split); done)

@[simp] theorem toHold_jobs (d : Dev) (a : Nat) : (Dev.toHold d a).jobs = d.jobs := by
  first
  | (unfold Dev.toHold; simp only [setAxis_jobs, modAxis_jobs]; done)
  | (unfold Dev.toHold; with_reducible rfl)
  | (unfold Dev.toHold; simp; done)
  | (unfold Dev.toHold; (repeat' first | with_reducible rfl | (simp; done) | split); done)
  | (unfold Dev.toHold; try dsimp only
     (repeat' first | with_reducible rfl | (simp; done) | (with_reducible refine (foldl_jobs _ ?_ _ _).trans ?_ <;> try intro _ _) | dsimp only | split); done)

@[simp] theorem stopAxis_net (d : Dev) (a : Nat) : (Dev.stopAxis d a).net = d.net := by
  first
  | (unfold Dev.stopAxis; simp only [modAxis_net, toHold_net]; done)
  | (unfold Dev.stopAxis; with_reducible rfl)
  | (unfold Dev.stopAxis; simp; done)
  | (unfold Dev.stopAxis; (repeat' first | with_reducible rfl | (simp; done) | split); done)
  | (unfold Dev.stopAxis; try dsimp only
     (repeat' first | with_reducible rfl | (simp; done) | (with_reducible refine (foldl_net _ ?_ _ _).trans ?_ <;> try intro _ _) | dsimp only | split); done)

@[simp] theorem stopAxis_jobs (d : Dev) (a : Nat) : (Dev.stopAxis d a).jobs = d.jobs := by
  first
  | (unfold Dev.stopAxis; simp only [modAxis_jobs, toHold_jobs]; done)
  | (unfold Dev.stopAxis; with_reducible rfl)
  | (unfold Dev.stopAxis; simp; done)
  | (unfold Dev.stopAxis; (repeat' first | with_reducible rfl | (simp; done) | split); done)
  | (unfold Dev.stopAxis; try dsimp only
     (repeat' first | with_reducible rfl | (simp; done) | (with_reducible refine (foldl_jobs _ ?_ _ _).trans ?_ <;> try intro _ _) | dsimp only | split); done)

@[simp] theorem endSearch_net (d : Dev) (h : Nat) : (Dev.endSearch d h).net = d.net := by
  first
  | (unfold Dev.endSearch; simp only [modHead_net]; done)
  | (unfold Dev.endSearch; with_reducible rfl)
  | (unfold Dev.endSearch; simp; done)
  | (unfold Dev.endSearch; (repeat' first | with_reducible rfl | (simp; done) | split); done)
  | (unfold Dev.endSearch; try dsimp only
     (repeat' first | with_reducible rfl | (simp; done) | (with_reducible refine (foldl_net _ ?_ _ _).trans ?_ <;> try intro _ _) | dsimp only | split); done)

@[simp] theorem endSearch_jobs (d : Dev) (h : Nat) : (Dev.endSearch d h).jobs = d.jobs := by
  first
  | (unfold Dev.endSearch; simp only [modHead_jobs]; done)
  | (unfold Dev.endSearch; with_reducible rfl)
  | (unfold Dev.endSearch; simp; done)
  | (unfold Dev.endSearch; (repeat' first | with_reducible rfl | (simp; done) | split); done)
  | (unfold Dev.endSearch; try dsimp only
     (repeat' first | with_reducible rfl | (simp; done) | (with_reducible refine (foldl_jobs _ ?_ _ _).trans ?_ <;> try intro _ _) | dsimp only | split); done)

@[simp] theorem gateDark_net (d : Dev) (h : Nat) : (Dev.gateDark d h).net = d.net := by
  first
  | (unfold Dev.gateDark; with_reducible rfl)
  | (unfold Dev.gateDark; simp; done)
  | (unfold Dev.gateDark; (repeat' first | with_reducible rfl | (simp; done) | split); done)
  | (unfold Dev.gateDark; try dsimp only
     (repeat' first | with_reducible rfl | (simp; done) | (with_reducible refine (foldl_net _ ?_ _ _).trans ?_ <;> try intro _ _) | dsimp only | split); done)

@[simp] theorem gateClose_net (d : Dev) (h : Nat) : (Dev.gateClose d h).net = d.net := by
  first
  | (unfold Dev.gateClose; simp only [emit_net, modHead_net]; done)
  | (unfold Dev.gateClose; with_reducible rfl)
  | (unfold Dev.gateClose; simp; done)
  | (unfold Dev.gateClose; (repeat' first | with_reducible rfl | (simp; done) | split); done)
  | (unfold Dev.gateClose; try dsimp only
     (repeat' first | with_reducible rfl | (simp; done) | (with_reducible refine (foldl_net _ ?_ _ _).trans ?_ <;> try intro _ _) | dsimp only | split); done)

@[simp] theorem gateDark_jobs (d : Dev) (h : Nat) : (Dev.gateDark d h).jobs = d.jobs := by
  first
  | (unfold Dev.gateDark; with_reducible rfl)
  | (unfold Dev.gateDark; simp; done)
  | (unfold Dev.gateDark; (repeat' first | with_reducible rfl | (simp; done) | split); done)
  | (unfold Dev.gateDark; try dsimp only
     (repeat' first | with_reducible rfl | (simp; done) | (with_reducible refine (foldl_jobs _ ?_ _ _).trans ?_ <;> try intro _ _) | dsimp only | split); done)

@[simp] theorem gateClose_jobs (d : Dev) (h : Nat) : (Dev.gateClose d h).jobs = d.jobs := by
  first
  | (unfold Dev.gateClose; simp only [emit_jobs, modHead_jobs]; done)
  | (unfold Dev.gateClose; with_reducible rfl)
  | (unfold Dev.gateClose; simp; done)
  | (unfold Dev.gateClose; (repeat' first | with_reducible rfl | (simp; done) | split); done)
  | (unfold Dev.gateClose; try dsimp only
     (repeat' first | with_reducible rfl | (simp; done) | (with_reducible refine (foldl_jobs _ ?_ _ _).trans ?_ <;> try intro _ _) | dsimp only | split); done)

@[simp] theorem stopSearch_net (d : Dev) (h : Nat) : (Dev.stopSearch d h).net = d.net := by
  refine (modHead_net _ _ _).trans (foldl_net _ ?_ _ _)
  intro d a; exact modAxis_net _ _ _

@[simp] theorem stopPair_net (d : Dev) (north south plane : Nat) : (Dev.stopPair d north south plane).net = d.net := by
  first
  | (unfold Dev.stopPair; simp only [stopAxis_net, endSearch_net, gateClose_net]; done)
  | (unfold Dev.stopPair; with_reducible rfl)
  | (unfold Dev.stopPair; simp; done)
  | (unfold Dev.stopPair; (repeat' first | with_reducible rfl | (simp; done) | split); done)
  | (unfold Dev.stopPair; try dsimp only
     (repeat' first | with_reducible rfl | (simp; done) | (with_reducible refine (foldl_net _ ?_ _ _).trans ?_ <;> try intro _ _) | dsimp only | split); done)

@[simp] theorem stopSearch_jobs (d : Dev) (h : Nat) : (Dev.stopSearch d h).jobs = d.jobs := by
  refine (modHead_jobs _ _ _).trans (foldl_jobs _ ?_ _ _)
  intro d a; exact modAxis_jobs _ _ _

@[simp] theorem stopPair_jobs (d : Dev) (north south plane : Nat) : (Dev.stopPair d north south plane).jobs = d.jobs := by
  first
  | (unfold Dev.stopPair; simp only [stopAxis_jobs, endSearch_jobs, gateClose_jobs]; done)
  | (unfold Dev.stopPair; with_reducible rfl)
  | (unfold Dev.stopPair; simp; done)
  | (unfold Dev.stopPair; (repeat' first | with_reducible rfl | (simp; done) | split); done)
  | (unfold Dev.stopPair; try dsimp only
     (repeat' first | with_reducible rfl | (simp; done) | (with_reducible refine (foldl_jobs _ ?_ _ _).trans ?_ <;> try intro _ _) | dsimp only | split); done)

@[simp] theorem abortComet_net (d : Dev) (c : Comet) : (Dev.abortComet d c).net = d.net := by
  first
  | (unfold Dev.abortComet; simp only [modComet_net, sendMonitors_net, slewDone_net, dropComet_net, stopPair_net]; done)
  | (unfold Dev.abortComet; with_reducible rfl)
  | (unfold Dev.abortComet; simp; done)
  | (unfold Dev.abortComet; (repeat' first | with_reducible rfl | (simp; done) | split); done)
  | (unfold Dev.abortComet; try dsimp only
     (repeat' first | with_reducible rfl | (simp; done) | (with_reducible refine (foldl_net _ ?_ _ _).trans ?_ <;> try intro _ _) | dsimp only | split); done)

@[simp] theorem abortComet_jobs (d : Dev) (c : Comet) : (Dev.abortComet d c).jobs = d.jobs := by
  first
  | (unfold Dev.abortComet; simp only [modComet_jobs, sendMonitors_jobs, slewDone_jobs, dropComet_jobs, stopPair_jobs]; done)
  | (unfold Dev.abortComet; with_reducible rfl)
  | (unfold Dev.abortComet; simp; done)
  | (unfold Dev.abortComet; (repeat' first | with_reducible rfl | (simp; done) | split); done)
  | (unfold Dev.abortComet; try dsimp only
     (repeat' first | with_reducible rfl | (simp; done) | (with_reducible refine (foldl_jobs _ ?_ _ _).trans ?_ <;> try intro _ _) | dsimp only | split); done)

@[simp] theorem abortJobComets_net (d : Dev) (j : Nat) : (Dev.abortJobComets d j).net = d.net := by
  first
  | (unfold Dev.abortJobComets; simp only [abortComet_net]; done)
  | (unfold Dev.abortJobComets; with_reducible rfl)
  | (unfold Dev.abortJobComets; simp; done)
  | (unfold Dev.abortJobComets; (repeat' first | with_reducible rfl | (simp; done) | split); done)
  | (unfold Dev.abortJobComets; try dsimp only
     (repeat' first | with_reducible rfl | (simp; done) | (with_reducible refine (foldl_net _ ?_ _ _).trans ?_ <;> try intro _ _) | dsimp only | split); done)

@[simp] theorem abortJobComets_jobs (d : Dev) (j : Nat) : (Dev.abortJobComets d j).jobs = d.jobs := by
  first
  | (unfold Dev.abortJobComets; simp only [abortComet_jobs]; done)
  | (unfold Dev.abortJobComets; with_reducible rfl)
  | (unfold Dev.abortJobComets; simp; done)
  | (unfold Dev.abortJobComets; (repeat' first | with_reducible rfl | (simp; done) | split); done)
  | (unfold Dev.abortJobComets; try dsimp only
     (repeat' first | with_reducible rfl | (simp; done) | (with_reducible refine (foldl_jobs _ ?_ _ _).trans ?_ <;> try intro _ _) | dsimp only | split); done)

@[simp] theorem placeNext_net (d : Dev) (j t : Nat) : (Dev.placeNext d j t).net = d.net := by
  first
  | (unfold Dev.placeNext; simp only [modRun_net]; done)
  | (unfold Dev.placeNext; with_reducible rfl)
  | (unfold Dev.placeNext; simp; done)
  | (unfold Dev.placeNext; (repeat' first | with_reducible rfl | (simp; done) | split); done)
  | (unfold Dev.placeNext; try dsimp only
     (repeat' first | with_reducible rfl | (simp; done) | (with_reducible refine (foldl_net _ ?_ _ _).trans ?_ <;> try intro _ _) | dsimp only | split); done)

@[simp] theorem placeNext_jobs (d : Dev) (j t : Nat) : (Dev.placeNext d j t).jobs = d.jobs := by
  first
  | (unfold Dev.placeNext; simp only [modRun_jobs]; done)
  | (unfold Dev.placeNext; with_reducible rfl)
  | (unfold Dev.placeNext; simp; done)
  | (unfold Dev.placeNext; (repeat' first | with_reducible rfl | (simp; done) | split); done)
  | (unfold Dev.placeNext; try dsimp only
     (repeat' first | with_reducible rfl | (simp; done) | (with_reducible refine (foldl_jobs _ ?_ _ _).trans ?_ <;> try intro _ _) | dsimp only | split); done)

@[simp] theorem memberHold_net (d : Dev) (j reason : Nat) : (Dev.memberHold d j reason).net = d.net := by
  first
  | (unfold Dev.memberHold; simp only [bump_net, abortJobComets_net, modCommit_net, release_net, placeNext_net]; done)
  | (unfold Dev.memberHold; with_reducible rfl)
  | (unfold Dev.memberHold; simp; done)
  | (unfold Dev.memberHold; (repeat' first | with_reducible rfl | (simp; done) | split); done)
  | (unfold Dev.memberHold; try dsimp only
     (repeat' first | with_reducible rfl | (simp; done) | (with_reducible refine (foldl_net _ ?_ _ _).trans ?_ <;> try intro _ _) | dsimp only | split); done)

@[simp] theorem memberHold_jobs (d : Dev) (j reason : Nat) : (Dev.memberHold d j reason).jobs = d.jobs := by
  first
  | (unfold Dev.memberHold; simp only [bump_jobs, abortJobComets_jobs, modCommit_jobs, release_jobs, placeNext_jobs]; done)
  | (unfold Dev.memberHold; with_reducible rfl)
  | (unfold Dev.memberHold; simp; done)
  | (unfold Dev.memberHold; (repeat' first | with_reducible rfl | (simp; done) | split); done)
  | (unfold Dev.memberHold; try dsimp only
     (repeat' first | with_reducible rfl | (simp; done) | (with_reducible refine (foldl_jobs _ ?_ _ _).trans ?_ <;> try intro _ _) | dsimp only | split); done)

@[simp] theorem engineStop_net (d : Dev) (j : Nat) : (Dev.engineStop d j).net = d.net := by
  first
  | (unfold Dev.engineStop; simp only [modEngJob_net]; done)
  | (unfold Dev.engineStop; with_reducible rfl)
  | (unfold Dev.engineStop; simp; done)
  | (unfold Dev.engineStop; (repeat' first | with_reducible rfl | (simp; done) | split); done)
  | (unfold Dev.engineStop; try dsimp only
     (repeat' first | with_reducible rfl | (simp; done) | (with_reducible refine (foldl_net _ ?_ _ _).trans ?_ <;> try intro _ _) | dsimp only | split); done)

@[simp] theorem sayHeaders_net (d : Dev) (l : Nat) : (Dev.sayHeaders d l).net = d.net := by
  first
  | (unfold Dev.sayHeaders; with_reducible rfl)
  | (unfold Dev.sayHeaders; simp; done)
  | (unfold Dev.sayHeaders; (repeat' first | with_reducible rfl | (simp; done) | split); done)
  | (unfold Dev.sayHeaders; try dsimp only
     (repeat' first | with_reducible rfl | (simp; done) | (with_reducible refine (foldl_net _ ?_ _ _).trans ?_ <;> try intro _ _) | dsimp only | split); done)

@[simp] theorem serveLane_net (d : Dev) (l k : Nat) : (Dev.serveLane d l k).net = d.net := by
  unfold Dev.serveLane
  dsimp only
  split
  · rfl
  · split
    · rw [bump_net]
      exact (foldl_net _ (fun _ _ => by simp) _ _).trans (by simp)
    · exact (foldl_net _ (fun _ _ => by simp) _ _).trans (by simp)

@[simp] theorem refreshLink_net (d : Dev) (l : Nat) : (Dev.refreshLink d l).net = d.net := by
  first
  | (unfold Dev.refreshLink; simp only [modLink_net]; done)
  | (unfold Dev.refreshLink; with_reducible rfl)
  | (unfold Dev.refreshLink; simp; done)
  | (unfold Dev.refreshLink; (repeat' first | with_reducible rfl | (simp; done) | split); done)
  | (unfold Dev.refreshLink; try dsimp only
     (repeat' first | with_reducible rfl | (simp; done) | (with_reducible refine (foldl_net _ ?_ _ _).trans ?_ <;> try intro _ _) | dsimp only | split); done)

@[simp] theorem dropLane_net (d : Dev) (l k : Nat) : (Dev.dropLane d l k).net = d.net := by
  first
  | (unfold Dev.dropLane; simp only [modLane_net, modLink_net, refreshLink_net, raise_net, bump_net]; done)
  | (unfold Dev.dropLane; with_reducible rfl)
  | (unfold Dev.dropLane; simp; done)
  | (unfold Dev.dropLane; (repeat' first | with_reducible rfl | (simp; done) | split); done)
  | (unfold Dev.dropLane; try dsimp only
     (repeat' first | with_reducible rfl | (simp; done) | (with_reducible refine (foldl_net _ ?_ _ _).trans ?_ <;> try intro _ _) | dsimp only | split); done)

@[simp] theorem dropOut_net (d : Dev) (l : Nat) : (Dev.dropOut d l).net = d.net := by
  first
  | (unfold Dev.dropOut; simp only [dropLane_net, refreshLink_net, modLink_net]; done)
  | (unfold Dev.dropOut; with_reducible rfl)
  | (unfold Dev.dropOut; simp; done)
  | (unfold Dev.dropOut; (repeat' first | with_reducible rfl | (simp; done) | split); done)
  | (unfold Dev.dropOut; try dsimp only
     (repeat' first | with_reducible rfl | (simp; done) | (with_reducible refine (foldl_net _ ?_ _ _).trans ?_ <;> try intro _ _) | dsimp only | split); done)

@[simp] theorem transmit_net (d : Dev) (l : Nat) (f : LFrame) : (Dev.transmit d l f).net = d.net := by
  first
  | (unfold Dev.transmit; simp only [emit_net, modLink_net]; done)
  | (unfold Dev.transmit; with_reducible rfl)
  | (unfold Dev.transmit; simp; done)
  | (unfold Dev.transmit; (repeat' first | with_reducible rfl | (simp; done) | split); done)
  | (unfold Dev.transmit; try dsimp only
     (repeat' first | with_reducible rfl | (simp; done) | (with_reducible refine (foldl_net _ ?_ _ _).trans ?_ <;> try intro _ _) | dsimp only | split); done)

@[simp] theorem drainFrames_net (d : Dev) (l : Nat) : (Dev.drainFrames d l).net = d.net := by
  first
  | (unfold Dev.drainFrames; simp only [transmit_net, modLink_net]; done)
  | (unfold Dev.drainFrames; with_reducible rfl)
  | (unfold Dev.drainFrames; simp; done)
  | (unfold Dev.drainFrames; (repeat' first | with_reducible rfl | (simp; done) | split); done)
  | (unfold Dev.drainFrames; try dsimp only
     (repeat' first | with_reducible rfl | (simp; done) | (with_reducible refine (foldl_net _ ?_ _ _).trans ?_ <;> try intro _ _) | dsimp only | split); done)

@[simp] theorem sendFrame_net (d : Dev) (l type cls dest : Nat) (payload : Bytes) (source : Option Nat) : (Dev.sendFrame d l type cls dest payload source).net = d.net := by
  first
  | (unfold Dev.sendFrame; simp only [dropOut_net, drainFrames_net, transmit_net, modLink_net, bump_net]; done)
  | (unfold Dev.sendFrame; with_reducible rfl)
  | (unfold Dev.sendFrame; simp; done)
  | (unfold Dev.sendFrame; (repeat' first | with_reducible rfl | (simp; done) | split); done)
  | (unfold Dev.sendFrame; try dsimp only
     (repeat' first | with_reducible rfl | (simp; done) | (with_reducible refine (foldl_net _ ?_ _ _).trans ?_ <;> try intro _ _) | dsimp only | split); done)

@[simp] theorem sendUp_net (d : Dev) (type cls : Nat) (payload : Bytes) : (Dev.sendUp d type cls payload).net = d.net := by
  first
  | (unfold Dev.sendUp; simp only [sendFrame_net]; done)
  | (unfold Dev.sendUp; with_reducible rfl)
  | (unfold Dev.sendUp; simp; done)
  | (unfold Dev.sendUp; (repeat' first | with_reducible rfl | (simp; done) | split); done)
  | (unfold Dev.sendUp; try dsimp only
     (repeat' first | with_reducible rfl | (simp; done) | (with_reducible refine (foldl_net _ ?_ _ _).trans ?_ <;> try intro _ _) | dsimp only | split); done)

@[simp] theorem modGroup_net (d : Dev) (g : Group) (f : Group → Group) : (Dev.modGroup d g f).net = d.net := by
  first
  | (unfold Dev.modGroup; with_reducible rfl)
  | (unfold Dev.modGroup; simp; done)
  | (unfold Dev.modGroup; (repeat' first | with_reducible rfl | (simp; done) | split); done)
  | (unfold Dev.modGroup; try dsimp only
     (repeat' first | with_reducible rfl | (simp; done) | (with_reducible refine (foldl_net _ ?_ _ _).trans ?_ <;> try intro _ _) | dsimp only | split); done)

@[simp] theorem sendDown_net (d : Dev) (type cls : Nat) (payload : Bytes) (except : Option Nat) : (Dev.sendDown d type cls payload except).net = d.net := by
  first
  | (unfold Dev.sendDown; simp only [sendFrame_net]; done)
  | (unfold Dev.sendDown; with_reducible rfl)
  | (unfold Dev.sendDown; simp; done)
  | (unfold Dev.sendDown; (repeat' first | with_reducible rfl | (simp; done) | split); done)
  | (unfold Dev.sendDown; try dsimp only
     (repeat' first | with_reducible rfl | (simp; done) | (with_reducible refine (foldl_net _ ?_ _ _).trans ?_ <;> try intro _ _) | dsimp only | split); done)

@[simp] theorem leaderSend_net (d : Dev) (g : Group) (type reason : Nat) (body : Bytes) : (Dev.leaderSend d g type reason body).net = d.net := by
  first
  | (unfold Dev.leaderSend; simp only [sendDown_net]; done)
  | (unfold Dev.leaderSend; with_reducible rfl)
  | (unfold Dev.leaderSend; simp; done)
  | (unfold Dev.leaderSend; (repeat' first | with_reducible rfl | (simp; done) | split); done)
  | (unfold Dev.leaderSend; try dsimp only
     (repeat' first | with_reducible rfl | (simp; done) | (with_reducible refine (foldl_net _ ?_ _ _).trans ?_ <;> try intro _ _) | dsimp only | split); done)

@[simp] theorem cancelStrobes_net (d : Dev) (sel : Strobe → Bool) : (Dev.cancelStrobes d sel).net = d.net := by
  first
  | (unfold Dev.cancelStrobes; with_reducible rfl)
  | (unfold Dev.cancelStrobes; simp; done)
  | (unfold Dev.cancelStrobes; (repeat' first | with_reducible rfl | (simp; done) | split); done)
  | (unfold Dev.cancelStrobes; try dsimp only
     (repeat' first | with_reducible rfl | (simp; done) | (with_reducible refine (foldl_net _ ?_ _ _).trans ?_ <;> try intro _ _) | dsimp only | split); done)

@[simp] theorem memberCancel_net (d : Dev) (j reason : Nat) : (Dev.memberCancel d j reason).net = d.net := by
  first
  | (unfold Dev.memberCancel; simp only [cancelStrobes_net, bump_net, abortJobComets_net, modCommit_net, placeNext_net]; done)
  | (unfold Dev.memberCancel; with_reducible rfl)
  | (unfold Dev.memberCancel; simp; done)
  | (unfold Dev.memberCancel; (repeat' first | with_reducible rfl | (simp; done) | split); done)
  | (unfold Dev.memberCancel; try dsimp only
     (repeat' first | with_reducible rfl | (simp; done) | (with_reducible refine (foldl_net _ ?_ _ _).trans ?_ <;> try intro _ _) | dsimp only | split); done)

@[simp] theorem syncCause_net (d : Dev) (c : Nat) : (Dev.syncCause d c).net = d.net := by
  first
  | (unfold Dev.syncCause; with_reducible rfl)
  | (unfold Dev.syncCause; simp; done)
  | (unfold Dev.syncCause; (repeat' first | with_reducible rfl | (simp; done) | split); done)
  | (unfold Dev.syncCause; try dsimp only
     (repeat' first | with_reducible rfl | (simp; done) | (with_reducible refine (foldl_net _ ?_ _ _).trans ?_ <;> try intro _ _) | dsimp only | split); done)

@[simp] theorem refreshStale_net (d : Dev) : (Dev.refreshStale d).net = d.net := by
  first
  | (unfold Dev.refreshStale; with_reducible rfl)
  | (unfold Dev.refreshStale; simp; done)
  | (unfold Dev.refreshStale; (repeat' first | with_reducible rfl | (simp; done) | split); done)
  | (unfold Dev.refreshStale; try dsimp only
     (repeat' first | with_reducible rfl | (simp; done) | (with_reducible refine (foldl_net _ ?_ _ _).trans ?_ <;> try intro _ _) | dsimp only | split); done)

@[simp] theorem confirmed_net (d : Dev) (item index version : Nat) : (Dev.confirmed d item index version).net = d.net := by
  first
  | (unfold Dev.confirmed; with_reducible rfl)
  | (unfold Dev.confirmed; simp; done)
  | (unfold Dev.confirmed; (repeat' first | with_reducible rfl | (simp; done) | split); done)
  | (unfold Dev.confirmed; try dsimp only
     (repeat' first | with_reducible rfl | (simp; done) | (with_reducible refine (foldl_net _ ?_ _ _).trans ?_ <;> try intro _ _) | dsimp only | split); done)

@[simp] theorem lateRetract_net (d : Dev) (j : Nat) : (Dev.lateRetract d j).net = d.net := by
  first
  | (unfold Dev.lateRetract; with_reducible rfl)
  | (unfold Dev.lateRetract; simp; done)
  | (unfold Dev.lateRetract; (repeat' first | with_reducible rfl | (simp; done) | split); done)
  | (unfold Dev.lateRetract; try dsimp only
     (repeat' first | with_reducible rfl | (simp; done) | (with_reducible refine (foldl_net _ ?_ _ _).trans ?_ <;> try intro _ _) | dsimp only | split); done)

@[simp] theorem memberRetract_net (d : Dev) (j reason : Nat) : (Dev.memberRetract d j reason).net = d.net := by
  first
  | (unfold Dev.memberRetract; simp only [modCommit_net, memberCancel_net, info_net]; done)
  | (unfold Dev.memberRetract; with_reducible rfl)
  | (unfold Dev.memberRetract; simp; done)
  | (unfold Dev.memberRetract; (repeat' first | with_reducible rfl | (simp; done) | split); done)
  | (unfold Dev.memberRetract; try dsimp only
     (repeat' first | with_reducible rfl | (simp; done) | (with_reducible refine (foldl_net _ ?_ _ _).trans ?_ <;> try intro _ _) | dsimp only | split); done)

@[simp] theorem leaderRetract_net (d : Dev) (g : Group) (reason : Nat) : (Dev.leaderRetract d g reason).net = d.net := by
  first
  | (unfold Dev.leaderRetract; simp only [modGroup_net, leaderSend_net, memberRetract_net]; done)
  | (unfold Dev.leaderRetract; with_reducible rfl)
  | (unfold Dev.leaderRetract; simp; done)
  | (unfold Dev.leaderRetract; (repeat' first | with_reducible rfl | (simp; done) | split); done)
  | (unfold Dev.leaderRetract; try dsimp only
     (repeat' first | with_reducible rfl | (simp; done) | (with_reducible refine (foldl_net _ ?_ _ _).trans ?_ <;> try intro _ _) | dsimp only | split); done)

@[simp] theorem addGroup_net (d : Dev) (g : Group) : (Dev.addGroup d g).net = d.net := by
  first
  | (unfold Dev.addGroup; with_reducible rfl)
  | (unfold Dev.addGroup; simp; done)
  | (unfold Dev.addGroup; (repeat' first | with_reducible rfl | (simp; done) | split); done)
  | (unfold Dev.addGroup; try dsimp only
     (repeat' first | with_reducible rfl | (simp; done) | (with_reducible refine (foldl_net _ ?_ _ _).trans ?_ <;> try intro _ _) | dsimp only | split); done)

@[simp] theorem openGroup_net (d : Dev) (g : Group) (soloJob : Bool) : (Dev.openGroup d g soloJob).net = d.net := by
  first
  | (unfold Dev.openGroup; simp only [leaderRetract_net]; done)
  | (unfold Dev.openGroup; with_reducible rfl)
  | (unfold Dev.openGroup; simp; done)
  | (unfold Dev.openGroup; (repeat' first | with_reducible rfl | (simp; done) | split); done)
  | (unfold Dev.openGroup; try dsimp only
     (repeat' first | with_reducible rfl | (simp; done) | (with_reducible refine (foldl_net _ ?_ _ _).trans ?_ <;> try intro _ _) | dsimp only | split); done)

@[simp] theorem leaderHold_net (d : Dev) (g : Group) (reason : Nat) : (Dev.leaderHold d g reason).net = d.net := by
  first
  | (unfold Dev.leaderHold; simp only [modGroup_net, leaderSend_net, memberHold_net]; done)
  | (unfold Dev.leaderHold; with_reducible rfl)
  | (unfold Dev.leaderHold; simp; done)
  | (unfold Dev.leaderHold; (repeat' first | with_reducible rfl | (simp; done) | split); done)
  | (unfold Dev.leaderHold; try dsimp only
     (repeat' first | with_reducible rfl | (simp; done) | (with_reducible refine (foldl_net _ ?_ _ _).trans ?_ <;> try intro _ _) | dsimp only | split); done)

@[simp] theorem sendTuner_net (d : Dev) (q bank : Nat) (ws : List TWrite) : (Dev.sendTuner d q bank ws).net = d.net := by
  first
  | (unfold Dev.sendTuner; simp only [emit_net]; done)
  | (unfold Dev.sendTuner; with_reducible rfl)
  | (unfold Dev.sendTuner; simp; done)
  | (unfold Dev.sendTuner; (repeat' first | with_reducible rfl | (simp; done) | split); done)
  | (unfold Dev.sendTuner; try dsimp only
     (repeat' first | with_reducible rfl | (simp; done) | (with_reducible refine (foldl_net _ ?_ _ _).trans ?_ <;> try intro _ _) | dsimp only | split); done)

@[simp] theorem stageWrites_net (d : Dev) (bank : Nat) (ws : List TWrite) : (Dev.stageWrites d bank ws).net = d.net := by
  first
  | (unfold Dev.stageWrites; simp only [sendTuner_net]; done)
  | (unfold Dev.stageWrites; with_reducible rfl)
  | (unfold Dev.stageWrites; simp; done)
  | (unfold Dev.stageWrites; (repeat' first | with_reducible rfl | (simp; done) | split); done)
  | (unfold Dev.stageWrites; try dsimp only
     (repeat' first | with_reducible rfl | (simp; done) | (with_reducible refine (foldl_net _ ?_ _ _).trans ?_ <;> try intro _ _) | dsimp only | split); done)

@[simp] theorem noteClamp_net (d : Dev) (p k weight : Nat) : (Dev.noteClamp d p k weight).net = d.net := by
  first
  | (unfold Dev.noteClamp; simp only [setOct_net]; done)
  | (unfold Dev.noteClamp; with_reducible rfl)
  | (unfold Dev.noteClamp; simp; done)
  | (unfold Dev.noteClamp; (repeat' first | with_reducible rfl | (simp; done) | split); done)
  | (unfold Dev.noteClamp; try dsimp only
     (repeat' first | with_reducible rfl | (simp; done) | (with_reducible refine (foldl_net _ ?_ _ _).trans ?_ <;> try intro _ _) | dsimp only | split); done)

@[simp] theorem memberConfirm_net (d : Dev) (j : Nat) : (Dev.memberConfirm d j).net = d.net := by
  first
  | (unfold Dev.memberConfirm; simp only [modCommit_net]; done)
  | (unfold Dev.memberConfirm; with_reducible rfl)
  | (unfold Dev.memberConfirm; simp; done)
  | (unfold Dev.memberConfirm; (repeat' first | with_reducible rfl | (simp; done) | split); done)
  | (unfold Dev.memberConfirm; try dsimp only
     (repeat' first | with_reducible rfl | (simp; done) | (with_reducible refine (foldl_net _ ?_ _ _).trans ?_ <;> try intro _ _) | dsimp only | split); done)

@[simp] theorem tallyAck_net (d : Dev) (g : Group) (tag z ack fail sender reason : Nat) : (Dev.tallyAck d g tag z ack fail sender reason).net = d.net := by
  first
  | (unfold Dev.tallyAck; with_reducible rfl)
  | (unfold Dev.tallyAck; simp; done)
  | (unfold Dev.tallyAck; (repeat' first | with_reducible rfl | (simp; done) | split); done)
  | (unfold Dev.tallyAck; try dsimp only
     (repeat' first | with_reducible rfl | (simp; done) | (with_reducible refine (foldl_net _ ?_ _ _).trans ?_ <;> try intro _ _) | dsimp only | split); done)

@[simp] theorem groupAck_net (d : Dev) (tag z entry crc ack fail sender reason : Nat) : (Dev.groupAck d tag z entry crc ack fail sender reason).net = d.net := by
  first
  | (unfold Dev.groupAck; simp only [modGroup_net, leaderRetract_net, leaderSend_net, memberConfirm_net]; done)
  | (unfold Dev.groupAck; with_reducible rfl)
  | (unfold Dev.groupAck; simp; done)
  | (unfold Dev.groupAck; (repeat' first | with_reducible rfl | (simp; done) | split); done)
  | (unfold Dev.groupAck; try dsimp only
     (repeat' first | with_reducible rfl | (simp; done) | (with_reducible refine (foldl_net _ ?_ _ _).trans ?_ <;> try intro _ _) | dsimp only | split); done)

@[simp] theorem ackAgain_net (d : Dev) (j : Nat) : (Dev.ackAgain d j).net = d.net := by
  first
  | (unfold Dev.ackAgain; with_reducible rfl)
  | (unfold Dev.ackAgain; simp; done)
  | (unfold Dev.ackAgain; (repeat' first | with_reducible rfl | (simp; done) | split); done)
  | (unfold Dev.ackAgain; try dsimp only
     (repeat' first | with_reducible rfl | (simp; done) | (with_reducible refine (foldl_net _ ?_ _ _).trans ?_ <;> try intro _ _) | dsimp only | split); done)

@[simp] theorem sendAck_net (d : Dev) (j reason : Nat) : (Dev.sendAck d j reason).net = d.net := by
  first
  | (unfold Dev.sendAck; simp only [modCommit_net, groupAck_net, sendUp_net]; done)
  | (unfold Dev.sendAck; with_reducible rfl)
  | (unfold Dev.sendAck; simp; done)
  | (unfold Dev.sendAck; (repeat' first | with_reducible rfl | (simp; done) | split); done)
  | (unfold Dev.sendAck; try dsimp only
     (repeat' first | with_reducible rfl | (simp; done) | (with_reducible refine (foldl_net _ ?_ _ _).trans ?_ <;> try intro _ _) | dsimp only | split); done)

@[simp] theorem armStrobe_net (d : Dev) (s : Strobe) : (Dev.armStrobe d s).1.net = d.net := by
  first
  | (unfold Dev.armStrobe; simp only [bump_net]; done)
  | (unfold Dev.armStrobe; with_reducible rfl)
  | (unfold Dev.armStrobe; simp; done)
  | (unfold Dev.armStrobe; (repeat' first | with_reducible rfl | (simp; done) | split); done)
  | (unfold Dev.armStrobe; try dsimp only
     (repeat' first | with_reducible rfl | (simp; done) | (with_reducible refine (foldl_net _ ?_ _ _).trans ?_ <;> try intro _ _) | dsimp only | split); done)

@[simp] theorem armAll_net (d : Dev) (j : Nat) (l : List Stage) : (Dev.armAll d j l).1.net = d.net := by
  induction l generalizing d with
  | nil => rfl
  | cons a t ih =>
    unfold Dev.armAll
    dsimp only
    split
    · rw [ih, armStrobe_net]
    · rw [armStrobe_net]

@[simp] theorem stageComets_net (d : Dev) (j : Nat) : (Dev.stageComets d j).net = d.net := by
  first
  | (unfold Dev.stageComets; simp only [modComet_net]; done)
  | (unfold Dev.stageComets; with_reducible rfl)
  | (unfold Dev.stageComets; simp; done)
  | (unfold Dev.stageComets; (repeat' first | with_reducible rfl | (simp; done) | split); done)
  | (unfold Dev.stageComets; try dsimp only
     (repeat' first | with_reducible rfl | (simp; done) | (with_reducible refine (foldl_net _ ?_ _ _).trans ?_ <;> try intro _ _) | dsimp only | split); done)

@[simp] theorem stageEntry_net (d : Dev) (j : Nat) (es : List CEntry) : (Dev.stageEntry d j es).net = d.net := by
  first
  | (unfold Dev.stageEntry; with_reducible rfl)
  | (unfold Dev.stageEntry; simp; done)
  | (unfold Dev.stageEntry; (repeat' first | with_reducible rfl | (simp; done) | split); done)
  | (unfold Dev.stageEntry; try dsimp only
     (repeat' first | with_reducible rfl | (simp; done) | (with_reducible refine (foldl_net _ ?_ _ _).trans ?_ <;> try intro _ _) | dsimp only | split); done)

@[simp] theorem memberAck_net (d : Dev) (j reason : Nat) : (Dev.memberAck d j reason).net = d.net := by
  first
  | (unfold Dev.memberAck; with_reducible rfl)
  | (unfold Dev.memberAck; simp; done)
  | (unfold Dev.memberAck; (repeat' first | with_reducible rfl | (simp; done) | split); done)
  | (unfold Dev.memberAck; try dsimp only
     (repeat' first | with_reducible rfl | (simp; done) | (with_reducible refine (foldl_net _ ?_ _ _).trans ?_ <;> try intro _ _) | dsimp only | split); done)

@[simp] theorem memberGo_net (d : Dev) (j : Nat) : (Dev.memberGo d j).net = d.net := by
  first
  | (unfold Dev.memberGo; simp only [stageWrites_net, noteClamp_net, sendAck_net, modCommit_net, armAll_net, stageComets_net, cancelStrobes_net]; done)
  | (unfold Dev.memberGo; with_reducible rfl)
  | (unfold Dev.memberGo; simp; done)
  | (unfold Dev.memberGo; (repeat' first | with_reducible rfl | (simp; done) | split); done)
  | (unfold Dev.memberGo; try dsimp only
     (repeat' first | with_reducible rfl | (simp; done) | (with_reducible refine (foldl_net _ ?_ _ _).trans ?_ <;> try intro _ _) | dsimp only | split); done)

@[simp] theorem leaderGo_net (d : Dev) (g : Group) : (Dev.leaderGo d g).net = d.net := by
  first
  | (unfold Dev.leaderGo; simp only [modGroup_net, leaderSend_net, memberGo_net]; done)
  | (unfold Dev.leaderGo; with_reducible rfl)
  | (unfold Dev.leaderGo; simp; done)
  | (unfold Dev.leaderGo; (repeat' first | with_reducible rfl | (simp; done) | split); done)
  | (unfold Dev.leaderGo; try dsimp only
     (repeat' first | with_reducible rfl | (simp; done) | (with_reducible refine (foldl_net _ ?_ _ _).trans ?_ <;> try intro _ _) | dsimp only | split); done)

@[simp] theorem groupVote_net (d : Dev) (m : CMsg) (members ready notReady : Nat) : (Dev.groupVote d m members ready notReady).net = d.net := by
  first
  | (unfold Dev.groupVote Dev.nameOnce; simp only [info_net, openGroup_net, raise_net, leaderHold_net, modGroup_net, leaderGo_net]; done)
  | (unfold Dev.groupVote Dev.nameOnce; with_reducible rfl)
  | (unfold Dev.groupVote Dev.nameOnce; simp; done)
  | (unfold Dev.groupVote Dev.nameOnce; (repeat' first | with_reducible rfl | (simp; done) | split); done)
  | (unfold Dev.groupVote Dev.nameOnce; try dsimp only
     (repeat' first | with_reducible rfl | (simp; done) | (with_reducible refine (foldl_net _ ?_ _ _).trans ?_ <;> try intro _ _) | dsimp only | split); done)

@[simp] theorem voteAgain_net (d : Dev) (j : Nat) : (Dev.voteAgain d j).net = d.net := by
  first
  | (unfold Dev.voteAgain; with_reducible rfl)
  | (unfold Dev.voteAgain; simp; done)
  | (unfold Dev.voteAgain; (repeat' first | with_reducible rfl | (simp; done) | split); done)
  | (unfold Dev.voteAgain; try dsimp only
     (repeat' first | with_reducible rfl | (simp; done) | (with_reducible refine (foldl_net _ ?_ _ _).trans ?_ <;> try intro _ _) | dsimp only | split); done)

@[simp] theorem sendVote_net (d : Dev) (j : Nat) (reason : Nat) : (Dev.sendVote d j reason).net = d.net := by
  first
  | (unfold Dev.sendVote; simp only [modCommit_net, groupVote_net, sendUp_net]; done)
  | (unfold Dev.sendVote; with_reducible rfl)
  | (unfold Dev.sendVote; simp; done)
  | (unfold Dev.sendVote; (repeat' first | with_reducible rfl | (simp; done) | split); done)
  | (unfold Dev.sendVote; try dsimp only
     (repeat' first | with_reducible rfl | (simp; done) | (with_reducible refine (foldl_net _ ?_ _ _).trans ?_ <;> try intro _ _) | dsimp only | split); done)

@[simp] theorem memberQuit_net (d : Dev) (j reason : Nat) : (Dev.memberQuit d j reason).net = d.net := by
  first
  | (unfold Dev.memberQuit; with_reducible rfl)
  | (unfold Dev.memberQuit; simp; done)
  | (unfold Dev.memberQuit; (repeat' first | with_reducible rfl | (simp; done) | split); done)
  | (unfold Dev.memberQuit; try dsimp only
     (repeat' first | with_reducible rfl | (simp; done) | (with_reducible refine (foldl_net _ ?_ _ _).trans ?_ <;> try intro _ _) | dsimp only | split); done)

@[simp] theorem stopJob_net (d : Dev) (j cause : Nat) : (Dev.stopJob d j cause).net = d.net := by
  first
  | (unfold Dev.stopJob; simp only [memberHold_net, engineStop_net, modJob_net]; done)
  | (unfold Dev.stopJob; with_reducible rfl)
  | (unfold Dev.stopJob; simp; done)
  | (unfold Dev.stopJob; (repeat' first | with_reducible rfl | (simp; done) | split); done)
  | (unfold Dev.stopJob; try dsimp only
     (repeat' first | with_reducible rfl | (simp; done) | (with_reducible refine (foldl_net _ ?_ _ _).trans ?_ <;> try intro _ _) | dsimp only | split); done)

@[simp] theorem orderStop_net (d : Dev) (j cause : Nat) : (Dev.orderStop d j cause).net = d.net := by
  first
  | (unfold Dev.orderStop; simp only [modJob_net, stopJob_net]; done)
  | (unfold Dev.orderStop; with_reducible rfl)
  | (unfold Dev.orderStop; simp; done)
  | (unfold Dev.orderStop; (repeat' first | with_reducible rfl | (simp; done) | split); done)
  | (unfold Dev.orderStop; try dsimp only
     (repeat' first | with_reducible rfl | (simp; done) | (with_reducible refine (foldl_net _ ?_ _ _).trans ?_ <;> try intro _ _) | dsimp only | split); done)

@[simp] theorem freshNonce_net (d : Dev) (p : Nat) : (Dev.freshNonce d p).net = d.net := by
  first
  | (unfold Dev.freshNonce; simp only [modPort_net, drawn_net]; done)
  | (unfold Dev.freshNonce; with_reducible rfl)
  | (unfold Dev.freshNonce; simp; done)
  | (unfold Dev.freshNonce; (repeat' first | with_reducible rfl | (simp; done) | split); done)
  | (unfold Dev.freshNonce; try dsimp only
     (repeat' first | with_reducible rfl | (simp; done) | (with_reducible refine (foldl_net _ ?_ _ _).trans ?_ <;> try intro _ _) | dsimp only | split); done)

@[simp] theorem undelivered_net (d : Dev) (p type : Nat) : (Dev.undelivered d p type).net = d.net := by
  first
  | (unfold Dev.undelivered; simp only [info_net, bump_net]; done)
  | (unfold Dev.undelivered; with_reducible rfl)
  | (unfold Dev.undelivered; simp; done)
  | (unfold Dev.undelivered; (repeat' first | with_reducible rfl | (simp; done) | split); done)
  | (unfold Dev.undelivered; try dsimp only
     (repeat' first | with_reducible rfl | (simp; done) | (with_reducible refine (foldl_net _ ?_ _ _).trans ?_ <;> try intro _ _) | dsimp only | split); done)

@[simp] theorem attach_net (d : Dev) (p : Nat) : (Dev.attach d p).net = d.net := by
  first
  | (unfold Dev.attach; with_reducible rfl)
  | (unfold Dev.attach; simp; done)
  | (unfold Dev.attach; (repeat' first | with_reducible rfl | (simp; done) | split); done)
  | (unfold Dev.attach; try dsimp only
     (repeat' first | with_reducible rfl | (simp; done) | (with_reducible refine (foldl_net _ ?_ _ _).trans ?_ <;> try intro _ _) | dsimp only | split); done)

@[simp] theorem emitProbe_net (d : Dev) (p : Nat) (f : PFrame) : (Dev.emitProbe d p f).net = d.net := by
  first
  | (unfold Dev.emitProbe; simp only [emit_net, bump_net, modPort_net]; done)
  | (unfold Dev.emitProbe; with_reducible rfl)
  | (unfold Dev.emitProbe; simp; done)
  | (unfold Dev.emitProbe; (repeat' first | with_reducible rfl | (simp; done) | split); done)
  | (unfold Dev.emitProbe; try dsimp only
     (repeat' first | with_reducible rfl | (simp; done) | (with_reducible refine (foldl_net _ ?_ _ _).trans ?_ <;> try intro _ _) | dsimp only | split); done)

@[simp] theorem notLocked_net (d : Dev) (p : Nat) : (Dev.notLocked d p).net = d.net := by
  first
  | (unfold Dev.notLocked; with_reducible rfl)
  | (unfold Dev.notLocked; simp; done)
  | (unfold Dev.notLocked; (repeat' first | with_reducible rfl | (simp; done) | split); done)
  | (unfold Dev.notLocked; try dsimp only
     (repeat' first | with_reducible rfl | (simp; done) | (with_reducible refine (foldl_net _ ?_ _ _).trans ?_ <;> try intro _ _) | dsimp only | split); done)

@[simp] theorem drainPort_net (d : Dev) (p : Nat) (zz : Nat) : (Dev.drainPort d p zz).net = d.net := by
  induction zz generalizing d with
  | zero => rfl
  | succ n ih =>
    unfold Dev.drainPort
    repeat' first | with_reducible rfl | (simp [ih]; done) | dsimp only | split

@[simp] theorem servePort_net (d : Dev) (p : Nat) : (Dev.servePort d p).net = d.net := by
  first
  | (unfold Dev.servePort; simp only [attach_net, drainPort_net]; done)
  | (unfold Dev.servePort; with_reducible rfl)
  | (unfold Dev.servePort; simp; done)
  | (unfold Dev.servePort; (repeat' first | with_reducible rfl | (simp; done) | split); done)
  | (unfold Dev.servePort; try dsimp only
     (repeat' first | with_reducible rfl | (simp; done) | (with_reducible refine (foldl_net _ ?_ _ _).trans ?_ <;> try intro _ _) | dsimp only | split); done)

@[simp] theorem queueProbe_net (d : Dev) (p type echo : Nat) (payload : Bytes) (again : Option Nat) : (Dev.queueProbe d p type echo payload again).net = d.net := by
  first
  | (unfold Dev.queueProbe; simp only [undelivered_net, modPort_net, servePort_net]; done)
  | (unfold Dev.queueProbe; with_reducible rfl)
  | (unfold Dev.queueProbe; simp; done)
  | (unfold Dev.queueProbe; (repeat' first | with_reducible rfl | (simp; done) | split); done)
  | (unfold Dev.queueProbe; try dsimp only
     (repeat' first | with_reducible rfl | (simp; done) | (with_reducible refine (foldl_net _ ?_ _ _).trans ?_ <;> try intro _ _) | dsimp only | split); done)

@[simp] theorem sendHello_net (d : Dev) (p attempt : Nat) : (Dev.sendHello d p attempt).net = d.net := by
  first
  | (unfold Dev.sendHello; simp only [queueProbe_net, modPort_net]; done)
  | (unfold Dev.sendHello; with_reducible rfl)
  | (unfold Dev.sendHello; simp; done)
  | (unfold Dev.sendHello; (repeat' first | with_reducible rfl | (simp; done) | split); done)
  | (unfold Dev.sendHello; try dsimp only
     (repeat' first | with_reducible rfl | (simp; done) | (with_reducible refine (foldl_net _ ?_ _ _).trans ?_ <;> try intro _ _) | dsimp only | split); done)

@[simp] theorem startAttempt_net (d : Dev) (p n : Nat) : (Dev.startAttempt d p n).net = d.net := by
  first
  | (unfold Dev.startAttempt; simp only [freshNonce_net, bump_net, modPort_net, sendHello_net]; done)
  | (unfold Dev.startAttempt; with_reducible rfl)
  | (unfold Dev.startAttempt; simp; done)
  | (unfold Dev.startAttempt; (repeat' first | with_reducible rfl | (simp; done) | split); done)
  | (unfold Dev.startAttempt; try dsimp only
     (repeat' first | with_reducible rfl | (simp; done) | (with_reducible refine (foldl_net _ ?_ _ _).trans ?_ <;> try intro _ _) | dsimp only | split); done)

@[simp] theorem queueRepeated_net (d : Dev) (p type : Nat) (payload : Bytes) : (Dev.queueRepeated d p type payload).net = d.net := by
  first
  | (unfold Dev.queueRepeated; simp only [queueProbe_net, modPort_net]; done)
  | (unfold Dev.queueRepeated; with_reducible rfl)
  | (unfold Dev.queueRepeated; simp; done)
  | (unfold Dev.queueRepeated; (repeat' first | with_reducible rfl | (simp; done) | split); done)
  | (unfold Dev.queueRepeated; try dsimp only
     (repeat' first | with_reducible rfl | (simp; done) | (with_reducible refine (foldl_net _ ?_ _ _).trans ?_ <;> try intro _ _) | dsimp only | split); done)

@[simp] theorem goodbye_net (d : Dev) (p cause : Nat) : (Dev.goodbye d p cause).net = d.net := by
  first
  | (unfold Dev.goodbye; simp only [queueRepeated_net]; done)
  | (unfold Dev.goodbye; with_reducible rfl)
  | (unfold Dev.goodbye; simp; done)
  | (unfold Dev.goodbye; (repeat' first | with_reducible rfl | (simp; done) | split); done)
  | (unfold Dev.goodbye; try dsimp only
     (repeat' first | with_reducible rfl | (simp; done) | (with_reducible refine (foldl_net _ ?_ _ _).trans ?_ <;> try intro _ _) | dsimp only | split); done)

@[simp] theorem sendDesc_net (d : Dev) (j : Nat) (s : Strobe) : (Dev.sendDesc d j s).net = d.net := by
  first
  | (unfold Dev.sendDesc; with_reducible rfl)
  | (unfold Dev.sendDesc; simp; done)
  | (unfold Dev.sendDesc; (repeat' first | with_reducible rfl | (simp; done) | split); done)
  | (unfold Dev.sendDesc; try dsimp only
     (repeat' first | with_reducible rfl | (simp; done) | (with_reducible refine (foldl_net _ ?_ _ _).trans ?_ <;> try intro _ _) | dsimp only | split); done)

@[simp] theorem fixStrobe_net (d : Dev) (s : Strobe) : (Dev.fixStrobe d s).net = d.net := by
  first
  | (unfold Dev.fixStrobe; with_reducible rfl)
  | (unfold Dev.fixStrobe; simp; done)
  | (unfold Dev.fixStrobe; (repeat' first | with_reducible rfl | (simp; done) | split); done)
  | (unfold Dev.fixStrobe; try dsimp only
     (repeat' first | with_reducible rfl | (simp; done) | (with_reducible refine (foldl_net _ ?_ _ _).trans ?_ <;> try intro _ _) | dsimp only | split); done)

@[simp] theorem armFixed_net (d : Dev) (s : Strobe) : (Dev.armFixed d s).net = d.net := by
  first
  | (unfold Dev.armFixed; with_reducible rfl)
  | (unfold Dev.armFixed; simp; done)
  | (unfold Dev.armFixed; (repeat' first | with_reducible rfl | (simp; done) | split); done)
  | (unfold Dev.armFixed; try dsimp only
     (repeat' first | with_reducible rfl | (simp; done) | (with_reducible refine (foldl_net _ ?_ _ _).trans ?_ <;> try intro _ _) | dsimp only | split); done)

@[simp] theorem laneIn_net (d : Dev) (r : Round) (z : Nat) : (Dev.laneIn d r z).net = d.net := by
  first
  | (unfold Dev.laneIn; with_reducible rfl)
  | (unfold Dev.laneIn; simp; done)
  | (unfold Dev.laneIn; (repeat' first | with_reducible rfl | (simp; done) | split); done)
  | (unfold Dev.laneIn; try dsimp only
     (repeat' first | with_reducible rfl | (simp; done) | (with_reducible refine (foldl_net _ ?_ _ _).trans ?_ <;> try intro _ _) | dsimp only | split); done)

@[simp] theorem calStatus_net (d : Dev) (p lane result suspect : Nat) (countUp : Bool) : (Dev.calStatus d p lane result suspect countUp).net = d.net := by
  first
  | (unfold Dev.calStatus; with_reducible rfl)
  | (unfold Dev.calStatus; simp; done)
  | (unfold Dev.calStatus; (repeat' first | with_reducible rfl | (simp; done) | split); done)
  | (unfold Dev.calStatus; try dsimp only
     (repeat' first | with_reducible rfl | (simp; done) | (with_reducible refine (foldl_net _ ?_ _ _).trans ?_ <;> try intro _ _) | dsimp only | split); done)

@[simp] theorem setRoute_net (d : Dev) (p plane lanes : Nat) (ks : List Nat) : (Dev.setRoute d p plane lanes ks).net = d.net := by
  first
  | (unfold Dev.setRoute; with_reducible rfl)
  | (unfold Dev.setRoute; simp; done)
  | (unfold Dev.setRoute; (repeat' first | with_reducible rfl | (simp; done) | split); done)
  | (unfold Dev.setRoute; try dsimp only
     (repeat' first | with_reducible rfl | (simp; done) | (with_reducible refine (foldl_net _ ?_ _ _).trans ?_ <;> try intro _ _) | dsimp only | split); done)

@[simp] theorem laneBack_net (d : Dev) (r : Round) : (Dev.laneBack d r).net = d.net := by
  first
  | (unfold Dev.laneBack; with_reducible rfl)
  | (unfold Dev.laneBack; simp; done)
  | (unfold Dev.laneBack; (repeat' first | with_reducible rfl | (simp; done) | split); done)
  | (unfold Dev.laneBack; try dsimp only
     (repeat' first | with_reducible rfl | (simp; done) | (with_reducible refine (foldl_net _ ?_ _ _).trans ?_ <;> try intro _ _) | dsimp only | split); done)

@[simp] theorem closeRound_net (d : Dev) (r : Round) : (Dev.closeRound d r).net = d.net := by
  refine (sendMonitors_net _ _).trans ((foldl_net _ ?_ _ _).trans ?_)
  · intro d p; exact modBank_net _ _ _
  · exact laneBack_net _ _

@[simp] theorem endRound_net (d : Dev) (r : Round) : (Dev.endRound d r).net = d.net := by
  simp [Dev.endRound]

@[simp] theorem modRound_net (d : Dev) (r : Round) (f : Round → Round) : (Dev.modRound d r f).net = d.net := by
  first
  | (unfold Dev.modRound; with_reducible rfl)
  | (unfold Dev.modRound; simp; done)
  | (unfold Dev.modRound; (repeat' first | with_reducible rfl | (simp; done) | split); done)
  | (unfold Dev.modRound; try dsimp only
     (repeat' first | with_reducible rfl | (simp; done) | (with_reducible refine (foldl_net _ ?_ _ _).trans ?_ <;> try intro _ _) | dsimp only | split); done)

@[simp] theorem abortRound_net (d : Dev) (r : Round) : (Dev.abortRound d r).net = d.net := by
  first
  | (unfold Dev.abortRound; with_reducible rfl)
  | (unfold Dev.abortRound; simp; done)
  | (unfold Dev.abortRound; (repeat' first | with_reducible rfl | (simp; done) | split); done)
  | (unfold Dev.abortRound; try dsimp only
     (repeat' first | with_reducible rfl | (simp; done) | (with_reducible refine (foldl_net _ ?_ _ _).trans ?_ <;> try intro _ _) | dsimp only | split); done)

@[simp] theorem abortRounds_net (d : Dev) (sel : Round → Bool) : (Dev.abortRounds d sel).net = d.net := by
  first
  | (unfold Dev.abortRounds; with_reducible rfl)
  | (unfold Dev.abortRounds; simp; done)
  | (unfold Dev.abortRounds; (repeat' first | with_reducible rfl | (simp; done) | split); done)
  | (unfold Dev.abortRounds; try dsimp only
     (repeat' first | with_reducible rfl | (simp; done) | (with_reducible refine (foldl_net _ ?_ _ _).trans ?_ <;> try intro _ _) | dsimp only | split); done)

@[simp] theorem detach_net (d : Dev) (p cause : Nat) (other : Bool) : (Dev.detach d p cause other).net = d.net := by
  first
  | (unfold Dev.detach; simp only [modPort_net, bump_net, raise_net]; done)
  | (unfold Dev.detach; with_reducible rfl)
  | (unfold Dev.detach; simp; done)
  | (unfold Dev.detach; (repeat' first | with_reducible rfl | (simp; done) | split); done)
  | (unfold Dev.detach; try dsimp only
     (repeat' first | with_reducible rfl | (simp; done) | (with_reducible refine (foldl_net _ ?_ _ _).trans ?_ <;> try intro _ _) | dsimp only | split); done)

@[simp] theorem probingOff_net (d : Dev) (p : Nat) : (Dev.probingOff d p).net = d.net := by
  first
  | (unfold Dev.probingOff; simp only [goodbye_net, modPort_net, detach_net]; done)
  | (unfold Dev.probingOff; with_reducible rfl)
  | (unfold Dev.probingOff; simp; done)
  | (unfold Dev.probingOff; (repeat' first | with_reducible rfl | (simp; done) | split); done)
  | (unfold Dev.probingOff; try dsimp only
     (repeat' first | with_reducible rfl | (simp; done) | (with_reducible refine (foldl_net _ ?_ _ _).trans ?_ <;> try intro _ _) | dsimp only | split); done)

@[simp] theorem refreshProbing_net (d : Dev) (p : Nat) : (Dev.refreshProbing d p).net = d.net := by
  first
  | (unfold Dev.refreshProbing; simp only [startAttempt_net, probingOff_net]; done)
  | (unfold Dev.refreshProbing; with_reducible rfl)
  | (unfold Dev.refreshProbing; simp; done)
  | (unfold Dev.refreshProbing; (repeat' first | with_reducible rfl | (simp; done) | split); done)
  | (unfold Dev.refreshProbing; try dsimp only
     (repeat' first | with_reducible rfl | (simp; done) | (with_reducible refine (foldl_net _ ?_ _ _).trans ?_ <;> try intro _ _) | dsimp only | split); done)

@[simp] theorem refreshAllProbing_net (d : Dev) : (Dev.refreshAllProbing d).net = d.net := by
  first
  | (unfold Dev.refreshAllProbing; simp only [refreshProbing_net]; done)
  | (unfold Dev.refreshAllProbing; with_reducible rfl)
  | (unfold Dev.refreshAllProbing; simp; done)
  | (unfold Dev.refreshAllProbing; (repeat' first | with_reducible rfl | (simp; done) | split); done)
  | (unfold Dev.refreshAllProbing; try dsimp only
     (repeat' first | with_reducible rfl | (simp; done) | (with_reducible refine (foldl_net _ ?_ _ _).trans ?_ <;> try intro _ _) | dsimp only | split); done)

@[simp] theorem sayHeaders_dir (d : Dev) (l : Nat) : (Dev.sayHeaders d l).dir = d.dir := by
  first
  | (unfold Dev.sayHeaders; with_reducible rfl)
  | (unfold Dev.sayHeaders; simp; done)
  | (unfold Dev.sayHeaders; (repeat' first | with_reducible rfl | (simp; done) | split); done)
  | (unfold Dev.sayHeaders; try dsimp only
     (repeat' first | with_reducible rfl | (simp; done) | (with_reducible refine (foldl_dir _ ?_ _ _).trans ?_ <;> try intro _ _) | dsimp only | split); done)

@[simp] theorem undelivered_dir (d : Dev) (p type : Nat) : (Dev.undelivered d p type).dir = d.dir := by
  first
  | (unfold Dev.undelivered; with_reducible rfl)
  | (unfold Dev.undelivered; simp; done)
  | (unfold Dev.undelivered; (repeat' first | with_reducible rfl | (simp; done) | split); done)
  | (unfold Dev.undelivered; try dsimp only
     (repeat' first | with_reducible rfl | (simp; done) | (with_reducible refine (foldl_dir _ ?_ _ _).trans ?_ <;> try intro _ _) | dsimp only | split); done)

@[simp] theorem serveLane_dir (d : Dev) (l k : Nat) : (Dev.serveLane d l k).dir = d.dir := by
  unfold Dev.serveLane
  dsimp only
  split
  · rfl
  · split
    · rw [bump_dir]
      exact (foldl_dir _ (fun _ _ => by simp) _ _).trans (by simp)
    · exact (foldl_dir _ (fun _ _ => by simp) _ _).trans (by simp)

@[simp] theorem refreshLink_dir (d : Dev) (l : Nat) : (Dev.refreshLink d l).dir = d.dir := by
  first
  | (unfold Dev.refreshLink; simp only [modLink_dir]; done)
  | (unfold Dev.refreshLink; with_reducible rfl)
  | (unfold Dev.refreshLink; simp; done)
  | (unfold Dev.refreshLink; (repeat' first | with_reducible rfl | (simp; done) | split); done)
  | (unfold Dev.refreshLink; try dsimp only
     (repeat' first | with_reducible rfl | (simp; done) | (with_reducible refine (foldl_dir _ ?_ _ _).trans ?_ <;> try intro _ _) | dsimp only | split); done)

@[simp] theorem sayHeaders_jobs (d : Dev) (l : Nat) : (Dev.sayHeaders d l).jobs = d.jobs := by
  first
  | (unfold Dev.sayHeaders; with_reducible rfl)
  | (unfold Dev.sayHeaders; simp; done)
  | (unfold Dev.sayHeaders; (repeat' first | with_reducible rfl | (simp; done) | split); done)
  | (unfold Dev.sayHeaders; try dsimp only
     (repeat' first | with_reducible rfl | (simp; done) | (with_reducible refine (foldl_jobs _ ?_ _ _).trans ?_ <;> try intro _ _) | dsimp only | split); done)

@[simp] theorem undelivered_jobs (d : Dev) (p type : Nat) : (Dev.undelivered d p type).jobs = d.jobs := by
  first
  | (unfold Dev.undelivered; with_reducible rfl)
  | (unfold Dev.undelivered; simp; done)
  | (unfold Dev.undelivered; (repeat' first | with_reducible rfl | (simp; done) | split); done)
  | (unfold Dev.undelivered; try dsimp only
     (repeat' first | with_reducible rfl | (simp; done) | (with_reducible refine (foldl_jobs _ ?_ _ _).trans ?_ <;> try intro _ _) | dsimp only | split); done)

@[simp] theorem serveLane_jobs (d : Dev) (l k : Nat) : (Dev.serveLane d l k).jobs = d.jobs := by
  unfold Dev.serveLane
  dsimp only
  split
  · rfl
  · split
    · rw [bump_jobs]
      exact (foldl_jobs _ (fun _ _ => by simp) _ _).trans (by simp)
    · exact (foldl_jobs _ (fun _ _ => by simp) _ _).trans (by simp)

@[simp] theorem refreshLink_jobs (d : Dev) (l : Nat) : (Dev.refreshLink d l).jobs = d.jobs := by
  first
  | (unfold Dev.refreshLink; simp only [modLink_jobs]; done)
  | (unfold Dev.refreshLink; with_reducible rfl)
  | (unfold Dev.refreshLink; simp; done)
  | (unfold Dev.refreshLink; (repeat' first | with_reducible rfl | (simp; done) | split); done)
  | (unfold Dev.refreshLink; try dsimp only
     (repeat' first | with_reducible rfl | (simp; done) | (with_reducible refine (foldl_jobs _ ?_ _ _).trans ?_ <;> try intro _ _) | dsimp only | split); done)

@[simp] theorem dropLane_dir (d : Dev) (l k : Nat) : (Dev.dropLane d l k).dir = d.dir := by
  first
  | (unfold Dev.dropLane; simp only [modLane_dir, modLink_dir, refreshLink_dir, raise_dir, bump_dir]; done)
  | (unfold Dev.dropLane; with_reducible rfl)
  | (unfold Dev.dropLane; simp; done)
  | (unfold Dev.dropLane; (repeat' first | with_reducible rfl | (simp; done) | split); done)
  | (unfold Dev.dropLane; try dsimp only
     (repeat' first | with_reducible rfl | (simp; done) | (with_reducible refine (foldl_dir _ ?_ _ _).trans ?_ <;> try intro _ _) | dsimp only | split); done)

@[simp] theorem dropLane_jobs (d : Dev) (l k : Nat) : (Dev.dropLane d l k).jobs = d.jobs := by
  first
  | (unfold Dev.dropLane; simp only [modLane_jobs, modLink_jobs, refreshLink_jobs, raise_jobs, bump_jobs]; done)
  | (unfold Dev.dropLane; with_reducible rfl)
  | (unfold Dev.dropLane; simp; done)
  | (unfold Dev.dropLane; (repeat' first | with_reducible rfl | (simp; done) | split); done)
  | (unfold Dev.dropLane; try dsimp only
     (repeat' first | with_reducible rfl | (simp; done) | (with_reducible refine (foldl_jobs _ ?_ _ _).trans ?_ <;> try intro _ _) | dsimp only | split); done)

@[simp] theorem dropOut_dir (d : Dev) (l : Nat) : (Dev.dropOut d l).dir = d.dir := by
  first
  | (unfold Dev.dropOut; simp only [dropLane_dir, refreshLink_dir, modLink_dir]; done)
  | (unfold Dev.dropOut; with_reducible rfl)
  | (unfold Dev.dropOut; simp; done)
  | (unfold Dev.dropOut; (repeat' first | with_reducible rfl | (simp; done) | split); done)
  | (unfold Dev.dropOut; try dsimp only
     (repeat' first | with_reducible rfl | (simp; done) | (with_reducible refine (foldl_dir _ ?_ _ _).trans ?_ <;> try intro _ _) | dsimp only | split); done)

@[simp] theorem dropOut_jobs (d : Dev) (l : Nat) : (Dev.dropOut d l).jobs = d.jobs := by
  first
  | (unfold Dev.dropOut; simp only [dropLane_jobs, refreshLink_jobs, modLink_jobs]; done)
  | (unfold Dev.dropOut; with_reducible rfl)
  | (unfold Dev.dropOut; simp; done)
  | (unfold Dev.dropOut; (repeat' first | with_reducible rfl | (simp; done) | split); done)
  | (unfold Dev.dropOut; try dsimp only
     (repeat' first | with_reducible rfl | (simp; done) | (with_reducible refine (foldl_jobs _ ?_ _ _).trans ?_ <;> try intro _ _) | dsimp only | split); done)

@[simp] theorem transmit_dir (d : Dev) (l : Nat) (f : LFrame) : (Dev.transmit d l f).dir = d.dir := by
  first
  | (unfold Dev.transmit; simp only [emit_dir, modLink_dir]; done)
  | (unfold Dev.transmit; with_reducible rfl)
  | (unfold Dev.transmit; simp; done)
  | (unfold Dev.transmit; (repeat' first | with_reducible rfl | (simp; done) | split); done)
  | (unfold Dev.transmit; try dsimp only
     (repeat' first | with_reducible rfl | (simp; done) | (with_reducible refine (foldl_dir _ ?_ _ _).trans ?_ <;> try intro _ _) | dsimp only | split); done)

@[simp] theorem transmit_jobs (d : Dev) (l : Nat) (f : LFrame) : (Dev.transmit d l f).jobs = d.jobs := by
  first
  | (unfold Dev.transmit; simp only [emit_jobs, modLink_jobs]; done)
  | (unfold Dev.transmit; with_reducible rfl)
  | (unfold Dev.transmit; simp; done)
  | (unfold Dev.transmit; (repeat' first | with_reducible rfl | (simp; done) | split); done)
  | (unfold Dev.transmit; try dsimp only
     (repeat' first | with_reducible rfl | (simp; done) | (with_reducible refine (foldl_jobs _ ?_ _ _).trans ?_ <;> try intro _ _) | dsimp only | split); done)

@[simp] theorem drainFrames_dir (d : Dev) (l : Nat) : (Dev.drainFrames d l).dir = d.dir := by
  first
  | (unfold Dev.drainFrames; simp only [transmit_dir, modLink_dir]; done)
  | (unfold Dev.drainFrames; with_reducible rfl)
  | (unfold Dev.drainFrames; simp; done)
  | (unfold Dev.drainFrames; (repeat' first | with_reducible rfl | (simp; done) | split); done)
  | (unfold Dev.drainFrames; try dsimp only
     (repeat' first | with_reducible rfl | (simp; done) | (with_reducible refine (foldl_dir _ ?_ _ _).trans ?_ <;> try intro _ _) | dsimp only | split); done)

@[simp] theorem drainFrames_jobs (d : Dev) (l : Nat) : (Dev.drainFrames d l).jobs = d.jobs := by
  first
  | (unfold Dev.drainFrames; simp only [transmit_jobs, modLink_jobs]; done)
  | (unfold Dev.drainFrames; with_reducible rfl)
  | (unfold Dev.drainFrames; simp; done)
  | (unfold Dev.drainFrames; (repeat' first | with_reducible rfl | (simp; done) | split); done)
  | (unfold Dev.drainFrames; try dsimp only
     (repeat' first | with_reducible rfl | (simp; done) | (with_reducible refine (foldl_jobs _ ?_ _ _).trans ?_ <;> try intro _ _) | dsimp only | split); done)

@[simp] theorem sendFrame_dir (d : Dev) (l type cls dest : Nat) (payload : Bytes) (source : Option Nat) : (Dev.sendFrame d l type cls dest payload source).dir = d.dir := by
  first
  | (unfold Dev.sendFrame; simp only [dropOut_dir, drainFrames_dir, transmit_dir, modLink_dir, bump_dir]; done)
  | (unfold Dev.sendFrame; with_reducible rfl)
  | (unfold Dev.sendFrame; simp; done)
  | (unfold Dev.sendFrame; (repeat' first | with_reducible rfl | (simp; done) | split); done)
  | (unfold Dev.sendFrame; try dsimp only
     (repeat' first | with_reducible rfl | (simp; done) | (with_reducible refine (foldl_dir _ ?_ _ _).trans ?_ <;> try intro _ _) | dsimp only | split); done)

@[simp] theorem sendFrame_jobs (d : Dev) (l type cls dest : Nat) (payload : Bytes) (source : Option Nat) : (Dev.sendFrame d l type cls dest payload source).jobs = d.jobs := by
  first
  | (unfold Dev.sendFrame; simp only [dropOut_jobs, drainFrames_jobs, transmit_jobs, modLink_jobs, bump_jobs]; done)
  | (unfold Dev.sendFrame; with_reducible rfl)
  | (unfold Dev.sendFrame; simp; done)
  | (unfold Dev.sendFrame; (repeat' first | with_reducible rfl | (simp; done) | split); done)
  | (unfold Dev.sendFrame; try dsimp only
     (repeat' first | with_reducible rfl | (simp; done) | (with_reducible refine (foldl_jobs _ ?_ _ _).trans ?_ <;> try intro _ _) | dsimp only | split); done)

@[simp] theorem sendItem_net (d : Dev) (item index version : Nat) (b : Bytes) : (Dev.sendItem d item index version b).net = d.net := by
  first
  | (unfold Dev.sendItem; simp only [sendFrame_net]; done)
  | (unfold Dev.sendItem; with_reducible rfl)
  | (unfold Dev.sendItem; simp; done)
  | (unfold Dev.sendItem; (repeat' first | with_reducible rfl | (simp; done) | split); done)
  | (unfold Dev.sendItem; try dsimp only
     (repeat' first | with_reducible rfl | (simp; done) | (with_reducible refine (foldl_net _ ?_ _ _).trans ?_ <;> try intro _ _) | dsimp only | split); done)

@[simp] theorem copyItem_net (d : Dev) (item index : Nat) : (Dev.copyItem d item index).net = d.net := by
  first
  | (unfold Dev.copyItem; simp only [modTwin_net, sendItem_net]; done)
  | (unfold Dev.copyItem; with_reducible rfl)
  | (unfold Dev.copyItem; simp; done)
  | (unfold Dev.copyItem; (repeat' first | with_reducible rfl | (simp; done) | split); done)
  | (unfold Dev.copyItem; try dsimp only
     (repeat' first | with_reducible rfl | (simp; done) | (with_reducible refine (foldl_net _ ?_ _ _).trans ?_ <;> try intro _ _) | dsimp only | split); done)

@[simp] theorem clearJob_net (d : Dev) (j : Nat) : (Dev.clearJob d j).net = d.net := by
  first
  | (unfold Dev.clearJob; simp only [refreshAllProbing_net, copyItem_net, modJob_net]; done)
  | (unfold Dev.clearJob; with_reducible rfl)
  | (unfold Dev.clearJob; simp; done)
  | (unfold Dev.clearJob; (repeat' first | with_reducible rfl | (simp; done) | split); done)
  | (unfold Dev.clearJob; try dsimp only
     (repeat' first | with_reducible rfl | (simp; done) | (with_reducible refine (foldl_net _ ?_ _ _).trans ?_ <;> try intro _ _) | dsimp only | split); done)

@[simp] theorem openByCommand_net (d : Dev) (axes : List Nat) : (Dev.openByCommand d axes).net = d.net := by
  first
  | (unfold Dev.openByCommand; simp only [modAxis_net, setAxis_net, modHead_net]; done)
  | (unfold Dev.openByCommand; with_reducible rfl)
  | (unfold Dev.openByCommand; simp; done)
  | (unfold Dev.openByCommand; (repeat' first | with_reducible rfl | (simp; done) | split); done)
  | (unfold Dev.openByCommand; try dsimp only
     (repeat' first | with_reducible rfl | (simp; done) | (with_reducible refine (foldl_net _ ?_ _ _).trans ?_ <;> try intro _ _) | dsimp only | split); done)

@[simp] theorem coldSeedAxis_module (d : Dev) (a : Nat) (x : AState) : (Dev.coldSeedAxis d a x).module = d.module := by
  first
  | (unfold Dev.coldSeedAxis; simp only [setAxis_module, modAxis_module]; done)
  | (unfold Dev.coldSeedAxis; with_reducible rfl)
  | (unfold Dev.coldSeedAxis; simp; done)
  | (unfold Dev.coldSeedAxis; (repeat' first | with_reducible rfl | (simp; done) | split); done)
  | (unfold Dev.coldSeedAxis; try dsimp only
     (repeat' first | with_reducible rfl | (simp; done) | (with_reducible refine (foldl_module _ ?_ _ _).trans ?_ <;> try intro _ _) | dsimp only | split); done)

@[simp] theorem coldSeedAxis_net (d : Dev) (a : Nat) (x : AState) : (Dev.coldSeedAxis d a x).net = d.net := by
  first
  | (unfold Dev.coldSeedAxis; simp only [setAxis_net, modAxis_net]; done)
  | (unfold Dev.coldSeedAxis; with_reducible rfl)
  | (unfold Dev.coldSeedAxis; simp; done)
  | (unfold Dev.coldSeedAxis; (repeat' first | with_reducible rfl | (simp; done) | split); done)
  | (unfold Dev.coldSeedAxis; try dsimp only
     (repeat' first | with_reducible rfl | (simp; done) | (with_reducible refine (foldl_net _ ?_ _ _).trans ?_ <;> try intro _ _) | dsimp only | split); done)

@[simp] theorem coldSeedAxis_dir (d : Dev) (a : Nat) (x : AState) : (Dev.coldSeedAxis d a x).dir = d.dir := by
  first
  | (unfold Dev.coldSeedAxis; simp only [setAxis_dir, modAxis_dir]; done)
  | (unfold Dev.coldSeedAxis; with_reducible rfl)
  | (unfold Dev.coldSeedAxis; simp; done)
  | (unfold Dev.coldSeedAxis; (repeat' first | with_reducible rfl | (simp; done) | split); done)
  | (unfold Dev.coldSeedAxis; try dsimp only
     (repeat' first | with_reducible rfl | (simp; done) | (with_reducible refine (foldl_dir _ ?_ _ _).trans ?_ <;> try intro _ _) | dsimp only | split); done)

@[simp] theorem coldSeedAxis_jobs (d : Dev) (a : Nat) (x : AState) : (Dev.coldSeedAxis d a x).jobs = d.jobs := by
  first
  | (unfold Dev.coldSeedAxis; simp only [setAxis_jobs, modAxis_jobs]; done)
  | (unfold Dev.coldSeedAxis; with_reducible rfl)
  | (unfold Dev.coldSeedAxis; simp; done)
  | (unfold Dev.coldSeedAxis; (repeat' first | with_reducible rfl | (simp; done) | split); done)
  | (unfold Dev.coldSeedAxis; try dsimp only
     (repeat' first | with_reducible rfl | (simp; done) | (with_reducible refine (foldl_jobs _ ?_ _ _).trans ?_ <;> try intro _ _) | dsimp only | split); done)

@[simp] theorem coldSeedAxis_circuits (d : Dev) (a : Nat) (x : AState) : (Dev.coldSeedAxis d a x).circuits = d.circuits := by
  first
  | (unfold Dev.coldSeedAxis; simp only [setAxis_circuits, modAxis_circuits]; done)
  | (unfold Dev.coldSeedAxis; with_reducible rfl)
  | (unfold Dev.coldSeedAxis; simp; done)
  | (unfold Dev.coldSeedAxis; (repeat' first | with_reducible rfl | (simp; done) | split); done)
  | (unfold Dev.coldSeedAxis; try dsimp only
     (repeat' first | with_reducible rfl | (simp; done) | (with_reducible refine (foldl_circuits _ ?_ _ _).trans ?_ <;> try intro _ _) | dsimp only | split); done)

@[simp] theorem coldSeedAxis_runs (d : Dev) (a : Nat) (x : AState) : (Dev.coldSeedAxis d a x).runs = d.runs := by
  first
  | (unfold Dev.coldSeedAxis; simp only [setAxis_runs, modAxis_runs]; done)
  | (unfold Dev.coldSeedAxis; with_reducible rfl)
  | (unfold Dev.coldSeedAxis; simp; done)
  | (unfold Dev.coldSeedAxis; (repeat' first | with_reducible rfl | (simp; done) | split); done)
  | (unfold Dev.coldSeedAxis; try dsimp only
     (repeat' first | with_reducible rfl | (simp; done) | (with_reducible refine (foldl_runs _ ?_ _ _).trans ?_ <;> try intro _ _) | dsimp only | split); done)

@[simp] theorem coldSeedAxis_time (d : Dev) (a : Nat) (x : AState) : (Dev.coldSeedAxis d a x).time = d.time := by
  first
  | (unfold Dev.coldSeedAxis; simp only [setAxis_time, modAxis_time]; done)
  | (unfold Dev.coldSeedAxis; with_reducible rfl)
  | (unfold Dev.coldSeedAxis; simp; done)
  | (unfold Dev.coldSeedAxis; (repeat' first | with_reducible rfl | (simp; done) | split); done)
  | (unfold Dev.coldSeedAxis; try dsimp only
     (repeat' first | with_reducible rfl | (simp; done) | (with_reducible refine (foldl_time _ ?_ _ _).trans ?_ <;> try intro _ _) | dsimp only | split); done)

@[simp] theorem coldSeedAxis_rings (d : Dev) (a : Nat) (x : AState) : (Dev.coldSeedAxis d a x).rings = d.rings := by
  first
  | (unfold Dev.coldSeedAxis; simp only [setAxis_rings, modAxis_rings]; done)
  | (unfold Dev.coldSeedAxis; with_reducible rfl)
  | (unfold Dev.coldSeedAxis; simp; done)
  | (unfold Dev.coldSeedAxis; (repeat' first | with_reducible rfl | (simp; done) | split); done)
  | (unfold Dev.coldSeedAxis; try dsimp only
     (repeat' first | with_reducible rfl | (simp; done) | (with_reducible refine (foldl_rings _ ?_ _ _).trans ?_ <;> try intro _ _) | dsimp only | split); done)

@[simp] theorem coldSeedAxis_arr (d : Dev) (a : Nat) (x : AState) : (Dev.coldSeedAxis d a x).arr = d.arr := by
  first
  | (unfold Dev.coldSeedAxis; simp only [setAxis_arr, modAxis_arr]; done)
  | (unfold Dev.coldSeedAxis; with_reducible rfl)
  | (unfold Dev.coldSeedAxis; simp; done)
  | (unfold Dev.coldSeedAxis; (repeat' first | with_reducible rfl | (simp; done) | split); done)
  | (unfold Dev.coldSeedAxis; try dsimp only
     (repeat' first | with_reducible rfl | (simp; done) | (with_reducible refine (foldl_arr _ ?_ _ _).trans ?_ <;> try intro _ _) | dsimp only | split); done)

@[simp] theorem coldSeedAxis_opt (d : Dev) (a : Nat) (x : AState) : (Dev.coldSeedAxis d a x).opt = d.opt := by
  first
  | (unfold Dev.coldSeedAxis; simp only [setAxis_opt, modAxis_opt]; done)
  | (unfold Dev.coldSeedAxis; with_reducible rfl)
  | (unfold Dev.coldSeedAxis; simp; done)
  | (unfold Dev.coldSeedAxis; (repeat' first | with_reducible rfl | (simp; done) | split); done)
  | (unfold Dev.coldSeedAxis; try dsimp only
     (repeat' first | with_reducible rfl | (simp; done) | (with_reducible refine (foldl_opt _ ?_ _ _).trans ?_ <;> try intro _ _) | dsimp only | split); done)

@[simp] theorem coldSeedAxis_disc (d : Dev) (a : Nat) (x : AState) : (Dev.coldSeedAxis d a x).disc = d.disc := by
  first
  | (unfold Dev.coldSeedAxis; simp only [setAxis_disc, modAxis_disc]; done)
  | (unfold Dev.coldSeedAxis; with_reducible rfl)
  | (unfold Dev.coldSeedAxis; simp; done)
  | (unfold Dev.coldSeedAxis; (repeat' first | with_reducible rfl | (simp; done) | split); done)
  | (unfold Dev.coldSeedAxis; try dsimp only
     (repeat' first | with_reducible rfl | (simp; done) | (with_reducible refine (foldl_disc _ ?_ _ _).trans ?_ <;> try intro _ _) | dsimp only | split); done)

@[simp] theorem coldSeedAxis_coll (d : Dev) (a : Nat) (x : AState) : (Dev.coldSeedAxis d a x).coll = d.coll := by
  first
  | (unfold Dev.coldSeedAxis; simp only [setAxis_coll, modAxis_coll]; done)
  | (unfold Dev.coldSeedAxis; with_reducible rfl)
  | (unfold Dev.coldSeedAxis; simp; done)
  | (unfold Dev.coldSeedAxis; (repeat' first | with_reducible rfl | (simp; done) | split); done)
  | (unfold Dev.coldSeedAxis; try dsimp only
     (repeat' first | with_reducible rfl | (simp; done) | (with_reducible refine (foldl_coll _ ?_ _ _).trans ?_ <;> try intro _ _) | dsimp only | split); done)

@[simp] theorem coldSeedAxis_mem (d : Dev) (a : Nat) (x : AState) : (Dev.coldSeedAxis d a x).mem = d.mem := by
  first
  | (unfold Dev.coldSeedAxis; simp only [setAxis_mem, modAxis_mem]; done)
  | (unfold Dev.coldSeedAxis; with_reducible rfl)
  | (unfold Dev.coldSeedAxis; simp; done)
  | (unfold Dev.coldSeedAxis; (repeat' first | with_reducible rfl | (simp; done) | split); done)
  | (unfold Dev.coldSeedAxis; try dsimp only
     (repeat' first | with_reducible rfl | (simp; done) | (with_reducible refine (foldl_mem _ ?_ _ _).trans ?_ <;> try intro _ _) | dsimp only | split); done)

@[simp] theorem coldSeedAxis_faults (d : Dev) (a : Nat) (x : AState) : (Dev.coldSeedAxis d a x).faults = d.faults := by
  first
  | (unfold Dev.coldSeedAxis; simp only [setAxis_faults, modAxis_faults]; done)
  | (unfold Dev.coldSeedAxis; with_reducible rfl)
  | (unfold Dev.coldSeedAxis; simp; done)
  | (unfold Dev.coldSeedAxis; (repeat' first | with_reducible rfl | (simp; done) | split); done)
  | (unfold Dev.coldSeedAxis; try dsimp only
     (repeat' first | with_reducible rfl | (simp; done) | (with_reducible refine (foldl_faults _ ?_ _ _).trans ?_ <;> try intro _ _) | dsimp only | split); done)

@[simp] theorem coldSeedAxis_twin (d : Dev) (a : Nat) (x : AState) : (Dev.coldSeedAxis d a x).twin = d.twin := by
  first
  | (unfold Dev.coldSeedAxis; simp only [setAxis_twin, modAxis_twin]; done)
  | (unfold Dev.coldSeedAxis; with_reducible rfl)
  | (unfold Dev.coldSeedAxis; simp; done)
  | (unfold Dev.coldSeedAxis; (repeat' first | with_reducible rfl | (simp; done) | split); done)
  | (unfold Dev.coldSeedAxis; try dsimp only
     (repeat' first | with_reducible rfl | (simp; done) | (with_reducible refine (foldl_twin _ ?_ _ _).trans ?_ <;> try intro _ _) | dsimp only | split); done)

@[simp] theorem coldSeedAxis_power (d : Dev) (a : Nat) (x : AState) : (Dev.coldSeedAxis d a x).power = d.power := by
  first
  | (unfold Dev.coldSeedAxis; simp only [setAxis_power, modAxis_power]; done)
  | (unfold Dev.coldSeedAxis; with_reducible rfl)
  | (unfold Dev.coldSeedAxis; simp; done)
  | (unfold Dev.coldSeedAxis; (repeat' first | with_reducible rfl | (simp; done) | split); done)
  | (unfold Dev.coldSeedAxis; try dsimp only
     (repeat' first | with_reducible rfl | (simp; done) | (with_reducible refine (foldl_power _ ?_ _ _).trans ?_ <;> try intro _ _) | dsimp only | split); done)

@[simp] theorem coldSeedAxis_upd (d : Dev) (a : Nat) (x : AState) : (Dev.coldSeedAxis d a x).upd = d.upd := by
  first
  | (unfold Dev.coldSeedAxis; simp only [setAxis_upd, modAxis_upd]; done)
  | (unfold Dev.coldSeedAxis; with_reducible rfl)
  | (unfold Dev.coldSeedAxis; simp; done)
  | (unfold Dev.coldSeedAxis; (repeat' first | with_reducible rfl | (simp; done) | split); done)
  | (unfold Dev.coldSeedAxis; try dsimp only
     (repeat' first | with_reducible rfl | (simp; done) | (with_reducible refine (foldl_upd _ ?_ _ _).trans ?_ <;> try intro _ _) | dsimp only | split); done)

@[simp] theorem coldSeedAxis_recr (d : Dev) (a : Nat) (x : AState) : (Dev.coldSeedAxis d a x).recr = d.recr := by
  first
  | (unfold Dev.coldSeedAxis; simp only [setAxis_recr, modAxis_recr]; done)
  | (unfold Dev.coldSeedAxis; with_reducible rfl)
  | (unfold Dev.coldSeedAxis; simp; done)
  | (unfold Dev.coldSeedAxis; (repeat' first | with_reducible rfl | (simp; done) | split); done)
  | (unfold Dev.coldSeedAxis; try dsimp only
     (repeat' first | with_reducible rfl | (simp; done) | (with_reducible refine (foldl_recr _ ?_ _ _).trans ?_ <;> try intro _ _) | dsimp only | split); done)

@[simp] theorem coldSeedAxis_od (d : Dev) (a : Nat) (x : AState) : (Dev.coldSeedAxis d a x).od = d.od := by
  first
  | (unfold Dev.coldSeedAxis; simp only [setAxis_od, modAxis_od]; done)
  | (unfold Dev.coldSeedAxis; with_reducible rfl)
  | (unfold Dev.coldSeedAxis; simp; done)
  | (unfold Dev.coldSeedAxis; (repeat' first | with_reducible rfl | (simp; done) | split); done)
  | (unfold Dev.coldSeedAxis; try dsimp only
     (repeat' first | with_reducible rfl | (simp; done) | (with_reducible refine (foldl_od _ ?_ _ _).trans ?_ <;> try intro _ _) | dsimp only | split); done)

@[simp] theorem coldSeedAxis_ob (d : Dev) (a : Nat) (x : AState) : (Dev.coldSeedAxis d a x).ob = d.ob := by
  first
  | (unfold Dev.coldSeedAxis; simp only [setAxis_ob, modAxis_ob]; done)
  | (unfold Dev.coldSeedAxis; with_reducible rfl)
  | (unfold Dev.coldSeedAxis; simp; done)
  | (unfold Dev.coldSeedAxis; (repeat' first | with_reducible rfl | (simp; done) | split); done)
  | (unfold Dev.coldSeedAxis; try dsimp only
     (repeat' first | with_reducible rfl | (simp; done) | (with_reducible refine (foldl_ob _ ?_ _ _).trans ?_ <;> try intro _ _) | dsimp only | split); done)

@[simp] theorem coldSeedAxis_out (d : Dev) (a : Nat) (x : AState) : (Dev.coldSeedAxis d a x).out = d.out := by
  first
  | (unfold Dev.coldSeedAxis; simp only [setAxis_out, modAxis_out]; done)
  | (unfold Dev.coldSeedAxis; with_reducible rfl)
  | (unfold Dev.coldSeedAxis; simp; done)
  | (unfold Dev.coldSeedAxis; (repeat' first | with_reducible rfl | (simp; done) | split); done)
  | (unfold Dev.coldSeedAxis; try dsimp only
     (repeat' first | with_reducible rfl | (simp; done) | (with_reducible refine (foldl_out _ ?_ _ _).trans ?_ <;> try intro _ _) | dsimp only | split); done)

@[simp] theorem coldSeedAxis_fresh (d : Dev) (a : Nat) (x : AState) : (Dev.coldSeedAxis d a x).fresh = d.fresh := by
  first
  | (unfold Dev.coldSeedAxis; simp only [setAxis_fresh, modAxis_fresh]; done)
  | (unfold Dev.coldSeedAxis; with_reducible rfl)
  | (unfold Dev.coldSeedAxis; simp; done)
  | (unfold Dev.coldSeedAxis; (repeat' first | with_reducible rfl | (simp; done) | split); done)
  | (unfold Dev.coldSeedAxis; try dsimp only
     (repeat' first | with_reducible rfl | (simp; done) | (with_reducible refine (foldl_fresh _ ?_ _ _).trans ?_ <;> try intro _ _) | dsimp only | split); done)

@[simp] theorem closeWhere_net (d : Dev) (h : Nat) (sel : Axis → Bool) : (Dev.closeWhere d h sel).net = d.net := by
  first
  | (unfold Dev.closeWhere; with_reducible rfl)
  | (unfold Dev.closeWhere; simp; done)
  | (unfold Dev.closeWhere; (repeat' first | with_reducible rfl | (simp; done) | split); done)
  | (unfold Dev.closeWhere; try dsimp only
     (repeat' first | with_reducible rfl | (simp; done) | (with_reducible refine (foldl_net _ ?_ _ _).trans ?_ <;> try intro _ _) | dsimp only | split); done)

@[simp] theorem closeOpen_net (d : Dev) (h : Nat) : (Dev.closeOpen d h).net = d.net := by
  first
  | (unfold Dev.closeOpen; simp only [coldSeedAxis_net, modHead_net]; done)
  | (unfold Dev.closeOpen; with_reducible rfl)
  | (unfold Dev.closeOpen; simp; done)
  | (unfold Dev.closeOpen; (repeat' first | with_reducible rfl | (simp; done) | split); done)
  | (unfold Dev.closeOpen; try dsimp only
     (repeat' first | with_reducible rfl | (simp; done) | (with_reducible refine (foldl_net _ ?_ _ _).trans ?_ <;> try intro _ _) | dsimp only | split); done)

@[simp] theorem startTune_net (d : Dev) (a : Nat) : (Dev.startTune d a).net = d.net := by
  first
  | (unfold Dev.startTune; simp only [setAxis_net, setOct_net]; done)
  | (unfold Dev.startTune; with_reducible rfl)
  | (unfold Dev.startTune; simp; done)
  | (unfold Dev.startTune; (repeat' first | with_reducible rfl | (simp; done) | split); done)
  | (unfold Dev.startTune; try dsimp only
     (repeat' first | with_reducible rfl | (simp; done) | (with_reducible refine (foldl_net _ ?_ _ _).trans ?_ <;> try intro _ _) | dsimp only | split); done)

@[simp] theorem endTune_net (d : Dev) (a : Nat) (result : Bytes) : (Dev.endTune d a result).net = d.net := by
  first
  | (unfold Dev.endTune; simp only [setOct_net]; done)
  | (unfold Dev.endTune; with_reducible rfl)
  | (unfold Dev.endTune; simp; done)
  | (unfold Dev.endTune; (repeat' first | with_reducible rfl | (simp; done) | split); done)
  | (unfold Dev.endTune; try dsimp only
     (repeat' first | with_reducible rfl | (simp; done) | (with_reducible refine (foldl_net _ ?_ _ _).trans ?_ <;> try intro _ _) | dsimp only | split); done)

@[simp] theorem abortTune_net (d : Dev) (a : Nat) : (Dev.abortTune d a).net = d.net := by
  first
  | (unfold Dev.abortTune; simp only [endTune_net]; done)
  | (unfold Dev.abortTune; with_reducible rfl)
  | (unfold Dev.abortTune; simp; done)
  | (unfold Dev.abortTune; (repeat' first | with_reducible rfl | (simp; done) | split); done)
  | (unfold Dev.abortTune; try dsimp only
     (repeat' first | with_reducible rfl | (simp; done) | (with_reducible refine (foldl_net _ ?_ _ _).trans ?_ <;> try intro _ _) | dsimp only | split); done)

@[simp] theorem openAxis_net (d : Dev) (a : Nat) : (Dev.openAxis d a).net = d.net := by
  first
  | (unfold Dev.openAxis; simp only [abortTune_net, setAxis_net, modAxis_net]; done)
  | (unfold Dev.openAxis; with_reducible rfl)
  | (unfold Dev.openAxis; simp; done)
  | (unfold Dev.openAxis; (repeat' first | with_reducible rfl | (simp; done) | split); done)
  | (unfold Dev.openAxis; try dsimp only
     (repeat' first | with_reducible rfl | (simp; done) | (with_reducible refine (foldl_net _ ?_ _ _).trans ?_ <;> try intro _ _) | dsimp only | split); done)

@[simp] theorem openAxes_net (d : Dev) (sel : Nat → Bool) : (Dev.openAxes d sel).net = d.net := by
  first
  | (unfold Dev.openAxes; simp only [openAxis_net]; done)
  | (unfold Dev.openAxes; with_reducible rfl)
  | (unfold Dev.openAxes; simp; done)
  | (unfold Dev.openAxes; (repeat' first | with_reducible rfl | (simp; done) | split); done)
  | (unfold Dev.openAxes; try dsimp only
     (repeat' first | with_reducible rfl | (simp; done) | (with_reducible refine (foldl_net _ ?_ _ _).trans ?_ <;> try intro _ _) | dsimp only | split); done)

@[simp] theorem setBoard_net (d : Dev) (b : Nat) (x : BState) : (Dev.setBoard d b x).net = d.net := by
  first
  | (unfold Dev.setBoard; simp only [modBoard_net]; done)
  | (unfold Dev.setBoard; with_reducible rfl)
  | (unfold Dev.setBoard; simp; done)
  | (unfold Dev.setBoard; (repeat' first | with_reducible rfl | (simp; done) | split); done)
  | (unfold Dev.setBoard; try dsimp only
     (repeat' first | with_reducible rfl | (simp; done) | (with_reducible refine (foldl_net _ ?_ _ _).trans ?_ <;> try intro _ _) | dsimp only | split); done)

@[simp] theorem sendBoard_net (d : Dev) (b : Nat) (hold : Bool) (outs : List (Nat × Int)) : (Dev.sendBoard d b hold outs).net = d.net := by
  first
  | (unfold Dev.sendBoard; simp only [emit_net, modBoard_net]; done)
  | (unfold Dev.sendBoard; with_reducible rfl)
  | (unfold Dev.sendBoard; simp; done)
  | (unfold Dev.sendBoard; (repeat' first | with_reducible rfl | (simp; done) | split); done)
  | (unfold Dev.sendBoard; try dsimp only
     (repeat' first | with_reducible rfl | (simp; done) | (with_reducible refine (foldl_net _ ?_ _ _).trans ?_ <;> try intro _ _) | dsimp only | split); done)

@[simp] theorem drainBoard_net (d : Dev) (b : Nat) : (Dev.drainBoard d b).net = d.net := by
  first
  | (unfold Dev.drainBoard; simp only [openAxes_net, modBoard_net, setBoard_net, sendBoard_net]; done)
  | (unfold Dev.drainBoard; with_reducible rfl)
  | (unfold Dev.drainBoard; simp; done)
  | (unfold Dev.drainBoard; (repeat' first | with_reducible rfl | (simp; done) | split); done)
  | (unfold Dev.drainBoard; try dsimp only
     (repeat' first | with_reducible rfl | (simp; done) | (with_reducible refine (foldl_net _ ?_ _ _).trans ?_ <;> try intro _ _) | dsimp only | split); done)

@[simp] theorem acknowledge_module (d : Dev) (seq : Nat) : (Dev.acknowledge d seq).module = d.module := by
  first
  | (unfold Dev.acknowledge; with_reducible rfl)
  | (unfold Dev.acknowledge; simp; done)
  | (unfold Dev.acknowledge; (repeat' first | with_reducible rfl | (simp; done) | split); done)
  | (unfold Dev.acknowledge; try dsimp only
     (repeat' first | with_reducible rfl | (simp; done) | (with_reducible refine (foldl_module _ ?_ _ _).trans ?_ <;> try intro _ _) | dsimp only | split); done)

@[simp] theorem acknowledge_net (d : Dev) (seq : Nat) : (Dev.acknowledge d seq).net = d.net := by
  first
  | (unfold Dev.acknowledge; with_reducible rfl)
  | (unfold Dev.acknowledge; simp; done)
  | (unfold Dev.acknowledge; (repeat' first | with_reducible rfl | (simp; done) | split); done)
  | (unfold Dev.acknowledge; try dsimp only
     (repeat' first | with_reducible rfl | (simp; done) | (with_reducible refine (foldl_net _ ?_ _ _).trans ?_ <;> try intro _ _) | dsimp only | split); done)

@[simp] theorem acknowledge_dir (d : Dev) (seq : Nat) : (Dev.acknowledge d seq).dir = d.dir := by
  first
  | (unfold Dev.acknowledge; with_reducible rfl)
  | (unfold Dev.acknowledge; simp; done)
  | (unfold Dev.acknowledge; (repeat' first | with_reducible rfl | (simp; done) | split); done)
  | (unfold Dev.acknowledge; try dsimp only
     (repeat' first | with_reducible rfl | (simp; done) | (with_reducible refine (foldl_dir _ ?_ _ _).trans ?_ <;> try intro _ _) | dsimp only | split); done)

@[simp] theorem acknowledge_jobs (d : Dev) (seq : Nat) : (Dev.acknowledge d seq).jobs = d.jobs := by
  first
  | (unfold Dev.acknowledge; with_reducible rfl)
  | (unfold Dev.acknowledge; simp; done)
  | (unfold Dev.acknowledge; (repeat' first | with_reducible rfl | (simp; done) | split); done)
  | (unfold Dev.acknowledge; try dsimp only
     (repeat' first | with_reducible rfl | (simp; done) | (with_reducible refine (foldl_jobs _ ?_ _ _).trans ?_ <;> try intro _ _) | dsimp only | split); done)

@[simp] theorem acknowledge_circuits (d : Dev) (seq : Nat) : (Dev.acknowledge d seq).circuits = d.circuits := by
  first
  | (unfold Dev.acknowledge; with_reducible rfl)
  | (unfold Dev.acknowledge; simp; done)
  | (unfold Dev.acknowledge; (repeat' first | with_reducible rfl | (simp; done) | split); done)
  | (unfold Dev.acknowledge; try dsimp only
     (repeat' first | with_reducible rfl | (simp; done) | (with_reducible refine (foldl_circuits _ ?_ _ _).trans ?_ <;> try intro _ _) | dsimp only | split); done)

@[simp] theorem acknowledge_runs (d : Dev) (seq : Nat) : (Dev.acknowledge d seq).runs = d.runs := by
  first
  | (unfold Dev.acknowledge; with_reducible rfl)
  | (unfold Dev.acknowledge; simp; done)
  | (unfold Dev.acknowledge; (repeat' first | with_reducible rfl | (simp; done) | split); done)
  | (unfold Dev.acknowledge; try dsimp only
     (repeat' first | with_reducible rfl | (simp; done) | (with_reducible refine (foldl_runs _ ?_ _ _).trans ?_ <;> try intro _ _) | dsimp only | split); done)

@[simp] theorem acknowledge_time (d : Dev) (seq : Nat) : (Dev.acknowledge d seq).time = d.time := by
  first
  | (unfold Dev.acknowledge; with_reducible rfl)
  | (unfold Dev.acknowledge; simp; done)
  | (unfold Dev.acknowledge; (repeat' first | with_reducible rfl | (simp; done) | split); done)
  | (unfold Dev.acknowledge; try dsimp only
     (repeat' first | with_reducible rfl | (simp; done) | (with_reducible refine (foldl_time _ ?_ _ _).trans ?_ <;> try intro _ _) | dsimp only | split); done)

@[simp] theorem acknowledge_eng (d : Dev) (seq : Nat) : (Dev.acknowledge d seq).eng = d.eng := by
  first
  | (unfold Dev.acknowledge; with_reducible rfl)
  | (unfold Dev.acknowledge; simp; done)
  | (unfold Dev.acknowledge; (repeat' first | with_reducible rfl | (simp; done) | split); done)
  | (unfold Dev.acknowledge; try dsimp only
     (repeat' first | with_reducible rfl | (simp; done) | (with_reducible refine (foldl_eng _ ?_ _ _).trans ?_ <;> try intro _ _) | dsimp only | split); done)

@[simp] theorem acknowledge_rings (d : Dev) (seq : Nat) : (Dev.acknowledge d seq).rings = d.rings := by
  first
  | (unfold Dev.acknowledge; with_reducible rfl)
  | (unfold Dev.acknowledge; simp; done)
  | (unfold Dev.acknowledge; (repeat' first | with_reducible rfl | (simp; done) | split); done)
  | (unfold Dev.acknowledge; try dsimp only
     (repeat' first | with_reducible rfl | (simp; done) | (with_reducible refine (foldl_rings _ ?_ _ _).trans ?_ <;> try intro _ _) | dsimp only | split); done)

@[simp] theorem acknowledge_arr (d : Dev) (seq : Nat) : (Dev.acknowledge d seq).arr = d.arr := by
  first
  | (unfold Dev.acknowledge; with_reducible rfl)
  | (unfold Dev.acknowledge; simp; done)
  | (unfold Dev.acknowledge; (repeat' first | with_reducible rfl | (simp; done) | split); done)
  | (unfold Dev.acknowledge; try dsimp only
     (repeat' first | with_reducible rfl | (simp; done) | (with_reducible refine (foldl_arr _ ?_ _ _).trans ?_ <;> try intro _ _) | dsimp only | split); done)

@[simp] theorem acknowledge_opt (d : Dev) (seq : Nat) : (Dev.acknowledge d seq).opt = d.opt := by
  first
  | (unfold Dev.acknowledge; with_reducible rfl)
  | (unfold Dev.acknowledge; simp; done)
  | (unfold Dev.acknowledge; (repeat' first | with_reducible rfl | (simp; done) | split); done)
  | (unfold Dev.acknowledge; try dsimp only
     (repeat' first | with_reducible rfl | (simp; done) | (with_reducible refine (foldl_opt _ ?_ _ _).trans ?_ <;> try intro _ _) | dsimp only | split); done)

@[simp] theorem acknowledge_disc (d : Dev) (seq : Nat) : (Dev.acknowledge d seq).disc = d.disc := by
  first
  | (unfold Dev.acknowledge; with_reducible rfl)
  | (unfold Dev.acknowledge; simp; done)
  | (unfold Dev.acknowledge; (repeat' first | with_reducible rfl | (simp; done) | split); done)
  | (unfold Dev.acknowledge; try dsimp only
     (repeat' first | with_reducible rfl | (simp; done) | (with_reducible refine (foldl_disc _ ?_ _ _).trans ?_ <;> try intro _ _) | dsimp only | split); done)

@[simp] theorem acknowledge_coll (d : Dev) (seq : Nat) : (Dev.acknowledge d seq).coll = d.coll := by
  first
  | (unfold Dev.acknowledge; with_reducible rfl)
  | (unfold Dev.acknowledge; simp; done)
  | (unfold Dev.acknowledge; (repeat' first | with_reducible rfl | (simp; done) | split); done)
  | (unfold Dev.acknowledge; try dsimp only
     (repeat' first | with_reducible rfl | (simp; done) | (with_reducible refine (foldl_coll _ ?_ _ _).trans ?_ <;> try intro _ _) | dsimp only | split); done)

@[simp] theorem acknowledge_mem (d : Dev) (seq : Nat) : (Dev.acknowledge d seq).mem = d.mem := by
  first
  | (unfold Dev.acknowledge; with_reducible rfl)
  | (unfold Dev.acknowledge; simp; done)
  | (unfold Dev.acknowledge; (repeat' first | with_reducible rfl | (simp; done) | split); done)
  | (unfold Dev.acknowledge; try dsimp only
     (repeat' first | with_reducible rfl | (simp; done) | (with_reducible refine (foldl_mem _ ?_ _ _).trans ?_ <;> try intro _ _) | dsimp only | split); done)

@[simp] theorem acknowledge_twin (d : Dev) (seq : Nat) : (Dev.acknowledge d seq).twin = d.twin := by
  first
  | (unfold Dev.acknowledge; with_reducible rfl)
  | (unfold Dev.acknowledge; simp; done)
  | (unfold Dev.acknowledge; (repeat' first | with_reducible rfl | (simp; done) | split); done)
  | (unfold Dev.acknowledge; try dsimp only
     (repeat' first | with_reducible rfl | (simp; done) | (with_reducible refine (foldl_twin _ ?_ _ _).trans ?_ <;> try intro _ _) | dsimp only | split); done)

@[simp] theorem acknowledge_power (d : Dev) (seq : Nat) : (Dev.acknowledge d seq).power = d.power := by
  first
  | (unfold Dev.acknowledge; with_reducible rfl)
  | (unfold Dev.acknowledge; simp; done)
  | (unfold Dev.acknowledge; (repeat' first | with_reducible rfl | (simp; done) | split); done)
  | (unfold Dev.acknowledge; try dsimp only
     (repeat' first | with_reducible rfl | (simp; done) | (with_reducible refine (foldl_power _ ?_ _ _).trans ?_ <;> try intro _ _) | dsimp only | split); done)

@[simp] theorem acknowledge_upd (d : Dev) (seq : Nat) : (Dev.acknowledge d seq).upd = d.upd := by
  first
  | (unfold Dev.acknowledge; with_reducible rfl)
  | (unfold Dev.acknowledge; simp; done)
  | (unfold Dev.acknowledge; (repeat' first | with_reducible rfl | (simp; done) | split); done)
  | (unfold Dev.acknowledge; try dsimp only
     (repeat' first | with_reducible rfl | (simp; done) | (with_reducible refine (foldl_upd _ ?_ _ _).trans ?_ <;> try intro _ _) | dsimp only | split); done)

@[simp] theorem acknowledge_recr (d : Dev) (seq : Nat) : (Dev.acknowledge d seq).recr = d.recr := by
  first
  | (unfold Dev.acknowledge; with_reducible rfl)
  | (unfold Dev.acknowledge; simp; done)
  | (unfold Dev.acknowledge; (repeat' first | with_reducible rfl | (simp; done) | split); done)
  | (unfold Dev.acknowledge; try dsimp only
     (repeat' first | with_reducible rfl | (simp; done) | (with_reducible refine (foldl_recr _ ?_ _ _).trans ?_ <;> try intro _ _) | dsimp only | split); done)

@[simp] theorem acknowledge_od (d : Dev) (seq : Nat) : (Dev.acknowledge d seq).od = d.od := by
  first
  | (unfold Dev.acknowledge; with_reducible rfl)
  | (unfold Dev.acknowledge; simp; done)
  | (unfold Dev.acknowledge; (repeat' first | with_reducible rfl | (simp; done) | split); done)
  | (unfold Dev.acknowledge; try dsimp only
     (repeat' first | with_reducible rfl | (simp; done) | (with_reducible refine (foldl_od _ ?_ _ _).trans ?_ <;> try intro _ _) | dsimp only | split); done)

@[simp] theorem acknowledge_ob (d : Dev) (seq : Nat) : (Dev.acknowledge d seq).ob = d.ob := by
  first
  | (unfold Dev.acknowledge; with_reducible rfl)
  | (unfold Dev.acknowledge; simp; done)
  | (unfold Dev.acknowledge; (repeat' first | with_reducible rfl | (simp; done) | split); done)
  | (unfold Dev.acknowledge; try dsimp only
     (repeat' first | with_reducible rfl | (simp; done) | (with_reducible refine (foldl_ob _ ?_ _ _).trans ?_ <;> try intro _ _) | dsimp only | split); done)

@[simp] theorem acknowledge_out (d : Dev) (seq : Nat) : (Dev.acknowledge d seq).out = d.out := by
  first
  | (unfold Dev.acknowledge; with_reducible rfl)
  | (unfold Dev.acknowledge; simp; done)
  | (unfold Dev.acknowledge; (repeat' first | with_reducible rfl | (simp; done) | split); done)
  | (unfold Dev.acknowledge; try dsimp only
     (repeat' first | with_reducible rfl | (simp; done) | (with_reducible refine (foldl_out _ ?_ _ _).trans ?_ <;> try intro _ _) | dsimp only | split); done)

@[simp] theorem acknowledge_fresh (d : Dev) (seq : Nat) : (Dev.acknowledge d seq).fresh = d.fresh := by
  first
  | (unfold Dev.acknowledge; with_reducible rfl)
  | (unfold Dev.acknowledge; simp; done)
  | (unfold Dev.acknowledge; (repeat' first | with_reducible rfl | (simp; done) | split); done)
  | (unfold Dev.acknowledge; try dsimp only
     (repeat' first | with_reducible rfl | (simp; done) | (with_reducible refine (foldl_fresh _ ?_ _ _).trans ?_ <;> try intro _ _) | dsimp only | split); done)

@[simp] theorem unlatchJob_net (d : Dev) (j : Nat) : (Dev.unlatchJob d j).net = d.net := by
  first
  | (unfold Dev.unlatchJob; with_reducible rfl)
  | (unfold Dev.unlatchJob; simp; done)
  | (unfold Dev.unlatchJob; (repeat' first | with_reducible rfl | (simp; done) | split); done)
  | (unfold Dev.unlatchJob; try dsimp only
     (repeat' first | with_reducible rfl | (simp; done) | (with_reducible refine (foldl_net _ ?_ _ _).trans ?_ <;> try intro _ _) | dsimp only | split); done)

@[simp] theorem modRestart_net (d : Dev) (j : Nat) (f : Restart → Restart) : (Dev.modRestart d j f).net = d.net := by
  first
  | (unfold Dev.modRestart; with_reducible rfl)
  | (unfold Dev.modRestart; simp; done)
  | (unfold Dev.modRestart; (repeat' first | with_reducible rfl | (simp; done) | split); done)
  | (unfold Dev.modRestart; try dsimp only
     (repeat' first | with_reducible rfl | (simp; done) | (with_reducible refine (foldl_net _ ?_ _ _).trans ?_ <;> try intro _ _) | dsimp only | split); done)

@[simp] theorem armStrobe_jobs (d : Dev) (s : Strobe) : (Dev.armStrobe d s).1.jobs = d.jobs := by
  first
  | (unfold Dev.armStrobe; simp only [bump_jobs]; done)
  | (unfold Dev.armStrobe; with_reducible rfl)
  | (unfold Dev.armStrobe; simp; done)
  | (unfold Dev.armStrobe; (repeat' first | with_reducible rfl | (simp; done) | split); done)
  | (unfold Dev.armStrobe; try dsimp only
     (repeat' first | with_reducible rfl | (simp; done) | (with_reducible refine (foldl_jobs _ ?_ _ _).trans ?_ <;> try intro _ _) | dsimp only | split); done)

@[simp] theorem sendTuner_jobs (d : Dev) (q bank : Nat) (ws : List TWrite) : (Dev.sendTuner d q bank ws).jobs = d.jobs := by
  first
  | (unfold Dev.sendTuner; simp only [emit_jobs]; done)
  | (unfold Dev.sendTuner; with_reducible rfl)
  | (unfold Dev.sendTuner; simp; done)
  | (unfold Dev.sendTuner; (repeat' first | with_reducible rfl | (simp; done) | split); done)
  | (unfold Dev.sendTuner; try dsimp only
     (repeat' first | with_reducible rfl | (simp; done) | (with_reducible refine (foldl_jobs _ ?_ _ _).trans ?_ <;> try intro _ _) | dsimp only | split); done)

@[simp] theorem stageWrites_jobs (d : Dev) (bank : Nat) (ws : List TWrite) : (Dev.stageWrites d bank ws).jobs = d.jobs := by
  first
  | (unfold Dev.stageWrites; simp only [sendTuner_jobs]; done)
  | (unfold Dev.stageWrites; with_reducible rfl)
  | (unfold Dev.stageWrites; simp; done)
  | (unfold Dev.stageWrites; (repeat' first | with_reducible rfl | (simp; done) | split); done)
  | (unfold Dev.stageWrites; try dsimp only
     (repeat' first | with_reducible rfl | (simp; done) | (with_reducible refine (foldl_jobs _ ?_ _ _).trans ?_ <;> try intro _ _) | dsimp only | split); done)

@[simp] theorem armRelease_net (d : Dev) (j z : Nat) : (Dev.armRelease d j z).net = d.net := by
  first
  | (unfold Dev.armRelease; simp only [armStrobe_net, stageWrites_net]; done)
  | (unfold Dev.armRelease; with_reducible rfl)
  | (unfold Dev.armRelease; simp; done)
  | (unfold Dev.armRelease; (repeat' first | with_reducible rfl | (simp; done) | split); done)
  | (unfold Dev.armRelease; try dsimp only
     (repeat' first | with_reducible rfl | (simp; done) | (with_reducible refine (foldl_net _ ?_ _ _).trans ?_ <;> try intro _ _) | dsimp only | split); done)

@[simp] theorem takeOrder_net (d : Dev) (j : Nat) (b : Bytes) : (Dev.takeOrder d j b).net = d.net := by
  first
  | (unfold Dev.takeOrder; simp only [unlatchJob_net, stopJob_net, modRestart_net, armRelease_net]; done)
  | (unfold Dev.takeOrder; with_reducible rfl)
  | (unfold Dev.takeOrder; simp; done)
  | (unfold Dev.takeOrder; (repeat' first | with_reducible rfl | (simp; done) | split); done)
  | (unfold Dev.takeOrder; try dsimp only
     (repeat' first | with_reducible rfl | (simp; done) | (with_reducible refine (foldl_net _ ?_ _ _).trans ?_ <;> try intro _ _) | dsimp only | split); done)

@[simp] theorem updateResult_net (d : Dev) (n : Nat) : (Dev.updateResult d n).net = d.net := by
  first
  | (unfold Dev.updateResult; simp only [setNum_net]; done)
  | (unfold Dev.updateResult; with_reducible rfl)
  | (unfold Dev.updateResult; simp; done)
  | (unfold Dev.updateResult; (repeat' first | with_reducible rfl | (simp; done) | split); done)
  | (unfold Dev.updateResult; try dsimp only
     (repeat' first | with_reducible rfl | (simp; done) | (with_reducible refine (foldl_net _ ?_ _ _).trans ?_ <;> try intro _ _) | dsimp only | split); done)

@[simp] theorem updateResult_upd (d : Dev) (n : Nat) : (Dev.updateResult d n).upd = d.upd := by
  first
  | (unfold Dev.updateResult; simp only [setNum_upd]; done)
  | (unfold Dev.updateResult; with_reducible rfl)
  | (unfold Dev.updateResult; simp; done)
  | (unfold Dev.updateResult; (repeat' first | with_reducible rfl | (simp; done) | split); done)
  | (unfold Dev.updateResult; try dsimp only
     (repeat' first | with_reducible rfl | (simp; done) | (with_reducible refine (foldl_upd _ ?_ _ _).trans ?_ <;> try intro _ _) | dsimp only | split); done)

@[simp] theorem activate_net (d : Dev) : (Dev.activate d).net = d.net := by
  first
  | (unfold Dev.activate; simp only [updateResult_net]; done)
  | (unfold Dev.activate; with_reducible rfl)
  | (unfold Dev.activate; simp; done)
  | (unfold Dev.activate; (repeat' first | with_reducible rfl | (simp; done) | split); done)
  | (unfold Dev.activate; try dsimp only
     (repeat' first | with_reducible rfl | (simp; done) | (with_reducible refine (foldl_net _ ?_ _ _).trans ?_ <;> try intro _ _) | dsimp only | split); done)

@[simp] theorem orderWatchdog_net (d : Dev) : (Dev.orderWatchdog d).net = d.net := by
  first
  | (unfold Dev.orderWatchdog; with_reducible rfl)
  | (unfold Dev.orderWatchdog; simp; done)
  | (unfold Dev.orderWatchdog; (repeat' first | with_reducible rfl | (simp; done) | split); done)
  | (unfold Dev.orderWatchdog; try dsimp only
     (repeat' first | with_reducible rfl | (simp; done) | (with_reducible refine (foldl_net _ ?_ _ _).trans ?_ <;> try intro _ _) | dsimp only | split); done)

@[simp] theorem announceDrive_net (d : Dev) : (Dev.announceDrive d).net = d.net := by
  first
  | (unfold Dev.announceDrive; simp only [modTwin_net]; done)
  | (unfold Dev.announceDrive; with_reducible rfl)
  | (unfold Dev.announceDrive; simp; done)
  | (unfold Dev.announceDrive; (repeat' first | with_reducible rfl | (simp; done) | split); done)
  | (unfold Dev.announceDrive; try dsimp only
     (repeat' first | with_reducible rfl | (simp; done) | (with_reducible refine (foldl_net _ ?_ _ _).trans ?_ <;> try intro _ _) | dsimp only | split); done)

@[simp] theorem abortHandover_net (d : Dev) : (Dev.abortHandover d).net = d.net := by
  first
  | (unfold Dev.abortHandover; simp only [modTwin_net]; done)
  | (unfold Dev.abortHandover; with_reducible rfl)
  | (unfold Dev.abortHandover; simp; done)
  | (unfold Dev.abortHandover; (repeat' first | with_reducible rfl | (simp; done) | split); done)
  | (unfold Dev.abortHandover; try dsimp only
     (repeat' first | with_reducible rfl | (simp; done) | (with_reducible refine (foldl_net _ ?_ _ _).trans ?_ <;> try intro _ _) | dsimp only | split); done)

@[simp] theorem commandTrigger_net (d : Dev) : (Dev.commandTrigger d).net = d.net := by
  first
  | (unfold Dev.commandTrigger; simp only [info_net, trigger_net]; done)
  | (unfold Dev.commandTrigger; with_reducible rfl)
  | (unfold Dev.commandTrigger; simp; done)
  | (unfold Dev.commandTrigger; (repeat' first | with_reducible rfl | (simp; done) | split); done)
  | (unfold Dev.commandTrigger; try dsimp only
     (repeat' first | with_reducible rfl | (simp; done) | (with_reducible refine (foldl_net _ ?_ _ _).trans ?_ <;> try intro _ _) | dsimp only | split); done)

@[simp] theorem startRing_net (d : Dev) : (Dev.startRing d).net = d.net := by
  first
  | (unfold Dev.startRing; with_reducible rfl)
  | (unfold Dev.startRing; simp; done)
  | (unfold Dev.startRing; (repeat' first | with_reducible rfl | (simp; done) | split); done)
  | (unfold Dev.startRing; try dsimp only
     (repeat' first | with_reducible rfl | (simp; done) | (with_reducible refine (foldl_net _ ?_ _ _).trans ?_ <;> try intro _ _) | dsimp only | split); done)

@[simp] theorem startRing_dir (d : Dev) : (Dev.startRing d).dir = d.dir := by
  first
  | (unfold Dev.startRing; with_reducible rfl)
  | (unfold Dev.startRing; simp; done)
  | (unfold Dev.startRing; (repeat' first | with_reducible rfl | (simp; done) | split); done)
  | (unfold Dev.startRing; try dsimp only
     (repeat' first | with_reducible rfl | (simp; done) | (with_reducible refine (foldl_dir _ ?_ _ _).trans ?_ <;> try intro _ _) | dsimp only | split); done)

@[simp] theorem startRing_jobs (d : Dev) : (Dev.startRing d).jobs = d.jobs := by
  first
  | (unfold Dev.startRing; with_reducible rfl)
  | (unfold Dev.startRing; simp; done)
  | (unfold Dev.startRing; (repeat' first | with_reducible rfl | (simp; done) | split); done)
  | (unfold Dev.startRing; try dsimp only
     (repeat' first | with_reducible rfl | (simp; done) | (with_reducible refine (foldl_jobs _ ?_ _ _).trans ?_ <;> try intro _ _) | dsimp only | split); done)

@[simp] theorem startRing_twin (d : Dev) : (Dev.startRing d).twin = d.twin := by
  first
  | (unfold Dev.startRing; with_reducible rfl)
  | (unfold Dev.startRing; simp; done)
  | (unfold Dev.startRing; (repeat' first | with_reducible rfl | (simp; done) | split); done)
  | (unfold Dev.startRing; try dsimp only
     (repeat' first | with_reducible rfl | (simp; done) | (with_reducible refine (foldl_twin _ ?_ _ _).trans ?_ <;> try intro _ _) | dsimp only | split); done)

@[simp] theorem startRing_power (d : Dev) : (Dev.startRing d).power = d.power := by
  first
  | (unfold Dev.startRing; with_reducible rfl)
  | (unfold Dev.startRing; simp; done)
  | (unfold Dev.startRing; (repeat' first | with_reducible rfl | (simp; done) | split); done)
  | (unfold Dev.startRing; try dsimp only
     (repeat' first | with_reducible rfl | (simp; done) | (with_reducible refine (foldl_power _ ?_ _ _).trans ?_ <;> try intro _ _) | dsimp only | split); done)

@[simp] theorem tryRing_net (d : Dev) : (Dev.tryRing d).net = d.net := by
  first
  | (unfold Dev.tryRing; simp only [startRing_net]; done)
  | (unfold Dev.tryRing; with_reducible rfl)
  | (unfold Dev.tryRing; simp; done)
  | (unfold Dev.tryRing; (repeat' first | with_reducible rfl | (simp; done) | split); done)
  | (unfold Dev.tryRing; try dsimp only
     (repeat' first | with_reducible rfl | (simp; done) | (with_reducible refine (foldl_net _ ?_ _ _).trans ?_ <;> try intro _ _) | dsimp only | split); done)

@[simp] theorem tryRing_dir (d : Dev) : (Dev.tryRing d).dir = d.dir := by
  first
  | (unfold Dev.tryRing; simp only [startRing_dir]; done)
  | (unfold Dev.tryRing; with_reducible rfl)
  | (unfold Dev.tryRing; simp; done)
  | (unfold Dev.tryRing; (repeat' first | with_reducible rfl | (simp; done) | split); done)
  | (unfold Dev.tryRing; try dsimp only
     (repeat' first | with_reducible rfl | (simp; done) | (with_reducible refine (foldl_dir _ ?_ _ _).trans ?_ <;> try intro _ _) | dsimp only | split); done)

@[simp] theorem tryRing_jobs (d : Dev) : (Dev.tryRing d).jobs = d.jobs := by
  first
  | (unfold Dev.tryRing; simp only [startRing_jobs]; done)
  | (unfold Dev.tryRing; with_reducible rfl)
  | (unfold Dev.tryRing; simp; done)
  | (unfold Dev.tryRing; (repeat' first | with_reducible rfl | (simp; done) | split); done)
  | (unfold Dev.tryRing; try dsimp only
     (repeat' first | with_reducible rfl | (simp; done) | (with_reducible refine (foldl_jobs _ ?_ _ _).trans ?_ <;> try intro _ _) | dsimp only | split); done)

@[simp] theorem tryRing_twin (d : Dev) : (Dev.tryRing d).twin = d.twin := by
  first
  | (unfold Dev.tryRing; simp only [startRing_twin]; done)
  | (unfold Dev.tryRing; with_reducible rfl)
  | (unfold Dev.tryRing; simp; done)
  | (unfold Dev.tryRing; (repeat' first | with_reducible rfl | (simp; done) | split); done)
  | (unfold Dev.tryRing; try dsimp only
     (repeat' first | with_reducible rfl | (simp; done) | (with_reducible refine (foldl_twin _ ?_ _ _).trans ?_ <;> try intro _ _) | dsimp only | split); done)

@[simp] theorem tryRing_power (d : Dev) : (Dev.tryRing d).power = d.power := by
  first
  | (unfold Dev.tryRing; simp only [startRing_power]; done)
  | (unfold Dev.tryRing; with_reducible rfl)
  | (unfold Dev.tryRing; simp; done)
  | (unfold Dev.tryRing; (repeat' first | with_reducible rfl | (simp; done) | split); done)
  | (unfold Dev.tryRing; try dsimp only
     (repeat' first | with_reducible rfl | (simp; done) | (with_reducible refine (foldl_power _ ?_ _ _).trans ?_ <;> try intro _ _) | dsimp only | split); done)

@[simp] theorem abandonRing_net (d : Dev) : (Dev.abandonRing d).net = d.net := by
  first
  | (unfold Dev.abandonRing; with_reducible rfl)
  | (unfold Dev.abandonRing; simp; done)
  | (unfold Dev.abandonRing; (repeat' first | with_reducible rfl | (simp; done) | split); done)
  | (unfold Dev.abandonRing; try dsimp only
     (repeat' first | with_reducible rfl | (simp; done) | (with_reducible refine (foldl_net _ ?_ _ _).trans ?_ <;> try intro _ _) | dsimp only | split); done)

@[simp] theorem abandonRing_power (d : Dev) : (Dev.abandonRing d).power = d.power := by
  first
  | (unfold Dev.abandonRing; with_reducible rfl)
  | (unfold Dev.abandonRing; simp; done)
  | (unfold Dev.abandonRing; (repeat' first | with_reducible rfl | (simp; done) | split); done)
  | (unfold Dev.abandonRing; try dsimp only
     (repeat' first | with_reducible rfl | (simp; done) | (with_reducible refine (foldl_power _ ?_ _ _).trans ?_ <;> try intro _ _) | dsimp only | split); done)

@[simp] theorem releaseCapture_net (d : Dev) : (Dev.releaseCapture d).net = d.net := by
  first
  | (unfold Dev.releaseCapture; simp only [tryRing_net, abandonRing_net]; done)
  | (unfold Dev.releaseCapture; with_reducible rfl)
  | (unfold Dev.releaseCapture; simp; done)
  | (unfold Dev.releaseCapture; (repeat' first | with_reducible rfl | (simp; done) | split); done)
  | (unfold Dev.releaseCapture; try dsimp only
     (repeat' first | with_reducible rfl | (simp; done) | (with_reducible refine (foldl_net _ ?_ _ _).trans ?_ <;> try intro _ _) | dsimp only | split); done)

@[simp] theorem endReplay_net (d : Dev) (n : Nat) : (Dev.endReplay d n).net = d.net := by
  first
  | (unfold Dev.endReplay; with_reducible rfl)
  | (unfold Dev.endReplay; simp; done)
  | (unfold Dev.endReplay; (repeat' first | with_reducible rfl | (simp; done) | split); done)
  | (unfold Dev.endReplay; try dsimp only
     (repeat' first | with_reducible rfl | (simp; done) | (with_reducible refine (foldl_net _ ?_ _ _).trans ?_ <;> try intro _ _) | dsimp only | split); done)

@[simp] theorem dropCapture_net (d : Dev) : (Dev.dropCapture d).net = d.net := by
  first
  | (unfold Dev.dropCapture; with_reducible rfl)
  | (unfold Dev.dropCapture; simp; done)
  | (unfold Dev.dropCapture; (repeat' first | with_reducible rfl | (simp; done) | split); done)
  | (unfold Dev.dropCapture; try dsimp only
     (repeat' first | with_reducible rfl | (simp; done) | (with_reducible refine (foldl_net _ ?_ _ _).trans ?_ <;> try intro _ _) | dsimp only | split); done)

@[simp] theorem enableRecorder_net (d : Dev) (on : Bool) : (Dev.enableRecorder d on).net = d.net := by
  first
  | (unfold Dev.enableRecorder; simp only [setFlag_net, tryRing_net, abandonRing_net, freeze_net]; done)
  | (unfold Dev.enableRecorder; with_reducible rfl)
  | (unfold Dev.enableRecorder; simp; done)
  | (unfold Dev.enableRecorder; (repeat' first | with_reducible rfl | (simp; done) | split); done)
  | (unfold Dev.enableRecorder; try dsimp only
     (repeat' first | with_reducible rfl | (simp; done) | (with_reducible refine (foldl_net _ ?_ _ _).trans ?_ <;> try intro _ _) | dsimp only | split); done)

@[simp] theorem slotEnable_net (d : Dev) (s : Nat) : (Dev.slotEnable d s).net = d.net := by
  first
  | (unfold Dev.slotEnable; simp only [modLaser_net, unlatch_net, request_net]; done)
  | (unfold Dev.slotEnable; with_reducible rfl)
  | (unfold Dev.slotEnable; simp; done)
  | (unfold Dev.slotEnable; (repeat' first | with_reducible rfl | (simp; done) | split); done)
  | (unfold Dev.slotEnable; try dsimp only
     (repeat' first | with_reducible rfl | (simp; done) | (with_reducible refine (foldl_net _ ?_ _ _).trans ?_ <;> try intro _ _) | dsimp only | split); done)

@[simp] theorem faultComet_net (d : Dev) (c : Comet) : (Dev.faultComet d c).net = d.net := by
  first
  | (unfold Dev.faultComet; with_reducible rfl)
  | (unfold Dev.faultComet; simp; done)
  | (unfold Dev.faultComet; (repeat' first | with_reducible rfl | (simp; done) | split); done)
  | (unfold Dev.faultComet; try dsimp only
     (repeat' first | with_reducible rfl | (simp; done) | (with_reducible refine (foldl_net _ ?_ _ _).trans ?_ <;> try intro _ _) | dsimp only | split); done)

@[simp] theorem modCircuits_net (d : Dev) (sel : Circuit → Bool) (f : Circuit → Circuit) : (Dev.modCircuits d sel f).net = d.net := by
  first
  | (unfold Dev.modCircuits; with_reducible rfl)
  | (unfold Dev.modCircuits; simp; done)
  | (unfold Dev.modCircuits; (repeat' first | with_reducible rfl | (simp; done) | split); done)
  | (unfold Dev.modCircuits; try dsimp only
     (repeat' first | with_reducible rfl | (simp; done) | (with_reducible refine (foldl_net _ ?_ _ _).trans ?_ <;> try intro _ _) | dsimp only | split); done)

@[simp] theorem reserve_net (d : Dev) (j : Nat) : (Dev.reserve d j).net = d.net := by
  first
  | (unfold Dev.reserve; simp only [modCommit_net]; done)
  | (unfold Dev.reserve; with_reducible rfl)
  | (unfold Dev.reserve; simp; done)
  | (unfold Dev.reserve; (repeat' first | with_reducible rfl | (simp; done) | split); done)
  | (unfold Dev.reserve; try dsimp only
     (repeat' first | with_reducible rfl | (simp; done) | (with_reducible refine (foldl_net _ ?_ _ _).trans ?_ <;> try intro _ _) | dsimp only | split); done)

@[simp] theorem revote_net (d : Dev) (j : Nat) : (Dev.revote d j).net = d.net := by
  first
  | (unfold Dev.revote; simp only [reserve_net, sendVote_net]; done)
  | (unfold Dev.revote; with_reducible rfl)
  | (unfold Dev.revote; simp; done)
  | (unfold Dev.revote; (repeat' first | with_reducible rfl | (simp; done) | split); done)
  | (unfold Dev.revote; try dsimp only
     (repeat' first | with_reducible rfl | (simp; done) | (with_reducible refine (foldl_net _ ?_ _ _).trans ?_ <;> try intro _ _) | dsimp only | split); done)

@[simp] theorem alignmentLost_net (d : Dev) (c : Comet) : (Dev.alignmentLost d c).net = d.net := by
  first
  | (unfold Dev.alignmentLost; with_reducible rfl)
  | (unfold Dev.alignmentLost; simp; done)
  | (unfold Dev.alignmentLost; (repeat' first | with_reducible rfl | (simp; done) | split); done)
  | (unfold Dev.alignmentLost; try dsimp only
     (repeat' first | with_reducible rfl | (simp; done) | (with_reducible refine (foldl_net _ ?_ _ _).trans ?_ <;> try intro _ _) | dsimp only | split); done)

@[simp] theorem cometDark_net (d : Dev) (c : Comet) : (Dev.cometDark d c).net = d.net := by
  first
  | (unfold Dev.cometDark; with_reducible rfl)
  | (unfold Dev.cometDark; simp; done)
  | (unfold Dev.cometDark; (repeat' first | with_reducible rfl | (simp; done) | split); done)
  | (unfold Dev.cometDark; try dsimp only
     (repeat' first | with_reducible rfl | (simp; done) | (with_reducible refine (foldl_net _ ?_ _ _).trans ?_ <;> try intro _ _) | dsimp only | split); done)

@[simp] theorem pilotsOff_net (d : Dev) (s m : Nat) : (Dev.pilotsOff d s m).net = d.net := by
  first
  | (unfold Dev.pilotsOff; simp only [gateClose_net]; done)
  | (unfold Dev.pilotsOff; with_reducible rfl)
  | (unfold Dev.pilotsOff; simp; done)
  | (unfold Dev.pilotsOff; (repeat' first | with_reducible rfl | (simp; done) | split); done)
  | (unfold Dev.pilotsOff; try dsimp only
     (repeat' first | with_reducible rfl | (simp; done) | (with_reducible refine (foldl_net _ ?_ _ _).trans ?_ <;> try intro _ _) | dsimp only | split); done)

@[simp] theorem drainHeld_net (d : Dev) (l : Nat) : (Dev.drainHeld d l).net = d.net := by
  first
  | (unfold Dev.drainHeld; with_reducible rfl)
  | (unfold Dev.drainHeld; simp; done)
  | (unfold Dev.drainHeld; (repeat' first | with_reducible rfl | (simp; done) | split); done)
  | (unfold Dev.drainHeld; try dsimp only
     (repeat' first | with_reducible rfl | (simp; done) | (with_reducible refine (foldl_net _ ?_ _ _).trans ?_ <;> try intro _ _) | dsimp only | split); done)

@[simp] theorem darkLane_net (d : Dev) (l k : Nat) : (Dev.darkLane d l k).net = d.net := by
  first
  | (unfold Dev.darkLane; simp only [modLane_net, refreshLink_net, modLink_net]; done)
  | (unfold Dev.darkLane; with_reducible rfl)
  | (unfold Dev.darkLane; simp; done)
  | (unfold Dev.darkLane; (repeat' first | with_reducible rfl | (simp; done) | split); done)
  | (unfold Dev.darkLane; try dsimp only
     (repeat' first | with_reducible rfl | (simp; done) | (with_reducible refine (foldl_net _ ?_ _ _).trans ?_ <;> try intro _ _) | dsimp only | split); done)

@[simp] theorem probesTx_net (d : Dev) (m : Nat) (on : Bool) : (Dev.probesTx d m on).net = d.net := by
  first
  | (unfold Dev.probesTx; with_reducible rfl)
  | (unfold Dev.probesTx; simp; done)
  | (unfold Dev.probesTx; (repeat' first | with_reducible rfl | (simp; done) | split); done)
  | (unfold Dev.probesTx; try dsimp only
     (repeat' first | with_reducible rfl | (simp; done) | (with_reducible refine (foldl_net _ ?_ _ _).trans ?_ <;> try intro _ _) | dsimp only | split); done)

@[simp] theorem laserOff_net (d : Dev) (s m : Nat) : (Dev.laserOff d s m).net = d.net := by
  first
  | (unfold Dev.laserOff; simp only [modLaser_net, darkLane_net]; done)
  | (unfold Dev.laserOff; with_reducible rfl)
  | (unfold Dev.laserOff; simp; done)
  | (unfold Dev.laserOff; (repeat' first | with_reducible rfl | (simp; done) | split); done)
  | (unfold Dev.laserOff; try dsimp only
     (repeat' first | with_reducible rfl | (simp; done) | (with_reducible refine (foldl_net _ ?_ _ _).trans ?_ <;> try intro _ _) | dsimp only | split); done)

@[simp] theorem slotDisable_net (d : Dev) (s : Nat) : (Dev.slotDisable d s).net = d.net := by
  first
  | (unfold Dev.slotDisable; simp only [pilotsOff_net, laserOff_net, emit_net, modLaser_net, release_net]; done)
  | (unfold Dev.slotDisable; with_reducible rfl)
  | (unfold Dev.slotDisable; simp; done)
  | (unfold Dev.slotDisable; (repeat' first | with_reducible rfl | (simp; done) | split); done)
  | (unfold Dev.slotDisable; try dsimp only
     (repeat' first | with_reducible rfl | (simp; done) | (with_reducible refine (foldl_net _ ?_ _ _).trans ?_ <;> try intro _ _) | dsimp only | split); done)

@[simp] theorem sendRouted_net (d : Dev) (type cls source dest : Nat) (payload : Bytes) : (Dev.sendRouted d type cls source dest payload).net = d.net := by
  rw [Dev.sendRouted]
  split
  · split
    · rw [sendFrame_net]
    · rfl
  · rfl

@[simp] theorem fetchMore_net (d : Dev) (s : Nat) (zz : Nat) : (Dev.fetchMore d s zz).net = d.net := by
  induction zz generalizing d with
  | zero => rfl
  | succ n ih =>
    unfold Dev.fetchMore
    repeat' first | with_reducible rfl | (simp [ih]; done) | dsimp only | split

@[simp] theorem burst_net (d : Dev) (holder : Nat) : (Dev.burst d holder).net = d.net := by
  first
  | (unfold Dev.burst; with_reducible rfl)
  | (unfold Dev.burst; simp; done)
  | (unfold Dev.burst; (repeat' first | with_reducible rfl | (simp; done) | split); done)
  | (unfold Dev.burst; try dsimp only
     (repeat' first | with_reducible rfl | (simp; done) | (with_reducible refine (foldl_net _ ?_ _ _).trans ?_ <;> try intro _ _) | dsimp only | split); done)

@[simp] theorem modelCommand_net (d : Dev) (x : Nat) : (Dev.modelCommand d x).net = d.net := by
  first
  | (unfold Dev.modelCommand; simp only [modModel_net, fetchMore_net]; done)
  | (unfold Dev.modelCommand; with_reducible rfl)
  | (unfold Dev.modelCommand; simp; done)
  | (unfold Dev.modelCommand; (repeat' first | with_reducible rfl | (simp; done) | split); done)
  | (unfold Dev.modelCommand; try dsimp only
     (repeat' first | with_reducible rfl | (simp; done) | (with_reducible refine (foldl_net _ ?_ _ _).trans ?_ <;> try intro _ _) | dsimp only | split); done)

@[simp] theorem library_net (d : Dev) : (Dev.library d).net = d.net := by
  first
  | (unfold Dev.library; with_reducible rfl)
  | (unfold Dev.library; simp; done)
  | (unfold Dev.library; (repeat' first | with_reducible rfl | (simp; done) | split); done)
  | (unfold Dev.library; try dsimp only
     (repeat' first | with_reducible rfl | (simp; done) | (with_reducible refine (foldl_net _ ?_ _ _).trans ?_ <;> try intro _ _) | dsimp only | split); done)

@[simp] theorem setTable_net (d : Dev) (v : Bytes) : (Dev.setTable d v).net = d.net := by
  first
  | (unfold Dev.setTable; simp only [library_net, setOct_net, modModel_net]; done)
  | (unfold Dev.setTable; with_reducible rfl)
  | (unfold Dev.setTable; simp; done)
  | (unfold Dev.setTable; (repeat' first | with_reducible rfl | (simp; done) | split); done)
  | (unfold Dev.setTable; try dsimp only
     (repeat' first | with_reducible rfl | (simp; done) | (with_reducible refine (foldl_net _ ?_ _ _).trans ?_ <;> try intro _ _) | dsimp only | split); done)

@[simp] theorem placeMirror_net (d : Dev) (j : Nat) : (Dev.placeMirror d j).net = d.net := by
  first
  | (unfold Dev.placeMirror; simp only [modMirror_net, raise_net]; done)
  | (unfold Dev.placeMirror; with_reducible rfl)
  | (unfold Dev.placeMirror; simp; done)
  | (unfold Dev.placeMirror; (repeat' first | with_reducible rfl | (simp; done) | split); done)
  | (unfold Dev.placeMirror; try dsimp only
     (repeat' first | with_reducible rfl | (simp; done) | (with_reducible refine (foldl_net _ ?_ _ _).trans ?_ <;> try intro _ _) | dsimp only | split); done)

@[simp] theorem setPlan_net (d : Dev) (j : Nat) (v : Bytes) : (Dev.setPlan d j v).net = d.net := by
  first
  | (unfold Dev.setPlan; simp only [library_net, setOct_net, modEngJob_net, placeMirror_net]; done)
  | (unfold Dev.setPlan; with_reducible rfl)
  | (unfold Dev.setPlan; simp; done)
  | (unfold Dev.setPlan; (repeat' first | with_reducible rfl | (simp; done) | split); done)
  | (unfold Dev.setPlan; try dsimp only
     (repeat' first | with_reducible rfl | (simp; done) | (with_reducible refine (foldl_net _ ?_ _ _).trans ?_ <;> try intro _ _) | dsimp only | split); done)

@[simp] theorem beginOn_net (d : Dev) (k : Nat) : (Dev.beginOn d k).net = d.net := by
  first
  | (unfold Dev.beginOn; simp only [domainResult_net, switchOn_net]; done)
  | (unfold Dev.beginOn; with_reducible rfl)
  | (unfold Dev.beginOn; simp; done)
  | (unfold Dev.beginOn; (repeat' first | with_reducible rfl | (simp; done) | split); done)
  | (unfold Dev.beginOn; try dsimp only
     (repeat' first | with_reducible rfl | (simp; done) | (with_reducible refine (foldl_net _ ?_ _ _).trans ?_ <;> try intro _ _) | dsimp only | split); done)

@[simp] theorem askRelease_net (d : Dev) (j r : Nat) : (Dev.askRelease d j r).net = d.net := by
  first
  | (unfold Dev.askRelease; with_reducible rfl)
  | (unfold Dev.askRelease; simp; done)
  | (unfold Dev.askRelease; (repeat' first | with_reducible rfl | (simp; done) | split); done)
  | (unfold Dev.askRelease; try dsimp only
     (repeat' first | with_reducible rfl | (simp; done) | (with_reducible refine (foldl_net _ ?_ _ _).trans ?_ <;> try intro _ _) | dsimp only | split); done)

@[simp] theorem queueSync_net (d : Dev) (p : Nat) : (Dev.queueSync d p).net = d.net := by
  first
  | (unfold Dev.queueSync; simp only [queueProbe_net]; done)
  | (unfold Dev.queueSync; with_reducible rfl)
  | (unfold Dev.queueSync; simp; done)
  | (unfold Dev.queueSync; (repeat' first | with_reducible rfl | (simp; done) | split); done)
  | (unfold Dev.queueSync; try dsimp only
     (repeat' first | with_reducible rfl | (simp; done) | (with_reducible refine (foldl_net _ ?_ _ _).trans ?_ <;> try intro _ _) | dsimp only | split); done)

@[simp] theorem syncAll_net (d : Dev) : (Dev.syncAll d).net = d.net := by
  first
  | (unfold Dev.syncAll; simp only [queueSync_net]; done)
  | (unfold Dev.syncAll; with_reducible rfl)
  | (unfold Dev.syncAll; simp; done)
  | (unfold Dev.syncAll; (repeat' first | with_reducible rfl | (simp; done) | split); done)
  | (unfold Dev.syncAll; try dsimp only
     (repeat' first | with_reducible rfl | (simp; done) | (with_reducible refine (foldl_net _ ?_ _ _).trans ?_ <;> try intro _ _) | dsimp only | split); done)

@[simp] theorem applyDef_net (d : Dev) : (Dev.applyDef d).net = d.net := by
  first
  | (unfold Dev.applyDef; simp only [modTime_net, stopJob_net, placeNext_net, syncAll_net]; done)
  | (unfold Dev.applyDef; with_reducible rfl)
  | (unfold Dev.applyDef; simp; done)
  | (unfold Dev.applyDef; (repeat' first | with_reducible rfl | (simp; done) | split); done)
  | (unfold Dev.applyDef; try dsimp only
     (repeat' first | with_reducible rfl | (simp; done) | (with_reducible refine (foldl_net _ ?_ _ _).trans ?_ <;> try intro _ _) | dsimp only | split); done)

@[simp] theorem learnDef_net (d : Dev) (o : OrbitDef) : (Dev.learnDef d o).net = d.net := by
  first
  | (unfold Dev.learnDef; simp only [modTime_net, applyDef_net]; done)
  | (unfold Dev.learnDef; with_reducible rfl)
  | (unfold Dev.learnDef; simp; done)
  | (unfold Dev.learnDef; (repeat' first | with_reducible rfl | (simp; done) | split); done)
  | (unfold Dev.learnDef; try dsimp only
     (repeat' first | with_reducible rfl | (simp; done) | (with_reducible refine (foldl_net _ ?_ _ _).trans ?_ <;> try intro _ _) | dsimp only | split); done)

@[simp] theorem newDef_net (d : Dev) (epoch period : Option Nat) : (Dev.newDef d epoch period).net = d.net := by
  rw [Dev.newDef]
  rw [learnDef_net]

@[simp] theorem reportJob_net (d : Dev) (j : Nat) (r : Option Report) : (Dev.reportJob d j r).net = d.net := by
  first
  | (unfold Dev.reportJob; simp only [setOct_net]; done)
  | (unfold Dev.reportJob; with_reducible rfl)
  | (unfold Dev.reportJob; simp; done)
  | (unfold Dev.reportJob; (repeat' first | with_reducible rfl | (simp; done) | split); done)
  | (unfold Dev.reportJob; try dsimp only
     (repeat' first | with_reducible rfl | (simp; done) | (with_reducible refine (foldl_net _ ?_ _ _).trans ?_ <;> try intro _ _) | dsimp only | split); done)

@[simp] theorem reportJob_jobs (d : Dev) (j : Nat) (r : Option Report) : (Dev.reportJob d j r).jobs = d.jobs := by
  first
  | (unfold Dev.reportJob; simp only [setOct_jobs]; done)
  | (unfold Dev.reportJob; with_reducible rfl)
  | (unfold Dev.reportJob; simp; done)
  | (unfold Dev.reportJob; (repeat' first | with_reducible rfl | (simp; done) | split); done)
  | (unfold Dev.reportJob; try dsimp only
     (repeat' first | with_reducible rfl | (simp; done) | (with_reducible refine (foldl_jobs _ ?_ _ _).trans ?_ <;> try intro _ _) | dsimp only | split); done)

@[simp] theorem setAlmanac_net (d : Dev) (j : Nat) (v : Bytes) : (Dev.setAlmanac d j v).net = d.net := by
  first
  | (unfold Dev.setAlmanac; simp only [library_net, setOct_net, modRun_net, modJob_net, reportJob_net]; done)
  | (unfold Dev.setAlmanac; with_reducible rfl)
  | (unfold Dev.setAlmanac; simp; done)
  | (unfold Dev.setAlmanac; (repeat' first | with_reducible rfl | (simp; done) | split); done)
  | (unfold Dev.setAlmanac; try dsimp only
     (repeat' first | with_reducible rfl | (simp; done) | (with_reducible refine (foldl_net _ ?_ _ _).trans ?_ <;> try intro _ _) | dsimp only | split); done)

@[simp] theorem validateJob_net (d : Dev) (j : Nat) : (Dev.validateJob d j).net = d.net := by
  first
  | (unfold Dev.validateJob; with_reducible rfl)
  | (unfold Dev.validateJob; simp; done)
  | (unfold Dev.validateJob; (repeat' first | with_reducible rfl | (simp; done) | split); done)
  | (unfold Dev.validateJob; try dsimp only
     (repeat' first | with_reducible rfl | (simp; done) | (with_reducible refine (foldl_net _ ?_ _ _).trans ?_ <;> try intro _ _) | dsimp only | split); done)

@[simp] theorem setSlot_net (d : Dev) (s : Nat) (v : Bytes) : (Dev.setSlot d s v).net = d.net := by
  first
  | (unfold Dev.setSlot; simp only [library_net, setOct_net, modJob_net, reportJob_net]; done)
  | (unfold Dev.setSlot; with_reducible rfl)
  | (unfold Dev.setSlot; simp; done)
  | (unfold Dev.setSlot; (repeat' first | with_reducible rfl | (simp; done) | split); done)
  | (unfold Dev.setSlot; try dsimp only
     (repeat' first | with_reducible rfl | (simp; done) | (with_reducible refine (foldl_net _ ?_ _ _).trans ?_ <;> try intro _ _) | dsimp only | split); done)

@[simp] theorem reserve_jobs (d : Dev) (j : Nat) : (Dev.reserve d j).jobs = d.jobs := by
  first
  | (unfold Dev.reserve; simp only [modCommit_jobs]; done)
  | (unfold Dev.reserve; with_reducible rfl)
  | (unfold Dev.reserve; simp; done)
  | (unfold Dev.reserve; (repeat' first | with_reducible rfl | (simp; done) | split); done)
  | (unfold Dev.reserve; try dsimp only
     (repeat' first | with_reducible rfl | (simp; done) | (with_reducible refine (foldl_jobs _ ?_ _ _).trans ?_ <;> try intro _ _) | dsimp only | split); done)

@[simp] theorem modGroup_jobs (d : Dev) (g : Group) (f : Group → Group) : (Dev.modGroup d g f).jobs = d.jobs := by
  first
  | (unfold Dev.modGroup; with_reducible rfl)
  | (unfold Dev.modGroup; simp; done)
  | (unfold Dev.modGroup; (repeat' first | with_reducible rfl | (simp; done) | split); done)
  | (unfold Dev.modGroup; try dsimp only
     (repeat' first | with_reducible rfl | (simp; done) | (with_reducible refine (foldl_jobs _ ?_ _ _).trans ?_ <;> try intro _ _) | dsimp only | split); done)

@[simp] theorem sendDown_jobs (d : Dev) (type cls : Nat) (payload : Bytes) (except : Option Nat) : (Dev.sendDown d type cls payload except).jobs = d.jobs := by
  first
  | (unfold Dev.sendDown; simp only [sendFrame_jobs]; done)
  | (unfold Dev.sendDown; with_reducible rfl)
  | (unfold Dev.sendDown; simp; done)
  | (unfold Dev.sendDown; (repeat' first | with_reducible rfl | (simp; done) | split); done)
  | (unfold Dev.sendDown; try dsimp only
     (repeat' first | with_reducible rfl | (simp; done) | (with_reducible refine (foldl_jobs _ ?_ _ _).trans ?_ <;> try intro _ _) | dsimp only | split); done)

@[simp] theorem leaderSend_jobs (d : Dev) (g : Group) (type reason : Nat) (body : Bytes) : (Dev.leaderSend d g type reason body).jobs = d.jobs := by
  first
  | (unfold Dev.leaderSend; simp only [sendDown_jobs]; done)
  | (unfold Dev.leaderSend; with_reducible rfl)
  | (unfold Dev.leaderSend; simp; done)
  | (unfold Dev.leaderSend; (repeat' first | with_reducible rfl | (simp; done) | split); done)
  | (unfold Dev.leaderSend; try dsimp only
     (repeat' first | with_reducible rfl | (simp; done) | (with_reducible refine (foldl_jobs _ ?_ _ _).trans ?_ <;> try intro _ _) | dsimp only | split); done)

@[simp] theorem cancelStrobes_jobs (d : Dev) (sel : Strobe → Bool) : (Dev.cancelStrobes d sel).jobs = d.jobs := by
  first
  | (unfold Dev.cancelStrobes; with_reducible rfl)
  | (unfold Dev.cancelStrobes; simp; done)
  | (unfold Dev.cancelStrobes; (repeat' first | with_reducible rfl | (simp; done) | split); done)
  | (unfold Dev.cancelStrobes; try dsimp only
     (repeat' first | with_reducible rfl | (simp; done) | (with_reducible refine (foldl_jobs _ ?_ _ _).trans ?_ <;> try intro _ _) | dsimp only | split); done)

@[simp] theorem memberCancel_jobs (d : Dev) (j reason : Nat) : (Dev.memberCancel d j reason).jobs = d.jobs := by
  first
  | (unfold Dev.memberCancel; simp only [cancelStrobes_jobs, bump_jobs, abortJobComets_jobs, modCommit_jobs, placeNext_jobs]; done)
  | (unfold Dev.memberCancel; with_reducible rfl)
  | (unfold Dev.memberCancel; simp; done)
  | (unfold Dev.memberCancel; (repeat' first | with_reducible rfl | (simp; done) | split); done)
  | (unfold Dev.memberCancel; try dsimp only
     (repeat' first | with_reducible rfl | (simp; done) | (with_reducible refine (foldl_jobs _ ?_ _ _).trans ?_ <;> try intro _ _) | dsimp only | split); done)

@[simp] theorem syncCause_jobs (d : Dev) (c : Nat) : (Dev.syncCause d c).jobs = d.jobs := by
  first
  | (unfold Dev.syncCause; with_reducible rfl)
  | (unfold Dev.syncCause; simp; done)
  | (unfold Dev.syncCause; (repeat' first | with_reducible rfl | (simp; done) | split); done)
  | (unfold Dev.syncCause; try dsimp only
     (repeat' first | with_reducible rfl | (simp; done) | (with_reducible refine (foldl_jobs _ ?_ _ _).trans ?_ <;> try intro _ _) | dsimp only | split); done)

@[simp] theorem refreshStale_jobs (d : Dev) : (Dev.refreshStale d).jobs = d.jobs := by
  first
  | (unfold Dev.refreshStale; with_reducible rfl)
  | (unfold Dev.refreshStale; simp; done)
  | (unfold Dev.refreshStale; (repeat' first | with_reducible rfl | (simp; done) | split); done)
  | (unfold Dev.refreshStale; try dsimp only
     (repeat' first | with_reducible rfl | (simp; done) | (with_reducible refine (foldl_jobs _ ?_ _ _).trans ?_ <;> try intro _ _) | dsimp only | split); done)

@[simp] theorem confirmed_jobs (d : Dev) (item index version : Nat) : (Dev.confirmed d item index version).jobs = d.jobs := by
  first
  | (unfold Dev.confirmed; with_reducible rfl)
  | (unfold Dev.confirmed; simp; done)
  | (unfold Dev.confirmed; (repeat' first | with_reducible rfl | (simp; done) | split); done)
  | (unfold Dev.confirmed; try dsimp only
     (repeat' first | with_reducible rfl | (simp; done) | (with_reducible refine (foldl_jobs _ ?_ _ _).trans ?_ <;> try intro _ _) | dsimp only | split); done)

@[simp] theorem lateRetract_jobs (d : Dev) (j : Nat) : (Dev.lateRetract d j).jobs = d.jobs := by
  first
  | (unfold Dev.lateRetract; with_reducible rfl)
  | (unfold Dev.lateRetract; simp; done)
  | (unfold Dev.lateRetract; (repeat' first | with_reducible rfl | (simp; done) | split); done)
  | (unfold Dev.lateRetract; try dsimp only
     (repeat' first | with_reducible rfl | (simp; done) | (with_reducible refine (foldl_jobs _ ?_ _ _).trans ?_ <;> try intro _ _) | dsimp only | split); done)

@[simp] theorem memberRetract_jobs (d : Dev) (j reason : Nat) : (Dev.memberRetract d j reason).jobs = d.jobs := by
  first
  | (unfold Dev.memberRetract; simp only [modCommit_jobs, memberCancel_jobs, info_jobs]; done)
  | (unfold Dev.memberRetract; with_reducible rfl)
  | (unfold Dev.memberRetract; simp; done)
  | (unfold Dev.memberRetract; (repeat' first | with_reducible rfl | (simp; done) | split); done)
  | (unfold Dev.memberRetract; try dsimp only
     (repeat' first | with_reducible rfl | (simp; done) | (with_reducible refine (foldl_jobs _ ?_ _ _).trans ?_ <;> try intro _ _) | dsimp only | split); done)

@[simp] theorem leaderRetract_jobs (d : Dev) (g : Group) (reason : Nat) : (Dev.leaderRetract d g reason).jobs = d.jobs := by
  first
  | (unfold Dev.leaderRetract; simp only [modGroup_jobs, leaderSend_jobs, memberRetract_jobs]; done)
  | (unfold Dev.leaderRetract; with_reducible rfl)
  | (unfold Dev.leaderRetract; simp; done)
  | (unfold Dev.leaderRetract; (repeat' first | with_reducible rfl | (simp; done) | split); done)
  | (unfold Dev.leaderRetract; try dsimp only
     (repeat' first | with_reducible rfl | (simp; done) | (with_reducible refine (foldl_jobs _ ?_ _ _).trans ?_ <;> try intro _ _) | dsimp only | split); done)

@[simp] theorem addGroup_jobs (d : Dev) (g : Group) : (Dev.addGroup d g).jobs = d.jobs := by
  first
  | (unfold Dev.addGroup; with_reducible rfl)
  | (unfold Dev.addGroup; simp; done)
  | (unfold Dev.addGroup; (repeat' first | with_reducible rfl | (simp; done) | split); done)
  | (unfold Dev.addGroup; try dsimp only
     (repeat' first | with_reducible rfl | (simp; done) | (with_reducible refine (foldl_jobs _ ?_ _ _).trans ?_ <;> try intro _ _) | dsimp only | split); done)

@[simp] theorem openGroup_jobs (d : Dev) (g : Group) (soloJob : Bool) : (Dev.openGroup d g soloJob).jobs = d.jobs := by
  first
  | (unfold Dev.openGroup; simp only [leaderRetract_jobs]; done)
  | (unfold Dev.openGroup; with_reducible rfl)
  | (unfold Dev.openGroup; simp; done)
  | (unfold Dev.openGroup; (repeat' first | with_reducible rfl | (simp; done) | split); done)
  | (unfold Dev.openGroup; try dsimp only
     (repeat' first | with_reducible rfl | (simp; done) | (with_reducible refine (foldl_jobs _ ?_ _ _).trans ?_ <;> try intro _ _) | dsimp only | split); done)

@[simp] theorem leaderHold_jobs (d : Dev) (g : Group) (reason : Nat) : (Dev.leaderHold d g reason).jobs = d.jobs := by
  first
  | (unfold Dev.leaderHold; simp only [modGroup_jobs, leaderSend_jobs, memberHold_jobs]; done)
  | (unfold Dev.leaderHold; with_reducible rfl)
  | (unfold Dev.leaderHold; simp; done)
  | (unfold Dev.leaderHold; (repeat' first | with_reducible rfl | (simp; done) | split); done)
  | (unfold Dev.leaderHold; try dsimp only
     (repeat' first | with_reducible rfl | (simp; done) | (with_reducible refine (foldl_jobs _ ?_ _ _).trans ?_ <;> try intro _ _) | dsimp only | split); done)

@[simp] theorem noteClamp_jobs (d : Dev) (p k weight : Nat) : (Dev.noteClamp d p k weight).jobs = d.jobs := by
  first
  | (unfold Dev.noteClamp; simp only [setOct_jobs]; done)
  | (unfold Dev.noteClamp; with_reducible rfl)
  | (unfold Dev.noteClamp; simp; done)
  | (unfold Dev.noteClamp; (repeat' first | with_reducible rfl | (simp; done) | split); done)
  | (unfold Dev.noteClamp; try dsimp only
     (repeat' first | with_reducible rfl | (simp; done) | (with_reducible refine (foldl_jobs _ ?_ _ _).trans ?_ <;> try intro _ _) | dsimp only | split); done)

@[simp] theorem memberConfirm_jobs (d : Dev) (j : Nat) : (Dev.memberConfirm d j).jobs = d.jobs := by
  first
  | (unfold Dev.memberConfirm; simp only [modCommit_jobs]; done)
  | (unfold Dev.memberConfirm; with_reducible rfl)
  | (unfold Dev.memberConfirm; simp; done)
  | (unfold Dev.memberConfirm; (repeat' first | with_reducible rfl | (simp; done) | split); done)
  | (unfold Dev.memberConfirm; try dsimp only
     (repeat' first | with_reducible rfl | (simp; done) | (with_reducible refine (foldl_jobs _ ?_ _ _).trans ?_ <;> try intro _ _) | dsimp only | split); done)

@[simp] theorem tallyAck_jobs (d : Dev) (g : Group) (tag z ack fail sender reason : Nat) : (Dev.tallyAck d g tag z ack fail sender reason).jobs = d.jobs := by
  first
  | (unfold Dev.tallyAck; with_reducible rfl)
  | (unfold Dev.tallyAck; simp; done)
  | (unfold Dev.tallyAck; (repeat' first | with_reducible rfl | (simp; done) | split); done)
  | (unfold Dev.tallyAck; try dsimp only
     (repeat' first | with_reducible rfl | (simp; done) | (with_reducible refine (foldl_jobs _ ?_ _ _).trans ?_ <;> try intro _ _) | dsimp only | split); done)

@[simp] theorem groupAck_jobs (d : Dev) (tag z entry crc ack fail sender reason : Nat) : (Dev.groupAck d tag z entry crc ack fail sender reason).jobs = d.jobs := by
  first
  | (unfold Dev.groupAck; simp only [modGroup_jobs, leaderRetract_jobs, leaderSend_jobs, memberConfirm_jobs]; done)
  | (unfold Dev.groupAck; with_reducible rfl)
  | (unfold Dev.groupAck; simp; done)
  | (unfold Dev.groupAck; (repeat' first | with_reducible rfl | (simp; done) | split); done)
  | (unfold Dev.groupAck; try dsimp only
     (repeat' first | with_reducible rfl | (simp; done) | (with_reducible refine (foldl_jobs _ ?_ _ _).trans ?_ <;> try intro _ _) | dsimp only | split); done)

@[simp] theorem sendUp_jobs (d : Dev) (type cls : Nat) (payload : Bytes) : (Dev.sendUp d type cls payload).jobs = d.jobs := by
  first
  | (unfold Dev.sendUp; simp only [sendFrame_jobs]; done)
  | (unfold Dev.sendUp; with_reducible rfl)
  | (unfold Dev.sendUp; simp; done)
  | (unfold Dev.sendUp; (repeat' first | with_reducible rfl | (simp; done) | split); done)
  | (unfold Dev.sendUp; try dsimp only
     (repeat' first | with_reducible rfl | (simp; done) | (with_reducible refine (foldl_jobs _ ?_ _ _).trans ?_ <;> try intro _ _) | dsimp only | split); done)

@[simp] theorem ackAgain_jobs (d : Dev) (j : Nat) : (Dev.ackAgain d j).jobs = d.jobs := by
  first
  | (unfold Dev.ackAgain; with_reducible rfl)
  | (unfold Dev.ackAgain; simp; done)
  | (unfold Dev.ackAgain; (repeat' first | with_reducible rfl | (simp; done) | split); done)
  | (unfold Dev.ackAgain; try dsimp only
     (repeat' first | with_reducible rfl | (simp; done) | (with_reducible refine (foldl_jobs _ ?_ _ _).trans ?_ <;> try intro _ _) | dsimp only | split); done)

@[simp] theorem sendAck_jobs (d : Dev) (j reason : Nat) : (Dev.sendAck d j reason).jobs = d.jobs := by
  first
  | (unfold Dev.sendAck; simp only [modCommit_jobs, groupAck_jobs, sendUp_jobs]; done)
  | (unfold Dev.sendAck; with_reducible rfl)
  | (unfold Dev.sendAck; simp; done)
  | (unfold Dev.sendAck; (repeat' first | with_reducible rfl | (simp; done) | split); done)
  | (unfold Dev.sendAck; try dsimp only
     (repeat' first | with_reducible rfl | (simp; done) | (with_reducible refine (foldl_jobs _ ?_ _ _).trans ?_ <;> try intro _ _) | dsimp only | split); done)

@[simp] theorem armAll_jobs (d : Dev) (j : Nat) (l : List Stage) : (Dev.armAll d j l).1.jobs = d.jobs := by
  induction l generalizing d with
  | nil => rfl
  | cons a t ih =>
    unfold Dev.armAll
    dsimp only
    split
    · rw [ih, armStrobe_jobs]
    · rw [armStrobe_jobs]

@[simp] theorem stageComets_jobs (d : Dev) (j : Nat) : (Dev.stageComets d j).jobs = d.jobs := by
  first
  | (unfold Dev.stageComets; simp only [modComet_jobs]; done)
  | (unfold Dev.stageComets; with_reducible rfl)
  | (unfold Dev.stageComets; simp; done)
  | (unfold Dev.stageComets; (repeat' first | with_reducible rfl | (simp; done) | split); done)
  | (unfold Dev.stageComets; try dsimp only
     (repeat' first | with_reducible rfl | (simp; done) | (with_reducible refine (foldl_jobs _ ?_ _ _).trans ?_ <;> try intro _ _) | dsimp only | split); done)

@[simp] theorem stageEntry_jobs (d : Dev) (j : Nat) (es : List CEntry) : (Dev.stageEntry d j es).jobs = d.jobs := by
  first
  | (unfold Dev.stageEntry; with_reducible rfl)
  | (unfold Dev.stageEntry; simp; done)
  | (unfold Dev.stageEntry; (repeat' first | with_reducible rfl | (simp; done) | split); done)
  | (unfold Dev.stageEntry; try dsimp only
     (repeat' first | with_reducible rfl | (simp; done) | (with_reducible refine (foldl_jobs _ ?_ _ _).trans ?_ <;> try intro _ _) | dsimp only | split); done)

@[simp] theorem memberAck_jobs (d : Dev) (j reason : Nat) : (Dev.memberAck d j reason).jobs = d.jobs := by
  first
  | (unfold Dev.memberAck; with_reducible rfl)
  | (unfold Dev.memberAck; simp; done)
  | (unfold Dev.memberAck; (repeat' first | with_reducible rfl | (simp; done) | split); done)
  | (unfold Dev.memberAck; try dsimp only
     (repeat' first | with_reducible rfl | (simp; done) | (with_reducible refine (foldl_jobs _ ?_ _ _).trans ?_ <;> try intro _ _) | dsimp only | split); done)

@[simp] theorem memberGo_jobs (d : Dev) (j : Nat) : (Dev.memberGo d j).jobs = d.jobs := by
  first
  | (unfold Dev.memberGo; simp only [stageWrites_jobs, noteClamp_jobs, sendAck_jobs, modCommit_jobs, armAll_jobs, stageComets_jobs, cancelStrobes_jobs]; done)
  | (unfold Dev.memberGo; with_reducible rfl)
  | (unfold Dev.memberGo; simp; done)
  | (unfold Dev.memberGo; (repeat' first | with_reducible rfl | (simp; done) | split); done)
  | (unfold Dev.memberGo; try dsimp only
     (repeat' first | with_reducible rfl | (simp; done) | (with_reducible refine (foldl_jobs _ ?_ _ _).trans ?_ <;> try intro _ _) | dsimp only | split); done)

@[simp] theorem leaderGo_jobs (d : Dev) (g : Group) : (Dev.leaderGo d g).jobs = d.jobs := by
  first
  | (unfold Dev.leaderGo; simp only [modGroup_jobs, leaderSend_jobs, memberGo_jobs]; done)
  | (unfold Dev.leaderGo; with_reducible rfl)
  | (unfold Dev.leaderGo; simp; done)
  | (unfold Dev.leaderGo; (repeat' first | with_reducible rfl | (simp; done) | split); done)
  | (unfold Dev.leaderGo; try dsimp only
     (repeat' first | with_reducible rfl | (simp; done) | (with_reducible refine (foldl_jobs _ ?_ _ _).trans ?_ <;> try intro _ _) | dsimp only | split); done)

@[simp] theorem groupVote_jobs (d : Dev) (m : CMsg) (members ready notReady : Nat) : (Dev.groupVote d m members ready notReady).jobs = d.jobs := by
  first
  | (unfold Dev.groupVote Dev.nameOnce; simp only [info_jobs, openGroup_jobs, raise_jobs, leaderHold_jobs, modGroup_jobs, leaderGo_jobs]; done)
  | (unfold Dev.groupVote Dev.nameOnce; with_reducible rfl)
  | (unfold Dev.groupVote Dev.nameOnce; simp; done)
  | (unfold Dev.groupVote Dev.nameOnce; (repeat' first | with_reducible rfl | (simp; done) | split); done)
  | (unfold Dev.groupVote Dev.nameOnce; try dsimp only
     (repeat' first | with_reducible rfl | (simp; done) | (with_reducible refine (foldl_jobs _ ?_ _ _).trans ?_ <;> try intro _ _) | dsimp only | split); done)

@[simp] theorem voteAgain_jobs (d : Dev) (j : Nat) : (Dev.voteAgain d j).jobs = d.jobs := by
  first
  | (unfold Dev.voteAgain; with_reducible rfl)
  | (unfold Dev.voteAgain; simp; done)
  | (unfold Dev.voteAgain; (repeat' first | with_reducible rfl | (simp; done) | split); done)
  | (unfold Dev.voteAgain; try dsimp only
     (repeat' first | with_reducible rfl | (simp; done) | (with_reducible refine (foldl_jobs _ ?_ _ _).trans ?_ <;> try intro _ _) | dsimp only | split); done)

@[simp] theorem sendVote_jobs (d : Dev) (j : Nat) (reason : Nat) : (Dev.sendVote d j reason).jobs = d.jobs := by
  first
  | (unfold Dev.sendVote; simp only [modCommit_jobs, groupVote_jobs, sendUp_jobs]; done)
  | (unfold Dev.sendVote; with_reducible rfl)
  | (unfold Dev.sendVote; simp; done)
  | (unfold Dev.sendVote; (repeat' first | with_reducible rfl | (simp; done) | split); done)
  | (unfold Dev.sendVote; try dsimp only
     (repeat' first | with_reducible rfl | (simp; done) | (with_reducible refine (foldl_jobs _ ?_ _ _).trans ?_ <;> try intro _ _) | dsimp only | split); done)

@[simp] theorem revote_jobs (d : Dev) (j : Nat) : (Dev.revote d j).jobs = d.jobs := by
  first
  | (unfold Dev.revote; simp only [reserve_jobs, sendVote_jobs]; done)
  | (unfold Dev.revote; with_reducible rfl)
  | (unfold Dev.revote; simp; done)
  | (unfold Dev.revote; (repeat' first | with_reducible rfl | (simp; done) | split); done)
  | (unfold Dev.revote; try dsimp only
     (repeat' first | with_reducible rfl | (simp; done) | (with_reducible refine (foldl_jobs _ ?_ _ _).trans ?_ <;> try intro _ _) | dsimp only | split); done)

@[simp] theorem dropStrays_net (d : Dev) (n : Nat) : (Dev.dropStrays d n).net = d.net := by
  first
  | (unfold Dev.dropStrays; with_reducible rfl)
  | (unfold Dev.dropStrays; simp; done)
  | (unfold Dev.dropStrays; (repeat' first | with_reducible rfl | (simp; done) | split); done)
  | (unfold Dev.dropStrays; try dsimp only
     (repeat' first | with_reducible rfl | (simp; done) | (with_reducible refine (foldl_net _ ?_ _ _).trans ?_ <;> try intro _ _) | dsimp only | split); done)

@[simp] theorem drainSvc_net (d : Dev) (n : Nat) : (Dev.drainSvc d n).net = d.net := by
  first
  | (unfold Dev.drainSvc; simp only [bump_net, sendFrame_net]; done)
  | (unfold Dev.drainSvc; with_reducible rfl)
  | (unfold Dev.drainSvc; simp; done)
  | (unfold Dev.drainSvc; (repeat' first | with_reducible rfl | (simp; done) | split); done)
  | (unfold Dev.drainSvc; try dsimp only
     (repeat' first | with_reducible rfl | (simp; done) | (with_reducible refine (foldl_net _ ?_ _ _).trans ?_ <;> try intro _ _) | dsimp only | split); done)

@[simp] theorem dropStrays_jobs (d : Dev) (n : Nat) : (Dev.dropStrays d n).jobs = d.jobs := by
  first
  | (unfold Dev.dropStrays; with_reducible rfl)
  | (unfold Dev.dropStrays; simp; done)
  | (unfold Dev.dropStrays; (repeat' first | with_reducible rfl | (simp; done) | split); done)
  | (unfold Dev.dropStrays; try dsimp only
     (repeat' first | with_reducible rfl | (simp; done) | (with_reducible refine (foldl_jobs _ ?_ _ _).trans ?_ <;> try intro _ _) | dsimp only | split); done)

@[simp] theorem drainSvc_jobs (d : Dev) (n : Nat) : (Dev.drainSvc d n).jobs = d.jobs := by
  first
  | (unfold Dev.drainSvc; simp only [bump_jobs, sendFrame_jobs]; done)
  | (unfold Dev.drainSvc; with_reducible rfl)
  | (unfold Dev.drainSvc; simp; done)
  | (unfold Dev.drainSvc; (repeat' first | with_reducible rfl | (simp; done) | split); done)
  | (unfold Dev.drainSvc; try dsimp only
     (repeat' first | with_reducible rfl | (simp; done) | (with_reducible refine (foldl_jobs _ ?_ _ _).trans ?_ <;> try intro _ _) | dsimp only | split); done)

@[simp] theorem queueSvc_net (d : Dev) (n : Nat) (f : SFrameOut) : (Dev.queueSvc d n f).net = d.net := by
  first
  | (unfold Dev.queueSvc; simp only [drainSvc_net]; done)
  | (unfold Dev.queueSvc; with_reducible rfl)
  | (unfold Dev.queueSvc; simp; done)
  | (unfold Dev.queueSvc; (repeat' first | with_reducible rfl | (simp; done) | split); done)
  | (unfold Dev.queueSvc; try dsimp only
     (repeat' first | with_reducible rfl | (simp; done) | (with_reducible refine (foldl_net _ ?_ _ _).trans ?_ <;> try intro _ _) | dsimp only | split); done)

@[simp] theorem queueSvc_jobs (d : Dev) (n : Nat) (f : SFrameOut) : (Dev.queueSvc d n f).jobs = d.jobs := by
  first
  | (unfold Dev.queueSvc; simp only [drainSvc_jobs]; done)
  | (unfold Dev.queueSvc; with_reducible rfl)
  | (unfold Dev.queueSvc; simp; done)
  | (unfold Dev.queueSvc; (repeat' first | with_reducible rfl | (simp; done) | split); done)
  | (unfold Dev.queueSvc; try dsimp only
     (repeat' first | with_reducible rfl | (simp; done) | (with_reducible refine (foldl_jobs _ ?_ _ _).trans ?_ <;> try intro _ _) | dsimp only | split); done)

@[simp] theorem foldlP_net {α β : Type} (g : Dev × β → α → Dev × β) (h : ∀ r a, (g r a).1.net = r.1.net) (l : List α) (r : Dev × β) :
    (l.foldl g r).1.net = r.1.net := by
  induction l generalizing r with
  | nil => rfl
  | cons a t ih => exact (ih _).trans (h _ _)

@[simp] theorem foldlP_jobs {α β : Type} (g : Dev × β → α → Dev × β) (h : ∀ r a, (g r a).1.jobs = r.1.jobs) (l : List α) (r : Dev × β) :
    (l.foldl g r).1.jobs = r.1.jobs := by
  induction l generalizing r with
  | nil => rfl
  | cons a t ih => exact (ih _).trans (h _ _)

@[simp] theorem programPoison_net (d : Dev) (a : Nat) : (Dev.programPoison d a).net = d.net := by
  first
  | (unfold Dev.programPoison; with_reducible rfl)
  | (unfold Dev.programPoison; simp; done)
  | (unfold Dev.programPoison; (repeat' first | with_reducible rfl | (simp; done) | split); done)
  | (unfold Dev.programPoison; try dsimp only
     (repeat' first | with_reducible rfl | (simp; done) | (with_reducible refine (foldl_net _ ?_ _ _).trans ?_ <;> try intro _ _) | dsimp only | split); done)

@[simp] theorem programPoison_jobs (d : Dev) (a : Nat) : (Dev.programPoison d a).jobs = d.jobs := by
  first
  | (unfold Dev.programPoison; with_reducible rfl)
  | (unfold Dev.programPoison; simp; done)
  | (unfold Dev.programPoison; (repeat' first | with_reducible rfl | (simp; done) | split); done)
  | (unfold Dev.programPoison; try dsimp only
     (repeat' first | with_reducible rfl | (simp; done) | (with_reducible refine (foldl_jobs _ ?_ _ _).trans ?_ <;> try intro _ _) | dsimp only | split); done)

@[simp] theorem corrected_net (d : Dev) (source array addr symbols : Nat) : (Dev.corrected d source array addr symbols).net = d.net := by
  first
  | (unfold Dev.corrected; with_reducible rfl)
  | (unfold Dev.corrected; simp; done)
  | (unfold Dev.corrected; (repeat' first | with_reducible rfl | (simp; done) | split); done)
  | (unfold Dev.corrected; try dsimp only
     (repeat' first | with_reducible rfl | (simp; done) | (with_reducible refine (foldl_net _ ?_ _ _).trans ?_ <;> try intro _ _) | dsimp only | split); done)

@[simp] theorem corrected_jobs (d : Dev) (source array addr symbols : Nat) : (Dev.corrected d source array addr symbols).jobs = d.jobs := by
  first
  | (unfold Dev.corrected; with_reducible rfl)
  | (unfold Dev.corrected; simp; done)
  | (unfold Dev.corrected; (repeat' first | with_reducible rfl | (simp; done) | split); done)
  | (unfold Dev.corrected; try dsimp only
     (repeat' first | with_reducible rfl | (simp; done) | (with_reducible refine (foldl_jobs _ ?_ _ _).trans ?_ <;> try intro _ _) | dsimp only | split); done)

@[simp] theorem uncorrectable_net (d : Dev) (source array addr : Nat) : (Dev.uncorrectable d source array addr).net = d.net := by
  first
  | (unfold Dev.uncorrectable; with_reducible rfl)
  | (unfold Dev.uncorrectable; simp; done)
  | (unfold Dev.uncorrectable; (repeat' first | with_reducible rfl | (simp; done) | split); done)
  | (unfold Dev.uncorrectable; try dsimp only
     (repeat' first | with_reducible rfl | (simp; done) | (with_reducible refine (foldl_net _ ?_ _ _).trans ?_ <;> try intro _ _) | dsimp only | split); done)

@[simp] theorem uncorrectable_jobs (d : Dev) (source array addr : Nat) : (Dev.uncorrectable d source array addr).jobs = d.jobs := by
  first
  | (unfold Dev.uncorrectable; with_reducible rfl)
  | (unfold Dev.uncorrectable; simp; done)
  | (unfold Dev.uncorrectable; (repeat' first | with_reducible rfl | (simp; done) | split); done)
  | (unfold Dev.uncorrectable; try dsimp only
     (repeat' first | with_reducible rfl | (simp; done) | (with_reducible refine (foldl_jobs _ ?_ _ _).trans ?_ <;> try intro _ _) | dsimp only | split); done)

@[simp] theorem sramCorrected_net (d : Dev) (source a w : Nat) : (Dev.sramCorrected d source a w).net = d.net := by
  first
  | (unfold Dev.sramCorrected; with_reducible rfl)
  | (unfold Dev.sramCorrected; simp; done)
  | (unfold Dev.sramCorrected; (repeat' first | with_reducible rfl | (simp; done) | split); done)
  | (unfold Dev.sramCorrected; try dsimp only
     (repeat' first | with_reducible rfl | (simp; done) | (with_reducible refine (foldl_net _ ?_ _ _).trans ?_ <;> try intro _ _) | dsimp only | split); done)

@[simp] theorem sramCorrected_jobs (d : Dev) (source a w : Nat) : (Dev.sramCorrected d source a w).jobs = d.jobs := by
  first
  | (unfold Dev.sramCorrected; with_reducible rfl)
  | (unfold Dev.sramCorrected; simp; done)
  | (unfold Dev.sramCorrected; (repeat' first | with_reducible rfl | (simp; done) | split); done)
  | (unfold Dev.sramCorrected; try dsimp only
     (repeat' first | with_reducible rfl | (simp; done) | (with_reducible refine (foldl_jobs _ ?_ _ _).trans ?_ <;> try intro _ _) | dsimp only | split); done)

@[simp] theorem remapLost_net (d : Dev) (source s w : Nat) : (Dev.remapLost d source s w).net = d.net := by
  first
  | (unfold Dev.remapLost; with_reducible rfl)
  | (unfold Dev.remapLost; simp; done)
  | (unfold Dev.remapLost; (repeat' first | with_reducible rfl | (simp; done) | split); done)
  | (unfold Dev.remapLost; try dsimp only
     (repeat' first | with_reducible rfl | (simp; done) | (with_reducible refine (foldl_net _ ?_ _ _).trans ?_ <;> try intro _ _) | dsimp only | split); done)

@[simp] theorem remapLost_jobs (d : Dev) (source s w : Nat) : (Dev.remapLost d source s w).jobs = d.jobs := by
  first
  | (unfold Dev.remapLost; with_reducible rfl)
  | (unfold Dev.remapLost; simp; done)
  | (unfold Dev.remapLost; (repeat' first | with_reducible rfl | (simp; done) | split); done)
  | (unfold Dev.remapLost; try dsimp only
     (repeat' first | with_reducible rfl | (simp; done) | (with_reducible refine (foldl_jobs _ ?_ _ _).trans ?_ <;> try intro _ _) | dsimp only | split); done)

@[simp] theorem unqueue_module (d : Dev) (gone : Fill → Bool) : (Dev.unqueue d gone).module = d.module := by
  first
  | (unfold Dev.unqueue; with_reducible rfl)
  | (unfold Dev.unqueue; simp; done)
  | (unfold Dev.unqueue; (repeat' first | with_reducible rfl | (simp; done) | split); done)
  | (unfold Dev.unqueue; try dsimp only
     (repeat' first | with_reducible rfl | (simp; done) | (with_reducible refine (foldl_module _ ?_ _ _).trans ?_ <;> try intro _ _) | dsimp only | split); done)

@[simp] theorem unqueue_net (d : Dev) (gone : Fill → Bool) : (Dev.unqueue d gone).net = d.net := by
  first
  | (unfold Dev.unqueue; with_reducible rfl)
  | (unfold Dev.unqueue; simp; done)
  | (unfold Dev.unqueue; (repeat' first | with_reducible rfl | (simp; done) | split); done)
  | (unfold Dev.unqueue; try dsimp only
     (repeat' first | with_reducible rfl | (simp; done) | (with_reducible refine (foldl_net _ ?_ _ _).trans ?_ <;> try intro _ _) | dsimp only | split); done)

@[simp] theorem unqueue_dir (d : Dev) (gone : Fill → Bool) : (Dev.unqueue d gone).dir = d.dir := by
  first
  | (unfold Dev.unqueue; with_reducible rfl)
  | (unfold Dev.unqueue; simp; done)
  | (unfold Dev.unqueue; (repeat' first | with_reducible rfl | (simp; done) | split); done)
  | (unfold Dev.unqueue; try dsimp only
     (repeat' first | with_reducible rfl | (simp; done) | (with_reducible refine (foldl_dir _ ?_ _ _).trans ?_ <;> try intro _ _) | dsimp only | split); done)

@[simp] theorem unqueue_jobs (d : Dev) (gone : Fill → Bool) : (Dev.unqueue d gone).jobs = d.jobs := by
  first
  | (unfold Dev.unqueue; with_reducible rfl)
  | (unfold Dev.unqueue; simp; done)
  | (unfold Dev.unqueue; (repeat' first | with_reducible rfl | (simp; done) | split); done)
  | (unfold Dev.unqueue; try dsimp only
     (repeat' first | with_reducible rfl | (simp; done) | (with_reducible refine (foldl_jobs _ ?_ _ _).trans ?_ <;> try intro _ _) | dsimp only | split); done)

@[simp] theorem unqueue_circuits (d : Dev) (gone : Fill → Bool) : (Dev.unqueue d gone).circuits = d.circuits := by
  first
  | (unfold Dev.unqueue; with_reducible rfl)
  | (unfold Dev.unqueue; simp; done)
  | (unfold Dev.unqueue; (repeat' first | with_reducible rfl | (simp; done) | split); done)
  | (unfold Dev.unqueue; try dsimp only
     (repeat' first | with_reducible rfl | (simp; done) | (with_reducible refine (foldl_circuits _ ?_ _ _).trans ?_ <;> try intro _ _) | dsimp only | split); done)

@[simp] theorem unqueue_runs (d : Dev) (gone : Fill → Bool) : (Dev.unqueue d gone).runs = d.runs := by
  first
  | (unfold Dev.unqueue; with_reducible rfl)
  | (unfold Dev.unqueue; simp; done)
  | (unfold Dev.unqueue; (repeat' first | with_reducible rfl | (simp; done) | split); done)
  | (unfold Dev.unqueue; try dsimp only
     (repeat' first | with_reducible rfl | (simp; done) | (with_reducible refine (foldl_runs _ ?_ _ _).trans ?_ <;> try intro _ _) | dsimp only | split); done)

@[simp] theorem unqueue_time (d : Dev) (gone : Fill → Bool) : (Dev.unqueue d gone).time = d.time := by
  first
  | (unfold Dev.unqueue; with_reducible rfl)
  | (unfold Dev.unqueue; simp; done)
  | (unfold Dev.unqueue; (repeat' first | with_reducible rfl | (simp; done) | split); done)
  | (unfold Dev.unqueue; try dsimp only
     (repeat' first | with_reducible rfl | (simp; done) | (with_reducible refine (foldl_time _ ?_ _ _).trans ?_ <;> try intro _ _) | dsimp only | split); done)

@[simp] theorem unqueue_eng (d : Dev) (gone : Fill → Bool) : (Dev.unqueue d gone).eng = d.eng := by
  first
  | (unfold Dev.unqueue; with_reducible rfl)
  | (unfold Dev.unqueue; simp; done)
  | (unfold Dev.unqueue; (repeat' first | with_reducible rfl | (simp; done) | split); done)
  | (unfold Dev.unqueue; try dsimp only
     (repeat' first | with_reducible rfl | (simp; done) | (with_reducible refine (foldl_eng _ ?_ _ _).trans ?_ <;> try intro _ _) | dsimp only | split); done)

@[simp] theorem unqueue_rings (d : Dev) (gone : Fill → Bool) : (Dev.unqueue d gone).rings = d.rings := by
  first
  | (unfold Dev.unqueue; with_reducible rfl)
  | (unfold Dev.unqueue; simp; done)
  | (unfold Dev.unqueue; (repeat' first | with_reducible rfl | (simp; done) | split); done)
  | (unfold Dev.unqueue; try dsimp only
     (repeat' first | with_reducible rfl | (simp; done) | (with_reducible refine (foldl_rings _ ?_ _ _).trans ?_ <;> try intro _ _) | dsimp only | split); done)

@[simp] theorem unqueue_arr (d : Dev) (gone : Fill → Bool) : (Dev.unqueue d gone).arr = d.arr := by
  first
  | (unfold Dev.unqueue; with_reducible rfl)
  | (unfold Dev.unqueue; simp; done)
  | (unfold Dev.unqueue; (repeat' first | with_reducible rfl | (simp; done) | split); done)
  | (unfold Dev.unqueue; try dsimp only
     (repeat' first | with_reducible rfl | (simp; done) | (with_reducible refine (foldl_arr _ ?_ _ _).trans ?_ <;> try intro _ _) | dsimp only | split); done)

@[simp] theorem unqueue_opt (d : Dev) (gone : Fill → Bool) : (Dev.unqueue d gone).opt = d.opt := by
  first
  | (unfold Dev.unqueue; with_reducible rfl)
  | (unfold Dev.unqueue; simp; done)
  | (unfold Dev.unqueue; (repeat' first | with_reducible rfl | (simp; done) | split); done)
  | (unfold Dev.unqueue; try dsimp only
     (repeat' first | with_reducible rfl | (simp; done) | (with_reducible refine (foldl_opt _ ?_ _ _).trans ?_ <;> try intro _ _) | dsimp only | split); done)

@[simp] theorem unqueue_disc (d : Dev) (gone : Fill → Bool) : (Dev.unqueue d gone).disc = d.disc := by
  first
  | (unfold Dev.unqueue; with_reducible rfl)
  | (unfold Dev.unqueue; simp; done)
  | (unfold Dev.unqueue; (repeat' first | with_reducible rfl | (simp; done) | split); done)
  | (unfold Dev.unqueue; try dsimp only
     (repeat' first | with_reducible rfl | (simp; done) | (with_reducible refine (foldl_disc _ ?_ _ _).trans ?_ <;> try intro _ _) | dsimp only | split); done)

@[simp] theorem unqueue_coll (d : Dev) (gone : Fill → Bool) : (Dev.unqueue d gone).coll = d.coll := by
  first
  | (unfold Dev.unqueue; with_reducible rfl)
  | (unfold Dev.unqueue; simp; done)
  | (unfold Dev.unqueue; (repeat' first | with_reducible rfl | (simp; done) | split); done)
  | (unfold Dev.unqueue; try dsimp only
     (repeat' first | with_reducible rfl | (simp; done) | (with_reducible refine (foldl_coll _ ?_ _ _).trans ?_ <;> try intro _ _) | dsimp only | split); done)

@[simp] theorem unqueue_faults (d : Dev) (gone : Fill → Bool) : (Dev.unqueue d gone).faults = d.faults := by
  first
  | (unfold Dev.unqueue; with_reducible rfl)
  | (unfold Dev.unqueue; simp; done)
  | (unfold Dev.unqueue; (repeat' first | with_reducible rfl | (simp; done) | split); done)
  | (unfold Dev.unqueue; try dsimp only
     (repeat' first | with_reducible rfl | (simp; done) | (with_reducible refine (foldl_faults _ ?_ _ _).trans ?_ <;> try intro _ _) | dsimp only | split); done)

@[simp] theorem unqueue_twin (d : Dev) (gone : Fill → Bool) : (Dev.unqueue d gone).twin = d.twin := by
  first
  | (unfold Dev.unqueue; with_reducible rfl)
  | (unfold Dev.unqueue; simp; done)
  | (unfold Dev.unqueue; (repeat' first | with_reducible rfl | (simp; done) | split); done)
  | (unfold Dev.unqueue; try dsimp only
     (repeat' first | with_reducible rfl | (simp; done) | (with_reducible refine (foldl_twin _ ?_ _ _).trans ?_ <;> try intro _ _) | dsimp only | split); done)

@[simp] theorem unqueue_power (d : Dev) (gone : Fill → Bool) : (Dev.unqueue d gone).power = d.power := by
  first
  | (unfold Dev.unqueue; with_reducible rfl)
  | (unfold Dev.unqueue; simp; done)
  | (unfold Dev.unqueue; (repeat' first | with_reducible rfl | (simp; done) | split); done)
  | (unfold Dev.unqueue; try dsimp only
     (repeat' first | with_reducible rfl | (simp; done) | (with_reducible refine (foldl_power _ ?_ _ _).trans ?_ <;> try intro _ _) | dsimp only | split); done)

@[simp] theorem unqueue_upd (d : Dev) (gone : Fill → Bool) : (Dev.unqueue d gone).upd = d.upd := by
  first
  | (unfold Dev.unqueue; with_reducible rfl)
  | (unfold Dev.unqueue; simp; done)
  | (unfold Dev.unqueue; (repeat' first | with_reducible rfl | (simp; done) | split); done)
  | (unfold Dev.unqueue; try dsimp only
     (repeat' first | with_reducible rfl | (simp; done) | (with_reducible refine (foldl_upd _ ?_ _ _).trans ?_ <;> try intro _ _) | dsimp only | split); done)

@[simp] theorem unqueue_recr (d : Dev) (gone : Fill → Bool) : (Dev.unqueue d gone).recr = d.recr := by
  first
  | (unfold Dev.unqueue; with_reducible rfl)
  | (unfold Dev.unqueue; simp; done)
  | (unfold Dev.unqueue; (repeat' first | with_reducible rfl | (simp; done) | split); done)
  | (unfold Dev.unqueue; try dsimp only
     (repeat' first | with_reducible rfl | (simp; done) | (with_reducible refine (foldl_recr _ ?_ _ _).trans ?_ <;> try intro _ _) | dsimp only | split); done)

@[simp] theorem unqueue_od (d : Dev) (gone : Fill → Bool) : (Dev.unqueue d gone).od = d.od := by
  first
  | (unfold Dev.unqueue; with_reducible rfl)
  | (unfold Dev.unqueue; simp; done)
  | (unfold Dev.unqueue; (repeat' first | with_reducible rfl | (simp; done) | split); done)
  | (unfold Dev.unqueue; try dsimp only
     (repeat' first | with_reducible rfl | (simp; done) | (with_reducible refine (foldl_od _ ?_ _ _).trans ?_ <;> try intro _ _) | dsimp only | split); done)

@[simp] theorem unqueue_ob (d : Dev) (gone : Fill → Bool) : (Dev.unqueue d gone).ob = d.ob := by
  first
  | (unfold Dev.unqueue; with_reducible rfl)
  | (unfold Dev.unqueue; simp; done)
  | (unfold Dev.unqueue; (repeat' first | with_reducible rfl | (simp; done) | split); done)
  | (unfold Dev.unqueue; try dsimp only
     (repeat' first | with_reducible rfl | (simp; done) | (with_reducible refine (foldl_ob _ ?_ _ _).trans ?_ <;> try intro _ _) | dsimp only | split); done)

@[simp] theorem unqueue_out (d : Dev) (gone : Fill → Bool) : (Dev.unqueue d gone).out = d.out := by
  first
  | (unfold Dev.unqueue; with_reducible rfl)
  | (unfold Dev.unqueue; simp; done)
  | (unfold Dev.unqueue; (repeat' first | with_reducible rfl | (simp; done) | split); done)
  | (unfold Dev.unqueue; try dsimp only
     (repeat' first | with_reducible rfl | (simp; done) | (with_reducible refine (foldl_out _ ?_ _ _).trans ?_ <;> try intro _ _) | dsimp only | split); done)

@[simp] theorem unqueue_fresh (d : Dev) (gone : Fill → Bool) : (Dev.unqueue d gone).fresh = d.fresh := by
  first
  | (unfold Dev.unqueue; with_reducible rfl)
  | (unfold Dev.unqueue; simp; done)
  | (unfold Dev.unqueue; (repeat' first | with_reducible rfl | (simp; done) | split); done)
  | (unfold Dev.unqueue; try dsimp only
     (repeat' first | with_reducible rfl | (simp; done) | (with_reducible refine (foldl_fresh _ ?_ _ _).trans ?_ <;> try intro _ _) | dsimp only | split); done)

@[simp] theorem ringPoisoned_net (d : Dev) (l : List Nat) : (Dev.ringPoisoned d l).net = d.net := by
  first
  | (unfold Dev.ringPoisoned; with_reducible rfl)
  | (unfold Dev.ringPoisoned; simp; done)
  | (unfold Dev.ringPoisoned; (repeat' first | with_reducible rfl | (simp; done) | split); done)
  | (unfold Dev.ringPoisoned; try dsimp only
     (repeat' first | with_reducible rfl | (simp; done) | (with_reducible refine (foldl_net _ ?_ _ _).trans ?_ <;> try intro _ _) | dsimp only | split); done)

@[simp] theorem ringPoisoned_jobs (d : Dev) (l : List Nat) : (Dev.ringPoisoned d l).jobs = d.jobs := by
  first
  | (unfold Dev.ringPoisoned; with_reducible rfl)
  | (unfold Dev.ringPoisoned; simp; done)
  | (unfold Dev.ringPoisoned; (repeat' first | with_reducible rfl | (simp; done) | split); done)
  | (unfold Dev.ringPoisoned; try dsimp only
     (repeat' first | with_reducible rfl | (simp; done) | (with_reducible refine (foldl_jobs _ ?_ _ _).trans ?_ <;> try intro _ _) | dsimp only | split); done)

@[simp] theorem readFlash_net (d : Dev) (sel : FlashPage → Bool) : (Dev.readFlash d sel).1.net = d.net := by
  first
  | (unfold Dev.readFlash; with_reducible rfl)
  | (unfold Dev.readFlash; simp; done)
  | (unfold Dev.readFlash; (repeat' first | with_reducible rfl | (simp; done) | split); done)
  | (unfold Dev.readFlash; try dsimp only
     (repeat' first | with_reducible rfl | (simp; done) | (with_reducible refine (foldlP_net _ ?_ _ _).trans ?_ <;> try intro _ _) | dsimp only | split); done)

@[simp] theorem readRetire_net (d : Dev) (s : Nat) : (Dev.readRetire d s).1.net = d.net := by
  first
  | (unfold Dev.readRetire; with_reducible rfl)
  | (unfold Dev.readRetire; simp; done)
  | (unfold Dev.readRetire; (repeat' first | with_reducible rfl | (simp; done) | split); done)
  | (unfold Dev.readRetire; try dsimp only
     (repeat' first | with_reducible rfl | (simp; done) | (with_reducible refine (foldlP_net _ ?_ _ _).trans ?_ <;> try intro _ _) | dsimp only | split); done)

@[simp] theorem loadRemap_net (m : Dev × Hbm) (s : Nat) : (loadRemap m s).1.net = m.1.net := by
  first
  | (unfold loadRemap; with_reducible rfl)
  | (unfold loadRemap; simp; done)
  | (unfold loadRemap; (repeat' first | with_reducible rfl | (simp; done) | split); done)
  | (unfold loadRemap; try dsimp only
     (repeat' first | with_reducible rfl | (simp; done) | (with_reducible refine (foldlM_net _ ?_ _ _).trans ?_ <;> try intro _ _) | dsimp only | split); done)

@[simp] theorem mapLost_net (m : Dev × Hbm) (source s w : Nat) : (mapLost m source s w).1.net = m.1.net := by
  first
  | (unfold mapLost; with_reducible rfl)
  | (unfold mapLost; simp; done)
  | (unfold mapLost; (repeat' first | with_reducible rfl | (simp; done) | split); done)
  | (unfold mapLost; try dsimp only
     (repeat' first | with_reducible rfl | (simp; done) | (with_reducible refine (foldlM_net _ ?_ _ _).trans ?_ <;> try intro _ _) | dsimp only | split); done)

@[simp] theorem tableReady_net (m : Dev × Hbm) (s : Nat) : (tableReady m s).1.net = m.1.net := by
  first
  | (unfold tableReady; with_reducible rfl)
  | (unfold tableReady; simp; done)
  | (unfold tableReady; (repeat' first | with_reducible rfl | (simp; done) | split); done)
  | (unfold tableReady; try dsimp only
     (repeat' first | with_reducible rfl | (simp; done) | (with_reducible refine (foldl_net _ ?_ _ _).trans ?_ <;> try intro _ _) | dsimp only | split); done)

@[simp] theorem mapReady_net (m : Dev × Hbm) (s p : Nat) : (mapReady m s p).1.net = m.1.net := by
  first
  | (unfold mapReady; with_reducible rfl)
  | (unfold mapReady; simp; done)
  | (unfold mapReady; (repeat' first | with_reducible rfl | (simp; done) | split); done)
  | (unfold mapReady; try dsimp only
     (repeat' first | with_reducible rfl | (simp; done) | (with_reducible refine (foldlM_net _ ?_ _ _).trans ?_ <;> try intro _ _) | dsimp only | split); done)

@[simp] theorem served_net (m : Dev × Hbm) (off : Nat) : (served m off).1.1.net = m.1.net := by
  first
  | (unfold served; with_reducible rfl)
  | (unfold served; simp; done)
  | (unfold served; (repeat' first | with_reducible rfl | (simp; done) | split); done)
  | (unfold served; try dsimp only
     (repeat' first | with_reducible rfl | (simp; done) | (with_reducible refine (foldlM_net _ ?_ _ _).trans ?_ <;> try intro _ _) | dsimp only | split); done)

@[simp] theorem decodeWord_net (m : Dev × Hbm) (source s w : Nat) : (decodeWord m source s w).1.1.net = m.1.net := by
  first
  | (unfold decodeWord; with_reducible rfl)
  | (unfold decodeWord; simp; done)
  | (unfold decodeWord; (repeat' first | with_reducible rfl | (simp; done) | split); done)
  | (unfold decodeWord; try dsimp only
     (repeat' first | with_reducible rfl | (simp; done) | (with_reducible refine (foldlM_net _ ?_ _ _).trans ?_ <;> try intro _ _) | dsimp only | split); done)

@[simp] theorem readFlash_jobs (d : Dev) (sel : FlashPage → Bool) : (Dev.readFlash d sel).1.jobs = d.jobs := by
  first
  | (unfold Dev.readFlash; with_reducible rfl)
  | (unfold Dev.readFlash; simp; done)
  | (unfold Dev.readFlash; (repeat' first | with_reducible rfl | (simp; done) | split); done)
  | (unfold Dev.readFlash; try dsimp only
     (repeat' first | with_reducible rfl | (simp; done) | (with_reducible refine (foldlP_jobs _ ?_ _ _).trans ?_ <;> try intro _ _) | dsimp only | split); done)

@[simp] theorem readRetire_jobs (d : Dev) (s : Nat) : (Dev.readRetire d s).1.jobs = d.jobs := by
  first
  | (unfold Dev.readRetire; with_reducible rfl)
  | (unfold Dev.readRetire; simp; done)
  | (unfold Dev.readRetire; (repeat' first | with_reducible rfl | (simp; done) | split); done)
  | (unfold Dev.readRetire; try dsimp only
     (repeat' first | with_reducible rfl | (simp; done) | (with_reducible refine (foldlP_jobs _ ?_ _ _).trans ?_ <;> try intro _ _) | dsimp only | split); done)

@[simp] theorem loadRemap_jobs (m : Dev × Hbm) (s : Nat) : (loadRemap m s).1.jobs = m.1.jobs := by
  first
  | (unfold loadRemap; with_reducible rfl)
  | (unfold loadRemap; simp; done)
  | (unfold loadRemap; (repeat' first | with_reducible rfl | (simp; done) | split); done)
  | (unfold loadRemap; try dsimp only
     (repeat' first | with_reducible rfl | (simp; done) | (with_reducible refine (foldlM_jobs _ ?_ _ _).trans ?_ <;> try intro _ _) | dsimp only | split); done)

@[simp] theorem mapLost_jobs (m : Dev × Hbm) (source s w : Nat) : (mapLost m source s w).1.jobs = m.1.jobs := by
  first
  | (unfold mapLost; with_reducible rfl)
  | (unfold mapLost; simp; done)
  | (unfold mapLost; (repeat' first | with_reducible rfl | (simp; done) | split); done)
  | (unfold mapLost; try dsimp only
     (repeat' first | with_reducible rfl | (simp; done) | (with_reducible refine (foldlM_jobs _ ?_ _ _).trans ?_ <;> try intro _ _) | dsimp only | split); done)

@[simp] theorem tableReady_jobs (m : Dev × Hbm) (s : Nat) : (tableReady m s).1.jobs = m.1.jobs := by
  first
  | (unfold tableReady; with_reducible rfl)
  | (unfold tableReady; simp; done)
  | (unfold tableReady; (repeat' first | with_reducible rfl | (simp; done) | split); done)
  | (unfold tableReady; try dsimp only
     (repeat' first | with_reducible rfl | (simp; done) | (with_reducible refine (foldl_jobs _ ?_ _ _).trans ?_ <;> try intro _ _) | dsimp only | split); done)

@[simp] theorem mapReady_jobs (m : Dev × Hbm) (s p : Nat) : (mapReady m s p).1.jobs = m.1.jobs := by
  first
  | (unfold mapReady; with_reducible rfl)
  | (unfold mapReady; simp; done)
  | (unfold mapReady; (repeat' first | with_reducible rfl | (simp; done) | split); done)
  | (unfold mapReady; try dsimp only
     (repeat' first | with_reducible rfl | (simp; done) | (with_reducible refine (foldlM_jobs _ ?_ _ _).trans ?_ <;> try intro _ _) | dsimp only | split); done)

@[simp] theorem served_jobs (m : Dev × Hbm) (off : Nat) : (served m off).1.1.jobs = m.1.jobs := by
  first
  | (unfold served; with_reducible rfl)
  | (unfold served; simp; done)
  | (unfold served; (repeat' first | with_reducible rfl | (simp; done) | split); done)
  | (unfold served; try dsimp only
     (repeat' first | with_reducible rfl | (simp; done) | (with_reducible refine (foldlM_jobs _ ?_ _ _).trans ?_ <;> try intro _ _) | dsimp only | split); done)

@[simp] theorem decodeWord_jobs (m : Dev × Hbm) (source s w : Nat) : (decodeWord m source s w).1.1.jobs = m.1.jobs := by
  first
  | (unfold decodeWord; with_reducible rfl)
  | (unfold decodeWord; simp; done)
  | (unfold decodeWord; (repeat' first | with_reducible rfl | (simp; done) | split); done)
  | (unfold decodeWord; try dsimp only
     (repeat' first | with_reducible rfl | (simp; done) | (with_reducible refine (foldlM_jobs _ ?_ _ _).trans ?_ <;> try intro _ _) | dsimp only | split); done)

@[simp] theorem readWord_net (m : Dev × Hbm) (off : Nat) : (readWord m off).1.1.net = m.1.net := by
  first
  | (unfold readWord; simp only [memEvent_net, bump_net]; done)
  | (unfold readWord; with_reducible rfl)
  | (unfold readWord; simp; done)
  | (unfold readWord; (repeat' first | with_reducible rfl | (simp; done) | split); done)
  | (unfold readWord; try dsimp only
     (repeat' first | with_reducible rfl | (simp; done) | (with_reducible refine (foldlM_net _ ?_ _ _).trans ?_ <;> try intro _ _) | dsimp only | split); done)

@[simp] theorem readWord_jobs (m : Dev × Hbm) (off : Nat) : (readWord m off).1.1.jobs = m.1.jobs := by
  first
  | (unfold readWord; simp only [memEvent_jobs, bump_jobs]; done)
  | (unfold readWord; with_reducible rfl)
  | (unfold readWord; simp; done)
  | (unfold readWord; (repeat' first | with_reducible rfl | (simp; done) | split); done)
  | (unfold readWord; try dsimp only
     (repeat' first | with_reducible rfl | (simp; done) | (with_reducible refine (foldlM_jobs _ ?_ _ _).trans ?_ <;> try intro _ _) | dsimp only | split); done)

@[simp] theorem readElem_net (m : Dev × Hbm) (off k : Nat) : (readElem m off k).1.1.net = m.1.net := by
  first
  | (unfold readElem; simp only [readWord_net]; done)
  | (unfold readElem; with_reducible rfl)
  | (unfold readElem; simp; done)
  | (unfold readElem; (repeat' first | with_reducible rfl | (simp; done) | split); done)
  | (unfold readElem; try dsimp only
     (repeat' first | with_reducible rfl | (simp; done) | (with_reducible refine (foldlM_net _ ?_ _ _).trans ?_ <;> try intro _ _) | dsimp only | split); done)

@[simp] theorem readElem_jobs (m : Dev × Hbm) (off k : Nat) : (readElem m off k).1.1.jobs = m.1.jobs := by
  first
  | (unfold readElem; simp only [readWord_jobs]; done)
  | (unfold readElem; with_reducible rfl)
  | (unfold readElem; simp; done)
  | (unfold readElem; (repeat' first | with_reducible rfl | (simp; done) | split); done)
  | (unfold readElem; try dsimp only
     (repeat' first | with_reducible rfl | (simp; done) | (with_reducible refine (foldlM_jobs _ ?_ _ _).trans ?_ <;> try intro _ _) | dsimp only | split); done)

@[simp] theorem readMaster_net (m : Dev × Hbm) (b : Bytes) (i : Nat) : (readMaster m b i).1.1.net = m.1.net := by
  first
  | (unfold readMaster; simp only [readElem_net]; done)
  | (unfold readMaster; with_reducible rfl)
  | (unfold readMaster; simp; done)
  | (unfold readMaster; (repeat' first | with_reducible rfl | (simp; done) | split); done)
  | (unfold readMaster; try dsimp only
     (repeat' first | with_reducible rfl | (simp; done) | (with_reducible refine (foldlM_net _ ?_ _ _).trans ?_ <;> try intro _ _) | dsimp only | split); done)

@[simp] theorem readMaster_jobs (m : Dev × Hbm) (b : Bytes) (i : Nat) : (readMaster m b i).1.1.jobs = m.1.jobs := by
  first
  | (unfold readMaster; simp only [readElem_jobs]; done)
  | (unfold readMaster; with_reducible rfl)
  | (unfold readMaster; simp; done)
  | (unfold readMaster; (repeat' first | with_reducible rfl | (simp; done) | split); done)
  | (unfold readMaster; try dsimp only
     (repeat' first | with_reducible rfl | (simp; done) | (with_reducible refine (foldlM_jobs _ ?_ _ _).trans ?_ <;> try intro _ _) | dsimp only | split); done)

@[simp] theorem readMasters_net (m : Dev × Hbm) (b : Bytes) (i n : Nat) : (readMasters m b i n).1.1.net = m.1.net := by
  induction n generalizing m i with
  | zero => rfl
  | succ n ih =>
    unfold readMasters
    dsimp only
    rw [ih]
    simp

@[simp] theorem readMasters_jobs (m : Dev × Hbm) (b : Bytes) (i n : Nat) : (readMasters m b i n).1.1.jobs = m.1.jobs := by
  induction n generalizing m i with
  | zero => rfl
  | succ n ih =>
    unfold readMasters
    dsimp only
    rw [ih]
    simp

@[simp] theorem countOverflows_net (d : Dev) (b : Bytes) (l : List Nat) : (Dev.countOverflows d b l).net = d.net := by
  first
  | (unfold Dev.countOverflows; with_reducible rfl)
  | (unfold Dev.countOverflows; simp; done)
  | (unfold Dev.countOverflows; (repeat' first | with_reducible rfl | (simp; done) | split); done)
  | (unfold Dev.countOverflows; try dsimp only
     (repeat' first | with_reducible rfl | (simp; done) | (with_reducible refine (foldl_net _ ?_ _ _).trans ?_ <;> try intro _ _) | dsimp only | split); done)

@[simp] theorem countOverflows_jobs (d : Dev) (b : Bytes) (l : List Nat) : (Dev.countOverflows d b l).jobs = d.jobs := by
  first
  | (unfold Dev.countOverflows; with_reducible rfl)
  | (unfold Dev.countOverflows; simp; done)
  | (unfold Dev.countOverflows; (repeat' first | with_reducible rfl | (simp; done) | split); done)
  | (unfold Dev.countOverflows; try dsimp only
     (repeat' first | with_reducible rfl | (simp; done) | (with_reducible refine (foldl_jobs _ ?_ _ _).trans ?_ <;> try intro _ _) | dsimp only | split); done)

@[simp] theorem workFrames_net (m : Dev × Hbm) (j n last : Nat) (c i : Nat) : (workFrames m j n last c i).1.net = m.1.net := by
  induction c generalizing m i with
  | zero => rfl
  | succ c ih =>
    unfold workFrames
    split
    · rfl
    · dsimp only
      rw [ih]
      simp

@[simp] theorem workFrames_jobs (m : Dev × Hbm) (j n last : Nat) (c i : Nat) : (workFrames m j n last c i).1.jobs = m.1.jobs := by
  induction c generalizing m i with
  | zero => rfl
  | succ c ih =>
    unfold workFrames
    split
    · rfl
    · dsimp only
      rw [ih]
      simp

@[simp] theorem workOut_net (m : Dev × Hbm) (j : Nat) : (workOut m j).1.net = m.1.net := by
  first
  | (unfold workOut; simp only [workFrames_net]; done)
  | (unfold workOut; with_reducible rfl)
  | (unfold workOut; simp; done)
  | (unfold workOut; (repeat' first | with_reducible rfl | (simp; done) | split); done)
  | (unfold workOut; try dsimp only
     (repeat' first | with_reducible rfl | (simp; done) | (with_reducible refine (foldlM_net _ ?_ _ _).trans ?_ <;> try intro _ _) | dsimp only | split); done)

@[simp] theorem workOut_jobs (m : Dev × Hbm) (j : Nat) : (workOut m j).1.jobs = m.1.jobs := by
  first
  | (unfold workOut; simp only [workFrames_jobs]; done)
  | (unfold workOut; with_reducible rfl)
  | (unfold workOut; simp; done)
  | (unfold workOut; (repeat' first | with_reducible rfl | (simp; done) | split); done)
  | (unfold workOut; try dsimp only
     (repeat' first | with_reducible rfl | (simp; done) | (with_reducible refine (foldlM_jobs _ ?_ _ _).trans ?_ <;> try intro _ _) | dsimp only | split); done)

@[simp] theorem engineStart_net (m : Dev × Hbm) (j : Nat) : (engineStart m j).1.net = m.1.net := by
  first
  | (unfold engineStart; simp only [stepMarks_net, modEngJob_net]; done)
  | (unfold engineStart; with_reducible rfl)
  | (unfold engineStart; simp; done)
  | (unfold engineStart; (repeat' first | with_reducible rfl | (simp; done) | split); done)
  | (unfold engineStart; try dsimp only
     (repeat' first | with_reducible rfl | (simp; done) | (with_reducible refine (foldlM_net _ ?_ _ _).trans ?_ <;> try intro _ _) | dsimp only | split); done)

@[simp] theorem engineStart_jobs (m : Dev × Hbm) (j : Nat) : (engineStart m j).1.jobs = m.1.jobs := by
  first
  | (unfold engineStart; simp only [stepMarks_jobs, modEngJob_jobs]; done)
  | (unfold engineStart; with_reducible rfl)
  | (unfold engineStart; simp; done)
  | (unfold engineStart; (repeat' first | with_reducible rfl | (simp; done) | split); done)
  | (unfold engineStart; try dsimp only
     (repeat' first | with_reducible rfl | (simp; done) | (with_reducible refine (foldlM_jobs _ ?_ _ _).trans ?_ <;> try intro _ _) | dsimp only | split); done)

@[simp] theorem startJob_net (m : Mach) (j : Nat) : (startJob m j).1.net = m.1.net := by
  first
  | (unfold startJob; simp only [reportJob_net, modRun_net, modJob_net, placeNext_net, engineStart_net, revote_net]; done)
  | (unfold startJob; with_reducible rfl)
  | (unfold startJob; simp; done)
  | (unfold startJob; (repeat' first | with_reducible rfl | (simp; done) | split); done)
  | (unfold startJob; try dsimp only
     (repeat' first | with_reducible rfl | (simp; done) | (with_reducible refine (foldlM_net _ ?_ _ _).trans ?_ <;> try intro _ _) | dsimp only | split); done)

@[simp] theorem mirrorFrame_net (d : Dev) (job bank region flags step off : Nat) (data : Bytes) : (Dev.mirrorFrame d job bank region flags step off data).net = d.net := by
  first
  | (unfold Dev.mirrorFrame; simp only [sendFrame_net]; done)
  | (unfold Dev.mirrorFrame; with_reducible rfl)
  | (unfold Dev.mirrorFrame; simp; done)
  | (unfold Dev.mirrorFrame; (repeat' first | with_reducible rfl | (simp; done) | split); done)
  | (unfold Dev.mirrorFrame; try dsimp only
     (repeat' first | with_reducible rfl | (simp; done) | (with_reducible refine (foldl_net _ ?_ _ _).trans ?_ <;> try intro _ _) | dsimp only | split); done)

@[simp] theorem writeWord_net (m : Dev × Hbm) (off : Nat) (data : Bytes) (poison : Bool) : (writeWord m off data poison).1.net = m.1.net := by
  first
  | (unfold writeWord; simp only [setNum_net]; done)
  | (unfold writeWord; with_reducible rfl)
  | (unfold writeWord; simp; done)
  | (unfold writeWord; (repeat' first | with_reducible rfl | (simp; done) | split); done)
  | (unfold writeWord; try dsimp only
     (repeat' first | with_reducible rfl | (simp; done) | (with_reducible refine (foldlM_net _ ?_ _ _).trans ?_ <;> try intro _ _) | dsimp only | split); done)

@[simp] theorem restoreBank_net (m : Dev × Hbm) (j b : Nat) : (restoreBank m j b).1.net = m.1.net := by
  first
  | (unfold restoreBank; simp only [readWord_net, writeWord_net, modMirror_net, modEngJob_net]; done)
  | (unfold restoreBank; with_reducible rfl)
  | (unfold restoreBank; simp; done)
  | (unfold restoreBank; (repeat' first | with_reducible rfl | (simp; done) | split); done)
  | (unfold restoreBank; try dsimp only
     (repeat' first | with_reducible rfl | (simp; done) | (with_reducible refine (foldlM_net _ ?_ _ _).trans ?_ <;> try intro _ _) | dsimp only | split); done)

@[simp] theorem beginRestore_net (m : Mach) (j s : Nat) : (beginRestore m j s).1.net = m.1.net := by
  first
  | (unfold beginRestore; simp only [modMirror_net, mirrorFrame_net, restoreBank_net]; done)
  | (unfold beginRestore; with_reducible rfl)
  | (unfold beginRestore; simp; done)
  | (unfold beginRestore; (repeat' first | with_reducible rfl | (simp; done) | split); done)
  | (unfold beginRestore; try dsimp only
     (repeat' first | with_reducible rfl | (simp; done) | (with_reducible refine (foldlM_net _ ?_ _ _).trans ?_ <;> try intro _ _) | dsimp only | split); done)

@[simp] theorem dropPages_net (m : Dev × Hbm) (pages : List Nat) : (dropPages m pages).1.net = m.1.net := by
  first
  | (unfold dropPages; with_reducible rfl)
  | (unfold dropPages; simp; done)
  | (unfold dropPages; (repeat' first | with_reducible rfl | (simp; done) | split); done)
  | (unfold dropPages; try dsimp only
     (repeat' first | with_reducible rfl | (simp; done) | (with_reducible refine (foldlM_net _ ?_ _ _).trans ?_ <;> try intro _ _) | dsimp only | split); done)

@[simp] theorem dropRegions_net (m : Mach) (j : Nat) (kinds : List Nat) : (dropRegions m j kinds).1.net = m.1.net := by
  first
  | (unfold dropRegions; with_reducible rfl)
  | (unfold dropRegions; simp; done)
  | (unfold dropRegions; (repeat' first | with_reducible rfl | (simp; done) | split); done)
  | (unfold dropRegions; try dsimp only
     (repeat' first | with_reducible rfl | (simp; done) | (with_reducible refine (foldlM_net _ ?_ _ _).trans ?_ <;> try intro _ _) | dsimp only | split); done)

@[simp] theorem dropSlots_net (m : Mach) (slots : List Nat) : (dropSlots m slots).1.net = m.1.net := by
  first
  | (unfold dropSlots; with_reducible rfl)
  | (unfold dropSlots; simp; done)
  | (unfold dropSlots; (repeat' first | with_reducible rfl | (simp; done) | split); done)
  | (unfold dropSlots; try dsimp only
     (repeat' first | with_reducible rfl | (simp; done) | (with_reducible refine (foldlM_net _ ?_ _ _).trans ?_ <;> try intro _ _) | dsimp only | split); done)

@[simp] theorem enginePlanned_net (d : Dev) (j : Nat) : (Dev.enginePlanned d j).net = d.net := by
  first
  | (unfold Dev.enginePlanned; simp only [modEngJob_net]; done)
  | (unfold Dev.enginePlanned; with_reducible rfl)
  | (unfold Dev.enginePlanned; simp; done)
  | (unfold Dev.enginePlanned; (repeat' first | with_reducible rfl | (simp; done) | split); done)
  | (unfold Dev.enginePlanned; try dsimp only
     (repeat' first | with_reducible rfl | (simp; done) | (with_reducible refine (foldl_net _ ?_ _ _).trans ?_ <;> try intro _ _) | dsimp only | split); done)

theorem dropFold_dev {α : Type} (g : Mach → α → Mach) (h : ∀ m a, (g m a).1 = m.1) (l : List α) (m : Mach) : (l.foldl g m).1 = m.1 := by
  induction l generalizing m with
  | nil => rfl
  | cons a t ih => exact (ih _).trans (h _ _)

@[simp] theorem collCommand_net (m : Mach) (j x : Nat) : (collCommand m j x).1.net = m.1.net := by
  first
  | (unfold collCommand; simp only [dropPages_net, modEngJob_net, enginePlanned_net]; done)
  | (unfold collCommand; with_reducible rfl)
  | (unfold collCommand; simp; done)
  | (unfold collCommand; (repeat' first | with_reducible rfl | (simp; done) | split); done)
  | (unfold collCommand; try dsimp only
     (repeat' first | with_reducible rfl | (simp; done) | (with_reducible refine (foldlM_net _ ?_ _ _).trans ?_ <;> try intro _ _) | dsimp only | split); done)

@[simp] theorem copyPage_net (m : Mach) (s p q : Nat) : (copyPage m s p q).1.net = m.1.net := by
  first
  | (unfold copyPage; with_reducible rfl)
  | (unfold copyPage; simp; done)
  | (unfold copyPage; (repeat' first | with_reducible rfl | (simp; done) | split); done)
  | (unfold copyPage; try dsimp only
     (repeat' first | with_reducible rfl | (simp; done) | (with_reducible refine (foldlM_net _ ?_ _ _).trans ?_ <;> try intro _ _) | dsimp only | split); done)

@[simp] theorem retirePage_net (m : Mach) (s p : Nat) : (retirePage m s p).1.net = m.1.net := by
  first
  | (unfold retirePage; simp only [emit_net, setOct_net]; done)
  | (unfold retirePage; with_reducible rfl)
  | (unfold retirePage; simp; done)
  | (unfold retirePage; (repeat' first | with_reducible rfl | (simp; done) | split); done)
  | (unfold retirePage; try dsimp only
     (repeat' first | with_reducible rfl | (simp; done) | (with_reducible refine (foldlM_net _ ?_ _ _).trans ?_ <;> try intro _ _) | dsimp only | split); done)

@[simp] theorem store_net (d : Dev) (index sub : Nat) (v : Bytes) : (Dev.store d index sub v).net = d.net := by
  first
  | (unfold Dev.store; simp only [setNum_net, setOct_net]; done)
  | (unfold Dev.store; with_reducible rfl)
  | (unfold Dev.store; simp; done)
  | (unfold Dev.store; (repeat' first | with_reducible rfl | (simp; done) | split); done)
  | (unfold Dev.store; try dsimp only
     (repeat' first | with_reducible rfl | (simp; done) | (with_reducible refine (foldl_net _ ?_ _ _).trans ?_ <;> try intro _ _) | dsimp only | split); done)

@[simp] theorem persist_net (d : Dev) (c : Client) (index sub : Nat) : (Dev.persist d c index sub).1.net = d.net := by
  first
  | (unfold Dev.persist; simp only [copyItem_net]; done)
  | (unfold Dev.persist; with_reducible rfl)
  | (unfold Dev.persist; simp; done)
  | (unfold Dev.persist; (repeat' first | with_reducible rfl | (simp; done) | split); done)
  | (unfold Dev.persist; try dsimp only
     (repeat' first | with_reducible rfl | (simp; done) | (with_reducible refine (foldl_net _ ?_ _ _).trans ?_ <;> try intro _ _) | dsimp only | split); done)

@[simp] theorem replayRun_net (d : Dev) : (Dev.replayRun d).1.net = d.net := by
  first
  | (unfold Dev.replayRun; with_reducible rfl)
  | (unfold Dev.replayRun; simp; done)
  | (unfold Dev.replayRun; (repeat' first | with_reducible rfl | (simp; done) | split); done)
  | (unfold Dev.replayRun; try dsimp only
     (repeat' first | with_reducible rfl | (simp; done) | (with_reducible refine (foldl_net _ ?_ _ _).trans ?_ <;> try intro _ _) | dsimp only | split); done)

@[simp] theorem setPorts_net (d : Dev) (j m : Nat) : (Dev.setPorts d j m).net = d.net := by
  first
  | (unfold Dev.setPorts; simp only [refreshAllProbing_net, modJob_net]; done)
  | (unfold Dev.setPorts; with_reducible rfl)
  | (unfold Dev.setPorts; simp; done)
  | (unfold Dev.setPorts; (repeat' first | with_reducible rfl | (simp; done) | split); done)
  | (unfold Dev.setPorts; try dsimp only
     (repeat' first | with_reducible rfl | (simp; done) | (with_reducible refine (foldl_net _ ?_ _ _).trans ?_ <;> try intro _ _) | dsimp only | split); done)

@[simp] theorem faultAck_module (d : Dev) : (Dev.faultAck d).module = d.module := by
  first
  | (unfold Dev.faultAck; simp only [setFlag_module, acknowledge_module, unlatch_module, coldSeedAxis_module]; done)
  | (unfold Dev.faultAck; with_reducible rfl)
  | (unfold Dev.faultAck; simp; done)
  | (unfold Dev.faultAck; (repeat' first | with_reducible rfl | (simp; done) | split); done)
  | (unfold Dev.faultAck; try dsimp only
     (repeat' first | with_reducible rfl | (simp; done) | (with_reducible refine (foldl_module _ ?_ _ _).trans ?_ <;> try intro _ _) | dsimp only | split); done)

@[simp] theorem faultAck_net (d : Dev) : (Dev.faultAck d).net = d.net := by
  first
  | (unfold Dev.faultAck; simp only [setFlag_net, acknowledge_net, unlatch_net, coldSeedAxis_net]; done)
  | (unfold Dev.faultAck; with_reducible rfl)
  | (unfold Dev.faultAck; simp; done)
  | (unfold Dev.faultAck; (repeat' first | with_reducible rfl | (simp; done) | split); done)
  | (unfold Dev.faultAck; try dsimp only
     (repeat' first | with_reducible rfl | (simp; done) | (with_reducible refine (foldl_net _ ?_ _ _).trans ?_ <;> try intro _ _) | dsimp only | split); done)

@[simp] theorem faultAck_dir (d : Dev) : (Dev.faultAck d).dir = d.dir := by
  first
  | (unfold Dev.faultAck; simp only [setFlag_dir, acknowledge_dir, unlatch_dir, coldSeedAxis_dir]; done)
  | (unfold Dev.faultAck; with_reducible rfl)
  | (unfold Dev.faultAck; simp; done)
  | (unfold Dev.faultAck; (repeat' first | with_reducible rfl | (simp; done) | split); done)
  | (unfold Dev.faultAck; try dsimp only
     (repeat' first | with_reducible rfl | (simp; done) | (with_reducible refine (foldl_dir _ ?_ _ _).trans ?_ <;> try intro _ _) | dsimp only | split); done)

@[simp] theorem faultAck_jobs (d : Dev) : (Dev.faultAck d).jobs = d.jobs := by
  first
  | (unfold Dev.faultAck; simp only [setFlag_jobs, acknowledge_jobs, unlatch_jobs, coldSeedAxis_jobs]; done)
  | (unfold Dev.faultAck; with_reducible rfl)
  | (unfold Dev.faultAck; simp; done)
  | (unfold Dev.faultAck; (repeat' first | with_reducible rfl | (simp; done) | split); done)
  | (unfold Dev.faultAck; try dsimp only
     (repeat' first | with_reducible rfl | (simp; done) | (with_reducible refine (foldl_jobs _ ?_ _ _).trans ?_ <;> try intro _ _) | dsimp only | split); done)

@[simp] theorem faultAck_circuits (d : Dev) : (Dev.faultAck d).circuits = d.circuits := by
  first
  | (unfold Dev.faultAck; simp only [setFlag_circuits, acknowledge_circuits, unlatch_circuits, coldSeedAxis_circuits]; done)
  | (unfold Dev.faultAck; with_reducible rfl)
  | (unfold Dev.faultAck; simp; done)
  | (unfold Dev.faultAck; (repeat' first | with_reducible rfl | (simp; done) | split); done)
  | (unfold Dev.faultAck; try dsimp only
     (repeat' first | with_reducible rfl | (simp; done) | (with_reducible refine (foldl_circuits _ ?_ _ _).trans ?_ <;> try intro _ _) | dsimp only | split); done)

@[simp] theorem faultAck_runs (d : Dev) : (Dev.faultAck d).runs = d.runs := by
  first
  | (unfold Dev.faultAck; simp only [setFlag_runs, acknowledge_runs, unlatch_runs, coldSeedAxis_runs]; done)
  | (unfold Dev.faultAck; with_reducible rfl)
  | (unfold Dev.faultAck; simp; done)
  | (unfold Dev.faultAck; (repeat' first | with_reducible rfl | (simp; done) | split); done)
  | (unfold Dev.faultAck; try dsimp only
     (repeat' first | with_reducible rfl | (simp; done) | (with_reducible refine (foldl_runs _ ?_ _ _).trans ?_ <;> try intro _ _) | dsimp only | split); done)

@[simp] theorem faultAck_time (d : Dev) : (Dev.faultAck d).time = d.time := by
  first
  | (unfold Dev.faultAck; simp only [setFlag_time, acknowledge_time, unlatch_time, coldSeedAxis_time]; done)
  | (unfold Dev.faultAck; with_reducible rfl)
  | (unfold Dev.faultAck; simp; done)
  | (unfold Dev.faultAck; (repeat' first | with_reducible rfl | (simp; done) | split); done)
  | (unfold Dev.faultAck; try dsimp only
     (repeat' first | with_reducible rfl | (simp; done) | (with_reducible refine (foldl_time _ ?_ _ _).trans ?_ <;> try intro _ _) | dsimp only | split); done)

@[simp] theorem faultAck_rings (d : Dev) : (Dev.faultAck d).rings = d.rings := by
  first
  | (unfold Dev.faultAck; simp only [setFlag_rings, acknowledge_rings, unlatch_rings, coldSeedAxis_rings]; done)
  | (unfold Dev.faultAck; with_reducible rfl)
  | (unfold Dev.faultAck; simp; done)
  | (unfold Dev.faultAck; (repeat' first | with_reducible rfl | (simp; done) | split); done)
  | (unfold Dev.faultAck; try dsimp only
     (repeat' first | with_reducible rfl | (simp; done) | (with_reducible refine (foldl_rings _ ?_ _ _).trans ?_ <;> try intro _ _) | dsimp only | split); done)

@[simp] theorem faultAck_arr (d : Dev) : (Dev.faultAck d).arr = d.arr := by
  first
  | (unfold Dev.faultAck; simp only [setFlag_arr, acknowledge_arr, unlatch_arr, coldSeedAxis_arr]; done)
  | (unfold Dev.faultAck; with_reducible rfl)
  | (unfold Dev.faultAck; simp; done)
  | (unfold Dev.faultAck; (repeat' first | with_reducible rfl | (simp; done) | split); done)
  | (unfold Dev.faultAck; try dsimp only
     (repeat' first | with_reducible rfl | (simp; done) | (with_reducible refine (foldl_arr _ ?_ _ _).trans ?_ <;> try intro _ _) | dsimp only | split); done)

@[simp] theorem faultAck_opt (d : Dev) : (Dev.faultAck d).opt = d.opt := by
  first
  | (unfold Dev.faultAck; simp only [setFlag_opt, acknowledge_opt, unlatch_opt, coldSeedAxis_opt]; done)
  | (unfold Dev.faultAck; with_reducible rfl)
  | (unfold Dev.faultAck; simp; done)
  | (unfold Dev.faultAck; (repeat' first | with_reducible rfl | (simp; done) | split); done)
  | (unfold Dev.faultAck; try dsimp only
     (repeat' first | with_reducible rfl | (simp; done) | (with_reducible refine (foldl_opt _ ?_ _ _).trans ?_ <;> try intro _ _) | dsimp only | split); done)

@[simp] theorem faultAck_disc (d : Dev) : (Dev.faultAck d).disc = d.disc := by
  first
  | (unfold Dev.faultAck; simp only [setFlag_disc, acknowledge_disc, unlatch_disc, coldSeedAxis_disc]; done)
  | (unfold Dev.faultAck; with_reducible rfl)
  | (unfold Dev.faultAck; simp; done)
  | (unfold Dev.faultAck; (repeat' first | with_reducible rfl | (simp; done) | split); done)
  | (unfold Dev.faultAck; try dsimp only
     (repeat' first | with_reducible rfl | (simp; done) | (with_reducible refine (foldl_disc _ ?_ _ _).trans ?_ <;> try intro _ _) | dsimp only | split); done)

@[simp] theorem faultAck_coll (d : Dev) : (Dev.faultAck d).coll = d.coll := by
  first
  | (unfold Dev.faultAck; simp only [setFlag_coll, acknowledge_coll, unlatch_coll, coldSeedAxis_coll]; done)
  | (unfold Dev.faultAck; with_reducible rfl)
  | (unfold Dev.faultAck; simp; done)
  | (unfold Dev.faultAck; (repeat' first | with_reducible rfl | (simp; done) | split); done)
  | (unfold Dev.faultAck; try dsimp only
     (repeat' first | with_reducible rfl | (simp; done) | (with_reducible refine (foldl_coll _ ?_ _ _).trans ?_ <;> try intro _ _) | dsimp only | split); done)

@[simp] theorem faultAck_mem (d : Dev) : (Dev.faultAck d).mem = d.mem := by
  first
  | (unfold Dev.faultAck; simp only [setFlag_mem, acknowledge_mem, unlatch_mem, coldSeedAxis_mem]; done)
  | (unfold Dev.faultAck; with_reducible rfl)
  | (unfold Dev.faultAck; simp; done)
  | (unfold Dev.faultAck; (repeat' first | with_reducible rfl | (simp; done) | split); done)
  | (unfold Dev.faultAck; try dsimp only
     (repeat' first | with_reducible rfl | (simp; done) | (with_reducible refine (foldl_mem _ ?_ _ _).trans ?_ <;> try intro _ _) | dsimp only | split); done)

@[simp] theorem faultAck_twin (d : Dev) : (Dev.faultAck d).twin = d.twin := by
  first
  | (unfold Dev.faultAck; simp only [setFlag_twin, acknowledge_twin, unlatch_twin, coldSeedAxis_twin]; done)
  | (unfold Dev.faultAck; with_reducible rfl)
  | (unfold Dev.faultAck; simp; done)
  | (unfold Dev.faultAck; (repeat' first | with_reducible rfl | (simp; done) | split); done)
  | (unfold Dev.faultAck; try dsimp only
     (repeat' first | with_reducible rfl | (simp; done) | (with_reducible refine (foldl_twin _ ?_ _ _).trans ?_ <;> try intro _ _) | dsimp only | split); done)

@[simp] theorem faultAck_power (d : Dev) : (Dev.faultAck d).power = d.power := by
  first
  | (unfold Dev.faultAck; simp only [setFlag_power, acknowledge_power, unlatch_power, coldSeedAxis_power]; done)
  | (unfold Dev.faultAck; with_reducible rfl)
  | (unfold Dev.faultAck; simp; done)
  | (unfold Dev.faultAck; (repeat' first | with_reducible rfl | (simp; done) | split); done)
  | (unfold Dev.faultAck; try dsimp only
     (repeat' first | with_reducible rfl | (simp; done) | (with_reducible refine (foldl_power _ ?_ _ _).trans ?_ <;> try intro _ _) | dsimp only | split); done)

@[simp] theorem faultAck_upd (d : Dev) : (Dev.faultAck d).upd = d.upd := by
  first
  | (unfold Dev.faultAck; simp only [setFlag_upd, acknowledge_upd, unlatch_upd, coldSeedAxis_upd]; done)
  | (unfold Dev.faultAck; with_reducible rfl)
  | (unfold Dev.faultAck; simp; done)
  | (unfold Dev.faultAck; (repeat' first | with_reducible rfl | (simp; done) | split); done)
  | (unfold Dev.faultAck; try dsimp only
     (repeat' first | with_reducible rfl | (simp; done) | (with_reducible refine (foldl_upd _ ?_ _ _).trans ?_ <;> try intro _ _) | dsimp only | split); done)

@[simp] theorem faultAck_recr (d : Dev) : (Dev.faultAck d).recr = d.recr := by
  first
  | (unfold Dev.faultAck; simp only [setFlag_recr, acknowledge_recr, unlatch_recr, coldSeedAxis_recr]; done)
  | (unfold Dev.faultAck; with_reducible rfl)
  | (unfold Dev.faultAck; simp; done)
  | (unfold Dev.faultAck; (repeat' first | with_reducible rfl | (simp; done) | split); done)
  | (unfold Dev.faultAck; try dsimp only
     (repeat' first | with_reducible rfl | (simp; done) | (with_reducible refine (foldl_recr _ ?_ _ _).trans ?_ <;> try intro _ _) | dsimp only | split); done)

@[simp] theorem faultAck_ob (d : Dev) : (Dev.faultAck d).ob = d.ob := by
  first
  | (unfold Dev.faultAck; simp only [setFlag_ob, acknowledge_ob, unlatch_ob, coldSeedAxis_ob]; done)
  | (unfold Dev.faultAck; with_reducible rfl)
  | (unfold Dev.faultAck; simp; done)
  | (unfold Dev.faultAck; (repeat' first | with_reducible rfl | (simp; done) | split); done)
  | (unfold Dev.faultAck; try dsimp only
     (repeat' first | with_reducible rfl | (simp; done) | (with_reducible refine (foldl_ob _ ?_ _ _).trans ?_ <;> try intro _ _) | dsimp only | split); done)

@[simp] theorem faultAck_out (d : Dev) : (Dev.faultAck d).out = d.out := by
  first
  | (unfold Dev.faultAck; simp only [setFlag_out, acknowledge_out, unlatch_out, coldSeedAxis_out]; done)
  | (unfold Dev.faultAck; with_reducible rfl)
  | (unfold Dev.faultAck; simp; done)
  | (unfold Dev.faultAck; (repeat' first | with_reducible rfl | (simp; done) | split); done)
  | (unfold Dev.faultAck; try dsimp only
     (repeat' first | with_reducible rfl | (simp; done) | (with_reducible refine (foldl_out _ ?_ _ _).trans ?_ <;> try intro _ _) | dsimp only | split); done)

@[simp] theorem faultAck_fresh (d : Dev) : (Dev.faultAck d).fresh = d.fresh := by
  first
  | (unfold Dev.faultAck; simp only [setFlag_fresh, acknowledge_fresh, unlatch_fresh, coldSeedAxis_fresh]; done)
  | (unfold Dev.faultAck; with_reducible rfl)
  | (unfold Dev.faultAck; simp; done)
  | (unfold Dev.faultAck; (repeat' first | with_reducible rfl | (simp; done) | split); done)
  | (unfold Dev.faultAck; try dsimp only
     (repeat' first | with_reducible rfl | (simp; done) | (with_reducible refine (foldl_fresh _ ?_ _ _).trans ?_ <;> try intro _ _) | dsimp only | split); done)

@[simp] theorem emergency_jobs (d : Dev) (code event seq : Nat) : (Dev.emergency d code event seq).jobs = d.jobs := by
  first
  | (unfold Dev.emergency; simp only [emit_jobs, bump_jobs]; done)
  | (unfold Dev.emergency; with_reducible rfl)
  | (unfold Dev.emergency; simp; done)
  | (unfold Dev.emergency; (repeat' first | with_reducible rfl | (simp; done) | split); done)
  | (unfold Dev.emergency; try dsimp only
     (repeat' first | with_reducible rfl | (simp; done) | (with_reducible refine (foldl_jobs _ ?_ _ _).trans ?_ <;> try intro _ _) | dsimp only | split); done)

@[simp] theorem emergency_upd (d : Dev) (code event seq : Nat) : (Dev.emergency d code event seq).upd = d.upd := by
  first
  | (unfold Dev.emergency; simp only [emit_upd, bump_upd]; done)
  | (unfold Dev.emergency; with_reducible rfl)
  | (unfold Dev.emergency; simp; done)
  | (unfold Dev.emergency; (repeat' first | with_reducible rfl | (simp; done) | split); done)
  | (unfold Dev.emergency; try dsimp only
     (repeat' first | with_reducible rfl | (simp; done) | (with_reducible refine (foldl_upd _ ?_ _ _).trans ?_ <;> try intro _ _) | dsimp only | split); done)

@[simp] theorem setState_jobs (d : Dev) (x : DirState) (c : Cause) : (Dev.setState d x c).jobs = d.jobs := by
  first
  | (unfold Dev.setState; simp only [emergency_jobs]; done)
  | (unfold Dev.setState; with_reducible rfl)
  | (unfold Dev.setState; simp; done)
  | (unfold Dev.setState; (repeat' first | with_reducible rfl | (simp; done) | split); done)
  | (unfold Dev.setState; try dsimp only
     (repeat' first | with_reducible rfl | (simp; done) | (with_reducible refine (foldl_jobs _ ?_ _ _).trans ?_ <;> try intro _ _) | dsimp only | split); done)

@[simp] theorem setState_upd (d : Dev) (x : DirState) (c : Cause) : (Dev.setState d x c).upd = d.upd := by
  first
  | (unfold Dev.setState; simp only [emergency_upd]; done)
  | (unfold Dev.setState; with_reducible rfl)
  | (unfold Dev.setState; simp; done)
  | (unfold Dev.setState; (repeat' first | with_reducible rfl | (simp; done) | split); done)
  | (unfold Dev.setState; try dsimp only
     (repeat' first | with_reducible rfl | (simp; done) | (with_reducible refine (foldl_upd _ ?_ _ _).trans ?_ <;> try intro _ _) | dsimp only | split); done)

@[simp] theorem startJobs_net (d : Dev) : (Dev.startJobs d).net = d.net := by
  first
  | (unfold Dev.startJobs; simp only [modJob_net]; done)
  | (unfold Dev.startJobs; with_reducible rfl)
  | (unfold Dev.startJobs; simp; done)
  | (unfold Dev.startJobs; (repeat' first | with_reducible rfl | (simp; done) | split); done)
  | (unfold Dev.startJobs; try dsimp only
     (repeat' first | with_reducible rfl | (simp; done) | (with_reducible refine (foldl_net _ ?_ _ _).trans ?_ <;> try intro _ _) | dsimp only | split); done)

@[simp] theorem startJobs_dir (d : Dev) : (Dev.startJobs d).dir = d.dir := by
  first
  | (unfold Dev.startJobs; simp only [modJob_dir]; done)
  | (unfold Dev.startJobs; with_reducible rfl)
  | (unfold Dev.startJobs; simp; done)
  | (unfold Dev.startJobs; (repeat' first | with_reducible rfl | (simp; done) | split); done)
  | (unfold Dev.startJobs; try dsimp only
     (repeat' first | with_reducible rfl | (simp; done) | (with_reducible refine (foldl_dir _ ?_ _ _).trans ?_ <;> try intro _ _) | dsimp only | split); done)

@[simp] theorem sendDiscState_dir (d : Dev) : (Dev.sendDiscState d).dir = d.dir := by
  first
  | (unfold Dev.sendDiscState; simp only [sendFrame_dir]; done)
  | (unfold Dev.sendDiscState; with_reducible rfl)
  | (unfold Dev.sendDiscState; simp; done)
  | (unfold Dev.sendDiscState; (repeat' first | with_reducible rfl | (simp; done) | split); done)
  | (unfold Dev.sendDiscState; try dsimp only
     (repeat' first | with_reducible rfl | (simp; done) | (with_reducible refine (foldl_dir _ ?_ _ _).trans ?_ <;> try intro _ _) | dsimp only | split); done)

@[simp] theorem sendDiscHello_dir (d : Dev) (i : Nat) : (Dev.sendDiscHello d i).dir = d.dir := by
  first
  | (unfold Dev.sendDiscHello; simp only [sendFrame_dir]; done)
  | (unfold Dev.sendDiscHello; with_reducible rfl)
  | (unfold Dev.sendDiscHello; simp; done)
  | (unfold Dev.sendDiscHello; (repeat' first | with_reducible rfl | (simp; done) | split); done)
  | (unfold Dev.sendDiscHello; try dsimp only
     (repeat' first | with_reducible rfl | (simp; done) | (with_reducible refine (foldl_dir _ ?_ _ _).trans ?_ <;> try intro _ _) | dsimp only | split); done)

@[simp] theorem sendDiscHellos_dir (d : Dev) : (Dev.sendDiscHellos d).dir = d.dir := by
  first
  | (unfold Dev.sendDiscHellos; simp only [sendDiscHello_dir]; done)
  | (unfold Dev.sendDiscHellos; with_reducible rfl)
  | (unfold Dev.sendDiscHellos; simp; done)
  | (unfold Dev.sendDiscHellos; (repeat' first | with_reducible rfl | (simp; done) | split); done)
  | (unfold Dev.sendDiscHellos; try dsimp only
     (repeat' first | with_reducible rfl | (simp; done) | (with_reducible refine (foldl_dir _ ?_ _ _).trans ?_ <;> try intro _ _) | dsimp only | split); done)

@[simp] theorem announce_dir (d : Dev) : (Dev.announce d).dir = d.dir := by
  first
  | (unfold Dev.announce; simp only [sendDiscState_dir, sendDiscHellos_dir]; done)
  | (unfold Dev.announce; with_reducible rfl)
  | (unfold Dev.announce; simp; done)
  | (unfold Dev.announce; (repeat' first | with_reducible rfl | (simp; done) | split); done)
  | (unfold Dev.announce; try dsimp only
     (repeat' first | with_reducible rfl | (simp; done) | (with_reducible refine (foldl_dir _ ?_ _ _).trans ?_ <;> try intro _ _) | dsimp only | split); done)

@[simp] theorem claim_module (d : Dev) : (Dev.claim d).module = d.module := by
  first
  | (unfold Dev.claim; simp only [modTwin_module]; done)
  | (unfold Dev.claim; with_reducible rfl)
  | (unfold Dev.claim; simp; done)
  | (unfold Dev.claim; (repeat' first | with_reducible rfl | (simp; done) | split); done)
  | (unfold Dev.claim; try dsimp only
     (repeat' first | with_reducible rfl | (simp; done) | (with_reducible refine (foldl_module _ ?_ _ _).trans ?_ <;> try intro _ _) | dsimp only | split); done)

@[simp] theorem claim_net (d : Dev) : (Dev.claim d).net = d.net := by
  first
  | (unfold Dev.claim; simp only [modTwin_net]; done)
  | (unfold Dev.claim; with_reducible rfl)
  | (unfold Dev.claim; simp; done)
  | (unfold Dev.claim; (repeat' first | with_reducible rfl | (simp; done) | split); done)
  | (unfold Dev.claim; try dsimp only
     (repeat' first | with_reducible rfl | (simp; done) | (with_reducible refine (foldl_net _ ?_ _ _).trans ?_ <;> try intro _ _) | dsimp only | split); done)

@[simp] theorem claim_dir (d : Dev) : (Dev.claim d).dir = d.dir := by
  first
  | (unfold Dev.claim; simp only [modTwin_dir]; done)
  | (unfold Dev.claim; with_reducible rfl)
  | (unfold Dev.claim; simp; done)
  | (unfold Dev.claim; (repeat' first | with_reducible rfl | (simp; done) | split); done)
  | (unfold Dev.claim; try dsimp only
     (repeat' first | with_reducible rfl | (simp; done) | (with_reducible refine (foldl_dir _ ?_ _ _).trans ?_ <;> try intro _ _) | dsimp only | split); done)

@[simp] theorem claim_jobs (d : Dev) : (Dev.claim d).jobs = d.jobs := by
  first
  | (unfold Dev.claim; simp only [modTwin_jobs]; done)
  | (unfold Dev.claim; with_reducible rfl)
  | (unfold Dev.claim; simp; done)
  | (unfold Dev.claim; (repeat' first | with_reducible rfl | (simp; done) | split); done)
  | (unfold Dev.claim; try dsimp only
     (repeat' first | with_reducible rfl | (simp; done) | (with_reducible refine (foldl_jobs _ ?_ _ _).trans ?_ <;> try intro _ _) | dsimp only | split); done)

@[simp] theorem claim_circuits (d : Dev) : (Dev.claim d).circuits = d.circuits := by
  first
  | (unfold Dev.claim; simp only [modTwin_circuits]; done)
  | (unfold Dev.claim; with_reducible rfl)
  | (unfold Dev.claim; simp; done)
  | (unfold Dev.claim; (repeat' first | with_reducible rfl | (simp; done) | split); done)
  | (unfold Dev.claim; try dsimp only
     (repeat' first | with_reducible rfl | (simp; done) | (with_reducible refine (foldl_circuits _ ?_ _ _).trans ?_ <;> try intro _ _) | dsimp only | split); done)

@[simp] theorem claim_runs (d : Dev) : (Dev.claim d).runs = d.runs := by
  first
  | (unfold Dev.claim; simp only [modTwin_runs]; done)
  | (unfold Dev.claim; with_reducible rfl)
  | (unfold Dev.claim; simp; done)
  | (unfold Dev.claim; (repeat' first | with_reducible rfl | (simp; done) | split); done)
  | (unfold Dev.claim; try dsimp only
     (repeat' first | with_reducible rfl | (simp; done) | (with_reducible refine (foldl_runs _ ?_ _ _).trans ?_ <;> try intro _ _) | dsimp only | split); done)

@[simp] theorem claim_time (d : Dev) : (Dev.claim d).time = d.time := by
  first
  | (unfold Dev.claim; simp only [modTwin_time]; done)
  | (unfold Dev.claim; with_reducible rfl)
  | (unfold Dev.claim; simp; done)
  | (unfold Dev.claim; (repeat' first | with_reducible rfl | (simp; done) | split); done)
  | (unfold Dev.claim; try dsimp only
     (repeat' first | with_reducible rfl | (simp; done) | (with_reducible refine (foldl_time _ ?_ _ _).trans ?_ <;> try intro _ _) | dsimp only | split); done)

@[simp] theorem claim_eng (d : Dev) : (Dev.claim d).eng = d.eng := by
  first
  | (unfold Dev.claim; simp only [modTwin_eng]; done)
  | (unfold Dev.claim; with_reducible rfl)
  | (unfold Dev.claim; simp; done)
  | (unfold Dev.claim; (repeat' first | with_reducible rfl | (simp; done) | split); done)
  | (unfold Dev.claim; try dsimp only
     (repeat' first | with_reducible rfl | (simp; done) | (with_reducible refine (foldl_eng _ ?_ _ _).trans ?_ <;> try intro _ _) | dsimp only | split); done)

@[simp] theorem claim_rings (d : Dev) : (Dev.claim d).rings = d.rings := by
  first
  | (unfold Dev.claim; simp only [modTwin_rings]; done)
  | (unfold Dev.claim; with_reducible rfl)
  | (unfold Dev.claim; simp; done)
  | (unfold Dev.claim; (repeat' first | with_reducible rfl | (simp; done) | split); done)
  | (unfold Dev.claim; try dsimp only
     (repeat' first | with_reducible rfl | (simp; done) | (with_reducible refine (foldl_rings _ ?_ _ _).trans ?_ <;> try intro _ _) | dsimp only | split); done)

@[simp] theorem claim_arr (d : Dev) : (Dev.claim d).arr = d.arr := by
  first
  | (unfold Dev.claim; simp only [modTwin_arr]; done)
  | (unfold Dev.claim; with_reducible rfl)
  | (unfold Dev.claim; simp; done)
  | (unfold Dev.claim; (repeat' first | with_reducible rfl | (simp; done) | split); done)
  | (unfold Dev.claim; try dsimp only
     (repeat' first | with_reducible rfl | (simp; done) | (with_reducible refine (foldl_arr _ ?_ _ _).trans ?_ <;> try intro _ _) | dsimp only | split); done)

@[simp] theorem claim_opt (d : Dev) : (Dev.claim d).opt = d.opt := by
  first
  | (unfold Dev.claim; simp only [modTwin_opt]; done)
  | (unfold Dev.claim; with_reducible rfl)
  | (unfold Dev.claim; simp; done)
  | (unfold Dev.claim; (repeat' first | with_reducible rfl | (simp; done) | split); done)
  | (unfold Dev.claim; try dsimp only
     (repeat' first | with_reducible rfl | (simp; done) | (with_reducible refine (foldl_opt _ ?_ _ _).trans ?_ <;> try intro _ _) | dsimp only | split); done)

@[simp] theorem claim_disc (d : Dev) : (Dev.claim d).disc = d.disc := by
  first
  | (unfold Dev.claim; simp only [modTwin_disc]; done)
  | (unfold Dev.claim; with_reducible rfl)
  | (unfold Dev.claim; simp; done)
  | (unfold Dev.claim; (repeat' first | with_reducible rfl | (simp; done) | split); done)
  | (unfold Dev.claim; try dsimp only
     (repeat' first | with_reducible rfl | (simp; done) | (with_reducible refine (foldl_disc _ ?_ _ _).trans ?_ <;> try intro _ _) | dsimp only | split); done)

@[simp] theorem claim_coll (d : Dev) : (Dev.claim d).coll = d.coll := by
  first
  | (unfold Dev.claim; simp only [modTwin_coll]; done)
  | (unfold Dev.claim; with_reducible rfl)
  | (unfold Dev.claim; simp; done)
  | (unfold Dev.claim; (repeat' first | with_reducible rfl | (simp; done) | split); done)
  | (unfold Dev.claim; try dsimp only
     (repeat' first | with_reducible rfl | (simp; done) | (with_reducible refine (foldl_coll _ ?_ _ _).trans ?_ <;> try intro _ _) | dsimp only | split); done)

@[simp] theorem claim_mem (d : Dev) : (Dev.claim d).mem = d.mem := by
  first
  | (unfold Dev.claim; simp only [modTwin_mem]; done)
  | (unfold Dev.claim; with_reducible rfl)
  | (unfold Dev.claim; simp; done)
  | (unfold Dev.claim; (repeat' first | with_reducible rfl | (simp; done) | split); done)
  | (unfold Dev.claim; try dsimp only
     (repeat' first | with_reducible rfl | (simp; done) | (with_reducible refine (foldl_mem _ ?_ _ _).trans ?_ <;> try intro _ _) | dsimp only | split); done)

@[simp] theorem claim_faults (d : Dev) : (Dev.claim d).faults = d.faults := by
  first
  | (unfold Dev.claim; simp only [modTwin_faults]; done)
  | (unfold Dev.claim; with_reducible rfl)
  | (unfold Dev.claim; simp; done)
  | (unfold Dev.claim; (repeat' first | with_reducible rfl | (simp; done) | split); done)
  | (unfold Dev.claim; try dsimp only
     (repeat' first | with_reducible rfl | (simp; done) | (with_reducible refine (foldl_faults _ ?_ _ _).trans ?_ <;> try intro _ _) | dsimp only | split); done)

@[simp] theorem claim_power (d : Dev) : (Dev.claim d).power = d.power := by
  first
  | (unfold Dev.claim; simp only [modTwin_power]; done)
  | (unfold Dev.claim; with_reducible rfl)
  | (unfold Dev.claim; simp; done)
  | (unfold Dev.claim; (repeat' first | with_reducible rfl | (simp; done) | split); done)
  | (unfold Dev.claim; try dsimp only
     (repeat' first | with_reducible rfl | (simp; done) | (with_reducible refine (foldl_power _ ?_ _ _).trans ?_ <;> try intro _ _) | dsimp only | split); done)

@[simp] theorem claim_upd (d : Dev) : (Dev.claim d).upd = d.upd := by
  first
  | (unfold Dev.claim; simp only [modTwin_upd]; done)
  | (unfold Dev.claim; with_reducible rfl)
  | (unfold Dev.claim; simp; done)
  | (unfold Dev.claim; (repeat' first | with_reducible rfl | (simp; done) | split); done)
  | (unfold Dev.claim; try dsimp only
     (repeat' first | with_reducible rfl | (simp; done) | (with_reducible refine (foldl_upd _ ?_ _ _).trans ?_ <;> try intro _ _) | dsimp only | split); done)

@[simp] theorem claim_recr (d : Dev) : (Dev.claim d).recr = d.recr := by
  first
  | (unfold Dev.claim; simp only [modTwin_recr]; done)
  | (unfold Dev.claim; with_reducible rfl)
  | (unfold Dev.claim; simp; done)
  | (unfold Dev.claim; (repeat' first | with_reducible rfl | (simp; done) | split); done)
  | (unfold Dev.claim; try dsimp only
     (repeat' first | with_reducible rfl | (simp; done) | (with_reducible refine (foldl_recr _ ?_ _ _).trans ?_ <;> try intro _ _) | dsimp only | split); done)

@[simp] theorem claim_od (d : Dev) : (Dev.claim d).od = d.od := by
  first
  | (unfold Dev.claim; simp only [modTwin_od]; done)
  | (unfold Dev.claim; with_reducible rfl)
  | (unfold Dev.claim; simp; done)
  | (unfold Dev.claim; (repeat' first | with_reducible rfl | (simp; done) | split); done)
  | (unfold Dev.claim; try dsimp only
     (repeat' first | with_reducible rfl | (simp; done) | (with_reducible refine (foldl_od _ ?_ _ _).trans ?_ <;> try intro _ _) | dsimp only | split); done)

@[simp] theorem claim_ob (d : Dev) : (Dev.claim d).ob = d.ob := by
  first
  | (unfold Dev.claim; simp only [modTwin_ob]; done)
  | (unfold Dev.claim; with_reducible rfl)
  | (unfold Dev.claim; simp; done)
  | (unfold Dev.claim; (repeat' first | with_reducible rfl | (simp; done) | split); done)
  | (unfold Dev.claim; try dsimp only
     (repeat' first | with_reducible rfl | (simp; done) | (with_reducible refine (foldl_ob _ ?_ _ _).trans ?_ <;> try intro _ _) | dsimp only | split); done)

@[simp] theorem claim_out (d : Dev) : (Dev.claim d).out = d.out := by
  first
  | (unfold Dev.claim; simp only [modTwin_out]; done)
  | (unfold Dev.claim; with_reducible rfl)
  | (unfold Dev.claim; simp; done)
  | (unfold Dev.claim; (repeat' first | with_reducible rfl | (simp; done) | split); done)
  | (unfold Dev.claim; try dsimp only
     (repeat' first | with_reducible rfl | (simp; done) | (with_reducible refine (foldl_out _ ?_ _ _).trans ?_ <;> try intro _ _) | dsimp only | split); done)

@[simp] theorem claim_fresh (d : Dev) : (Dev.claim d).fresh = d.fresh := by
  first
  | (unfold Dev.claim; simp only [modTwin_fresh]; done)
  | (unfold Dev.claim; with_reducible rfl)
  | (unfold Dev.claim; simp; done)
  | (unfold Dev.claim; (repeat' first | with_reducible rfl | (simp; done) | split); done)
  | (unfold Dev.claim; try dsimp only
     (repeat' first | with_reducible rfl | (simp; done) | (with_reducible refine (foldl_fresh _ ?_ _ _).trans ?_ <;> try intro _ _) | dsimp only | split); done)

@[simp] theorem ringHalf_power (d : Dev) : (Dev.ringHalf d).power = d.power := by
  first
  | (unfold Dev.ringHalf; simp only [abandonRing_power, tryRing_power]; done)
  | (unfold Dev.ringHalf; with_reducible rfl)
  | (unfold Dev.ringHalf; simp; done)
  | (unfold Dev.ringHalf; (repeat' first | with_reducible rfl | (simp; done) | split); done)
  | (unfold Dev.ringHalf; try dsimp only
     (repeat' first | with_reducible rfl | (simp; done) | (with_reducible refine (foldl_power _ ?_ _ _).trans ?_ <;> try intro _ _) | dsimp only | split); done)

@[simp] theorem checkerEvent_power (d : Dev) (cls array : Nat) : (Dev.checkerEvent d cls array).power = d.power := by
  first
  | (unfold Dev.checkerEvent; with_reducible rfl)
  | (unfold Dev.checkerEvent; simp; done)
  | (unfold Dev.checkerEvent; (repeat' first | with_reducible rfl | (simp; done) | split); done)
  | (unfold Dev.checkerEvent; try dsimp only
     (repeat' first | with_reducible rfl | (simp; done) | (with_reducible refine (foldl_power _ ?_ _ _).trans ?_ <;> try intro _ _) | dsimp only | split); done)

@[simp] theorem failStack_power (d : Dev) (s : Nat) : (Dev.failStack d s).power = d.power := by
  first
  | (unfold Dev.failStack; simp only [memEvent_power, ringHalf_power]; done)
  | (unfold Dev.failStack; with_reducible rfl)
  | (unfold Dev.failStack; simp; done)
  | (unfold Dev.failStack; (repeat' first | with_reducible rfl | (simp; done) | split); done)
  | (unfold Dev.failStack; try dsimp only
     (repeat' first | with_reducible rfl | (simp; done) | (with_reducible refine (foldl_power _ ?_ _ _).trans ?_ <;> try intro _ _) | dsimp only | split); done)

@[simp] theorem checkerFailed_power (d : Dev) (k : Nat) : (Dev.checkerFailed d k).power = d.power := by
  first
  | (unfold Dev.checkerFailed; simp only [failStack_power, memEvent_power]; done)
  | (unfold Dev.checkerFailed; with_reducible rfl)
  | (unfold Dev.checkerFailed; simp; done)
  | (unfold Dev.checkerFailed; (repeat' first | with_reducible rfl | (simp; done) | split); done)
  | (unfold Dev.checkerFailed; try dsimp only
     (repeat' first | with_reducible rfl | (simp; done) | (with_reducible refine (foldl_power _ ?_ _ _).trans ?_ <;> try intro _ _) | dsimp only | split); done)

@[simp] theorem bootChoice_dir (d : Dev) (region : Nat) : (Dev.bootChoice d region).dir = d.dir := by
  first
  | (unfold Dev.bootChoice; with_reducible rfl)
  | (unfold Dev.bootChoice; simp; done)
  | (unfold Dev.bootChoice; (repeat' first | with_reducible rfl | (simp; done) | split); done)
  | (unfold Dev.bootChoice; try dsimp only
     (repeat' first | with_reducible rfl | (simp; done) | (with_reducible refine (foldl_dir _ ?_ _ _).trans ?_ <;> try intro _ _) | dsimp only | split); done)

@[simp] theorem bootChoice_power (d : Dev) (region : Nat) : (Dev.bootChoice d region).power = d.power := by
  first
  | (unfold Dev.bootChoice; with_reducible rfl)
  | (unfold Dev.bootChoice; simp; done)
  | (unfold Dev.bootChoice; (repeat' first | with_reducible rfl | (simp; done) | split); done)
  | (unfold Dev.bootChoice; try dsimp only
     (repeat' first | with_reducible rfl | (simp; done) | (with_reducible refine (foldl_power _ ?_ _ _).trans ?_ <;> try intro _ _) | dsimp only | split); done)

@[simp] theorem foldlP_dir {α β : Type} (g : Dev × β → α → Dev × β) (h : ∀ r a, (g r a).1.dir = r.1.dir) (l : List α) (r : Dev × β) :
    (l.foldl g r).1.dir = r.1.dir := by
  induction l generalizing r with
  | nil => rfl
  | cons a t ih => exact (ih _).trans (h _ _)

@[simp] theorem uncorrectable_dir (d : Dev) (source array addr : Nat) : (Dev.uncorrectable d source array addr).dir = d.dir := by
  first
  | (unfold Dev.uncorrectable; with_reducible rfl)
  | (unfold Dev.uncorrectable; simp; done)
  | (unfold Dev.uncorrectable; (repeat' first | with_reducible rfl | (simp; done) | split); done)
  | (unfold Dev.uncorrectable; try dsimp only
     (repeat' first | with_reducible rfl | (simp; done) | (with_reducible refine (foldl_dir _ ?_ _ _).trans ?_ <;> try intro _ _) | dsimp only | split); done)

@[simp] theorem readFlash_dir (d : Dev) (sel : FlashPage → Bool) : (Dev.readFlash d sel).1.dir = d.dir := by
  first
  | (unfold Dev.readFlash; with_reducible rfl)
  | (unfold Dev.readFlash; simp; done)
  | (unfold Dev.readFlash; (repeat' first | with_reducible rfl | (simp; done) | split); done)
  | (unfold Dev.readFlash; try dsimp only
     (repeat' first | with_reducible rfl | (simp; done) | (with_reducible refine (foldlP_dir _ ?_ _ _).trans ?_ <;> try intro _ _) | dsimp only | split); done)

@[simp] theorem readSettings_dir (d : Dev) : (Dev.readSettings d).1.dir = d.dir := by
  first
  | (unfold Dev.readSettings; with_reducible rfl)
  | (unfold Dev.readSettings; simp; done)
  | (unfold Dev.readSettings; (repeat' first | with_reducible rfl | (simp; done) | split); done)
  | (unfold Dev.readSettings; try dsimp only
     (repeat' first | with_reducible rfl | (simp; done) | (with_reducible refine (foldlP_dir _ ?_ _ _).trans ?_ <;> try intro _ _) | dsimp only | split); done)

@[simp] theorem loadSettings_dir (d : Dev) : (Dev.loadSettings d).dir = d.dir := by
  first
  | (unfold Dev.loadSettings; simp only [modTime_dir, setOct_dir, setNum_dir]; done)
  | (unfold Dev.loadSettings; with_reducible rfl)
  | (unfold Dev.loadSettings; simp; done)
  | (unfold Dev.loadSettings; (repeat' first | with_reducible rfl | (simp; done) | split); done)
  | (unfold Dev.loadSettings; try dsimp only
     (repeat' first | with_reducible rfl | (simp; done) | (with_reducible refine (foldl_dir _ ?_ _ _).trans ?_ <;> try intro _ _) | dsimp only | split); done)

@[simp] theorem loadCapture_net (d : Dev) (b : Bytes) (poisoned : List Nat) : (Dev.loadCapture d b poisoned).net = d.net := by
  first
  | (unfold Dev.loadCapture; with_reducible rfl)
  | (unfold Dev.loadCapture; simp; done)
  | (unfold Dev.loadCapture; (repeat' first | with_reducible rfl | (simp; done) | split); done)
  | (unfold Dev.loadCapture; try dsimp only
     (repeat' first | with_reducible rfl | (simp; done) | (with_reducible refine (foldl_net _ ?_ _ _).trans ?_ <;> try intro _ _) | dsimp only | split); done)

@[simp] theorem refuseFile_net (d : Dev) (n : Nat) (reserved : Option Nat) : (Dev.refuseFile d n reserved).net = d.net := by
  first
  | (unfold Dev.refuseFile; with_reducible rfl)
  | (unfold Dev.refuseFile; simp; done)
  | (unfold Dev.refuseFile; (repeat' first | with_reducible rfl | (simp; done) | split); done)
  | (unfold Dev.refuseFile; try dsimp only
     (repeat' first | with_reducible rfl | (simp; done) | (with_reducible refine (foldl_net _ ?_ _ _).trans ?_ <;> try intro _ _) | dsimp only | split); done)

@[simp] theorem takeRecovery_net (d : Dev) (maintainer : Bool) (b : Bytes) (sigOk : Bool) : (Dev.takeRecovery d maintainer b sigOk).1.net = d.net := by
  first
  | (unfold Dev.takeRecovery; simp only [updateResult_net]; done)
  | (unfold Dev.takeRecovery; with_reducible rfl)
  | (unfold Dev.takeRecovery; simp; done)
  | (unfold Dev.takeRecovery; (repeat' first | with_reducible rfl | (simp; done) | split); done)
  | (unfold Dev.takeRecovery; try dsimp only
     (repeat' first | with_reducible rfl | (simp; done) | (with_reducible refine (foldl_net _ ?_ _ _).trans ?_ <;> try intro _ _) | dsimp only | split); done)

end Sys2Proof.Machine
end

