-- ==== Sys2Proof/Laws/Hbm.lean ====
section
/-!
SUPPORT. The HBM store: a read after a write, and that every operation on it keeps its canonical form.
-/

namespace Sys2Proof.Machine

/-! ### Reads after writes -/

/-- The byte just written is read. -/
@[simp] theorem cellGet_cellSet_same (m : List Host.Cell) (a : Nat) (b : Byte) (h : cellsWf m = true) :
    cellGet (cellSet m a b) a = b := by
  induction m with
  | nil =>
    simp only [cellSet]
    split
    · rename_i hb; simp [cellGet, hb]
    · simp [cellGet]
  | cons c t ih =>
    have ht : cellsWf t = true := by cases t <;> simp_all [cellsWf]
    have above : ∀ l : List Host.Cell, cellsWf l = true → (∀ e ∈ l.head?, a < e.1) → cellGet l a = 0 := by
      intro l
      induction l with
      | nil => intros; rfl
      | cons e l ihl =>
        intro hl he
        have h1 : a < e.1 := he e (by simp)
        have h2 : ¬ e.1 = a := by omega
        simp only [cellGet, h2, if_false]
        refine ihl (by cases l <;> simp_all [cellsWf]) ?_
        intro x hx
        cases l with
        | nil => simp at hx
        | cons y l =>
          simp only [cellsWf, Bool.and_eq_true, decide_eq_true_eq] at hl
          simp only [List.head?_cons, Option.mem_def, Option.some.injEq] at hx
          subst hx
          omega
    simp only [cellSet]
    split
    · rename_i hlt
      split
      · rename_i hb
        rw [above (c :: t) h (by simpa using hlt), hb]
      · simp [cellGet]
    · split
      · rename_i heq
        split
        · rename_i hb
          rw [hb]
          refine above t ht ?_
          intro x hx
          cases t with
          | nil => simp at hx
          | cons y l =>
            simp only [cellsWf, Bool.and_eq_true, decide_eq_true_eq] at h
            simp only [List.head?_cons, Option.mem_def, Option.some.injEq] at hx
            subst hx
            omega
        · simp [cellGet]
      · rename_i hne
        simp [cellGet, hne, ih ht]

/-- The other bytes read as before. -/
theorem cellGet_cellSet_other (m : List Host.Cell) {a c : Nat} (b : Byte) (h : a ≠ c) :
    cellGet (cellSet m a b) c = cellGet m c := by
  induction m with
  | nil =>
    simp only [cellSet]
    split <;> simp [cellGet, h]
  | cons e t ih =>
    simp only [cellSet]
    split
    · split <;> simp [cellGet, h]
    · split
      · rename_i he
        have : ¬ e.1 = c := fun x => h (he ▸ x)
        split <;> simp [cellGet, this, h]
      · simp [cellGet, ih]

/-! ### The canonical form -/

/-- A canonical tail. -/
theorem cellsWf_tail {c : Host.Cell} {t : List Host.Cell} (h : cellsWf (c :: t) = true) : cellsWf t = true := by
  cases t <;> simp_all [cellsWf]

/-- A canonical store in front of which a smaller address with a byte other than 0 is put. -/
theorem cellsWf_cons {c : Host.Cell} {t : List Host.Cell} (hc : c.2 ≠ 0) (ht : cellsWf t = true)
    (h : ∀ e ∈ t.head?, c.1 < e.1) : cellsWf (c :: t) = true := by
  cases t with
  | nil => simpa [cellsWf] using hc
  | cons e t =>
    simp only [cellsWf, Bool.and_eq_true, bne_iff_ne, decide_eq_true_eq]
    exact ⟨⟨hc, h e (by simp)⟩, ht⟩

/-- What a canonical store says of its first entry. -/
theorem cellsWf_head {c : Host.Cell} {t : List Host.Cell} (h : cellsWf (c :: t) = true) :
    c.2 ≠ 0 ∧ ∀ e ∈ t.head?, c.1 < e.1 := by
  cases t with
  | nil => simpa [cellsWf] using h
  | cons e t =>
    simp only [cellsWf, Bool.and_eq_true, bne_iff_ne, decide_eq_true_eq] at h
    exact ⟨h.1.1, by simpa using h.1.2⟩

/-- The first address of a store after a write. -/
theorem cellSet_head (m : List Host.Cell) (a : Nat) (b : Byte) (k : Nat) (hk : k < a)
    (h : cellsWf m = true) (hm : ∀ e ∈ m.head?, k < e.1) : ∀ e ∈ (cellSet m a b).head?, k < e.1 := by
  cases m with
  | nil =>
    simp only [cellSet]
    split <;> simp [hk]
  | cons c t =>
    have hc : k < c.1 := hm c (by simp)
    simp only [cellSet]
    split
    · split <;> simp [hc, hk]
    · split
      · split
        · intro e he
          have := (cellsWf_head h).2 e he
          omega
        · simp [hk]
      · simp [hc]

/-- A write keeps the canonical form. -/
theorem cellSet_wf (m : List Host.Cell) (a : Nat) (b : Byte) (h : cellsWf m = true) : cellsWf (cellSet m a b) = true := by
  induction m with
  | nil =>
    simp only [cellSet]
    split
    · rfl
    · rename_i hb; simpa [cellsWf] using hb
  | cons c t ih =>
    have ht := cellsWf_tail h
    have hc := cellsWf_head h
    simp only [cellSet]
    split
    · split
      · exact h
      · rename_i hlt hb
        exact cellsWf_cons hb h (by simpa using hlt)
    · split
      · split
        · exact ht
        · rename_i heq hb
          exact cellsWf_cons hb ht (fun e he => by have := hc.2 e he; simp only; omega)
      · exact cellsWf_cons hc.1 (ih ht) (cellSet_head t a b c.1 (by omega) ht hc.2)

/-- A string written keeps the canonical form. -/
theorem cellWrite_wf (m : List Host.Cell) (a : Nat) (b : Bytes) (h : cellsWf m = true) : cellsWf (cellWrite m a b) = true := by
  induction b generalizing m a with
  | nil => exact h
  | cons x t ih => exact ih _ _ (cellSet_wf m a x h)

/-- The first address of what is left. -/
theorem filter_head (m : List Host.Cell) (p : Host.Cell → Bool) (k : Nat) (h : cellsWf m = true)
    (hm : ∀ e ∈ m.head?, k < e.1) : ∀ e ∈ (m.filter p).head?, k < e.1 := by
  induction m with
  | nil => simp
  | cons c t ih =>
    have hc : k < c.1 := hm c (by simp)
    by_cases hp : p c = true
    · simp [hp, hc]
    · have hlt : ∀ e ∈ t.head?, k < e.1 := fun e he => by have := (cellsWf_head h).2 e he; omega
      simpa [List.filter_cons, hp] using ih (cellsWf_tail h) hlt

/-- Dropping entries keeps the canonical form. -/
theorem filter_wf (m : List Host.Cell) (p : Host.Cell → Bool) (h : cellsWf m = true) : cellsWf (m.filter p) = true := by
  induction m with
  | nil => rfl
  | cons c t ih =>
    by_cases hp : p c = true
    · simp only [List.filter_cons, hp, if_true]
      exact cellsWf_cons (cellsWf_head h).1 (ih (cellsWf_tail h)) (filter_head t p c.1 (cellsWf_tail h) (cellsWf_head h).2)
    · simpa [List.filter_cons, hp] using ih (cellsWf_tail h)

/-- Addresses dropped from the store keep its canonical form. -/
theorem cellDrop_wf (m : List Host.Cell) (a n : Nat) (h : cellsWf m = true) : cellsWf (cellDrop m a n) = true :=
  filter_wf m _ h

/-! ### The operations on the store -/

/-- The canonical form rests on the listed cells alone. -/
theorem wf_of_cells {h k : Hbm} (e : k.cells = h.cells) (w : Memory.wf h = true) : Memory.wf k = true := by
  simpa [Memory.wf, e] using w

/-- A block that becomes valid leaves the listed cells alone. -/
@[simp] theorem enterPage_cells (h : Hbm) (s p : Nat) : (h.enterPage s p).cells = h.cells := rfl

/-- A block dropped keeps the canonical form. -/
theorem dropPage_wf (h : Hbm) (s p : Nat) (w : Memory.wf h = true) : Memory.wf (h.dropPage s p) = true :=
  cellDrop_wf _ _ _ w

/-- A stack dropped keeps the canonical form. -/
theorem dropStack_wf (h : Hbm) (s : Nat) (w : Memory.wf h = true) : Memory.wf (h.dropStack s) = true := filter_wf _ _ w

/-- A code word written keeps the canonical form. -/
theorem setWord_wf (h : Hbm) (s w : Nat) (data : Bytes) (poison : Bool) (k : Memory.wf h = true) :
    Memory.wf (h.setWord s w data poison) = true := by
  cases poison
  · exact cellWrite_wf _ _ _ (by simpa [Memory.wf] using k)
  · exact cellDrop_wf _ _ _ (by simpa [Memory.wf] using k)

/-- A read of a code word leaves the listed cells alone. -/
@[simp] theorem decodeWord_cells (m : Dev × Hbm) (source s w : Nat) : (decodeWord m source s w).1.2.cells = m.2.cells := by
  unfold decodeWord
  dsimp only
  repeat' first | rfl | split

/-- A remap table loaded leaves the listed cells alone. -/
@[simp] theorem loadRemap_cells (m : Dev × Hbm) (s : Nat) : (loadRemap m s).2.cells = m.2.cells := rfl

/-- A request that finds the remap table leaves the listed cells alone. -/
@[simp] theorem tableReady_cells (m : Dev × Hbm) (s : Nat) : (tableReady m s).2.cells = m.2.cells := by
  unfold tableReady
  extract_lets mine d1 d2
  split
  · exact loadRemap_cells (d2, m.2) s
  · rfl

/-- A remap table loaded keeps the canonical form. -/
theorem loadRemap_wf (m : Dev × Hbm) (s : Nat) (k : Memory.wf m.2 = true) : Memory.wf (loadRemap m s).2 = true := k

/-- A request that finds the remap table keeps the canonical form. -/
theorem tableReady_wf (m : Dev × Hbm) (s : Nat) (k : Memory.wf m.2 = true) : Memory.wf (tableReady m s).2 = true :=
  wf_of_cells (tableReady_cells m s) k

/-- A read of a code word keeps the canonical form. -/
theorem decodeWord_wf (m : Dev × Hbm) (source s w : Nat) (k : Memory.wf m.2 = true) :
    Memory.wf (decodeWord m source s w).1.2 = true := wf_of_cells (decodeWord_cells m source s w) k

/-- A lost map word keeps the canonical form. -/
theorem mapLost_wf (m : Dev × Hbm) (source s w : Nat) (k : Memory.wf m.2 = true) : Memory.wf (mapLost m source s w).2 = true := by
  unfold mapLost
  dsimp only
  generalize m.2 = h at k ⊢
  generalize upto 64 = l
  generalize hl : l = l'
  suffices e : ∀ (t : List Nat) (h : Hbm), Memory.wf h = true → Memory.wf (t.foldl (fun (h : Hbm) i =>
      { h.dropPage s (64 * w + i) with
        valid := sinsert (h.dropPage s (64 * w + i)).valid (pageKey s (64 * w + i))
        poison := l'.foldl (fun p k => sinsert p (wordKey s ((64 * w + i) * 64 + k))) (h.dropPage s (64 * w + i)).poison }) h) = true
    from e _ _ k
  intro t
  induction t with
  | nil => exact fun _ h => h
  | cons e t ih => exact fun g h => ih _ (dropPage_wf g s _ h)

/-- A request that finds the valid-map word keeps the canonical form. -/
theorem mapReady_wf (m : Dev × Hbm) (s p : Nat) (k : Memory.wf m.2 = true) : Memory.wf (mapReady m s p).2 = true := by
  unfold mapReady
  dsimp only
  split
  · exact mapLost_wf _ _ _ _ k
  · split <;> exact k

/-- A request served keeps the canonical form. -/
theorem served_wf (m : Dev × Hbm) (off : Nat) (k : Memory.wf m.2 = true) : Memory.wf (served m off).1.2 = true :=
  mapReady_wf _ _ _ (tableReady_wf m _ k)

/-- A read of a code word keeps the canonical form. -/
theorem readWord_wf (m : Dev × Hbm) (off : Nat) (k : Memory.wf m.2 = true) : Memory.wf (readWord m off).1.2 = true := by
  unfold readWord
  split
  · exact k
  · exact decodeWord_wf _ _ _ _ (served_wf m off k)

/-- Reads keep the canonical form. -/
theorem readWords_wf (m : Dev × Hbm) (off n : Nat) (k : Memory.wf m.2 = true) : Memory.wf (readWords m off n).1.2 = true := by
  induction n generalizing m off with
  | zero => exact k
  | succ n ih => exact ih _ _ (readWord_wf m off k)

/-- A read of an element keeps the canonical form. -/
theorem readElem_wf (m : Dev × Hbm) (off n : Nat) (k : Memory.wf m.2 = true) : Memory.wf (readElem m off n).1.2 = true :=
  readWord_wf _ _ k

/-- A write of a code word keeps the canonical form. -/
theorem writeWord_wf (m : Dev × Hbm) (off : Nat) (data : Bytes) (poison : Bool) (w : Memory.wf m.2 = true) :
    Memory.wf (writeWord m off data poison).2 = true := by
  unfold writeWord
  split
  · exact w
  · exact setWord_wf _ _ _ _ _ (served_wf m off w)

/-- A write of an element keeps the canonical form. -/
theorem writeElem_wf (m : Dev × Hbm) (off k v : Nat) (poison : Bool) (w : Memory.wf m.2 = true) :
    Memory.wf (writeElem m off k v poison).2 = true := writeWord_wf _ _ _ _ w

/-- Writes of code words keep the canonical form. -/
theorem writeChunks_wf (m : Dev × Hbm) (off : Nat) (poison : Bool) (l : List Bytes) (w : Memory.wf m.2 = true) :
    Memory.wf (writeChunks m off poison l).2 = true := by
  induction l generalizing m off with
  | nil => exact w
  | cons c t ih => exact ih _ _ (writeWord_wf m off c poison w)

/-- A write of a string keeps the canonical form. -/
theorem writeBytes_wf (m : Dev × Hbm) (off : Nat) (data : Bytes) (poison : Bool) (w : Memory.wf m.2 = true) :
    Memory.wf (writeBytes m off data poison).2 = true := by
  unfold writeBytes
  split
  · exact writeChunks_wf _ _ _ _ w
  · exact w

/-- A fold keeps the canonical form where its step does. -/
theorem foldl_wf {α : Type} (f : Dev × Hbm → α → Dev × Hbm) (hf : ∀ m a, Memory.wf m.2 = true → Memory.wf (f m a).2 = true)
    (l : List α) (m : Dev × Hbm) (w : Memory.wf m.2 = true) : Memory.wf (l.foldl f m).2 = true := by
  induction l generalizing m with
  | nil => exact w
  | cons a t ih => exact ih _ (hf m a w)

/-- Blocks dropped keep the canonical form. -/
theorem dropPages_wf (m : Dev × Hbm) (pages : List Nat) (w : Memory.wf m.2 = true) : Memory.wf (dropPages m pages).2 = true :=
  foldl_wf _ (fun _ _ h => dropPage_wf _ _ _ h) _ _ w

/-- A byte outside a dropped range reads as before. -/
theorem cellGet_drop (m : List Host.Cell) (a n k : Nat) (h : k < a ∨ a + n ≤ k) : cellGet (cellDrop m a n) k = cellGet m k := by
  induction m with
  | nil => rfl
  | cons c t ih =>
    obtain ⟨x, v⟩ := c
    by_cases hx : (decide (x < a) || decide (a + n ≤ x)) = true
    · simp only [cellDrop, List.filter_cons, hx, if_true, cellGet] at ih ⊢
      rw [ih]
    · simp only [cellDrop, List.filter_cons, hx, cellGet] at ih ⊢
      have : x ≠ k := by rintro rfl; simp at hx; omega
      simp only [this, if_false]
      exact ih

/-- A byte outside the bytes written reads as before. -/
theorem cellGet_write_other : ∀ (b : Bytes) (m : List Host.Cell) (a k : Nat), (k < a ∨ a + b.length ≤ k) → cellGet (cellWrite m a b) k = cellGet m k
  | [], m, a, k, _ => rfl
  | x :: t, m, a, k, h => by
    simp only [cellWrite, List.length_cons] at h ⊢
    rw [cellGet_write_other t _ (a + 1) k (by omega), cellGet_cellSet_other _ _ (by omega)]

/-- Equal bytes read equal. -/
theorem cellRead_congr (m m' : List Host.Cell) : ∀ (n a : Nat), (∀ k, a ≤ k → k < a + n → cellGet m k = cellGet m' k) → cellRead m a n = cellRead m' a n
  | 0, _, _ => rfl
  | n + 1, a, h => by
    simp only [cellRead]
    rw [h a (by omega) (by omega), cellRead_congr m m' n (a + 1) (fun k h1 h2 => h k (by omega) (by omega))]

/-- Bytes just written read as written. -/
theorem cellRead_write : ∀ (b : Bytes) (m : List Host.Cell) (a : Nat), cellsWf m = true → cellRead (cellWrite m a b) a b.length = b
  | [], _, _, _ => rfl
  | x :: t, m, a, h => by
    simp only [cellWrite, List.length_cons, cellRead]
    rw [cellRead_write t _ (a + 1) (cellSet_wf _ _ _ h), cellGet_write_other t _ _ _ (by omega), cellGet_cellSet_same _ _ _ h]

end Sys2Proof.Machine
end

