-- ==== Sys2Proof/Laws/Ops.lean ====
section
/-!
SUPPORT. What the shared operations do, each said once.
-/

set_option linter.all false

namespace Sys2Proof.Machine
open Sys2Proof

theorem blank_off (d : Dev) (k : Nat) (h1 : 1 ≤ k) : d.blank.isOn k = false := by
  have h : k ≠ 0 := by omega
  simp only [Dev.isOn, Dev.domain, h, if_false, Dev.blank]
  split
  · rfl
  · simp only [tget]
    split
    · rfl
    · split <;> rfl
theorem cut_off (m : Dev × Hbm) (b : Bool) (k : Nat) (h1 : 1 ≤ k) (h2 : k ≠ 15) : (cutPower m b).1.isOn k = false := by
  simp only [cutPower]
  split
  · have h : k ≠ 0 := by omega
    generalize ((m.1.dropGrants false).emits _).tornActivation = e
    have := blank_off e k h1
    simp only [Dev.isOn, Dev.domain, h, if_false] at this ⊢
    rw [tget_tset_other _ _ _ (Ne.symm h2)]
    exact this
  · exact blank_off _ _ h1
theorem coldStart_facts (m : Dev × Hbm) (straps ref : Nat) (k : StartKind) :
    (coldStart m straps ref k).1.module.main = m.1.module.main ∧ (coldStart m straps ref k).1.module.mainLostAt = m.1.module.mainLostAt ∧
    (coldStart m straps ref k).1.module.straps = straps ∧ (coldStart m straps ref k).1.module.timeRef = ref ∧
    (coldStart m straps ref k).1.upd.kind = k ∧ (coldStart m straps ref k).1.upd.state = .scanning ∧
    (coldStart m straps ref k).2.cells = [] := by
  simp only [coldStart]
  split <;> simp [Dev.blank]
theorem serve_idle (m : Mach) (h : m.1.net.mailbox = []) : (serve m).2 = m.2 ∧ ((serve m).1 = m.1 ∨ (serve m).1 = m.1.flushEmergencies) := by
  simp only [serve, h, List.length_nil, serveMail]
  split
  · exact ⟨rfl, .inl rfl⟩
  · exact ⟨rfl, .inr rfl⟩
theorem flush_frame (d : Dev) : d.flushEmergencies.module = d.module ∧ d.flushEmergencies.power = d.power ∧ d.flushEmergencies.upd = d.upd ∧
    d.flushEmergencies.od = d.od ∧ d.flushEmergencies.dir = d.dir ∧ d.flushEmergencies.time = d.time ∧ d.flushEmergencies.net.waiting = d.net.waiting := by
  simp only [Dev.flushEmergencies]; split <;> simp
theorem serve_frame (m : Mach) (h : m.1.net.mailbox = []) : (serve m).1.module = m.1.module ∧ (serve m).1.power = m.1.power ∧ (serve m).1.upd = m.1.upd ∧
    (serve m).1.od = m.1.od ∧ (serve m).1.dir = m.1.dir ∧ (serve m).1.time = m.1.time ∧ (serve m).1.net.waiting = m.1.net.waiting := by
  rcases (serve_idle m h).2 with e | e <;> rw [e]
  · simp
  · exact flush_frame _
@[simp] theorem domainAnswer_mailbox (d : Dev) (k r : Nat) : (d.domainAnswer k r).net.mailbox = d.net.mailbox := by
  simp only [Dev.domainAnswer]
  split
  · split <;> simp [Dev.domainResult]
  · rfl
theorem lostRamps_idle (m : Mach) (h : ∀ k, m.1.domain k ≠ .ramping) : lostRamps m = m := by
  simp only [lostRamps]
  generalize (upto 16).filter _ = l
  induction l generalizing m with
  | nil => rfl
  | cons a t ih =>
    rw [List.foldl_cons, if_neg (by simp [h])]
    exact ih m h
theorem revoke3 (l : List Permit) (m : Dev × Hbm) (h : ∀ g ∈ l, g.cls = 3) :
    let r := l.foldl (fun m g => endEffect (m.1.revoke g, m.2) g) m
    r.1.power.overLimit = m.1.power.overLimit ∧ r.1.power.inputPower = m.1.power.inputPower ∧ r.1.net = m.1.net ∧ r.2 = m.2 := by
  induction l generalizing m with
  | nil => simp
  | cons g t ih =>
    have hg := h g (by simp)
    have := ih (endEffect (m.1.revoke g, m.2) g) (fun x hx => h x (by simp [hx]))
    simp only [List.foldl_cons] at this ⊢
    have he : endEffect (m.1.revoke g, m.2) g = (m.1.revoke g, m.2) := by simp [endEffect, hg]
    rw [he] at this ⊢
    simpa [Dev.revoke, Dev.release, Dev.permitCount] using this
theorem flush_none (d : Dev) (h : d.net.emergencies = []) : d.flushEmergencies = d := by
  simp only [Dev.flushEmergencies]
  split
  · rw [h]
    obtain ⟨_, n, _⟩ := d
    cases n
    simp only at h
    subst h
    rfl
  · rfl

/-- The first request of a mailbox is handled and answered. -/
theorem serveMail_cons (n : Nat) (d : Dev) (h : Hbm) (r : Req) (t : List Req) (hm : d.net.mailbox = r :: t) (hw : d.net.waiting = none)
    (hq : d.net.emergencies = []) : serveMail (n + 1) (d, h) =
      serveMail n (answer (handleReq ({ d with net := { d.net with mailbox := t } }, h) r).1 r (handleReq ({ d with net := { d.net with mailbox := t } }, h) r).2) := by
  rw [serveMail]
  simp only [hm, hw, Option.isSome_none, Bool.false_eq_true, if_false, flush_none d hq]

/-- A request on a ready mailbox is handled at once, on the device that the arrival touched, and answered. -/
theorem request_idle (s : State) (r : Req) (hr : s.Idle) (ht : s.dev.takes r = true) :
    (s.request r).dev = (serveMail 1 (answer (handleReq (s.asked r.who.1, s.hbm) r).1 r (handleReq (s.asked r.who.1, s.hbm) r).2)).1 ∧
    (s.request r).hbm = (serveMail 1 (answer (handleReq (s.asked r.who.1, s.hbm) r).1 r (handleReq (s.asked r.who.1, s.hbm) r).2)).2 := by
  obtain ⟨hm, hw, hq⟩ := hr
  have h1 : ({ s.dev.touch r.who.1 with net := { (s.dev.touch r.who.1).net with mailbox := [] } } : Dev) = s.dev.touch r.who.1 := by
    have : (s.dev.touch r.who.1).net.mailbox = [] := hm
    rw [← this]
  have h2 : Machine.request (s.dev, s.hbm) r = serveMail (1 + 1) ({ s.dev.touch r.who.1 with net := { (s.dev.touch r.who.1).net with mailbox := [r] } }, s.hbm) := by
    have : (s.dev.touch r.who.1).net.mailbox = [] := hm
    simp only [Machine.request, ht, Bool.not_true, Bool.false_eq_true, if_false, this, List.nil_append]
    rfl
  have h3 := serveMail_cons 1 ({ s.dev.touch r.who.1 with net := { (s.dev.touch r.who.1).net with mailbox := [r] } }) s.hbm r [] rfl hw hq
  rw [← h2] at h3
  simp only [h1] at h3
  simp only [State.request, State.onMem, h3]
  exact ⟨rfl, rfl⟩

/-- The same on a mailbox that is ready. -/
theorem request_ready (s : State) (r : Req) (hr : s.Ready) (ht : s.dev.takes r = true) :
    (s.request r).dev = (serveMail 1 (answer (handleReq (s.asked r.who.1, s.hbm) r).1 r (handleReq (s.asked r.who.1, s.hbm) r).2)).1 ∧
    (s.request r).hbm = (serveMail 1 (answer (handleReq (s.asked r.who.1, s.hbm) r).1 r (handleReq (s.asked r.who.1, s.hbm) r).2)).2 :=
  request_idle s r hr.2 ht

/-- One value written is stored by itself. -/
theorem applyAll_one (m : Mach) (c : Client) (index sub : Nat) (v : Bytes)
    (h : (decide (index = 0x2230) && (tfind [(sub, v)] 1).isSome && (tfind [(sub, v)] 2).isSome) = false) :
    applyAll m c index [(sub, v)] = applySub m c index sub v := by
  have e : [(sub, v)].filter (fun e => !actsLast index e.1) ++ [(sub, v)].filter (fun e => actsLast index e.1) = [(sub, v)] := by
    cases x : actsLast index sub <;> simp [x]
  unfold applyAll
  rw [e]
  simp only [h, Bool.false_eq_true, if_false, List.foldl_cons, List.foldl_nil, if_true]

/-- An accepted write of one subindex takes effect, but for the session response and the port map of a job whose almanac it validates. -/
theorem handleWrite_accepts (d : Dev) (h : Hbm) (deep : Bool) (c : Client) (index sub : Nat) (v : Bytes) (ha : d.Accepts deep c index sub v)
    (hv : deep = true ∨ d.awaitsValidation index sub v = false) (h20 : index = 0x2020 → sub ≠ 3) 
    (hp : 0x2080 ≤ index → index < 0x2090 → sub = 4 → (d.almanac (index - 0x2080)).isEmpty = true) :
    handleWrite (d, h) c index sub false v deep = applySub (d.cleanStore (objKey index sub), h) c index sub v := by
  obtain ⟨h1, h2, h3, h4⟩ := ha
  have hrow : ∃ r, objRow index sub = some r ∧ r.access ≠ .ro := by
    simp only [Dev.checkSub] at h4
    split at h4
    · cases h4
    · split at h4
      · cases h4
      · split at h4
        · simp at h4
        · simp at h4
        · rename_i _ _ r hr
          refine ⟨r, hr, ?_⟩
          intro hro
          simp [hro] at h4
  obtain ⟨r, hr1, hr2⟩ := hrow
  have hd : (decide (index = 0x2230) && (tfind [(sub, v)] 1).isSome && (tfind [(sub, v)] 2).isSome) = false := by
    by_cases a : sub = 1 <;> by_cases b : sub = 2 <;> simp [tfind, a, b] <;> omega
  have hw : (!deep && d.awaitsValidation index sub v) = false := by rcases hv with e | e <;> simp [e]
  have hn : (r.access != .ro) = true := by simpa using hr2
  have hc : (decide (index = 0x2020) && [sub].contains 3) = false := by
    by_cases a : index = 0x2020
    · have := h20 a
      simp [a, Ne.symm this]
    · simp [a]
  unfold handleWrite
  simp only [writeSubs, Bool.false_and, Bool.false_eq_true, if_false, h1, hc, List.findSome?_cons, List.findSome?_nil,
    valueOf, Option.bind_some, tfind, if_true, decide_false, Option.isSome_some, Option.getD_some, h2, h3, h4, Option.map_none,
    List.filter_cons, List.filter_nil, hr1, hn, List.any_cons, List.any_nil, Bool.or_false, hw, List.foldl_cons, List.foldl_nil]
  rw [applyAll_one _ _ _ _ _ hd]
  split
  · rename_i hx
    simp only [Bool.and_eq_true, decide_eq_true_eq] at hx
    have := hp hx.1.1.1 hx.1.1.2 hx.1.2
    simp_all
  · rfl

/-- A write that passes its checks but awaits a validation changes nothing yet. -/
theorem handleWrite_awaits (d : Dev) (h : Hbm) (c : Client) (index sub : Nat) (v : Bytes) (ha : d.Accepts false c index sub v)
    (hv : d.awaitsValidation index sub v = true) (h20 : index = 0x2020 → sub ≠ 3) :
    handleWrite (d, h) c index sub false v false = ((d, h), .wait (.validation (.write c index sub false v) d.now)) := by
  obtain ⟨h1, h2, h3, h4⟩ := ha
  have hrow : ∃ r, objRow index sub = some r ∧ r.access ≠ .ro := by
    simp only [Dev.checkSub] at h4
    split at h4
    · cases h4
    · split at h4
      · cases h4
      · split at h4
        · simp at h4
        · simp at h4
        · rename_i _ _ r hr
          refine ⟨r, hr, ?_⟩
          intro hro
          simp [hro] at h4
  obtain ⟨r, hr1, hr2⟩ := hrow
  have hc : (decide (index = 0x2020) && [sub].contains 3) = false := by
    by_cases a : index = 0x2020
    · have := h20 a
      simp [a, Ne.symm this]
    · simp [a]
  simp only [handleWrite, writeSubs, Bool.false_and, Bool.false_eq_true, if_false, h1, List.findSome?_cons, List.findSome?_nil,
    valueOf, Option.bind_some, tfind, if_true, decide_false, Option.isSome_some, Option.getD_some, h2, h3, h4, Option.map_none,
    List.filter_cons, List.filter_nil, hr1, bne_iff_ne, ne_eq, hr2, not_false_eq_true, Bool.not_false, List.any_cons, List.any_nil,
    Bool.or_false, Bool.true_and, hc]
  simp [hr2, hv]

/-- Emergencies that leave change nothing but the mailbox and what is sent. -/
theorem flush_form (d : Dev) : ∃ n o, d.flushEmergencies = { d with net := n, out := o } ∧ n.sessions = d.net.sessions ∧ n.waiting = d.net.waiting ∧
    n.challenges = d.net.challenges ∧ n.keys = d.net.keys ∧ n.ecat = d.net.ecat ∧ n.transfers = d.net.transfers ∧ n.pdoMaps = d.net.pdoMaps ∧
    ∀ x ∈ d.out, x ∈ o := by
  simp only [Dev.flushEmergencies]
  split
  · exact ⟨_, _, rfl, rfl, rfl, rfl, rfl, rfl, rfl, rfl, fun x hx => List.mem_append_right _ hx⟩
  · exact ⟨d.net, d.out, rfl, rfl, rfl, rfl, rfl, rfl, rfl, rfl, fun _ h => h⟩

/-- The device on which a write that is taken acts. -/
theorem taken_def (s : State) (c : Client) (index sub : Nat) : (s.asked c).cleanStore (objKey index sub) = s.taken c index sub := rfl

/-- A write that is taken and answered at once: the effect of `applySub`, and the response. -/
theorem sdoWrite_ok (s : State) (c : Client) (index sub : Nat) (v : Bytes) (ht : s.Takes c index sub v) (h20 : index = 0x2020 → sub ≠ 3)
     (d : Dev) (h : Hbm)
    (hp : 0x2080 ≤ index → index < 0x2090 → sub = 4 → ((s.asked c).almanac (index - 0x2080)).isEmpty = true)
    (hx : applySub (s.taken c index sub, s.hbm) c index sub v = ((d, h), .ok)) (hm : d.net.mailbox = []) (hw : d.net.waiting = none) :
    (s.sdoWrite c index sub v).Answered d h c index sub := by
  obtain ⟨hr, ha, hv⟩ := ht
  have hk : s.dev.takes (.write c index sub false v) = true := by
    rcases hr.1 with e | e | e <;> simp [Dev.takes, e]
  have := request_ready s (.write c index sub false v) hr hk
  simp only [Req.who, handleReq, handleWrite_accepts _ _ _ _ _ _ _ ha (.inr hv) h20 hp, taken_def, hx, answer, Req.output, Bool.false_eq_true, if_false] at this
  have e : serveMail 1 (d.emit (.response c index sub []), h) = ((d.emit (.response c index sub [])).flushEmergencies, h) := by
    simp [serveMail, hm, hw]
  rw [e] at this
  obtain ⟨n, o, f1, f2, f3, f4, f5, f6, f7, f8, f9⟩ := flush_form (d.emit (.response c index sub []))
  exact ⟨this.2, n, o, this.1.trans f1, f2, f5, f3.trans hw, f9 _ (by simp [Dev.emit])⟩

/-- A write that is taken and whose answer waits. -/
theorem sdoWrite_wait (s : State) (c : Client) (index sub : Nat) (v : Bytes) (ht : s.Takes c index sub v) (h20 : index = 0x2020 → sub ≠ 3)
     (d : Dev) (h : Hbm)
    (hp : 0x2080 ≤ index → index < 0x2090 → sub = 4 → ((s.asked c).almanac (index - 0x2080)).isEmpty = true) (w : Waiting)
    (hx : applySub (s.taken c index sub, s.hbm) c index sub v = ((d, h), .wait w)) :
    (s.sdoWrite c index sub v).Waits d h w := by
  obtain ⟨hr, ha, hv⟩ := ht
  have hk : s.dev.takes (.write c index sub false v) = true := by
    rcases hr.1 with e | e | e <;> simp [Dev.takes, e]
  have := request_ready s (.write c index sub false v) hr hk
  simp only [Req.who, handleReq, handleWrite_accepts _ _ _ _ _ _ _ ha (.inr hv) h20 hp, taken_def, hx, answer] at this
  have e : serveMail 1 (({ d with net := { d.net with waiting := some w } } : Dev), h) = ({ d with net := { d.net with waiting := some w } }, h) := by
    simp [serveMail]
  rw [e] at this
  exact ⟨this.2, this.1⟩

/-- The device that handles a request has an empty mailbox and owes no answer. -/
theorem asked_net (s : State) (c : Client) (h : s.Ready) : (s.asked c).net.mailbox = [] ∧ (s.asked c).net.waiting = none := ⟨h.2.1, h.2.2.1⟩

/-- The value of a byte. -/
@[simp] theorem unle_singleton (b : Byte) : unle [b] = b.toNat := by simp [unle]

/-- A write that is taken, answered at once or later. -/
theorem sdoWrite_took (s : State) (c : Client) (index sub : Nat) (v : Bytes) (ht : s.Takes c index sub v) (h20 : index = 0x2020 → sub ≠ 3)
     (d : Dev) (h : Hbm)
    (hp : 0x2080 ≤ index → index < 0x2090 → sub = 4 → ((s.asked c).almanac (index - 0x2080)).isEmpty = true) (a : Ans)
    (hx : applySub (s.taken c index sub, s.hbm) c index sub v = ((d, h), a)) (ha : a = .ok ∨ ∃ w, a = .wait w)
    (hm : d.net.mailbox = []) (hw : d.net.waiting = none) : (s.sdoWrite c index sub v).Took d h := by
  rcases ha with rfl | ⟨w, rfl⟩
  · obtain ⟨h1, n, o, h2, _⟩ := sdoWrite_ok s c index sub v ht h20 d h hp hx hm hw
    exact ⟨h1, n, o, h2⟩
  · obtain ⟨h1, h2⟩ := sdoWrite_wait s c index sub v ht h20 d h hp w hx
    exact ⟨h1, _, _, h2⟩

/-- A write that passes its checks and awaits its validation: nothing changes yet. -/
theorem sdoWrite_awaits (s : State) (c : Client) (index sub : Nat) (v : Bytes) (hr : s.Ready) (ha : (s.asked c).Accepts false c index sub v)
    (hv : (s.asked c).awaitsValidation index sub v = true) (h20 : index = 0x2020 → sub ≠ 3) :
    (s.sdoWrite c index sub v).Waits (s.asked c) s.hbm (.validation (.write c index sub false v) (s.asked c).now) := by
  have hk : s.dev.takes (.write c index sub false v) = true := by
    rcases hr.1 with e | e | e <;> simp [Dev.takes, e]
  have := request_ready s (.write c index sub false v) hr hk
  simp only [Req.who, handleReq, handleWrite_awaits _ _ _ _ _ _ ha hv h20, answer] at this
  have e : ∀ w, serveMail 1 (({ s.asked c with net := { (s.asked c).net with waiting := some w } } : Dev), s.hbm) = ({ s.asked c with net := { (s.asked c).net with waiting := some w } }, s.hbm) := by
    simp [serveMail]
  rw [e] at this
  exact ⟨this.2, this.1⟩

/-- A write whose validation has run takes effect and is answered. -/
theorem validated_ok (s : State) (c : Client) (index sub : Nat) (v : Bytes) (ht : s.Validates c index sub v) (h20 : index = 0x2020 → sub ≠ 3)
     (d : Dev) (h : Hbm)
    (hp4 : 0x2080 ≤ index → index < 0x2090 → sub ≠ 4)
    (hx : applySub (({ s.dev with net := { s.dev.net with waiting := none } } : Dev).cleanStore (objKey index sub), s.hbm) c index sub v = ((d, h), .ok))
    (hm : d.net.mailbox = []) (hw : d.net.waiting = none) :
    (s.onMem fun d h => validated (d, h)).Answered d h c index sub := by
  obtain ⟨⟨a, ha⟩, hb, hc⟩ := ht
  have hq : (decide (0x2080 ≤ index) && decide (index < 0x2090) && decide (sub = 4) && !false) = false := by
    simp only [Bool.not_false, Bool.and_true, Bool.and_eq_false_iff, decide_eq_false_iff_not]
    by_cases a : 0x2080 ≤ index
    · by_cases b : index < 0x2090
      · exact .inr (hp4 a b)
      · exact .inl (.inr b)
    · exact .inl (.inl a)
  have e : validated (s.dev, s.hbm) = serve (d.emit (.response c index sub []), h) := by
    simp only [validated, ha]
    simp only [hq, Bool.false_eq_true, if_false, handleWrite_accepts _ _ _ _ _ _ _ hc (.inl rfl) h20 (fun a b c => absurd c (hp4 a b)), hx, answer, Req.who, Req.output]
  have f : serve (d.emit (.response c index sub []), h) = ((d.emit (.response c index sub [])).flushEmergencies, h) := by
    simp [serve, serveMail, hm, hw]
  obtain ⟨n, o, f1, f2, f3, f4, f5, f6, f7, f8, f9⟩ := flush_form (d.emit (.response c index sub []))
  simp only [State.onMem, e, f]
  exact ⟨rfl, n, o, f1, f2, f5, f3.trans hw, f9 _ (by simp [Dev.emit])⟩

/-- A value that is stored is answered, or waits for its record or its copy. -/
theorem persist_ans (d : Dev) (c : Client) (index sub : Nat) : (d.persist c index sub).2 = .ok ∨ ∃ w, (d.persist c index sub).2 = .wait w := by
  simp only [Dev.persist]
  cases itemOf index sub with
  | none =>
    dsimp only
    split
    · exact .inr ⟨_, rfl⟩
    · exact .inl rfl
  | some e =>
    dsimp only
    split
    · exact .inr ⟨_, rfl⟩
    · split
      · exact .inr ⟨_, rfl⟩
      · exact .inl rfl

/-- A protected record changes neither the mailbox nor what is owed. -/
theorem secret_net' (d : Dev) (code index : Nat) (detail : Bytes) : (d.secret code index detail).net = d.net := by simp

/-- The end of a session leaves the mailbox alone. -/
@[simp] theorem endSession_mailbox (d : Dev) (c : Client) : (d.endSession c).net.mailbox = d.net.mailbox := by
  simp only [Dev.endSession]
  split <;> simp [Dev.setSessions]

/-- The end of a session leaves what is owed alone. -/
@[simp] theorem endSession_waiting (d : Dev) (c : Client) : (d.endSession c).net.waiting = d.net.waiting := by
  simp only [Dev.endSession]
  split <;> simp [Dev.setSessions]

/-- The end of sessions leaves the mailbox and what is owed alone. -/
@[simp] theorem endSessions_mailbox (d : Dev) (sel : Session → Bool) : (d.endSessions sel).net.mailbox = d.net.mailbox ∧
    (d.endSessions sel).net.waiting = d.net.waiting := by
  simp only [Dev.endSessions]
  generalize (d.net.sessions.filter sel).map (·.client) = l
  induction l generalizing d with
  | nil => exact ⟨rfl, rfl⟩
  | cons a t ih => exact ⟨(ih _).1.trans (by simp), (ih _).2.trans (by simp)⟩

/-- A role key written leaves the mailbox and what is owed alone. -/
@[simp] theorem setRoleKey_mailbox (d : Dev) (role c : Nat) (v : Bytes) : (d.setRoleKey role c v).net.mailbox = d.net.mailbox := by
  simp [Dev.setRoleKey, (endSessions_mailbox _ _).1]

/-- A role key written leaves what is owed alone. -/
@[simp] theorem setRoleKey_waiting (d : Dev) (role c : Nat) (v : Bytes) : (d.setRoleKey role c v).net.waiting = d.net.waiting := by
  simp [Dev.setRoleKey, (endSessions_mailbox _ _).2]

/-- A request that is handled and answered at once. -/
theorem request_answer_idle (s : State) (r : Req) (hr : s.Idle) (ht : s.dev.takes r = true) (d : Dev) (h : Hbm) (a : Ans) (o : Output)
    (hx : handleReq (s.asked r.who.1, s.hbm) r = ((d, h), a)) (ha : (∀ n, a ≠ .refuse n) ∧ ∀ w, a ≠ .wait w) (ho : r.output a = some o)
    (hm : d.net.mailbox = []) (hw : d.net.waiting = none) :
    (s.request r).hbm = h ∧ ∃ n out, (s.request r).dev = { d with net := n, out := out } ∧ n.sessions = d.net.sessions ∧
      n.challenges = d.net.challenges ∧ n.transfers = d.net.transfers ∧ n.waiting = none ∧ o ∈ out := by
  have := request_idle s r hr ht
  have e : answer (d, h) r a = (d.emit o, h) := by
    simp only [answer, ho]
    cases a with
    | refuse n => exact absurd rfl (ha.1 n)
    | wait w => exact absurd rfl (ha.2 w)
    | _ => rfl
  have f : serveMail 1 (d.emit o, h) = ((d.emit o).flushEmergencies, h) := by simp [serveMail, hm, hw]
  rw [hx] at this
  simp only [e, f] at this
  obtain ⟨n, out, f1, f2, f3, f4, f5, f6, f7, f8, f9⟩ := flush_form (d.emit o)
  exact ⟨this.2, n, out, this.1.trans f1, f2, f4, f7, f3.trans hw, f9 _ (by simp [Dev.emit])⟩

/-- The same on a mailbox that is ready. -/
theorem request_answer (s : State) (r : Req) (hr : s.Ready) (ht : s.dev.takes r = true) (d : Dev) (h : Hbm) (a : Ans) (o : Output)
    (hx : handleReq (s.asked r.who.1, s.hbm) r = ((d, h), a)) (ha : (∀ n, a ≠ .refuse n) ∧ ∀ w, a ≠ .wait w) (ho : r.output a = some o)
    (hm : d.net.mailbox = []) (hw : d.net.waiting = none) :
    (s.request r).hbm = h ∧ ∃ n out, (s.request r).dev = { d with net := n, out := out } ∧ n.sessions = d.net.sessions ∧
      n.challenges = d.net.challenges ∧ n.transfers = d.net.transfers ∧ n.waiting = none ∧ o ∈ out :=
  request_answer_idle s r hr.2 ht d h a o hx ha ho hm hw

/-- A request that is handled and whose answer waits. -/
theorem request_wait_idle (s : State) (r : Req) (hr : s.Idle) (ht : s.dev.takes r = true) (d : Dev) (h : Hbm) (w : Waiting)
    (hx : handleReq (s.asked r.who.1, s.hbm) r = ((d, h), .wait w)) : (s.request r).Waits d h w := by
  have := request_idle s r hr ht
  rw [hx] at this
  simp only [answer] at this
  have e : ∀ w, serveMail 1 (({ d with net := { d.net with waiting := some w } } : Dev), h) = ({ d with net := { d.net with waiting := some w } }, h) := by
    simp [serveMail]
  rw [e] at this
  exact ⟨this.2, this.1⟩

/-- The same on a mailbox that is ready. -/
theorem request_wait (s : State) (r : Req) (hr : s.Ready) (ht : s.dev.takes r = true) (d : Dev) (h : Hbm) (w : Waiting)
    (hx : handleReq (s.asked r.who.1, s.hbm) r = ((d, h), .wait w)) : (s.request r).Waits d h w :=
  request_wait_idle s r hr.2 ht d h w hx

/-- A ready mailbox takes a request. -/
theorem ready_takes (s : State) (r : Req) (hr : s.Ready) : s.dev.takes r = true := by
  rcases hr.1 with e | e | e <;> simp [Dev.takes, e]

/-- The end of sessions leaves the updates alone. -/
@[simp] theorem endSessions_upd (d : Dev) (sel : Session → Bool) : (d.endSessions sel).upd = d.upd := by
  simp only [Dev.endSessions]
  generalize (d.net.sessions.filter sel).map (·.client) = l
  induction l generalizing d with
  | nil => rfl
  | cons a t ih =>
    refine (ih _).trans ?_
    simp only [Dev.endSession]
    split <;> simp [Dev.setSessions]

/-- A write that is taken and answered at once: the effect of `applySub`, then the response, then the mailbox again. -/
theorem sdoWrite_raw (s : State) (c : Client) (index sub : Nat) (v : Bytes) (ht : s.Takes c index sub v) (h20 : index = 0x2020 → sub ≠ 3)
    (d : Dev) (h : Hbm)
    (hp : 0x2080 ≤ index → index < 0x2090 → sub = 4 → ((s.asked c).almanac (index - 0x2080)).isEmpty = true)
    (hx : applySub (s.taken c index sub, s.hbm) c index sub v = ((d, h), .ok)) :
    ((s.sdoWrite c index sub v).dev, (s.sdoWrite c index sub v).hbm) = serveMail 1 (d.emit (.response c index sub []), h) := by
  obtain ⟨hr, ha, hv⟩ := ht
  have hk : s.dev.takes (.write c index sub false v) = true := by
    rcases hr.1 with e | e | e <;> simp [Dev.takes, e]
  have := request_ready s (.write c index sub false v) hr hk
  simp only [Req.who, handleReq, handleWrite_accepts _ _ _ _ _ _ _ ha (.inr hv) h20 hp, taken_def, hx, answer, Req.output, Bool.false_eq_true, if_false] at this
  exact Prod.ext this.1 this.2

/-- What the word of a command says: it is listed, its TOGGLE is turned, and FAULT_ACK stands. -/
theorem commandWord_facts (d : Dev) (c : Cmd) : wordUnlisted (d.commandWord c.code) = false ∧
    (d.commandWord c.code).testBit 15 = !d.dir.cmdAck ∧ (d.commandWord c.code).testBit 8 = d.dir.lastFaultAck ∧
    cmdOf (bits (d.commandWord c.code) 3 0) = some c ∧ d.commandWord c.code < 65536 := by
  simp only [Dev.commandWord]
  generalize d.dir.lastFaultAck = a
  generalize d.dir.cmdAck = b
  revert a b c
  intro c a b
  cases c <;> cases a <;> cases b <;> decide

/-- A sampling that finds the word of a command, on a device with no command in progress: the command is latched, and runs. -/
theorem sample_runs (d : Dev) (h : Hbm) (c : Cmd) (w : Nat) (m : Bool) (hp : d.dir.inProgress = none) (hw : w = d.commandWord c.code) :
    sampleControl (d.setControl w m, h) = runCommand
      ({ d with dir := { d.dir with control := w, byMaintainer := m, cmdAck := !d.dir.cmdAck, latched := w, latchedMaintainer := m } }, h) c := by
  obtain ⟨h1, h2, h3, h4, h5⟩ := commandWord_facts d c
  rw [← hw] at h1 h2 h3 h4 h5
  have e : (d.setControl w m).ackEdge = d.setControl w m := by
    have ew : (d.setControl w m).dir.control = w := rfl
    have el : (d.setControl w m).dir.lastFaultAck = d.dir.lastFaultAck := rfl
    simp only [Dev.ackEdge, ew, el, h3, Bool.and_not_self, Bool.false_and, Bool.false_eq_true, if_false]
    rfl
  have ew : (d.setControl w m).dir.control = w := rfl
  have ec : (d.setControl w m).dir.cmdAck = d.dir.cmdAck := rfl
  have ep : (d.setControl w m).dir.inProgress = none := hp
  simp only [sampleControl, e, latchControl, ew, ec, ep, h1, h2, h4, Option.isSome_none, Bool.or_false, Bool.not_eq_eq_eq_not, Bool.eq_not_self,
    decide_false, Bool.false_eq_true, if_false]
  exact congrArg (fun x => runCommand (x, h) c) (by simp only [hp]; rfl)

/-- A command that passes the checks of its row acts (Table 2.12). -/
theorem runCommand_acts (m : Mach) (c : Cmd) (h1 : 6 ≤ c.code → m.1.dir.latchedMaintainer = true) (h2 : m.1.dir.state ∈ c.from_)
    (h3 : c.code ≤ 5 → m.1.followsDrive = false) (h4 : c = .enterMaint → m.1.faults.current = none) (h5 : m.1.cmdGuard c = true) :
    runCommand m c = ((cmdAct m c).1.cmdEnds 0, (cmdAct m c).2) := by
  have e1 : (decide (6 ≤ c.code) && !m.1.dir.latchedMaintainer) = false := by
    by_cases h : 6 ≤ c.code
    · simp [h1 h]
    · simp [h]
  have e2 : (!c.from_.contains m.1.dir.state || (decide (c.code ≤ 5) && m.1.followsDrive)) = false := by
    by_cases h : c.code ≤ 5
    · simp [h3 h, h2]
    · simp [h, h2]
  have e3 : (c == .enterMaint && m.1.faults.current.isSome) = false := by
    by_cases h : c = .enterMaint
    · simp [h4 h]
    · simp [h]
  simp only [runCommand, e1, e2, e3, h5, Bool.false_eq_true, if_false, Bool.not_true]

/-- An SDO write of the word of a command is one that is handled as it arrives. -/
theorem takes_control (s : State) (k : Client) (w : Nat) (ht : s.Takes k 0x2010 0 (le 2 w)) : s.takesControl k w = true := by
  obtain ⟨hr, ⟨_, h2, _, h4⟩, _⟩ := ht
  have hk := ready_takes s (.write k 0x2010 0 false (le 2 w)) hr
  obtain ⟨_, hm, hn, _⟩ := hr
  simp only [State.asked] at h2 h4
  simp [State.takesControl, hk, hm, hn, h2, h4]

/-- An SDO write of the control word that is taken: the word stands and the response has left. -/
theorem sdoControl (s : State) (k : Client) (w : Nat) (hw : w < 65536) (ht : s.Takes k 0x2010 0 (le 2 w)) :
    ((s.sdoWrite k 0x2010 0 (le 2 w)).dev, (s.sdoWrite k 0x2010 0 (le 2 w)).hbm) =
      (((s.taken k 0x2010 0).emit (.response k 0x2010 0 [])).setControl w ((s.asked k).isMaintainer k), s.hbm) := by
  have hu : unle (le 2 w) = w := by rw [unle_le]; exact Nat.mod_eq_of_lt hw
  have hx : applySub (s.taken k 0x2010 0, s.hbm) k 0x2010 0 (le 2 w) =
      (((s.taken k 0x2010 0).setControl (unle (le 2 w)) ((s.asked k).isMaintainer k), s.hbm), .ok) := rfl
  rw [hu] at hx
  have := sdoWrite_raw s k 0x2010 0 _ ht (by simp) _ _ (by simp) hx
  rw [this]
  have h1 := ht.1.2
  obtain ⟨hm, hn, he⟩ := h1
  have m1 : ((s.taken k 0x2010 0).setControl w ((s.asked k).isMaintainer k)).net.mailbox = [] := hm
  have m2 : ((s.taken k 0x2010 0).setControl w ((s.asked k).isMaintainer k)).net.waiting = none := hn
  have m3 : ((s.taken k 0x2010 0).setControl w ((s.asked k).isMaintainer k)).net.emergencies = [] := he
  simp only [serveMail, emit_net, m1, m2, Option.isSome_none, Bool.false_eq_true, if_false]
  rw [flush_none]
  · rfl
  · exact m3

/-- A Director command that is given runs over the machine as it is ordered (R60, R61). -/
theorem command_given (s : State) (src : CmdSrc) (c : Cmd) (h : s.Gives src c) :
    (s.command src c).Ran (runCommand (s.ordered src c, s.hbm) c) := by
  obtain ⟨hp, h0⟩ := h
  cases src with
  | processData =>
    simp only [State.Ran, State.command, State.control, State.onServe, State.onMem, controlWord]
    rw [sample_runs s.dev s.hbm c _ false hp rfl]
    rfl
  | sdo k =>
    have hw := (commandWord_facts s.dev c).2.2.2.2
    have hs := sdoControl s k _ hw h0
    obtain ⟨e1, e2⟩ := Prod.mk.inj hs
    simp only [State.Ran, State.command, State.control, takes_control s k _ h0, if_true, State.onServe, State.onMem, e1, e2]
    rw [sample_runs ((s.taken k 0x2010 0).emit (.response k 0x2010 0 [])) s.hbm c (s.dev.commandWord c.code) _ hp rfl]
    rfl

/-- A command that is obeyed runs on the device that latched it. -/
theorem command_runs (s : State) (src : CmdSrc) (c : Cmd) (h : s.Obeys src c) :
    (s.command src c).Ran ((cmdAct (s.ordered src c, s.hbm) c).1.cmdEnds 0, (cmdAct (s.ordered src c, s.hbm) c).2) := by
  obtain ⟨h0, hp, h1, h2, h3, h4, h5⟩ := h
  have hr : runCommand (s.ordered src c, s.hbm) c =
      ((cmdAct (s.ordered src c, s.hbm) c).1.cmdEnds 0, (cmdAct (s.ordered src c, s.hbm) c).2) := by
    apply runCommand_acts
    · exact h1
    · cases src <;> exact h2
    · cases src <;> exact h3
    · cases src <;> exact h4
    · exact h5
  rw [← hr]
  exact command_given s src c ⟨hp, by cases src <;> exact h0⟩

/-- Each command's action (Table 2.12), one equation a command. -/
theorem cmdAct_arm (m : Mach) : cmdAct m .arm = ((m.1.setState .armed .command).resumeJobs.announce, m.2) := rfl
theorem cmdAct_serve (m : Mach) : cmdAct m .serve = ((m.1.setState .serving .command).revoteAll.announce, m.2) := rfl
theorem cmdAct_hold (m : Mach) : cmdAct m .hold = (m.1.enterHold .command, m.2) := rfl
theorem cmdAct_resume (m : Mach) : cmdAct m .resume = (((m.1.setState .serving .command).resumeJobs).revoteAll.announce, m.2) := rfl
theorem cmdAct_disarm (m : Mach) : cmdAct m .disarm = ((m.1.setState .standby .command).disarmEntries.announce, m.2) := rfl
theorem cmdAct_enterMaint (m : Mach) : cmdAct m .enterMaint = ((m.1.setState .maintenance .command).announce, m.2) := rfl
theorem cmdAct_exitMaint (m : Mach) : cmdAct m .exitMaint = ((m.1.setState .standby .command).announce, m.2) := rfl
theorem cmdAct_enterReplay (m : Mach) (h : ((m.1.setState .replay .command).leaveRoles.recr.state == .running) = false) :
    cmdAct m .enterReplay = ((m.1.setState .replay .command).leaveRoles.ownCapture.announce, m.2) := by
  simp only [cmdAct, h, Bool.false_eq_true, if_false]
theorem cmdAct_exitReplay (m : Mach) (h : ((m.1.setState .standby .command).dropCapture.tryRing.announce).joined = false) :
    cmdAct m .exitReplay = ((m.1.setState .standby .command).dropCapture.tryRing.announce, m.2) := by
  simp only [cmdAct, h, Bool.false_eq_true, if_false]
theorem cmdAct_exitReplay_joined (m : Mach) (h : ((m.1.setState .standby .command).dropCapture.tryRing.announce).joined = true) :
    cmdAct m .exitReplay = twinJoined ((m.1.setState .standby .command).dropCapture.tryRing.announce, m.2) := by
  simp only [cmdAct, h, if_true]
theorem cmdAct_warmRestart (m : Mach) : cmdAct m .warmRestart = warmStart m .warm .command := rfl

/-- A frame that opens is handled. -/
theorem receive_opens (d : Dev) (p type : Nat) (f : Mapen) (act : Dev → Dev) (h : d.Opens p type f) :
    d.receive p type f act = act (d.heard p) := by
  obtain ⟨h1, h2, h3, h4, h5, h6, h7, h8⟩ := h
  have hq : ((d.port p).state == .quarantined) = false := by simpa using h3
  have ht : (d.port p).tooLate f d.now = false := by
    simp only [Port.tooLate, Bool.or_eq_false_iff, List.contains_eq_mem, decide_eq_false_iff_not]
    refine ⟨h7, ?_⟩
    split
    · rename_i a s t e
      simp only [Bool.and_eq_false_iff, decide_eq_false_iff_not]
      by_cases x : f.echo = s
      · have := h8 a s t e x
        omega
      · simp [x]
    · rfl
  have ha : (d.port p).answerOf type f = none := by
    simp only [Port.answerOf, Option.map_eq_none_iff, List.find?_eq_none]
    rintro ⟨t, s, a⟩ m
    simp only [Bool.and_eq_true, decide_eq_true_eq]
    rintro ⟨rfl, rfl⟩
    exact h4 a m
  have hp : (f.port != p && !(decide (f.port = 0xFFFF) && (!(d.port p).helloSent || decide (type = 1)))) = false := by
    rcases h5 with e | ⟨e', e | e⟩
    · simp [e]
    · simp [e, e']
    · simp [e, e']
  have hs : ((d.port p).state == .identified && type != 2 && some f.source != (d.port p).partner.map (·.chip)) = false := by
    by_cases c1 : (d.port p).state = .identified
    · by_cases c2 : type = 2
      · simp [c2]
      · simp [h6 c1 c2]
    · simp [c1]
  have hm : (d.port p).misaddressed p type f = none := by simp only [Port.misaddressed, hp, hs, Bool.false_eq_true, if_false]
  have e : ∀ q, (d.bump (0x2A40 + podOf p) 3).port q = d.port q := fun _ => rfl
  simp only [Dev.receive, Dev.heard, h1, h2, ht, e, hq, ha, hm, Bool.not_true, Bool.false_eq_true, if_false, Bool.or_self, ite_self]

/-- A frame that the engine serves is handled. -/
theorem svcIn_serves (d : Dev) (m : Hbm) (n : Nat) (h : SvcHdr) (type j : Nat) (act : Dev × Hbm → Nat → Dev × Hbm) (hs : d.Serves n h j) :
    svcIn (d, m) n h type act = act (d.counted n h, m) j := by
  obtain ⟨h1, h2, h3, h4, h5⟩ := hs
  have e : (d.svcLink n).isNone = false := by cases x : d.svcLink n <;> simp_all
  have e5 : (planTag ((d.counted n h).plan j) != h.tag) = false := by simp [h5]
  simp only [Dev.counted] at h3 h4 e5
  simp only [svcIn, h1, e, h3, h4, e5, Bool.not_true, Bool.or_self, Bool.false_eq_true, if_false, Dev.counted]

/-- A service frame that passes every check acts. -/
theorem svcChecked_none (m : Dev × Hbm) (n : Nat) (h : SvcHdr) (type : Nat) (checks : List (Bool × Nat)) (act : Dev × Hbm → Dev × Hbm)
    (hc : ∀ c ∈ checks, c.1 = false) : svcChecked m n h type checks act = act m := by
  have : checks.find? Prod.fst = none := List.find?_eq_none.mpr (fun c h => by simp [hc c h])
  simp only [svcChecked, this]

/-- A write that the second stage refuses ends with its abort code and changes nothing (R56). -/
theorem handleWrite_aborts (d : Dev) (h : Hbm) (c : Client) (index sub code : Nat) (v : Bytes) (h1 : splitValues index [sub] v = some [(sub, v)])
    (h2 : d.refusesWrite c index sub true v = none) (h3 : index ≠ 0x2020) (h4 : index ≠ 0x2840)
    (h5 : d.checkSub (d.withValues index [(sub, v)]) false false index sub (some v) = some code)
    (h6 : d.noteFault (d.withValues index [(sub, v)]) false index sub v code = d) :
    handleWrite (d, h) c index sub false v false = ((d, h), .abort code) := by
  have h7 : d.refusesResponse c index [sub] v (some [(sub, v)]) = false := by simp [Dev.refusesResponse, h3]
  simp [handleWrite, writeSubs, h1, h3, h4, h7, valueOf, tfind, h2, h5, h6]

/-- The same for a client's write to a ready mailbox (R41, R56). -/
theorem sdoWrite_aborts (s : State) (c : Client) (index sub code : Nat) (v : Bytes) (hr : s.Ready) (h1 : splitValues index [sub] v = some [(sub, v)])
    (h2 : (s.asked c).refusesWrite c index sub true v = none) (h3 : index ≠ 0x2020) (h4 : index ≠ 0x2840)
    (h5 : (s.asked c).checkSub ((s.asked c).withValues index [(sub, v)]) false false index sub (some v) = some code)
    (h6 : (s.asked c).noteFault ((s.asked c).withValues index [(sub, v)]) false index sub v code = s.asked c) : (s.sdoWrite c index sub v).Aborted s c index sub code := by
  have hk : s.dev.takes (.write c index sub false v) = true := by
    rcases hr.1 with e | e | e <;> simp [Dev.takes, e]
  obtain ⟨e1, n, out, e2, _, _, _, _, e3⟩ := request_answer_idle s (.write c index sub false v) hr.2 hk (s.asked c) s.hbm (.abort code)
    (.abort c index sub code) (by simp only [Req.who, handleReq]; exact handleWrite_aborts _ _ _ _ _ _ _ h1 h2 h3 h4 h5 h6) ⟨by simp, by simp⟩ rfl hr.2.1 hr.2.2.1
  exact ⟨e1, n, out, e2, e3⟩

/-- A settings record that is written leaves the mailbox as it was. -/
@[simp] theorem programSettings_net (d : Dev) (r : SettingsRec) (b : Bytes) : (d.programSettings r b).net = d.net := by
  unfold Dev.programSettings
  simp only [emit_net]
  refine (foldl_net _ ?_ _ _).trans rfl
  intro d a
  exact emit_net _ _
theorem flashWritten_net (d : Dev) (p : FlashPage) : (d.flashWritten p).net = d.net := rfl
theorem setUpd_net (d : Dev) (u : Update) (r : SettingsRec) (b : Bytes) (p : FlashPage) :
    ((({ d with upd := u } : Dev).programSettings r b).flashWritten p).net = d.net := programSettings_net _ _ _
@[simp] theorem commitSettings_net (d : Dev) : d.commitSettings.net = d.net := by
  delta Dev.commitSettings
  generalize d.settingsPoisoned = x
  cases x
  · exact setUpd_net _ _ _ _ _
  · rfl

end Sys2Proof.Machine
end

