-- ==== Sys2Proof/Laws/Wf.lean ====
section
/-!
SUPPORT. Every operation on the machine keeps the canonical form of the HBM store.
-/

namespace Sys2Proof.Machine
open Sys2Proof

set_option linter.unusedTactic false
set_option linter.unreachableTactic false

/-- Either way of a condition keeps the canonical form. -/
theorem ite_wf {c : Prop} [Decidable c] {a b : Dev × Hbm} (ha : Memory.wf a.2 = true) (hb : Memory.wf b.2 = true) :
    Memory.wf (if c then a else b).2 = true := by split <;> assumption

/-- Either way of a condition keeps the canonical form. -/
theorem ite_ans_wf {α : Type} {c : Prop} [Decidable c] {a b : (Dev × Hbm) × α} (ha : Memory.wf a.1.2 = true) (hb : Memory.wf b.1.2 = true) :
    Memory.wf (if c then a else b).1.2 = true := by split <;> assumption

/-- A change of the device alone. -/
theorem mach_wf {h : Hbm} (d : Dev) (a : Ans) (k : Memory.wf h = true) : Memory.wf (((d, h), a) : Mach × Ans).1.2 = true := k

/-- A block entered keeps the canonical form. -/
theorem enterPage_wf (h : Hbm) (s p : Nat) (k : Memory.wf h = true) : Memory.wf (h.enterPage s p) = true :=
  wf_of_cells (enterPage_cells h s p) k

/-- A fold that answers keeps the canonical form where its step does. -/
theorem foldl_ans_wf {α β : Type} (f : (Dev × Hbm) × β → α → (Dev × Hbm) × β)
    (hf : ∀ r a, Memory.wf r.1.2 = true → Memory.wf (f r a).1.2 = true)
    (l : List α) (r : (Dev × Hbm) × β) (w : Memory.wf r.1.2 = true) : Memory.wf (l.foldl f r).1.2 = true := by
  induction l generalizing r with
  | nil => exact w
  | cons a t ih => exact ih _ (hf r a w)

/-- `takeGranule` keeps the canonical form. -/
theorem takeGranule_wf (m : Dev × Hbm) (j : Nat) (g : Nat) (data : Bytes) (poison : Bool) (wk : Memory.wf m.2 = true) :
    Memory.wf (takeGranule m j g data poison).2 = true := by
  unfold takeGranule
  repeat' first | with_reducible assumption | dsimp only | with_reducible apply writeBytes_wf | (with_reducible apply foldl_wf; intro _ _ _) | (with_reducible apply foldl_ans_wf; intro _ _ _) | with_reducible apply ite_wf | with_reducible apply ite_ans_wf | split | (simp only [Memory.wf] at *; assumption)

/-- `takeGranules` keeps the canonical form. -/
theorem takeGranules_wf (m : Dev × Hbm) (j : Nat) (poison : Bool) (g : Nat) (l : List Bytes) (k : Memory.wf m.2 = true) :
    Memory.wf (takeGranules m j poison g l).2 = true := by
  induction l generalizing m g with
  | nil => exact k
  | cons c t ih => exact ih _ _ (takeGranule_wf _ _ _ _ _ k)

/-- `readMaster` keeps the canonical form. -/
theorem readMaster_wf (m : Dev × Hbm) (b : Bytes) (i : Nat) (wk : Memory.wf m.2 = true) :
    Memory.wf (readMaster m b i).1.2 = true := by
  unfold readMaster
  repeat' first | with_reducible assumption | dsimp only | with_reducible apply readElem_wf | (with_reducible apply foldl_wf; intro _ _ _) | (with_reducible apply foldl_ans_wf; intro _ _ _) | with_reducible apply ite_wf | with_reducible apply ite_ans_wf | split | (simp only [Memory.wf] at *; assumption)

/-- `readMasters` keeps the canonical form. -/
theorem readMasters_wf (m : Dev × Hbm) (b : Bytes) (i n : Nat) (k : Memory.wf m.2 = true) :
    Memory.wf (readMasters m b i n).1.2 = true := by
  induction n generalizing m i with
  | zero => exact k
  | succ n ih => exact ih _ _ (readMaster_wf _ _ _ k)

/-- `workFrames` keeps the canonical form. -/
theorem workFrames_wf (m : Dev × Hbm) (j n last : Nat) (c i : Nat) (k : Memory.wf m.2 = true) :
    Memory.wf (workFrames m j n last c i).2 = true := by
  induction c generalizing m i with
  | zero => exact k
  | succ c ih =>
    unfold workFrames
    split
    · exact k
    · exact ih _ _ (readMasters_wf _ _ _ _ k)

/-- `workOut` keeps the canonical form. -/
theorem workOut_wf (m : Dev × Hbm) (j : Nat) (wk : Memory.wf m.2 = true) :
    Memory.wf (workOut m j).2 = true := by
  unfold workOut
  repeat' first | with_reducible assumption | dsimp only | with_reducible apply workFrames_wf | (with_reducible apply foldl_wf; intro _ _ _) | (with_reducible apply foldl_ans_wf; intro _ _ _) | with_reducible apply ite_wf | with_reducible apply ite_ans_wf | split | (simp only [Memory.wf] at *; assumption)

/-- `mirrorWords` keeps the canonical form. -/
theorem mirrorWords_wf (m : Dev × Hbm) (job : Nat) (bank : Nat) (region : Nat) (flags : Nat) (step : Nat) (addr : Nat) (off : Nat) (n : Nat) (wk : Memory.wf m.2 = true) :
    Memory.wf (mirrorWords m job bank region flags step addr off n).2 = true := by
  unfold mirrorWords
  repeat' first | with_reducible assumption | dsimp only | with_reducible apply readWords_wf | with_reducible apply readWord_wf | (with_reducible apply foldl_wf; intro _ _ _) | (with_reducible apply foldl_ans_wf; intro _ _ _) | with_reducible apply ite_wf | with_reducible apply ite_ans_wf | split | (simp only [Memory.wf] at *; assumption)

/-- `mirrorOut` keeps the canonical form. -/
theorem mirrorOut_wf (m : Dev × Hbm) (j : Nat) (from_ : Nat) (into : Nat) (flags : Nat) (e : Nat × Nat × Nat) (wk : Memory.wf m.2 = true) :
    Memory.wf (mirrorOut m j from_ into flags e).2 = true := by
  unfold mirrorOut
  repeat' first | with_reducible assumption | dsimp only | with_reducible apply mirrorWords_wf | (with_reducible apply foldl_wf; intro _ _ _) | (with_reducible apply foldl_ans_wf; intro _ _ _) | with_reducible apply ite_wf | with_reducible apply ite_ans_wf | split | (simp only [Memory.wf] at *; assumption)

/-- `mirrorStream` keeps the canonical form. -/
theorem mirrorStream_wf (m : Dev × Hbm) (j : Nat) (wk : Memory.wf m.2 = true) :
    Memory.wf (mirrorStream m j).2 = true := by
  unfold mirrorStream
  repeat' first | with_reducible assumption | dsimp only | with_reducible apply mirrorOut_wf | (with_reducible apply foldl_wf; intro _ _ _) | (with_reducible apply foldl_ans_wf; intro _ _ _) | with_reducible apply ite_wf | with_reducible apply ite_ans_wf | split | (simp only [Memory.wf] at *; assumption)

/-- `mirrorDue` keeps the canonical form. -/
theorem mirrorDue_wf (m : Dev × Hbm) (j : Nat) (wk : Memory.wf m.2 = true) :
    Memory.wf (mirrorDue m j).2 = true := by
  unfold mirrorDue
  repeat' first | with_reducible assumption | dsimp only | with_reducible apply mirrorStream_wf | (with_reducible apply foldl_wf; intro _ _ _) | (with_reducible apply foldl_ans_wf; intro _ _ _) | with_reducible apply ite_wf | with_reducible apply ite_ans_wf | split | (simp only [Memory.wf] at *; assumption)

/-- `mirrorModel` keeps the canonical form. -/
theorem mirrorModel_wf (m : Dev × Hbm) (s : Nat) (wk : Memory.wf m.2 = true) :
    Memory.wf (mirrorModel m s).2 = true := by
  unfold mirrorModel
  repeat' first | with_reducible assumption | dsimp only | with_reducible apply mirrorWords_wf | (with_reducible apply foldl_wf; intro _ _ _) | (with_reducible apply foldl_ans_wf; intro _ _ _) | with_reducible apply ite_wf | with_reducible apply ite_ans_wf | split | (simp only [Memory.wf] at *; assumption)

/-- `writeMaster` keeps the canonical form. -/
theorem writeMaster_wf (m : Dev × Hbm) (b : Bytes) (i : Nat) (v : Nat) (poison : Bool) (wk : Memory.wf m.2 = true) :
    Memory.wf (writeMaster m b i v poison).2 = true := by
  unfold writeMaster
  repeat' first | with_reducible assumption | dsimp only | with_reducible apply writeElem_wf | (with_reducible apply foldl_wf; intro _ _ _) | (with_reducible apply foldl_ans_wf; intro _ _ _) | with_reducible apply ite_wf | with_reducible apply ite_ans_wf | split | (simp only [Memory.wf] at *; assumption)

/-- `updateElem` keeps the canonical form. -/
theorem updateElem_wf (m : Dev × Hbm) (b : Bytes) (o : Once) (i : Nat) (wk : Memory.wf m.2 = true) :
    Memory.wf (updateElem m b o i).1.2 = true := by
  unfold updateElem
  repeat' first | with_reducible assumption | dsimp only | with_reducible apply readElem_wf | with_reducible apply writeElem_wf | with_reducible apply readMaster_wf | with_reducible apply writeMaster_wf | (with_reducible apply foldl_wf; intro _ _ _) | (with_reducible apply foldl_ans_wf; intro _ _ _) | with_reducible apply ite_wf | with_reducible apply ite_ans_wf | split | (simp only [Memory.wf] at *; assumption)

/-- `updateFrom` keeps the canonical form. -/
theorem updateFrom_wf (m : Dev × Hbm) (b : Bytes) (o : Once) (i n : Nat) (k : Memory.wf m.2 = true) :
    Memory.wf (updateFrom m b o i n).1.2 = true := by
  induction n generalizing m i with
  | zero => exact k
  | succ n ih => exact ih _ _ (updateElem_wf _ _ _ _ k)

/-- `updateStep` keeps the canonical form. -/
theorem updateStep_wf (m : Dev × Hbm) (j : Nat) (c : Clip) (wk : Memory.wf m.2 = true) :
    Memory.wf (updateStep m j c).2 = true := by
  unfold updateStep
  repeat' first | with_reducible assumption | dsimp only | with_reducible apply workOut_wf | with_reducible apply mirrorDue_wf | with_reducible apply updateFrom_wf | (with_reducible apply foldl_wf; intro _ _ _) | (with_reducible apply foldl_ans_wf; intro _ _ _) | with_reducible apply ite_wf | with_reducible apply ite_ans_wf | split | (simp only [Memory.wf] at *; assumption)

/-- `engineRestart` keeps the canonical form. -/
theorem engineRestart_wf (m : Dev × Hbm) (tag : Nat) (gen : Nat) (step : Nat) (wk : Memory.wf m.2 = true) :
    Memory.wf (engineRestart m tag gen step).2 = true := by
  unfold engineRestart
  repeat' first | with_reducible assumption | dsimp only | (with_reducible apply foldl_wf; intro _ _ _) | (with_reducible apply foldl_ans_wf; intro _ _ _) | with_reducible apply ite_wf | with_reducible apply ite_ans_wf | split | (simp only [Memory.wf] at *; assumption)

/-- `leaderRestart` keeps the canonical form. -/
theorem leaderRestart_wf (m : Dev × Hbm) (tag : Nat) (step : Nat) (gen : Nat) (wk : Memory.wf m.2 = true) :
    Memory.wf (leaderRestart m tag step gen).2 = true := by
  unfold leaderRestart
  repeat' first | with_reducible assumption | dsimp only | with_reducible apply engineRestart_wf | (with_reducible apply foldl_wf; intro _ _ _) | (with_reducible apply foldl_ans_wf; intro _ _ _) | with_reducible apply ite_wf | with_reducible apply ite_ans_wf | split | (simp only [Memory.wf] at *; assumption)

/-- `normPartial` keeps the canonical form. -/
theorem normPartial_wf (m : Dev × Hbm) (tag : Nat) (gen : Nat) (shard : Nat) (flags : Nat) (step : Nat) (sum : Nat) (wk : Memory.wf m.2 = true) :
    Memory.wf (normPartial m tag gen shard flags step sum).2 = true := by
  unfold normPartial
  repeat' first | with_reducible assumption | dsimp only | with_reducible apply leaderRestart_wf | (with_reducible apply foldl_wf; intro _ _ _) | (with_reducible apply foldl_ans_wf; intro _ _ _) | with_reducible apply ite_wf | with_reducible apply ite_ans_wf | split | (simp only [Memory.wf] at *; assumption)

/-- `sendPartial` keeps the canonical form. -/
theorem sendPartial_wf (m : Dev × Hbm) (j : Nat) (wk : Memory.wf m.2 = true) :
    Memory.wf (sendPartial m j).2 = true := by
  unfold sendPartial
  repeat' first | with_reducible assumption | dsimp only | with_reducible apply normPartial_wf | (with_reducible apply foldl_wf; intro _ _ _) | (with_reducible apply foldl_ans_wf; intro _ _ _) | with_reducible apply ite_wf | with_reducible apply ite_ans_wf | split | (simp only [Memory.wf] at *; assumption)

/-- `leaderVoid` keeps the canonical form. -/
theorem leaderVoid_wf (m : Dev × Hbm) (tag : Nat) (step : Nat) (wk : Memory.wf m.2 = true) :
    Memory.wf (leaderVoid m tag step).2 = true := by
  unfold leaderVoid
  repeat' first | with_reducible assumption | dsimp only | with_reducible apply leaderRestart_wf | (with_reducible apply foldl_wf; intro _ _ _) | (with_reducible apply foldl_ans_wf; intro _ _ _) | with_reducible apply ite_wf | with_reducible apply ite_ans_wf | split | (simp only [Memory.wf] at *; assumption)

/-- `freeExtents` keeps the canonical form. -/
theorem freeExtents_wf (m : Dev × Hbm) (j : Nat) (sel : Extent → Bool) (wk : Memory.wf m.2 = true) :
    Memory.wf (freeExtents m j sel).2 = true := by
  unfold freeExtents
  repeat' first | with_reducible assumption | dsimp only | with_reducible apply dropPages_wf | (with_reducible apply foldl_wf; intro _ _ _) | (with_reducible apply foldl_ans_wf; intro _ _ _) | with_reducible apply ite_wf | with_reducible apply ite_ans_wf | split | (simp only [Memory.wf] at *; assumption)

/-- `readFrames` keeps the canonical form. -/
theorem readFrames_wf (m : Dev × Hbm) (base step len c off : Nat) (k : Memory.wf m.2 = true) :
    Memory.wf (readFrames m base step len c off).1.2 = true := by
  induction c generalizing m off with
  | zero => exact k
  | succ c ih =>
    unfold readFrames
    split
    · exact k
    · exact ih _ _ (readWords_wf _ _ _ k)

/-- `stageExtents` keeps the canonical form. -/
theorem stageExtents_wf (m : Dev × Hbm) (room : Nat) (l : List Extent) (k : Memory.wf m.2 = true) :
    Memory.wf (stageExtents m room l).1.2 = true := by
  induction l generalizing m room with
  | nil => exact k
  | cons e t ih => exact ih _ _ (readFrames_wf _ _ _ _ _ _ k)

/-- `stageGroup` keeps the canonical form. -/
theorem stageGroup_wf (m : Dev × Hbm) (j : Nat) (wk : Memory.wf m.2 = true) :
    Memory.wf (stageGroup m j).2 = true := by
  unfold stageGroup
  repeat' first | with_reducible assumption | dsimp only | with_reducible apply stageExtents_wf | (with_reducible apply foldl_wf; intro _ _ _) | (with_reducible apply foldl_ans_wf; intro _ _ _) | with_reducible apply ite_wf | with_reducible apply ite_ans_wf | split | (simp only [Memory.wf] at *; assumption)

/-- `deliverExtent` keeps the canonical form. -/
theorem deliverExtent_wf (m : Dev × Hbm) (j : Nat) (e : Extent) (last : Bool) (wk : Memory.wf m.2 = true) :
    Memory.wf (deliverExtent m j e last).2 = true := by
  unfold deliverExtent
  repeat' first | with_reducible assumption | dsimp only | with_reducible apply readFrames_wf | (with_reducible apply foldl_wf; intro _ _ _) | (with_reducible apply foldl_ans_wf; intro _ _ _) | with_reducible apply ite_wf | with_reducible apply ite_ans_wf | split | (simp only [Memory.wf] at *; assumption)

/-- `deliverGroup` keeps the canonical form. -/
theorem deliverGroup_wf (m : Dev × Hbm) (j : Nat) (g : Nat) (wk : Memory.wf m.2 = true) :
    Memory.wf (deliverGroup m j g).2 = true := by
  unfold deliverGroup
  repeat' first | with_reducible assumption | dsimp only | with_reducible apply deliverExtent_wf | (with_reducible apply foldl_wf; intro _ _ _) | (with_reducible apply foldl_ans_wf; intro _ _ _) | with_reducible apply ite_wf | with_reducible apply ite_ans_wf | split | (simp only [Memory.wf] at *; assumption)

/-- `engineVoid` keeps the canonical form. -/
theorem engineVoid_wf (m : Dev × Hbm) (j : Nat) (step : Nat) (wk : Memory.wf m.2 = true) :
    Memory.wf (engineVoid m j step).2 = true := by
  unfold engineVoid
  repeat' first | with_reducible assumption | dsimp only | with_reducible apply freeExtents_wf | (with_reducible apply foldl_wf; intro _ _ _) | (with_reducible apply foldl_ans_wf; intro _ _ _) | with_reducible apply ite_wf | with_reducible apply ite_ans_wf | split | (simp only [Memory.wf] at *; assumption)

/-- `stepStart` keeps the canonical form. -/
theorem stepStart_wf (m : Dev × Hbm) (j : Nat) (wk : Memory.wf m.2 = true) :
    Memory.wf (stepStart m j).2 = true := by
  unfold stepStart
  repeat' first | with_reducible assumption | dsimp only | (with_reducible apply foldl_wf; intro _ _ _) | (with_reducible apply foldl_ans_wf; intro _ _ _) | with_reducible apply ite_wf | with_reducible apply ite_ans_wf | split | (simp only [Memory.wf] at *; assumption)

/-- `modelDone` keeps the canonical form. -/
theorem modelDone_wf (m : Dev × Hbm) (s : Nat) (wk : Memory.wf m.2 = true) :
    Memory.wf (modelDone m s).2 = true := by
  unfold modelDone
  repeat' first | with_reducible assumption | dsimp only | with_reducible apply readWords_wf | with_reducible apply mirrorModel_wf | (with_reducible apply foldl_wf; intro _ _ _) | (with_reducible apply foldl_ans_wf; intro _ _ _) | with_reducible apply ite_wf | with_reducible apply ite_ans_wf | split | (simp only [Memory.wf] at *; assumption)

/-- `modelWrite` keeps the canonical form. -/
theorem modelWrite_wf (m : Dev × Hbm) (s : Nat) (off : Nat) (data : Bytes) (poison : Bool) (wk : Memory.wf m.2 = true) :
    Memory.wf (modelWrite m s off data poison).2 = true := by
  unfold modelWrite
  repeat' first | with_reducible assumption | dsimp only | with_reducible apply writeBytes_wf | with_reducible apply modelDone_wf | (with_reducible apply foldl_wf; intro _ _ _) | (with_reducible apply foldl_ans_wf; intro _ _ _) | with_reducible apply ite_wf | with_reducible apply ite_ans_wf | split | (simp only [Memory.wf] at *; assumption)

/-- `deliverModel` keeps the canonical form. -/
theorem deliverModel_wf (m : Dev × Hbm) (j : Nat) (s : Nat) (wk : Memory.wf m.2 = true) :
    Memory.wf (deliverModel m j s).2 = true := by
  unfold deliverModel
  repeat' first | with_reducible assumption | dsimp only | with_reducible apply readFrames_wf | (with_reducible apply foldl_wf; intro _ _ _) | (with_reducible apply foldl_ans_wf; intro _ _ _) | with_reducible apply ite_wf | with_reducible apply ite_ans_wf | split | (simp only [Memory.wf] at *; assumption)

/-- `engineStart` keeps the canonical form. -/
theorem engineStart_wf (m : Dev × Hbm) (j : Nat) (wk : Memory.wf m.2 = true) :
    Memory.wf (engineStart m j).2 = true := by
  unfold engineStart
  repeat' first | with_reducible assumption | dsimp only | (with_reducible apply foldl_wf; intro _ _ _) | (with_reducible apply foldl_ans_wf; intro _ _ _) | with_reducible apply ite_wf | with_reducible apply ite_ans_wf | split | (simp only [Memory.wf] at *; assumption)

/-- `engineResume` keeps the canonical form. -/
theorem engineResume_wf (m : Dev × Hbm) (j : Nat) (resume : Nat) (wk : Memory.wf m.2 = true) :
    Memory.wf (engineResume m j resume).2 = true := by
  unfold engineResume
  repeat' first | with_reducible assumption | dsimp only | with_reducible apply workOut_wf | with_reducible apply updateStep_wf | with_reducible apply freeExtents_wf | (with_reducible apply foldl_wf; intro _ _ _) | (with_reducible apply foldl_ans_wf; intro _ _ _) | with_reducible apply ite_wf | with_reducible apply ite_ans_wf | split | (simp only [Memory.wf] at *; assumption)

/-- `restoreBank` keeps the canonical form. -/
theorem restoreBank_wf (m : Dev × Hbm) (j : Nat) (b : Nat) (wk : Memory.wf m.2 = true) :
    Memory.wf (restoreBank m j b).2 = true := by
  unfold restoreBank
  repeat' first | with_reducible assumption | dsimp only | with_reducible apply writeWord_wf | with_reducible apply readWord_wf | (with_reducible apply foldl_wf; intro _ _ _) | (with_reducible apply foldl_ans_wf; intro _ _ _) | with_reducible apply ite_wf | with_reducible apply ite_ans_wf | split | (simp only [Memory.wf] at *; assumption)

/-- `takeColl` keeps the canonical form. -/
theorem takeColl_wf (m : Dev × Hbm) (wk : Memory.wf m.2 = true) :
    Memory.wf (takeColl m).2 = true := by
  unfold takeColl
  repeat' first | with_reducible assumption | dsimp only | with_reducible apply restoreBank_wf | (with_reducible apply foldl_wf; intro _ _ _) | (with_reducible apply foldl_ans_wf; intro _ _ _) | with_reducible apply ite_wf | with_reducible apply ite_ans_wf | split | (simp only [Memory.wf] at *; assumption)

/-- `twinJoined` keeps the canonical form. -/
theorem twinJoined_wf (m : Dev × Hbm) (wk : Memory.wf m.2 = true) :
    Memory.wf (twinJoined m).2 = true := by
  unfold twinJoined
  repeat' first | with_reducible assumption | dsimp only | with_reducible apply mirrorModel_wf | (with_reducible apply foldl_wf; intro _ _ _) | (with_reducible apply foldl_ans_wf; intro _ _ _) | with_reducible apply ite_wf | with_reducible apply ite_ans_wf | split | (simp only [Memory.wf] at *; assumption)

/-- `releaseJob` keeps the canonical form. -/
theorem releaseJob_wf (m : Dev × Hbm) (j : Nat) (wk : Memory.wf m.2 = true) :
    Memory.wf (releaseJob m j).2 = true := by
  unfold releaseJob
  repeat' first | with_reducible assumption | dsimp only | with_reducible apply engineResume_wf | (with_reducible apply foldl_wf; intro _ _ _) | (with_reducible apply foldl_ans_wf; intro _ _ _) | with_reducible apply ite_wf | with_reducible apply ite_ans_wf | split | (simp only [Memory.wf] at *; assumption)

/-- `scrubStack` keeps the canonical form. -/
theorem scrubStack_wf (m : Dev × Hbm) (s : Nat) (w_ : Nat) (symbols : Nat) (queued : Bool) (wk : Memory.wf m.2 = true) :
    Memory.wf (scrubStack m s w_ symbols queued).2 = true := by
  unfold scrubStack
  repeat' first | with_reducible assumption | dsimp only | with_reducible apply setWord_wf | (with_reducible apply foldl_wf; intro _ _ _) | (with_reducible apply foldl_ans_wf; intro _ _ _) | with_reducible apply ite_wf | with_reducible apply ite_ans_wf | split | (simp only [Memory.wf] at *; assumption)

/-- `scrubSram` keeps the canonical form. -/
theorem scrubSram_wf (m : Dev × Hbm) (a : Nat) (w_ : Nat) (symbols : Nat) (queued : Bool) (wk : Memory.wf m.2 = true) :
    Memory.wf (scrubSram m a w_ symbols queued).2 = true := by
  unfold scrubSram
  repeat' first | with_reducible assumption | dsimp only | with_reducible apply mapLost_wf | (with_reducible apply foldl_wf; intro _ _ _) | (with_reducible apply foldl_ans_wf; intro _ _ _) | with_reducible apply ite_wf | with_reducible apply ite_ans_wf | split | (simp only [Memory.wf] at *; assumption)

/-- `twinHello` keeps the canonical form. -/
theorem twinHello_wf (m : Dev × Hbm) (h : DiscHello) (wk : Memory.wf m.2 = true) :
    Memory.wf (twinHello m h).2 = true := by
  unfold twinHello
  repeat' first | with_reducible assumption | dsimp only | with_reducible apply twinJoined_wf | (with_reducible apply foldl_wf; intro _ _ _) | (with_reducible apply foldl_ans_wf; intro _ _ _) | with_reducible apply ite_wf | with_reducible apply ite_ans_wf | split | (simp only [Memory.wf] at *; assumption)

/-- `linkUp` keeps the canonical form. -/
theorem linkUp_wf (m : Dev × Hbm) (l : Nat) (sender : Nat) (twin : Nat) (wk : Memory.wf m.2 = true) :
    Memory.wf (linkUp m l sender twin).2 = true := by
  unfold linkUp
  repeat' first | with_reducible assumption | dsimp only | with_reducible apply twinJoined_wf | (with_reducible apply foldl_wf; intro _ _ _) | (with_reducible apply foldl_ans_wf; intro _ _ _) | with_reducible apply ite_wf | with_reducible apply ite_ans_wf | split | (simp only [Memory.wf] at *; assumption)

/-- `trainReceived` keeps the canonical form. -/
theorem trainReceived_wf (m : Dev × Hbm) (l : Nat) (t : Train) (wk : Memory.wf m.2 = true) :
    Memory.wf (trainReceived m l t).2 = true := by
  unfold trainReceived
  repeat' first | with_reducible assumption | dsimp only | with_reducible apply linkUp_wf | (with_reducible apply foldl_wf; intro _ _ _) | (with_reducible apply foldl_ans_wf; intro _ _ _) | with_reducible apply ite_wf | with_reducible apply ite_ans_wf | split | (simp only [Memory.wf] at *; assumption)

/-- `stacksReady` keeps the canonical form. -/
theorem stacksReady_wf (m : Dev × Hbm) (of_ : List Nat) (bad : List (Nat × Nat)) (wk : Memory.wf m.2 = true) :
    Memory.wf (stacksReady m of_ bad).2 = true := by
  unfold stacksReady
  repeat' first | with_reducible assumption | dsimp only | with_reducible apply loadRemap_wf | (with_reducible apply foldl_wf; intro _ _ _) | (with_reducible apply foldl_ans_wf; intro _ _ _) | with_reducible apply ite_wf | with_reducible apply ite_ans_wf | split | (simp only [Memory.wf] at *; assumption)

/-- `domainUp` keeps the canonical form. -/
theorem domainUp_wf (m : Dev × Hbm) (k : Nat) (bad : List (Nat × Nat)) (wk : Memory.wf m.2 = true) :
    Memory.wf (domainUp m k bad).2 = true := by
  unfold domainUp
  repeat' first | with_reducible assumption | dsimp only | with_reducible apply stacksReady_wf | with_reducible apply dropStack_wf | (with_reducible apply foldl_wf; intro _ _ _) | (with_reducible apply foldl_ans_wf; intro _ _ _) | with_reducible apply ite_wf | with_reducible apply ite_ans_wf | split | (simp only [Memory.wf] at *; assumption)

/-- `domainParts` keeps the canonical form. -/
theorem domainParts_wf (m : Dev × Hbm) (k : Nat) (wk : Memory.wf m.2 = true) :
    Memory.wf (domainParts m k).2 = true := by
  unfold domainParts
  repeat' first | with_reducible assumption | dsimp only | (with_reducible apply foldl_wf; intro _ _ _) | (with_reducible apply foldl_ans_wf; intro _ _ _) | with_reducible apply ite_wf | with_reducible apply ite_ans_wf | split | (simp only [Memory.wf] at *; assumption)

/-- `domainDown` keeps the canonical form. -/
theorem domainDown_wf (m : Dev × Hbm) (k : Nat) (wk : Memory.wf m.2 = true) :
    Memory.wf (domainDown m k).2 = true := by
  unfold domainDown
  repeat' first | with_reducible assumption | dsimp only | with_reducible apply domainParts_wf | (with_reducible apply foldl_wf; intro _ _ _) | (with_reducible apply foldl_ans_wf; intro _ _ _) | with_reducible apply ite_wf | with_reducible apply ite_ans_wf | split | (simp only [Memory.wf] at *; assumption)

/-- `domainsDown` keeps the canonical form. -/
theorem domainsDown_wf (m : Dev × Hbm) (l : List Nat) (wk : Memory.wf m.2 = true) :
    Memory.wf (domainsDown m l).2 = true := by
  unfold domainsDown
  repeat' first | with_reducible assumption | dsimp only | with_reducible apply domainDown_wf | (with_reducible apply foldl_wf; intro _ _ _) | (with_reducible apply foldl_ans_wf; intro _ _ _) | with_reducible apply ite_wf | with_reducible apply ite_ans_wf | split | (simp only [Memory.wf] at *; assumption)

/-- `offWith` keeps the canonical form. -/
theorem offWith_wf (m : Dev × Hbm) (k : Nat) (wk : Memory.wf m.2 = true) :
    Memory.wf (offWith m k).2 = true := by
  unfold offWith
  repeat' first | with_reducible assumption | dsimp only | with_reducible apply domainsDown_wf | (with_reducible apply foldl_wf; intro _ _ _) | (with_reducible apply foldl_ans_wf; intro _ _ _) | with_reducible apply ite_wf | with_reducible apply ite_ans_wf | split | (simp only [Memory.wf] at *; assumption)

/-- `endEffect` keeps the canonical form. -/
theorem endEffect_wf (m : Dev × Hbm) (g : Permit) (wk : Memory.wf m.2 = true) :
    Memory.wf (endEffect m g).2 = true := by
  unfold endEffect
  repeat' first | with_reducible assumption | dsimp only | with_reducible apply offWith_wf | (with_reducible apply foldl_wf; intro _ _ _) | (with_reducible apply foldl_ans_wf; intro _ _ _) | with_reducible apply ite_wf | with_reducible apply ite_ans_wf | split | (simp only [Memory.wf] at *; assumption)

/-- `revokeAll` keeps the canonical form. -/
theorem revokeAll_wf (m : Dev × Hbm) (sel : Permit → Bool) (wk : Memory.wf m.2 = true) :
    Memory.wf (revokeAll m sel).2 = true := by
  unfold revokeAll
  repeat' first | with_reducible assumption | dsimp only | with_reducible apply endEffect_wf | (with_reducible apply foldl_wf; intro _ _ _) | (with_reducible apply foldl_ans_wf; intro _ _ _) | with_reducible apply ite_wf | with_reducible apply ite_ans_wf | split | (simp only [Memory.wf] at *; assumption)

/-- `cutPower` keeps the canonical form. -/
theorem cutPower_wf (m : Dev × Hbm) (keepFlash : Bool) : Memory.wf (cutPower m keepFlash).2 = true := rfl

/-- `coldStart` keeps the canonical form. -/
theorem coldStart_wf (m : Dev × Hbm) (straps timeRef : Nat) (kind : StartKind) :
    Memory.wf (coldStart m straps timeRef kind).2 = true := rfl

/-- `warmStart` keeps the canonical form. -/
theorem warmStart_wf (m : Dev × Hbm) (kind : StartKind) (cause : Cause) (wk : Memory.wf m.2 = true) :
    Memory.wf (warmStart m kind cause).2 = true := by
  unfold warmStart
  repeat' first | with_reducible assumption | dsimp only | (with_reducible apply foldl_wf; intro _ _ _) | (with_reducible apply foldl_ans_wf; intro _ _ _) | with_reducible apply ite_wf | with_reducible apply ite_ans_wf | split | (simp only [Memory.wf] at *; assumption)

/-- `delivers` keeps the canonical form. -/
theorem delivers_wf (m : Dev × Hbm) (j : Nat) (e : AEntry) (wk : Memory.wf m.2 = true) :
    Memory.wf (delivers m j e).2 = true := by
  unfold delivers
  repeat' first | with_reducible assumption | dsimp only | with_reducible apply deliverGroup_wf | with_reducible apply stepStart_wf | with_reducible apply deliverModel_wf | (with_reducible apply foldl_wf; intro _ _ _) | (with_reducible apply foldl_ans_wf; intro _ _ _) | with_reducible apply ite_wf | with_reducible apply ite_ans_wf | split | (simp only [Memory.wf] at *; assumption)

/-- `entryEffects` keeps the canonical form. -/
theorem entryEffects_wf (m : Dev × Hbm) (j : Nat) (e : AEntry) (wk : Memory.wf m.2 = true) :
    Memory.wf (entryEffects m j e).2 = true := by
  unfold entryEffects
  repeat' first | with_reducible assumption | dsimp only | with_reducible apply freeExtents_wf | with_reducible apply delivers_wf | (with_reducible apply foldl_wf; intro _ _ _) | (with_reducible apply foldl_ans_wf; intro _ _ _) | with_reducible apply ite_wf | with_reducible apply ite_ans_wf | split | (simp only [Memory.wf] at *; assumption)

/-- `flipEntry` keeps the canonical form. -/
theorem flipEntry_wf (m : Dev × Hbm) (j : Nat) (wk : Memory.wf m.2 = true) :
    Memory.wf (flipEntry m j).2 = true := by
  unfold flipEntry
  repeat' first | with_reducible assumption | dsimp only | with_reducible apply entryEffects_wf | (with_reducible apply foldl_wf; intro _ _ _) | (with_reducible apply foldl_ans_wf; intro _ _ _) | with_reducible apply ite_wf | with_reducible apply ite_ans_wf | split | (simp only [Memory.wf] at *; assumption)

/-- `zenithOfJob` keeps the canonical form. -/
theorem zenithOfJob_wf (m : Dev × Hbm) (j : Nat) (detour : Bool) (wk : Memory.wf m.2 = true) :
    Memory.wf (zenithOfJob m j detour).2 = true := by
  unfold zenithOfJob
  repeat' first | with_reducible assumption | dsimp only | with_reducible apply flipEntry_wf | (with_reducible apply foldl_wf; intro _ _ _) | (with_reducible apply foldl_ans_wf; intro _ _ _) | with_reducible apply ite_wf | with_reducible apply ite_ans_wf | split | (simp only [Memory.wf] at *; assumption)

/-- `sendVoid` keeps the canonical form. -/
theorem sendVoid_wf (m : Dev × Hbm) (g : Group) (entry : Nat) (wk : Memory.wf m.2 = true) :
    Memory.wf (sendVoid m g entry).2 = true := by
  unfold sendVoid
  repeat' first | with_reducible assumption | dsimp only | with_reducible apply leaderVoid_wf | with_reducible apply engineVoid_wf | (with_reducible apply foldl_wf; intro _ _ _) | (with_reducible apply foldl_ans_wf; intro _ _ _) | with_reducible apply ite_wf | with_reducible apply ite_ans_wf | split | (simp only [Memory.wf] at *; assumption)

/-- `leaderOutcome` keeps the canonical form. -/
theorem leaderOutcome_wf (m : Dev × Hbm) (tag : Nat) (entry : Nat) (z : Nat) (crc : Nat) (kept : Nat) (reverted : Nat) (wk : Memory.wf m.2 = true) :
    Memory.wf (leaderOutcome m tag entry z crc kept reverted).2 = true := by
  unfold leaderOutcome
  repeat' first | with_reducible assumption | dsimp only | with_reducible apply sendVoid_wf | (with_reducible apply foldl_wf; intro _ _ _) | (with_reducible apply foldl_ans_wf; intro _ _ _) | with_reducible apply ite_wf | with_reducible apply ite_ans_wf | split | (simp only [Memory.wf] at *; assumption)

/-- `fixOutcome` keeps the canonical form. -/
theorem fixOutcome_wf (m : Dev × Hbm) (j : Nat) (wk : Memory.wf m.2 = true) :
    Memory.wf (fixOutcome m j).2 = true := by
  unfold fixOutcome
  repeat' first | with_reducible assumption | dsimp only | with_reducible apply leaderOutcome_wf | (with_reducible apply foldl_wf; intro _ _ _) | (with_reducible apply foldl_ans_wf; intro _ _ _) | with_reducible apply ite_wf | with_reducible apply ite_ans_wf | split | (simp only [Memory.wf] at *; assumption)

/-- `revertEntry` keeps the canonical form. -/
theorem revertEntry_wf (m : Dev × Hbm) (j : Nat) (wk : Memory.wf m.2 = true) :
    Memory.wf (revertEntry m j).2 = true := by
  unfold revertEntry
  repeat' first | with_reducible assumption | dsimp only | with_reducible apply engineVoid_wf | (with_reducible apply foldl_wf; intro _ _ _) | (with_reducible apply foldl_ans_wf; intro _ _ _) | with_reducible apply ite_wf | with_reducible apply ite_ans_wf | split | (simp only [Memory.wf] at *; assumption)

/-- `memberVoid` keeps the canonical form. -/
theorem memberVoid_wf (m : Dev × Hbm) (j : Nat) (z : Nat) (step : Nat) (wk : Memory.wf m.2 = true) :
    Memory.wf (memberVoid m j z step).2 = true := by
  unfold memberVoid
  repeat' first | with_reducible assumption | dsimp only | with_reducible apply engineVoid_wf | (with_reducible apply foldl_wf; intro _ _ _) | (with_reducible apply foldl_ans_wf; intro _ _ _) | with_reducible apply ite_wf | with_reducible apply ite_ans_wf | split | (simp only [Memory.wf] at *; assumption)

/-- `cmdAct` keeps the canonical form. -/
theorem cmdAct_wf (m : Dev × Hbm) (c : Cmd) (wk : Memory.wf m.2 = true) :
    Memory.wf (cmdAct m c).2 = true := by
  unfold cmdAct
  repeat' first | with_reducible assumption | dsimp only | with_reducible apply twinJoined_wf | with_reducible apply warmStart_wf | (with_reducible apply foldl_wf; intro _ _ _) | (with_reducible apply foldl_ans_wf; intro _ _ _) | with_reducible apply ite_wf | with_reducible apply ite_ans_wf | split | (simp only [Memory.wf] at *; assumption)

/-- `runCommand` keeps the canonical form. -/
theorem runCommand_wf (m : Dev × Hbm) (c : Cmd) (wk : Memory.wf m.2 = true) :
    Memory.wf (runCommand m c).2 = true := by
  unfold runCommand
  repeat' first | with_reducible assumption | dsimp only | with_reducible apply cmdAct_wf | (with_reducible apply foldl_wf; intro _ _ _) | (with_reducible apply foldl_ans_wf; intro _ _ _) | with_reducible apply ite_wf | with_reducible apply ite_ans_wf | split | (simp only [Memory.wf] at *; assumption)

/-- `latchControl` keeps the canonical form. -/
theorem latchControl_wf (m : Dev × Hbm) (wk : Memory.wf m.2 = true) :
    Memory.wf (latchControl m).2 = true := by
  unfold latchControl
  repeat' first | with_reducible assumption | dsimp only | with_reducible apply runCommand_wf | (with_reducible apply foldl_wf; intro _ _ _) | (with_reducible apply foldl_ans_wf; intro _ _ _) | with_reducible apply ite_wf | with_reducible apply ite_ans_wf | split | (simp only [Memory.wf] at *; assumption)

/-- `sampleControl` keeps the canonical form. -/
theorem sampleControl_wf (m : Dev × Hbm) (wk : Memory.wf m.2 = true) :
    Memory.wf (sampleControl m).2 = true := by
  unfold sampleControl
  repeat' first | with_reducible assumption | dsimp only | with_reducible apply latchControl_wf | (with_reducible apply foldl_wf; intro _ _ _) | (with_reducible apply foldl_ans_wf; intro _ _ _) | with_reducible apply ite_wf | with_reducible apply ite_ans_wf | split | (simp only [Memory.wf] at *; assumption)

/-- `controlWord` keeps the canonical form. -/
theorem controlWord_wf (m : Dev × Hbm) (w_ : Nat) (maintainer : Bool) (wk : Memory.wf m.2 = true) :
    Memory.wf (controlWord m w_ maintainer).2 = true := by
  unfold controlWord
  repeat' first | with_reducible assumption | dsimp only | with_reducible apply sampleControl_wf | (with_reducible apply foldl_wf; intro _ _ _) | (with_reducible apply foldl_ans_wf; intro _ _ _) | with_reducible apply ite_wf | with_reducible apply ite_ans_wf | split | (simp only [Memory.wf] at *; assumption)

/-- `commandComplete` keeps the canonical form. -/
theorem commandComplete_wf (m : Dev × Hbm) (wk : Memory.wf m.2 = true) :
    Memory.wf (commandComplete m).2 = true := by
  unfold commandComplete
  repeat' first | with_reducible assumption | dsimp only | with_reducible apply runCommand_wf | with_reducible apply latchControl_wf | (with_reducible apply foldl_wf; intro _ _ _) | (with_reducible apply foldl_ans_wf; intro _ _ _) | with_reducible apply ite_wf | with_reducible apply ite_ans_wf | split | (simp only [Memory.wf] at *; assumption)

/-- `offProgress` keeps the canonical form. -/
theorem offProgress_wf (n : Nat) (m : Mach) (k : Memory.wf m.2 = true) : Memory.wf (offProgress n m).2 = true := by
  induction n generalizing m with
  | zero => exact k
  | succ n ih =>
    unfold offProgress
    repeat' first | with_reducible assumption | dsimp only | with_reducible apply ih | with_reducible apply domainDown_wf | with_reducible apply ite_wf | split

/-- `beginOff` keeps the canonical form. -/
theorem beginOff_wf (m : Mach) (k : Nat) (wk : Memory.wf m.2 = true) :
    Memory.wf (beginOff m k).2 = true := by
  unfold beginOff
  repeat' first | with_reducible assumption | dsimp only | with_reducible apply offProgress_wf | (with_reducible apply foldl_wf; intro _ _ _) | (with_reducible apply foldl_ans_wf; intro _ _ _) | with_reducible apply ite_wf | with_reducible apply ite_ans_wf | split | (simp only [Memory.wf] at *; assumption)

/-- `quiesceEnds` keeps the canonical form. -/
theorem quiesceEnds_wf (m : Mach) (x : Nat) (words : Nat) (wk : Memory.wf m.2 = true) :
    Memory.wf (quiesceEnds m x words).2 = true := by
  unfold quiesceEnds
  repeat' first | with_reducible assumption | dsimp only | with_reducible apply offProgress_wf | (with_reducible apply foldl_wf; intro _ _ _) | (with_reducible apply foldl_ans_wf; intro _ _ _) | with_reducible apply ite_wf | with_reducible apply ite_ans_wf | split | (simp only [Memory.wf] at *; assumption)

/-- `rampDone` keeps the canonical form. -/
theorem rampDone_wf (m : Mach) (k : Nat) (bad : List (Nat × Nat)) (wk : Memory.wf m.2 = true) :
    Memory.wf (rampDone m k bad).2 = true := by
  unfold rampDone
  repeat' first | with_reducible assumption | dsimp only | with_reducible apply domainUp_wf | (with_reducible apply foldl_wf; intro _ _ _) | (with_reducible apply foldl_ans_wf; intro _ _ _) | with_reducible apply ite_wf | with_reducible apply ite_ans_wf | split | (simp only [Memory.wf] at *; assumption)

/-- `handColl` keeps the canonical form. -/
theorem handColl_wf (m : Dev × Hbm) (wk : Memory.wf m.2 = true) :
    Memory.wf (handColl m).2 = true := by
  unfold handColl
  repeat' first | with_reducible assumption | dsimp only | with_reducible apply mirrorStream_wf | with_reducible apply offWith_wf | (with_reducible apply foldl_wf; intro _ _ _) | (with_reducible apply foldl_ans_wf; intro _ _ _) | with_reducible apply ite_wf | with_reducible apply ite_ans_wf | split | (simp only [Memory.wf] at *; assumption)

/-- `activationDone` keeps the canonical form. -/
theorem activationDone_wf (m : Dev × Hbm) (ok : Bool) (wk : Memory.wf m.2 = true) :
    Memory.wf (activationDone m ok).2 = true := by
  unfold activationDone
  repeat' first | with_reducible assumption | dsimp only | with_reducible apply warmStart_wf | (with_reducible apply foldl_wf; intro _ _ _) | (with_reducible apply foldl_ans_wf; intro _ _ _) | with_reducible apply ite_wf | with_reducible apply ite_ans_wf | split | (simp only [Memory.wf] at *; assumption)

/-- `storeSub` keeps the canonical form. -/
theorem storeSub_wf (m : Mach) (c : Client) (index : Nat) (sub : Nat) (v : Bytes) (wk : Memory.wf m.2 = true) :
    Memory.wf (storeSub m c index sub v).1.2 = true := by
  unfold storeSub
  repeat' first | with_reducible assumption | dsimp only | (with_reducible apply foldl_wf; intro _ _ _) | (with_reducible apply foldl_ans_wf; intro _ _ _) | with_reducible apply ite_wf | with_reducible apply ite_ans_wf | split | (simp only [Memory.wf] at *; assumption)

/-- `keep` keeps the canonical form. -/
theorem keep_wf (d : Dev) (h : Hbm) (c : Client) (index : Nat) (sub : Nat) (wk : Memory.wf h = true) :
    Memory.wf (keep d h c index sub).1.2 = true := by
  unfold keep
  repeat' first | with_reducible assumption | dsimp only | (with_reducible apply foldl_wf; intro _ _ _) | (with_reducible apply foldl_ans_wf; intro _ _ _) | with_reducible apply ite_wf | with_reducible apply ite_ans_wf | split | (simp only [Memory.wf] at *; assumption)

/-- `startJob` keeps the canonical form. -/
theorem startJob_wf (m : Mach) (j : Nat) (wk : Memory.wf m.2 = true) :
    Memory.wf (startJob m j).2 = true := by
  unfold startJob
  repeat' first | with_reducible assumption | dsimp only | with_reducible apply engineStart_wf | (with_reducible apply foldl_wf; intro _ _ _) | (with_reducible apply foldl_ans_wf; intro _ _ _) | with_reducible apply ite_wf | with_reducible apply ite_ans_wf | split | (simp only [Memory.wf] at *; assumption)

/-- `applyA` keeps the canonical form. -/
theorem applyA_wf (m : Mach) (c : Client) (index sub : Nat) (v : Bytes) (k : Memory.wf m.2 = true) :
    Memory.wf (applyA m c index sub v).1.2 = true := by
  unfold applyA
  refine ite_ans_wf k (ite_ans_wf (mach_wf _ _ k) (ite_ans_wf (ite_ans_wf k k) (ite_ans_wf k (ite_ans_wf ?_ (storeSub_wf _ _ _ _ _ k)))))
  generalize index - 0x2080 = j
  generalize unle v = x
  dsimp only
  split
  · exact ite_ans_wf (startJob_wf _ _ k) (ite_ans_wf (mach_wf _ _ k) (mach_wf _ _ k))
  · exact keep_wf _ _ _ _ _ k
  · exact keep_wf _ _ _ _ _ k
  · exact keep_wf _ _ _ _ _ k

/-- `applyB` keeps the canonical form. -/
theorem applyB_wf (m : Mach) (c : Client) (index : Nat) (sub : Nat) (v : Bytes) (wk : Memory.wf m.2 = true) :
    Memory.wf (applyB m c index sub v).1.2 = true := by
  unfold applyB
  repeat' first | with_reducible assumption | dsimp only | with_reducible apply beginOff_wf | with_reducible apply storeSub_wf | with_reducible apply keep_wf | (with_reducible apply foldl_wf; intro _ _ _) | (with_reducible apply foldl_ans_wf; intro _ _ _) | with_reducible apply ite_wf | with_reducible apply ite_ans_wf | split | (simp only [Memory.wf] at *; assumption)

/-- `beginRestore` keeps the canonical form. -/
theorem beginRestore_wf (m : Mach) (j : Nat) (s : Nat) (wk : Memory.wf m.2 = true) :
    Memory.wf (beginRestore m j s).2 = true := by
  unfold beginRestore
  repeat' first | with_reducible assumption | dsimp only | with_reducible apply restoreBank_wf | (with_reducible apply foldl_wf; intro _ _ _) | (with_reducible apply foldl_ans_wf; intro _ _ _) | with_reducible apply ite_wf | with_reducible apply ite_ans_wf | split | (simp only [Memory.wf] at *; assumption)

/-- `applyC` keeps the canonical form. -/
theorem applyC_wf (m : Mach) (c : Client) (index : Nat) (sub : Nat) (v : Bytes) (wk : Memory.wf m.2 = true) :
    Memory.wf (applyC m c index sub v).1.2 = true := by
  unfold applyC
  repeat' first | with_reducible assumption | dsimp only | with_reducible apply handColl_wf | with_reducible apply storeSub_wf | with_reducible apply beginRestore_wf | (with_reducible apply foldl_wf; intro _ _ _) | (with_reducible apply foldl_ans_wf; intro _ _ _) | with_reducible apply ite_wf | with_reducible apply ite_ans_wf | split | (simp only [Memory.wf] at *; assumption)

/-- `copyPage` keeps the canonical form. -/
theorem copyPage_wf (m : Mach) (s p q : Nat) (k : Memory.wf m.2 = true) : Memory.wf (copyPage m s p q).2 = true :=
  foldl_wf _ (fun _ _ h => setWord_wf _ _ _ _ _ (decodeWord_wf _ _ _ _ h)) _ _ (enterPage_wf _ _ _ (dropPage_wf _ _ _ k))

/-- `retirePage` keeps the canonical form. -/
theorem retirePage_wf (m : Mach) (s p : Nat) (k : Memory.wf m.2 = true) : Memory.wf (retirePage m s p).2 = true := by
  unfold retirePage
  extract_lets n pages q n1 n2 h rest d
  have hn : Memory.wf n.2 = true := mapReady_wf _ _ _ (tableReady_wf m s k)
  have h2 : Memory.wf n2.2 = true := ite_wf (copyPage_wf _ _ _ _ hn) (dropPage_wf _ _ _ hn)
  exact h2

/-- `dropRegions` keeps the canonical form. -/
theorem dropRegions_wf (m : Mach) (j : Nat) (kinds : List Nat) (wk : Memory.wf m.2 = true) :
    Memory.wf (dropRegions m j kinds).2 = true := by
  unfold dropRegions
  repeat' first | with_reducible assumption | dsimp only | with_reducible apply dropPages_wf | (with_reducible apply foldl_wf; intro _ _ _) | (with_reducible apply foldl_ans_wf; intro _ _ _) | with_reducible apply ite_wf | with_reducible apply ite_ans_wf | split | (simp only [Memory.wf] at *; assumption)

/-- `collCommand` keeps the canonical form. -/
theorem collCommand_wf (m : Mach) (j : Nat) (x : Nat) (wk : Memory.wf m.2 = true) :
    Memory.wf (collCommand m j x).2 = true := by
  unfold collCommand
  repeat' first | with_reducible assumption | dsimp only | with_reducible apply dropRegions_wf | (with_reducible apply foldl_wf; intro _ _ _) | (with_reducible apply foldl_ans_wf; intro _ _ _) | with_reducible apply ite_wf | with_reducible apply ite_ans_wf | split | (simp only [Memory.wf] at *; assumption)

/-- `dropSlots` keeps the canonical form. -/
theorem dropSlots_wf (m : Mach) (slots : List Nat) (wk : Memory.wf m.2 = true) :
    Memory.wf (dropSlots m slots).2 = true := by
  unfold dropSlots
  repeat' first | with_reducible assumption | dsimp only | with_reducible apply dropPages_wf | (with_reducible apply foldl_wf; intro _ _ _) | (with_reducible apply foldl_ans_wf; intro _ _ _) | with_reducible apply ite_wf | with_reducible apply ite_ans_wf | split | (simp only [Memory.wf] at *; assumption)

/-- `applyD` keeps the canonical form. -/
theorem applyD_wf (m : Mach) (c : Client) (index : Nat) (sub : Nat) (v : Bytes) (wk : Memory.wf m.2 = true) :
    Memory.wf (applyD m c index sub v).1.2 = true := by
  unfold applyD
  repeat' first | with_reducible assumption | dsimp only | with_reducible apply storeSub_wf | with_reducible apply keep_wf | with_reducible apply retirePage_wf | with_reducible apply collCommand_wf | with_reducible apply dropSlots_wf | (with_reducible apply foldl_wf; intro _ _ _) | (with_reducible apply foldl_ans_wf; intro _ _ _) | with_reducible apply ite_wf | with_reducible apply ite_ans_wf | split | (simp only [Memory.wf] at *; assumption)

/-- `applyE` keeps the canonical form. -/
theorem applyE_wf (m : Mach) (c : Client) (index : Nat) (sub : Nat) (v : Bytes) (wk : Memory.wf m.2 = true) :
    Memory.wf (applyE m c index sub v).1.2 = true := by
  unfold applyE
  repeat' first | with_reducible assumption | dsimp only | with_reducible apply storeSub_wf | (with_reducible apply foldl_wf; intro _ _ _) | (with_reducible apply foldl_ans_wf; intro _ _ _) | with_reducible apply ite_wf | with_reducible apply ite_ans_wf | split | (simp only [Memory.wf] at *; assumption)

/-- `applyF` keeps the canonical form. -/
theorem applyF_wf (m : Mach) (c : Client) (index : Nat) (sub : Nat) (v : Bytes) (wk : Memory.wf m.2 = true) :
    Memory.wf (applyF m c index sub v).1.2 = true := by
  unfold applyF
  repeat' first | with_reducible assumption | dsimp only | with_reducible apply storeSub_wf | with_reducible apply keep_wf | (with_reducible apply foldl_wf; intro _ _ _) | (with_reducible apply foldl_ans_wf; intro _ _ _) | with_reducible apply ite_wf | with_reducible apply ite_ans_wf | split | (simp only [Memory.wf] at *; assumption)

/-- `applySub` keeps the canonical form. -/
theorem applySub_wf (m : Mach) (c : Client) (index : Nat) (sub : Nat) (v : Bytes) (wk : Memory.wf m.2 = true) :
    Memory.wf (applySub m c index sub v).1.2 = true := by
  unfold applySub
  repeat' first | with_reducible assumption | dsimp only | with_reducible apply applyA_wf | with_reducible apply applyB_wf | with_reducible apply applyC_wf | with_reducible apply applyD_wf | with_reducible apply applyE_wf | with_reducible apply applyF_wf | (with_reducible apply foldl_wf; intro _ _ _) | (with_reducible apply foldl_ans_wf; intro _ _ _) | with_reducible apply ite_wf | with_reducible apply ite_ans_wf | split | (simp only [Memory.wf] at *; assumption)

/-- `applyAll` keeps the canonical form. -/
theorem applyAll_wf (m : Mach) (c : Client) (index : Nat) (l : List (Nat × Bytes)) (k : Memory.wf m.2 = true) :
    Memory.wf (applyAll m c index l).1.2 = true := by
  unfold applyAll
  extract_lets l
  split
  · exact keep_wf _ _ _ _ _ (foldl_wf _ (fun m a h => applySub_wf m c index a.1 a.2 h) _ _ k)
  · exact foldl_ans_wf _ (fun r a h => applySub_wf r.1 c index a.1 a.2 h) _ _ k

/-- `handleWrite` keeps the canonical form. -/
theorem handleWrite_wf (m : Mach) (c : Client) (index : Nat) (sub : Nat) (complete : Bool) (data : Bytes) (deep : Bool) (wk : Memory.wf m.2 = true) :
    Memory.wf (handleWrite m c index sub complete data deep).1.2 = true := by
  unfold handleWrite
  repeat' first | with_reducible assumption | dsimp only | with_reducible apply applyAll_wf | (with_reducible apply foldl_wf; intro _ _ _) | (with_reducible apply foldl_ans_wf; intro _ _ _) | with_reducible apply ite_wf | with_reducible apply ite_ans_wf | split | (simp only [Memory.wf] at *; assumption)

/-- `portsValidated` keeps the canonical form. -/
theorem portsValidated_wf (m : Mach) (c : Client) (index : Nat) (sub : Nat) (wk : Memory.wf m.2 = true) :
    Memory.wf (portsValidated m c index sub).1.2 = true := by
  unfold portsValidated
  repeat' first | with_reducible assumption | dsimp only | (with_reducible apply foldl_wf; intro _ _ _) | (with_reducible apply foldl_ans_wf; intro _ _ _) | with_reducible apply ite_wf | with_reducible apply ite_ans_wf | split | (simp only [Memory.wf] at *; assumption)

/-- `handleSegment` keeps the canonical form. -/
theorem handleSegment_wf (m : Mach) (c : Client) (index : Nat) (sub : Nat) (total : Nat) (toggle : Bool) (last : Bool) (data : Bytes) (wk : Memory.wf m.2 = true) :
    Memory.wf (handleSegment m c index sub total toggle last data).1.2 = true := by
  unfold handleSegment
  repeat' first | with_reducible assumption | dsimp only | with_reducible apply handleWrite_wf | (with_reducible apply foldl_wf; intro _ _ _) | (with_reducible apply foldl_ans_wf; intro _ _ _) | with_reducible apply ite_wf | with_reducible apply ite_ans_wf | split | (simp only [Memory.wf] at *; assumption)

/-- `readSub` keeps the canonical form. -/
theorem readSub_wf (m : Mach) (c : Client) (index : Nat) (sub : Nat) (wk : Memory.wf m.2 = true) :
    Memory.wf (readSub m c index sub).1.2 = true := by
  unfold readSub
  repeat' first | with_reducible assumption | dsimp only | (with_reducible apply foldl_wf; intro _ _ _) | (with_reducible apply foldl_ans_wf; intro _ _ _) | with_reducible apply ite_wf | with_reducible apply ite_ans_wf | split | (simp only [Memory.wf] at *; assumption)

/-- `readSubs` keeps the canonical form. -/
theorem readSubs_wf (m : Mach) (c : Client) (index : Nat) (l : List Nat) (wk : Memory.wf m.2 = true) :
    Memory.wf (readSubs m c index l).1.2 = true := by
  unfold readSubs
  repeat' first | with_reducible assumption | dsimp only | with_reducible apply readSub_wf | (with_reducible apply foldl_wf; intro _ _ _) | (with_reducible apply foldl_ans_wf; intro _ _ _) | with_reducible apply ite_wf | with_reducible apply ite_ans_wf | split | (simp only [Memory.wf] at *; assumption)

/-- `handleRead` keeps the canonical form. -/
theorem handleRead_wf (m : Mach) (c : Client) (index : Nat) (sub : Nat) (complete : Bool) (wk : Memory.wf m.2 = true) :
    Memory.wf (handleRead m c index sub complete).1.2 = true := by
  unfold handleRead
  repeat' first | with_reducible assumption | dsimp only | with_reducible apply readSubs_wf | (with_reducible apply foldl_wf; intro _ _ _) | (with_reducible apply foldl_ans_wf; intro _ _ _) | with_reducible apply ite_wf | with_reducible apply ite_ans_wf | split | (simp only [Memory.wf] at *; assumption)

/-- `handleInfo` keeps the canonical form. -/
theorem handleInfo_wf (m : Mach) (c : Client) (k : InfoKind) (index : Nat) (sub : Nat) (wk : Memory.wf m.2 = true) :
    Memory.wf (handleInfo m c k index sub).1.2 = true := by
  unfold handleInfo
  repeat' first | with_reducible assumption | dsimp only | with_reducible apply handleRead_wf | (with_reducible apply foldl_wf; intro _ _ _) | (with_reducible apply foldl_ans_wf; intro _ _ _) | with_reducible apply ite_wf | with_reducible apply ite_ans_wf | split | (simp only [Memory.wf] at *; assumption)

/-- `handleCapture` keeps the canonical form. -/
theorem handleCapture_wf (m : Mach) (c : Client) (wk : Memory.wf m.2 = true) :
    Memory.wf (handleCapture m c).1.2 = true := by
  unfold handleCapture
  repeat' first | with_reducible assumption | dsimp only | (with_reducible apply foldl_wf; intro _ _ _) | (with_reducible apply foldl_ans_wf; intro _ _ _) | with_reducible apply ite_wf | with_reducible apply ite_ans_wf | split | (simp only [Memory.wf] at *; assumption)

/-- `handleCaptureWrite` keeps the canonical form. -/
theorem handleCaptureWrite_wf (m : Mach) (c : Client) (b : Bytes) (wk : Memory.wf m.2 = true) :
    Memory.wf (handleCaptureWrite m c b).1.2 = true := by
  unfold handleCaptureWrite
  repeat' first | with_reducible assumption | dsimp only | (with_reducible apply foldl_wf; intro _ _ _) | (with_reducible apply foldl_ans_wf; intro _ _ _) | with_reducible apply ite_wf | with_reducible apply ite_ans_wf | split | (simp only [Memory.wf] at *; assumption)

/-- `handleReq` keeps the canonical form. -/
theorem handleReq_wf (m : Mach) (r : Req) (wk : Memory.wf m.2 = true) :
    Memory.wf (handleReq m r).1.2 = true := by
  unfold handleReq
  repeat' first | with_reducible assumption | dsimp only | with_reducible apply handleWrite_wf | with_reducible apply handleSegment_wf | with_reducible apply handleRead_wf | with_reducible apply handleInfo_wf | with_reducible apply handleCapture_wf | with_reducible apply handleCaptureWrite_wf | (with_reducible apply foldl_wf; intro _ _ _) | (with_reducible apply foldl_ans_wf; intro _ _ _) | with_reducible apply ite_wf | with_reducible apply ite_ans_wf | split | (simp only [Memory.wf] at *; assumption)

/-- `answer` keeps the canonical form. -/
theorem answer_wf (m : Mach) (r : Req) (a : Ans) (wk : Memory.wf m.2 = true) :
    Memory.wf (answer m r a).2 = true := by
  unfold answer
  repeat' first | with_reducible assumption | dsimp only | (with_reducible apply foldl_wf; intro _ _ _) | (with_reducible apply foldl_ans_wf; intro _ _ _) | with_reducible apply ite_wf | with_reducible apply ite_ans_wf | split | (simp only [Memory.wf] at *; assumption)

/-- `serveMail` keeps the canonical form. -/
theorem serveMail_wf (n : Nat) (m : Mach) (k : Memory.wf m.2 = true) : Memory.wf (serveMail n m).2 = true := by
  induction n generalizing m with
  | zero => exact k
  | succ n ih =>
    unfold serveMail
    split
    · exact k
    · split
      · exact k
      · exact ih _ (answer_wf _ _ _ (handleReq_wf _ _ k))

/-- `serve` keeps the canonical form. -/
theorem serve_wf (m : Mach) (wk : Memory.wf m.2 = true) :
    Memory.wf (serve m).2 = true := by
  unfold serve
  repeat' first | with_reducible assumption | dsimp only | with_reducible apply serveMail_wf | (with_reducible apply foldl_wf; intro _ _ _) | (with_reducible apply foldl_ans_wf; intro _ _ _) | with_reducible apply ite_wf | with_reducible apply ite_ans_wf | split | (simp only [Memory.wf] at *; assumption)

/-- `request` keeps the canonical form. -/
theorem request_wf (m : Mach) (r : Req) (wk : Memory.wf m.2 = true) :
    Memory.wf (request m r).2 = true := by
  unfold request
  repeat' first | with_reducible assumption | dsimp only | with_reducible apply serve_wf | (with_reducible apply foldl_wf; intro _ _ _) | (with_reducible apply foldl_ans_wf; intro _ _ _) | with_reducible apply ite_wf | with_reducible apply ite_ans_wf | split | (simp only [Memory.wf] at *; assumption)

/-- `finish` keeps the canonical form. -/
theorem finish_wf (m : Mach) (o : Output) (wk : Memory.wf m.2 = true) :
    Memory.wf (finish m o).2 = true := by
  unfold finish
  repeat' first | with_reducible assumption | dsimp only | with_reducible apply serve_wf | (with_reducible apply foldl_wf; intro _ _ _) | (with_reducible apply foldl_ans_wf; intro _ _ _) | with_reducible apply ite_wf | with_reducible apply ite_ans_wf | split | (simp only [Memory.wf] at *; assumption)

/-- `svcIn` keeps the canonical form. -/
theorem svcIn_wf (m : Dev × Hbm) (n : Nat) (h : SvcHdr) (type : Nat) (act : Dev × Hbm → Nat → Dev × Hbm)
    (ha : ∀ m j, Memory.wf m.2 = true → Memory.wf (act m j).2 = true) (k : Memory.wf m.2 = true) :
    Memory.wf (svcIn m n h type act).2 = true := by
  unfold svcIn
  repeat' first | with_reducible assumption | dsimp only | with_reducible apply ha | with_reducible apply ite_wf | split

/-- `svcChecked` keeps the canonical form. -/
theorem svcChecked_wf (m : Dev × Hbm) (n : Nat) (h : SvcHdr) (type : Nat) (checks : List (Bool × Nat))
    (act : Dev × Hbm → Dev × Hbm) (ha : ∀ m, Memory.wf m.2 = true → Memory.wf (act m).2 = true) (k : Memory.wf m.2 = true) :
    Memory.wf (svcChecked m n h type checks act).2 = true := by
  unfold svcChecked
  split
  · exact k
  · exact ha _ k

/-- `writeMasters` keeps the canonical form. -/
theorem writeMasters_wf (m : Dev × Hbm) (b : Bytes) (first : Nat) (data : Bytes) (poison : Bool) (wk : Memory.wf m.2 = true) :
    Memory.wf (writeMasters m b first data poison).2 = true := by
  unfold writeMasters
  repeat' first | with_reducible assumption | dsimp only | with_reducible apply writeBytes_wf | (with_reducible apply foldl_wf; intro _ _ _) | (with_reducible apply foldl_ans_wf; intro _ _ _) | with_reducible apply ite_wf | with_reducible apply ite_ans_wf | split | (simp only [Memory.wf] at *; assumption)

/-- `output` keeps the canonical form. -/
theorem output_wf (m : Mach) (index : Nat) (sub : Nat) (v : Bytes) (wk : Memory.wf m.2 = true) :
    Memory.wf (output m index sub v).2 = true := by
  unfold output
  repeat' first | with_reducible assumption | dsimp only | with_reducible apply applySub_wf | (with_reducible apply foldl_wf; intro _ _ _) | (with_reducible apply foldl_ans_wf; intro _ _ _) | with_reducible apply ite_wf | with_reducible apply ite_ans_wf | split | (simp only [Memory.wf] at *; assumption)

/-- `outputs` keeps the canonical form. -/
theorem outputs_wf (m : Mach) (b : Bytes) (k : Memory.wf m.2 = true) : Memory.wf (outputs m b).2 = true := by
  unfold outputs
  suffices h : ∀ (l : List Nat) (r : Mach × Bytes), Memory.wf r.1.2 = true → Memory.wf (l.foldl (fun (r : Mach × Bytes) e =>
      let p := pdoEntry e
      (output r.1 p.1 p.2.1 (r.2.take (p.2.2 / 8)), r.2.drop (p.2.2 / 8))) r).1.2 = true from h _ _ k
  intro l
  induction l with
  | nil => exact fun _ h => h
  | cons e t ih => exact fun r h => ih _ (output_wf _ _ _ _ h)

/-- `takeOutputs` keeps the canonical form. -/
theorem takeOutputs_wf (m : Mach) (wk : Memory.wf m.2 = true) :
    Memory.wf (takeOutputs m).2 = true := by
  unfold takeOutputs
  repeat' first | with_reducible assumption | dsimp only | with_reducible apply outputs_wf | (with_reducible apply foldl_wf; intro _ _ _) | (with_reducible apply foldl_ans_wf; intro _ _ _) | with_reducible apply ite_wf | with_reducible apply ite_ans_wf | split | (simp only [Memory.wf] at *; assumption)

/-- `cycleStart` keeps the canonical form. -/
theorem cycleStart_wf (m : Mach) (wk : Memory.wf m.2 = true) :
    Memory.wf (cycleStart m).2 = true := by
  unfold cycleStart
  repeat' first | with_reducible assumption | dsimp only | with_reducible apply sampleControl_wf | with_reducible apply takeOutputs_wf | (with_reducible apply foldl_wf; intro _ _ _) | (with_reducible apply foldl_ans_wf; intro _ _ _) | with_reducible apply ite_wf | with_reducible apply ite_ans_wf | split | (simp only [Memory.wf] at *; assumption)

/-- `lostRamps` keeps the canonical form. -/
theorem lostRamps_wf (m : Mach) (wk : Memory.wf m.2 = true) :
    Memory.wf (lostRamps m).2 = true := by
  unfold lostRamps
  repeat' first | with_reducible assumption | dsimp only | with_reducible apply endEffect_wf | (with_reducible apply foldl_wf; intro _ _ _) | (with_reducible apply foldl_ans_wf; intro _ _ _) | with_reducible apply ite_wf | with_reducible apply ite_ans_wf | split | (simp only [Memory.wf] at *; assumption)

/-- `takenGrants` keeps the canonical form. -/
theorem takenGrants_wf (old : List Permit) (m : Mach) (wk : Memory.wf m.2 = true) :
    Memory.wf (takenGrants old m).2 = true := by
  unfold takenGrants
  repeat' first | with_reducible assumption | dsimp only | with_reducible apply endEffect_wf | with_reducible apply lostRamps_wf | (with_reducible apply foldl_wf; intro _ _ _) | (with_reducible apply foldl_ans_wf; intro _ _ _) | with_reducible apply ite_wf | with_reducible apply ite_ans_wf | split | (simp only [Memory.wf] at *; assumption)

/-- `changeLevel` keeps the canonical form. -/
theorem changeLevel_wf (m : Mach) (x : Therm) (wk : Memory.wf m.2 = true) :
    Memory.wf (changeLevel m x).2 = true := by
  unfold changeLevel
  repeat' first | with_reducible assumption | dsimp only | with_reducible apply revokeAll_wf | (with_reducible apply foldl_wf; intro _ _ _) | (with_reducible apply foldl_ans_wf; intro _ _ _) | with_reducible apply ite_wf | with_reducible apply ite_ans_wf | split | (simp only [Memory.wf] at *; assumption)

/-- `dieSample` keeps the canonical form. -/
theorem dieSample_wf (m : Mach) (temps : List Int) (wk : Memory.wf m.2 = true) :
    Memory.wf (dieSample m temps).2 = true := by
  unfold dieSample
  repeat' first | with_reducible assumption | dsimp only | with_reducible apply changeLevel_wf | (with_reducible apply foldl_wf; intro _ _ _) | (with_reducible apply foldl_ans_wf; intro _ _ _) | with_reducible apply ite_wf | with_reducible apply ite_ans_wf | split | (simp only [Memory.wf] at *; assumption)

/-- `thermalFault` keeps the canonical form. -/
theorem thermalFault_wf (m : Mach) (wk : Memory.wf m.2 = true) :
    Memory.wf (thermalFault m).2 = true := by
  unfold thermalFault
  repeat' first | with_reducible assumption | dsimp only | with_reducible apply domainsDown_wf | (with_reducible apply foldl_wf; intro _ _ _) | (with_reducible apply foldl_ans_wf; intro _ _ _) | with_reducible apply ite_wf | with_reducible apply ite_ans_wf | split | (simp only [Memory.wf] at *; assumption)

/-- `storeAnswered` keeps the canonical form. -/
theorem storeAnswered_wf (m : Mach) (wk : Memory.wf m.2 = true) :
    Memory.wf (storeAnswered m).2 = true := by
  unfold storeAnswered
  repeat' first | with_reducible assumption | dsimp only | with_reducible apply finish_wf | (with_reducible apply foldl_wf; intro _ _ _) | (with_reducible apply foldl_ans_wf; intro _ _ _) | with_reducible apply ite_wf | with_reducible apply ite_ans_wf | split | (simp only [Memory.wf] at *; assumption)

/-- `validated` keeps the canonical form. -/
theorem validated_wf (m : Mach) (wk : Memory.wf m.2 = true) :
    Memory.wf (validated m).2 = true := by
  unfold validated
  repeat' first | with_reducible assumption | dsimp only | with_reducible apply handleWrite_wf | with_reducible apply portsValidated_wf | with_reducible apply answer_wf | with_reducible apply serve_wf | (with_reducible apply foldl_wf; intro _ _ _) | (with_reducible apply foldl_ans_wf; intro _ _ _) | with_reducible apply ite_wf | with_reducible apply ite_ans_wf | split | (simp only [Memory.wf] at *; assumption)

/-- `settingsAnswered` keeps the canonical form. -/
theorem settingsAnswered_wf (m : Mach) (wk : Memory.wf m.2 = true) :
    Memory.wf (settingsAnswered m).2 = true := by
  unfold settingsAnswered
  repeat' first | with_reducible assumption | dsimp only | with_reducible apply finish_wf | (with_reducible apply foldl_wf; intro _ _ _) | (with_reducible apply foldl_ans_wf; intro _ _ _) | with_reducible apply ite_wf | with_reducible apply ite_ans_wf | split | (simp only [Memory.wf] at *; assumption)

/-- `takeGrant` keeps the canonical form. -/
theorem takeGrant_wf (m : Mach) (coll : Bool) (wk : Memory.wf m.2 = true) :
    Memory.wf (takeGrant m coll).2 = true := by
  unfold takeGrant
  repeat' first | with_reducible assumption | dsimp only | with_reducible apply takeColl_wf | with_reducible apply lostRamps_wf | (with_reducible apply foldl_wf; intro _ _ _) | (with_reducible apply foldl_ans_wf; intro _ _ _) | with_reducible apply ite_wf | with_reducible apply ite_ans_wf | split | (simp only [Memory.wf] at *; assumption)

/-- `latchedCommand` keeps the canonical form. -/
theorem latchedCommand_wf (m : Mach) (w_ : Nat) (wk : Memory.wf m.2 = true) :
    Memory.wf (latchedCommand m w_).2 = true := by
  unfold latchedCommand
  repeat' first | with_reducible assumption | dsimp only | with_reducible apply cmdAct_wf | (with_reducible apply foldl_wf; intro _ _ _) | (with_reducible apply foldl_ans_wf; intro _ _ _) | with_reducible apply ite_wf | with_reducible apply ite_ans_wf | split | (simp only [Memory.wf] at *; assumption)

/-- `twinRecord` keeps the canonical form. -/
theorem twinRecord_wf (m : Mach) (cycle : Nat) (b : Bytes) (wk : Memory.wf m.2 = true) :
    Memory.wf (twinRecord m cycle b).2 = true := by
  unfold twinRecord
  repeat' first | with_reducible assumption | dsimp only | with_reducible apply latchedCommand_wf | (with_reducible apply foldl_wf; intro _ _ _) | (with_reducible apply foldl_ans_wf; intro _ _ _) | with_reducible apply ite_wf | with_reducible apply ite_ans_wf | split | (simp only [Memory.wf] at *; assumption)

/-- `mirrorData` keeps the canonical form. -/
theorem mirrorData_wf (m : Mach) (job : Nat) (bank : Nat) (addr : Nat) (step : Nat) (data : Bytes) (poison : Bool) (wk : Memory.wf m.2 = true) :
    Memory.wf (mirrorData m job bank addr step data poison).2 = true := by
  unfold mirrorData
  repeat' first | with_reducible assumption | dsimp only | with_reducible apply writeBytes_wf | (with_reducible apply foldl_wf; intro _ _ _) | (with_reducible apply foldl_ans_wf; intro _ _ _) | with_reducible apply ite_wf | with_reducible apply ite_ans_wf | split | (simp only [Memory.wf] at *; assumption)

/-- `mirrorIn` keeps the canonical form. -/
theorem mirrorIn_wf (m : Mach) (job : Nat) (bank : Nat) (region : Nat) (flags : Nat) (step : Nat) (offset : Nat) (data : Bytes) (wk : Memory.wf m.2 = true) :
    Memory.wf (mirrorIn m job bank region flags step offset data).2 = true := by
  unfold mirrorIn
  repeat' first | with_reducible assumption | dsimp only | with_reducible apply mirrorOut_wf | with_reducible apply modelWrite_wf | with_reducible apply mirrorData_wf | (with_reducible apply foldl_wf; intro _ _ _) | (with_reducible apply foldl_ans_wf; intro _ _ _) | with_reducible apply ite_wf | with_reducible apply ite_ans_wf | split | (simp only [Memory.wf] at *; assumption)

/-- `restoreIn` keeps the canonical form. -/
theorem restoreIn_wf (m : Mach) (job : Nat) (region : Nat) (flags : Nat) (offset : Nat) (data : Bytes) (wk : Memory.wf m.2 = true) :
    Memory.wf (restoreIn m job region flags offset data).2 = true := by
  unfold restoreIn
  repeat' first | with_reducible assumption | dsimp only | with_reducible apply writeBytes_wf | (with_reducible apply foldl_wf; intro _ _ _) | (with_reducible apply foldl_ans_wf; intro _ _ _) | with_reducible apply ite_wf | with_reducible apply ite_ans_wf | split | (simp only [Memory.wf] at *; assumption)

/-- `healthDone` keeps the canonical form. -/
theorem healthDone_wf (m : Mach) (passed : Nat) (failed : Nat) (ueCount : Nat) (lapEnd : Nat) (wk : Memory.wf m.2 = true) :
    Memory.wf (healthDone m passed failed ueCount lapEnd).2 = true := by
  unfold healthDone
  repeat' first | with_reducible assumption | dsimp only | with_reducible apply offWith_wf | (with_reducible apply foldl_wf; intro _ _ _) | (with_reducible apply foldl_ans_wf; intro _ _ _) | with_reducible apply ite_wf | with_reducible apply ite_ans_wf | split | (simp only [Memory.wf] at *; assumption)

/-- `foeProgrammed` keeps the canonical form. -/
theorem foeProgrammed_wf (m : Mach) (x : Dev × Nat) (wk : Memory.wf m.2 = true) :
    Memory.wf (foeProgrammed m x).2 = true := by
  unfold foeProgrammed
  repeat' first | with_reducible assumption | dsimp only | with_reducible apply finish_wf | (with_reducible apply foldl_wf; intro _ _ _) | (with_reducible apply foldl_ans_wf; intro _ _ _) | with_reducible apply ite_wf | with_reducible apply ite_ans_wf | split | (simp only [Memory.wf] at *; assumption)

end Sys2Proof.Machine
end

