-- ==== Sys2Proof/Tests/Slice0.lean ====
section
/-!
SUPPORT. Tests: what `WellFormed` refuses, and small steps whose results the spec gives.
-/

namespace Sys2Proof.Tests
open Sys2Proof Sys2Proof.Machine

set_option maxRecDepth 100000
set_option Elab.async false
set_option linter.unusedSimpArgs false
set_option linter.unusedVariables false

/-! ### WellFormed: a well-formed term of each command, and an ill-formed one for each check -/

def okAnn : PtpAnn := ⟨0, 0, 0, 0, false, 0, 0, 0, 0, 0, false⟩
def okSensor : SensorF := ⟨0, 0, 0, 0, List.replicate 256 0, List.replicate 256 0, [], [], true, 1⟩
def okMonitor : MonitorSet := ⟨0, 0, 0⟩
def okSync : SyncKind := ⟨false, 0, false⟩
def okAns : DelayAns := ⟨0, 0, false⟩
def okRec : BoardRec := ⟨0, 1⟩
def okFrom : FrameFrom := ⟨0, 0, false⟩
def okNak : AckFrom := ⟨0, 0⟩
def okChk : FrameCheck := ⟨true, false⟩
def okPoll : EccPoll := ⟨[], [], [], []⟩
def okStore : PodStore := ⟨[], [], [], [], [], [], 0, true⟩
def okCommit : CMsg := ⟨0, 0, 0, 0, 0, 0, 0, 0⟩
def okTrain : Train := ⟨0, 0, 0, 0, 0, 0, 0, 0⟩
def okMapen : Mapen := ⟨0, 0, 0, 0, false⟩
def okIdent : Ident := ⟨0, 0, 0, 0, zeros 16, 0, 0, 0⟩
def okHello : DiscHello := ⟨0, 0, 0, 0, 0, 0, zeros 16, 0⟩
def okState : DiscState := ⟨0, 0, 0, 0, 0, 0, 0, 0⟩
def okHdr : SvcHdr := ⟨0, 0, 0, 0, 0, 0, 0, 0⟩
def okClip : Clip := ⟨0, 0, 0, 0, 0, 0⟩
def okCopy : StoreMsg := ⟨0, 0, 0, 0, 0, 0, []⟩

theorem test_wf_accepts_1 : ([
  .coldStart 0 0, .holdupCharged, .mainInputFail, .mainInputRestored,
  .coldReset, .vauxLoss, .twinPresentChange false 0, .refclkALost false false,
  .timeRefLost, .lossOfLock (.drive 0) 0, .domainOn 0 0 0, .domainOff 0 0 0,
  .domainRampDone 0 [], .quiesceTimeout 0 0, .objectWrite 0 0 0 false [], .sdoSegment 0 0 0 0 false false [],
  .sdoSegmentTimeout, .sdoInfo 0 .list 0 0, .unsupportedProtocol 0 0, .refusalResponse,
  .requestInit, .requestPreOp, .requestSafeOp none, .requestOp,
  .requestBootstrap, .processDataWatchdog, .sync0 0, .sessionChallenge 0,
  .challengeExpiry 0, .sessionResponse 0 [], .sessionEnd 0 [], .sessionIdleTimeout 0,
  .roleKey 0 0 [], .arm .processData, .serve .processData, .hold .processData,
  .resume .processData, .disarm .processData, .enterMaintenance .processData, .exitMaintenance .processData,
  .enterReplay .processData, .exitReplay .processData, .warmRestart .processData, .faultAck .processData,
  .cmdUnlisted 0, .commandComplete, .selftestPassed [(18, 127)], .jobStart 0 0,
  .jobStop 0 0, .jobClear 0 0, .portMap 0 0 [], .constellation 0 0 [],
  .almanac 0 0 [], .shardMap 0 0 [], .validationDone, .storeConfirmTimeout,
  .cycleStart, .inputLatch, .computeDeadline [] ⟨[], []⟩, .heaterTrigger,
  .transferInterval, .timeReq 0 0 0 0 0 0 0, .timeResp 0 0 0 0 0 0 0 0 0 {}, .holdoverLimit,
  .ptpSync 0 0 okSync 0 0 0, .ptpFollowUp 0 0 0] : List Instr).all Instr.wf = true := by
  decide +kernel

theorem test_wf_accepts_2 : ([
  .ptpAnnounce 0 okAnn, .ptpDelayReqInterval 0, .ptpDelayResp 0 0 okAns, .ptpPdelayReq 0 0 0,
  .ptpPdelayResp 0 0 0 0 0, .requalify 0 0 [], .rootStepNoticeEnd, .orbitEpoch 0 [],
  .orbitPeriod 0 [], .orbitDefFrom, .orbitSyncInterval, .strobeArm 0 [] 0,
  .strobeEmit 0, .podLatencyMeasure 0, .lbkEcho 0 0, .ppsIn 0,
  .ppsOut, .sensorFrame 0 okSensor, .boardCommandFrame 0 0 0 0 0 (List.replicate 256 (0, false)) false, .boardHoldFrame 0 0 0 0 0 false,
  .trajectoryEnd 0, .stopEnd 0, .pilotReading 0 0 0 0 ⟨0, false, false⟩, .ditherGroupEnd 0,
  .searchEnd 0, .reacquireTryEnd 0 0, .openRequest 0 0 [], .openHoldLimit 0,
  .autotuneCommand 0 0 [], .autotuneEnd 0, .tuneTimeout 0, .adoption,
  .drain 0 0, .returnBoard 0 0, .boardIdentity 0 okRec (zeros 16) (zeros 8) 0 false, .boardLost 0,
  .laneLost 0 0, .laneRestored 0 0, .pilotCrossing 0, .tapReport 0 0 ⟨List.replicate 16 (0, 0), []⟩ false,
  .heaterReport 0 ⟨List.replicate 176 none, []⟩ (List.replicate 128 0) 0 false, .bankAck 0 0 0 false okChk, .sweepResult 0 0 0 0 [] okChk, .podTunerWrite 0 [] false,
  .podStrobeDesc 0 0 [] false, .podMark 0 0, .podHeaterSet 0 (List.replicate 176 0) false, .podMonitorSet 0 (List.replicate 16 okMonitor) false,
  .podDelaySet 0 0 false, .podCalSweep 0 0 0 0 0 0 false, .podLbk 0 0, .podLockLoss 0,
  .podDiscovered 0 okStore, .podLost 0 false, .crosstalk 0 0 [], .calRequest 0 0 [],
  .calBackgroundTimer, .calRoundStart 0 0, .calFit 0 0 [], .calLaneIn 0 0,
  .calLaneRejoin 0 0, .launchWindow 0, .cometLaunch 0 0 0, .vote 0 okCommit 0 0 0,
  .voteDeadline 0, .decisionInstant 0 0] : List Instr).all Instr.wf = true := by
  decide +kernel

theorem test_wf_accepts_3 : ([
  .goMsg 0 okCommit, .commitHold 0 okCommit, .commitAck 0 okCommit 0 0, .commitConfirm 0 okCommit,
  .retract 0 okCommit, .outcome 0 okCommit 0 0, .voidStep 0 okCommit 0, .commitRepeat,
  .guard 0 0, .cancelLimit 0 0, .zenith 0, .gradedStep 0 0,
  .bankAckDeadline 0 0, .verificationEnd 0, .outcomeFix 0, .revert 0,
  .outcomeCheck 0 0, .tentativeWatch 0, .detourZenith 0, .laserModuleInserted 0 (zeros 16) (zeros 16) (zeros 16) false false false,
  .laserModuleRemoved 0, .slotEnable 0 0, .slotDisable 0 0, .laserRampDone 0 0,
  .laserDead 0 0, .laserAlarm 0 0, .laserMonitorPoll 0 [] 0, .synthSample 0 0 0 false,
  .modCalDue 0 0, .modCalDone 0 0, .settleWait 0 0, .transmitCommand (.frame 0 0 0 0 []), .transmitCommand (.lane 0 0 0 []),
  .blockHeader 0 0 ⟨0, 0⟩ 0 0 false, .linkFrame 0 0 0 0 okFrom 0 [] false false, .linkAck 0 0 0 okNak, .retryTimeout 0,
  .linkTrain 0 okTrain, .linkTrainInterval 0, .trainingRetry 0, .probeLightFlag 0 false,
  .probeDwellEnd 0, .replyWindowEnd 0, .probeRetry 0, .mapenHello 0 okMapen 0 0 0 0,
  .ident 0 okMapen okIdent, .mapenAck 0 okMapen 0, .mapenNak 0 okMapen 0 0 0, .mapenKeepalive 0 okMapen 0 0,
  .mapenGoodbye 0 okMapen 0, .helloInterval 0, .attemptEnd 0, .backoffEnd 0,
  .slowProbe 0, .detachTime 0, .keepaliveInterval 0, .quarantineEnd 0,
  .mapenRepeat 0, .portProbe 0 0 [], .discHello 0 okHello, .discState 0 okState,
  .discConflict 0 0 0 0 0, .discHelloInterval, .discStateInterval, .discEntryExpiry 0 0,
  .discHelloAbsent 0, .gradIn 0 okHdr []] : List Instr).all Instr.wf = true := by
  decide +kernel

theorem test_wf_accepts_4 : ([
  .masterIn 0 okHdr [], .actPush 0 okHdr [], .weightIn 0 okHdr [], .collPlan 0 0 [],
  .loadJob 0 0, .commitLoad 0 0, .collReset 0 0, .partialFormed 0,
  .partialRepeat 0, .normPartial 0 0 0 0 0 0 0, .normTimeout 0 0 0, .clipMsg 0 okClip,
  .normRestart 0 0 0 0, .updateComplete 0, .fetchReq 0 0 0 0 0 0 0, .fetchData 0 0 0 0 0 0 [],
  .modelTable 0 [], .modelFill 0 0, .modelFetch 0 0, .modelClear 0 0,
  .scrubRead 0 0 false, .zeroFill 0, .scrubLapOverLimit 0, .remapReloadDone 0,
  .retireRequest 0 [], .retireRecordWritten false, .deviceEccPoll okPoll, .faultEvent 0 1 0 0 false [],
  .handlerStep, .levelTimeout 1, .stallDeadline 0, .faultAcknowledge 0 [],
  .recoveryBudgetWrite 0 0 false [], .detourRelease 0 0 [], .restartOrder 0 0 [], .restartRelease 0,
  .restartOrderTimeout 0, .logFlushTimer false, .logPageProgrammed false, .logBlock 0,
  .protBlock 0, .heartbeatWrite, .heartbeatStopped, .twinGrantEdge false false,
  .grantGuardElapsed false, .coldTakeoverWait false, .twinState 0 0 0 0 [], .twinRecordsMissed,
  .storeCopy okCopy, .mirror 0 0 0 0 0 0 [], .driveHandover 0, .collHandover 0,
  .handoverAbort 0, .handoverGrantDrop, .roleSwapDue, .healthTestDue,
  .healthTestDone 0 0 0 0, .collRestore 0 0 [], .collRestoreDone 0, .selectorSettled,
  .engineReady false, .permitRequest 0 .normal 0 0, .permitRenew 0 0, .permitRelease 0 0,
  .leaseEnd 0 0, .powerOverLimit 0] : List Instr).all Instr.wf = true := by
  decide +kernel

theorem test_wf_accepts_5 : ([
  .powerRecovered 0, .heaterCap 0 0 [], .heaterSupply 0 [], .dieSensorSample [],
  .thermalFaultEntry, .shutdownDeadline, .flashOperationsEnd, .tTrip 0 0,
  .thermalRestart 0 0, .manifest 0 [] false, .segmentFile 0 0 [], .segmentProgrammed false,
  .recovery 0 [] false, .foePacketTimeout, .stagingScanDone, .activate 0,
  .activationDone false, .updateClear 0, .clearEraseDone, .healthSoakElapsed,
  .healthWindowEnd, .healthReject 0, .watchdogRestart, .settingsRecordCommitted,
  .recorderEnable 0 [], .recorderTrigger 0, .freeze 0, .releaseCapture 0,
  .postWindow, .capture 0, .captureWrite 0 [], .replayData 0 0 0 [],
  .replayFetch 0, .replayRun 0, .replayAbort 0, .replayClear 0,
  .page none none, .capability false, .statusWord false, .statusInput false,
  .statusTemperature false, .readVin false, .readIin false, .readTemperature1 false,
  .readTemperature2 false, .readPin false, .pmbusRevision false, .mfrId false,
  .mfrModel false, .mfrRevision false, .mfrSerial false, .pmbusUnsupported 0 false,
  .alertResponse false, .pmbusRefresh [0, 0] [0, 0] 0 [], .mapenCrcError 0, .protocolViolation 0 okMapen 0 0 0,
  .fieldNetworkLoss, .processDataOutputs [], .manifestReceiptProgrammed false, .ppsInPresentTimeout,
  .positionConfirmTimeout, .healthOverdue, .roleSwapNotFound, .holdupDischarged,
  .podChainChange 0 false] : List Instr).all Instr.wf = true := by
  decide +kernel

theorem test_wf_refuses_1 : ([
  .lossOfLock (.drive 0) (2 ^ 32), .domainOn (65536) 0 0, .domainRampDone 0 [(0, 128)],
  .quiesceTimeout 0 (2 ^ 32), .objectWrite 0 (65536) 0 false [], .objectWrite 0 0 (256) false [],
  .sdoSegment 0 (65536) 0 0 false false [], .sdoSegment 0 0 (256) 0 false false [], .sdoSegment 0 0 0 (2 ^ 32) false false [],
  .sdoInfo 0 .list (65536) 0, .sdoInfo 0 .list 0 (256), .unsupportedProtocol 0 (16),
  .requestSafeOp (some (2 ^ 32)), .sync0 (2 ^ 64), .imageVerified 0 ([]),
  .selftestPassed [(19, 0)], .computeDeadline ([4096]) ⟨[], []⟩, .computeDeadline [] ⟨[2 ^ 32], []⟩,
  .computeDeadline [] ⟨[], [.coef 4096 0]⟩, .computeDeadline [] ⟨[], [.coef 0 4]⟩, .computeDeadline [] ⟨[], [.axis 4096]⟩,
  .computeDeadline [] ⟨[], [.heater 11264]⟩,
  .lossOfLock (.lane 39 0) 0, .lossOfLock (.lane 0 8) 0,
  .timeReq 0 (65536) 0 0 0 0 0, .timeReq 0 0 (256) 0 0 0 0, .timeReq 0 0 0 0 (65536) 0 0,
  .timeReq 0 0 0 (2) 0 0 0, .timeReq 0 0 0 0 0 (2 ^ 96) 0, .timeReq 0 0 0 0 0 0 (2 ^ 96),
  .timeResp 0 (65536) 0 0 0 0 0 0 0 {}, .timeResp 0 0 (256) 0 0 0 0 0 0 {}, .timeResp 0 0 0 (256) 0 0 0 0 0 {},
  .timeResp 0 0 0 0 (65536) 0 0 0 0 {}, .timeResp 0 0 0 0 0 (32768) 0 0 0 {}, .timeResp 0 0 0 0 0 (-32769) 0 0 0 {},
  .timeResp 0 0 0 0 0 0 (2 ^ 96) 0 0 {}, .timeResp 0 0 0 0 0 0 0 (2 ^ 96) 0 {}, .timeResp 0 0 0 0 0 0 0 0 (2 ^ 96) {},
  .ptpSync 0 (2 ^ 64) okSync 0 0 0, .ptpSync 0 0 okSync (2 ^ 96) 0 0, .ptpSync 0 0 okSync 0 (2 ^ 96) 0,
  .ptpSync 0 0 okSync 0 0 (2 ^ 63), .ptpSync 0 0 okSync 0 0 (-9223372036854775809), .ptpFollowUp 0 (2 ^ 96) 0,
  .ptpFollowUp 0 0 (2 ^ 63), .ptpFollowUp 0 0 (-9223372036854775809), .ptpAnnounce 0 { okAnn with gm := 2 ^ 64 },
  .ptpAnnounce 0 { okAnn with clockClass := 256 }, .ptpAnnounce 0 { okAnn with steps := 65536 }, .ptpAnnounce 0 { okAnn with utc := 32768 },
  .ptpAnnounce 0 { okAnn with utc := -32769 }, .ptpDelayResp 0 (2 ^ 96) okAns, .ptpDelayResp 0 0 { okAns with corr := 2 ^ 63 },
  .ptpDelayResp 0 0 { okAns with corr := -9223372036854775809 }, .ptpDelayResp 0 0 { okAns with interval := 128 },
  .ptpSync 0 0 { okSync with interval := -129 } 0 0 0, .ptpAnnounce 0 { okAnn with interval := 128 }, .ptpPdelayReq 0 (2 ^ 96) 0] : List Instr).all (fun i => !i.wf) = true := by
  decide +kernel

theorem test_wf_refuses_2 : ([
  .ptpPdelayReq 0 0 (2 ^ 96), .ptpPdelayResp 0 (2 ^ 96) 0 0 0, .ptpPdelayResp 0 0 (2 ^ 96) 0 0,
  .ptpPdelayResp 0 0 0 (2 ^ 96) 0, .ptpPdelayResp 0 0 0 0 (2 ^ 63), .ptpPdelayResp 0 0 0 0 (-9223372036854775809),
  .strobeArm (2 ^ 64) [] 0, .strobeArm 0 ([0, 0]) 0, .lbkEcho 0 (2 ^ 32),
  .ppsIn (2 ^ 96), .sensorFrame 0 { okSensor with pos := [] }, .sensorFrame 0 { okSensor with applied := [] },
  .sensorFrame 0 { okSensor with pos := 8388608 :: List.replicate 255 0 }, .sensorFrame 0 { okSensor with applied := 524288 :: List.replicate 255 0 }, .sensorFrame 0 { okSensor with cycle := 2 ^ 64 },
  .sensorFrame 0 { okSensor with seq := 65536 }, .sensorFrame 0 { okSensor with board := 16 }, .sensorFrame 0 { okSensor with status := 256 },
  .sensorFrame 0 { okSensor with faults := [256] }, .sensorFrame 0 { okSensor with poisoned := [256] }, .boardCommandFrame 0 0 0 0 0 ([]) false,
  .boardCommandFrame 0 0 0 0 0 ((524288, false) :: List.replicate 255 (0, false)) false, .boardCommandFrame 0 0 0 (2 ^ 64) 0 (List.replicate 256 (0, false)) false, .boardCommandFrame 0 0 (65536) 0 0 (List.replicate 256 (0, false)) false,
  .boardHoldFrame 0 0 0 (2 ^ 64) 0 false, .boardHoldFrame 0 0 (65536) 0 0 false, .pilotReading 0 0 0 0 ⟨65536, false, false⟩, .pilotReading 0 (2 ^ 31) 0 0 ⟨0, false, false⟩,
  .pilotReading 0 (-2147483649) 0 0 ⟨0, false, false⟩, .pilotReading 0 0 (2 ^ 31) 0 ⟨0, false, false⟩, .pilotReading 0 0 (-2147483649) 0 ⟨0, false, false⟩,
  .pilotReading 0 0 0 (32768) ⟨0, false, false⟩, .pilotReading 0 0 0 (-32769) ⟨0, false, false⟩, .boardIdentity 0 okRec ([]) (zeros 8) 0 false,
  .boardIdentity 0 okRec (zeros 16) ([]) 0 false, .boardIdentity 0 okRec (zeros 16) (zeros 8) (2 ^ 31) false, .boardIdentity 0 okRec (zeros 16) (zeros 8) (-2147483649) false, .boardIdentity 0 { okRec with number := 256 } (zeros 16) (zeros 8) 0 false,
  .boardIdentity 0 { okRec with lanes := 0 } (zeros 16) (zeros 8) 0 false, .boardIdentity 0 { okRec with lanes := 65536 } (zeros 16) (zeros 8) 0 false, .sensorFrame 0 { okSensor with lanes := 0 },
  .tapReport 0 0 ⟨List.replicate 16 (0, 0), [16]⟩ false, .heaterReport 0 ⟨List.replicate 176 none, [176]⟩ (List.replicate 128 0) 0 false,
  .tapReport 0 0 ⟨[], []⟩ false, .tapReport 0 0 ⟨(32768, 0) :: List.replicate 15 (0, 0), []⟩ false, .tapReport 0 0 ⟨(0, 32768) :: List.replicate 15 (0, 0), []⟩ false,
  .tapReport 0 (65536) ⟨List.replicate 16 (0, 0), []⟩ false, .heaterReport 0 ⟨[], []⟩ (List.replicate 128 0) 0 false, .heaterReport 0 ⟨List.replicate 176 none, []⟩ ([]) 0 false,
  .heaterReport 0 ⟨List.replicate 176 none, []⟩ (List.replicate 128 0) (32768) false, .heaterReport 0 ⟨List.replicate 176 none, []⟩ (List.replicate 128 0) (-32769) false, .bankAck 0 (65536) 0 false okChk,
  .sweepResult 0 0 0 0 ([(32768, 0)]) okChk, .sweepResult 0 0 0 0 ([(0, 32768)]) okChk, .sweepResult 0 0 0 (32768) [] okChk,
  .sweepResult 0 0 0 (-32769) [] okChk, .podTunerWrite 0 ([⟨176, 0, 0⟩]) false] : List Instr).all (fun i => !i.wf) = true := by
  decide +kernel

theorem test_wf_refuses_3 : ([
  .podTunerWrite 0 ([⟨0, 16, 0⟩]) false, .podTunerWrite 0 ([⟨0, 0, 2048⟩]) false, .podStrobeDesc 0 (65536) [] false,
  .podStrobeDesc 0 0 ([⟨16, false, 0, 0⟩]) false, .podHeaterSet 0 ([]) false, .podMonitorSet 0 ([]) false,
  .podMonitorSet 0 ({ okMonitor with mask := 256 } :: List.replicate 15 okMonitor) false, .podMonitorSet 0 ({ okMonitor with flags := 256 } :: List.replicate 15 okMonitor) false, .podMonitorSet 0 ({ okMonitor with threshold := 32768 } :: List.replicate 15 okMonitor) false,
  .podCalSweep 0 0 0 (65536) 0 0 false, .podCalSweep 0 0 0 0 (65536) 0 false, .podCalSweep 0 0 0 0 0 (256) false,
  .calFit 0 0 ([⟨1024, 0, 0, [], []⟩]), .vote 0 { okCommit with tag := 2 ^ 32 } 0 0 0, .vote 0 { okCommit with entry := 2 ^ 32 } 0 0 0,
  .vote 0 { okCommit with zenith := 2 ^ 64 } 0 0 0, .vote 0 { okCommit with crc := 2 ^ 32 } 0 0 0, .vote 0 { okCommit with sender := 65536 } 0 0 0,
  .vote 0 { okCommit with leader := 65536 } 0 0 0, .vote 0 { okCommit with epoch := 2 ^ 32 } 0 0 0, .vote 0 { okCommit with reason := 256 } 0 0 0,
  .vote 0 okCommit (2 ^ 64) 0 0, .vote 0 okCommit 0 (2 ^ 64) 0, .vote 0 okCommit 0 0 (2 ^ 64),
  .decisionInstant (2 ^ 32) 0, .decisionInstant 0 (2 ^ 64), .goMsg 0 { okCommit with tag := 2 ^ 32 },
  .commitHold 0 { okCommit with tag := 2 ^ 32 }, .commitAck 0 { okCommit with tag := 2 ^ 32 } 0 0, .commitAck 0 okCommit (2 ^ 64) 0,
  .commitAck 0 okCommit 0 (2 ^ 64), .commitConfirm 0 { okCommit with tag := 2 ^ 32 }, .retract 0 { okCommit with tag := 2 ^ 32 },
  .outcome 0 { okCommit with tag := 2 ^ 32 } 0 0, .outcome 0 okCommit (2 ^ 64) 0, .outcome 0 okCommit 0 (2 ^ 64),
  .voidStep 0 { okCommit with tag := 2 ^ 32 } 0, .voidStep 0 okCommit (2 ^ 64), .guard (2 ^ 32) 0,
  .guard 0 (2 ^ 64), .outcomeCheck (2 ^ 32) 0, .outcomeCheck 0 (2 ^ 64),
  .laserModuleInserted 0 ([]) (zeros 16) (zeros 16) false false false, .laserModuleInserted 0 (zeros 16) ([]) (zeros 16) false false false, .laserModuleInserted 0 (zeros 16) (zeros 16) ([]) false false false,
  .laserMonitorPoll 0 ([32768]) 0, .laserMonitorPoll 0 [] (32768), .laserMonitorPoll 0 [] (-32769),
  .synthSample 0 0 (2 ^ 31) false, .synthSample 0 0 (-2147483649) false] : List Instr).all (fun i => !i.wf) = true := by
  decide +kernel

theorem test_wf_refuses_4 : ([
  .transmitCommand (.frame 39 0 0 0 []), .transmitCommand (.lane 39 0 0 []), .transmitCommand (.lane 0 8 0 []), .transmitCommand (.lane 0 0 256 []), .transmitCommand (.frame 0 256 0 0 []), .transmitCommand (.frame 0 0 3 0 []),
  .transmitCommand (.frame 0 0 0 65536 []), .transmitCommand (.probe 1024 0 []), .transmitCommand (.probe 0 256 []),
  .blockHeader 0 0 ⟨0, 0⟩ (256) 0 false, .blockHeader 0 0 ⟨0, 0⟩ 0 (256) false, .blockHeader 0 0 ⟨2 ^ 32, 0⟩ 0 0 false, .blockHeader 0 0 ⟨0, 65536⟩ 0 0 false,
  .linkFrame 0 (256) 0 0 okFrom 0 [] false false, .linkFrame 0 0 (3) 0 okFrom 0 [] false false, .linkFrame 0 0 0 (65536) okFrom 0 [] false false,
  .linkFrame 0 0 0 0 { okFrom with chip := 65536 } 0 [] false false, .linkFrame 0 0 0 0 { okFrom with lane := 8 } 0 [] false false, .linkFrame 0 0 0 0 okFrom (65536) [] false false, .linkAck 0 (65536) 0 okNak,
  .linkAck 0 0 (65536) okNak, .linkAck 0 0 0 { okNak with nak := 256 }, .linkAck 0 0 0 { okNak with lane := 8 }, .linkTrain 0 { okTrain with lane := 8 }, .linkTrain 0 { okTrain with mask := 256 },
  .linkTrain 0 { okTrain with sender := 65536 }, .linkTrain 0 { okTrain with twin := 256 }, .linkTrain 0 { okTrain with trainId := 2 ^ 32 },
  .linkTrain 0 { okTrain with echo := 2 ^ 32 }, .mapenHello 0 { okMapen with source := 65536 } 0 0 0 0, .mapenHello 0 { okMapen with port := 65536 } 0 0 0 0,
  .mapenHello 0 { okMapen with seq := 65536 } 0 0 0 0, .mapenHello 0 { okMapen with echo := 65536 } 0 0 0 0, .mapenHello 0 okMapen (256) 0 0 0,
  .mapenHello 0 okMapen 0 (256) 0 0, .mapenHello 0 okMapen 0 0 (256) 0, .mapenHello 0 okMapen 0 0 0 (2 ^ 32),
  .ident 0 { okMapen with source := 65536 } okIdent, .ident 0 okMapen { okIdent with chip := 65536 }, .ident 0 okMapen { okIdent with link := 256 },
  .ident 0 okMapen { okIdent with serial := [] }, .ident 0 okMapen { okIdent with profile := 256 }, .ident 0 okMapen { okIdent with vendor := 2 ^ 32 },
  .ident 0 okMapen { okIdent with caps := 65536 }, .ident 0 okMapen { okIdent with lanes := 256 }, .ident 0 okMapen { okIdent with nonce := 2 ^ 32 },
  .mapenAck 0 { okMapen with source := 65536 } 0, .mapenAck 0 okMapen (256), .mapenNak 0 { okMapen with source := 65536 } 0 0 0,
  .mapenNak 0 okMapen (256) 0 0, .mapenNak 0 okMapen 0 (65536) 0, .mapenNak 0 okMapen 0 0 (2 ^ 32),
  .mapenKeepalive 0 { okMapen with source := 65536 } 0 0, .mapenKeepalive 0 okMapen (2 ^ 32) 0, .mapenKeepalive 0 okMapen 0 (256),
  .mapenGoodbye 0 { okMapen with source := 65536 } 0, .mapenGoodbye 0 okMapen (256)] : List Instr).all (fun i => !i.wf) = true := by
  decide +kernel

theorem test_wf_refuses_5 : ([
  .discHello 0 { okHello with chip := 65536 }, .discHello 0 { okHello with twin := 256 }, .discHello 0 { okHello with variant := 256 },
  .discHello 0 { okHello with port := 256 }, .discHello 0 { okHello with state := 256 }, .discHello 0 { okHello with flags := 256 },
  .discHello 0 { okHello with serial := [] }, .discHello 0 { okHello with image := 2 ^ 64 }, .discState 0 { okState with source := 65536 },
  .discState 0 { okState with twin := 256 }, .discState 0 { okState with state := 256 }, .discState 0 { okState with flags := 256 },
  .discState 0 { okState with seq := 2 ^ 32 }, .discState 0 { okState with mask := 256 }, .discState 0 { okState with since := 2 ^ 64 },
  .discState 0 { okState with id := 2 ^ 32 }, .discConflict 0 (256) 0 0 0, .discConflict 0 0 (256) 0 0,
  .discConflict 0 0 0 (65536) 0, .discConflict 0 0 0 0 (65536), .discEntryExpiry (65536) 0,
  .gradIn 0 { okHdr with format := 256 } [], .gradIn 0 { okHdr with flags := 256 } [], .gradIn 0 { okHdr with gen := 256 } [],
  .gradIn 0 { okHdr with tag := 2 ^ 32 } [], .gradIn 0 { okHdr with token := 2 ^ 32 } [], .gradIn 0 { okHdr with scale := 2 ^ 32 } [],
  .gradIn 0 { okHdr with addr := 2 ^ 64 } [], .gradIn 0 { okHdr with group := 65536 } [], .masterIn 0 { okHdr with format := 256 } [],
  .actPush 0 { okHdr with format := 256 } [], .weightIn 0 { okHdr with format := 256 } [], .normPartial 0 (2 ^ 32) 0 0 0 0 0,
  .normPartial 0 0 (256) 0 0 0 0, .normPartial 0 0 0 (256) 0 0 0, .normPartial 0 0 0 0 (256) 0 0,
  .normPartial 0 0 0 0 0 (2 ^ 64) 0, .normPartial 0 0 0 0 0 0 (2 ^ 64), .normTimeout (2 ^ 32) 0 0,
  .normTimeout 0 (2 ^ 64) 0, .normTimeout 0 0 (256), .clipMsg 0 { okClip with tag := 2 ^ 32 },
  .clipMsg 0 { okClip with gen := 256 }, .clipMsg 0 { okClip with step := 2 ^ 64 }, .clipMsg 0 { okClip with result := 256 },
  .clipMsg 0 { okClip with clip := 2 ^ 32 }, .clipMsg 0 { okClip with norm := 2 ^ 64 }, .normRestart 0 (2 ^ 32) 0 0,
  .normRestart 0 0 (256) 0, .normRestart 0 0 0 (2 ^ 64)] : List Instr).all (fun i => !i.wf) = true := by
  decide +kernel

theorem test_wf_refuses_6 : ([
  .fetchReq 0 (65536) 0 0 0 0 0, .fetchReq 0 0 (65536) 0 0 0 0, .fetchReq 0 0 0 (256) 0 0 0,
  .fetchReq 0 0 0 0 (2 ^ 32) 0 0, .fetchReq 0 0 0 0 0 (2 ^ 64) 0, .fetchReq 0 0 0 0 0 0 (256),
  .fetchData 0 (65536) 0 0 0 0 [], .fetchData 0 0 (65536) 0 0 0 [], .fetchData 0 0 0 (256) 0 0 [],
  .fetchData 0 0 0 0 (256) 0 [], .fetchData 0 0 0 0 0 (2 ^ 64) [], .scrubRead 0 (256) false,
  .deviceEccPoll { okPoll with counts := [2 ^ 32] }, .deviceEccPoll { okPoll with hbm := [(8, 0, 0)] }, .deviceEccPoll { okPoll with sram := [(31, 0, 0)] },
  .deviceEccPoll { okPoll with flash := [(.settings 2 0, 0)] }, .deviceEccPoll { okPoll with flash := [(.retire 0 32, 0)] }, .faultEvent (65536) 1 0 0 false [], .faultEvent 0 (0) 0 0 false [],
  .faultEvent 0 (5) 0 0 false [], .faultEvent 0 1 (256) 0 false [], .faultEvent 0 1 0 (65536) false [],
  .faultEvent 0 1 0 0 false (List.replicate (28 + 1) 0), .levelTimeout (0), .levelTimeout (6),
  .recoveryBudgetWrite 0 (256) false [], .twinState (2 ^ 64) 0 0 0 [], .twinState 0 (256) 0 0 [],
  .twinState 0 0 (256) 0 [], .twinState 0 0 0 (2 ^ 32) [], .storeCopy { okCopy with item := 256 },
  .storeCopy { okCopy with flags := 256 }, .storeCopy { okCopy with index := 2 ^ 32 }, .storeCopy { okCopy with version := 2 ^ 64 },
  .storeCopy { okCopy with offset := 2 ^ 32 }, .storeCopy { okCopy with total := 2 ^ 32 }, .mirror (256) 0 0 0 0 0 [],
  .mirror 0 (256) 0 0 0 0 [], .mirror 0 0 (256) 0 0 0 [], .mirror 0 0 0 (256) 0 0 [],
  .mirror 0 0 0 0 (2 ^ 64) 0 [], .mirror 0 0 0 0 0 (2 ^ 64) [], .mirror 0 0 0 0 0 0 ([0]),
  .healthTestDone 0 0 (2 ^ 32) 0, .healthTestDone 0 0 0 (2 ^ 64), .permitRequest 0 .normal (2 ^ 32) 0,
  .permitRequest 0 .normal 0 (2 ^ 32), .permitRenew 0 (2 ^ 32), .permitRelease 0 (2 ^ 32),
  .leaseEnd 0 (2 ^ 32), .powerOverLimit (2 ^ 32), .powerRecovered (2 ^ 32),
  .dieSensorSample (List.replicate (16 + 1) 0), .dieSensorSample ([32768])] : List Instr).all (fun i => !i.wf) = true := by
  decide +kernel

theorem test_wf_refuses_7 : ([
  .tTrip 0 (32768), .tTrip 0 (-32769), .segmentFile 0 (65536) [],
  .replayData (2 ^ 64) 0 0 [], .replayData 0 (2 ^ 64) 0 [], .replayData 0 0 (256) [],
  .replayData 0 0 0 ([0]), .pmbusRefresh ([]) [0, 0] 0 [], .pmbusRefresh [0, 0] ([]) 0 [],
  .pmbusRefresh [0, 0] [0, 0] 0 ([32768]), .protocolViolation 0 { okMapen with source := 65536 } 0 0 0, .protocolViolation 0 okMapen (256) 0 0,
  .protocolViolation 0 okMapen 0 (256) 0, .protocolViolation 0 okMapen 0 0 (256)] : List Instr).all (fun i => !i.wf) = true := by
  decide +kernel

theorem test_wf_refuses_long_1 (x : Bytes) (h : 2 ^ 24 < x.length) : ((.objectWrite 0 0 0 false (x) : Instr)).wf = false := by
  have h : ¬ x.length ≤ 2 ^ 24 := Nat.not_le.mpr h
  simp only [Instr.wf, h, decide_false, Bool.and_false, Bool.false_and]

theorem test_wf_refuses_long_2 (x : Bytes) (h : 1024 < x.length) : ((.sdoSegment 0 0 0 0 false false (x) : Instr)).wf = false := by
  have h : ¬ x.length ≤ 1024 := Nat.not_le.mpr h
  simp only [Instr.wf, h, decide_false, Bool.and_false, Bool.false_and]

theorem test_wf_refuses_long_3 (x : Bytes) (h : 9216 < x.length) : ((.transmitCommand (.frame 0 0 0 0 x) : Instr)).wf = false := by
  have h : ¬ x.length ≤ 9216 := Nat.not_le.mpr h
  simp only [Instr.wf, h, decide_false, Bool.and_false, Bool.false_and]

theorem test_wf_refuses_long_4 (x : Bytes) (h : 64 < x.length) : ((.transmitCommand (.probe 0 0 x) : Instr)).wf = false := by
  have h : ¬ x.length ≤ 64 := Nat.not_le.mpr h
  simp only [Instr.wf, h, decide_false, Bool.and_false, Bool.false_and]

theorem test_wf_refuses_long_5 (x : Bytes) (h : 9216 < x.length) : ((.linkFrame 0 0 0 0 okFrom 0 (x) false false : Instr)).wf = false := by
  have h : ¬ x.length ≤ 9216 := Nat.not_le.mpr h
  simp only [Instr.wf, h, decide_false, Bool.and_false, Bool.false_and]

theorem test_wf_refuses_long_6 (x : Bytes) (h : 9216 < x.length) : ((.gradIn 0 okHdr (x) : Instr)).wf = false := by
  have h : ¬ x.length ≤ 9216 := Nat.not_le.mpr h
  simp only [Instr.wf, h, decide_false, Bool.and_false, Bool.false_and]

theorem test_wf_refuses_long_7 (x : Bytes) (h : 9216 < x.length) : ((.masterIn 0 okHdr (x) : Instr)).wf = false := by
  have h : ¬ x.length ≤ 9216 := Nat.not_le.mpr h
  simp only [Instr.wf, h, decide_false, Bool.and_false, Bool.false_and]

theorem test_wf_refuses_long_8 (x : Bytes) (h : 9216 < x.length) : ((.actPush 0 okHdr (x) : Instr)).wf = false := by
  have h : ¬ x.length ≤ 9216 := Nat.not_le.mpr h
  simp only [Instr.wf, h, decide_false, Bool.and_false, Bool.false_and]

theorem test_wf_refuses_long_9 (x : Bytes) (h : 9216 < x.length) : ((.weightIn 0 okHdr (x) : Instr)).wf = false := by
  have h : ¬ x.length ≤ 9216 := Nat.not_le.mpr h
  simp only [Instr.wf, h, decide_false, Bool.and_false, Bool.false_and]

theorem test_wf_refuses_long_10 (x : Bytes) (h : 8192 < x.length) : ((.fetchData 0 0 0 0 0 0 (x) : Instr)).wf = false := by
  have h : ¬ x.length ≤ 8192 := Nat.not_le.mpr h
  simp only [Instr.wf, h, decide_false, Bool.and_false, Bool.false_and]

theorem test_wf_refuses_long_11 (x : Bytes) (h : 9200 < x.length) : ((.twinState 0 0 0 0 (x) : Instr)).wf = false := by
  have h : ¬ x.length ≤ 9200 := Nat.not_le.mpr h
  simp only [Instr.wf, h, decide_false, Bool.and_false, Bool.false_and]

theorem test_wf_refuses_long_12 (x : Bytes) (h : 9192 < x.length) : ((.storeCopy { okCopy with data := x } : Instr)).wf = false := by
  have h : ¬ x.length ≤ 9192 := Nat.not_le.mpr h
  simp only [Instr.wf, h, decide_false, Bool.and_false, Bool.false_and]

theorem test_wf_refuses_long_13 (x : Bytes) (h : 8192 < x.length) : ((.mirror 0 0 0 0 0 0 (x) : Instr)).wf = false := by
  have h : ¬ x.length ≤ 8192 := Nat.not_le.mpr h
  simp only [Instr.wf, h, decide_false, Bool.and_false, Bool.false_and]

theorem test_wf_refuses_long_14 (x : Bytes) (h : 8192 < x.length) : ((.replayData 0 0 0 (x) : Instr)).wf = false := by
  have h : ¬ x.length ≤ 8192 := Nat.not_le.mpr h
  simp only [Instr.wf, h, decide_false, Bool.and_false, Bool.false_and]

/-- A state around a device. -/
def st (d : Dev) : State := { State.reset with dev := d }
/-- A device with its domains on, in STANDBY, its mailbox in Pre-Op, with a Maintainer session of client 0. -/
def up : Dev :=
  { State.reset.dev with
    module := { State.reset.dev.module with aux := true, main := true, holdup := true }
    power := { State.reset.dev.power with domains := (upto 16).map (fun k => (k, DState.on)) }
    dir := { State.reset.dev.dir with state := .standby }
    net := { State.reset.dev.net with ecat := .preOp, sessions := [{ client := 0, role := .maintainer, scope := 65535, timeout := 60, lastReq := 0 }] }
    twin := { State.reset.dev.twin with drive := .active, ownDrive := true, coll := .active, ownColl := true }
    upd := { State.reset.dev.upd with state := .empty, verified := true, startDone := some 0 } }
/-- The same with the Director in a state. -/
def inDir (x : DirState) : Dev := { up with dir := { up.dir with state := x } }
/-- The same with a request or a write that waits. -/
def owed (w : Waiting) : Dev := { up with net := { up.net with waiting := some w } }
/-- The same with the mailbox in a state of the device. -/
def inEcat (x : Ecat) : Dev := { up with net := { up.net with ecat := x } }
/-- The same with a domain in a state. -/
def domainAt (k : Nat) (x : DState) : Dev := { up with power := { up.power with domains := tset up.power.domains k x } }
/-- The same with one job. -/
def withJob (x : Job) : Dev := { up with jobs := [(0, x)] }
/-- The same with the collective engine up and one job in it. -/
def withColl (x : Coll) : Dev := { up with coll := { up.coll with state := .ready, jobs := [(0, x)] } }
/-- The same with the twin joined over its link, and long in STANDBY. -/
def joined : Dev :=
  { up with
    disc := { up.disc with twinJoin := 1 }
    opt := { up.opt with links := [(38, { state := .up })] }
    time := { up.time with counter := 100 * Config.sec * 2 ^ 32 }
    eng := { up.eng with cycle := 2000000 }
    twin := { up.twin with twinDrive := .standby, twinColl := .standby, standbySince := 1 } }
/-- An almanac of job 0 with one variant of one entry, which commits the empty slot 0. -/
def almanac0 : Bytes :=
  let b := le 2 0x4143 ++ [1, 0] ++ le 4 1 ++ le 2 0 ++ [1, 0] ++ le 4 7 ++ le 8 1 ++ le 4 0 ++ le 4 0 ++
    (le 4 0 ++ le 4 1 ++ le 4 1 ++ zeros 4) ++ (le 4 0 ++ le 4 0 ++ le 2 0 ++ le 2 0 ++ le 2 0 ++ le 2 0xFFFF)
  patch b 28 (le 4 (crc32 b))
/-- A constellation of job 0 with no circuit. -/
def constellation0 : Bytes := padTo 12 [0x43, 0x4C, 1, 0] ++ le 4 1007253548 ++ (upto 512).flatMap (fun _ => [0xFF, 0xFF, 3] ++ zeros 9)
/-- A device with a job whose almanac is valid. -/
def ready : Dev :=
  { up with
    jobs := [(0, { state := .loaded, tag := 7, valid := true, period := up.time.inForce.period })]
    runs := [(0, { fresh := false })]
    ob := [(objKey 0x4400 1, constellation0), (objKey 0x4800 1, almanac0)] }
/-- The same while the START waits for its validation. -/
def validating : Dev := { ready with net := { ready.net with waiting := some (.validation (.write 0 0x2080 2 false [1]) 0) } }
/-- A device that holds an Operator key and a challenge for client 0. -/
def challenged : Dev :=
  { up with net := { up.net with sessions := [], keys := [(2, [1, 2, 3, 4])], challenges := [{ client := 0, bytes := zeros 16, issued := 0 }] } }
/-- The response of client 0 to it. -/
def response0 : Bytes :=
  let v := [2, 0, 60, 0]
  v ++ (hmac256 [1, 2, 3, 4] (challenged.responseMessage 0 (zeros 16) v)).take 16
/-- A device whose time port 0 has the confirmed neighbour chip 0xF001. -/
def linked : Dev := { up with disc := { up.disc with neighbours := [(0, { chip := 0xF001, twin := 0, port := 1, status := .confirmed })] } }
/-- A device with a board that adopts, its slice running. -/
def boarded : Dev :=
  { up with eng := { up.eng with slices := List.replicate 4 .running, boards := [(0, { state := .adopting, holdFrames := 2 })] } }
/-- A device that has an axis in a state of its fields. -/
def withAxis (x : Axis) : Dev := { up with eng := { up.eng with axes := [(0, x)] } }
/-- A device whose axes 0 and 1 stand in a state. -/
def headIn (x : AState) : Dev := { up with eng := { up.eng with axes := (upto 4).map (fun a => (a, { state := x })) } }
/-- A live circuit of north port 0 and south port 0 on plane 0 and lanes 0 and 1. -/
def circuit0 : Circuit := { north := 0, south := 0, plane := 0, state := .live, lanes := 3, weights := [1, 1, 0, 0, 0, 0, 0, 0] }
/-- A pointing comet of the same pair. -/
def comet0 : Comet :=
  { id := 1, job := 0, entry := 0, north := 0, south := 0, plane := 0, lanes := 3, weights := [1, 1, 0, 0, 0, 0, 0, 0], state := .acquiring, zenith := 10 ^ 12 }
/-- A device that autotunes axis 0 with samples. -/
def tuning (l : List Int) : Dev := { up with eng := { up.eng with tunes := [{ axis := 0, began := 0, u0 := 1, samples := l }] } }
/-- A device whose slices run and whose pods 0 and 32 are in service and locked. -/
def served : Dev :=
  { up with
    eng := { up.eng with slices := List.replicate 4 .running }
    rings := { up.rings with pods := [(0, { state := .inService, lock := true }), (32, { state := .inService, lock := true })] } }
/-- The same with a measurement round of port 0, lane 0 at a stage. -/
def rounding (k : Nat) : Dev :=
  { served with rings := { served.rings with rounds := [{ north := 0, south := none, plane := 0, lane := 0, start := 0, stage := k }] } }
/-- A tap report's sensor frame of board 0. -/
def frame0 (ok : Bool) : SensorF :=
  { board := 0, seq := 1, cycle := 0, status := 0, pos := zeros 256 |>.map (fun _ => 0), applied := [], faults := [], poisoned := [], crcOk := ok, lanes := 1 }
/-- A device that may measure lane 0 of the circuit. -/
def calibrating : Dev :=
  { served with
    dir := { up.dir with state := .serving }
    circuits := [circuit0]
    od := [(objKey 0x3C00 0x0C, 1), (objKey 0x3C20 0x0C, 1)] ++ up.od }
/-- The same with room for a requested round. -/
def permitted : Dev :=
  { calibrating with power := { up.power with grants := [{ cls := 2, amount := 1, prio := .normal, holder := 1000005 }] } }
/-- A device in MAINTENANCE that may measure lane 0 of a port without a circuit. -/
def bare : Dev :=
  { permitted with
    dir := { up.dir with state := .maintenance }
    circuits := []
    rings := { permitted.rings with ports := [(0, { calByMa := 1 })] }
    od := [(objKey 0x3800 0x0F, 1)] ++ calibrating.od }
/-- Samples that cross zero upwards often enough. -/
def tone : List Int := (upto 12).flatMap (fun _ => [-1, 1])
/-- The Array root, with the confirmed neighbour 0xF001 on peer port 0. -/
def rooted : Dev := { linked with disc := { linked.disc with confirmed := true } }
/-- A commit message of job 0's tag, for the Zenith 9. -/
def msg0 : CMsg := { tag := 7, entry := 0, zenith := 9, crc := 0, sender := 0xF001, leader := 0xF000, epoch := 0, reason := 0 }
/-- A device with job 0's almanac and its commit, behind the neighbour 0xF001. -/
def planned (x : Commit) : Dev :=
  { ready with disc := linked.disc, arr := { up.arr with commits := [(0, x)] } }
/-- A stage of a commit with its strobe. -/
def stage0 (pods : List Nat) : Stage := { step := 1, z := 9, pods := pods, tag := 3 }
/-- A group of that tag and Zenith. -/
def group0 : Group := { tag := 7, z := 9, entry := 0, crc := 0, members := 1 }
/-- A device with all lasers lit and one link. -/
def linkIn (l : Nat) (x : Link) : Dev :=
  { up with opt := { up.opt with lasers := (upto 4).map (fun s => (s, { state := .lit, present := true, good := true, lit := 255 })), links := [(l, x)] } }
/-- A device with all lasers lit and the transmitter of probe transceiver 0. -/
def probeIn (x : Lane) : Dev := { linkIn 32 {} with opt := { (linkIn 32 {}).opt with probes := [(0, { tx := x })] } }
/-- A device with one laser. -/
def laserIn (x : Laser) : Dev := { up with opt := { up.opt with lasers := [(0, x)] } }
/-- A link with lanes that receive, and a context. -/
def linked0 : Link := { state := .training, context := some (0xF001, 0), active := 3, lanes := [(0, { state := .active, rxAligned := true })] }
/-- A link whose lane 0 settles and whose lane 1 is still locking. -/
def holding0 : Link := { state := .up, active := 3, lanes := [(0, { state := .settling }), (1, { state := .locking })] }
/-- A frame on a link. -/
def frame1 : LFrame := { type := 0x20, cls := 1, source := 0xF000, dest := 0xF001, payload := [] }
/-- A device whose port 0 is attached to its probe transceiver, with pod 0 lit. -/
def portIn (x : Port) : Dev :=
  { linkIn 32 { state := .up } with
    opt := { (linkIn 32 { state := .up }).opt with probes := [(0, { port := some 0 })] }
    disc := { linked.disc with ports := [(0, x), (1, { state := .probing, light := true })] } }
/-- A Mapen frame of the partner on port 0. -/
def mapen0 : Mapen := { source := 5, port := 0, seq := 1, echo := 2, poison := false }
/-- One that answers nothing. -/
def mapenFirst : Mapen := { mapen0 with echo := 0xFFFF }
/-- The partner's IDENT. -/
def ident0 : Ident := { chip := 5, link := 0, profile := 1, vendor := 0, serial := [], caps := 0, lanes := 255, nonce := 9 }
/-- A port that is identified with that partner. -/
def port0 : Port := { state := .identified, partner := some ident0, awaiting := some (5, 2, 0) }
/-- A Mapen frame opens on a port that answered nothing yet. -/
theorem opens_of (d : Dev) (p type : Nat) (f : Mapen) (h1 : d.hears p = true ∧ f.poison = false ∧ (d.port p).state ≠ .quarantined)
    (h2 : (d.port p).answered = [] ∧ (d.port p).lapsed = [])
    (h3 : (f.port = p ∨ f.port = 0xFFFF ∧ ((d.port p).helloSent = false ∨ type = 1)) ∧
      ((d.port p).state = .identified → type ≠ 2 → some f.source = (d.port p).partner.map (·.chip)))
    (h4 : ((d.port p).awaiting.all fun x => decide (d.now ≤ x.2.2 + 60 * Config.us)) = true) : d.Opens p type f :=
  ⟨h1.1, h1.2.1, h1.2.2, fun a e => (by rw [h2.1] at e; cases e), h3.1, h3.2, (by rw [h2.2]; exact List.not_mem_nil),
    fun a s t e _ => by rw [e] at h4; simpa using h4⟩
/-- A DISC_HELLO of the neighbour. -/
def hello0 : DiscHello := { chip := 0xF001, twin := 0, variant := 1, port := 1, state := 3, flags := 0, serial := [], image := 0 }
/-- A plan of 16 FP16 elements that port 0 serves. -/
def plan0 : Bytes :=
  zeros 4 ++ le 4 7 ++ [1, 1, 1, 1] ++ zeros 4 ++ le 8 16 ++ zeros 136 ++ le 8 0 ++ le 8 4096 ++ zeros 16 ++ le 8 0 ++ le 8 16 ++ zeros 496
/-- A device whose engine is up, whose service port 0 is up, and whose job 0 is in a state of the engine. -/
def engine (x : Coll) : Dev :=
  { up with
    disc := linked.disc
    jobs := [(0, { state := .running, ports := 2 ^ 992 })]
    opt := { up.opt with links := [(0, { state := .up })] }
    coll := { up.coll with state := .ready, jobs := [(0, x)] }
    ob := [(objKey 0x2910 1, plan0)] }
/-- The header of a service frame. -/
def svc0 : SvcHdr := { format := 0, flags := 0, gen := 0, tag := 7, token := 0, scale := 0, addr := 0, group := 0 }
/-- A record of the handler. -/
def event0 : Event := { code := 0x0201, cls := 1, scope := 3, index := 0, time := 0 }
/-- A recovery of a port at a level. -/
def recovery0 : Recovery := { level := 2, scope := 2, index := 0, epoch := 0, onset := 0, code := 0x0302, cls := 2, budgets := [9, 40, 100, 250, 10000] }
/-- A device whose faults are given. -/
def faulty (x : Faults) : Dev := { up with faults := x }
/-- A norm with one part. -/
def norm0 : Norm := { tag := 7, step := 1, gen := 0, first := 0, parts := [(0, 0, 9)] }
/-- A device whose scrubber runs over stack 0. -/
def scrubbed : Dev := { up with od := [(objKey 0x2801 1, 1)] ++ up.od, mem := { up.mem with stackOf := [(0, .ready)] } }
/-- A segment file of one byte. -/
def segment0 : Bytes := zeros 4 ++ le 4 0 ++ le 4 1 ++ zeros 20 ++ [7]
/-- A manifest of a one-byte image of one part and one segment. -/
def manifest0 : Bytes :=
  padTo 128 (le 2 0x4D46 ++ [1, 1] ++ le 4 0x05120043 ++ le 2 0x00C1 ++ zeros 2 ++ le 4 1 ++ le 8 1) ++
    padTo 512 ([1] ++ zeros 7 ++ le 8 0 ++ le 8 1) ++ sha384 segment0 ++ zeros 96
/-- A follower of the drive, joined to the twin. -/
def follower : Dev := { joined with twin := { joined.twin with drive := .standby, ownDrive := false, twinDrive := .active } }
/-- A leader that may hand over the drive. -/
def swapping : Dev := { joined with od := [(objKey 0x2510 1, 60)] ++ up.od }
/-- A device that receives the manifest's segments. -/
def receiving : Dev := { up with upd := { up.upd with state := .receiving, staged := manifest0, receipt := true } }
/-- A device on trial. -/
def trialling : Dev := { up with upd := { up.upd with state := .trial, boot := { state := .trial } } }
/-- A device in Op with 0x2010 mapped into an RxPDO. -/
def mapped : Dev := { inEcat .op with net := { (inEcat .op).net with pdoMaps := [(0x1600, [0x20100010]), (0x1C12, [0x1600])] } }

theorem records_drop (r : Bytes) : ∀ (n i : Nat), i ≤ n → ((List.replicate n r).flatten).drop (r.length * i) = (List.replicate (n - i) r).flatten
  | n, 0, _ => by simp
  | 0, i + 1, h => by omega
  | n + 1, i + 1, h => by
    rw [List.replicate_succ, List.flatten_cons, show r.length * (i + 1) = r.length + r.length * i by ring, ← List.drop_drop, List.drop_left,
      records_drop r n i (by omega)]
    congr 2
    omega
theorem slice_record (h r : Bytes) (n i o len : Nat) (hi : i < n) (ho : o + len ≤ r.length) :
    slice (h ++ (List.replicate n r).flatten) (h.length + r.length * i + o) len = slice r o len := by
  unfold slice
  rw [← List.drop_drop, ← List.drop_drop, List.drop_left, records_drop r n i (by omega)]
  obtain ⟨k, hk⟩ : ∃ k, n - i = k + 1 := ⟨n - i - 1, by omega⟩
  rw [hk, List.replicate_succ, List.flatten_cons, List.drop_append_of_le_length (by omega), List.take_append_of_le_length (by simp; omega)]
def crcRun : Nat → Bytes → Nat
  | c, [] => c
  | c, b :: l => if c = 0 then crcRun (crcByte 0xEDB88320 0 b.toNat) l else crcRun (crcByte 0xEDB88320 c b.toNat) l
theorem crcRun_eq : ∀ (l : Bytes) (c : Nat), crcRun c l = l.foldl (fun c x => crcByte 0xEDB88320 c x.toNat) c
  | [], c => rfl
  | b :: l, c => by
    rw [crcRun, List.foldl_cons, ← crcRun_eq l]
    split
    · subst_vars; rfl
    · rfl
theorem crc32_run (b : Bytes) : crc32 b = (crcRun 0xFFFFFFFF b) ^^^ 0xFFFFFFFF := by rw [crc32, crcRun_eq]
def xtHead : Bytes := padTo 12 (le 2 0x4B58 ++ [1, 0])
def xtRecord : Bytes := padTo 72 [1]
def xtBody : Bytes := (List.replicate 176 xtRecord).flatten
/-- A crosstalk matrix of pod 0 that passes its check: own gains of 1, no coupling. -/
def crosstalk0 : Bytes := (xtHead ++ le 4 86404844) ++ xtBody
theorem xt_len : crosstalk0.length = 12688 := by
  have a : xtHead.length = 12 := by decide
  have b : xtRecord.length = 72 := by decide
  simp only [crosstalk0, xtBody, List.length_append, List.length_flatten, List.map_replicate, List.sum_replicate, a, b, smul_eq_mul, show (le 4 86404844).length = 4 from rfl]
theorem xt_slice (i o len : Nat) (hi : i < 176) (ho : o + len ≤ 72) : slice crosstalk0 (16 + 72 * i + o) len = slice xtRecord o len :=
  slice_record (xtHead ++ le 4 86404844) xtRecord 176 i o len hi ho
theorem xt_crc : crc32 (patch crosstalk0 12 (zeros 4)) = 86404844 := by
  have : patch crosstalk0 12 (zeros 4) = xtHead ++ (zeros 4 ++ xtBody) := by
    have e : crosstalk0 = xtHead ++ (le 4 86404844 ++ xtBody) := by rw [crosstalk0, List.append_assoc]
    have a : xtHead.length = 12 := by decide
    have f : crosstalk0.drop 16 = xtBody := List.drop_left (l₁ := xtHead ++ le 4 86404844)
    unfold patch
    rw [show (12 + (zeros 4).length) = 16 from rfl, f, e, ← a, List.take_left, List.length_append, Nat.sub_eq_zero_of_le (Nat.le_add_right _ _)]
    simp [zeros]
  rw [this, crc32_run]
  decide +kernel
theorem xt_head (o n : Nat) (h : o + n ≤ 16) : slice crosstalk0 o n = slice (xtHead ++ le 4 86404844) o n := by
  have a : (xtHead ++ le 4 86404844).length = 16 := by decide
  unfold slice crosstalk0
  rw [List.drop_append_of_le_length (by omega), List.take_append_of_le_length (by simp only [List.length_drop]; omega)]
theorem xt_find (p : Nat → Bool) (h : ∀ i < 176, p i = false) : (upto 176).find? p = none :=
  List.find?_eq_none.2 fun i hi => by simp [h i (List.mem_range.1 hi)]
theorem xt_f1 : (upto 176).find? (fun i => !allZero (slice crosstalk0 (ringRecord i + 2) 2) || !allZero (slice crosstalk0 (ringRecord i + 68) 4)) = none :=
  xt_find _ fun i hi => by
    simp only [ringRecord, xt_slice i 2 2 hi (by decide), xt_slice i 68 4 hi (by decide)]
    decide +kernel
theorem xt_f2 : (upto 176).find? (fun i => decide (fld crosstalk0 (ringRecord i) 2 = 0)) = none :=
  xt_find _ fun i hi => by
    have := xt_slice i 0 2 hi (by decide)
    rw [Nat.add_zero] at this
    simp only [ringRecord, fld, this]
    decide +kernel
theorem xt_f3 : (upto 176).find? (fun i => (decide (i / 11 = 0) && !allZero (slice crosstalk0 (ringRecord i + 24) 22)) || (decide (i / 11 = 15) && !allZero (slice crosstalk0 (ringRecord i + 46) 22))) = none :=
  xt_find _ fun i hi => by
    simp only [ringRecord, xt_slice i 24 22 hi (by decide), xt_slice i 46 22 hi (by decide), show allZero (slice xtRecord 24 22) = true by decide +kernel, show allZero (slice xtRecord 46 22) = true by decide +kernel, Bool.not_true, Bool.and_false, Bool.or_self]
theorem xt_f4 : (upto 176).find? (fun i => decide (32768 < sumN ((upto 32).map (fun k => fld crosstalk0 (ringRecord i + 4 + 2 * k) 2)))) = none :=
  xt_find _ fun i hi => by
    have : (upto 32).map (fun k => fld crosstalk0 (ringRecord i + 4 + 2 * k) 2) = (upto 32).map (fun k => fld xtRecord (4 + 2 * k) 2) := by
      refine List.map_congr_left fun k hk => ?_
      have := List.mem_range.1 hk
      simp only [ringRecord, fld]
      rw [Nat.add_assoc, xt_slice i _ 2 hi (by omega)]
    simp only [this]
    decide +kernel
theorem xt_fld (o n : Nat) (h : o + n ≤ 16) : fld crosstalk0 o n = fld (xtHead ++ le 4 86404844) o n := by
  unfold fld; rw [xt_head o n h]
theorem xt_c2 : (fld crosstalk0 0 2 != 0x4B58 || fld crosstalk0 2 1 != 1 || fld crosstalk0 3 1 != 0 || fld crosstalk0 12 4 != crc32 (patch crosstalk0 12 (zeros 4))) = false := by
  rw [xt_crc, xt_fld 0 2 (by decide), xt_fld 2 1 (by decide), xt_fld 3 1 (by decide), xt_fld 12 4 (by decide)]
  decide +kernel
theorem xt_c3 : (!allZero (slice crosstalk0 4 8)) = false := by
  rw [xt_head 4 8 (by decide)]
  decide +kernel
theorem xt_check_of (b : Bytes) (hl : b.length = 12688) (c2 : (fld b 0 2 != 0x4B58 || fld b 2 1 != 1 || fld b 3 1 != 0 || fld b 12 4 != crc32 (patch b 12 (zeros 4))) = false) (c3 : (!allZero (slice b 4 8)) = false) (f1 : (upto 176).find? (fun i => !allZero (slice b (ringRecord i + 2) 2) || !allZero (slice b (ringRecord i + 68) 4)) = none) (f2 : (upto 176).find? (fun i => decide (fld b (ringRecord i) 2 = 0)) = none) (f3 : (upto 176).find? (fun i => (decide (i / 11 = 0) && !allZero (slice b (ringRecord i + 24) 22)) || (decide (i / 11 = 15) && !allZero (slice b (ringRecord i + 46) 22))) = none) (f4 : (upto 176).find? (fun i => decide (32768 < sumN ((upto 32).map (fun k => fld b (ringRecord i + 4 + 2 * k) 2)))) = none) : (crosstalkCheck 0 b).1 = 0 := by
  unfold crosstalkCheck
  simp only [hl, c2, c3, f1, f2, f3, f4, bne_self_eq_false, Bool.false_eq_true, ↓reduceIte]
theorem xt_check : (crosstalkCheck 0 crosstalk0).1 = 0 := xt_check_of _ xt_len xt_c2 xt_c3 xt_f1 xt_f2 xt_f3 xt_f4
/-- A device in MAINTENANCE with pod 0 in service. -/
def inPod : Dev := { inDir .maintenance with rings := { up.rings with pods := [(0, { state := .inService })] } }
theorem xt_takes_of (b : Bytes) (hl : b.length = 12688) (hx : (crosstalkCheck 0 b).1 = 0) : (st inPod).Takes 0 0x3C00 1 b := by
  have hs : subSize 0x3C00 1 = none := by decide +kernel
  have hm : domainLimit 0x3C00 1 = 2 ^ 21 := by decide +kernel
  refine ⟨by delta State.Ready State.Idle; decide +kernel, ⟨by simp [splitValues, hs, hm, hl, sumN], ?_, by simp [Dev.refusesResponse], ?_⟩, by simp [Dev.awaitsValidation]⟩
  · have e1 : subExists 0x3C00 1 = true := by decide +kernel
    have e2 : mayWrite (((st inPod).asked 0).roleBit 0) 0x3C00 1 = true := by decide +kernel
    have e3 : ((st inPod).asked 0).inScope 0 0x3C00 = true := by decide +kernel
    have e4 : indexExists 0x3C00 = true := by decide +kernel
    simp [Dev.refusesWrite, e1, e2, e3, e4]
  · generalize ((st inPod).asked 0).withValues 0x3C00 [(1, b)] = w
    have h1 : indexExists 0x3C00 = true := by decide +kernel
    have h2 : subExists 0x3C00 1 = true := by decide +kernel
    have h3 : ∃ r, objRow 0x3C00 1 = some r ∧ (r.access == .ro) = false ∧ (r.type == .bool) = false ∧ r.range = none ∧ r.mult = 1 := by decide +kernel
    obtain ⟨r, h3, h4, h5, h6, h7⟩ := h3
    have e6 : ((st inPod).asked 0).followsDrive = false := by decide +kernel
    have e7 : ((st inPod).asked 0).inState [.maintenance] = true := by decide +kernel
    simp [Dev.checkSub, h1, h2, h3, h4, h5, h6, h7, e6, e7, Dev.rangeFault, Dev.stateFault, Dev.specialRange, Dev.stateFaultA, Dev.stateFaultB, Dev.stateFaultC, Dev.ownFault, hx]
theorem xt_takes : (st inPod).Takes 0 (0x3C00 + (0 : Fin 64).val) 1 crosstalk0 := xt_takes_of _ xt_len xt_check
/-- A device that knows pod 0 by its serial and holds its matrix. -/
def stored : Dev :=
  { up with
    ob := [(objKey 0x3C00 1, crosstalk0)]
    rings := { up.rings with pods := [(0, { state := .absent, serial := [65] })], links := [(0, { lat := [(0, 5)] })] } }
/-- The store of that pod. -/
def store0 : PodStore :=
  { serial := [65], matrix := [], tempCoef := [], drop := [], through := [], shutter := [], flipOffset := 0, crcOk := true }

/-- States and operands that meet the conditions of each clause of PowerStarts. -/
theorem witness_PowerStarts :
  (∃ (s : State) (straps : Fin 128) (ref : Fin 3), (s.dev.down = true)) ∧
  (∃ (s : State), (s.dev.module.main = false)) ∧
  (∃ (s : State) (core ctrl : Bool), (core = true ∨ ctrl = true)) ∧
  (∃ (s : State), (s.dev.isOn 3 = true) ∧ (s.dev.module.timeRef ≠ 2)) ∧
  (∃ (s : State), (s.dev.module.mainLostAt ≠ none)) := ⟨
  ⟨State.reset, 0, 0, by decide +kernel⟩,
  ⟨State.reset, by decide +kernel⟩,
  ⟨st up, true, false, by decide +kernel⟩,
  ⟨st up, by decide +kernel⟩,
  ⟨st { up with module := { up.module with mainLostAt := some 0 } }, by decide +kernel⟩⟩

/-- States and operands that meet the conditions of each clause of PowerPermits. -/
theorem witness_PowerPermits :
  (∃ (s : State), (s.dev.domain 1 = .ramping) ∧ (s.dev.net.mailbox = []) ∧ (s.dev.dir.state ≠ .selftest)) ∧
  (∃ (s : State) (k : Nat) (rest : List Nat) (x y : Fin 20) (words : Nat), (s.dev.power.toOff = k :: rest) ∧ (s.dev.domain k = .quiescing) ∧ (s.dev.module.quiescing = [x.val, y.val]) ∧ (x ≠ y) ∧ (s.dev.net.mailbox = [])) ∧
  (∃ (s : State) (cls : Fin 7) (prio : Prio) (amount holder : Nat), (cls.val ≠ 0) ∧ (cls.val ≠ 6) ∧ (s.dev.net.mailbox = []) ∧ (∀ k, s.dev.domain k ≠ .ramping) ∧ (prio ≠ .fault) ∧ (s.dev.permitDenied cls prio amount holder = false) ∧ (s.dev.permitFits { cls := cls, amount := amount, prio := prio, holder := holder, till := 0, order := s.dev.power.nextOrder } = true)) ∧
  (∃ (s : State) (holder : Nat) (g : Permit), (s.dev.grantOf 3 holder = some g) ∧ (s.dev.permitOk 3 g.prio holder = true)) := ⟨
  ⟨st (domainAt 1 .ramping), by decide +kernel⟩,
  ⟨st { domainAt 9 .quiescing with power := { (domainAt 9 .quiescing).power with toOff := [9] }, module := { up.module with quiescing := [0, 1] } }, 9, [], 0, 1, 0, by decide +kernel⟩,
  ⟨st { inDir .armed with power := { up.power with domains := [(1, .on)] } }, 1, .normal, 1, 0, ⟨by decide, by decide, rfl, fun k => by simp only [st, inDir, up, Dev.domain, tget]; (repeat' split) <;> simp, by decide, by decide +kernel, by decide +kernel⟩⟩,
  ⟨st { up with power := { up.power with grants := [{ cls := 3, amount := 1, prio := .normal, holder := 0 }] } }, 0, { cls := 3, amount := 1, prio := .normal, holder := 0 }, by decide +kernel⟩⟩

/-- States and operands that meet the conditions of each clause of PowerHeat. -/
theorem witness_PowerHeat :
  (∃ (s : State) (holder : Nat) (g : Permit), (s.dev.grantOf 3 holder = some g) ∧ (s.dev.net.mailbox = [])) ∧
  (∃ (s : State) (mw : Nat), (s.dev.power.overLimit = false) ∧ (s.dev.net.mailbox = [])) ∧
  (∃ (s : State) (temps : List Int), (s.dev.isOn 0 = true)) ∧
  (∃ (s : State) (temps : List Int), (s.dev.isOn 0 = true) ∧ (s.dev.power.level = .normal) ∧ ((hottest temps).2 < 950) ∧ (s.dev.power.startHeld = false) ∧ (s.dev.net.mailbox = [])) ∧
  (∃ (s : State) (a : Nat), (s.dev.power.shutAt = some a) ∧ (s.dev.inState [.boot] = false)) ∧
  (∃ (s : State) (a : Nat) (m : Mach), (s.dev.power.shutAt = some a) ∧ (s.dev.inState [.boot] = true) ∧ (m = domainsDown (s.dev.settleLogs, s.hbm) [11, 10, 9, 14, 13, 12, 7, 6, 5, 4])) ∧
  (∃ (s : State) (a : Nat), (s.dev.isOn 1 = false) ∧ (s.dev.isOn 15 = true) ∧ (s.dev.power.flashGate = false) ∧ (s.dev.power.shutAt = some a)) ∧
  (∃ (s : State) (straps : Fin 128) (ref : Fin 3) (a : Nat), (s.dev.power.coolSince = some a) ∧ (s.dev.power.shutDone = true) ∧ (s.dev.power.tripLatched = false) ∧ (s.dev.committedNum 0x2130 7 ≠ 0) ∧ (s.dev.down = true)) := ⟨
  ⟨st { up with power := { up.power with grants := [{ cls := 3, amount := 1, prio := .normal, holder := 0 }] } }, 0, { cls := 3, amount := 1, prio := .normal, holder := 0 }, by decide +kernel⟩,
  ⟨st up, 300000, by decide +kernel⟩,
  ⟨st up, [250], by decide +kernel⟩,
  ⟨st up, [250], by decide +kernel⟩,
  ⟨st { up with power := { up.power with shutAt := some 0 } }, 0, by decide +kernel⟩,
  ⟨st { inDir .boot with power := { up.power with shutAt := some 0 } }, 0, domainsDown (({ inDir .boot with power := { up.power with shutAt := some 0 } } : Dev).settleLogs, State.reset.hbm) [11, 10, 9, 14, 13, 12, 7, 6, 5, 4], ⟨rfl, by decide, rfl⟩⟩,
  ⟨st { up with power := { (domainAt 1 .off).power with shutAt := some 0, flashGate := false } }, 0, by decide +kernel⟩,
  ⟨st { State.reset.dev with power := { State.reset.dev.power with coolSince := some 0, shutDone := true } }, 0, 0, 0, by decide +kernel⟩⟩

/-- States and operands that meet the conditions of each clause of DirectorCommands. -/
theorem witness_DirectorCommands :
  (∃ (s : State) (src : CmdSrc), (s.Obeys src .arm)) ∧
  (∃ (s : State) (src : CmdSrc), (s.Obeys src .serve)) ∧
  (∃ (s : State) (src : CmdSrc), (s.Obeys src .hold)) ∧
  (∃ (s : State) (src : CmdSrc), (s.Obeys src .resume)) ∧
  (∃ (s : State) (src : CmdSrc), (s.Obeys src .disarm)) ∧
  (∃ (s : State) (src : CmdSrc), (s.Obeys src .enterMaint)) ∧
  (∃ (s : State) (src : CmdSrc), (s.Obeys src .exitMaint)) ∧
  (∃ (s : State) (src : CmdSrc), (s.Obeys src .enterReplay) ∧ (s.dev.recr.state ≠ .running)) ∧
  (∃ (s : State) (src : CmdSrc) (d : Dev), (s.Obeys src .exitReplay) ∧ (d = ((s.ordered src .exitReplay).setState .standby .command).dropCapture.tryRing.announce) ∧ (d.joined = false)) ∧
  (∃ (s : State) (src : CmdSrc) (d : Dev), (s.Obeys src .exitReplay) ∧ (d = ((s.ordered src .exitReplay).setState .standby .command).dropCapture.tryRing.announce) ∧ (d.joined = true)) ∧
  (∃ (s : State) (src : CmdSrc), (s.Obeys src .warmRestart)) ∧
  (∃ (s : State), (s.dev.dir.lastFaultAck = false)) ∧
  (∃ (s : State) (word : Fin 65536), (wordUnlisted word = true) ∧ (s.dev.dir.inProgress = none) ∧ (word.val.testBit 15 = !s.dev.dir.cmdAck)) ∧
  (∃ (s : State), (s.dev.dir.inProgress = some .enterMaint) ∧ (s.dev.faults.current = none) ∧ (s.dev.dir.latchedMaintainer = true) ∧ (s.dev.inState [.standby, .hold] = true) ∧ (s.dev.cmdGuard .enterMaint = true)) ∧
  (∃ (s : State) (region : Fin 2) (manifest : Bytes), (s.dev.dir.state = .boot) ∧ (s.dev.isOn 1 = true) ∧ (s.dev.upd.verified = false) ∧ (s.dev.power.shutAt = none)) ∧
  (∃ (s : State) (bad : List (Nat × Nat)), (s.dev.dir.state = .selftest) ∧ ((s.dev.failedCheckers bad).any checkerFatal = false) ∧ (s.dev.power.tripLatched = false)) := ⟨
  ⟨st { inDir .standby with disc := { up.disc with confirmed := true }, time := { up.time with state := .locked, inForce := { up.time.inForce with seq := 1 } }, jobs := [(0, { state := .loaded })] }, .processData, by delta State.Obeys; decide +kernel⟩,
  ⟨st (inDir .armed), .processData, by delta State.Obeys; decide +kernel⟩,
  ⟨st (inDir .serving), .processData, by delta State.Obeys; decide +kernel⟩,
  ⟨st { inDir .hold with disc := { up.disc with confirmed := true }, time := { up.time with state := .locked } }, .processData, by delta State.Obeys; decide +kernel⟩,
  ⟨st (inDir .armed), .processData, by delta State.Obeys; decide +kernel⟩,
  ⟨st (inDir .standby), .sdo 0, ⟨by show State.Takes _ _ _ _ _; delta State.Takes State.Ready State.Idle Dev.Accepts; decide +kernel, by decide +kernel⟩⟩,
  ⟨st (inDir .maintenance), .sdo 0, ⟨by show State.Takes _ _ _ _ _; delta State.Takes State.Ready State.Idle Dev.Accepts; decide +kernel, by decide +kernel⟩⟩,
  ⟨st { inDir .standby with twin := { up.twin with ownDrive := false, ownColl := false } }, .sdo 0, ⟨⟨by show State.Takes _ _ _ _ _; delta State.Takes State.Ready State.Idle Dev.Accepts; decide +kernel, by decide +kernel⟩, by decide +kernel⟩⟩,
  ⟨st (inDir .replay), .sdo 0, ((((st (inDir .replay)).ordered (.sdo 0) .exitReplay).setState .standby .command).dropCapture.tryRing.announce), ⟨⟨by show State.Takes _ _ _ _ _; delta State.Takes State.Ready State.Idle Dev.Accepts; decide +kernel, by decide +kernel⟩, rfl, by decide +kernel⟩⟩,
  ⟨st { joined with dir := { joined.dir with state := .replay } }, .sdo 0, ((((st { joined with dir := { joined.dir with state := .replay } }).ordered (.sdo 0) .exitReplay).setState .standby .command).dropCapture.tryRing.announce), ⟨⟨by show State.Takes _ _ _ _ _; delta State.Takes State.Ready State.Idle Dev.Accepts; decide +kernel, by decide +kernel⟩, rfl, by decide +kernel⟩⟩,
  ⟨st (inDir .fault), .sdo 0, ⟨by show State.Takes _ _ _ _ _; delta State.Takes State.Ready State.Idle Dev.Accepts; decide +kernel, by decide +kernel⟩⟩,
  ⟨st up, by decide +kernel⟩,
  ⟨st up, 0xFFFF, by decide +kernel⟩,
  ⟨st { up with dir := { up.dir with inProgress := some .enterMaint, latchedMaintainer := true } }, by decide +kernel⟩,
  ⟨st { inDir .boot with upd := { up.upd with verified := false } }, 0, [], by decide +kernel⟩,
  ⟨st (inDir .selftest), [], by decide +kernel⟩⟩

/-- States and operands that meet the conditions of each clause of JobRequests. -/
theorem witness_JobRequests :
  (∃ (s : State) (c : Client) (j : Fin 16), (s.Takes c (0x2080 + j.val) 2 [2])) ∧
  (∃ (s : State) (c : Client) (j : Fin 16), (s.Takes c (0x2080 + j.val) 2 [3])) ∧
  (∃ (s : State) (c : Client) (slot : Fin 1024) (data : Bytes), (s.Takes c (0x4400 + slot.val) 1 data)) ∧
  (∃ (s : State) (c : Client) (j : Fin 16) (data : Bytes), (s.Takes c (0x4800 + j.val) 3 data)) ∧
  (∃ (s : State) (c : Client) (data : Bytes), (s.Takes c 0x2301 2 data)) ∧
  (∃ (s : State) (c : Client) (j : Fin 16) (data : Bytes), (s.Takes c (0x2320 + j.val) 2 data)) ∧
  (∃ (s : State) (c : Client) (j : Fin 16) (data : Bytes), (s.Takes c (0x2320 + j.val) 3 data) ∧ (fld data 0 1 ≠ 0)) := ⟨
  ⟨st (withJob { state := .running }), 0, 0, by delta State.Takes; delta State.Ready; delta Dev.Accepts; delta State.Idle; decide +kernel⟩,
  ⟨st (withJob { state := .stopped }), 0, 0, by delta State.Takes; delta State.Ready; delta Dev.Accepts; delta State.Idle; decide +kernel⟩,
  ⟨st up, 0, 0, [], by delta State.Takes; delta State.Ready; delta Dev.Accepts; delta State.Idle; decide +kernel⟩,
  ⟨st (withJob { state := .defined }), 0, 0, List.replicate 64 255, by delta State.Takes; delta State.Ready; delta Dev.Accepts; delta State.Idle; decide +kernel⟩,
  ⟨st { up with faults := { up.faults with latched := [{ seq := 1, code := 0x0201, cls := 1, active := false, scope := 3, index := 0 }] } }, 0, le 8 1, by delta State.Takes; delta State.Ready; delta Dev.Accepts; delta State.Idle; decide +kernel⟩,
  ⟨st (withJob { state := .running }), 0, 0, [0], by delta State.Takes; delta State.Ready; delta Dev.Accepts; delta State.Idle; decide +kernel⟩,
  ⟨st (withJob { state := .restarting }), 0, 0, [255] ++ zeros 23, by delta State.Takes; delta State.Ready; delta Dev.Accepts; delta State.Idle; decide +kernel⟩⟩

/-- States and operands that meet the conditions of each clause of FabricRequests. -/
theorem witness_FabricRequests :
  (∃ (s : State) (c : Client) (d : Fin 2) (data : Bytes), (s.Takes c (0x2210 + d.val) 13 data)) ∧
  (∃ (s : State) (c : Client) (data : Bytes), (s.Takes c 0x2230 1 data)) ∧
  (∃ (s : State) (c : Client) (data : Bytes), (s.Takes c 0x2230 2 data)) ∧
  (∃ (s : State) (c : Client) (h : Fin 2048) (data : Bytes), (s.Takes c (0x3000 + h.val) 27 data) ∧ (unle data ≠ 0)) ∧
  (∃ (s : State) (c : Client) (h : Fin 2048) (data : Bytes), (s.Takes c (0x3000 + h.val) 28 data)) ∧
  (∃ (s : State) (c : Client) (b : Fin 16), (s.Takes c (0x3D00 + b.val) 2 [1])) ∧
  (∃ (s : State) (c : Client) (b : Fin 16), (s.Takes c (0x3D00 + b.val) 2 [2]) ∧ (((s.taken c (0x3D00 + b.val) 2).board b).state = .drained)) ∧
  (∃ (s : State) (c : Client) (q : Fin 64) (data : Bytes), (s.Takes c (0x3C00 + q.val) 1 data)) ∧
  (∃ (s : State) (c : Client) (p : Fin 1024) (data : Bytes), (s.Takes c (0x3800 + p.val) 15 data)) ∧
  (∃ (s : State) (c : Client) (sel : Fin 4), (s.Takes c (0x2A01 + sel.val) 2 [1])) ∧
  (∃ (s : State) (c : Client) (sel : Fin 4), (s.Takes c (0x2A01 + sel.val) 2 [2])) ∧
  (∃ (s : State) (c : Client) (p : Fin 1024) (data : Bytes), (s.Takes c (0x4000 + p.val) 22 data)) := ⟨
  ⟨st up, 0, 0, [1], by delta State.Takes; delta State.Ready; delta Dev.Accepts; delta State.Idle; decide +kernel⟩,
  ⟨st { up with time := { up.time with isRoot := true, counter := 10 * Config.sec * 2 ^ 32 } }, 0, le 8 0, by delta State.Takes; delta State.Ready; delta Dev.Accepts; delta State.Idle; decide +kernel⟩,
  ⟨st { up with time := { up.time with isRoot := true, counter := 10 * Config.sec * 2 ^ 32 } }, 0, le 4 1000000, by delta State.Takes; delta State.Ready; delta Dev.Accepts; delta State.Idle; decide +kernel⟩,
  ⟨st { inDir .maintenance with eng := { up.eng with axes := [(0, { state := .holdClosed }), (1, { state := .holdClosed })] } }, 0, 0, [1], by delta State.Takes; delta State.Ready; delta Dev.Accepts; delta State.Idle; decide +kernel⟩,
  ⟨st { inDir .maintenance with eng := { up.eng with axes := [(0, { state := .holdClosed }), (1, { state := .holdClosed })] } }, 0, 0, [1], by delta State.Takes; delta State.Ready; delta Dev.Accepts; delta State.Idle; decide +kernel⟩,
  ⟨st { inDir .maintenance with eng := { up.eng with boards := [(0, { state := .inService })] } }, 0, 0, by delta State.Takes; delta State.Ready; delta Dev.Accepts; delta State.Idle; decide +kernel⟩,
  ⟨st { inDir .maintenance with eng := { up.eng with boards := [(0, { state := .drained, discovered := true })] } }, 0, 0, by delta State.Takes; delta State.Ready; delta Dev.Accepts; delta State.Idle; decide +kernel⟩,
  ⟨st inPod, 0, 0, crosstalk0, xt_takes⟩,
  ⟨st { inDir .maintenance with rings := { up.rings with pods := [(0, { state := .inService })] } }, 0, 0, [1], by delta State.Takes; delta State.Ready; delta Dev.Accepts; delta State.Idle; decide +kernel⟩,
  ⟨st { inDir .maintenance with opt := { up.opt with lasers := [(0, { state := .present, present := true, good := true })] } }, 0, 0, by delta State.Takes; delta State.Ready; delta Dev.Accepts; delta State.Idle; decide +kernel⟩,
  ⟨st { inDir .maintenance with opt := { up.opt with lasers := [(0, { state := .lit, present := true, good := true })] } }, 0, 0, by delta State.Takes; delta State.Ready; delta Dev.Accepts; delta State.Idle; decide +kernel⟩,
  ⟨st up, 0, 0, [1], by delta State.Takes; delta State.Ready; delta Dev.Accepts; delta State.Idle; decide +kernel⟩⟩

/-- States and operands that meet the conditions of each clause of CollectiveRequests. -/
theorem witness_CollectiveRequests :
  (∃ (s : State) (c : Client) (j : Fin 16) (data : Bytes), (s.Takes c (0x2910 + j.val) 1 data)) ∧
  (∃ (s : State) (c : Client) (j : Fin 16), (s.Takes c (0x2910 + j.val) 4 [1])) ∧
  (∃ (s : State) (c : Client) (j : Fin 16), (s.Takes c (0x2910 + j.val) 4 [2])) ∧
  (∃ (s : State) (c : Client) (j : Fin 16), (s.Takes c (0x2910 + j.val) 4 [3])) ∧
  (∃ (s : State) (c : Client) (data : Bytes), (s.Takes c 0x2940 1 data)) ∧
  (∃ (s : State) (c : Client) (slot : Fin 256), (s.Takes c 0x2940 3 (le 2 (slot.val + 256)))) ∧
  (∃ (s : State) (c : Client) (slot : Fin 256), (s.Takes c 0x2940 3 (le 2 (slot.val + 512)))) ∧
  (∃ (s : State) (c : Client) (slot : Fin 256), (s.Takes c 0x2940 3 (le 2 (slot.val + 768)))) ∧
  (∃ (s : State) (c : Client) (data : Bytes), (s.Takes c 0x2840 1 data)) := ⟨
  ⟨st (withColl { state := .none }), 0, 0, [], by delta State.Takes; delta State.Ready; delta Dev.Accepts; delta State.Idle; decide +kernel⟩,
  ⟨st (withColl { state := .ready }), 0, 0, by delta State.Takes; delta State.Ready; delta Dev.Accepts; delta State.Idle; decide +kernel⟩,
  ⟨st (withColl { state := .loading }), 0, 0, by delta State.Takes; delta State.Ready; delta Dev.Accepts; delta State.Idle; decide +kernel⟩,
  ⟨st { withColl { state := .planned } with ob := [(objKey 0x2910 1, [1])] }, 0, 0, by delta State.Takes; delta State.Ready; delta Dev.Accepts; delta State.Idle; decide +kernel⟩,
  ⟨st up, 0, zeros 2048, by delta State.Takes; delta State.Ready; delta Dev.Accepts; delta State.Idle; decide +kernel⟩,
  ⟨st { up with coll := { up.coll with state := .ready, models := [(0, { id := 1, len := 64 })] } }, 0, 0, by delta State.Takes; delta State.Ready; delta Dev.Accepts; delta State.Idle; decide +kernel⟩,
  ⟨st { up with coll := { up.coll with state := .ready, models := [(0, { id := 1, len := 64, source := 5 })] } }, 0, 0, by delta State.Takes; delta State.Ready; delta Dev.Accepts; delta State.Idle; decide +kernel⟩,
  ⟨st { up with coll := { up.coll with state := .ready, models := [(0, { id := 1, len := 64, state := .valid })] } }, 0, 0, by delta State.Takes; delta State.Ready; delta Dev.Accepts; delta State.Idle; decide +kernel⟩,
  ⟨st { inDir .maintenance with mem := { up.mem with stackOf := [(0, .ready)] } }, 0, zeros 8, by delta State.Takes; delta State.Ready; delta Dev.Accepts; delta State.Idle; decide +kernel⟩⟩

/-- States and operands that meet the conditions of each clause of ModuleRequests. -/
theorem witness_ModuleRequests :
  (∃ (s : State) (c : Client), (s.Takes c 0x2510 3 [1])) ∧
  (∃ (s : State) (c : Client), (s.Takes c 0x2510 3 [2]) ∧ ((handColl (s.taken c 0x2510 3, s.hbm)).1.net.mailbox = []) ∧ ((handColl (s.taken c 0x2510 3, s.hbm)).1.net.waiting = none)) ∧
  (∃ (s : State) (c : Client), (s.Takes c 0x2510 3 [3])) ∧
  (∃ (s : State) (c : Client) (j : Fin 16) (data : Bytes), (s.Takes c (0x2530 + j.val) 6 data)) ∧
  (∃ (s : State) (c : Client) (q : Fin 64) (data : Bytes), (s.Takes c (0x3C00 + q.val) 5 data)) ∧
  (∃ (s : State) (c : Client) (data : Bytes), (s.Takes c 0x2120 7 data)) ∧
  (∃ (s : State) (c : Client), (s.Takes c 0x2400 2 [1])) ∧
  (∃ (s : State) (c : Client), (s.Takes c 0x2400 2 [2])) ∧
  (∃ (s : State) (c : Client), (s.Takes c 0x2402 0 [2])) := ⟨
  ⟨st joined, 0, by delta State.Takes; delta State.Ready; delta Dev.Accepts; delta State.Idle; decide +kernel⟩,
  ⟨st { up with twin := { up.twin with twinColl := .standby } }, 0, by delta State.Takes; delta State.Ready; delta Dev.Accepts; delta State.Idle; decide +kernel⟩,
  ⟨st { up with twin := { up.twin with handover := 1, handoverCycle := 9 } }, 0, by delta State.Takes; delta State.Ready; delta Dev.Accepts; delta State.Idle; decide +kernel⟩,
  ⟨st { withJob { state := .restarting } with twin := { up.twin with mirrors := [(0, { own := true, bank0 := (1, 0, 0) })] } }, 0, 0, le 8 1, by delta State.Takes; delta State.Ready; delta Dev.Accepts; delta State.Idle; decide +kernel⟩,
  ⟨st up, 0, 0, le 4 1000, by delta State.Takes; delta State.Ready; delta Dev.Accepts; delta State.Idle; decide +kernel⟩,
  ⟨st up, 0, le 4 300000, by delta State.Takes; delta State.Ready; delta Dev.Accepts; delta State.Idle; decide +kernel⟩,
  ⟨st { up with upd := { up.upd with state := .staged } }, 0, by delta State.Takes; delta State.Ready; delta Dev.Accepts; delta State.Idle; decide +kernel⟩,
  ⟨st { up with upd := { up.upd with state := .staged } }, 0, by delta State.Takes; delta State.Ready; delta Dev.Accepts; delta State.Idle; decide +kernel⟩,
  ⟨st { up with upd := { up.upd with state := .trial } }, 0, by delta State.Takes; delta State.Ready; delta Dev.Accepts; delta State.Idle; decide +kernel⟩⟩

/-- States and operands that meet the conditions of each clause of RecorderCommands. -/
theorem witness_RecorderCommands :
  (∃ (s : State) (c : Client) (data : Bytes), (s.Takes c 0x2700 2 data)) ∧
  (∃ (s : State) (c : Client), (s.Takes c 0x2700 3 [1])) ∧
  (∃ (s : State) (c : Client), (s.Takes c 0x2700 3 [2])) ∧
  (∃ (s : State) (c : Client), (s.Takes c 0x2700 3 [3])) ∧
  (∃ (s : State) (c : Client), (s.Takes c 0x2710 2 [1])) ∧
  (∃ (s : State) (c : Client), (s.Takes c 0x2710 2 [2]) ∧ ((s.taken c 0x2710 2).replayRun.2 = true)) ∧
  (∃ (s : State) (c : Client), (s.Takes c 0x2710 2 [3])) ∧
  (∃ (s : State) (c : Client), (s.Takes c 0x2710 2 [4])) ∧
  (∃ (s : State) (c : Client) (data : Bytes), (s.Takes c 0x2020 4 data)) ∧
  (∃ (s : State) (c : Client) (role : Fin 4) (data : Bytes), (s.Takes c 0x2022 (role.val + 1) data)) ∧
  (∃ (s : State) (x : Nat × Nat × Nat × Nat), (s.dev.recr.trigger = some x)) ∧
  (∃ (s : State) (c : Client), (s.Ready) ∧ ((s.asked c).roleBit c = 2 ∨ (s.asked c).roleBit c = 4) ∧ (s.dev.recr.state = .frozen)) ∧
  (∃ (s : State) (c : Client) (data : Bytes), (s.Ready) ∧ ((s.asked c).isMaintainer c = true) ∧ (s.dev.inState [.replay] = true) ∧ (s.dev.recr.state ≠ .frozen) ∧ (data.length ≤ s.dev.nat 0x2701 2)) ∧
  (∃ (s : State) (offset total flags : Nat) (data : Bytes), (s.dev.joined = true) ∧ (s.dev.inState [.replay] = true) ∧ (s.dev.recr.replay = 1) ∧ (total ≤ s.dev.nat 0x2701 2) ∧ (offset = s.dev.recr.stream.length) ∧ (flags = 0)) := ⟨
  ⟨st up, 0, [1], by delta State.Takes; delta State.Ready; delta Dev.Accepts; delta State.Idle; decide +kernel⟩,
  ⟨st { up with recr := { up.recr with state := .running } }, 0, by delta State.Takes; delta State.Ready; delta Dev.Accepts; delta State.Idle; decide +kernel⟩,
  ⟨st { up with recr := { up.recr with state := .post } }, 0, by delta State.Takes; delta State.Ready; delta Dev.Accepts; delta State.Idle; decide +kernel⟩,
  ⟨st { up with recr := { up.recr with state := .frozen } }, 0, by delta State.Takes; delta State.Ready; delta Dev.Accepts; delta State.Idle; decide +kernel⟩,
  ⟨st { joined with dir := { up.dir with state := .replay } }, 0, by delta State.Takes; delta State.Ready; delta Dev.Accepts; delta State.Idle; decide +kernel⟩,
  ⟨st { inDir .replay with recr := { up.recr with replay := 2, loadedImage := zeros 48, loaded := [{ type := 2, flags := 0, cycle := 0, timeNs := 0, timeFrac := 0, slices := 0, seq := 0, body := sha384 [] ++ zeros 32 }] } }, 0, by delta State.Takes; delta State.Ready; delta Dev.Accepts; delta State.Idle; decide +kernel⟩,
  ⟨st { inDir .replay with recr := { up.recr with replay := 3 } }, 0, by delta State.Takes; delta State.Ready; delta Dev.Accepts; delta State.Idle; decide +kernel⟩,
  ⟨st (inDir .replay), 0, by delta State.Takes; delta State.Ready; delta Dev.Accepts; delta State.Idle; decide +kernel⟩,
  ⟨st up, 0, [1], by delta State.Takes; delta State.Ready; delta Dev.Accepts; delta State.Idle; decide +kernel⟩,
  ⟨st up, 0, 0, zeros 32, by delta State.Takes; delta State.Ready; delta Dev.Accepts; delta State.Idle; decide +kernel⟩,
  ⟨st { up with recr := { up.recr with state := .post, trigger := some (0, 1, 2, 3) } }, (0, 1, 2, 3), by decide +kernel⟩,
  ⟨st { up with recr := { up.recr with state := .frozen } }, 0, by delta State.Ready; delta State.Idle; decide +kernel⟩,
  ⟨st (inDir .replay), 0, [], by delta State.Ready; delta State.Idle; decide +kernel⟩,
  ⟨st { joined with dir := { up.dir with state := .replay }, recr := { up.recr with replay := 1 } }, 0, 0, 0, [], by decide +kernel⟩⟩

/-- States and operands that meet the conditions of each clause of MailboxRequests. -/
theorem witness_MailboxRequests :
  (∃ (s : State) (c : Client) (d rsvd : Fin 16), (s.Takes c 0x2100 0x11 (le 2 (d.val + 16 * rsvd.val + 256))) ∧ (((s.taken c 0x2100 0x11).beginOn d).nat 0x2100 0x12 = 1)) ∧
  (∃ (s : State) (c : Client) (d rsvd : Fin 16), (s.Takes c 0x2100 0x11 (le 2 (d.val + 16 * rsvd.val + 512))) ∧ ((beginOff (s.taken c 0x2100 0x11, s.hbm) d).1.domain d = .quiescing)) ∧
  (∃ (s : State) (c : Client) (j : Fin 16), (s.Ready) ∧ ((s.asked c).Accepts false c (0x2080 + j.val) 2 [1])) ∧
  (∃ (s : State) (c : Client) (j : Fin 16), (s.Validates c (0x2080 + j.val) 2 [1])) ∧
  (∃ (s : State) (c : Client) (j : Fin 16) (data : Bytes), (s.Takes c (0x2080 + j.val) 4 data) ∧ (((s.taken c (0x2080 + j.val) 4).almanac j).isEmpty = true)) ∧
  (∃ (s : State) (c : Client) (j : Fin 16), (s.Takes c (0x4800 + j.val) 1 [])) ∧
  (∃ (s : State) (c : Client) (d : Dev), (s.Ready) ∧ ((s.asked c).refusesRead c 0x2020 2 = none) ∧ ((s.asked c).readStore (objKey 0x2020 2) = (d, false)) ∧ (d.net.mailbox = []) ∧ (d.net.waiting = none)) ∧
  (∃ (s : State) (c : Client) (data : Bytes), (s.Ready) ∧ (splitValues 0x2020 [3] data = some [(3, data)]) ∧ ((s.asked c).refusesWrite c 0x2020 3 true data = none) ∧ ((s.asked c).responseOk c data = true) ∧ ((s.asked c).checkSub ((s.asked c).withValues 0x2020 [(3, data)]) false false 0x2020 3 (some data) = none)) ∧
  (∃ (s : State) (c : Client) (x : Session) (d e : Dev), (s.Ready) ∧ ((s.asked c).refusesRead c 0x2330 2 = none) ∧ ((s.asked c).readStore (objKey 0x2330 2) = (d, false)) ∧ (d.readLogPages c 0x2330 [2] = (e, true)) ∧ (e.session c = some x) ∧ (e.net.mailbox = []) ∧ (e.net.waiting = none)) ∧
  (∃ (s : State) (c : Client) (d e : Dev), (s.Ready) ∧ ((s.asked c).refusesRead c 0x2330 2 = none) ∧ ((s.asked c).readStore (objKey 0x2330 2) = (d, false)) ∧ (d.readLogPages c 0x2330 [2] = (e, false)) ∧ (e.net.mailbox = []) ∧ (e.net.waiting = none)) ∧
  (∃ (s : State) (c : Client) (x : Session) (d e : Dev), (s.Ready) ∧ ((s.asked c).refusesRead c 0x2331 2 = none) ∧ ((s.asked c).readStore (objKey 0x2331 2) = (d, false)) ∧ (d.readLogPages c 0x2331 [2] = (e, true)) ∧ (e.session c = some x) ∧ (e.net.mailbox = []) ∧ (e.net.waiting = none)) ∧
  (∃ (s : State) (c : Client) (d e : Dev), (s.Ready) ∧ ((s.asked c).refusesRead c 0x2331 2 = none) ∧ ((s.asked c).readStore (objKey 0x2331 2) = (d, false)) ∧ (d.readLogPages c 0x2331 [2] = (e, false)) ∧ (e.net.mailbox = []) ∧ (e.net.waiting = none)) ∧
  (∃ (s : State) (c : Client) (sub : Nat) (data : Bytes), (s.Takes c 0x2310 sub data)) ∧
  (∃ (s : State) (c : Client) (index sub : Nat) (data : Bytes) (d : Dev) (h : Hbm) (a : Ans), (s.Takes c index sub data) ∧ (¬(index = 0x2020 ∧ sub = 3)) ∧ (¬(0x2080 ≤ index ∧ index < 0x2090 ∧ sub = 4)) ∧ (applySub (s.taken c index sub, s.hbm) c index sub data = ((d, h), a)) ∧ (a = .ok ∨ ∃ w, a = .wait w) ∧ (d.net.mailbox = []) ∧ (d.net.waiting = none)) ∧
  (∃ (s : State) (c : Client) (index sub total : Nat) (data : Bytes), (s.Ready) ∧ ((s.asked c).refusesWrite c index sub false [] = none) ∧ ((s.asked c).transferOf c = none) ∧ (total ≤ 2 ^ 21) ∧ (data.length ≤ total)) := ⟨
  ⟨st (domainAt 9 .off), 0, 9, 0, by delta State.Takes; delta State.Ready; delta Dev.Accepts; delta State.Idle; decide +kernel⟩,
  ⟨st up, 0, 14, 0, by delta State.Takes; delta State.Ready; delta Dev.Accepts; delta State.Idle; decide +kernel⟩,
  ⟨st ready, 0, 0, by delta State.Ready; delta Dev.Accepts; delta State.Idle; decide +kernel⟩,
  ⟨st validating, 0, 0, ⟨0, by decide +kernel⟩, by decide +kernel, by delta Dev.Accepts; decide +kernel⟩,
  ⟨st up, 0, 0, le 128 1, by delta State.Takes; delta State.Ready; delta Dev.Accepts; delta State.Idle; decide +kernel⟩,
  ⟨st up, 0, 0, by delta State.Takes; delta State.Ready; delta Dev.Accepts; delta State.Idle; decide +kernel⟩,
  ⟨st up, 0, _, by delta State.Ready; delta State.Idle; decide +kernel, by decide +kernel, (Prod.ext rfl (by decide +kernel)), by decide +kernel, by decide +kernel⟩,
  ⟨st challenged, 0, response0, by delta State.Ready; delta State.Idle; decide +kernel⟩,
  ⟨st up, 0, { client := 0, role := .maintainer, scope := 65535, timeout := 60, lastReq := 0 }, _, _, by delta State.Ready; delta State.Idle; decide +kernel, by decide +kernel, (Prod.ext rfl (by decide +kernel)), (Prod.ext rfl (by decide +kernel)), by decide +kernel, by decide +kernel, by decide +kernel⟩,
  ⟨st ({ up with faults := { up.faults with pub := { up.faults.pub with next := 2, flash := [{ seq := 1, time := 0, event := 0x0201, cls := 1, flags := 0, scope := 3, level := 0, index := 0, epoch := 0, count := 1, detail := [] }] } }, mem := { up.mem with flashFlaws := [(.log false 1, 41)] } }), 0, _, _, by delta State.Ready; delta State.Idle; decide +kernel, by decide +kernel, (Prod.ext rfl (by decide +kernel)), (Prod.ext rfl (by decide +kernel)), by decide +kernel, by decide +kernel⟩,
  ⟨st up, 0, { client := 0, role := .maintainer, scope := 65535, timeout := 60, lastReq := 0 }, _, _, by delta State.Ready; delta State.Idle; decide +kernel, by decide +kernel, (Prod.ext rfl (by decide +kernel)), (Prod.ext rfl (by decide +kernel)), by decide +kernel, by decide +kernel, by decide +kernel⟩,
  ⟨st ({ up with faults := { up.faults with prot := { up.faults.prot with next := 2, flash := [{ seq := 1, time := 0, event := 0x0201, cls := 1, flags := 0, scope := 3, level := 0, index := 0, epoch := 0, count := 1, detail := [] }] } }, mem := { up.mem with flashFlaws := [(.log true 1, 41)] } }), 0, _, _, by delta State.Ready; delta State.Idle; decide +kernel, by decide +kernel, (Prod.ext rfl (by decide +kernel)), (Prod.ext rfl (by decide +kernel)), by decide +kernel, by decide +kernel⟩,
  ⟨st up, 0, 6, le 4 20000, by delta State.Takes; delta State.Ready; delta Dev.Accepts; delta State.Idle; decide +kernel⟩,
  ⟨st up, 0, 0x1600, 1, le 4 0, (applySub ((st up).taken 0 0x1600 1, (st up).hbm) 0 0x1600 1 (le 4 0)).1.1, (applySub ((st up).taken 0 0x1600 1, (st up).hbm) 0 0x1600 1 (le 4 0)).1.2, (applySub ((st up).taken 0 0x1600 1, (st up).hbm) 0 0x1600 1 (le 4 0)).2, by delta State.Takes State.Ready State.Idle Dev.Accepts; decide +kernel, by decide, by decide, rfl, .inl (by decide +kernel), by decide +kernel, by decide +kernel⟩,
  ⟨st up, 0, 0x4400, 1, 100, zeros 16, by delta State.Ready; delta State.Idle; decide +kernel⟩⟩

/-- States and operands that meet the conditions of each clause of NetworkStates. -/
theorem witness_NetworkStates :
  (∃ (s : State) (x : Transfer), (oldestTransfer s.dev.net.transfers = some x)) ∧
  (∃ (s : State) (c : Client), (s.Ready)) ∧
  (∃ (s : State) (c : Client) (complete : Bool) (index sub : Nat) (d e : Dev), (s.Ready) ∧ (complete = true → sub ≤ 1) ∧ (∀ k ∈ writeSubs index sub complete, (s.asked c).refusesRead c index k = none ∧ subExists index k = true ∧ (∀ r, objRow index k = some r → r.access ≠ .wo)) ∧ (indexExists index = true) ∧ ((writeSubs index sub complete).foldl (fun (r : Dev × Bool) k => ((r.1.readStore (objKey index k)).1, r.2 || (r.1.readStore (objKey index k)).2)) (s.asked c, false) = (d, false)) ∧ (d.readLogPages c index (writeSubs index sub complete) = (e, true)) ∧ ((readSubs (e, s.hbm) c index (writeSubs index sub complete)).1.1.net.mailbox = []) ∧ ((readSubs (e, s.hbm) c index (writeSubs index sub complete)).1.1.net.waiting = none)) ∧
  (∃ (s : State) (c : Client) (protocol : Nat), (s.Ready) ∧ (protocol ≠ 3)) ∧
  (∃ (s : State) (c : Client), (s.Ready)) ∧
  (∃ (s : State) (c : Client) (index sub begun cause : Nat), (s.dev.net.waiting = some (.refusal c index sub begun false cause)) ∧ (s.dev.net.mailbox = [])) ∧
  (∃ (s : State), (s.dev.upd.coldOnInit = false)) ∧
  (∃ (s : State), (s.dev.net.ecat = .init) ∧ (s.dev.noFirmware = false)) ∧
  (∃ (s : State) (cycle : Option Nat), (s.dev.net.ecat = .preOp) ∧ (s.dev.mappingFault cycle = none)) ∧
  (∃ (s : State), (s.dev.net.ecat = .safeOp)) ∧
  (∃ (s : State), (s.dev.mayBootstrap = true)) ∧
  (∃ (s : State), (s.dev.net.ecat = .op)) ∧
  (∃ (s : State) (dc : Nat), (s.dev.net.dc = true)) ∧
  (∃ (s : State) (c : Client) (x : Challenge), (s.dev.net.challenges.find? (fun x => x.client == c) = some x)) ∧
  (∃ (s : State) (c : Client) (x : Session), (s.dev.session c = some x)) ∧
  (∃ (s : State) (data : Bytes), (s.dev.net.ecat = .op)) := ⟨
  ⟨st { up with net := { up.net with transfers := [{ client := 0, index := 0x4400, sub := 1, data := [], total := 9, toggle := false, lastAt := 0 }] } }, _, rfl⟩,
  ⟨st up, 0, by delta State.Ready; delta State.Idle; decide +kernel⟩,
  ⟨st up, 0, false, 0x2010, 0, _, _, by delta State.Ready; delta State.Idle; decide +kernel, by decide, fun k hk => by obtain rfl : k = 0 := List.mem_singleton.1 (show k ∈ [0] from hk); exact ⟨by decide +kernel, by decide +kernel, fun r hr => by have e : ((objRow 0x2010 0).all fun r => r.access != .wo) = true := (by decide +kernel); (rw [hr] at e; simpa using e)⟩, by decide +kernel, (Prod.ext rfl (by decide +kernel)), (Prod.ext rfl (by decide +kernel)), by decide +kernel, by decide +kernel⟩,
  ⟨st up, 0, 9, by delta State.Ready; delta State.Idle; decide +kernel⟩,
  ⟨st up, 0, by delta State.Ready; delta State.Idle; decide +kernel⟩,
  ⟨st (owed (.refusal 0 0x2010 0 0 false 1)), 0, 0x2010, 0, 0, 1, by decide +kernel⟩,
  ⟨st up, by decide +kernel⟩,
  ⟨st (inEcat .init), by decide +kernel⟩,
  ⟨st up, none, by decide +kernel⟩,
  ⟨st (inEcat .safeOp), by decide +kernel⟩,
  ⟨st { inEcat .init with dir := { up.dir with state := .maintenance }, twin := { up.twin with ownDrive := false, ownColl := false } }, by decide +kernel⟩,
  ⟨st (inEcat .op), by decide +kernel⟩,
  ⟨st { up with net := { up.net with dc := true } }, 0, by decide +kernel⟩,
  ⟨st { up with net := { up.net with challenges := [{ client := 0, bytes := zeros 16, issued := 0 }] } }, 0, { client := 0, bytes := zeros 16, issued := 0 }, by decide +kernel⟩,
  ⟨st up, 0, { client := 0, role := .maintainer, scope := 65535, timeout := 60, lastReq := 0 }, by decide +kernel⟩,
  ⟨st (inEcat .op), zeros 16, by decide +kernel⟩⟩

/-- States and operands that meet the conditions of each clause of StoreCommands. -/
theorem witness_StoreCommands :
  (∃ (s : State) (e : Nat × Nat), (oldestItem s.dev.twin.unconfirmed = some e)) ∧
  (∃ (s : State) (c : Client) (index sub : Nat), (s.dev.net.waiting = some (.retire c index sub)) ∧ (tget .off s.dev.mem.stackOf (fld (s.dev.oct 0x2840 1) 0 1) = .ready)) ∧
  (∃ (s : State) (c : Client) (index sub : Nat), (s.dev.net.waiting = some (.retire c index sub))) ∧
  (∃ (s : State), (∀ c index sub, s.dev.net.waiting ≠ some (.settings c index sub))) ∧
  (∃ (s : State) (c : Client) (index sub : Nat), (s.dev.net.waiting = some (.settings c index sub)) ∧ (s.dev.settingsPoisoned = true ∨ itemOf index sub = none)) ∧
  (∃ (s : State) (m : StoreMsg), (s.dev.joined = true) ∧ (1 ≤ m.item ∧ m.item ≤ 9 ∨ m.item = 12)) ∧
  (∃ (s : State) (m : StoreMsg), (s.dev.joined = true) ∧ (m.item = 10)) ∧
  (∃ (s : State) (m : StoreMsg), (s.dev.joined = true) ∧ (m.item = 11) ∧ (m.flags = 3) ∧ (m.offset = 0) ∧ (m.total = m.data.length)) := ⟨
  ⟨st { up with twin := { up.twin with unconfirmed := [(9, 0)] } }, (9, 0), by decide +kernel⟩,
  ⟨st { owed (.retire 0 0x2840 0) with mem := { up.mem with stackOf := [(0, .ready)] } }, 0, 0x2840, 0, by decide +kernel⟩,
  ⟨st (owed (.retire 0 0x2840 0)), 0, 0x2840, 0, by decide +kernel⟩,
  ⟨st up, fun c i k h => by have e : ((st up).dev.net.waiting).isNone = true := (by decide +kernel); rw [h] at e; cases e⟩,
  ⟨st (owed (.settings 0 0x1000 0)), 0, 0x1000, 0, by decide +kernel, .inr (by decide +kernel)⟩,
  ⟨st joined, { item := 1, flags := 0, index := 0, version := 1, offset := 0, total := 0, data := [] }, by decide +kernel⟩,
  ⟨st joined, { item := 10, flags := 0, index := 0, version := 1, offset := 0, total := 0, data := [] }, by decide +kernel⟩,
  ⟨st joined, { item := 11, flags := 3, index := 0, version := 1, offset := 0, total := 0, data := [] }, by decide +kernel⟩⟩

/-- States and operands that meet the conditions of each clause of CycleCommands. -/
theorem witness_CycleCommands :
  (∃ (s : State), (s.dev.isOn 3 = true)) ∧
  (∃ (s : State), (s.dev.eng.phase = 0)) ∧
  (∃ (s : State) (late peaks : List Nat) (poison : List SliceWord), (s.dev.eng.phase ≠ 2)) ∧
  (∃ (s : State) (d : Dev), (s.dev.isOn 3 = true) ∧ (d = ((s.dev.reach s.dev.heaterInstant).timeStep).applyHeaters) ∧ (d.holdsDrive = true)) ∧
  (∃ (s : State) (d : Dev), (s.dev.isOn 3 = true) ∧ (d = ((s.dev.reach s.dev.heaterInstant).timeStep).applyHeaters) ∧ (d.holdsDrive = false)) ∧
  (∃ (s : State), (s.dev.isOn 3 = true)) ∧
  (∃ (s : State) (z : Nat) (pods : List (Fin 64)) (tag : Fin 16), (s.dev.isOn 3 = true)) ∧
  (∃ (s : State) (j : Fin 16), (s.dev.isOn 3 = true)) ∧
  (∃ (s : State) (j : Fin 16), (s.dev.isOn 8 = true) ∧ (s.dev.isOn 3 = true) ∧ (s.dev.inState [.replay] = false)) := ⟨
  ⟨st up, by decide +kernel⟩,
  ⟨st up, by decide +kernel⟩,
  ⟨st up, [], [], [], by decide +kernel⟩,
  ⟨st up, (((st up).dev.reach (st up).dev.heaterInstant).timeStep).applyHeaters, by decide +kernel, rfl, by decide +kernel⟩,
  ⟨st { up with twin := { up.twin with drive := .standby, ownDrive := false } }, (((st { up with twin := { up.twin with drive := .standby, ownDrive := false } }).dev.reach (st { up with twin := { up.twin with drive := .standby, ownDrive := false } }).dev.heaterInstant).timeStep).applyHeaters, by decide +kernel, rfl, by decide +kernel⟩,
  ⟨st up, by decide +kernel⟩,
  ⟨st up, 5, [3], 2, by decide +kernel⟩,
  ⟨st up, 0, by decide +kernel⟩,
  ⟨st up, 0, by decide +kernel⟩⟩

/-- States and operands that meet the conditions of each clause of TimeTransfer. -/
theorem witness_TimeTransfer :
  (∃ (s : State), (s.dev.isOn 3 = true) ∧ (s.dev.time.isRoot = false)) ∧
  (∃ (s : State) (port : Fin 7) (seq flags twin sender : Nat) (t2 residence : Nat), (s.dev.isOn 3 = true) ∧ ((s.dev.neighbour port).status = .confirmed) ∧ ((s.dev.neighbour port).chip = sender) ∧ ((s.dev.neighbour port).twin = twin) ∧ (flags.testBit 0 = false)) ∧
  (∃ (s : State) (port : Fin 7) (seq flags depth leader : Nat) (utc : Int) (t2 t3 t4 : Nat) (o : OrbitDef) (r : Nat × Nat), (s.dev.isOn 3 = true) ∧ (s.dev.time.parent = some port.val) ∧ ((s.dev.reachStamp t4).time.reqs.find? (fun r => r.1 = seq) = some r) ∧ (r.2 + 4 * ((s.dev.reachStamp t4).modTime (fun t => { t with reqs := t.reqs.filter (fun x => x.1 != seq) })).transferInterval * 2 ^ 32 < t4)) ∧
  (∃ (s : State) (port : Fin 7) (seq flags depth leader : Nat) (utc : Int) (t2 t3 t4 : Nat) (o : OrbitDef) (r : Nat × Nat), (s.dev.isOn 3 = true) ∧ (s.dev.time.parent = some port.val) ∧ ((s.dev.reachStamp t4).time.reqs.find? (fun r => r.1 = seq) = some r) ∧ (t4 ≤ r.2 + 4 * ((s.dev.reachStamp t4).modTime (fun t => { t with reqs := t.reqs.filter (fun x => x.1 != seq) })).transferInterval * 2 ^ 32)) ∧
  (∃ (s : State), (s.dev.time.state = .holdover)) ∧
  (∃ (s : State) (n : Nat), (s.dev.time.notice = some n) ∧ (s.dev.time.selected = none)) ∧
  (∃ (s : State) (n k : Nat), (s.dev.time.notice = some n) ∧ (s.dev.time.selected = some k) ∧ (s.dev.time.isRoot = true) ∧ (((s.dev.reach (n + 100 * Config.ms)).modTime (fun x => { x with notice := none })).clearSince n = true) ∧ ((s.dev.ptp k).state = .qualified)) ∧
  (∃ (s : State), (s.dev.time.newest ≠ s.dev.time.inForce)) := ⟨
  ⟨st up, by decide +kernel⟩,
  ⟨st linked, 0, 1, 0, 0, 0xF001, 5, 3, by decide +kernel⟩,
  ⟨st { linked with time := { up.time with parent := some 0, reqs := [(1, 0)] } }, 0, 1, 0, 1, 0xF001, 0, 0, 0, 100 * Config.sec * 2 ^ 32, {}, (1, 0), by decide +kernel⟩,
  ⟨st { linked with time := { up.time with parent := some 0, reqs := [(1, 0)] } }, 0, 1, 0, 1, 0xF001, 0, 0, 0, 1, {}, (1, 0), by decide +kernel⟩,
  ⟨st { up with time := { up.time with state := .holdover } }, by decide +kernel⟩,
  ⟨st { up with time := { up.time with notice := some 5 } }, 5, by decide +kernel⟩,
  ⟨st { up with time := { up.time with notice := some 5, selected := some 0, isRoot := true, ptp := [{ state := .qualified }, {}] } }, 5, 0, by decide +kernel⟩,
  ⟨st { up with time := { up.time with newest := { seq := 3 } } }, by decide +kernel⟩⟩

/-- States and operands that meet the conditions of each clause of PrecisionTime. -/
theorem witness_PrecisionTime :
  (∃ (s : State) (k : Fin 2) (gm : Nat) (interval : Int) (t1 t2 : Nat) (corr : Int), (s.dev.isOn 3 = true) ∧ ((s.dev.ptp k).gm = gm) ∧ (syncRate interval = true)) ∧
  (∃ (s : State) (k : Fin 2) (gm : Nat) (interval : Int) (t1 t2 : Nat) (corr : Int), (s.dev.isOn 3 = true) ∧ ((s.dev.ptp k).gm = gm) ∧ (syncRate interval = true)) ∧
  (∃ (s : State) (k : Fin 2) (t1 : Nat) (corr : Int) (p : Nat × Int), ((s.dev.ptp k).pendingSync = some p)) ∧
  (∃ (s : State) (k : Fin 2) (a : PtpAnn), (s.dev.isOn 3 = true) ∧ ((s.dev.ptp k).state ≠ .disabled) ∧ (a.poison = false) ∧ ((s.dev.ptp k).takes a s.dev.now = true) ∧ (s.dev.time.selected ≠ some k.val)) ∧
  (∃ (s : State) (k : Fin 2) (a : PtpAnn), ((s.dev.ptp k).takes a s.dev.now = false)) ∧
  (∃ (s : State) (k : Fin 2), (s.dev.isOn 3 = true) ∧ ((s.dev.ptp k).state ≠ .disabled)) ∧
  (∃ (s : State) (k : Fin 2) (t4 : Nat) (corr interval : Int) (t3 : Nat) (y : Int × Int), ((s.dev.ptp k).reqAt = some t3) ∧ ((s.dev.ptp k).lastSync = some y)) ∧
  (∃ (s : State) (port k : Fin 2) (t2 residence : Nat), (s.dev.isOn 3 = true) ∧ (s.dev.peerSlot port = some k.val)) ∧
  (∃ (s : State) (k : Fin 2) (t2 t3 t4 : Nat) (corr : Int) (t1 : Nat), ((s.dev.ptp k).reqAt = some t1)) ∧
  (∃ (s : State) (stamp : Nat), (s.dev.isOn 3 = true)) ∧
  (∃ (s : State), (s.dev.isOn 3 = true) ∧ (s.dev.flag 0x2260 3 = true)) ∧
  (∃ (s : State) (n : Nat), (s.dev.time.ppsAt = some n)) := ⟨
  ⟨st up, 0, 0, 0, 0, 0, 0, by decide +kernel⟩,
  ⟨st up, 0, 0, 0, 0, 0, 0, by decide +kernel⟩,
  ⟨st { up with time := { up.time with ptp := [{ pendingSync := some (3, 4) }, {}] } }, 0, 0, 0, (3, 4), by decide +kernel⟩,
  ⟨st { up with time := { up.time with ptp := [{ state := .listening }, {}] } }, 0, { gm := 1, clockClass := 6, steps := 0, utc := 37, ptpScale := true, prio1 := 1, accuracy := 1, variance := 1, prio2 := 1, interval := 0, poison := false }, by decide +kernel⟩,
  ⟨st { up with time := { up.time with ptp := [{ state := .listening, gm := 5, announceAt := some 0 }, {}] } }, 0, { gm := 9, clockClass := 255, steps := 9, utc := 37, ptpScale := true, prio1 := 255, accuracy := 255, variance := 65535, prio2 := 255, interval := 0, poison := false }, by decide +kernel⟩,
  ⟨st { up with time := { up.time with ptp := [{ state := .listening }, {}] } }, 0, by decide +kernel⟩,
  ⟨st { up with time := { up.time with ptp := [{ reqAt := some 3, lastSync := some (1, 2) }, {}] } }, 0, 4, 0, 0, 3, (1, 2), by decide +kernel⟩,
  ⟨st { up with od := [(objKey 0x2210 1, 1), (objKey 0x2210 2, 0), (objKey 0x2210 4, 2)] ++ up.od }, 0, 0, 4, 0, by decide +kernel⟩,
  ⟨st { up with time := { up.time with ptp := [{ reqAt := some 3 }, {}] } }, 0, 4, 5, 6, 0, 3, by decide +kernel⟩,
  ⟨st up, 5, by decide +kernel⟩,
  ⟨st { up with time := { up.time with tickOn := true } }, by decide +kernel⟩,
  ⟨st { up with time := { up.time with ppsAt := some 5 } }, 5, by decide +kernel⟩⟩

/-- States and operands that meet the conditions of each clause of BoardFrames. -/
theorem witness_BoardFrames :
  (∃ (s : State) (b : Fin 16) (f : SensorF), ((s.dev.board b).state ≠ .absent) ∧ ((s.dev.board b).state ≠ .fault) ∧ (s.dev.isOn 8 = true) ∧ (s.dev.boardServed b = true) ∧ (f.crcOk = true) ∧ (f.board = b.val)) ∧
  (∃ (s : State) (b : Fin 16) (f : SensorF), ((s.dev.board b).state ≠ .absent) ∧ ((s.dev.board b).state ≠ .fault) ∧ (s.dev.isOn 8 = true) ∧ (s.dev.boardServed b = true) ∧ (f.crcOk = false)) ∧
  (∃ (s : State) (b : Fin 16) (f : SensorF), ((s.dev.board b).state = .absent ∨ (s.dev.board b).state = .fault ∨ s.dev.boardServed b = false)) ∧
  (∃ (s : State) (b : Fin 16) (board seq cycle twin : Nat) (outs : List (Int × Bool)) (crcOk : Bool), (s.dev.boardTakes b board twin crcOk = true) ∧ (cycle = s.dev.cycleNow + 1)) ∧
  (∃ (s : State) (b : Fin 16) (board seq cycle twin : Nat) (outs : List (Int × Bool)) (crcOk : Bool), (s.dev.boardTakes b board twin crcOk = false ∨ cycle ≠ s.dev.cycleNow + 1)) ∧
  (∃ (s : State) (b : Fin 16) (board seq cycle twin : Nat) (crcOk : Bool), (s.dev.boardTakes b board twin crcOk = true) ∧ (cycle = s.dev.cycleNow + 1)) ∧
  (∃ (s : State) (b : Fin 16) (board lanes : Nat) (serial firmware : Bytes) (hv : Int) (crcOk : Bool), (crcOk = true) ∧ (s.dev.isOn 8 = true) ∧ (s.dev.holdsDrive = true) ∧ (board ≠ b.val)) ∧
  (∃ (s : State) (b : Fin 16) (board lanes : Nat) (serial firmware : Bytes) (hv : Int) (crcOk : Bool), (crcOk = true) ∧ (s.dev.isOn 8 = true) ∧ (s.dev.holdsDrive = true) ∧ (board = b.val)) ∧
  (∃ (s : State), (s.dev.holdsDrive = true) ∧ (s.dev.inState [.boot, .selftest, .fault, .replay] = false) ∧ (((s.dev.eng.boards.filter (fun e => e.2.state == .adopting && 2 ≤ e.2.holdFrames)).map Prod.fst).isEmpty = false) ∧ (s.dev.twin.takenAt = none)) := ⟨
  ⟨st boarded, 0, frame0 true, by decide +kernel⟩,
  ⟨st boarded, 0, frame0 false, by decide +kernel⟩,
  ⟨st up, 0, frame0 true, by decide +kernel⟩,
  ⟨st { up with twin := { up.twin with lineDrive := false } }, 0, 0, 0, 1, 0, [], true, by decide +kernel⟩,
  ⟨st up, 0, 0, 0, 9, 0, [], true, by decide +kernel⟩,
  ⟨st up, 0, 0, 0, 1, 0, true, by decide +kernel⟩,
  ⟨st up, 0, 3, 1, [1], [2], 5, true, by decide +kernel⟩,
  ⟨st up, 0, 0, 1, [1], [2], 5, true, by decide +kernel⟩,
  ⟨st boarded, by decide +kernel⟩⟩

/-- States and operands that meet the conditions of each clause of AxisCommands. -/
theorem witness_AxisCommands :
  (∃ (s : State) (a : Fin 4096) (m : Motion) (r : Int), ((s.dev.axis a).motion = some m) ∧ (m.target = some r) ∧ ((((s.dev.reach ((m.from_ + m.length) * Config.cycle)).modAxis a (fun x => { x with ref := r, motion := none })).cometOfHead (headOfAxis a)) = none) ∧ (((((s.dev.reach ((m.from_ + m.length) * Config.cycle)).modAxis a (fun x => { x with ref := r, motion := none })).enterAcquire a).head (headOfAxis a)).search = none)) ∧
  (∃ (s : State) (a : Fin 4096) (m : Motion), ((s.dev.axis a).motion = some m) ∧ (m.target = none) ∧ (((((s.dev.reach ((m.from_ + m.length) * Config.cycle)).modAxis a (fun x => { x with ref := (m.at_ m.length).1, motion := none })).setAxis a .holdClosed).cometOfHead (headOfAxis a)) = none)) ∧
  (∃ (s : State) (h : Fin 2048) (comet : Nat) (ex ey level : Int) (poison : Bool), (s.dev.podLit (podOf (portOfHead h)) = true) ∧ (s.dev.pilotSlot h = true) ∧ ((s.dev.head h).readSlot ≠ s.dev.eng.cycle / 2 + 1) ∧ (∀ r ∈ s.dev.eng.pilots, r.1 ≠ h.val) ∧ ((headAxes h).all (fun a => (s.dev.axis a).state == .acquire) = true) ∧ (tfind s.dev.opt.gates h = some comet)) ∧
  (∃ (s : State) (h : Fin 2048) (comet : Nat) (ex ey level : Int) (loOk poison : Bool), (s.dev.pilotSlot h = false) ∧ (tfind s.dev.opt.gates h = some comet)) ∧
  (∃ (s : State) (h : Fin 2048), ((headAxes h).all (fun a => (s.dev.axis a).state == .track) = false)) ∧
  (∃ (s : State) (h : Fin 2048), ((headAxes h).all (fun a => (s.dev.axis a).state == .track) = true)) ∧
  (∃ (s : State) (h : Fin 2048) (x : Search), ((s.dev.head h).search = some x) ∧ ((s.dev.endSearch h).cometOfHead h = none) ∧ ((s.dev.endSearch h).reacquiring h = none)) ∧
  (∃ (s : State) (h : Fin 2048) (x : Search) (c : Comet), ((s.dev.head h).search = some x) ∧ ((s.dev.endSearch h).cometOfHead h = some c)) ∧
  (∃ (s : State) (north : Fin 512) (plane : Fin 2) (x : Nat × Nat × Nat × Nat) (c : Circuit), (s.dev.eng.reacquires.find? (fun x => x.1 = north.val && x.2.1 = plane.val) = some x) ∧ (s.dev.circuitOf north plane = some c)) ∧
  (∃ (s : State) (h : Fin 2048) (n : Nat), (s.dev.openLimit h = some n)) ∧
  (∃ (s : State) (a : Fin 4096) (x : Tune), (s.dev.eng.tunes.find? (fun t => t.axis == a.val) = some x) ∧ (tuneFigures (s.dev.nat 0x2C05 3) x.samples = none)) ∧
  (∃ (s : State) (a : Fin 4096) (x : Tune) (f : Fl × Fl), (s.dev.eng.tunes.find? (fun t => t.axis == a.val) = some x) ∧ (tuneFigures (s.dev.nat 0x2C05 3) x.samples = some f)) ∧
  (∃ (s : State) (a : Fin 4096) (x : Tune), (s.dev.eng.tunes.find? (fun t => t.axis == a.val) = some x)) ∧
  (∃ (s : State) (n : Nat), (s.dev.disc.unconfirmedSince = some n) ∧ (s.dev.disc.confirmed = false) ∧ (s.dev.anyPeerUp = true)) := ⟨
  ⟨st (withAxis { state := .slew, motion := some { segs := [], p6 := 0, target := some 5, from_ := 0 } }), 0, { segs := [], p6 := 0, target := some 5, from_ := 0 }, 5, by decide +kernel⟩,
  ⟨st (withAxis { state := .slew, motion := some { segs := [], p6 := 0, from_ := 0 } }), 0, { segs := [], p6 := 0, from_ := 0 }, by decide +kernel⟩,
  ⟨st { headIn .acquire with opt := { (linkIn 32 {}).opt with gates := [(0, 1)] } }, 0, 1, 3, 4, 500, false, by decide +kernel⟩,
  ⟨st { headIn .acquire with opt := { (linkIn 32 {}).opt with gates := [(1, 1)] } }, 1, 1, 3, 4, 500, true, false, by decide +kernel⟩,
  ⟨st (headIn .acquire), 0, by decide +kernel⟩,
  ⟨st (headIn .track), 0, by decide +kernel⟩,
  ⟨st { up with eng := { up.eng with heads := [(0, { search := some { started := 0, cx := 0, cy := 0 } })] } }, 0, { started := 0, cx := 0, cy := 0 }, by decide +kernel⟩,
  ⟨st { up with eng := { up.eng with heads := [(0, { search := some { started := 0, cx := 0, cy := 0 } })] }, arr := { up.arr with comets := [comet0] } }, 0, { started := 0, cx := 0, cy := 0 }, comet0, by decide +kernel⟩,
  ⟨st { up with eng := { up.eng with reacquires := [(0, 0, 0, 0)] }, circuits := [{ circuit0 with state := .lost }] }, 0, 0, (0, 0, 0, 0), { circuit0 with state := .lost }, by decide +kernel⟩,
  ⟨st (withAxis { state := .open, openUntil := some 7 }), 0, 7, by decide +kernel⟩,
  ⟨st (tuning []), 0, { axis := 0, began := 0, u0 := 1 }, by decide +kernel⟩,
  ⟨st (tuning tone), 0, { axis := 0, began := 0, u0 := 1, samples := tone }, (tuneFigures ((st (tuning tone)).dev.nat 0x2C05 3) tone).getD (.nan, .nan), by decide +kernel⟩,
  ⟨st (tuning []), 0, { axis := 0, began := 0, u0 := 1 }, by decide +kernel⟩,
  ⟨st { linkIn 32 { state := .up } with disc := { up.disc with unconfirmedSince := some 5 } }, 5, by decide +kernel⟩⟩

/-- States and operands that meet the conditions of each clause of LaneEvents. -/
theorem witness_LaneEvents :
  (∃ (s : State) (p : Fin 1024) (lanes : Fin 256), (s.dev.podServed (podOf p) = true)) ∧
  (∃ (s : State) (p : Fin 1024) (lanes : Fin 256), (s.dev.podServed (podOf p) = true)) ∧
  (∃ (s : State) (p : Fin 1024), (s.dev.podServed (podOf p) = true) ∧ (s.dev.pilotExpected p = false) ∧ (s.dev.crossers p = [])) ∧
  (∃ (s : State) (q : Fin 64) (cycle : Nat) (taps : List (Int × Int)) (poison : List Nat) (crcOk : Bool) (d : Dev), (s.dev.podServed q = true) ∧ (crcOk = true) ∧ (cycle = s.dev.cycleNow % 65536) ∧ (d = ((upto 16).zip taps).foldl (fun (d : Dev) (e : Nat × Int × Int) => d.modBank (16 * q + e.1) (fun b => { b with tapA := if d.monitorMask (16 * q + e.1) &&& d.routedTo (16 * q + e.1) 0 = 0 then -9999 else e.2.1, tapB := if d.monitorMask (16 * q + e.1) &&& d.routedTo (16 * q + e.1) 1 = 0 then -9999 else e.2.2, tapGone := false })) s.dev)) ∧
  (∃ (s : State) (q : Fin 64) (cycle : Nat) (taps : List (Int × Int)) (poison : List Nat) (crcOk : Bool), (s.dev.podServed q = true) ∧ (crcOk = false)) ∧
  (∃ (s : State) (q : Fin 64) (eps : List (Option Int)) (powers : List Int) (temp : Int) (poison : List Nat) (crcOk : Bool), (s.dev.podServed q = true) ∧ (crcOk = true) ∧ ((s.dev.podAt q).lock = true)) ∧
  (∃ (s : State) (q : Fin 64) (id : Nat) (applied : Fin 65536), (s.dev.podServed q = true)) ∧
  (∃ (s : State) (q : Fin 64) (id : Nat) (applied : Fin 65536), (s.dev.podServed q = true)) ∧
  (∃ (s : State) (q : Fin 64) (loc : Fin 16) (lane : Fin 8) (offset : Int) (points : List (Int × Int)) (r : Round) (d : Dev), (s.dev.podServed q = true) ∧ (s.dev.rings.rounds.find? (fun r => r.ports.contains (16 * q.val + loc.val) && r.lane == lane.val) = some r) ∧ (d = (s.dev.reach (r.start + 540 * Config.us)).calDue) ∧ (d.rings.rounds.any (fun r => r.ports.contains (16 * q.val + loc.val) && r.lane == lane.val) = true) ∧ (points.any (fun (x : Int × Int) => max x.1 x.2 < d.lossThreshold (16 * q.val + loc.val)) = false)) ∧
  (∃ (s : State) (q : Fin 64) (loc : Fin 16) (lane : Fin 8) (offset : Int) (points : List (Int × Int)) (r : Round) (d : Dev), (s.dev.podServed q = true) ∧ (s.dev.rings.rounds.find? (fun r => r.ports.contains (16 * q.val + loc.val) && r.lane == lane.val) = some r) ∧ (d = (s.dev.reach (r.start + 540 * Config.us)).calDue) ∧ (d.rings.rounds.any (fun r => r.ports.contains (16 * q.val + loc.val) && r.lane == lane.val) = true) ∧ (points.any (fun (x : Int × Int) => max x.1 x.2 < d.lossThreshold (16 * q.val + loc.val)) = true)) := ⟨
  ⟨st served, 0, 3, by decide +kernel⟩,
  ⟨st served, 0, 3, by decide +kernel⟩,
  ⟨st served, 0, by decide +kernel⟩,
  ⟨st served, 0, 0, [], [], true, (st served).dev, by decide +kernel, by decide +kernel, by decide +kernel, rfl⟩,
  ⟨st served, 0, 0, [], [], false, by decide +kernel⟩,
  ⟨st served, 0, [], [], 300, [], true, by decide +kernel⟩,
  ⟨st served, 0, 1, 3, by decide +kernel⟩,
  ⟨st served, 0, 1, 3, by decide +kernel⟩,
  ⟨st (rounding 0), 0, 0, 0, 5, [(100000, 100000)], { north := 0, south := none, plane := 0, lane := 0, start := 0, stage := 0 }, ((st (rounding 0)).dev.reach (0 + 540 * Config.us)).calDue, by decide +kernel, by decide +kernel, rfl, by decide +kernel, by decide +kernel⟩,
  ⟨st (rounding 0), 0, 0, 0, 5, [(-100000, -100000)], { north := 0, south := none, plane := 0, lane := 0, start := 0, stage := 0 }, ((st (rounding 0)).dev.reach (0 + 540 * Config.us)).calDue, by decide +kernel, by decide +kernel, rfl, by decide +kernel, by decide +kernel⟩⟩

/-- States and operands that meet the conditions of each clause of PodFrames. -/
theorem witness_PodFrames :
  (∃ (s : State) (q : Fin 64) (w : TunerWrite) (crcOk : Bool), (crcOk = true) ∧ (w.bank ≠ 0xFF)) ∧
  (∃ (s : State) (q : Fin 64) (w : TunerWrite) (crcOk : Bool), (crcOk = true) ∧ (w.bank = 0xFF) ∧ (s.dev.immediateOk (16 * q + w.ring / 11) = true)) ∧
  (∃ (s : State) (q : Fin 64) (crcOk : Bool), (crcOk = true)) ∧
  (∃ (s : State) (q : Fin 64) (writes : List TunerWrite) (crcOk : Bool), (crcOk = false)) ∧
  (∃ (s : State) (q : Fin 64) (id : Nat) (acts : List DescAct) (crcOk : Bool), (crcOk = true) ∧ ((s.dev.podAt q).descs.length < 16)) ∧
  (∃ (s : State) (q : Fin 64) (low : Fin 256), (∀ e ∈ (s.dev.podAt q).descs, e.id % 256 ≠ low.val)) ∧
  (∃ (s : State) (q : Fin 64) (low : Fin 256) (e : Desc) (rest : List Desc), ((s.dev.podAt q).descs = e :: rest) ∧ (e.id % 256 = low.val) ∧ (e.acts ≠ [])) ∧
  (∃ (s : State) (q : Fin 64) (codes : List (Fin 4096)) (crcOk : Bool), (crcOk = true)) ∧
  (∃ (s : State) (q : Fin 64) (ports : List MonitorSet) (crcOk : Bool), (crcOk = true)) ∧
  (∃ (s : State) (q : Fin 64) (delay : Fin 256) (crcOk : Bool), (crcOk = true)) ∧
  (∃ (s : State) (q : Fin 64) (loc : Fin 16) (lane : Fin 8) (first step points : Nat) (crcOk : Bool), (crcOk = true)) ∧
  (∃ (s : State) (q : Fin 64) (position : Fin 4), (q.val % 4 = position.val)) ∧
  (∃ (s : State) (q : Fin 64) (position : Fin 4), (q.val % 4 ≠ position.val)) ∧
  (∃ (s : State) (q : Fin 64) (store : PodStore) (r : CalRecord), (s.dev.isOn 8 = true) ∧ (s.dev.recordOf q store.serial = some r) ∧ ((s.dev.podAt q).serial = store.serial) ∧ (store.crcOk = true) ∧ ((crosstalkCheck q r.matrix).1 = 0) ∧ ((tfind (s.dev.podLink (linkOfPod q)).lat (q % 4)).isSome = true)) ∧
  (∃ (s : State) (q : Fin 64), (s.dev.isOn 8 = false) ∧ (((s.dev.losePod q .absent false).modPodLink (linkOfPod q) (fun x => { x with lat := [], trained := false })).isOn 8 = false)) ∧
  (∃ (s : State) (q : Fin 64), (s.dev.isOn 8 = true) ∧ (s.dev.isOn 3 = true)) := ⟨
  ⟨st served, 0, { ring := 3, bank := 1, code := 5 }, true, by decide +kernel⟩,
  ⟨st served, 0, { ring := 3, bank := 0xFF, code := 5 }, true, by decide +kernel⟩,
  ⟨st served, 0, true, by decide +kernel⟩,
  ⟨st served, 0, [], false, by decide +kernel⟩,
  ⟨st served, 0, 1, [], true, by decide +kernel⟩,
  ⟨st served, 0, 5, by decide +kernel⟩,
  ⟨st { served with rings := { served.rings with pods := [(0, { state := .inService, descs := [{ id := 5, acts := [(0, false, 1)] }] })] } }, 0, 5, { id := 5, acts := [(0, false, 1)] }, [], by decide +kernel⟩,
  ⟨st served, 0, [5], true, by decide +kernel⟩,
  ⟨st served, 0, [], true, by decide +kernel⟩,
  ⟨st served, 0, 4, true, by decide +kernel⟩,
  ⟨st served, 0, 1, 2, 0, 5, 65, true, by decide +kernel⟩,
  ⟨st served, 1, 1, by decide +kernel⟩,
  ⟨st served, 1, 2, by decide +kernel⟩,
  ⟨st stored, 0, store0, stored.calRecord 0, by decide +kernel, rfl, by decide +kernel, by decide +kernel, xt_check, by decide +kernel⟩,
  ⟨st { up with power := { up.power with domains := tset up.power.domains 8 .off } }, 0, by decide +kernel⟩,
  ⟨st served, 0, by decide +kernel⟩⟩

/-- States and operands that meet the conditions of each clause of CalibrationCommands. -/
theorem witness_CalibrationCommands :
  (∃ (s : State), (s.dev.holdsDrive = true) ∧ (s.dev.rings.rounds = []) ∧ (s.dev.power.deferred = []) ∧ (s.dev.power.grants = []) ∧ (s.dev.rings.lastRound = 0) ∧ (s.dev.nextCalLane = none)) ∧
  (∃ (s : State) (x : Nat × Nat), (s.dev.holdsDrive = true) ∧ (s.dev.rings.rounds = []) ∧ (s.dev.power.deferred = []) ∧ (s.dev.power.grants = []) ∧ (s.dev.rings.lastRound = 0) ∧ (s.dev.nextCalLane = some x)) ∧
  (∃ (s : State) (p : Fin 1024) (k : Fin 8) (tag : Nat) (c : Circuit) (u : Option Nat), (s.dev.freeTags 1 = some [tag]) ∧ (s.dev.circuits.find? (fun c => c.north == p.val && s.dev.roundFree c k s.dev.nextCycle) = some c) ∧ (s.dev.calPermit { north := c.north, south := some c.south, plane := c.plane, lane := k, start := s.dev.nextCycle, tag := tag } = some u)) ∧
  (∃ (s : State) (p : Fin 1024) (k : Fin 8) (tag : Nat) (u : Option Nat), (s.dev.freeTags 1 = some [tag]) ∧ (s.dev.circuits.find? (fun c => c.north == p.val && s.dev.roundFree c k s.dev.nextCycle) = none) ∧ (s.dev.bareRoundFree p k = true) ∧ (s.dev.calPermit { north := p, south := none, plane := 0, lane := k, start := s.dev.nextCycle, tag := tag } = some u)) ∧
  (∃ (s : State) (p : Fin 1024) (k : Fin 8) (fits : List Fit) (r : Round), (s.dev.roundOf p k = some r) ∧ (r.stage < 2) ∧ (r.back = none)) ∧
  (∃ (s : State) (p : Fin 1024) (k : Fin 8) (r : Round), (s.dev.roundOf p k = some r) ∧ (r.stage = 2) ∧ (r.back = none)) ∧
  (∃ (s : State) (p : Fin 1024) (k : Fin 8) (r : Round), (s.dev.roundOf p k = some r) ∧ (r.stage = 3)) := ⟨
  ⟨st up, by decide +kernel⟩,
  ⟨st calibrating, (0, 0), by decide +kernel⟩,
  ⟨st permitted, 0, 0, 0, circuit0, _, by decide +kernel, by decide +kernel, rfl⟩,
  ⟨st bare, 0, 0, 0, _, by decide +kernel, by decide +kernel, by decide +kernel, rfl⟩,
  ⟨st (rounding 0), 0, 0, [], { north := 0, south := none, plane := 0, lane := 0, start := 0, stage := 0 }, by decide +kernel⟩,
  ⟨st (rounding 2), 0, 0, { north := 0, south := none, plane := 0, lane := 0, start := 0, stage := 2 }, by decide +kernel⟩,
  ⟨st (rounding 3), 0, 0, { north := 0, south := none, plane := 0, lane := 0, start := 0, stage := 3 }, by decide +kernel⟩⟩

/-- States and operands that meet the conditions of each clause of CommitMessages. -/
theorem witness_CommitMessages :
  (∃ (s : State) (port : Fin 6) (m : CMsg) (members ready notReady : Nat), (s.dev.hearsCommit port m) ∧ ((s.dev.seeEpoch m.epoch).acts = true) ∧ ((s.dev.seeEpoch m.epoch).isRootNow = true)) ∧
  (∃ (s : State) (port : Fin 6) (m : CMsg) (members ready notReady : Nat), (s.dev.hearsCommit port m) ∧ ((s.dev.seeEpoch m.epoch).acts = true) ∧ ((s.dev.seeEpoch m.epoch).isRootNow = false)) ∧
  (∃ (s : State) (port : Fin 6) (m : CMsg) (members ready notReady : Nat), (s.dev.hearsCommit port m) ∧ ((s.dev.seeEpoch m.epoch).acts = false)) ∧
  (∃ (s : State) (port : Fin 6) (m : CMsg) (ack fail : Nat), (s.dev.hearsCommit port m) ∧ ((s.dev.seeEpoch m.epoch).acts = true) ∧ ((s.dev.seeEpoch m.epoch).isRootNow = true)) ∧
  (∃ (s : State) (port : Fin 6) (m : CMsg) (ack fail : Nat), (s.dev.hearsCommit port m) ∧ ((s.dev.seeEpoch m.epoch).acts = true) ∧ ((s.dev.seeEpoch m.epoch).isRootNow = false)) ∧
  (∃ (s : State) (port : Fin 6) (m : CMsg), (s.dev.hearsCommit port m) ∧ ((s.dev.passedOn port 0x11 m []).jobOfTag m.tag = none)) ∧
  (∃ (s : State) (port : Fin 6) (m : CMsg) (j : Nat) (d : Dev), (s.dev.hearsCommit port m) ∧ (d = s.dev.passedOn port 0x11 m []) ∧ (d.jobOfTag m.tag = some j) ∧ (d.acts = true) ∧ ((d.commit j).z = m.zenith)) ∧
  (∃ (s : State) (port : Fin 6) (m : CMsg), (s.dev.hearsCommit port m) ∧ ((s.dev.passedOn port 0x12 m []).jobOfTag m.tag = none)) ∧
  (∃ (s : State) (port : Fin 6) (m : CMsg) (j : Nat) (d : Dev), (s.dev.hearsCommit port m) ∧ (d = s.dev.passedOn port 0x12 m []) ∧ (d.jobOfTag m.tag = some j) ∧ (d.acts = true) ∧ ((d.commit j).z = m.zenith) ∧ (((d.commit j).state == .presteer || (d.commit j).state == .voted) = true)) ∧
  (∃ (s : State) (port : Fin 6) (m : CMsg), (s.dev.hearsCommit port m) ∧ ((s.dev.passedOn port 0x14 m []).jobOfTag m.tag = none)) ∧
  (∃ (s : State) (port : Fin 6) (m : CMsg) (j : Nat) (d : Dev), (s.dev.hearsCommit port m) ∧ (d = s.dev.passedOn port 0x14 m []) ∧ (d.jobOfTag m.tag = some j) ∧ (d.acts = true) ∧ ((d.commit j).z = m.zenith)) ∧
  (∃ (s : State) (port : Fin 6) (m : CMsg), (s.dev.hearsCommit port m) ∧ ((s.dev.passedOn port 0x15 m []).jobOfTag m.tag = none)) ∧
  (∃ (s : State) (port : Fin 6) (m : CMsg) (j : Nat) (d : Dev), (s.dev.hearsCommit port m) ∧ (d = s.dev.passedOn port 0x15 m []) ∧ (d.jobOfTag m.tag = some j) ∧ (d.acts = true) ∧ ((d.commit j).z = m.zenith) ∧ (((d.commit j).state == .go || (d.commit j).state == .acked || (d.commit j).state == .confirmed) = true)) ∧
  (∃ (s : State) (port : Fin 6) (m : CMsg) (kept reverted : Nat), (s.dev.isRootNow = true) ∧ (s.dev.acts = true) ∧ (s.dev.hearsCommit port m)) ∧
  (∃ (s : State) (port : Fin 6) (m : CMsg) (kept reverted : Nat), (s.dev.isRootNow = false)) ∧
  (∃ (s : State) (port : Fin 6) (m : CMsg) (step j : Nat) (d : Dev), (s.dev.hearsCommit port m) ∧ (s.dev.acts = true) ∧ (d = s.dev.passDown port 0x17 m (le 8 step) (fun d _ => d)) ∧ (d.jobOfTag m.tag = some j)) ∧
  (∃ (s : State), (s.dev.isOn 3 = true) ∧ (s.dev.isOn 10 = true)) ∧
  (∃ (s : State) (j : Fin 16), ((s.dev.commit j).state = .presteer) ∧ (s.dev.acts = true)) ∧
  (∃ (s : State) (tag z : Nat), ((s.dev.closes (z - 800 * Config.us)).group tag z = none)) ∧
  (∃ (s : State) (tag z : Nat) (g : Group), ((s.dev.closes (z - 800 * Config.us)).group tag z = some g) ∧ (g.goSent = false) ∧ (g.holdSent = false) ∧ (g.retractSent = false)) ∧
  (∃ (s : State) (tag z : Nat) (g : Group) (d : Dev), (d = s.dev.reach (z - 200 * Config.us)) ∧ (d.group tag z = some g) ∧ (g.goSent = true) ∧ (g.confirmSent = false) ∧ (g.retractSent = false) ∧ ((d.leaderRetract g g.guardReason).jobOfTag tag = none)) ∧
  (∃ (s : State) (tag z j : Nat) (d : Dev), (d = s.dev.reach (z - 200 * Config.us)) ∧ (d.group tag z = none) ∧ (d.jobOfTag tag = some j) ∧ ((d.commit j).z = z) ∧ (((d.commit j).state == .presteer || (d.commit j).state == .voted) = true)) := ⟨
  ⟨st rooted, 0, msg0, 1, 1, 0, by delta Dev.hearsCommit; decide +kernel⟩,
  ⟨st linked, 0, msg0, 1, 1, 0, by delta Dev.hearsCommit; decide +kernel⟩,
  ⟨st { linked with twin := { up.twin with drive := .none, ownDrive := false, lineDrive := true } }, 0, msg0, 1, 1, 0, by delta Dev.hearsCommit; decide +kernel⟩,
  ⟨st rooted, 0, msg0, 1, 0, by delta Dev.hearsCommit; decide +kernel⟩,
  ⟨st linked, 0, msg0, 1, 0, by delta Dev.hearsCommit; decide +kernel⟩,
  ⟨st linked, 0, msg0, by delta Dev.hearsCommit; decide +kernel⟩,
  ⟨st (planned { state := .voted, z := 9 }), 0, msg0, 0, ((st (planned { state := .voted, z := 9 })).dev.passedOn 0 0x11 msg0 []), by delta Dev.hearsCommit; decide +kernel, rfl, by decide +kernel, by decide +kernel, by decide +kernel⟩,
  ⟨st linked, 0, msg0, by delta Dev.hearsCommit; decide +kernel⟩,
  ⟨st (planned { state := .voted, z := 9 }), 0, msg0, 0, ((st (planned { state := .voted, z := 9 })).dev.passedOn 0 0x12 msg0 []), by delta Dev.hearsCommit; decide +kernel, rfl, by decide +kernel, by decide +kernel, by decide +kernel, by decide +kernel⟩,
  ⟨st linked, 0, msg0, by delta Dev.hearsCommit; decide +kernel⟩,
  ⟨st (planned { state := .acked, z := 9 }), 0, msg0, 0, ((st (planned { state := .acked, z := 9 })).dev.passedOn 0 0x14 msg0 []), by delta Dev.hearsCommit; decide +kernel, rfl, by decide +kernel, by decide +kernel, by decide +kernel⟩,
  ⟨st linked, 0, msg0, by delta Dev.hearsCommit; decide +kernel⟩,
  ⟨st (planned { state := .acked, z := 9 }), 0, msg0, 0, ((st (planned { state := .acked, z := 9 })).dev.passedOn 0 0x15 msg0 []), by delta Dev.hearsCommit; decide +kernel, rfl, by decide +kernel, by decide +kernel, by decide +kernel, by decide +kernel⟩,
  ⟨st rooted, 0, msg0, 1, 0, by delta Dev.hearsCommit; decide +kernel⟩,
  ⟨st linked, 0, msg0, 1, 0, by decide +kernel⟩,
  ⟨st (planned { state := .acked, z := 9 }), 0, msg0, 1, 0, ((st (planned { state := .acked, z := 9 })).dev.passDown 0 0x17 msg0 (le 8 1) (fun d _ => d)), by delta Dev.hearsCommit; decide +kernel, by decide +kernel, rfl, by decide +kernel⟩,
  ⟨st rooted, by decide +kernel⟩,
  ⟨st (planned { state := .presteer, z := 9 }), 0, by decide +kernel⟩,
  ⟨st up, 7, 9, by decide +kernel⟩,
  ⟨st { rooted with arr := { up.arr with groups := [group0] } }, 7, 9, group0, by decide +kernel⟩,
  ⟨st { rooted with arr := { up.arr with groups := [{ group0 with goSent := true }] } }, 7, 9, { group0 with goSent := true }, (st { rooted with arr := { up.arr with groups := [{ group0 with goSent := true }] } }).dev.reach (9 - 200 * Config.us), rfl, by decide +kernel, by decide +kernel, by decide +kernel, by decide +kernel, by decide +kernel⟩,
  ⟨st (planned { state := .voted, z := 9 }), 7, 9, 0, (st (planned { state := .voted, z := 9 })).dev.reach (9 - 200 * Config.us), rfl, by decide +kernel, by decide +kernel, by decide +kernel, by decide +kernel⟩⟩

/-- States and operands that meet the conditions of each clause of CommitInstants. -/
theorem witness_CommitInstants :
  (∃ (s : State) (j : Fin 16) (z : Nat), ((s.dev.job j).state = .running) ∧ ((s.dev.job j).stopping = false) ∧ (s.dev.holdsDrive = true) ∧ ((s.dev.commit j).over = true) ∧ (s.dev.firstDetour j = none) ∧ ((s.dev.run j).zenith = z) ∧ (z ≠ 0)) ∧
  (∃ (s : State) (north : Fin 512) (plane : Fin 2) (waypoint : Nat) (c : Comet), (s.dev.cometAt north plane = some c) ∧ (c.state = .waiting) ∧ (s.dev.inState [.armed, .serving] = true) ∧ (s.dev.admits c = true) ∧ (s.dev.axesFree c = true) ∧ (s.dev.shadowAt c = true)) ∧
  (∃ (s : State) (j : Fin 16) (k : Fin 8) (st : Stage), (s.dev.isOn 3 = true) ∧ ((s.dev.commit j).stages.find? (fun x => x.step = k.val) = some st) ∧ (s.dev.time.strobes.find? (fun x => x.job = j.val && x.kind = 0 && x.tag = st.tag && !x.due.isEmpty) = none)) ∧
  (∃ (s : State) (j : Fin 16) (k : Fin 8) (st : Stage) (x : Strobe), (s.dev.isOn 3 = true) ∧ ((s.dev.commit j).stages.find? (fun x => x.step = k.val) = some st) ∧ (s.dev.time.strobes.find? (fun x => x.job = j.val && x.kind = 0 && x.tag = st.tag && !x.due.isEmpty) = some x)) ∧
  (∃ (s : State) (j : Fin 16), (s.dev.isOn 3 = true) ∧ ((s.dev.commit j).detour = none) ∧ (((s.dev.commit j).state == .acked || (s.dev.commit j).state == .confirmed) = true) ∧ ((s.dev.commit j).armed = true)) ∧
  (∃ (s : State) (j : Fin 16), (s.dev.isOn 3 = true) ∧ ((s.dev.commit j).detour = none) ∧ (((s.dev.commit j).state == .acked || (s.dev.commit j).state == .confirmed) = true) ∧ ((s.dev.commit j).armed = false)) ∧
  (∃ (s : State) (j : Fin 16), (s.dev.isOn 3 = true) ∧ ((s.dev.commit j).detour = none) ∧ (((s.dev.commit j).state == .acked || (s.dev.commit j).state == .confirmed) = false)) ∧
  (∃ (s : State) (j : Fin 16) (r : Nat), (s.dev.isOn 3 = true) ∧ ((s.dev.commit j).detour = some r) ∧ (((s.dev.commit j).state == .acked || (s.dev.commit j).state == .confirmed) = true) ∧ ((s.dev.commit j).armed = true)) ∧
  (∃ (s : State) (j : Fin 16) (k : Fin 8), ((s.dev.commit j).state ≠ .flipping)) ∧
  (∃ (s : State) (j : Fin 16) (k : Fin 8) (es : List CEntry), ((s.dev.commit j).state = .flipping) ∧ (es = centries (s.dev.slot (s.dev.commit j).slot)) ∧ (1 ≤ k.val) ∧ (k.val ≤ 6)) ∧
  (∃ (s : State) (j : Fin 16) (es : List CEntry) (d e : Dev), ((s.dev.commit j).state = .flipping) ∧ (es = centries (s.dev.slot (s.dev.commit j).slot)) ∧ (d = (es.filter (fun e => e.starts && e.handover = 1)).foldl (fun d e => let d := d.moveLane e 7; if 480 ≤ e.south && d.opt.links.any (fun x => x.1 = 64 + (e.south - 480)) then d.moveSvcLane (e.south - 480) e.lanes 7 else d) (s.dev.reach ((s.dev.commit j).z + 350 * Config.us))) ∧ (e = ((s.dev.commit j).ended.filter (gradedOut es)).foldl (fun d x => (d.endCircuit ((s.dev.commit j).z + 350 * Config.us) x).unlatch 0x0306 2 x.north) d) ∧ (∀ n ∈ upto 32, e.opt.links.any (fun x => x.1 = 64 + n) = false)) ∧
  (∃ (s : State) (j : Fin 16) (k : Fin 8) (x : Stage), ((s.dev.commit j).stages.find? (fun s => s.step = k.val) = some x) ∧ ((s.dev.commit j).state = .flipping) ∧ (x.missing = [])) ∧
  (∃ (s : State) (j : Fin 16) (k : Fin 8) (x : Stage), ((s.dev.commit j).stages.find? (fun s => s.step = k.val) = some x) ∧ ((s.dev.commit j).state = .flipping) ∧ (x.missing.isEmpty = false) ∧ (x.catchups < 2)) ∧
  (∃ (s : State) (j : Fin 16) (es : List CEntry) (d e : Dev) (ports : List Nat) (dark ok : Bool) (base : Nat), ((s.dev.commit j).state = .flipping) ∧ ((s.dev.commit j).windowEnded = false) ∧ (es = centries (s.dev.slot (s.dev.commit j).slot)) ∧ (d = s.dev.closes ((s.dev.commit j).z + (if (stepsOf es).length = 1 then 200 else 600) * Config.us)) ∧ (ports = d.entryPorts j es) ∧ (dark = ((s.dev.commit j).darkened.any ports.contains || d.circuits.any (fun x => x.inForce && (ports.contains x.north || ports.contains (southPort x.south)) && (x.lostN ||| x.lostS) != 0))) ∧ (ok = ((s.dev.commit j).stages.all (fun s => s.missing.isEmpty) && !dark && !(s.dev.commit j).failed)) ∧ (e = d.modCommit j (fun x => { x with windowEnded := true, verified := ok })) ∧ ((s.dev.commit j).detour = none) ∧ (base = (almEntry (e.almanac j) (s.dev.commit j).entry).slot)) ∧
  (∃ (s : State) (j : Fin 16) (r : Nat), ((s.dev.commit j).state = .reverting) ∧ ((s.dev.commit j).detour = some r)) ∧
  (∃ (s : State) (tag z j : Nat), (((s.dev.closes (z + 2 * Config.ms)).checkOutcome tag z).jobOfTag tag = some j)) ∧
  (∃ (s : State) (tag z : Nat), (((s.dev.closes (z + 2 * Config.ms)).checkOutcome tag z).jobOfTag tag = none)) ∧
  (∃ (s : State) (p : Fin 1024) (w : Watch), (s.dev.arr.watches.find? (fun w => w.port == p.val) = some w)) := ⟨
  ⟨st { inDir .armed with jobs := [(0, { state := .running })], runs := [(0, { zenith := 10 ^ 12 })] }, 0, 10 ^ 12, by decide +kernel⟩,
  ⟨st { inDir .armed with arr := { up.arr with comets := [{ comet0 with state := .waiting }] }, eng := { up.eng with axes := (pairAxes 0 0 0).map (fun a => (a, { state := .holdClosed })) } }, 0, 0, 0, { comet0 with state := .waiting }, by decide +kernel⟩,
  ⟨st (planned { state := .acked, z := 9, stages := [stage0 []] }), 0, 1, stage0 [], by decide +kernel⟩,
  ⟨st { planned { state := .acked, z := 9, stages := [stage0 []] } with time := { up.time with strobes := [{ z := 9, pods := [0], tag := 3, job := 0 }] } }, 0, 1, stage0 [], { z := 9, pods := [0], tag := 3, job := 0 }, by decide +kernel⟩,
  ⟨st (planned { state := .acked, z := 9, armed := true }), 0, by decide +kernel⟩,
  ⟨st (planned { state := .acked, z := 9 }), 0, by decide +kernel⟩,
  ⟨st (planned { state := .voted, z := 9 }), 0, by decide +kernel⟩,
  ⟨st (planned { state := .acked, z := 9, detour := some 0, armed := true }), 0, 0, by decide +kernel⟩,
  ⟨st (planned { state := .acked, z := 9 }), 0, 1, by decide +kernel⟩,
  ⟨st (planned { state := .flipping, z := 9 }), 0, 1, _, by decide +kernel, rfl, by decide +kernel, by decide +kernel⟩,
  ⟨st (planned { state := .flipping, z := 9 }), 0, _, _, _, by decide +kernel, rfl, rfl, rfl, by decide +kernel⟩,
  ⟨st (planned { state := .flipping, z := 9, stages := [stage0 []] }), 0, 1, stage0 [], by decide +kernel⟩,
  ⟨st (planned { state := .flipping, z := 9, stages := [stage0 [3]] }), 0, 1, stage0 [3], by decide +kernel⟩,
  ⟨st (planned { state := .flipping, z := 9 }), 0, _, _, _, _, _, _, _, by decide +kernel, by decide +kernel, rfl, rfl, rfl, rfl, rfl, rfl, by decide +kernel, rfl⟩,
  ⟨st (planned { state := .reverting, z := 9, detour := some 0 }), 0, 0, by decide +kernel⟩,
  ⟨st (planned {}), 7, 9, 0, by decide +kernel⟩,
  ⟨st up, 7, 9, by decide +kernel⟩,
  ⟨st { up with arr := { up.arr with watches := [{ port := 0, till := 5, comet := 1 }] } }, 0, { port := 0, till := 5, comet := 1 }, by decide +kernel⟩⟩

/-- States and operands that meet the conditions of each clause of LaserCommands. -/
theorem witness_LaserCommands :
  (∃ (s : State) (slot : Fin 4) (short : Fin 256), ((s.dev.laser slot).state = .enabling) ∧ (s.dev.grantOf 4 slot = none)) ∧
  (∃ (s : State) (slot : Fin 4) (m : Fin 8), (s.dev.laserLit slot m = true)) ∧
  (∃ (s : State) (slot : Fin 4) (m : Fin 8), ((s.dev.laser slot).present = false)) ∧
  (∃ (s : State) (slot : Fin 4) (m : Fin 8) (d : Dev), ((s.dev.laser slot).present = true) ∧ (d = s.dev.modLaser slot (fun x => { x with alarm := setBit x.alarm m true })) ∧ (m.val < lasersOf slot) ∧ ((d.laser slot).dead.testBit m = false)) ∧
  (∃ (s : State) (slot : Fin 4) (m : Fin 8) (d : Dev), ((s.dev.laser slot).present = true) ∧ (d = s.dev.modLaser slot (fun x => { x with alarm := setBit x.alarm m true })) ∧ (lasersOf slot ≤ m.val ∨ (d.laser slot).dead.testBit m = true)) ∧
  (∃ (s : State) (slot : Fin 4) (power : List Int) (temp : Int), ((s.dev.laser slot).present = true)) ∧
  (∃ (s : State) (l : Fin 295) (k : Fin 8) (offset : Int) (powerOk : Bool) (c : Nat), (l.val < 39) ∧ (c = s.dev.ctxOfLane l k) ∧ (32 ≤ l.val ∨ s.dev.isC = true) ∧ (s.dev.laneFed l k = true) ∧ ((s.dev.lane c k).locked = true) ∧ (3000 < offset.natAbs ∨ powerOk = false)) ∧
  (∃ (s : State) (l : Fin 295) (k : Fin 8) (offset : Int) (powerOk : Bool) (c : Nat), (l.val < 39) ∧ (c = s.dev.ctxOfLane l k) ∧ (32 ≤ l.val ∨ s.dev.isC = true) ∧ (s.dev.laneFed l k = true) ∧ ((s.dev.lane c k).locked = false) ∧ (offset.natAbs ≤ 1000) ∧ (powerOk = true) ∧ (7 ≤ (s.dev.lane c k).okRun)) ∧
  (∃ (s : State) (l : Fin 295) (k : Fin 8) (offset : Int) (powerOk : Bool) (x : Nat), (l.val = x + 39) ∧ (s.dev.podLit (x / 4) = true) ∧ ((s.dev.probeAt x).tx.locked = true) ∧ ((s.dev.probeAt x).tx.state = .active) ∧ (3000 < offset.natAbs ∨ powerOk = false)) ∧
  (∃ (s : State) (l : Fin 295) (k : Fin 8) (offset : Int) (powerOk : Bool) (x : Nat), (l.val = x + 39) ∧ (s.dev.podLit (x / 4) = true) ∧ ((s.dev.probeAt x).tx.locked = false) ∧ ((s.dev.probeAt x).tx.state ≠ .settling) ∧ ((s.dev.probeAt x).tx.state ≠ .calibrating) ∧ (offset.natAbs ≤ 1000) ∧ (powerOk = true) ∧ (7 ≤ (s.dev.probeAt x).tx.okRun)) := ⟨
  ⟨st (laserIn { state := .enabling }), 0, 0, by decide +kernel⟩,
  ⟨st (laserIn { state := .lit, lit := 255 }), 0, 0, by decide +kernel⟩,
  ⟨st (laserIn {}), 0, 0, by decide +kernel⟩,
  ⟨st (laserIn { state := .enabling, present := true }), 0, 0, _, by decide +kernel, rfl, by decide +kernel, by decide +kernel⟩,
  ⟨st (laserIn { state := .lit, present := true, lit := 255, dead := 1 }), 0, 0, _, by decide +kernel, rfl, .inr (by decide +kernel)⟩,
  ⟨st (laserIn { state := .lit, present := true, lit := 255 }), 0, [], 30, by decide +kernel⟩,
  ⟨st (linkIn 32 { lanes := [(0, { state := .active, locked := true })] }), 32, 0, 4000, true, 32, by decide +kernel⟩,
  ⟨st (linkIn 32 { lanes := [(0, { state := .locking, okRun := 7 })] }), 32, 0, 4, true, 32, by decide +kernel⟩,
  ⟨st (probeIn { state := .active, locked := true }), 39, 0, 4000, true, 0, by decide +kernel⟩,
  ⟨st (probeIn { state := .locking, okRun := 7 }), 39, 0, 4, true, 0, by decide +kernel⟩⟩

/-- States and operands that meet the conditions of each clause of ModulatorCommands. -/
theorem witness_ModulatorCommands :
  (∃ (s : State) (l : Fin 295) (k : Fin 8), (l.val < 39) ∧ ((s.dev.lane (s.dev.ctxOfLane l k) k).state ≠ .active)) ∧
  (∃ (s : State) (l : Fin 295) (k : Fin 8) (c : Nat) (d : Dev), (l.val < 39) ∧ (c = s.dev.ctxOfLane l k) ∧ ((s.dev.lane c k).state = .active) ∧ ((s.dev.link l).lanes.any (fun e => e.2.state == .calibrating) = false) ∧ ((s.dev.link (64 + l)).lanes.any (fun e => e.2.state == .calibrating) = false) ∧ (d = s.dev.reach ((s.dev.lane c k).calAt + s.dev.nat 0x2A00 2 * Config.sec)) ∧ ((decide (l.val < 32) && d.serviceZenithNear l) = false)) ∧
  (∃ (s : State) (l : Fin 295) (k : Fin 8) (x : Nat) (d : Dev), (l.val = x + 39) ∧ ((s.dev.probeAt x).tx.state = .active) ∧ (∀ p ∈ xcvrPorts x, (s.dev.port p).queue = []) ∧ (d = s.dev.reach ((s.dev.probeAt x).tx.calAt + s.dev.nat 0x2A00 2 * Config.sec))) ∧
  (∃ (s : State) (l : Fin 295) (k : Fin 8), (l.val < 39) ∧ ((s.dev.lane (s.dev.ctxOfLane l k) k).state = .calibrating)) ∧
  (∃ (s : State) (l : Fin 295) (k : Fin 8) (x : Nat), (l.val = x + 39) ∧ ((s.dev.probeAt x).tx.state = .calibrating)) ∧
  (∃ (s : State) (l : Fin 295) (k : Fin 8), (l.val < 39) ∧ ((s.dev.link (s.dev.ctxOfLane l k)).active.testBit k = false ∨ (s.dev.lane (s.dev.ctxOfLane l k) k).state = .active)) ∧
  (∃ (s : State) (l : Fin 295) (k : Fin 8) (d : Dev), (l.val < 39) ∧ ((s.dev.link (s.dev.ctxOfLane l k)).active.testBit k = true) ∧ ((s.dev.lane (s.dev.ctxOfLane l k) k).state = .settling) ∧ (d = (s.dev.reach ((s.dev.lane (s.dev.ctxOfLane l k) k).leftAt + s.dev.nat 0x2A00 1 * Config.us)).dropLane (s.dev.ctxOfLane l k) k) ∧ ((d.link (s.dev.ctxOfLane l k)).holding = true) ∧ (s.dev.ctxOfLane l k ≠ 38)) ∧
  (∃ (s : State) (l : Fin 295) (k : Fin 8) (x : Nat), (l.val = x + 39) ∧ ((s.dev.probeAt x).tx.state = .settling ∨ (s.dev.probeAt x).tx.state = .calibrating)) ∧
  (∃ (s : State) (l type cls dest : Nat) (payload : Bytes), (l < 39) ∧ (isReservedChip dest = false) ∧ (type ≠ 0) ∧ (cls < 3) ∧ (payload.length ≤ 9216)) ∧
  (∃ (s : State) (l k type c : Nat) (payload : Bytes), (l < 39) ∧ (k < lanesOf l) ∧ (type ≠ 0) ∧ (payload.length ≤ 9216) ∧ (c = s.dev.ctxOfLane l k) ∧ ((s.dev.lane c k).locked = true) ∧ ((s.dev.lane c k).state = .active ∨ (s.dev.lane c k).state = .aligning)) ∧
  (∃ (s : State) (l k type c : Nat) (payload : Bytes), (l < 39) ∧ (k < lanesOf l) ∧ (type ≠ 0) ∧ (payload.length ≤ 9216) ∧ (c = s.dev.ctxOfLane l k) ∧ ((s.dev.lane c k).locked = false)) ∧
  (∃ (s : State) (p type : Nat) (payload : Bytes), (p < 1024) ∧ (s.dev.txReady p = true ∨ s.dev.txHeld p = true)) ∧
  (∃ (s : State) (p type : Nat) (payload : Bytes), (p < 1024) ∧ (s.dev.txReady p = false) ∧ (s.dev.txHeld p = false)) ∧
  (∃ (s : State) (l : Fin 39) (k : Fin 8) (sync active rxAligned first : Nat) (hcrcOk : Bool) (c : Nat), (c = s.dev.ctxOfLane l k) ∧ (s.dev.isOn (domainOf l) = true) ∧ (s.dev.linkEnabled c = true) ∧ (k.val < lanesOf l) ∧ ((s.dev.link c).rxMask = 0) ∧ ((sync == 0x5AC3 && hcrcOk) = false)) ∧
  (∃ (s : State) (l : Fin 39) (k : Fin 8) (active rxAligned first c : Nat) (d : Dev), (c = s.dev.ctxOfLane l k) ∧ (s.dev.isOn (domainOf l) = true) ∧ (s.dev.linkEnabled c = true) ∧ (k.val < lanesOf l) ∧ (d = s.dev.modLane c k (fun x => x.header true)) ∧ ((d.link c).rxMask = (s.dev.link c).rxMask) ∧ ((bitsOf 8 (d.link c).rxMask).head? = some k.val)) ∧
  (∃ (s : State) (l : Fin 39) (k : Fin 8) (active rxAligned first c : Nat) (d : Dev), (c = s.dev.ctxOfLane l k) ∧ (s.dev.isOn (domainOf l) = true) ∧ (s.dev.linkEnabled c = true) ∧ (k.val < lanesOf l) ∧ (d = s.dev.modLane c k (fun x => x.header true)) ∧ ((d.link c).rxMask = (s.dev.link c).rxMask) ∧ ((bitsOf 8 (d.link c).rxMask).head? ≠ some k.val)) := ⟨
  ⟨st (linkIn 32 { lanes := [(0, { state := .locking, okRun := 7 })] }), 32, 0, by decide +kernel⟩,
  ⟨st (linkIn 32 { lanes := [(0, { state := .active, okRun := 7 })] }), 32, 0, 32, _, by decide +kernel, by decide +kernel, by decide +kernel, by decide +kernel, by decide +kernel, rfl, by decide +kernel⟩,
  ⟨st (probeIn { state := .active, locked := true }), 39, 0, 0, _, by decide +kernel, by decide +kernel, by decide +kernel, rfl⟩,
  ⟨st (linkIn 32 { lanes := [(0, { state := .calibrating })] }), 32, 0, by decide +kernel⟩,
  ⟨st (probeIn { state := .calibrating }), 39, 0, 0, by decide +kernel⟩,
  ⟨st (linkIn 32 { lanes := [(0, { state := .active })] }), 32, 0, by decide +kernel⟩,
  ⟨st (linkIn 32 holding0), 32, 0, _, by decide +kernel, by decide +kernel, by decide +kernel, rfl, by decide +kernel, by decide +kernel⟩,
  ⟨st (probeIn { state := .settling }), 39, 0, 0, by decide +kernel⟩,
  ⟨st up, 32, 8, 0, 0, [], by decide +kernel⟩,
  ⟨st (linkIn 32 { lanes := [(0, { state := .active, locked := true })] }), 32, 0, 8, 32, [], by decide +kernel⟩,
  ⟨st (linkIn 32 { lanes := [(0, { state := .active })] }), 32, 0, 8, 32, [], by decide +kernel⟩,
  ⟨st (probeIn { state := .active }), 0, 8, [], by decide +kernel⟩,
  ⟨st up, 0, 8, [], by decide +kernel⟩,
  ⟨st (linkIn 32 {}), 32, 0, 0, 0, 0, 0, true, 32, by decide +kernel⟩,
  ⟨st (linkIn 32 linked0), 32, 0, 3, 1, 0, 32, _, by decide +kernel, by decide +kernel, by decide +kernel, by decide +kernel, rfl, by decide +kernel, by decide +kernel⟩,
  ⟨st (linkIn 32 linked0), 32, 1, 3, 1, 0, 32, _, by decide +kernel, by decide +kernel, by decide +kernel, by decide +kernel, rfl, by decide +kernel, by decide +kernel⟩⟩

/-- States and operands that meet the conditions of each clause of LinkFrames. -/
theorem witness_LinkFrames :
  (∃ (s : State) (l : Fin 39) (type cls seq dest : Nat) (source : FrameFrom) (payload : Bytes) (hcrcOk crcOk : Bool), ((s.dev.link (s.dev.ctxOfLane l source.lane)).resync = true)) ∧
  (∃ (s : State) (l : Fin 39) (type cls seq dest : Nat) (source : FrameFrom) (payload : Bytes) (crcOk : Bool) (c : Nat), (c = s.dev.ctxOfLane l source.lane) ∧ ((s.dev.link c).rxMask ≠ 0) ∧ ((s.dev.link c).resync = false)) ∧
  (∃ (s : State) (l : Fin 39) (type cls seq dest : Nat) (source : FrameFrom) (payload : Bytes) (c : Nat), (c = s.dev.ctxOfLane l source.lane) ∧ ((s.dev.link c).rxMask ≠ 0) ∧ ((s.dev.link c).resync = false)) ∧
  (∃ (s : State) (l : Fin 39) (type cls seq dest : Nat) (source : FrameFrom) (payload : Bytes) (os : List Output) (c : Nat), (c = s.dev.ctxOfLane l source.lane) ∧ ((s.dev.link c).context.isSome = true) ∧ ((s.dev.link c).rxMask ≠ 0) ∧ ((s.dev.link c).resync = false) ∧ (frameClass l type = some cls) ∧ (outwards type = false) ∧ (os = (if isReservedChip dest then [] else [.delivered l type cls source.chip dest payload source.poison]))) ∧
  (∃ (s : State) (l : Fin 39) (ack1 ack2 : Nat) (nak : AckFrom) (c : Nat) (d : Dev), (c = s.dev.ctxOfLane l nak.lane) ∧ ((s.dev.link c).context.isSome = true) ∧ (nak.nak.testBit 0 = false) ∧ (nak.nak.testBit 1 = false) ∧ (d = (s.dev.modLink c (fun y => { y with unacked1 := y.unacked1.drop (ackedCount (s.dev.link c).unacked1 ack1), unacked2 := y.unacked2.drop (ackedCount (s.dev.link c).unacked2 ack2), progressAt := if 0 < ackedCount (s.dev.link c).unacked1 ack1 || 0 < ackedCount (s.dev.link c).unacked2 ack2 then s.dev.now else y.progressAt })).drainFrames c)) ∧
  (∃ (s : State) (l : Fin 39), ((s.dev.link l).isUp = true) ∧ ((s.dev.link l).unacked1.isEmpty = false) ∧ ((s.dev.link (64 + l)).isUp = false)) ∧
  (∃ (s : State) (l : Fin 39) (x : Train) (c : Nat), (c = s.dev.ctxOfLane l x.lane) ∧ (s.dev.isOn (domainOf l) = true) ∧ (s.dev.linkEnabled c = true) ∧ ((s.dev.link c).rxMask ≠ 0) ∧ (x.cls = (if l.val < 32 then 1 else if l.val < 38 then 2 else 3))) ∧
  (∃ (s : State) (l : Fin 39) (x : Train) (c : Nat), (c = s.dev.ctxOfLane l x.lane) ∧ (s.dev.isOn (domainOf l) = true) ∧ (s.dev.linkEnabled c = true) ∧ ((s.dev.link c).rxMask ≠ 0) ∧ (x.cls ≠ (if l.val < 32 then 1 else if l.val < 38 then 2 else 3))) ∧
  (∃ (s : State) (l : Fin 39), (s.dev.opt.links.any (fun e => e.1 = 64 + l.val) = false) ∧ (s.dev.isOn (domainOf l) = true) ∧ (s.dev.linkEnabled l = true) ∧ ((s.dev.link l).isUp = false) ∧ ((s.dev.link l).active ≠ 0) ∧ ((s.dev.sendTrain l).opt.links.any (fun e => e.1 = 64 + l.val) = false)) ∧
  (∃ (s : State) (l : Fin 39), (s.dev.isOn (domainOf l) = true) ∧ (s.dev.linkEnabled l = true) ∧ ((s.dev.link l).isUp = false) ∧ ((s.dev.link l).trainId ≠ 0) ∧ ((s.dev.link (64 + l)).trainId = 0)) := ⟨
  ⟨st (linkIn 32 { linked0 with resync := true }), 32, 8, 0, 1, 0xF000, ⟨0, 0xF001, false⟩, [], true, true, by decide +kernel⟩,
  ⟨st (linkIn 32 linked0), 32, 8, 0, 1, 0xF000, ⟨0, 0xF001, false⟩, [], false, 32, by decide +kernel⟩,
  ⟨st (linkIn 32 linked0), 32, 8, 0, 1, 0xF000, ⟨0, 0xF001, false⟩, [], 32, by decide +kernel⟩,
  ⟨st (linkIn 32 linked0), 32, 8, 0, 1, 0xF000, ⟨0, 0xF001, false⟩, [], _, 32, by decide +kernel, by decide +kernel, by decide +kernel, by decide +kernel, by decide +kernel, by decide +kernel, rfl⟩,
  ⟨st (linkIn 32 linked0), 32, 1, 1, ⟨0, 0⟩, 32, _, by decide +kernel, by decide +kernel, by decide +kernel, by decide +kernel, rfl⟩,
  ⟨st (linkIn 32 { linked0 with state := .up, unacked1 := [(1, frame1)] }), 32, by decide +kernel⟩,
  ⟨st (linkIn 32 linked0), 32, ⟨0, 2, 15, 9216, 0xF001, 0, 5, 0⟩, 32, by decide +kernel⟩,
  ⟨st (linkIn 32 linked0), 32, ⟨0, 1, 15, 9216, 0xF001, 0, 5, 0⟩, 32, by decide +kernel⟩,
  ⟨st (linkIn 32 { active := 15 }), 32, by decide +kernel⟩,
  ⟨st (linkIn 32 { state := .training, trainId := 4 }), 32, by decide +kernel⟩⟩

/-- States and operands that meet the conditions of each clause of ProbeCommands. -/
theorem witness_ProbeCommands :
  (∃ (s : State) (p : Fin 1024), (s.dev.isOn 10 = true) ∧ ((s.dev.port p).light = false) ∧ ((s.dev.port p).state ≠ .absent) ∧ ((s.dev.modPort p (fun y => { y with light := true, lightSince := s.dev.now, everLight := true, helloSent := false })).xcvrIdle (xcvrOf p) = true)) ∧
  (∃ (s : State) (p : Fin 1024), (s.dev.isOn 10 = true) ∧ ((s.dev.port p).light = true)) ∧
  (∃ (s : State) (x : Fin 256) (cur p : Nat), ((s.dev.probeAt x).port = some cur) ∧ (s.dev.nextPort x = some p) ∧ ((s.dev.port cur).awaiting = none)) ∧
  (∃ (s : State) (x : Fin 256) (p : Nat), ((s.dev.probeAt x).port = none) ∧ (s.dev.nextPort x = some p)) ∧
  (∃ (s : State) (p : Fin 1024) (n at_ : Nat), ((s.dev.port p).awaiting = some (5, n, at_))) ∧
  (∃ (s : State) (p : Fin 1024) (n at_ ty : Nat), ((s.dev.port p).awaiting = some (ty, n, at_)) ∧ (ty ≠ 5) ∧ (ty ≠ 1)) ∧
  (∃ (s : State) (p : Fin 1024), ((s.dev.port p).queue.isEmpty = false)) := ⟨
  ⟨st (portIn { state := .probing }), 0, by decide +kernel⟩,
  ⟨st (portIn { state := .probing, light := true }), 0, by decide +kernel⟩,
  ⟨st (portIn { state := .probing }), 0, 0, 1, by decide +kernel⟩,
  ⟨st { portIn { state := .probing } with opt := up.opt }, 0, 1, by decide +kernel⟩,
  ⟨st (portIn { state := .identified, awaiting := some (5, 2, 0) }), 0, 2, 0, by decide +kernel⟩,
  ⟨st (portIn { state := .identified, awaiting := some (7, 2, 0) }), 0, 2, 0, 7, by decide +kernel⟩,
  ⟨st (portIn { state := .identified, queue := [{ type := 7, seq := 1, echo := 0, payload := [] }] }), 0, by decide +kernel⟩⟩

/-- States and operands that meet the conditions of each clause of MapenFrames. -/
theorem witness_MapenFrames :
  (∃ (s : State) (p : Fin 1024) (f : Mapen) (twin profileMax attempt nonce : Nat), (s.dev.Opens p 1 f) ∧ (f.echo = 0xFFFF) ∧ ((s.dev.heard p).watchOf p = none) ∧ ((s.dev.heard p).tooSoon p = false) ∧ (twin = 0xFF ∧ profileMax ≠ 0 ∧ attempt ≤ 8 ∧ nonce < 2 ^ 32)) ∧
  (∃ (s : State) (p : Fin 1024) (f : Mapen) (i : Ident), (s.dev.Opens p 2 f) ∧ ((((s.dev.heard p).port p).answers f 1 && (((s.dev.heard p).port p).state == .probing || ((s.dev.heard p).port p).state == .absent || (((s.dev.heard p).port p).state == .identified && ((s.dev.heard p).port p).reident))) = true) ∧ (some i.nonce = ((s.dev.heard p).port p).nonce) ∧ (((s.dev.heard p).modPort p (fun y => { y with awaiting := none })).identRefusal p i = 0)) ∧
  (∃ (s : State) (p : Fin 1024) (f : Mapen) (acked : Nat), (s.dev.Opens p 3 f) ∧ (((s.dev.heard p).port p).answers f acked = true) ∧ (acked = 7 ∨ acked = 8 ∨ acked = 9)) ∧
  (∃ (s : State) (p : Fin 1024) (f : Mapen) (naked code detail : Nat), (s.dev.Opens p 4 f) ∧ ((((s.dev.heard p).port p).awaiting.map (·.2.1) == some f.echo) = true) ∧ (1 ≤ naked) ∧ (naked ≤ 9) ∧ (nakListed code = true)) ∧
  (∃ (s : State) (p : Fin 1024) (f : Mapen) (naked code detail : Nat), (s.dev.Opens p 4 f) ∧ ((((s.dev.heard p).port p).awaiting.map (·.2.1) == some f.echo) = true) ∧ (naked = 0 ∨ 9 < naked ∨ nakListed code = false)) ∧
  (∃ (s : State) (p : Fin 1024) (f : Mapen) (defSeq status : Nat), (s.dev.Opens p 5 f) ∧ (((s.dev.heard p).port p).answers f 5 = true) ∧ (status ≤ 1 ∧ defSeq < 2 ^ 32)) ∧
  (∃ (s : State) (p : Fin 1024) (f : Mapen) (cause : Nat), (s.dev.Opens p 9 f) ∧ (f.echo = 0xFFFF) ∧ ((s.dev.heard p).tooSoon p = false) ∧ (1 ≤ cause ∧ cause ≤ 5) ∧ (((((s.dev.heard p).noteUnsolicited p).answer p 9 f 3 [9, 0, 0, 0]).port p).state = .identified)) ∧
  (∃ (s : State) (p : Fin 1024) (f : Mapen) (twin profileMax attempt nonce : Nat), (s.dev.Opens p 1 f) ∧ (f.echo ≠ 0xFFFF) ∧ ((s.dev.heard p).watchOf p = none)) ∧
  (∃ (s : State) (p : Fin 1024) (f : Mapen) (naked code detail : Nat), (s.dev.Opens p 4 f) ∧ ((((s.dev.heard p).port p).awaiting.map (·.2.1) == some f.echo) = false)) ∧
  (∃ (s : State) (p : Fin 1024) (f : Mapen) (cause : Nat), (s.dev.Opens p 9 f) ∧ (f.echo ≠ 0xFFFF)) ∧
  (∃ (s : State) (p : Fin 1024), (s.dev.hears p = true) ∧ ((s.dev.crcRecent p).length ≠ 63)) ∧
  (∃ (s : State) (p : Fin 1024), (s.dev.hears p = true) ∧ ((s.dev.crcRecent p).length = 63)) ∧
  (∃ (s : State) (p : Fin 1024) (f : Mapen) (type version length : Nat), (s.dev.hears p = true) ∧ (f.poison = false) ∧ (type = 0 ∨ 9 < type) ∧ ((s.dev.port p).answerOf type f = none) ∧ (((s.dev.bump (0x2A40 + podOf p) 3).port p).state ≠ .quarantined)) := ⟨
  ⟨st (portIn { state := .probing }), 0, mapenFirst, 0xFF, 1, 0, 9, opens_of _ _ _ _ (by decide +kernel) (by decide +kernel) (by decide +kernel) (by decide +kernel), by decide +kernel, by decide +kernel, by decide +kernel, by decide +kernel⟩,
  ⟨st (portIn { state := .probing, awaiting := some (1, 2, 0), nonce := some 9 }), 0, mapen0, ident0, opens_of _ _ _ _ (by decide +kernel) (by decide +kernel) (by decide +kernel) (by decide +kernel), by decide +kernel, by decide +kernel, by decide +kernel⟩,
  ⟨st (portIn { port0 with awaiting := some (7, 2, 0) }), 0, mapen0, 7, opens_of _ _ _ _ (by decide +kernel) (by decide +kernel) (by decide +kernel) (by decide +kernel), by decide +kernel, by decide +kernel⟩,
  ⟨st (portIn port0), 0, mapen0, 5, 1, 0, opens_of _ _ _ _ (by decide +kernel) (by decide +kernel) (by decide +kernel) (by decide +kernel), by decide +kernel, by decide +kernel, by decide +kernel, by decide +kernel⟩,
  ⟨st (portIn port0), 0, mapen0, 10, 1, 0, opens_of _ _ _ _ (by decide +kernel) (by decide +kernel) (by decide +kernel) (by decide +kernel), by decide +kernel, by decide +kernel⟩,
  ⟨st (portIn port0), 0, mapen0, 1, 1, opens_of _ _ _ _ (by decide +kernel) (by decide +kernel) (by decide +kernel) (by decide +kernel), by decide +kernel, by decide +kernel⟩,
  ⟨st (portIn port0), 0, mapenFirst, 1, opens_of _ _ _ _ (by decide +kernel) (by decide +kernel) (by decide +kernel) (by decide +kernel), by decide +kernel, by decide +kernel, by decide +kernel, by decide +kernel⟩,
  ⟨st (portIn { state := .probing }), 0, mapen0, 0xFF, 1, 0, 9, opens_of _ _ _ _ (by decide +kernel) (by decide +kernel) (by decide +kernel) (by decide +kernel), by decide +kernel, by decide +kernel⟩,
  ⟨st (portIn port0), 0, mapenFirst, 5, 1, 0, opens_of _ _ _ _ (by decide +kernel) (by decide +kernel) (by decide +kernel) (by decide +kernel), by decide +kernel⟩,
  ⟨st (portIn port0), 0, mapen0, 1, opens_of _ _ _ _ (by decide +kernel) (by decide +kernel) (by decide +kernel) (by decide +kernel), by decide +kernel⟩,
  ⟨st (portIn port0), 0, by decide +kernel⟩,
  ⟨st (portIn { port0 with crcTimes := List.replicate 63 0 }), 0, by decide +kernel⟩,
  ⟨st (portIn port0), 0, mapen0, 12, 1, 16, by decide +kernel⟩⟩

/-- States and operands that meet the conditions of each clause of MapenTimers. -/
theorem witness_MapenTimers :
  (∃ (s : State) (p : Fin 1024), (s.dev.podLit (podOf p) = false)) ∧
  (∃ (s : State) (p : Fin 1024) (n : Nat), (s.dev.podLit (podOf p) = true) ∧ ((s.dev.port p).state = .probing) ∧ ((s.dev.port p).backoff = false) ∧ (n = (s.dev.port p).attemptAt + ((s.dev.now - (s.dev.port p).attemptAt) / (s.dev.nat 0x2B00 1 * Config.ms) + 1) * (s.dev.nat 0x2B00 1 * Config.ms)) ∧ (n < (s.dev.port p).attemptAt + s.dev.nat 0x2B00 2 * Config.ms)) ∧
  (∃ (s : State) (p : Fin 1024), (s.dev.podLit (podOf p) = true) ∧ ((s.dev.port p).state = .probing) ∧ ((s.dev.port p).backoff = false) ∧ ((s.dev.reach ((s.dev.port p).attemptAt + s.dev.nat 0x2B00 2 * Config.ms)).nat 0x2B00 3 ≤ (s.dev.port p).attempt)) ∧
  (∃ (s : State) (p : Fin 1024), (s.dev.podLit (podOf p) = true) ∧ ((s.dev.port p).state = .probing) ∧ ((s.dev.port p).backoff = false) ∧ ((s.dev.port p).attempt < (s.dev.reach ((s.dev.port p).attemptAt + s.dev.nat 0x2B00 2 * Config.ms)).nat 0x2B00 3)) ∧
  (∃ (s : State) (p : Fin 1024), ((s.dev.port p).state = .probing) ∧ ((s.dev.port p).backoff = true) ∧ (s.dev.podLit (podOf p) = true)) ∧
  (∃ (s : State) (p : Fin 1024), ((s.dev.port p).state = .absent) ∧ (s.dev.podLit (podOf p) = true)) ∧
  (∃ (s : State) (p : Fin 1024), ((s.dev.port p).light = false) ∧ ((s.dev.port p).everLight = true) ∧ ((s.dev.port p).state = .identified)) ∧
  (∃ (s : State) (p : Fin 1024), ((s.dev.port p).light = false) ∧ ((s.dev.port p).everLight = true) ∧ ((s.dev.port p).state = .probing ∨ (s.dev.port p).state = .training)) ∧
  (∃ (s : State) (p : Fin 1024) (d : Dev), ((s.dev.port p).state = .identified) ∧ (s.dev.podLit (podOf p) = true) ∧ (d = ((s.dev.reach ((s.dev.port p).lastKeepalive + s.dev.nat 0x2B00 7 * Config.ms)).modPort p (fun y => { y with lastKeepalive := (s.dev.reach ((s.dev.port p).lastKeepalive + s.dev.nat 0x2B00 7 * Config.ms)).now })).muteCheck p) ∧ ((d.port p).state = .identified)) ∧
  (∃ (s : State) (p : Fin 1024), ((s.dev.port p).state = .quarantined)) ∧
  (∃ (s : State) (p : Fin 1024) (r : Repeat), ((s.dev.port p).repeats = [r]) ∧ (r.sends < 5)) ∧
  (∃ (s : State) (p : Fin 1024) (r : Repeat), ((s.dev.port p).repeats = [r]) ∧ (5 ≤ r.sends)) := ⟨
  ⟨st up, 0, by decide +kernel⟩,
  ⟨st (portIn { state := .probing }), 0, _, by decide +kernel, by decide +kernel, by decide +kernel, rfl, by decide +kernel⟩,
  ⟨st (portIn { state := .probing, attempt := 100 }), 0, by decide +kernel⟩,
  ⟨st (portIn { state := .probing }), 0, by decide +kernel⟩,
  ⟨st (portIn { state := .probing, backoff := true }), 0, by decide +kernel⟩,
  ⟨st (portIn { state := .absent }), 0, by decide +kernel⟩,
  ⟨st (portIn { port0 with everLight := true }), 0, by decide +kernel⟩,
  ⟨st (portIn { state := .probing, everLight := true }), 0, by decide +kernel⟩,
  ⟨st (portIn port0), 0, _, by decide +kernel, by decide +kernel, rfl, by decide +kernel⟩,
  ⟨st (portIn { state := .quarantined }), 0, by decide +kernel⟩,
  ⟨st (portIn { port0 with repeats := [{ type := 7, seq := 1, payload := [], sends := 1, lastAt := 0 }] }), 0, { type := 7, seq := 1, payload := [], sends := 1, lastAt := 0 }, by decide +kernel⟩,
  ⟨st (portIn { port0 with repeats := [{ type := 7, seq := 1, payload := [], sends := 5, lastAt := 0 }] }), 0, { type := 7, seq := 1, payload := [], sends := 5, lastAt := 0 }, by decide +kernel⟩⟩

/-- States and operands that meet the conditions of each clause of DiscoveryCommands. -/
theorem witness_DiscoveryCommands :
  (∃ (s : State) (i : Fin 7) (x : DiscHello), ((s.dev.link (neighbourLink i)).isUp = true) ∧ (helloListed x = true) ∧ (i.val ≠ 6)) ∧
  (∃ (s : State) (i : Fin 7) (x : DiscHello), ((s.dev.link (neighbourLink i)).isUp = true) ∧ (helloListed x = true) ∧ (i.val = 6)) ∧
  (∃ (s : State) (i : Fin 7) (x : DiscState), (s.dev.discOpen i = true) ∧ ((s.dev.link (neighbourLink i)).isUp = true) ∧ (x.twin < 2) ∧ (x.state < 9)) ∧
  (∃ (s : State) (i : Fin 7) (kind port seen expected : Nat), ((s.dev.link (neighbourLink i)).isUp = true) ∧ (1 ≤ kind) ∧ (kind ≤ 3 ∨ kind = 4 ∧ (i.val ≠ 6 ∨ (s.dev.bump 0x2B12 1).disc.twinJoin ≠ 1))) ∧
  (∃ (s : State) (i : Fin 7) (kind port seen expected : Nat), ((s.dev.link (neighbourLink i)).isUp = true) ∧ (kind = 4) ∧ (i.val = 6) ∧ ((s.dev.bump 0x2B12 1).disc.twinJoin = 1)) ∧
  (∃ (s : State), (s.dev.isOn 3 = true)) ∧
  (∃ (s : State), (s.dev.isOn 3 = true)) ∧
  (∃ (s : State) (chip : Nat) (twin : Fin 2) (e : DiscEntry), (s.dev.disc.entries.find? (fun e => e.chip == chip && e.twin == twin.val) = some e)) ∧
  (∃ (s : State) (i : Fin 7), ((s.dev.neighbour i).status ≠ .down)) ∧
  (∃ (s : State) (i : Fin 7) (x : DiscHello), ((s.dev.link (neighbourLink i)).isUp = true) ∧ (helloListed x = false)) ∧
  (∃ (s : State) (i : Fin 7) (x : DiscState), (s.dev.discOpen i = true) ∧ ((s.dev.link (neighbourLink i)).isUp = true) ∧ (2 ≤ x.twin ∨ 9 ≤ x.state)) ∧
  (∃ (s : State) (i : Fin 7) (kind port seen expected : Nat), ((s.dev.link (neighbourLink i)).isUp = true) ∧ (kind = 0 ∨ 4 < kind)) := ⟨
  ⟨st (portIn port0), 0, hello0, by decide +kernel⟩,
  ⟨st (linkIn 38 { state := .up }), 6, hello0, by decide +kernel⟩,
  ⟨st (portIn port0), 0, ⟨0xF001, 0, 3, 0, 1, 0, 0, 0⟩, by decide +kernel⟩,
  ⟨st (portIn port0), 0, 1, 0, 1, 2, by decide +kernel⟩,
  ⟨st { linkIn 38 { state := .up } with disc := { up.disc with twinJoin := 1 } }, 6, 4, 0, 1, 2, by decide +kernel⟩,
  ⟨st up, by decide +kernel⟩,
  ⟨st up, by decide +kernel⟩,
  ⟨st { up with disc := { up.disc with entries := [{ chip := 0xF001, twin := 0, state := 3, flags := 0, seq := 1, mask := 0, since := 0, id := 0, at_ := 0 }] } }, 0xF001, 0, { chip := 0xF001, twin := 0, state := 3, flags := 0, seq := 1, mask := 0, since := 0, id := 0, at_ := 0 }, by decide +kernel⟩,
  ⟨st linked, 0, by decide +kernel⟩,
  ⟨st (portIn port0), 0, { hello0 with state := 9 }, by decide +kernel⟩,
  ⟨st (portIn port0), 0, ⟨0xF001, 2, 3, 0, 1, 0, 0, 0⟩, by decide +kernel⟩,
  ⟨st (portIn port0), 0, 5, 0, 1, 2, by decide +kernel⟩⟩

/-- States and operands that meet the conditions of each clause of EngineCommands. -/
theorem witness_EngineCommands :
  (∃ (s : State) (n : Fin 32) (h : SvcHdr) (data : Bytes) (j : Nat) (b : Bytes) (start : Nat), (s.dev.Serves n h j) ∧ (b = (s.dev.counted n h).plan j) ∧ (start = h.addr * gradSize b) ∧ (∀ c ∈ [(((s.dev.counted n h).engJob j).state != .active, 7), (h.format != planGrad b || h.scale != 0, 4), (h.token != ((s.dev.counted n h).engJob j).es % 2 ^ 32 || h.gen != ((s.dev.counted n h).engJob j).gen, 3), (granuleBad (gradBytes b) start data.length, 2), (decide (gradBytes b < start + data.length) || outsideSegment b n h.addr (min (planN b) (h.addr + data.length / gradSize b)), 1)], c.1 = false)) ∧
  (∃ (s : State) (n : Fin 32) (h : SvcHdr) (data : Bytes) (j : Nat) (b : Bytes), (s.dev.Serves n h j) ∧ (b = (s.dev.counted n h).plan j) ∧ (∀ c ∈ [(((s.dev.counted n h).engJob j).state != .loading, 7), (h.format != 3 || h.scale != 0, 4), (h.token != 0 || h.gen != 0, 3), (granuleBad (ceilTo 64 (4 * planN b)) (h.addr * 4) data.length, 2), (decide (ceilTo 64 (4 * planN b) < h.addr * 4 + data.length), 1)], c.1 = false)) ∧
  (∃ (s : State) (n : Fin 32) (h : SvcHdr) (data : Bytes) (j : Nat) (a w : Mach), (s.dev.Serves n h j) ∧ (∀ c ∈ [(((s.dev.counted n h).engJob j).state != .active, 7), (h.format != 0 || h.scale != 0, 4), (h.token != ((s.dev.counted n h).engJob j).stepNow % 2 ^ 32, 3), (data.length % 64 != 0 || h.addr % 2 ^ 48 % 64 != 0 || data.isEmpty || decide (8192 < data.length), 2), (h.addr / 2 ^ 48 != (s.dev.counted n h).chip || h.addr % 2 ^ 48 < (planRegion ((s.dev.counted n h).plan j) 7).1 || decide ((planRegion ((s.dev.counted n h).plan j) 7).1 + (planRegion ((s.dev.counted n h).plan j) 7).2 < h.addr % 2 ^ 48 + data.length) || decide (3839 < h.group), 1)], c.1 = false) ∧ (a = freeExtents (s.dev.counted n h, s.hbm) j (fun e => e.group == h.group && e.token != h.token)) ∧ ((a.1.engJob j).extents = []) ∧ (w = writeBytes (a.1.modEngJob j (fun y => { y with staged := (y.staged.filter (fun s => !(s.group == h.group && s.token != h.token))).map (fun s => { s with frames := s.frames.filter (fun f => !(s.group == h.group && f.1 == h.addr % 2 ^ 48)) }) }), a.2) (h.addr % 2 ^ 48) data (h.flags % 2 = 1))) ∧
  (∃ (s : State) (n : Fin 32) (h : SvcHdr) (data : Bytes) (j : Nat), (s.dev.Serves n h j) ∧ (∀ c ∈ [(decide (63 < h.group), 1), (((s.dev.counted n h).model h.group).state != .filling, 7), (h.format != 0 || h.scale != 0, 4), (h.token != 0 || h.gen != 0, 3), (data.length % 64 != 0 || h.addr % 64 != 0 || data.isEmpty || decide (8192 < data.length), 2), (decide (((s.dev.counted n h).model h.group).len < h.addr + data.length), 1)], c.1 = false)) ∧
  (∃ (s : State) (j : Fin 16), (s.dev.engineUp = true) ∧ ((s.dev.engJob j).state = .active) ∧ ((s.dev.engJob j).partial_ = none) ∧ (gradGranules (s.dev.plan j) ≤ (s.dev.engJob j).covered.length)) ∧
  (∃ (s : State) (j : Fin 16), (s.dev.engineUp = true) ∧ ((s.dev.engJob j).held = none)) ∧
  (∃ (s : State) (port : Fin 6) (tag gen shard flags step sum : Nat), (s.dev.peerOpen port = true) ∧ (s.dev.leader = some s.dev.chip)) ∧
  (∃ (s : State) (port : Fin 6) (tag gen shard flags step sum : Nat), (s.dev.peerOpen port = true) ∧ (s.dev.leader ≠ some s.dev.chip)) ∧
  (∃ (s : State) (tag step gen : Nat) (n : Norm), (s.dev.coll.norms.find? (fun n => n.tag == tag && n.step == step && n.gen == gen) = some n) ∧ (n.parts.isEmpty = false)) ∧
  (∃ (s : State) (port : Fin 6) (m : Clip), (s.dev.peerOpen port = true) ∧ (m.result ≤ 4)) ∧
  (∃ (s : State) (port : Fin 6) (tag gen step : Nat), (s.dev.peerOpen port = true)) ∧
  (∃ (s : State) (j : Fin 16) (c : Clip), ((s.dev.engJob j).held = some c) ∧ (s.dev.engineUp = true)) ∧
  (∃ (s : State) (iface : Fin 6) (source dest slot len offset destSlot : Nat), (s.dev.peerOpen iface = true) ∧ (dest ≠ s.dev.chip)) ∧
  (∃ (s : State) (iface : Fin 6) (source dest slot len offset destSlot : Nat), (s.dev.peerOpen iface = true) ∧ (dest = s.dev.chip) ∧ (s.dev.fetchUp = true) ∧ ((s.dev.model slot).state = .valid) ∧ (len ≤ 8192 ∧ len % 64 = 0 ∧ offset % 64 = 0 ∧ len ≠ 0 ∧ offset + len ≤ (s.dev.model slot).len)) ∧
  (∃ (s : State) (iface : Fin 6) (source dest slot flags offset : Nat) (data : Bytes), (s.dev.peerOpen iface = true) ∧ (dest ≠ s.dev.chip)) ∧
  (∃ (s : State) (iface : Fin 6) (source dest slot flags offset : Nat) (data : Bytes), (s.dev.peerOpen iface = true) ∧ (dest = s.dev.chip) ∧ (data.length % 64 = 0) ∧ (s.dev.fetchUp = true) ∧ ((s.dev.model slot).state = .fetching) ∧ ((s.dev.model slot).source = source) ∧ ((s.dev.model slot).asked.contains (offset, data.length) = true) ∧ (flags % 2 = 0)) := ⟨
  ⟨st (engine { state := .active }), 0, { svc0 with format := planGrad plan0 }, zeros 64, 0, plan0, 0, by delta Dev.Serves; decide +kernel⟩,
  ⟨st (engine { state := .loading }), 0, { svc0 with format := 3 }, zeros 64, 0, plan0, by delta Dev.Serves; decide +kernel⟩,
  ⟨st (engine { state := .active }), 0, { svc0 with addr := 0xF000 * 2 ^ 48 }, zeros 64, 0, _, _, by delta Dev.Serves; decide +kernel, by intro c hc; revert c hc; decide +kernel, rfl, by decide +kernel, rfl⟩,
  ⟨st { engine { state := .active } with coll := { (engine { state := .active }).coll with models := [(0, { id := 1, len := 64, state := .filling })] } }, 0, svc0, zeros 64, 0, by delta Dev.Serves; decide +kernel, by intro c hc; revert c hc; decide +kernel⟩,
  ⟨st (engine { state := .active, covered := [0] }), 0, by decide +kernel⟩,
  ⟨st (engine { state := .active, covered := [0] }), 0, by decide +kernel⟩,
  ⟨st rooted, 0, 7, 0, 0, 0, 1, 9, by decide +kernel⟩,
  ⟨st linked, 0, 7, 0, 0, 0, 1, 9, by decide +kernel⟩,
  ⟨st { up with coll := { up.coll with norms := [norm0] } }, 7, 1, 0, norm0, by decide +kernel⟩,
  ⟨st linked, 0, { tag := 7, gen := 0, step := 1, result := 0, clip := 0, norm := 9 }, by decide +kernel⟩,
  ⟨st linked, 0, 7, 0, 1, by decide +kernel⟩,
  ⟨st (engine { state := .active, held := some { tag := 7, gen := 0, step := 1, result := 0, clip := 0, norm := 9 } }), 0, { tag := 7, gen := 0, step := 1, result := 0, clip := 0, norm := 9 }, by decide +kernel⟩,
  ⟨st linked, 0, 0xF001, 0xF005, 0, 64, 0, 0, by decide +kernel⟩,
  ⟨st { engine {} with coll := { (engine {}).coll with models := [(0, { id := 1, len := 64, state := .valid })] } }, 0, 0xF001, 0xF000, 0, 64, 0, 0, by decide +kernel⟩,
  ⟨st linked, 0, 0xF001, 0xF005, 0, 0, 0, zeros 64, by decide +kernel⟩,
  ⟨st { engine {} with coll := { (engine {}).coll with models := [(0, { id := 1, len := 64, source := 0xF001, state := .fetching, asked := [(0, 64)] })] } }, 0, 0xF001, 0xF000, 0, 0, 0, zeros 64, by decide +kernel⟩⟩

/-- States and operands that meet the conditions of each clause of MemoryCommands. -/
theorem witness_MemoryCommands :
  (∃ (s : State) (a : Fin 31) (symbols : Nat) (queued : Bool) (w : Nat), (s.dev.scrubs = true) ∧ (s.dev.arrayUp a = true) ∧ (a.val < 8) ∧ (s.dev.fillDepth a = 0) ∧ (scrubWord s.dev s.hbm a (tget 0 s.dev.mem.scrubAt a) = some w)) ∧
  (∃ (s : State) (a : Fin 31) (symbols : Nat) (queued : Bool), (s.dev.scrubs = true) ∧ (s.dev.arrayUp a = true) ∧ (8 ≤ a.val) ∧ (tget 0 s.dev.mem.scrubAt a < sramWords a)) ∧
  (∃ (s : State) (a : Fin 31), (s.dev.flag 0x2801 1 = true) ∧ (s.dev.arrayUp a = true) ∧ (s.dev.mem.lapLogged.contains a.val = false)) ∧
  (∃ (s : State) (sel : Fin 8), (s.dev.mem.reloading.contains sel.val = true)) ∧
  (∃ (s : State) (poll : EccPoll) (d : Dev), (d = (upto s.dev.stackCount).foldl (fun d k => if tget .off d.mem.stackOf k == .ready then d.setNum (0x2810 + k) 0x0C (poll.counts.getD k 0 % 2 ^ 32 : Nat) else d) s.dev)) := ⟨
  ⟨{ st scrubbed with hbm := { State.reset.hbm with valid := [0] } }, 0, 0, false, 0, by decide +kernel⟩,
  ⟨st scrubbed, 8, 0, false, by decide +kernel⟩,
  ⟨st scrubbed, 0, by decide +kernel⟩,
  ⟨st { up with mem := { up.mem with reloading := [0] } }, 0, by decide +kernel⟩,
  ⟨st up, okPoll, _, rfl⟩⟩

/-- States and operands that meet the conditions of each clause of FaultCommands. -/
theorem witness_FaultCommands :
  (∃ (s : State) (code cls scope index : Nat) (active : Bool) (detail : Bytes), ((eventClasses code).contains cls = true)) ∧
  (∃ (s : State) (code cls scope index : Nat) (active : Bool) (detail : Bytes), ((eventClasses code).contains cls = false)) ∧
  (∃ (s : State), (s.dev.faults.current = none)) ∧
  (∃ (s : State) (e : Event), (s.dev.faults.current = some e)) ∧
  (∃ (s : State) (n : Nat), (s.dev.faults.recoveries.find? (fun r => r.level = n) = none)) ∧
  (∃ (s : State) (n : Nat) (r : Recovery), (s.dev.faults.recoveries.find? (fun r => r.level = n) = some r) ∧ ((s.dev.reach (r.onset + r.budgets.getD (n - 1) 0 * Config.ms)).staleRecovery r = true)) ∧
  (∃ (s : State) (n : Nat) (r : Recovery), (s.dev.faults.recoveries.find? (fun r => r.level = n) = some r)) ∧
  (∃ (s : State) (j : Fin 16) (x : Stall), (s.dev.faults.stalls.find? (fun s => s.job = j.val) = some x) ∧ (x.l3Fired = true)) ∧
  (∃ (s : State) (j : Fin 16) (x : Stall), (s.dev.faults.stalls.find? (fun s => s.job = j.val) = some x) ∧ (x.l3Fired = false) ∧ (x.ownReason ≠ 1 ∧ x.ownReason ≠ 5 ∧ x.ownReason ≠ 10)) ∧
  (∃ (s : State) (j : Fin 16), (s.dev.faults.restarts.find? (fun r => r.job = j.val && !r.order.isEmpty && r.state = 1) = none)) ∧
  (∃ (s : State) (j : Fin 16) (r : Restart), (s.dev.faults.restarts.find? (fun r => r.job = j.val && !r.order.isEmpty && r.state = 1) = some r)) ∧
  (∃ (s : State) (j : Fin 16) (r : Restart), (s.dev.faults.restarts.find? (fun r => r.job = j.val && r.order.isEmpty && r.state = 1) = some r)) ∧
  (∃ (s : State) (n : Nat), (s.dev.faults.pub.firstAt = some n)) ∧
  (∃ (s : State) (n : Nat), (s.dev.faults.prot.firstAt = some n)) := ⟨
  ⟨st up, 0x0201, 1, 3, 0, false, [], by decide +kernel⟩,
  ⟨st up, 0x0201, 2, 3, 0, false, [], by decide +kernel⟩,
  ⟨st up, by decide +kernel⟩,
  ⟨st (faulty { up.faults with current := some event0 }), event0, by decide +kernel⟩,
  ⟨st up, 2, by decide +kernel⟩,
  ⟨st (faulty { up.faults with recoveries := [{ recovery0 with epoch := 9 }] }), 2, { recovery0 with epoch := 9 }, by decide +kernel⟩,
  ⟨st (faulty { up.faults with recoveries := [recovery0] }), 2, recovery0, by decide +kernel⟩,
  ⟨st (faulty { up.faults with stalls := [{ job := 0, onset := 0, ownReason := 2, l3Fired := true }] }), 0, { job := 0, onset := 0, ownReason := 2, l3Fired := true }, by decide +kernel⟩,
  ⟨st (faulty { up.faults with stalls := [{ job := 0, onset := 0, ownReason := 2 }] }), 0, { job := 0, onset := 0, ownReason := 2 }, by decide +kernel⟩,
  ⟨st up, 0, by decide +kernel⟩,
  ⟨st (faulty { up.faults with restarts := [{ job := 0, onset := 0, order := zeros 24 }] }), 0, { job := 0, onset := 0, order := zeros 24 }, by decide +kernel⟩,
  ⟨st (faulty { up.faults with restarts := [{ job := 0, onset := 0 }] }), 0, { job := 0, onset := 0 }, by decide +kernel⟩,
  ⟨st (faulty { up.faults with pub := { up.faults.pub with firstAt := some 5 } }), 5, by decide +kernel⟩,
  ⟨st (faulty { up.faults with prot := { up.faults.prot with firstAt := some 5 } }), 5, by decide +kernel⟩⟩

/-- States and operands that meet the conditions of each clause of GrantCommands. -/
theorem witness_GrantCommands :
  (∃ (s : State) (coll : Bool), ((if coll then s.dev.twin.lineColl else s.dev.twin.lineDrive) = false)) ∧
  (∃ (s : State) (coll : Bool), ((if coll then s.dev.twin.lineColl else s.dev.twin.lineDrive) = true)) ∧
  (∃ (s : State), (s.dev.twin.wantColl = true) ∧ (s.dev.twin.ownColl = false) ∧ (s.dev.mayAssert true = true)) ∧
  (∃ (s : State), (s.dev.twin.wantDrive = true) ∧ (s.dev.twin.ownDrive = false) ∧ (s.dev.mayAssert false = true)) ∧
  (∃ (s : State), (s.dev.twin.drive ≠ .active) ∧ (s.dev.twin.ownDrive = false) ∧ (s.dev.twin.lineDrive = false) ∧ (s.dev.twin.driveDropped = true) ∧ (s.dev.storeStale = false)) ∧
  (∃ (s : State), (s.dev.twin.coll ≠ .active) ∧ (s.dev.twin.ownColl = false) ∧ (s.dev.twin.lineColl = false) ∧ (s.dev.twin.collDropped = true) ∧ (s.dev.isC = true) ∧ (s.dev.storeStale = false)) ∧
  (∃ (s : State) (x : Nat), (s.dev.twin.moving = some x)) ∧
  (∃ (s : State), (s.dev.isOn 11 = true) ∧ (s.dev.coll.state = .selftest) ∧ (s.dev.engineBarred = false)) ∧
  (∃ (s : State), (s.dev.isOn 11 = true) ∧ (s.dev.coll.state = .selftest)) := ⟨
  ⟨st up, false, by decide +kernel⟩,
  ⟨st { up with twin := { up.twin with lineDrive := true } }, false, by decide +kernel⟩,
  ⟨st { up with twin := { up.twin with wantColl := true, ownColl := false } }, by decide +kernel⟩,
  ⟨st { up with twin := { up.twin with wantDrive := true, ownDrive := false } }, by decide +kernel⟩,
  ⟨st { up with twin := { up.twin with drive := .standby, ownDrive := false, driveDropped := true } }, by decide +kernel⟩,
  ⟨st { up with twin := { up.twin with coll := .standby, ownColl := false, collDropped := true } }, by decide +kernel⟩,
  ⟨st { up with twin := { up.twin with moving := some 1 } }, 1, by decide +kernel⟩,
  ⟨st { up with coll := { up.coll with state := .selftest } }, by decide +kernel⟩,
  ⟨st { up with coll := { up.coll with state := .selftest } }, by decide +kernel⟩⟩

/-- States and operands that meet the conditions of each clause of TwinFrames. -/
theorem witness_TwinFrames :
  (∃ (s : State) (cycle frag frags offset : Nat) (data b : Bytes), (s.dev.joined = true) ∧ (s.dev.followsDrive = true) ∧ (frag < frags) ∧ ((s.dev.takeFragment cycle frag frags offset data).2 = some b)) ∧
  (∃ (s : State) (cycle frag frags offset : Nat) (data : Bytes), (s.dev.joined = true) ∧ (s.dev.followsDrive = true) ∧ (frag < frags) ∧ ((s.dev.takeFragment cycle frag frags offset data).2 = none)) ∧
  (∃ (s : State), (s.dev.twin.drive = .standby)) ∧
  (∃ (s : State) (job bank region flags step offset : Nat) (data : Bytes), (s.dev.joined = true) ∧ (region < 6 ∨ 0x80 ≤ region) ∧ (s.dev.holdsColl = true)) ∧
  (∃ (s : State) (job bank region flags step offset : Nat) (data : Bytes), (s.dev.joined = true) ∧ (region < 6 ∨ 0x80 ≤ region) ∧ (s.dev.holdsColl = false) ∧ ((s.dev.twin.coll == .syncing || s.dev.twin.coll == .standby) = true)) ∧
  (∃ (s : State), (s.dev.holdsDrive = true) ∧ (s.dev.twin.handoverCycle ≠ 0)) ∧
  (∃ (s : State), (s.dev.holdsDrive = true) ∧ (s.dev.nat 0x2510 1 ≠ 0) ∧ (s.dev.twin.swapWaiting = none) ∧ (s.dev.twin.handoverCycle = 0) ∧ ((s.dev.reach s.dev.twin.swapDue).mayHandDrive = true)) ∧
  (∃ (s : State), (s.dev.holdsDrive = true) ∧ (s.dev.nat 0x2510 1 ≠ 0) ∧ (s.dev.twin.swapWaiting = none) ∧ (s.dev.twin.handoverCycle = 0) ∧ ((s.dev.reach s.dev.twin.swapDue).mayHandDrive = false)) ∧
  (∃ (s : State) (n : Nat), (s.dev.twin.swapWaiting = some n)) ∧
  (∃ (s : State) (n : Nat), (s.dev.isC = true) ∧ (s.dev.followsColl = true) ∧ (s.dev.twin.healthRun = false) ∧ (s.dev.isOn 11 = false) ∧ (s.dev.grantOf 5 11 = none) ∧ (s.dev.twin.healthPassed = some n)) ∧
  (∃ (s : State) (passed failed : Fin 16) (ueCount lapEnd : Nat), (s.dev.twin.healthRun = true)) ∧
  (∃ (s : State) (n : Nat), (s.dev.twin.coll = .standby) ∧ (s.dev.twin.healthPassed = some n)) ∧
  (∃ (s : State) (j : Fin 16), (s.dev.holdsColl = true) ∧ ((s.dev.mirror j).restore = 1) ∧ ((s.dev.mirror j).restoreFrom = 1)) := ⟨
  ⟨st follower, 9, 0, 1, 0, [1], [1], by decide +kernel⟩,
  ⟨st follower, 9, 0, 2, 0, [1], by decide +kernel⟩,
  ⟨st follower, by decide +kernel⟩,
  ⟨st joined, 0, 0, 1, 0, 1, 0, [], by decide +kernel⟩,
  ⟨st { follower with twin := { follower.twin with coll := .standby, ownColl := false } }, 0, 0, 1, 0, 1, 0, [], by decide +kernel⟩,
  ⟨st { up with twin := { up.twin with handoverCycle := 9 } }, by decide +kernel⟩,
  ⟨st swapping, by decide +kernel⟩,
  ⟨st { up with od := [(objKey 0x2510 1, 60)] ++ up.od }, by decide +kernel⟩,
  ⟨st { up with twin := { up.twin with swapWaiting := some 5 } }, 5, by decide +kernel⟩,
  ⟨st { joined with twin := { joined.twin with coll := .standby, ownColl := false, healthPassed := some 0 }, power := { up.power with domains := tset up.power.domains 11 .off } }, 0, by decide +kernel⟩,
  ⟨st { up with twin := { up.twin with healthRun := true } }, 3, 0, 0, 9, by decide +kernel⟩,
  ⟨st { up with twin := { up.twin with coll := .standby, healthPassed := some 0 } }, 0, by decide +kernel⟩,
  ⟨st { up with twin := { up.twin with mirrors := [(0, { restore := 1, restoreFrom := 1 })] } }, 0, by decide +kernel⟩⟩

/-- States and operands that meet the conditions of each clause of UpdateCommands. -/
theorem witness_UpdateCommands :
  (∃ (s : State) (c : Client) (data : Bytes), (s.Ready) ∧ ((s.asked c).isMaintainer c = true) ∧ ((s.asked c).net.ecat ≠ .boot) ∧ ((s.asked c).manifestFault data = none) ∧ (s.dev.upd.receipt = false) ∧ (s.dev.upd.state = .empty)) ∧
  (∃ (s : State) (c : Client) (name : Nat) (data : Bytes) (k : Nat), (s.Ready) ∧ ((s.asked c).isMaintainer c = true) ∧ (s.dev.upd.receipt = true) ∧ (segmentOk s.dev.upd.staged data = true) ∧ (segReserved data = none) ∧ (name = fld data 4 4) ∧ (s.dev.upd.state = .receiving) ∧ (s.dev.upd.received.contains name = false) ∧ ((s.asked c).upd.nextSlot = some k)) ∧
  (∃ (s : State) (c : Client) (data : Bytes), (s.Idle) ∧ (s.dev.net.ecat = .boot) ∧ (((s.asked c).takeRecovery ((s.asked c).isMaintainer c) data true).2 = .answer 0)) ∧
  (∃ (s : State) (ok : Bool) (x : Nat × Bytes), (s.dev.upd.inRam = some x)) ∧
  (∃ (s : State) (ok : Bool) (x : Nat × Nat × Bytes × Nat), (s.dev.upd.foe = some x)) ∧
  (∃ (s : State), (s.dev.net.mailbox = []) ∧ (∀ c f, s.dev.net.waiting ≠ some (.foe c f))) ∧
  (∃ (s : State), (s.dev.upd.state = .scanning)) ∧
  (∃ (s : State), (s.dev.upd.state = .activating) ∧ (s.dev.upd.boot.state ≠ .normal)) ∧
  (∃ (s : State), (s.dev.upd.state = .activating)) ∧
  (∃ (s : State), (s.dev.upd.state = .clearing)) ∧
  (∃ (s : State), (s.dev.onTrial = true) ∧ ((s.dev.reach (s.dev.upd.soakAt + s.dev.nat 0x2403 1 * 60 * Config.sec)).soakGood = true)) ∧
  (∃ (s : State), (s.dev.onTrial = true)) ∧
  (∃ (s : State) (n : Nat), (s.dev.upd.watchdog = some n) ∧ (s.dev.goOpen = false)) ∧
  (∃ (s : State) (n : Nat), (s.dev.upd.watchdog = some n) ∧ (s.dev.goOpen = true)) := ⟨
  ⟨st up, 0, manifest0, by delta State.Ready; delta State.Idle; decide +kernel⟩,
  ⟨st receiving, 0, 0, segment0, 0, by delta State.Ready; delta State.Idle; decide +kernel⟩,
  ⟨st { inEcat .boot with upd := { up.upd with boot := {} } }, 0, manifest0 ++ segment0, by delta State.Idle; decide +kernel⟩,
  ⟨st { receiving with upd := { receiving.upd with inRam := some (0, segment0) } }, true, (0, segment0), by decide +kernel⟩,
  ⟨st { up with upd := { up.upd with foe := some (0, 0, manifest0, 0) } }, true, (0, 0, manifest0, 0), by decide +kernel⟩,
  ⟨st up, by decide +kernel, fun c f h => by have e : ((st up).dev.net.waiting).isNone = true := (by decide +kernel); rw [h] at e; cases e⟩,
  ⟨st { up with upd := { up.upd with state := .scanning } }, by decide +kernel⟩,
  ⟨st { up with upd := { up.upd with state := .activating, boot := { state := .trial } } }, by decide +kernel⟩,
  ⟨st { up with upd := { up.upd with state := .activating } }, by decide +kernel⟩,
  ⟨st { up with upd := { up.upd with state := .clearing } }, by decide +kernel⟩,
  ⟨st { trialling with disc := { up.disc with confirmed := true } }, by decide +kernel⟩,
  ⟨st trialling, by decide +kernel⟩,
  ⟨st { up with upd := { up.upd with watchdog := some 5 } }, 5, by decide +kernel⟩,
  ⟨st { planned { state := .go, z := 9 } with upd := { up.upd with watchdog := some 5 } }, 5, by decide +kernel⟩⟩

/-- States and operands that meet the conditions of each clause of PmbusCommands. -/
theorem witness_PmbusCommands :
  (∃ (s : State) (check : Bool), (s.dev.module.aux = true)) ∧
  (∃ (s : State) (check : Bool), (s.dev.module.aux = true)) ∧
  (∃ (s : State) (check : Bool), (s.dev.module.aux = true)) ∧
  (∃ (s : State) (check : Bool), (s.dev.module.aux = true)) ∧
  (∃ (s : State) (check : Bool), (s.dev.module.aux = true)) ∧
  (∃ (s : State) (check : Bool), (s.dev.module.aux = true)) ∧
  (∃ (s : State) (check : Bool), (s.dev.module.aux = true)) ∧
  (∃ (s : State) (check : Bool), (s.dev.module.aux = true)) ∧
  (∃ (s : State) (check : Bool), (s.dev.module.aux = true)) ∧
  (∃ (s : State) (check : Bool), (s.dev.module.aux = true)) ∧
  (∃ (s : State) (check : Bool), (s.dev.module.aux = true)) ∧
  (∃ (s : State) (check : Bool), (s.dev.module.aux = true)) ∧
  (∃ (s : State) (check : Bool), (s.dev.module.aux = true)) ∧
  (∃ (s : State) (check : Bool), (s.dev.module.aux = true)) ∧
  (∃ (s : State), (s.dev.module.aux = true)) ∧
  (∃ (s : State) (x : Fin 256), (s.dev.module.aux = true) ∧ (x.val < 2)) ∧
  (∃ (s : State) (x y : Fin 256), (s.dev.module.aux = true) ∧ (x.val < 2) ∧ (y.val = pec [s.dev.pmbusAddress * 2, 0x00, x.val])) ∧
  (∃ (s : State) (check : Bool), (s.dev.module.aux = true) ∧ (s.dev.module.statusWord ≠ 0)) ∧
  (∃ (s : State) (mv ma : List Nat) (mw : Nat) (hbm : List Int), (s.dev.module.aux = true)) := ⟨
  ⟨st up, true, by decide +kernel⟩,
  ⟨st up, true, by decide +kernel⟩,
  ⟨st up, true, by decide +kernel⟩,
  ⟨st up, true, by decide +kernel⟩,
  ⟨st up, true, by decide +kernel⟩,
  ⟨st up, true, by decide +kernel⟩,
  ⟨st up, true, by decide +kernel⟩,
  ⟨st up, true, by decide +kernel⟩,
  ⟨st up, true, by decide +kernel⟩,
  ⟨st up, true, by decide +kernel⟩,
  ⟨st up, true, by decide +kernel⟩,
  ⟨st up, true, by decide +kernel⟩,
  ⟨st up, true, by decide +kernel⟩,
  ⟨st up, true, by decide +kernel⟩,
  ⟨st up, by decide +kernel⟩,
  ⟨st up, 1, by decide +kernel⟩,
  ⟨st up, 1, 237, by decide +kernel⟩,
  ⟨st { up with module := { up.module with statusWord := 1 } }, true, by decide +kernel⟩,
  ⟨st up, [3300, 12000], [1, 2], 9, [250], by decide +kernel⟩⟩

/-- States and operands that meet the condition of FrameModule. -/
theorem witness_FrameModule :
  (∃ (s : State) (code cls scope index : Nat) (active : Bool) (detail : Bytes), ((eventClasses code).contains cls = true)) :=
  ⟨st up, 0x0201, 1, 3, 0, false, [], by decide +kernel⟩

/-- States and operands that meet the conditions of each clause of FrameFabric. -/
theorem witness_FrameFabric :
  (∃ (s : State) (l : Fin 295) (k : Fin 8), (39 ≤ l.val)) ∧
  (∃ (s : State) (l : Fin 295) (k : Fin 8), (l.val < 39)) := ⟨
  ⟨st up, 39, 0, by decide +kernel⟩,
  ⟨st up, 0, 0, by decide +kernel⟩⟩

/-- A state with an empty queue. -/
theorem witness_StepTicks : ∃ s : State, s.pending = [] ∧ s.dev.isOn 3 = true := ⟨st up, by decide +kernel⟩

/-- A command that answers a next state. -/
theorem witness_QueueKept : ∃ (i : Instr) (s t : State), exec i s = .next t := ⟨.ditherGroupEnd 0, st up, _, rfl⟩

/-- A command that leaves the memory and answers a next state. -/
theorem witness_MemoryKept : ∃ (i : Instr) (s t : State), i.leavesMemory = true ∧ exec i s = .next t :=
  ⟨.ditherGroupEnd 0, st up, _, rfl, rfl⟩

/-- A canonical state with a command to run. -/
theorem witness_InvKept : ∃ s t : State, s.Inv ∧ step s = .next t :=
  ⟨{ st up with pending := [.ditherGroupEnd 0], hbm := { cells := [(5, 1)], valid := [0] } }, _, by unfold State.Inv; decide +kernel, rfl⟩

/-- A memory, a word and another word of a valid block, and a word of a block that is not valid. -/
theorem witness_HbmWordReadBack :
    (∃ (h : Hbm) (s w : Nat) (data : Bytes) (s' w' : Nat), Memory.wf h = true ∧ w < 2 ^ 30 ∧ data.length = 64 ∧ w' < 2 ^ 30 ∧
      (s' ≠ s ∨ w' ≠ w) ∧ pageKey s' (w' / 64) ∈ h.valid) ∧ (∃ (h : Hbm) (s' w' : Nat), pageKey s' (w' / 64) ∉ h.valid) :=
  ⟨⟨{ cells := [(5, 1)], valid := [0] }, 0, 2 ^ 30 - 1, List.replicate 64 1, 0, 0, by decide +kernel⟩, ⟨{}, 0, 0, by decide +kernel⟩⟩

/-- Two objects with different keys. -/
theorem witness_ObjectReadBack : ∃ i s i' s' : Nat, objKey i s ≠ objKey i' s' := ⟨0x2010, 0, 0x2011, 0, by decide⟩

/-- An ordered queue, and a device that holds one. -/
theorem witness_FaultQueueOrder :
    (∃ q : List Event, ordered q ∧ q ≠ []) ∧ (∃ d : Dev, ordered d.faults.queue ∧ d.faults.queue.length ≤ 64 ∧ d.faults.queue ≠ []) :=
  ⟨⟨[{ event0 with cls := 3 }, event0], by unfold ordered; decide +kernel⟩,
   ⟨faulty { up.faults with queue := List.replicate 64 event0 }, by unfold ordered; decide +kernel⟩⟩

/-- A device with an Operator session of client 0. -/
def operated : Dev :=
  { up with net := { up.net with sessions := [{ client := 0, role := .operator, scope := 65535, timeout := 60, lastReq := 0 }] } }

/-- Commands 6 to 10 by process data and by an Operator, and an SDO write of 0x2010 under local control. -/
theorem witness_MaintainerCommands :
    (∃ (s : State) (c : Cmd), 6 ≤ c.code ∧ s.Gives .processData c) ∧
    (∃ (s : State) (k : Client) (c : Cmd), 6 ≤ c.code ∧ s.Gives (.sdo k) c ∧ (s.asked k).isMaintainer k = false) ∧
    (∃ (s : State) (k : Client) (x : Nat), s.Ready ∧ (s.asked k).localControl = true ∧ (s.asked k).refusesWrite k 0x2010 0 true (le 2 x) = none) :=
  ⟨⟨st up, .enterMaint, by decide, by unfold State.Gives; decide +kernel⟩,
   ⟨st operated, 0, .warmRestart, by decide,
     ⟨by decide +kernel, by show State.Takes _ _ _ _ _; delta State.Takes State.Ready State.Idle Dev.Accepts; decide +kernel⟩, by decide +kernel⟩,
   ⟨st mapped, 0, 1, by delta State.Ready State.Idle; decide +kernel⟩⟩

/-- A command where it leads nowhere, and one whose conditions fail. -/
theorem witness_DirectorRefusals :
    (∃ (s : State) (src : CmdSrc) (c : Cmd), s.Gives src c ∧ (6 ≤ c.code → (s.ordered src c).dir.latchedMaintainer = true) ∧ s.dev.dir.state ∉ c.from_) ∧
    (∃ (s : State) (src : CmdSrc) (c : Cmd), s.Gives src c ∧ (6 ≤ c.code → (s.ordered src c).dir.latchedMaintainer = true) ∧ s.dev.dir.state ∈ c.from_ ∧
      c ≠ .enterMaint ∧ (c.code ≤ 5 → s.dev.followsDrive = false) ∧ (s.ordered src c).cmdGuard c = false) :=
  ⟨⟨st up, .processData, .resume, by unfold State.Gives; decide +kernel⟩, ⟨st up, .processData, .arm, by unfold State.Gives; decide +kernel⟩⟩

/-- A cap and a supply that would let the caps exceed the supply. -/
theorem witness_HeaterCaps :
    (∃ (s : State) (c : Client) (q : Fin 64) (x : Nat), x < 2 ^ 32 ∧ s.Ready ∧ (s.asked c).refusesWrite c (0x3C00 + q.val) 5 true (le 4 x) = none ∧
      ((s.asked c).setNum (0x3C00 + q.val) 5 (x : Int)).nat 0x2120 7 < ((s.asked c).setNum (0x3C00 + q.val) 5 (x : Int)).capSum) ∧
    (∃ (s : State) (c : Client) (x : Nat), x < 2 ^ 32 ∧ s.Ready ∧ (s.asked c).refusesWrite c 0x2120 7 true (le 4 x) = none ∧ x < s.dev.capSum) :=
  ⟨⟨st { up with od := [(objKey 0x2120 7, 288000)] ++ up.od }, 0, 63, 4501, by delta State.Ready State.Idle; decide +kernel⟩,
   ⟨st up, 0, 287999, by delta State.Ready State.Idle; decide +kernel⟩⟩


/-- CRC-32 of the nine digits: the check value of IEEE 802.3's CRC. -/
theorem test_crc32 : crc32 [0x31, 0x32, 0x33, 0x34, 0x35, 0x36, 0x37, 0x38, 0x39] = 0xCBF43926 := by decide +kernel

/-- SHA-384 of "abc", its first eight bytes (FIPS 180-4). -/
theorem test_sha384 : (sha384 [0x61, 0x62, 0x63]).take 8 = [0xcb, 0x00, 0x75, 0x3f, 0x45, 0xa3, 0x5e, 0x8b] := by decide +kernel

/-- HMAC-SHA-256 of RFC 4231, test case 2, its first eight bytes. -/
theorem test_hmac256 :
    (hmac256 [0x4a, 0x65, 0x66, 0x65] [0x77, 0x68, 0x61, 0x74, 0x20, 0x64, 0x6f, 0x20, 0x79, 0x61, 0x20, 0x77, 0x61, 0x6e, 0x74, 0x20, 0x66,
      0x6f, 0x72, 0x20, 0x6e, 0x6f, 0x74, 0x68, 0x69, 0x6e, 0x67, 0x3f]).take 8 = [0x5b, 0xdc, 0xc1, 0x46, 0xbf, 0x60, 0x75, 0x4e] := by
  decide +kernel

/-- The state after a command, of one that completes. -/
def after (i : Instr) (s : State) : State := match exec i s with | .next t => t | _ => s

/-- R58's example: the refusal's response takes REFUSAL_COUNT from 41 to 42. -/
theorem test_refusal_counts :
    (after .refusalResponse (st { owed (.refusal 0 0x4807 1 0 false 1) with od := [(objKey 0x2030 1, 41)] })).dev.nat 0x2030 1 = 42 := by
  decide +kernel

/-- R61: ENTER_MAINTENANCE by process data ends with CMD_RESULT 4 and leaves the Director in STANDBY. -/
theorem test_maintainer_only :
    ((after (.enterMaintenance .processData) (st up)).dev.dir.cmdResult = 4) ∧
    (after (.enterMaintenance .processData) (st up)).dev.dir.state = .standby := by
  decide +kernel

/-- R380: a cap that would break the sum leaves the cap as it was. -/
theorem test_heater_cap :
    (after (.heaterCap 0 63 (le 4 4501)) (st { up with od := [(objKey 0x2120 7, 288000)] ++ up.od })).dev.nat (0x3C00 + 63) 5 = 4500 := by
  decide +kernel

/-- R98: a tick adds INCREMENT to the counter while PD3 is on, and a step on an empty queue is one. -/
theorem test_tick :
    (match step (st { up with time := { up.time with counter := 5, increment := 2 ^ 33 } }) with
      | .next t => t.dev.time.counter | _ => 0) = 5 + 2 ^ 33 := by
  decide +kernel

/-- The command at the front runs, and the rest of the queue waits. -/
theorem test_front :
    (match step { st up with pending := [.ditherGroupEnd 0, .zeroFill 0] } with | .next t => t.pending | _ => []) = [.zeroFill 0] := by
  decide +kernel



end Sys2Proof.Tests
end

section
/-!
PROOFS. Who gives the Director its commands (R61): a command 6 to 10 latched without the Maintainer's role ends with CMD_RESULT 4,
and local control refuses an SDO write of DIRECTOR_CONTROL.
-/

namespace Sys2Proof.Machine
open Sys2Proof

/-! ### Commands of another role -/

/-- The row that gives a command runs it from its source. -/
theorem exec_given (src : CmdSrc) (c : Cmd) (s : State) : exec (c.given src) s = .next (s.command src c) := by
  cases c <;> rfl

/-- Process data carry no role: what they latch is not the Maintainer's. -/
@[simp] theorem ordered_processData_latchedMaintainer (s : State) (c : Cmd) :
    (s.ordered .processData c).dir.latchedMaintainer = false := rfl

/-- An SDO write latches its command with the role of the session that wrote it. -/
@[simp] theorem ordered_sdo_latchedMaintainer (s : State) (k : Client) (c : Cmd) :
    (s.ordered (.sdo k) c).dir.latchedMaintainer = (s.asked k).isMaintainer k := rfl

/-- A command 6 to 10 that was latched without the Maintainer's role ends with CMD_RESULT 4, whatever the state and the guard: R61 is
tested ahead of R62 (log 10). -/
theorem runCommand_of_not_maintainer (m : Mach) (c : Cmd) (hc : 6 ≤ c.code) (hm : m.1.dir.latchedMaintainer = false) :
    runCommand m c = (m.1.cmdEnds 4, m.2) := by
  simp [runCommand, hc, hm]

/-- A command 6 to 10 that is given without the Maintainer's role has CMD_RESULT 4 for its one effect. -/
theorem exec_given_of_not_maintainer (s : State) (src : CmdSrc) (c : Cmd) (hc : 6 ≤ c.code) (hg : s.Gives src c)
    (hm : (s.ordered src c).dir.latchedMaintainer = false) :
    ∃ t, exec (c.given src) s = .next t ∧ t.Ran ((s.ordered src c).cmdEnds 4, s.hbm) := by
  have hran := command_given s src c hg
  rw [runCommand_of_not_maintainer (s.ordered src c, s.hbm) c hc hm] at hran
  exact ⟨s.command src c, exec_given src c s, hran⟩

/-! ### Local control -/

/-- DIRECTOR_CONTROL is a word of two bytes that may be written. -/
theorem objRow_directorControl : ∃ r, objRow 0x2010 0 = some r ∧ r.access = .rw ∧ r.type = .num 2 := by
  have h : (objRow 0x2010 0).any (fun r => r.access == .rw && r.type == .num 2) = true := by decide +kernel
  simpa [Option.any_eq_true] using h

/-- Two bytes written to DIRECTOR_CONTROL are its value. -/
theorem splitValues_directorControl (v : Bytes) (hv : v.length = 2) : splitValues 0x2010 [0] v = some [(0, v)] := by
  obtain ⟨r, hr, -, ht⟩ := objRow_directorControl
  simp [splitValues, subSize, hr, ht, ObjType.size, hv, sumN]

/-- Under local control no value of DIRECTOR_CONTROL passes the second stage of a write (R61). -/
theorem checkSub_of_localControl (d w : Dev) (deep complete : Bool) (v : Bytes) (h : d.localControl = true) :
    d.checkSub w deep complete 0x2010 0 (some v) = some 0x08000021 := by
  obtain ⟨r, hr, ha, -⟩ := objRow_directorControl
  have hi : indexExists 0x2010 = true := by decide +kernel
  simp [Dev.checkSub, hi, subExists, hr, ha, h]

/-- The refusal under local control leaves no report. -/
theorem noteFault_localControl (d w : Dev) (deep : Bool) (v : Bytes) : d.noteFault w deep 0x2010 0 v 0x08000021 = d := by
  simp [Dev.noteFault]

/-- Under local control an SDO write of a word to DIRECTOR_CONTROL aborts with 0x0800_0021 (R56, R61). -/
theorem sdoWrite_aborts_of_localControl (s : State) (k : Client) (v : Bytes) (hv : v.length = 2) (hr : s.Ready)
    (hl : (s.asked k).localControl = true) (hw : (s.asked k).refusesWrite k 0x2010 0 true v = none) :
    (s.sdoWrite k 0x2010 0 v).Aborted s k 0x2010 0 0x08000021 :=
  sdoWrite_aborts s k 0x2010 0 0x08000021 v hr (splitValues_directorControl v hv) hw (by decide) (by decide)
    (checkSub_of_localControl _ _ _ _ _ hl) (noteFault_localControl _ _ _ _)

/-- Settles O51: the role under which a command was latched decides the first two clauses, and the check of R61 at the second stage of a
write the third. -/
theorem maintainerCommands : Obligations.MaintainerCommands := by
  unfold Obligations.MaintainerCommands
  refine ⟨fun s c hc hg => ?processData, fun s k c hc hg hm => ?otherRole, fun s k x hr hl hw => ?localControl⟩
  case processData => exact exec_given_of_not_maintainer s .processData c hc hg (ordered_processData_latchedMaintainer s c)
  case otherRole => exact exec_given_of_not_maintainer s (.sdo k) c hc hg ((ordered_sdo_latchedMaintainer s k c).trans hm)
  case localControl => exact ⟨_, rfl, sdoWrite_aborts_of_localControl s k (le 2 x) (le_length 2 x) hr hl hw⟩

end Sys2Proof.Machine
end

section
/-!
PROOFS. The heater caps against the heater supply (R380): a write that would let the sum of the caps exceed the supply fails the range
check of the second stage, and its abort changes nothing.
-/

namespace Sys2Proof.Machine
open Sys2Proof

/-! ### Reads beside a write -/

/-- Objects whose subindices fit a byte have keys of their own. -/
theorem objKey_ne (i s i' s' : Nat) (hs : s < 256) (hs' : s' < 256) (h : i ≠ i' ∨ s ≠ s') : objKey i s ≠ objKey i' s' := by
  simp only [objKey]
  omega

/-- A number object reads as before once another object takes a value. -/
theorem setNum_nat_other (d : Dev) (i s i' s' : Nat) (x : Int) (h : objKey i s ≠ objKey i' s') :
    (d.setNum i s x).nat i' s' = d.nat i' s' := by
  rw [Dev.nat, setNum_num_other d i s x h, Dev.nat]

/-- The sum of the caps depends on the caps alone. -/
theorem capSum_congr (d e : Dev) (h : ∀ q, d.nat (0x3C00 + q) 5 = e.nat (0x3C00 + q) 5) : d.capSum = e.capSum := by
  simp [Dev.capSum, h]

/-- HEATER_SUPPLY is no addend of the sum of the caps. -/
theorem setNum_heaterSupply_capSum (d : Dev) (x : Int) : (d.setNum 0x2120 7 x).capSum = d.capSum :=
  capSum_congr _ _ fun _ => setNum_nat_other _ _ _ _ _ _ (objKey_ne _ _ _ _ (by decide) (by decide) (.inr (by decide)))

/-- A request of a client leaves the caps as they are. -/
theorem asked_capSum (s : State) (c : Client) : (s.asked c).capSum = s.dev.capSum := rfl

/-! ### Words of four bytes -/

/-- An object that may be written at any time and holds an unsigned number of four bytes. -/
def IsWord (index sub : Nat) : Prop := ∃ r, objRow index sub = some r ∧ r.access = .rw ∧ r.type = .num 4

/-- An object that has a row has an index of the dictionary. -/
theorem indexExists_of_objRow {index sub : Nat} {r : ObjRow} (h : objRow index sub = some r) : indexExists index = true := by
  have hm : r ∈ dictionary := List.mem_of_find?_eq_some h
  have hr : r.has index sub = true := List.find?_some (p := fun r => ObjRow.has r index sub) h
  simp only [ObjRow.has, Bool.and_eq_true] at hr
  obtain ⟨⟨hi, -⟩, -⟩ := hr
  exact List.any_eq_true.mpr ⟨r, hm, hi⟩

/-- Four bytes written to a word are its value. -/
theorem IsWord.splitValues {index sub : Nat} (hw : IsWord index sub) (v : Bytes) (hv : v.length = 4) :
    splitValues index [sub] v = some [(sub, v)] := by
  obtain ⟨r, hr, -, ht⟩ := hw
  simp [Machine.splitValues, subSize, hr, ht, ObjType.size, hv, sumN]

/-- The four bytes of a number below 2^32 give a word that number. -/
theorem IsWord.subValue_le {index sub x : Nat} (hw : IsWord index sub) (hx : x < 2 ^ 32) : subValue index sub (le 4 x) = (x : Int) := by
  obtain ⟨r, hr, -, ht⟩ := hw
  have hv : unle (le 4 x) = x := (unle_le 4 x).trans (Nat.mod_eq_of_lt hx)
  simp [subValue, hr, ht, hv]

/-- The device with the write of a word in place, where the word is no mapping entry and belongs to no job. -/
theorem IsWord.withValues_le {index sub x : Nat} (hw : IsWord index sub) (d : Dev) (hx : x < 2 ^ 32) (h1 : 0x2090 ≤ index)
    (h2 : index < 0x2910 ∨ 0x2920 ≤ index) : d.withValues index [(sub, le 4 x)] = d.setNum index sub (x : Int) := by
  have hv : subValue index sub (le 4 x) = (x : Int) := hw.subValue_le hx
  obtain ⟨r, hr, ha, ht⟩ := hw
  have hn : isNumber index sub = true := by simp [isNumber, hr, ht]
  have hm : ¬ index < 0x1C20 := by omega
  have hj : ¬ index < 0x2090 := by omega
  have he : ¬ (0x2910 ≤ index ∧ index < 0x2920) := by omega
  simp [Dev.withValues, Dev.withValue, hr, ha, hn, hv, hm, hj, he]

/-- A word whose own range rule fails is refused at the second stage with 0x0609_0030 (R56). -/
theorem IsWord.checkSub_of_specialRange {index sub : Nat} (hw : IsWord index sub) (d w : Dev) (deep complete : Bool) (v : Bytes)
    (h1 : index ≠ 0x2010) (h2 : index ≠ 0x2940) (h : d.specialRange w index sub v = true) :
    d.checkSub w deep complete index sub (some v) = some 0x06090030 := by
  obtain ⟨r, hr, ha, -⟩ := hw
  simp [Dev.checkSub, indexExists_of_objRow hr, subExists, hr, ha, h1, h2, Dev.rangeFault, h]

/-- Of the writes that are refused for their range, only RETIRE_REQUEST leaves a report (R308). -/
theorem noteFault_range (d w : Dev) (deep : Bool) (index sub : Nat) (v : Bytes) (h : index ≠ 0x2840) :
    d.noteFault w deep index sub v 0x06090030 = d := by
  simp [Dev.noteFault, h]

/-- A client's write of a word whose own range rule fails aborts with 0x0609_0030 and changes nothing (R56). -/
theorem IsWord.sdoWrite_aborts {index sub x : Nat} (hw : IsWord index sub) (s : State) (c : Client) (hx : x < 2 ^ 32) (hr : s.Ready)
    (hf : (s.asked c).refusesWrite c index sub true (le 4 x) = none) (h1 : 0x2090 ≤ index) (h2 : index < 0x2840 ∨ 0x2940 < index)
    (h : (s.asked c).specialRange ((s.asked c).setNum index sub (x : Int)) index sub (le 4 x) = true) :
    (s.sdoWrite c index sub (le 4 x)).Aborted s c index sub 0x06090030 := by
  have hv : (s.asked c).withValues index [(sub, le 4 x)] = (s.asked c).setNum index sub (x : Int) :=
    hw.withValues_le _ hx h1 (by omega)
  refine Machine.sdoWrite_aborts s c index sub 0x06090030 (le 4 x) hr (hw.splitValues _ (le_length 4 x)) hf (by omega) (by omega) ?_
    (noteFault_range _ _ _ _ _ _ (by omega))
  rw [hv]
  exact hw.checkSub_of_specialRange _ _ _ _ _ (by omega) (by omega) h

/-! ### The caps and the supply -/

/-- Each HEATER_CAP is a word. -/
theorem isWord_heaterCap (q : Fin 64) : IsWord (0x3C00 + q.val) 5 := by
  have h : ∀ q : Fin 64, (objRow (0x3C00 + q.val) 5).any (fun r => r.access == .rw && r.type == .num 4) = true := by decide +kernel
  simpa [IsWord, Option.any_eq_true] using h q

/-- HEATER_SUPPLY is a word. -/
theorem isWord_heaterSupply : IsWord 0x2120 7 := by
  have h : (objRow 0x2120 7).any (fun r => r.access == .rw && r.type == .num 4) = true := by decide +kernel
  simpa [IsWord, Option.any_eq_true] using h

/-- The range rule of a HEATER_CAP: with the write in place, the caps exceed the supply (R380). -/
theorem specialRange_heaterCap (d w : Dev) (q : Fin 64) (v : Bytes) :
    d.specialRange w (0x3C00 + q.val) 5 v = decide (w.nat 0x2120 7 < w.capSum) := by
  have hlt : 0x3C00 + q.val < 0x3C40 := by omega
  have hle : 0x3C00 ≤ 0x3C00 + q.val := by omega
  generalize 0x3C00 + q.val = index at hlt hle ⊢
  have hne : ∀ k, k < 0x3C00 → index ≠ k := fun k hk => by omega
  have hshare : ¬ index < 0x2920 := by omega
  simp [Dev.specialRange, hlt, hle, hne, hshare]

/-- The range rule of HEATER_SUPPLY: with the write in place, the caps exceed the supply (R380). -/
theorem specialRange_heaterSupply (d w : Dev) (v : Bytes) : d.specialRange w 0x2120 7 v = decide (w.nat 0x2120 7 < w.capSum) := by
  simp [Dev.specialRange]

/-- Settles O53: either write fails the one range rule that both objects share, judged on the device with the value in place; a new
supply stands there against the caps as they were. -/
theorem heaterCaps : Obligations.HeaterCaps := by
  unfold Obligations.HeaterCaps
  refine ⟨fun s c q x hx hr hf hlt => ⟨_, rfl, ?cap⟩, fun s c x hx hr hf hlt => ⟨_, rfl, ?supply⟩, ?defaults, by decide⟩
  case cap =>
    exact (isWord_heaterCap q).sdoWrite_aborts s c hx hr hf (by omega) (by omega) ((specialRange_heaterCap _ _ q _).trans (decide_eq_true hlt))
  case supply =>
    have hsum : ((s.asked c).setNum 0x2120 7 (x : Int)).nat 0x2120 7 < ((s.asked c).setNum 0x2120 7 (x : Int)).capSum := by
      rwa [setNum_nat, setNum_heaterSupply_capSum, asked_capSum]
    exact isWord_heaterSupply.sdoWrite_aborts s c hx hr hf (by decide) (by decide)
      ((specialRange_heaterSupply _ _ _).trans (decide_eq_true hsum))
  case defaults => decide +kernel

end Sys2Proof.Machine
end

section
/-!
PROOFS. The step of the machine: it takes the command at the front of the queue or lets a tick pass, every command answers a next
state with the queue as it was, and the HBM store keeps its canonical form.
-/

namespace Sys2Proof.Machine
open Sys2Proof
set_option Elab.async false

/-! ### The step and the state before power -/

/-- Settles O1. -/
theorem stepRunsFront : Obligations.StepRunsFront := fun _ _ _ => rfl

/-- Settles O2. -/
theorem stepTicks : Obligations.StepTicks := by
  intro s h
  simp only [step, h, State.onDev, Dev.tick]

/-- Settles O3: each part of the first state is a closed fact. -/
theorem resetHolds : Obligations.ResetHolds := by
  unfold Obligations.ResetHolds
  exact ⟨rfl, rfl, rfl, rfl, by decide +kernel, rfl, rfl, rfl, rfl, rfl, rfl, rfl, rfl⟩

/-- Settles O4: no word has a command, so none is put at the front of the queue. -/
theorem tableSpellsNothing : Obligations.TableSpellsNothing := fun _ _ _ => ⟨rfl, rfl⟩

/-! ### The queue -/

/-- A control word changes the device and the store alone, by process data and by SDO. -/
theorem control_form (s : State) (src : CmdSrc) (w : Nat) : ∃ d h, s.control src w = { s with dev := d, hbm := h } := by
  cases src with
  | processData => exact ⟨_, _, rfl⟩
  | sdo c =>
    unfold State.control
    by_cases h : s.takesControl c w = true
    · exact ⟨_, _, if_pos h⟩
    · exact ⟨_, _, if_neg h⟩

/-- A control word leaves the queue alone. -/
theorem control_pending (s : State) (src : CmdSrc) (w : Nat) : (s.control src w).pending = s.pending := by
  obtain ⟨d, h, e⟩ := control_form s src w
  rw [e]

/-- FAULT_ACK gives one control word or, where the bit stands at 1, two. -/
theorem faultAck_pending (s : State) (src : CmdSrc) (w v : Nat) (b : Bool) :
    ((if b then s.control src w else s).control src v).pending = s.pending := by
  rw [control_pending]
  cases b with
  | false => rfl
  | true => exact control_pending s src w

/-- A command by process data or SDO leaves the queue alone. -/
theorem command_pending (s : State) (src : CmdSrc) (c : Cmd) : (s.command src c).pending = s.pending := control_pending s src _

/-- Every command answers a next state, on the queue as it was. -/
theorem exec_next (i : Instr) (s : State) : ∃ t, exec i s = .next t ∧ t.pending = s.pending := by
  cases i with
  | arm src => exact ⟨_, rfl, command_pending s src _⟩
  | serve src => exact ⟨_, rfl, command_pending s src _⟩
  | hold src => exact ⟨_, rfl, command_pending s src _⟩
  | resume src => exact ⟨_, rfl, command_pending s src _⟩
  | disarm src => exact ⟨_, rfl, command_pending s src _⟩
  | enterMaintenance src => exact ⟨_, rfl, command_pending s src _⟩
  | exitMaintenance src => exact ⟨_, rfl, command_pending s src _⟩
  | enterReplay src => exact ⟨_, rfl, command_pending s src _⟩
  | exitReplay src => exact ⟨_, rfl, command_pending s src _⟩
  | warmRestart src => exact ⟨_, rfl, command_pending s src _⟩
  | faultAck src => exact ⟨_, rfl, faultAck_pending s src _ _ _⟩
  | cmdUnlisted word => exact ⟨_, rfl, control_pending s .processData _⟩
  | _ => exact ⟨_, rfl, rfl⟩

/-- A command that stores nothing in the HBM changes the device alone. -/
theorem exec_of_leavesMemory (i : Instr) (s : State) (h : i.leavesMemory = true) : ∃ d, exec i s = .next { s with dev := d } := by
  cases i <;> cases h <;> exact ⟨_, rfl⟩

/-- Settles O5. -/
theorem everyCommandCompletes : Obligations.EveryCommandCompletes := fun i s => (exec_next i s).imp fun _ h => h.1

/-- Settles O42: the one state that a command answers stands on the queue as it was. -/
theorem queueKept : Obligations.QueueKept := by
  intro i s t h
  obtain ⟨u, hu, hq⟩ := exec_next i s
  cases h.symm.trans hu
  exact hq

/-- Settles O43. -/
theorem memoryKept : Obligations.MemoryKept := by
  intro i s t hi h
  obtain ⟨d, hd⟩ := exec_of_leavesMemory i s hi
  cases h.symm.trans hd
  rfl

/-! ### The canonical form of the store -/

/-- A command on the device and the store keeps the invariant where its store stays canonical. -/
theorem inv_onMem {o : Host.Outcome State Fault Refusal} {s : State} {f : Dev → Hbm → Dev × Hbm} (e : o = .next (s.onMem f))
    (h : Memory.wf (f s.dev s.hbm).2 = true) : ∃ t, o = .next t ∧ t.Inv := ⟨_, e, h⟩

/-- The mailbox served after a command keeps the invariant where the command's store stays canonical. -/
theorem inv_onServe {o : Host.Outcome State Fault Refusal} {s : State} {f : Dev → Hbm → Mach} (e : o = .next (s.onServe f))
    (h : Memory.wf (f s.dev s.hbm).2 = true) : ∃ t, o = .next t ∧ t.Inv := ⟨_, e, serve_wf _ h⟩

/-- A request of a client keeps the invariant. -/
theorem inv_request {o : Host.Outcome State Fault Refusal} {s : State} {r : Req} (e : o = .next (s.request r))
    (w : s.Inv) : ∃ t, o = .next t ∧ t.Inv := ⟨_, e, request_wf _ _ w⟩

/-- A control word keeps the invariant. -/
theorem control_inv (s : State) (src : CmdSrc) (v : Nat) (w : s.Inv) : (s.control src v).Inv := by
  cases src with
  | processData => exact serve_wf _ (controlWord_wf _ _ _ w)
  | sdo c =>
    have hw : (s.sdoWrite c 0x2010 0 (le 2 v)).Inv := request_wf _ _ w
    unfold State.control
    dsimp only
    split
    · exact serve_wf _ (sampleControl_wf _ hw)
    · exact hw

/-- A control word by process data or SDO keeps the invariant. -/
theorem inv_control {o : Host.Outcome State Fault Refusal} {s : State} {src : CmdSrc} {v : Nat} (e : o = .next (s.control src v))
    (w : s.Inv) : ∃ t, o = .next t ∧ t.Inv := ⟨_, e, control_inv s src v w⟩

theorem execGradIn_inv (n : Fin 32) (h : SvcHdr) (data : Bytes) (s : State) (w : s.Inv) : ∃ t, execGradIn n h data s = .next t ∧ t.Inv :=
  inv_onMem rfl (svcIn_wf _ _ _ _ _ (fun _ _ k => svcChecked_wf _ _ _ _ _ _ (fun _ k => takeGranules_wf _ _ _ _ _ k) k) w)

theorem execMasterIn_inv (n : Fin 32) (h : SvcHdr) (data : Bytes) (s : State) (w : s.Inv) : ∃ t, execMasterIn n h data s = .next t ∧ t.Inv :=
  inv_onMem rfl (svcIn_wf _ _ _ _ _ (fun _ _ k => svcChecked_wf _ _ _ _ _ _ (fun _ k => writeMasters_wf _ _ _ _ _ k) k) w)

theorem execWeightIn_inv (n : Fin 32) (h : SvcHdr) (data : Bytes) (s : State) (w : s.Inv) : ∃ t, execWeightIn n h data s = .next t ∧ t.Inv :=
  inv_onMem rfl (svcIn_wf _ _ _ _ _ (fun _ _ k => svcChecked_wf _ _ _ _ _ _ (fun _ k => modelWrite_wf _ _ _ _ _ k) k) w)

theorem execActPush_inv (n : Fin 32) (h : SvcHdr) (data : Bytes) (s : State) (w : s.Inv) : ∃ t, execActPush n h data s = .next t ∧ t.Inv :=
  inv_onMem rfl (svcIn_wf _ _ _ _ _ (fun _ j k => svcChecked_wf _ _ _ _ _ _ (fun m k =>
    have hf := freeExtents_wf m j (fun e => e.group == h.group && e.token != h.token) k
    ite_wf hf (writeBytes_wf _ _ _ _ hf)) k) w)

theorem execPartialFormed_inv (j : Fin 16) (s : State) (w : s.Inv) : ∃ t, execPartialFormed j s = .next t ∧ t.Inv :=
  inv_onMem rfl (ite_wf w (sendPartial_wf _ _ w))

theorem execFetchReq_inv (iface : Fin 6) (source dest slot len offset destSlot : Nat) (s : State) (w : s.Inv) :
    ∃ t, execFetchReq iface source dest slot len offset destSlot s = .next t ∧ t.Inv :=
  inv_onMem rfl (ite_wf w (ite_wf w (ite_wf w (readWords_wf _ _ _ w))))

theorem execFetchData_inv (iface : Fin 6) (source dest slot flags offset : Nat) (data : Bytes) (s : State) (w : s.Inv) :
    ∃ t, execFetchData iface source dest slot flags offset data s = .next t ∧ t.Inv :=
  inv_onMem rfl (ite_wf w (ite_wf w (ite_wf w (ite_wf w (modelWrite_wf _ _ _ _ _ w)))))

theorem execScrubRead_inv (a : Fin 31) (symbols : Nat) (queued : Bool) (s : State) (w : s.Inv) :
    ∃ t, execScrubRead a symbols queued s = .next t ∧ t.Inv := by
  refine inv_onMem rfl (ite_wf w (ite_wf ?_ (scrubSram_wf _ _ _ _ _ w)))
  split
  · exact scrubStack_wf _ _ _ _ _ w
  · dsimp only
    split
    · exact scrubStack_wf _ _ _ _ _ w
    · exact w


theorem execDeviceEccPoll_inv (poll : EccPoll) (s : State) (w : s.Inv) : ∃ t, execDeviceEccPoll poll s = .next t ∧ t.Inv := inv_onMem rfl w

theorem execDiscHello_inv (i : Fin 7) (x : DiscHello) (s : State) (w : s.Inv) : ∃ t, execDiscHello i x s = .next t ∧ t.Inv :=
  inv_onMem rfl (ite_wf w (ite_wf w (ite_wf (twinHello_wf _ _ w) w)))

theorem execLinkTrain_inv (l : Fin 39) (t : Train) (s : State) (w : s.Inv) : ∃ u, execLinkTrain l t s = .next u ∧ u.Inv :=
  inv_onMem rfl (ite_wf w (ite_wf w (trainReceived_wf _ _ _ w)))

theorem execUpdateComplete_inv (j : Fin 16) (s : State) (w : s.Inv) : ∃ t, execUpdateComplete j s = .next t ∧ t.Inv := by
  refine inv_onMem rfl ?_
  split
  · exact ite_wf (updateStep_wf _ _ _ w) w
  · exact w

theorem execNormPartial_inv (port : Fin 6) (tag gen shard flags step sum : Nat) (s : State) (w : s.Inv) :
    ∃ t, execNormPartial port tag gen shard flags step sum s = .next t ∧ t.Inv :=
  inv_onMem rfl (ite_wf w (ite_wf (normPartial_wf _ _ _ _ _ _ _ w) w))

theorem execRefusalResponse_inv (s : State) (w : s.Inv) : ∃ t, execRefusalResponse s = .next t ∧ t.Inv := by
  refine inv_onMem rfl ?_
  split
  · exact finish_wf _ _ w
  · exact w

theorem execMainInputRestored_inv (s : State) (w : s.Inv) : ∃ t, execMainInputRestored s = .next t ∧ t.Inv :=
  inv_onMem rfl (ite_wf w (ite_wf w (coldStart_wf _ _ _ _)))

theorem execLeaseEnd_inv (cls : Fin 7) (holder : Nat) (s : State) (w : s.Inv) : ∃ t, execLeaseEnd cls holder s = .next t ∧ t.Inv := by
  refine inv_onServe rfl ?_
  split
  · exact w
  · exact endEffect_wf _ _ w

theorem execShutdownDeadline_inv (s : State) (w : s.Inv) : ∃ t, execShutdownDeadline s = .next t ∧ t.Inv := by
  refine inv_onMem rfl ?_
  split
  · exact w
  · exact domainsDown_wf _ _ (thermalFault_wf _ w)

/-- The shutdown that ends the flash operations leaves an empty store. -/
theorem execFlashOperationsEnd_inv (s : State) (w : s.Inv) : ∃ t, execFlashOperationsEnd s = .next t ∧ t.Inv := by
  refine inv_onMem rfl (ite_wf w ?_)
  dsimp only
  split
  · exact domainsDown_wf _ _ w
  · rfl

theorem execThermalRestart_inv (straps : Fin 128) (timeRef : Fin 3) (s : State) (w : s.Inv) :
    ∃ t, execThermalRestart straps timeRef s = .next t ∧ t.Inv := by
  refine inv_onMem rfl ?_
  split
  · exact w
  · exact ite_wf (coldStart_wf _ _ _ _) w

theorem execSettingsRecordCommitted_inv (s : State) (w : s.Inv) : ∃ t, execSettingsRecordCommitted s = .next t ∧ t.Inv := by
  refine inv_onMem rfl ?_
  split
  · exact ite_wf (finish_wf _ _ w) (settingsAnswered_wf _ w)
  · exact w

theorem execRetireRecordWritten_inv (ok : Bool) (s : State) (w : s.Inv) : ∃ t, execRetireRecordWritten ok s = .next t ∧ t.Inv := by
  refine inv_onMem rfl ?_
  split
  · exact finish_wf _ _ w
  · exact w

theorem execStoreConfirmTimeout_inv (s : State) (w : s.Inv) : ∃ t, execStoreConfirmTimeout s = .next t ∧ t.Inv := by
  refine inv_onMem rfl ?_
  split
  · exact w
  · exact storeAnswered_wf _ w

theorem execStoreCopy_inv (m : StoreMsg) (s : State) (w : s.Inv) : ∃ t, execStoreCopy m s = .next t ∧ t.Inv :=
  inv_onMem rfl (ite_wf w (ite_wf (storeAnswered_wf _ w) (ite_wf w w)))

theorem execTwinState_inv (cycle frag frags offset : Nat) (data : Bytes) (s : State) (w : s.Inv) :
    ∃ t, execTwinState cycle frag frags offset data s = .next t ∧ t.Inv := by
  refine inv_onMem rfl (ite_wf w ?_)
  dsimp only
  split
  · exact twinRecord_wf _ _ _ w
  · exact w

theorem execMirror_inv (job bank region flags step offset : Nat) (data : Bytes) (s : State) (w : s.Inv) :
    ∃ t, execMirror job bank region flags step offset data s = .next t ∧ t.Inv :=
  inv_onMem rfl (ite_wf w (ite_wf w (ite_wf (restoreIn_wf _ _ _ _ _ _ w) (ite_wf (mirrorIn_wf _ _ _ _ _ _ _ _ w) w))))

theorem execFoePacketTimeout_inv (s : State) (w : s.Inv) : ∃ t, execFoePacketTimeout s = .next t ∧ t.Inv := by
  refine inv_onServe rfl ?_
  dsimp only
  split <;> exact w

theorem execWatchdogRestart_inv (s : State) (w : s.Inv) : ∃ t, execWatchdogRestart s = .next t ∧ t.Inv := by
  refine inv_onMem rfl ?_
  split
  · exact warmStart_wf _ _ _ w
  · exact w

theorem execVoidStep_inv (port : Fin 6) (m : CMsg) (step : Nat) (s : State) (w : s.Inv) : ∃ t, execVoidStep port m step s = .next t ∧ t.Inv := by
  refine inv_onMem rfl ?_
  dsimp only
  split
  · exact ite_wf (memberVoid_wf _ _ _ _ w) w
  · exact w

/-- FAULT_ACK gives one control word or two. -/
theorem execFaultAck_inv (src : CmdSrc) (s : State) (w : s.Inv) : ∃ t, execFaultAck src s = .next t ∧ t.Inv := by
  refine inv_control rfl ?_
  cases s.dev.dir.lastFaultAck with
  | true => exact control_inv s src _ w
  | false => exact w

theorem execPowerOverLimit_inv (mw : Nat) (s : State) (w : s.Inv) : ∃ t, execPowerOverLimit mw s = .next t ∧ t.Inv :=
  inv_onServe rfl (ite_wf w (revokeAll_wf _ _ w))

theorem execOutcome_inv (port : Fin 6) (m : CMsg) (kept reverted : Nat) (s : State) (w : s.Inv) :
    ∃ t, execOutcome port m kept reverted s = .next t ∧ t.Inv :=
  inv_onMem rfl (ite_wf (leaderOutcome_wf _ _ _ _ _ _ _ w) w)

/-- Every command keeps the invariant: a request or a control word by the mailbox, a command on the store by its own operations, and the
others leave the store as it is. -/
theorem exec_inv (i : Instr) (s : State) (w : s.Inv) : ∃ t, exec i s = .next t ∧ t.Inv := by
  cases i with
  | coldStart => exact inv_onMem rfl (ite_wf w (coldStart_wf _ _ _ _))
  | mainInputFail => exact inv_onMem rfl (cutPower_wf (s.dev, s.hbm) true)
  | mainInputRestored => exact execMainInputRestored_inv s w
  | coldReset => exact inv_onMem rfl (cutPower_wf (s.dev, s.hbm) true)
  | vauxLoss => exact inv_onMem rfl (cutPower_wf (s.dev, s.hbm) false)
  | domainRampDone => exact inv_onServe rfl (rampDone_wf _ _ _ w)
  | quiesceTimeout => exact inv_onServe rfl (quiesceEnds_wf _ _ _ w)
  | refusalResponse => exact execRefusalResponse_inv s w
  | requestInit => exact inv_onMem rfl (ite_wf (coldStart_wf _ _ _ _) w)
  | faultAck src => exact execFaultAck_inv src s w
  | commandComplete => exact inv_onServe rfl (commandComplete_wf _ w)
  | validationDone => exact inv_onMem rfl (validated_wf _ w)
  | storeConfirmTimeout => exact execStoreConfirmTimeout_inv s w
  | cycleStart => exact inv_onServe rfl (ite_wf (cycleStart_wf _ w) w)
  | launchWindow => exact inv_onMem rfl (stageGroup_wf _ _ w)
  | outcome port m kept reverted => exact execOutcome_inv port m kept reverted s w
  | voidStep port m step => exact execVoidStep_inv port m step s w
  | zenith => exact inv_onMem rfl (ite_wf (zenithOfJob_wf _ _ _ w) w)
  | outcomeFix => exact inv_onMem rfl (fixOutcome_wf _ _ w)
  | revert => exact inv_onMem rfl (revertEntry_wf _ _ w)
  | detourZenith => exact inv_onMem rfl (ite_wf (zenithOfJob_wf _ _ _ w) w)
  | linkTrain l t => exact execLinkTrain_inv l t s w
  | discHello iface h => exact execDiscHello_inv iface h s w
  | gradIn n h data => exact execGradIn_inv n h data s w
  | masterIn n h data => exact execMasterIn_inv n h data s w
  | actPush n h data => exact execActPush_inv n h data s w
  | weightIn n h data => exact execWeightIn_inv n h data s w
  | partialFormed j => exact execPartialFormed_inv j s w
  | partialRepeat => exact inv_onMem rfl (ite_wf (sendPartial_wf _ _ w) w)
  | normPartial port tag gen shard flags step sum => exact execNormPartial_inv port tag gen shard flags step sum s w
  | normRestart => exact inv_onMem rfl (ite_wf w (engineRestart_wf _ _ _ _ w))
  | updateComplete j => exact execUpdateComplete_inv j s w
  | fetchReq iface source dest slot len offset destSlot => exact execFetchReq_inv iface source dest slot len offset destSlot s w
  | fetchData iface source dest slot flags offset data => exact execFetchData_inv iface source dest slot flags offset data s w
  | scrubRead a symbols queued => exact execScrubRead_inv a symbols queued s w
  | remapReloadDone => exact inv_onMem rfl (ite_wf (loadRemap_wf _ _ w) w)
  | retireRecordWritten ok => exact execRetireRecordWritten_inv ok s w
  | deviceEccPoll counts => exact execDeviceEccPoll_inv counts s w
  | restartRelease => exact inv_onMem rfl (releaseJob_wf _ _ w)
  | grantGuardElapsed => exact inv_onMem rfl (takeGrant_wf _ _ w)
  | twinState cycle frag frags offset data => exact execTwinState_inv cycle frag frags offset data s w
  | storeCopy m => exact execStoreCopy_inv m s w
  | mirror job bank region flags step offset data => exact execMirror_inv job bank region flags step offset data s w
  | healthTestDone => exact inv_onMem rfl (ite_wf (healthDone_wf _ _ _ _ _ w) w)
  | collRestoreDone => exact inv_onMem rfl (ite_wf (restoreBank_wf _ _ _ w) w)
  | permitRequest => exact inv_onServe rfl (ite_wf w (takenGrants_wf _ _ w))
  | leaseEnd cls holder => exact execLeaseEnd_inv cls holder s w
  | powerOverLimit mw => exact execPowerOverLimit_inv mw s w
  | dieSensorSample => exact inv_onServe rfl (ite_wf (dieSample_wf _ _ w) w)
  | thermalFaultEntry => exact inv_onMem rfl (thermalFault_wf _ w)
  | shutdownDeadline => exact execShutdownDeadline_inv s w
  | flashOperationsEnd => exact execFlashOperationsEnd_inv s w
  | tTrip => exact inv_onMem rfl (cutPower_wf (s.dev, s.hbm) false)
  | thermalRestart straps timeRef => exact execThermalRestart_inv straps timeRef s w
  | segmentProgrammed => exact inv_onMem rfl (ite_wf (foeProgrammed_wf _ _ w) w)
  | foePacketTimeout => exact execFoePacketTimeout_inv s w
  | activationDone => exact inv_onMem rfl (activationDone_wf _ _ w)
  | watchdogRestart => exact execWatchdogRestart_inv s w
  | settingsRecordCommitted => exact execSettingsRecordCommitted_inv s w
  | manifestReceiptProgrammed => exact inv_onMem rfl (ite_wf (foeProgrammed_wf _ _ w) w)
  | domainOn | domainOff | objectWrite | sdoSegment | sdoInfo | unsupportedProtocol | sessionChallenge | sessionResponse | sessionEnd
  | roleKey | jobStart | jobStop | jobClear | portMap | constellation | almanac | shardMap | requalify | orbitEpoch | orbitPeriod
  | openRequest | autotuneCommand | drain | returnBoard | crosstalk | calRequest | slotEnable | slotDisable | portProbe | collPlan
  | loadJob | commitLoad | collReset | modelTable | modelFill | modelFetch | modelClear | retireRequest | faultAcknowledge
  | recoveryBudgetWrite | detourRelease | restartOrder | logBlock | protBlock | driveHandover | collHandover | handoverAbort | collRestore
  | heaterCap | heaterSupply | manifest | segmentFile | recovery | activate | updateClear | healthReject | recorderEnable
  | recorderTrigger | freeze | releaseCapture | capture | captureWrite | replayFetch | replayRun | replayAbort | replayClear =>
    exact inv_request rfl w
  | arm | serve | hold | resume | disarm | enterMaintenance | exitMaintenance | enterReplay | exitReplay | warmRestart | cmdUnlisted =>
    exact inv_control rfl w
  | _ => exact ⟨_, rfl, w⟩

/-- Settles O54: a tick leaves the store alone, and every command keeps it canonical. -/
theorem invKept : Obligations.InvKept := by
  intro s t w h
  unfold step at h
  split at h
  · cases h
    exact w
  · next c rest _ =>
    obtain ⟨u, hu, hw⟩ := exec_inv c { s with pending := rest } w
    cases h.symm.trans hu
    exact hw

end Sys2Proof.Machine
end

section
/-!
PROOFS. The fault queue (R316, R318): an event takes its place behind those of its class and above, and no arrival breaks the order of
the queue or its bound of 64 events.
-/

namespace Sys2Proof.Machine
open Sys2Proof
set_option Elab.async false

/-! ### The place of an event -/

/-- The queue after an event takes its place holds the event and the others. -/
theorem mem_queueInsert (e x : Event) (q : List Event) : x ∈ queueInsert e q ↔ x = e ∨ x ∈ q := by
  induction q with
  | nil => simp [queueInsert]
  | cons y t ih =>
    simp only [queueInsert]
    split
    · simp
    · simp only [List.mem_cons, ih]
      tauto

/-- An event takes one place. -/
theorem length_queueInsert (e : Event) (q : List Event) : (queueInsert e q).length = q.length + 1 := by
  induction q with
  | nil => rfl
  | cons y t ih =>
    simp only [queueInsert]
    split
    · rfl
    · simp [ih]

/-- An event that takes its place leaves the queue ordered. -/
theorem ordered_queueInsert (e : Event) (q : List Event) (h : ordered q) : ordered (queueInsert e q) := by
  induction q with
  | nil => simp [ordered, queueInsert]
  | cons y t ih =>
    obtain ⟨hy, ht⟩ := List.pairwise_cons.mp h
    simp only [queueInsert]
    split
    · next hlt =>
      refine List.pairwise_cons.mpr ⟨fun x hx => ?_, h⟩
      rcases List.mem_cons.mp hx with rfl | hx
      · exact hlt.le
      · exact (hy x hx).trans hlt.le
    · next hge =>
      refine List.pairwise_cons.mpr ⟨fun x hx => ?_, ih ht⟩
      rcases (mem_queueInsert e x t).mp hx with rfl | hx
      · exact not_lt.mp hge
      · exact hy x hx

/-- In an ordered queue an event stands behind the events of its class and above, and ahead of the others (R316). -/
theorem queueInsert_eq (e : Event) (q : List Event) (h : ordered q) :
    queueInsert e q = q.filter (fun x => decide (e.cls ≤ x.cls)) ++ [e] ++ q.filter (fun x => decide (x.cls < e.cls)) := by
  induction q with
  | nil => rfl
  | cons y t ih =>
    obtain ⟨hy, ht⟩ := List.pairwise_cons.mp h
    simp only [queueInsert]
    split
    · next hlt =>
      have hbelow : ∀ x ∈ y :: t, x.cls < e.cls := by
        intro x hx
        rcases List.mem_cons.mp hx with rfl | hx
        · exact hlt
        · exact (hy x hx).trans_lt hlt
      have h1 : (y :: t).filter (fun x => decide (e.cls ≤ x.cls)) = [] :=
        List.filter_eq_nil_iff.mpr fun x hx => by simpa using hbelow x hx
      have h2 : (y :: t).filter (fun x => decide (x.cls < e.cls)) = y :: t :=
        List.filter_eq_self.mpr fun x hx => decide_eq_true (hbelow x hx)
      rw [h1, h2]
      rfl
    · next hge => simp [not_lt.mp hge, hge, ih ht]

/-! ### The queue after an arrival -/

/-- A queue in order and within its bound (R316, R318). -/
def QueueOk (q : List Event) : Prop := ordered q ∧ q.length ≤ 64

/-- Part of a queue stands in order and within the bound. -/
theorem QueueOk.sublist {p q : List Event} (h : QueueOk q) (s : p.Sublist q) : QueueOk p :=
  ⟨h.1.sublist s, s.length_le.trans h.2⟩

/-- A change of each event that keeps its class leaves the queue in order and within the bound. -/
theorem QueueOk.map {q : List Event} (h : QueueOk q) (f : Event → Event) (hf : ∀ x, (f x).cls = x.cls) : QueueOk (q.map f) := by
  refine ⟨?_, by simpa using h.2⟩
  exact List.pairwise_map.mpr (h.1.imp fun hab => by rw [hf, hf]; exact hab)

/-- An event takes its place in a queue with room. -/
theorem QueueOk.queueInsert {q : List Event} (h : QueueOk q) (e : Event) (hq : q.length < 64) : QueueOk (queueInsert e q) :=
  ⟨ordered_queueInsert e q h.1, by rw [length_queueInsert]; exact hq⟩

/-- The handler takes from the queue: what it leaves is part of it. -/
theorem pop_sublist (f : Faults) : f.pop.2.queue.Sublist f.queue := by
  unfold Faults.pop
  split
  · exact .refl _
  · exact .refl _
  · next h _ => simp [h]
  · next h _ =>
    split
    · simp [h]
    · exact .refl _

/-- The same where it discards cancelled handlings on the way. -/
theorem popLive_sublist (gone : Event → Bool) (n : Nat) (f : Faults) : (f.popLive gone n).2.2.queue.Sublist f.queue := by
  induction n generalizing f with
  | zero => exact .refl _
  | succ n ih =>
    have hp := pop_sublist f
    unfold Faults.popLive
    split
    · next h => rwa [h] at hp
    · next e g h =>
      rw [h] at hp
      split
      · exact (ih g).trans hp
      · exact hp

/-- An idle handler that takes the head leaves part of the queue. -/
theorem takeHead_sublist (d : Dev) : d.takeHead.faults.queue.Sublist d.faults.queue := by
  unfold Dev.takeHead
  split
  · exact .refl _
  · exact popLive_sublist _ _ _

/-- Where the queue is full, the arrival or the last event goes (R318). -/
theorem overflow_queue (d : Dev) (e : Event) : (d.overflow Machine.queueInsert e).faults.queue = d.faults.queue ∨
    d.faults.queue ≠ [] ∧ (d.overflow Machine.queueInsert e).faults.queue = Machine.queueInsert e d.faults.queue.dropLast := by
  cases hl : d.faults.queue.getLast? with
  | none => simp [Dev.overflow, hl]
  | some x =>
    have hne : d.faults.queue ≠ [] := by
      intro h
      simp [h] at hl
    by_cases hx : e.cls ≤ x.cls
    · simp [Dev.overflow, hl, hx]
    · simp [Dev.overflow, hl, hx, hne]

/-- An overflow leaves the queue in order and within its bound. -/
theorem overflow_queueOk (d : Dev) (e : Event) (h : QueueOk d.faults.queue) : QueueOk (d.overflow Machine.queueInsert e).faults.queue := by
  rcases overflow_queue d e with hq | ⟨hne, hq⟩ <;> rw [hq]
  · exact h
  · refine (h.sublist (List.dropLast_sublist _)).queueInsert e ?_
    have hpos := List.length_pos_iff.mpr hne
    have hle := h.2
    rw [List.length_dropLast]
    omega

/-- An arrival leaves the queue in order and within its bound: it is not taken, it merges with an event, it overflows, or it takes its
place in a queue with room. -/
theorem enqueue_queueOk (d : Dev) (e : Event) (h : QueueOk d.faults.queue) : QueueOk (d.enqueue e).faults.queue := by
  have hkept : ∀ p, QueueOk (d.faults.queue.filter p) := fun p => h.sublist List.filter_sublist
  unfold Dev.enqueue
  split
  · exact h
  · extract_lets f out gone kept e' g joins q
    have hk : QueueOk kept := by simpa [kept, f] using hkept _
    split
    · exact hk.map _ fun x => by split <;> rfl
    · split
      · exact (overflow_queueOk _ e' hk).sublist (takeHead_sublist _)
      · next hlt => exact (hk.queueInsert e' (not_le.mp hlt)).sublist ((takeHead_sublist _).trans (by simp))

/-- Settles O50. -/
theorem faultQueueOrder : Obligations.FaultQueueOrder :=
  ⟨queueInsert_eq, fun d e ho hl => enqueue_queueOk d e ⟨ho, hl⟩⟩

end Sys2Proof.Machine
end

section
/-!
PROOFS. What is written reads back: a code word of the HBM (R295, R299), and an object of the dictionary (R43).
-/

namespace Sys2Proof.Machine
open Sys2Proof
set_option Elab.async false

/-! ### Objects -/

/-- Settles O49. -/
theorem objectReadBack : Obligations.ObjectReadBack :=
  fun d i s v => ⟨setNum_num d i s v, fun _ _ h => setNum_num_other d i s v h⟩

/-! ### Code words -/

/-- A dropped key reads as the default. -/
theorem tget_tdel_same {α : Type} (d : α) (t : List (Nat × α)) (n : Nat) : tget d (tdel t n) n = d := by
  induction t with
  | nil => rfl
  | cons e t ih =>
    by_cases h : e.1 = n
    · simpa [tdel, h] using ih
    · simpa [tdel, h, tget] using ih

/-- The other keys of a table read as before a key is dropped. -/
theorem tget_tdel_other {α : Type} (d : α) (t : List (Nat × α)) {n m : Nat} (h : n ≠ m) : tget d (tdel t n) m = tget d t m := by
  induction t with
  | nil => rfl
  | cons e t ih =>
    by_cases hn : e.1 = n
    · have hm : e.1 ≠ m := hn ▸ h
      simpa [tdel, hn, hm, tget, h] using ih
    · by_cases hm : e.1 = m
      · simp [tdel, hm, tget, h.symm]
      · simpa [tdel, hn, hm, tget] using ih

/-- A string of full length is its own padding. -/
theorem padTo_of_length {n : Nat} {b : Bytes} (h : b.length = n) : padTo n b = b := by
  simp [padTo, ← h, zeros]

/-- Words of different stacks or places have different keys. -/
theorem wordKey_ne {s w s' w' : Nat} (hw : w < 2 ^ 30) (hw' : w' < 2 ^ 30) (h : s' ≠ s ∨ w' ≠ w) : wordKey s w ≠ wordKey s' w' := by
  unfold wordKey
  omega

/-- The bytes of one word lie apart from those of another. -/
theorem byteKey_apart {s w s' w' k : Nat} (hw : w < 2 ^ 30) (hw' : w' < 2 ^ 30) (h : s' ≠ s ∨ w' ≠ w)
    (h1 : byteKey s' (w' * 64) ≤ k) (h2 : k < byteKey s' (w' * 64) + 64) :
    k < byteKey s (w * 64) ∨ byteKey s (w * 64) + 64 ≤ k := by
  unfold byteKey at *
  omega

/-- A word written reads as written, or as poison. -/
theorem wordAt_setWord_same (h : Hbm) (s w : Nat) (data : Bytes) (poison : Bool) (hwf : Memory.wf h = true) (hd : data.length = 64) :
    (h.setWord s w data poison).wordAt s w = (if poison then zeros 64 else data, poison) := by
  cases poison with
  | true => simp [Hbm.wordAt, Hbm.setWord, mem_sinsert, Hbm.enterPage]
  | false =>
    have hread : cellRead (cellWrite h.cells (byteKey s (w * 64)) data) (byteKey s (w * 64)) 64 = data :=
      hd ▸ cellRead_write data h.cells _ hwf
    simp [Hbm.wordAt, Hbm.setWord, mem_sinsert, Hbm.enterPage, tget_tdel_same, padTo_of_length hd, hread]

/-- The cells of another word read as before. -/
theorem cellRead_setWord_other (h : Hbm) {s w s' w' : Nat} (data : Bytes) (poison : Bool) (hw : w < 2 ^ 30) (hd : data.length = 64)
    (hw' : w' < 2 ^ 30) (hne : s' ≠ s ∨ w' ≠ w) :
    cellRead (h.setWord s w data poison).cells (byteKey s' (w' * 64)) 64 = cellRead h.cells (byteKey s' (w' * 64)) 64 := by
  refine cellRead_congr _ _ _ _ fun k h1 h2 => ?_
  have hk := byteKey_apart hw hw' hne h1 h2
  cases poison with
  | true => exact cellGet_drop _ _ _ _ hk
  | false => exact cellGet_write_other _ _ _ _ (by rwa [padTo_of_length hd, hd])

/-- Another word of a valid block reads as before. -/
theorem wordAt_setWord_other (h : Hbm) {s w s' w' : Nat} (data : Bytes) (poison : Bool) (hw : w < 2 ^ 30) (hd : data.length = 64)
    (hw' : w' < 2 ^ 30) (hne : s' ≠ s ∨ w' ≠ w) (hv : pageKey s' (w' / 64) ∈ h.valid) :
    (h.setWord s w data poison).wordAt s' w' = h.wordAt s' w' := by
  have hcells := cellRead_setWord_other h data poison hw hd hw' hne
  have hkey := wordKey_ne hw hw' hne
  have hvalid : pageKey s' (w' / 64) ∈ (h.setWord s w data poison).valid := by
    cases poison <;> exact (mem_sinsert _ _ _).mpr (.inr hv)
  have hpoison : (h.setWord s w data poison).poison.contains (wordKey s' w') = h.poison.contains (wordKey s' w') := by
    rw [Bool.eq_iff_iff]
    cases poison <;> simp [Hbm.setWord, Hbm.enterPage, mem_sinsert, hkey.symm]
  have hflaws : tget 0 (h.setWord s w data poison).flaws (wordKey s' w') = tget 0 h.flaws (wordKey s' w') := by
    cases poison <;> exact tget_tdel_other 0 h.flaws hkey
  simp only [Hbm.wordAt, hcells, hpoison, hflaws, List.contains_iff_mem.mpr hv, List.contains_iff_mem.mpr hvalid]

/-- Settles O48: the word itself, the other words, and a block that is not valid. -/
theorem hbmWordReadBack : Obligations.HbmWordReadBack := by
  intro h s w data poison hwf hw hd
  refine ⟨wordAt_setWord_same h s w data poison hwf hd, fun s' w' hw' hne hv => wordAt_setWord_other h data poison hw hd hw' hne hv, ?_⟩
  intro s' w' hv
  simp [Hbm.wordAt, hv]

end Sys2Proof.Machine
end

section
/-!
PROOFS. Where a Director command ends without effect (R62): in a state without a row of Table 2.12 for it, or with its conditions unmet.
-/

namespace Sys2Proof.Machine
open Sys2Proof
set_option Elab.async false

/-- The command leaves the Director's state as it stood until it acts. -/
@[simp] theorem ordered_state (s : State) (src : CmdSrc) (c : Cmd) : (s.ordered src c).dir.state = s.dev.dir.state := by cases src <;> rfl

/-- The command leaves the twin's part of the device as it stood until it acts. -/
@[simp] theorem ordered_followsDrive (s : State) (src : CmdSrc) (c : Cmd) : (s.ordered src c).followsDrive = s.dev.followsDrive := by
  cases src <;> rfl

/-- A command whose role holds, in a state without a row for it, ends with CMD_RESULT 2. -/
theorem runCommand_of_no_row (m : Mach) (c : Cmd) (hrole : 6 ≤ c.code → m.1.dir.latchedMaintainer = true) (hstate : m.1.dir.state ∉ c.from_) :
    runCommand m c = (m.1.cmdEnds 2, m.2) := by
  by_cases hc : 6 ≤ c.code
  · simp [runCommand, hrole hc, hstate]
  · simp [runCommand, hc, hstate]

/-- A command with a row for the state, but with its conditions unmet, ends with CMD_RESULT 3. -/
theorem runCommand_of_guard (m : Mach) (c : Cmd) (hrole : 6 ≤ c.code → m.1.dir.latchedMaintainer = true) (hstate : m.1.dir.state ∈ c.from_)
    (hc : c ≠ .enterMaint) (hdrive : c.code ≤ 5 → m.1.followsDrive = false) (hguard : m.1.cmdGuard c = false) :
    runCommand m c = (m.1.cmdEnds 3, m.2) := by
  by_cases h5 : c.code ≤ 5
  · have h6 : ¬ 6 ≤ c.code := by omega
    simp [runCommand, h5, h6, hdrive h5, hstate, hc, hguard]
  · have h6 : 6 ≤ c.code := by omega
    simp [runCommand, h5, hrole h6, hstate, hc, hguard]

/-- Settles O52: what the command runs to is what its row does on the device that latched it. -/
theorem directorRefusals : Obligations.DirectorRefusals := by
  intro s src c hg hrole
  have hran := command_given s src c hg
  refine ⟨fun hstate => ⟨_, exec_given src c s, ?noRow⟩, fun hstate hc hdrive hguard => ⟨_, exec_given src c s, ?guard⟩⟩
  case noRow => rwa [runCommand_of_no_row _ c hrole (by simpa using hstate)] at hran
  case guard => rwa [runCommand_of_guard _ c hrole (by simpa using hstate) hc (by simpa using hdrive) hguard] at hran

end Sys2Proof.Machine
end

section
/-!
PROOFS. The frames of the device: which of its parts an operation leaves as they were. An operation's frame follows from the frames of
its steps, and a frame says that the device is as before but for the parts that it names.
-/

namespace Sys2Proof.Machine
open Sys2Proof
set_option Elab.async false

/-! ### Frames -/

/-- The parts of the device. -/
inductive Part where
  | module | net | dir | jobs | circuits | runs | time | eng | rings | arr | opt | disc | coll | mem
  | faults | twin | power | upd | recr | od | ob | out | fresh
  deriving DecidableEq

/-- A part is as before. -/
def Dev.SameAt (d e : Dev) : Part → Prop
  | .module => e.module = d.module
  | .net => e.net = d.net
  | .dir => e.dir = d.dir
  | .jobs => e.jobs = d.jobs
  | .circuits => e.circuits = d.circuits
  | .runs => e.runs = d.runs
  | .time => e.time = d.time
  | .eng => e.eng = d.eng
  | .rings => e.rings = d.rings
  | .arr => e.arr = d.arr
  | .opt => e.opt = d.opt
  | .disc => e.disc = d.disc
  | .coll => e.coll = d.coll
  | .mem => e.mem = d.mem
  | .faults => e.faults = d.faults
  | .twin => e.twin = d.twin
  | .power => e.power = d.power
  | .upd => e.upd = d.upd
  | .recr => e.recr = d.recr
  | .od => e.od = d.od
  | .ob => e.ob = d.ob
  | .out => e.out = d.out
  | .fresh => e.fresh = d.fresh

/-- The device with some parts of another. -/
def Dev.merge (d : Dev) (l : List Part) (e : Dev) : Dev where
  module := if l.contains .module then e.module else d.module
  net := if l.contains .net then e.net else d.net
  dir := if l.contains .dir then e.dir else d.dir
  jobs := if l.contains .jobs then e.jobs else d.jobs
  circuits := if l.contains .circuits then e.circuits else d.circuits
  runs := if l.contains .runs then e.runs else d.runs
  time := if l.contains .time then e.time else d.time
  eng := if l.contains .eng then e.eng else d.eng
  rings := if l.contains .rings then e.rings else d.rings
  arr := if l.contains .arr then e.arr else d.arr
  opt := if l.contains .opt then e.opt else d.opt
  disc := if l.contains .disc then e.disc else d.disc
  coll := if l.contains .coll then e.coll else d.coll
  mem := if l.contains .mem then e.mem else d.mem
  faults := if l.contains .faults then e.faults else d.faults
  twin := if l.contains .twin then e.twin else d.twin
  power := if l.contains .power then e.power else d.power
  upd := if l.contains .upd then e.upd else d.upd
  recr := if l.contains .recr then e.recr else d.recr
  od := if l.contains .od then e.od else d.od
  ob := if l.contains .ob then e.ob else d.ob
  out := if l.contains .out then e.out else d.out
  fresh := if l.contains .fresh then e.fresh else d.fresh

/-- Every part that is not named is as before. -/
def SameBut (l : List Part) (d e : Dev) : Prop := ∀ p, p ∉ l → d.SameAt e p

theorem SameBut.refl {l : List Part} (d : Dev) : SameBut l d d := fun p _ => by cases p <;> rfl

theorem SameBut.trans {l : List Part} {d e f : Dev} (h : SameBut l d e) (k : SameBut l e f) : SameBut l d f :=
  fun p hp => by
    have h1 := h p hp
    have h2 := k p hp
    cases p <;> exact h2.trans h1

/-- A frame that names fewer parts is a stronger one. -/
theorem SameBut.mono {l k : List Part} {d e : Dev} (h : SameBut k d e) (hl : k ⊆ l := by decide) : SameBut l d e :=
  fun p hp => h p (fun hk => hp (hl hk))

/-- One operation after another. -/
theorem SameBut.andThen {l k m : List Part} {d e f : Dev} (h : SameBut k d e) (h' : SameBut m e f) (hk : k ⊆ l := by decide)
    (hm : m ⊆ l := by decide) : SameBut l d f := (h.mono hk).trans (h'.mono hm)

theorem SameBut.ite {l : List Part} {c : Prop} [Decidable c] {d a b : Dev} (ha : SameBut l d a) (hb : SameBut l d b) :
    SameBut l d (if c then a else b) := by split <;> assumption

/-- Steps over a list. -/
theorem SameBut.foldl {l : List Part} {α : Type} {g : Dev → α → Dev} (h : ∀ d a, SameBut l d (g d a)) (t : List α) (d : Dev) :
    SameBut l d (t.foldl g d) := by
  induction t generalizing d with
  | nil => exact .refl d
  | cons a t ih => exact (h d a).trans (ih _)

/-- A device that is as before but for the parts named is the old one with those parts of the new. -/
theorem SameBut.eq {l : List Part} {d e : Dev} (h : SameBut l d e) : e = d.merge l e := by
  have pick : ∀ {α : Type} (p : Part) (x y : α), (p ∉ l → x = y) → x = if l.contains p then x else y := by
    intro α p x y hxy
    by_cases hp : p ∈ l
    · simp [hp]
    · simp [hp, hxy hp]
  obtain ⟨⟩ := e
  simp only [Dev.merge, Dev.mk.injEq]
  exact ⟨pick .module _ _ (h .module),
    pick .net _ _ (h .net),
    pick .dir _ _ (h .dir),
    pick .jobs _ _ (h .jobs),
    pick .circuits _ _ (h .circuits),
    pick .runs _ _ (h .runs),
    pick .time _ _ (h .time),
    pick .eng _ _ (h .eng),
    pick .rings _ _ (h .rings),
    pick .arr _ _ (h .arr),
    pick .opt _ _ (h .opt),
    pick .disc _ _ (h .disc),
    pick .coll _ _ (h .coll),
    pick .mem _ _ (h .mem),
    pick .faults _ _ (h .faults),
    pick .twin _ _ (h .twin),
    pick .power _ _ (h .power),
    pick .upd _ _ (h .upd),
    pick .recr _ _ (h .recr),
    pick .od _ _ (h .od),
    pick .ob _ _ (h .ob),
    pick .out _ _ (h .out),
    pick .fresh _ _ (h .fresh)⟩

/-- A device with new values in the parts named is as before but for those. -/
theorem SameBut.of_eq {l : List Part} {d e : Dev} (h : e = d.merge l e) : SameBut l d e := by
  intro p hp
  rw [h]
  cases p <;> exact if_neg (by simpa using hp)

/-! ### Reports, permits and sessions -/

theorem raise_sameBut (d : Dev) (code cls scope index : Nat) (active : Bool) (detail : Bytes) :
    SameBut [.mem, .faults, .upd, .recr, .od] d (d.raise code cls scope index active detail) := by
  intro p hp
  cases p <;> simp [Dev.SameAt] at hp ⊢

theorem info_sameBut (d : Dev) (code scope index : Nat) (detail : Bytes) :
    SameBut [.mem, .faults, .recr, .od] d (d.info code scope index detail) := by
  intro p hp
  cases p <;> simp [Dev.SameAt] at hp ⊢

theorem secret_sameBut (d : Dev) (code index : Nat) (detail : Bytes) :
    SameBut [.mem, .faults, .recr, .od] d (d.secret code index detail) := by
  intro p hp
  cases p <;> simp [Dev.SameAt] at hp ⊢

theorem request_sameBut (d : Dev) (cls : Nat) (prio : Prio) (amount holder till : Nat) :
    SameBut [.opt, .power, .od, .out] d (d.request cls prio amount holder till) := by
  intro p hp
  cases p <;> simp [Dev.SameAt] at hp ⊢

theorem reach_sameBut (d : Dev) (t : Nat) : SameBut [.time] d (d.reach t) := .of_eq rfl

theorem bump_sameBut (d : Dev) (i s n : Nat) : SameBut [.od] d (d.bump i s n) := .of_eq rfl

theorem setNum_sameBut (d : Dev) (i s : Nat) (v : Int) : SameBut [.od] d (d.setNum i s v) := .of_eq rfl

theorem emit_sameBut (d : Dev) (o : Output) : SameBut [.out] d (d.emit o) := .of_eq rfl

theorem syncCause_sameBut (d : Dev) (c : Nat) : SameBut [.od] d (d.syncCause c) := .of_eq rfl

theorem unlatch_sameBut (d : Dev) (code scope index : Nat) : SameBut [.faults] d (d.unlatch code scope index) := .of_eq rfl

theorem setSessions_sameBut (d : Dev) (t : List Session) : SameBut [.net] d (d.setSessions t) := .of_eq rfl

theorem endSession_sameBut (d : Dev) (c : Client) : SameBut [.net, .mem, .faults, .recr, .od] d (d.endSession c) := by
  unfold Dev.endSession
  split
  · exact .refl d
  · exact (setSessions_sameBut d _).andThen (secret_sameBut _ _ _ _)

/-! ### Links and lanes -/

theorem modLink_sameBut (d : Dev) (l : Nat) (f : Link → Link) : SameBut [.opt] d (d.modLink l f) := .of_eq rfl

theorem modLane_sameBut (d : Dev) (l k : Nat) (f : Lane → Lane) : SameBut [.opt] d (d.modLane l k f) := .of_eq rfl

theorem newAttempt_sameBut (d : Dev) (l : Nat) : SameBut [.opt] d (d.newAttempt l) := .of_eq rfl

theorem huntLink_sameBut (d : Dev) (l : Nat) : SameBut [.opt] d (d.huntLink l) :=
  .foldl (fun d k => .ite (modLane_sameBut d l k _) (.refl d)) _ d

theorem enableLink_sameBut (d : Dev) (l : Nat) (fast : Bool) : SameBut [.opt] d (d.enableLink l fast) :=
  ((newAttempt_sameBut d l).trans (modLink_sameBut _ l _)).trans (huntLink_sameBut _ l)

theorem openService_sameBut (d : Dev) (n : Nat) (fast : Bool) : SameBut [.opt] d (d.openService n fast) :=
  .ite (.refl d) ((modLink_sameBut d n _).trans (enableLink_sameBut _ n fast))

theorem sayHeaders_sameBut (d : Dev) (l : Nat) : SameBut [.opt, .out] d (d.sayHeaders l) := .ite (.refl d) (.of_eq rfl)

theorem serveLane_sameBut (d : Dev) (l k : Nat) : SameBut [.opt, .od, .out] d (d.serveLane l k) := by
  unfold Dev.serveLane
  refine .ite (.refl d) (.ite ?sent ((modLane_sameBut d l k _).andThen (.foldl (l := [.od, .out]) (fun d f => .of_eq rfl) _ _)))
  case sent =>
    exact ((modLane_sameBut d l k _).andThen (l := [.opt, .out]) (.foldl (l := [.out]) (fun d f => .of_eq rfl) _ _)).andThen
      (bump_sameBut _ _ _ _)

theorem refreshLink_sameBut (d : Dev) (l : Nat) : SameBut [.opt, .od, .out] d (d.refreshLink l) := by
  unfold Dev.refreshLink
  have hserved : ∀ t : List (Nat × Lane), ∀ e : Dev, SameBut [.opt, .od, .out] e (t.foldl (fun d x => d.serveLane l x.1) e) :=
    fun t e => .foldl (fun d x => serveLane_sameBut d l x.1) t e
  exact ((modLink_sameBut d l _).andThen (l := [.opt, .od, .out]) (hserved _ _)).andThen (sayHeaders_sameBut _ l)

theorem alignmentGone_sameBut (d : Dev) (l : Nat) : SameBut [.opt] d (d.alignmentGone l) :=
  (modLink_sameBut d l _).trans (newAttempt_sameBut _ l)

theorem leaveRoles_sameBut (d : Dev) : SameBut [.twin] d d.leaveRoles := .of_eq rfl

theorem modTwin_sameBut (d : Dev) (f : Twin → Twin) : SameBut [.twin] d (d.modTwin f) := .of_eq rfl

theorem twinGone_sameBut (d : Dev) : SameBut [.twin, .od] d d.twinGone := by
  unfold Dev.twinGone
  have h : ∀ f, SameBut [.twin] d (d.leaveRoles.modTwin f) := fun f => (leaveRoles_sameBut d).trans (modTwin_sameBut _ f)
  exact .ite ((h _).andThen (syncCause_sameBut _ 6)) (h _).mono

theorem rxLost_sameBut (d : Dev) (l k : Nat) : SameBut [.opt] d (d.rxLost l k) := modLane_sameBut d l k _

theorem rxChanged_sameBut (d : Dev) (l was : Nat) : SameBut [.opt, .twin, .od, .out] d (d.rxChanged l was) := by
  unfold Dev.rxChanged
  have hgone := (alignmentGone_sameBut d l).andThen (l := [.opt, .out]) (sayHeaders_sameBut _ l)
  exact .ite (.ite (.refl d) (.ite (hgone.andThen (twinGone_sameBut _)) hgone.mono)) (refreshLink_sameBut d l).mono

theorem laneGone_sameBut (d : Dev) (l : Nat) : SameBut [.opt, .twin, .od, .out] d (d.laneGone l) := by
  unfold Dev.laneGone
  exact .ite ((refreshLink_sameBut d l).andThen (twinGone_sameBut _)) (refreshLink_sameBut d l).mono

end Sys2Proof.Machine
end

section
/-!
PROOFS. What supply, permit and PMBus commands leave unchanged.
-/

namespace Sys2Proof.Machine
open Sys2Proof
set_option Elab.async false

theorem discard_sameBut (d : Dev) (x words : Nat) : SameBut [.module] d (d.discard x words) := .of_eq rfl

theorem flushedLane_sameBut (d : Dev) (l k : Nat) : SameBut [.opt, .twin, .od, .out] d (d.flushed (.lane l k)) :=
  (rxLost_sameBut d _ k).andThen (rxChanged_sameBut _ _ _)

theorem pmbusRead_sameBut (d : Dev) (code : Nat) (pec_ : Bool) (data : List Nat) : SameBut [.out] d (d.pmbusRead code pec_ data) :=
  .ite (emit_sameBut _ _) (emit_sameBut _ _)

theorem rampManagement_sameBut (d : Dev) : SameBut [.power, .out] d d.rampManagement := .ite (.of_eq rfl) (.refl d)

/-- Settles O44: a clause per command, by the frames of the operations that it runs. -/
theorem frameSupplies : Obligations.FrameSupplies := by
  unfold Obligations.FrameSupplies
  refine ⟨fun s b words => ⟨_, rfl, rfl, rfl, _, _, rfl⟩,
    fun s j words => ⟨_, rfl, rfl, rfl, _, _, _, rfl⟩,
    fun s l k words => ⟨_, rfl, rfl, rfl, _, _, _, _, _, SameBut.eq (l := [.module, .opt, .twin, .od, .out]) ?lane⟩,
    fun s p words => ⟨_, rfl, rfl, rfl, _, _, rfl⟩,
    fun s cls holder => ⟨_, rfl, rfl, rfl, _, SameBut.eq (l := [.power]) ?permitRenew⟩,
    fun s cls holder => ⟨_, rfl, rfl, rfl, _, rfl⟩,
    fun s mw => ⟨_, rfl, rfl, rfl, _, rfl⟩,
    fun s write pec => ⟨_, rfl, rfl, rfl, _, _, SameBut.eq (l := [.module, .out]) ?page⟩,
    fun s => ⟨_, rfl, rfl, rfl, _, _, SameBut.eq (l := [.module, .time]) ?holdupDischarged⟩,
    fun s mv ma mw hbm => ⟨_, rfl, rfl, rfl, _, _, _, SameBut.eq (l := [.module, .power, .od]) (.ite (.refl _) (.of_eq rfl))⟩,
    fun s => ⟨_, rfl, rfl, rfl, _, _, _, SameBut.eq (l := [.module, .power, .out]) ?holdupCharged⟩,
    fun s => ⟨_, rfl, rfl, rfl, _, _, _, _, _, _, SameBut.eq (l := [.module, .mem, .faults, .upd, .recr, .od]) ?timeRefLost⟩,
    fun s => ⟨_, rfl, rfl, rfl, _, _, _, SameBut.eq (l := [.module, .time, .out]) (.ite (.refl _) (.ite (.of_eq rfl) (.of_eq rfl)))⟩,
    fun s pec => ⟨_, rfl, rfl, rfl, _, (pmbusRead_sameBut s.dev _ pec _).eq⟩,
    fun s pec => ⟨_, rfl, rfl, rfl, _, (pmbusRead_sameBut s.dev _ pec _).eq⟩,
    fun s pec => ⟨_, rfl, rfl, rfl, _, (pmbusRead_sameBut s.dev _ pec _).eq⟩,
    fun s pec => ⟨_, rfl, rfl, rfl, _, (pmbusRead_sameBut s.dev _ pec _).eq⟩,
    fun s pec => ⟨_, rfl, rfl, rfl, _, (pmbusRead_sameBut s.dev _ pec _).eq⟩,
    fun s pec => ⟨_, rfl, rfl, rfl, _, (pmbusRead_sameBut s.dev _ pec _).eq⟩,
    fun s pec => ⟨_, rfl, rfl, rfl, _, (pmbusRead_sameBut s.dev _ pec _).eq⟩,
    fun s pec => ⟨_, rfl, rfl, rfl, _, (pmbusRead_sameBut s.dev _ pec _).eq⟩,
    fun s pec => ⟨_, rfl, rfl, rfl, _, (pmbusRead_sameBut s.dev _ pec _).eq⟩,
    fun s pec => ⟨_, rfl, rfl, rfl, _, (pmbusRead_sameBut s.dev _ pec _).eq⟩,
    fun s pec => ⟨_, rfl, rfl, rfl, _, (pmbusRead_sameBut s.dev _ pec _).eq⟩,
    fun s pec => ⟨_, rfl, rfl, rfl, _, (pmbusRead_sameBut s.dev _ pec _).eq⟩,
    fun s pec => ⟨_, rfl, rfl, rfl, _, (pmbusRead_sameBut s.dev _ pec _).eq⟩,
    fun s pec => ⟨_, rfl, rfl, rfl, _, (pmbusRead_sameBut s.dev _ pec _).eq⟩,
    fun s code write => ⟨_, rfl, rfl, rfl, _, rfl⟩,
    fun s pec => ⟨_, rfl, rfl, rfl, _, SameBut.eq (l := [.out]) (.ite (emit_sameBut _ _) (emit_sameBut _ _))⟩⟩
  case lane =>
    exact ((discard_sameBut s.dev _ words).andThen (l := [.module, .opt, .twin, .od, .out]) (flushedLane_sameBut _ l k)).andThen
      (.of_eq (l := [.module]) rfl)
  case permitRenew =>
    dsimp only [onDev_dev]
    split
    · exact .refl _
    · exact .ite (.of_eq rfl) (.refl _)
  case page =>
    dsimp only [onDev_dev]
    split
    · exact (pmbusRead_sameBut _ _ _ _).mono
    · exact .ite (.of_eq rfl) (.of_eq rfl)
  case holdupDischarged =>
    dsimp only [onDev_dev]
    split
    · exact .refl _
    · exact .of_eq rfl
  case holdupCharged => exact (SameBut.of_eq (l := [.module]) rfl).andThen (rampManagement_sameBut _)
  case timeRefLost => exact .ite (.refl _) ((SameBut.of_eq (l := [.module, .od]) rfl).andThen (raise_sameBut _ _ _ _ _ _ _))

end Sys2Proof.Machine
end

section
/-!
PROOFS. What the commands of the field network, the twin, the faults and the update leave unchanged.
-/

namespace Sys2Proof.Machine
open Sys2Proof
set_option Elab.async false

/-! ### The field network -/

/-- Settles O45. -/
theorem frameNetwork : Obligations.FrameNetwork := by
  unfold Obligations.FrameNetwork
  refine ⟨fun s => ⟨_, rfl, rfl, rfl, _, SameBut.eq (l := [.net]) ?preOp⟩,
    fun s cycle => ⟨_, rfl, rfl, rfl, _, SameBut.eq (l := [.net]) ?safeOp⟩,
    fun s => ⟨_, rfl, rfl, rfl, _, SameBut.eq (l := [.net]) (.ite (.of_eq rfl) (.of_eq rfl))⟩,
    fun s => ⟨_, rfl, rfl, rfl, _, SameBut.eq (l := [.net]) (.ite (.of_eq rfl) (.refl _))⟩,
    fun s data => ⟨_, rfl, rfl, rfl, _, SameBut.eq (l := [.net]) (.ite (.of_eq rfl) (.refl _))⟩,
    fun s dcTime => ⟨_, rfl, rfl, rfl, _, _, SameBut.eq (l := [.net, .od]) (.ite (.refl _) (.of_eq rfl))⟩,
    fun s c => ⟨_, rfl, rfl, rfl, _, _, SameBut.eq (l := [.net, .time]) ?challenge⟩,
    fun s => ⟨_, rfl, rfl, rfl, _, _, _, SameBut.eq (l := [.net, .time, .out]) ?segment⟩,
    fun s c => ⟨_, rfl, rfl, rfl, _, _, _, _, _, _, SameBut.eq (l := [.net, .time, .mem, .faults, .recr, .od]) ?session⟩⟩
  case preOp =>
    dsimp only [onDev_dev]
    split
    · exact .of_eq rfl
    · exact .ite (.of_eq rfl) (.of_eq rfl)
    · exact .of_eq rfl
  case safeOp =>
    dsimp only [onDev_dev]
    split
    · split <;> exact .of_eq rfl
    · exact .of_eq rfl
    · exact .of_eq rfl
    · exact .of_eq rfl
  case challenge =>
    dsimp only [onDev_dev]
    split
    · exact .refl _
    · exact .of_eq rfl
  case segment =>
    dsimp only [onDev_dev]
    split
    · exact .refl _
    · exact .of_eq rfl
  case session =>
    dsimp only [onDev_dev]
    split
    · exact .refl _
    · exact (reach_sameBut _ _).andThen (endSession_sameBut _ c)

/-! ### The twin, the faults and the update -/

theorem healthConfirm_sameBut (d : Dev) : SameBut [.upd, .od] d d.healthConfirm := .of_eq rfl

/-- Settles O46. -/
theorem frameModule : Obligations.FrameModule := by
  unfold Obligations.FrameModule
  refine ⟨fun s poll => ⟨_, rfl, rfl, ⟨_, rfl⟩, _, _, SameBut.eq (l := [.mem, .od]) ?poll⟩,
    fun s code cls scope index active detail _ => ⟨_, rfl, rfl, rfl, _, _, _, _, _,
      SameBut.eq (l := [.mem, .faults, .upd, .recr, .od]) (.ite (raise_sameBut _ _ _ _ _ _ _) (.refl _))⟩,
    fun s low id => ⟨_, rfl, rfl, rfl, _, rfl⟩,
    fun s => ⟨_, rfl, rfl, rfl, _, _, SameBut.eq (l := [.twin, .opt]) ?selector⟩,
    fun s coll => ⟨_, rfl, rfl, rfl, _, _,
      SameBut.eq (l := [.time, .twin]) (.ite (.ite (.of_eq rfl) (.refl _)) (.ite (.of_eq rfl) (.refl _)))⟩,
    fun s => ⟨_, rfl, rfl, rfl, _, _, SameBut.eq (l := [.time, .twin]) (.ite (.refl _) (.ite (.of_eq rfl) (.of_eq rfl)))⟩,
    fun s => ⟨_, rfl, rfl, rfl, _, _, _, _, _, _, SameBut.eq (l := [.time, .mem, .faults, .twin, .recr, .od]) ?swap⟩,
    fun s => ⟨_, rfl, rfl, rfl, _, rfl⟩,
    fun s => ⟨_, rfl, rfl, rfl, _, SameBut.eq (l := [.upd]) (.ite (.of_eq rfl) (.refl _))⟩,
    fun s => ⟨_, rfl, rfl, rfl, _, SameBut.eq (l := [.upd]) (.ite (.of_eq rfl) (.refl _))⟩,
    fun s => ⟨_, rfl, rfl, rfl, _, _, _, _, SameBut.eq (l := [.time, .upd, .od, .out]) ?soak⟩⟩
  case poll =>
    exact (SameBut.foldl (l := [.od]) (fun d k => .ite (setNum_sameBut _ _ _ _) (.refl d)) _ s.dev).andThen (.of_eq (l := [.mem]) rfl)
  case selector =>
    dsimp only [onDev_dev]
    split
    · exact (modTwin_sameBut s.dev _).andThen (.foldl (fun d n => openService_sameBut d n true) _ _)
    · exact .refl _
  case swap =>
    dsimp only [onDev_dev]
    split
    · exact ((reach_sameBut s.dev _).andThen (l := [.time, .mem, .faults, .recr, .od]) (info_sameBut _ _ _ _ _)).andThen (modTwin_sameBut _ _)
    · exact .refl _
  case soak =>
    refine .ite (.ite ?_ (reach_sameBut _ _).mono) (.refl _)
    exact ((reach_sameBut s.dev _).andThen (l := [.time, .upd, .od]) (healthConfirm_sameBut _)).andThen (emit_sameBut _ _)

end Sys2Proof.Machine
end

section
/-!
PROOFS. What the commands of time, boards, pods, lasers and ports leave unchanged.
-/

namespace Sys2Proof.Machine
open Sys2Proof
set_option Elab.async false

/-! ### Boards, pods and rings -/

theorem modPod_sameBut (d : Dev) (q : Nat) (f : Pod → Pod) : SameBut [.rings] d (d.modPod q f) := .of_eq rfl

theorem podError_sameBut (d : Dev) (q n : Nat) : SameBut [.od] d (d.podError q n) := .ite (.refl d) (bump_sameBut _ _ _ _)

theorem setRoute_sameBut (d : Dev) (p plane lanes : Nat) (ks : List Nat) : SameBut [.rings] d (d.setRoute p plane lanes ks) := .of_eq rfl

theorem laneBack_sameBut (d : Dev) (r : Round) : SameBut [.rings] d (d.laneBack r) := .foldl (fun _ _ => setRoute_sameBut _ _ _ _ _) _ d

theorem setBoard_sameBut (d : Dev) (b : Nat) (x : BState) : SameBut [.eng] d (d.setBoard b x) := .of_eq rfl

theorem ptpDelay_sameBut (d : Dev) (k : Nat) (x : Int) : SameBut [.time, .od] d (d.ptpDelay k x) := .of_eq rfl

/-! ### Ports and transmitters -/

theorem attach_sameBut (d : Dev) (p : Nat) : SameBut [.opt] d (d.attach p) := .ite (.refl d) (.of_eq rfl)

theorem emitProbe_sameBut (d : Dev) (p : Nat) (f : PFrame) : SameBut [.time, .disc, .mem, .faults, .recr, .od, .out] d (d.emitProbe p f) := by
  unfold Dev.emitProbe
  extract_lets body d1 d2 d3 d4
  have h3 : SameBut [.disc, .od, .out] d d3 := .of_eq rfl
  have h4 : SameBut [.disc, .mem, .faults, .recr, .od, .out] d d4 := .ite (h3.andThen (info_sameBut _ _ _ _ _)) h3.mono
  exact .ite (h4.andThen (.of_eq (l := [.time]) rfl)) h4.mono

theorem notLocked_sameBut (d : Dev) (p : Nat) : SameBut [.od] d (d.notLocked p) := .of_eq rfl

theorem drainPort_sameBut (d : Dev) (p n : Nat) : SameBut [.time, .disc, .mem, .faults, .recr, .od, .out] d (d.drainPort p n) := by
  induction n generalizing d with
  | zero => exact .refl d
  | succ n ih =>
    unfold Dev.drainPort
    dsimp only
    split
    · exact .ite (.refl d) (.ite ((emitProbe_sameBut d p _).trans (ih _)) (.ite (.refl d) (notLocked_sameBut d p).mono))
    · exact .refl d

theorem servePort_sameBut (d : Dev) (p : Nat) : SameBut [.time, .opt, .disc, .mem, .faults, .recr, .od, .out] d (d.servePort p) := by
  unfold Dev.servePort
  extract_lets d1
  have h1 : SameBut [.opt] d d1 := .ite (attach_sameBut d p) (.refl d)
  exact .ite (h1.andThen (drainPort_sameBut _ _ _)) h1.mono

theorem serveTx_sameBut (d : Dev) (x : Nat) : SameBut [.time, .opt, .disc, .mem, .faults, .recr, .od, .out] d (d.serveTx x) := by
  unfold Dev.serveTx
  split
  · exact servePort_sameBut d _
  · exact .refl d

theorem modTx_sameBut (d : Dev) (x : Nat) (f : Lane → Lane) : SameBut [.opt] d (d.modTx x f) := .of_eq rfl

theorem calTx_sameBut (d : Dev) (x : Nat) : SameBut [.time, .opt] d (d.calTx x) := by
  unfold Dev.calTx
  extract_lets t d1
  have h1 : SameBut [.time] d d1 := .ite (reach_sameBut d _) (.refl d)
  exact .ite h1.mono (h1.andThen (modTx_sameBut _ _ _))

theorem calLane_sameBut (d : Dev) (l k : Nat) : SameBut [.time, .opt, .twin, .od, .out] d (d.calLane l k) := by
  unfold Dev.calLane
  extract_lets c x busy d1
  have h1 : SameBut [.time] d d1 := .ite (reach_sameBut d _) (.refl d)
  exact .ite h1.mono ((h1.andThen (l := [.time, .opt]) (modLane_sameBut _ _ _ _)).andThen (laneGone_sameBut _ _))

theorem retryTraining_sameBut (d : Dev) (l : Nat) : SameBut [.time, .opt] d (d.retryTraining l) :=
  .ite (.refl d) ((reach_sameBut d _).andThen (newAttempt_sameBut _ l))

theorem enterAbsent_sameBut (d : Dev) (p : Nat) (cause : Option Nat) : SameBut [.disc] d (d.enterAbsent p cause) := .of_eq rfl

/-- A modulator of a link lane whose calibration ends. -/
theorem modCalDone_lane_sameBut (d : Dev) (l k : Nat) : SameBut [.opt, .od, .out] d
    (if (d.lane l k).state == .calibrating then
      (d.modLane l k (fun y => { y with state := .aligning, seen := 0, missed := 0, calAt := d.now })).serveLane l k
    else d) := .ite ((modLane_sameBut d l k _).andThen (serveLane_sameBut _ l k)) (.refl d)

theorem execModCalDone_of_lane (l : Fin 295) (k : Fin 8) (s : State) (hl : l.val < 39) : execModCalDone l k s = .next (s.onDev fun d =>
    if (d.lane (d.ctxOfLane l k) k).state == .calibrating then
      (d.modLane (d.ctxOfLane l k) k (fun y => { y with state := .aligning, seen := 0, missed := 0, calAt := d.now })).serveLane (d.ctxOfLane l k) k
    else d) := by
  simp only [execModCalDone, hl, if_true]

theorem execModCalDue_of_tx (l : Fin 295) (k : Fin 8) (s : State) (hl : 39 ≤ l.val) :
    execModCalDue l k s = .next (s.onDev fun d => d.calTx (l - 39)) := by
  simp only [execModCalDue, hl.not_gt, if_false]

/-! ### The commands -/

/-- Settles O47. -/
theorem frameFabric : Obligations.FrameFabric := by
  unfold Obligations.FrameFabric
  refine ⟨fun s => ⟨_, rfl, rfl, rfl, _, SameBut.eq (l := [.time]) ?notice⟩,
    fun s d t4 r => ⟨_, rfl, rfl, rfl, _, _, SameBut.eq (l := [.time, .od]) ?delayResp⟩,
    fun s d t2 t3 t4 corr => ⟨_, rfl, rfl, rfl, _, _, SameBut.eq (l := [.time, .od]) ?pdelayResp⟩,
    fun s d => ⟨_, rfl, rfl, rfl, _, _, SameBut.eq (l := [.time, .out]) ?delayReq⟩,
    fun s stamp => ⟨_, rfl, rfl, rfl, _, _, SameBut.eq (l := [.time, .od]) (.ite (.refl _) (.of_eq rfl))⟩,
    fun s => ⟨_, rfl, rfl, rfl, _, _, SameBut.eq (l := [.time, .od]) ?ppsGone⟩,
    fun s j => ⟨_, rfl, rfl, rfl, _, SameBut.eq (l := [.out]) (.ite (.of_eq rfl) (.refl _))⟩,
    fun s => ⟨_, rfl, rfl, rfl, _, _, _, _, _, _, SameBut.eq (l := [.time, .mem, .faults, .upd, .recr, .od]) ?position⟩,
    fun s b board seq cycle twin outs crcOk => ⟨_, rfl, rfl, rfl, _, SameBut.eq (l := [.eng]) (.ite (.of_eq rfl) (.of_eq rfl))⟩,
    fun s b board seq cycle twin crcOk => ⟨_, rfl, rfl, rfl, _, SameBut.eq (l := [.eng]) (.ite (.of_eq rfl) (.of_eq rfl))⟩,
    fun s b => ⟨_, rfl, rfl, rfl, _, _, SameBut.eq (l := [.eng, .od]) ?boardLost⟩,
    fun s q writes crcOk => ⟨_, rfl, rfl, rfl, _, _, SameBut.eq (l := [.rings, .od]) ?tuner⟩,
    fun s q id acts crcOk => ⟨_, rfl, rfl, rfl, _, _, SameBut.eq (l := [.rings, .od])
      (.ite (podError_sameBut _ _ _).mono (modPod_sameBut _ _ _).mono)⟩,
    fun s q codes crcOk => ⟨_, rfl, rfl, rfl, _, _, SameBut.eq (l := [.rings, .od])
      (.ite (podError_sameBut _ _ _).mono (modPod_sameBut _ _ _).mono)⟩,
    fun s q delay crcOk => ⟨_, rfl, rfl, rfl, _, _, SameBut.eq (l := [.rings, .od])
      (.ite (podError_sameBut _ _ _).mono (modPod_sameBut _ _ _).mono)⟩,
    fun s q loc lane first step points crcOk => ⟨_, rfl, rfl, rfl, _, _, SameBut.eq (l := [.rings, .od])
      (.ite (podError_sameBut _ _ _).mono (modPod_sameBut _ _ _).mono)⟩,
    fun s q position => ⟨_, rfl, rfl, rfl, _, SameBut.eq (l := [.out]) (.ite (emit_sameBut _ _) (.refl _))⟩,
    fun s p k => ⟨_, rfl, rfl, rfl, _, _, SameBut.eq (l := [.time, .rings]) ?laneIn⟩,
    fun s p => ⟨_, rfl, rfl, rfl, _, _, _, _, _, SameBut.eq (l := [.arr, .mem, .faults, .recr, .od]) ?crossing⟩,
    fun s => ⟨_, rfl, rfl, rfl, _, _, _, _, _, _, SameBut.eq (l := [.time, .rings, .opt, .power, .od, .out]) ?background⟩,
    fun s p => ⟨_, rfl, rfl, rfl, _, _, SameBut.eq (l := [.time, .arr]) ?watch⟩,
    fun s slot_ power temp => ⟨_, rfl, rfl, rfl, _, SameBut.eq (l := [.opt]) (.ite (.of_eq rfl) (.refl _))⟩,
    fun s slot_ vendor part serial freqOk powerOk mgmtOk => ⟨_, rfl, rfl, rfl, _, _, rfl⟩,
    fun s l k => ⟨_, rfl, rfl, rfl, _, _, _, _, _, SameBut.eq (l := [.time, .opt, .twin, .od, .out])
      (.ite (calLane_sameBut _ _ _) (calTx_sameBut _ _).mono)⟩,
    fun s l k hl => ⟨_, execModCalDue_of_tx l k s hl, rfl, rfl, _, _, (calTx_sameBut _ _).eq⟩,
    fun s l k hl => ⟨_, execModCalDone_of_lane l k s hl, rfl, rfl, _, _, _, (modCalDone_lane_sameBut s.dev _ k).eq⟩,
    fun s l k => ⟨_, rfl, rfl, rfl, _, _, _, _, _, _, _, _, SameBut.eq (l := [.time, .opt, .disc, .mem, .faults, .recr, .od, .out])
      (.ite (modCalDone_lane_sameBut s.dev _ k).mono (.ite ((modTx_sameBut _ _ _).andThen (serveTx_sameBut _ _)) (.refl _)))⟩,
    fun s l => ⟨_, rfl, rfl, rfl, _, _, SameBut.eq (l := [.time, .opt]) (.ite (retryTraining_sameBut _ _) (retryTraining_sameBut _ _))⟩,
    fun s p => ⟨_, rfl, rfl, rfl, _, _, SameBut.eq (l := [.time, .disc]) ?attempt⟩,
    fun s p => ⟨_, rfl, rfl, rfl, _, _, _, _, _, _, SameBut.eq (l := [.disc, .mem, .faults, .upd, .recr, .od]) ?crcError⟩⟩
  case notice =>
    dsimp only [onDev_dev]
    split
    · exact .refl _
    · split
      · exact .ite (.of_eq rfl) (.of_eq rfl)
      · exact .of_eq rfl
  case delayResp =>
    refine .ite (.refl _) ?_
    split
    · dsimp only
      split
      · exact .of_eq rfl
      · exact ptpDelay_sameBut _ _ _
    · exact .refl _
  case pdelayResp =>
    dsimp only [onDev_dev]
    split
    · exact .of_eq rfl
    · exact .refl _
  case delayReq =>
    refine .ite (.refl _) ?_
    split <;> exact .of_eq rfl
  case ppsGone =>
    dsimp only [onDev_dev]
    split
    · exact .of_eq rfl
    · exact .refl _
  case position =>
    dsimp only [onDev_dev]
    split
    · exact .ite (.refl _) ((reach_sameBut _ _).andThen (raise_sameBut _ _ _ _ _ _ _))
    · exact .refl _
  case boardLost =>
    dsimp only [onDev_dev]
    split <;> exact .of_eq rfl
  case tuner =>
    refine .ite (podError_sameBut _ _ _).mono (.foldl (fun d w => ?_) _ _)
    exact .ite (.ite (modPod_sameBut _ _ _).mono (.refl d)) (modPod_sameBut _ _ _).mono
  case laneIn =>
    dsimp only [onDev_dev]
    split
    · exact .ite (((reach_sameBut s.dev _).andThen (l := [.time, .rings]) (laneBack_sameBut _ _)).trans (.of_eq rfl)) (.refl _)
    · exact .refl _
  case crossing =>
    refine .ite (.refl _) ?_
    exact ((info_sameBut s.dev _ _ _ _).andThen (l := [.mem, .faults, .recr, .od]) (.of_eq (l := [.od]) rfl)).andThen (.of_eq (l := [.arr]) rfl)
  case background =>
    refine .ite (.refl _) ?_
    have h : SameBut [.time] s.dev (if s.dev.rings.lastRound = 0 then s.dev else s.dev.reach (s.dev.rings.lastRound + Config.sec)) :=
      .ite (.refl _) (reach_sameBut _ _)
    dsimp only
    split
    · exact h.mono
    · exact (h.andThen (l := [.time, .rings]) (.of_eq (l := [.rings]) rfl)).andThen (request_sameBut _ _ _ _ _ _)
  case watch =>
    dsimp only [onDev_dev]
    split
    · exact .of_eq rfl
    · exact .refl _
  case attempt =>
    refine .ite (.refl _) (.ite (.ite (.of_eq rfl) ?_) (.ite (.of_eq rfl) (.refl _)))
    exact (reach_sameBut s.dev _).andThen (enterAbsent_sameBut _ _ _)
  case crcError =>
    refine .ite (.refl _) (.ite ?_ (.of_eq rfl))
    exact (SameBut.of_eq (l := [.disc, .od]) rfl).andThen (raise_sameBut _ _ _ _ _ _ _)

end Sys2Proof.Machine
end

section
/-!
PROOFS. The requests of a client, each a write of one subindex that is taken at once: what the write does to its object, and from that
where the request ends. Here the requests on jobs, slots and recoveries.
-/

namespace Sys2Proof.Machine
open Sys2Proof
set_option Elab.async false

/-! ### Writes that leave the mailbox as it was -/

/-- A device holds the same requests and owes the same answer as another. -/
def Dev.OwesAs (d e : Dev) : Prop := d.net.mailbox = e.net.mailbox ∧ d.net.waiting = e.net.waiting

theorem Dev.OwesAs.of_net {d e : Dev} (h : d.net = e.net) : d.OwesAs e := ⟨by rw [h], by rw [h]⟩

theorem Dev.OwesAs.free_of_taken {d : Dev} {s : State} {c : Client} {i k : Nat} (h : d.OwesAs (s.taken c i k)) (hr : s.Ready) :
    d.net.mailbox = [] ∧ d.net.waiting = none :=
  ⟨h.1.trans (asked_net s c hr).1, h.2.trans (asked_net s c hr).2⟩

section
variable {s : State} {c : Client} {index sub : Nat} {v : Bytes} {d : Dev} {h : Hbm}

/-- A taken write whose effect is complete is answered. -/
theorem sdoWrite_answers (ht : s.Takes c index sub v) (h20 : ¬(index = 0x2020 ∧ sub = 3)) (hp : ¬(0x2080 ≤ index ∧ index < 0x2090 ∧ sub = 4))
    (hx : applySub (s.taken c index sub, s.hbm) c index sub v = ((d, h), .ok)) (hn : d.OwesAs (s.taken c index sub)) :
    (s.sdoWrite c index sub v).Answered d h c index sub :=
  have ⟨hm, hw⟩ := hn.free_of_taken ht.1
  sdoWrite_ok s c index sub v ht (fun a b => h20 ⟨a, b⟩) d h (fun a b e => absurd ⟨a, b, e⟩ hp) hx hm hw

/-- A taken write whose value is stored takes effect, and is answered at once or once it is stored. -/
theorem sdoWrite_keeps {e : Dev} (ht : s.Takes c index sub v) (h20 : ¬(index = 0x2020 ∧ sub = 3))
    (hp : 0x2080 ≤ index → index < 0x2090 → sub = 4 → ((s.asked c).almanac (index - 0x2080)).isEmpty = true)
    (hx : applySub (s.taken c index sub, s.hbm) c index sub v = ((d, h), (e.persist c index sub).2)) (hn : d.OwesAs (s.taken c index sub)) :
    (s.sdoWrite c index sub v).Took d h :=
  have ⟨hm, hw⟩ := hn.free_of_taken ht.1
  sdoWrite_took s c index sub v ht (fun a b => h20 ⟨a, b⟩) d h hp _ hx (persist_ans e c index sub) hm hw

end

/-! ### What a write of a job's, a slot's or a recovery's object does -/

theorem applySub_jobCommand (m : Mach) (c : Client) (j : Fin 16) (v : Bytes) : applySub m c (0x2080 + j.val) 2 v =
    if unle v = 1 then (startJob m j, .ok) else if unle v = 2 then ((m.1.orderStop j 1, m.2), .ok) else ((m.1.clearJob j, m.2), .ok) := by
  simp (disch := omega) only [applySub, applyA, Bool.and_eq_true, decide_eq_true_eq, if_pos, if_neg, Nat.add_sub_cancel_left]

theorem applySub_slot (m : Mach) (c : Client) (slot : Fin 1024) (v : Bytes) :
    applySub m c (0x4400 + slot.val) 1 v = keep (m.1.setSlot slot v) m.2 c (0x4400 + slot.val) 1 := by
  simp (disch := omega) only [applySub, applyF, Bool.and_eq_true, decide_eq_true_eq, if_pos, if_neg, Nat.add_sub_cancel_left]

theorem applySub_shardMap (m : Mach) (c : Client) (j : Fin 16) (v : Bytes) :
    applySub m c (0x4800 + j.val) 3 v = storeSub (m.1.library, m.2) c (0x4800 + j.val) 3 v := by
  simp (disch := omega) only [applySub, applyF, Bool.and_eq_true, decide_eq_true_eq, if_pos, if_neg]

theorem applySub_detourRelease (m : Mach) (c : Client) (j : Fin 16) (v : Bytes) :
    applySub m c (0x2320 + j.val) 2 v = ((m.1.askRelease j (unle v), m.2), .ok) := by
  simp (disch := omega) only [applySub, applyC, Bool.and_eq_true, decide_eq_true_eq, if_pos, if_neg, Nat.add_sub_cancel_left]

/-- An order of a variant other than 0 awaits no validation, and its report stands as it was. -/
theorem applySub_restartOrder (m : Mach) (c : Client) (j : Fin 16) (v : Bytes) (hv : fld v 0 1 ≠ 0) :
    applySub m c (0x2320 + j.val) 3 v = ((m.1.takeOrder j v, m.2), .ok) := by
  simp (disch := omega) only [applySub, applyC, Bool.and_eq_true, decide_eq_true_eq, if_pos, if_neg, Nat.add_sub_cancel_left]

/-- Settles O10: each request is a write that is taken, and its object's effect leaves the mailbox as it was. -/
theorem jobRequests : Obligations.JobRequests := by
  unfold Obligations.JobRequests
  refine ⟨fun s c j ht => ⟨_, rfl, ?stop⟩, fun s c j ht => ⟨_, rfl, ?clear⟩, fun s c slot v ht => ⟨_, rfl, ?slot⟩,
    fun s c j v ht => ⟨_, rfl, ?shard⟩, fun s c v ht => ⟨_, rfl, ?ack⟩, fun s c j v ht => ⟨_, rfl, ?release⟩,
    fun s c j v ht hv => ⟨_, rfl, ?order⟩⟩
  case stop => exact sdoWrite_answers ht (by omega) (by omega) (applySub_jobCommand _ c j [2]) (.of_net (by simp))
  case clear => exact sdoWrite_answers ht (by omega) (by omega) (applySub_jobCommand _ c j [3]) (.of_net (by simp))
  case slot => exact sdoWrite_keeps ht (by omega) (by omega) (applySub_slot _ c slot v) (.of_net (by simp))
  case shard => exact sdoWrite_keeps ht (by omega) (by omega) (applySub_shardMap _ c j v) (.of_net (by simp))
  case ack => exact sdoWrite_answers ht (by omega) (by omega) rfl (.of_net (by simp))
  case release => exact sdoWrite_answers ht (by omega) (by omega) (applySub_detourRelease _ c j v) (.of_net (by simp))
  case order => exact sdoWrite_answers ht (by omega) (by omega) (applySub_restartOrder _ c j v hv) (.of_net (by simp))

end Sys2Proof.Machine
end

section
/-!
PROOFS. The requests on time, heads, boards, pods and lasers.
-/

namespace Sys2Proof.Machine
open Sys2Proof
set_option Elab.async false

theorem applySub_requalify (m : Mach) (c : Client) (d : Fin 2) (v : Bytes) :
    applySub m c (0x2210 + d.val) 13 v = ((m.1.modPtp d Ptp.requalified, m.2), .ok) := by
  simp (disch := omega) only [applySub, applyB, Bool.and_eq_true, Bool.or_eq_true, decide_eq_true_eq, if_pos, if_neg, if_true, Nat.add_sub_cancel_left]

/-- OPEN_REQUEST names the axes to open; 0 would close them. -/
theorem applySub_openRequest (m : Mach) (c : Client) (h : Fin 2048) (v : Bytes) (hv : unle v ≠ 0) :
    applySub m c (0x3000 + h.val) 27 v = ((m.1.openByCommand (axesNamed h (unle v)), m.2), .ok) := by
  simp (disch := omega) only [applySub, applyF, Bool.and_eq_true, decide_eq_true_eq, if_pos, if_neg, if_true, Nat.add_sub_cancel_left]

theorem applySub_autotune (m : Mach) (c : Client) (h : Fin 2048) (v : Bytes) :
    applySub m c (0x3000 + h.val) 28 v = (((axesNamed h (unle v)).foldl Dev.startTune m.1, m.2), .ok) := by
  simp (disch := omega) only [applySub, applyF, Bool.and_eq_true, decide_eq_true_eq, if_pos, if_neg, if_true, Nat.add_sub_cancel_left]

theorem applySub_boardCommand (m : Mach) (c : Client) (b : Fin 16) (v : Bytes) : applySub m c (0x3D00 + b.val) 2 v =
    ((if unle v = 1 then m.1.drainBoard b
      else if (m.1.board b).state == .drained then (m.1.setBoard b .adopting).modBoard b (fun y => { y with holdFrames := 0 })
      else m.1, m.2), .ok) := by
  simp (disch := omega) only [applySub, applyF, Bool.and_eq_true, decide_eq_true_eq, if_pos, if_neg, Nat.add_sub_cancel_left]

/-- A crosstalk matrix is stored, and its report clears. -/
theorem applySub_crosstalk (m : Mach) (c : Client) (q : Fin 64) (v : Bytes) : applySub m c (0x3C00 + q.val) 1 v =
    (((((m.1.store (0x3C00 + q.val) 1 v).persist c (0x3C00 + q.val) 1).1.setOct (0x3C00 + q.val) 2 (zeros 8), m.2),
      ((m.1.store (0x3C00 + q.val) 1 v).persist c (0x3C00 + q.val) 1).2) : Mach × Ans) := by
  simp (disch := omega) only [applySub, applyF, Bool.and_eq_true, decide_eq_true_eq, if_pos, if_neg, if_true, storeSub]

/-- A calibration request is stored, and the bank notes what a Maintainer asked for. -/
theorem applySub_calRequest (m : Mach) (c : Client) (p : Fin 1024) (v : Bytes) : applySub m c (0x3800 + p.val) 15 v =
    (let d := ((m.1.store (0x3800 + p.val) 15 v).persist c (0x3800 + p.val) 15).1
     (if d.isMaintainer c then d.modBank p (fun b => { b with calByMa := unle v })
      else d.modBank p (fun b => { b with calByMa := b.calByMa &&& unle v }), m.2),
     ((m.1.store (0x3800 + p.val) 15 v).persist c (0x3800 + p.val) 15).2) := by
  simp (disch := omega) only [applySub, applyF, Bool.and_eq_true, decide_eq_true_eq, if_pos, if_neg, if_true, storeSub, Nat.add_sub_cancel_left]

theorem applySub_slotCommand (m : Mach) (c : Client) (l : Fin 4) (v : Bytes) :
    applySub m c (0x2A01 + l.val) 2 v = ((if unle v = 1 then m.1.slotEnable l else m.1.slotDisable l, m.2), .ok) := by
  simp (disch := omega) only [applySub, applyE, Bool.and_eq_true, decide_eq_true_eq, if_pos, if_neg, Nat.add_sub_cancel_left]

theorem applySub_portProbe (m : Mach) (c : Client) (p : Fin 1024) (v : Bytes) : applySub m c (0x4000 + p.val) 22 v =
    (((((m.1.store (0x4000 + p.val) 22 v).persist c (0x4000 + p.val) 22).1.refreshProbing p, m.2),
      ((m.1.store (0x4000 + p.val) 22 v).persist c (0x4000 + p.val) 22).2) : Mach × Ans) := by
  simp (disch := omega) only [applySub, applyF, Bool.and_eq_true, decide_eq_true_eq, if_pos, if_neg, storeSub, Nat.add_sub_cancel_left]

/-- Settles O11: each request is a write that is taken, and its object's effect leaves the mailbox as it was. -/
theorem fabricRequests : Obligations.FabricRequests := by
  unfold Obligations.FabricRequests
  refine ⟨fun s c d v ht => ⟨_, rfl, ?requalify⟩, fun s c v ht => ⟨_, rfl, ?epoch⟩, fun s c v ht => ⟨_, rfl, ?period⟩,
    fun s c h v ht hv => ⟨_, rfl, ?opening⟩, fun s c h v ht => ⟨_, rfl, ?tune⟩, fun s c b ht => ⟨_, rfl, ?drain⟩,
    fun s c b ht hd => ⟨_, rfl, ?back⟩, fun s c q v ht => ⟨_, rfl, ?crosstalk⟩, fun s c p v ht => ⟨_, rfl, ?cal⟩,
    fun s c l ht => ⟨_, rfl, ?enable⟩, fun s c l ht => ⟨_, rfl, ?disable⟩, fun s c p v ht => ⟨_, rfl, ?probe⟩⟩
  case requalify => exact sdoWrite_answers ht (by omega) (by omega) (applySub_requalify _ c d v) (.of_net (by simp))
  case epoch => exact sdoWrite_keeps ht (by omega) (by omega) rfl (.of_net (by simp))
  case period => exact sdoWrite_keeps ht (by omega) (by omega) rfl (.of_net (by simp))
  case opening => exact sdoWrite_answers ht (by omega) (by omega) (applySub_openRequest _ c h v hv) (.of_net (by simp))
  case tune => exact sdoWrite_answers ht (by omega) (by omega) (applySub_autotune _ c h v) (.of_net (by simp))
  case drain => exact sdoWrite_answers ht (by omega) (by omega) (applySub_boardCommand _ c b [1]) (.of_net (by simp))
  case back =>
    refine sdoWrite_answers ht (by omega) (by omega) ((applySub_boardCommand _ c b [2]).trans ?_) (.of_net (by simp))
    simp [hd]
  case crosstalk => exact sdoWrite_keeps ht (by omega) (by omega) (applySub_crosstalk _ c q v) (.of_net (by simp))
  case cal =>
    refine sdoWrite_keeps ht (by omega) (by omega) (applySub_calRequest _ c p v) (.of_net ?_)
    dsimp only
    split <;> simp
  case enable => exact sdoWrite_answers ht (by omega) (by omega) (applySub_slotCommand _ c l [1]) (.of_net (by simp))
  case disable => exact sdoWrite_answers ht (by omega) (by omega) (applySub_slotCommand _ c l [2]) (.of_net (by simp))
  case probe => exact sdoWrite_keeps ht (by omega) (by omega) (applySub_portProbe _ c p v) (.of_net (by simp))

end Sys2Proof.Machine
end

section
/-!
PROOFS. The requests on plans, models and the retirement of pages.
-/

namespace Sys2Proof.Machine
open Sys2Proof
set_option Elab.async false

theorem applySub_plan (m : Mach) (c : Client) (j : Fin 16) (v : Bytes) :
    applySub m c (0x2910 + j.val) 1 v = keep (m.1.setPlan j v) m.2 c (0x2910 + j.val) 1 := by
  simp (disch := omega) only [applySub, applyD, Bool.and_eq_true, decide_eq_true_eq, if_pos, if_neg, Nat.add_sub_cancel_left]

theorem applySub_collCommand (m : Mach) (c : Client) (j : Fin 16) (b : Byte) :
    applySub m c (0x2910 + j.val) 4 [b] = (collCommand m j b.toNat, .ok) := by
  simp (disch := omega) only [applySub, applyD, Bool.and_eq_true, decide_eq_true_eq, if_pos, if_neg, Nat.add_sub_cancel_left, unle_singleton]

theorem collCommand_commit (m : Mach) (j : Nat) :
    collCommand m j 2 = (m.1.modEngJob j (fun y => { y with state := .ready, count := 0 }), m.2) := rfl

/-- The models whose records change lose their blocks, and the table is stored. -/
theorem applySub_modelTable (m : Mach) (c : Client) (v : Bytes) : applySub m c 0x2940 1 v =
    keep ((dropSlots m (m.1.modelsChanged v)).1.setTable v) (dropSlots m (m.1.modelsChanged v)).2 c 0x2940 1 := rfl

/-- MODEL_COMMAND: its low byte names the slot, and CLEAR, its high byte 3, takes the slot's blocks first. -/
theorem applySub_modelCommand (m : Mach) (c : Client) (v : Bytes) : applySub m c 0x2940 3 v =
    (let r := if bits (unle v) 15 8 = 3 then dropSlots m [bits (unle v) 7 0] else m
     (r.1.modelCommand (unle v), r.2), .ok) := rfl

/-- The word that gives a slot and a command spells both. -/
theorem bits_modelWord (slot : Fin 256) (k : Nat) (hk : k < 256) :
    bits (unle (le 2 (slot.val + k * 256))) 7 0 = slot.val ∧ bits (unle (le 2 (slot.val + k * 256))) 15 8 = k := by
  simp only [unle_le, bits, Nat.shiftRight_eq_div_pow]
  omega

/-- FILL and FETCH leave the memory alone. -/
theorem applySub_modelCommand_of_ne_clear (m : Mach) (c : Client) (slot : Fin 256) (k : Nat) (hk : k < 256) (h3 : k ≠ 3) :
    applySub m c 0x2940 3 (le 2 (slot.val + k * 256)) = ((m.1.modelCommand (unle (le 2 (slot.val + k * 256))), m.2), .ok) := by
  rw [applySub_modelCommand, (bits_modelWord slot k hk).2]
  dsimp only
  rw [if_neg h3]

theorem modelCommand_fill (d : Dev) (slot : Fin 256) : d.modelCommand (unle (le 2 (slot.val + 1 * 256))) =
    (d.burst (32 + slot)).modModel slot (fun y => { y with state := .filling, written := [], asked := [], next := 0 }) := by
  obtain ⟨hs, hk⟩ := bits_modelWord slot 1 (by omega)
  simp only [Dev.modelCommand, hs, hk]

theorem modelCommand_fetch (d : Dev) (slot : Fin 256) : d.modelCommand (unle (le 2 (slot.val + 2 * 256))) =
    ((d.burst (32 + slot)).modModel slot (fun y => { y with state := .fetching, written := [], asked := [], next := 0 })).fetchMore slot 64 := by
  obtain ⟨hs, hk⟩ := bits_modelWord slot 2 (by omega)
  simp only [Dev.modelCommand, hs, hk]

theorem modelCommand_clear (d : Dev) (slot : Fin 256) : d.modelCommand (unle (le 2 (slot.val + 3 * 256))) =
    (d.release 3 (32 + slot)).modModel slot (fun y => { y with state := .empty, written := [], asked := [], next := 0 }) := by
  obtain ⟨hs, hk⟩ := bits_modelWord slot 3 (by omega)
  simp only [Dev.modelCommand, hs, hk]

/-- CLEAR takes the blocks of the slot, and the slot is EMPTY. -/
theorem applySub_modelClear (m : Mach) (c : Client) (slot : Fin 256) : applySub m c 0x2940 3 (le 2 (slot.val + 768)) =
    ((((dropSlots m [slot.val]).1.release 3 (32 + slot)).modModel slot (fun y => { y with state := .empty, written := [], asked := [], next := 0 }),
      (dropSlots m [slot.val]).2), .ok) := by
  obtain ⟨hs, hk⟩ := bits_modelWord slot 3 (by omega)
  rw [show slot.val + 768 = slot.val + 3 * 256 from rfl, applySub_modelCommand, hs, hk]
  dsimp only
  rw [if_pos rfl, modelCommand_clear]

/-- Settles O12: each request is a write that is taken; LOAD, RESET and CLEAR take blocks away on top of it. -/
theorem collectiveRequests : Obligations.CollectiveRequests := by
  unfold Obligations.CollectiveRequests
  refine ⟨fun s c j v ht => ⟨_, rfl, ?plan⟩, fun s c j ht => ⟨_, rfl, ?load⟩, fun s c j ht => ⟨_, rfl, ?commit⟩,
    fun s c j ht => ⟨_, rfl, ?reset⟩, fun s c v ht => ⟨_, rfl, _, rfl, ?table⟩, fun s c slot ht => ⟨_, rfl, ?fill⟩,
    fun s c slot ht => ⟨_, rfl, ?fetch⟩, fun s c slot ht => ⟨_, rfl, ?clear⟩, fun s c v ht => ⟨_, rfl, ?retire⟩⟩
  case plan => exact sdoWrite_keeps ht (by omega) (by omega) (applySub_plan _ c j v) (.of_net (by simp))
  case load => exact sdoWrite_answers ht (by omega) (by omega) (by simp [applySub_collCommand]) (.of_net (by simp))
  case commit => exact sdoWrite_answers ht (by omega) (by omega) (by simp [applySub_collCommand, collCommand_commit]) (.of_net (by simp))
  case reset => exact sdoWrite_answers ht (by omega) (by omega) (by simp [applySub_collCommand]) (.of_net (by simp))
  case table => exact sdoWrite_keeps ht (by omega) (by omega) (applySub_modelTable _ c v) (.of_net (by simp))
  case fill =>
    refine sdoWrite_answers ht (by omega) (by omega) ?_ (.of_net (by simp))
    rw [← modelCommand_fill]
    exact applySub_modelCommand_of_ne_clear _ c slot 1 (by omega) (by omega)
  case fetch =>
    refine sdoWrite_answers ht (by omega) (by omega) ?_ (.of_net (by simp))
    rw [← modelCommand_fetch]
    exact applySub_modelCommand_of_ne_clear _ c slot 2 (by omega) (by omega)
  case clear => exact sdoWrite_answers ht (by omega) (by omega) (applySub_modelClear _ c slot) (.of_net (by simp))
  case retire => exact sdoWrite_wait s c 0x2840 1 v ht (by omega) _ _ (by omega) _ rfl

end Sys2Proof.Machine
end

section
/-!
PROOFS. The requests on the twin, the heaters' supply and the update.
-/

namespace Sys2Proof.Machine
open Sys2Proof
set_option Elab.async false

theorem applySub_collRestore (m : Mach) (c : Client) (j : Fin 16) (v : Bytes) :
    applySub m c (0x2530 + j.val) 6 v = (beginRestore m j (unle v), .ok) := by
  simp (disch := omega) only [applySub, applyC, Bool.and_eq_true, decide_eq_true_eq, if_pos, if_neg, Nat.add_sub_cancel_left]

theorem applySub_collHandover (m : Mach) (c : Client) : applySub m c 0x2510 3 [2] = (handColl m, .ok) := rfl

/-- The heaters' supply is stored, and the arbiter looks again. -/
theorem applySub_heaterSupply (m : Mach) (c : Client) (v : Bytes) : applySub m c 0x2120 7 v =
    (((((m.1.store 0x2120 7 v).persist c 0x2120 7).1.arbiter, m.2), ((m.1.store 0x2120 7 v).persist c 0x2120 7).2) : Mach × Ans) := by
  simp [applySub, applyB, storeSub]

/-- The cap of a pod's heaters is stored, with nothing else to do. -/
theorem applySub_heaterCap (m : Mach) (c : Client) (q : Fin 64) (v : Bytes) :
    applySub m c (0x3C00 + q.val) 5 v = storeSub m c (0x3C00 + q.val) 5 v := by
  simp (disch := omega) only [applySub, applyF, Bool.and_eq_true, decide_eq_true_eq, if_pos, if_neg]

/-- Settles O13: each request is a write that is taken; COLL_HANDOVER is the one whose effect may touch the mailbox. -/
theorem moduleRequests : Obligations.ModuleRequests := by
  unfold Obligations.ModuleRequests
  refine ⟨fun s c ht => ⟨_, rfl, ?drive⟩, fun s c ht hm hw => ⟨_, rfl, ?coll⟩, fun s c ht => ⟨_, rfl, ?abort⟩,
    fun s c j v ht => ⟨_, rfl, ?restore⟩, fun s c q v ht => ⟨_, rfl, ?cap⟩, fun s c v ht => ⟨_, rfl, ?supply⟩,
    fun s c ht => ⟨_, rfl, ?activate⟩, fun s c ht => ⟨_, rfl, ?clear⟩, fun s c ht => ⟨_, rfl, ?reject⟩⟩
  case drive => exact sdoWrite_answers ht (by omega) (by omega) rfl (.of_net (by simp))
  case coll => exact sdoWrite_took s c 0x2510 3 [2] ht (by omega) _ _ (by omega) .ok (by rw [applySub_collHandover]) (.inl rfl) hm hw
  case abort => exact sdoWrite_answers ht (by omega) (by omega) rfl (.of_net (by simp))
  case restore => exact sdoWrite_answers ht (by omega) (by omega) (by simp [applySub_collRestore]) (.of_net (by simp))
  case cap => exact sdoWrite_keeps ht (by omega) (by omega) (applySub_heaterCap _ c q v) (.of_net (by simp))
  case supply => exact sdoWrite_keeps ht (by omega) (by omega) (applySub_heaterSupply _ c v) (.of_net (by simp))
  case activate => exact sdoWrite_answers ht (by omega) (by omega) rfl (.of_net (by simp))
  case clear => exact sdoWrite_answers ht (by omega) (by omega) rfl (.of_net (by simp))
  case reject => exact sdoWrite_answers ht (by omega) (by omega) rfl (.of_net (by simp))

end Sys2Proof.Machine
end

section
/-!
PROOFS. The recorder, replay, session ends and role keys.
-/

namespace Sys2Proof.Machine
open Sys2Proof
set_option Elab.async false

/-- RECORDER_ENABLE is stored, and the ring starts or ends. -/
theorem applySub_recorderEnable (m : Mach) (c : Client) (v : Bytes) : applySub m c 0x2700 2 v =
    (((((m.1.store 0x2700 2 v).persist c 0x2700 2).1.enableRecorder (unle v != 0), m.2), ((m.1.store 0x2700 2 v).persist c 0x2700 2).2) : Mach × Ans) := by
  simp [applySub, applyC, storeSub]

/-- REPLAY_RUN, whatever the run finds. -/
theorem applySub_replayRun (m : Mach) (c : Client) : applySub m c 0x2710 2 [2] = ((m.1.replayRun.1, m.2), .ok) := rfl

theorem applySub_roleKey (m : Mach) (c : Client) (role : Fin 4) (v : Bytes) :
    applySub m c 0x2022 (role.val + 1) v = ((m.1.setRoleKey (role.val + 1) c v, m.2), .ok) := rfl

/-- A capture is read by an Operator or a Maintainer where one is frozen and EtherCAT is not in Bootstrap (R425). -/
theorem handleCapture_data (m : Mach) (c : Client) (hr : m.1.roleBit c = 2 ∨ m.1.roleBit c = 4) (hb : m.1.net.ecat ≠ .boot)
    (hf : m.1.recr.state = .frozen) : handleCapture m c = (m, .data m.1.captureFile) := by
  rcases hr with hr | hr <;> simp [handleCapture, hr, hb, hf]

/-- A capture that a Maintainer writes in REPLAY is loaded (R426). -/
theorem handleCaptureWrite_loads (m : Mach) (c : Client) (b : Bytes) (hr : m.1.isMaintainer c = true) (hb : m.1.net.ecat ≠ .boot)
    (hs : m.1.inState [.replay] = true) (hf : m.1.recr.state ≠ .frozen) (hl : b.length ≤ m.1.nat 0x2701 2) :
    handleCaptureWrite m c b = ((m.1.loadCapture b [], m.2), .abort 0) := by
  simp [handleCaptureWrite, hr, hb, hs, hf, Nat.not_lt.mpr hl]

/-- A mailbox that is ready is not in Bootstrap. -/
theorem State.Ready.ecat_ne_boot {s : State} (h : s.Ready) : s.dev.net.ecat ≠ .boot := by
  rcases h.1 with e | e | e <;> simp [e]

/-- A frame of the capture that follows on what was received, neither its last nor poisoned, is kept (R426). -/
theorem replayData_next (d : Dev) (offset total : Nat) (data : Bytes) (ht : total ≤ d.nat 0x2701 2) (ho : offset = d.recr.stream.length) :
    (d.replayData offset total 0 data).recr = { d.recr with stream := d.recr.stream ++ data } := by
  simp [Dev.replayData, Nat.not_lt.mpr ht, ho]

/-- Settles O14: the writes by what they do to their objects, the files by their handlers, and the frames of a replay by the rule of a
frame that follows. -/
theorem recorderCommands : Obligations.RecorderCommands := by
  unfold Obligations.RecorderCommands
  refine ⟨fun s c v ht => ⟨_, rfl, ?enable⟩, fun s c ht => ⟨_, rfl, ?trigger⟩, fun s c ht => ⟨_, rfl, ?freeze⟩,
    fun s c ht => ⟨_, rfl, ?release⟩, fun s c ht => ⟨_, rfl, ?fetch⟩, fun s c ht hr => ⟨_, rfl, ?run⟩, fun s c ht => ⟨_, rfl, ?abort⟩,
    fun s c ht => ⟨_, rfl, ?clear⟩, fun s c v ht => ⟨_, rfl, ?sessionEnd⟩, fun s c role v ht => ⟨_, rfl, ?key⟩,
    fun s x hx => ⟨_, rfl, rfl, ?post⟩, fun s c hr hro hf => ⟨_, rfl, ?capture⟩,
    fun s c b hr hm hs hf hl => ⟨_, rfl, ?write⟩, fun s offset total flags data hj hs hp ht ho hf => ⟨_, rfl, rfl, ?data⟩⟩
  case enable => exact sdoWrite_keeps ht (by omega) (by omega) (applySub_recorderEnable _ c v) (.of_net (by simp))
  case trigger => exact sdoWrite_answers ht (by omega) (by omega) rfl (.of_net (by simp))
  case freeze => exact sdoWrite_answers ht (by omega) (by omega) rfl (.of_net (by simp))
  case release => exact sdoWrite_answers ht (by omega) (by omega) rfl (.of_net (by simp))
  case fetch => exact sdoWrite_answers ht (by omega) (by omega) rfl (.of_net (by simp))
  case run => exact sdoWrite_answers ht (by omega) (by omega) (applySub_replayRun _ c) (.of_net (by simp))
  case abort => exact sdoWrite_answers ht (by omega) (by omega) rfl (.of_net (by simp))
  case clear => exact sdoWrite_answers ht (by omega) (by omega) rfl (.of_net (by simp))
  case sessionEnd => exact sdoWrite_answers ht (by omega) (by omega) rfl ⟨by simp, by simp⟩
  case key => exact sdoWrite_answers ht (by omega) (by omega) (applySub_roleKey _ c role v) ⟨by simp, by simp⟩
  case post => simp [State.onDev, hx]
  case capture =>
    obtain ⟨hm, hw⟩ := asked_net s c hr
    obtain ⟨hh, n, out, hd, _, _, _, _, ho⟩ := request_answer s (.capture c) hr (ready_takes s _ hr) (s.asked c) s.hbm
      (.data (s.asked c).captureFile) _ (handleCapture_data (s.asked c, s.hbm) c hro hr.ecat_ne_boot hf) ⟨by simp, by simp⟩ rfl hm hw
    exact ⟨hh, n, out, hd, ho⟩
  case write =>
    obtain ⟨hn, hw⟩ := asked_net s c hr
    obtain ⟨hh, n, out, hd, _, _, _, _, ho⟩ := request_answer s (.captureWrite c b) hr (ready_takes s _ hr) ((s.asked c).loadCapture b [])
      s.hbm (.abort 0) _ (handleCaptureWrite_loads (s.asked c, s.hbm) c b hm hr.ecat_ne_boot hs hf hl) ⟨by simp, by simp⟩ rfl hn hw
    exact ⟨hh, n, out, hd, ho⟩
  case data =>
    subst hf
    refine Eq.trans (congrArg Dev.recr (if_pos ?_)) (replayData_next s.dev offset total data ht ho)
    simp [hj, hs, hp]

end Sys2Proof.Machine
end

section
/-!
PROOFS. The requests that wait, that open sessions, that read the logs, and the write of any object.
-/

namespace Sys2Proof.Machine
open Sys2Proof
set_option Elab.async false

/-! ### Domains -/

/-- The word that gives a domain and a command spells both, whatever its reserved bits. -/
theorem bits_domainWord (d r : Fin 16) (k : Nat) (hk : k < 256) :
    bits (unle (le 2 (d.val + 16 * r.val + k * 256))) 3 0 = d.val ∧ bits (unle (le 2 (d.val + 16 * r.val + k * 256))) 15 8 = k := by
  simp only [unle_le, bits, Nat.shiftRight_eq_div_pow]
  omega

/-- A domain that is asked on and ramps has its answer wait. -/
theorem applySub_domainOn (m : Mach) (c : Client) (v : Bytes) (d : Nat) (hd : bits (unle v) 3 0 = d) (hk : bits (unle v) 15 8 = 1)
    (hr : (m.1.beginOn d).nat 0x2100 0x12 = 1) : applySub m c 0x2100 0x11 v = ((m.1.beginOn d, m.2), .wait (.domain c d)) := by
  simp [applySub, applyB, hd, hk, hr]

/-- A domain that is asked off and quiesces has its answer wait. -/
theorem applySub_domainOff (m : Mach) (c : Client) (v : Bytes) (d : Nat) (hd : bits (unle v) 3 0 = d) (hk : bits (unle v) 15 8 ≠ 1)
    (hq : (beginOff m d).1.domain d = .quiescing) : applySub m c 0x2100 0x11 v = (beginOff m d, .wait (.domain c d)) := by
  simp [applySub, applyB, hd, hk, hq]

/-! ### Jobs -/

theorem awaitsValidation_start (d : Dev) (j : Fin 16) : d.awaitsValidation (0x2080 + j.val) 2 [1] = true := by
  simp (disch := omega) only [Dev.awaitsValidation, Bool.and_eq_true, decide_eq_true_eq, and_true, if_pos, if_neg, unle_singleton]
  rfl

/-- A job that is started is RUNNING. -/
theorem startJob_state (m : Mach) (j : Nat) : ((startJob m j).1.job j).state = .running := by
  simp [startJob, Dev.job, Dev.modJob]

theorem applySub_ports (m : Mach) (c : Client) (j : Fin 16) (v : Bytes) :
    applySub m c (0x2080 + j.val) 4 v = keep (m.1.setPorts j (unle v)) m.2 c (0x2080 + j.val) 4 := by
  simp (disch := omega) only [applySub, applyA, Bool.and_eq_true, decide_eq_true_eq, if_pos, if_neg, Nat.add_sub_cancel_left]

theorem applySub_almanac (m : Mach) (c : Client) (j : Fin 16) (v : Bytes) :
    applySub m c (0x4800 + j.val) 1 v = keep (m.1.setAlmanac j v) m.2 c (0x4800 + j.val) 1 := by
  simp (disch := omega) only [applySub, applyF, Bool.and_eq_true, decide_eq_true_eq, if_pos, if_neg, Nat.add_sub_cancel_left, and_true]

/-! ### Reads -/

/-- A read of one subindex of an object that may be read, past its checks and its words of the store SRAM: the pages of the logs that it
goes to, then the value. -/
theorem handleRead_one (d : Dev) (h : Hbm) (c : Client) (index sub : Nat) (e : Dev) (hi : indexExists index = true)
    (ho : (objRow index sub).any (fun r => r.access != .wo) = true) (hr : d.refusesRead c index sub = none)
    (hs : d.readStore (objKey index sub) = (e, false)) : handleRead (d, h) c index sub false =
      if (e.readLogPages c index [sub]).2 = true
      then ((readSub ((e.readLogPages c index [sub]).1, h) c index sub).1, .data (readSub ((e.readLogPages c index [sub]).1, h) c index sub).2)
      else (((e.readLogPages c index [sub]).1, h), .abort 0x06060000) := by
  obtain ⟨r, hrow, hacc⟩ := Option.any_eq_true _ _ |>.mp ho
  have hwo : (r.access == .wo) = false := by simpa using hacc
  simp only [handleRead, writeSubs, subExists, hrow, hwo, hi, hr, hs, readSubs, Bool.false_and, Bool.false_eq_true, if_false,
    List.findSome?_cons, List.findSome?_nil, List.any_cons, List.any_nil, Option.isSome_some, Bool.true_or, Bool.not_true, Bool.or_false,
    List.foldl_cons, List.foldl_nil, Bool.not_eq_true', List.nil_append]
  split <;> simp_all

/-- A challenge is drawn for the client, in place of the one it had (R54). -/
theorem readSub_challenge (d : Dev) (h : Hbm) (c : Client) : readSub (d, h) c 0x2020 2 =
    (({ (d.consume c).drawn 16 with net := { ((d.consume c).drawn 16).net with
        challenges := ((d.consume c).drawn 16).net.challenges ++ [{ client := c, bytes := d.randomBytes 16, issued := d.now }] } }, h),
      d.randomBytes 16) := rfl

/-- A block of a log moves the client's cursor past it, and that is all. -/
theorem logBlock_owesAs (d : Dev) (c : Client) (prot : Bool) : (d.logBlock c prot).1.OwesAs d := by
  unfold Dev.logBlock
  split
  · exact ⟨rfl, rfl⟩
  · exact ⟨rfl, rfl⟩

section
variable {s : State} {c : Client} {index sub : Nat} {d : Dev} {h : Hbm}

/-- A read that finds its value is answered with it. -/
theorem read_answers {b : Bytes} (hr : s.Ready) (hx : handleRead (s.asked c, s.hbm) c index sub false = ((d, h), .data b))
    (hm : d.net.mailbox = []) (hw : d.net.waiting = none) :
    ∃ n o, (s.request (.read c index sub false)).hbm = h ∧ (s.request (.read c index sub false)).dev = { d with net := n, out := o } ∧
      n.sessions = d.net.sessions ∧ n.challenges = d.net.challenges ∧ Output.response c index sub b ∈ o := by
  obtain ⟨hh, n, o, hd, hse, hch, -, -, ho⟩ := request_answer s (.read c index sub false) hr (ready_takes s _ hr) d h (.data b)
    (.response c index sub b) hx ⟨by simp, by simp⟩ rfl hm hw
  exact ⟨n, o, hh, hd, hse, hch, ho⟩

/-- A read that ends with an abort code is answered with it. -/
theorem read_aborts {code : Nat} (hr : s.Ready) (hx : handleRead (s.asked c, s.hbm) c index sub false = ((d, h), .abort code))
    (hm : d.net.mailbox = []) (hw : d.net.waiting = none) :
    (s.request (.read c index sub false)).hbm = h ∧ Output.abort c index sub code ∈ (s.request (.read c index sub false)).dev.out := by
  obtain ⟨hh, n, o, hd, -, -, -, -, ho⟩ := request_answer s (.read c index sub false) hr (ready_takes s _ hr) d h (.abort code)
    (.abort c index sub code) hx ⟨by simp, by simp⟩ rfl hm hw
  exact ⟨hh, by rw [hd]; exact ho⟩

end

/-- The object that shows a block of the public or of the protected log. -/
def logObject (prot : Bool) : Nat := if prot then 0x2331 else 0x2330

theorem logObject_readable (prot : Bool) : indexExists (logObject prot) = true ∧ (objRow (logObject prot) 2).any (fun r => r.access != .wo) = true := by
  cases prot <;> decide +kernel

theorem readSub_log (d : Dev) (h : Hbm) (c : Client) (prot : Bool) :
    readSub (d, h) c (logObject prot) 2 = (((d.logBlock c prot).1, h), (d.logBlock c prot).2) := by
  cases prot <;> rfl

section
variable {s : State} {c : Client} {d e : Dev} {prot : Bool} {i : Nat}

/-- Where the pages of a log read good, the client has a block of it. -/
theorem logRead_answers (hi : i = logObject prot) (hr : s.Ready) (hn : (s.asked c).refusesRead c i 2 = none)
    (hs : (s.asked c).readStore (objKey i 2) = (d, false)) (hl : d.readLogPages c i [2] = (e, true))
    (hm : e.net.mailbox = []) (hw : e.net.waiting = none) :
    (s.request (.read c i 2 false)).hbm = s.hbm ∧ Output.response c i 2 (e.logBlock c prot).2 ∈ (s.request (.read c i 2 false)).dev.out ∧
      (s.request (.read c i 2 false)).dev.net.sessions = (e.logBlock c prot).1.net.sessions := by
  subst hi
  obtain ⟨hi, ho⟩ := logObject_readable prot
  have hx := handleRead_one (s.asked c) s.hbm c _ 2 d hi ho hn hs
  rw [hl, readSub_log] at hx
  obtain ⟨hm', hw'⟩ := logBlock_owesAs e c prot
  obtain ⟨n, o, hh, hd, hse, -, hout⟩ := read_answers hr (hx.trans (if_pos rfl)) (hm'.trans hm) (hw'.trans hw)
  rw [hd]
  exact ⟨hh, hout, hse⟩

/-- Where a page of a log does not read good, the read aborts. -/
theorem logRead_aborts (hi : i = logObject prot) (hr : s.Ready) (hn : (s.asked c).refusesRead c i 2 = none)
    (hs : (s.asked c).readStore (objKey i 2) = (d, false)) (hl : d.readLogPages c i [2] = (e, false))
    (hm : e.net.mailbox = []) (hw : e.net.waiting = none) :
    (s.request (.read c i 2 false)).hbm = s.hbm ∧ Output.abort c i 2 0x06060000 ∈ (s.request (.read c i 2 false)).dev.out := by
  subst hi
  obtain ⟨hi, ho⟩ := logObject_readable prot
  have hx := handleRead_one (s.asked c) s.hbm c _ 2 d hi ho hn hs
  rw [hl, readSub_log] at hx
  exact read_aborts hr (hx.trans (if_neg Bool.false_ne_true)) hm hw

end

end Sys2Proof.Machine
end

section
/-!
PROOFS. Sessions and segments, and with them the requests of the mailbox.
-/

namespace Sys2Proof.Machine
open Sys2Proof
set_option Elab.async false

/-- A session response that passes its checks uses up the client's challenge and opens the session (R54). -/
theorem handleWrite_response (d : Dev) (h : Hbm) (c : Client) (v : Bytes) (hv : splitValues 0x2020 [3] v = some [(3, v)])
    (hw : d.refusesWrite c 0x2020 3 true v = none) (hr : d.responseOk c v = true)
    (hc : d.checkSub (d.withValues 0x2020 [(3, v)]) false false 0x2020 3 (some v) = none) :
    handleWrite (d, h) c 0x2020 3 false v false = ((((d.consume c).cleanStore (objKey 0x2020 3)).openSession c v, h), .ok) := by
  have hrow : (objRow 0x2020 3).any (fun r => r.access != .ro) = true := by decide +kernel
  obtain ⟨r, hrow, hacc⟩ := Option.any_eq_true _ _ |>.mp hrow
  have hno : d.awaitsValidation 0x2020 3 v = false := rfl
  have happly : ∀ m : Mach, applyAll m c 0x2020 [(3, v)] = ((m.1.openSession c v, m.2), .ok) := fun m => applyAll_one m c 0x2020 3 v rfl
  simp [handleWrite, writeSubs, hv, valueOf, tfind, hw, Dev.refusesResponse, hr, hc, hrow, hacc, hno, happly]

/-- A session that opens leaves the mailbox as it was. -/
theorem openSession_owesAs (d : Dev) (c : Client) (v : Bytes) : (d.openSession c v).OwesAs d := by
  unfold Dev.openSession
  split
  · exact ⟨rfl, rfl⟩
  · refine ⟨?_, ?_⟩ <;> simp [Dev.setSessions]

/-- The first segment of a transfer that is not its last is kept (R42). -/
theorem handleSegment_first (d : Dev) (h : Hbm) (c : Client) (index sub total : Nat) (data : Bytes) (hr : d.refusesWrite c index sub false [] = none)
    (ht : d.transferOf c = none) (hl : total ≤ 2 ^ 21) (hd : data.length ≤ total) : handleSegment (d, h) c index sub total false false data =
      (({ d.dropTransfer c with net := { (d.dropTransfer c).net with transfers := (d.dropTransfer c).net.transfers ++
        [{ client := c, index := index, sub := sub, data := data, total := total, toggle := true, lastAt := d.now }] } }, h), .ok) := by
  have hl' : ¬ 2097152 < total := Nat.not_lt.mpr hl
  simp [handleSegment, hr, ht, hl', Nat.not_lt.mpr hd]

/-- The recovery budgets are stored, with nothing else to do. -/
theorem applySub_recoveryBudget (m : Mach) (c : Client) (sub : Nat) (v : Bytes) : applySub m c 0x2310 sub v =
    (((((m.1.store 0x2310 sub v).persist c 0x2310 sub).1, m.2), ((m.1.store 0x2310 sub v).persist c 0x2310 sub).2) : Mach × Ans) := by
  simp [applySub, applyC, storeSub]

/-- Settles O15: the writes by what they do to their objects, with a wait where their answer is owed; the reads and the segment by their
handlers. -/
theorem mailboxRequests : Obligations.MailboxRequests := by
  unfold Obligations.MailboxRequests
  refine ⟨fun s c d r ht hn => ⟨_, rfl, ?on⟩, fun s c d r ht hq => ⟨_, rfl, ?off⟩, fun s c j hr ha => ⟨_, rfl, ?start⟩,
    fun s c j hv => ⟨_, rfl, ?validated⟩, fun s c j v ht he => ⟨_, rfl, ?ports⟩, fun s c j ht => ⟨_, rfl, ?almanac⟩,
    fun s c d hr hn hs hm hw => ⟨_, rfl, ?challenge⟩, fun s c v hr hv hw ho hc => ⟨_, rfl, ?response⟩,
    fun s c x d e hr hn hs hl _ hm hw => ⟨_, rfl, ?log⟩, fun s c d e hr hn hs hl hm hw => ⟨_, rfl, ?logBad⟩,
    fun s c x d e hr hn hs hl _ hm hw => ⟨_, rfl, ?prot⟩, fun s c d e hr hn hs hl hm hw => ⟨_, rfl, ?protBad⟩,
    fun s c sub v ht => ⟨_, rfl, ?budget⟩, fun s c index sub v d h a ht h20 hp hx ha hm hw => ⟨_, rfl, ?object⟩,
    fun s c index sub total v hr hn ht hl hd => ⟨_, rfl, ?segment⟩⟩
  case on =>
    obtain ⟨hd, hk⟩ := bits_domainWord d r 1 (by omega)
    exact sdoWrite_wait s c 0x2100 0x11 _ ht (by omega) _ _ (by omega) _ (applySub_domainOn _ c _ d hd hk hn)
  case off =>
    obtain ⟨hd, hk⟩ := bits_domainWord d r 2 (by omega)
    exact sdoWrite_wait s c 0x2100 0x11 _ ht (by omega) _ _ (by omega) _ (applySub_domainOff _ c _ d hd (hk.trans_ne (by decide)) hq)
  case start => exact sdoWrite_awaits s c _ 2 [1] hr ha (awaitsValidation_start _ j) (by omega)
  case validated =>
    obtain ⟨⟨a, -⟩, hm, -⟩ := id hv
    have hx : applySub (s.resumed (0x2080 + j.val) 2, s.hbm) c (0x2080 + j.val) 2 [1] =
        (((startJob (s.resumed (0x2080 + j.val) 2, s.hbm) j).1, (startJob (s.resumed (0x2080 + j.val) 2, s.hbm) j).2), .ok) := by
      simp [applySub_jobCommand]
    have h := validated_ok s c (0x2080 + j.val) 2 [1] hv (by omega) _ _ (by omega) hx
      (by rw [startJob_net]; exact hm) (by rw [startJob_net]; rfl)
    obtain ⟨-, n, o, hd, -⟩ := id h
    exact ⟨h, by rw [hd]; exact startJob_state _ j⟩
  case ports =>
    refine sdoWrite_keeps ht (by omega) (fun _ _ _ => ?_) (applySub_ports _ c j v) (.of_net (by simp))
    rw [Nat.add_sub_cancel_left]
    exact he
  case almanac => exact sdoWrite_keeps ht (by omega) (by omega) (applySub_almanac _ c j []) (.of_net (by simp))
  case challenge =>
    have hx := handleRead_one (s.asked c) s.hbm c 0x2020 2 d (by decide +kernel) (by decide +kernel) hn hs
    obtain ⟨n, o, hh, hd, -, hch, ho⟩ := read_answers hr (hx.trans (if_pos rfl)) hm hw
    refine ⟨hh, ?_, by rw [hd]; exact ho⟩
    rw [hd]
    exact hch ▸ List.mem_append_right _ (List.mem_singleton.mpr rfl)
  case response =>
    obtain ⟨hm, hw'⟩ := openSession_owesAs (((s.asked c).consume c).cleanStore (objKey 0x2020 3)) c v
    obtain ⟨am, aw⟩ := asked_net s c hr
    obtain ⟨hh, n, o, hd, hse, -, -, -, hout⟩ := request_answer s (.write c 0x2020 3 false v) hr (ready_takes s _ hr) _ _ .ok _
      (handleWrite_response (s.asked c) s.hbm c v hv hw ho hc) ⟨by simp, by simp⟩ rfl (hm.trans am) (hw'.trans aw)
    exact ⟨hh, n, o, hd, hse, hout⟩
  case log => exact logRead_answers (prot := false) rfl hr hn hs hl hm hw
  case logBad => exact logRead_aborts (prot := false) rfl hr hn hs hl hm hw
  case prot => exact logRead_answers (prot := true) rfl hr hn hs hl hm hw
  case protBad => exact logRead_aborts (prot := true) rfl hr hn hs hl hm hw
  case budget => exact sdoWrite_keeps ht (by omega) (by omega) (applySub_recoveryBudget _ c sub v) (.of_net (by simp))
  case object =>
    exact sdoWrite_took s c index sub v ht (fun a b => h20 ⟨a, b⟩) d h (fun a b e => absurd ⟨a, b, e⟩ hp) a hx ha hm hw
  case segment =>
    obtain ⟨hm, hw⟩ := asked_net s c hr
    obtain ⟨hh, n, o, hd', -, -, htr, -, ho⟩ := request_answer s (.segment c index sub total false false v) hr (ready_takes s _ hr) _ _ .ok _
      (handleSegment_first (s.asked c) s.hbm c index sub total v hn ht hl hd) ⟨by simp, by simp⟩ rfl hm hw
    refine ⟨hh, ?_, by rw [hd']; exact ho⟩
    rw [hd']
    exact htr ▸ List.mem_append_right _ (List.mem_singleton.mpr rfl)

end Sys2Proof.Machine
end

section
/-!
PROOFS. The votes and the commits of a group, and a change of the array's topology, leave the Director's record alone: what a self-test
that completes rests on.
-/

namespace Sys2Proof.Machine
open Sys2Proof
set_option Elab.async false

@[simp] theorem addGroup_dir (d : Dev) (g : Group) : (d.addGroup g).dir = d.dir := by
  simp [Dev.addGroup]

@[simp] theorem modGroup_dir (d : Dev) (g : Group) (f : Group → Group) : (d.modGroup g f).dir = d.dir := by
  simp [Dev.modGroup]

@[simp] theorem sendDown_dir (d : Dev) (type cls : Nat) (payload : Bytes) (except_ : Option Nat) :
    (d.sendDown type cls payload except_).dir = d.dir := by
  simp [Dev.sendDown]

@[simp] theorem leaderSend_dir (d : Dev) (g : Group) (type reason : Nat) (body : Bytes) : (d.leaderSend g type reason body).dir = d.dir := by
  simp only [Dev.leaderSend]
  (repeat' split) <;> simp

@[simp] theorem cancelStrobes_dir (d : Dev) (sel : Strobe → Bool) : (d.cancelStrobes sel).dir = d.dir := by
  simp [Dev.cancelStrobes]

@[simp] theorem modComet_dir (d : Dev) (c : Comet) (f : Comet → Comet) : (d.modComet c f).dir = d.dir := by
  simp [Dev.modComet]

@[simp] theorem gateDark_dir (d : Dev) (h : Nat) : (d.gateDark h).dir = d.dir := by
  unfold Dev.gateDark
  (repeat' split) <;> simp

@[simp] theorem gateClose_dir (d : Dev) (h : Nat) : (d.gateClose h).dir = d.dir := by
  simp [Dev.gateClose]

@[simp] theorem stopSearch_dir (d : Dev) (h : Nat) : (d.stopSearch h).dir = d.dir :=
  foldl_dir _ (fun _ _ => rfl) (headAxes h) d

@[simp] theorem freeze_dir (d : Dev) (cut : Bool) : (d.freeze cut).dir = d.dir := by
  unfold Dev.freeze
  (repeat' split) <;> simp

@[simp] theorem toHold_dir (d : Dev) (a : Nat) : (d.toHold a).dir = d.dir := by
  simp [Dev.toHold]

@[simp] theorem stopAxis_dir (d : Dev) (a : Nat) : (d.stopAxis a).dir = d.dir := by
  unfold Dev.stopAxis
  (repeat' split) <;> simp

@[simp] theorem stopPair_dir (d : Dev) (north south plane : Nat) : (d.stopPair north south plane).dir = d.dir := by
  simp [Dev.stopPair]

@[simp] theorem endCircuits_dir (d : Dev) (sel : Circuit → Bool) : (d.endCircuits sel).dir = d.dir := by
  simp [Dev.endCircuits]

@[simp] theorem dropComet_dir (d : Dev) (c : Comet) : (d.dropComet c).dir = d.dir := by
  simp [Dev.dropComet]

@[simp] theorem slewDone_dir (d : Dev) (j entry : Nat) : (d.slewDone j entry).dir = d.dir := by
  unfold Dev.slewDone
  (repeat' split) <;> simp

@[simp] theorem podSend_dir (d : Dev) (q type : Nat) (payload : Bytes) : (d.podSend q type payload).dir = d.dir := by
  simp [Dev.podSend]

@[simp] theorem sendMonitor_dir (d : Dev) (q : Nat) : (d.sendMonitor q).dir = d.dir := by
  simp [Dev.sendMonitor]

@[simp] theorem sendMonitors_dir (d : Dev) (ports : List Nat) : (d.sendMonitors ports).dir = d.dir := by
  simp [Dev.sendMonitors]

@[simp] theorem abortComet_dir (d : Dev) (c : Comet) : (d.abortComet c).dir = d.dir := by
  unfold Dev.abortComet
  (repeat' split) <;> simp

@[simp] theorem abortJobComets_dir (d : Dev) (j : Nat) : (d.abortJobComets j).dir = d.dir := by
  simp [Dev.abortJobComets]

@[simp] theorem placeNext_dir (d : Dev) (j t : Nat) : (d.placeNext j t).dir = d.dir := by
  simp [Dev.placeNext]

@[simp] theorem memberCancel_dir (d : Dev) (j reason : Nat) : (d.memberCancel j reason).dir = d.dir := by
  simp only [Dev.memberCancel]
  (repeat' split) <;> simp

@[simp] theorem lateRetract_dir (d : Dev) (j : Nat) : (d.lateRetract j).dir = d.dir := by
  simp [Dev.lateRetract]

@[simp] theorem memberRetract_dir (d : Dev) (j reason : Nat) : (d.memberRetract j reason).dir = d.dir := by
  simp [Dev.memberRetract]

@[simp] theorem leaderRetract_dir (d : Dev) (g : Group) (reason : Nat) : (d.leaderRetract g reason).dir = d.dir := by
  simp only [Dev.leaderRetract]
  (repeat' split) <;> simp

@[simp] theorem nameOnce_dir (d : Dev) (m : CMsg) (f : Dev → Dev) (h : ∀ e, (f e).dir = e.dir) : (d.nameOnce m f).dir = d.dir := by
  simp only [Dev.nameOnce]
  split
  · rfl
  · exact h _

@[simp] theorem openGroup_dir (d : Dev) (g : Group) (soloJob : Bool) : (d.openGroup g soloJob).dir = d.dir := by
  simp [Dev.openGroup]

@[simp] theorem memberHold_dir (d : Dev) (j reason : Nat) : (d.memberHold j reason).dir = d.dir := by
  simp only [Dev.memberHold]
  (repeat' split) <;> simp

@[simp] theorem leaderHold_dir (d : Dev) (g : Group) (reason : Nat) : (d.leaderHold g reason).dir = d.dir := by
  simp only [Dev.leaderHold]
  (repeat' split) <;> simp

@[simp] theorem sendTuner_dir (d : Dev) (q bank : Nat) (ws : List TWrite) : (d.sendTuner q bank ws).dir = d.dir := by
  simp [Dev.sendTuner]

@[simp] theorem stageWrites_dir (d : Dev) (bank : Nat) (ws : List TWrite) : (d.stageWrites bank ws).dir = d.dir := by
  simp [Dev.stageWrites]

@[simp] theorem noteClamp_dir (d : Dev) (p k weight : Nat) : (d.noteClamp p k weight).dir = d.dir := by
  unfold Dev.noteClamp
  (repeat' split) <;> simp

@[simp] theorem stageEntry_dir (d : Dev) (j : Nat) (es : List CEntry) : (d.stageEntry j es).dir = d.dir := by
  simp [Dev.stageEntry]

@[simp] theorem memberConfirm_dir (d : Dev) (j : Nat) : (d.memberConfirm j).dir = d.dir := by
  simp only [Dev.memberConfirm]
  (repeat' split) <;> simp

@[simp] theorem tallyAck_dir (d : Dev) (g : Group) (tag z ack fail sender reason : Nat) : (d.tallyAck g tag z ack fail sender reason).dir = d.dir := by
  simp only [Dev.tallyAck]
  (repeat' split) <;> simp

@[simp] theorem groupAck_dir (d : Dev) (tag z entry crc ack fail sender reason : Nat) : (d.groupAck tag z entry crc ack fail sender reason).dir = d.dir := by
  unfold Dev.groupAck
  (repeat' split) <;> simp

@[simp] theorem sendUp_dir (d : Dev) (type cls : Nat) (payload : Bytes) : (d.sendUp type cls payload).dir = d.dir := by
  unfold Dev.sendUp
  (repeat' split) <;> simp

@[simp] theorem ackAgain_dir (d : Dev) (j : Nat) : (d.ackAgain j).dir = d.dir := by
  unfold Dev.ackAgain
  (repeat' split) <;> simp

@[simp] theorem sendAck_dir (d : Dev) (j reason : Nat) : (d.sendAck j reason).dir = d.dir := by
  simp [Dev.sendAck]

@[simp] theorem memberAck_dir (d : Dev) (j reason : Nat) : (d.memberAck j reason).dir = d.dir := by
  simp [Dev.memberAck]

@[simp] theorem stageComets_dir (d : Dev) (j : Nat) : (d.stageComets j).dir = d.dir := by
  simp [Dev.stageComets]

@[simp] theorem armStrobe_dir (d : Dev) (s : Strobe) : (d.armStrobe s).1.dir = d.dir := by
  unfold Dev.armStrobe
  (repeat' split) <;> simp

@[simp] theorem armAll_dir (d : Dev) (j : Nat) (l : List Stage) : (d.armAll j l).1.dir = d.dir := by
  induction l generalizing d with
  | nil => rfl
  | cons s t ih =>
    simp only [Dev.armAll]
    split <;> simp [ih]

@[simp] theorem memberGo_dir (d : Dev) (j : Nat) : (d.memberGo j).dir = d.dir := by
  simp only [Dev.memberGo]
  (repeat' split) <;> simp

@[simp] theorem leaderGo_dir (d : Dev) (g : Group) : (d.leaderGo g).dir = d.dir := by
  simp only [Dev.leaderGo]
  (repeat' split) <;> simp

@[simp] theorem groupVote_dir (d : Dev) (m : CMsg) (members ready notReady : Nat) : (d.groupVote m members ready notReady).dir = d.dir := by
  simp only [Dev.groupVote]
  (repeat' split) <;> simp

@[simp] theorem voteAgain_dir (d : Dev) (j : Nat) : (d.voteAgain j).dir = d.dir := by
  unfold Dev.voteAgain
  (repeat' split) <;> simp

@[simp] theorem leadOwn_dir (d : Dev) (j : Nat) : (d.leadOwn j).dir = d.dir := by
  simp [Dev.leadOwn]

@[simp] theorem updateLeader_dir (d : Dev) : (d.updateLeader).dir = d.dir := by
  unfold Dev.updateLeader
  (repeat' split) <;> simp

@[simp] theorem settle_dir (d : Dev) : (d.settle).dir = d.dir := by
  simp [Dev.settle]

@[simp] theorem sendVote_dir (d : Dev) (j : Nat) (reason : Nat) : (d.sendVote j reason).dir = d.dir := by
  simp [Dev.sendVote]

@[simp] theorem reserve_dir (d : Dev) (j : Nat) : (d.reserve j).dir = d.dir := by
  simp only [Dev.reserve]
  (repeat' split) <;> simp

@[simp] theorem revote_dir (d : Dev) (j : Nat) : (d.revote j).dir = d.dir := by
  unfold Dev.revote
  (repeat' split) <;> simp

@[simp] theorem revoteAll_dir (d : Dev) : (d.revoteAll).dir = d.dir := by
  simp [Dev.revoteAll]

/-! ### The time unit and the topology, in STANDBY -/

theorem dir_ite {c : Prop} [Decidable c] {a b e : Dev} (ha : a.dir = e.dir) (hb : b.dir = e.dir) : (if c then a else b).dir = e.dir := by
  split
  · exact ha
  · exact hb

/-- A device whose Director is in STANDBY does not fall into HOLD with its time. -/
theorem setTState_dir {d e : Dev} (x : TState) (h : d.dir = e.dir) (hs : e.dir.state = .standby) : (d.setTState x).dir = e.dir := by
  have hin : ∀ f : Dev, f.dir = e.dir → ¬(d.timeLocked && !f.timeLocked && f.inState [.armed, .serving]) = true := by
    intro f hf
    simp [Dev.inState, hf, hs]
  simp only [Dev.setTState]
  refine (congrArg Dev.dir (if_neg (hin _ ?_))).trans ((revoteAll_dir _).trans ?_) <;> refine (settle_dir _).trans ?_ <;>
    refine dir_ite ((timeFault_dir _ _ _).trans ?_) ?_ <;> exact dir_ite ((timeFault_dir _ _ _).trans h) h

@[simp] theorem rootPtpStatus_dir (d : Dev) : d.rootPtpStatus.dir = d.dir := by
  unfold Dev.rootPtpStatus
  (repeat' split) <;> simp

theorem reselect_dir (d : Dev) (h : d.dir.state = .standby) : d.reselect.dir = d.dir := by
  simp only [Dev.reselect]
  refine dir_ite rfl ?_
  refine dir_ite (setTState_dir _ ?_ h) ?_ <;> refine dir_ite (setTState_dir _ ?_ h) ?_ <;>
    refine dir_ite ((rootPtpStatus_dir _).trans ?_) ?_ <;> exact dir_ite (setTState_dir _ rfl h) rfl

theorem topologyChanged_dir {d e : Dev} (hd : d.dir = e.dir) (h : e.dir.state = .standby) : d.topologyChanged.dir = e.dir := by
  simp only [Dev.topologyChanged, announce_dir, revoteAll_dir]
  rw [reselect_dir _ (by simp [hd, h])]
  simp [hd]

theorem updateConfirmed_dir (d : Dev) (h : d.dir.state = .standby) : d.updateConfirmed.dir = d.dir := by
  simp only [Dev.updateConfirmed]
  refine topologyChanged_dir ?_ h
  refine dir_ite ((unlatch_dir _ _ _ _).trans ?_) ?_ <;> exact dir_ite rfl rfl

end Sys2Proof.Machine
end

section
/-!
PROOFS. The image that runs, once it is verified, stays the one that runs: no fault that a start finds, no settings that it loads and no
library that it falls back to changes it.
-/

namespace Sys2Proof.Machine
open Sys2Proof
set_option Elab.async false

/-- Whether the running image is verified, and its region. -/
def Dev.image (d : Dev) : Bool × Nat := (d.upd.verified, d.upd.region)

theorem image_of_upd {d e : Dev} (h : d.upd = e.upd) : d.image = e.image := by simp only [Dev.image, h]

theorem image_ite {c : Prop} [Decidable c] {a b e : Dev} (ha : a.image = e.image) (hb : b.image = e.image) :
    (if c then a else b).image = e.image := by
  split
  · exact ha
  · exact hb

theorem image_foldl {α : Type} {g : Dev → α → Dev} (h : ∀ d a, (g d a).image = d.image) (l : List α) (d : Dev) :
    (l.foldl g d).image = d.image := by
  induction l generalizing d with
  | nil => rfl
  | cons a t ih => exact (ih _).trans (h d a)

theorem image_foldl_fst {α β : Type} {g : Dev × β → α → Dev × β} (h : ∀ r a, (g r a).1.image = r.1.image) (l : List α) (r : Dev × β) :
    (l.foldl g r).1.image = r.1.image := by
  induction l generalizing r with
  | nil => rfl
  | cons a t ih => exact (ih _).trans (h r a)

/-! ### Faults -/

@[simp] theorem enqueue_image (d : Dev) (e : Event) : (d.enqueue e).image = d.image := by
  simp only [Dev.image, Dev.enqueue]
  (repeat' split) <;> simp [breakSoak_upd, overflow_upd]

@[simp] theorem raise_image (d : Dev) (code cls scope index : Nat) (active : Bool) (detail : Bytes) :
    (d.raise code cls scope index active detail).image = d.image := by
  unfold Dev.raise
  exact image_ite (image_of_upd (info_upd _ _ _ _ _)) (enqueue_image _ _)

@[simp] theorem readFlash_image (d : Dev) (sel : FlashPage → Bool) : (d.readFlash sel).1.image = d.image := by
  unfold Dev.readFlash
  refine image_foldl_fst (fun r e => ?_) _ _
  split
  · exact image_ite (raise_image _ _ _ _ _ _ _) (raise_image _ _ _ _ _ _ _)
  · exact raise_image _ _ _ _ _ _ _

/-! ### The settings and the library -/

@[simp] theorem readSettings_image (d : Dev) : d.readSettings.1.image = d.image := by
  unfold Dev.readSettings
  exact image_foldl_fst (fun r x => by exact readFlash_image r.1 _) _ _

theorem boardOffsets_image (b : Bytes) (l : List Nat) (d : Dev) : (l.foldl (fun (d : Dev) k =>
    (d.setOct (0x3D00 + k) 3 (slice b (32 * k) 16)).setOct (0x3D00 + k) 4 (slice b (32 * k + 16) 8)) d).image = d.image :=
  image_foldl (fun _ _ => by rfl) l d

@[simp] theorem loadSettings_image (d : Dev) : d.loadSettings.image = d.image := by
  refine Eq.trans ?_ (readSettings_image d)
  simp only [Dev.loadSettings]
  split
  case h_1 r _ =>
    split
    · rw [boardOffsets_image]
      split
      · exact image_ite rfl rfl
      · rfl
    · split
      · exact image_ite rfl rfl
      · rfl
  case h_2 => rfl

@[simp] theorem loadLibrary_image (d : Dev) : d.loadLibrary.image = d.image := by
  unfold Dev.loadLibrary
  exact image_ite rfl rfl

/-- The boot record is written as the region starts; which image runs stands. -/
@[simp] theorem bootChoice_image (d : Dev) (region : Nat) : (d.bootChoice region).image = d.image := by
  have hr : (d.upd.readBoot.verified, d.upd.readBoot.region) = d.image := by
    unfold Update.readBoot
    split <;> rfl
  refine Eq.trans ?_ hr
  simp only [Dev.bootChoice, Dev.image]
  split <;> rfl

/-! ### The slots of PTP -/

@[simp] theorem rootPtpStatus_image (d : Dev) : d.rootPtpStatus.image = d.image := by
  unfold Dev.rootPtpStatus
  refine image_ite rfl ?_
  split
  · rfl
  · exact image_ite rfl (raise_image _ _ _ _ _ _ _)

@[simp] theorem select_image (d : Dev) (x : Option Nat) : (d.select x).image = d.image := rootPtpStatus_image _

@[simp] theorem selectPtp_image (d : Dev) : d.selectPtp.image = d.image := by
  have hf : ∀ x, (d.timeFault 5 x).image = d.image := fun x => raise_image _ _ _ _ _ _ _
  simp only [Dev.selectPtp]
  refine image_ite rfl ?_
  split
  · exact select_image d none
  · refine image_ite (select_image d _) ?_
    split
    · exact image_ite (hf _) ((select_image _ none).trans (hf _))
    · exact hf _

@[simp] theorem startPtp_image (d : Dev) : d.startPtp.image = d.image := by
  unfold Dev.startPtp
  refine image_foldl (fun d k => ?_) _ _
  exact image_ite (selectPtp_image _) rfl

end Sys2Proof.Machine
end

section
/-!
PROOFS. The Director's commands, and what else moves its state.
-/

namespace Sys2Proof.Machine
open Sys2Proof
set_option Elab.async false

/-- A state takes effect with its cause. -/
theorem setState_startUp (d : Dev) (x : DirState) : (d.setState x .startUp).dir = { d.dir with state := x, since := d.now, cause := .startUp } := rfl

/-- A command that is obeyed leads where its row of Table 2.12 leads it. -/
theorem exec_obeyed {s : State} {src : CmdSrc} {c : Cmd} {d : Dev} {h : Hbm} (ho : s.Obeys src c)
    (ha : cmdAct (s.ordered src c, s.hbm) c = (d, h)) : ∃ t, exec (c.given src) s = .next t ∧ t.Ran (d.cmdEnds 0, h) := by
  have hr := command_runs s src c ho
  rw [ha] at hr
  exact ⟨_, exec_given src c s, hr⟩

/-- No recording runs on the way into REPLAY but the one that ran before. -/
theorem enterReplay_recr (s : State) (src : CmdSrc) (h : s.dev.recr.state ≠ .running) :
    (((s.ordered src .enterReplay).setState .replay .command).leaveRoles.recr.state == .running) = false := by
  have hr : ((s.ordered src .enterReplay).setState .replay .command).leaveRoles.recr = s.dev.recr := by cases src <;> rfl
  simpa [hr] using h

/-- FAULT_ACK whose bit stands at 0 is one word with the bit at 1. -/
theorem exec_faultAck (s : State) (ha : s.dev.dir.lastFaultAck = false) :
    exec (.faultAck .processData) s = .next (s.control .processData (256 + 32768 * b2n s.dev.dir.cmdAck)) := by
  show execFaultAck .processData s = _
  simp only [execFaultAck, ha, Bool.false_eq_true, if_false]

/-- FAULT_ACK by process data, its bit at 0 before and the TOGGLE as it was: the faults are acknowledged, and no command runs. -/
theorem sampleControl_faultAck (d : Dev) (h : Hbm) (ha : d.dir.lastFaultAck = false) (hc : d.dir.control = 256 + 32768 * b2n d.dir.cmdAck) :
    sampleControl (d, h) = ({ d.faultAck with dir := { d.dir with lastFaultAck := true } }, h) := by
  have h8 : d.dir.control.testBit 8 = true := by rw [hc]; cases d.dir.cmdAck <;> rfl
  have hu : wordUnlisted d.dir.control = false := by rw [hc]; cases d.dir.cmdAck <;> rfl
  have ht : d.dir.control.testBit 15 = d.dir.cmdAck := by rw [hc]; cases d.dir.cmdAck <;> rfl
  have hd : d.ackEdge = { d.faultAck with dir := { d.dir with lastFaultAck := true } } := by
    simp [Dev.ackEdge, h8, hu, ha]
  simp [sampleControl, hd, latchControl, ht]

/-- A word that is not listed has its TOGGLE acknowledged and CMD_RESULT 5, and nothing else comes of it. -/
theorem sampleControl_unlisted (d : Dev) (h : Hbm) (hu : wordUnlisted d.dir.control = true) (hp : d.dir.inProgress = none)
    (ht : d.dir.control.testBit 15 = !d.dir.cmdAck) : sampleControl (d, h) =
      ({ d with dir := { d.dir with cmdAck := !d.dir.cmdAck, latched := d.dir.control, latchedMaintainer := d.dir.byMaintainer,
                                    lastFaultAck := d.dir.control.testBit 8, cmdResult := 5 } }, h) := by
  simp [sampleControl, Dev.ackEdge, hu, latchControl, ht, hp, Dev.cmdEnds]

/-- A fault handler that has ended lets ENTER_MAINTENANCE, in progress, complete. -/
theorem commandComplete_enterMaint (d : Dev) (h : Hbm) (hp : d.dir.inProgress = some .enterMaint) (hf : d.faults.current = none)
    (hm : d.dir.latchedMaintainer = true) (hs : d.inState [.standby, .hold] = true) (hg : d.cmdGuard .enterMaint = true) :
    commandComplete (d, h) = latchControl
      ((((({ d with dir := { d.dir with inProgress := none } } : Dev).setState .maintenance .command).announce).cmdEnds 0), h) := by
  have hst : d.dir.state ∈ Cmd.from_ .enterMaint := by simpa [Dev.inState, Cmd.from_] using hs
  simp only [commandComplete, hp, hf, Option.isSome_none, Bool.false_eq_true, if_false]
  rw [runCommand_acts _ .enterMaint (fun _ => hm) hst (by simp [Cmd.code]) (fun _ => hf) hg]
  rfl

/-- The image that verifies in BOOT is the one that runs, and SELFTEST begins. -/
theorem imageVerified_selftest (d : Dev) (region : Nat) (manifest : Bytes) (hb : d.dir.state = .boot) (h1 : d.isOn 1 = true)
    (hv : d.upd.verified = false) (hs : d.power.shutAt = none) : (d.imageVerified region manifest).dir.state = .selftest ∧
      (d.imageVerified region manifest).dir.cause = .startUp ∧ (d.imageVerified region manifest).image = (true, region) := by
  have hgo : ¬(d.dir.state != .boot || !d.isOn 1 || d.upd.verified || d.power.shutAt.isSome) = true := by simp [hb, h1, hv, hs]
  simp only [Dev.imageVerified, if_neg hgo, startNext_dir, setState_startUp, true_and]
  refine (image_of_upd (startNext_upd _)).trans ((image_of_upd (setState_upd _ _ _)).trans ?_)
  simp only [Dev.settled, startPtp_image, loadSettings_image, loadLibrary_image, bootChoice_image]
  simp only [Dev.image]
  split <;> rfl

/-- Self-tests that find no array of class 3 failed, with no trip, end in STANDBY. -/
theorem selftestEnd_standby (d : Dev) (bad : List (Nat × Nat)) (hs : d.dir.state = .selftest) (hf : (d.failedCheckers bad).any checkerFatal = false)
    (ht : d.power.tripLatched = false) : (d.selftestEnd bad).dir.state = .standby ∧ (d.selftestEnd bad).dir.cause = .startUp := by
  have hr : ¬(d.dir.state != .selftest) = true := by simp [hs]
  have hp : ∀ l : List Nat, (l.foldl Dev.checkerFailed (d.setNum 0x2800 1 (d.selftestMask bad : Nat))).power.tripLatched = false := fun l =>
    (congrArg Power.tripLatched (foldl_power Dev.checkerFailed checkerFailed_power l _)).trans ht
  have hl : ((d.setNum 0x2800 1 (d.selftestMask bad : Nat)).failedCheckers bad).any checkerFatal = false := hf
  simp only [Dev.selftestEnd, if_neg hr, hp, hl, Bool.false_eq_true, if_false, Bool.or_self, announce_dir]
  rw [updateConfirmed_dir _ (by simp [setState_startUp])]
  simp [setState_startUp]

/-- Settles O9: what a command that is obeyed does by its row, and the words and the ends of the start by their own rules. -/
theorem directorCommands : Obligations.DirectorCommands := by
  unfold Obligations.DirectorCommands
  refine ⟨fun s src h => exec_obeyed h (cmdAct_arm _), fun s src h => exec_obeyed h (cmdAct_serve _), fun s src h => exec_obeyed h (cmdAct_hold _),
    fun s src h => exec_obeyed h (cmdAct_resume _), fun s src h => exec_obeyed h (cmdAct_disarm _),
    fun s src h => exec_obeyed h (cmdAct_enterMaint _), fun s src h => exec_obeyed h (cmdAct_exitMaint _),
    fun s src h hr => exec_obeyed h (cmdAct_enterReplay _ (enterReplay_recr s src hr)), fun s src d h hd hj => ?leave,
    fun s src d h hd hj => ?rejoin, fun s src h => exec_obeyed h (cmdAct_warmRestart _), fun s ha => ?ack,
    fun s w hu hp ht => ⟨_, rfl, ?unlisted⟩, fun s hp hf hm hs hg => ⟨_, rfl, ?complete⟩,
    fun s region manifest hb h1 hv hs => ⟨_, rfl, rfl, ?image⟩, fun s bad hs hf ht => ⟨_, rfl, rfl, selftestEnd_standby s.dev bad hs hf ht⟩⟩
  case leave =>
    subst hd
    exact exec_obeyed h (cmdAct_exitReplay _ hj)
  case rejoin =>
    subst hd
    exact exec_obeyed h (cmdAct_exitReplay_joined _ hj)
  case ack =>
    refine ⟨s.control .processData (256 + 32768 * b2n s.dev.dir.cmdAck), ?_, _, ?_, ?_,
      congrArg serve (sampleControl_faultAck (s.dev.setControl (256 + 32768 * b2n s.dev.dir.cmdAck) false) s.hbm ha rfl)⟩
    · exact exec_faultAck s ha
    · rfl
    · rfl
  case unlisted =>
    exact congrArg serve (sampleControl_unlisted (s.dev.setControl w.val false) s.hbm hu hp ht)
  case complete => exact congrArg serve (commandComplete_enterMaint s.dev s.hbm hp hf hm hs hg)
  case image =>
    obtain ⟨h1, h2, h3⟩ := imageVerified_selftest s.dev (region.val + 1) manifest hb h1 hv hs
    exact ⟨h1, h2, congrArg Prod.fst h3, congrArg Prod.snd h3⟩

end Sys2Proof.Machine
end

section
/-!
PROOFS. Domain ramps, quiesces and permits.
-/

namespace Sys2Proof.Machine
open Sys2Proof
set_option Elab.async false

/-! ### A mailbox that is empty -/

theorem serve_isOn (m : Mach) (h : m.1.net.mailbox = []) (k : Nat) : (serve m).1.isOn k = m.1.isOn k := by
  obtain ⟨hm, hp, -⟩ := serve_frame m h
  simp only [Dev.isOn, Dev.domain, hm, hp]

theorem serve_now (m : Mach) (h : m.1.net.mailbox = []) : (serve m).1.now = m.1.now := by
  obtain ⟨-, -, -, -, -, ht, -⟩ := serve_frame m h
  simp only [Dev.now, ht]

/-- A command that serves the mailbox last, while it is empty: what it made of the module, the power unit, the update, the objects, the
Director and the time stands. -/
theorem onServe_frame {s : State} {f : Dev → Hbm → Mach} {m : Mach} (hf : f s.dev s.hbm = m) (h : m.1.net.mailbox = []) :
    (s.onServe f).hbm = m.2 ∧ (s.onServe f).dev.module = m.1.module ∧ (s.onServe f).dev.power = m.1.power ∧
      (s.onServe f).dev.upd = m.1.upd ∧ (s.onServe f).dev.od = m.1.od ∧ (s.onServe f).dev.dir = m.1.dir ∧ (s.onServe f).dev.time = m.1.time := by
  subst hf
  obtain ⟨hm, hp, hu, ho, hd, ht, -⟩ := serve_frame _ h
  exact ⟨(serve_idle _ h).1, hm, hp, hu, ho, hd, ht⟩

/-! ### Ramps and quiesces -/

/-- A start goes on to its next domain only in SELFTEST. -/
theorem startNext_of_not_selftest (d : Dev) (h : d.dir.state ≠ .selftest) : d.startNext = d := by
  simp [Dev.startNext, h]

/-- PD1 that is on ramps no further. -/
theorem rampManagement_of_on (d : Dev) (h : d.isOn 1 = true) : d.rampManagement = d := by
  have h1 : d.domain 1 = .on := by simpa [Dev.isOn] using h
  simp [Dev.rampManagement, h1]

/-- PD1 ends its ramp: on, at the end of its ramp time, with nothing else that a request would wait for. -/
theorem rampDone_one (m : Mach) (hr : m.1.domain 1 = .ramping) (hm : m.1.net.mailbox = []) (hs : m.1.dir.state ≠ .selftest) :
    (rampDone m 1 []).1.isOn 1 = true ∧ tget 0 m.1.power.rampAt 1 + 5 * Config.ms ≤ (rampDone m 1 []).1.now ∧ (rampDone m 1 []).1.net.mailbox = [] := by
  have on : (((m.1.reach (tget 0 m.1.power.rampAt 1 + rampTime 1)).setDomain 1 .on).release 6 1).isOn 1 = true := by
    simp [Dev.isOn, Dev.domain, Dev.setDomain, Dev.release]
  have hx : (rampDone m 1 []).1 = (((m.1.reach (tget 0 m.1.power.rampAt 1 + rampTime 1)).setDomain 1 .on).release 6 1).domainAnswer 1 0 := by
    simp only [rampDone, hr, domainUp, rampManagement_of_on _ on]
    exact startNext_of_not_selftest _ (by simpa [Dev.release, Dev.setDomain] using hs)
  rw [hx]
  refine ⟨?_, ?_, ?_⟩
  · simpa [Dev.isOn, Dev.domain] using on
  · have ht : ((((m.1.reach (tget 0 m.1.power.rampAt 1 + rampTime 1)).setDomain 1 .on).release 6 1).domainAnswer 1 0).now =
        (m.1.reach (tget 0 m.1.power.rampAt 1 + rampTime 1)).now := by simp [Dev.now, Dev.setDomain, Dev.release]
    rw [ht, reach_now]
    exact Nat.le_max_right _ _
  · simpa [Dev.release, Dev.setDomain] using hm

/-- The last crossing but one of a domain that quiesces is empty: what it still held is counted, and the other still quiesces. -/
theorem quiesceEnds_left (m : Mach) (k : Nat) (rest : List Nat) (x y words : Nat) (ho : m.1.power.toOff = k :: rest)
    (hq : m.1.domain k = .quiescing) (hc : m.1.module.quiescing = [x, y]) (hxy : x ≠ y) : (quiesceEnds m x words).1.module.quiescing = [y] ∧
      tget 0 (quiesceEnds m x words).1.module.discards x = (tget 0 m.1.module.discards x + words) % 2 ^ 32 ∧
      (quiesceEnds m x words).1.net = m.1.net := by
  have hyx : (y == x) = false := by simpa using hxy.symm
  have hb : ∀ d : Dev, d = (if words = 0 then m.1 else m.1.reach (tget 0 m.1.power.rampAt k + 10 * Config.us)) → d.module = m.1.module ∧ d.net = m.1.net := by
    intro d hd
    subst hd
    split <;> simp
  obtain ⟨h1, h2⟩ := hb _ rfl
  simp [quiesceEnds, ho, hq, hc, Dev.discard, h1, h2, hxy.symm]

/-! ### Permits -/

/-- What a grant of no domain starts is no matter of the power unit. -/
theorem onGrant_power (d : Dev) (cls holder : Nat) (h : cls ≠ 6) : (d.onGrant cls holder).power = d.power := by
  unfold Dev.onGrant
  split
  · exact absurd rfl h
  · rfl
  · rfl

/-- A request that is not denied and fits is granted, with the lease of its class. -/
theorem request_grants (d : Dev) (cls : Nat) (prio : Prio) (amount holder : Nat) (h6 : cls ≠ 6) (hp : prio ≠ .fault)
    (hd : d.permitDenied cls prio amount holder = false)
    (hf : d.permitFits { cls := cls, amount := amount, prio := prio, holder := holder, till := 0, order := d.power.nextOrder } = true) :
    (d.request cls prio amount holder 0).power = { d.power with
      nextOrder := d.power.nextOrder + 1
      grants := d.power.grants ++
        [{ cls := cls, amount := amount, prio := prio, holder := holder, till := d.now + leaseTime cls holder, order := d.power.nextOrder }] } := by
  have hp' : (prio == .fault) = false := by simpa using hp
  have hd' : ({ d with power := { d.power with nextOrder := d.power.nextOrder + 1 } } : Dev).permitDenied cls prio amount holder = false := hd
  have hf' : ({ d with power := { d.power with nextOrder := d.power.nextOrder + 1 } } : Dev).permitFits
      { cls := cls, amount := amount, prio := prio, holder := holder, till := 0, order := d.power.nextOrder } = true := hf
  simp only [Dev.request, hd', hf', hp', Bool.false_eq_true, if_false, if_true]
  exact onGrant_power _ cls holder h6

/-- A grant that stands has not been taken: nothing ends. -/
theorem takenGrants_of_kept (old : List Permit) (m : Mach) (h : ∀ g ∈ old, m.1.grantOf g.cls g.holder ≠ none)
    (hr : ∀ k, m.1.domain k ≠ .ramping) : takenGrants old m = m := by
  have he : old.filter (fun g => g.cls != 6 && (m.1.grantOf g.cls g.holder).isNone) = [] := by
    rw [List.filter_eq_nil_iff]
    intro g hg
    have := h g hg
    simp [this]
  simp only [takenGrants, he, List.foldl_nil]
  exact lostRamps_idle m hr

/-- A grant that is given back is none. -/
theorem release_grantOf (d : Dev) (cls holder : Nat) : (d.release cls holder).grantOf cls holder = none := by
  simp only [Dev.release, Dev.grantOf, List.find?_eq_none, List.mem_filter]
  rintro g ⟨-, hg⟩ he
  simp [he] at hg

/-- Settles O7: each command by the rule of what it ends or grants, its mailbox being empty. -/
theorem powerPermits : Obligations.PowerPermits := by
  unfold Obligations.PowerPermits
  refine ⟨fun s hr hm hs => ⟨_, rfl, ?ramp⟩, fun s k rest x y words ho hq hc hxy hm => ⟨_, rfl, ?quiesce⟩,
    fun s cls prio amount holder h0 h6 hm hr hp hd hf => ⟨_, rfl, ?request⟩, fun s holder g hg hk => ⟨_, rfl, ?renew⟩,
    fun s cls holder => ⟨_, rfl, release_grantOf s.dev cls holder, rfl⟩⟩
  case ramp =>
    obtain ⟨h1, h2, h3⟩ := rampDone_one (s.dev, s.hbm) hr hm hs
    exact ⟨(serve_isOn _ h3 1).trans h1, h2.trans_eq (serve_now _ h3).symm⟩
  case quiesce =>
    obtain ⟨h1, h2, h3⟩ := quiesceEnds_left (s.dev, s.hbm) k rest x y words ho hq hc (fun h => hxy (Fin.ext h))
    obtain ⟨hmod, -⟩ := serve_frame _ (h3.symm ▸ hm)
    simp only [State.onServe, State.onMem, hmod]
    exact ⟨h1, h2⟩
  case request =>
    have hg := request_grants s.dev cls prio amount holder h6 hp hd hf
    have hk : takenGrants s.dev.power.grants (s.dev.request cls prio amount holder 0, s.hbm) = (s.dev.request cls prio amount holder 0, s.hbm) := by
      refine takenGrants_of_kept _ _ (fun g hmem => ?_) (fun k => ?_)
      · simp only [Dev.grantOf, hg, ne_eq, List.find?_eq_none, not_forall]
        exact ⟨g, List.mem_append_left _ hmem, by simp⟩
      · have hdom : (s.dev.request cls prio amount holder 0).domain k = s.dev.domain k := by
          simp only [Dev.domain, hg, request_module]
        exact hdom.trans_ne (hr k)
    obtain ⟨-, -, hpow, -⟩ := onServe_frame (s := s) (f := fun d h =>
      if cls.val = 0 then (d, h) else takenGrants d.power.grants (d.request cls.val prio amount holder 0, h)) ((if_neg h0).trans hk)
      (by rw [request_net]; exact hm)
    exact (congrArg Power.grants hpow).trans (congrArg Power.grants hg)
  case renew =>
    simp [State.onDev, hg, hk]

end Sys2Proof.Machine
end

section
/-!
PROOFS. Leases, power limits, die sensors and thermal levels.
-/

namespace Sys2Proof.Machine
open Sys2Proof
set_option Elab.async false

/-- PD0 that cuts the domains loses what they held: memory, circuits and sessions. -/
theorem cutPower_loses (m : Mach) (b : Bool) : (cutPower m b).2.cells = [] ∧ (cutPower m b).1.circuits = [] ∧ (cutPower m b).1.net.sessions = [] := by
  unfold cutPower
  dsimp only
  split <;> exact ⟨rfl, rfl, rfl⟩

/-- The end of a lease of HBM_BURST stops nothing by itself. -/
theorem endEffect_burst (m : Mach) (g : Permit) (h : g.cls = 3) : endEffect m g = m := by
  simp [endEffect, h]

/-- The grant of a class and holder is theirs. -/
theorem grantOf_cls {d : Dev} {cls holder : Nat} {g : Permit} (h : d.grantOf cls holder = some g) : g.cls = cls ∧ g.holder = holder := by
  simpa using List.find?_some h

/-- The lease of a holder of HBM_BURST ends. -/
def burstEnds (d : Dev) (g : Permit) : Dev := ((d.reach g.till).permitCount 3 7).release 3 g.holder

theorem leaseEnd_frees (s : State) (holder : Nat) (g : Permit) (hg : s.dev.grantOf 3 holder = some g) (hm : s.dev.net.mailbox = []) :
    ∃ t, exec (.leaseEnd 3 holder) s = .next t ∧ t.dev.grantOf 3 holder = none ∧ g.till ≤ t.dev.now := by
  obtain ⟨hc, hh⟩ := grantOf_cls hg
  subst hh
  obtain ⟨-, -, hp, -, -, -, ht⟩ := onServe_frame (s := s) (m := (burstEnds s.dev g, s.hbm)) (f := fun d h =>
    match d.grantOf 3 g.holder with
    | none => (d, h)
    | some g' => endEffect (((d.reach g'.till).permitCount 3 7).release 3 g.holder, h) g')
    (by simp only [hg]; exact endEffect_burst _ g hc) (by simpa [burstEnds, Dev.release] using hm)
  refine ⟨_, rfl, ?_, ?_⟩
  · exact (congrArg (fun p : Power => p.grants.find? (fun x : Permit => x.cls == 3 && x.holder == g.holder)) hp).trans (release_grantOf _ 3 g.holder)
  · have hnow : (burstEnds s.dev g).now = max s.dev.now g.till := by
      rw [← reach_now]
      simp [burstEnds, Dev.now, Dev.release]
    exact (Nat.le_max_right s.dev.now g.till).trans_eq (hnow.symm.trans (congrArg (fun t : Time => t.counter / 2 ^ 32) ht).symm)

/-- The device once its input power has passed the limit: the reading, its peak and the count. -/
def passed (d : Dev) (mw : Nat) : Dev :=
  let d := ({ d with power := { d.power with inputPower := mw } }).setNum 0x2102 2 (max (d.nat 0x2102 2) mw : Nat)
  { d.bump 0x2102 4 with power := { d.power with overLimit := true } }

/-- The limit is passed: the grants of HBM_BURST are revoked. -/
theorem overLimit_revokes (d : Dev) (h : Hbm) : ∀ r, r = revokeAll (d, h) (fun g => g.cls = 3) →
    r.1.power.overLimit = d.power.overLimit ∧ r.1.power.inputPower = d.power.inputPower ∧ r.1.net = d.net ∧ r.2 = h := by
  rintro r rfl
  exact revoke3 _ (d, h) (fun g hg => by simpa using (List.mem_filter.mp hg).2)

/-- The domains that go off at S, in their order (Table 14.6). -/
theorem thermalFault_eq (m : Mach) (a : Nat) (h : m.1.power.shutAt = some a) : thermalFault m =
    domainsDown ((if m.1.inState [.boot] then m.1 else (m.1.reach (faultInstant a)).enterFault .thermal).settleLogs, m.2)
      [11, 10, 9, 14, 13, 12, 7, 6, 5, 4] := by
  simp only [thermalFault, h]
  rfl

/-- A sample below every threshold, in NORMAL, is kept and moves nothing else. -/
theorem dieSample_normal (m : Mach) (temps : List Int) (hl : m.1.power.level = .normal) (ht : (hottest temps).2 < 950)
    (hs : m.1.power.startHeld = false) : (dieSample m temps).1.power.temps = temps ∧ (dieSample m temps).1.power.level = .normal ∧
      (dieSample m temps).1.power.above = [0, 0, 0] ∧ (dieSample m temps).1.net = m.1.net ∧ (dieSample m temps).2 = m.2 := by
  have h1 : ¬(950 ≤ (hottest temps).2) := by omega
  have h2 : ¬(1050 ≤ (hottest temps).2) := by omega
  have h3 : ¬(1150 ≤ (hottest temps).2) := by omega
  simp [dieSample, h1, h2, h3, hl, hs, runOf, Power.levelNow, Therm.ofCode]

/-- Settles O8: the leases and the limits by the grants that they end, the levels by the domains that they take down. -/
theorem powerHeat : Obligations.PowerHeat := by
  unfold Obligations.PowerHeat
  refine ⟨fun s holder g hg hm => leaseEnd_frees s holder g hg hm, fun s mw ho hm => ⟨_, rfl, ?overLimit⟩, fun s mw => ⟨_, rfl, rfl, rfl, rfl⟩,
    fun s temps h0 => ⟨_, rfl, ?sample⟩, fun s temps h0 hl ht hs hm => ⟨_, rfl, ?normal⟩, fun s a ha hb => ⟨_, rfl, ?fault⟩,
    fun s a m ha hb hm => ⟨_, rfl, ?deadline⟩, fun s a h1 h15 hf ha => ⟨_, rfl, ?flash⟩,
    fun s sensor temp => ⟨_, rfl, rfl, rfl, rfl, rfl, ?trip⟩, fun s straps ref a hc hd ht hn hdown => ⟨_, rfl, ?restart⟩⟩
  case overLimit =>
    have hx := overLimit_revokes (passed s.dev mw) s.hbm _ rfl
    obtain ⟨h1, h2, h3, h4⟩ := hx
    obtain ⟨hh, -, hp, -⟩ := onServe_frame (s := s) (f := fun d h =>
        let d := ({ d with power := { d.power with inputPower := mw } }).setNum 0x2102 2 (max (d.nat 0x2102 2) mw : Nat)
        if d.power.overLimit then (d, h) else revokeAll ({ d.bump 0x2102 4 with power := { d.power with overLimit := true } }, h) (fun g => g.cls = 3))
      (by simp only [setNum_power, ho]; rfl) (h3 ▸ hm)
    exact ⟨(congrArg Power.overLimit hp).trans h1, (congrArg Power.inputPower hp).trans h2, hh.trans h4⟩
  case sample => simp only [State.onServe, State.onMem, h0, if_true]
  case normal =>
    obtain ⟨h1, h2, h3, h4, h5⟩ := dieSample_normal (s.dev, s.hbm) temps hl ht hs
    obtain ⟨hh, -, hp, -⟩ := onServe_frame (s := s) (f := fun d h => if d.isOn 0 then dieSample (d, h) temps else (d, h)) (if_pos h0) (h4 ▸ hm)
    rw [← hp] at h1 h2 h3
    exact ⟨h1, h2, h3, hh.trans h5⟩
  case fault =>
    simp only [State.onMem, thermalFault_eq (s.dev, s.hbm) a ha, hb, Bool.false_eq_true, if_false]
  case deadline =>
    rw [hm]
    simp only [State.onMem, ha, thermalFault_eq (s.dev, s.hbm) a ha, hb, if_true]
  case flash => simp [State.onMem, h1, h15, hf, ha]
  case trip => exact (cutPower_loses (s.dev, s.hbm) false).1
  case restart =>
    have hgo : (s.dev.power.shutDone && !s.dev.power.tripLatched && s.dev.committedNum 0x2130 7 != 0 && s.dev.down) = true := by simp [hd, ht, hn, hdown]
    obtain ⟨-, -, hs, -, hk, hu, -⟩ := coldStart_facts (s.dev.reach (a + 60 * Config.sec), s.hbm) straps ref .thermal
    simp only [State.onMem, hc, hgo, if_true]
    exact ⟨hs, hk, hu⟩

end Sys2Proof.Machine
end

section
/-!
PROOFS. EtherCAT states, mailbox answers and time-outs.
-/

namespace Sys2Proof.Machine
open Sys2Proof
set_option Elab.async false

/-! ### Answers -/

/-- What was sent before an empty mailbox is served stays sent. -/
theorem serve_out (m : Mach) (h : m.1.net.mailbox = []) : ∀ x ∈ m.1.out, x ∈ (serve m).1.out := by
  intro x hx
  obtain ⟨n, o, hf, -, -, -, -, -, -, -, ho⟩ := flush_form m.1
  rcases (serve_idle m h).2 with e | e
  · rw [e]
    exact hx
  · rw [e, hf]
    exact ho x hx

/-- An answer that was owed leaves, and with an empty mailbox nothing else follows but emergencies. -/
theorem finish_answers (m : Mach) (o : Output) (h : m.1.net.mailbox = []) : (finish m o).2 = m.2 ∧ (finish m o).1.net.waiting = none ∧
    o ∈ (finish m o).1.out ∧ (finish m o).1.od = m.1.od := by
  have hm : (({ m.1 with net := { m.1.net with waiting := none } } : Dev).emit o, m.2).1.net.mailbox = [] := h
  obtain ⟨-, -, -, ho, -, -, hw⟩ := serve_frame _ hm
  exact ⟨(serve_idle _ hm).1, hw, serve_out _ hm o List.mem_cons_self, ho⟩

/-- A read of several subindices past its checks, its words of the store SRAM and its pages of the logs. -/
theorem handleRead_data (d : Dev) (h : Hbm) (c : Client) (complete : Bool) (index sub : Nat) (e f : Dev) (hc : complete = true → sub ≤ 1)
    (hr : ∀ k ∈ writeSubs index sub complete, d.refusesRead c index k = none ∧ subExists index k = true ∧
      (∀ r, objRow index k = some r → r.access ≠ .wo)) (hi : indexExists index = true)
    (hs : (writeSubs index sub complete).foldl (fun (r : Dev × Bool) k =>
      ((r.1.readStore (objKey index k)).1, r.2 || (r.1.readStore (objKey index k)).2)) (d, false) = (e, false))
    (hl : e.readLogPages c index (writeSubs index sub complete) = (f, true)) : handleRead (d, h) c index sub complete =
      ((readSubs (f, h) c index (writeSubs index sub complete)).1, .data (readSubs (f, h) c index (writeSubs index sub complete)).2) := by
  have h1 : (complete && decide (1 < sub)) = false := by
    cases complete
    · rfl
    · simpa using hc rfl
  have h2 : (writeSubs index sub complete).findSome? (fun k => d.refusesRead c index k) = none :=
    List.findSome?_eq_none_iff.mpr fun k hk => (hr k hk).1
  have h3 : (writeSubs index sub complete).any (fun k => !subExists index k) = false := by
    simpa using fun k hk => (hr k hk).2.1
  have h4 : (writeSubs index sub complete).any (fun k => match objRow index k with | some r => r.access == .wo | none => false) = false := by
    rw [List.any_eq_false]
    intro k hk
    have := (hr k hk).2.2
    split
    · simpa using this _ ‹_›
    · simp
  simp only [handleRead, h1, h2, h3, hi, hs, hl, Bool.not_true, Bool.false_eq_true, if_false]
  exact if_neg (Bool.eq_false_iff.mp h4)

/-! ### Sessions -/

/-- The session of a client that ends is gone. -/
theorem endSession_session (d : Dev) (c : Client) : (d.endSession c).session c = none := by
  unfold Dev.endSession
  split
  · assumption
  · simp [Dev.session, Dev.setSessions, List.find?_eq_none]

@[simp] theorem endSession_time (d : Dev) (c : Client) : (d.endSession c).time = d.time := by
  unfold Dev.endSession
  split
  · rfl
  · simp [Dev.setSessions]

/-- Time that has gone on past an instant. -/
theorem le_reach_now (d : Dev) (t : Nat) : t ≤ (d.reach t).now := (Nat.le_max_right _ _).trans_eq (reach_now d t).symm

/-- Settles O16: the requests by their handlers, the states and the time-outs by the operation that each is. -/
theorem networkStates : Obligations.NetworkStates := by
  unfold Obligations.NetworkStates
  refine ⟨fun s x hx => ⟨_, rfl, rfl, ?timeout⟩, fun s c hr => ⟨_, rfl, ?list⟩, fun s c complete index sub d e hr hc hk hi hs hl hm hw => ⟨_, rfl, ?upload⟩,
    fun s c p hr hp => ⟨_, rfl, ?unsupported⟩, fun s c hr => ⟨_, rfl, ?coe⟩, fun s c index sub begun cause hw hm => ⟨_, rfl, ?refusal⟩,
    fun s hc => ⟨_, rfl, ?init⟩, fun s he hf => ⟨_, rfl, rfl, ?preOp⟩, fun s cycle he hf => ⟨_, rfl, rfl, ?safeOp⟩,
    fun s he => ⟨_, rfl, rfl, ?op⟩, fun s hb => ⟨_, rfl, rfl, ?boot⟩, fun s he => ⟨_, rfl, rfl, ?watchdog⟩,
    fun s dc hd => ⟨_, rfl, rfl, ?sync⟩, fun s c x hx => ⟨_, rfl, rfl, ?challenge⟩, fun s c x hx => ⟨_, rfl, rfl, ?idle⟩,
    fun s => ⟨_, rfl, rfl, rfl, rfl, rfl⟩, fun s data he => ⟨_, rfl, rfl, ?outputs⟩⟩
  case timeout =>
    simp only [State.onDev, hx]
    refine ⟨by simp [Dev.emit], ?_, ?_⟩
    · simp [Dev.dropTransfer]
    · exact (le_reach_now s.dev (x.lastAt + Config.sec)).trans_eq (by simp [Dev.now, Dev.dropTransfer])
  case list =>
    obtain ⟨hm, hw⟩ := asked_net s c hr
    obtain ⟨hh, n, o, hd, -, -, -, -, ho⟩ := request_answer s (.info c .list 0 0) hr (ready_takes s _ hr) (s.asked c) s.hbm
      (.data (leList 2 (allIndices.filter ((s.asked c).mayList c)))) _ rfl ⟨by simp, by simp⟩ rfl hm hw
    exact ⟨hh, by rw [hd]; exact ho⟩
  case upload =>
    obtain ⟨-, n, o, hd, -, -, -, -, ho⟩ := request_answer s (.info c (.upload complete) index sub) hr (ready_takes s _ hr) _ _ _ _
      (handleRead_data (s.asked c) s.hbm c complete index sub d e hc hk hi hs hl) ⟨by simp, by simp⟩ rfl hm hw
    rw [hd]
    exact ho
  case unsupported =>
    obtain ⟨hm, hw⟩ := asked_net s c hr
    obtain ⟨hh, n, o, hd, -, -, -, -, ho⟩ := request_answer s (.unsupported c p) hr (ready_takes s _ hr) (s.asked c) s.hbm .ok
      (.mailboxError c 2) rfl ⟨by simp, by simp⟩ (by simp [Req.output, hp]) hm hw
    exact ⟨hh, by rw [hd]; exact ho⟩
  case coe =>
    obtain ⟨hm, hw⟩ := asked_net s c hr
    obtain ⟨hh, n, o, hd, -, -, -, -, ho⟩ := request_answer s (.unsupported c 3) hr (ready_takes s _ hr) (s.asked c) s.hbm .ok
      (.abort c 0 0 0x05040001) rfl ⟨by simp, by simp⟩ rfl hm hw
    exact ⟨hh, by rw [hd]; exact ho⟩
  case refusal =>
    obtain ⟨h1, h2, h3, h4⟩ := finish_answers (((s.dev.reach (begun + Config.refusalDelay)).bump 0x2030 1).secret 0x0D01 c [BitVec.ofNat 8 cause], s.hbm)
      (.abort c index sub 0x06010000) (by simpa using hm)
    simp only [State.onMem, hw, Bool.false_eq_true, if_false]
    exact ⟨h1, h2, h3, by simp only [Dev.nat, Dev.num, h4]⟩
  case init =>
    have hu : s.dev.toInit.upd.coldOnInit = false := by simpa [Dev.toInit, Dev.enterEcat, Dev.endMailbox, Dev.stopData] using hc
    simp only [State.onMem, hu, Bool.false_eq_true, if_false]
    simp [Dev.toInit, Dev.enterEcat, Dev.endMailbox]
  case preOp => simp [State.onDev, he, hf, Dev.enterEcat]
  case safeOp => simp [State.onDev, he, hf, Dev.enterEcat]
  case op => simp [State.onDev, he, Dev.enterEcat]
  case boot => simp [State.onDev, hb, Dev.enterEcat, Dev.endMailbox]
  case watchdog => simp [State.onDev, he, Dev.enterEcat, Dev.alStatus]
  case sync =>
    have h1 : ((s.dev.setNum 0x2270 1 (s.dev.now : Nat)).setNum 0x2270 2 (dc % 2 ^ 64 : Nat)).num 0x2270 1 = s.dev.now :=
      (setNum_num_other _ _ _ _ (by decide)).trans (setNum_num _ _ _ _)
    simp only [State.onDev, hd, Bool.not_true, Bool.false_eq_true, if_false]
    exact ⟨rfl, h1, setNum_num _ _ _ _⟩
  case challenge =>
    simp only [State.onDev, hx]
    exact ⟨by simp [Dev.consume], le_reach_now s.dev _⟩
  case idle =>
    simp only [State.onDev, hx]
    refine ⟨endSession_session _ c, (le_reach_now s.dev _).trans_eq ?_⟩
    simp only [Dev.now, endSession_time]
  case outputs => simp [State.onDev, he]

end Sys2Proof.Machine
end

section
/-!
PROOFS. Confirmations of stored items and copies to the twin.
-/

namespace Sys2Proof.Machine
open Sys2Proof
set_option Elab.async false

/-- A command on device and memory leaves what its operation makes of them. -/
theorem onMem_eq {s : State} {f : Dev → Hbm → Mach} {m : Mach} (h : f s.dev s.hbm = m) : ((s.onMem f).dev, (s.onMem f).hbm) = m := h

/-- The same, taken apart. -/
theorem onMem_parts {s : State} {f : Dev → Hbm → Mach} {d : Dev} {h : Hbm} (hf : f s.dev s.hbm = (d, h)) :
    (s.onMem f).dev = d ∧ (s.onMem f).hbm = h := by
  simp only [State.onMem, hf, and_self]

/-- Settles O17: each clause is the branch of its command that its conditions lead to. -/
theorem storeCommands : Obligations.StoreCommands := by
  unfold Obligations.StoreCommands
  refine ⟨fun s e he => ⟨_, rfl, onMem_eq ?timeout⟩, fun s c index sub hw hr => ⟨_, rfl, onMem_eq ?written⟩,
    fun s c index sub hw => ⟨_, rfl, onMem_eq ?failed⟩, fun s hw => ⟨_, rfl, onMem_parts ?settings⟩,
    fun s c index sub hw hp => ⟨_, rfl, onMem_eq ?answered⟩, fun s m hj hi => ⟨_, rfl, onMem_parts ?part⟩,
    fun s m hj hi => ⟨_, rfl, onMem_eq ?confirmed⟩, fun s m hj hi hf ho ht => ⟨_, rfl, ?summary⟩⟩
  case timeout => simp only [he]
  case written => simp [hw, hr]
  case failed => simp [hw]
  case settings =>
    split
    · exact absurd ‹_› (hw _ _ _)
    · rfl
  case answered =>
    simp only [hw]
    cases hb : s.dev.settingsPoisoned with
    | true => rfl
    | false => simp [settingsAnswered, hw, hp.resolve_left (by simp [hb])]
  case part =>
    have h10 : m.item ≠ 10 := by omega
    have hin : 1 ≤ m.item ∧ m.item ≤ 12 := by omega
    simp [hj, h10, hin]
  case confirmed => simp [hj, hi]
  case summary =>
    obtain ⟨hd, hh⟩ := onMem_parts (s := s) (f := fun d h =>
      if !d.joined then (d, h)
      else if m.item = 10 then storeAnswered (d.confirmed (fld m.data 0 1) (fld m.data 4 4) (fld m.data 8 8), h)
      else if 1 ≤ m.item && m.item ≤ 12 then (d.storePart m, h)
      else (d.linkViolation 38, h)) (d := s.dev.storePart m) (h := s.hbm) (by simp [hj, hi])
    refine ⟨hh, hd.trans ?_⟩
    have h0 : (3 : Nat).testBit 0 = true := rfl
    have h1 : (3 : Nat).testBit 1 = true := rfl
    have h2 : (3 : Nat).testBit 2 = false := rfl
    simp [Dev.storePart, hf, h0, h1, h2, ho, ht, Dev.storeItem, hi]

end Sys2Proof.Machine
end

section
/-!
PROOFS. The control cycle, the heater trigger and strobes.
-/

namespace Sys2Proof.Machine
open Sys2Proof
set_option Elab.async false

/-- A command on the device alone leaves what its operation makes of it. -/
theorem onDev_eq {s : State} {f : Dev → Dev} {e : Dev} (h : f s.dev = e) : (s.onDev f).dev = e := h

/-- Settles O18: each clause is the branch of its command that its conditions lead to; an echo rewrites the delays on the latency that it has
just stored. -/
theorem cycleCommands : Obligations.CycleCommands := by
  unfold Obligations.CycleCommands
  refine ⟨fun s h3 => ⟨_, rfl, ?start⟩, fun s hp => ⟨_, rfl, rfl, onDev_eq ?latch⟩, fun s late peaks poison hp => ⟨_, rfl, rfl, onDev_eq (if_neg hp)⟩,
    fun s d h3 hd hj => ⟨_, rfl, rfl, onDev_eq ?drive⟩, fun s d h3 hd hj => ⟨_, rfl, rfl, onDev_eq ?follow⟩, fun s h3 => ⟨_, rfl, rfl⟩,
    fun s z pods tag h3 => ⟨_, rfl, rfl, onDev_eq (if_pos h3)⟩, fun s j h3 => ⟨_, rfl, rfl, onDev_eq (if_pos h3)⟩,
    fun s j h8 h3 hr => ⟨_, rfl, rfl, onDev_eq (if_pos (by simp [h8, h3, hr]))⟩, fun s q rtt => ⟨_, rfl, rfl, _, rfl, ?echo⟩⟩
  case start => simp only [State.onServe, State.onMem, h3, if_true]
  case latch => simp [hp]
  case drive =>
    simp only [h3, ← hd, Bool.not_true, Bool.false_eq_true, if_false]
    exact if_pos hj
  case follow =>
    simp only [h3, ← hd, Bool.not_true, Bool.false_eq_true, if_false]
    exact if_neg (Bool.eq_false_iff.mp hj)
  case echo => exact setNum_num s.dev _ _ _

end Sys2Proof.Machine
end

section
/-!
PROOFS. The exchange of Array time, Orbit definitions, and the pulse per second.
-/

namespace Sys2Proof.Machine
open Sys2Proof
set_option Elab.async false

/-- A BOOL object just written reads as written. -/
@[simp] theorem setFlag_flag (d : Dev) (i k : Nat) (b : Bool) : (d.setFlag i k b).flag i k = b := by
  unfold Dev.flag Dev.setFlag
  rw [setNum_num]
  cases b <;> rfl

/-- A change of the time's part changes no object. -/
@[simp] theorem modTime_flag (d : Dev) (f : Time → Time) (i k : Nat) : (d.modTime f).flag i k = d.flag i k := rfl

/-- Settles O19: each clause is the branch of its command that its conditions lead to; an answer moves the counter to its fourth time stamp and
drops the request that it answers. -/
theorem timeTransfer : Obligations.TimeTransfer := by
  unfold Obligations.TimeTransfer
  refine ⟨fun s h3 hr => ⟨_, rfl, rfl, onDev_eq ?next⟩, fun s port seq flags twin sender t2 residence h3 hn hc ht hf => ⟨_, rfl, rfl, onDev_eq ?req⟩,
    fun s port seq flags depth leader utc t2 t3 t4 o r h3 hp hr hlate => ⟨_, rfl, rfl, ?late⟩,
    fun s port seq flags depth leader utc t2 t3 t4 o r h3 hp hr hin => ⟨_, rfl, rfl, ?inTime⟩,
    fun s hs => ⟨_, rfl, rfl, onDev_eq (if_pos (by simp [hs]))⟩, fun s n hn hs => ⟨_, rfl, rfl, ?none⟩,
    fun s n k hn hs hr hc hq => ⟨_, rfl, rfl, ?step⟩, fun s hne => ⟨_, rfl, rfl, onDev_eq (if_neg (by simp [hne]))⟩, fun s => ⟨_, rfl, rfl, rfl⟩⟩
  case next => exact if_pos (by simp [h3, hr])
  case req =>
    have heard : (!s.dev.isOn 3 || (s.dev.neighbour port).status != .confirmed || (s.dev.neighbour port).chip != sender ||
        (s.dev.neighbour port).twin != twin) = false := by simp [h3, hn, hc, ht]
    simp only [heard, hf, Bool.false_eq_true, if_false]
  case late =>
    have mine : (!s.dev.isOn 3 || s.dev.time.parent != some port.val) = false := by simp [h3, hp]
    simp only [State.onDev, mine, Bool.false_eq_true, if_false, hr, hlate, if_true]
    exact ⟨rfl, rfl⟩
  case inTime =>
    have mine : (!s.dev.isOn 3 || s.dev.time.parent != some port.val) = false := by simp [h3, hp]
    simp only [State.onDev, mine, Bool.false_eq_true, if_false, hr, if_neg (Nat.not_lt.mpr hin)]
    exact ⟨_, rfl, rfl, rfl⟩
  case none =>
    have kept : ((s.dev.reach (n + 100 * Config.ms)).modTime (fun x => { x with notice := none })).time.selected = none := hs
    simp only [State.onDev, hn, kept]
    exact ⟨rfl, le_reach_now _ _, rfl⟩
  case step =>
    have due : (s.dev.time.isRoot && ((s.dev.reach (n + 100 * Config.ms)).modTime (fun x => { x with notice := none })).clearSince n &&
        (s.dev.ptp k).state == .qualified) = true := by simp [hr, hc, hq]
    have kept : ((s.dev.reach (n + 100 * Config.ms)).modTime (fun x => { x with notice := none })).time.selected = some k := hs
    simp only [State.onDev, hn, kept]
    exact ⟨(congrArg (fun e : Dev => e.time.notice) (if_pos due)).trans rfl, (congrArg (fun e : Dev => e.time.stepDue) (if_pos due)).trans rfl⟩

/-- What a command on the device alone answers, by what its operation makes of the device. -/
theorem next_onDev {s : State} {f : Dev → Dev} {e : Dev} (h : f s.dev = e) :
    (Host.Outcome.next (s.onDev f) : Host.Outcome State Fault Refusal) = .next { s with dev := e } :=
  congrArg (fun x : Dev => Host.Outcome.next { s with dev := x }) h

/-- A pulse that is read: PPS_IN_PRESENT is set, and its instant and the counter are kept. -/
theorem pulse_stored (d : Dev) (stamp at_ : Nat) (v : Int) :
    (((((d.reachStamp stamp).setNum 0x2260 1 v).setFlag 0x2260 2 true).modTime (fun t => { t with ppsAt := some at_ })).flag 0x2260 2 = true) ∧
    ((((d.reachStamp stamp).setNum 0x2260 1 v).setFlag 0x2260 2 true).modTime (fun t => { t with ppsAt := some at_ })).time.ppsAt = some at_ ∧
    ((((d.reachStamp stamp).setNum 0x2260 1 v).setFlag 0x2260 2 true).modTime (fun t => { t with ppsAt := some at_ })).time.counter =
      max d.time.counter stamp :=
  ⟨by rw [modTime_flag, setFlag_flag], rfl, rfl⟩

/-- Settles O20: each clause is the branch of its command that its conditions lead to. -/
theorem precisionTime : Obligations.PrecisionTime := by
  unfold Obligations.PrecisionTime
  refine ⟨fun s k gm interval t1 t2 corr h3 hg hi => ⟨_, rfl, rfl, onDev_eq ?twoStep⟩,
    fun s k gm interval t1 t2 corr h3 hg hi => ⟨_, rfl, rfl, onDev_eq ?oneStep⟩, fun s k t1 corr p hp => ⟨_, rfl, rfl, onDev_eq ?follow⟩,
    fun s k a h3 hd hc ht hsel => ⟨_, rfl, rfl, onDev_eq ?announce⟩, fun s k a ht => ⟨_, rfl, rfl, onDev_eq (if_pos (by simp [ht]))⟩,
    fun s k h3 hd => ⟨_, rfl, rfl, _, rfl, onDev_eq (if_neg (by simp [h3, hd]))⟩,
    fun s k t4 corr interval t3 y hr hy => ⟨_, rfl, rfl, onDev_eq ?resp⟩, fun s port k t2 residence h3 hk => ⟨_, rfl, rfl, onDev_eq ?peerReq⟩,
    fun s k t2 t3 t4 corr t1 hr => ⟨_, rfl, rfl, onDev_eq ?peerResp⟩, fun s stamp h3 => ⟨_, next_onDev (if_neg (by simp [h3])), rfl, pulse_stored _ _ _ _⟩,
    fun s h3 hf => ⟨_, rfl, rfl, ?ppsOut⟩, fun s n hn => ⟨_, rfl, rfl, ?gone⟩⟩
  case twoStep => simp [h3, hg, hi]
  case oneStep => simp [h3, hg, hi]
  case follow => simp only [hp]
  case announce =>
    have taken : (!s.dev.isOn 3 || (s.dev.ptp k).state == .disabled || a.poison || !(s.dev.ptp k).takes a s.dev.now) = false := by
      simp [h3, hd, hc, ht]
    have sel : ∀ f g : Ptp → Ptp, ((((s.dev.modPtp k f).modPtp k g).ptpCheck k).time.selected == some k.val) = false :=
      fun f g => beq_eq_false_iff_ne.mpr hsel
    simp only [taken, sel, Bool.false_eq_true, if_false]
  case resp => simp only [hr, hy, Bool.false_eq_true, if_false]
  case peerReq => simp only [hk, h3, Bool.not_true, Bool.false_eq_true, if_false]
  case peerResp => simp only [hr]
  case ppsOut =>
    have drives : (s.dev.reach ((s.dev.now / Config.sec + 1) * Config.sec)).flag 0x2260 3 = true := hf
    simp only [State.onDev, h3, drives, Bool.not_true, Bool.false_eq_true, if_false, if_true]
    exact ⟨rfl, List.mem_cons_self⟩
  case gone =>
    simp only [State.onDev, hn, modTime_flag, setFlag_flag, modTime_time, true_and]
    exact le_reach_now _ _

end Sys2Proof.Machine
end

section
/-!
PROOFS. Frames of the driver boards and their adoption.
-/

namespace Sys2Proof.Machine
open Sys2Proof
set_option Elab.async false

section
variable (d : Dev) (b : Nat)

/-- The lanes that are up are an object, no part of a board. -/
@[simp] theorem lanesUp_board (lanes k : Nat) : (d.lanesUp b lanes).board k = d.board k := rfl

/-- A board is in the state that it was just given, as it was otherwise. -/
@[simp] theorem setBoard_board (x : BState) : (d.setBoard b x).board b = { d.board b with state := x } := modBoard_board d b _

/-- A frame to a board counts in its record and leaves its state and whether it is discovered. -/
theorem sendBoard_board (hold : Bool) (outs : List (Nat × Int)) :
    ((d.sendBoard b hold outs).board b).state = (d.board b).state ∧ ((d.sendBoard b hold outs).board b).discovered = (d.board b).discovered := by
  unfold Dev.sendBoard
  have frame : ∀ (e : Dev) (o : Output), (e.emit o).board b = e.board b := fun _ _ => rfl
  rw [frame, modBoard_board]
  exact ⟨rfl, rfl⟩

/-- A board that reports itself is discovered, and adopting begins where it was absent or in fault. -/
theorem identified_board (e : Dev) (h : (d.board b).discovered = true) (same : (d.board b).state = (e.board b).state) :
    let t := if (d.board b).state == .absent || (d.board b).state == .fault then
      ((d.setBoard b .adopting).modBoard b (fun y => { y with holdFrames := 0, missed := 0 })).sendBoard b true [] else d
    (t.board b).discovered = true ∧ ((e.board b).state = .absent ∨ (e.board b).state = .fault → (t.board b).state = .adopting) := by
  intro t
  by_cases gone : ((d.board b).state == .absent || (d.board b).state == .fault) = true
  · obtain ⟨state, found⟩ := sendBoard_board ((d.setBoard b .adopting).modBoard b (fun y => { y with holdFrames := 0, missed := 0 })) b true []
    simp only [t, gone, if_true, state, found, modBoard_board, setBoard_board, h, implies_true, and_self]
  · rw [show t = d from if_neg gone]
    refine ⟨h, fun lost => ?_⟩
    rw [← same] at lost
    rcases lost with lost | lost <;> simp [lost] at gone

/-- A board that is lost from the chain is not discovered, has nothing queued, and is not in service. -/
theorem lost_board (h : (d.board b).discovered = false) (q : (d.board b).queued = none) :
    let t := match (d.board b).state with
      | .absent => d
      | .drained => d.setBoard b .absent
      | _ => d.setBoard b .fault
    (t.board b).discovered = false ∧ (t.board b).queued = none ∧ (t.board b).state ≠ .inService := by
  cases hs : (d.board b).state <;> simp [h, q, hs]

end

/-- Settles O21: a frame of a board is looked at only where the board is there and served; a board's identity and its loss are read from its
record. -/
theorem boardFrames : Obligations.BoardFrames := by
  unfold Obligations.BoardFrames
  refine ⟨fun s b f ha hf h8 hs hc hb => ⟨_, rfl, rfl, onDev_eq ?sensor⟩, fun s b f ha hf h8 hs hc => ⟨_, rfl, rfl, onDev_eq ?badCrc⟩,
    fun s b f hno => ⟨_, rfl, rfl, onDev_eq (if_pos ?unheard)⟩,
    fun s b board seq cycle twin outs crcOk ht hc => ⟨_, rfl, rfl, onDev_eq (if_pos (by simp [ht, hc]))⟩,
    fun s b board seq cycle twin outs crcOk hno => ⟨_, rfl, rfl, onDev_eq (if_neg ?missed)⟩,
    fun s b board seq cycle twin crcOk ht hc => ⟨_, rfl, rfl, onDev_eq (if_pos (by simp [ht, hc]))⟩,
    fun s b board lanes serial firmware hv crcOk hc h8 hd hb => ⟨_, rfl, rfl, onDev_eq ?miswired⟩,
    fun s b board lanes serial firmware hv crcOk hc h8 hd hb => ⟨_, next_onDev ((if_neg (by simp [hc, h8, hd])).trans (if_neg (by simp [hb]))), rfl, ?identity⟩,
    fun s b => ⟨_, rfl, rfl, ?lost⟩, fun s hd hs hr ht => ⟨_, rfl, rfl, _, rfl, onDev_eq ?adopt⟩⟩
  case sensor => simp [ha, hf, h8, hs, hc, hb]
  case badCrc => simp [ha, hf, h8, hs, hc]
  case unheard => rcases hno with h | h | h <;> simp [h]
  case missed => rcases hno with h | h <;> simp [h]
  case miswired => simp [hc, h8, hd, hb]
  case identity => exact identified_board _ _ s.dev (by simp) (by simp; rfl)
  case lost => exact lost_board _ _ (by simp) (by simp)
  case adopt =>
    unfold Dev.adoption
    simp only [hd, hs, hr, ht, Bool.not_true, Bool.or_false, Bool.false_eq_true, if_false]
    cases s.dev.twin.newest <;> rfl

end Sys2Proof.Machine
end

section
/-!
PROOFS. Trajectories, stops, pilots, searches and autotunes.
-/

namespace Sys2Proof.Machine
open Sys2Proof
set_option Elab.async false

/-- Settles O22: each clause is the branch of its operation that its conditions lead to. -/
theorem axisCommands : Obligations.AxisCommands := by
  unfold Obligations.AxisCommands
  refine ⟨fun s a m r hm ht hc hs => ⟨_, rfl, rfl, onDev_eq ?slewed⟩, fun s a m hm ht hc => ⟨_, rfl, rfl, onDev_eq ?stopped⟩,
    fun s h comet ex ey level poison hl hp hr hn ha hg => ⟨_, rfl, rfl, _, rfl, onDev_eq ?pilot⟩,
    fun s h comet ex ey level loOk poison hp hg => ⟨_, rfl, rfl, onDev_eq ?noSlot⟩, fun s h ht => ⟨_, rfl, rfl, onDev_eq ?untracked⟩,
    fun s h _ => ⟨_, rfl, rfl, rfl⟩, fun s h x hx hc hr => ⟨_, rfl, rfl, onDev_eq ?searched⟩,
    fun s h x c hx hc => ⟨_, rfl, rfl, onDev_eq ?comet⟩, fun s north plane x c _ _ => ⟨_, rfl, rfl, rfl⟩,
    fun s h n hn => ⟨_, rfl, rfl, onDev_eq ?opened⟩, fun s a x hx hf => ⟨_, rfl, rfl, onDev_eq ?untuned⟩,
    fun s a x f _ _ => ⟨_, rfl, rfl, rfl⟩, fun s a x hx => ⟨_, rfl, rfl, onDev_eq ?timeout⟩,
    fun s n hn hc hp => ⟨_, rfl, rfl, onDev_eq ?position⟩⟩
  case slewed => simp only [Dev.trajectoryEnd, hm, ht, hc, hs]
  case stopped => simp only [Dev.stopEnd, hm, ht, hc, Option.isSome_none, Bool.false_eq_true, if_false]
  case pilot =>
    have lit : (tfind s.dev.opt.gates h == some comet) = true := beq_iff_eq.mpr hg
    have fresh : (s.dev.eng.pilots.any (fun r => r.1 == h.val)) = false := by simpa using hn
    have taken : (!s.dev.podLit (podOf (portOfHead h)) || !s.dev.pilotSlot h || (s.dev.head h).readSlot == s.dev.eng.cycle / 2 + 1 ||
        s.dev.eng.pilots.any (fun r => r.1 == h.val) || !(headAxes h).all (fun a => (s.dev.axis a).state == .acquire)) = false := by
      simp only [hl, hp, fresh, ha, beq_eq_false_iff_ne.mpr hr, Bool.not_true, Bool.or_self]
    simp only [Dev.pilotReading, lit, taken, if_true, Bool.false_eq_true, if_false]
    rfl
  case noSlot => simp [Dev.pilotReading, hp, hg]
  case untracked =>
    simp only [Dev.ditherGroup, ht, Bool.not_false, Bool.true_or, if_true]
    split <;> rfl
  case searched => simp only [Dev.searchEnd, hx, hc, hr]
  case comet => simp only [Dev.searchEnd, hx, hc]
  case opened => simp only [hn] <;> rfl
  case untuned => simp only [Dev.autotuneEnd, hx, hf]
  case timeout => simp only [Dev.tuneTimeout, hx]
  case position => simp only [hn, hc, hp, Bool.not_true, Bool.or_self, Bool.false_eq_true, if_false]

end Sys2Proof.Machine
end

section
/-!
PROOFS. Lanes lost and restored, taps, heaters and acknowledgements.
-/

namespace Sys2Proof.Machine
open Sys2Proof
set_option Elab.async false

/-- Settles O23: each clause is the branch of its command that its conditions lead to. -/
theorem laneEvents : Obligations.LaneEvents := by
  unfold Obligations.LaneEvents
  refine ⟨fun s p lanes hp => ⟨_, rfl, rfl, onDev_eq (if_pos hp)⟩, fun s p lanes hp => ⟨_, rfl, rfl, onDev_eq (if_pos hp)⟩,
    fun s p hp he hc => ⟨_, rfl, rfl, _, rfl, onDev_eq ?crossing⟩, fun s q cycle taps poison crcOk d hq hc hy hd => ⟨_, rfl, rfl, onDev_eq ?taps⟩,
    fun s q cycle taps poison crcOk hq hc => ⟨_, rfl, rfl, onDev_eq ?tapsBad⟩,
    fun s q eps powers temp poison crcOk hq hc hl => ⟨_, rfl, rfl, onDev_eq ?heater⟩,
    fun s q id applied hq => ⟨_, rfl, rfl, onDev_eq ?settled⟩, fun s q id applied hq => ⟨_, rfl, rfl, onDev_eq ?moving⟩,
    fun s q loc lane offset points r d hq hr hd hm hp => ⟨_, rfl, rfl, onDev_eq ?swept⟩,
    fun s q loc lane offset points r d hq hr hd hm hp => ⟨_, rfl, rfl, onDev_eq ?aborted⟩⟩
  case crossing => simp only [hp, he, hc, Bool.not_true, Bool.or_self, Bool.false_eq_true, if_false, List.take_nil, List.flatMap_nil]
  case taps =>
    simp only [hq, hc, hy, bne_self_eq_false, Bool.not_true, Bool.false_eq_true, if_false]
    rw [hd]
  case tapsBad => simp only [hq, hc, Bool.not_true, Bool.not_false, Bool.false_eq_true, if_false, if_true]
  case heater => simp only [hq, hc, hl, Bool.not_true, Bool.false_eq_true, if_false]
  case settled => simp only [hq, Bool.not_true, Bool.false_eq_true, if_false, if_true]
  case moving => simp only [hq, Bool.not_true, Bool.false_eq_true, if_false]
  case swept => simp only [hq, hr, ← hd, hm, hp, Bool.not_true, Bool.false_eq_true, if_false]
  case aborted => simp only [hq, hr, ← hd, hm, hp, Bool.not_true, Bool.false_eq_true, if_false, if_true]

end Sys2Proof.Machine
end

section
/-!
PROOFS. Frames to a pod, pods that come and go, and background calibration.
-/

namespace Sys2Proof.Machine
open Sys2Proof
set_option Elab.async false

/-- Settles O24: each clause is the branch of its command that its conditions lead to; a mark finds the first description with its number, and
what it skips before it counts as errors. -/
theorem podFrames : Obligations.PodFrames := by
  unfold Obligations.PodFrames
  refine ⟨fun s q w crcOk hc hw => ⟨_, rfl, rfl, onDev_eq ?bank⟩, fun s q w crcOk hc hw hi => ⟨_, rfl, rfl, onDev_eq ?junction⟩,
    fun s q crcOk hc => ⟨_, rfl, rfl, onDev_eq ?noWrite⟩, fun s q writes crcOk hc => ⟨_, rfl, rfl, onDev_eq (if_pos (by simp [hc]))⟩,
    fun s q id acts crcOk hc hl => ⟨_, rfl, rfl, onDev_eq (if_neg ?desc)⟩, fun s q low hno => ⟨_, rfl, rfl, onDev_eq ?unmarked⟩,
    fun s q low e rest hd hid ha => ⟨_, rfl, rfl, _, rfl, onDev_eq ?marked⟩, fun s q codes crcOk hc => ⟨_, rfl, rfl, onDev_eq (if_neg (by simp [hc]))⟩,
    fun s q ports crcOk hc => ⟨_, rfl, rfl, onDev_eq (if_neg (by simp [hc]))⟩, fun s q delay crcOk hc => ⟨_, rfl, rfl, onDev_eq (if_neg (by simp [hc]))⟩,
    fun s q loc lane first step points crcOk hc => ⟨_, rfl, rfl, onDev_eq (if_neg (by simp [hc]))⟩,
    fun s q position hp => ⟨_, rfl, rfl, onDev_eq (if_pos hp)⟩, fun s q position hp => ⟨_, rfl, rfl, onDev_eq (if_neg hp)⟩,
    fun s q => ⟨_, rfl, rfl, rfl⟩, fun s q store r h8 hr hs hc hx hl => ⟨_, rfl, rfl, onDev_eq ?discovered⟩, fun s q storeBad => ⟨_, rfl, rfl, rfl⟩,
    fun s q h8 hoff => ⟨_, rfl, rfl, onDev_eq ?removed⟩, fun s q h8 h3 => ⟨_, rfl, rfl, onDev_eq (if_pos ?added)⟩⟩
  case bank => simp only [hc, Bool.not_true, Bool.false_eq_true, if_false, List.foldl_cons, List.foldl_nil, if_neg hw]
  case junction => simp only [hc, Bool.not_true, Bool.false_eq_true, if_false, List.foldl_cons, List.foldl_nil, hw, hi, if_true]
  case noWrite => simp only [hc, Bool.not_true, Bool.false_eq_true, if_false, List.foldl_nil]
  case desc => simp only [hc, Bool.not_true, Bool.false_or, decide_eq_true_eq]; omega
  case unmarked =>
    have skipped : (s.dev.podAt q).descs.takeWhile (fun e => e.id % 256 != low.val) = (s.dev.podAt q).descs :=
      List.takeWhile_eq_self_iff.mpr fun e he => bne_iff_ne.mpr (hno e he)
    simp only [skipped, List.drop_length]
  case marked =>
    have nothing : (e :: rest).takeWhile (fun x => x.id % 256 != low.val) = [] := by simp [hid]
    have acts : e.acts.isEmpty = false := by simp [ha]
    simp only [hd, nothing, acts, List.length_nil, List.drop_zero, Dev.podError, if_true, Bool.false_eq_true, if_false]
  case discovered =>
    have same : ((s.dev.podAt q).serial == store.serial) = true := beq_iff_eq.mpr hs
    simp only [h8, hr, same, hc, hx, hl, Bool.not_true, Bool.false_eq_true, if_false, if_true, decide_true, Bool.and_self, Bool.or_self,
      Option.isSome_some]
  case removed => simp only [Bool.false_eq_true, if_false, hoff, Bool.false_and]
  case added => exact (Bool.and_eq_true _ _).mpr ⟨h8, h3⟩

/-- Settles O25: each clause is the branch of its command that its conditions lead to. -/
theorem calibrationCommands : Obligations.CalibrationCommands := by
  unfold Obligations.CalibrationCommands
  refine ⟨fun s hd hr hf hg hl hn => ⟨_, rfl, rfl, onDev_eq ?idle⟩, fun s x hd hr hf hg hl hn => ⟨_, rfl, rfl, onDev_eq ?due⟩,
    fun s p k tag c u ht hc hu => ⟨_, rfl, rfl, onDev_eq ?live⟩, fun s p k tag u ht hc hb hu => ⟨_, rfl, rfl, onDev_eq ?bare⟩,
    fun s p k fits r hr hs hb => ⟨_, rfl, rfl, onDev_eq ?fitted⟩, fun s p k r hr hs hb => ⟨_, rfl, rfl, onDev_eq ?laneIn⟩,
    fun s p k r hr hs => ⟨_, rfl, rfl, onDev_eq ?rejoined⟩⟩
  case idle => simp only [hd, hr, hf, hg, hl, hn, List.any_nil, Bool.or_self, Bool.not_true, Bool.false_eq_true, if_false, if_true]
  case due => simp only [hd, hr, hf, hg, hl, hn, List.any_nil, Bool.or_self, Bool.not_true, Bool.false_eq_true, if_false, if_true]
  case live => simp only [ht, hc, hu]
  case bare => simp only [ht, hc, hb, hu]
  case fitted => simp only [hr, hs, hb, decide_true, Option.isNone_none, Bool.and_self, if_true]
  case laneIn => simp only [hr, hs, hb, decide_true, Option.isNone_none, Bool.and_self, if_true]
  case rejoined => simp only [hr, hs, if_true]

end Sys2Proof.Machine
end

section
/-!
PROOFS. The messages and instants of a group commit.
-/

namespace Sys2Proof.Machine
open Sys2Proof
set_option Elab.async false

section
variable {d : Dev} {port : Nat} {m : CMsg}

/-- A message that is taken and goes up acts at the root. -/
theorem passUp_root (type : Nat) (body : Bytes) (act : Dev → Dev) (h : d.hearsCommit port m) (ha : (d.seeEpoch m.epoch).acts = true)
    (hr : (d.seeEpoch m.epoch).isRootNow = true) : d.passUp port type m body act = act (d.seeEpoch m.epoch) := by
  obtain ⟨hopen, h10, hreason⟩ := h
  simp only [Dev.passUp, hopen, h10, hreason, ha, hr, Bool.not_true, Bool.or_self, Bool.false_eq_true, if_false, if_true]

/-- A message that is taken and goes up is sent on by a module that is not the root. -/
theorem passUp_between (type : Nat) (body : Bytes) (act : Dev → Dev) (h : d.hearsCommit port m) (ha : (d.seeEpoch m.epoch).acts = true)
    (hr : (d.seeEpoch m.epoch).isRootNow = false) :
    d.passUp port type m body act = (d.seeEpoch m.epoch).sendUp type 0 (commitHead m ++ body) := by
  obtain ⟨hopen, h10, hreason⟩ := h
  simp only [Dev.passUp, hopen, h10, hreason, ha, hr, Bool.not_true, Bool.or_self, Bool.false_eq_true, if_false]
  rfl

/-- A message that is taken by a module that does not act leaves only its epoch. -/
theorem passUp_silent (type : Nat) (body : Bytes) (act : Dev → Dev) (h : d.hearsCommit port m) (ha : (d.seeEpoch m.epoch).acts = false) :
    d.passUp port type m body act = d.seeEpoch m.epoch := by
  obtain ⟨hopen, h10, hreason⟩ := h
  simp only [Dev.passUp, hopen, h10, hreason, ha, Bool.not_true, Bool.not_false, Bool.or_self, Bool.false_eq_true, if_false, if_true]

/-- A message that is taken and goes down is passed on, and no more where its job is unknown. -/
theorem passDown_unknown (type : Nat) (body : Bytes) (act : Dev → Nat → Dev) (h : d.hearsCommit port m)
    (hj : (d.passedOn port type m body).jobOfTag m.tag = none) : d.passDown port type m body act = d.passedOn port type m body := by
  obtain ⟨hopen, h10, hreason⟩ := h
  simp only [Dev.passedOn, commitHead] at hj ⊢
  simp only [Dev.passDown, hopen, h10, hreason, hj, Bool.not_true, Bool.or_self, Bool.false_eq_true, if_false]

/-- A message that is taken and goes down acts on its job where the module acts. -/
theorem passDown_job (type : Nat) (body : Bytes) (act : Dev → Nat → Dev) (h : d.hearsCommit port m) {e : Dev} (he : e = d.passedOn port type m body)
    {j : Nat} (hj : e.jobOfTag m.tag = some j) (ha : e.acts = true) : d.passDown port type m body act = act e j := by
  obtain ⟨hopen, h10, hreason⟩ := h
  simp only [Dev.passedOn, commitHead] at he
  simp only [Dev.passDown, hopen, h10, hreason, ← he, hj, ha, Bool.not_true, Bool.or_self, Bool.false_eq_true, if_false, if_true]

end

/-- Settles O26: a message that is taken goes up to the root or down the tree, and acts on the job of its tag; an instant finds its group or
job in the state that its clause names. -/
theorem commitMessages : Obligations.CommitMessages := by
  unfold Obligations.CommitMessages
  refine ⟨fun s port m members ready notReady h ha hr => ⟨_, rfl, rfl, onDev_eq (passUp_root _ _ _ h ha hr)⟩,
    fun s port m members ready notReady h ha hr => ⟨_, rfl, rfl, onDev_eq (passUp_between _ _ _ h ha hr)⟩,
    fun s port m members ready notReady h ha => ⟨_, rfl, rfl, onDev_eq (passUp_silent _ _ _ h ha)⟩,
    fun s port m ack fail h ha hr => ⟨_, rfl, rfl, onDev_eq (passUp_root _ _ _ h ha hr)⟩,
    fun s port m ack fail h ha hr => ⟨_, rfl, rfl, onDev_eq (passUp_between _ _ _ h ha hr)⟩,
    fun s port m h hj => ⟨_, rfl, rfl, onDev_eq (passDown_unknown _ _ _ h hj)⟩,
    fun s port m j d h hd hj ha hz => ⟨_, rfl, rfl, onDev_eq ((passDown_job _ _ _ h hd hj ha).trans (if_pos hz))⟩,
    fun s port m h hj => ⟨_, rfl, rfl, onDev_eq (passDown_unknown _ _ _ h hj)⟩,
    fun s port m j d h hd hj ha hz hs => ⟨_, rfl, rfl, onDev_eq ((passDown_job _ _ _ h hd hj ha).trans ((if_pos hz).trans (if_pos hs)))⟩,
    fun s port m h hj => ⟨_, rfl, rfl, onDev_eq (passDown_unknown _ _ _ h hj)⟩,
    fun s port m j d h hd hj ha hz => ⟨_, rfl, rfl, onDev_eq ((passDown_job _ _ _ h hd hj ha).trans (if_pos hz))⟩,
    fun s port m h hj => ⟨_, rfl, rfl, onDev_eq (passDown_unknown _ _ _ h hj)⟩,
    fun s port m j d h hd hj ha hz hs => ⟨_, rfl, rfl, onDev_eq ((passDown_job _ _ _ h hd hj ha).trans ((if_pos hz).trans (if_pos hs)))⟩,
    fun s port m kept reverted hr ha h => ⟨_, rfl, ?outcome⟩, fun s port m kept reverted hr => ?outcomeUp,
    fun s port m step j d h ha hd hj => ⟨_, rfl, ?voidStep⟩, fun s h3 h10 => ⟨_, rfl, rfl, onDev_eq (if_pos (by simp [h3, h10]))⟩,
    fun s j hj ha => ⟨_, rfl, rfl, onDev_eq (if_neg (by simp [hj, ha]))⟩, fun s tag z hg => ⟨_, rfl, rfl, onDev_eq ?noGroup⟩,
    fun s tag z g hg hgo hh hr => ⟨_, rfl, rfl, onDev_eq ?decided⟩, fun s tag z g d hd hg hgo hc hr hj => ⟨_, rfl, rfl, onDev_eq ?guardLeader⟩,
    fun s tag z j d hd hg hj hz hs => ⟨_, rfl, rfl, onDev_eq ?guardMember⟩⟩
  case outcome =>
    obtain ⟨hopen, h10, hreason⟩ := h
    exact onMem_eq (if_pos (by simp [hr, ha, hopen, h10, hreason]))
  case outcomeUp => exact ⟨_, rfl, (onMem_parts (if_neg (ne_true_of_eq_false (by rw [hr]; rfl)))).symm⟩
  case voidStep =>
    obtain ⟨hopen, h10, hreason⟩ := h
    refine onMem_eq ?_
    simp only [← hd, hj, hopen, h10, hreason, ha, Bool.and_self, if_true]
  case noGroup => simp only [Dev.decideGroup, hg]
  case decided => simp only [Dev.decideGroup, hg, hgo, hh, hr, Bool.or_self, Bool.false_eq_true, if_false]
  case guardLeader => simp only [Dev.guardAt, ← hd, hg, hgo, hc, hr, hj, Bool.not_false, Bool.and_self, if_true]
  case guardMember => simp only [Dev.guardAt, ← hd, hg, hj, hz, hs, decide_true, Bool.and_self, if_true]

end Sys2Proof.Machine
end

section
/-!
PROOFS. Launch, Zenith, graded steps, verification and reverts.
-/

namespace Sys2Proof.Machine
open Sys2Proof
set_option Elab.async false

/-- Pages that are dropped leave the commits. -/
@[simp] theorem dropPages_arr (m : Dev × Hbm) (pages : List Nat) : (dropPages m pages).1.arr = m.1.arr := by
  unfold dropPages
  exact foldlM_arr (fun (m : Dev × Hbm) p => (m.1.unqueue _, m.2.dropPage _ _)) (fun _ _ => unqueue_arr _ _) pages m

/-- The extents that the engine frees leave the commits. -/
@[simp] theorem freeExtents_arr (m : Dev × Hbm) (j : Nat) (sel : Extent → Bool) : (freeExtents m j sel).1.arr = m.1.arr := by
  unfold freeExtents
  exact foldlM_arr _ (fun _ _ => dropPages_arr _ _) _ _

/-- A step of the engine that is void leaves the commits. -/
@[simp] theorem engineVoid_arr (m : Dev × Hbm) (j step : Nat) : (engineVoid m j step).1.arr = m.1.arr := by
  unfold engineVoid
  dsimp only
  split <;> simp

/-- A Mapen frame that is queued changes the port, the lane that carries it, and what is counted and logged. -/
theorem queueProbe_sameBut (d : Dev) (p type echo : Nat) (payload : Bytes) (again : Option Nat) :
    SameBut [.time, .opt, .disc, .mem, .faults, .recr, .od, .out] d (d.queueProbe p type echo payload again) := by
  unfold Dev.queueProbe
  extract_lets x seq f q d1
  have queued : SameBut [.disc] d d1 := .of_eq rfl
  exact .ite (.refl d) (.ite ((bump_sameBut d _ _ _).andThen (info_sameBut _ _ _ _ _)) (queued.andThen (servePort_sameBut _ _)))

/-- A frame queued for repetition leaves the commits. -/
@[simp] theorem queueRepeated_arr (d : Dev) (p type : Nat) (payload : Bytes) : (d.queueRepeated p type payload).arr = d.arr := by
  have kept : ∀ e : Dev, (e.queueProbe p type 0xFFFF payload).arr = e.arr := fun e => queueProbe_sameBut e p type _ payload none .arr (by decide)
  unfold Dev.queueRepeated
  dsimp only
  split
  · exact kept d
  · exact kept _

/-- A step's VOID to the partners leaves the commits. -/
@[simp] theorem voidStepSend_arr (d : Dev) (j step z : Nat) : (d.voidStepSend j step z).arr = d.arr := by
  unfold Dev.voidStepSend
  exact foldl_arr _ (fun _ _ => queueRepeated_arr _ _ _ _) _ _

/-- A detour that is reverted is over, with that outcome. -/
theorem revertEntry_detour {m : Dev × Hbm} {j r : Nat} (hs : (m.1.commit j).state = .reverting) (hd : (m.1.commit j).detour = some r) :
    let c := (revertEntry m j).1.commit j
    c.state = .reverted ∧ c.lastOutcome = 4 ∧ c.lastZ = (m.1.commit j).z := by
  have turned : ((m.1.commit j).state != .reverting) = false := by rw [hs]; rfl
  have ended : ∀ d e : Dev, d.arr = (e.modCommit j (fun x =>
      { x with state := .reverted, lastFlip := 0, lastOutcome := 4, lastZ := (m.1.commit j).z })).arr →
      (d.commit j).state = .reverted ∧ (d.commit j).lastOutcome = 4 ∧ (d.commit j).lastZ = (m.1.commit j).z := by
    intro d e same
    have now : d.commit j = _ := (show _ = _ by unfold Dev.commit; rw [same]).trans (modCommit_commit e j _)
    rw [now]
    exact ⟨rfl, rfl, rfl⟩
  simp only [revertEntry, turned, hd, Bool.false_eq_true, if_false]
  exact ended _ _ (by rw [engineVoid_arr, bump_arr, voidStepSend_arr])

/-- Settles O27: an instant of a commit acts only in the state that it belongs to, and each clause is its branch. -/
theorem commitInstants : Obligations.CommitInstants := by
  unfold Obligations.CommitInstants
  refine ⟨fun s j z hs hst hd ho hf hz hz0 => ⟨_, rfl, onMem_eq ?window⟩, fun s north plane waypoint c hc hw hi ha hx hsh => ⟨_, rfl, rfl, onDev_eq ?launch⟩,
    fun s j k st h3 hst hx => ⟨_, rfl, rfl, onDev_eq ?noStrobe⟩, fun s j k st x h3 _ _ => ⟨_, rfl, rfl, onDev_eq (if_pos h3)⟩,
    fun s j h3 hd hs ha => ⟨_, rfl, onMem_eq ((if_pos h3).trans ?armed)⟩,
    fun s j h3 hd hs ha => ⟨_, rfl, (onMem_parts ((if_pos h3).trans ?cancelled)).symm⟩,
    fun s j h3 hd hs => ⟨_, rfl, (onMem_parts ((if_pos h3).trans ?passed)).symm⟩,
    fun s j r h3 hd hs ha => ⟨_, rfl, onMem_eq ((if_pos h3).trans ?detour)⟩,
    fun s j k hs => ⟨_, rfl, rfl, onDev_eq (if_pos (by simp [hs]))⟩, fun s j k es hs hes h1 h6 => ⟨_, rfl, rfl, onDev_eq ?graded⟩,
    fun s j es d e hs hes hd he hn => ⟨_, rfl, rfl, onDev_eq ?last⟩, fun s j k x hx hs hm => ⟨_, rfl, rfl, onDev_eq ?complete⟩,
    fun s j k x hx hs hm hc => ⟨_, rfl, rfl, _, onDev_eq ?catchup, rfl⟩,
    fun s j es d e ports dark ok base hs hw hes hd hp hdk hok he hdt hb => ⟨_, rfl, rfl, onDev_eq ?verified⟩,
    fun s j => ⟨_, rfl, rfl, fun hs => ?unfixed⟩, fun s j r hs hd => ⟨_, rfl, revertEntry_detour hs hd⟩, fun s j => ⟨_, rfl, rfl⟩,
    fun s tag z j hj => ⟨_, rfl, rfl, onDev_eq ?reserved⟩, fun s tag z hj => ⟨_, rfl, rfl, onDev_eq ?unknown⟩,
    fun s p w hw => ⟨_, rfl, rfl, ?watch⟩⟩
  case window =>
    have opens : (!(s.dev.job j).state == .running || (s.dev.job j).stopping || !s.dev.holdsDrive || !(s.dev.commit j).over) = false := by
      simp [hs, hst, hd, ho]
    simp only [Dev.launchWindow, opens, hf, hz, hz0, Bool.false_eq_true, if_false]
  case launch =>
    refine (show _ = _ by simp only [hc]; rfl : _ = if _ then s.dev else _).trans (if_neg (by simp [hw, hi, ha, hx, hsh]))
  case noStrobe => simp only [h3, if_true, Dev.cancelLimit, hst, hx]
  case armed => simp only [zenithOfJob, hd, hs, ha, Option.isSome_none, bne_self_eq_false, Bool.false_eq_true, if_false, if_true]
  case cancelled => simp only [zenithOfJob, hd, hs, ha, Option.isSome_none, bne_self_eq_false, Bool.false_eq_true, if_false, if_true]
  case passed => simp only [zenithOfJob, hd, hs, Option.isSome_none, bne_self_eq_false, Bool.false_eq_true, if_false]
  case detour => simp only [zenithOfJob, hd, hs, ha, Option.isSome_some, bne_self_eq_false, Bool.false_eq_true, if_false, if_true]
  case graded =>
    have inSteps : ((s.dev.commit j).state != .flipping || decide (k.val = 0)) = false := by
      rw [hs, decide_eq_false (by omega)]; rfl
    simp only [Dev.gradedStep, ← hes, inSteps, if_neg (show ¬ k.val = 7 by omega), Bool.false_eq_true, if_false]
  case last =>
    have inSteps : ((s.dev.commit j).state != .flipping || decide (7 = 0)) = false := by rw [hs]; rfl
    have none : (upto 32).filter (fun n => e.opt.links.any (fun x => x.1 = 64 + n)) = [] :=
      List.filter_eq_nil_iff.mpr fun n hin => by rw [hn n hin]; exact Bool.false_ne_true
    have seven : ((7 : Fin 8) : Nat) = 7 := rfl
    have at350 : 50 * Config.us * 7 = 350 * Config.us := rfl
    dsimp only at hd
    simp only [Dev.gradedStep, ← hes, inSteps, seven, at350, Bool.false_eq_true, if_false, if_true, ← hd, ← he, none, List.foldl_nil,
      List.contains_nil]
  case complete => simp only [Dev.ackDeadline, hx, hm, List.isEmpty_nil, Bool.or_true, Bool.true_or, if_true]
  case catchup =>
    have again : ((s.dev.commit j).state != .flipping || x.missing.isEmpty || decide (2 < x.catchups)) = false := by
      rw [hs, hm, decide_eq_false (by omega)]; rfl
    simp only [Dev.ackDeadline, hx, again, hc, Bool.false_eq_true, if_false, if_true]
  case verified =>
    have inWindow : ((s.dev.commit j).state != .flipping || (s.dev.commit j).windowEnded) = false := by rw [hs, hw]; rfl
    simp only [Dev.verifyEntry, inWindow, ← hes, ← hd, ← hp, ← hdk, ← hok, ← he, hdt, Option.bind_none, ← hb, Bool.false_eq_true, if_false]
  case unfixed =>
    have idle : ((s.dev.commit j).state != .flipping || (s.dev.commit j).kept.isSome) = true := by rw [bne_iff_ne.mpr hs]; rfl
    exact onMem_parts (if_pos idle)
  case reserved => simp only [hj]
  case unknown => simp only [hj]
  case watch =>
    simp only [State.onDev, hw]
    exact ⟨rfl, le_reach_now _ _⟩

end Sys2Proof.Machine
end

section
/-!
PROOFS. Laser modules and synthesisers, modulator calibration, lanes that settle, what is transmitted, and block headers.
-/

namespace Sys2Proof.Machine
open Sys2Proof
set_option Elab.async false

section
variable (d : Dev)

/-- A lane of a context just changed reads as changed. -/
@[simp] theorem modLane_lane (l k : Nat) (f : Lane → Lane) : (d.modLane l k f).lane l k = f (d.lane l k) := by
  simp only [Dev.lane, Dev.modLane, modLink_link, tget_tmod_same]

/-- A transmitter just changed reads as changed, and the rest of its transceiver as before. -/
@[simp] theorem modTx_probeAt (x : Nat) (f : Lane → Lane) : (d.modTx x f).probeAt x = { d.probeAt x with tx := f (d.probeAt x).tx } :=
  tget_tmod_same _ d.opt.probes x (fun y => { y with tx := f y.tx })

/-- A lane that has its light is sampled where its link is a module's own or the chip is a C. -/
theorem laneSampled {l k : Nat} (hf : d.laneFed l k = true) (hC : 32 ≤ l ∨ d.isC = true) :
    (!d.laneFed l k || (decide (l < 32) && !d.isC)) = false := by
  rcases hC with h | h
  · rw [hf, decide_eq_false (by omega)]; rfl
  · rw [hf, h]; exact Bool.and_false _

end

section
variable {x : Lane} {offset : Int} {powerOk : Bool}

/-- A sample changes no lane's state. -/
@[simp] theorem sample_state : (x.sample offset powerOk).state = x.state := by
  unfold Lane.sample
  dsimp only
  split
  · split <;> rfl
  · rfl

/-- A locked synthesiser that is far off, or without its power, is not locked. -/
theorem sample_far (hx : x.locked = true) (h : 3000 < offset.natAbs ∨ powerOk = false) : (x.sample offset powerOk).locked = false := by
  have far : (decide (3000 < offset.natAbs) || !powerOk) = true := by rcases h with h | h <;> simp [h]
  simp only [Lane.sample, hx, far, if_true]

/-- The eighth sample in a row that is near locks. -/
theorem sample_near (hx : x.locked = false) (ho : offset.natAbs ≤ 1000) (hp : powerOk = true) (hr : 7 ≤ x.okRun) :
    (x.sample offset powerOk).locked = true := by
  have eight : min 8 (x.okRun + 1) = 8 := by omega
  simp only [Lane.sample, hx, hp, ho, eight, decide_true, Bool.and_self, Bool.false_eq_true, if_false, if_true, Nat.le_refl]

end

/-- Settles O28: a module's record reads as the command left it; a sample locks or unlocks by its run, and the lane or the transmitter follows. -/
theorem laserCommands : Obligations.LaserCommands := by
  unfold Obligations.LaserCommands
  refine ⟨fun s slot vendor part serial freqOk powerOk mgmtOk => ⟨_, rfl, rfl, modLaser_laser _ _ _⟩, fun s slot => ⟨_, rfl, rfl, modLaser_laser _ _ _⟩,
    fun s slot short hs hg => ⟨_, rfl, rfl, onDev_eq ?ramp⟩, fun s slot m hl => ⟨_, rfl, rfl, onDev_eq (if_pos hl)⟩,
    fun s slot m hp => ⟨_, rfl, rfl, onDev_eq (if_pos (by simp [hp]))⟩, fun s slot m d hp hd hm hn => ⟨_, rfl, rfl, onDev_eq ?dies⟩,
    fun s slot m d hp hd hno => ⟨_, rfl, rfl, onDev_eq ?noLaser⟩, fun s slot power temp hp => ⟨_, next_onDev (if_pos hp), rfl, ?polled⟩,
    fun s l k offset powerOk c hl hc hC hf hk ho => ⟨_, rfl, rfl, onDev_eq ((if_pos hl).trans ?laneOff)⟩,
    fun s l k offset powerOk c hl hc hC hf hk ho hp hr => ⟨_, rfl, rfl, onDev_eq ((if_pos hl).trans ?laneOn)⟩,
    fun s l k offset powerOk x hl hp hk hs ho => ⟨_, rfl, rfl, onDev_eq ((if_neg (by omega)).trans ?txOff)⟩,
    fun s l k offset powerOk x hl hp hk hs hs' ho hw hr => ⟨_, rfl, rfl, onDev_eq ((if_neg (by omega)).trans ?txOn)⟩⟩
  case ramp =>
    have enabling : ((s.dev.laser slot).state != .enabling) = false := by rw [hs]; rfl
    simp only [enabling, hg, Bool.false_eq_true, if_false]
  case dies =>
    simp only [hp, ← hd, hn, hm, decide_true, Bool.not_true, Bool.not_false, Bool.and_self, Bool.false_eq_true, if_false, if_true]
  case noLaser =>
    have none : (decide (m.val < lasersOf slot) && !(d.laser slot).dead.testBit m) = false := by
      rcases hno with h | h
      · rw [decide_eq_false (by omega)]; rfl
      · rw [h]; exact Bool.and_false _
    simp only [hp, ← hd, none, Bool.not_true, Bool.false_eq_true, if_false]
  case polled => simp
  case laneOff =>
    simp only [Dev.sampleLane, laneSampled _ hf hC, ← hc, hk, modLane_lane, sample_far hk ho, Bool.false_eq_true, if_false]
  case laneOn =>
    simp only [Dev.sampleLane, laneSampled _ hf hC, ← hc, hk, modLane_lane, sample_near hk ho hp hr, Bool.false_eq_true, if_false]
  case txOff =>
    have place : (l : Nat) - 39 = x := by omega
    simp only [Dev.sampleTx, place, hp, hk, modTx_probeAt, sample_far hk ho, sample_state, hs, Bool.not_true, Bool.false_eq_true, if_false,
      beq_self_eq_true, if_true]
    rfl
  case txOn =>
    have place : (l : Nat) - 39 = x := by omega
    simp only [Dev.sampleTx, place, hp, hk, modTx_probeAt, sample_near hk ho hw hr, sample_state, beq_eq_false_iff_ne.mpr hs, beq_eq_false_iff_ne.mpr hs',
      Bool.not_true, Bool.false_and, Bool.false_eq_true, if_false]

end Sys2Proof.Machine
end

section
/-!
PROOFS. Modulator calibration, lanes that settle, what is transmitted, and block headers.
-/

namespace Sys2Proof.Machine
open Sys2Proof
set_option Elab.async false

/-- A mask over a running one is 0 only where there is nothing to add. -/
theorem maskFold_eq_zero (l : List Nat) (m : Nat) (h : l.foldl (fun m k => m ||| (1 <<< k)) m = 0) : m = 0 ∧ l = [] := by
  induction l generalizing m with
  | nil => exact ⟨h, rfl⟩
  | cons k t ih =>
    obtain ⟨none, _⟩ := ih _ h
    have bit := (Nat.or_eq_zero_iff.mp none).2
    rw [Nat.one_shiftLeft] at bit
    exact absurd bit (Nat.two_pow_pos k).ne'

/-- A mask is 0 exactly where its list is empty. -/
theorem maskOf_eq_zero {l : List Nat} : maskOf l = 0 ↔ l = [] :=
  ⟨fun h => (maskFold_eq_zero l 0 h).2, fun h => by rw [h]; rfl⟩

/-- No lane is aligned exactly where the mask of aligned lanes is 0. -/
theorem rxMask_eq_zero {x : Link} : x.rxMask = 0 ↔ ∀ e ∈ x.lanes, e.2.rxAligned = false := by
  simp only [Link.rxMask, maskOf_eq_zero, List.map_eq_nil_iff, List.filter_eq_nil_iff, Bool.not_eq_true]

/-- What holds of the value set and of every entry of a table holds of every entry once it is set. -/
theorem forall_tset {α : Type} {P : α → Prop} {n : Nat} {x : α} (hx : P x) (t : List (Nat × α)) (h : ∀ e ∈ t, P e.2) : ∀ e ∈ tset t n x, P e.2 := by
  induction t with
  | nil => simpa [tset] using hx
  | cons a t ih =>
    obtain ⟨ha, ht⟩ := List.forall_mem_cons.mp h
    unfold tset
    split
    · exact List.forall_mem_cons.mpr ⟨hx, h⟩
    · split
      · exact List.forall_mem_cons.mpr ⟨hx, ht⟩
      · exact List.forall_mem_cons.mpr ⟨ha, ih ht⟩

/-- What holds of the default and of every entry holds of what is read. -/
theorem forall_tget {α : Type} {P : α → Prop} {dflt : α} (hd : P dflt) (n : Nat) (t : List (Nat × α)) (h : ∀ e ∈ t, P e.2) : P (tget dflt t n) := by
  induction t with
  | nil => exact hd
  | cons a t ih =>
    obtain ⟨ha, ht⟩ := List.forall_mem_cons.mp h
    unfold tget
    split
    · exact ha
    · exact ih ht

/-- A bad header aligns no lane. -/
theorem badHeader_rxMask (d : Dev) (l k : Nat) (h : (d.link l).rxMask = 0) : ((d.modLane l k (fun x => x.header false)).link l).rxMask = 0 := by
  rw [rxMask_eq_zero] at h ⊢
  simp only [Dev.modLane, modLink_link, tmod]
  exact forall_tset (P := fun x : Lane => x.rxAligned = false) (by
    have dark : (tget ({} : Lane) (d.link l).lanes k).rxAligned = false := forall_tget (P := fun x : Lane => x.rxAligned = false) rfl k _ h
    simp [Lane.header, dark]) _ h

/-- A header on a lane of an enabled link of a domain that is on is read. -/
theorem headerTaken {d : Dev} {l c k : Nat} (h8 : d.isOn (domainOf l) = true) (he : d.linkEnabled c = true) (hk : k < lanesOf l) :
    (!d.isOn (domainOf l) || !d.linkEnabled c || decide (lanesOf l ≤ k)) = false := by
  rw [h8, he, decide_eq_false (by omega)]; rfl

/-- Settles O29: each clause is the branch of its command that its conditions lead to. -/
theorem modulatorCommands : Obligations.ModulatorCommands := by
  unfold Obligations.ModulatorCommands
  refine ⟨fun s l k hl hs => ⟨_, rfl, rfl, onDev_eq ((if_pos hl).trans ?idle)⟩,
    fun s l k c d hl hc hs hb hb' hd hz => ⟨_, rfl, rfl, onDev_eq ((if_pos hl).trans ?due)⟩,
    fun s l k x d hl hs hq hd => ⟨_, rfl, rfl, onDev_eq ((if_neg (by omega)).trans ?txDue)⟩,
    fun s l k hl hs => ⟨_, rfl, rfl, onDev_eq ((if_pos hl).trans (if_pos (by rw [hs]; rfl)))⟩,
    fun s l k x hl hs => ⟨_, rfl, rfl, onDev_eq ((if_neg (by omega)).trans ?txDone)⟩,
    fun s l k hl hs => ⟨_, rfl, rfl, onDev_eq ((if_pos hl).trans (if_pos ?settled))⟩,
    fun s l k d hl ha hs hd hh hc => ⟨_, rfl, rfl, onDev_eq ((if_pos hl).trans ?dropped)⟩,
    fun s l k x hl hs => ⟨_, rfl, rfl, onDev_eq ((if_neg (by omega)).trans ?txDropped)⟩,
    fun s l type cls dest payload hl hr ht hc hp => ⟨_, rfl, rfl, onDev_eq (if_pos (by simp [hl, hr, ht, hc, hp]))⟩,
    fun s l k type c payload hl hk ht hp hc hlk hs => ⟨_, rfl, rfl, onDev_eq ((if_pos (by simp [hl, hk, ht, hp])).trans (if_pos ?laneSends))⟩,
    fun s l k type c payload hl hk ht hp hc hlk => ⟨_, rfl, rfl, onDev_eq ?laneHolds⟩,
    fun s p type payload hp hr => ⟨_, rfl, rfl, onDev_eq ((if_neg (by omega)).trans (if_pos (by simpa using hr)))⟩,
    fun s p type payload hp hr hh => ⟨_, rfl, rfl, onDev_eq ((if_neg (by omega)).trans (if_neg (by simp [hr, hh])))⟩,
    fun s l k sync active rxAligned first hcrcOk c hc h8 he hk hm hbad => ⟨_, rfl, rfl, onDev_eq ?bad⟩,
    fun s l k active rxAligned first c d hc h8 he hk hd hm hf => ⟨_, rfl, rfl, onDev_eq ?first⟩,
    fun s l k active rxAligned first c d hc h8 he hk hd hm hf => ⟨_, rfl, rfl, onDev_eq ?later⟩⟩
  case idle =>
    have off : ((s.dev.lane (s.dev.ctxOfLane l k) k).state == .active) = false := beq_eq_false_iff_ne.mpr hs
    simp only [Dev.calLane, bne, off, Bool.not_false, Bool.true_or, Bool.false_eq_true, if_false, if_true]
  case due =>
    have active : ((s.dev.lane c k).state == .active) = true := by rw [hs]; rfl
    simp only [Dev.calLane, ← hc, bne, active, if_true, ← hd, List.any_cons, List.any_nil, hb, hb', hz, Bool.not_true, Bool.or_self,
      Bool.false_eq_true, if_false]
  case txDue =>
    have place : (l : Nat) - 39 = x := by omega
    have active : ((s.dev.probeAt x).tx.state == .active) = true := by rw [hs]; rfl
    have empty : (xcvrPorts x).any (fun p => !(d.port p).queue.isEmpty) = false := by
      rw [hd]
      exact List.any_eq_false.mpr fun p hin => by
        have none : ((s.dev.reach ((s.dev.probeAt x).tx.calAt + s.dev.nat 0x2A00 2 * Config.sec)).port p).queue = [] := hq p hin
        simp [none]
    simp only [Dev.calTx, place, bne, active, if_true, ← hd, empty, Bool.not_true, Bool.or_self, Bool.false_eq_true, if_false]
  case txDone =>
    have place : (l : Nat) - 39 = x := by omega
    simp only [place, hs, beq_self_eq_true, if_true]
  case settled => rcases hs with h | h <;> simp [h]
  case dropped =>
    simp only [Dev.settleLane, ha, hs, ← hd, hh, hc, if_true, decide_false, Bool.not_true, Bool.false_or, Bool.false_and, Bool.false_eq_true, if_false]
    exact if_neg Bool.false_ne_true
  case txDropped =>
    have place : (l : Nat) - 39 = x := by omega
    simp only [place]
    exact if_pos (by rcases hs with h | h <;> rw [h] <;> rfl)
  case laneSends => rw [← hc, hlk]; rcases hs with h | h <;> rw [h] <;> rfl
  case laneHolds =>
    refine (if_pos (by simp [hl, hk, ht, hp])).trans ?_
    simp only [← hc, hlk, Bool.false_and, Bool.false_eq_true, if_false]
  case bad =>
    have dark := badHeader_rxMask (s.dev.bump (linkObj l) 8) c k hm
    simp only [← hc, headerTaken h8 he hk, hbad, hm, dark, Bool.false_and, Bool.false_eq_true, if_false, if_true]
  case first =>
    rw [hm] at hf
    simp only [← hc, headerTaken h8 he hk, beq_self_eq_true, Bool.and_self, ← hd, hm, hf, decide_true, Bool.false_eq_true, if_false, if_true]
  case later =>
    rw [hm] at hf
    simp only [← hc, headerTaken h8 he hk, beq_self_eq_true, Bool.and_self, ← hd, hm, hf, decide_false, Bool.and_false, Bool.false_eq_true, if_false, if_true]

end Sys2Proof.Machine
end

section
/-!
PROOFS. Link frames, acknowledgements and training, and probe transceivers.
-/

namespace Sys2Proof.Machine
open Sys2Proof
set_option Elab.async false

/-- A link's state as read after a change that keeps it. -/
theorem modLink_state (d : Dev) (l m : Nat) (f : Link → Link) (h : ∀ x, (f x).state = x.state) : ((d.modLink l f).link m).state = (d.link m).state := by
  by_cases same : l = m
  · rw [← same, modLink_link, h]
  · exact congrArg Link.state (tget_tmod_other _ d.opt.links f same)

/-- Frames sent again change no link's state. -/
theorem resend_state (d : Dev) (l cls m : Nat) : ((d.resend l cls).link m).state = (d.link m).state := by
  unfold Dev.resend
  extract_lets x fs e
  have sent : (e.link m).state = (d.link m).state := by
    unfold Dev.link
    rw [show e.opt = d.opt from foldl_opt _ (fun _ _ => emit_opt _ _) fs d]
  split
  · exact sent
  · exact (modLink_state _ l m (fun y => { y with progressAt := e.now }) fun _ => rfl).trans sent

/-- A context that is sent again leaves every link's state. -/
theorem retryContext_state (d : Dev) (l m : Nat) : ((d.retryContext l).link m).state = (d.link m).state := by
  unfold Dev.retryContext
  dsimp only
  split
  · rfl
  · rw [resend_state, resend_state]; rfl

/-- A context that is not up sends nothing again. -/
theorem retryContext_down {d : Dev} {l : Nat} (h : (d.link l).isUp = false) : d.retryContext l = d := by
  simp only [Dev.retryContext, h, Bool.not_false, Bool.true_or, if_true]

/-- Settles O30: each clause is the branch of its command that its conditions lead to; of a link's two contexts only one that is up is
sent again. -/
theorem linkFrames : Obligations.LinkFrames := by
  unfold Obligations.LinkFrames
  refine ⟨fun s l type cls seq dest source payload hcrcOk crcOk hr => ⟨_, rfl, rfl, onDev_eq (if_pos (by simp [hr]))⟩,
    fun s l type cls seq dest source payload crcOk c hc hm hr => ⟨_, rfl, rfl, onDev_eq ?badHeader⟩,
    fun s l type cls seq dest source payload c hc hm hr => ⟨_, rfl, rfl, onDev_eq ?badPayload⟩,
    fun s l type cls seq dest source payload os c hc hx hm hr hf ho hos => ⟨_, rfl, rfl, onDev_eq ?delivered⟩,
    fun s l ack1 ack2 nak c d hc hx h0 h1 hd => ⟨_, rfl, rfl, onDev_eq ?acked⟩, fun s l hu hq hu' => ⟨_, rfl, rfl, onDev_eq ?retried⟩,
    fun s l x c hc h8 he hm hcls => ⟨_, rfl, onMem_eq ?trained⟩, fun s l x c hc h8 he hm hcls => ⟨_, rfl, (onMem_parts ?foreign).symm⟩,
    fun s l hl h8 he hu ha hl' => ⟨_, rfl, rfl, onDev_eq ?interval⟩, fun s l h8 he hu ht ht' => ⟨_, rfl, rfl, onDev_eq ?attempt⟩⟩
  case badHeader => simp only [← hc, hm, hr, decide_false, Bool.or_self, Bool.not_false, Bool.false_eq_true, if_false, if_true]
  case badPayload => simp only [← hc, hm, hr, decide_false, Bool.or_self, Bool.not_false, Bool.not_true, Bool.false_eq_true, if_false, if_true]
  case delivered =>
    have named : (d : Option Nat) → d = some cls → (d != some cls) = false := fun d h => by rw [h]; exact bne_self_eq_false _
    have opened : (s.dev.link c).context.isNone = false := by rw [← Option.not_isSome, hx]; rfl
    simp only [← hc, hm, hr, named _ hf, ho, ← hos, opened, decide_false, Bool.or_self, Bool.not_true, Bool.false_eq_true, if_false]
  case acked =>
    have opened : (s.dev.link c).context.isNone = false := by rw [← Option.not_isSome, hx]; rfl
    simp only [← hc, opened, h0, h1, ← hd, Bool.false_eq_true, if_false]
  case retried =>
    have down : ((s.dev.retryContext l).link (64 + l)).isUp = false := by
      unfold Link.isUp at hu' ⊢
      rw [retryContext_state, hu']
    simp only [retryContext_down down, ite_self]
    simp only [Dev.retryContext, hu, hq, Bool.not_true, Bool.false_and, Bool.or_self, Bool.false_eq_true, if_false]
  case trained => simp only [← hc, h8, he, hm, hcls, decide_false, bne_self_eq_false, Bool.not_true, Bool.or_self, Bool.false_eq_true, if_false]
  case foreign =>
    have other : (x.cls != (if l.val < 32 then 1 else if l.val < 38 then 2 else 3)) = true := bne_iff_ne.mpr hcls
    simp only [← hc, h8, he, hm, other, decide_false, Bool.not_true, Bool.or_self, Bool.false_eq_true, if_false, if_true]
  case interval =>
    simp only [h8, he, hu, hl', Bool.not_true, Bool.or_self, Bool.false_eq_true, if_false]
  case attempt =>
    have place : portOfCtx l = l := by unfold portOfCtx; exact if_neg (by omega)
    simp only [ht', bne_self_eq_false, Bool.false_and, Bool.false_eq_true, if_false, Dev.retryTraining, place, h8, he, hu, ht, decide_false,
      Bool.not_true, Bool.or_self]

/-- Settles O31: each clause is the branch of its command that its conditions lead to. -/
theorem probeCommands : Obligations.ProbeCommands := by
  unfold Obligations.ProbeCommands
  refine ⟨fun s p h10 hl hs hx => ⟨_, rfl, rfl, onDev_eq ?lit⟩, fun s p h10 hl => ⟨_, rfl, rfl, onDev_eq ?dark⟩,
    fun s x cur p hc hn ha => ⟨_, rfl, rfl, onDev_eq ?dwelt⟩, fun s x p hc hn => ⟨_, rfl, rfl, onDev_eq ?free⟩,
    fun s p n at_ ha => ⟨_, rfl, rfl, onDev_eq ?missed⟩, fun s p n at_ ty ha h5 h1 => ⟨_, rfl, rfl, onDev_eq ?lapsed⟩,
    fun s p hq => ⟨_, rfl, rfl, onDev_eq (if_neg (by simp [hq]))⟩⟩
  case lit =>
    have there : ((s.dev.port p).state == .absent) = false := beq_eq_false_iff_ne.mpr hs
    simp [h10, hl, there, hx]
  case dark => simp [h10, hl]
  case dwelt => simp only [hc, hn, ha, Option.isSome_none, Bool.false_eq_true, if_false]
  case free => simp only [hc, hn]
  case missed => simp only [ha, if_true]
  case lapsed => simp only [ha, h5, h1, decide_false, Bool.false_and, Bool.false_eq_true, if_false]

end Sys2Proof.Machine
end

section
/-!
PROOFS. Mapen frames of a partner, and timers of a port's handshake.
-/

namespace Sys2Proof.Machine
open Sys2Proof
set_option Elab.async false

/-- What a command answers whose frame opens and is then handled. -/
theorem onReceive_eq {s : State} {p type : Nat} {f : Mapen} {act : Dev → Dev} {e : Dev} (h : s.dev.Opens p type f)
    (ha : act (s.dev.heard p) = e) : (s.onDev fun d => d.receive p type f act).dev = e :=
  (receive_opens s.dev p type f act h).trans ha

/-- Settles O32: a frame that opens is handled by the branch of its type that its conditions lead to. -/
theorem mapenFrames : Obligations.MapenFrames := by
  unfold Obligations.MapenFrames
  refine ⟨fun s p f twin profileMax attempt nonce h he hw ht hv => ⟨_, rfl, rfl, onReceive_eq h ?hello⟩,
    fun s p f i h hx hn hi => ⟨_, rfl, rfl, onReceive_eq h ?ident⟩, fun s p f acked h ha hk => ⟨_, rfl, rfl, onReceive_eq h ?ack⟩,
    fun s p f naked code detail h ha h1 h9 hl => ⟨_, rfl, rfl, onReceive_eq h ?nak⟩,
    fun s p f naked code detail h ha hbad => ⟨_, rfl, rfl, onReceive_eq h ?nakBad⟩,
    fun s p f defSeq status h ha hv => ⟨_, rfl, rfl, onReceive_eq h ?keepalive⟩, fun s p f cause h he ht hv hs => ⟨_, rfl, rfl, onReceive_eq h ?goodbye⟩,
    fun s p f twin profileMax attempt nonce h he hw => ⟨_, rfl, rfl, onReceive_eq h ?helloEcho⟩,
    fun s p f naked code detail h ha => ⟨_, rfl, rfl, onReceive_eq h (if_pos (by rw [ha]; rfl))⟩,
    fun s p f cause h he => ⟨_, rfl, rfl, onReceive_eq h (if_pos (bne_iff_ne.mpr he))⟩,
    fun s p hh hl => ⟨_, rfl, rfl, onDev_eq ((if_neg (by simp [hh])).trans (if_neg hl))⟩,
    fun s p hh hl => ⟨_, rfl, rfl, onDev_eq ((if_neg (by simp [hh])).trans (if_pos hl))⟩,
    fun s p f type version length hh hp ht ha hq => ⟨_, rfl, rfl, onDev_eq ?violation⟩⟩
  case hello =>
    obtain ⟨htwin, hprofile, hattempt, hnonce⟩ := hv
    have listed : (twin != 0xFF || decide (profileMax = 0) || decide (8 < attempt) || decide (2 ^ 32 ≤ nonce)) = false := by
      rw [htwin, decide_eq_false hprofile, decide_eq_false (by omega), decide_eq_false (by omega)]; rfl
    simp only [hw, he, bne_self_eq_false, ht, listed, Bool.false_eq_true, if_false]
  case ident =>
    have inEx : ((s.dev.heard p).port p).inExchange f = true := hx
    simp only [inEx, hn, bne_self_eq_false, hi, Bool.false_and, Bool.not_true, Bool.false_eq_true, if_false]
  case ack =>
    have listed : (((s.dev.heard p).port p).answers f acked && (decide (acked = 3) || decide (acked = 7) || decide (acked = 8) || decide (acked = 9))) =
        true := by
      rw [ha]; rcases hk with h | h | h <;> rw [h] <;> rfl
    have other : acked ≠ 3 := by omega
    refine (if_pos listed).trans ?_
    simp only [other, decide_false, Bool.false_and, Bool.false_eq_true, if_false]
  case nak =>
    have listed : (decide (naked = 0) || decide (9 < naked) || !nakListed code) = false := by
      rw [decide_eq_false (by omega), decide_eq_false (by omega), hl]; rfl
    simp only [ha, listed, Bool.not_true, Bool.false_eq_true, if_false]
  case nakBad =>
    have unlisted : (decide (naked = 0) || decide (9 < naked) || !nakListed code) = true := by
      rcases hbad with h | h | h <;> simp [h]
    simp only [ha, unlisted, Bool.not_true, Bool.false_eq_true, if_false, if_true]
  case keepalive =>
    have listed : (decide (1 < status) || decide (2 ^ 32 ≤ defSeq)) = false := by
      rw [decide_eq_false (by omega), decide_eq_false (by omega)]; rfl
    simp only [ha, listed, Bool.not_true, Bool.false_eq_true, if_false]
  case goodbye =>
    have listed : (decide (cause = 0) || decide (5 < cause)) = false := by
      rw [decide_eq_false (by omega), decide_eq_false (by omega)]; rfl
    simp only [he, ht, listed, hs, bne_self_eq_false, beq_self_eq_true, Bool.false_eq_true, if_false, if_true]
  case helloEcho =>
    have unsolicited : (f.echo != 0xFFFF) = true := bne_iff_ne.mpr he
    simp only [hw, unsolicited, if_true]
  case violation =>
    have code : (decide (type = 0) || decide (9 < type)) = true := by rcases ht with h | h <;> simp [h]
    have calm : (((s.dev.bump (0x2A40 + podOf p) 3).port p).state == .quarantined) = false := beq_eq_false_iff_ne.mpr hq
    have fresh : ((s.dev.bump (0x2A40 + podOf p) 3).port p).answerOf type f = none := ha
    simp only [code, hh, hp, calm, fresh, Bool.not_true, Bool.or_self, Bool.false_eq_true, if_false, if_true]
    exact if_neg (by decide)

end Sys2Proof.Machine
end

section
/-!
PROOFS. Timers of a port's handshake, and discovery of neighbours and of the twin.
-/

namespace Sys2Proof.Machine
open Sys2Proof
set_option Elab.async false

/-- Settles O33: a timer acts on a port in the state that it belongs to, and each clause is its branch. -/
theorem mapenTimers : Obligations.MapenTimers := by
  unfold Obligations.MapenTimers
  refine ⟨fun s p hl => ⟨_, rfl, rfl, onDev_eq (if_pos (by simp [hl]))⟩, fun s p n hl hs hb hn hlt => ⟨_, rfl, rfl, onDev_eq ?hello⟩,
    fun s p hl hs hb ha => ⟨_, rfl, rfl, onDev_eq ?absent⟩, fun s p hl hs hb ha => ⟨_, rfl, rfl, onDev_eq ?backoff⟩,
    fun s p hs hb hl => ⟨_, rfl, rfl, onDev_eq (if_pos (by simp [hs, hb, hl]))⟩, fun s p hs hl => ⟨_, rfl, rfl, onDev_eq (if_pos (by simp [hs, hl]))⟩,
    fun s p hl he hs => ⟨_, rfl, rfl, onDev_eq ?detach⟩, fun s p hl he hs => ⟨_, rfl, rfl, onDev_eq ?lost⟩,
    fun s p d hs hl hd hi => ⟨_, rfl, rfl, onDev_eq ?keepalive⟩, fun s p hs => ⟨_, rfl, rfl, onDev_eq (if_pos (by simp [hs]))⟩,
    fun s p r hr hn => ⟨_, rfl, rfl, onDev_eq ?again⟩, fun s p r hr hn => ⟨_, rfl, rfl, onDev_eq ?givenUp⟩⟩
  case hello =>
    have due : (!((s.dev.port p).state == .probing && !(s.dev.port p).backoff || (s.dev.port p).state == .training ||
        (s.dev.port p).state == .identified && (s.dev.port p).reident) || !s.dev.podLit (podOf p) ||
        decide ((s.dev.port p).attemptAt + s.dev.nat 0x2B00 2 * Config.ms ≤ n)) = false := by
      rw [hs, hb, hl, decide_eq_false (Nat.not_le.mpr hlt)]; rfl
    have other : ((s.dev.port p).state == .training) = false := by rw [hs]; rfl
    simp only [← hn, due, Bool.false_eq_true, if_false]
    exact if_neg (ne_true_of_eq_false other)
  case absent =>
    simp only [hl, hs, hb, beq_self_eq_true, Bool.not_true, Bool.not_false, Bool.and_self, Bool.true_or, Bool.false_eq_true, if_false, if_true,
      if_neg (Nat.not_lt.mpr ha)]
  case backoff =>
    simp only [hl, hs, hb, beq_self_eq_true, Bool.not_true, Bool.not_false, Bool.and_self, Bool.true_or, Bool.false_eq_true, if_false, if_true, ha]
  case detach => simp only [hl, he, hs, Bool.not_true, Bool.or_self, Bool.false_eq_true, if_false]
  case lost =>
    rcases hs with h | h <;> simp only [hl, he, h, Bool.not_true, Bool.or_self, Bool.false_eq_true, if_false]
  case keepalive => simp only [hs, hl, ← hd, hi, beq_self_eq_true, Bool.and_self, if_true]
  case again =>
    simp only [hr, List.foldl_nil]
    exact if_pos hn
  case givenUp =>
    simp only [hr, List.foldl_nil]
    exact if_neg (Nat.not_lt.mpr hn)

/-- Settles O34: a frame on a link that is up falls under the branch of its values, and an interval or an expiry under its state's. -/
theorem discoveryCommands : Obligations.DiscoveryCommands := by
  unfold Obligations.DiscoveryCommands
  refine ⟨fun s i x hu hl h6 => ⟨_, rfl, (onMem_parts ?peer).symm⟩, fun s i x hu hl h6 => ⟨_, rfl, onMem_eq ?twin⟩,
    fun s i x ho hu ht hs => ⟨_, rfl, rfl, onDev_eq ?state⟩, fun s i kind port seen expected hu h1 hk => ⟨_, rfl, rfl, onDev_eq ?counted⟩,
    fun s i kind port seen expected hu hk h6 hj => ⟨_, rfl, rfl, onDev_eq ?unjoined⟩, fun s h3 => ⟨_, rfl, rfl, onDev_eq (if_pos h3)⟩,
    fun s h3 => ⟨_, rfl, rfl, onDev_eq (if_pos h3)⟩, fun s chip twin e he => ⟨_, rfl, rfl, onDev_eq ?expired⟩,
    fun s i hs => ⟨_, rfl, rfl, onDev_eq (if_neg (by simp [hs]))⟩, fun s i x hu hl => ⟨_, rfl, (onMem_parts ?unlisted).symm⟩,
    fun s i x ho hu hx => ⟨_, rfl, rfl, onDev_eq ?badState⟩, fun s i kind port seen expected hu hk => ⟨_, rfl, rfl, onDev_eq ?badKind⟩⟩
  case peer => simp only [hu, hl, h6, Bool.not_true, Bool.false_eq_true, if_false]
  case twin =>
    simp only [hu, hl, Bool.not_true, Bool.false_eq_true, if_false]
    exact if_pos h6
  case state =>
    have listed : (decide (2 ≤ x.twin) || decide (9 ≤ x.state)) = false := by rw [decide_eq_false (by omega), decide_eq_false (by omega)]; rfl
    simp only [hu, ho, listed, Bool.and_self, Bool.not_true, Bool.false_eq_true, if_false]
  case counted =>
    have listed : (decide (kind = 0) || decide (4 < kind)) = false := by rw [decide_eq_false (by omega), decide_eq_false (by omega)]; rfl
    have joined : (decide (kind = 4) && decide (i.val = 6) && decide ((s.dev.bump 0x2B12 1).disc.twinJoin = 1)) = false := by
      rcases hk with h | ⟨_, h | h⟩
      · rw [decide_eq_false (by omega)]; rfl
      · rw [decide_eq_false h]; simp
      · rw [decide_eq_false h]; exact Bool.and_false _
    simp only [hu, listed, joined, Bool.not_true, Bool.false_eq_true, if_false]
  case unjoined =>
    have listed : (decide (kind = 0) || decide (4 < kind)) = false := by rw [hk]; rfl
    simp only [hu, listed, Bool.not_true, Bool.false_eq_true, if_false]
    exact if_pos (by rw [hk, h6, hj]; rfl)
  case expired => simp only [he]; rfl
  case unlisted => simp only [hu, hl, Bool.not_true, Bool.not_false, Bool.false_eq_true, if_false, if_true]
  case badState =>
    have unlisted : (decide (2 ≤ x.twin) || decide (9 ≤ x.state)) = true := by rcases hx with h | h <;> simp [h]
    simp only [hu, ho, unlisted, Bool.and_self, Bool.not_true, Bool.false_eq_true, if_false, if_true]
  case badKind =>
    have unlisted : (decide (kind = 0) || decide (4 < kind)) = true := by rcases hk with h | h <;> simp [h]
    simp only [hu, unlisted, Bool.not_true, Bool.false_eq_true, if_false, if_true]

end Sys2Proof.Machine
end

section
/-!
PROOFS. Service frames and the collective engine's step.
-/

namespace Sys2Proof.Machine
open Sys2Proof
set_option Elab.async false

/-- Settles O35: a service frame that is served and passes its checks acts; the rest of the clauses are the branches of their commands. -/
theorem engineCommands : Obligations.EngineCommands := by
  unfold Obligations.EngineCommands
  refine ⟨fun s n h data j b start hs hb hst hc => ⟨_, rfl, onMem_eq ((svcIn_serves _ _ _ _ _ _ _ hs).trans ?grad)⟩,
    fun s n h data j b hs hb hc => ⟨_, rfl, (onMem_parts ((svcIn_serves _ _ _ _ _ _ _ hs).trans ?master)).symm⟩,
    fun s n h data j a w hs hc ha hx hw => ⟨_, rfl, (onMem_parts ((svcIn_serves _ _ _ _ _ _ _ hs).trans ?act)).symm⟩,
    fun s n h data j hs hc => ⟨_, rfl, onMem_eq ((svcIn_serves _ _ _ _ _ _ _ hs).trans (svcChecked_none _ _ _ _ _ _ hc))⟩,
    fun s j hu hs hp hg => ⟨_, rfl, onMem_eq (if_neg ?formed)⟩,
    fun s j hu hh => ⟨_, rfl, onMem_eq (if_pos (by simp [hu, hh]))⟩, fun s port tag gen shard flags step sum hp hl => ⟨_, rfl, onMem_eq ?leads⟩,
    fun s port tag gen shard flags step sum hp hl => ⟨_, rfl, (onMem_parts ?follows).symm⟩,
    fun s tag step gen n hn hp => ⟨_, rfl, rfl, _, rfl, onDev_eq ?timeout⟩, fun s port m hp hr => ⟨_, rfl, rfl, onDev_eq ?clip⟩,
    fun s port tag gen step hp => ⟨_, rfl, onMem_eq (if_neg (by simp [hp]))⟩, fun s j c hc hu => ⟨_, rfl, onMem_eq ?complete⟩,
    fun s iface source dest slot len offset destSlot hp hd => ⟨_, rfl, (onMem_parts ?routed).symm⟩,
    fun s iface source dest slot len offset destSlot hp hd hu hv hx => ⟨_, rfl, ?fetched⟩,
    fun s iface source dest slot flags offset data hp hd => ⟨_, rfl, (onMem_parts ?dataRouted).symm⟩,
    fun s iface source dest slot flags offset data hp hd hl hu hf hs ha hfl => ⟨_, rfl, _, rfl, (onMem_parts ?dataTaken).symm⟩⟩
  case grad =>
    subst hb hst
    exact svcChecked_none _ _ _ _ _ _ hc
  case master =>
    subst hb
    exact svcChecked_none _ _ _ _ _ _ hc
  case act =>
    refine (svcChecked_none _ _ _ _ _ _ hc).trans ?_
    simp only [← ha, modEngJob_engJob, hx, List.filter_nil, List.any_nil, Bool.false_eq_true, if_false, ← hw, List.nil_append] <;> rfl
  case formed => simp [hu, hs, hp, hg]
  case leads =>
    have lead : (s.dev.leader == some s.dev.chip) = true := beq_iff_eq.mpr hl
    simp only [hp, lead, Bool.not_true, Bool.false_eq_true, if_false, if_true]
  case follows =>
    have lead : (s.dev.leader == some s.dev.chip) = false := beq_eq_false_iff_ne.mpr hl
    simp only [hp, lead, Bool.not_true, Bool.false_eq_true, if_false]
  case timeout => simp only [hn, hp, Bool.false_eq_true, if_false]
  case clip => simp only [hp, Bool.not_true, Bool.false_eq_true, if_false, if_neg (Nat.not_lt.mpr hr)]
  case complete => simp only [hc, hu, if_true]
  case routed =>
    have other : (dest != s.dev.chip) = true := bne_iff_ne.mpr hd
    simp only [hp, other, Bool.not_true, Bool.false_eq_true, if_false, if_true]
  case fetched =>
    obtain ⟨hlen, hl64, ho64, hl0, hend⟩ := hx
    have mine : (dest != s.dev.chip) = false := by rw [hd]; exact bne_self_eq_false _
    have serves : (!s.dev.fetchUp || (s.dev.model slot).state != .valid || decide (8192 < len) || len % 64 != 0 || offset % 64 != 0 || decide (len = 0) ||
        decide ((s.dev.model slot).len < offset + len)) = false := by
      rw [hu, hv, hl64, ho64, decide_eq_false (Nat.not_lt.mpr hlen), decide_eq_false hl0, decide_eq_false (Nat.not_lt.mpr hend)]; rfl
    simp only [State.onMem, hp, mine, serves, Bool.not_true, Bool.false_eq_true, if_false]
  case dataRouted =>
    have other : (dest != s.dev.chip) = true := bne_iff_ne.mpr hd
    simp only [hp, other, Bool.not_true, Bool.false_eq_true, if_false, if_true]
  case dataTaken =>
    have mine : (dest != s.dev.chip) = false := by rw [hd]; exact bne_self_eq_false _
    have asked : (!s.dev.fetchUp || (s.dev.model slot).state != .fetching || (s.dev.model slot).source != source ||
        !(s.dev.model slot).asked.contains (offset, data.length)) = false := by
      rw [hu, hf, hs, ha, bne_self_eq_false, bne_self_eq_false]; rfl
    have sound : flags % 2 ≠ 1 := by omega
    simp only [hp, mine, hl, asked, sound, bne_self_eq_false, decide_false, Bool.not_true, Bool.false_eq_true, if_false]

end Sys2Proof.Machine
end

section
/-!
PROOFS. Scrubbing, zero fill and the reload of remaps.
-/

namespace Sys2Proof.Machine
open Sys2Proof
set_option Elab.async false

/-- Settles O36: each clause is the branch of its command that its conditions lead to. -/
theorem memoryCommands : Obligations.MemoryCommands := by
  unfold Obligations.MemoryCommands
  refine ⟨fun s a symbols queued w hs hu ha hf hw => ⟨_, rfl, onMem_eq ?stack⟩, fun s a symbols queued hs hu ha ht => ⟨_, rfl, onMem_eq ?sram⟩,
    fun s sel => ⟨_, rfl, rfl, rfl⟩, fun s a hf hu hl => ⟨_, rfl, rfl, _, rfl, onDev_eq (if_neg ?lap)⟩,
    fun s sel hr => ⟨_, rfl, onMem_eq (if_pos hr)⟩, fun s poll d hd => ⟨_, rfl, (onMem_parts ?polled).symm⟩⟩
  case stack =>
    have free : (!s.dev.scrubs || !s.dev.arrayUp a || (decide (a.val < 8) && decide (0 < s.dev.fillDepth a))) = false := by
      rw [hs, hu, hf]; simp
    refine (if_neg (ne_true_of_eq_false free)).trans ((if_pos ha).trans ?_)
    simp only [hw]
  case sram =>
    have free : (!s.dev.scrubs || !s.dev.arrayUp a || (decide (a.val < 8) && decide (0 < s.dev.fillDepth a))) = false := by
      rw [hs, hu, decide_eq_false (Nat.not_lt.mpr ha)]; rfl
    simp only [free, if_neg (Nat.not_lt.mpr ha), if_neg (Nat.not_le.mpr ht), Bool.false_eq_true, if_false]
  case lap => simp only [hf, hu, hl, Bool.not_true, Bool.or_self, Bool.false_eq_true, not_false_iff]
  case polled => rw [hd]

end Sys2Proof.Machine
end

section
/-!
PROOFS. The fault handler, recovery levels, stalls, restarts and logs.
-/

namespace Sys2Proof.Machine
open Sys2Proof
set_option Elab.async false

/-- Settles O37: each clause is the branch of its operation that its conditions lead to. -/
theorem faultCommands : Obligations.FaultCommands := by
  unfold Obligations.FaultCommands
  refine ⟨fun s code cls scope index active detail h => ⟨_, rfl, rfl, onDev_eq (if_pos h)⟩,
    fun s code cls scope index active detail h => ⟨_, rfl, rfl, onDev_eq (if_neg (Bool.eq_false_iff.mp h))⟩,
    fun s hc => ⟨_, rfl, rfl, onDev_eq ?idle⟩, fun s e _ => ⟨_, rfl, rfl, rfl⟩, fun s n hr => ⟨_, rfl, rfl, onDev_eq ?noRecovery⟩,
    fun s n r hr hs => ⟨_, rfl, rfl, onDev_eq ?stale⟩, fun s n r _ => ⟨_, rfl, rfl, rfl⟩, fun s j x hx hl => ⟨_, rfl, rfl, onDev_eq ?fourth⟩,
    fun s j x hx hl hr => ⟨_, rfl, rfl, _, rfl, onDev_eq ?third⟩, fun s j hr => ⟨_, rfl, (onMem_parts ?noRestart).symm⟩, fun s j r _ => ⟨_, rfl, rfl⟩,
    fun s j r hr => ⟨_, rfl, rfl, _, rfl, onDev_eq ?unordered⟩, fun s n hn => ⟨_, rfl, rfl, onDev_eq ?shared⟩, fun s n hn => ⟨_, rfl, rfl, onDev_eq ?prot⟩,
    fun s prot => ⟨_, rfl, rfl, rfl⟩, fun s => ⟨_, rfl, rfl, rfl⟩, fun s => ⟨_, rfl, rfl, rfl⟩⟩
  case idle => simp only [Dev.handlerStep, hc]
  case noRecovery => simp only [Dev.levelTimeout, hr]
  case stale => simp only [Dev.levelTimeout, hr, hs, if_true]
  case fourth => simp only [Dev.stallDeadline, hx, hl, Bool.not_true, Bool.false_eq_true, if_false]
  case third =>
    obtain ⟨h1, h5, h10⟩ := hr
    simp only [Dev.stallDeadline, hx, hl, h1, h5, h10, decide_false, Bool.or_self, Bool.not_false, Bool.false_eq_true, if_false, if_true]
  case noRestart => simp only [releaseJob, hr]
  case unordered => simp only [Dev.orderTimeout, hr]
  case shared => simp only [hn, Bool.false_eq_true, if_false]
  case prot => simp only [hn, if_true]

end Sys2Proof.Machine
end

section
/-!
PROOFS. Grant lines, claims, the selector and the engine's start; twin frames.
-/

namespace Sys2Proof.Machine
open Sys2Proof
set_option Elab.async false

/-- Service ports that open leave what the twin's part of the device holds. -/
theorem openServices_twin (d : Dev) (l : List Nat) : (l.foldl (fun d n => d.openService n true) d).twin = d.twin :=
  SameBut.foldl (fun d n => openService_sameBut d n true) l d .twin (by decide)

/-- Settles O38: an edge that changes its line, a claim that may be asserted, a wait whose conditions hold. -/
theorem grantCommands : Obligations.GrantCommands := by
  unfold Obligations.GrantCommands
  refine ⟨fun s coll h => ⟨_, rfl, rfl, onDev_eq ((if_neg (by rw [h]; decide)).trans (if_pos rfl))⟩,
    fun s coll h => ⟨_, rfl, rfl, onDev_eq ((if_neg (by rw [h]; decide)).trans (if_neg Bool.false_ne_true))⟩,
    fun s hw ho hm => ⟨_, rfl, _, rfl, onMem_parts ?coll⟩, fun s hw ho hm => ⟨_, rfl, (onMem_parts ?drive).symm⟩,
    fun s ha ho hl hd hs => ⟨_, next_onDev ((if_neg Bool.false_ne_true).trans (if_pos (by simp [ha, ho, hl, hd, hs]))), rfl, rfl, le_reach_now _ _⟩,
    fun s ha ho hl hd hC hs => ⟨_, next_onDev ((if_pos rfl).trans (if_pos (by simp [ha, ho, hl, hd, hC, hs]))), rfl, rfl, le_reach_now _ _⟩,
    fun s x hx => ⟨_, rfl, rfl, ?selected⟩,
    fun s h11 hs hb => ⟨_, next_onDev ((if_neg (by rw [h11, hs]; decide)).trans (if_pos (by rw [hb]; rfl))), rfl, rfl⟩,
    fun s h11 hs => ⟨_, rfl, rfl, onDev_eq ((if_neg (by rw [h11, hs]; decide)).trans (if_neg Bool.false_ne_true))⟩⟩
  case coll =>
    simp only [takeGrant, hw, ho, hm, Bool.not_false, Bool.not_true, Bool.and_self, Bool.or_self, Bool.false_eq_true, if_false, if_true]
  case drive =>
    simp only [takeGrant, hw, ho, hm, Bool.not_false, Bool.not_true, Bool.and_self, Bool.or_self, Bool.false_eq_true, if_false]
  case selected =>
    simp only [State.onDev, hx]
    exact openServices_twin _ _

/-- Settles O39: each clause is the branch of its command that its conditions lead to. -/
theorem twinFrames : Obligations.TwinFrames := by
  unfold Obligations.TwinFrames
  refine ⟨fun s cycle frag frags offset data b hj hf hlt hb => ⟨_, rfl, onMem_eq ?record⟩,
    fun s cycle frag frags offset data hj hf hlt hb => ⟨_, rfl, (onMem_parts ?fragment).symm⟩,
    fun s hs => ⟨_, rfl, rfl, onDev_eq (if_pos (by simp [hs]))⟩,
    fun s job bank region flags step offset data hj hr hc => ⟨_, rfl, onMem_eq ?restored⟩,
    fun s job bank region flags step offset data hj hr hc ht => ⟨_, rfl, onMem_eq ?mirrored⟩,
    fun s hd hc => ⟨_, rfl, rfl, onDev_eq (if_pos (by simp [hd, hc]))⟩, fun s hd h0 hw hc hm => ⟨_, rfl, rfl, onDev_eq ?announced⟩,
    fun s hd h0 hw hc hm => ⟨_, rfl, rfl, onDev_eq ?waits⟩, fun s n hn => ⟨_, rfl, rfl, _, rfl, onDev_eq ?missing⟩,
    fun s n hC hf hr h11 hg hp => ⟨_, rfl, rfl, onDev_eq ?due⟩, fun s passed failed ueCount lapEnd hr => ⟨_, rfl, onMem_eq (if_pos hr)⟩,
    fun s n hc hp => ⟨_, rfl, rfl, onDev_eq ?overdue⟩, fun s j hc hr hf => ⟨_, rfl, onMem_eq (if_pos (by simp [hc, hr, hf]))⟩⟩
  case record =>
    have taken : (!s.dev.joined || !s.dev.followsDrive || decide (frags = 0) || decide (frags ≤ frag)) = false := by
      rw [hj, hf, decide_eq_false (by omega), decide_eq_false (by omega)]; rfl
    simp only [taken, hb, Bool.false_eq_true, if_false]
  case fragment =>
    have taken : (!s.dev.joined || !s.dev.followsDrive || decide (frags = 0) || decide (frags ≤ frag)) = false := by
      rw [hj, hf, decide_eq_false (by omega), decide_eq_false (by omega)]; rfl
    simp only [taken, hb, Bool.false_eq_true, if_false]
  case restored =>
    have listed : (decide (6 ≤ region) && decide (region < 0x80)) = false := by simp; omega
    simp only [hj, listed, hc, Bool.not_true, Bool.false_eq_true, if_false, if_true]
  case mirrored =>
    have listed : (decide (6 ≤ region) && decide (region < 0x80)) = false := by simp; omega
    simp only [hj, listed, hc, ht, Bool.not_true, Bool.false_eq_true, if_false, if_true]
  case announced =>
    simp only [hd, h0, hw, hc, hm, decide_false, Option.isSome_none, bne_self_eq_false, Bool.not_true, Bool.or_self, Bool.false_eq_true, if_false, if_true]
  case waits =>
    simp only [hd, h0, hw, hc, hm, decide_false, Option.isSome_none, bne_self_eq_false, Bool.not_true, Bool.or_self, Bool.false_eq_true, if_false]
  case missing => simp only [hn]
  case due =>
    simp only [hC, hf, hr, h11, hg, hp, Option.isNone_none, Bool.not_false, Bool.and_self, if_true]
  case overdue => simp only [hc, hp]

end Sys2Proof.Machine
end

section
/-!
PROOFS. The PMBus device.
-/

namespace Sys2Proof.Machine
open Sys2Proof
set_option Elab.async false

/-- A module that has its AUX supply answers a read with the data, and with the PEC over the whole where it is asked for. -/
theorem pmbusRead_aux {d : Dev} (h : d.module.aux = true) (code : Nat) (check : Bool) (data : List Nat) : d.pmbusRead code check data =
    d.emit (.pmbus (data ++ (if check then [pec ([d.pmbusAddress * 2, code, d.pmbusAddress * 2 + 1] ++ data)] else []))) :=
  if_neg (by simp [h])

/-- Settles O41: a module that has its AUX supply answers each read by its register, and takes a page of its two with no PEC or a right one. -/
theorem pmbusCommands : Obligations.PmbusCommands := by
  unfold Obligations.PmbusCommands
  refine ⟨fun s check h => ⟨_, rfl, rfl, onDev_eq (pmbusRead_aux h _ _ _)⟩, fun s check h => ⟨_, rfl, rfl, onDev_eq (pmbusRead_aux h _ _ _)⟩,
    fun s check h => ⟨_, rfl, rfl, onDev_eq (pmbusRead_aux h _ _ _)⟩, fun s check h => ⟨_, rfl, rfl, onDev_eq (pmbusRead_aux h _ _ _)⟩,
    fun s check h => ⟨_, rfl, rfl, onDev_eq (pmbusRead_aux h _ _ _)⟩, fun s check h => ⟨_, rfl, rfl, onDev_eq (pmbusRead_aux h _ _ _)⟩,
    fun s check h => ⟨_, rfl, rfl, onDev_eq (pmbusRead_aux h _ _ _)⟩, fun s check h => ⟨_, rfl, rfl, onDev_eq (pmbusRead_aux h _ _ _)⟩,
    fun s check h => ⟨_, rfl, rfl, onDev_eq (pmbusRead_aux h _ _ _)⟩, fun s check h => ⟨_, rfl, rfl, onDev_eq (pmbusRead_aux h _ _ _)⟩,
    fun s check h => ⟨_, rfl, rfl, onDev_eq (pmbusRead_aux h _ _ _)⟩, fun s check h => ⟨_, rfl, rfl, onDev_eq (pmbusRead_aux h _ _ _)⟩,
    fun s check h => ⟨_, rfl, rfl, onDev_eq (pmbusRead_aux h _ _ _)⟩, fun s check h => ⟨_, rfl, rfl, onDev_eq (pmbusRead_aux h _ _ _)⟩,
    fun s h => ⟨_, rfl, rfl, onDev_eq (pmbusRead_aux h _ _ _)⟩, fun s x h hx => ⟨_, next_onDev (if_neg ?page), rfl, rfl⟩,
    fun s x y h hx hy => ⟨_, next_onDev (if_neg ?checked), rfl, rfl⟩, fun s code write => ⟨_, rfl, rfl, rfl⟩,
    fun s check h hw => ⟨_, rfl, rfl, onDev_eq (if_neg (by simp [h, hw]))⟩,
    fun s mv ma mw hbm h => ⟨_, next_onDev (if_neg (by simp [h])), rfl, rfl, rfl, rfl, rfl, rfl, rfl, rfl⟩⟩
  case page =>
    simp only [h, Bool.not_true, Bool.or_false, Bool.false_or, decide_eq_true_eq]
    omega
  case checked =>
    simp only [h, hy, decide_true, Bool.not_true, Bool.or_false, Bool.false_or, decide_eq_true_eq]
    omega

end Sys2Proof.Machine
end

section
/-!
PROOFS. Manifests, segments, activation, trial and the watchdog.
-/

namespace Sys2Proof.Machine
open Sys2Proof
set_option Elab.async false

/-- The device once the file that is open has ended, a second after its last packet (R401). -/
def Dev.fileClosed (d : Dev) : Dev :=
  let d := match d.upd.foe with
    | some (_, _, _, t) => d.reach (t + Config.sec)
    | none => d
  { d with upd := { d.upd with foe := none, inRam := none } }

/-- A file that ends leaves the mailbox. -/
@[simp] theorem fileClosed_net (d : Dev) : d.fileClosed.net = d.net := by
  unfold Dev.fileClosed
  dsimp only
  split <;> rfl

/-- A file's end that closes it leaves nothing open, whatever emergencies then leave. -/
theorem onServe_closes {s : State} {f : Dev → Hbm → Mach} {e : Dev} (hf : f s.dev s.hbm = (e, s.hbm)) (hm : e.net.mailbox = [])
    (ho : e.upd.foe = none) (hr : e.upd.inRam = none) :
    (s.onServe f).hbm = s.hbm ∧ (s.onServe f).dev.upd.foe = none ∧ (s.onServe f).dev.upd.inRam = none := by
  obtain ⟨hbm, -, -, upd, -⟩ := onServe_frame hf hm
  rw [upd]
  exact ⟨hbm, ho, hr⟩

/-- A RECOVERY file is answered, and never waits; its answers are those of its branches. -/
theorem request_recovery (s : State) (c : Client) (data : Bytes) (hi : s.Idle) (hb : s.dev.net.ecat = .boot)
    (ha : ((s.asked c).takeRecovery ((s.asked c).isMaintainer c) data true).2 = .answer 0) :
    (s.request (.recovery c data true)).hbm = s.hbm ∧ ∃ n out, (s.request (.recovery c data true)).dev =
      { ((s.asked c).takeRecovery ((s.asked c).isMaintainer c) data true).1 with net := n, out := out } ∧ Output.foe c 0 [] ∈ out := by
  have takes : s.dev.takes (.recovery c data true) = true := by unfold Dev.takes; rw [hb]; rfl
  have handled : handleReq (s.asked c, s.hbm) (.recovery c data true) =
      ((((s.asked c).takeRecovery ((s.asked c).isMaintainer c) data true).1, s.hbm), .abort 0) := by
    simp only [handleReq, ha, foeAns]
  obtain ⟨hbm, n, out, dev, -, -, -, -, sent⟩ := request_answer_idle s (.recovery c data true) hi takes _ _ _ (.foe c 0 []) handled
    ⟨fun _ h => Ans.noConfusion h, fun _ h => Ans.noConfusion h⟩ rfl (by rw [takeRecovery_net]; exact hi.1) (by rw [takeRecovery_net]; exact hi.2.1)
  exact ⟨hbm, n, out, dev, sent⟩

/-- Settles O40: a file that is taken waits for its program, or is answered; each other clause is the branch of its command. -/
theorem updateCommands : Obligations.UpdateCommands := by
  unfold Obligations.UpdateCommands
  refine ⟨fun s c data hr hm hb hf hp he => ⟨_, rfl, ?manifest⟩, fun s c name data k hr hm hp hok hres hn hs hc hk => ⟨_, rfl, ?segment⟩,
    fun s c data hi hb ha => ⟨_, rfl, ?recovery⟩, fun s ok x hx => ⟨_, rfl, onMem_eq (if_pos (by simp [hx]))⟩,
    fun s ok x hx => ⟨_, rfl, onMem_eq (if_pos (by simp [hx]))⟩, fun s hm hw => ⟨_, rfl, ?timeout⟩,
    fun s hs => ⟨_, next_onDev (if_pos (by simp [hs])), rfl, rfl⟩, fun s hs hb => ⟨_, rfl, onMem_eq ?activated⟩,
    fun s hs => ⟨_, rfl, ?failed⟩, fun s hs => ⟨_, next_onDev (if_pos (by simp [hs])), rfl, rfl⟩,
    fun s ht hg => ⟨_, rfl, rfl, onDev_eq ((if_pos ht).trans (if_pos hg))⟩, fun s ht => ⟨_, rfl, rfl, onDev_eq (if_pos ht)⟩,
    fun s n hn hg => ⟨_, rfl, onMem_eq ?restart⟩, fun s n hn hg => ⟨_, rfl, onMem_eq ?restartOpen⟩⟩
  case manifest =>
    refine request_wait s (.manifest c data true) hr (ready_takes s _ hr) _ _ _ ?_
    have starts : ((s.asked c).net.ecat == .boot) = false := beq_eq_false_iff_ne.mpr hb
    have fresh : (s.asked c).upd.receipt = false := hp
    have empty : (s.asked c).upd.state = .empty := he
    simp only [handleReq, Req.who, Dev.takeManifest, starts, hm, hf, fresh, empty, foeAns, Bool.false_and, Bool.not_true, Bool.or_self,
      bne_self_eq_false, Bool.false_eq_true, if_false]
  case segment =>
    refine request_wait s (.segmentFile c name data) hr (ready_takes s _ hr) _ _ _ ?_
    have starts : ((s.asked c).net.ecat == .boot) = false := by
      rcases hr.1 with h | h | h <;> exact beq_eq_false_iff_ne.mpr (by rw [show (s.asked c).net.ecat = s.dev.net.ecat from rfl, h]; decide)
    have receipt : (s.asked c).upd.receipt = true := hp
    have sound : segmentOk (s.asked c).upd.staged data = true := hok
    have receiving : (s.asked c).upd.state = .receiving := hs
    have fresh : (s.asked c).upd.received.contains (fld data 4 4) = false := hn ▸ hc
    simp only [handleReq, Req.who, Dev.takeSegment, starts, hm, receipt, sound, hres, hn, receiving, fresh, hk, foeAns, Option.isSome_none,
      bne_self_eq_false, Bool.false_and, Bool.not_true, Bool.or_self, Bool.false_eq_true, if_false]
  case recovery => exact request_recovery s c data hi hb ha
  case timeout =>
    refine onServe_closes (e := s.dev.fileClosed) ?_ ?_ rfl rfl
    · unfold Dev.fileClosed
      dsimp only
      split
      · next c f waits => exact absurd ((congrArg (·.waiting) (fileClosed_net s.dev)).symm.trans waits) (hw c f)
      · rfl
    · rw [fileClosed_net]; exact hm
  case activated =>
    have activating : (s.dev.upd.state != .activating) = false := by rw [hs]; rfl
    have other : (s.dev.upd.boot.state == .normal) = false := beq_eq_false_iff_ne.mpr hb
    simp only [activationDone, activating, other, Bool.false_and, Bool.false_eq_true, if_false, if_true]
  case failed =>
    have activating : (s.dev.upd.state != .activating) = false := by rw [hs]; rfl
    simp only [State.onMem, activationDone, activating, Bool.false_eq_true, if_false]
    refine ⟨trivial, ?_⟩
    rw [updateResult_upd]
    dsimp only
    split
    · split <;> exact ⟨rfl, rfl⟩
    · exact ⟨rfl, rfl⟩
  case restart => simp only [hn, hg, Bool.false_eq_true, if_false]
  case restartOpen => simp only [hn, hg, if_true]

end Sys2Proof.Machine
end

section
/-!
PROOFS. What giving up the grants leaves of the supplies: the module's record and the power domains. R332 drops the
roles through the whole device (axes, lanes, votes, rounds, discovery), none of which switches a supply. One lemma per
operation, so that each cites those it calls; `simp` then reads both fields through any chain of them.
-/

namespace Sys2Proof.Machine
open Sys2Proof
set_option Elab.async false

/-- What changes neither the module nor the power leaves the domains as they are. -/
theorem SameBut.supply {l : List Part} {d e : Dev} (h : SameBut l d e) (hm : Part.module ∉ l := by decide) (hp : Part.power ∉ l := by decide) :
    e.module = d.module ∧ e.power.domains = d.power.domains :=
  ⟨h .module hm, congrArg (·.domains) (h .power hp)⟩

@[simp] theorem ite_domains {c : Prop} [Decidable c] (a b : Power) : (if c then a else b).domains = if c then a.domains else b.domains :=
  apply_ite _ _ _ _

@[simp] theorem foldl_domains {α : Type} (g : Dev → α → Dev) (h : ∀ d a, (g d a).power.domains = d.power.domains) (l : List α) (d : Dev) :
    (l.foldl g d).power.domains = d.power.domains := by
  induction l generalizing d with
  | nil => rfl
  | cons a t ih => exact (ih _).trans (h d a)

@[simp] theorem sendBoard_supply (d : Dev) (b : Nat) (hold : Bool) (outs : List (Nat × Int)) :
    (d.sendBoard b hold outs).module = d.module ∧ (d.sendBoard b hold outs).power.domains = d.power.domains := by
  simp [Dev.sendBoard]

@[simp] theorem holdBoards_supply (d : Dev) :
    d.holdBoards.module = d.module ∧ d.holdBoards.power.domains = d.power.domains := by
  simp [Dev.holdBoards]

@[simp] theorem freeze_supply (d : Dev) (cut : Bool) :
    (d.freeze cut).module = d.module ∧ (d.freeze cut).power.domains = d.power.domains := by
  unfold Dev.freeze
  (repeat' split) <;> simp

@[simp] theorem endTune_supply (d : Dev) (a : Nat) (result : Bytes) :
    (d.endTune a result).module = d.module ∧ (d.endTune a result).power.domains = d.power.domains := by
  simp [Dev.endTune]

@[simp] theorem abortTune_supply (d : Dev) (a : Nat) :
    (d.abortTune a).module = d.module ∧ (d.abortTune a).power.domains = d.power.domains := by
  unfold Dev.abortTune
  (repeat' split) <;> simp

@[simp] theorem openAxis_supply (d : Dev) (a : Nat) :
    (d.openAxis a).module = d.module ∧ (d.openAxis a).power.domains = d.power.domains := by
  unfold Dev.openAxis
  (repeat' split) <;> simp

@[simp] theorem openAxes_supply (d : Dev) (sel : Nat → Bool) :
    (d.openAxes sel).module = d.module ∧ (d.openAxes sel).power.domains = d.power.domains := by
  simp [Dev.openAxes]

@[simp] theorem openAll_supply (d : Dev) :
    d.openAll.module = d.module ∧ d.openAll.power.domains = d.power.domains := by
  simp [Dev.openAll]

@[simp] theorem gateDark_supply (d : Dev) (h : Nat) :
    (d.gateDark h).module = d.module ∧ (d.gateDark h).power.domains = d.power.domains := by
  unfold Dev.gateDark
  (repeat' split) <;> simp

@[simp] theorem gateClose_supply (d : Dev) (h : Nat) :
    (d.gateClose h).module = d.module ∧ (d.gateClose h).power.domains = d.power.domains := by
  simp [Dev.gateClose]

@[simp] theorem cancelStrobes_supply (d : Dev) (sel : Strobe → Bool) :
    (d.cancelStrobes sel).module = d.module ∧ (d.cancelStrobes sel).power.domains = d.power.domains := by
  simp [Dev.cancelStrobes]

@[simp] theorem endCircuits_supply (d : Dev) (sel : Circuit → Bool) :
    (d.endCircuits sel).module = d.module ∧ (d.endCircuits sel).power.domains = d.power.domains := by
  simp [Dev.endCircuits]

@[simp] theorem syncCause_supply (d : Dev) (c : Nat) :
    (d.syncCause c).module = d.module ∧ (d.syncCause c).power.domains = d.power.domains := by
  simp [Dev.syncCause]

@[simp] theorem refreshStale_supply (d : Dev) :
    d.refreshStale.module = d.module ∧ d.refreshStale.power.domains = d.power.domains := by
  simp [Dev.refreshStale]

@[simp] theorem confirmed_supply (d : Dev) (item index version : Nat) :
    (d.confirmed item index version).module = d.module ∧ (d.confirmed item index version).power.domains = d.power.domains := by
  simp [Dev.confirmed]

@[simp] theorem addGroup_supply (d : Dev) (g : Group) :
    (d.addGroup g).module = d.module ∧ (d.addGroup g).power.domains = d.power.domains := by
  simp [Dev.addGroup]

@[simp] theorem modGroup_supply (d : Dev) (g : Group) (f : Group → Group) :
    (d.modGroup g f).module = d.module ∧ (d.modGroup g f).power.domains = d.power.domains := by
  simp [Dev.modGroup]

@[simp] theorem serveLane_supply (d : Dev) (l k : Nat) :
    (d.serveLane l k).module = d.module ∧ (d.serveLane l k).power.domains = d.power.domains :=
  (serveLane_sameBut d l k).supply

@[simp] theorem sayHeaders_supply (d : Dev) (l : Nat) :
    (d.sayHeaders l).module = d.module ∧ (d.sayHeaders l).power.domains = d.power.domains :=
  (sayHeaders_sameBut d l).supply

@[simp] theorem refreshLink_supply (d : Dev) (l : Nat) :
    (d.refreshLink l).module = d.module ∧ (d.refreshLink l).power.domains = d.power.domains :=
  (refreshLink_sameBut d l).supply

@[simp] theorem dropLane_supply (d : Dev) (l k : Nat) :
    (d.dropLane l k).module = d.module ∧ (d.dropLane l k).power.domains = d.power.domains := by
  simp [Dev.dropLane]

@[simp] theorem dropOut_supply (d : Dev) (l : Nat) :
    (d.dropOut l).module = d.module ∧ (d.dropOut l).power.domains = d.power.domains := by
  unfold Dev.dropOut
  exact ⟨foldl_module _ (fun e k => by split <;> simp) _ d, foldl_domains _ (fun e k => by split <;> simp) _ d⟩

@[simp] theorem transmit_supply (d : Dev) (l : Nat) (f : LFrame) :
    (d.transmit l f).module = d.module ∧ (d.transmit l f).power.domains = d.power.domains := by
  simp only [Dev.transmit]
  (repeat' split) <;> simp

@[simp] theorem drainFrames_supply (d : Dev) (l : Nat) :
    (d.drainFrames l).module = d.module ∧ (d.drainFrames l).power.domains = d.power.domains := by
  simp only [Dev.drainFrames]
  (repeat' split) <;> simp

@[simp] theorem sendFrame_supply (d : Dev) (l type cls dest : Nat) (payload : Bytes) (source : Option Nat) :
    (d.sendFrame l type cls dest payload source).module = d.module ∧ (d.sendFrame l type cls dest payload source).power.domains = d.power.domains := by
  simp only [Dev.sendFrame]
  (repeat' split) <;> simp

@[simp] theorem sendDown_supply (d : Dev) (type cls : Nat) (payload : Bytes) (except_ : Option Nat) :
    (d.sendDown type cls payload except_).module = d.module ∧ (d.sendDown type cls payload except_).power.domains = d.power.domains := by
  simp [Dev.sendDown]

@[simp] theorem leaderSend_supply (d : Dev) (g : Group) (type reason : Nat) (body : Bytes) :
    (d.leaderSend g type reason body).module = d.module ∧ (d.leaderSend g type reason body).power.domains = d.power.domains := by
  simp only [Dev.leaderSend]
  (repeat' split) <;> simp

@[simp] theorem modComet_supply (d : Dev) (c : Comet) (f : Comet → Comet) :
    (d.modComet c f).module = d.module ∧ (d.modComet c f).power.domains = d.power.domains := by
  simp [Dev.modComet]

@[simp] theorem stopSearch_supply (d : Dev) (h : Nat) :
    (d.stopSearch h).module = d.module ∧ (d.stopSearch h).power.domains = d.power.domains :=
  ⟨foldl_module _ (fun _ _ => rfl) (headAxes h) d, foldl_domains _ (fun _ _ => rfl) (headAxes h) d⟩

@[simp] theorem toHold_supply (d : Dev) (a : Nat) :
    (d.toHold a).module = d.module ∧ (d.toHold a).power.domains = d.power.domains := by
  simp [Dev.toHold]

@[simp] theorem stopAxis_supply (d : Dev) (a : Nat) :
    (d.stopAxis a).module = d.module ∧ (d.stopAxis a).power.domains = d.power.domains := by
  unfold Dev.stopAxis
  (repeat' split) <;> simp

@[simp] theorem stopPair_supply (d : Dev) (north south plane : Nat) :
    (d.stopPair north south plane).module = d.module ∧ (d.stopPair north south plane).power.domains = d.power.domains := by
  simp [Dev.stopPair]

@[simp] theorem dropComet_supply (d : Dev) (c : Comet) :
    (d.dropComet c).module = d.module ∧ (d.dropComet c).power.domains = d.power.domains := by
  simp [Dev.dropComet]

@[simp] theorem release_supply (d : Dev) (cls holder : Nat) :
    (d.release cls holder).power.domains = d.power.domains := by
  simp [Dev.release]

@[simp] theorem slewDone_supply (d : Dev) (j entry : Nat) :
    (d.slewDone j entry).module = d.module ∧ (d.slewDone j entry).power.domains = d.power.domains := by
  unfold Dev.slewDone
  (repeat' split) <;> simp

@[simp] theorem podSend_supply (d : Dev) (q type : Nat) (payload : Bytes) :
    (d.podSend q type payload).module = d.module ∧ (d.podSend q type payload).power.domains = d.power.domains := by
  simp [Dev.podSend]

@[simp] theorem sendMonitor_supply (d : Dev) (q : Nat) :
    (d.sendMonitor q).module = d.module ∧ (d.sendMonitor q).power.domains = d.power.domains := by
  simp [Dev.sendMonitor]

@[simp] theorem sendMonitors_supply (d : Dev) (ports : List Nat) :
    (d.sendMonitors ports).module = d.module ∧ (d.sendMonitors ports).power.domains = d.power.domains := by
  simp [Dev.sendMonitors]

@[simp] theorem abortComet_supply (d : Dev) (c : Comet) :
    (d.abortComet c).module = d.module ∧ (d.abortComet c).power.domains = d.power.domains := by
  unfold Dev.abortComet
  (repeat' split) <;> simp

@[simp] theorem abortJobComets_supply (d : Dev) (j : Nat) :
    (d.abortJobComets j).module = d.module ∧ (d.abortJobComets j).power.domains = d.power.domains := by
  simp [Dev.abortJobComets]

@[simp] theorem placeNext_supply (d : Dev) (j t : Nat) :
    (d.placeNext j t).module = d.module ∧ (d.placeNext j t).power.domains = d.power.domains := by
  simp [Dev.placeNext]

@[simp] theorem memberCancel_supply (d : Dev) (j reason : Nat) :
    (d.memberCancel j reason).module = d.module ∧ (d.memberCancel j reason).power.domains = d.power.domains := by
  simp only [Dev.memberCancel]
  (repeat' split) <;> simp

@[simp] theorem lateRetract_supply (d : Dev) (j : Nat) :
    (d.lateRetract j).module = d.module ∧ (d.lateRetract j).power.domains = d.power.domains := by
  simp [Dev.lateRetract]

@[simp] theorem memberRetract_supply (d : Dev) (j reason : Nat) :
    (d.memberRetract j reason).module = d.module ∧ (d.memberRetract j reason).power.domains = d.power.domains := by
  simp [Dev.memberRetract]

@[simp] theorem leaderRetract_supply (d : Dev) (g : Group) (reason : Nat) :
    (d.leaderRetract g reason).module = d.module ∧ (d.leaderRetract g reason).power.domains = d.power.domains := by
  simp only [Dev.leaderRetract]
  (repeat' split) <;> simp

@[simp] theorem nameOnce_supply (d : Dev) (m : CMsg) (f : Dev → Dev)
    (h : ∀ e, (f e).module = e.module ∧ (f e).power.domains = e.power.domains) :
    (d.nameOnce m f).module = d.module ∧ (d.nameOnce m f).power.domains = d.power.domains := by
  simp only [Dev.nameOnce]
  split
  · exact ⟨rfl, rfl⟩
  · exact h _

@[simp] theorem openGroup_supply (d : Dev) (g : Group) (soloJob : Bool) :
    (d.openGroup g soloJob).module = d.module ∧ (d.openGroup g soloJob).power.domains = d.power.domains := by
  simp [Dev.openGroup]

@[simp] theorem memberHold_supply (d : Dev) (j reason : Nat) :
    (d.memberHold j reason).module = d.module ∧ (d.memberHold j reason).power.domains = d.power.domains := by
  simp only [Dev.memberHold]
  (repeat' split) <;> simp

@[simp] theorem leaderHold_supply (d : Dev) (g : Group) (reason : Nat) :
    (d.leaderHold g reason).module = d.module ∧ (d.leaderHold g reason).power.domains = d.power.domains := by
  simp only [Dev.leaderHold]
  (repeat' split) <;> simp

@[simp] theorem sendTuner_supply (d : Dev) (q bank : Nat) (ws : List TWrite) :
    (d.sendTuner q bank ws).module = d.module ∧ (d.sendTuner q bank ws).power.domains = d.power.domains := by
  simp [Dev.sendTuner]

@[simp] theorem stageWrites_supply (d : Dev) (bank : Nat) (ws : List TWrite) :
    (d.stageWrites bank ws).module = d.module ∧ (d.stageWrites bank ws).power.domains = d.power.domains := by
  simp [Dev.stageWrites]

@[simp] theorem noteClamp_supply (d : Dev) (p k weight : Nat) :
    (d.noteClamp p k weight).module = d.module ∧ (d.noteClamp p k weight).power.domains = d.power.domains := by
  unfold Dev.noteClamp
  (repeat' split) <;> simp

@[simp] theorem stageEntry_supply (d : Dev) (j : Nat) (es : List CEntry) :
    (d.stageEntry j es).module = d.module ∧ (d.stageEntry j es).power.domains = d.power.domains := by
  simp [Dev.stageEntry]

@[simp] theorem memberConfirm_supply (d : Dev) (j : Nat) :
    (d.memberConfirm j).module = d.module ∧ (d.memberConfirm j).power.domains = d.power.domains := by
  simp only [Dev.memberConfirm]
  (repeat' split) <;> simp

@[simp] theorem tallyAck_supply (d : Dev) (g : Group) (tag z ack fail sender reason : Nat) :
    (d.tallyAck g tag z ack fail sender reason).module = d.module ∧ (d.tallyAck g tag z ack fail sender reason).power.domains = d.power.domains := by
  simp only [Dev.tallyAck]
  (repeat' split) <;> simp

@[simp] theorem groupAck_supply (d : Dev) (tag z entry crc ack fail sender reason : Nat) :
    (d.groupAck tag z entry crc ack fail sender reason).module = d.module ∧ (d.groupAck tag z entry crc ack fail sender reason).power.domains = d.power.domains := by
  unfold Dev.groupAck
  (repeat' split) <;> simp

@[simp] theorem sendUp_supply (d : Dev) (type cls : Nat) (payload : Bytes) :
    (d.sendUp type cls payload).module = d.module ∧ (d.sendUp type cls payload).power.domains = d.power.domains := by
  simp only [Dev.sendUp]
  (repeat' split) <;> simp

@[simp] theorem ackAgain_supply (d : Dev) (j : Nat) :
    (d.ackAgain j).module = d.module ∧ (d.ackAgain j).power.domains = d.power.domains := by
  unfold Dev.ackAgain
  (repeat' split) <;> simp

@[simp] theorem sendAck_supply (d : Dev) (j reason : Nat) :
    (d.sendAck j reason).module = d.module ∧ (d.sendAck j reason).power.domains = d.power.domains := by
  simp [Dev.sendAck]

@[simp] theorem memberAck_supply (d : Dev) (j reason : Nat) :
    (d.memberAck j reason).module = d.module ∧ (d.memberAck j reason).power.domains = d.power.domains := by
  simp [Dev.memberAck]

@[simp] theorem stageComets_supply (d : Dev) (j : Nat) :
    (d.stageComets j).module = d.module ∧ (d.stageComets j).power.domains = d.power.domains := by
  simp [Dev.stageComets]

@[simp] theorem armStrobe_supply (d : Dev) (s : Strobe) :
    (d.armStrobe s).1.module = d.module ∧ (d.armStrobe s).1.power.domains = d.power.domains := by
  unfold Dev.armStrobe
  (repeat' split) <;> simp

@[simp] theorem armAll_supply (d : Dev) (j : Nat) (l : List Stage) :
    (d.armAll j l).1.module = d.module ∧ (d.armAll j l).1.power.domains = d.power.domains := by
  induction l generalizing d with
  | nil => exact ⟨rfl, rfl⟩
  | cons s t ih =>
    simp only [Dev.armAll]
    split
    · simp [ih]
    · simp

@[simp] theorem memberGo_supply (d : Dev) (j : Nat) :
    (d.memberGo j).module = d.module ∧ (d.memberGo j).power.domains = d.power.domains := by
  simp only [Dev.memberGo]
  (repeat' split) <;> simp

@[simp] theorem leaderGo_supply (d : Dev) (g : Group) :
    (d.leaderGo g).module = d.module ∧ (d.leaderGo g).power.domains = d.power.domains := by
  simp only [Dev.leaderGo]
  (repeat' split) <;> simp

@[simp] theorem groupVote_supply (d : Dev) (m : CMsg) (members ready notReady : Nat) :
    (d.groupVote m members ready notReady).module = d.module ∧ (d.groupVote m members ready notReady).power.domains = d.power.domains := by
  simp only [Dev.groupVote]
  (repeat' split) <;> simp

@[simp] theorem voteAgain_supply (d : Dev) (j : Nat) :
    (d.voteAgain j).module = d.module ∧ (d.voteAgain j).power.domains = d.power.domains := by
  unfold Dev.voteAgain
  (repeat' split) <;> simp

@[simp] theorem leadOwn_supply (d : Dev) (j : Nat) :
    (d.leadOwn j).module = d.module ∧ (d.leadOwn j).power.domains = d.power.domains := by
  simp [Dev.leadOwn]

@[simp] theorem updateLeader_supply (d : Dev) :
    d.updateLeader.module = d.module ∧ d.updateLeader.power.domains = d.power.domains := by
  unfold Dev.updateLeader
  (repeat' split) <;> simp

@[simp] theorem settle_supply (d : Dev) :
    d.settle.module = d.module ∧ d.settle.power.domains = d.power.domains := by
  simp [Dev.settle]

@[simp] theorem emergency_supply (d : Dev) (code event seq : Nat) :
    (d.emergency code event seq).module = d.module ∧ (d.emergency code event seq).power.domains = d.power.domains := by
  unfold Dev.emergency
  (repeat' split) <;> simp

@[simp] theorem setState_supply (d : Dev) (x : DirState) (c : Cause) :
    (d.setState x c).module = d.module ∧ (d.setState x c).power.domains = d.power.domains := by
  simp only [Dev.setState]
  (repeat' split) <;> simp

@[simp] theorem sendVote_supply (d : Dev) (j : Nat) (reason : Nat) :
    (d.sendVote j reason).module = d.module ∧ (d.sendVote j reason).power.domains = d.power.domains := by
  simp [Dev.sendVote]

@[simp] theorem memberQuit_supply (d : Dev) (j reason : Nat) :
    (d.memberQuit j reason).module = d.module ∧ (d.memberQuit j reason).power.domains = d.power.domains := by
  unfold Dev.memberQuit
  (repeat' split) <;> simp

@[simp] theorem holdEntries_supply (d : Dev) (reason : Nat) :
    (d.holdEntries reason).module = d.module ∧ (d.holdEntries reason).power.domains = d.power.domains := by
  simp [Dev.holdEntries]

@[simp] theorem calStatus_supply (d : Dev) (p lane result suspect : Nat) (countUp : Bool) :
    (d.calStatus p lane result suspect countUp).module = d.module ∧ (d.calStatus p lane result suspect countUp).power.domains = d.power.domains := by
  unfold Dev.calStatus
  (repeat' split) <;> simp

@[simp] theorem setRoute_supply (d : Dev) (p plane lanes : Nat) (ks : List Nat) :
    (d.setRoute p plane lanes ks).module = d.module ∧ (d.setRoute p plane lanes ks).power.domains = d.power.domains := by
  simp [Dev.setRoute]

@[simp] theorem laneBack_supply (d : Dev) (r : Round) :
    (d.laneBack r).module = d.module ∧ (d.laneBack r).power.domains = d.power.domains := by
  simp [Dev.laneBack]

@[simp] theorem closeRound_supply (d : Dev) (r : Round) :
    (d.closeRound r).module = d.module ∧ (d.closeRound r).power.domains = d.power.domains := by
  simp only [Dev.closeRound, sendMonitors_supply]
  exact ⟨(foldl_module (fun (d : Dev) (p : Nat) => d.modBank p (fun b => { b with calOut := setBit b.calOut r.lane false }))
      (fun _ _ => modBank_module _ _ _) r.ports _).trans (laneBack_supply _ r).1,
    (foldl_domains (fun (d : Dev) (p : Nat) => d.modBank p (fun b => { b with calOut := setBit b.calOut r.lane false }))
      (fun _ _ => congrArg (·.domains) (modBank_power _ _ _)) r.ports _).trans (laneBack_supply _ r).2⟩

@[simp] theorem modRound_supply (d : Dev) (r : Round) (f : Round → Round) :
    (d.modRound r f).module = d.module ∧ (d.modRound r f).power.domains = d.power.domains := by
  simp [Dev.modRound]

@[simp] theorem sendDesc_supply (d : Dev) (j : Nat) (s : Strobe) :
    (d.sendDesc j s).module = d.module ∧ (d.sendDesc j s).power.domains = d.power.domains := by
  simp [Dev.sendDesc]

@[simp] theorem fixStrobe_supply (d : Dev) (s : Strobe) :
    (d.fixStrobe s).module = d.module ∧ (d.fixStrobe s).power.domains = d.power.domains := by
  simp [Dev.fixStrobe]

@[simp] theorem armFixed_supply (d : Dev) (s : Strobe) :
    (d.armFixed s).module = d.module ∧ (d.armFixed s).power.domains = d.power.domains := by
  simp only [Dev.armFixed]
  (repeat' split) <;> simp

@[simp] theorem laneIn_supply (d : Dev) (r : Round) (z : Nat) :
    (d.laneIn r z).module = d.module ∧ (d.laneIn r z).power.domains = d.power.domains := by
  simp [Dev.laneIn]

@[simp] theorem abortRound_supply (d : Dev) (r : Round) :
    (d.abortRound r).module = d.module ∧ (d.abortRound r).power.domains = d.power.domains := by
  unfold Dev.abortRound
  (repeat' split) <;> simp

@[simp] theorem abortRounds_supply (d : Dev) (sel : Round → Bool) :
    (d.abortRounds sel).module = d.module ∧ (d.abortRounds sel).power.domains = d.power.domains := by
  simp [Dev.abortRounds]

@[simp] theorem reserve_supply (d : Dev) (j : Nat) :
    (d.reserve j).module = d.module ∧ (d.reserve j).power.domains = d.power.domains := by
  simp only [Dev.reserve]
  (repeat' split) <;> simp

@[simp] theorem revote_supply (d : Dev) (j : Nat) :
    (d.revote j).module = d.module ∧ (d.revote j).power.domains = d.power.domains := by
  unfold Dev.revote
  (repeat' split) <;> simp

@[simp] theorem revoteAll_supply (d : Dev) :
    d.revoteAll.module = d.module ∧ d.revoteAll.power.domains = d.power.domains := by
  simp [Dev.revoteAll]

@[simp] theorem sendDiscHello_supply (d : Dev) (i : Nat) :
    (d.sendDiscHello i).module = d.module ∧ (d.sendDiscHello i).power.domains = d.power.domains := by
  simp only [Dev.sendDiscHello]
  (repeat' split) <;> simp

@[simp] theorem sendDiscHellos_supply (d : Dev) :
    d.sendDiscHellos.module = d.module ∧ d.sendDiscHellos.power.domains = d.power.domains := by
  simp [Dev.sendDiscHellos]

@[simp] theorem sendDiscState_supply (d : Dev) :
    d.sendDiscState.module = d.module ∧ d.sendDiscState.power.domains = d.power.domains := by
  simp [Dev.sendDiscState]

@[simp] theorem announce_supply (d : Dev) :
    d.announce.module = d.module ∧ d.announce.power.domains = d.power.domains := by
  simp [Dev.announce]

@[simp] theorem enterHold_supply (d : Dev) (c : Cause) :
    (d.enterHold c).module = d.module ∧ (d.enterHold c).power.domains = d.power.domains := by
  simp [Dev.enterHold]

@[simp] theorem setTState_supply (d : Dev) (x : TState) :
    (d.setTState x).module = d.module ∧ (d.setTState x).power.domains = d.power.domains := by
  unfold Dev.setTState
  (repeat' split) <;> simp

@[simp] theorem rootPtpStatus_supply (d : Dev) :
    d.rootPtpStatus.module = d.module ∧ d.rootPtpStatus.power.domains = d.power.domains := by
  unfold Dev.rootPtpStatus
  (repeat' split) <;> simp

@[simp] theorem reselect_supply (d : Dev) :
    d.reselect.module = d.module ∧ d.reselect.power.domains = d.power.domains := by
  simp [Dev.reselect]

@[simp] theorem topologyChanged_supply (d : Dev) :
    d.topologyChanged.module = d.module ∧ d.topologyChanged.power.domains = d.power.domains := by
  simp [Dev.topologyChanged]

@[simp] theorem dropDrive_supply (d : Dev) (hold : Bool) (r : TRole) :
    (d.dropDrive hold r).module = d.module ∧ (d.dropDrive hold r).power.domains = d.power.domains := by
  unfold Dev.dropDrive
  (repeat' split) <;> simp

@[simp] theorem closeContext_supply (d : Dev) (l : Nat) :
    (d.closeContext l).module = d.module ∧ (d.closeContext l).power.domains = d.power.domains := by
  simp [Dev.closeContext]

@[simp] theorem disableService_supply (d : Dev) (n : Nat) :
    (d.disableService n).module = d.module ∧ (d.disableService n).power.domains = d.power.domains := by
  unfold Dev.disableService
  (repeat' split) <;> simp

@[simp] theorem aimSelector_supply (d : Dev) :
    d.aimSelector.module = d.module ∧ d.aimSelector.power.domains = d.power.domains := by
  simp [Dev.aimSelector]

@[simp] theorem enginePlanned_supply (d : Dev) (j : Nat) :
    (d.enginePlanned j).module = d.module ∧ (d.enginePlanned j).power.domains = d.power.domains := by
  unfold Dev.enginePlanned
  (repeat' split) <;> simp

@[simp] theorem dropColl_supply (d : Dev) (r : TRole) :
    (d.dropColl r).module = d.module ∧ (d.dropColl r).power.domains = d.power.domains := by
  unfold Dev.dropColl
  (repeat' split) <;> simp

@[simp] theorem leaveRoles_supply (d : Dev) :
    d.leaveRoles.module = d.module ∧ d.leaveRoles.power.domains = d.power.domains := by
  simp [Dev.leaveRoles]

@[simp] theorem dropGrants_supply (d : Dev) (hold : Bool) :
    (d.dropGrants hold).module = d.module ∧ (d.dropGrants hold).power.domains = d.power.domains := by
  simp [Dev.dropGrants]

end Sys2Proof.Machine
end

section
/-!
PROOFS. Supplies, cold and warm starts, and losses of supply or reference.
-/

namespace Sys2Proof.Machine
open Sys2Proof
set_option Elab.async false

/-- Whether a domain is on is read from the module's aux supply and the domains alone. -/
theorem isOn_of_supply {d e : Dev} (h : e.module = d.module ∧ e.power.domains = d.power.domains) (k : Nat) : e.isOn k = d.isOn k := by
  unfold Dev.isOn Dev.domain
  rw [h.1, h.2]

/-- A receiver's queue that is flushed leaves what the module counts. -/
theorem flushed_module (d : Dev) (r : Receiver) : (d.flushed r).module = d.module := by
  cases r with
  | lane l k => exact flushedLane_sameBut d l k .module (by decide)
  | _ => rfl

/-- Settles O6: the starts by what a cold start leaves, the losses by what PD0 cuts. -/
theorem powerStarts : Obligations.PowerStarts := by
  unfold Obligations.PowerStarts
  refine ⟨fun s straps ref hd => ⟨_, rfl, ?cold⟩, fun s => ⟨_, rfl, ?charged⟩, fun s => ⟨_, rfl, rfl, rfl, ?fail⟩,
    fun s hm => ⟨_, rfl, ?restored⟩, fun s => ⟨_, rfl, rfl, ?reset⟩, fun s => ⟨_, rfl, rfl, rfl, ?aux⟩,
    fun s low id => ⟨_, rfl, rfl, rfl, rfl⟩, fun s core ctrl h => ⟨_, rfl, ?refclk⟩, fun s h3 hr => ⟨_, rfl, ?timeRef, rfl⟩,
    fun s r words => ⟨_, rfl, ?lock⟩, fun s hl => ⟨_, rfl, ?discharged⟩⟩
  case cold =>
    obtain ⟨hm, -, hs, hr, -, hu, hc⟩ := coldStart_facts
      ({ s.dev with module := { s.dev.module with aux := true, main := true, coldReset := false, mainLostAt := none } }, s.hbm) straps ref .cold
    simp only [State.onMem, hd, Bool.not_true, Bool.false_eq_true, if_false]
    exact ⟨hs, hr, hm, hu, hc⟩
  case charged => simp [State.onDev]
  case fail => exact ⟨(cutPower_loses _ true).1, fun k h1 h15 => cut_off (s.dev, s.hbm) true k h1 h15⟩
  case restored =>
    simp only [State.onMem, hm, Bool.false_eq_true, if_false]
    split
    · exact ⟨rfl, rfl⟩
    · obtain ⟨hmain, hlost, -⟩ := coldStart_facts ({ s.dev with module := { s.dev.module with main := true, mainLostAt := none } }, s.hbm)
        s.dev.module.straps s.dev.module.timeRef .cold
      exact ⟨hmain, hlost⟩
  case reset => exact cutPower_loses (s.dev, s.hbm) true
  case aux => exact ⟨Nat.zero_div _, (cutPower_loses _ false).1⟩
  case refclk =>
    have hlost : (core || ctrl) = true := by simpa using h
    simp only [State.onDev, hlost, if_true, true_and]
    intro on
    exact raise_soak _ _ _ _ _ _ _ ((isOn_of_supply (dropGrants_supply _ false) 1).trans on) (le_refl 3)
  case timeRef =>
    simp [State.onDev, h3, hr]
  case lock =>
    simp [State.onDev, flushed_module, Dev.discard]
  case discharged =>
    obtain ⟨a, ha⟩ := Option.ne_none_iff_exists'.mp hl
    simp [State.onDev, ha]

end Sys2Proof.Machine
end
